-- ==== Sys2Proof/Word.lean ====
section
/-! DEFINITION. The word types of the model: fixed-width words where the manual treats a value as bits (R4, R5), and the
byte strings of frames and objects. -/
namespace Sys2Proof

/-- A 64-bit word: a register of a thread, a counter, a sequence number. -/
abbrev Word := BitVec 64

/-- An object address of the command interface (R8): block in [47:40], offset in [39:0]. -/
abbrev ObjAddr := BitVec 48

/-- A byte. -/
abbrev Byte := BitVec 8

/-- A byte string, first byte first. -/
abbrev Bytes := List Byte

end Sys2Proof
end

