-- ==== Sys2Proof/Syntax.lean ====
section
/-! DEFINITION. The commands of the block: one constructor of `Instr` for each row of spec/opcode_table.json, and the
operand types. The table gives no operands; each command carries what the rule of its row names. A cryptographic check, a
CRC or an ECC outcome comes as a verdict with the frame or the completion that it belongs to. -/
namespace Sys2Proof

/-- The two management ports (R34). -/
inductive MgmtPort where
  | ma | mb
  deriving DecidableEq, Repr

/-- A Jutos command as its row names it: its session and the SEQ of its first fragment (R55). -/
structure Hdr where
  sid : Fin 64
  seq : Word
  deriving DecidableEq, Repr

/-- A key of AES-256-GCM with the salt of its nonces (R39, R47). -/
structure SealKey where
  key  : BitVec 256
  salt : BitVec 32
  deriving DecidableEq, Repr

/-- The four keys of a session (R47): command frames from the host, replies and events to it, injects from it, punts to it. -/
structure SessKeys where
  cmdIn  : SealKey
  cmdOut : SealKey
  piIn   : SealKey
  piOut  : SealKey
  deriving DecidableEq, Repr

/-- What a GCM tag is made under: the key, the nonce and the additional authenticated data (R39). -/
structure Seal where
  key   : BitVec 256
  nonce : BitVec 96
  aad   : BitVec 128
  deriving DecidableEq, Repr

/-- A frame received on a management port (R36, R38); `tag` says under which key, nonce and additional data the frame's tag verifies,
none when under none, and `op`, `res`, `plen` are the first eight plaintext bytes of a command's first fragment (R54). -/
structure JutosFrame where
  fcsOk     : Bool
  len       : Nat
  dst       : BitVec 48
  src       : BitVec 48
  vids      : List (BitVec 12)
  etherType : BitVec 16
  version   : BitVec 8
  kind      : BitVec 8
  session   : BitVec 8
  frag      : BitVec 8
  seq       : Word
  bodyLen   : BitVec 16
  reserved  : BitVec 16
  tag       : Option Seal
  op        : BitVec 16
  res       : BitVec 16
  plen      : BitVec 32
  deriving DecidableEq, Repr

/-- An open request body (R44). -/
structure OpenReq where
  bodyLen   : Nat
  openVer   : BitVec 8
  access    : BitVec 8
  reserved  : BitVec 16
  hostNonce : BitVec 256
  hostEph   : BitVec 776
  opKey     : BitVec 776
  opSig     : BitVec 768
  deriving DecidableEq, Repr

/-- What an open reply with STATUS OK carries beside its first four bytes (R45): DEV_NONCE, DEV_EPH, DEV_SIG. -/
structure OpenTail where
  nonce : BitVec 256
  eph   : BitVec 776
  sig   : BitVec 768
  deriving DecidableEq, Repr

/-- What a frame holds once any MACsec protection is removed: `toPtp` a PTP message of the shape and
address of R423, `window` its first 256 bytes. -/
structure Content where
  etherType : BitVec 16
  opcode    : BitVec 16
  pfcEn     : BitVec 8
  quanta    : List (BitVec 16)
  tag       : Option (BitVec 16 × BitVec 3)
  toPtp     : Bool
  window    : BitVec 2048
  deriving DecidableEq, Repr

/-- The SecTAG of a frame of EtherType 0x88E5 (R241): `slOk` says SL agrees with the frame's length, `fits` that the frame
holds its SecTAG and ICV, `icvOk` is the verdict of the GCM check, `window` is the header window as it arrived. -/
structure SecTag where
  v     : Bool
  es    : Bool
  sc    : Bool
  e     : Bool
  c     : Bool
  slOk  : Bool
  fits  : Bool
  an    : BitVec 2
  pn    : BitVec 32
  sci   : BitVec 64
  icvOk : Bool
  window : BitVec 2048
  deriving DecidableEq, Repr

/-- What an entry of the billet ring turns out to be when a draw meets it (R282): one whose billet is allocated already, or one that cannot
be read, with the billet it named. -/
inductive RingMeet where
  | allocated (h : Fin 524288)
  | unreadable (h : Fin 524288)
  deriving DecidableEq, Repr

/-- A frame arriving on a line port (R182): `bad64` an invalid start or a PCS error before its 64th byte, `fecBad` an
uncorrectable FEC codeword inside it, `pcsBad` a PCS error inside it (R183), `bufBad` an uncorrectable error in a MAC buffer (R206);
`fecWords` and `fecSyms` are the codewords and the symbols that the FEC corrected with it (R202, R205), `ring` the bad ring entries that
its draws meet (R282). -/
structure LineFrame where
  len     : Nat
  bad64   : Bool
  fecBad  : Bool
  pcsBad  : Bool
  fcsOk   : Bool
  bufBad  : Bool
  fecWords : Nat
  fecSyms : Nat
  ring    : List RingMeet
  da      : BitVec 48
  sa      : BitVec 48
  sec     : Option SecTag
  content : Content
  deriving DecidableEq, Repr

/-- How much of a frame a reception brings (R81, R183, R185, R243): all of it; its start, whose header goes on before the end has come; or
the end of the oldest frame of the port that has started. A start carries the length that the frame turns out to have, which the device
does not use before the end, and its verdicts come with the end. -/
inductive FramePart where
  | whole | head | tail
  deriving DecidableEq, Repr

/-- Inject metadata and packet (R65); `resOk` says the 13 reserved bytes are zero. -/
structure InjectMeta where
  mode    : BitVec 8
  port    : BitVec 8
  tc      : BitVec 8
  resOk   : Bool
  len     : Nat
  content : Content
  deriving DecidableEq, Repr

/-- Where dispatch takes its next header from (R26, R27, R65). -/
inductive HeaderSource where
  | port (p : Fin 48)
  | inject
  | egress
  deriving DecidableEq, Repr

/-- What the checks of R97 find for the thread when a microinstruction issues. -/
inductive MicroCheck where
  | clean | parityMicro | parityNano | regUncorrectable | regCorrected
  deriving DecidableEq, Repr

/-- What a lookup meets in its SRAM (R150, R172): nothing; a corrected error, or for PAT a parity error that is repaired; an
uncorrectable word, by its place among the words that the lookup reads; an uncorrectable leaf cache line. -/
inductive LookEcc where
  | clean | corrected (i : Nat) | badWord (i : Nat) | badLine
  deriving DecidableEq, Repr

/-- An ECC outcome of an HBM read of a mirrored line (R151); the last names the entries of the line, bit i the i-th, that both copies
of the entry store have lost. -/
inductive CopyEcc where
  | clean | oneCopyBad | bothBad | entryStoreBad (lost : BitVec 8)
  deriving DecidableEq, Repr

/-- What a step of the shadow sweep finds (R171, R172); words 0 to 262,143 are rule entries, lines follow. -/
inductive SweepFind where
  | mismatch (bank : Fin 2) (word : Nat)
  | shadowBad (bank : Fin 2) (word : Nat)
  | bothBad (bank : Fin 2) (word : Nat)
  | complete
  deriving DecidableEq, Repr

/-- What a two-wire transaction meets (R191). -/
inductive TwbOutcome where
  | timeout | noAck | sdaLow (recovered : Bool)
  deriving DecidableEq, Repr

/-- What an optics identity read returns (R192, R341): the 256 bytes, for which values of MODE it advertises an application (bit
15: one with a 4-lane host interface at 106.25 Gb/s per lane, for a fabric cable), and whether the read came through. -/
structure IdentityRead where
  bytes    : BitVec 2048
  appMatch : BitVec 16
  readOk   : Bool
  deriving DecidableEq, Repr

/-- The outcome of a module access (R203, RESULT). -/
inductive ModResult where
  | done | noAck | timeout | busOut
  deriving DecidableEq, Repr

/-- A received BFD control packet (R196). -/
structure BfdPacket where
  version  : Nat
  lenOk    : Bool
  mult     : Nat
  myDisc   : BitVec 32
  yourDisc : BitVec 32
  aBit     : Bool
  mBit     : Bool
  poll     : Bool
  final    : Bool
  state    : BitVec 2
  ttl      : Nat
  srcAddr  : BitVec 128
  dmti     : Nat
  rmri     : Nat
  deriving DecidableEq, Repr

/-- A received LACPDU: the partner's system, key and state (R199). -/
structure Lacpdu where
  sysPrio : BitVec 16
  sysId   : BitVec 48
  key     : BitVec 16
  port    : BitVec 16
  sync    : Bool
  collecting : Bool
  aggregatable : Bool
  deriving DecidableEq, Repr

/-- A received OTUC frame of one instance, with the ODUflex frame that ends with it (R213, R215, R224): violating bits and BEI by layer;
BDI, IAE and STAT; the TTI multiframe that ends with it, by layer; the PSI multiframe that ends with it, its PT and for each slot the
tributary port number when it is allocated; the content of the instance's tributary slots, by slot (R211); and what an error in the
connection memories meets while it passes (R234): the tributary of an uncorrectable interchange buffer word, or the slot of an
uncorrectable entry of the ACTIVE page. -/
structure OtuFrame where
  inst    : Fin 8
  fasOk   : Bool
  mfasOk  : Bool
  smBip   : Fin 9
  pmBip   : Fin 9
  pktBip  : Fin 9
  smBei   : BitVec 4
  pmBei   : BitVec 4
  pktBei  : BitVec 4
  smBdi   : Bool
  smIae   : Bool
  pmBdi   : Bool
  pmStat  : BitVec 3
  pktBdi  : Bool
  pktStat : BitVec 3
  gmpCrcBad : Bool
  smTti   : Option (BitVec 512)
  pmTti   : Option (BitVec 512)
  pktTti  : Option (BitVec 512)
  psi     : Option (BitVec 8 × List (Option (BitVec 14)))
  pktPt   : Option (BitVec 8)
  slots   : List (Fin 160 × Nat)
  tribBad : Option (BitVec 12)
  entryBad : Option (Fin 160)
  deriving DecidableEq, Repr

/-- How a GFP header CRC comes out (R217). -/
inductive HecCheck where
  | ok | single | multi
  deriving DecidableEq, Repr

/-- A GFP frame or, in HUNT, a byte position tested (R217, R218); `cut` says that the machine leaves SYNC inside it, `bufBad` that
an uncorrectable error of the GFP buffers meets it (R234). -/
structure GfpFrame where
  chec   : HecCheck
  pli    : Nat
  thec   : HecCheck
  pti    : BitVec 3
  upi    : BitVec 8
  exi    : BitVec 4
  pfcsOk : Bool
  cut    : Bool
  bufBad : Bool
  frame  : LineFrame
  deriving DecidableEq, Repr

/-- The defects of a framed port (R224), as the framing status object lists them: with its lane or instance, and for dMSIM the
slots that mismatch. -/
inductive Defect where
  | los (lane : Fin 8)
  | lof (inst : Fin 8)
  | lom (inst : Fin 8)
  | lol | smTim | smBdi | smDeg | smIae | pmAis | pmOci | pmLck | pmTim | pmBdi | pmDeg | plm
  | msim (slots : BitVec 160)
  | ptLoflom | ptAis | ptOci | ptLck | ptPlm | ptTim | ptBdi | ptDeg | lfd | csf
  deriving DecidableEq, Repr

/-- How the transmission of a frame goes (R186, R268): it is held to its end and good; it turns bad, or runs out of bytes, after
its start, with `sent` bytes gone; a MAC buffer or a core's datapath check fails. -/
inductive TxFate where
  | whole
  | turnsBad (sent : Nat)
  | underrun (sent : Nat)
  | coreFailed (sent : Nat) (core : Fin 64)
  | bufFailed (sent : Nat)
  deriving DecidableEq, Repr

/-- KEY_SLOT_WRITE PARAMS with CLASS 0x01, or with a CLASS that R253 does not list. -/
structure SaParams where
  paramLen : Nat
  cls      : BitVec 8
  slot     : BitVec 16
  suite    : BitVec 8
  dir      : BitVec 8
  port     : BitVec 8
  an       : BitVec 8
  sci      : BitVec 64
  ssci     : BitVec 32
  initPn   : BitVec 64
  thresh   : BitVec 64
  key      : BitVec 256
  salt     : BitVec 96
  resOk    : Bool
  deriving DecidableEq, Repr

/-- KEY_SLOT_WRITE PARAMS with CLASS 0x02 (R254). -/
structure CakParams where
  paramLen : Nat
  slot     : BitVec 16
  cknLen   : BitVec 8
  ckn      : BitVec 256
  cak      : BitVec 256
  resOk    : Bool
  deriving DecidableEq, Repr

/-- A received MKPDU (R260, R261): the verdicts of its structure and ICV, its CKN, its member's SCI, message number and
priority, whether that member is live in its peer list, the suite of a distributed SAK, and whether it reports the
current SAK as received or as transmitting. -/
structure Mkpdu where
  wellFormed : Bool
  ckn        : BitVec 256
  icvOk      : Bool
  member     : BitVec 96
  sci        : BitVec 64
  mn         : BitVec 32
  prio       : Nat
  live       : Bool
  sakSuite   : Option (BitVec 2)
  sak        : BitVec 256
  rxInstalled : Bool
  txUnder    : Bool
  deriving DecidableEq, Repr

/-- What a page read or its page link entry meets (R302); a packet of the page is named by its place. -/
inductive PageRead where
  | clean | badRecord | badDescriptor (i : Nat) | badBillet (i : Nat) | linkOneCopy | linkBothCopies
  deriving DecidableEq, Repr

/-- A hello word from a peer (R347). -/
structure Hello where
  serial    : BitVec 64
  addr      : BitVec 12
  addrValid : Bool
  link      : BitVec 6
  planHash  : BitVec 32
  cableCrc  : BitVec 32
  deriving DecidableEq, Repr

/-- A link-state record (R350, R382). -/
structure LinkRecord where
  addr   : BitVec 12
  serial : BitVec 64
  time   : Nat
  mask   : BitVec 64
  inc    : BitVec 16
  deriving DecidableEq, Repr

/-- A fabric cell (R368): header fields, the verdicts of HCRC and of the trailer CRC, POISON, and whether an uncorrectable FEC codeword came
with it. -/
structure Cell where
  type    : BitVec 2
  hops    : BitVec 3
  derouted : BitVec 3
  tc      : BitVec 3
  copy    : Bool
  src     : BitVec 12
  dst     : BitVec 16
  port    : BitVec 6
  seq     : BitVec 18
  recOff  : BitVec 8
  endOff  : BitVec 8
  credVc  : BitVec 3
  credN   : BitVec 5
  hcrcOk  : Bool
  poison  : Bool
  crcOk   : Bool
  fecBad  : Bool
  fecCor  : Nat
  payload : BitVec 1920
  deriving DecidableEq, Repr

/-- What a cell meets inside the device (R394): nothing, an uncorrectable error in its input slot, a failed check in the crossbar, an
uncorrectable error in the state of its stream, or one in the table of its group. -/
inductive CellFault where
  | none | slot | crossbar | stream | group
  deriving DecidableEq, Repr

/-- A REQUEST, GRANT, RETURN or SYNC message's common part (R391). -/
structure CreditMsg where
  peer    : BitVec 12
  tc      : Fin 8
  port    : BitVec 8
  backlog : Nat
  value   : BitVec 32
  nextSeq : BitVec 18
  inc     : BitVec 16
  peerInc : BitVec 16
  deriving DecidableEq, Repr

/-- A stream at a node: the peer node, the destination port, none for multicast, and the traffic class (R377, R386). -/
structure StreamId where
  node : Fin 4096
  port : Option (Fin 48)
  tc   : Fin 8
  deriving DecidableEq, Repr

/-- An HBM request (R399): the requester, read or write, the byte address of a 64 B line and the line's data. -/
structure HbmReq where
  req   : Fin 16
  write : Bool
  addr  : Nat
  data  : BitVec 512
  deriving DecidableEq, Repr

/-- Which copies of a record in HF0 and HF1 are uncorrectable (R506, R514). -/
inductive CopyLoss where
  | none | one | both
  deriving DecidableEq, Repr

/-- The ECC outcome of an HBM access (R406). -/
inductive EccOutcome where
  | clean | corrected | uncorrectable
  deriving DecidableEq, Repr

/-- What a Signaling message asks for (R422): nothing, a unicast grant within the intervals of R424 or not, or its end. -/
inductive PtpSignal where
  | none | request (intervalOk : Bool) | cancel
  deriving DecidableEq, Repr

/-- A diverted PTP message (R423): the verdict on its header fields, with domainNumber and messageType beside it; the clockIdentity it
names and the grandmaster's; whether a message outstanding on the port matches it. Times in units of 0.25 ns: `sent` is the origin
timestamp with its corrections, for a Delay_Resp its receive timestamp, `arrived` the port's own timestamp of the message, for a
Delay_Resp that of the request when it left. -/
structure PtpMsg where
  msgType   : BitVec 4
  fieldsOk  : Bool
  domain    : BitVec 8
  stepsRemoved : Nat
  clockClass   : Nat
  clockId   : BitVec 64
  gm        : BitVec 64
  matched   : Bool
  accuracy  : Nat
  variance  : Nat
  priority2 : Nat
  traceTime : Bool
  traceFreq : Bool
  utc       : Int
  twoStep   : Bool
  sent      : Int
  arrived   : Int
  signal    : PtpSignal
  deriving DecidableEq, Repr

/-- A time word (R432, R433): its ECHO, HOLD and TX, and the node's arrival time for it, in units of 0.25 ns. -/
structure TimeWord where
  crcOk : Bool
  t1    : Int
  hold  : Int
  t3    : Int
  t4    : Int
  deriving DecidableEq, Repr

/-- A root word (R432). -/
structure RootWord where
  crcOk    : Bool
  ftPrio   : Nat
  cls      : Nat
  accuracy : Nat
  variance : Nat
  prio2    : Nat
  gm       : BitVec 64
  steps    : Nat
  root     : BitVec 12
  hops     : Nat
  seq      : Nat
  flags    : BitVec 8
  utc      : Int
  deriving DecidableEq, Repr

/-- A ToD message (R442, R443). -/
structure TodMsg where
  syncOk  : Bool
  crcOk   : Bool
  resOk   : Bool
  seconds : Nat
  cls     : Nat
  trace   : Bool
  utc     : Int
  deriving DecidableEq, Repr

/-- A record of twin mode (R460): an ingress record, a dequeue record, or one of KIND 11. -/
inductive YokeRec where
  | ingress (port : Fin 48) (seq : BitVec 16) (colour : BitVec 2) (digest : BitVec 24)
  | dequeue (queue : Nat) (qseq : BitVec 16)
  | bad
  deriving DecidableEq, Repr

/-- An item of a delta or of a full copy (R458): levels in 1/1,024 B, an average in 1/256 billets. -/
inductive YokeItem where
  | queue (e : Fin 262144) (avg served bytes dropped : Nat)
  | shaper (level : Fin 5) (n : Nat) (tc tp : Int) (tag : Word)
  | meter (m : Fin 1048576) (tc tp : Int)
  | bfd (i : Fin 16384) (state : BitVec 2) (diag : BitVec 5) (remote : BitVec 32) (mult dmti rmri : Nat) (poll final : Bool)
  | sa (slot : Fin 16384) (pn : BitVec 64)
  | lacp (p : Fin 48) (partner : Option Lacpdu) (selected collecting distributing : Bool)
  | ptp (p : Fin 48) (state : BitVec 4) (master : BitVec 32)
  | group (g : Fin 24) (selected : Bool) (req : BitVec 3) (wtr : Nat)
  deriving DecidableEq, Repr

/-- What a Yoke block carries (R454, R457, R460, R463, R466): nothing, the items of a delta of an epoch, of which the last
block says so, a part of a full copy, records, a yield word, or a standby's request for a full copy. -/
inductive YokeLoad where
  | empty
  | delta (epoch : Nat) (last : Bool) (items : List YokeItem)
  | full (last : Bool) (items : List YokeItem)
  | records (l : List YokeRec)
  | yieldWord
  | ask
  deriving DecidableEq, Repr

/-- A Yoke block: its CRC verdict, its sequence number, the peer's report and its load (R454, R455). -/
structure YokeBlock where
  crcOk  : Bool
  seq    : Nat
  unit   : Bool
  role   : BitVec 3
  serial : BitVec 64
  load   : YokeLoad
  deriving DecidableEq, Repr

/-- The items that PWR sheds, in the steps of R560. -/
inductive ShedUnit where
  | cluster (c : Fin 32)
  | link (k : Fin 64)
  | port (p : Fin 48)
  deriving DecidableEq, Repr

/-- What a Grazing round finds that cannot be corrected, by the item's owner (R494): a word of a billet or a descriptor; a word of queue
state (by the numbers of R273 and R306); the tags of an egress node, by its level less 1 and its number; a word that is held twice; a bucket's
levels; a word of the key store; a microword or a nanoword of a cluster; a word of a PAT bank, and whether its shadow is bad as well; a word of an
LPM or EXM store; a line of the leaf cache; a route entry; the state of a stream; the tables of a group; a crossbar port; an entry of the FLT
ring; a word of a management core's SRAM. -/
inductive GrazeItem where
  | billet (d : Fin 524288)
  | descriptor (d : Fin 524288)
  | queue (q : Fin 1835016)
  | node (level : Fin 4) (n : Fin 262144)
  | config (a : ObjAddr)
  | level (a : ObjAddr)
  | keySlot (n : Fin 16384)
  | micro (cl : Fin 32) (nano : Bool) (n : Fin 16384)
  | pattern (bank : Fin 2) (w : Fin 393216) (both : Bool)
  | lookup (store : Fin 5) (i : Nat)
  | leaf (j : Fin 65536)
  | route (n : Fin 4096)
  | stream (st : StreamId)
  | group (g : Fin 65536)
  | crossbar (k : Fin 64)
  | ringEntry (j : Fin 4096)
  | mgmtWord (core : Fin 4)
  deriving DecidableEq, Repr

/-- What a Grazing round did (R493, R494): the items checked, its duration, the single-bit errors corrected in the hot tier and elsewhere, what it
found beside, and the cores that failed their test. -/
structure GrazingFind where
  items    : Nat
  tookMs   : Nat
  hotFixed : Nat
  fixed    : Nat
  found    : List GrazeItem
  coresFailed : List (Fin 64)
  deriving DecidableEq, Repr

/-- A failing check of a bundle (R523): its reason, the index of the failing entry and the offset of the first failing byte. -/
abbrev BundleFail := BitVec 8 × BitVec 8 × BitVec 32

/-- What decrypting a bundle shows (R516 to R519, R523): the first failing reason of 0x03 to 0x08, the versions the bundle declares,
and its cluster image and rule image in parts of 256 B. -/
structure BundleInfo where
  failing   : Option BundleFail
  bundleId  : BitVec 32
  fwVersion : BitVec 24
  secver    : Nat
  setWr     : Nat
  setMin    : Nat
  setMax    : Nat
  svcWr     : Nat
  svcMin    : Nat
  svcMax    : Nat
  abiMin    : Nat
  abiMax    : Nat
  phyOk     : Bool
  image     : Option (List Nat)
  rules     : Option (List Nat)
  rulesFirst : Bool
  tag       : BitVec 128
  deriving DecidableEq, Repr

/-- What a start-up step finds (R524, R534, R559): the VIN level at step 1; at step 6 a directory copy whose CRC fails (the newer when
true), and whether each slot fails checks 0x02 to 0x07. -/
structure BootRead where
  level  : BitVec 2
  dirBad : Option Bool
  bad0   : Bool
  bad1   : Bool
  deriving DecidableEq, Repr

/-- A byte in the place of a command's KIND, ACTION or MODE that its table does not list; none where the command carries the value of
its row (R13, R57). -/
abbrev Unlisted := Option (BitVec 8)

/-- The commands of the block, one constructor for each row of spec/opcode_table.json, in the table's order. -/
inductive Instr where
  -- 02 command interface
  | jutosFrameReceive (p : MgmtPort) (f : JutosFrame)
  | reassemblyTimeout (sid : Fin 64) (inject : Bool) (first : Word)
  | openRequest (p : MgmtPort) (peer : BitVec 48) (seq : Word) (r : OpenReq)
  | firstCommandTimeout (sid : Fin 64)
  | idleTimeout (sid : Fin 64)
  | commandBlockTimeout (c : Hdr)
  | sessionClose (c : Hdr)
  | objRead (c : Hdr) (addr : ObjAddr) (res : BitVec 16) (len : BitVec 32) (bad : Option ObjAddr)
  | objWrite (c : Hdr) (addr : ObjAddr) (res : BitVec 16) (len : BitVec 32) (data : Bytes)
  | objModify (c : Hdr) (addr : ObjAddr) (op res : BitVec 8) (len : BitVec 32) (mask value : Nat)
  | operatorKeyProgram (c : Hdr) (k : Fin 4) (digest : BitVec 384)
  | operatorKeyRevoke (c : Hdr) (k : Fin 4)
  | fuseWriteComplete
  | inject (sid : Fin 64) (m : InjectMeta)
  | puntTransmit
  | eventFrameTimeout (sid : Fin 64)
  -- 01 the bridge and dispatch
  | flitReceive (ch : Fin 2) (crcOk : Bool)
  | bridgeRetrainComplete (ch : Fin 2) (ok : Bool)
  | bridgeRetrainRetry (ch : Fin 2)
  | dispatch (src : HeaderSource)
  -- 03 packet engines
  | add (t : Fin 16384) (chk : MicroCheck)
  | sub (t : Fin 16384) (chk : MicroCheck)
  | and (t : Fin 16384) (chk : MicroCheck)
  | or (t : Fin 16384) (chk : MicroCheck)
  | xor (t : Fin 16384) (chk : MicroCheck)
  | shl (t : Fin 16384) (chk : MicroCheck)
  | shr (t : Fin 16384) (chk : MicroCheck)
  | movB (t : Fin 16384) (chk : MicroCheck)
  | cmp (t : Fin 16384) (chk : MicroCheck)
  | min (t : Fin 16384) (chk : MicroCheck)
  | max (t : Fin 16384) (chk : MicroCheck)
  | hash (t : Fin 16384) (chk : MicroCheck)
  | fieldExtract (t : Fin 16384) (chk : MicroCheck)
  | fieldInsert (t : Fin 16384) (chk : MicroCheck)
  | lookupLpm (t : Fin 16384) (chk : MicroCheck)
  | lookupExm (t : Fin 16384) (chk : MicroCheck)
  | lookupPat (t : Fin 16384) (chk : MicroCheck)
  | waitLookup (t : Fin 16384) (chk : MicroCheck)
  | waitFlagT (t : Fin 16384) (chk : MicroCheck)
  | waitTime (t : Fin 16384) (chk : MicroCheck)
  | setDestination (t : Fin 16384) (chk : MicroCheck)
  | setMeterIndex (t : Fin 16384) (chk : MicroCheck)
  | drop (t : Fin 16384) (chk : MicroCheck)
  | punt (t : Fin 16384) (chk : MicroCheck)
  | mirror (t : Fin 16384) (chk : MicroCheck)
  | setEcmpHash (t : Fin 16384) (chk : MicroCheck)
  | writeInterPass (t : Fin 16384) (chk : MicroCheck)
  | nop (t : Fin 16384) (chk : MicroCheck)
  | lookupAccept (t : Fin 16384)
  | lookupResult (t : Fin 16384) (ecc : LookEcc)
  | passWatchdog (t : Fin 16384)
  | signedSweep (cl : Fin 32) (bad : Option (Fin 2))
  | imageSlotDataWrite (c : Hdr) (k : Fin 4) (off : Nat) (data : Bytes)
  | imageSlotVerify (c : Hdr) (k : Fin 4)
  | imageVerifyComplete (k : Fin 4)
  | imageSlotErase (c : Hdr) (k : Fin 4)
  | patchGo (c : Hdr) (cl : Fin 32)
  | patchSwitch (cl : Fin 32)
  | loadGo (c : Hdr) (cl : Fin 32)
  | reloadStart (cl : Fin 32)
  | reloadDrain (cl : Fin 32)
  | reloadDrained (cl : Fin 32)
  | reloadLoaded (cl : Fin 32) (ok : Bool)
  | reloadResume (cl : Fin 32)
  | reloadAbandon (cl : Fin 32)
  | clusterPark (c : Hdr) (cl : Fin 32)
  | clusterReturn (c : Hdr) (cl : Fin 32)
  -- 04 lookup
  | tableInsert (c : Hdr) (tid keyLen entLen res : BitVec 16) (key entry : Bytes)
  | tableDelete (c : Hdr) (tid keyLen : BitVec 16) (res : BitVec 32) (key : Bytes)
  | tableChangeTurn
  | tableCommit (c : Hdr) (tid res : BitVec 16)
  | commitBuildDone
  | epochSwitch
  | epochRetire
  | tableRead (c : Hdr) (tid keyLen : BitVec 16) (view : BitVec 8) (res : BitVec 24) (key : Bytes)
  | bulkLoad (c : Hdr) (tid keyLen entLen flags : BitVec 16) (count res : BitVec 32) (records : List (Bytes × Bytes))
  | tableCreate (c : Hdr) (tid : BitVec 16) (family : Bool)
  | tableRemove (c : Hdr) (tid : BitVec 16)
  | leafReadIssue (t : Fin 16384)
  | leafReadComplete (t : Fin 16384) (ecc : CopyEcc)
  | leafReadTimeout (t : Fin 16384)
  | entryRebuildComplete (exm : Bool)
  -- 05 pattern matcher
  | patWindowWrite (c : Hdr) (off : Nat) (data : Bytes)
  | patSwap (c : Hdr)
  | patVerifyComplete
  | patBankSwitch
  | patDrainEnd
  | patErase (c : Hdr)
  | billetFetchIssue (t : Fin 16384)
  | billetFetchComplete (t : Fin 16384)
  | fetchTimeout (t : Fin 16384)
  | shadowSweep (f : SweepFind)
  -- 06 line ports
  | frameReceive (p : Fin 48) (part : FramePart) (f : LineFrame)
  | pfcPauseExpire (p : Fin 48) (tc : Fin 8)
  | frameTransmit (p : Fin 48) (fate : TxFate)
  | linkUp (p : Fin 48)
  | linkDown (p : Fin 48)
  | flapHoldExpire (p : Fin 48)
  | portAdminUp (c : Hdr) (p : Fin 48)
  | portAdminDown (c : Hdr) (p : Fin 48)
  | modulePoll (ch : Fin 128) (present : Bool)
  | identityReadComplete (ch : Fin 128) (r : IdentityRead)
  | twbTimeout (ch : Fin 128) (o : TwbOutcome)
  | twbRecovery (bus : Fin 8) (ok : Bool)
  | moduleAccessGo (c : Hdr) (b : Fin 4)
  | moduleAccessComplete (b : Fin 4) (r : ModResult) (data : BitVec 1024)
  | bfdPacketReceive (p : Fin 48) (b : BfdPacket)
  | bfdTransmit (i : Fin 16384)
  | bfdDetectExpire (i : Fin 16384)
  | lacpduReceive (p : Fin 48) (l : Lacpdu)
  | markerPduReceive (p : Fin 48)
  | lacpPeriodic (p : Fin 48)
  | lacpTimeout (p : Fin 48)
  -- 07 transport framing
  | otuFrameReceive (p : Fin 48) (f : OtuFrame)
  | gfpFrameReceive (p : Fin 48) (f : GfpFrame)
  | defectDeclare (p : Fin 48) (d : Defect)
  | defectClear (p : Fin 48) (d : Defect)
  | csfTransmit (p : Fin 48)
  | pageSwap (c : Hdr)
  | pageCheckComplete
  | pageSwitch
  | pageTake (p : Fin 48)
  | pageSwapEnd
  | pageCopy (c : Hdr)
  | protectionSwitch (g : Fin 24)
  | wtrExpire (g : Fin 24)
  | forceToProtection (c : Hdr) (g : Fin 24)
  | lockoutOfProtection (c : Hdr) (g : Fin 24)
  -- 08 link encryption
  | keySlotWriteSa (c : Hdr) (p : SaParams)
  | keySlotWriteCak (c : Hdr) (p : CakParams)
  | keySlotErase (c : Hdr) (slot : BitVec 16) (cls res : BitVec 8)
  | slotDrainEnd (slot : Fin 16384)
  | drbgSeedComplete (ok : Bool)
  | drbgReseed (ok : Bool)
  | drbgRetry (ok : Bool)
  | mkpduReceive (p : Fin 48) (m : Mkpdu)
  | mkaHello (p : Fin 48)
  | caLost (p : Fin 48)
  | sakRetireTimeout (p : Fin 48)
  | mkaEnable (c : Hdr) (p : Fin 48)
  | mkaDisable (c : Hdr) (p : Fin 48)
  -- 10 queues and scheduling (with 09 buffering after it)
  | voqEnqueue
  | pfcRefresh (p : Fin 48) (tc : Fin 8)
  | egressDequeue (p : Fin 48)
  | classMapApply (p : Fin 48) (tc : Fin 8)
  | bucketClear (c : Hdr) (addr : ObjAddr)
  | gateGo (c : Hdr) (p : Fin 48)
  | gateCheckComplete (p : Fin 48)
  | gateListStart (p : Fin 48)
  | gateEntryChange (p : Fin 48)
  | gateDisable (c : Hdr) (p : Fin 48)
  | queueSample
  | pageWriteComplete (q : Nat)
  | pageFlush (q : Nat)
  | pageReturnStart (q : Nat)
  | pageReturnComplete (q : Nat) (r : PageRead)
  | pageReadTimeout (q : Nat)
  | pageRingBuilt
  | sheepdogRoundStart
  | sheepdogRoundEnd (tookMs : Fin 101)
  -- 11 fabric topology
  | fabricRestart (c : Hdr)
  | linkTrainingStart (k : Fin 64)
  | linkTrained (k : Fin 64)
  | helloSend (k : Fin 64)
  | helloReceive (k : Fin 64) (h : Hello)
  | mismatchRecheck (k : Fin 64)
  | keepaliveSend (k : Fin 64)
  | keepaliveLoss (k : Fin 64)
  | congestionSample (k : Fin 64)
  | linkStateRecord (k : Fin 64) (r : LinkRecord)
  | recordRefresh
  | recordExpire (addr : Fin 4096)
  | routeRebuild (bad : Option (Fin 4096))
  | fabricLinkDown (k : Fin 64)
  | downNoticeReceive (k : Fin 64)
  | quarHoldExpire (k : Fin 64)
  | quarantineTrialEnd (k : Fin 64) (clean : Bool)
  | adminQuarSet (c : Hdr) (k : Fin 64)
  | adminQuarClear (c : Hdr) (k : Fin 64)
  | fabricAdminDown (c : Hdr) (k : Fin 64)
  | fabricAdminUp (c : Hdr) (k : Fin 64)
  | unreachFlush (n : Fin 4096)
  -- 12 fabric transport
  | cellReceive (k : Fin 64) (cell : Cell) (fault : CellFault)
  | cellForward (k : Fin 64)
  | creditWord (k : Fin 64) (credits : List Nat)
  | voqSend (st : StreamId)
  | requestSend (st : StreamId)
  | requestReceive (m : CreditMsg)
  | grant (st : StreamId)
  | grantReceive (m : CreditMsg)
  | returnReceive (m : CreditMsg)
  | creditKeepExpire (st : StreamId)
  | reorderTimeout (st : StreamId)
  | multicastSend (tc : Fin 8)
  | copyTimeout (tc : Fin 8)
  | syncSend (n : Fin 4096) (tc : Fin 8)
  | syncReceive (m : CreditMsg)
  -- 13 HBM
  | hbmRequest (st : Fin 6) (r : HbmReq)
  | hbmCommandIssue (st : Fin 6) (pc : Fin 16) (refreshDue : Bool)
  | hbmRequestComplete (st : Fin 6) (pc : Fin 16) (ecc : EccOutcome)
  | hbmRequestTimeout (st : Fin 6) (pc : Fin 16)
  | refreshWindowEnd (st : Fin 6)
  | temperatureRead (st : Fin 6) (temp : Nat)
  | readRecentre (st : Fin 6) (ch : Fin 8)
  | retrain (c : Hdr) (st : Fin 6) (ch : Fin 8)
  | retrainSlice (st : Fin 6) (ch : Fin 8) (ok : Bool)
  | retrainRetry (st : Fin 6) (ch : Fin 8)
  | hbmTrainingComplete (st : Fin 6) (unusable : BitVec 8) (repairs : List Nat)
  -- 14 time
  | ptpMessageReceive (p : Fin 48) (m : PtpMsg)
  | syncTransmit (p : Fin 48)
  | delayReqTransmit (p : Fin 48)
  | announceTransmit (p : Fin 48)
  | announceTimeout (p : Fin 48)
  | pcsDelayCalibrate (p : Fin 48)
  | timeStep
  | holdoverReady
  | holdoverExpire
  | timeWordReceive (k : Fin 64) (w : TimeWord)
  | rootWordReceive (k : Fin 64) (w : RootWord)
  | rootWordExpire (k : Fin 64)
  | fabricTimeTake (k : Fin 64)
  | referenceDrop (r : Fin 49)
  | referenceRestore (r : Fin 49)
  | esmcPduReceive (p : Fin 48) (formed : Bool) (ql : BitVec 4)
  | esmcTransmit (p : Fin 48)
  | esmcTimeout (p : Fin 48)
  | hoscQualify (ok : Bool)
  | ppsEdge (highNs : Nat)
  | ppsMissing
  | todReceive (m : TodMsg)
  | ppsOutput
  | timeControlSet (c : Hdr) (other : Unlisted) (res : BitVec 24) (value : BitVec 96)
  | timeControlOffset (c : Hdr) (res : BitVec 24) (value : BitVec 96)
  | forceHoldover (c : Hdr) (res : BitVec 24) (value : BitVec 96)
  | timeControlRelease (c : Hdr) (res : BitVec 24) (value : BitVec 96)
  -- 15 protection
  | pairEnable (c : Hdr)
  | pairWaitTimeout (toggling : Bool)
  | yokeBlockReceive (y : Fin 2) (b : YokeBlock)
  | yokeLinkDown (y : Fin 2)
  | mirrorEpochEnd
  | recordBlockFlush
  | peerEmberLoss
  | switchoverResume
  | resyncComplete
  | forceSwitch (c : Hdr) (other : Unlisted) (res : BitVec 24)
  | resync (c : Hdr) (res : BitVec 24)
  | lock (c : Hdr) (res : BitVec 24)
  | unlock (c : Hdr) (res : BitVec 24)
  -- 16 faults
  | faultCollect
  | logCopy
  | reactionWindowExpire (source : BitVec 12) (kind : BitVec 8)
  | safeEnter (c : Hdr)
  | shadowClose (i : Nat)
  | safeExit (c : Hdr)
  | faultInject (c : Hdr) (source : BitVec 16) (kind flags : BitVec 8) (addr : ObjAddr) (res : BitVec 16)
  | faultRead (c : Hdr) (first : Word) (count res : BitVec 32) (bad : Option Word)
  | grazingRound (f : GrazingFind)
  | engineTestPass (e : Fin 1024) (ok : Bool)
  | grazingOverdue (item : ObjAddr)
  -- 17 observation
  | counterSweep
  | counterReadLive (c : Hdr) (other : Unlisted) (res : BitVec 24) (addr : ObjAddr) (res2 : BitVec 16) (count : BitVec 32)
  | counterReadRing (c : Hdr) (res : BitVec 24) (sweep : Word) (first count : BitVec 32) (bad : CopyLoss)
  | eventSubscribe (c : Hdr) (streams qsMin : BitVec 32) (sweepDiv res : BitVec 16)
  -- 18 update
  | updateLeaseAcquire (c : Hdr) (other : Unlisted) (res : BitVec 8) (leaseS : BitVec 16)
  | updateLeaseRenew (c : Hdr) (res : BitVec 8) (leaseS : BitVec 16)
  | updateLeaseRelease (c : Hdr) (res : BitVec 8) (leaseS : BitVec 16)
  | leaseExpire
  | updateWrite (c : Hdr) (off len res : BitVec 32) (data : Bytes)
  | updateVerify (c : Hdr)
  | updateVerifyComplete (b : BundleInfo)
  | updateCommit (c : Hdr) (res : BitVec 32)
  | commitStepComplete (ok : Bool)
  | storeAbort
  | save (c : Hdr)
  | saveComplete
  | inService (c : Hdr) (other : Unlisted) (res : BitVec 24) (bad : Option BundleFail)
  | activationStepComplete
  | restart (c : Hdr) (res : BitVec 24)
  | confirm (c : Hdr) (res : BitVec 24)
  | fallback (c : Hdr) (res : BitVec 24)
  | raiseSecver (c : Hdr) (res : BitVec 24)
  | healthWindowEnd
  | bootReadyTimeout
  -- 19 start-up
  | resetDevice (c : Hdr) (other : Unlisted) (flags : BitVec 8) (res : BitVec 16)
  | resetDatapath (c : Hdr) (flags : BitVec 8) (res : BitVec 16)
  | pinReset
  | resetRelease (strap : BitVec 2)
  | vinGood
  | vinLoss
  | vstbyGood (strap : BitVec 2)
  | vstbyLoss
  | startupStepComplete (step : Fin 12) (r : BootRead)
  -- 20 power
  | powerMeasure (watts deciamps millivolts standby : Nat)
  | shedItem
  | restoreItem (watts : Nat)
  | budgetUnmet
  | currentLimit
  | currentLimitShutdown
  | vinLevelChange (level : BitVec 2)
  | thermalRead (fd qd : Nat)
  | stableChange (stable : Bool)
  -- rows that follow in the table
  | timeConditionMet (t : Fin 16384)
  | pcsAlignmentChange (p : Fin 48) (aligned localFault remoteFault : Bool) (lanes : BitVec 8)
  | scrubberRead (st : Fin 6) (ecc : EccOutcome)
  | dpllLocked
  | pairDisable (c : Hdr)
  | protectionCmdClear (c : Hdr) (g : Fin 24)
  | bfdSessionAdmin (c : Hdr) (i : Fin 16384) (admin : BitVec 2)
  | aggregatorEnable (c : Hdr) (a : Fin 24) (en : Bool) (members : BitVec 48)
  | forceLevelWrite (c : Hdr) (level : BitVec 2)
  | trialBootRetry
  | yokeEmptyBlock (y : Fin 2)
  deriving DecidableEq, Repr

end Sys2Proof
end

