-- ==== Sys2Proof/Config.lean ====
section
/-! DEFINITION. What the manual leaves open (free values: opaque constants with no body, applied to a counter of State or
to the operands they depend on) and the fixed figures of the device. No proof can see a value of an opaque constant. -/
namespace Sys2Proof.Config

/-- A value of the entropy source or the DRBG (R45, R47, R250, R261, R310, R382, R510): the n-th draw. -/
opaque entropy : Nat → Nat

/-- The public key of an ephemeral private key that was drawn, as a 97-byte point (R45). -/
opaque ephPoint : Nat → Nat
/-- The ECDH P-384 shared secret of a drawn private key and the host's point (R47). -/
opaque ecdh : Nat → Nat → Nat
/-- HKDF-SHA-384 of a secret and a salt under an info string, 36 bytes (R47). -/
opaque hkdf : Nat → Nat → String → Nat
/-- The ECDSA P-384 signature by the identity key of the fuses over a digest (R45). -/
opaque ecdsa : Nat → Nat → Nat
/-- Whether an ECDSA P-384 signature verifies: by the public key, the digest and the signature (R43, R101, R107). -/
opaque ecdsaOk : Nat → Nat → Nat → Bool

/-- A choice the manual leaves to the device, the n-th one (a retry hint, a lead time within its bound). -/
opaque choice : Nat → Nat

/-- The value an OBJ_READ returns for an object whose content the manual does not give: by object number and read number. -/
opaque openObject : Nat → Nat → Nat

/-- A thread's context as its object shows it (R115): the manual names what it holds, the state, the PC and G0 to G15, and not how they
lie in it, so the value is a function of them. -/
opaque threadContext : Nat → Nat → List (BitVec 64) → Nat

/-- Whether the field part of a rule matches a field key (R165): the compiled lines and links are opaque to the user (R158, R176), so this
is a function of the image's digest, the rule address and the key. -/
opaque fieldMatches : Nat → Nat → Nat → Bool
/-- Whether a rule has a payload pattern (R165): by the image's digest and the rule address. -/
opaque hasPattern : Nat → Nat → Bool
/-- Whether the payload pattern of a rule occurs within a scan window (R165): by the image's digest, the rule address, the bytes of the
window that the header window holds, and the packet whose later bytes are scanned. -/
opaque patternIn : Nat → Nat → Nat → Nat → Bool

/-- Whether the device splits a region of a node's addresses further than R123 and R124 force it to, and which generation of a leaf
serves a region: which prefixes share a leaf is the device's own placing (R123). By epoch, table, length and bits of the region. -/
opaque leafSplit : Nat → Nat → Nat → Nat → Bool
/-- See `leafSplit`. -/
opaque leafGen : Nat → Nat → Nat → Nat → Nat
/-- The line in which the device would place a leaf (R153): by table, length, bits and generation; taken where it makes a placing. -/
opaque leafLine : Nat → Nat → Nat → Nat → Nat
/-- The HBM line, counted from address 0, of a leaf line and of a line of labels (R122): where the regions lie is not given. -/
opaque leafAddr : Nat → Nat
/-- See `leafAddr`. -/
opaque labelAddr : Nat → Nat
/-- What a crown node word and a leaf line that holds no leaf read (R153: the manual lays neither out): by object and live epochs. -/
opaque crownContent : Nat → List Nat → Nat
/-- See `crownContent`. -/
opaque spareLeaf : Nat → List Nat → Nat

/-- The crown node word that a walk reads in a node (R123, R150): by epoch, table, depth of the node, its bits and the address bits of its
stride. -/
opaque crownWord : Nat → Nat → Nat → Nat → Nat → Nat

/-- The first member slot at which the device would place a group's run (R579: of its own choosing): by epoch and group; taken where it
makes a placing. -/
opaque memberRun : Nat → Nat → Nat

/-- The IAE bit that a framed port sends (R213: the manual names the bit and does not say when it is 1): by port and its framing
status. -/
opaque iaeSent : Nat → Nat → Bool

/-- The digest of an ingress record of twin mode (R460): the layout of the bytes that the CRC-24 covers is not given. -/
opaque twinDigest : Nat → Nat → Nat → Nat

/-- The estimate behind a BUSY hint (R59), in µs, brought into 1 to 65,535. -/
def hint (n : Nat) : Nat := choice n % 65535 + 1

/-- Billets of the hot tier (R269). -/
def billets : Nat := 524288
/-- Peat pages with four HQ stacks ready (R303). -/
def peatPages : Nat := 5898240
/-- VOQs of a node (R305); the egress queues follow them in the queue numbering of R273. -/
def voqs : Nat := 1572864
/-- Egress queues of a node (R320). -/
def egressQueues : Nat := 262144
/-- Prefixes all prefix tables hold together (R121). -/
def maxPrefixes : Nat := 33554432
/-- Outstanding commands of one session and of the device (R59). -/
def maxPerSession : Nat := 256
/-- See `maxPerSession`. -/
def maxOutstanding : Nat := 8192

end Sys2Proof.Config
end

