-- ==== Sys2Proof/Machine/Names.lean ====
section
/-! DEFINITION. The names of the object types of the object address space (R67) and the bit fields of each object, as
the field tables of spec/ give them. A field is its lowest bit and its width; bit 0 is the least significant (R4). -/
namespace Sys2Proof.Machine

/-- A field of an object: the lowest bit and the width in bits (R4). -/
structure Fld where
  lo : Nat
  w  : Nat
  deriving DecidableEq, Repr

/-- The object types of the object address space (R67): every row of the object tables of spec/. -/
inductive ObjTy where
  | brgStatus  -- bridge status (R23)
  | brgCtr  -- bridge counters (R23)
  | identity  -- identity object (R71)
  | identKey  -- identity public key (R71)
  | opKey  -- operator key slot (R72)
  | rstStatus  -- reset status (R555)
  | mgmtPort  -- management port object (R74)
  | sessSet  -- session settings (R75)
  | sessStatus  -- session status (R76)
  | cmdCtr  -- CMD counters (R76)
  | clCtl  -- cluster control (R116)
  | clVersion  -- cluster version (R104)
  | clStatus  -- cluster status (R117)
  | imgSlot  -- image slot control (R118)
  | ecCtr  -- cluster counters (R118)
  | patchStage  -- patch staging (R115)
  | microView  -- microword as used by new passes (R115)
  | nanoView  -- nanoword as used by new passes (R115)
  | threadCtx  -- thread context (R115)
  | imgData  -- image slot data (R115)
  | lpmStatus  -- LPM status (R154)
  | ptDesc  -- prefix table descriptor (R155)
  | lpmCtr  -- LPM counters (R155)
  | crownWord  -- crown node word (R153)
  | leafLine  -- leaf, HF0 copy (R153)
  | exmDesc  -- EXM table descriptor (R153)
  | exmCtr  -- EXM counters (R155)
  | nhEntry  -- next-hop entry, committed (R153)
  | ecmpGroup  -- ECMP group (R153)
  | ecmpMember  -- ECMP member slot (R153)
  | labelEntry  -- label entry, committed (R153)
  | patCtl  -- PAT control (R175)
  | patStatus  -- PAT status (R175)
  | ruleSet  -- rule set descriptor of the ACTIVE bank (R176)
  | patCtr  -- PAT counters (R176)
  | tieCtr  -- tie counter of a rule set (R174)
  | patWin  -- image window of a bank (R174)
  | ruleEntry  -- rule entry of the ACTIVE bank (R176)
  | lmacGlobal  -- LMAC global (R201)
  | lpCtl  -- port control (R202)
  | lpStatus  -- port status (R202)
  | laneCtl  -- lane (R203)
  | modCtl  -- module access control (R203)
  | modData  -- module access data (R201)
  | aggCtl  -- aggregator control (R204)
  | lpCtr  -- port counters (R205)
  | svcCtr  -- service counters (R205)
  | idMirror  -- identity mirror (R201)
  | bfdSess  -- BFD session: control, status, template (R205)
  | tfuCtl  -- interchange control (R231)
  | frCtl  -- framing control (R232)
  | frStatus  -- framing status (R232)
  | protGrp  -- protection group (R233)
  | tfuCtr  -- framed port counters (R233)
  | grpSwCtr  -- switch count of a group (R230)
  | pageEnt  -- connection page entry (R219)
  | tti  -- TTI objects (R230)
  | msGlobal  -- MSEC global (R265)
  | msStatus  -- MSEC status (R265)
  | msPort  -- port MACsec control (R266)
  | mkaStatus  -- MKA status (R267)
  | msCtr  -- MSEC port counters (R267)
  | msGctr  -- MSEC global counters (R267)
  | saSlot  -- SA key slot status (R267)
  | cakSlot  -- CAK slot status (R267)
  | bufCtl  -- BUF control (R273)
  | bufStatus  -- BUF status (R273)
  | arrMap  -- arrival pool map (R273)
  | bufCtr  -- BUF counters (R273)
  | pktDesc  -- descriptor (R273)
  | shCtl  -- Sheepdog control (R290)
  | shStatus  -- Sheepdog status (R290)
  | poolCtl  -- pool control (R290)
  | poolStatus  -- pool status (R290)
  | egMap  -- egress pool map (R290)
  | poolCtr  -- pool counters (R290)
  | poolGctr  -- POOL global counters (R290)
  | peatStatus  -- PEAT status (R303)
  | spillProf  -- spill profile (R303)
  | peatCtr  -- PEAT counters (R303)
  | qSpill  -- queue spill object (R303)
  | voqGlobal  -- VOQ global (R337)
  | admProf  -- admission profile (R337)
  | pfcThr  -- PFC thresholds (R337)
  | voqGctr  -- VOQ global counters (R339)
  | vqCtr  -- VOQ queue counters (R339)
  | vqCfg  -- VOQ queue config (R336)
  | vqState  -- VOQ queue state (R337)
  | classMap  -- class map of a port (R338)
  | gateCtl  -- gate control (R338)
  | egCtr  -- EGS port counters (R339)
  | eqCtr  -- egress queue counters (R339)
  | grpCfg  -- group config (R338)
  | tenCfg  -- tenant config (R338)
  | subCfg  -- subtenant config (R338)
  | eqCfg  -- egress queue config (R338)
  | eqState  -- egress queue state (R337)
  | gateList  -- gate list entries (R338)
  | mtCtr  -- meter counters (R339)
  | meter  -- meter (R339)
  | shPort  -- shaper, level 0 (R339)
  | shGrp  -- shaper, level 1 (R339)
  | shTen  -- shaper, level 2 (R339)
  | shSub  -- shaper, level 3 (R339)
  | shQueue  -- shaper, level 4 (R339)
  | fabSet  -- fabric settings (R364)
  | fabStatus  -- fabric status (R364)
  | trCtl  -- transport control (R393)
  | flCtl  -- fabric link control (R365)
  | flStatus  -- fabric link status (R365)
  | portGrant  -- port grant (R393)
  | flCtr  -- fabric link counters (R366)
  | rtCtr  -- routing counters (R366)
  | trCtr  -- transport counters (R393)
  | cabMirror  -- cable identity mirror (R363)
  | route  -- route entry (R366)
  | memMask  -- member mask of a group, two halves (R392)
  | lpMask  -- local port mask of a group (R392)
  | rlCtr  -- relay counters (R393)
  | hbCtl  -- HBM controller control (R411)
  | hbStatus  -- HBM controller status (R411)
  | hbReq  -- HBM requester (R412)
  | hbChan  -- HBM channel status (R412)
  | hbRow  -- row-disturbance status (R412)
  | hbPcCtr  -- pseudo-channel counters (R412)
  | hbRqCtr  -- requester counters (R412)
  | hbRaw  -- raw window (R396)
  | tmCtl  -- time control (R446)
  | tmStatus  -- time status (R447)
  | fqCtl  -- frequency and I/O control (R448)
  | ptCtl  -- port time control (R449)
  | ptStatus  -- port time status (R449)
  | flTime  -- fabric link time (R450)
  | tmCtr  -- TIME counters (R450)
  | ptpTmpl  -- PTP template (R450)
  | prCtl  -- PAIR control (R471)
  | prStatus  -- PAIR status (R472)
  | prCtr  -- PAIR counters (R472)
  | fltCtl  -- FLT control (R497)
  | fltStatus  -- FLT status (R497)
  | grCtl  -- Grazing control (R498)
  | grStatus  -- Grazing status (R498)
  | fltCtr  -- FLT counters (R498)
  | ringSlot  -- FLT ring slot (R474)
  | cntStatus  -- CNT status (R513)
  | mirSess  -- mirror session (R512)
  | colEnt  -- collection entry (R513)
  | cntCtr  -- CNT counters (R513)
  | mirCtr  -- mirror session counters (R513)
  | lostCtr  -- records lost by a session (R513)
  | updCtl  -- UPD control (R538)
  | updStatus  -- UPD status (R538)
  | dirRec  -- directory record (R539)
  | relKey  -- release key digest (R538)
  | updCtr  -- UPD counters (R539)
  | pwrCtl  -- PWR control (R575)
  | pwrStatus  -- PWR status (R575)
  | pwrCtr  -- PWR counters (R575)
  | perfSel  -- performance counter selector (R501)
  | perfCnt  -- performance counter (R500)
  | reaction  -- reaction set (R480)
  deriving DecidableEq, Repr

/-- One object: its type and its number among the objects of that type (block instance first). -/
structure Key where
  ty  : ObjTy
  idx : Nat
  deriving DecidableEq, Repr

namespace BrgStatus
abbrev FD_QD : Fld := ⟨126, 2⟩
abbrev QD_FD : Fld := ⟨124, 2⟩
end BrgStatus

namespace BrgCtr
abbrev VALUE : Fld := ⟨0, 64⟩
end BrgCtr

namespace Identity
abbrev PART : Fld := ⟨96, 32⟩
abbrev MODREV : Fld := ⟨88, 8⟩
abbrev FD_STEP : Fld := ⟨80, 8⟩
abbrev QD_STEP : Fld := ⟨72, 8⟩
abbrev SERIAL : Fld := ⟨0, 64⟩
end Identity

namespace IdentKey
abbrev KEY : Fld := ⟨0, 1024⟩
end IdentKey

namespace OpKey
abbrev DIGEST : Fld := ⟨128, 384⟩
abbrev STATE : Fld := ⟨0, 2⟩
end OpKey

namespace RstStatus
abbrev CAUSE : Fld := ⟨124, 4⟩
abbrev BOOT_MODE : Fld := ⟨122, 2⟩
abbrev READY : Fld := ⟨121, 1⟩
abbrev STEP : Fld := ⟨117, 4⟩
abbrev START_MS : Fld := ⟨101, 16⟩
abbrev RESETS : Fld := ⟨85, 16⟩
abbrev RESET_TIME : Fld := ⟨0, 64⟩
end RstStatus

namespace MgmtPort
abbrev MAC : Fld := ⟨16, 48⟩
abbrev VLAN_EN : Fld := ⟨12, 1⟩
abbrev VID : Fld := ⟨0, 12⟩
end MgmtPort

namespace SessSet
abbrev IDLE_TIMEOUT : Fld := ⟨52, 12⟩
abbrev OPEN_RATE : Fld := ⟨44, 8⟩
abbrev PUNT_SESSION : Fld := ⟨38, 6⟩
abbrev PUNT_EN : Fld := ⟨37, 1⟩
abbrev PUNT_TRUNC : Fld := ⟨23, 14⟩
end SessSet

namespace SessStatus
abbrev STATE : Fld := ⟨248, 8⟩
abbrev GRANTED : Fld := ⟨240, 8⟩
abbrev SLOT : Fld := ⟨232, 8⟩
abbrev OUTSTANDING : Fld := ⟨208, 16⟩
abbrev AUTH_FAILS : Fld := ⟨192, 16⟩
abbrev H : Fld := ⟨128, 64⟩
abbrev NEXT_SEQ : Fld := ⟨64, 64⟩
end SessStatus

namespace CmdCtr
abbrev VALUE : Fld := ⟨0, 64⟩
end CmdCtr

namespace ClCtl
abbrev PROTECT : Fld := ⟨126, 2⟩
abbrev SRC_SLOT : Fld := ⟨120, 2⟩
abbrev LOAD_GO : Fld := ⟨119, 1⟩
abbrev FORCE : Fld := ⟨118, 1⟩
abbrev PATCH_GO : Fld := ⟨117, 1⟩
abbrev ENABLE : Fld := ⟨116, 1⟩
abbrev LOAD_LIMIT : Fld := ⟨104, 8⟩
abbrev PASS_LIMIT : Fld := ⟨94, 10⟩
abbrev RELOAD_WAIT : Fld := ⟨72, 16⟩
abbrev STATE : Fld := ⟨64, 8⟩
abbrev LAST_ERR : Fld := ⟨56, 8⟩
end ClCtl

namespace ClVersion
abbrev IMAGE_ID : Fld := ⟨96, 32⟩
abbrev VERSION : Fld := ⟨72, 24⟩
abbrev PATCH_LEVEL : Fld := ⟨64, 8⟩
abbrev ABI : Fld := ⟨40, 24⟩
abbrev PROT_ACTIVE : Fld := ⟨38, 2⟩
abbrev SLOT : Fld := ⟨36, 2⟩
abbrev DIGEST_TAG : Fld := ⟨0, 32⟩
end ClVersion

namespace ClStatus
abbrev UTIL : Fld := ⟨112, 16⟩
abbrev THREADS_BUSY : Fld := ⟨96, 16⟩
abbrev DEVICE_LOAD : Fld := ⟨80, 16⟩
abbrev IN_SERVICE : Fld := ⟨72, 8⟩
abbrev RELOADS_PENDING : Fld := ⟨64, 8⟩
abbrev BANK : Fld := ⟨63, 1⟩
abbrev QUEUED : Fld := ⟨62, 1⟩
end ClStatus

namespace ImgSlot
abbrev SLOT_STATE : Fld := ⟨120, 8⟩
abbrev VERIFY : Fld := ⟨119, 1⟩
abbrev ERASE : Fld := ⟨118, 1⟩
abbrev LOCKED : Fld := ⟨117, 1⟩
abbrev BAD_OFFSET : Fld := ⟨64, 32⟩
end ImgSlot

namespace EcCtr
abbrev VALUE : Fld := ⟨0, 64⟩
end EcCtr

namespace PatchStage
abbrev DATA : Fld := ⟨0, 2048⟩
end PatchStage

namespace MicroView
abbrev WORD : Fld := ⟨0, 40⟩
end MicroView

namespace NanoView
abbrev WORD : Fld := ⟨0, 128⟩
end NanoView

namespace ThreadCtx
abbrev DATA : Fld := ⟨0, 2048⟩
end ThreadCtx

namespace ImgData
abbrev DATA : Fld := ⟨0, 2048⟩
end ImgData

namespace LpmStatus
abbrev EPOCH : Fld := ⟨64, 64⟩
abbrev USED : Fld := ⟨38, 26⟩
abbrev PINNED : Fld := ⟨21, 17⟩
abbrev HIT_PM : Fld := ⟨11, 10⟩
end LpmStatus

namespace PtDesc
abbrev STATE : Fld := ⟨62, 2⟩
abbrev FAMILY : Fld := ⟨61, 1⟩
abbrev PENDING : Fld := ⟨32, 26⟩
abbrev COUNT : Fld := ⟨0, 32⟩
end PtDesc

namespace LpmCtr
abbrev VALUE : Fld := ⟨0, 64⟩
end LpmCtr

namespace CrownWord
abbrev WORD : Fld := ⟨0, 128⟩
end CrownWord

namespace LeafLine
abbrev LINE : Fld := ⟨0, 512⟩
end LeafLine

namespace ExmDesc
abbrev COUNT : Fld := ⟨0, 32⟩
end ExmDesc

namespace ExmCtr
abbrev VALUE : Fld := ⟨0, 64⟩
end ExmCtr

namespace NhEntry
abbrev ENTRY : Fld := ⟨0, 64⟩
end NhEntry

namespace EcmpGroup
abbrev VALID : Fld := ⟨31, 1⟩
abbrev N : Fld := ⟨20, 10⟩
abbrev FIRST : Fld := ⟨0, 20⟩
end EcmpGroup

namespace EcmpMember
abbrev NH : Fld := ⟨0, 22⟩
end EcmpMember

namespace LabelEntry
abbrev ENTRY : Fld := ⟨0, 64⟩
end LabelEntry

namespace PatCtl
abbrev SWAP : Fld := ⟨127, 1⟩
abbrev ERASE : Fld := ⟨126, 1⟩
abbrev SWEEP_MS : Fld := ⟨116, 10⟩
end PatCtl

namespace PatStatus
abbrev BANK0 : Fld := ⟨120, 8⟩
abbrev BANK1 : Fld := ⟨112, 8⟩
abbrev SWEEP_AGE : Fld := ⟨96, 16⟩
abbrev IMAGE_ID : Fld := ⟨64, 32⟩
end PatStatus

namespace RuleSet
abbrev VALID : Fld := ⟨127, 1⟩
abbrev DAMAGED : Fld := ⟨126, 1⟩
abbrev P : Fld := ⟨112, 8⟩
abbrev A : Fld := ⟨104, 8⟩
abbrev FIRST_LINE : Fld := ⟨64, 32⟩
abbrev LINE_COUNT : Fld := ⟨32, 32⟩
abbrev RULE_COUNT : Fld := ⟨0, 32⟩
end RuleSet

namespace PatCtr
abbrev VALUE : Fld := ⟨0, 64⟩
end PatCtr

namespace TieCtr
abbrev VALUE : Fld := ⟨0, 64⟩
end TieCtr

namespace PatWin
abbrev DATA : Fld := ⟨0, 2048⟩
end PatWin

namespace RuleEntry
abbrev PRIORITY : Fld := ⟨112, 16⟩
abbrev ACTION : Fld := ⟨88, 24⟩
abbrev SET : Fld := ⟨82, 6⟩
abbrev LINK : Fld := ⟨0, 64⟩
end RuleEntry

namespace LmacGlobal
abbrev SYS_PRIO : Fld := ⟨112, 16⟩
abbrev SYS_ID : Fld := ⟨64, 48⟩
abbrev TWB_FAST : Fld := ⟨56, 8⟩
end LmacGlobal

namespace LpCtl
abbrev MODE : Fld := ⟨124, 4⟩
abbrev ADMIN_UP : Fld := ⟨123, 1⟩
abbrev CT_EN : Fld := ⟨122, 1⟩
abbrev BFD_DIVERT : Fld := ⟨121, 1⟩
abbrev MOD_MGMT : Fld := ⟨120, 1⟩
abbrev MAX_FRAME : Fld := ⟨106, 14⟩
abbrev PFC_RX : Fld := ⟨98, 8⟩
abbrev PFC_TX : Fld := ⟨90, 8⟩
abbrev UP_HOLD : Fld := ⟨76, 14⟩
abbrev DOWN_HOLD : Fld := ⟨66, 10⟩
abbrev FLAP_MAX : Fld := ⟨62, 4⟩
abbrev FLAP_HOLD : Fld := ⟨52, 10⟩
abbrev MOD_BUS : Fld := ⟨50, 2⟩
abbrev MOD_CH : Fld := ⟨46, 4⟩
abbrev MOD_LANE : Fld := ⟨43, 3⟩
abbrev ID_POLICY : Fld := ⟨42, 1⟩
end LpCtl

namespace LpStatus
abbrev LINK : Fld := ⟨126, 2⟩
abbrev LOCAL_FAULT : Fld := ⟨125, 1⟩
abbrev REMOTE_FAULT : Fld := ⟨124, 1⟩
abbrev ID_STATE : Fld := ⟨121, 3⟩
abbrev LANE_LOCK : Fld := ⟨113, 8⟩
abbrev SELECTED : Fld := ⟨112, 1⟩
abbrev COLLECTING : Fld := ⟨111, 1⟩
abbrev DISTRIBUTING : Fld := ⟨110, 1⟩
abbrev AGG : Fld := ⟨105, 5⟩
abbrev FLAPS : Fld := ⟨97, 8⟩
abbrev FEC_SYM : Fld := ⟨32, 32⟩
end LpStatus

namespace LaneCtl
abbrev LOGICAL : Fld := ⟨62, 2⟩
abbrev TX_INV : Fld := ⟨61, 1⟩
abbrev RX_INV : Fld := ⟨60, 1⟩
abbrev EQ_MODE : Fld := ⟨58, 2⟩
abbrev TX_PRE : Fld := ⟨52, 6⟩
abbrev TX_MAIN : Fld := ⟨46, 6⟩
abbrev TX_POST : Fld := ⟨40, 6⟩
end LaneCtl

namespace ModCtl
abbrev GO : Fld := ⟨127, 1⟩
abbrev BUSY : Fld := ⟨126, 1⟩
abbrev WRITE : Fld := ⟨125, 1⟩
abbrev CH : Fld := ⟨121, 4⟩
abbrev BANK : Fld := ⟨113, 8⟩
abbrev PAGE : Fld := ⟨105, 8⟩
abbrev OFFSET : Fld := ⟨97, 8⟩
abbrev LEN : Fld := ⟨89, 8⟩
abbrev RESULT : Fld := ⟨86, 3⟩
end ModCtl

namespace ModData
abbrev DATA : Fld := ⟨0, 1024⟩
end ModData

namespace AggCtl
abbrev EN : Fld := ⟨127, 1⟩
abbrev ACTIVE : Fld := ⟨126, 1⟩
abbrev FAST : Fld := ⟨125, 1⟩
abbrev MIN_LINKS : Fld := ⟨119, 6⟩
abbrev KEY : Fld := ⟨103, 16⟩
abbrev MEMBERS : Fld := ⟨0, 48⟩
end AggCtl

namespace LpCtr
abbrev VALUE : Fld := ⟨0, 64⟩
end LpCtr

namespace SvcCtr
abbrev VALUE : Fld := ⟨0, 64⟩
end SvcCtr

namespace IdMirror
abbrev DATA : Fld := ⟨0, 2048⟩
end IdMirror

namespace BfdSess
abbrev ADMIN : Fld := ⟨1022, 2⟩
abbrev TYPE : Fld := ⟨1020, 2⟩
abbrev PORT : Fld := ⟨1014, 6⟩
abbrev DETECT_MULT : Fld := ⟨1006, 8⟩
abbrev DMTI : Fld := ⟨982, 24⟩
abbrev RMRI : Fld := ⟨958, 24⟩
abbrev MIN_TTL : Fld := ⟨950, 8⟩
abbrev TMPL_LEN : Fld := ⟨943, 7⟩
abbrev MY_DISC : Fld := ⟨896, 32⟩
abbrev STATE : Fld := ⟨894, 2⟩
abbrev DIAG : Fld := ⟨889, 5⟩
abbrev REMOTE_DISC : Fld := ⟨832, 32⟩
abbrev TEMPLATE : Fld := ⟨0, 768⟩
end BfdSess

namespace TfuCtl
abbrev SWAP : Fld := ⟨127, 1⟩
abbrev COPY : Fld := ⟨126, 1⟩
abbrev ACTIVE_PAGE : Fld := ⟨125, 1⟩
abbrev SWAP_STATE : Fld := ⟨122, 3⟩
abbrev FAIL_ADDR : Fld := ⟨0, 48⟩
end TfuCtl

namespace FrCtl
abbrev SM_TIM : Fld := ⟨126, 2⟩
abbrev PM_TIM : Fld := ⟨124, 2⟩
abbrev PT_TIM : Fld := ⟨122, 2⟩
abbrev TIM_ACT : Fld := ⟨121, 1⟩
abbrev MSI_CHK : Fld := ⟨120, 1⟩
abbrev DELTA : Fld := ⟨117, 3⟩
abbrev CHEC_CORR : Fld := ⟨116, 1⟩
abbrev PFCS_TX : Fld := ⟨115, 1⟩
abbrev FORCE_TX : Fld := ⟨113, 2⟩
abbrev DEG_M : Fld := ⟨109, 4⟩
abbrev DEG_THR : Fld := ⟨89, 20⟩
end FrCtl

namespace FrStatus
abbrev LOS : Fld := ⟨127, 1⟩
abbrev LOF : Fld := ⟨126, 1⟩
abbrev LOM : Fld := ⟨125, 1⟩
abbrev LOL : Fld := ⟨124, 1⟩
abbrev SM_TIM : Fld := ⟨123, 1⟩
abbrev SM_BDI : Fld := ⟨122, 1⟩
abbrev SM_DEG : Fld := ⟨121, 1⟩
abbrev SM_IAE : Fld := ⟨120, 1⟩
abbrev PM_AIS : Fld := ⟨119, 1⟩
abbrev PM_OCI : Fld := ⟨118, 1⟩
abbrev PM_LCK : Fld := ⟨117, 1⟩
abbrev PM_TIM : Fld := ⟨116, 1⟩
abbrev PM_BDI : Fld := ⟨115, 1⟩
abbrev PM_DEG : Fld := ⟨114, 1⟩
abbrev PLM : Fld := ⟨113, 1⟩
abbrev MSIM : Fld := ⟨112, 1⟩
abbrev PT_LOFLOM : Fld := ⟨111, 1⟩
abbrev PT_AIS : Fld := ⟨110, 1⟩
abbrev PT_OCI : Fld := ⟨109, 1⟩
abbrev PT_LCK : Fld := ⟨108, 1⟩
abbrev PT_PLM : Fld := ⟨107, 1⟩
abbrev PT_TIM : Fld := ⟨106, 1⟩
abbrev PT_BDI : Fld := ⟨105, 1⟩
abbrev PT_DEG : Fld := ⟨104, 1⟩
abbrev LFD : Fld := ⟨103, 1⟩
abbrev CSF : Fld := ⟨102, 1⟩
abbrev GFP_STATE : Fld := ⟨100, 2⟩
abbrev LOS_LANES : Fld := ⟨92, 8⟩
abbrev LOF_INST : Fld := ⟨84, 8⟩
abbrev PKT_SLOTS : Fld := ⟨76, 8⟩
end FrStatus

namespace ProtGrp
abbrev EN : Fld := ⟨127, 1⟩
abbrev WORK : Fld := ⟨121, 6⟩
abbrev PROT : Fld := ⟨115, 6⟩
abbrev REVERT : Fld := ⟨114, 1⟩
abbrev CMD : Fld := ⟨112, 2⟩
abbrev HOLD_OFF : Fld := ⟨105, 7⟩
abbrev WTR : Fld := ⟨95, 10⟩
abbrev SD_EN : Fld := ⟨94, 1⟩
abbrev SELECTED : Fld := ⟨93, 1⟩
abbrev REQ : Fld := ⟨90, 3⟩
end ProtGrp

namespace TfuCtr
abbrev VALUE : Fld := ⟨0, 64⟩
end TfuCtr

namespace GrpSwCtr
abbrev VALUE : Fld := ⟨0, 64⟩
end GrpSwCtr

namespace PageEnt
abbrev TYPE : Fld := ⟨30, 2⟩
abbrev SRC_PORT : Fld := ⟨24, 6⟩
abbrev SRC_TS : Fld := ⟨16, 8⟩
abbrev TRIB : Fld := ⟨0, 12⟩
end PageEnt

namespace Tti
abbrev TTI : Fld := ⟨0, 512⟩
end Tti

namespace MsGlobal
abbrev DUMMY_PCT : Fld := ⟨123, 5⟩
abbrev SHUFFLE : Fld := ⟨122, 1⟩
end MsGlobal

namespace MsStatus
abbrev DRBG_STATE : Fld := ⟨120, 8⟩
abbrev SLOTS_VALID : Fld := ⟨105, 15⟩
abbrev CAKS_VALID : Fld := ⟨97, 8⟩
abbrev TX_LOAD : Fld := ⟨87, 10⟩
abbrev RX_LOAD : Fld := ⟨77, 10⟩
abbrev CORES : Fld := ⟨70, 7⟩
end MsStatus

namespace MsPort
abbrev EN : Fld := ⟨255, 1⟩
abbrev PROTECT : Fld := ⟨254, 1⟩
abbrev CONF : Fld := ⟨253, 1⟩
abbrev CONF_OFFSET : Fld := ⟨251, 2⟩
abbrev VALIDATE : Fld := ⟨249, 2⟩
abbrev REPLAY_PROTECT : Fld := ⟨248, 1⟩
abbrev INCLUDE_SCI : Fld := ⟨247, 1⟩
abbrev ES : Fld := ⟨246, 1⟩
abbrev ENC_AN : Fld := ⟨244, 2⟩
abbrev MKA_EN : Fld := ⟨243, 1⟩
abbrev MKA_SUITE : Fld := ⟨241, 2⟩
abbrev MKA_PRIO : Fld := ⟨233, 8⟩
abbrev REPLAY_WINDOW : Fld := ⟨192, 32⟩
abbrev TX_SCI : Fld := ⟨128, 64⟩
abbrev PEER_SCI : Fld := ⟨64, 64⟩
end MsPort

namespace MkaStatus
abbrev CA : Fld := ⟨126, 2⟩
abbrev KEY_SERVER : Fld := ⟨125, 1⟩
abbrev PRINCIPAL_VALID : Fld := ⟨124, 1⟩
abbrev PRINCIPAL : Fld := ⟨122, 2⟩
abbrev TX_AN : Fld := ⟨120, 2⟩
abbrev KEY_NUMBER : Fld := ⟨88, 32⟩
abbrev PEER : Fld := ⟨24, 64⟩
end MkaStatus

namespace MsCtr
abbrev VALUE : Fld := ⟨0, 64⟩
end MsCtr

namespace MsGctr
abbrev VALUE : Fld := ⟨0, 64⟩
end MsGctr

namespace SaSlot
abbrev STATE : Fld := ⟨248, 8⟩
abbrev GEN : Fld := ⟨232, 16⟩
abbrev SUITE : Fld := ⟨230, 2⟩
abbrev DIR : Fld := ⟨229, 1⟩
abbrev PORT : Fld := ⟨223, 6⟩
abbrev AN : Fld := ⟨221, 2⟩
abbrev MKA : Fld := ⟨220, 1⟩
abbrev THRESH : Fld := ⟨219, 1⟩
abbrev SCI : Fld := ⟨128, 64⟩
abbrev PN : Fld := ⟨64, 64⟩
abbrev FRAMES : Fld := ⟨0, 64⟩
end SaSlot

namespace CakSlot
abbrev CKN : Fld := ⟨256, 256⟩
abbrev CKN_LEN : Fld := ⟨250, 6⟩
abbrev STATE : Fld := ⟨248, 2⟩
end CakSlot

namespace BufCtl
abbrev STAGE_SIZE : Fld := ⟨110, 18⟩
end BufCtl

namespace BufStatus
abbrev FREE : Fld := ⟨108, 20⟩
abbrev STAGED : Fld := ⟨90, 18⟩
abbrev DESC_USED : Fld := ⟨70, 20⟩
end BufStatus

namespace ArrMap
abbrev UNTAGGED : Fld := ⟨60, 4⟩
abbrev PCP_MAP : Fld := ⟨28, 32⟩
end ArrMap

namespace BufCtr
abbrev VALUE : Fld := ⟨0, 64⟩
end BufCtr

namespace PktDesc
abbrev METADATA : Fld := ⟨256, 512⟩
abbrev ARRIVAL : Fld := ⟨160, 96⟩
abbrev LENGTH : Fld := ⟨146, 14⟩
abbrev TC : Fld := ⟨143, 3⟩
abbrev POOL : Fld := ⟨139, 4⟩
abbrev NODE : Fld := ⟨127, 12⟩
abbrev PORT : Fld := ⟨121, 6⟩
abbrev LEASES : Fld := ⟨114, 7⟩
abbrev FREE_PENDING : Fld := ⟨113, 1⟩
abbrev BAD : Fld := ⟨112, 1⟩
abbrev OWNER : Fld := ⟨91, 21⟩
abbrev IN_USE : Fld := ⟨90, 1⟩
abbrev HEAD : Fld := ⟨71, 19⟩
abbrev TAIL : Fld := ⟨52, 19⟩
abbrev MARK : Fld := ⟨44, 8⟩
end PktDesc

namespace ShCtl
abbrev EN : Fld := ⟨127, 1⟩
abbrev RECLAIM : Fld := ⟨126, 1⟩
abbrev PERIOD : Fld := ⟨112, 14⟩
end ShCtl

namespace ShStatus
abbrev ROUND : Fld := ⟨96, 32⟩
abbrev LAST_MS : Fld := ⟨80, 16⟩
abbrev SUSPECTS : Fld := ⟨60, 20⟩
abbrev LAST_LEAKS : Fld := ⟨40, 20⟩
end ShStatus

namespace PoolCtl
abbrev RESERVED : Fld := ⟨108, 20⟩
abbrev LIMIT : Fld := ⟨88, 20⟩
abbrev PAGE_LIMIT : Fld := ⟨65, 23⟩
end PoolCtl

namespace PoolStatus
abbrev OCC : Fld := ⟨108, 20⟩
abbrev PEAK : Fld := ⟨88, 20⟩
abbrev PAGES : Fld := ⟨65, 23⟩
abbrev CACHE : Fld := ⟨51, 14⟩
end PoolStatus

namespace EgMap
abbrev TC_MAP : Fld := ⟨32, 32⟩
end EgMap

namespace PoolCtr
abbrev VALUE : Fld := ⟨0, 64⟩
end PoolCtr

namespace PoolGctr
abbrev VALUE : Fld := ⟨0, 64⟩
end PoolGctr

namespace PeatStatus
abbrev READY : Fld := ⟨127, 1⟩
abbrev PAGES_FREE : Fld := ⟨104, 23⟩
abbrev WR_LOAD : Fld := ⟨94, 10⟩
abbrev RD_LOAD : Fld := ⟨84, 10⟩
abbrev SPILLED : Fld := ⟨63, 21⟩
end PeatStatus

namespace SpillProf
abbrev SPILL_ON : Fld := ⟨109, 19⟩
abbrev HEAD_KEEP : Fld := ⟨90, 19⟩
abbrev RETURN_AT : Fld := ⟨71, 19⟩
abbrev FLUSH : Fld := ⟨61, 10⟩
end SpillProf

namespace PeatCtr
abbrev VALUE : Fld := ⟨0, 64⟩
end PeatCtr

namespace QSpill
abbrev PROFILE : Fld := ⟨27, 5⟩
abbrev STATE : Fld := ⟨25, 2⟩
abbrev PAGES : Fld := ⟨0, 23⟩
end QSpill

namespace VoqGlobal
abbrev LOSSLESS : Fld := ⟨120, 8⟩
abbrev QUANTUM : Fld := ⟨64, 56⟩
end VoqGlobal

namespace AdmProf
abbrev LIMIT : Fld := ⟨227, 29⟩
abbrev WEIGHT : Fld := ⟨223, 4⟩
abbrev DP0_EN : Fld := ⟨191, 1⟩
abbrev DP0_MAXP : Fld := ⟨176, 15⟩
abbrev DP0_MIN : Fld := ⟨152, 24⟩
abbrev DP0_MAX : Fld := ⟨128, 24⟩
abbrev DP1_EN : Fld := ⟨127, 1⟩
abbrev DP1_MAXP : Fld := ⟨112, 15⟩
abbrev DP1_MIN : Fld := ⟨88, 24⟩
abbrev DP1_MAX : Fld := ⟨64, 24⟩
abbrev DP2_EN : Fld := ⟨63, 1⟩
abbrev DP2_MAXP : Fld := ⟨48, 15⟩
abbrev DP2_MIN : Fld := ⟨24, 24⟩
abbrev DP2_MAX : Fld := ⟨0, 24⟩
end AdmProf

namespace PfcThr
abbrev XOFF0 : Fld := ⟨488, 24⟩
abbrev XON0 : Fld := ⟨464, 24⟩
abbrev XOFF1 : Fld := ⟨424, 24⟩
abbrev XON1 : Fld := ⟨400, 24⟩
abbrev XOFF2 : Fld := ⟨360, 24⟩
abbrev XON2 : Fld := ⟨336, 24⟩
abbrev XOFF3 : Fld := ⟨296, 24⟩
abbrev XON3 : Fld := ⟨272, 24⟩
abbrev XOFF4 : Fld := ⟨232, 24⟩
abbrev XON4 : Fld := ⟨208, 24⟩
abbrev XOFF5 : Fld := ⟨168, 24⟩
abbrev XON5 : Fld := ⟨144, 24⟩
abbrev XOFF6 : Fld := ⟨104, 24⟩
abbrev XON6 : Fld := ⟨80, 24⟩
abbrev XOFF7 : Fld := ⟨40, 24⟩
abbrev XON7 : Fld := ⟨16, 24⟩
end PfcThr

namespace VoqGctr
abbrev VALUE : Fld := ⟨0, 64⟩
end VoqGctr

namespace VqCtr
abbrev VALUE : Fld := ⟨0, 64⟩
end VqCtr

namespace VqCfg
abbrev PROFILE : Fld := ⟨26, 6⟩
end VqCfg

namespace VqState
abbrev DEPTH : Fld := ⟨96, 32⟩
abbrev AVG : Fld := ⟨64, 32⟩
abbrev SOJOURN : Fld := ⟨32, 32⟩
abbrev SFLAG : Fld := ⟨30, 2⟩
abbrev SDEPTH : Fld := ⟨0, 30⟩
end VqState

namespace ClassMap
abbrev BASE0 : Fld := ⟨238, 18⟩
abbrev COUNT_LOG2_0 : Fld := ⟨234, 4⟩
abbrev PENDING0 : Fld := ⟨233, 1⟩
abbrev BASE1 : Fld := ⟨206, 18⟩
abbrev COUNT_LOG2_1 : Fld := ⟨202, 4⟩
abbrev PENDING1 : Fld := ⟨201, 1⟩
abbrev BASE2 : Fld := ⟨174, 18⟩
abbrev COUNT_LOG2_2 : Fld := ⟨170, 4⟩
abbrev PENDING2 : Fld := ⟨169, 1⟩
abbrev BASE3 : Fld := ⟨142, 18⟩
abbrev COUNT_LOG2_3 : Fld := ⟨138, 4⟩
abbrev PENDING3 : Fld := ⟨137, 1⟩
abbrev BASE4 : Fld := ⟨110, 18⟩
abbrev COUNT_LOG2_4 : Fld := ⟨106, 4⟩
abbrev PENDING4 : Fld := ⟨105, 1⟩
abbrev BASE5 : Fld := ⟨78, 18⟩
abbrev COUNT_LOG2_5 : Fld := ⟨74, 4⟩
abbrev PENDING5 : Fld := ⟨73, 1⟩
abbrev BASE6 : Fld := ⟨46, 18⟩
abbrev COUNT_LOG2_6 : Fld := ⟨42, 4⟩
abbrev PENDING6 : Fld := ⟨41, 1⟩
abbrev BASE7 : Fld := ⟨14, 18⟩
abbrev COUNT_LOG2_7 : Fld := ⟨10, 4⟩
abbrev PENDING7 : Fld := ⟨9, 1⟩
end ClassMap

namespace GateCtl
abbrev GO : Fld := ⟨127, 1⟩
abbrev EN : Fld := ⟨126, 1⟩
abbrev OPER : Fld := ⟨125, 1⟩
abbrev IN_FORCE : Fld := ⟨124, 1⟩
abbrev SVC_TC : Fld := ⟨121, 3⟩
abbrev BAD : Fld := ⟨120, 1⟩
abbrev COUNT : Fld := ⟨111, 9⟩
abbrev BASE_TIME : Fld := ⟨0, 80⟩
end GateCtl

namespace EgCtr
abbrev VALUE : Fld := ⟨0, 64⟩
end EgCtr

namespace EqCtr
abbrev VALUE : Fld := ⟨0, 64⟩
end EqCtr

namespace GrpCfg
abbrev PARENT : Fld := ⟨48, 16⟩
abbrev BAND : Fld := ⟨45, 3⟩
abbrev WEIGHT : Fld := ⟨33, 12⟩
abbrev ACTIVE : Fld := ⟨32, 1⟩
end GrpCfg

namespace TenCfg
abbrev PARENT : Fld := ⟨48, 16⟩
abbrev BAND : Fld := ⟨45, 3⟩
abbrev WEIGHT : Fld := ⟨33, 12⟩
abbrev ACTIVE : Fld := ⟨32, 1⟩
end TenCfg

namespace SubCfg
abbrev PARENT : Fld := ⟨48, 16⟩
abbrev BAND : Fld := ⟨45, 3⟩
abbrev WEIGHT : Fld := ⟨33, 12⟩
abbrev ACTIVE : Fld := ⟨32, 1⟩
end SubCfg

namespace EqCfg
abbrev PARENT : Fld := ⟨48, 16⟩
abbrev BAND : Fld := ⟨45, 3⟩
abbrev WEIGHT : Fld := ⟨33, 12⟩
abbrev ACTIVE : Fld := ⟨32, 1⟩
abbrev PROFILE : Fld := ⟨26, 6⟩
end EqCfg

namespace EqState
abbrev DEPTH : Fld := ⟨96, 32⟩
abbrev AVG : Fld := ⟨64, 32⟩
abbrev SOJOURN : Fld := ⟨32, 32⟩
abbrev SFLAG : Fld := ⟨30, 2⟩
abbrev SDEPTH : Fld := ⟨0, 30⟩
end EqState

namespace GateList
abbrev GATES0 : Fld := ⟨2040, 8⟩
abbrev DURATION0 : Fld := ⟨2016, 24⟩
abbrev GATES1 : Fld := ⟨2008, 8⟩
abbrev DURATION1 : Fld := ⟨1984, 24⟩
abbrev GATES2 : Fld := ⟨1976, 8⟩
abbrev DURATION2 : Fld := ⟨1952, 24⟩
abbrev GATES3 : Fld := ⟨1944, 8⟩
abbrev DURATION3 : Fld := ⟨1920, 24⟩
abbrev GATES4 : Fld := ⟨1912, 8⟩
abbrev DURATION4 : Fld := ⟨1888, 24⟩
abbrev GATES5 : Fld := ⟨1880, 8⟩
abbrev DURATION5 : Fld := ⟨1856, 24⟩
abbrev GATES6 : Fld := ⟨1848, 8⟩
abbrev DURATION6 : Fld := ⟨1824, 24⟩
abbrev GATES7 : Fld := ⟨1816, 8⟩
abbrev DURATION7 : Fld := ⟨1792, 24⟩
abbrev GATES8 : Fld := ⟨1784, 8⟩
abbrev DURATION8 : Fld := ⟨1760, 24⟩
abbrev GATES9 : Fld := ⟨1752, 8⟩
abbrev DURATION9 : Fld := ⟨1728, 24⟩
abbrev GATES10 : Fld := ⟨1720, 8⟩
abbrev DURATION10 : Fld := ⟨1696, 24⟩
abbrev GATES11 : Fld := ⟨1688, 8⟩
abbrev DURATION11 : Fld := ⟨1664, 24⟩
abbrev GATES12 : Fld := ⟨1656, 8⟩
abbrev DURATION12 : Fld := ⟨1632, 24⟩
abbrev GATES13 : Fld := ⟨1624, 8⟩
abbrev DURATION13 : Fld := ⟨1600, 24⟩
abbrev GATES14 : Fld := ⟨1592, 8⟩
abbrev DURATION14 : Fld := ⟨1568, 24⟩
abbrev GATES15 : Fld := ⟨1560, 8⟩
abbrev DURATION15 : Fld := ⟨1536, 24⟩
abbrev GATES16 : Fld := ⟨1528, 8⟩
abbrev DURATION16 : Fld := ⟨1504, 24⟩
abbrev GATES17 : Fld := ⟨1496, 8⟩
abbrev DURATION17 : Fld := ⟨1472, 24⟩
abbrev GATES18 : Fld := ⟨1464, 8⟩
abbrev DURATION18 : Fld := ⟨1440, 24⟩
abbrev GATES19 : Fld := ⟨1432, 8⟩
abbrev DURATION19 : Fld := ⟨1408, 24⟩
abbrev GATES20 : Fld := ⟨1400, 8⟩
abbrev DURATION20 : Fld := ⟨1376, 24⟩
abbrev GATES21 : Fld := ⟨1368, 8⟩
abbrev DURATION21 : Fld := ⟨1344, 24⟩
abbrev GATES22 : Fld := ⟨1336, 8⟩
abbrev DURATION22 : Fld := ⟨1312, 24⟩
abbrev GATES23 : Fld := ⟨1304, 8⟩
abbrev DURATION23 : Fld := ⟨1280, 24⟩
abbrev GATES24 : Fld := ⟨1272, 8⟩
abbrev DURATION24 : Fld := ⟨1248, 24⟩
abbrev GATES25 : Fld := ⟨1240, 8⟩
abbrev DURATION25 : Fld := ⟨1216, 24⟩
abbrev GATES26 : Fld := ⟨1208, 8⟩
abbrev DURATION26 : Fld := ⟨1184, 24⟩
abbrev GATES27 : Fld := ⟨1176, 8⟩
abbrev DURATION27 : Fld := ⟨1152, 24⟩
abbrev GATES28 : Fld := ⟨1144, 8⟩
abbrev DURATION28 : Fld := ⟨1120, 24⟩
abbrev GATES29 : Fld := ⟨1112, 8⟩
abbrev DURATION29 : Fld := ⟨1088, 24⟩
abbrev GATES30 : Fld := ⟨1080, 8⟩
abbrev DURATION30 : Fld := ⟨1056, 24⟩
abbrev GATES31 : Fld := ⟨1048, 8⟩
abbrev DURATION31 : Fld := ⟨1024, 24⟩
abbrev GATES32 : Fld := ⟨1016, 8⟩
abbrev DURATION32 : Fld := ⟨992, 24⟩
abbrev GATES33 : Fld := ⟨984, 8⟩
abbrev DURATION33 : Fld := ⟨960, 24⟩
abbrev GATES34 : Fld := ⟨952, 8⟩
abbrev DURATION34 : Fld := ⟨928, 24⟩
abbrev GATES35 : Fld := ⟨920, 8⟩
abbrev DURATION35 : Fld := ⟨896, 24⟩
abbrev GATES36 : Fld := ⟨888, 8⟩
abbrev DURATION36 : Fld := ⟨864, 24⟩
abbrev GATES37 : Fld := ⟨856, 8⟩
abbrev DURATION37 : Fld := ⟨832, 24⟩
abbrev GATES38 : Fld := ⟨824, 8⟩
abbrev DURATION38 : Fld := ⟨800, 24⟩
abbrev GATES39 : Fld := ⟨792, 8⟩
abbrev DURATION39 : Fld := ⟨768, 24⟩
abbrev GATES40 : Fld := ⟨760, 8⟩
abbrev DURATION40 : Fld := ⟨736, 24⟩
abbrev GATES41 : Fld := ⟨728, 8⟩
abbrev DURATION41 : Fld := ⟨704, 24⟩
abbrev GATES42 : Fld := ⟨696, 8⟩
abbrev DURATION42 : Fld := ⟨672, 24⟩
abbrev GATES43 : Fld := ⟨664, 8⟩
abbrev DURATION43 : Fld := ⟨640, 24⟩
abbrev GATES44 : Fld := ⟨632, 8⟩
abbrev DURATION44 : Fld := ⟨608, 24⟩
abbrev GATES45 : Fld := ⟨600, 8⟩
abbrev DURATION45 : Fld := ⟨576, 24⟩
abbrev GATES46 : Fld := ⟨568, 8⟩
abbrev DURATION46 : Fld := ⟨544, 24⟩
abbrev GATES47 : Fld := ⟨536, 8⟩
abbrev DURATION47 : Fld := ⟨512, 24⟩
abbrev GATES48 : Fld := ⟨504, 8⟩
abbrev DURATION48 : Fld := ⟨480, 24⟩
abbrev GATES49 : Fld := ⟨472, 8⟩
abbrev DURATION49 : Fld := ⟨448, 24⟩
abbrev GATES50 : Fld := ⟨440, 8⟩
abbrev DURATION50 : Fld := ⟨416, 24⟩
abbrev GATES51 : Fld := ⟨408, 8⟩
abbrev DURATION51 : Fld := ⟨384, 24⟩
abbrev GATES52 : Fld := ⟨376, 8⟩
abbrev DURATION52 : Fld := ⟨352, 24⟩
abbrev GATES53 : Fld := ⟨344, 8⟩
abbrev DURATION53 : Fld := ⟨320, 24⟩
abbrev GATES54 : Fld := ⟨312, 8⟩
abbrev DURATION54 : Fld := ⟨288, 24⟩
abbrev GATES55 : Fld := ⟨280, 8⟩
abbrev DURATION55 : Fld := ⟨256, 24⟩
abbrev GATES56 : Fld := ⟨248, 8⟩
abbrev DURATION56 : Fld := ⟨224, 24⟩
abbrev GATES57 : Fld := ⟨216, 8⟩
abbrev DURATION57 : Fld := ⟨192, 24⟩
abbrev GATES58 : Fld := ⟨184, 8⟩
abbrev DURATION58 : Fld := ⟨160, 24⟩
abbrev GATES59 : Fld := ⟨152, 8⟩
abbrev DURATION59 : Fld := ⟨128, 24⟩
abbrev GATES60 : Fld := ⟨120, 8⟩
abbrev DURATION60 : Fld := ⟨96, 24⟩
abbrev GATES61 : Fld := ⟨88, 8⟩
abbrev DURATION61 : Fld := ⟨64, 24⟩
abbrev GATES62 : Fld := ⟨56, 8⟩
abbrev DURATION62 : Fld := ⟨32, 24⟩
abbrev GATES63 : Fld := ⟨24, 8⟩
abbrev DURATION63 : Fld := ⟨0, 24⟩
end GateList

namespace MtCtr
abbrev VALUE : Fld := ⟨0, 64⟩
end MtCtr

namespace Meter
abbrev CIR : Fld := ⟨224, 32⟩
abbrev PIR : Fld := ⟨192, 32⟩
abbrev CBS : Fld := ⟨168, 24⟩
abbrev PBS : Fld := ⟨144, 24⟩
abbrev EN : Fld := ⟨143, 1⟩
abbrev COLOR_AWARE : Fld := ⟨142, 1⟩
abbrev LOOSE : Fld := ⟨141, 1⟩
abbrev RED_ACT : Fld := ⟨140, 1⟩
abbrev CLEAR : Fld := ⟨139, 1⟩
abbrev TC_LEVEL : Fld := ⟨96, 32⟩
abbrev TP_LEVEL : Fld := ⟨64, 32⟩
end Meter

namespace ShPort
abbrev CIR : Fld := ⟨224, 32⟩
abbrev PIR : Fld := ⟨192, 32⟩
abbrev CBS : Fld := ⟨168, 24⟩
abbrev PBS : Fld := ⟨144, 24⟩
abbrev COMMIT_EN : Fld := ⟨143, 1⟩
abbrev PEAK_EN : Fld := ⟨142, 1⟩
abbrev CLEAR : Fld := ⟨139, 1⟩
abbrev TC_LEVEL : Fld := ⟨96, 32⟩
abbrev TP_LEVEL : Fld := ⟨64, 32⟩
end ShPort

namespace ShGrp
abbrev CIR : Fld := ⟨224, 32⟩
abbrev PIR : Fld := ⟨192, 32⟩
abbrev CBS : Fld := ⟨168, 24⟩
abbrev PBS : Fld := ⟨144, 24⟩
abbrev COMMIT_EN : Fld := ⟨143, 1⟩
abbrev PEAK_EN : Fld := ⟨142, 1⟩
abbrev CLEAR : Fld := ⟨139, 1⟩
abbrev TC_LEVEL : Fld := ⟨96, 32⟩
abbrev TP_LEVEL : Fld := ⟨64, 32⟩
end ShGrp

namespace ShTen
abbrev CIR : Fld := ⟨224, 32⟩
abbrev PIR : Fld := ⟨192, 32⟩
abbrev CBS : Fld := ⟨168, 24⟩
abbrev PBS : Fld := ⟨144, 24⟩
abbrev COMMIT_EN : Fld := ⟨143, 1⟩
abbrev PEAK_EN : Fld := ⟨142, 1⟩
abbrev CLEAR : Fld := ⟨139, 1⟩
abbrev TC_LEVEL : Fld := ⟨96, 32⟩
abbrev TP_LEVEL : Fld := ⟨64, 32⟩
end ShTen

namespace ShSub
abbrev CIR : Fld := ⟨224, 32⟩
abbrev PIR : Fld := ⟨192, 32⟩
abbrev CBS : Fld := ⟨168, 24⟩
abbrev PBS : Fld := ⟨144, 24⟩
abbrev COMMIT_EN : Fld := ⟨143, 1⟩
abbrev PEAK_EN : Fld := ⟨142, 1⟩
abbrev CLEAR : Fld := ⟨139, 1⟩
abbrev TC_LEVEL : Fld := ⟨96, 32⟩
abbrev TP_LEVEL : Fld := ⟨64, 32⟩
end ShSub

namespace ShQueue
abbrev CIR : Fld := ⟨224, 32⟩
abbrev PIR : Fld := ⟨192, 32⟩
abbrev CBS : Fld := ⟨168, 24⟩
abbrev PBS : Fld := ⟨144, 24⟩
abbrev COMMIT_EN : Fld := ⟨143, 1⟩
abbrev PEAK_EN : Fld := ⟨142, 1⟩
abbrev CLEAR : Fld := ⟨139, 1⟩
abbrev TC_LEVEL : Fld := ⟨96, 32⟩
abbrev TP_LEVEL : Fld := ⟨64, 32⟩
end ShQueue

namespace FabSet
abbrev CLASS : Fld := ⟨126, 2⟩
abbrev SIZE_X : Fld := ⟨119, 7⟩
abbrev SIZE_Y : Fld := ⟨113, 6⟩
abbrev SIZE_Z : Fld := ⟨108, 5⟩
abbrev DBL : Fld := ⟨106, 2⟩
abbrev ADDR : Fld := ⟨94, 12⟩
abbrev ADDR_VALID : Fld := ⟨93, 1⟩
abbrev CABLE_CHECK : Fld := ⟨92, 1⟩
abbrev ADAPT : Fld := ⟨91, 1⟩
abbrev NM_BIAS : Fld := ⟨83, 8⟩
abbrev QUAR_HOLD : Fld := ⟨73, 10⟩
abbrev UNREACH_FLUSH : Fld := ⟨65, 8⟩
abbrev RESTART : Fld := ⟨64, 1⟩
end FabSet

namespace FabStatus
abbrev SETTLED : Fld := ⟨127, 1⟩
abbrev PLAN_LINKS : Fld := ⟨120, 7⟩
abbrev LINKS_UP : Fld := ⟨113, 7⟩
abbrev LINKS_QUAR : Fld := ⟨106, 7⟩
abbrev REACHABLE : Fld := ⟨93, 13⟩
abbrev PLAN_HASH : Fld := ⟨61, 32⟩
end FabStatus

namespace TrCtl
abbrev GRANT_WIN : Fld := ⟨112, 16⟩
abbrev REORDER_TMO : Fld := ⟨96, 16⟩
abbrev COPY_TMO : Fld := ⟨80, 16⟩
abbrev CREDIT_KEEP : Fld := ⟨72, 8⟩
abbrev MC_SYNC : Fld := ⟨64, 8⟩
abbrev DUP_EN : Fld := ⟨63, 1⟩
abbrev MC_POOL : Fld := ⟨31, 32⟩
end TrCtl

namespace FlCtl
abbrev ADMIN_UP : Fld := ⟨63, 1⟩
abbrev ADMIN_QUAR : Fld := ⟨62, 1⟩
abbrev EQ_MODE : Fld := ⟨60, 2⟩
abbrev TX_PRE : Fld := ⟨54, 6⟩
abbrev TX_MAIN : Fld := ⟨48, 6⟩
abbrev TX_POST : Fld := ⟨42, 6⟩
abbrev TX_INV : Fld := ⟨38, 4⟩
abbrev RX_INV : Fld := ⟨34, 4⟩
end FlCtl

namespace FlStatus
abbrev STATE : Fld := ⟨252, 4⟩
abbrev CAUSE : Fld := ⟨248, 4⟩
abbrev PEER_ADDR : Fld := ⟨236, 12⟩
abbrev PEER_LINK : Fld := ⟨230, 6⟩
abbrev SAMPLED : Fld := ⟨229, 1⟩
abbrev ID_STATE : Fld := ⟨226, 3⟩
abbrev FLAPS : Fld := ⟨216, 10⟩
abbrev PEER_SERIAL : Fld := ⟨152, 64⟩
abbrev CONG : Fld := ⟨136, 16⟩
end FlStatus

namespace PortGrant
abbrev PORT_GRANT : Fld := ⟨48, 16⟩
abbrev OUTSTANDING : Fld := ⟨24, 24⟩
end PortGrant

namespace FlCtr
abbrev VALUE : Fld := ⟨0, 64⟩
end FlCtr

namespace RtCtr
abbrev VALUE : Fld := ⟨0, 64⟩
end RtCtr

namespace TrCtr
abbrev VALUE : Fld := ⟨0, 64⟩
end TrCtr

namespace CabMirror
abbrev DATA : Fld := ⟨0, 2048⟩
end CabMirror

namespace Route
abbrev MIN_MASK : Fld := ⟨192, 64⟩
abbrev NM_MASK : Fld := ⟨128, 64⟩
abbrev DIST : Fld := ⟨125, 3⟩
abbrev DUP : Fld := ⟨124, 1⟩
abbrev SERIAL : Fld := ⟨60, 64⟩
end Route

namespace MemMask
abbrev MASK : Fld := ⟨0, 2048⟩
end MemMask

namespace LpMask
abbrev MASK : Fld := ⟨16, 48⟩
end LpMask

namespace RlCtr
abbrev VALUE : Fld := ⟨0, 64⟩
end RlCtr

namespace HbCtl
abbrev AGE_C1 : Fld := ⟨120, 8⟩
abbrev AGE_C2 : Fld := ⟨112, 8⟩
abbrev AGE_C3 : Fld := ⟨104, 8⟩
abbrev AGE_SHARE : Fld := ⟨97, 7⟩
abbrev OPEN_MAX : Fld := ⟨87, 10⟩
abbrev RD_THRESH : Fld := ⟨71, 16⟩
abbrev THROTTLE_NS : Fld := ⟨59, 12⟩
abbrev SCRUB_HOURS : Fld := ⟨51, 8⟩
abbrev SCRUB_EN : Fld := ⟨50, 1⟩
abbrev AUTO_RETRAIN : Fld := ⟨49, 1⟩
abbrev CE_RETRAIN : Fld := ⟨33, 16⟩
abbrev TEMP_MAX : Fld := ⟨26, 7⟩
abbrev RETRAIN : Fld := ⟨18, 8⟩
end HbCtl

namespace HbStatus
abbrev STATE : Fld := ⟨126, 2⟩
abbrev TEMP : Fld := ⟨118, 8⟩
abbrev HOT : Fld := ⟨117, 1⟩
abbrev QUEUED : Fld := ⟨106, 11⟩
abbrev LANES_REPAIRED : Fld := ⟨98, 8⟩
abbrev RETRAINING : Fld := ⟨90, 8⟩
abbrev SCRUB_AGE : Fld := ⟨74, 16⟩
end HbStatus

namespace HbReq
abbrev CLASS : Fld := ⟨62, 2⟩
abbrev HINT : Fld := ⟨61, 1⟩
abbrev PRESENT : Fld := ⟨60, 1⟩
abbrev THROTTLED : Fld := ⟨59, 1⟩
abbrev QUEUED : Fld := ⟨48, 11⟩
end HbReq

namespace HbChan
abbrev TRAIN : Fld := ⟨126, 2⟩
abbrev TRAIN_TEMP : Fld := ⟨118, 8⟩
abbrev REPAIRS : Fld := ⟨110, 8⟩
abbrev RETRAINS : Fld := ⟨94, 16⟩
end HbChan

namespace HbRow
abbrev ROW : Fld := ⟨80, 48⟩
abbrev REQ : Fld := ⟨76, 4⟩
abbrev HOT_ROWS : Fld := ⟨60, 16⟩
end HbRow

namespace HbPcCtr
abbrev VALUE : Fld := ⟨0, 64⟩
end HbPcCtr

namespace HbRqCtr
abbrev VALUE : Fld := ⟨0, 64⟩
end HbRqCtr

namespace HbRaw
abbrev DATA : Fld := ⟨0, 2048⟩
end HbRaw

namespace TmCtl
abbrev PROFILE : Fld := ⟨126, 2⟩
abbrev DOMAIN : Fld := ⟨118, 8⟩
abbrev FT_PRIO : Fld := ⟨110, 8⟩
abbrev PRIORITY2 : Fld := ⟨102, 8⟩
abbrev LOCAL_PRIO : Fld := ⟨94, 8⟩
abbrev LOCK_NS : Fld := ⟨86, 8⟩
abbrev LOCK_S : Fld := ⟨78, 8⟩
abbrev UNLOCK_NS : Fld := ⟨66, 12⟩
abbrev HO_SPEC_S : Fld := ⟨50, 16⟩
abbrev STEP_NS : Fld := ⟨34, 16⟩
abbrev SERVO_BW : Fld := ⟨31, 3⟩
abbrev TWO_STEP : Fld := ⟨30, 1⟩
end TmCtl

namespace TmStatus
abbrev SERVO : Fld := ⟨253, 3⟩
abbrev SOURCE : Fld := ⟨251, 2⟩
abbrev SRC_PORT : Fld := ⟨245, 6⟩
abbrev ROOT : Fld := ⟨233, 12⟩
abbrev FT_STATE : Fld := ⟨231, 2⟩
abbrev FT_PARENT : Fld := ⟨225, 6⟩
abbrev FT_HOPS : Fld := ⟨222, 3⟩
abbrev CLOCK_CLASS : Fld := ⟨214, 8⟩
abbrev TIME_TRACEABLE : Fld := ⟨213, 1⟩
abbrev FREQ_TRACEABLE : Fld := ⟨212, 1⟩
abbrev HO_READY : Fld := ⟨211, 1⟩
abbrev HOSC_OK : Fld := ⟨210, 1⟩
abbrev DPLL : Fld := ⟨208, 2⟩
abbrev OFFSET : Fld := ⟨176, 32⟩
abbrev FREQ_OFF : Fld := ⟨144, 32⟩
abbrev HO_ELAPSED : Fld := ⟨128, 16⟩
end TmStatus

namespace FqCtl
abbrev FREQ_BW : Fld := ⟨127, 1⟩
abbrev QL_EN : Fld := ⟨126, 1⟩
abbrev ESMC_EN : Fld := ⟨125, 1⟩
abbrev PRIO_10M : Fld := ⟨117, 8⟩
abbrev QL_10M : Fld := ⟨113, 4⟩
abbrev WTR : Fld := ⟨103, 10⟩
abbrev HOLDOFF : Fld := ⟨99, 4⟩
abbrev PPS_IN_EN : Fld := ⟨98, 1⟩
abbrev PPS_OUT_EN : Fld := ⟨97, 1⟩
abbrev OUT_10M_EN : Fld := ⟨96, 1⟩
abbrev HOSC_EN : Fld := ⟨95, 1⟩
abbrev VP_CLASS : Fld := ⟨87, 8⟩
abbrev PPS_IN_CORR : Fld := ⟨71, 16⟩
abbrev PPS_OUT_CORR : Fld := ⟨55, 16⟩
abbrev PPS_WIDTH : Fld := ⟨47, 8⟩
end FqCtl

namespace PtCtl
abbrev PTP_MODE : Fld := ⟨126, 2⟩
abbrev MASTER_ONLY : Fld := ⟨125, 1⟩
abbrev MCAST_ADDR : Fld := ⟨124, 1⟩
abbrev LOG_SYNC : Fld := ⟨120, 4⟩
abbrev LOG_DELAY : Fld := ⟨116, 4⟩
abbrev LOG_ANNOUNCE : Fld := ⟨112, 4⟩
abbrev ANN_TIMEOUT : Fld := ⟨104, 8⟩
abbrev TS_ING_CORR : Fld := ⟨88, 16⟩
abbrev TS_EG_CORR : Fld := ⟨72, 16⟩
abbrev ASYM : Fld := ⟨56, 16⟩
abbrev FREQ_PRIO : Fld := ⟨48, 8⟩
end PtCtl

namespace PtStatus
abbrev PORT_STATE : Fld := ⟨124, 4⟩
abbrev CAL : Fld := ⟨123, 1⟩
abbrev ESMC_VALID : Fld := ⟨122, 1⟩
abbrev RX_QL : Fld := ⟨118, 4⟩
abbrev MPD : Fld := ⟨86, 32⟩
abbrev PARTNERS : Fld := ⟨76, 10⟩
end PtStatus

namespace FlTime
abbrev FT_ASYM : Fld := ⟨112, 16⟩
abbrev LINK_DELAY : Fld := ⟨80, 32⟩
abbrev PARENT : Fld := ⟨79, 1⟩
end FlTime

namespace TmCtr
abbrev VALUE : Fld := ⟨0, 64⟩
end TmCtr

namespace PtpTmpl
abbrev TMPL_LEN : Fld := ⟨1017, 7⟩
abbrev FAMILY : Fld := ⟨1016, 1⟩
abbrev TEMPLATE : Fld := ⟨0, 896⟩
end PtpTmpl

namespace PrCtl
abbrev PAIR_EN : Fld := ⟨127, 1⟩
abbrev MODE : Fld := ⟨125, 2⟩
abbrev UNIT : Fld := ⟨124, 1⟩
abbrev LOCK : Fld := ⟨123, 1⟩
abbrev PROT_PORTS : Fld := ⟨75, 48⟩
abbrev METER_BASE : Fld := ⟨55, 20⟩
abbrev METER_COUNT : Fld := ⟨34, 21⟩
abbrev PN_SKIP_LOG2 : Fld := ⟨26, 8⟩
end PrCtl

namespace PrStatus
abbrev ROLE : Fld := ⟨125, 3⟩
abbrev SYNC : Fld := ⟨123, 2⟩
abbrev PEER_ALIVE : Fld := ⟨122, 1⟩
abbrev YOKE_UP : Fld := ⟨120, 2⟩
abbrev PROT_QUEUES : Fld := ⟨101, 19⟩
abbrev EPOCH_LAST : Fld := ⟨69, 32⟩
abbrev DELTA_KB : Fld := ⟨53, 16⟩
end PrStatus

namespace PrCtr
abbrev VALUE : Fld := ⟨0, 64⟩
end PrCtr

namespace FltCtl
abbrev SAFE_EXIT : Fld := ⟨127, 1⟩
abbrev SAFE_ENTER : Fld := ⟨126, 1⟩
end FltCtl

namespace FltStatus
abbrev SAFE : Fld := ⟨255, 1⟩
abbrev EMBER_ON : Fld := ⟨254, 1⟩
abbrev HBM_OK : Fld := ⟨253, 1⟩
abbrev RING_USED : Fld := ⟨240, 13⟩
abbrev NEWEST : Fld := ⟨128, 64⟩
abbrev OLDEST : Fld := ⟨64, 64⟩
abbrev SAFE_SEQ : Fld := ⟨0, 64⟩
end FltStatus

namespace GrCtl
abbrev EN : Fld := ⟨127, 1⟩
abbrev ROUND_S : Fld := ⟨121, 6⟩
abbrev SHARE : Fld := ⟨117, 4⟩
end GrCtl

namespace GrStatus
abbrev ROUND : Fld := ⟨96, 32⟩
abbrev LAST_MS : Fld := ⟨80, 16⟩
abbrev OLDEST_S : Fld := ⟨72, 8⟩
abbrev ENGINES_OUT : Fld := ⟨60, 12⟩
abbrev FINDINGS : Fld := ⟨40, 20⟩
end GrStatus

namespace FltCtr
abbrev VALUE : Fld := ⟨0, 64⟩
end FltCtr

namespace RingSlot
abbrev SEQ : Fld := ⟨448, 64⟩
abbrev SOURCE : Fld := ⟨436, 12⟩
abbrev KIND : Fld := ⟨428, 8⟩
abbrev INJECT : Fld := ⟨427, 1⟩
abbrev CONSEQ : Fld := ⟨426, 1⟩
abbrev REACTED : Fld := ⟨425, 1⟩
abbrev ACTIONS : Fld := ⟨422, 3⟩
abbrev LOST : Fld := ⟨405, 17⟩
abbrev ORIGIN : Fld := ⟨256, 64⟩
abbrev ADDRESS : Fld := ⟨208, 48⟩
abbrev TIME : Fld := ⟨128, 64⟩
end RingSlot

namespace CntStatus
abbrev SWEEP : Fld := ⟨64, 64⟩
abbrev VALUES : Fld := ⟨48, 16⟩
end CntStatus

namespace MirSess
abbrev EN : Fld := ⟨255, 1⟩
abbrev ING : Fld := ⟨254, 1⟩
abbrev EGR : Fld := ⟨253, 1⟩
abbrev NODE : Fld := ⟨241, 12⟩
abbrev PORT : Fld := ⟨235, 6⟩
abbrev TC : Fld := ⟨232, 3⟩
abbrev TRUNC : Fld := ⟨218, 14⟩
abbrev SAMPLE_N : Fld := ⟨194, 24⟩
abbrev MAX_KPPS : Fld := ⟨170, 24⟩
abbrev PORTS : Fld := ⟨122, 48⟩
end MirSess

namespace ColEnt
abbrev ADDR : Fld := ⟨16, 48⟩
abbrev EN : Fld := ⟨15, 1⟩
abbrev COUNT : Fld := ⟨7, 8⟩
end ColEnt

namespace CntCtr
abbrev VALUE : Fld := ⟨0, 64⟩
end CntCtr

namespace MirCtr
abbrev VALUE : Fld := ⟨0, 64⟩
end MirCtr

namespace LostCtr
abbrev VALUE : Fld := ⟨0, 64⟩
end LostCtr

namespace UpdCtl
abbrev SAVE : Fld := ⟨127, 1⟩
abbrev CONFIRM_REQ : Fld := ⟨126, 1⟩
abbrev HEALTH_S : Fld := ⟨116, 10⟩
abbrev TRIAL_BOOTS : Fld := ⟨114, 2⟩
end UpdCtl

namespace UpdStatus
abbrev HOLDER : Fld := ⟨248, 8⟩
abbrev LEASE_LEFT : Fld := ⟨236, 12⟩
abbrev STAGE : Fld := ⟨233, 3⟩
abbrev BLOCKS : Fld := ⟨223, 10⟩
abbrev RUN_SLOT : Fld := ⟨222, 1⟩
abbrev SETTINGS_DEFAULTED : Fld := ⟨221, 1⟩
abbrev ACT_STATE : Fld := ⟨218, 3⟩
abbrev SECVER_MIN : Fld := ⟨212, 6⟩
abbrev HEALTH_LEFT : Fld := ⟨202, 10⟩
abbrev LAST_REASON : Fld := ⟨194, 8⟩
abbrev RUN_VERSION : Fld := ⟨170, 24⟩
end UpdStatus

namespace DirRec
abbrev STATE : Fld := ⟨253, 3⟩
abbrev TRIAL : Fld := ⟨252, 1⟩
abbrev HEALTH_FAILED : Fld := ⟨251, 1⟩
abbrev TRIES : Fld := ⟨249, 2⟩
abbrev BUNDLE_ID : Fld := ⟨216, 32⟩
abbrev FW_VERSION : Fld := ⟨192, 24⟩
abbrev SECVER : Fld := ⟨186, 6⟩
abbrev SET_FORMAT : Fld := ⟨178, 8⟩
abbrev LENGTH : Fld := ⟨146, 32⟩
abbrev TAG : Fld := ⟨0, 128⟩
end DirRec

namespace RelKey
abbrev DIGEST : Fld := ⟨128, 384⟩
end RelKey

namespace UpdCtr
abbrev VALUE : Fld := ⟨0, 64⟩
end UpdCtr

namespace PwrCtl
abbrev FORCE_LEVEL : Fld := ⟨126, 2⟩
abbrev KEEP_PORTS : Fld := ⟨78, 48⟩
abbrev KEEP_LINKS : Fld := ⟨14, 64⟩
end PwrCtl

namespace PwrStatus
abbrev LEVEL : Fld := ⟨254, 2⟩
abbrev VIN_LEVEL : Fld := ⟨252, 2⟩
abbrev STABLE : Fld := ⟨251, 1⟩
abbrev THERMAL : Fld := ⟨250, 1⟩
abbrev STEPS : Fld := ⟨247, 3⟩
abbrev VIN_MV : Fld := ⟨231, 16⟩
abbrev IIN : Fld := ⟨220, 11⟩
abbrev PIN_W : Fld := ⟨208, 12⟩
abbrev TJ_MAX : Fld := ⟨200, 8⟩
abbrev SHED_PORTS : Fld := ⟨152, 48⟩
abbrev SHED_LINKS : Fld := ⟨88, 64⟩
abbrev VSTBY_MV : Fld := ⟨72, 16⟩
end PwrStatus

namespace PwrCtr
abbrev VALUE : Fld := ⟨0, 64⟩
end PwrCtr

namespace PerfSel
abbrev EVENT : Fld := ⟨48, 16⟩
abbrev INST : Fld := ⟨27, 21⟩
abbrev EN : Fld := ⟨26, 1⟩
abbrev COLLECT : Fld := ⟨25, 1⟩
abbrev SAMPLE_LOG2 : Fld := ⟨19, 6⟩
end PerfSel

namespace PerfCnt
abbrev COUNT : Fld := ⟨0, 64⟩
end PerfCnt

namespace Reaction
abbrev EVENT : Fld := ⟨63, 1⟩
abbrev LOCAL : Fld := ⟨62, 1⟩
abbrev SAFE : Fld := ⟨61, 1⟩
abbrev THRESH : Fld := ⟨32, 16⟩
abbrev WINDOW : Fld := ⟨16, 16⟩
abbrev COUNT : Fld := ⟨0, 16⟩
end Reaction

end Sys2Proof.Machine
end

