-- ==== Sys2Proof/Machine/Objects.lean ====
section
/-! DEFINITION. The object table (R67, and the object tables of every chapter): for each object type its blocks, its
offset and strides, its size in bytes, and its fields with their access code (R10), their reset value and the range of
values their Meaning cell lists (R13). -/
namespace Sys2Proof.Machine

/-- The access codes of R10. -/
inductive Access where
  | ro | rw | rw1c | rc | wo | sc
  deriving DecidableEq, Repr

/-- A row of a field table: the field, its access code, its reset value, and the least and greatest listed value. -/
structure FieldDesc where
  f     : Fld
  acc   : Access
  reset : Nat
  min   : Nat
  max   : Nat
  deriving DecidableEq, Repr

/-- A read-only field. -/
def roF (f : Fld) (reset : Nat) : FieldDesc := ⟨f, .ro, reset, 0, 2 ^ f.w - 1⟩
/-- A field of access code RW whose every value is listed. -/
def rwF (f : Fld) (reset : Nat) : FieldDesc := ⟨f, .rw, reset, 0, 2 ^ f.w - 1⟩
/-- A field of access code RW that takes the values from min to max. -/
def rwR (f : Fld) (reset min max : Nat) : FieldDesc := ⟨f, .rw, reset, min, max⟩
/-- A field of access code SC. -/
def scF (f : Fld) : FieldDesc := ⟨f, .sc, 0, 0, 2 ^ f.w - 1⟩
/-- A field of access code RC. -/
def rcF (f : Fld) : FieldDesc := ⟨f, .rc, 0, 0, 2 ^ f.w - 1⟩

/-- Where the objects of a type lie: the blocks that hold it, its offset, the count and stride of its outer and inner
index, and its size in bytes. -/
structure ObjDesc where
  blks : List Nat
  base : Nat
  n1   : Nat
  s1   : Nat
  n2   : Nat
  s2   : Nat
  size : Nat
  deriving DecidableEq, Repr

/-- The engine cluster blocks EC0 to EC31 (R8). -/
def ecBlocks : List Nat := List.range' 0x10 32
/-- The HBM controller blocks HF0, HF1, HQ0 to HQ3 (R8). -/
def hbmBlocks : List Nat := [0x58, 0x59, 0x5C, 0x5D, 0x5E, 0x5F]
/-- Every block identifier that R8 lists. -/
def allBlocks : List Nat := [0x01, 0x02] ++ ecBlocks ++ [0x30, 0x31, 0x32, 0x38, 0x39, 0x3A, 0x40, 0x41, 0x42] ++
  [0x48, 0x49, 0x4A, 0x50, 0x51] ++ hbmBlocks ++ [0x60, 0x64, 0x68, 0x6C, 0x70, 0x74, 0x78]

/-- Every object type, in the order of the blocks. -/
def allTypes : List ObjTy := [
  .brgStatus, .brgCtr, .identity, .identKey, .opKey, .rstStatus, .mgmtPort, .sessSet,
  .sessStatus, .cmdCtr, .clCtl, .clVersion, .clStatus, .imgSlot, .ecCtr, .patchStage,
  .microView, .nanoView, .threadCtx, .imgData, .lpmStatus, .ptDesc, .lpmCtr, .crownWord,
  .leafLine, .exmDesc, .exmCtr, .nhEntry, .ecmpGroup, .ecmpMember, .labelEntry, .patCtl,
  .patStatus, .ruleSet, .patCtr, .tieCtr, .patWin, .ruleEntry, .lmacGlobal, .lpCtl,
  .lpStatus, .laneCtl, .modCtl, .modData, .aggCtl, .lpCtr, .svcCtr, .idMirror,
  .bfdSess, .tfuCtl, .frCtl, .frStatus, .protGrp, .tfuCtr, .grpSwCtr, .pageEnt,
  .tti, .msGlobal, .msStatus, .msPort, .mkaStatus, .msCtr, .msGctr, .saSlot,
  .cakSlot, .bufCtl, .bufStatus, .arrMap, .bufCtr, .pktDesc, .shCtl, .shStatus,
  .poolCtl, .poolStatus, .egMap, .poolCtr, .poolGctr, .peatStatus, .spillProf, .peatCtr,
  .qSpill, .voqGlobal, .admProf, .pfcThr, .voqGctr, .vqCtr, .vqCfg, .vqState,
  .classMap, .gateCtl, .egCtr, .eqCtr, .grpCfg, .tenCfg, .subCfg, .eqCfg,
  .eqState, .gateList, .mtCtr, .meter, .shPort, .shGrp, .shTen, .shSub,
  .shQueue, .fabSet, .fabStatus, .trCtl, .flCtl, .flStatus, .portGrant, .flCtr,
  .rtCtr, .trCtr, .cabMirror, .route, .memMask, .lpMask, .rlCtr, .hbCtl,
  .hbStatus, .hbReq, .hbChan, .hbRow, .hbPcCtr, .hbRqCtr, .hbRaw, .tmCtl,
  .tmStatus, .fqCtl, .ptCtl, .ptStatus, .flTime, .tmCtr, .ptpTmpl, .prCtl,
  .prStatus, .prCtr, .fltCtl, .fltStatus, .grCtl, .grStatus, .fltCtr, .ringSlot,
  .cntStatus, .mirSess, .colEnt, .cntCtr, .mirCtr, .lostCtr, .updCtl, .updStatus,
  .dirRec, .relKey, .updCtr, .pwrCtl, .pwrStatus, .pwrCtr, .perfSel, .perfCnt,
  .reaction]

/-- The place of each object type (the offset tables of the chapters). -/
def descOf : ObjTy → ObjDesc
  | .brgStatus => ⟨[0x78], 0x0, 1, 0x0, 1, 0x0, 16⟩
  | .brgCtr => ⟨[0x78], 0x100000000, 4, 0x8, 1, 0x0, 8⟩
  | .identity => ⟨[0x01], 0x0, 1, 0x0, 1, 0x0, 16⟩
  | .identKey => ⟨[0x01], 0x100, 1, 0x0, 1, 0x0, 128⟩
  | .opKey => ⟨[0x01], 0x200, 4, 0x40, 1, 0x0, 64⟩
  | .rstStatus => ⟨[0x01], 0x400, 1, 0x0, 1, 0x0, 16⟩
  | .mgmtPort => ⟨[0x02], 0x0, 2, 0x40, 1, 0x0, 8⟩
  | .sessSet => ⟨[0x02], 0x100, 1, 0x0, 1, 0x0, 8⟩
  | .sessStatus => ⟨[0x02], 0x1000, 64, 0x40, 1, 0x0, 32⟩
  | .cmdCtr => ⟨[0x02], 0x100000000, 264, 0x10, 2, 0x8, 8⟩
  | .clCtl => ⟨ecBlocks, 0x0, 1, 0x0, 1, 0x0, 16⟩
  | .clVersion => ⟨ecBlocks, 0x20, 1, 0x0, 1, 0x0, 16⟩
  | .clStatus => ⟨ecBlocks, 0x40, 1, 0x0, 1, 0x0, 16⟩
  | .imgSlot => ⟨[0x10], 0x100, 4, 0x20, 1, 0x0, 16⟩
  | .ecCtr => ⟨ecBlocks, 0x100000000, 7, 0x8, 1, 0x0, 8⟩
  | .patchStage => ⟨ecBlocks, 0x1000000000, 8, 0x100, 1, 0x0, 256⟩
  | .microView => ⟨ecBlocks, 0x1100000000, 16384, 0x8, 1, 0x0, 8⟩
  | .nanoView => ⟨ecBlocks, 0x1200000000, 4096, 0x10, 1, 0x0, 16⟩
  | .threadCtx => ⟨ecBlocks, 0x2000000000, 512, 0x100, 1, 0x0, 256⟩
  | .imgData => ⟨[0x10], 0x3000000000, 4, 0x40000, 578, 0x100, 256⟩
  | .lpmStatus => ⟨[0x30], 0x0, 1, 0x0, 1, 0x0, 16⟩
  | .ptDesc => ⟨[0x30], 0x10000, 4096, 0x8, 1, 0x0, 8⟩
  | .lpmCtr => ⟨[0x30], 0x100000000, 8, 0x8, 1, 0x0, 8⟩
  | .crownWord => ⟨[0x30], 0x1000000000, 786432, 0x10, 1, 0x0, 16⟩
  | .leafLine => ⟨[0x30], 0x2000000000, 33554432, 0x40, 1, 0x0, 64⟩
  | .exmDesc => ⟨[0x31], 0x10000, 5, 0x8, 1, 0x0, 8⟩
  | .exmCtr => ⟨[0x31], 0x100000000, 6, 0x8, 1, 0x0, 8⟩
  | .nhEntry => ⟨[0x31], 0x1000000000, 4194304, 0x8, 1, 0x0, 8⟩
  | .ecmpGroup => ⟨[0x31], 0x2000000000, 1048576, 0x4, 1, 0x0, 4⟩
  | .ecmpMember => ⟨[0x31], 0x3000000000, 1048576, 0x4, 1, 0x0, 4⟩
  | .labelEntry => ⟨[0x31], 0x4000000000, 1048576, 0x8, 1, 0x0, 8⟩
  | .patCtl => ⟨[0x32], 0x0, 1, 0x0, 1, 0x0, 16⟩
  | .patStatus => ⟨[0x32], 0x20, 1, 0x0, 1, 0x0, 16⟩
  | .ruleSet => ⟨[0x32], 0x10000, 64, 0x10, 1, 0x0, 16⟩
  | .patCtr => ⟨[0x32], 0x100000000, 7, 0x8, 1, 0x0, 8⟩
  | .tieCtr => ⟨[0x32], 0x100000100, 64, 0x8, 1, 0x0, 8⟩
  | .patWin => ⟨[0x32], 0x1000000000, 2, 0x1000000, 49160, 0x100, 256⟩
  | .ruleEntry => ⟨[0x32], 0x2000000000, 262144, 0x10, 1, 0x0, 16⟩
  | .lmacGlobal => ⟨[0x38], 0x0, 1, 0x0, 1, 0x0, 16⟩
  | .lpCtl => ⟨[0x38], 0x1000, 48, 0x40, 1, 0x0, 16⟩
  | .lpStatus => ⟨[0x38], 0x1020, 48, 0x40, 1, 0x0, 16⟩
  | .laneCtl => ⟨[0x38], 0x4000, 192, 0x10, 1, 0x0, 8⟩
  | .modCtl => ⟨[0x38], 0x8000, 4, 0x100, 1, 0x0, 16⟩
  | .modData => ⟨[0x38], 0x8010, 4, 0x100, 1, 0x0, 128⟩
  | .aggCtl => ⟨[0x38], 0x10000, 24, 0x40, 1, 0x0, 16⟩
  | .lpCtr => ⟨[0x38], 0x100000000, 48, 0x100, 18, 0x8, 8⟩
  | .svcCtr => ⟨[0x38], 0x100010000, 8, 0x8, 1, 0x0, 8⟩
  | .idMirror => ⟨[0x38], 0x1000000000, 48, 0x100, 1, 0x0, 256⟩
  | .bfdSess => ⟨[0x38], 0x2000000000, 16384, 0x80, 1, 0x0, 128⟩
  | .tfuCtl => ⟨[0x39], 0x0, 1, 0x0, 1, 0x0, 16⟩
  | .frCtl => ⟨[0x39], 0x1000, 48, 0x40, 1, 0x0, 16⟩
  | .frStatus => ⟨[0x39], 0x1020, 48, 0x40, 1, 0x0, 16⟩
  | .protGrp => ⟨[0x39], 0x10000, 24, 0x40, 1, 0x0, 16⟩
  | .tfuCtr => ⟨[0x39], 0x100000000, 48, 0x100, 13, 0x8, 8⟩
  | .grpSwCtr => ⟨[0x39], 0x100010000, 24, 0x8, 1, 0x0, 8⟩
  | .pageEnt => ⟨[0x39], 0x1000000000, 2, 0x1000000, 7680, 0x4, 4⟩
  | .tti => ⟨[0x39], 0x2000000000, 48, 0x200, 8, 0x40, 64⟩
  | .msGlobal => ⟨[0x3A], 0x0, 1, 0x0, 1, 0x0, 16⟩
  | .msStatus => ⟨[0x3A], 0x20, 1, 0x0, 1, 0x0, 16⟩
  | .msPort => ⟨[0x3A], 0x1000, 48, 0x40, 1, 0x0, 32⟩
  | .mkaStatus => ⟨[0x3A], 0x1020, 48, 0x40, 1, 0x0, 16⟩
  | .msCtr => ⟨[0x3A], 0x100000000, 48, 0x100, 16, 0x8, 8⟩
  | .msGctr => ⟨[0x3A], 0x100010000, 4, 0x8, 1, 0x0, 8⟩
  | .saSlot => ⟨[0x3A], 0x1000000000, 16384, 0x20, 1, 0x0, 32⟩
  | .cakSlot => ⟨[0x3A], 0x1100000000, 192, 0x40, 1, 0x0, 64⟩
  | .bufCtl => ⟨[0x40], 0x0, 1, 0x0, 1, 0x0, 16⟩
  | .bufStatus => ⟨[0x40], 0x20, 1, 0x0, 1, 0x0, 16⟩
  | .arrMap => ⟨[0x40], 0x1000, 48, 0x10, 1, 0x0, 8⟩
  | .bufCtr => ⟨[0x40], 0x100000000, 4, 0x8, 1, 0x0, 8⟩
  | .pktDesc => ⟨[0x40], 0x1000000000, 524288, 0x80, 1, 0x0, 96⟩
  | .shCtl => ⟨[0x41], 0x0, 1, 0x0, 1, 0x0, 16⟩
  | .shStatus => ⟨[0x41], 0x20, 1, 0x0, 1, 0x0, 16⟩
  | .poolCtl => ⟨[0x41], 0x1000, 16, 0x40, 1, 0x0, 16⟩
  | .poolStatus => ⟨[0x41], 0x1020, 16, 0x40, 1, 0x0, 16⟩
  | .egMap => ⟨[0x41], 0x20000, 48, 0x10, 1, 0x0, 8⟩
  | .poolCtr => ⟨[0x41], 0x100000000, 16, 0x100, 5, 0x8, 8⟩
  | .poolGctr => ⟨[0x41], 0x100010000, 6, 0x8, 1, 0x0, 8⟩
  | .peatStatus => ⟨[0x42], 0x0, 1, 0x0, 1, 0x0, 16⟩
  | .spillProf => ⟨[0x42], 0x1000, 32, 0x20, 1, 0x0, 16⟩
  | .peatCtr => ⟨[0x42], 0x100000000, 7, 0x8, 1, 0x0, 8⟩
  | .qSpill => ⟨[0x42], 0x1000000000, 1835008, 0x4, 1, 0x0, 4⟩
  | .voqGlobal => ⟨[0x48], 0x0, 1, 0x0, 1, 0x0, 16⟩
  | .admProf => ⟨[0x48], 0x1000, 64, 0x20, 1, 0x0, 32⟩
  | .pfcThr => ⟨[0x48], 0x4000, 48, 0x40, 1, 0x0, 64⟩
  | .voqGctr => ⟨[0x48], 0x100000000, 4, 0x8, 1, 0x0, 8⟩
  | .vqCtr => ⟨[0x48], 0x110000000, 1572872, 0x20, 4, 0x8, 8⟩
  | .vqCfg => ⟨[0x48], 0x1000000000, 1572872, 0x4, 1, 0x0, 4⟩
  | .vqState => ⟨[0x48], 0x2000000000, 1572872, 0x10, 1, 0x0, 16⟩
  | .classMap => ⟨[0x49], 0x1000, 48, 0x40, 1, 0x0, 32⟩
  | .gateCtl => ⟨[0x49], 0x4000, 48, 0x40, 1, 0x0, 16⟩
  | .egCtr => ⟨[0x49], 0x100000000, 48, 0x100, 17, 0x8, 8⟩
  | .eqCtr => ⟨[0x49], 0x110000000, 262144, 0x20, 4, 0x8, 8⟩
  | .grpCfg => ⟨[0x49], 0x1000000000, 2048, 0x8, 1, 0x0, 8⟩
  | .tenCfg => ⟨[0x49], 0x1100000000, 16384, 0x8, 1, 0x0, 8⟩
  | .subCfg => ⟨[0x49], 0x1200000000, 65536, 0x8, 1, 0x0, 8⟩
  | .eqCfg => ⟨[0x49], 0x1300000000, 262144, 0x8, 1, 0x0, 8⟩
  | .eqState => ⟨[0x49], 0x2000000000, 262144, 0x10, 1, 0x0, 16⟩
  | .gateList => ⟨[0x49], 0x3000000000, 96, 0x1000, 4, 0x100, 256⟩
  | .mtCtr => ⟨[0x4A], 0x110000000, 1048576, 0x40, 6, 0x8, 8⟩
  | .meter => ⟨[0x4A], 0x1000000000, 1048576, 0x20, 1, 0x0, 32⟩
  | .shPort => ⟨[0x4A], 0x2000000000, 48, 0x20, 1, 0x0, 32⟩
  | .shGrp => ⟨[0x4A], 0x2100000000, 2048, 0x20, 1, 0x0, 32⟩
  | .shTen => ⟨[0x4A], 0x2200000000, 16384, 0x20, 1, 0x0, 32⟩
  | .shSub => ⟨[0x4A], 0x2300000000, 65536, 0x20, 1, 0x0, 32⟩
  | .shQueue => ⟨[0x4A], 0x2400000000, 262144, 0x20, 1, 0x0, 32⟩
  | .fabSet => ⟨[0x50], 0x0, 1, 0x0, 1, 0x0, 16⟩
  | .fabStatus => ⟨[0x50], 0x20, 1, 0x0, 1, 0x0, 16⟩
  | .trCtl => ⟨[0x50], 0x40, 1, 0x0, 1, 0x0, 16⟩
  | .flCtl => ⟨[0x50], 0x1000, 64, 0x40, 1, 0x0, 8⟩
  | .flStatus => ⟨[0x50], 0x1020, 64, 0x40, 1, 0x0, 32⟩
  | .portGrant => ⟨[0x50], 0x3000, 48, 0x10, 1, 0x0, 8⟩
  | .flCtr => ⟨[0x50], 0x100000000, 64, 0x100, 8, 0x8, 8⟩
  | .rtCtr => ⟨[0x50], 0x100010000, 4, 0x8, 1, 0x0, 8⟩
  | .trCtr => ⟨[0x50], 0x100020000, 12, 0x8, 1, 0x0, 8⟩
  | .cabMirror => ⟨[0x50], 0x1000000000, 64, 0x100, 1, 0x0, 256⟩
  | .route => ⟨[0x50], 0x2000000000, 4096, 0x20, 1, 0x0, 32⟩
  | .memMask => ⟨[0x50], 0x3000000000, 65536, 0x200, 2, 0x100, 256⟩
  | .lpMask => ⟨[0x50], 0x4000000000, 65536, 0x8, 1, 0x0, 8⟩
  | .rlCtr => ⟨[0x51], 0x100000000, 64, 0x100, 4, 0x8, 8⟩
  | .hbCtl => ⟨hbmBlocks, 0x0, 1, 0x0, 1, 0x0, 16⟩
  | .hbStatus => ⟨hbmBlocks, 0x20, 1, 0x0, 1, 0x0, 16⟩
  | .hbReq => ⟨hbmBlocks, 0x100, 16, 0x10, 1, 0x0, 8⟩
  | .hbChan => ⟨hbmBlocks, 0x1000, 8, 0x20, 1, 0x0, 16⟩
  | .hbRow => ⟨hbmBlocks, 0x2000, 1, 0x0, 1, 0x0, 16⟩
  | .hbPcCtr => ⟨hbmBlocks, 0x100000000, 16, 0x100, 8, 0x8, 8⟩
  | .hbRqCtr => ⟨hbmBlocks, 0x100010000, 16, 0x10, 2, 0x8, 8⟩
  | .hbRaw => ⟨hbmBlocks, 0x1000000000, 100663296, 0x100, 1, 0x0, 256⟩
  | .tmCtl => ⟨[0x60], 0x0, 1, 0x0, 1, 0x0, 16⟩
  | .tmStatus => ⟨[0x60], 0x20, 1, 0x0, 1, 0x0, 32⟩
  | .fqCtl => ⟨[0x60], 0x100, 1, 0x0, 1, 0x0, 16⟩
  | .ptCtl => ⟨[0x60], 0x1000, 48, 0x40, 1, 0x0, 16⟩
  | .ptStatus => ⟨[0x60], 0x1020, 48, 0x40, 1, 0x0, 16⟩
  | .flTime => ⟨[0x60], 0x4000, 64, 0x20, 1, 0x0, 16⟩
  | .tmCtr => ⟨[0x60], 0x100000000, 11, 0x8, 1, 0x0, 8⟩
  | .ptpTmpl => ⟨[0x60], 0x2000000000, 48, 0x80, 1, 0x0, 128⟩
  | .prCtl => ⟨[0x64], 0x0, 1, 0x0, 1, 0x0, 16⟩
  | .prStatus => ⟨[0x64], 0x20, 1, 0x0, 1, 0x0, 16⟩
  | .prCtr => ⟨[0x64], 0x100000000, 10, 0x8, 1, 0x0, 8⟩
  | .fltCtl => ⟨[0x68], 0x0, 1, 0x0, 1, 0x0, 16⟩
  | .fltStatus => ⟨[0x68], 0x20, 1, 0x0, 1, 0x0, 32⟩
  | .grCtl => ⟨[0x68], 0x100, 1, 0x0, 1, 0x0, 16⟩
  | .grStatus => ⟨[0x68], 0x120, 1, 0x0, 1, 0x0, 16⟩
  | .fltCtr => ⟨[0x68], 0x100000000, 9, 0x8, 1, 0x0, 8⟩
  | .ringSlot => ⟨[0x68], 0x1000000000, 4096, 0x40, 1, 0x0, 64⟩
  | .cntStatus => ⟨[0x6C], 0x0, 1, 0x0, 1, 0x0, 16⟩
  | .mirSess => ⟨[0x6C], 0x2000, 16, 0x40, 1, 0x0, 32⟩
  | .colEnt => ⟨[0x6C], 0x10000, 4096, 0x10, 1, 0x0, 8⟩
  | .cntCtr => ⟨[0x6C], 0x100000000, 5, 0x8, 1, 0x0, 8⟩
  | .mirCtr => ⟨[0x6C], 0x100001000, 16, 0x20, 4, 0x8, 8⟩
  | .lostCtr => ⟨[0x6C], 0x100002000, 64, 0x8, 1, 0x0, 8⟩
  | .updCtl => ⟨[0x70], 0x0, 1, 0x0, 1, 0x0, 16⟩
  | .updStatus => ⟨[0x70], 0x20, 1, 0x0, 1, 0x0, 32⟩
  | .dirRec => ⟨[0x70], 0x100, 2, 0x20, 1, 0x0, 32⟩
  | .relKey => ⟨[0x70], 0x200, 2, 0x40, 1, 0x0, 64⟩
  | .updCtr => ⟨[0x70], 0x100000000, 8, 0x8, 1, 0x0, 8⟩
  | .pwrCtl => ⟨[0x74], 0x0, 1, 0x0, 1, 0x0, 16⟩
  | .pwrStatus => ⟨[0x74], 0x20, 1, 0x0, 1, 0x0, 32⟩
  | .pwrCtr => ⟨[0x74], 0x100000000, 4, 0x8, 1, 0x0, 8⟩
  | .perfSel => ⟨allBlocks, 0x200000000, 4, 0x10, 1, 0x0, 8⟩
  | .perfCnt => ⟨allBlocks, 0x200000008, 4, 0x10, 1, 0x0, 8⟩
  | .reaction => ⟨allBlocks, 0x300000000, 16, 0x800, 256, 0x8, 8⟩

/-- bridge status (R23). -/
def fieldsBrgStatus : List FieldDesc :=
  [roF BrgStatus.FD_QD 0,
   roF BrgStatus.QD_FD 0]

/-- identity object (R71). -/
def fieldsIdentity : List FieldDesc :=
  [roF Identity.PART 6432,
   roF Identity.MODREV 176,
   roF Identity.FD_STEP 176,
   roF Identity.QD_STEP 176,
   roF Identity.SERIAL 0]

/-- identity public key (R71). -/
def fieldsIdentKey : List FieldDesc :=
  [roF IdentKey.KEY 0]

/-- operator key slot (R72). -/
def fieldsOpKey : List FieldDesc :=
  [rwF OpKey.DIGEST 0,
   rwR OpKey.STATE 0 0 2]

/-- reset status (R555). -/
def fieldsRstStatus : List FieldDesc :=
  [roF RstStatus.CAUSE 0,
   roF RstStatus.BOOT_MODE 0,
   roF RstStatus.READY 0,
   roF RstStatus.STEP 0,
   roF RstStatus.START_MS 0,
   roF RstStatus.RESETS 0,
   roF RstStatus.RESET_TIME 0]

/-- management port object (R74). -/
def fieldsMgmtPort : List FieldDesc :=
  [roF MgmtPort.MAC 0,
   rwF MgmtPort.VLAN_EN 0,
   rwF MgmtPort.VID 0]

/-- session settings (R75). -/
def fieldsSessSet : List FieldDesc :=
  [rwR SessSet.IDLE_TIMEOUT 60 1 3600,
   rwR SessSet.OPEN_RATE 64 1 64,
   rwF SessSet.PUNT_SESSION 0,
   rwF SessSet.PUNT_EN 0,
   rwR SessSet.PUNT_TRUNC 256 64 10240]

/-- session status (R76). -/
def fieldsSessStatus : List FieldDesc :=
  [roF SessStatus.STATE 0,
   roF SessStatus.GRANTED 0,
   roF SessStatus.SLOT 0,
   roF SessStatus.OUTSTANDING 0,
   roF SessStatus.AUTH_FAILS 0,
   roF SessStatus.H 0,
   roF SessStatus.NEXT_SEQ 0]

/-- cluster control (R116). -/
def fieldsClCtl : List FieldDesc :=
  [rwR ClCtl.PROTECT 0 0 1,
   rwF ClCtl.SRC_SLOT 0,
   scF ClCtl.LOAD_GO,
   rwF ClCtl.FORCE 0,
   scF ClCtl.PATCH_GO,
   rwF ClCtl.ENABLE 1,
   rwR ClCtl.LOAD_LIMIT 96 50 100,
   rwR ClCtl.PASS_LIMIT 20 1 1000,
   rwR ClCtl.RELOAD_WAIT 10 1 3600,
   roF ClCtl.STATE 0,
   roF ClCtl.LAST_ERR 0]

/-- cluster version (R104). -/
def fieldsClVersion : List FieldDesc :=
  [roF ClVersion.IMAGE_ID 0,
   roF ClVersion.VERSION 0,
   roF ClVersion.PATCH_LEVEL 0,
   roF ClVersion.ABI 0,
   roF ClVersion.PROT_ACTIVE 0,
   roF ClVersion.SLOT 0,
   roF ClVersion.DIGEST_TAG 0]

/-- cluster status (R117). -/
def fieldsClStatus : List FieldDesc :=
  [roF ClStatus.UTIL 0,
   roF ClStatus.THREADS_BUSY 0,
   roF ClStatus.DEVICE_LOAD 0,
   roF ClStatus.IN_SERVICE 0,
   roF ClStatus.RELOADS_PENDING 0,
   roF ClStatus.BANK 0,
   roF ClStatus.QUEUED 0]

/-- image slot control (R118). -/
def fieldsImgSlot : List FieldDesc :=
  [roF ImgSlot.SLOT_STATE 0,
   scF ImgSlot.VERIFY,
   scF ImgSlot.ERASE,
   roF ImgSlot.LOCKED 0,
   roF ImgSlot.BAD_OFFSET 0]

/-- patch staging (R115). -/
def fieldsPatchStage : List FieldDesc :=
  [rwF PatchStage.DATA 0]

/-- microword as used by new passes (R115). -/
def fieldsMicroView : List FieldDesc :=
  [roF MicroView.WORD 0]

/-- nanoword as used by new passes (R115). -/
def fieldsNanoView : List FieldDesc :=
  [roF NanoView.WORD 0]

/-- thread context (R115). -/
def fieldsThreadCtx : List FieldDesc :=
  [roF ThreadCtx.DATA 0]

/-- image slot data (R115). -/
def fieldsImgData : List FieldDesc :=
  [rwF ImgData.DATA 0]

/-- LPM status (R154). -/
def fieldsLpmStatus : List FieldDesc :=
  [roF LpmStatus.EPOCH 0,
   roF LpmStatus.USED 0,
   roF LpmStatus.PINNED 0,
   roF LpmStatus.HIT_PM 0]

/-- prefix table descriptor (R155). -/
def fieldsPtDesc : List FieldDesc :=
  [rwR PtDesc.STATE 0 0 1,
   rwF PtDesc.FAMILY 0,
   roF PtDesc.PENDING 0,
   roF PtDesc.COUNT 0]

/-- crown node word (R153). -/
def fieldsCrownWord : List FieldDesc :=
  [roF CrownWord.WORD 0]

/-- leaf, HF0 copy (R153). -/
def fieldsLeafLine : List FieldDesc :=
  [roF LeafLine.LINE 0]

/-- EXM table descriptor (R153). -/
def fieldsExmDesc : List FieldDesc :=
  [roF ExmDesc.COUNT 0]

/-- next-hop entry, committed (R153). -/
def fieldsNhEntry : List FieldDesc :=
  [roF NhEntry.ENTRY 0]

/-- ECMP group (R153). -/
def fieldsEcmpGroup : List FieldDesc :=
  [roF EcmpGroup.VALID 0,
   roF EcmpGroup.N 0,
   roF EcmpGroup.FIRST 0]

/-- ECMP member slot (R153). -/
def fieldsEcmpMember : List FieldDesc :=
  [roF EcmpMember.NH 0]

/-- label entry, committed (R153). -/
def fieldsLabelEntry : List FieldDesc :=
  [roF LabelEntry.ENTRY 0]

/-- PAT control (R175). -/
def fieldsPatCtl : List FieldDesc :=
  [scF PatCtl.SWAP,
   scF PatCtl.ERASE,
   rwR PatCtl.SWEEP_MS 100 10 1000]

/-- PAT status (R175). -/
def fieldsPatStatus : List FieldDesc :=
  [roF PatStatus.BANK0 0,
   roF PatStatus.BANK1 0,
   roF PatStatus.SWEEP_AGE 65535,
   roF PatStatus.IMAGE_ID 0]

/-- rule set descriptor of the ACTIVE bank (R176). -/
def fieldsRuleSet : List FieldDesc :=
  [roF RuleSet.VALID 0,
   roF RuleSet.DAMAGED 0,
   roF RuleSet.P 0,
   roF RuleSet.A 0,
   roF RuleSet.FIRST_LINE 0,
   roF RuleSet.LINE_COUNT 0,
   roF RuleSet.RULE_COUNT 0]

/-- image window of a bank (R174). -/
def fieldsPatWin : List FieldDesc :=
  [rwF PatWin.DATA 0]

/-- rule entry of the ACTIVE bank (R176). -/
def fieldsRuleEntry : List FieldDesc :=
  [roF RuleEntry.PRIORITY 0,
   roF RuleEntry.ACTION 0,
   roF RuleEntry.SET 0,
   roF RuleEntry.LINK 0]

/-- LMAC global (R201). -/
def fieldsLmacGlobal : List FieldDesc :=
  [rwF LmacGlobal.SYS_PRIO 32768,
   rwF LmacGlobal.SYS_ID 0,
   rwF LmacGlobal.TWB_FAST 0]

/-- port control (R202). -/
def fieldsLpCtl : List FieldDesc :=
  [rwR LpCtl.MODE 0 0 6,
   rwF LpCtl.ADMIN_UP 0,
   rwF LpCtl.CT_EN 1,
   rwF LpCtl.BFD_DIVERT 1,
   rwF LpCtl.MOD_MGMT 1,
   rwR LpCtl.MAX_FRAME 10240 64 10240,
   rwF LpCtl.PFC_RX 0,
   rwF LpCtl.PFC_TX 0,
   rwR LpCtl.UP_HOLD 100 0 10000,
   rwR LpCtl.DOWN_HOLD 0 0 1000,
   rwF LpCtl.FLAP_MAX 5,
   rwR LpCtl.FLAP_HOLD 30 1 1000,
   rwF LpCtl.MOD_BUS 0,
   rwF LpCtl.MOD_CH 0,
   rwF LpCtl.MOD_LANE 0,
   rwF LpCtl.ID_POLICY 0]

/-- port status (R202). -/
def fieldsLpStatus : List FieldDesc :=
  [roF LpStatus.LINK 0,
   roF LpStatus.LOCAL_FAULT 0,
   roF LpStatus.REMOTE_FAULT 0,
   roF LpStatus.ID_STATE 0,
   roF LpStatus.LANE_LOCK 0,
   roF LpStatus.SELECTED 0,
   roF LpStatus.COLLECTING 0,
   roF LpStatus.DISTRIBUTING 0,
   roF LpStatus.AGG 31,
   roF LpStatus.FLAPS 0,
   roF LpStatus.FEC_SYM 0]

/-- lane (R203). -/
def fieldsLaneCtl : List FieldDesc :=
  [rwF LaneCtl.LOGICAL 0,
   rwF LaneCtl.TX_INV 0,
   rwF LaneCtl.RX_INV 0,
   rwR LaneCtl.EQ_MODE 0 0 1,
   rwF LaneCtl.TX_PRE 0,
   rwF LaneCtl.TX_MAIN 40,
   rwF LaneCtl.TX_POST 0]

/-- module access control (R203). -/
def fieldsModCtl : List FieldDesc :=
  [scF ModCtl.GO,
   roF ModCtl.BUSY 0,
   rwF ModCtl.WRITE 0,
   rwF ModCtl.CH 0,
   rwF ModCtl.BANK 0,
   rwF ModCtl.PAGE 0,
   rwF ModCtl.OFFSET 0,
   rwR ModCtl.LEN 1 1 128,
   roF ModCtl.RESULT 0]

/-- module access data (R201). -/
def fieldsModData : List FieldDesc :=
  [rwF ModData.DATA 0]

/-- aggregator control (R204). -/
def fieldsAggCtl : List FieldDesc :=
  [rwF AggCtl.EN 0,
   rwF AggCtl.ACTIVE 1,
   rwF AggCtl.FAST 1,
   rwR AggCtl.MIN_LINKS 1 1 48,
   rwF AggCtl.KEY 0,
   rwF AggCtl.MEMBERS 0]

/-- identity mirror (R201). -/
def fieldsIdMirror : List FieldDesc :=
  [roF IdMirror.DATA 0]

/-- BFD session: control, status, template (R205). -/
def fieldsBfdSess : List FieldDesc :=
  [rwR BfdSess.ADMIN 0 0 1,
   rwR BfdSess.TYPE 0 0 2,
   rwR BfdSess.PORT 0 0 47,
   rwR BfdSess.DETECT_MULT 3 1 255,
   rwR BfdSess.DMTI 1000000 3300 10000000,
   rwR BfdSess.RMRI 1000000 3300 10000000,
   rwR BfdSess.MIN_TTL 255 1 255,
   rwR BfdSess.TMPL_LEN 42 42 96,
   rwF BfdSess.MY_DISC 0,
   roF BfdSess.STATE 1,
   roF BfdSess.DIAG 0,
   roF BfdSess.REMOTE_DISC 0,
   rwF BfdSess.TEMPLATE 0]

/-- interchange control (R231). -/
def fieldsTfuCtl : List FieldDesc :=
  [scF TfuCtl.SWAP,
   scF TfuCtl.COPY,
   roF TfuCtl.ACTIVE_PAGE 0,
   roF TfuCtl.SWAP_STATE 0,
   roF TfuCtl.FAIL_ADDR 0]

/-- framing control (R232). -/
def fieldsFrCtl : List FieldDesc :=
  [rwF FrCtl.SM_TIM 0,
   rwF FrCtl.PM_TIM 0,
   rwF FrCtl.PT_TIM 0,
   rwF FrCtl.TIM_ACT 0,
   rwF FrCtl.MSI_CHK 1,
   rwR FrCtl.DELTA 1 1 7,
   rwF FrCtl.CHEC_CORR 1,
   rwF FrCtl.PFCS_TX 0,
   rwF FrCtl.FORCE_TX 0,
   rwR FrCtl.DEG_M 7 2 10,
   rwR FrCtl.DEG_THR 10000 1 1000000]

/-- framing status (R232). -/
def fieldsFrStatus : List FieldDesc :=
  [roF FrStatus.LOS 0,
   roF FrStatus.LOF 0,
   roF FrStatus.LOM 0,
   roF FrStatus.LOL 0,
   roF FrStatus.SM_TIM 0,
   roF FrStatus.SM_BDI 0,
   roF FrStatus.SM_DEG 0,
   roF FrStatus.SM_IAE 0,
   roF FrStatus.PM_AIS 0,
   roF FrStatus.PM_OCI 0,
   roF FrStatus.PM_LCK 0,
   roF FrStatus.PM_TIM 0,
   roF FrStatus.PM_BDI 0,
   roF FrStatus.PM_DEG 0,
   roF FrStatus.PLM 0,
   roF FrStatus.MSIM 0] ++
  [roF FrStatus.PT_LOFLOM 0,
   roF FrStatus.PT_AIS 0,
   roF FrStatus.PT_OCI 0,
   roF FrStatus.PT_LCK 0,
   roF FrStatus.PT_PLM 0,
   roF FrStatus.PT_TIM 0,
   roF FrStatus.PT_BDI 0,
   roF FrStatus.PT_DEG 0,
   roF FrStatus.LFD 0,
   roF FrStatus.CSF 0,
   roF FrStatus.GFP_STATE 0,
   roF FrStatus.LOS_LANES 0,
   roF FrStatus.LOF_INST 0,
   roF FrStatus.PKT_SLOTS 0]

/-- protection group (R233). -/
def fieldsProtGrp : List FieldDesc :=
  [rwF ProtGrp.EN 0,
   rwR ProtGrp.WORK 0 0 47,
   rwR ProtGrp.PROT 0 0 47,
   rwF ProtGrp.REVERT 1,
   rwR ProtGrp.CMD 0 0 2,
   rwR ProtGrp.HOLD_OFF 0 0 100,
   rwR ProtGrp.WTR 300 0 720,
   rwF ProtGrp.SD_EN 1,
   roF ProtGrp.SELECTED 0,
   roF ProtGrp.REQ 0]

/-- connection page entry (R219). -/
def fieldsPageEnt : List FieldDesc :=
  [rwR PageEnt.TYPE 0 0 2,
   rwR PageEnt.SRC_PORT 0 0 47,
   rwR PageEnt.SRC_TS 0 0 159,
   rwF PageEnt.TRIB 0]

/-- TTI objects (R230). -/
def fieldsTti : List FieldDesc :=
  [rwF Tti.TTI 0]

/-- MSEC global (R265). -/
def fieldsMsGlobal : List FieldDesc :=
  [rwR MsGlobal.DUMMY_PCT 25 0 25,
   rwF MsGlobal.SHUFFLE 1]

/-- MSEC status (R265). -/
def fieldsMsStatus : List FieldDesc :=
  [roF MsStatus.DRBG_STATE 0,
   roF MsStatus.SLOTS_VALID 0,
   roF MsStatus.CAKS_VALID 0,
   roF MsStatus.TX_LOAD 0,
   roF MsStatus.RX_LOAD 0,
   roF MsStatus.CORES 64]

/-- port MACsec control (R266). -/
def fieldsMsPort : List FieldDesc :=
  [rwF MsPort.EN 0,
   rwF MsPort.PROTECT 1,
   rwF MsPort.CONF 1,
   rwR MsPort.CONF_OFFSET 0 0 2,
   rwR MsPort.VALIDATE 2 0 2,
   rwF MsPort.REPLAY_PROTECT 1,
   rwF MsPort.INCLUDE_SCI 1,
   rwF MsPort.ES 0,
   rwF MsPort.ENC_AN 0,
   rwF MsPort.MKA_EN 0,
   rwR MsPort.MKA_SUITE 2 1 2,
   rwF MsPort.MKA_PRIO 16,
   rwF MsPort.REPLAY_WINDOW 0,
   rwF MsPort.TX_SCI 0,
   rwF MsPort.PEER_SCI 0]

/-- MKA status (R267). -/
def fieldsMkaStatus : List FieldDesc :=
  [roF MkaStatus.CA 0,
   roF MkaStatus.KEY_SERVER 0,
   roF MkaStatus.PRINCIPAL_VALID 0,
   roF MkaStatus.PRINCIPAL 0,
   roF MkaStatus.TX_AN 0,
   roF MkaStatus.KEY_NUMBER 0,
   roF MkaStatus.PEER 0]

/-- SA key slot status (R267). -/
def fieldsSaSlot : List FieldDesc :=
  [roF SaSlot.STATE 0,
   roF SaSlot.GEN 0,
   roF SaSlot.SUITE 0,
   roF SaSlot.DIR 0,
   roF SaSlot.PORT 0,
   roF SaSlot.AN 0,
   roF SaSlot.MKA 0,
   roF SaSlot.THRESH 0,
   roF SaSlot.SCI 0,
   roF SaSlot.PN 0,
   roF SaSlot.FRAMES 0]

/-- CAK slot status (R267). -/
def fieldsCakSlot : List FieldDesc :=
  [roF CakSlot.CKN 0,
   roF CakSlot.CKN_LEN 0,
   roF CakSlot.STATE 0]

/-- BUF control (R273). -/
def fieldsBufCtl : List FieldDesc :=
  [rwR BufCtl.STAGE_SIZE 65536 16384 131072]

/-- BUF status (R273). -/
def fieldsBufStatus : List FieldDesc :=
  [roF BufStatus.FREE 458752,
   roF BufStatus.STAGED 0,
   roF BufStatus.DESC_USED 0]

/-- arrival pool map (R273). -/
def fieldsArrMap : List FieldDesc :=
  [rwF ArrMap.UNTAGGED 0,
   rwF ArrMap.PCP_MAP 0]

/-- descriptor (R273). -/
def fieldsPktDesc : List FieldDesc :=
  [roF PktDesc.METADATA 0,
   roF PktDesc.ARRIVAL 0,
   roF PktDesc.LENGTH 0,
   roF PktDesc.TC 0,
   roF PktDesc.POOL 0,
   roF PktDesc.NODE 0,
   roF PktDesc.PORT 0,
   roF PktDesc.LEASES 0,
   roF PktDesc.FREE_PENDING 0,
   roF PktDesc.BAD 0,
   roF PktDesc.OWNER 0,
   roF PktDesc.IN_USE 0,
   roF PktDesc.HEAD 0,
   roF PktDesc.TAIL 0,
   roF PktDesc.MARK 0]

/-- Sheepdog control (R290). -/
def fieldsShCtl : List FieldDesc :=
  [rwF ShCtl.EN 1,
   rwF ShCtl.RECLAIM 1,
   rwR ShCtl.PERIOD 1000 100 10000]

/-- Sheepdog status (R290). -/
def fieldsShStatus : List FieldDesc :=
  [roF ShStatus.ROUND 0,
   roF ShStatus.LAST_MS 0,
   roF ShStatus.SUSPECTS 0,
   roF ShStatus.LAST_LEAKS 0]

/-- pool control (R290). -/
def fieldsPoolCtl : List FieldDesc :=
  [rwR PoolCtl.RESERVED 4096 0 524288,
   rwR PoolCtl.LIMIT 262144 0 524288,
   rwR PoolCtl.PAGE_LIMIT 5898240 0 5898240]

/-- pool status (R290). -/
def fieldsPoolStatus : List FieldDesc :=
  [roF PoolStatus.OCC 0,
   rcF PoolStatus.PEAK,
   roF PoolStatus.PAGES 0,
   roF PoolStatus.CACHE 4096]

/-- egress pool map (R290). -/
def fieldsEgMap : List FieldDesc :=
  [rwF EgMap.TC_MAP 0]

/-- PEAT status (R303). -/
def fieldsPeatStatus : List FieldDesc :=
  [roF PeatStatus.READY 0,
   roF PeatStatus.PAGES_FREE 0,
   roF PeatStatus.WR_LOAD 0,
   roF PeatStatus.RD_LOAD 0,
   roF PeatStatus.SPILLED 0]

/-- spill profile (R303). -/
def fieldsSpillProf : List FieldDesc :=
  [rwF SpillProf.SPILL_ON 8192,
   rwF SpillProf.HEAD_KEEP 4096,
   rwF SpillProf.RETURN_AT 2048,
   rwR SpillProf.FLUSH 100 1 1000]

/-- queue spill object (R303). -/
def fieldsQSpill : List FieldDesc :=
  [rwF QSpill.PROFILE 1,
   roF QSpill.STATE 0,
   roF QSpill.PAGES 0]

/-- VOQ global (R337). -/
def fieldsVoqGlobal : List FieldDesc :=
  [rwF VoqGlobal.LOSSLESS 0,
   rwF VoqGlobal.QUANTUM 0]

/-- admission profile (R337). -/
def fieldsAdmProf : List FieldDesc :=
  [rwR AdmProf.LIMIT 65536 1 353894400,
   rwF AdmProf.WEIGHT 9,
   rwF AdmProf.DP0_EN 0,
   rwF AdmProf.DP0_MAXP 0,
   rwF AdmProf.DP0_MIN 0,
   rwF AdmProf.DP0_MAX 0,
   rwF AdmProf.DP1_EN 0,
   rwF AdmProf.DP1_MAXP 0,
   rwF AdmProf.DP1_MIN 0,
   rwF AdmProf.DP1_MAX 0,
   rwF AdmProf.DP2_EN 0,
   rwF AdmProf.DP2_MAXP 0,
   rwF AdmProf.DP2_MIN 0,
   rwF AdmProf.DP2_MAX 0]

/-- PFC thresholds (R337). -/
def fieldsPfcThr : List FieldDesc :=
  [rwF PfcThr.XOFF0 16384,
   rwF PfcThr.XON0 8192,
   rwF PfcThr.XOFF1 16384,
   rwF PfcThr.XON1 8192,
   rwF PfcThr.XOFF2 16384,
   rwF PfcThr.XON2 8192,
   rwF PfcThr.XOFF3 16384,
   rwF PfcThr.XON3 8192,
   rwF PfcThr.XOFF4 16384,
   rwF PfcThr.XON4 8192,
   rwF PfcThr.XOFF5 16384,
   rwF PfcThr.XON5 8192,
   rwF PfcThr.XOFF6 16384,
   rwF PfcThr.XON6 8192,
   rwF PfcThr.XOFF7 16384,
   rwF PfcThr.XON7 8192]

/-- VOQ queue config (R336). -/
def fieldsVqCfg : List FieldDesc :=
  [rwF VqCfg.PROFILE 0]

/-- VOQ queue state (R337). -/
def fieldsVqState : List FieldDesc :=
  [roF VqState.DEPTH 0,
   roF VqState.AVG 0,
   roF VqState.SOJOURN 0,
   roF VqState.SFLAG 0,
   roF VqState.SDEPTH 0]

/-- class map of a port (R338). -/
def fieldsClassMap : List FieldDesc :=
  [rwF ClassMap.BASE0 0,
   rwR ClassMap.COUNT_LOG2_0 0 0 12,
   roF ClassMap.PENDING0 0,
   rwF ClassMap.BASE1 0,
   rwR ClassMap.COUNT_LOG2_1 0 0 12,
   roF ClassMap.PENDING1 0,
   rwF ClassMap.BASE2 0,
   rwR ClassMap.COUNT_LOG2_2 0 0 12,
   roF ClassMap.PENDING2 0,
   rwF ClassMap.BASE3 0,
   rwR ClassMap.COUNT_LOG2_3 0 0 12,
   roF ClassMap.PENDING3 0,
   rwF ClassMap.BASE4 0,
   rwR ClassMap.COUNT_LOG2_4 0 0 12,
   roF ClassMap.PENDING4 0,
   rwF ClassMap.BASE5 0] ++
  [rwR ClassMap.COUNT_LOG2_5 0 0 12,
   roF ClassMap.PENDING5 0,
   rwF ClassMap.BASE6 0,
   rwR ClassMap.COUNT_LOG2_6 0 0 12,
   roF ClassMap.PENDING6 0,
   rwF ClassMap.BASE7 0,
   rwR ClassMap.COUNT_LOG2_7 0 0 12,
   roF ClassMap.PENDING7 0]

/-- gate control (R338). -/
def fieldsGateCtl : List FieldDesc :=
  [scF GateCtl.GO,
   rwF GateCtl.EN 0,
   roF GateCtl.OPER 0,
   roF GateCtl.IN_FORCE 0,
   rwF GateCtl.SVC_TC 7,
   roF GateCtl.BAD 0,
   rwR GateCtl.COUNT 1 1 256,
   rwF GateCtl.BASE_TIME 0]

/-- group config (R338). -/
def fieldsGrpCfg : List FieldDesc :=
  [rwF GrpCfg.PARENT 0,
   rwF GrpCfg.BAND 0,
   rwR GrpCfg.WEIGHT 1 1 4095,
   roF GrpCfg.ACTIVE 0]

/-- tenant config (R338). -/
def fieldsTenCfg : List FieldDesc :=
  [rwF TenCfg.PARENT 0,
   rwF TenCfg.BAND 0,
   rwR TenCfg.WEIGHT 1 1 4095,
   roF TenCfg.ACTIVE 0]

/-- subtenant config (R338). -/
def fieldsSubCfg : List FieldDesc :=
  [rwF SubCfg.PARENT 0,
   rwF SubCfg.BAND 0,
   rwR SubCfg.WEIGHT 1 1 4095,
   roF SubCfg.ACTIVE 0]

/-- egress queue config (R338). -/
def fieldsEqCfg : List FieldDesc :=
  [rwF EqCfg.PARENT 0,
   rwF EqCfg.BAND 0,
   rwR EqCfg.WEIGHT 1 1 4095,
   roF EqCfg.ACTIVE 0,
   rwF EqCfg.PROFILE 0]

/-- egress queue state (R337). -/
def fieldsEqState : List FieldDesc :=
  [roF EqState.DEPTH 0,
   roF EqState.AVG 0,
   roF EqState.SOJOURN 0,
   roF EqState.SFLAG 0,
   roF EqState.SDEPTH 0]

/-- gate list entries (R338). -/
def fieldsGateList : List FieldDesc :=
  [rwF GateList.GATES0 255,
   rwF GateList.DURATION0 0,
   rwF GateList.GATES1 255,
   rwF GateList.DURATION1 0,
   rwF GateList.GATES2 255,
   rwF GateList.DURATION2 0,
   rwF GateList.GATES3 255,
   rwF GateList.DURATION3 0,
   rwF GateList.GATES4 255,
   rwF GateList.DURATION4 0,
   rwF GateList.GATES5 255,
   rwF GateList.DURATION5 0,
   rwF GateList.GATES6 255,
   rwF GateList.DURATION6 0,
   rwF GateList.GATES7 255,
   rwF GateList.DURATION7 0] ++
  [rwF GateList.GATES8 255,
   rwF GateList.DURATION8 0,
   rwF GateList.GATES9 255,
   rwF GateList.DURATION9 0,
   rwF GateList.GATES10 255,
   rwF GateList.DURATION10 0,
   rwF GateList.GATES11 255,
   rwF GateList.DURATION11 0,
   rwF GateList.GATES12 255,
   rwF GateList.DURATION12 0,
   rwF GateList.GATES13 255,
   rwF GateList.DURATION13 0,
   rwF GateList.GATES14 255,
   rwF GateList.DURATION14 0,
   rwF GateList.GATES15 255,
   rwF GateList.DURATION15 0] ++
  [rwF GateList.GATES16 255,
   rwF GateList.DURATION16 0,
   rwF GateList.GATES17 255,
   rwF GateList.DURATION17 0,
   rwF GateList.GATES18 255,
   rwF GateList.DURATION18 0,
   rwF GateList.GATES19 255,
   rwF GateList.DURATION19 0,
   rwF GateList.GATES20 255,
   rwF GateList.DURATION20 0,
   rwF GateList.GATES21 255,
   rwF GateList.DURATION21 0,
   rwF GateList.GATES22 255,
   rwF GateList.DURATION22 0,
   rwF GateList.GATES23 255,
   rwF GateList.DURATION23 0] ++
  [rwF GateList.GATES24 255,
   rwF GateList.DURATION24 0,
   rwF GateList.GATES25 255,
   rwF GateList.DURATION25 0,
   rwF GateList.GATES26 255,
   rwF GateList.DURATION26 0,
   rwF GateList.GATES27 255,
   rwF GateList.DURATION27 0,
   rwF GateList.GATES28 255,
   rwF GateList.DURATION28 0,
   rwF GateList.GATES29 255,
   rwF GateList.DURATION29 0,
   rwF GateList.GATES30 255,
   rwF GateList.DURATION30 0,
   rwF GateList.GATES31 255,
   rwF GateList.DURATION31 0] ++
  [rwF GateList.GATES32 255,
   rwF GateList.DURATION32 0,
   rwF GateList.GATES33 255,
   rwF GateList.DURATION33 0,
   rwF GateList.GATES34 255,
   rwF GateList.DURATION34 0,
   rwF GateList.GATES35 255,
   rwF GateList.DURATION35 0,
   rwF GateList.GATES36 255,
   rwF GateList.DURATION36 0,
   rwF GateList.GATES37 255,
   rwF GateList.DURATION37 0,
   rwF GateList.GATES38 255,
   rwF GateList.DURATION38 0,
   rwF GateList.GATES39 255,
   rwF GateList.DURATION39 0] ++
  [rwF GateList.GATES40 255,
   rwF GateList.DURATION40 0,
   rwF GateList.GATES41 255,
   rwF GateList.DURATION41 0,
   rwF GateList.GATES42 255,
   rwF GateList.DURATION42 0,
   rwF GateList.GATES43 255,
   rwF GateList.DURATION43 0,
   rwF GateList.GATES44 255,
   rwF GateList.DURATION44 0,
   rwF GateList.GATES45 255,
   rwF GateList.DURATION45 0,
   rwF GateList.GATES46 255,
   rwF GateList.DURATION46 0,
   rwF GateList.GATES47 255,
   rwF GateList.DURATION47 0] ++
  [rwF GateList.GATES48 255,
   rwF GateList.DURATION48 0,
   rwF GateList.GATES49 255,
   rwF GateList.DURATION49 0,
   rwF GateList.GATES50 255,
   rwF GateList.DURATION50 0,
   rwF GateList.GATES51 255,
   rwF GateList.DURATION51 0,
   rwF GateList.GATES52 255,
   rwF GateList.DURATION52 0,
   rwF GateList.GATES53 255,
   rwF GateList.DURATION53 0,
   rwF GateList.GATES54 255,
   rwF GateList.DURATION54 0,
   rwF GateList.GATES55 255,
   rwF GateList.DURATION55 0] ++
  [rwF GateList.GATES56 255,
   rwF GateList.DURATION56 0,
   rwF GateList.GATES57 255,
   rwF GateList.DURATION57 0,
   rwF GateList.GATES58 255,
   rwF GateList.DURATION58 0,
   rwF GateList.GATES59 255,
   rwF GateList.DURATION59 0,
   rwF GateList.GATES60 255,
   rwF GateList.DURATION60 0,
   rwF GateList.GATES61 255,
   rwF GateList.DURATION61 0,
   rwF GateList.GATES62 255,
   rwF GateList.DURATION62 0,
   rwF GateList.GATES63 255,
   rwF GateList.DURATION63 0]

/-- meter (R339). -/
def fieldsMeter : List FieldDesc :=
  [rwR Meter.CIR 0 0 2560000000,
   rwR Meter.PIR 0 0 2560000000,
   rwR Meter.CBS 16384 64 16777215,
   rwR Meter.PBS 16384 64 16777215,
   rwF Meter.EN 0,
   rwF Meter.COLOR_AWARE 0,
   rwF Meter.LOOSE 0,
   rwF Meter.RED_ACT 0,
   scF Meter.CLEAR,
   roF Meter.TC_LEVEL 0,
   roF Meter.TP_LEVEL 0]

/-- shaper, level 0 (R339). -/
def fieldsShPort : List FieldDesc :=
  [rwR ShPort.CIR 0 0 2560000000,
   rwR ShPort.PIR 0 0 2560000000,
   rwR ShPort.CBS 16384 64 16777215,
   rwR ShPort.PBS 16384 64 16777215,
   rwF ShPort.COMMIT_EN 0,
   rwF ShPort.PEAK_EN 0,
   scF ShPort.CLEAR,
   roF ShPort.TC_LEVEL 0,
   roF ShPort.TP_LEVEL 0]

/-- shaper, level 1 (R339). -/
def fieldsShGrp : List FieldDesc :=
  [rwR ShGrp.CIR 0 0 2560000000,
   rwR ShGrp.PIR 0 0 2560000000,
   rwR ShGrp.CBS 16384 64 16777215,
   rwR ShGrp.PBS 16384 64 16777215,
   rwF ShGrp.COMMIT_EN 0,
   rwF ShGrp.PEAK_EN 0,
   scF ShGrp.CLEAR,
   roF ShGrp.TC_LEVEL 0,
   roF ShGrp.TP_LEVEL 0]

/-- shaper, level 2 (R339). -/
def fieldsShTen : List FieldDesc :=
  [rwR ShTen.CIR 0 0 2560000000,
   rwR ShTen.PIR 0 0 2560000000,
   rwR ShTen.CBS 16384 64 16777215,
   rwR ShTen.PBS 16384 64 16777215,
   rwF ShTen.COMMIT_EN 0,
   rwF ShTen.PEAK_EN 0,
   scF ShTen.CLEAR,
   roF ShTen.TC_LEVEL 0,
   roF ShTen.TP_LEVEL 0]

/-- shaper, level 3 (R339). -/
def fieldsShSub : List FieldDesc :=
  [rwR ShSub.CIR 0 0 2560000000,
   rwR ShSub.PIR 0 0 2560000000,
   rwR ShSub.CBS 16384 64 16777215,
   rwR ShSub.PBS 16384 64 16777215,
   rwF ShSub.COMMIT_EN 0,
   rwF ShSub.PEAK_EN 0,
   scF ShSub.CLEAR,
   roF ShSub.TC_LEVEL 0,
   roF ShSub.TP_LEVEL 0]

/-- shaper, level 4 (R339). -/
def fieldsShQueue : List FieldDesc :=
  [rwR ShQueue.CIR 0 0 2560000000,
   rwR ShQueue.PIR 0 0 2560000000,
   rwR ShQueue.CBS 16384 64 16777215,
   rwR ShQueue.PBS 16384 64 16777215,
   rwF ShQueue.COMMIT_EN 0,
   rwF ShQueue.PEAK_EN 0,
   scF ShQueue.CLEAR,
   roF ShQueue.TC_LEVEL 0,
   roF ShQueue.TP_LEVEL 0]

/-- fabric settings (R364). -/
def fieldsFabSet : List FieldDesc :=
  [rwF FabSet.CLASS 0,
   rwF FabSet.SIZE_X 0,
   rwF FabSet.SIZE_Y 0,
   rwF FabSet.SIZE_Z 0,
   rwF FabSet.DBL 0,
   rwF FabSet.ADDR 0,
   rwF FabSet.ADDR_VALID 0,
   rwF FabSet.CABLE_CHECK 1,
   rwF FabSet.ADAPT 1,
   rwF FabSet.NM_BIAS 8,
   rwR FabSet.QUAR_HOLD 10 1 1000,
   rwR FabSet.UNREACH_FLUSH 10 1 255,
   scF FabSet.RESTART]

/-- fabric status (R364). -/
def fieldsFabStatus : List FieldDesc :=
  [roF FabStatus.SETTLED 0,
   roF FabStatus.PLAN_LINKS 0,
   roF FabStatus.LINKS_UP 0,
   roF FabStatus.LINKS_QUAR 0,
   roF FabStatus.REACHABLE 1,
   roF FabStatus.PLAN_HASH 0]

/-- transport control (R393). -/
def fieldsTrCtl : List FieldDesc :=
  [rwR TrCtl.GRANT_WIN 2048 64 65535,
   rwR TrCtl.REORDER_TMO 100 10 10000,
   rwR TrCtl.COPY_TMO 100 10 10000,
   rwR TrCtl.CREDIT_KEEP 50 1 255,
   rwR TrCtl.MC_SYNC 10 1 255,
   rwF TrCtl.DUP_EN 1,
   rwF TrCtl.MC_POOL 0]

/-- fabric link control (R365). -/
def fieldsFlCtl : List FieldDesc :=
  [rwF FlCtl.ADMIN_UP 1,
   rwF FlCtl.ADMIN_QUAR 0,
   rwR FlCtl.EQ_MODE 0 0 1,
   rwF FlCtl.TX_PRE 0,
   rwF FlCtl.TX_MAIN 40,
   rwF FlCtl.TX_POST 0,
   rwF FlCtl.TX_INV 0,
   rwF FlCtl.RX_INV 0]

/-- fabric link status (R365). -/
def fieldsFlStatus : List FieldDesc :=
  [roF FlStatus.STATE 1,
   roF FlStatus.CAUSE 0,
   roF FlStatus.PEER_ADDR 0,
   roF FlStatus.PEER_LINK 0,
   roF FlStatus.SAMPLED 0,
   roF FlStatus.ID_STATE 0,
   roF FlStatus.FLAPS 0,
   roF FlStatus.PEER_SERIAL 0,
   roF FlStatus.CONG 0]

/-- port grant (R393). -/
def fieldsPortGrant : List FieldDesc :=
  [rwR PortGrant.PORT_GRANT 8192 256 65535,
   roF PortGrant.OUTSTANDING 0]

/-- cable identity mirror (R363). -/
def fieldsCabMirror : List FieldDesc :=
  [roF CabMirror.DATA 0]

/-- route entry (R366). -/
def fieldsRoute : List FieldDesc :=
  [roF Route.MIN_MASK 0,
   roF Route.NM_MASK 0,
   roF Route.DIST 7,
   roF Route.DUP 0,
   roF Route.SERIAL 0]

/-- member mask of a group, two halves (R392). -/
def fieldsMemMask : List FieldDesc :=
  [rwF MemMask.MASK 0]

/-- local port mask of a group (R392). -/
def fieldsLpMask : List FieldDesc :=
  [rwF LpMask.MASK 0]

/-- HBM controller control (R411). -/
def fieldsHbCtl : List FieldDesc :=
  [rwR HbCtl.AGE_C1 20 1 255,
   rwR HbCtl.AGE_C2 40 1 255,
   rwR HbCtl.AGE_C3 80 1 255,
   rwR HbCtl.AGE_SHARE 25 5 50,
   rwR HbCtl.OPEN_MAX 200 20 1000,
   rwR HbCtl.RD_THRESH 8192 1024 65535,
   rwR HbCtl.THROTTLE_NS 500 100 4000,
   rwR HbCtl.SCRUB_HOURS 4 1 168,
   rwF HbCtl.SCRUB_EN 1,
   rwF HbCtl.AUTO_RETRAIN 1,
   rwR HbCtl.CE_RETRAIN 1000 1 65535,
   rwR HbCtl.TEMP_MAX 100 85 105,
   scF HbCtl.RETRAIN]

/-- HBM controller status (R411). -/
def fieldsHbStatus : List FieldDesc :=
  [roF HbStatus.STATE 0,
   roF HbStatus.TEMP 0,
   roF HbStatus.HOT 0,
   roF HbStatus.QUEUED 0,
   roF HbStatus.LANES_REPAIRED 0,
   roF HbStatus.RETRAINING 0,
   roF HbStatus.SCRUB_AGE 65535]

/-- HBM requester (R412). -/
def fieldsHbReq : List FieldDesc :=
  [rwF HbReq.CLASS 0,
   rwF HbReq.HINT 0,
   roF HbReq.PRESENT 0,
   roF HbReq.THROTTLED 0,
   roF HbReq.QUEUED 0]

/-- HBM channel status (R412). -/
def fieldsHbChan : List FieldDesc :=
  [roF HbChan.TRAIN 0,
   roF HbChan.TRAIN_TEMP 0,
   roF HbChan.REPAIRS 0,
   roF HbChan.RETRAINS 0]

/-- row-disturbance status (R412). -/
def fieldsHbRow : List FieldDesc :=
  [roF HbRow.ROW 0,
   roF HbRow.REQ 0,
   roF HbRow.HOT_ROWS 0]

/-- raw window (R396). -/
def fieldsHbRaw : List FieldDesc :=
  [roF HbRaw.DATA 0]

/-- time control (R446). -/
def fieldsTmCtl : List FieldDesc :=
  [rwR TmCtl.PROFILE 0 0 1,
   rwF TmCtl.DOMAIN 24,
   rwF TmCtl.FT_PRIO 128,
   rwF TmCtl.PRIORITY2 128,
   rwR TmCtl.LOCAL_PRIO 128 1 255,
   rwR TmCtl.LOCK_NS 20 1 255,
   rwR TmCtl.LOCK_S 16 1 255,
   rwF TmCtl.UNLOCK_NS 250,
   rwR TmCtl.HO_SPEC_S 1000 1 65535,
   rwR TmCtl.STEP_NS 1000 100 65535,
   rwR TmCtl.SERVO_BW 1 0 4,
   rwF TmCtl.TWO_STEP 0]

/-- time status (R447). -/
def fieldsTmStatus : List FieldDesc :=
  [roF TmStatus.SERVO 0,
   roF TmStatus.SOURCE 0,
   roF TmStatus.SRC_PORT 0,
   roF TmStatus.ROOT 0,
   roF TmStatus.FT_STATE 0,
   roF TmStatus.FT_PARENT 0,
   roF TmStatus.FT_HOPS 0,
   roF TmStatus.CLOCK_CLASS 248,
   roF TmStatus.TIME_TRACEABLE 0,
   roF TmStatus.FREQ_TRACEABLE 0,
   roF TmStatus.HO_READY 0,
   roF TmStatus.HOSC_OK 0,
   roF TmStatus.DPLL 0,
   roF TmStatus.OFFSET 2147483648,
   roF TmStatus.FREQ_OFF 0,
   roF TmStatus.HO_ELAPSED 0]

/-- frequency and I/O control (R448). -/
def fieldsFqCtl : List FieldDesc :=
  [rwF FqCtl.FREQ_BW 0,
   rwF FqCtl.QL_EN 1,
   rwF FqCtl.ESMC_EN 1,
   rwF FqCtl.PRIO_10M 0,
   rwF FqCtl.QL_10M 15,
   rwR FqCtl.WTR 300 0 720,
   rwR FqCtl.HOLDOFF 5 0 10,
   rwF FqCtl.PPS_IN_EN 0,
   rwF FqCtl.PPS_OUT_EN 1,
   rwF FqCtl.OUT_10M_EN 1,
   rwF FqCtl.HOSC_EN 0,
   rwR FqCtl.VP_CLASS 6 6 254,
   rwF FqCtl.PPS_IN_CORR 0,
   rwF FqCtl.PPS_OUT_CORR 0,
   rwR FqCtl.PPS_WIDTH 100 1 200]

/-- port time control (R449). -/
def fieldsPtCtl : List FieldDesc :=
  [rwR PtCtl.PTP_MODE 0 0 2,
   rwF PtCtl.MASTER_ONLY 0,
   rwF PtCtl.MCAST_ADDR 0,
   rwF PtCtl.LOG_SYNC 12,
   rwF PtCtl.LOG_DELAY 12,
   rwF PtCtl.LOG_ANNOUNCE 13,
   rwR PtCtl.ANN_TIMEOUT 3 2 10,
   rwF PtCtl.TS_ING_CORR 0,
   rwF PtCtl.TS_EG_CORR 0,
   rwF PtCtl.ASYM 0,
   rwF PtCtl.FREQ_PRIO 0]

/-- port time status (R449). -/
def fieldsPtStatus : List FieldDesc :=
  [roF PtStatus.PORT_STATE 3,
   roF PtStatus.CAL 0,
   roF PtStatus.ESMC_VALID 0,
   roF PtStatus.RX_QL 0,
   roF PtStatus.MPD 4294967295,
   roF PtStatus.PARTNERS 0]

/-- fabric link time (R450). -/
def fieldsFlTime : List FieldDesc :=
  [rwF FlTime.FT_ASYM 0,
   roF FlTime.LINK_DELAY 4294967295,
   roF FlTime.PARENT 0]

/-- PTP template (R450). -/
def fieldsPtpTmpl : List FieldDesc :=
  [rwR PtpTmpl.TMPL_LEN 42 42 112,
   rwF PtpTmpl.FAMILY 0,
   rwF PtpTmpl.TEMPLATE 0]

/-- PAIR control (R471). -/
def fieldsPrCtl : List FieldDesc :=
  [rwF PrCtl.PAIR_EN 0,
   rwR PrCtl.MODE 0 0 1,
   rwF PrCtl.UNIT 0,
   rwF PrCtl.LOCK 0,
   rwF PrCtl.PROT_PORTS 0,
   rwF PrCtl.METER_BASE 0,
   rwR PrCtl.METER_COUNT 0 0 1048576,
   rwR PrCtl.PN_SKIP_LOG2 20 10 32]

/-- PAIR status (R472). -/
def fieldsPrStatus : List FieldDesc :=
  [roF PrStatus.ROLE 0,
   roF PrStatus.SYNC 0,
   roF PrStatus.PEER_ALIVE 0,
   roF PrStatus.YOKE_UP 0,
   roF PrStatus.PROT_QUEUES 0,
   roF PrStatus.EPOCH_LAST 0,
   roF PrStatus.DELTA_KB 0]

/-- FLT control (R497). -/
def fieldsFltCtl : List FieldDesc :=
  [scF FltCtl.SAFE_EXIT,
   scF FltCtl.SAFE_ENTER]

/-- FLT status (R497). -/
def fieldsFltStatus : List FieldDesc :=
  [roF FltStatus.SAFE 0,
   roF FltStatus.EMBER_ON 0,
   roF FltStatus.HBM_OK 0,
   roF FltStatus.RING_USED 0,
   roF FltStatus.NEWEST 0,
   roF FltStatus.OLDEST 0,
   roF FltStatus.SAFE_SEQ 0]

/-- Grazing control (R498). -/
def fieldsGrCtl : List FieldDesc :=
  [rwF GrCtl.EN 1,
   rwR GrCtl.ROUND_S 30 10 50,
   rwR GrCtl.SHARE 10 1 10]

/-- Grazing status (R498). -/
def fieldsGrStatus : List FieldDesc :=
  [roF GrStatus.ROUND 0,
   roF GrStatus.LAST_MS 0,
   roF GrStatus.OLDEST_S 255,
   roF GrStatus.ENGINES_OUT 0,
   roF GrStatus.FINDINGS 0]

/-- FLT ring slot (R474). -/
def fieldsRingSlot : List FieldDesc :=
  [roF RingSlot.SEQ 0,
   roF RingSlot.SOURCE 0,
   roF RingSlot.KIND 0,
   roF RingSlot.INJECT 0,
   roF RingSlot.CONSEQ 0,
   roF RingSlot.REACTED 0,
   roF RingSlot.ACTIONS 0,
   roF RingSlot.LOST 0,
   roF RingSlot.ORIGIN 0,
   roF RingSlot.ADDRESS 0,
   roF RingSlot.TIME 0]

/-- CNT status (R513). -/
def fieldsCntStatus : List FieldDesc :=
  [roF CntStatus.SWEEP 0,
   roF CntStatus.VALUES 0]

/-- mirror session (R512). -/
def fieldsMirSess : List FieldDesc :=
  [rwF MirSess.EN 0,
   rwF MirSess.ING 0,
   rwF MirSess.EGR 0,
   rwF MirSess.NODE 0,
   rwR MirSess.PORT 0 0 47,
   rwF MirSess.TC 0,
   rwR MirSess.TRUNC 10240 64 10240,
   rwR MirSess.SAMPLE_N 1 1 16777215,
   rwF MirSess.MAX_KPPS 0,
   rwF MirSess.PORTS 0]

/-- collection entry (R513). -/
def fieldsColEnt : List FieldDesc :=
  [rwF ColEnt.ADDR 0,
   rwF ColEnt.EN 0,
   rwF ColEnt.COUNT 0]

/-- UPD control (R538). -/
def fieldsUpdCtl : List FieldDesc :=
  [scF UpdCtl.SAVE,
   rwF UpdCtl.CONFIRM_REQ 0,
   rwR UpdCtl.HEALTH_S 120 10 600,
   rwR UpdCtl.TRIAL_BOOTS 3 1 3]

/-- UPD status (R538). -/
def fieldsUpdStatus : List FieldDesc :=
  [roF UpdStatus.HOLDER 255,
   roF UpdStatus.LEASE_LEFT 0,
   roF UpdStatus.STAGE 0,
   roF UpdStatus.BLOCKS 0,
   roF UpdStatus.RUN_SLOT 0,
   roF UpdStatus.SETTINGS_DEFAULTED 0,
   roF UpdStatus.ACT_STATE 0,
   roF UpdStatus.SECVER_MIN 0,
   roF UpdStatus.HEALTH_LEFT 0,
   roF UpdStatus.LAST_REASON 0,
   roF UpdStatus.RUN_VERSION 0]

/-- directory record (R539). -/
def fieldsDirRec : List FieldDesc :=
  [roF DirRec.STATE 0,
   roF DirRec.TRIAL 0,
   roF DirRec.HEALTH_FAILED 0,
   roF DirRec.TRIES 0,
   roF DirRec.BUNDLE_ID 0,
   roF DirRec.FW_VERSION 0,
   roF DirRec.SECVER 0,
   roF DirRec.SET_FORMAT 0,
   roF DirRec.LENGTH 0,
   roF DirRec.TAG 0]

/-- release key digest (R538). -/
def fieldsRelKey : List FieldDesc :=
  [roF RelKey.DIGEST 0]

/-- PWR control (R575). -/
def fieldsPwrCtl : List FieldDesc :=
  [rwF PwrCtl.FORCE_LEVEL 0,
   rwF PwrCtl.KEEP_PORTS 0,
   rwF PwrCtl.KEEP_LINKS 0]

/-- PWR status (R575). -/
def fieldsPwrStatus : List FieldDesc :=
  [roF PwrStatus.LEVEL 0,
   roF PwrStatus.VIN_LEVEL 0,
   roF PwrStatus.STABLE 0,
   roF PwrStatus.THERMAL 0,
   roF PwrStatus.STEPS 0,
   roF PwrStatus.VIN_MV 0,
   roF PwrStatus.IIN 0,
   roF PwrStatus.PIN_W 0,
   roF PwrStatus.TJ_MAX 0,
   roF PwrStatus.SHED_PORTS 0,
   roF PwrStatus.SHED_LINKS 0,
   roF PwrStatus.VSTBY_MV 0]

/-- performance counter selector (R501). -/
def fieldsPerfSel : List FieldDesc :=
  [rwF PerfSel.EVENT 0,
   rwF PerfSel.INST 0,
   rwF PerfSel.EN 0,
   rwF PerfSel.COLLECT 0,
   rwF PerfSel.SAMPLE_LOG2 0]

/-- performance counter (R500). -/
def fieldsPerfCnt : List FieldDesc :=
  [rwF PerfCnt.COUNT 0]

/-- reaction set (R480). -/
def fieldsReaction : List FieldDesc :=
  [rwF Reaction.EVENT 0,
   rwF Reaction.LOCAL 0,
   rwF Reaction.SAFE 0,
   rwR Reaction.THRESH 1 1 65535,
   rwR Reaction.WINDOW 1000 1 65535,
   roF Reaction.COUNT 0]

/-- A counter: one read-only 64-bit value (R14). -/
def fieldsCounter : List FieldDesc := [⟨⟨0, 64⟩, .ro, 0, 0, 2 ^ 64 - 1⟩]

/-- The field table of each object type. -/
def fieldsOf : ObjTy → List FieldDesc
  | .brgStatus => fieldsBrgStatus
  | .brgCtr => fieldsCounter
  | .identity => fieldsIdentity
  | .identKey => fieldsIdentKey
  | .opKey => fieldsOpKey
  | .rstStatus => fieldsRstStatus
  | .mgmtPort => fieldsMgmtPort
  | .sessSet => fieldsSessSet
  | .sessStatus => fieldsSessStatus
  | .cmdCtr => fieldsCounter
  | .clCtl => fieldsClCtl
  | .clVersion => fieldsClVersion
  | .clStatus => fieldsClStatus
  | .imgSlot => fieldsImgSlot
  | .ecCtr => fieldsCounter
  | .patchStage => fieldsPatchStage
  | .microView => fieldsMicroView
  | .nanoView => fieldsNanoView
  | .threadCtx => fieldsThreadCtx
  | .imgData => fieldsImgData
  | .lpmStatus => fieldsLpmStatus
  | .ptDesc => fieldsPtDesc
  | .lpmCtr => fieldsCounter
  | .crownWord => fieldsCrownWord
  | .leafLine => fieldsLeafLine
  | .exmDesc => fieldsExmDesc
  | .exmCtr => fieldsCounter
  | .nhEntry => fieldsNhEntry
  | .ecmpGroup => fieldsEcmpGroup
  | .ecmpMember => fieldsEcmpMember
  | .labelEntry => fieldsLabelEntry
  | .patCtl => fieldsPatCtl
  | .patStatus => fieldsPatStatus
  | .ruleSet => fieldsRuleSet
  | .patCtr => fieldsCounter
  | .tieCtr => fieldsCounter
  | .patWin => fieldsPatWin
  | .ruleEntry => fieldsRuleEntry
  | .lmacGlobal => fieldsLmacGlobal
  | .lpCtl => fieldsLpCtl
  | .lpStatus => fieldsLpStatus
  | .laneCtl => fieldsLaneCtl
  | .modCtl => fieldsModCtl
  | .modData => fieldsModData
  | .aggCtl => fieldsAggCtl
  | .lpCtr => fieldsCounter
  | .svcCtr => fieldsCounter
  | .idMirror => fieldsIdMirror
  | .bfdSess => fieldsBfdSess
  | .tfuCtl => fieldsTfuCtl
  | .frCtl => fieldsFrCtl
  | .frStatus => fieldsFrStatus
  | .protGrp => fieldsProtGrp
  | .tfuCtr => fieldsCounter
  | .grpSwCtr => fieldsCounter
  | .pageEnt => fieldsPageEnt
  | .tti => fieldsTti
  | .msGlobal => fieldsMsGlobal
  | .msStatus => fieldsMsStatus
  | .msPort => fieldsMsPort
  | .mkaStatus => fieldsMkaStatus
  | .msCtr => fieldsCounter
  | .msGctr => fieldsCounter
  | .saSlot => fieldsSaSlot
  | .cakSlot => fieldsCakSlot
  | .bufCtl => fieldsBufCtl
  | .bufStatus => fieldsBufStatus
  | .arrMap => fieldsArrMap
  | .bufCtr => fieldsCounter
  | .pktDesc => fieldsPktDesc
  | .shCtl => fieldsShCtl
  | .shStatus => fieldsShStatus
  | .poolCtl => fieldsPoolCtl
  | .poolStatus => fieldsPoolStatus
  | .egMap => fieldsEgMap
  | .poolCtr => fieldsCounter
  | .poolGctr => fieldsCounter
  | .peatStatus => fieldsPeatStatus
  | .spillProf => fieldsSpillProf
  | .peatCtr => fieldsCounter
  | .qSpill => fieldsQSpill
  | .voqGlobal => fieldsVoqGlobal
  | .admProf => fieldsAdmProf
  | .pfcThr => fieldsPfcThr
  | .voqGctr => fieldsCounter
  | .vqCtr => fieldsCounter
  | .vqCfg => fieldsVqCfg
  | .vqState => fieldsVqState
  | .classMap => fieldsClassMap
  | .gateCtl => fieldsGateCtl
  | .egCtr => fieldsCounter
  | .eqCtr => fieldsCounter
  | .grpCfg => fieldsGrpCfg
  | .tenCfg => fieldsTenCfg
  | .subCfg => fieldsSubCfg
  | .eqCfg => fieldsEqCfg
  | .eqState => fieldsEqState
  | .gateList => fieldsGateList
  | .mtCtr => fieldsCounter
  | .meter => fieldsMeter
  | .shPort => fieldsShPort
  | .shGrp => fieldsShGrp
  | .shTen => fieldsShTen
  | .shSub => fieldsShSub
  | .shQueue => fieldsShQueue
  | .fabSet => fieldsFabSet
  | .fabStatus => fieldsFabStatus
  | .trCtl => fieldsTrCtl
  | .flCtl => fieldsFlCtl
  | .flStatus => fieldsFlStatus
  | .portGrant => fieldsPortGrant
  | .flCtr => fieldsCounter
  | .rtCtr => fieldsCounter
  | .trCtr => fieldsCounter
  | .cabMirror => fieldsCabMirror
  | .route => fieldsRoute
  | .memMask => fieldsMemMask
  | .lpMask => fieldsLpMask
  | .rlCtr => fieldsCounter
  | .hbCtl => fieldsHbCtl
  | .hbStatus => fieldsHbStatus
  | .hbReq => fieldsHbReq
  | .hbChan => fieldsHbChan
  | .hbRow => fieldsHbRow
  | .hbPcCtr => fieldsCounter
  | .hbRqCtr => fieldsCounter
  | .hbRaw => fieldsHbRaw
  | .tmCtl => fieldsTmCtl
  | .tmStatus => fieldsTmStatus
  | .fqCtl => fieldsFqCtl
  | .ptCtl => fieldsPtCtl
  | .ptStatus => fieldsPtStatus
  | .flTime => fieldsFlTime
  | .tmCtr => fieldsCounter
  | .ptpTmpl => fieldsPtpTmpl
  | .prCtl => fieldsPrCtl
  | .prStatus => fieldsPrStatus
  | .prCtr => fieldsCounter
  | .fltCtl => fieldsFltCtl
  | .fltStatus => fieldsFltStatus
  | .grCtl => fieldsGrCtl
  | .grStatus => fieldsGrStatus
  | .fltCtr => fieldsCounter
  | .ringSlot => fieldsRingSlot
  | .cntStatus => fieldsCntStatus
  | .mirSess => fieldsMirSess
  | .colEnt => fieldsColEnt
  | .cntCtr => fieldsCounter
  | .mirCtr => fieldsCounter
  | .lostCtr => fieldsCounter
  | .updCtl => fieldsUpdCtl
  | .updStatus => fieldsUpdStatus
  | .dirRec => fieldsDirRec
  | .relKey => fieldsRelKey
  | .updCtr => fieldsCounter
  | .pwrCtl => fieldsPwrCtl
  | .pwrStatus => fieldsPwrStatus
  | .pwrCtr => fieldsCounter
  | .perfSel => fieldsPerfSel
  | .perfCnt => fieldsPerfCnt
  | .reaction => fieldsReaction

/-- Object types whose value is computed from other state (one home per register) or left open by spec/. -/
def isView : ObjTy → Bool
  | .microView => true
  | .nanoView => true
  | .threadCtx => true
  | .crownWord => true
  | .leafLine => true
  | .exmDesc => true
  | .nhEntry => true
  | .ecmpGroup => true
  | .ecmpMember => true
  | .labelEntry => true
  | .ruleSet => true
  | .ruleEntry => true
  | .hbRaw => true
  | _ => false

end Sys2Proof.Machine
end

