-- ==== Sys2Proof/Machine/Tab.lean ====
section
/-! DEFINITION. Sparse tables keyed by a number, kept in one canonical form (keys strictly rising), and bit fields of a
number. -/
namespace Sys2Proof.Machine

/-- A sparse table: (key, value) pairs, keys strictly rising. -/
abbrev Tab (β : Type) := List (Nat × β)

/-- The value listed at a key. -/
def tabGet? {β : Type} : Tab β → Nat → Option β
  | [], _ => none
  | (k', v) :: r, k => if k = k' then some v else tabGet? r k

/-- The value listed at a key, or a default. -/
def tabGet {β : Type} (t : Tab β) (k : Nat) (d : β) : β := (tabGet? t k).getD d

/-- List a value at a key, replacing what is listed there. -/
def tabPut {β : Type} : Tab β → Nat → β → Tab β
  | [], k, v => [(k, v)]
  | (k', v') :: r, k, v =>
    if k < k' then (k, v) :: (k', v') :: r
    else if k = k' then (k, v) :: r
    else (k', v') :: tabPut r k v

/-- List nothing at a key. -/
def tabDel {β : Type} (t : Tab β) (k : Nat) : Tab β := t.filter fun e => e.1 != k

/-- List a value at a key, or nothing where the value is the default of that key. -/
def tabSet {β : Type} [DecidableEq β] (t : Tab β) (k : Nat) (v d : β) : Tab β :=
  if v = d then tabDel t k else tabPut t k v

/-- The canonical form: the keys are strictly rising. -/
def tabSorted {β : Type} (t : Tab β) : Bool := decide (t.Pairwise fun a b => a.1 < b.1)

/-- Bits [lo + w - 1 : lo] of a number (R4). -/
def bitsAt (x lo w : Nat) : Nat := x / 2 ^ lo % 2 ^ w

/-- A number with bits [lo + w - 1 : lo] replaced. -/
def putBits (x lo w v : Nat) : Nat := x % 2 ^ lo + 2 ^ lo * (v % 2 ^ w + 2 ^ w * (x / 2 ^ (lo + w)))

/-- The bytes of a number, n of them, most significant first (R5). -/
def toBytes : Nat → Nat → Bytes
  | 0, _ => []
  | n + 1, x => BitVec.ofNat 8 (x / 256 ^ n) :: toBytes n x

/-- The number that bytes spell, most significant first (R5). -/
def ofBytes (bs : Bytes) : Nat := bs.foldl (fun a b => a * 256 + b.toNat) 0

/-- Add one to a number that stops at its greatest value. -/
def satInc (x max : Nat) : Nat := if x < max then x + 1 else max

end Sys2Proof.Machine
end

