-- ==== Sys2Proof/Machine/State.lean ====
section
/-! DEFINITION. The state of the block: the registers of the object address space in one sparse store, and beside them
everything the manual gives the device that no object shows whole: sessions and their waiting commands, fault queues and
log, packets, queues, threads, tables, links, requests, timers, pins. Plain data. -/
namespace Sys2Proof.Machine

/-- What the device does once a reply has been sent (R49, R73, R530, R554). -/
inductive AfterReply where
  | nothing
  | closeSession
  | closeSlots (ks : List Nat)
  | resetDevice (noSettings : Bool)
  | restartSlot
  deriving DecidableEq, Repr

/-- How far an accepted command has come: not yet in effect; a table change that waits for its turn (R145); in effect on a block
and its reply still to come; or its reply ready, with its status, logged address, hint and RESULT (R55, R58). -/
inductive Phase where
  | queued
  | turn
  | started (blk : Nat)
  | done (status : Nat) (addr : ObjAddr) (hint : Nat) (result : Bytes) (after : AfterReply)
  deriving DecidableEq, Repr

/-- An accepted command that has not been replied to (R58, R59); `counted` says it counts as outstanding. -/
structure Waiting where
  hdr     : Hdr
  port    : MgmtPort
  mac     : BitVec 48
  op      : Nat
  res     : Nat
  plen    : Nat
  body    : Nat
  counted : Bool
  since   : Nat
  phase   : Phase
  deriving DecidableEq, Repr

/-- A reassembly in progress (R41): first SEQ, H before its first fragment came (R53), fragment count, the indices held, and what its
fragment 0 showed. -/
structure Reasm where
  first : Word
  before : Nat
  count : Nat
  held  : List Nat
  port  : MgmtPort
  mac   : BitVec 48
  op    : Nat
  res   : Nat
  plen  : Nat
  body  : Nat
  since : Nat
  deriving DecidableEq, Repr

/-- An entry of the fault log (R474). -/
structure FaultEntry where
  seq     : Nat
  blk     : Nat
  inst    : Nat
  kind    : Nat
  inject  : Bool
  conseq  : Bool
  reacted : Bool
  actions : Nat
  lost    : Nat
  origin  : Nat
  addr    : ObjAddr
  time    : Nat
  deriving DecidableEq, Repr

/-- A record of a telemetry stream (R508). -/
inductive TelRec where
  | fault (e : FaultEntry)
  | state (addr : ObjAddr) (time : Nat) (head : Nat)
  | sample (queue : Nat) (state : Nat)
  | sweep (number off len : Nat)
  | overflow (time : Nat) (ctr : ObjAddr) (count : Nat) (ctx : ObjAddr) (suppressed : Nat)
  deriving DecidableEq, Repr

/-- A telemetry subscription (R507). -/
structure Sub where
  streams  : BitVec 32
  qsMin    : Nat
  sweepDiv : Nat
  deriving DecidableEq, Repr

/-- What the device keeps of a session beside its status object (R47 to R53, R63, R66, R507 to R509): the bitmaps hold
the marks of the window, bit i for the value H − i. -/
structure Sess where
  marks    : Nat
  injH     : Nat
  injMarks : Nat
  keys     : Option SessKeys
  port     : MgmtPort
  mac      : BitVec 48
  openedAt : Nat
  lastPass : Nat
  idleFrom : Nat
  closing  : Bool
  replays  : List Nat
  fails    : List Nat
  piSeq    : Nat
  sub      : Option Sub
  recs     : List TelRec
  recsFrom : Nat
  evSeq    : Nat
  evLost   : Nat
  reasm    : List Reasm
  injReasm : List Reasm
  injReady : List MgmtPort
  deriving DecidableEq, Repr

/-- A session that is not open. -/
def Sess.closed : Sess :=
  { marks := 0, injH := 0, injMarks := 0, keys := none, port := .ma, mac := 0, openedAt := 0, lastPass := 0, idleFrom := 0,
    closing := false, replays := [], fails := [], piSeq := 1, sub := none, recs := [], recsFrom := 0,
    evSeq := 1, evLost := 0, reasm := [], injReasm := [], injReady := [] }

/-- A punt in the punt transmit queue (R64, R66): its metadata, the bytes of it that are kept, and its first 256 bytes; what lies behind
them is held with no packet. -/
structure Punt where
  reason  : Nat
  port    : Nat
  tc      : Nat
  trunc   : Bool
  egress  : Bool
  rule    : ObjAddr
  arrival : Nat
  origLen : Nat
  kept    : Nat
  win     : Nat
  deriving DecidableEq, Repr

/-- A fuse write in progress (R73): the command, the slot words it writes, the slots it revokes, and RAISE_SECVER's value. -/
structure FuseWrite where
  hdr    : Option Hdr
  slots  : List (Nat × Nat)
  secver : Option Nat
  from_  : Nat
  deriving DecidableEq, Repr

/-- An open request that has passed R36 and waits for its check (R46). -/
structure OpenWait where
  port : MgmtPort
  peer : BitVec 48
  seq  : Word
  deriving DecidableEq, Repr

/-- Block CMD beside its objects. -/
structure Cmd where
  sess      : Tab Sess
  waiting   : List Waiting
  opens     : List OpenWait
  openTimes : List Nat
  puntQ     : List Punt
  fuse      : Option FuseWrite
  deriving DecidableEq, Repr

/-- A fault message in a block's queue (R474, R476); `shadow` is the earliest open shadow that affects it, `opens` the
shadow that it opened, `entersSafe` marks the message that entered the safe state. -/
structure FaultMsg where
  blk     : Nat
  inst    : Nat
  kind    : Nat
  addr    : ObjAddr
  time    : Nat
  inject  : Bool
  reacted : Bool
  actions : Nat
  shadow  : Option Nat
  opens   : Option Nat
  entersSafe : Bool
  reply   : Option Hdr
  deriving DecidableEq, Repr

/-- An open reaction shadow (R487): every source, or those of one block. -/
structure Shadow where
  id     : Nat
  safe   : Bool
  blk    : Nat
  opened : Nat
  deriving DecidableEq, Repr

/-- Block FLT beside its objects: the block queues, the losses not yet carried by an entry, the blocks that hold a
reacted message in the order of their reactions, the round-robin pointer, the ring, the HBM log, open shadows, the SEQ of
the entry that opened each shadow, the windows of the reaction sets, the engines that are out of dispatch (R495), and when
each rate-bounded message was last sent, by source, kind and subject; when the last Grazing round began. -/
structure Flt where
  queues  : Tab (List FaultMsg)
  lost    : Tab Nat
  react   : List Nat
  next    : Nat
  ring    : List FaultEntry
  log     : List FaultEntry
  shadows : List Shadow
  origins : Tab Nat
  shadowN : Nat
  windows : Tab Nat
  engOut  : List Nat
  last    : Tab Nat
  grazed  : Option Nat
  deriving DecidableEq, Repr

/-- A sweep record (R504). -/
structure SweepRec where
  number  : Nat
  time    : Nat
  skipped : Bool
  values  : List Nat
  deriving DecidableEq, Repr

/-- Block CNT beside its objects: the sweep ring, whether the last record is written, and for each mirror session the
copies its rate bucket holds, in 1/1000 of a copy, with the time of its last update; `samples` holds for each performance
counter the time of its last overflow sample and the samples suppressed since. -/
structure Cnt where
  ring     : List SweepRec
  nextNo   : Nat
  unwritten : Bool
  skipped  : Bool
  mirrors  : Tab (Nat × Nat)
  samples  : Tab (Nat × Nat)
  deriving DecidableEq, Repr

/-- A stored packet (R270): `desc` and `billets` are handles, whose choice is the device's own; `since` is its arrival by the measure
of intervals (R416). -/
structure Packet where
  desc    : Nat
  len     : Nat
  arrival : Nat
  since   : Nat
  arrPort : Nat
  words   : List Word
  tc      : Nat
  pool    : Nat
  node    : Nat
  port    : Nat
  leases  : Nat
  freePending : Bool
  bad     : Bool
  owner   : Nat
  staged  : Bool
  billets : List Nat
  mark    : Nat
  inject  : Bool
  copied  : Bool
  hash    : Nat
  content : Content
  deriving DecidableEq, Repr

/-- A reference to a stored packet: a queue's place for it, or a copy's (R284); `lease` is false for the named owner,
`mirror` holds the session and TRUNC of a mirror copy, `prec` the drop precedence (R311), `occ` says it counts in IN_OCC, `page` is the peat page it came back in, `qseq` its number
in its queue (R460), `from_` who asks for the free when it ends: the queue it was put in, or the packet's reception and thread (R286). -/
structure Ref where
  pkt    : Nat
  lease  : Bool
  tc     : Nat
  len    : Nat
  prec   : Nat
  mirror : Option (Nat × Nat)
  words  : List Word
  group  : Option Nat
  occ    : Bool
  page   : Option Nat
  qseq   : Nat
  from_  : Nat
  deriving DecidableEq, Repr

/-- A packet's image in a peat page (R292). -/
structure Image where
  ref : Ref
  pkt : Packet
  deriving DecidableEq, Repr

/-- How far a page is: being written, stored, being read for the n-th time. -/
inductive PagePhase where
  | writing | stored | reading (n : Nat)
  deriving DecidableEq, Repr

/-- A peat page of a queue (R292, R296). -/
structure Page where
  handle : Nat
  pool   : Nat
  imgs   : List Image
  flushed : Bool
  phase  : PagePhase
  deriving DecidableEq, Repr

/-- A queue (R293 to R299, R312): head segment, page chain and tail buffer, its average in 1/256 billets, since
when it is empty, and since when its head packet is at its head (R386). -/
structure Queue where
  head     : List Ref
  pages    : List Page
  tail     : List Ref
  tailFrom : Nat
  spilled  : Bool
  avg      : Nat
  avgSet   : Bool
  emptyAt  : Nat
  headAt   : Nat
  deriving DecidableEq, Repr

/-- An empty queue. -/
def Queue.empty : Queue :=
  { head := [], pages := [], tail := [], tailFrom := 0, spilled := false, avg := 0, avgSet := false, emptyAt := 0,
    headAt := 0 }

/-- The levels of a meter's or shaper's two buckets in 1/1,024 B, and the common time of their last update (R317). -/
structure Bucket where
  tc   : Int
  tp   : Int
  last : Nat
  deriving DecidableEq, Repr

/-- A port's gate control (R327 to R330): the GO being checked with the value its write gives the object, the common time the admin list takes force, its number of
entries and BASE_TIME, and of the list in force the start of the cycle, the entry it is in, the number of entries
and BASE_TIME; and where a step has come, when the list restarts at entry 0 (R416). -/
structure Gate where
  checking : Option (Hdr × Nat)
  pending  : Option (Nat × Nat × Nat)
  start    : Nat
  entry    : Nat
  count    : Nat
  base     : Nat
  restart  : Option Nat
  deriving DecidableEq, Repr

/-- The kinds of frame the device originates on a line port. -/
inductive Pdu where
  | bfd | lacp | marker | pfc | mkpdu | sync | followUp | delayReq | delayResp | announce | signal | esmc | csf
  | localFault | remoteFault | idle | bei | oduAis
  deriving DecidableEq, Repr

/-- What waits for the MAC: a packet after its egress pass, with its arrival time, its correctionField and its descriptor, or a
frame that the device originates (R331, R427). -/
inductive TxBody where
  | packet (ref : Ref) (arrival : Nat) (corr : Option (BitVec 64)) (desc : Nat)
  | device (kind : Pdu) (args : List Nat)
  deriving DecidableEq, Repr

/-- A frame waiting for the MAC (R185, R329): its class, its length before any MACsec expansion, its header window as the
egress pass left it, the end of the last window it missed, for a packet the number of its dequeue (R33), whether its end has yet to
arrive, and whether it arrived bad. -/
structure TxFrame where
  body   : TxBody
  tc     : Nat
  len    : Nat
  win    : Nat
  missed : Option Nat
  no     : Option Nat
  open_  : Bool
  bad    : Bool
  deriving DecidableEq, Repr

/-- An outcome of an ingress pass that waits for block VOQ (R314), or of an egress pass. -/
inductive PassOutcome where
  | dest (next : Nat)
  | drop (reason : Nat)
  | punt (reason : Nat)
  deriving DecidableEq, Repr

/-- A result on its way to block VOQ: the packet, the destination in the next-hop layout, meter request, pre-colour, flow
hash. -/
structure PassResult where
  pkt    : Nat
  next   : Nat
  meter  : Option (Nat × Nat)
  hash   : Nat
  deriving DecidableEq, Repr

/-- Blocks BUF, POOL and PEAT beside their objects: stored packets by an internal number, the Sheepdog round in progress,
the items found once (a page by its handle above those of the billets), the pool and the owner queue of pages that no queue names,
billets whose ring entry could not be read (R282), when PEAT has written all that is ready, in 1/6,200 ns (R300), and when the pages of the
last 1 ms were written and read (R303). -/
structure Buf where
  pkts     : Tab Packet
  nextPkt  : Nat
  round    : Bool
  roundAt  : Nat
  rounds   : Nat
  suspects : List Nat
  strays   : List Nat
  lostPages : Tab (Nat × Nat)
  lostBillets : List Nat
  wrFree   : Nat
  wrAt     : List Nat
  rdAt     : List Nat
  deriving DecidableEq, Repr

/-- Blocks VOQ, EGS and MTR beside their objects: queues by the numbers of R273 and R306; virtual times by node and band,
start tags by node; nodes that their shaper or a pause held; buckets; gates; PFC pauses by port and TC with the common
time they end, IN_OCC, the classes under XOFF with the time of the last PFC frame; pending class map entries; the
sampler's next queue; results; the band each node took when it became active; the frames
that wait for the MAC by port, in the order they were dequeued; the round robin and the deficits of R326. -/
structure Que where
  queues  : Tab Queue
  vtime   : Tab Word
  stag    : Tab Word
  held    : List Nat
  buckets : Tab Bucket
  gates   : Tab Gate
  paused  : Tab Nat
  inOcc   : Tab Nat
  xoff    : Tab Nat
  classNew : Tab Nat
  sampleQ : Nat
  results : List PassResult
  bands   : Tab Nat
  tx      : Tab (List TxFrame)
  rr      : Tab Nat
  deficit : Tab Nat
  deriving DecidableEq, Repr

/-- The lookup units a LOOKUP names (R86, LUNIT). -/
inductive LUnit where
  | lpm | exm | pat
  deriving DecidableEq, Repr

/-- A leaf of a prefix table (R123, R124): its table, the region of the addresses that read it, by length and bits, the generation in
which the device wrote it, and its entries as (prefix key, value), longest first. -/
structure Leaf where
  tid     : Nat
  len     : Nat
  bits    : Nat
  gen     : Nat
  entries : List (Nat × Nat)
  deriving DecidableEq, Repr

/-- A 64 B line that a lookup reads in HBM (R122): a leaf, or eight labels. -/
inductive HbmLine where
  | leaf (l : Leaf)
  | labels (n : Nat)
  deriving DecidableEq, Repr

/-- What is rebuilt from the entry store (R150, R151): a word of an SRAM store (0 crown nodes, 2 next hops, 3 ECMP groups, 4 ECMP
members), or a line. -/
inductive Broken where
  | word (store i : Nat)
  | line (l : HbmLine)
  deriving DecidableEq, Repr

/-- How far a lookup request is (R93, R137, R138, R151, R162, R170): not yet accepted; in the unit's input queue; waiting
for an HBM read of a line, shared or its own, and then whether the read has entered a controller's queue, and under which number of
which stack where it is held there; waiting for a billet; its billet fetched; its result formed. -/
inductive LookPhase where
  | asked
  | accepted
  | reading (line : HbmLine) (shared : Bool) (queued : Option (Nat × Option Nat))
  | fetching
  | fetched
  | formed (rd : Word) (m e : Bool)
  deriving DecidableEq, Repr

/-- A lookup outstanding for a thread (R93, R126, R161): the key registers, KLEN, whether RA was above 12, IMM, RD, and the
header window when the LOOKUP issued (R162). -/
structure Look where
  unit  : LUnit
  klen  : Nat
  key   : List Word
  raBig : Bool
  imm   : Nat
  rd    : Nat
  win   : Nat
  phase : LookPhase
  deriving DecidableEq, Repr

/-- What a thread waits for: nothing (READY); a result that a register or a second LOOKUP needs (R93); the condition of the
WAIT at its pc, whose branch it takes when it resumes (R86, R91); or room in a lookup unit (STALLED). -/
inductive Hold where
  | ready
  | result
  | wait
  | stalled
  deriving DecidableEq, Repr

/-- A thread that is not IDLE (R77, R79 to R81): its pass, its program and its bindings (R108, R147, R160). The window is a
2,048-bit number whose most significant byte is byte 0 of the frame; `cause` is the address of the table entry or rule that its last
hit returned, zero when it has had none (R64), and `no` the number of its packet's dequeue (R33). -/
structure Thread where
  hold    : Hold
  pc      : Nat
  g       : List Word
  win     : Nat
  words   : List Word
  z : Bool
  c : Bool
  n : Bool
  m : Bool
  e : Bool
  t : Bool
  l : Bool
  o : Bool
  stack   : List Nat
  egress  : Bool
  ref     : Ref
  outPort : Nat
  started : Nat
  bank    : Nat
  epoch   : Nat
  patBank : Option Nat
  look    : Option Look
  outcome : Option PassOutcome
  meter   : Option (Nat × Nat)
  hash    : Nat
  mirrors : List Nat
  cause   : ObjAddr
  no      : Nat
  deriving DecidableEq, Repr

/-- An overlay bank of a cluster (R106, R107). -/
structure Overlay where
  level : Nat
  mw    : Tab Nat
  nw    : Tab Nat
  deriving DecidableEq, Repr

/-- How far a reload is (R103, R110 to R113): queued; its cluster taken out of dispatch ahead of its turn; T_s fixed; its passes
draining; its stores written, for the first or second time; loaded, with the common-time instant of its resume. -/
inductive ReloadPhase where
  | queued
  | out
  | fixed (ts : Nat)
  | draining
  | loading (again : Bool)
  | loaded (at_ : Nat)
  deriving DecidableEq, Repr

/-- A reload pending or in progress (R109): its slot, the mode that its start found in PROTECT (R99), from when its RELOAD_WAIT counts
(R111), and since when that time stands still (R114); `sweep` marks that of R103. -/
structure Reload where
  slot   : Nat
  protect : Nat
  since  : Nat
  held   : Option Nat
  sweep  : Bool
  phase  : ReloadPhase
  deriving DecidableEq, Repr

/-- An engine cluster beside its objects: the 256 B parts of the image it runs, its overlay banks, the instant of a patch switch,
its reload, a LOAD_GO that waits behind the reload of R103, the state it would read without a queued reload, whether the
power ladder parks it (R114), and the slot that its image came from (R102). -/
structure Cluster where
  image   : Tab Nat
  banks   : List Overlay
  patch   : Option Nat
  reload  : Option Reload
  behind  : Option Reload
  base    : Nat
  shed    : Bool
  slot    : Option Nat
  deriving DecidableEq, Repr

/-- An EMPTY cluster. -/
def Cluster.empty : Cluster :=
  { image := [], banks := [⟨0, [], []⟩, ⟨0, [], []⟩], patch := none, reload := none, behind := none, base := 0, shed := false,
    slot := none }

/-- A header that waits for an egress thread (R27), with the number of its dequeue (R33). -/
structure EgressHdr where
  ref  : Ref
  port : Nat
  tc   : Nat
  no   : Nat
  deriving DecidableEq, Repr

/-- What crosses the bridge and is held as a flit (R19): to the QD the result of an ingress pass and the bytes of a stored packet, to the
FD the head of a packet on its way to its egress pass. -/
inductive Flit where
  | result (x : PassResult)
  | body (pkt : Nat)
  | egress (h : EgressHdr)
  deriving DecidableEq, Repr

/-- A channel of the bridge (R20 to R22): the flit that has been sent and not yet accepted, and the control and the data flits behind
it. -/
structure Channel where
  retry : Option Flit
  ctl   : List Flit
  data  : List Flit
  deriving DecidableEq, Repr

/-- A channel with nothing in it. -/
def Channel.empty : Channel := { retry := none, ctl := [], data := [] }

/-- The bridge beside its status object (R20 to R22): the channels, consecutive failures of the flit at the head of each, and the
channels whose retrain failed and waits to be repeated. -/
structure Bridge where
  chans  : Tab Channel
  fails  : Tab Nat
  again  : List Nat
  deriving DecidableEq, Repr

/-- The engines and dispatch beside their objects: threads that are not IDLE, clusters, the dispatch queue of each port,
the port that dispatch serves and the headers it may
still take from it (R26), the inject queue, egress headers, clusters with a reload in the order of their LOAD_GO (R109), image slots being checked,
the operator key slot under which each slot verified (R101), and the no-destination counter of R84, which no object shows; the thread
that each engine issued last (R79); by cluster, since when it had how many busy threads, and its issues with their EC cycles, both newest
first (R110, R117); the number of the next egress dequeue (R33); and threads whose pass has ended with a lookup outstanding, which its unit
completes though nobody takes the result (R137, R162). -/
structure Engine where
  threads  : Tab Thread
  clusters : Tab Cluster
  dispQ    : Tab (List Nat)
  rrPort   : Nat
  rrLeft   : Nat
  injectQ  : List Nat
  egressQ  : List EgressHdr
  reloads  : List Nat
  verifying : List Nat
  verifiedBy : Tab Nat
  noDest   : Nat
  issued   : Tab Nat
  busyLog  : Tab (List (Nat × Nat))
  issueLog : Tab (List (Nat × Nat))
  deqNo    : Nat
  orphans  : List (Nat × Thread)
  deriving DecidableEq, Repr

/-- The entries of one table by key: a prefix's length and address, or an index (R140). -/
abbrev Entries := Tab (List Nat)

/-- A table epoch (R146, R147). -/
structure Epoch where
  number : Nat
  tables : Tab Entries
  deriving DecidableEq, Repr

/-- A pending change: an entry, or a delete (R144). -/
abbrev Changes := Tab (Option (List Nat))

/-- An accepted insert or delete that waits for its turn (R145). -/
structure Turn where
  hdr   : Hdr
  tid   : Nat
  key   : Nat
  entry : Option (List Nat)
  deriving DecidableEq, Repr

/-- How far a commit is (R148): building; built; T_sw fixed. -/
inductive CommitPhase where
  | building
  | built
  | fixed (tsw : Nat)
  deriving DecidableEq, Repr

/-- An accepted TABLE_COMMIT (R146): the sets it closed, their changes, and how many changes had been accepted in all. -/
structure Commit where
  hdr     : Hdr
  sets    : Tab Changes
  changes : Nat
  mark    : Nat
  phase   : CommitPhase
  deriving DecidableEq, Repr

/-- The lookup tables (R120 to R152): live epochs, newest first; pending sets; turns; commits; accepted changes not yet
built, and how many have been accepted in all; cached leaves, most recently used first; what is being rebuilt; entries that cannot be
rebuilt; and the prefix lookups of the last 1 ms, with whether each was a crown hit (R154). -/
structure Lookup where
  epochs  : List Epoch
  pend    : Tab Changes
  turns   : List Turn
  commits : List Commit
  unbuilt : Nat
  taken   : Nat
  cache   : List Leaf
  bad     : List Broken
  lost    : List (Nat × Nat)
  hits    : List (Nat × Bool)
  deriving DecidableEq, Repr

/-- The pattern matcher beside its objects (R157 to R172): a verification or a fixed T_sw, the rule sets of each bank
marked DAMAGED, when the last sweep completed, when the sweep under way began, none while no bank is compared, and the shadow copies of the
banks in HF0, by the 256 B parts of both windows, zero where nothing is listed. -/
structure Pat where
  verifying : Bool
  swapAt    : Option Nat
  damaged   : List (Nat × Nat)
  sweptAt   : Option Nat
  sweepFrom : Option Nat
  shadow    : Tab Nat
  deriving DecidableEq, Repr

/-- What the BFD service keeps of a session (R196 to R198): whether its detection timer runs and when the last valid packet restarted
it, the remote multiplier and intervals, whether a Poll is out and a Final owed, the intervals in force on transmit and receive, and
when the next packet is due. -/
structure BfdRun where
  timer : Bool
  rMult : Nat
  rDmti : Nat
  rRmri : Nat
  poll  : Bool
  final : Bool
  last  : Nat
  tx    : Nat
  rx    : Nat
  due   : Nat
  deriving DecidableEq, Repr

/-- What the LACP service holds of a partner, and since when (R199). -/
structure Partner where
  pdu  : Lacpdu
  at_  : Nat
  deriving DecidableEq, Repr

/-- What MSEC makes of the start of a received frame (R240 to R243): it is dropped; it is the MKA service's; it is delivered; or it is
delivered while a core works on it under a key slot, with its PN and the VALIDATE in force. -/
inductive SecHead where
  | drop
  | mka
  | deliver (len : Nat) (c : Content)
  | check (slot pn val len : Nat) (c : Content)
  deriving DecidableEq, Repr

/-- A frame that has started to arrive (R183, R243, R249): the frame, what MSEC makes of it, whether row 7 of R182 took its header, its
packets in the hot tier (a second one once it has crossed the loop-back port), and whether row 7 counts it when it ends good. -/
structure Arriving where
  frame  : LineFrame
  sec    : SecHead
  row7   : Bool
  pkts   : List Nat
  counts : Bool
  deriving DecidableEq, Repr

/-- A received frame that waits for a core (R249): whether it turned bad before MSEC, whether its end has come, and whether it has been
counted as held at the bound of its slot. -/
structure FifoFrame where
  frame : LineFrame
  bad   : Bool
  ended : Bool
  held  : Bool
  deriving DecidableEq, Repr

/-- A frame whose transmission has started before its end is held (R185): its PN, its length as sent and its correctionField. -/
structure Sending where
  frame : TxFrame
  pn    : Option Nat
  len   : Nat
  corr  : Option Nat
  deriving DecidableEq, Repr

/-- Block LMAC beside its objects: the frames that have started to arrive by port, oldest first; the frame in transmission by port; the
received frames that wait for a core by port (R249); the lane objects in force, with the taps chosen (R181, R203); since when a port
waits in HOLDING, for DOWN_HOLD or in HELD (R187, R189); the corrected symbols of the last second by port, with their times (R202); the
modes for which the module of a port advertises an application (R192); ports whose alignment and fault conditions hold (R187); the times a port went down in
the last 10 s (R189); buses out of use and retries (R191), by bus and by channel; channels being read (R192); BFD sessions;
frames waiting for the BFD and the LACP services by port; times of the slow-protocol frames of the last second (R199);
partners; aggregators below MIN_LINKS; module accesses that run. -/
structure Line where
  arriving : Tab (List Arriving)
  sending : Tab Sending
  fifo    : Tab (List FifoFrame)
  lanes   : Tab Nat
  since   : Tab Nat
  fecAt   : Tab (List (Nat × Nat))
  apps    : Tab Nat
  cond    : List Nat
  downs   : Tab (List Nat)
  busOut  : List Nat
  retries : Tab Nat
  reading : List Nat
  bfd     : Tab BfdRun
  divertQ : Tab Nat
  slowQ   : Tab Nat
  slowAt  : Tab (List Nat)
  partner : Tab Partner
  short   : List Nat
  deriving DecidableEq, Repr

/-- Blocks and errored blocks of a layer in the second under way, whether the last seconds were bad, and how many of them (R224). -/
structure Degrade where
  second : Nat
  blocks : Nat
  errs   : Nat
  bad    : Bool
  run    : Nat
  deriving DecidableEq, Repr

/-- The overhead that a framed port sends in every frame (R213, R214, R227): the TTIs of SM, PM and packet layer; BDI of the three; IAE;
the PT of the OPUCn and of the OPUflex; by slot the tributary port number when it is allocated; and the maintenance signal in the ODUCn,
as FORCE_TX counts them: 0 none, 1 LCK, 2 OCI, 3 AIS. STAT follows the maintenance signal. -/
structure Overhead where
  ttis  : List Nat
  bdi   : Nat
  iae   : Bool
  pt    : Nat
  pktPt : Nat
  msi   : List (Option Nat)
  maint : Nat
  deriving DecidableEq, Repr

/-- Block TFU beside its objects: by port and instance the run of frames that speaks against the state of the FAS and of the MFAS
alignment, with whether it is out, and since when (R224); consecutive correct cHECs in PRESYNC by port (R217); the swap's instant and the
ports that have taken the new page (R221); entries that cannot be read (R234); instances with dLOM and slots with dMSIM by port; the BDI
sent back by port (bit 0 SM, 1 PM, 2 packet); TRIBs that carry ODU AIS (R225); ports whose ODUCn carries AIS (R227); the fails and
degrades of a group that have outlasted HOLD_OFF (bit 0 SF P, 1 SF W, 2 SD P, 3 SD W; R228),
since when each is present, by 4 x group + bit, and when wait-to-restore ends. By port and signal the last value and how
often it has come in a row; the PTs, the MSI and the packet TTI accepted; seconds by port and layer; when a port last received a client
management frame (R224); the overhead sent by port (R213). -/
structure Tfu where
  fas     : Tab (Nat × Bool)
  mfas    : Tab (Nat × Bool)
  outAt   : Tab Nat
  presync : Tab Nat
  swapAt  : Option Nat
  taken   : List Nat
  lostEnt : List Nat
  lomInst : Tab Nat
  msim    : Tab Nat
  bdi     : Tab Nat
  aisTrib : List Nat
  aisOdu  : List Nat
  acting  : Tab Nat
  failFrom : Tab Nat
  wtrEnd  : Tab Nat
  runs    : Tab (Nat × Nat)
  msiRun  : Tab (List (Option (BitVec 14)) × Nat)
  pts     : Tab Nat
  msi     : Tab (List (Option (BitVec 14)))
  pktTti  : Tab Nat
  deg     : Tab Degrade
  csfAt   : Tab Nat
  sent    : Tab Overhead
  deriving DecidableEq, Repr

/-- The key material of an SA slot (R253): no object shows it. -/
structure SaKey where
  key    : Nat
  salt   : Nat
  ssci   : Nat
  thresh : Nat
  deriving DecidableEq, Repr

/-- What starts when a slot's drain ends (R256, R257): the new key of a write, or the end of an erase; the command whose
reply follows, none for the MKA service's own. -/
structure Drain where
  hdr   : Option Hdr
  write : Option SaParams
  mka   : Bool
  deriving DecidableEq, Repr

/-- An MKA participant, one for each VALID CAK slot of a port with MKA_EN 1 (R259, R261): its live peer, the last message
number accepted from each member, the order in which its CAK was written, when the live peer was last heard (R263), and the participant's
own member identifier, which the DRBG supplies, with the number of its last MKPDU (R250). -/
structure Mka where
  peer   : Option (BitVec 96)
  peerSci : Nat
  peerPrio : Nat
  mns    : Tab Nat
  order  : Nat
  heard  : Nat
  mi     : Nat
  mn     : Nat
  deriving DecidableEq, Repr

/-- A SAK being installed on a port (R261): its AN, its key, whether and when the transmit slot was switched. -/
structure SakRun where
  an    : Nat
  key   : Nat
  suite : Nat
  switched : Bool
  prevAn : Option Nat
  at_    : Nat
  deriving DecidableEq, Repr

/-- Block MSEC beside its objects: key material by SA slot and by CAK slot; drains; commands accepted for a slot that is
PAUSED or ERASING; participants by CAK slot; SAKs by port; the count of CAK writes; the generations of CAK slots; times of
MKPDUs and ICV failures of the last second by port; cores out of service; the bytes that the transmit and the receive pipes took in the
last 1 ms, with their times (R265). -/
structure Msec where
  keys    : Tab SaKey
  caks    : Tab Nat
  drains  : Tab (List Drain)
  mka     : Tab Mka
  sak     : Tab SakRun
  cakN    : Nat
  pduAt   : Tab (List Nat)
  icvAt   : Tab (List Nat)
  cakGen  : Tab Nat
  coresOut : List Nat
  txLog   : List (Nat × Nat)
  rxLog   : List (Nat × Nat)
  deriving DecidableEq, Repr

/-- The plan in force (R342, R343). -/
structure Plan where
  cls   : Nat
  sx    : Nat
  sy    : Nat
  sz    : Nat
  dbl   : Nat
  addr  : Nat
  valid : Bool
  deriving DecidableEq, Repr

/-- A run of bytes of a packet's place in a stream: the packet's reference, and the offset and length of the run (R370, R371). -/
structure Piece where
  ref : Ref
  off : Nat
  len : Nat
  deriving DecidableEq, Repr

/-- A cell that waits for a link (R374): its content when the node cut it itself, the input slot it occupies, by link, virtual channel
and a number that the copies of one cell share, and whether it has waited for a credit. -/
structure FabCell where
  cell   : Cell
  pieces : List Piece
  slot   : Option (Nat × Nat × Nat)
  waited : Bool
  deriving DecidableEq, Repr

/-- A fabric link beside its objects (R347, R354, R356 to R358, R372, R373): identical passing hellos in a row and the last
hello; when its state last changed; its samples and its estimate E in 1/65,536 cell; entries into DOWN or QUARANTINED of the
last 10 s; FEC and CRC errors of the last 1 ms; whether it runs its 1 s trial; credits spent by virtual channel, and slots freed by
virtual channel whose credits are not yet returned; cells that wait for it; when its hold or its trial began
(R357), and the control object in force since its bring-up, with the taps chosen (R347, R365). -/
structure Fl where
  helloN  : Nat
  hello   : Option Hello
  since   : Nat
  samples : Nat
  e       : Nat
  falls   : List Nat
  fecAt   : List Nat
  crcAt   : List Nat
  trial   : Bool
  spent   : Tab Nat
  freed   : Tab Nat
  cells   : List FabCell
  holdAt  : Nat
  ctl     : Nat
  deriving DecidableEq, Repr

/-- A fabric link after reset. -/
def Fl.reset : Fl :=
  { helloN := 0, hello := none, since := 0, samples := 0, e := 0, falls := [], fecAt := [], crcAt := [], trial := false,
    spent := [], freed := [], cells := [], holdAt := 0, ctl := 0 }

/-- A link-state record held, and when it came (R350, R351). -/
structure Held where
  record : LinkRecord
  came   : Nat
  deriving DecidableEq, Repr

/-- The source's side of a stream (R371, R377 to R381, R388): GRANTED, SPENT or SENT, the SEQ of its next cell, the time and
backlog of its last REQUEST, and the cell that is being filled: its content, REC_OFF and the bytes it holds; `synced` is false while
multicast has gone since the last SYNC, and `syncAt` when that was sent (R388); and an open packet with the bytes of its stream already
cut (R371). -/
structure SrcStream where
  granted : Nat
  spent   : Nat
  seq     : Nat
  reqAt   : Option Nat
  reqLog  : Nat
  pieces  : List Piece
  recOff  : Nat
  fill    : Nat
  synced  : Bool
  syncAt  : Nat
  open_   : Option (Ref × Nat)
  deriving DecidableEq, Repr

/-- A stream before its first message. -/
def SrcStream.zero : SrcStream :=
  { granted := 0, spent := 0, seq := 0, reqAt := none, reqLog := 0, pieces := [], recOff := 255, fill := 0, synced := true,
    syncAt := 0, open_ := none }

/-- A cell held out of order by a stream: its payload, or none when it is poisoned. -/
structure HeldCell where
  seq    : Nat
  recOff : Nat
  endOff : Nat
  bytes  : Option (BitVec 1920)
  deriving DecidableEq, Repr

/-- The destination's side of a stream (R379 to R383, R390): GRANTED, CONSUMED, the reported backlog and SPENT, the pool of its
set-aside, the next SEQ expected, cells held behind a gap, the SEQs of which a poisoned copy has come, with the copy; the bytes of the
packet in progress; whether it knows where a record starts; and control messages that wait for their cells: NEXT_SEQ, SPENT,
backlog; and since when the first gap stands (R383). -/
structure DstStream where
  granted  : Nat
  consumed : Nat
  backlog  : Nat
  spent    : Nat
  pool     : Nat
  expect   : Nat
  held     : List HeldCell
  poisoned : List (Nat × Bool)
  buf      : Bytes
  synced   : Bool
  waits    : List (Nat × Nat × Nat)
  gapAt    : Nat
  deriving DecidableEq, Repr

/-- A stream before its first cell. -/
def DstStream.zero : DstStream :=
  { granted := 0, consumed := 0, backlog := 0, spent := 0, pool := 0, expect := 0, held := [], poisoned := [], buf := [],
    synced := false, waits := [], gapAt := 0 }

/-- The destination's side of a source's multicast in a class (R386 to R388): GRANTED, CONSUMED, the reported backlog and SENT, the
pool of its set-aside; of the packet in progress the SEQ of its last cell, its group, its bytes, and the charge it was accepted
under. -/
structure McDst where
  granted  : Nat
  consumed : Nat
  backlog  : Nat
  spent    : Nat
  pool     : Nat
  seq      : Nat
  group    : Nat
  buf      : Bytes
  taken    : Option Nat
  deriving DecidableEq, Repr

/-- Multicast of a source before its first copy. -/
def McDst.zero : McDst :=
  { granted := 0, consumed := 0, backlog := 0, spent := 0, pool := 0, seq := 0, group := 0, buf := [], taken := none }

/-- Blocks FAB and RLY beside their objects: the plan in force, links, records by address, whether the route table is behind
the records, since when a node is unreachable, streams by queue number at the source, by source, port and class at the
destination, multicast streams by peer and class, and the SEQ of the multicast of each class; the own incarnation and those learnt
(R382), the time of the last record made, the round-robin pointers and deficits of grants by port, the round-robin pointer of link
choice, the number of the next cell that takes a slot, and groups whose tables cannot be read (R394). -/
structure Fab where
  plan    : Plan
  links   : Tab Fl
  records : Tab (List Held)
  stale   : Bool
  unreach : Tab Nat
  src     : Tab SrcStream
  dst     : Tab DstStream
  mcSrc   : Tab SrcStream
  mcDst   : Tab McDst
  mcSeq   : Tab Nat
  inc     : Nat
  incs    : Tab Nat
  genTime : Nat
  started : Bool
  grantRr : Tab Nat
  rr      : Nat
  cellNo  : Nat
  badGroups : List Nat
  deriving DecidableEq, Repr

/-- A request held by an HBM controller (R397 to R401): its class and hint at its acceptance, when it was accepted, how many younger
requests of its class passed it, whether it is issued, and whether a throttle has held it back. -/
structure HbmHeld where
  id     : Nat
  rq     : HbmReq
  cls    : Nat
  close  : Bool
  since  : Nat
  passed : Nat
  issued : Bool
  slowed : Bool
  deriving DecidableEq, Repr

/-- A bank of a stack (R398, R404, R405): the row its last access left open and the time of that access; activation counts by row; hot
rows; requesters throttled on it with the time of their last activation; rows whose neighbours are to be refreshed. -/
structure Bank where
  row    : Option Nat
  used   : Nat
  counts : List (Nat × Nat)
  hot    : List Nat
  slowed : List (Nat × Nat)
  due    : List Nat
  deriving DecidableEq, Repr

/-- A bank with no row open and no count. -/
def Bank.idle : Bank := { row := none, used := 0, counts := [], hot := [], slowed := [], due := [] }

/-- An HBM stack and its controller beside its objects: held requests, oldest first; banks by pseudo-channel and bank;
refreshes postponed by pseudo-channel; times of the command slots that aged requests took in the last 1 µs, by pseudo-channel; channels
queued for a retrain, the first of them in progress with its slices done; channels whose retrain failed; corrected errors of the last
second by channel; the scrubber's next line and when its last pass ended; and the memory by byte, zero where nothing is listed. -/
structure Stack where
  reqs    : List HbmHeld
  nextId  : Nat
  banks   : Tab Bank
  postponed : Tab Nat
  agedAt  : Tab (List Nat)
  retrains : List Nat
  slices  : Nat
  retry   : List Nat
  failedAt : Tab Nat
  ces     : Tab (List Nat)
  backs   : List Nat
  windowAt : Nat
  scrub   : Nat
  scrubAt : Option Nat
  mem     : List Host.Cell
  deriving DecidableEq, Repr

/-- An idle stack. -/
def Stack.idle : Stack :=
  { reqs := [], nextId := 0, banks := [], postponed := [], agedAt := [], retrains := [], slices := 0, retry := [], failedAt := [],
    ces := [], backs := [], windowAt := 0, scrub := 0, scrubAt := none, mem := [] }

/-- What TIME holds of a fabric link (R432 to R434): samples of the delay and their sum, the last offset to the peer, in units of
0.25 ns; the root word held; words sent; and the TX of the last time word received with when it came, by the measure of intervals. -/
structure LinkTime where
  words  : Nat
  sum    : Int
  offset : Option Int
  root   : Option RootWord
  sent   : Nat
  last   : Option (Int × Nat)
  rootFrom : Nat
  rootAt : Nat
  deriving DecidableEq, Repr

/-- A link of TIME after reset. -/
def LinkTime.reset : LinkTime := { words := 0, sum := 0, offset := none, root := none, sent := 0, last := none, rootFrom := 0, rootAt := 0 }

/-- What TIME holds of a line port (R423 to R425, R439): the foreign master's Announce, messages that wait in the divert queue, times of
the messages and ESMC PDUs of the last second, whether an Announce has come or failed to come since the port left INITIALIZING, the
arrival of the last two-step Sync, and the last time from the master to here, in units of 0.25 ns. -/
structure PortTime where
  master   : Option PtpMsg
  divert   : Nat
  msgAt    : List Nat
  esmcAt   : List Nat
  listened : Bool
  syncRx   : Option Int
  down     : Option Int
  annAt    : Nat
  corrWas  : Option (Nat × Nat)
  deriving DecidableEq, Repr

/-- A line port of TIME after reset. -/
def PortTime.reset : PortTime :=
  { master := none, divert := 0, msgAt := [], esmcAt := [], listened := false, syncRx := none, down := none,
    annAt := 0, corrWas := none }

/-- Block TIME beside its objects: since when the offset has been good, and bad offsets in a row (R428); a step decided, in units of
2^-16 ns, and when (R416); the rest of a slew in the same units; all steps applied since reset; whether the holdover is forced; when
LOCKED and a holdover were entered; the traceable flags at entry to HOLDOVER; links; ports; the DPLL's reference (a port, 48 for the 10
MHz input, 49 and up for fabric links), references dropped, when it locked; the QL last announced; since when the offset to the parent
has been above 4 ns; the 1PPS and ToD inputs: the last accepted edge, whether each input is accepted, misses and failures in a row,
SECONDS of the last message, of the last edge, and the last flag timeTraceable; the last ROOT_SEQ; currentUtcOffset; and the last whole
second given on the 1PPS output. -/
structure Time where
  goodFrom : Option Nat
  badN     : Nat
  step     : Option (Int × Nat)
  slew     : Int
  stepped  : Int
  forced   : Bool
  lockedAt : Nat
  holdAt   : Nat
  flags    : Nat
  links    : Tab LinkTime
  ports    : Tab PortTime
  ref      : Option Nat
  dropped  : List Nat
  refAt    : Tab Nat
  dpllAt   : Nat
  qlSent   : Nat
  wideFrom : Option Nat
  ppsAt    : Option Nat
  ppsOk    : Bool
  ppsMiss  : Nat
  todOk    : Bool
  todSec   : Option Nat
  edgeSec  : Option Nat
  todBad   : Nat
  todTrace : Bool
  rootSeq  : Nat
  utc      : Int
  ppsSec   : Nat
  deriving DecidableEq, Repr

/-- A pass of a protected port that the standby has finished and whose ingress record it waits for (R461). -/
structure Expected where
  seq    : Nat
  digest : Nat
  result : Option PassResult
  deriving DecidableEq, Repr

/-- Block PAIR beside its objects (R454 to R466): the next block sequence number sent and expected, and blocks held out of order; the
peer's report; the items as the last snapshot took them; the delta being received; records waiting for the Yoke and since when; the time
of a trigger; on the active unit whether a full copy is owed, on the standby whether it has been applied; records that wait for the
standby's own frames; its own frames by port, and the frames counted by port (R460); the ports whose count a record has set since the
resynchronisation began. -/
structure Pair where
  txSeq   : Nat
  rxSeq   : Nat
  held    : Tab YokeLoad
  peer    : Option (Bool × Nat × Nat)
  last    : List YokeItem
  recv    : Option (Nat × List YokeItem)
  records : List YokeRec
  recFrom : Nat
  quietAt : Nat
  blockAt : Tab Nat
  owed    : List (Nat × Nat)
  trigger : Option Nat
  full    : Bool
  todo    : List YokeRec
  frames  : Tab (List Expected)
  fseq    : Tab Nat
  aligned : List Nat
  deriving DecidableEq, Repr

/-- Stored settings: one half of a settings area (R526). -/
structure Settings where
  seq    : Nat
  format : Nat
  regs   : Tab Nat
  deriving DecidableEq, Repr

/-- A bundle slot of the flash (R524 to R526): what the bundle declares, and its settings halves, newer first. -/
structure FlashSlot where
  bundle : Option BundleInfo
  halves : List Settings
  deriving DecidableEq, Repr

/-- A commit in progress (R528): its command, its step 2 to 6, its target, the bundle and its length, and the repeats of a sector. -/
structure Storing where
  hdr     : Hdr
  step    : Nat
  target  : Nat
  bundle  : BundleInfo
  len     : Nat
  repeats : Nat
  deriving DecidableEq, Repr

/-- The parts of an activation (R531): PHY firmware, a core's restart, the rule swap, the image's check, the reloads. -/
inductive ActPart where
  | phy | core (n : Nat) | rules | image | reloads
  deriving DecidableEq, Repr

/-- Block UPD beside its objects: the lease's length and when it last restarted; staged blocks by number; what verify found;
the flash slots, the directory's SEQ and the records of its older copy (R524); a commit; a save; an activation with the parts to come,
the head under way, and those begun, newest first, with its image slot; whether CONFIRM came and when the health window opened; whether
a core has raised a fault message since; the verify in progress; the loader's wait for a directory write, the slot it started, the slots
it must not start, and whether it has fallen back. -/
structure Upd where
  leaseS  : Nat
  leaseAt : Nat
  blocks  : Tab Bytes
  staged  : Option BundleInfo
  slots   : List FlashSlot
  dirSeq  : Nat
  dirOld  : List Nat
  commit  : Option Storing
  save    : Option Settings
  act     : List ActPart
  actDone : List ActPart
  actSlot : Option Nat
  actHdr  : Option Hdr
  confirmed : Bool
  healthAt : Nat
  coreFault : Bool
  verify  : Option Hdr
  trialBoot : Bool
  bootSlot : Option Nat
  bootAt  : Nat
  bootBad : List Nat
  fellBack : Bool
  deriving DecidableEq, Repr

/-- The power inputs, pins and start-up (R541 to R551, R557 to R566): whether VIN, VSTBY are good, nRESET is low, the main
rails are up; items shed, newest first, and items not started (R563); since when the budget is exceeded, and whether that has been
reported; when an item was last shed or restored; since when the current is above its limit and whether that has been acted on;
temperature times; the start-up in progress: the blocks it starts, the steps it runs and those done, when it began, NO_SETTINGS, the
command to answer at its end; a main reset to be turned into a device reset; EMBER, PAIR_ACT and the peer's EMBER. -/
structure Pwr where
  vin     : Bool
  vstby   : Bool
  nreset  : Bool
  rails   : Bool
  shed    : List ShedUnit
  unstarted : List ShedUnit
  overAt  : Option Nat
  unmet   : Bool
  shedAt  : Option Nat
  restAt  : Option Nat
  limitAt : Option Nat
  limited : Bool
  hotAt   : Option Nat
  coolAt  : Option Nat
  fresh   : List Nat
  steps   : List Nat
  done    : List Nat
  startAt : Nat
  skipSet : Bool
  hdr     : Option Hdr
  toDevice : Bool
  ember   : Bool
  pairAct : Bool
  peerEmber : Bool
  deriving DecidableEq, Repr

/-- What leaves the device: frames and messages on the management ports, on line ports, fabric links, Yoke links and the
slow pins. -/
inductive Out where
  | reply (port : MgmtPort) (mac : BitVec 48) (sid : Nat) (devSeq op status cmdSeq : Nat) (addr : ObjAddr) (hint : Nat)
      (result : Bytes) (seals : List Seal)
  | openReply (port : MgmtPort) (mac : BitVec 48) (seq : Word) (status sid granted : Nat) (tail : Option OpenTail)
  | event (port : MgmtPort) (mac : BitVec 48) (sid devSeq evSeq lost : Nat) (recs : List TelRec) (seals : List Seal)
  | punt (port : MgmtPort) (mac : BitVec 48) (sid : Nat) (seq : Nat) (p : Punt) (seals : List Seal)
  | frame (port : Nat) (ref : Ref) (win len : Nat) (pn corr : Option Nat) (bad : Bool)
  | pdu (port : Nat) (kind : Pdu) (args : List Nat)
  | secTag (port slot tci sl pn : Nat) (sci clear : Option Nat)
  | gfp (port pti pfi exi upi pli : Nat)
  | overhead (port : Nat) (o : Overhead)
  | slot (port slot : Nat) (content : Option Nat)
  | tribCut (port trib : Nat)
  | cell (link : Nat) (c : Cell) (pieces : List Piece)
  | control (link dst kind : Nat) (args : List Nat)
  | record (link : Nat) (r : LinkRecord)
  | hello (link : Nat) (h : Hello)
  | timeWord (link : Nat) (root : Bool) (args : List Nat)
  | downNotice (link : Nat)
  | credits (link vc n : Nat)
  | yoke (y : Nat) (seq : Nat) (load : YokeLoad) (unit : Bool) (role serial : Nat)
  | pps (seconds width : Nat)
  | tenMHz (on : Bool)
  | tod (seconds cls flags : Nat) (utc : Int)
  | busClear (bus : Nat)
  | moduleWrite (ch bank page off : Nat) (data : Bytes)
  | cmis (port ch mode lane : Nat)
  deriving DecidableEq, Repr

/-- What the fuses hold (R43, R45, R71, R72, R34, R523): they survive every reset. -/
structure Fuses where
  serial  : Nat
  macBase : Nat
  identKey : Nat
  relKeys : List Nat
  opKeys  : Tab Nat
  secver  : Nat
  deriving DecidableEq, Repr

/-- The state of the block. -/
structure State where
  /-- The registers of the object address space by key number; a register not listed holds its reset value. -/
  regs   : Tab Nat
  fuses  : Fuses
  /-- Intervals of time in ns, which no step of common time changes (R416). -/
  clock  : Nat
  /-- Common time (R414) in units of 2^-16 ns. -/
  ct     : Nat
  cmd    : Cmd
  bridge : Bridge
  flt    : Flt
  cnt    : Cnt
  eng    : Engine
  tbl    : Lookup
  pat    : Pat
  line   : Line
  tfu    : Tfu
  msec   : Msec
  buf    : Buf
  que    : Que
  fab    : Fab
  hbm    : Tab Stack
  time   : Time
  pair   : Pair
  upd    : Upd
  pwr    : Pwr
  /-- What has left the device, newest first. -/
  out    : List Out
  /-- The model's own counter of free values drawn (Config.entropy, Config.choice). -/
  free   : Nat
  /-- The commands that wait for their step, first in first out. -/
  pending : List Instr
  deriving DecidableEq, Repr

/-- Why a step stops. No command of this block faults: every row has an effect (R1 to R579). -/
inductive Fault where
  /-- Raised by nobody. Safe: a step that faulted would only stop. -/
  | none
  deriving DecidableEq, Repr

/-- Why a step is refused. -/
inductive Refusal where
  /-- A command whose meaning is not modelled, named as the opcode table names it; raised by the dispatch. Safe. -/
  | notModelled (mnemonic : String)
  deriving DecidableEq, Repr

/-- Block CMD after reset: no session is open. -/
def Cmd.reset : Cmd := { sess := [], waiting := [], opens := [], openTimes := [], puntQ := [], fuse := none }
/-- The bridge after reset. -/
def Bridge.reset : Bridge := { chans := [], fails := [], again := [] }
/-- Block FLT after reset. -/
def Flt.reset : Flt :=
  { queues := [], lost := [], react := [], next := 0, ring := [], log := [], shadows := [], origins := [], shadowN := 0,
    windows := [], engOut := [], last := [], grazed := none }
/-- Block CNT after reset: SWEEP 0 is the first (R505). -/
def Cnt.reset : Cnt :=
  { ring := [], nextNo := 0, unwritten := false, skipped := false, mirrors := [], samples := [] }
/-- The engines after reset: every cluster EMPTY, every thread IDLE. -/
def Engine.reset : Engine :=
  { threads := [], clusters := [], dispQ := [], rrPort := 0, rrLeft := 0, injectQ := [], egressQ := [], reloads := [], verifying := [],
    verifiedBy := [], noDest := 0, issued := [], busyLog := [], issueLog := [], deqNo := 0, orphans := [] }
/-- The tables after reset: epoch 0, empty (R146). -/
def Lookup.reset : Lookup :=
  { epochs := [⟨0, []⟩], pend := [], turns := [], commits := [], unbuilt := 0, taken := 0, cache := [], bad := [], lost := [],
    hits := [] }
/-- The pattern matcher after reset. -/
def Pat.reset : Pat := { verifying := false, swapAt := none, damaged := [], sweptAt := none, sweepFrom := none, shadow := [] }
/-- Block LMAC after reset. -/
def Line.reset : Line :=
  { arriving := [], sending := [], fifo := [], lanes := [], since := [], fecAt := [], apps := [], cond := [], downs := [], busOut := [], retries := [], reading := [], bfd := [], divertQ := [], slowQ := [],
    slowAt := [], partner := [], short := [] }
/-- Block TFU after reset. -/
def Tfu.reset : Tfu :=
  { fas := [], mfas := [], presync := [], swapAt := none, taken := [], lostEnt := [], lomInst := [], msim := [], bdi := [],
    aisTrib := [], aisOdu := [], acting := [], failFrom := [], wtrEnd := [], outAt := [],
    runs := [], msiRun := [], pts := [], msi := [], pktTti := [], deg := [], csfAt := [], sent := [] }
/-- Block MSEC after reset: every slot EMPTY (R250). -/
def Msec.reset : Msec :=
  { keys := [], caks := [], drains := [], mka := [], sak := [], cakN := 0, pduAt := [], icvAt := [],
    cakGen := [], coresOut := [], txLog := [], rxLog := [] }
/-- Blocks BUF, POOL and PEAT after reset (R283). -/
def Buf.reset : Buf :=
  { pkts := [], nextPkt := 0, round := false, roundAt := 0, rounds := 0, suspects := [], strays := [], lostPages := [], lostBillets := [], wrFree := 0, wrAt := [], rdAt := [] }
/-- Blocks VOQ, EGS and MTR after reset: buckets full, tags zero (R319, R324). -/
def Que.reset : Que :=
  { queues := [], vtime := [], stag := [], held := [], buckets := [], gates := [], paused := [], inOcc := [], xoff := [],
    classNew := [], sampleQ := 0, results := [], bands := [], tx := [], rr := [], deficit := [] }
/-- The plan of a standalone node (R343). -/
def Plan.reset : Plan := { cls := 0, sx := 0, sy := 0, sz := 0, dbl := 0, addr := 0, valid := false }
/-- Blocks FAB and RLY after reset. -/
def Fab.reset : Fab :=
  { plan := Plan.reset, links := [], records := [], stale := false, unreach := [], src := [], dst := [], mcSrc := [],
    mcDst := [], mcSeq := [], inc := 0, incs := [], genTime := 0, started := false, grantRr := [], rr := 0, cellNo := 0,
    badGroups := [] }
/-- Block TIME after reset: FREERUN, no source (R414). -/
def Time.reset : Time :=
  { goodFrom := none, badN := 0, step := none, slew := 0, stepped := 0, forced := false, lockedAt := 0, holdAt := 0, flags := 0,
    links := [], ports := [], ref := none, dropped := [], refAt := [], dpllAt := 0, qlSent := 11, wideFrom := none, ppsAt := none,
    ppsOk := false, ppsMiss := 0, todOk := false, todSec := none, edgeSec := none, todBad := 0, todTrace := false, rootSeq := 0, utc := 0,
    ppsSec := 0 }
/-- Block PAIR after reset. -/
def Pair.reset : Pair :=
  { txSeq := 0, rxSeq := 0, held := [], peer := none, last := [], recv := none, records := [], recFrom := 0,
    quietAt := 0, blockAt := [], owed := [], trigger := none,
    full := false, todo := [], frames := [], fseq := [], aligned := [] }
/-- The bundle that the flash holds in FS0 at the model's reset: it declares nothing but that it runs with anything. DESIGN CHOICE: the
manual leaves the flash's contents to the user. -/
def BundleInfo.shipped : BundleInfo :=
  { failing := none, bundleId := 0, fwVersion := 0, secver := 0, setWr := 1, setMin := 1, setMax := 1, svcWr := 0, svcMin := 0,
    svcMax := 255, abiMin := 0, abiMax := 255, phyOk := true, image := none, rules := none, rulesFirst := false, tag := 0 }
/-- Block UPD after reset; the flash slots are as the flash holds them. -/
def Upd.reset : Upd :=
  { leaseS := 0, leaseAt := 0, blocks := [], staged := none, slots := [⟨some BundleInfo.shipped, []⟩, ⟨none, []⟩], dirSeq := 0,
    dirOld := [], commit := none, save := none, act := [], actDone := [], actSlot := none, actHdr := none, confirmed := false,
    healthAt := 0, coreFault := false, verify := none, trialBoot := false, bootSlot := none, bootAt := 0, bootBad := [], fellBack := false }
/-- Both inputs have become good together, a power-on reset (R543): start-up has yet to complete its first step (R547). -/
def Pwr.reset : Pwr :=
  { vin := true, vstby := true, nreset := false, rails := false, shed := [], unstarted := [], overAt := none, unmet := false,
    shedAt := none, restAt := none, limitAt := none, limited := false, hotAt := none, coolAt := none, fresh := allBlocks,
    steps := [1, 2, 3, 4, 5, 6, 7, 8, 9, 10, 11], done := [], startAt := 0, skipSet := false, hdr := none, toDevice := false,
    ember := false, pairAct := false, peerEmber := false }
/-- Unprogrammed fuses. -/
def Fuses.blank : Fuses := { serial := 0, macBase := 0, identKey := 0, relKeys := [0, 0], opKeys := [], secver := 0 }

/-- The block right after a power-on reset (R543): every register at its reset value, nothing queued, nothing sent. -/
def State.reset : State :=
  { regs := [], fuses := Fuses.blank, clock := 0, ct := 0, cmd := Cmd.reset, bridge := Bridge.reset, flt := Flt.reset,
    cnt := Cnt.reset, eng := Engine.reset, tbl := Lookup.reset, pat := Pat.reset, line := Line.reset, tfu := Tfu.reset,
    msec := Msec.reset, buf := Buf.reset, que := Que.reset, fab := Fab.reset, hbm := [], time := Time.reset,
    pair := Pair.reset, upd := Upd.reset, pwr := Pwr.reset, out := [], free := 0, pending := [] }

end Sys2Proof.Machine
end

