-- ==== Sys2Proof/Machine/Ops.lean ====
section
/-! DEFINITION. The named operations over registers, time, free values and the object address space. -/
namespace Sys2Proof.Machine

/-! ## Keys and addresses (R8, R67) -/

/-- The object of a type with a number. -/
def obj (ty : ObjTy) (idx : Nat := 0) : Key := ⟨ty, idx⟩

/-- The number of a key in the register store. -/
def keyNo (k : Key) : Nat := k.idx * 256 + k.ty.ctorIdx

/-- Objects of one block instance of a type. -/
def perBlock (ty : ObjTy) : Nat := (descOf ty).n1 * (descOf ty).n2

/-- The block of an object (R8). -/
def blockOf (k : Key) : Nat := ((descOf k.ty).blks[k.idx / perBlock k.ty]?).getD 0

/-- The outer and the inner index of an object within its block. -/
def outerOf (k : Key) : Nat := k.idx % perBlock k.ty / (descOf k.ty).n2
/-- See `outerOf`. -/
def innerOf (k : Key) : Nat := k.idx % (descOf k.ty).n2

/-- The object address of an object: block in [47:40], offset in [39:0] (R8). -/
def addrOf (k : Key) : ObjAddr :=
  let d := descOf k.ty
  BitVec.ofNat 48 (blockOf k * 2 ^ 40 + d.base + outerOf k * d.s1 + innerOf k * d.s2)

/-- The size of an object in bytes. -/
def sizeOf (k : Key) : Nat := (descOf k.ty).size

/-- Whether a key names an object that exists: prefix tables are the IDs of R120, the tables of EXM those of R153, and HF0 and HF1 hold 16 GB (R395). -/
def exists? (k : Key) : Bool :=
  match k.ty with
  | .ptDesc => k.idx == 1 || k.idx == 5 || decide (0x100 ≤ k.idx)
  | .exmDesc => decide (2 ≤ k.idx)
  | .hbRaw => decide (2 * 100663296 ≤ k.idx ∨ k.idx % 100663296 < 67108864)
  | _ => true

/-- The object of a type whose first byte lies at an offset of a block. -/
def findIn (blk off : Nat) (ty : ObjTy) : Option Key :=
  let d := descOf ty
  match d.blks.idxOf? blk with
  | none => none
  | some b =>
    if off < d.base then none
    else
      let o := off - d.base
      let j1 := if d.s1 = 0 then 0 else o / d.s1
      let r := if d.s1 = 0 then o else o % d.s1
      let j2 := if d.s2 = 0 then 0 else r / d.s2
      let k : Key := ⟨ty, (b * d.n1 + j1) * d.n2 + j2⟩
      if j1 < d.n1 && j2 < d.n2 && (if d.s2 = 0 then r == 0 else r % d.s2 == 0) && exists? k then some k else none

/-- The object whose first byte an address names (R67, R68). -/
def findObj (a : ObjAddr) : Option Key :=
  let blk := a.toNat / 2 ^ 40
  let off := a.toNat % 2 ^ 40
  allTypes.findSome? (findIn blk off)

/-- The number of a block among the blocks of R8, in their order. -/
def blockIx (blk : Nat) : Nat := allBlocks.idxOf blk

/-! ## Registers -/

/-- The reset value of an object's fields as the tables give them. -/
def tableReset (ty : ObjTy) : Nat := (fieldsOf ty).foldl (fun x d => putBits x d.f.lo d.f.w d.reset) 0

/-- A field of an object's value. -/
def getF (x : Nat) (f : Fld) : Nat := bitsAt x f.lo f.w
/-- An object's value with a field replaced. -/
def putF (x : Nat) (f : Fld) (v : Nat) : Nat := putBits x f.lo f.w v

/-- Field n of the class map's eight entries (R338). -/
def classBase (n : Nat) : Fld := ⟨ClassMap.BASE0.lo - 32 * n, ClassMap.BASE0.w⟩
/-- See `classBase`. -/
def classLog2 (n : Nat) : Fld := ⟨ClassMap.COUNT_LOG2_0.lo - 32 * n, ClassMap.COUNT_LOG2_0.w⟩
/-- See `classBase`. -/
def classPending (n : Nat) : Fld := ⟨ClassMap.PENDING0.lo - 32 * n, 1⟩

/-- Class and hint of an HBM requester at reset (the requester tables of R396): none where the requester is absent. -/
def hbmRequester (st req : Nat) : Option (Nat × Nat) :=
  if st < 2 then
    match req with
    | 0 | 1 => some (0, 1)
    | 2 | 3 | 5 | 6 => some (2, 0)
    | 4 => if st = 0 then some (2, 0) else none
    | 7 => some (2, 1)
    | 8 => some (3, 1)
    | 9 => some (3, 0)
    | _ => none
  else
    match req with
    | 0 | 1 => some (1, 0)
    | 2 => some (0, 0)
    | 3 => some (0, 1)
    | 4 => some (3, 1)
    | 5 => some (2, 1)
    | 6 => some (3, 1)
    | 7 => some (3, 0)
    | _ => none

/-- The reset value of an object: that of its table, and where the table names fuses, another object or a number that
depends on the index, that value (R34, R71, R72, R155, R177, R201, R266, R305, R320, R319, R337, R366, R396, R480, R538). -/
def resetVal (fu : Fuses) (k : Key) : Nat :=
  let d := tableReset k.ty
  match k.ty with
  | .identity => putF d Identity.SERIAL fu.serial
  | .identKey => fu.identKey % 2 ^ 776 * 2 ^ 248
  | .opKey => tabGet fu.opKeys k.idx 0
  | .relKey => putF d RelKey.DIGEST ((fu.relKeys[k.idx]?).getD 0)
  | .mgmtPort => putF d MgmtPort.MAC (fu.macBase + k.idx)
  | .ptDesc =>
    if k.idx = 1 then putF d PtDesc.STATE 1
    else if k.idx = 5 then putF (putF d PtDesc.STATE 1) PtDesc.FAMILY 1 else d
  | .lmacGlobal => putF d LmacGlobal.SYS_ID fu.macBase
  | .laneCtl => putF d LaneCtl.LOGICAL (k.idx % 4)
  | .msPort => putF d MsPort.TX_SCI (fu.macBase % 2 ^ 48 * 2 ^ 16 + k.idx + 1)
  | .voqGlobal => putF d VoqGlobal.QUANTUM (ofBytes (List.replicate 7 8))
  | .classMap => (List.range 8).foldl (fun x n => putF x (classBase n) (8 * k.idx + n)) d
  | .grpCfg => putF d GrpCfg.PARENT (k.idx % 48)
  | .tenCfg => putF d TenCfg.PARENT (k.idx % 2048)
  | .subCfg => putF d SubCfg.PARENT (k.idx % 16384)
  | .eqCfg => putF d EqCfg.PARENT (k.idx / 8 % 65536)
  | .meter | .shPort | .shGrp | .shTen | .shSub | .shQueue =>
    putF (putF d Meter.TC_LEVEL 16384) Meter.TP_LEVEL 16384
  | .hbReq =>
    match hbmRequester (k.idx / 16) (k.idx % 16) with
    | some (c, h) => putF (putF (putF d HbReq.CLASS c) HbReq.HINT h) HbReq.PRESENT 1
    | none => d
  | .route => if k.idx = 0 then putF d Route.DIST 0 else d
  | .spillProf => if k.idx = 0 then 0 else d
  | .dirRec => if k.idx = 0 then putF d DirRec.STATE 3 else d
  | .updStatus => putF d UpdStatus.SECVER_MIN fu.secver
  | .reaction =>
    let blk := (allBlocks[k.idx / 4096]?).getD 0
    let inst := k.idx / 256 % 16
    let kind := k.idx % 256
    if 0x10 ≤ blk ∧ blk ≤ 0x2F ∧ inst ≤ 1 ∧ kind = 6 then putF d Reaction.LOCAL 1
    else if blk = 0x68 ∧ inst = 0 ∧ kind = 3 then putF d Reaction.SAFE 1
    else d
  | _ => d

/-- The whole value of an object. -/
def rdWord (s : State) (k : Key) : Nat := tabGet s.regs (keyNo k) (resetVal s.fuses k)
/-- A field of an object. -/
def rd (s : State) (k : Key) (f : Fld) : Nat := getF (rdWord s k) f
/-- Whether a one-bit field of an object is 1. -/
def flag (s : State) (k : Key) (f : Fld) : Bool := rd s k f == 1

/-- Set the whole value of an object. -/
def wrWord (s : State) (k : Key) (v : Nat) : State :=
  { s with regs := tabSet s.regs (keyNo k) v (resetVal s.fuses k) }
/-- Set a field of an object. -/
def wr (s : State) (k : Key) (f : Fld) (v : Nat) : State := wrWord s k (putF (rdWord s k) f v)
/-- Apply a function to a field of an object, wrapping at its width. -/
def mapF (s : State) (k : Key) (f : Fld) (g : Nat → Nat) : State := wr s k f (g (rd s k f))
/-- Add one to a field that saturates at its greatest value. -/
def satF (s : State) (k : Key) (f : Fld) : State := mapF s k f fun x => satInc x (2 ^ f.w - 1)

/-- The objects of a type whose register is listed: every other one reads as after reset. -/
def listed (ty : ObjTy) (s : State) : List Nat :=
  s.regs.filterMap fun e => if e.1 % 256 = ty.ctorIdx then some (e.1 / 256) else none

/-- Whether an item is out of service by the power ladder: shed, or not started (R560, R563). -/
def powerShed (s : State) (u : ShedUnit) : Bool := s.pwr.shed.contains u || s.pwr.unstarted.contains u

/-- Whether the device is in the safe state (R483). -/
def inSafe (s : State) : Bool := flag s (obj .fltStatus) FltStatus.SAFE

/-! ## Free values and time -/

/-- Draw from the entropy source (R45, R250). -/
def drawEntropy (s : State) : Nat × State := (Config.entropy s.free, { s with free := s.free + 1 })
/-- Draw a choice that the manual leaves to the device. -/
def drawChoice (s : State) : Nat × State := (Config.choice s.free, { s with free := s.free + 1 })
/-- The retry hint of a BUSY reply (R59). -/
def drawHint (s : State) : Nat × State := (Config.hint s.free, { s with free := s.free + 1 })

/-- Common time without the steps applied to it, in units of 2^-16 ns: intervals are measured by it (R416). -/
def ivl (s : State) : Nat := ((s.ct : Int) - s.time.stepped).toNat

/-- Common time in whole nanoseconds (R414, R475). -/
def nowNs (s : State) : Nat := s.ct / 65536
/-- Common time in the 12-byte layout: 48-bit seconds, 32-bit ns, 16-bit fraction (R64, R414). -/
def time96 (s : State) : Nat :=
  s.ct / 65536 / 10 ^ 9 % 2 ^ 48 * 2 ^ 48 + s.ct / 65536 % 10 ^ 9 * 2 ^ 16 + s.ct % 65536
/-- The common time of a 12-byte value, in units of 2^-16 ns. -/
def ofTime96 (v : Nat) : Nat := (v / 2 ^ 48 * 10 ^ 9 + v / 2 ^ 16 % 2 ^ 32) * 65536 + v % 65536

/-- One millisecond, one second in ns. -/
def ms : Nat := 1000000
/-- See `ms`. -/
def sec : Nat := 1000000000

/-- Whether a time kept by the clock lies within the last d ns. -/
def within (s : State) (t d : Nat) : Bool := decide (s.clock < t + d)

/-- The times of a list that lie within the last d ns. -/
def recent (s : State) (ts : List Nat) (d : Nat) : List Nat := ts.filter fun t => within s t d

/-- Send something out of the device. -/
def emit (s : State) (o : Out) : State := { s with out := o :: s.out }
/-- Send several things, in order. -/
def emits (s : State) (os : List Out) : State := os.foldl emit s

/-- Apply an operation for each element of a list. -/
def forAll {α : Type} (l : List α) (f : α → State → State) (s : State) : State := l.foldl (fun s a => f a s) s

/-! ## The bridge (R19 to R23) -/

/-- The status object of the bridge. -/
def brgKey : Key := obj .brgStatus
/-- The state field of a channel: 0 is FD to QD. -/
def chanFld (ch : Nat) : Fld := if ch = 0 then BrgStatus.FD_QD else BrgStatus.QD_FD
/-- State of a channel: training, up, retraining (R23). -/
def chanState (s : State) (ch : Nat) : Nat := rd s brgKey (chanFld ch)
/-- What a channel holds. -/
def getChan (s : State) (ch : Nat) : Channel := tabGet s.bridge.chans ch Channel.empty
/-- See `getChan`. -/
def setChan (ch : Nat) (x : Channel) (s : State) : State :=
  { s with bridge := { s.bridge with chans := tabSet s.bridge.chans ch x Channel.empty } }

/-- The blocks of the QD: commands to them cross the bridge, and their replies, fault messages and samples come back over it (R19). -/
def qdBlocks : List Nat := [0x40, 0x41, 0x42, 0x48, 0x49, 0x4A, 0x50, 0x51, 0x5C, 0x5D, 0x5E, 0x5F, 0x64]

/-- Whether traffic with a block must wait: it stands on the QD, and while a channel of the bridge is not up its senders wait (R22). -/
def bridgeWaits (s : State) (blk : Nat) : Bool := qdBlocks.contains blk && !(chanState s 0 == 1 && chanState s 1 == 1)

/-- A control flit enters a channel, behind the control flits that wait there and ahead of the data flits (R21). -/
def sendCtl (ch : Nat) (f : Flit) (s : State) : State :=
  let x := getChan s ch
  setChan ch { x with ctl := x.ctl ++ [f] } s
/-- A data flit enters a channel. -/
def sendData (ch : Nat) (f : Flit) (s : State) : State :=
  let x := getChan s ch
  setChan ch { x with data := x.data ++ [f] } s
/-- The flits that a channel holds, in the order in which it would send them (R21, R22). -/
def flitsOf (s : State) (ch : Nat) : List Flit :=
  let x := getChan s ch
  x.retry.toList ++ x.ctl ++ x.data

/-- The frequency of a block's island in MHz (R15: the table of clock islands). The link islands have no frequency of their own, and the
bridge ends in two islands: LMAC's cycles are counted at 1,000 MHz and D2D's at 1,500 MHz, the model's choice (log entry 72). -/
def islandMHz (blk : Nat) : Nat :=
  if 0x10 ≤ blk ∧ blk ≤ 0x2F then 1800
  else if blk ∈ [0x30, 0x31, 0x32, 0x39, 0x3A, 0x58, 0x59] then 1200
  else if blk ∈ [0x40, 0x41, 0x42, 0x48, 0x49, 0x4A, 0x50, 0x51, 0x5C, 0x5D, 0x5E, 0x5F, 0x64, 0x78] then 1500
  else 1000

end Sys2Proof.Machine
end

