-- ==== Sys2Proof/Machine/Seal.lean ====
section
/-! DEFINITION. What seals and signs the manual's messages: SHA-384, the points of P-384, the nonce and the authenticated data of a
Jutos frame, and the keys of a session (R39, R43 to R47, R101, R158). The manual names the algorithms; their definitions are those of
FIPS 180-4 and SEC 2 (PRESUMED, log entry 89). -/
namespace Sys2Proof.Machine

/-! ## SHA-384 -/

/-- The 80 round constants. -/
def shaK : List (BitVec 64) :=
  [0x428a2f98d728ae22, 0x7137449123ef65cd, 0xb5c0fbcfec4d3b2f, 0xe9b5dba58189dbbc, 0x3956c25bf348b538,
   0x59f111f1b605d019, 0x923f82a4af194f9b, 0xab1c5ed5da6d8118, 0xd807aa98a3030242, 0x12835b0145706fbe,
   0x243185be4ee4b28c, 0x550c7dc3d5ffb4e2, 0x72be5d74f27b896f, 0x80deb1fe3b1696b1, 0x9bdc06a725c71235,
   0xc19bf174cf692694, 0xe49b69c19ef14ad2, 0xefbe4786384f25e3, 0x0fc19dc68b8cd5b5, 0x240ca1cc77ac9c65] ++
  [0x2de92c6f592b0275, 0x4a7484aa6ea6e483, 0x5cb0a9dcbd41fbd4, 0x76f988da831153b5, 0x983e5152ee66dfab,
   0xa831c66d2db43210, 0xb00327c898fb213f, 0xbf597fc7beef0ee4, 0xc6e00bf33da88fc2, 0xd5a79147930aa725,
   0x06ca6351e003826f, 0x142929670a0e6e70, 0x27b70a8546d22ffc, 0x2e1b21385c26c926, 0x4d2c6dfc5ac42aed,
   0x53380d139d95b3df, 0x650a73548baf63de, 0x766a0abb3c77b2a8, 0x81c2c92e47edaee6, 0x92722c851482353b] ++
  [0xa2bfe8a14cf10364, 0xa81a664bbc423001, 0xc24b8b70d0f89791, 0xc76c51a30654be30, 0xd192e819d6ef5218,
   0xd69906245565a910, 0xf40e35855771202a, 0x106aa07032bbd1b8, 0x19a4c116b8d2d0c8, 0x1e376c085141ab53,
   0x2748774cdf8eeb99, 0x34b0bcb5e19b48a8, 0x391c0cb3c5c95a63, 0x4ed8aa4ae3418acb, 0x5b9cca4f7763e373,
   0x682e6ff3d6b2b8a3, 0x748f82ee5defb2fc, 0x78a5636f43172f60, 0x84c87814a1f0ab72, 0x8cc702081a6439ec] ++
  [0x90befffa23631e28, 0xa4506cebde82bde9, 0xbef9a3f7b2c67915, 0xc67178f2e372532b, 0xca273eceea26619c,
   0xd186b8c721c0c207, 0xeada7dd6cde0eb1e, 0xf57d4f7fee6ed178, 0x06f067aa72176fba, 0x0a637dc5a2c898a6,
   0x113f9804bef90dae, 0x1b710b35131c471b, 0x28db77f523047d84, 0x32caab7b40c72493, 0x3c9ebe0a15c9bebc,
   0x431d67c49c100d4c, 0x4cc5d4becb3e42b6, 0x597f299cfc657e2a, 0x5fcb6fab3ad6faec, 0x6c44198c4a475817]

/-- The value that the hash starts from. -/
def shaStart : List (BitVec 64) :=
  [0xcbbb9d5dc1059ed8, 0x629a292a367cd507, 0x9159015a3070dd17, 0x152fecd8f70e5939, 0x67332667ffc00b31, 0x8eb44a8768581511,
   0xdb0c2e0d64f98fa7, 0x47b5481dbefa4fa4]

/-- The word that a byte string holds from an offset, most significant byte first. -/
def shaWord (bs : Bytes) (off : Nat) : BitVec 64 :=
  (bs.drop off |>.take 8).foldl (fun x b => x <<< 8 ||| b.zeroExtend 64) 0

/-- The message schedule, newest word first. -/
def shaSchedule : Nat → List (BitVec 64) → List (BitVec 64)
  | 0, w => w
  | n + 1, w =>
    let a := (w[14]?).getD 0
    let b := (w[1]?).getD 0
    let s0 := a.rotateRight 1 ^^^ a.rotateRight 8 ^^^ a >>> 7
    let s1 := b.rotateRight 19 ^^^ b.rotateRight 61 ^^^ b >>> 6
    shaSchedule n (((w[15]?).getD 0 + s0 + (w[6]?).getD 0 + s1) :: w)

/-- One round on the eight working words. -/
def shaRound (h : List (BitVec 64)) (kw : BitVec 64 × BitVec 64) : List (BitVec 64) :=
  match h with
  | [a, b, c, d, e, f, g, x] =>
    let t1 := x + (e.rotateRight 14 ^^^ e.rotateRight 18 ^^^ e.rotateRight 41) + ((e &&& f) ^^^ (~~~ e &&& g)) + kw.1 + kw.2
    let t2 := (a.rotateRight 28 ^^^ a.rotateRight 34 ^^^ a.rotateRight 39) + ((a &&& b) ^^^ (a &&& c) ^^^ (b &&& c))
    [t1 + t2, a, b, c, d + t1, e, f, g]
  | _ => h

/-- One block of 128 bytes. -/
def shaBlock (h : List (BitVec 64)) (blk : Bytes) : List (BitVec 64) :=
  let w := shaSchedule 64 ((List.range 16).map fun i => shaWord blk (8 * i)).reverse
  List.zipWith (· + ·) h ((shaK.zip w.reverse).foldl shaRound h)

/-- Some blocks of a padded message. -/
def shaBlocks : Nat → List (BitVec 64) → Bytes → List (BitVec 64)
  | 0, h, _ => h
  | n + 1, h, bs => shaBlocks n (shaBlock h (bs.take 128)) (bs.drop 128)

/-- The message with its padding and its length in bits. -/
def shaPad (bs : Bytes) : Bytes :=
  let z := (239 - bs.length % 128) % 128
  bs ++ [0x80] ++ List.replicate z 0 ++
    ((List.range 16).map fun i => BitVec.ofNat 8 (8 * bs.length / 256 ^ (15 - i)))

/-- SHA-384 of a byte string. -/
def sha384 (bs : Bytes) : BitVec 384 :=
  let m := shaPad bs
  ((shaBlocks (m.length / 128) shaStart m).take 6).foldl (fun x w => x <<< 64 ||| w.zeroExtend 384) 0

/-! ## Points of P-384 -/

/-- The prime of the field of P-384. -/
def p384 : Nat := 2 ^ 384 - 2 ^ 128 - 2 ^ 96 + 2 ^ 32 - 1
/-- The coefficient b of P-384. -/
def b384 : Nat :=
  0xb3312fa7e23ee7e4988e056be3f82d19181d9c6efe8141120314088f5013875ac656398d8a2ed19d2a85c8edd3ec2aef

/-- Whether 97 bytes are an uncompressed point of P-384 (R44, R46). -/
def onP384 (v : BitVec 776) : Bool :=
  let x := v.toNat / 2 ^ 384 % 2 ^ 384
  let y := v.toNat % 2 ^ 384
  v.toNat / 2 ^ 768 == 4 && decide (x < p384 ∧ y < p384) && (y * y + 3 * x) % p384 == (x * x * x + b384) % p384

/-! ## Jutos frames -/

/-- Bytes 0 to 15 of the Jutos header (R38), which are the additional authenticated data (R39). -/
def jutosHeader (version kind session frag : BitVec 8) (seq : Word) (bodyLen reserved : BitVec 16) : BitVec 128 :=
  version ++ kind ++ session ++ frag ++ seq ++ bodyLen ++ reserved

/-- The GCM nonce: the salt of the stream's key, then SEQ (R39). -/
def nonceOf (k : SealKey) (seq : Word) : BitVec 96 := k.salt ++ seq

/-- The seal under which a received frame must verify (R36, R39). -/
def sealOfFrame (k : SealKey) (f : JutosFrame) : Seal :=
  { key := k.key, nonce := nonceOf k f.seq,
    aad := jutosHeader f.version f.kind f.session f.frag f.seq f.bodyLen f.reserved }

/-- How many frames a body takes (R40). -/
def fragments (body : Nat) : Nat := max 1 ((body + 8191) / 8192)

/-- The seals of the frames of a body that the device sends from a SEQ on: every frame but the last carries 8,192 B (R39, R40). -/
def sealsOf (k : SealKey) (kind : BitVec 8) (sid seq body : Nat) : List Seal :=
  let n := fragments body
  (List.range n).map fun i =>
    let q : Word := BitVec.ofNat 64 (seq + i)
    { key := k.key, nonce := nonceOf k q,
      aad := jutosHeader 1 kind (BitVec.ofNat 8 sid) (BitVec.ofNat 8 (16 * i + n)) q
        (BitVec.ofNat 16 (if i + 1 = n then body - 8192 * i else 8192)) 0 }

/-! ## The open exchange -/

/-- The bytes 0 to 229 of an open request's body (R44). -/
def openBytes (r : OpenReq) : Bytes :=
  toBytes 1 r.openVer.toNat ++ toBytes 1 r.access.toNat ++ toBytes 2 r.reserved.toNat ++ toBytes 32 r.hostNonce.toNat ++
    toBytes 97 r.hostEph.toNat ++ toBytes 97 r.opKey.toNat

/-- What OP_SIG must sign: the bytes 0 to 229, then the device's SERIAL (R44). -/
def openDigest (r : OpenReq) (serial : Nat) : BitVec 384 := sha384 (openBytes r ++ toBytes 8 serial)

/-- The end of an open reply with STATUS OK (R45): DEV_NONCE, the public key of the ephemeral draw, and the signature by the identity
key over the request's body and the bytes 0 to 132 of the reply. -/
def openTail (identKey nonce eph : Nat) (r : OpenReq) (sid granted : Nat) : OpenTail :=
  let n : BitVec 256 := BitVec.ofNat 256 nonce
  let e : BitVec 776 := BitVec.ofNat 776 (Config.ephPoint eph)
  let head := toBytes 2 0 ++ toBytes 1 sid ++ toBytes 1 granted ++ toBytes 32 n.toNat ++ toBytes 97 e.toNat
  { nonce := n, eph := e,
    sig := BitVec.ofNat 768 (Config.ecdsa identKey (sha384 (openBytes r ++ toBytes 96 r.opSig.toNat ++ head)).toNat) }

/-- The four keys of a session with their salts: HKDF-SHA-384 of the shared secret under both nonces and the four labels (R47). -/
def sessKeys (eph : Nat) (r : OpenReq) (nonce : BitVec 256) : SessKeys :=
  let z := Config.ecdh eph r.hostEph.toNat
  let salt := r.hostNonce.toNat * 2 ^ 256 + nonce.toNat
  let key (info : String) : SealKey :=
    let v : BitVec 288 := BitVec.ofNat 288 (Config.hkdf z salt info)
    { key := v.extractLsb' 32 256, salt := v.extractLsb' 0 32 }
  { cmdIn := key "JUTOS CMD H2D", cmdOut := key "JUTOS CMD D2H", piIn := key "JUTOS PI H2D", piOut := key "JUTOS PI D2H" }

end Sys2Proof.Machine
end

