-- ==== Sys2Proof/Machine/Counters.lean ====
section
/-! DEFINITION. Counters, performance counters and telemetry records (R14, R500 to R502, R507 to R509). -/
namespace Sys2Proof.Machine

/-! ## Sessions -/

/-- What the device keeps of a session. -/
def getSess (s : State) (n : Nat) : Sess := tabGet s.cmd.sess n Sess.closed
/-- See `getSess`. -/
def setSess (s : State) (n : Nat) (x : Sess) : State :=
  { s with cmd := { s.cmd with sess := tabSet s.cmd.sess n x Sess.closed } }
/-- The status object of a session (R76). -/
def sessKey (n : Nat) : Key := obj .sessStatus n
/-- Whether a session is open (R48). -/
def sessOpen (s : State) (n : Nat) : Bool := rd s (sessKey n) SessStatus.STATE != 0
/-- The sessions that are open. -/
def openSessions (s : State) : List Nat := (List.range 64).filter (sessOpen s)

/-- The access types of R42. -/
def accRead : Nat := 0
/-- See `accRead`. -/
def accConfig : Nat := 1
/-- See `accRead`. -/
def accKeys : Nat := 2
/-- See `accRead`. -/
def accUpdate : Nat := 3
/-- See `accRead`. -/
def accControl : Nat := 4
/-- See `accRead`. -/
def accProvision : Nat := 5

/-- Whether a session holds an access type. -/
def holds (s : State) (n acc : Nat) : Bool := (rd s (sessKey n) SessStatus.GRANTED).testBit acc

/-- The keys of a session, zero when it has none. -/
def keysOf (s : State) (n : Nat) : SessKeys :=
  (getSess s n).keys.getD ⟨⟨0, 0⟩, ⟨0, 0⟩, ⟨0, 0⟩, ⟨0, 0⟩⟩

/-- The seals of the frames of a reply, or of an event, that a session sends next (R39, R40, R50). -/
def cmdSeals (s : State) (n : Nat) (kind : BitVec 8) (body : Nat) : List Seal :=
  sealsOf (keysOf s n).cmdOut kind n (rd s (sessKey n) SessStatus.NEXT_SEQ) body

/-! ## Punts (R64, R66, R75) -/

/-- The session that receives punts, when it is open and holds CONFIG (R75). -/
def puntSession (s : State) : Option Nat :=
  let n := rd s (obj .sessSet) SessSet.PUNT_SESSION
  if flag s (obj .sessSet) SessSet.PUNT_EN && sessOpen s n && holds s n accConfig then some n else none

/-- A punt leaves, in as many fragments as it needs (R40, R66). -/
def sendPunt (n : Nat) (x : Punt) (s : State) : State :=
  let y := getSess s n
  let s := emit s (.punt y.port y.mac n y.piSeq x (sealsOf (keysOf s n).piOut 0x10 n y.piSeq (32 + x.kept)))
  setSess s n { y with piSeq := y.piSeq + fragments (32 + x.kept) }

/-- A management port sends what is ready in order: the punts that wait to leave by a port go before a reply or an event that becomes
ready on it (R66); in the safe state no punt is sent (R484), and none is at hand while the bridge does not bring its bytes (R22). -/
def puntsBefore (p : MgmtPort) (s : State) : State :=
  match puntSession s with
  | some n =>
    if inSafe s || chanState s 1 != 1 || (getSess s n).port != p then s
    else forAll s.cmd.puntQ (sendPunt n) { s with cmd := { s.cmd with puntQ := [] } }
  | none => s

/-! ## Telemetry (R508, R509) -/

/-- The bytes of a record in an event frame. -/
def TelRec.bytes : TelRec → Nat
  | .fault _ => 68
  | .state _ _ _ => 36
  | .sample _ _ => 24
  | .sweep _ _ n => 20 + n
  | .overflow _ _ _ _ _ => 44

/-- The bytes of the records that wait in a session. -/
def waitingBytes (x : Sess) : Nat := (x.recs.map TelRec.bytes).sum

/-- Send the records that wait in a session as one event frame, under the session's SEQ stream (R50, R508). -/
def sendEvents (n : Nat) (s : State) : State :=
  let x := getSess s n
  if x.recs.isEmpty then s
  else
    let s := puntsBefore x.port s
    let q := rd s (sessKey n) SessStatus.NEXT_SEQ
    let s := emit s (.event x.port x.mac n q x.evSeq x.evLost x.recs (cmdSeals s n 5 (16 + waitingBytes x)))
    let s := setSess s n { getSess s n with recs := [], evSeq := x.evSeq + x.recs.length, evLost := 0 }
    wr s (sessKey n) SessStatus.NEXT_SEQ (q + 1)

/-- The counter list a counter belongs to, its place in the list and the object whose list it is (R501). -/
def ctrPlace (k : Key) : Nat × Nat × Nat :=
  let l := match k.ty with
    | .tieCtr | .svcCtr | .grpSwCtr | .msGctr | .poolGctr | .vqCtr | .eqCtr | .rtCtr | .hbRqCtr | .mirCtr => 1
    | .trCtr | .lostCtr => 2
    | _ => 0
  match k.ty with
  | .cmdCtr => (l, outerOf k, innerOf k)
  | .tieCtr | .grpSwCtr | .lostCtr => (l, 0, outerOf k)
  | _ => if (descOf k.ty).n2 = 1 then (l, outerOf k, 0) else (l, innerOf k, outerOf k)

/-- Whether an enabled selector aims at an event of an object (R501). -/
def perfHit (s : State) (p ev inst : Nat) : Bool :=
  let k := obj .perfSel p
  flag s k PerfSel.EN && rd s k PerfSel.EVENT == ev &&
    (rd s k PerfSel.INST == inst || rd s k PerfSel.INST == 0x1FFFFF)

/-- The performance counters of a block. -/
def perfOf (blk : Nat) : List Nat := (List.range 4).map fun n => 4 * blockIx blk + n

/-- Count an event of the telemetry itself, and in the performance counters aimed at it; a crossing that this makes is not sampled, as the
sample would be such an event (log entry 62). -/
def countQuiet (k : Key) (s : State) : State :=
  let (l, i, inst) := ctrPlace k
  let up (k : Key) (s : State) : State := wrWord s k ((rdWord s k + 1) % 2 ^ 64)
  forAll (perfOf (blockOf k)) (fun p s => if perfHit s p (l * 256 + i) inst then up (obj .perfCnt p) s else s) (up k s)

/-- A record for a session: its frame goes when it is full; a record that finds 1 MB waiting is dropped (R508, R509). -/
def pushRecord (n : Nat) (r : TelRec) (s : State) : State :=
  let s := if 16 + waitingBytes (getSess s n) + r.bytes > 8192 then sendEvents n s else s
  let x := getSess s n
  if waitingBytes x + r.bytes > 2 ^ 20 then
    let s := setSess s n { x with evLost := x.evLost + 1 }
    countQuiet (obj .cntCtr 4) (countQuiet (obj .lostCtr n) s)
  else
    let s := setSess s n { x with recs := x.recs ++ [r], recsFrom := if x.recs.isEmpty then s.clock else x.recsFrom }
    if 16 + waitingBytes (getSess s n) = 8192 then sendEvents n s else s

/-- The open sessions whose subscription has a stream's bit set (R507). -/
def subscribers (s : State) (bit : Nat) : List Nat :=
  (openSessions s).filter fun n =>
    match (getSess s n).sub with
    | some u => u.streams.getLsbD bit
    | none => false

/-- A record for every session that has subscribed to its stream. -/
def publish (bit : Nat) (r : TelRec) (s : State) : State := forAll (subscribers s bit) (fun n => pushRecord n r) s

/-- The first 16 B of an object, as a state event carries them. -/
def head16 (s : State) (k : Key) : Nat := rdWord s k / 2 ^ (8 * (sizeOf k - 16))

/-- Raise a state event for an object whose state changed (R508, TYPE 0x02). -/
def stateEvent (k : Key) (s : State) : State := publish 1 (.state (addrOf k) (nowNs s) (head16 s k)) s

/-! ## Counters -/

/-- The object whose event an overflow sample names: the queue state, port or link object (R502); zero for others. -/
def ctrContext (k : Key) : ObjAddr :=
  match k.ty with
  | .lpCtr => addrOf (obj .lpCtl (outerOf k))
  | .tfuCtr => addrOf (obj .frCtl (outerOf k))
  | .msCtr => addrOf (obj .msPort (outerOf k))
  | .egCtr => addrOf (obj .shPort (outerOf k))
  | .vqCtr => addrOf (obj .vqState (outerOf k))
  | .eqCtr => addrOf (obj .eqState (outerOf k))
  | .flCtr => addrOf (obj .flCtl (outerOf k))
  | .rlCtr => if outerOf k < 64 then addrOf (obj .flCtl (outerOf k)) else 0
  | _ => 0

/-- Capture an overflow sample of a performance counter, or count it as suppressed within 1 µs of the last (R502). -/
def overflowSample (p count : Nat) (ctx : ObjAddr) (s : State) : State :=
  let sup := (tabGet s.cnt.samples p (0, 0)).2
  let last := (tabGet? s.cnt.samples p).map Prod.fst
  let cap (i : Nat) (s : State) : State := countQuiet (obj .cntCtr i) s
  match last with
  | some t =>
    if within s t 1000 then
      cap 3 { s with cnt := { s.cnt with samples := tabPut s.cnt.samples p (t, sup + 1) } }
    else
      publish 4 (.overflow (nowNs s) (addrOf (obj .perfCnt p)) count ctx sup)
        (cap 2 { s with cnt := { s.cnt with samples := tabPut s.cnt.samples p (s.clock, 0) } })
  | none =>
    publish 4 (.overflow (nowNs s) (addrOf (obj .perfCnt p)) count ctx 0)
      (cap 2 { s with cnt := { s.cnt with samples := tabPut s.cnt.samples p (s.clock, 0) } })

/-- Add n to a performance counter, which wraps (R14, R500); a crossing of a multiple of 2^k is sampled (R502). -/
def perfAdd (p n : Nat) (ctx : ObjAddr) (s : State) : State :=
  let k := rd s (obj .perfSel p) PerfSel.SAMPLE_LOG2
  let old := rdWord s (obj .perfCnt p)
  let s := wrWord s (obj .perfCnt p) ((old + n) % 2 ^ 64)
  if k = 0 ∨ old / 2 ^ k = (old + n) / 2 ^ k then s else overflowSample p ((old + n) % 2 ^ 64) ctx s

/-- Add n to a counter, which wraps (R14), and to the performance counters aimed at it (R501). -/
def bumpBy (k : Key) (n : Nat) (ctx : ObjAddr) (s : State) : State :=
  let s := wrWord s k ((rdWord s k + n) % 2 ^ 64)
  let (l, i, inst) := ctrPlace k
  forAll (perfOf (blockOf k)) (fun p s => if perfHit s p (l * 256 + i) inst then perfAdd p n ctx s else s) s

/-- Add one to counter j2 of object j1 of a counter type. -/
def bump (ty : ObjTy) (j1 : Nat) (j2 : Nat := 0) (n : Nat := 1) (s : State) : State :=
  let k := obj ty (j1 * (descOf ty).n2 + j2)
  bumpBy k n (ctrContext k) s

/-- Let common time run for n ns: a slew moves it by at most 200 ppm beside (R429), and every 100 ns the table builder has made one more
change (R145). -/
def runTime (n : Nat) (s : State) : State :=
  let most : Int := (n * 131072 / 10000 : Nat)
  let d := max (-most) (min most s.time.slew)
  { s with clock := s.clock + n, ct := ((s.ct : Int) + 65536 * n + d).toNat, time := { s.time with slew := s.time.slew - d },
           tbl := { s.tbl with unbuilt := s.tbl.unbuilt - ((s.clock + n) / 100 - s.clock / 100) } }

/-- Let n ns pass: the clock, common time, and the cycles of the islands whose performance counters count them (R501). -/
def advance (n : Nat) (s : State) : State :=
  let t := s.clock
  let s := runTime n s
  let on := (List.range (4 * allBlocks.length)).filter fun p => flag s (obj .perfSel p) PerfSel.EN &&
    rd s (obj .perfSel p) PerfSel.EVENT == 0xFF00
  forAll on (fun p s =>
    let f := islandMHz ((allBlocks[p / 4]?).getD 0)
    perfAdd p ((t + n) * f / 1000 - t * f / 1000) 0 s) s

/-- Common time, and the clock with it, is at least t: an event scheduled for common time t has come (R17). -/
def reach (t : Nat) (s : State) : State :=
  let dt := t - s.ct
  if dt = 0 then s else advance (if 0 ≤ s.time.slew then (dt + 65535) / 65536 else (dt + 65521) / 65522) s

/-- The clock is at least t: an interval of the device's own clock has ended. -/
def due (t : Nat) (s : State) : State := if s.clock < t then advance (t - s.clock) s else s

/-- An interval that ends at t by the measure of intervals has ended. -/
def reachIvl (t : Nat) (s : State) : State := reach (s.ct + (t - ivl s)) s

end Sys2Proof.Machine
end

