-- ==== Sys2Proof/Machine/Crc.lean ====
section
/-! DEFINITION. CRC-32C, as the HASH operation, the fabric plan hash and the cable check use it (R88, R347). -/
namespace Sys2Proof.Machine

/-- One bit of CRC-32C, least significant bit first: polynomial 0x1EDC6F41, reflected. -/
def crcBit (c : BitVec 32) : BitVec 32 := if c.getLsbD 0 then (c >>> 1) ^^^ 0x82F63B78#32 else c >>> 1

/-- Eight bits. -/
def crcByte (c : BitVec 32) (b : BitVec 8) : BitVec 32 :=
  crcBit (crcBit (crcBit (crcBit (crcBit (crcBit (crcBit (crcBit (c ^^^ b.zeroExtend 32))))))))

/-- The CRC-32C register after some bytes. -/
def crcRun (c : BitVec 32) : Bytes → BitVec 32
  | [] => c
  | b :: r => crcRun (crcByte c b) r

/-- CRC-32C of a byte string, initial value and final inversion all ones. -/
def crc32c (bs : Bytes) : BitVec 32 := ~~~ crcRun 0xFFFFFFFF#32 bs

end Sys2Proof.Machine
end

