-- ==== Sys2Proof/Machine/Links.lean ====
section
/-! DEFINITION. Fabric links and routes: the plan, its cabling rule, link states, link-state records, the route table and
the choice of a link for a cell (R341 to R355, R375, R389). -/
namespace Sys2Proof.Machine

/-! ## The plan (R343 to R345) -/

/-- A dimension of a plan: its size, base link, and the place of its coordinate in an address. -/
structure Dim where
  size  : Nat
  base  : Nat
  shift : Nat
  width : Nat
  deriving DecidableEq, Repr

/-- The dimensions of a plan (R343, R344). -/
def dimsOf (p : Plan) : List Dim :=
  match p.cls with
  | 1 => [⟨p.sx, 0, 0, 12⟩]
  | 2 => [⟨p.sx, 0, 0, 5⟩, ⟨p.sy, 32, 5, 5⟩]
  | 3 => [⟨p.sx, 0, 0, 4⟩, ⟨p.sy, 16, 4, 4⟩, ⟨p.sz, 32, 8, 4⟩]
  | _ => []

/-- The coordinate of an address in a dimension. -/
def coord (d : Dim) (a : Nat) : Nat := bitsAt a d.shift d.width
/-- An address with its coordinate in a dimension replaced. -/
def setCoord (d : Dim) (a v : Nat) : Nat := putBits a d.shift d.width v

/-- Whether an address lies in the plan (R343). -/
def inPlan (p : Plan) (a : Nat) : Bool :=
  decide (a < 4096) && (dimsOf p).all (fun d => decide (coord d a < d.size)) && (p.cls != 2 || a / 1024 == 0)

/-- The link towards coordinate v of a dimension, and the link of the far end (R344). -/
def linkTowards (d : Dim) (a v : Nat) : Nat × Nat :=
  let c := coord d a
  (d.base + (if v < c then v else v - 1), d.base + (if c < v then c else c - 1))

/-- Where a link of a node leads under the plan: its dimension, the neighbour and the far end's link (R344, R345). -/
def farEnd (p : Plan) (a k : Nat) : Option (Nat × Nat × Nat) :=
  let ds := dimsOf p
  let plain := (List.range ds.length).findSome? fun i =>
    match ds[i]? with
    | some d =>
      if d.base ≤ k ∧ k + 1 < d.base + d.size then
        let j := k - d.base
        let v := if j < coord d a then j else j + 1
        some (i, setCoord d a v, (linkTowards d a v).2)
      else none
    | none => none
  match plain with
  | some x => some x
  | none =>
    if p.cls ≠ 3 ∨ p.dbl = 0 then none
    else
      match ds[p.dbl - 1]? with
      | none => none
      | some d =>
        let c := coord d a
        let third (x : Nat) := some (p.dbl - 1, setCoord d a (c ^^^ x), k)
        if k = 15 then third 1
        else if k = 31 then third 2
        else if k = 47 then third 4
        else if k = 63 then third 8
        else if 48 ≤ k ∧ k ≤ 62 then
          let j := k - 48
          let v := if j < c then j else j + 1
          some (p.dbl - 1, setCoord d a v, 48 + ((linkTowards d a v).2 - d.base))
        else none

/-- The links that the plan in force uses (R342). -/
def planLinks (p : Plan) : List Nat := (List.range 64).filter fun k => (farEnd p p.addr k).isSome

/-- The hash of a plan: CRC-32C of CLASS, the sizes and DBL (R347). -/
def planHash (p : Plan) : Nat := (crc32c ([p.cls, p.sx, p.sy, p.sz, p.dbl].map (BitVec.ofNat 8))).toNat

/-! ## Link states (R346) -/

/-- STATE of a link: UNUSED, DOWN, TRAINING, HELLO, UP, QUARANTINED, MISMATCH (R365). -/
def lsUnused : Nat := 0
/-- See `lsUnused`. -/
def lsDown : Nat := 1
/-- See `lsUnused`. -/
def lsTraining : Nat := 2
/-- See `lsUnused`. -/
def lsHello : Nat := 3
/-- See `lsUnused`. -/
def lsUp : Nat := 4
/-- See `lsUnused`. -/
def lsQuar : Nat := 5
/-- See `lsUnused`. -/
def lsMismatch : Nat := 6

/-- The status object of a link (R365). -/
def flKey (k : Nat) : Key := obj .flStatus k
/-- The state of a link. -/
def linkState (s : State) (k : Nat) : Nat := rd s (flKey k) FlStatus.STATE
/-- Whether a link is UP. -/
def linkUp? (s : State) (k : Nat) : Bool := linkState s k == lsUp
/-- The links that are UP. -/
def upLinks (s : State) : List Nat := (List.range 64).filter (linkUp? s)
/-- A set of links as a mask. -/
def maskOf (l : List Nat) : Nat := (l.map fun k => 2 ^ k).sum

/-- What the model keeps of a link. -/
def getFl (s : State) (k : Nat) : Fl := tabGet s.fab.links k Fl.reset
/-- See `getFl`. -/
def setFl (s : State) (k : Nat) (x : Fl) : State :=
  { s with fab := { s.fab with links := tabSet s.fab.links k x Fl.reset } }

/-! ## Records (R350, R351) -/

/-- Send a link-state record on every UP link but one (R351). -/
def floodRecord (r : LinkRecord) (but : Option Nat) (s : State) : State :=
  forAll ((upLinks s).filter fun k => some k != but) (fun k s => emit s (.record k r)) s

/-- The records held, keyed by origin, with one of them replaced or added: one for each SERIAL (R349, R350). -/
def holdRecord (s : State) (r : LinkRecord) : State :=
  let a := r.addr.toNat
  let l := (tabGet s.fab.records a []).filter fun h => h.record.serial != r.serial
  { s with fab := { s.fab with records := tabPut s.fab.records a (l ++ [⟨r, s.clock⟩]), stale := true } }

/-- Generate this node's record and flood it: only once the node has taken fabric time (R350). Its time never decreases (R435). -/
def genRecord (s : State) : State :=
  if s.fab.started then
    let t := max (nowNs s) (s.fab.genTime + 1)
    let r : LinkRecord :=
      { addr := BitVec.ofNat 12 s.fab.plan.addr, serial := BitVec.ofNat 64 s.fuses.serial, time := t,
        mask := BitVec.ofNat 64 (maskOf (upLinks s)), inc := BitVec.ofNat 16 s.fab.inc }
    let s := holdRecord { s with fab := { s.fab with genTime := t } } r
    floodRecord r none s
  else s

/-! ## The route table (R352, R353) -/

/-- A node's entry of the route table. -/
def routeKey (n : Nat) : Key := obj .route n

/-- The mask of a node's UP links by the records: none where the address is held by two SERIALs (R349). -/
def recMask (s : State) (a : Nat) : Nat :=
  if a = s.fab.plan.addr then maskOf (upLinks s)
  else
    match tabGet s.fab.records a [] with
    | [h] => h.record.mask.toNat
    | _ => 0

/-- The usable links of a node: both ends report the link UP (R351); with the neighbour each reaches. -/
def usable (s : State) (a : Nat) : List (Nat × Nat) :=
  (List.range 64).filterMap fun k =>
    match farEnd s.fab.plan a k with
    | some (_, m, far) => if (recMask s a).testBit k && (recMask s m).testBit far then some (k, m) else none
    | none => none

/-- Distances from a node, for as many hops as the fuel says. -/
def distances (s : State) : Nat → Nat → List Nat → Tab Nat → Tab Nat
  | 0, _, _, seen => seen
  | n + 1, h, front, seen =>
    let next := (front.flatMap fun a => (usable s a).map Prod.snd).dedup.filter fun m => (tabGet? seen m).isNone
    if next.isEmpty then seen else distances s n (h + 1) next (next.foldl (fun t m => tabPut t m (h + 1)) seen)

/-- The hops from one node to every node within six (R352). -/
def hopsFrom (s : State) (a : Nat) : Tab Nat := distances s 6 0 [a] [(a, 0)]

/-- Hops to a node by a table of distances, 7 when there is no path of six or fewer. -/
def hopsTo (t : Tab Nat) (n : Nat) : Nat := tabGet t n 7

/-- The entry of a destination: DIST, MIN_MASK, NM_MASK, DUP and SERIAL (R349, R352, R366). -/
def routeEntry (s : State) (own : Tab Nat) (nbr : List (Nat × Tab Nat)) (n : Nat) : Nat :=
  let me := s.fab.plan.addr
  let dup := decide (2 ≤ (tabGet s.fab.records n []).length)
  let dist := if n = me then 0 else if dup then 7 else hopsTo own n
  let by_ (d : Nat) := maskOf ((nbr.filter fun e => hopsTo e.2 n == d).map Prod.fst)
  let reach := decide (1 ≤ dist ∧ dist ≤ 6)
  let serial := if n = me then s.fuses.serial else
    match tabGet s.fab.records n [] with
    | h :: _ => h.record.serial.toNat
    | [] => 0
  let x := putF 0 Route.DIST dist
  let x := putF x Route.MIN_MASK (if reach then by_ (dist - 1) else 0)
  let x := putF x Route.NM_MASK (if reach then by_ dist else 0)
  putF (putF x Route.DUP (if dup then 1 else 0)) Route.SERIAL serial

/-- Whether a node is reachable by the route table. -/
def reachable (s : State) (n : Nat) : Bool := decide (rd s (routeKey n) Route.DIST < 7)

/-- The nodes with a route entry of their own: the own address, every node with a record, and address 0. -/
def routeNodes (s : State) : List Nat := (0 :: s.fab.plan.addr :: s.fab.records.map Prod.fst).dedup

/-- Build the route table from the records held (R352), and note since when a node is unreachable (R360). -/
def rebuildRoutes (s : State) : State :=
  let me := s.fab.plan.addr
  let own := hopsFrom s me
  let nbr := (usable s me).map fun e => (e.1, hopsFrom s e.2)
  let old := s
  let s := { s with regs := s.regs.filter fun e => e.1 % 256 != ObjTy.route.ctorIdx }
  let s := forAll (routeNodes old) (fun n s => wrWord s (routeKey n) (routeEntry old own nbr n)) s
  let un := (List.range 4096).filterMap fun n =>
    if reachable s n then none
    else some (n, if reachable old n then s.clock else tabGet old.fab.unreach n s.clock)
  let lost := un.filter fun e => reachable old e.1 || (tabGet? old.fab.unreach e.1).isSome
  bump .rtCtr 0 3 1 { s with fab := { s.fab with stale := false, unreach := lost } }

/-- Remove a link from every mask at once (R353). -/
def maskOut (k : Nat) (s : State) : State :=
  forAll (routeNodes s) (fun n s =>
    let cut (x : Nat) := x - x / 2 ^ k % 2 * 2 ^ k
    mapF (mapF s (routeKey n) Route.MIN_MASK cut) (routeKey n) Route.NM_MASK cut) s

/-! ## The choice of a link (R355, R375, R389) -/

/-- The links of a mask. -/
def linksOf (m : Nat) : List Nat := (List.range 64).filter fun k => m.testBit k

/-- The first link at or after the round-robin pointer, wrapping. -/
def nextRound (rr : Nat) (l : List Nat) : Option Nat :=
  match l.find? fun k => decide (rr ≤ k) with
  | some k => some k
  | none => l.head?

/-- The link of lowest estimate E, ties in round robin (R355). -/
def lowestE (s : State) (l : List Nat) : Option Nat :=
  let e := fun k => (getFl s k).e
  match (l.map e).min? with
  | none => none
  | some m => nextRound s.fab.rr (l.filter fun k => e k == m)

/-- The dimension of a link (R355): the spare links belong to their doubled dimension. -/
def dimOfLink (s : State) (k : Nat) : Nat :=
  match farEnd s.fab.plan s.fab.plan.addr k with
  | some (d, _, _) => d
  | none => 0

/-- The choice of R355 among the links that a filter lets pass: the link, and whether it is a lateral one. -/
def chooseAmong (s : State) (c : Cell) (allow : Nat → Bool) : Option (Nat × Bool) :=
  let n := c.dst.toNat % 4096
  let dist := rd s (routeKey n) Route.DIST
  let ups := fun m => (linksOf m).filter fun k => linkUp? s k && allow k
  let mins := ups (rd s (routeKey n) Route.MIN_MASK)
  let permitted := (ups (rd s (routeKey n) Route.NM_MASK)).filter fun k =>
    !c.derouted.getLsbD (dimOfLink s k) && decide (c.hops.toNat + 1 + dist ≤ 6)
  let sampled := permitted.filter fun k => flag s (flKey k) FlStatus.SAMPLED
  if mins.isEmpty then (lowestE s permitted).map fun k => (k, true)
  else if !flag s (obj .fabSet) FabSet.ADAPT then (nextRound s.fab.rr mins).map fun k => (k, false)
  else
    match lowestE s mins with
    | none => none
    | some best =>
      if c.tc = 7 then some (best, false)
      else
        let e := fun k => (getFl s k).e
        match lowestE s sampled with
        | some nm =>
          if e nm * (dist + 1) + 65536 * rd s (obj .fabSet) FabSet.NM_BIAS < e best * dist then some (nm, true)
          else some (best, false)
        | none => some (best, false)

/-- The coordinate w that copy B of a duplicated cell visits (R389). -/
def copyW (p : Plan) (c : Cell) : Nat :=
  match dimsOf p with
  | d :: _ =>
    let w := (coord d c.dst.toNat + 1) % d.size
    if w = coord d c.src.toNat then (coord d c.dst.toNat + 2) % d.size else w
  | [] => 0

/-- The link of copy B while its own path is UP: first the X link to w, then the other dimensions, last the X hop. -/
def copyBLink (s : State) (c : Cell) : Option (Nat × Bool) :=
  let p := s.fab.plan
  match dimsOf p with
  | [] => none
  | d :: rest =>
    let a := p.addr
    let n := c.dst.toNat % 4096
    let w := copyW p c
    if d.size = 2 then none
    else if coord d a = coord d c.src.toNat ∧ c.hops = 0 then
      let k := (linkTowards d a w).1
      if linkUp? s k then some (k, true) else none
    else if coord d a = w then
      if rest.all fun e => coord e a == coord e n then
        let k := (linkTowards d a (coord d n)).1
        if linkUp? s k then some (k, false) else none
      else chooseAmong s c fun k => dimOfLink s k != 0
    else none

/-- The ordered route towards a node: the first dimension that differs, by the link that R344 names or the one that R345
runs parallel to it when that is not UP (R375). -/
def orderedTowards (s : State) (i v : Nat) : Option Nat :=
  let p := s.fab.plan
  match (dimsOf p)[i]? with
  | none => none
  | some d =>
    let k := (linkTowards d p.addr v).1
    if linkUp? s k then some k
    else if p.cls = 3 ∧ p.dbl = i + 1 ∧ linkUp? s (48 + (k - d.base)) then some (48 + (k - d.base)) else none

/-- The first dimension in which a node differs from this one. -/
def firstDiff (s : State) (n : Nat) : Option Nat :=
  let ds := dimsOf s.fab.plan
  (List.range ds.length).find? fun i =>
    match ds[i]? with
    | some d => coord d s.fab.plan.addr != coord d n
    | none => false

/-- The link of the ordered route to a node. -/
def orderedLink (s : State) (n : Nat) : Option Nat :=
  match firstDiff s n with
  | none => none
  | some i =>
    match (dimsOf s.fab.plan)[i]? with
    | some d => orderedTowards s i (coord d n)
    | none => none

/-- The link a unicast or control cell leaves by, and the cell with the dimension it was derouted in (R355, R375, R389). -/
def chooseLink (s : State) (c : Cell) : Option (Nat × Cell × Bool) :=
  if c.type = 2 then (orderedLink s (c.dst.toNat % 4096)).map fun k => (k, c, false)
  else
    let pick := if c.copy then (copyBLink s c).orElse fun _ => chooseAmong s c fun _ => true
      else chooseAmong s c fun _ => true
    pick.map fun (k, nm) =>
      (k, if nm then { c with derouted := c.derouted ||| BitVec.ofNat 3 (2 ^ dimOfLink s k) } else c, nm)

/-- The virtual channel of a cell (R372, R375). -/
def vcOf (c : Cell) : Nat := if c.type = 2 then 6 else c.hops.toNat

/-- Return the credits of the slots freed on a link in credit words, while no cell waits to carry them (R373). -/
def returnCredits (k : Nat) (s : State) : State :=
  let x := getFl s k
  if x.cells.isEmpty ∧ linkUp? s k then
    forAll x.freed (fun e s => emit s (.credits k e.1 e.2)) (setFl s k { x with freed := [] })
  else s

/-- A slot of a link input is free again (R373). -/
def freeSlot (k vc : Nat) (s : State) : State :=
  let x := getFl s k
  returnCredits k (setFl s k { x with freed := tabPut x.freed vc (tabGet x.freed vc 0 + 1) })

/-- A cell leaves its slot: the slot is free once no copy of the cell waits (R374, R385). -/
def leaveSlot (slot : Option (Nat × Nat × Nat)) (s : State) : State :=
  match slot with
  | none => s
  | some (k, vc, id) =>
    if s.fab.links.any fun e => e.2.cells.any fun c => (c.slot.map fun x => x.2.2) == some id then s else freeSlot k vc s

/-- Queue a cell for a link. -/
def queueCell (k : Nat) (c : FabCell) (s : State) : State :=
  let x := getFl s k
  setFl s k { x with cells := x.cells ++ [c] }

/-- Queue a cell for the link it leaves by, or discard it for want of a route (R355). -/
def routeCell (c : FabCell) (s : State) : State :=
  match if 6 ≤ c.cell.hops.toNat then none else chooseLink s c.cell with
  | none => leaveSlot c.slot (bump .rtCtr 0 2 1 s)
  | some (k, c', nm) =>
    let s := queueCell k { c with cell := c' } { s with fab := { s.fab with rr := (k + 1) % 64 } }
    if nm then bump .flCtr k 6 1 s else s

/-- A cell that has not been sent on a link that is no longer UP is chosen again; a multicast copy goes on the parallel link, or is
discarded and counted (R358, R385). -/
def chooseAgain (k : Nat) (c : FabCell) (s : State) : State :=
  if c.cell.type = 1 then
    let p := s.fab.plan
    let way := match farEnd p p.addr k with
      | some (i, m, _) =>
        match (dimsOf p)[i]? with
        | some d => orderedTowards s i (coord d m)
        | none => none
      | none => none
    match way with
    | some j => queueCell j c s
    | none => leaveSlot c.slot (bump .trCtr 0 7 1 s)
  else routeCell c s

/-! ## A link changes state (R346, R353, R356, R358) -/

/-- The cause flapping, for a sixth entry into DOWN or QUARANTINED within 10 s (R356). -/
def causeFlap : Nat := 12

/-- The state and cause a link ends in: a sixth fall within 10 s quarantines it. -/
def settledState (s : State) (k st cause : Nat) : Nat × Nat :=
  if st = lsDown ∧ 5 ≤ (recent s (getFl s k).falls (10 * sec)).length then (lsQuar, causeFlap) else (st, cause)

/-- Move a link to a state. Leaving UP removes it from every mask and its cells are chosen again; entering UP clears its
estimate and its credits; either makes a new record. A fall is counted. Every change of state raises an event. The fault
message of a quarantine is the caller's. -/
def enterLink (k st cause : Nat) (s : State) : State :=
  let old := linkState s k
  if old = st ∧ rd s (flKey k) FlStatus.CAUSE = cause then s
  else
    let (st, cause) := settledState s k st cause
    let s := wr (wr s (flKey k) FlStatus.STATE st) (flKey k) FlStatus.CAUSE cause
    let x := getFl s k
    let fell := (st == lsDown || st == lsQuar) && old != st
    let falls := if fell then recent s x.falls (10 * sec) ++ [s.clock] else x.falls
    let cells := x.cells
    let x : Fl := { x with since := s.clock, falls := falls, helloN := 0, trial := false, holdAt := s.clock }
    let x : Fl := if st = lsUp then { x with samples := 0, e := 0, spent := [], freed := [] } else x
    let s := setFl s k (if old = lsUp ∧ st ≠ lsUp then { x with cells := [] } else x)
    let s := wr s (flKey k) FlStatus.FLAPS (min falls.length 1023)
    let s := if st = lsUp then wr (wr s (flKey k) FlStatus.SAMPLED 0) (flKey k) FlStatus.CONG 0 else s
    let s := if fell then bump .flCtr k (if st = lsDown then 7 else 5) 1 s else s
    let s := if old = lsUp ∧ st ≠ lsUp then forAll cells (chooseAgain k) (maskOut k s) else s
    let s := if (old == lsUp) != (st == lsUp) then genRecord { s with fab := { s.fab with stale := true } } else s
    if old = st then s else stateEvent (flKey k) s

end Sys2Proof.Machine
end

