-- ==== Sys2Proof/Machine/Report.lean ====
section
/-! DEFINITION. A detection in its block: the queue, the reaction set and the shadow (R474 to R482, R487 to R490). -/
namespace Sys2Proof.Machine

/-- A detection: its source, kind and address; `react` is false for an injection with REACT 0 (R474, R489). -/
structure Report where
  blk    : Nat
  inst   : Nat
  kind   : Nat
  addr   : ObjAddr
  inject : Bool := false
  react  : Bool := true
  reply  : Option Hdr := none
  deriving DecidableEq, Repr

/-- The reaction set of a source and kind (R479). -/
def reactKey (blk inst kind : Nat) : Key := obj .reaction ((blockIx blk * 16 + inst) * 256 + kind)

/-- Whether a source defines a local reaction: the sweep digest mismatch of the cluster stores (R480). -/
def hasLocal (blk inst kind : Nat) : Bool := decide (0x10 ≤ blk ∧ blk ≤ 0x2F ∧ inst ≤ 1 ∧ kind = 6)

/-- Whether a shadow is still open: for 100 us of common time (R487). -/
def shadowOpen (s : State) (h : Shadow) : Bool := decide (ivl s < h.opened + 100000 * 65536)
/-- The earliest open shadow that affects the sources of a block (R487, R488). -/
def shadowOver (s : State) (blk : Nat) : Option Shadow :=
  s.flt.shadows.find? fun h => (h.safe || h.blk == blk) && shadowOpen s h

/-- The occurrences counted in the window of a reaction set, none when it has ended (R481). -/
def countedIn (s : State) (k : Key) : Nat :=
  match tabGet? s.flt.windows (keyNo k) with
  | some t => if within s t (rd s k Reaction.WINDOW * ms) then rd s k Reaction.COUNT else 0
  | none => 0

/-- Actions of a reaction, as ACTIONS holds them: EVENT 4, LOCAL 2, SAFE 1 (R474, R480). -/
def actionsOf (s : State) (r : Report) : Nat :=
  let k := reactKey r.blk r.inst r.kind
  4 * rd s k Reaction.EVENT + (if hasLocal r.blk r.inst r.kind then 2 * rd s k Reaction.LOCAL else 0) +
    rd s k Reaction.SAFE

/-- Queue a message in its block's queue of 16, or count it as lost (R476). -/
def queueMessage (m : FaultMsg) (s : State) : State :=
  let q := tabGet s.flt.queues m.blk []
  if q.length < 16 then
    { s with flt := { s.flt with queues := tabPut s.flt.queues m.blk (q ++ [m]),
                                 react := if m.reacted then s.flt.react ++ [m.blk] else s.flt.react } }
  else
    bump .fltCtr 0 1 1 { s with flt := { s.flt with lost := tabPut s.flt.lost m.blk (tabGet s.flt.lost m.blk 0 + 1) } }

/-- A message of a management core fails the health check (R533). -/
def noteCore (blk : Nat) (s : State) : State := if blk = 1 then { s with upd := { s.upd with coreFault := true } } else s

/-- Handle a detection in its block: a consequential message only goes into the queue; any other is counted, and takes the
reaction at THRESH (R481, R487). Answers the actions taken. -/
def report (r : Report) (s : State) : State × Nat :=
  let s := noteCore r.blk s
  let base : FaultMsg :=
    { blk := r.blk, inst := r.inst, kind := r.kind, addr := r.addr, time := nowNs s, inject := r.inject, reacted := false,
      actions := 0, shadow := none, opens := none, entersSafe := false, reply := r.reply }
  match shadowOver s r.blk with
  | some h => (queueMessage { base with shadow := some h.id } s, 0)
  | none =>
    if !r.react then (queueMessage base s, 0)
    else
      let k := reactKey r.blk r.inst r.kind
      let c := countedIn s k + 1
      if c < rd s k Reaction.THRESH then
        let w := if c = 1 then tabPut s.flt.windows (keyNo k) s.clock else s.flt.windows
        (queueMessage base (wr { s with flt := { s.flt with windows := w } } k Reaction.COUNT c), 0)
      else
        let a := actionsOf s r
        let s := wr { s with flt := { s.flt with windows := tabDel s.flt.windows (keyNo k) } } k Reaction.COUNT 0
        let n := s.flt.shadowN
        let opens := a % 4 != 0 && !r.inject
        let room := decide ((tabGet s.flt.queues r.blk []).length < 16)
        let s := queueMessage { base with reacted := true, actions := a, opens := if opens then some n else none,
                                          entersSafe := a % 2 == 1 && !flag s (obj .fltStatus) FltStatus.SAFE } s
        let s := if a % 2 = 1 ∧ !flag s (obj .fltStatus) FltStatus.SAFE ∧ !room
          then wr s (obj .fltStatus) FltStatus.SAFE_SEQ 0 else s
        if opens then
          ({ s with flt := { s.flt with shadows := s.flt.shadows ++ [⟨n, a % 2 == 1, r.blk, ivl s⟩],
                                        shadowN := n + 1 } }, a)
        else (s, a)

/-- The types of line port (R178): 1 to 4 Ethernet, 5 and 6 framed. -/
def portMode (s : State) (p : Nat) : Nat := rd s (obj .lpCtl p) LpCtl.MODE
/-- Whether a port runs an Ethernet mode. -/
def isEthernet (s : State) (p : Nat) : Bool := decide (1 ≤ portMode s p ∧ portMode s p ≤ 4)
/-- Whether a port runs OTUCn framing. -/
def isFramed (s : State) (p : Nat) : Bool := decide (5 ≤ portMode s p ∧ portMode s p ≤ 6)
/-- Whether a port is administratively up. -/
def adminUp (s : State) (p : Nat) : Bool := flag s (obj .lpCtl p) LpCtl.ADMIN_UP
/-- The line ports. -/
def ports : List Nat := List.range 48

/-- The message of a link that entered quarantine (R356). -/
def quarReport (k : Nat) : Report := { blk := 0x50, inst := 1, kind := 2, addr := addrOf (flKey k) }

/-- Send one Yoke block on a link, in the sequence of blocks (R454, R455). -/
def yokeSend (y : Nat) (load : YokeLoad) (s : State) : State :=
  let s := emit s (.yoke y s.pair.txSeq load (flag s (obj .prCtl) PrCtl.UNIT) (rd s (obj .prStatus) PrStatus.ROLE)
    s.fuses.serial)
  { s with pair := { s.pair with txSeq := s.pair.txSeq + 1 } }

/-- ROLE of a paired unit: NONE, WAITING, ACTIVE, STANDBY (R472). -/
def roleWaiting : Nat := 1
/-- See `roleWaiting`. -/
def roleActive : Nat := 2
/-- See `roleWaiting`. -/
def roleStandby : Nat := 3

/-- Change the role; every change raises an event, and PAIR_ACT is high only while the role is ACTIVE and the device is not
in the safe state (R452, R455). -/
def setRole (role : Nat) (s : State) : State :=
  let old := rd s (obj .prStatus) PrStatus.ROLE
  let s := wr s (obj .prStatus) PrStatus.ROLE role
  let s := { s with pwr := { s.pwr with pairAct := role == roleActive && !inSafe s } }
  if old = role then s else stateEvent (obj .prStatus) s

/-- Do something at most once in d ns for a subject of a source and kind; the time is noted. -/
def atMost (blk inst kind sub d : Nat) (f : State → State) (s : State) : State :=
  let k := ((blockIx blk * 16 + inst) * 256 + kind) * 2 ^ 20 + sub
  match tabGet? s.flt.last k with
  | some t =>
    if within s t d then s else f { s with flt := { s.flt with last := tabPut s.flt.last k s.clock } }
  | none => f { s with flt := { s.flt with last := tabPut s.flt.last k s.clock } }

end Sys2Proof.Machine
end

