-- ==== Sys2Proof/Machine/Originate.lean ====
section
/-! DEFINITION. The pair's roles on protected ports, and frames that the device originates on a line port (R188, R329, R331, R452 to
R456). -/
namespace Sys2Proof.Machine

/-! ## The pair (R452 to R462) -/

/-- PAIR control and status. -/
def prC : Key := obj .prCtl
/-- See `prC`. -/
def prS : Key := obj .prStatus
/-- Whether the unit is one of a pair. -/
def pairOn (s : State) : Bool := flag s prC PrCtl.PAIR_EN
/-- Whether a port is protected (R452). -/
def protPort (s : State) (p : Nat) : Bool := pairOn s && (rd s prC PrCtl.PROT_PORTS).testBit p
/-- The unit's role. -/
def role (s : State) : Nat := rd s prS PrStatus.ROLE
/-- Whether the pair runs in twin mode. -/
def twin (s : State) : Bool := pairOn s && rd s prC PrCtl.MODE == 1
/-- Whether a port is protected and the unit is not active on it: it sends idle (R455, R456). -/
def silent (s : State) (p : Nat) : Bool := protPort s p && role s != roleActive
/-- The Yoke links that are up. -/
def yokesUp (s : State) : List Nat := (List.range 2).filter fun y => (rd s prS PrStatus.YOKE_UP).testBit y

/-! ## Frames that the device originates on a line port (R188, R329, R331, R456) -/

/-- LINK of a line port: down, up, HOLDING, HELD (R202). -/
def linkOf (s : State) (p : Nat) : Nat := rd s (obj .lpStatus p) LpStatus.LINK
/-- Whether a line port is up. -/
def portUp (s : State) (p : Nat) : Bool := linkOf s p == 1

/-- The configured rate of a port in Mb/s, by its mode; that of a framed port is its packet tributary's capacity (R178, R210). -/
def rateMb (s : State) (p : Nat) : Nat :=
  match portMode s p with
  | 0 => 0
  | 1 => 100000
  | 2 => 200000
  | 3 => 400000
  | 4 => 800000
  | _ => 5219 * rd s (obj .frStatus p) FrStatus.PKT_SLOTS

/-- Count a frame that the MAC has sent (R205). -/
def countSent (p len : Nat) (s : State) : State := bump .lpCtr p 9 len (bump .lpCtr p 8 1 s)

/-- Whether what the device originates is a frame of its MAC. -/
def Pdu.isFrame : Pdu → Bool
  | .csf | .localFault | .remoteFault | .idle | .bei | .oduAis => false
  | _ => true

/-- The protection group that a port works in, when it is enabled. -/
def groupOfWork (s : State) (p : Nat) : Option Nat :=
  (List.range 24).find? fun g => flag s (obj .protGrp g) ProtGrp.EN && rd s (obj .protGrp g) ProtGrp.WORK == p

/-- The ports that send what a port transmits: itself, and the protection port of its enabled group (R228). -/
def linesOf (s : State) (p : Nat) : List Nat :=
  p :: match groupOfWork s p with
    | some g => [rd s (obj .protGrp g) ProtGrp.PROT]
    | none => []

/-- The maintenance signal in a framed port's ODUCn, as FORCE_TX counts them: in the safe state AIS (R227, R232). -/
def maintOf (s : State) (p : Nat) : Nat := if inSafe s || s.tfu.aisOdu.contains p then 3 else rd s (obj .frCtl p) FrCtl.FORCE_TX

/-- Put a frame of n bytes on the line. On a framed port it goes as a GFP client data frame, whose header says whether a pFCS follows
(R216), and a maintenance signal in the ODUCn takes the place of what the port's slots carry (R227; log entry 88). -/
def emitLine (p n : Nat) (o : Nat → Out) (s : State) : State :=
  if isFramed s p then
    forAll (linesOf s p) (fun q s =>
      if maintOf s q ≠ 0 then s
      else
        let pfi := rd s (obj .frCtl p) FrCtl.PFCS_TX
        emit (emit s (.gfp q 0 pfi 0 1 (4 + n + 4 * pfi))) (o q)) s
  else emit s (o p)

/-- Whether a gate control list is in force on a port (R328). -/
def gateInForce (s : State) (p : Nat) : Bool := flag s (obj .gateCtl p) GateCtl.IN_FORCE

/-- The frames that wait for a port's MAC. -/
def txOf (s : State) (p : Nat) : List TxFrame := tabGet s.que.tx p []
/-- See `txOf`. -/
def setTx (p : Nat) (l : List TxFrame) (s : State) : State :=
  { s with que := { s.que with tx := tabSet s.que.tx p l [] } }

/-- A frame of the device's own for the MAC. -/
def deviceFrame (kind : Pdu) (args : List Nat) (tc len : Nat) : TxFrame :=
  { body := .device kind args, tc := tc, len := len, win := 0, missed := none, no := none, open_ := false, bad := false }

/-- Send a frame that the device originates: while a gate list is in force it waits for the gate of SVC_TC, a PFC frame ahead of
every other (R331, R333). Nothing leaves a port that is not up, in the safe state, or on which the unit is not active. -/
def originate (p : Nat) (kind : Pdu) (args : List Nat) (len : Nat) (s : State) : State :=
  if !portUp s p || inSafe s || silent s p then s
  else if gateInForce s p then
    let f := deviceFrame kind args (rd s (obj .gateCtl p) GateCtl.SVC_TC) len
    setTx p (if kind = .pfc then f :: txOf s p else txOf s p ++ [f]) s
  else if kind.isFrame then countSent p len (emitLine p len (fun q => .pdu q kind args) s) else emit s (.pdu p kind args)

end Sys2Proof.Machine
end

