-- ==== Sys2Proof/Machine/Servo.lean ====
section
/-! DEFINITION. The servo, the choice of its source, the fabric root and parent, the clock quality and the frequency reference
(R416, R425, R426, R428 to R430, R434 to R439). -/
namespace Sys2Proof.Machine

/-! ## Objects and states -/

/-- Time control and status; frequency and I/O control; a port's time control and status; a fabric link's time. -/
def tmC : Key := obj .tmCtl
/-- See `tmC`. -/
def tmS : Key := obj .tmStatus
/-- See `tmC`. -/
def fqK : Key := obj .fqCtl
/-- See `tmC`. -/
def ptC (p : Nat) : Key := obj .ptCtl p
/-- See `tmC`. -/
def ptS (p : Nat) : Key := obj .ptStatus p
/-- See `tmC`. -/
def ltK (k : Nat) : Key := obj .flTime k

/-- SERVO: FREERUN, ACQUIRE, LOCKED, HOLDOVER, HOLDOVER_OUT (R447). -/
def svFree : Nat := 0
/-- See `svFree`. -/
def svAcquire : Nat := 1
/-- See `svFree`. -/
def svLocked : Nat := 2
/-- See `svFree`. -/
def svHold : Nat := 3
/-- See `svFree`. -/
def svOut : Nat := 4
/-- The servo's state. -/
def servo (s : State) : Nat := rd s tmS TmStatus.SERVO

/-- A field in two's complement. -/
def signedOf (w v : Nat) : Int := (BitVec.ofNat w v).toInt

/-- Common time now, to 0.25 ns, with a correction in that unit (R417, R419). -/
def stamp (s : State) (corr : Nat) : Nat := (((s.ct / 16384 : Nat) : Int) + signedOf 16 corr).toNat * 16384
/-- What TIME keeps of a line port. -/
def ptOf (s : State) (p : Nat) : PortTime := tabGet s.time.ports p PortTime.reset
/-- See `ptOf`. -/
def setPt (p : Nat) (x : PortTime) (s : State) : State :=
  { s with time := { s.time with ports := tabSet s.time.ports p x PortTime.reset } }
/-- A correction of a port in force: a change applies to timestamps taken 1 us after the write (R419). -/
def corrOf (s : State) (p : Nat) (f : Fld) : Nat :=
  match (ptOf s p).corrWas with
  | some (x, t) => if within s t 1000 then getF x f else rd s (ptC p) f
  | none => rd s (ptC p) f
/-- The port time control object is written: the corrections before it stay in force for 1 us (R419). -/
def corrWritten (p old : Nat) (s : State) : State := setPt p { ptOf s p with corrWas := some (old, s.clock) } s

/-- The timestamp of a frame received now on a port: an Ethernet port's has its correction (R419, R420). -/
def rxStamp (s : State) (p : Nat) : Nat := stamp s (if isEthernet s p then corrOf s p PtCtl.TS_ING_CORR else 0)
/-- The timestamp of a frame transmitted now on a port. -/
def txStamp (s : State) (p : Nat) : Nat := stamp s (if isEthernet s p then corrOf s p PtCtl.TS_EG_CORR else 0)

/-- What TIME keeps of a fabric link. -/
def ltOf (s : State) (k : Nat) : LinkTime := tabGet s.time.links k LinkTime.reset
/-- See `ltOf`. -/
def setLt (k : Nat) (x : LinkTime) (s : State) : State :=
  { s with time := { s.time with links := tabSet s.time.links k x LinkTime.reset } }

/-- Whether one list of numbers comes before another: the first that differs decides. -/
def lexBefore : List Nat → List Nat → Bool
  | _, [] => false
  | [], _ :: _ => true
  | a :: l, b :: m => decide (a < b) || (a == b && lexBefore l m)

/-- The element of a list with the least key. -/
def leastBy {α : Type} (key : α → List Nat) (l : List α) : Option α :=
  l.foldl (fun b x => match b with
    | none => some x
    | some y => if lexBefore (key x) (key y) then some x else some y) none

/-! ## Data sets (R425, R434) -/

/-- The clock identity: the MAC address of MA as an EUI-64 (PRESUMED: IEEE 1588, FFFE in the middle). -/
def ownClockId (s : State) : Nat :=
  let m := rd s (obj .mgmtPort 0) MgmtPort.MAC
  m / 2 ^ 24 * 2 ^ 40 + 0xFFFE * 2 ^ 24 + m % 2 ^ 24

/-- A data set of the alternate BMCA. -/
structure DataSet where
  cls       : Nat
  accuracy  : Nat
  variance  : Nat
  prio2     : Nat
  gm        : Nat
  steps     : Nat
  traceTime : Bool
  traceFreq : Bool
  utc       : Int
  deriving DecidableEq, Repr

/-- clockClass of a node without a source, by its servo (R426). -/
def ownClass (s : State) : Nat := if servo s = svHold then 135 else if servo s = svOut then 165 else 248

/-- The default data set: accuracy and variance are unknown (PRESUMED: G.8275.1). -/
def defaultSet (s : State) : DataSet :=
  { cls := ownClass s, accuracy := 0xFE, variance := 0xFFFF, prio2 := rd s tmC TmCtl.PRIORITY2, gm := ownClockId s, steps := 0,
    traceTime := false, traceFreq := false, utc := s.time.utc }
/-- The data set of an Announce message. -/
def masterSet (m : PtpMsg) : DataSet :=
  { cls := m.clockClass, accuracy := m.accuracy, variance := m.variance, prio2 := m.priority2, gm := m.gm.toNat,
    steps := m.stepsRemoved, traceTime := m.traceTime, traceFreq := m.traceFreq, utc := m.utc }
/-- The data set of the virtual port (PRESUMED: the accuracy and variance of G.8275.1, Annex B). -/
def virtualSet (s : State) : DataSet :=
  { cls := rd s fqK FqCtl.VP_CLASS, accuracy := 0x21, variance := 0x4E5D, prio2 := rd s tmC TmCtl.PRIORITY2, gm := ownClockId s,
    steps := 0, traceTime := s.time.todTrace, traceFreq := s.time.todTrace, utc := s.time.utc }

/-- What the alternate BMCA compares, lower first: below class 128 the steps decide before the identity (PRESUMED: G.8275.1). -/
def bmcaKey (d : DataSet) (localPrio : Nat) : List Nat :=
  [d.cls, d.accuracy, d.variance, d.prio2, localPrio] ++ if d.cls ≤ 127 then [d.steps] else [d.gm, d.steps]

/-- Whether a port runs the clock service. -/
def ptpOn (s : State) (p : Nat) : Bool := isEthernet s p && rd s (ptC p) PtCtl.PTP_MODE == 1

/-- The ports that may go to SLAVE, with the foreign master of each (R424, R425). -/
def masterPorts (s : State) : List (Nat × PtpMsg) :=
  ports.filterMap fun p =>
    if ptpOn s p && portUp s p && flag s (ptS p) PtStatus.CAL && !flag s (ptC p) PtCtl.MASTER_ONLY then
      (ptOf s p).master.map fun m => (p, m)
    else none

/-- Whether the virtual port can be used (R441). -/
def virtualOk (s : State) : Bool := flag s fqK FqCtl.PPS_IN_EN && s.time.ppsOk && s.time.todOk

/-- The best of a node's own: the port it comes from, 48 for the virtual port, none for the default data set (R425). -/
def ownBest (s : State) : Option Nat × DataSet :=
  let l : List (Option Nat × DataSet × List Nat) := (masterPorts s).map fun e =>
    (some e.1, masterSet e.2, bmcaKey (masterSet e.2) 128 ++ [e.1])
  let v : List (Option Nat × DataSet × List Nat) :=
    if virtualOk s then [(some 48, virtualSet s, bmcaKey (virtualSet s) 128 ++ [48])] else []
  let d : Option Nat × DataSet × List Nat :=
    (none, defaultSet s, bmcaKey (defaultSet s) (rd s tmC TmCtl.LOCAL_PRIO) ++ [49])
  match leastBy (fun e => e.2.2) (l ++ v ++ [d]) with
  | some e => (e.1, e.2.1)
  | none => (none, defaultSet s)

/-! ## Root and parent (R434, R435) -/

/-- Whether the node is a standalone one (R435). -/
def standalone (s : State) : Bool := s.fab.plan.cls == 0

/-- The root words held on UP links that the node could follow. -/
def heldRoots (s : State) : List (Nat × RootWord) :=
  (upLinks s).filterMap fun k =>
    match (ltOf s k).root with
    | some w => if w.root.toNat ≠ s.fab.plan.addr ∧ w.hops ≤ 5 then some (k, w) else none
    | none => none

/-- What R434 compares, lower first. -/
def rootKey (prio : Nat) (d : DataSet) (root : Nat) : List Nat :=
  [prio, d.cls, d.accuracy, d.variance, d.prio2, d.steps, root]
/-- See `rootKey`. -/
def wordKey (w : RootWord) : List Nat := [w.ftPrio, w.cls, w.accuracy, w.variance, w.prio2, w.steps, w.root.toNat]

/-- The parent link and root word a node follows: none when it is the root, or has not taken fabric time. -/
def following (s : State) : Option (Nat × RootWord) :=
  if standalone s || !s.fab.started then none
  else
    match leastBy (fun e => wordKey e.2) (heldRoots s) with
    | none => none
    | some best =>
      if lexBefore (wordKey best.2) (rootKey (rd s tmC TmCtl.FT_PRIO) (ownBest s).2 s.fab.plan.addr) then
        leastBy (fun e => [e.2.hops, e.1]) ((heldRoots s).filter fun e => wordKey e.2 == wordKey best.2)
      else none

/-- FT_STATE: ALONE, ROOT, FOLLOWING. -/
def ftState (s : State) : Nat :=
  if standalone s then 1 else if !s.fab.started then 0 else if (following s).isSome then 2 else 1
/-- Whether the node is the root. -/
def isRoot (s : State) : Bool := ftState s == 1

/-! ## The servo (R428 to R430) -/

/-- The servo enters ACQUIRE. HO_READY returns to 0 when it leaves LOCKED for it (R430). -/
def toAcquire (s : State) : State :=
  let s := if servo s = svLocked then wr s tmS TmStatus.HO_READY 0 else s
  wr { s with time := { s.time with goodFrom := none, badN := 0, forced := false, wideFrom := none } } tmS TmStatus.SERVO svAcquire

/-- The servo enters FREERUN. -/
def toFree (s : State) : State :=
  let s := wr s tmS TmStatus.HO_READY 0
  wr { s with time := { s.time with goodFrom := none, badN := 0, wideFrom := none } } tmS TmStatus.SERVO svFree

/-- The servo enters HOLDOVER: counted, and the traceable flags kept (R426, R428). -/
def toHold (forced : Bool) (s : State) : State :=
  let f := rd s tmS TmStatus.TIME_TRACEABLE + 2 * rd s tmS TmStatus.FREQ_TRACEABLE
  let t : Time := { s.time with goodFrom := none, badN := 0, wideFrom := none, forced := forced, holdAt := s.clock, flags := f }
  bump .tmCtr 6 0 1 (wr { s with time := t } tmS TmStatus.SERVO svHold)

/-- A fault message of TIME. -/
def timeReport (inst kind : Nat) : Report := { blk := 0x60, inst := inst, kind := kind, addr := addrOf tmS }

/-- Move the servo by whether it has a source (R428); with the actions that the message of a lost source takes. -/
def moveServo (has : Bool) (s : State) : State × Nat :=
  let st := servo s
  if has then
    (if st = svFree ∨ ((st = svHold ∨ st = svOut) ∧ !s.time.forced) then toAcquire s else s, 0)
  else if st = svAcquire then (toFree s, 0)
  else if st = svLocked then
    report (timeReport 1 3) (if flag s tmS TmStatus.HO_READY then toHold false s else toFree s)
  else (s, 0)

/-- The source: SOURCE and SRC_PORT (R428). -/
def sourceOf (s : State) : Nat × Nat :=
  if (following s).isSome then (3, 0)
  else if isRoot s then
    match (ownBest s).1 with
    | some p => if p < 48 then (1, p) else (2, 0)
    | none => (0, 0)
  else (0, 0)

/-- Bring SOURCE up to date and move the servo. -/
def updateSource (s : State) : State × Nat :=
  let (src, p) := sourceOf s
  moveServo (src != 0) (wr (wr s tmS TmStatus.SOURCE src) tmS TmStatus.SRC_PORT p)

/-- Bring ROOT, FT_STATE and the parent up to date; a change of root is counted. A node in LOCKED that starts to follow a new parent or
root more than 100 ns away enters ACQUIRE (R434, R435). -/
def updateRoot (s : State) : State :=
  let f := following s
  let st := ftState s
  let wasRoot := rd s tmS TmStatus.ROOT
  let wasParent := if rd s tmS TmStatus.FT_STATE = 2 then some (rd s tmS TmStatus.FT_PARENT) else none
  let root := match f with
    | some (_, w) => w.root.toNat
    | none => s.fab.plan.addr
  let hops := match f with
    | some (_, w) => w.hops + 1
    | none => 0
  let parent := f.map Prod.fst
  let s := wr (wr (wr s tmS TmStatus.ROOT root) tmS TmStatus.FT_STATE st) tmS TmStatus.FT_HOPS hops
  let s := wr s tmS TmStatus.FT_PARENT (parent.getD 0)
  let s := match wasParent with
    | some k => if parent = some k then s else wr s (ltK k) FlTime.PARENT 0
    | none => s
  let s := match parent with
    | some k => wr s (ltK k) FlTime.PARENT 1
    | none => s
  let s := if root ≠ wasRoot ∧ st ≠ 0 then bump .tmCtr 10 0 1 s else s
  match parent with
  | some k =>
    let far := match (ltOf s k).offset with
      | some o => decide (400 < o.natAbs)
      | none => false
    if far && servo s == svLocked && (wasParent != some k || root != wasRoot) then toAcquire s else s
  | none => s

/-- Bring the clock quality up to date (R426): a follower has the root's, any other node its own servo's. -/
def updateQuality (s : State) : State :=
  let put (c : Nat) (t f : Bool) (s : State) : State :=
    let s := wr s tmS TmStatus.CLOCK_CLASS c
    wr (wr s tmS TmStatus.TIME_TRACEABLE (if t then 1 else 0)) tmS TmStatus.FREQ_TRACEABLE (if f then 1 else 0)
  match following s with
  | some (_, w) =>
    put w.cls (w.flags.getLsbD 0) (w.flags.getLsbD 1) { s with time := { s.time with utc := w.utc } }
  | none =>
    let st := servo s
    if st = svLocked then
      let d := (ownBest s).2
      put d.cls d.traceTime d.traceFreq { s with time := { s.time with utc := d.utc } }
    else if st = svHold then put 135 (s.time.flags % 2 == 1) (s.time.flags / 2 % 2 == 1) s
    else put (ownClass s) false false s

/-! ## The frequency reference (R438, R439) -/

/-- DPLL: FREERUN, LOCKED, HOLDOVER. -/
def dpll (s : State) : Nat := rd s tmS TmStatus.DPLL

/-- The rank of a QL of option I, lower better; none for one that is not a reference's (R438; PRESUMED: G.781). -/
def qlRank (ql : Nat) : Option Nat :=
  match ql with
  | 2 => some 0
  | 4 => some 1
  | 8 => some 2
  | 11 => some 3
  | _ => none

/-- The QL of a reference of the root, none while it has failed (R439). -/
def qlOf (s : State) (r : Nat) : Option Nat :=
  if r = 48 then some (rd s fqK FqCtl.QL_10M)
  else if flag s (ptS r) PtStatus.ESMC_VALID then some (rd s (ptS r) PtStatus.RX_QL) else none

/-- The priority of a reference of the root, 0 for none: an Ethernet line port or the 10 MHz input. -/
def refPrio (s : State) (r : Nat) : Nat :=
  if r = 48 then rd s fqK FqCtl.PRIO_10M else if isEthernet s r then rd s (ptC r) PtCtl.FREQ_PRIO else 0

/-- The references the root may choose, with what decides: QL with QL_EN, then priority, then number. -/
def rootRefs (s : State) : List (Nat × List Nat) :=
  (List.range 49).filterMap fun r =>
    let pr := refPrio s r
    if pr = 0 ∨ s.time.dropped.contains r then none
    else if flag s fqK FqCtl.QL_EN then
      match (qlOf s r).bind qlRank with
      | some q => some (r, [q, pr, r])
      | none => none
    else some (r, [pr, r])

/-- The reference of the DPLL: a follower's is its parent link's clock, numbered from 49 (R438). -/
def refOf (s : State) : Option Nat :=
  match following s with
  | some (k, _) => some (49 + k)
  | none => (leastBy Prod.snd (rootRefs s)).map Prod.fst

/-- The QL of the system's frequency: the root's selected reference, from the root word at any other node; a clock without a reference
sends QL-SEC (R439; PRESUMED: G.8264). -/
def systemQl (s : State) : Nat :=
  match following s with
  | some (_, w) => w.flags.toNat / 4 % 16
  | none =>
    match s.time.ref with
    | some r => if r < 49 then (qlOf s r).getD 11 else 11
    | none => 11

/-- The QL sent on a port: QL-DNU on the one that the root has selected. -/
def qlOn (s : State) (p : Nat) : Nat := if s.time.ref = some p then 15 else systemQl s

/-- Send an ESMC PDU on a port: an event PDU on a change of QL (R439). -/
def sendEsmc (event : Bool) (p : Nat) (s : State) : State :=
  if flag s fqK FqCtl.ESMC_EN && isEthernet s p then originate p .esmc [qlOn s p, if event then 1 else 0] 64 s else s

/-- Bring the reference and the QL up to date. -/
def updateRef (s : State) : State :=
  let r := refOf s
  let was := s.time.ref
  let s := { s with time := { s.time with ref := r } }
  let s := if r ≠ was ∧ r.isSome ∧ was.isSome then bump .tmCtr 7 0 1 s else s
  let s := if r = none ∧ dpll s = 1 then
      wr s tmS TmStatus.DPLL (if s.time.dpllAt + 60 * sec ≤ s.clock then 2 else 0)
    else s
  let q := systemQl s
  if q = s.time.qlSent ∧ r = was then s
  else forAll ports (sendEsmc true) { s with time := { s.time with qlSent := q } }

/-! ## Bringing block TIME up to date -/

/-- Something that TIME chooses by has changed: the root, the source, the quality and the reference follow. Answers the actions of the
message of a lost source. -/
def updateTime (s : State) : State × Nat :=
  let (s, a) := updateSource (updateRoot s)
  (updateRef (updateQuality s), a)

/-- The offset in ns as the status object holds it (R447). -/
def offsetField (off : Int) : Nat :=
  ((2 ^ 32 + max (-(2 ^ 31 - 1)) (min (2 ^ 31 - 1) (off.fdiv 4))) % 2 ^ 32 : Int).toNat

/-- One measurement of the offset to the source, in units of 0.25 ns (R428, R429). -/
def measure (off : Int) (fabric : Bool) (s : State) : State :=
  let s := wr s tmS TmStatus.OFFSET (offsetField off)
  let a := off.natAbs
  let st := servo s
  if st = svAcquire then
    let stepNs := if fabric then 100 else rd s tmC TmCtl.STEP_NS
    if 4 * stepNs < a then
      if s.time.step.isSome then s
      else bump .tmCtr 5 0 1 { s with time := { s.time with step := some (-off * 16384, s.clock), goodFrom := none } }
    else if 4 * rd s tmC TmCtl.LOCK_NS < a then { s with time := { s.time with goodFrom := none } }
    else
      let t0 := s.time.goodFrom.getD s.clock
      if t0 + rd s tmC TmCtl.LOCK_S * sec ≤ s.clock then
        wr { s with time := { s.time with goodFrom := none, badN := 0, lockedAt := s.clock } } tmS TmStatus.SERVO svLocked
      else { s with time := { s.time with goodFrom := some t0 } }
  else if st = svLocked then
    if 4 * rd s tmC TmCtl.UNLOCK_NS < a then
      if 2 ≤ s.time.badN then toAcquire s else { s with time := { s.time with badN := s.time.badN + 1 } }
    else { s with time := { s.time with badN := 0 } }
  else s

end Sys2Proof.Machine
end

