-- ==== Sys2Proof/Machine/Raise.lean ====
section
/-! DEFINITION. Sending a fault message, and the safe state (R474 to R490). -/
namespace Sys2Proof.Machine

/-- Take the actions of the safe state (R483): transmitters send local fault, framed ports ODUCn AIS, every fabric link is
quarantined, a paired unit yields, EMBER and the time outputs stop. -/
def enterSafe (s : State) : State :=
  let s := wr (wr s (obj .fltStatus) FltStatus.SAFE 1) (obj .fltStatus) FltStatus.EMBER_ON 0
  let s := { s with pwr := { s.pwr with ember := false } }
  let s := forAll (ports.filter fun p => isEthernet s p && adminUp s p) (fun p s => emit s (.pdu p .localFault [])) s
  let s := forAll (ports.filter (isFramed s)) (fun p s => emit s (.pdu p .oduAis [])) s
  let s := { s with tfu := { s.tfu with aisOdu := ports.filter (isFramed s) } }
  let s := forAll ((List.range 64).filter fun k => linkState s k != lsUnused) (fun k s =>
    let was := linkState s k
    let s := enterLink k lsQuar 11 s
    if was = lsQuar then s else atMost 0x50 1 2 k sec (fun s => (report (quarReport k) s).1) s) s
  let s :=
    if rd s (obj .prStatus) PrStatus.ROLE = roleActive then
      let s := yokeSend 1 .yieldWord (yokeSend 0 .yieldWord s)
      setRole roleStandby (wr s (obj .prStatus) PrStatus.SYNC 0)
    else s
  bump .fltCtr 0 5 1 (updateTime { s with pwr := { s.pwr with pairAct := false }, time := { s.time with links := [] } }).1

/-- Send a fault message; a reaction with SAFE enters the safe state when the device is not in it (R483). Answers the actions
taken, for a source with a local reaction. -/
def raiseA (r : Report) (s : State) : State × Nat :=
  let (s, a) := report r s
  if a % 2 = 1 ∧ !inSafe s then (enterSafe s, a) else (s, a)

/-- Something that TIME chooses by has changed (R428, R434, R438): its servo, root, quality and reference follow. -/
def timeChanged (s : State) : State :=
  let (s, a) := updateTime s
  if a % 2 = 1 ∧ !inSafe s then enterSafe s else s

/-- Send a fault message from a source that defines no local reaction. -/
def raise (r : Report) (s : State) : State := (raiseA r s).1

/-- Send a fault message of a block instance, with an object's address. -/
def raiseAt (blk inst kind : Nat) (k : Key) (s : State) : State :=
  raise { blk := blk, inst := inst, kind := kind, addr := addrOf k } s

/-- Send a fault message at most once per second for a subject. -/
def raiseEach (blk inst kind sub : Nat) (k : Key) (s : State) : State :=
  atMost blk inst kind sub sec (raiseAt blk inst kind k) s

/-- Move a link to a state and send the message of a quarantine it enters, at most once per second (R356). -/
def moveLink (k st cause : Nat) (s : State) : State :=
  let was := linkState s k
  let s := enterLink k st cause s
  let s := if (was == lsUp) != linkUp? s k then timeChanged (if linkUp? s k then s else setLt k LinkTime.reset s) else s
  if was ≠ lsQuar ∧ linkState s k = lsQuar then raiseEach 0x50 1 2 k (flKey k) s else s

end Sys2Proof.Machine
end

