-- ==== Sys2Proof/Machine/Reset.lean ====
section
/-! DEFINITION. The resets: what each kind clears and the start-up sequence that it runs (R541 to R548). -/
namespace Sys2Proof.Machine

/-- The reset status object (R555). -/
def rstKey : Key := obj .rstStatus

/-- The key of a register number. -/
def keyOfNo (n : Nat) : Option Key := (allTypes[n % 256]?).map fun ty => ⟨ty, n / 256⟩

/-- Whether an object is cleared when some blocks are: the reset status object and what the flash holds are not (R543,
R539). -/
def clearedBy (blks : List Nat) (n : Nat) : Bool :=
  match keyOfNo n with
  | some k => k.ty != .rstStatus && k.ty != .dirRec && blks.contains (blockOf k)
  | none => false

/-- Blocks that a datapath reset clears (R543). -/
def datapathBlocks : List Nat :=
  ecBlocks ++ [0x30, 0x31, 0x32, 0x38, 0x39, 0x3A, 0x40, 0x41, 0x42, 0x48, 0x49, 0x4A, 0x50, 0x51, 0x64]
/-- Blocks that a main reset keeps: MGMT, TIME, FLT, UPD and PWR (R543). -/
def mainKept : List Nat := [0x01, 0x60, 0x68, 0x70, 0x74]
/-- Blocks that a main reset clears. -/
def mainBlocks : List Nat := allBlocks.filter fun b => !mainKept.contains b

/-- Clear a set of blocks: every field to its reset value, arrays, tables, queues and stores emptied (R543). -/
def clearBlocks (blks : List Nat) (s : State) : State :=
  let c := fun b => blks.contains b
  { s with
    regs := s.regs.filter fun e => !clearedBy blks e.1
    cmd := if c 0x02 then Cmd.reset else s.cmd
    bridge := if c 0x78 then Bridge.reset else s.bridge
    flt := if c 0x68 then Flt.reset else
      { s.flt with queues := s.flt.queues.filter fun e => !c e.1
                   react := s.flt.react.filter fun b => !c b
                   windows := s.flt.windows.filter fun e => !clearedBy blks e.1
                   log := if c 0x58 then [] else s.flt.log }
    cnt := if c 0x6C then Cnt.reset else s.cnt
    eng := if c 0x10 then Engine.reset else s.eng
    tbl := if c 0x30 then Lookup.reset else s.tbl
    pat := if c 0x32 then Pat.reset else s.pat
    line := if c 0x38 then Line.reset else s.line
    tfu := if c 0x39 then Tfu.reset else s.tfu
    msec := if c 0x3A then Msec.reset else s.msec
    buf := if c 0x40 then Buf.reset else s.buf
    que := if c 0x48 then Que.reset else s.que
    fab := if c 0x50 then { Fab.reset with inc := s.fab.inc } else s.fab
    hbm := if c 0x58 then [] else s.hbm
    time := if c 0x60 then Time.reset else s.time
    ct := if c 0x60 then 0 else s.ct
    pair := if c 0x64 then Pair.reset else s.pair
    upd := if c 0x70 then { Upd.reset with slots := s.upd.slots, dirSeq := s.upd.dirSeq, dirOld := s.upd.dirOld } else s.upd
    pwr := { s.pwr with fresh := (s.pwr.fresh ++ blks).dedup } }

/-- The highest step n such that every step from 1 to n that the sequence runs has completed (R547). -/
def stepOf (steps done : List Nat) : Nat :=
  ((List.range 12).filter fun n => (List.range n).all fun m => done.contains (m + 1) || !steps.contains (m + 1)).foldl max 0

/-- Steps of the sequence that BOOT_MODE lets run: 10 and 11 stop after step 5 (R542). -/
def bootSteps (s : State) (steps : List Nat) : List Nat :=
  if 2 ≤ rd s rstKey RstStatus.BOOT_MODE then steps.filter fun n => decide (n ≤ 5) else steps

/-- Begin a start-up sequence: EMBER is low, and STEP counts what the sequence does not run as completed (R545, R547 to R549). -/
def beginSequence (steps : List Nat) (skip : Bool) (hdr : Option Hdr) (s : State) : State :=
  let s := wr (wr s rstKey RstStatus.READY 0) rstKey RstStatus.STEP (stepOf steps [])
  let s := wr s (obj .fltStatus) FltStatus.EMBER_ON 0
  { s with pwr := { s.pwr with steps := steps, done := [], startAt := s.clock, skipSet := skip, hdr := hdr, ember := false,
                               pairAct := false } }

/-- Note a reset in the reset status object: its cause, its time and the count since power-on (R555). -/
def noteReset (cause : Nat) (s : State) : State :=
  let s := wr (wr s rstKey RstStatus.CAUSE cause) rstKey RstStatus.RESET_TIME (nowNs s)
  satF s rstKey RstStatus.RESETS

/-- What PWR keeps of its inputs and pins when it is cleared: the levels at the pins are not its own. -/
def clearPower (s : State) : State :=
  { s with pwr := { Pwr.reset with vin := s.pwr.vin, vstby := s.pwr.vstby, nreset := s.pwr.nreset,
                                   peerEmber := s.pwr.peerEmber } }

/-- A pin or device reset: every block is cleared and start-up runs from step 2 (R541, R543). -/
def fullReset (cause : Nat) (skip : Bool) (s : State) : State :=
  let s := clearPower (clearBlocks allBlocks (noteReset cause s))
  beginSequence (bootSteps s [2, 3, 4, 5, 6, 7, 8, 9, 10, 11]) skip none s

/-- A power-on reset: also the reset status object is cleared (R543). -/
def powerOnReset (s : State) : State :=
  let s := clearPower (clearBlocks allBlocks s)
  let s := wrWord s rstKey (putF (resetVal s.fuses rstKey) RstStatus.BOOT_MODE (rd s rstKey RstStatus.BOOT_MODE))
  beginSequence (bootSteps s [1, 2, 3, 4, 5, 6, 7, 8, 9, 10, 11]) false none s

/-- The steps of a main reset (R548). -/
def mainSteps : List Nat := [1, 3, 4, 5, 7, 8, 9, 10, 11]
/-- The steps of a datapath reset (R548). -/
def datapathSteps : List Nat := [4, 7, 8, 9, 10]

/-- Whether an activation, a health window or a fallback is under way (R544). -/
def updating (s : State) : Bool := rd s (obj .updStatus) UpdStatus.ACT_STATE != 0

/-- A main reset, when VIN is no longer good and VSTBY stays good (R543, R544); standby steps of a start-up that it interrupts and that
have not completed are still run (R550). The log in HBM is lost; UPD loses its lease
and its staging area; the servo loses its source under R428, which the caller applies. -/
def mainReset (s : State) : State :=
  let todev := updating s
  let s := clearBlocks mainBlocks (noteReset 1 s)
  let s := { s with upd := { s.upd with leaseS := 0, blocks := [], staged := none, verify := none, commit := none, save := none } }
  let u := obj .updStatus
  let s := wr (wr (wr (wr s u UpdStatus.HOLDER 255) u UpdStatus.LEASE_LEFT 0) u UpdStatus.STAGE 0) u UpdStatus.BLOCKS 0
  let old := match s.flt.ring with
    | e :: _ => e.seq
    | [] => 0
  let s := wr (wr s (obj .fltStatus) FltStatus.OLDEST old) (obj .fltStatus) FltStatus.HBM_OK 0
  let left := s.pwr.steps.filter fun n => (n == 2 || n == 6) && !s.pwr.done.contains n
  let s := beginSequence (bootSteps s (mainSteps ++ left)) (s.pwr.skipSet && !s.pwr.done.contains 8) none s
  { s with pwr := { s.pwr with rails := false, toDevice := s.pwr.toDevice || todev } }

end Sys2Proof.Machine
end

