-- ==== Sys2Proof/Machine/Host.lean ====
section
/-! DEFINITION. The life of a command between its acceptance and its reply: whose turn it is, the checks of R57, refusals
and their logged addresses, replies in order, and what follows a reply (R49, R55 to R62, R73, R554). -/
namespace Sys2Proof.Machine

/-! ## Status codes (R61) -/

/-- Status codes. -/
def stOk : Nat := 0
/-- See `stOk`. -/
def stBusy : Nat := 1
/-- See `stOk`. -/
def stBadOpcode : Nat := 2
/-- See `stOk`. -/
def stBadLength : Nat := 3
/-- See `stOk`. -/
def stRange : Nat := 4
/-- See `stOk`. -/
def stAccess : Nat := 5
/-- See `stOk`. -/
def stState : Nat := 6
/-- See `stOk`. -/
def stAuthFail : Nat := 7
/-- See `stOk`. -/
def stReplay : Nat := 8
/-- See `stOk`. -/
def stLeaseHeld : Nat := 9
/-- See `stOk`. -/
def stNotReady : Nat := 10
/-- See `stOk`. -/
def stIntegrity : Nat := 11

/-- Whether the device logs an address with a status (R61). -/
def logged (st : Nat) : Bool := st ∈ [2, 3, 4, 5, 6, 7, 8, 11]

/-- The address of a session's status object. -/
def sessAddr (n : Nat) : ObjAddr := addrOf (sessKey n)

/-! ## Closing a session (R49, R521) -/

/-- End the update lease: the staging area is cleared (R521). -/
def endLease (s : State) : State :=
  let u := obj .updStatus
  let s := { s with upd := { s.upd with leaseS := 0, blocks := [], staged := none } }
  let s := wr (wr (wr s u UpdStatus.HOLDER 255) u UpdStatus.LEASE_LEFT 0) u UpdStatus.BLOCKS 0
  if s.upd.commit.isSome then s else wr s u UpdStatus.STAGE 0

/-- Close a session: its keys are zeroised, its records discarded, its waiting commands not carried out, its lease ended. -/
def closeSess (n : Nat) (s : State) : State :=
  let s := setSess s n Sess.closed
  let s := wrWord s (sessKey n) (resetVal s.fuses (sessKey n))
  let s := { s with cmd := { s.cmd with waiting := s.cmd.waiting.filter fun w => w.hdr.sid.val != n } }
  if rd s (obj .updStatus) UpdStatus.HOLDER = n then endLease s else s

/-! ## Replies (R55, R58) -/

/-- What follows a reply. -/
def afterReply (n : Nat) (a : AfterReply) (s : State) : State :=
  match a with
  | .nothing => s
  | .closeSession => closeSess n s
  | .closeSlots ks =>
    forAll ((openSessions s).filter fun m => ks.contains (rd s (sessKey m) SessStatus.SLOT)) closeSess s
  | .resetDevice noSet => fullReset 3 noSet s
  | .restartSlot => fullReset 4 false s

/-- A reply leaves behind the punts of its port, under as many SEQs as its body takes frames (R40, R55, R66). No stream wraps (R53):
a session whose stream has no SEQ left sends nothing more. -/
def emitReply (n : Nat) (p : MgmtPort) (mac : BitVec 48) (op st seq : Nat) (addr : ObjAddr) (hint : Nat) (result : Bytes)
    (s : State) : State :=
  let k := sessKey n
  let body := 24 + result.length
  let s := puntsBefore p s
  let q := rd s k SessStatus.NEXT_SEQ
  if 2 ^ 64 ≤ q + fragments body then s
  else
    let s := emit s (.reply p mac n q op st seq addr hint result (cmdSeals s n 2 body))
    wr s k SessStatus.NEXT_SEQ (q + fragments body)

/-- Send the reply of a command and stop counting it as outstanding. Every reply to a BULK_LOAD carries a BAD_INDEX (R143). -/
def sendReply (w : Waiting) (st : Nat) (addr : ObjAddr) (hint : Nat) (result : Bytes) (s : State) : State :=
  let n := w.hdr.sid.val
  let result := if w.op = 0x0305 ∧ result.isEmpty then toBytes 4 0xFFFFFFFF else result
  let k := sessKey n
  let s := emitReply n w.port w.mac w.op st w.hdr.seq.toNat addr hint result s
  let s := if w.counted then mapF s k SessStatus.OUTSTANDING (· - 1) else s
  if rd s k SessStatus.OUTSTANDING = 0 then setSess s n { getSess s n with idleFrom := ivl s } else s

/-- Send the replies of a session that are ready, in the order of its commands (R58). -/
def flushReplies : Nat → Nat → State → State
  | 0, _, s => s
  | fuel + 1, n, s =>
    match s.cmd.waiting.find? fun w => w.hdr.sid.val == n with
    | none => s
    | some w =>
      match w.phase with
      | .done st addr hint result after =>
        let s := { s with cmd := { s.cmd with waiting := s.cmd.waiting.erase w } }
        flushReplies fuel n (afterReply n after (sendReply w st addr hint result s))
      | _ => s

/-- Send what is ready of a session. -/
def flush (n : Nat) (s : State) : State := flushReplies (s.cmd.waiting.length + 1) n s

/-- Change the phase of a command that has not been replied to. -/
def setPhase (c : Hdr) (ph : Phase) (s : State) : State :=
  let put (w : Waiting) : Waiting :=
    match w.phase with
    | .done _ _ _ _ _ => w
    | _ => if w.hdr = c then { w with phase := ph } else w
  { s with cmd := { s.cmd with waiting := s.cmd.waiting.map put } }

/-- The command is done: its reply goes as soon as every earlier reply of its session has gone. -/
def finish (c : Hdr) (st : Nat) (addr : ObjAddr := 0) (hint : Nat := 0) (result : Bytes := [])
    (after : AfterReply := .nothing) (s : State) : State :=
  flush c.sid.val (setPhase c (.done st addr hint result after) s)

/-- The command has taken effect on a block, and its reply comes later. -/
def defer (c : Hdr) (blk : Nat) (s : State) : State := setPhase c (.started blk) s

/-- Answer OK with a result. -/
def ok (c : Hdr) (result : Bytes) (s : State) : State := finish c stOk 0 0 result .nothing s
/-- Answer OK with an empty result. -/
def done (c : Hdr) (s : State) : State := finish c stOk 0 0 [] .nothing s

/-- The port a session's source of CMD faults is: instance 0 for MA, 1 for MB (R62). -/
def portInst : MgmtPort → Nat
  | .ma => 0
  | .mb => 1

/-- The command that has been accepted and not replied to. -/
def waitingOf (s : State) (c : Hdr) : Option Waiting := s.cmd.waiting.find? fun w => w.hdr == c

/-- Answer a command with a status other than OK and a RESULT: a status marked Logged places the address in ADDR and raises a fault
message (R61, R62); BUSY carries a hint (R59). -/
def refuseWith (c : Hdr) (st : Nat) (addr : ObjAddr) (result : Bytes) (s : State) : State :=
  let inst := match waitingOf s c with
    | some w => portInst w.port
    | none => 0
  if st = stBusy then
    let (h, s) := drawHint s
    finish c st 0 h result .nothing s
  else if logged st then finish c st addr 0 result .nothing (raise { blk := 0x02, inst := inst, kind := st, addr := addr } s)
  else finish c st 0 0 result .nothing s

/-- Answer a command with a status other than OK. -/
def refuse (c : Hdr) (st : Nat) (addr : ObjAddr) (s : State) : State := refuseWith c st addr [] s

/-- Answer BUSY with a hint that the chapter gives, in µs (R59, R73, R108). -/
def busyFor (c : Hdr) (hint : Nat) (s : State) : State := finish c stBusy 0 (max 1 (min hint 65535)) [] .nothing s

/-- Store a written value in an object: RW and WO fields take it, RW1C bits written 1 are cleared, and every other field is left
alone (R10, R11). -/
def storeObj (k : Key) (new : Nat) (s : State) : State :=
  wrWord s k ((fieldsOf k.ty).foldl (fun x d =>
    match d.acc with
    | .rw | .wo => putF x d.f (getF new d.f)
    | .rw1c => putF x d.f (getF x d.f - (getF x d.f &&& getF new d.f))
    | _ => x) (rdWord s k))

/-- Reply to a write that has taken effect: an OBJ_MODIFY returns the value of the object (R70). -/
def replyWith (c : Hdr) (k : Key) (v : Nat) (s : State) : State :=
  match waitingOf s c with
  | some w => if w.op = 0x0203 then ok c (toBytes (sizeOf k) v) s else done c s
  | none => s

/-! ## Whose turn it is, and the checks of R57 -/

/-- Whether a command is a table change that takes its turn (R145). -/
def takesTurn (op : Nat) : Bool := op == 0x0301 || op == 0x0302

/-- The command, when it is the next of its session to take effect (R58) and its session is not closing (R49): a table change may
follow others that wait for their turn, any other command may not. -/
def turnOf (s : State) (c : Hdr) : Option Waiting :=
  if (getSess s c.sid.val).closing then none
  else
    let mine := s.cmd.waiting.filter fun w => w.hdr.sid == c.sid
    match mine.find? fun w => w.phase == .queued with
    | some w => if w.hdr = c ∧ (takesTurn w.op || !mine.any fun v => v.phase == .turn) then some w else none
    | none => none

/-- Whether a block has started: those a datapath reset clears have not while READY is 0 (R545, R555). -/
def blockReady (s : State) (blk : Nat) : Bool := flag s rstKey RstStatus.READY || !datapathBlocks.contains blk

/-- The checks 3 to 5 of R57: the access type, the lengths and reserved fields, the target block. -/
def checkCommand (s : State) (w : Waiting) (acc : Nat) (lenOk resOk ready : Bool) : Option Nat :=
  if !holds s w.hdr.sid.val acc then some stAccess
  else if !lenOk || w.body != w.plen + 8 then some stBadLength
  else if w.res != 0 || !resOk then some stRange
  else if !ready then some stNotReady
  else none

/-- Run a command of an opcode when it is its turn. -/
def onTurn (c : Hdr) (op : Nat) (f : Waiting → State → State) (s : State) : State :=
  match turnOf s c with
  | some w => if w.op = op then f w s else s
  | none => s

/-- Run a command when it is its turn and the checks 3 to 5 of R57 pass; else answer the first that fails, with the address
of the object it names. A command to a block of the QD waits while the bridge is not up (R19, R22). -/
def checked (c : Hdr) (op acc : Nat) (lenOk : Nat → Bool) (resOk : Bool) (blk : Nat) (addr : ObjAddr) (f : State → State)
    (s : State) : State :=
  onTurn c op (fun w s =>
    match checkCommand s w acc (lenOk w.plen) resOk (blockReady s blk) with
    | some st => refuse c st addr s
    | none => if bridgeWaits s blk then s else f s) s

/-- Carry on when a condition holds, else answer a status. -/
def need (c : Hdr) (cond : Bool) (st : Nat) (addr : ObjAddr) (f : State → State) (s : State) : State :=
  if cond then f s else refuse c st addr s

end Sys2Proof.Machine
end

