-- ==== Sys2Proof/Machine/Command.lean ====
section
/-! DEFINITION. Management frames, sessions and their windows, punts and event frames (R34 to R66, R74 to R76). -/
namespace Sys2Proof.Machine

/-- What a meaning answers. -/
abbrev Answer := Host.Outcome State Fault Refusal

/-- Count on the port's instance of a CMD counter (R76). -/
def cmdCount (k : Nat) (p : MgmtPort) (s : State) : State := bump .cmdCtr k (portInst p) 1 s

/-- The object of a management port (R74). -/
def mgmtKey (p : MgmtPort) : Key := obj .mgmtPort (portInst p)

/-! ## The checks of R36 -/

/-- Check 3 of R36: untagged, or exactly one tag with the port's VID. -/
def tagOkOn (s : State) (p : MgmtPort) (vids : List (BitVec 12)) : Bool :=
  if flag s (mgmtKey p) MgmtPort.VLAN_EN then vids.map BitVec.toNat == [rd s (mgmtKey p) MgmtPort.VID] else vids.isEmpty

/-- Fragment index and count of FRAG (R38). -/
def fragIx (f : JutosFrame) : Nat := f.frag.toNat / 16
/-- See `fragIx`. -/
def fragCount (f : JutosFrame) : Nat := f.frag.toNat % 16

/-- Check 5 of R36: version, kind, session, fragment, reserved bytes and BODY_LEN (R38, R40). A frame shorter than 64 B is
padded to 64 B. -/
def headerOk (f : JutosFrame) : Bool :=
  let sealed : Nat := if f.kind = 3 then 0 else 16
  let size := 14 + 4 * f.vids.length + 16 + f.bodyLen.toNat + sealed + 4
  f.version == 1 &&
    (if f.etherType = 0x88B5 then f.kind == 1 || f.kind == 3 else f.kind == 0x11) &&
    (if f.kind = 3 then f.session == 0xFF && f.frag == 1
     else decide (f.session.toNat < 64 ∧ fragIx f < fragCount f ∧ fragCount f ≤ 9)) &&
    f.reserved == 0 && decide (1 ≤ f.bodyLen.toNat ∧ f.bodyLen.toNat ≤ 8192 ∧ f.len = max size 64)

/-- The first check of R36 that a frame fails before its tag is verified, as the number of its counter (R76). -/
def frameFails (s : State) (p : MgmtPort) (f : JutosFrame) : Option Nat :=
  if !f.fcsOk || decide (f.len < 64 ∨ 9600 < f.len) then some 0
  else if f.dst.toNat ≠ rd s (mgmtKey p) MgmtPort.MAC then some 1
  else if !tagOkOn s p f.vids then some 2
  else if f.etherType ≠ 0x88B5 ∧ f.etherType ≠ 0x88B6 then some 3
  else if !headerOk f then some 4
  else if f.kind ≠ 3 ∧ !sessOpen s f.session.toNat then some 5
  else if f.kind = 3 ∧ rd s (obj .sessSet) SessSet.OPEN_RATE ≤ (recent s s.cmd.openTimes sec).length then some 6
  else none

/-- Check 8 fails: counted in AUTH_FAILS; 1,024 failures within 1 s raise one message, at most once per second (R63). -/
def authFailed (n : Nat) (p : MgmtPort) (s : State) : State :=
  let x := getSess s n
  let fs := recent s x.fails sec ++ [s.clock]
  let s := satF (setSess s n { x with fails := fs }) (sessKey n) SessStatus.AUTH_FAILS
  if 1024 ≤ fs.length then
    let s := setSess s n { getSess s n with fails := [] }
    atMost 0x02 0 7 n sec
      (raise { blk := 0x02, inst := portInst p, kind := 7, addr := sessAddr n }) s
  else s

/-! ## The window of a stream (R51) -/

/-- Whether a SEQ is accepted: above H, or in the window of 256 and not marked. -/
def seqFresh (h marks seq : Nat) : Bool := decide (h < seq) || (decide (h < seq + 256) && !marks.testBit (h - seq))

/-- H and the marks after a SEQ is accepted. -/
def seqMark (h marks seq : Nat) : Nat × Nat :=
  if h < seq then (seq, (marks * 2 ^ min (seq - h) 256 + 1) % 2 ^ 256) else (h, marks ||| 2 ^ (h - seq))

/-- The value at which a command stream takes no further command (R53). -/
def seqLimit : Nat := 0xFFFFFFFFFFFFF000

/-! ## Accepting a command (R41, R57, R59, R60) -/

/-- Outstanding commands of the device. -/
def outstandingAll (s : State) : Nat := ((List.range 64).map fun n => rd s (sessKey n) SessStatus.OUTSTANDING).sum

/-- Whether one more command would pass a bound of R59. -/
def boundsReached (s : State) (n : Nat) : Bool :=
  decide (Config.maxPerSession ≤ rd s (sessKey n) SessStatus.OUTSTANDING ∨ Config.maxOutstanding ≤ outstandingAll s)

/-- The opcodes of R56 that a command frame may carry. -/
def opcodes : List Nat :=
  [0x0102, 0x0201, 0x0202, 0x0203, 0x0301, 0x0302, 0x0303, 0x0304, 0x0305, 0x0401, 0x0402, 0x0501, 0x0502, 0x0601, 0x0602,
   0x0701, 0x0702, 0x0703, 0x0704, 0x0705, 0x0801, 0x0802, 0x0F01]

/-- What a complete command frame or reassembly says; `before` is H before its first frame came (R53). -/
structure Arrived where
  hdr  : Hdr
  port : MgmtPort
  mac  : BitVec 48
  op   : Nat
  res  : Nat
  plen : Nat
  body : Nat
  before : Nat
  deriving DecidableEq, Repr

/-- Put a command among those waiting for their reply. -/
def addWaiting (a : Arrived) (op : Nat) (counted : Bool) (ph : Phase) (s : State) : State :=
  let w : Waiting :=
    { hdr := a.hdr, port := a.port, mac := a.mac, op := op, res := a.res, plen := a.plen, body := a.body,
      counted := counted, since := s.clock, phase := ph }
  { s with cmd := { s.cmd with waiting := s.cmd.waiting ++ [w] } }

/-- Count a command as outstanding. -/
def countOut (n : Nat) (s : State) : State := mapF s (sessKey n) SessStatus.OUTSTANDING (· + 1)

/-- Answer an arriving command at once with a status: its reply keeps its place in the order of the session. -/
def answerNow (a : Arrived) (op st : Nat) (counted : Bool) (s : State) : State :=
  refuse a.hdr st (sessAddr a.hdr.sid.val) (addWaiting a op counted .queued s)

/-- A whole command has arrived; `counted` says a reassembly already counts it (R60). The in-flight bounds come first, then
whether it can be read, the end of its streams, when an earlier command or reply has reached it (R53), and its opcode (R57). -/
def acceptCommand (a : Arrived) (counted : Bool) (s : State) : State :=
  let n := a.hdr.sid.val
  if !counted && boundsReached s n then answerNow a a.op stBusy false s
  else
    let s := if counted then s else countOut n s
    if a.body < 8 then answerNow a 0 stBadLength true s
    else if a.op ≠ 0x0102 ∧ (seqLimit ≤ a.before ∨ seqLimit < rd s (sessKey n) SessStatus.NEXT_SEQ) then
      answerNow a a.op stState true s
    else if !opcodes.contains a.op then answerNow a a.op stBadOpcode true s
    else addWaiting a a.op true .queued s

/-- The reassembly of a list that a fragment belongs to. -/
def reasmOf (l : List Reasm) (first : Word) : Option Reasm := l.find? fun r => r.first == first

/-- The OPCODE a reassembly's reply echoes: 0x0000 when its fragment 0 has not arrived (R41, R55). -/
def reasmOp (r : Reasm) : Nat := if r.held.contains 0 then r.op else 0

/-- The command that a reassembly stands for. -/
def reasmArrived (n : Fin 64) (r : Reasm) : Arrived :=
  { hdr := ⟨n, r.first⟩, port := r.port, mac := r.mac, op := r.op, res := r.res, plen := r.plen, body := r.body, before := r.before }

/-- The OPCODE that a first fragment shows: 0x0000 when its plaintext holds fewer than 8 bytes (R55, R57). -/
def frameOp (f : JutosFrame) : Nat := if f.bodyLen.toNat < 8 then 0 else f.op.toNat

/-- A reassembly with one more fragment. -/
def addFragment (r : Reasm) (p : MgmtPort) (f : JutosFrame) : Reasm :=
  let r : Reasm := { r with held := r.held ++ [fragIx f], port := p, mac := f.src, body := r.body + f.bodyLen.toNat }
  if fragIx f = 0 then { r with op := frameOp f, res := f.res.toNat, plen := f.plen.toNat } else r

/-- Whether a fragment ends its reassembly: a different count, or a body other than 8,192 B before the last (R41). -/
def fragmentBad (r : Reasm) (f : JutosFrame) : Bool :=
  fragCount f != r.count || (fragIx f + 1 != fragCount f && f.bodyLen.toNat != 8192)

/-- An empty reassembly for a fragment, H having been `before` it. -/
def newReasm (s : State) (before : Nat) (p : MgmtPort) (f : JutosFrame) : Reasm :=
  { first := f.seq - BitVec.ofNat 64 (fragIx f), before := before, count := fragCount f, held := [], port := p, mac := f.src, op := 0, res := 0,
    plen := 0, body := 0, since := s.clock }

/-- Replace the reassemblies of a session's commands or injects. -/
def setReasm (n : Nat) (inject : Bool) (l : List Reasm) (s : State) : State :=
  let x := getSess s n
  setSess s n (if inject then { x with injReasm := l } else { x with reasm := l })

/-- End a reassembly of a command: answered BAD_LENGTH, and it still counts until that reply is sent (R41, R60). -/
def endReasm (n : Fin 64) (r : Reasm) (s : State) : State :=
  answerNow (reasmArrived n r) (reasmOp r) stBadLength true s

/-- An accepted fragment of a command (R41, R60); one that ends its reassembly is the command's last frame, and the reply follows it
(R35). -/
def commandFragment (n : Fin 64) (before : Nat) (p : MgmtPort) (f : JutosFrame) (s : State) : State :=
  let first := f.seq - BitVec.ofNat 64 (fragIx f)
  let x := getSess s n.val
  match reasmOf x.reasm first with
  | some r =>
    let rest := x.reasm.filter fun e => e.first != first
    if fragmentBad r f then endReasm n { r with port := p, mac := f.src } (setReasm n.val false rest s)
    else
      let r := addFragment r p f
      if r.held.length = r.count then acceptCommand (reasmArrived n r) true (setReasm n.val false rest s)
      else setReasm n.val false (rest ++ [r]) s
  | none =>
    let r := addFragment (newReasm s before p f) p f
    if 4 ≤ x.reasm.length ∨ boundsReached s n.val then
      answerNow (reasmArrived n r) (reasmOp r) stBusy false s
    else
      let s := countOut n.val s
      if fragmentBad r f then endReasm n r s else setReasm n.val false (x.reasm ++ [r]) s

/-- Drop an inject and count it on the port on which its last frame arrived (R66, R76). -/
def injectDrop (p : MgmtPort) (s : State) : State := cmdCount 7 p s

/-- A whole inject has arrived and waits for its checks. -/
def injectArrived (n : Nat) (p : MgmtPort) (s : State) : State :=
  let x := getSess s n
  setSess s n { x with injReady := x.injReady ++ [p] }

/-- An accepted fragment of an inject (R41). -/
def injectFragment (n : Fin 64) (p : MgmtPort) (f : JutosFrame) (s : State) : State :=
  let first := f.seq - BitVec.ofNat 64 (fragIx f)
  let x := getSess s n.val
  match reasmOf x.injReasm first with
  | some r =>
    let rest := x.injReasm.filter fun e => e.first != first
    if fragmentBad r f then injectDrop p (setReasm n.val true rest s)
    else
      let r := addFragment r p f
      if r.held.length = r.count then injectArrived n.val p (setReasm n.val true rest s)
      else setReasm n.val true (rest ++ [r]) s
  | none =>
    let r := addFragment (newReasm s 0 p f) p f
    if 4 ≤ x.injReasm.length ∨ fragmentBad r f then injectDrop p s else setReasm n.val true (x.injReasm ++ [r]) s

/-- A command frame whose SEQ is not accepted is answered REPLAY, at most 1,000 times per second and session (R51). The manual does not
say whether one beyond that raises its fault message: the model's choice is that none does (log entry 20). -/
def replayCommand (n : Fin 64) (p : MgmtPort) (f : JutosFrame) (s : State) : State :=
  let x := getSess s n.val
  let rs := recent s x.replays sec
  if 1000 ≤ rs.length then setSess s n.val { x with replays := rs }
  else
    let s := setSess s n.val { x with replays := rs ++ [s.clock] }
    let s := raise { blk := 0x02, inst := portInst p, kind := stReplay, addr := sessAddr n.val } s
    let op := if fragIx f = 0 then frameOp f else 0
    emitReply n.val p f.src op stReplay (f.seq.toNat - fragIx f) (sessAddr n.val) 0 [] s

/-- A command frame whose tag verified (R35, R48, R51); one of a fragment count of 1 is a command of its own, unless fragments with its
first SEQ are held, whose reassembly its count ends (R41). -/
def commandFrame (n : Fin 64) (p : MgmtPort) (f : JutosFrame) (s : State) : State :=
  let k := sessKey n.val
  let s := setSess s n.val { getSess s n.val with lastPass := ivl s, port := p, mac := f.src }
  let s := if rd s k SessStatus.STATE = 1 then wr s k SessStatus.STATE 2 else s
  let x := getSess s n.val
  let before := rd s k SessStatus.H
  if seqFresh before x.marks f.seq.toNat then
    let (h, m) := seqMark before x.marks f.seq.toNat
    let s := wr (setSess s n.val { x with marks := m }) k SessStatus.H h
    if fragCount f = 1 ∧ (reasmOf x.reasm f.seq).isNone then
      acceptCommand { hdr := ⟨n, f.seq⟩, port := p, mac := f.src, op := frameOp f, res := f.res.toNat,
                      plen := f.plen.toNat, body := f.bodyLen.toNat, before := before } false s
    else commandFragment n before p f s
  else replayCommand n p f s

/-- An inject frame whose tag verified: without CONFIG, or replayed, it is dropped and counted (R51, R64, R66). -/
def injectFrame (n : Fin 64) (p : MgmtPort) (f : JutosFrame) (s : State) : State :=
  let x := getSess s n.val
  if !holds s n.val accConfig then injectDrop p s
  else if seqFresh x.injH x.injMarks f.seq.toNat then
    let (h, m) := seqMark x.injH x.injMarks f.seq.toNat
    let s := setSess s n.val { x with injH := h, injMarks := m }
    if fragCount f = 1 ∧ (reasmOf x.injReasm f.seq).isNone then injectArrived n.val p s else injectFragment n p f s
  else injectDrop p s

/-- A frame has passed every check of R36 before its tag. -/
def framePassed (p : MgmtPort) (f : JutosFrame) (s : State) : State :=
  if f.kind = 3 then
    { s with cmd := { s.cmd with opens := s.cmd.opens ++ [⟨p, f.src, f.seq⟩],
                                 openTimes := recent s s.cmd.openTimes sec ++ [s.clock] } }
  else
    let n : Fin 64 := Fin.ofNat 64 f.session.toNat
    let ks := keysOf s n.val
    if f.tag ≠ some (sealOfFrame (if f.kind = 1 then ks.cmdIn else ks.piIn) f) then authFailed n.val p s
    else if f.kind = 1 then commandFrame n p f s
    else injectFrame n p f s

/-- Whether MA and MB are up: they begin bring-up at step 9 of a start-up, and a datapath reset leaves them up (R545, R547). -/
def mgmtUp (s : State) : Bool :=
  !s.pwr.nreset && (flag s rstKey RstStatus.READY || s.pwr.done.contains 9 || s.pwr.steps == datapathSteps)

/-- JUTOS_FRAME_RECEIVE: the checks of R36 in order; the first that fails counts the frame, else it goes on. -/
def execJutosFrameReceive (p : MgmtPort) (f : JutosFrame) (s : State) : Answer :=
  .next (if !mgmtUp s then s
    else
      match frameFails s p f with
      | some k => cmdCount k p s
      | none => framePassed p f s)

/-- REASSEMBLY_TIMEOUT (R41): a command is answered BAD_LENGTH, an inject counts one drop. -/
def execReassemblyTimeout (n : Fin 64) (inject : Bool) (first : Word) (s : State) : Answer :=
  let x := getSess s n.val
  let l := if inject then x.injReasm else x.reasm
  .next (match reasmOf l first with
    | none => s
    | some r =>
      let s := setReasm n.val inject (l.filter fun e => e.first != first) s
      if inject then injectDrop r.port s else endReasm n r s)

/-! ## Opening and closing sessions (R43 to R49) -/

/-- The operator key slots that read PROGRAMMED (R72). -/
def programmedSlots (s : State) : List Nat := (List.range 4).filter fun k => rd s (obj .opKey k) OpKey.STATE == 1

/-- The slot that authorises an open request: 0xFF when no slot is PROGRAMMED, none when R43 is not met. -/
def openSlot (s : State) (r : OpenReq) : Option Nat :=
  let ps := programmedSlots s
  if ps.isEmpty then some 0xFF
  else if !Config.ecdsaOk r.opKey.toNat (openDigest r s.fuses.serial).toNat r.opSig.toNat then none
  else
    let d := sha384 (toBytes 97 r.opKey.toNat)
    ps.find? fun k => rd s (obj .opKey k) OpKey.DIGEST == d.toNat

/-- The STATUS of an open reply: the first check of R46 that fails. -/
def openStatus (s : State) (r : OpenReq) : Nat :=
  if !flag s rstKey RstStatus.READY then stNotReady
  else if r.bodyLen ≠ 326 ∨ r.openVer ≠ 1 then stBadLength
  else if r.access.toNat ≥ 64 ∨ r.reserved ≠ 0 ∨ !onP384 r.hostEph ∨ !onP384 r.opKey then stRange
  else if (openSlot s r).isNone then stAuthFail
  else if (openSessions s).length = 64 then stBusy
  else stOk

/-- The access types granted: without PROVISION under a PROGRAMMED slot, READ and PROVISION only when there is none (R43). -/
def grantedTypes (slot access : Nat) : Nat := if slot = 0xFF then access &&& 0x21 else access &&& 0x1F

/-- OPEN_REQUEST (R43 to R48). Until a command frame of the session has passed its tag check, what the device sends of its own on the
session leaves by the open request's port to its source address (the model's choice, log entry 73; R66 and R508 name only the
most recent command frame). -/
def execOpenRequest (p : MgmtPort) (peer : BitVec 48) (seq : Word) (r : OpenReq) (s : State) : Answer :=
  let o : OpenWait := ⟨p, peer, seq⟩
  .next (if !s.cmd.opens.contains o then s
    else
      let s := { s with cmd := { s.cmd with opens := s.cmd.opens.erase o } }
      let st := openStatus s r
      if st ≠ stOk then
        let s := if logged st then
          raise { blk := 0x02, inst := portInst p, kind := st, addr := addrOf (obj .sessSet) } s else s
        emit s (.openReply p peer seq st 0xFF 0 none)
      else
        let n := ((List.range 64).find? fun n => !sessOpen s n).getD 0
        let slot := (openSlot s r).getD 0xFF
        let g := grantedTypes slot r.access.toNat
        let (eph, s) := drawEntropy s
        let (nonce, s) := drawEntropy s
        let tail := openTail s.fuses.identKey nonce eph r n g
        let k := sessKey n
        let s := wrWord s k 0
        let s := wr (wr (wr s k SessStatus.STATE 1) k SessStatus.GRANTED g) k SessStatus.SLOT slot
        let s := wr s k SessStatus.NEXT_SEQ 1
        let s := setSess s n { Sess.closed with marks := 1, injMarks := 1, keys := some (sessKeys eph r tail.nonce), port := p,
                                                mac := peer, openedAt := s.clock, lastPass := ivl s, idleFrom := ivl s }
        emit s (.openReply p peer seq stOk n g (some tail)))

/-- FIRST_COMMAND_TIMEOUT (R48): a session still awaiting its first command is closed. -/
def execFirstCommandTimeout (n : Fin 64) (s : State) : Answer :=
  .next (if rd s (sessKey n.val) SessStatus.STATE = 1 then closeSess n.val s else s)

/-- When a session with no command outstanding closes: IDLE_TIMEOUT after the later of its last tag pass and its last reply (R49). -/
def idleEnd (s : State) (n : Nat) : Nat :=
  let x := getSess s n
  max x.lastPass x.idleFrom + rd s (obj .sessSet) SessSet.IDLE_TIMEOUT * sec * 65536

/-- IDLE_TIMEOUT (R49): a session none of whose commands is outstanding is closed, IDLE_TIMEOUT seconds having passed. -/
def execIdleTimeout (n : Fin 64) (s : State) : Answer :=
  .next (if sessOpen s n.val && rd s (sessKey n.val) SessStatus.OUTSTANDING == 0 then
      closeSess n.val (reachIvl (idleEnd s n.val) s)
    else s)

/-- COMMAND_BLOCK_TIMEOUT (R59): a command that has not taken effect is answered BUSY. -/
def execCommandBlockTimeout (c : Hdr) (s : State) : Answer :=
  .next (match turnOf s c with
    | some _ => refuse c stBusy 0 s
    | none => s)

/-- SESSION_CLOSE (R49): its reply is the last of its session; commands accepted after it are not carried out. -/
def execSessionClose (c : Hdr) (s : State) : Answer :=
  .next (checked c 0x0102 accRead (fun n => n == 0) true 0x02 (sessAddr c.sid.val) (fun s =>
    let s := setSess s c.sid.val { getSess s c.sid.val with closing := true }
    finish c stOk 0 0 [] .closeSession s) s)

/-! ## Punts and events (R64, R66, R75, R508) -/

/-- The port a punt would leave by under R66: that of the punt session's last command frame, MA when it has had none (R76). -/
def puntPort (s : State) : MgmtPort :=
  let n := rd s (obj .sessSet) SessSet.PUNT_SESSION
  if rd s (sessKey n) SessStatus.STATE = 2 then (getSess s n).port else .ma

/-- Drop a punt and count it for its reason (R66, R76). -/
def puntDrop (reason : Nat) (s : State) : State := cmdCount (8 + reason) (puntPort s) s

/-- Queue a punt, truncated to PUNT_TRUNC, or drop it (R66, R75). -/
def queuePunt (x : Punt) (s : State) : State :=
  let trunc := rd s (obj .sessSet) SessSet.PUNT_TRUNC
  if (puntSession s).isNone ∨ 4096 ≤ s.cmd.puntQ.length then puntDrop x.reason s
  else
    let x := { x with kept := min x.origLen trunc, trunc := decide (trunc < x.origLen) }
    { s with cmd := { s.cmd with puntQ := s.cmd.puntQ ++ [x] } }

/-- PUNT_TRANSMIT (R66): the oldest punt leaves by the punt session's last port, in as many fragments as it needs (R40); in
the safe state none is sent (R484), and none while the bridge does not bring its bytes (R19, R22). -/
def execPuntTransmit (s : State) : Answer :=
  .next (match s.cmd.puntQ with
    | [] => s
    | x :: rest =>
      if inSafe s || chanState s 1 != 1 then s
      else
        let s := { s with cmd := { s.cmd with puntQ := rest } }
        match puntSession s with
        | none => puntDrop x.reason s
        | some n => sendPunt n x s)

/-- EVENT_FRAME_TIMEOUT (R508): the records that wait leave in an event frame. -/
def execEventFrameTimeout (n : Fin 64) (s : State) : Answer :=
  .next (if !sessOpen s n.val || (getSess s n.val).recs.isEmpty then s
    else sendEvents n.val (due ((getSess s n.val).recsFrom + 100000) s))

end Sys2Proof.Machine
end

