-- ==== Sys2Proof/Machine/Bridge.lean ====
section
/-! DEFINITION. The die-to-die bridge (R20 to R24). -/
namespace Sys2Proof.Machine

/-- Start a retrain of a channel, and count it. -/
def startRetrain (ch : Nat) (s : State) : State :=
  let s := { s with bridge := { s.bridge with again := s.bridge.again.filter fun c => c != ch } }
  bump .brgCtr (2 + ch) 0 1 (wr s brgKey (chanFld ch) 2)

/-- The flit that a channel sends next: the one it replays, else a control flit before any data flit (R21, R22); with the channel
without it. -/
def nextFlit (x : Channel) : Option (Flit × Channel) :=
  match x.retry, x.ctl, x.data with
  | some f, _, _ => some (f, { x with retry := none })
  | none, f :: rest, _ => some (f, { x with ctl := rest })
  | none, [], f :: rest => some (f, { x with data := rest })
  | none, [], [] => none

/-- A flit leaves the bridge at its receiving end: a result waits for block VOQ, a head for its egress thread; the bytes of a packet are
in the hot tier from then on. -/
def deliver (f : Flit) (s : State) : State :=
  match f with
  | .result x => { s with que := { s.que with results := s.que.results ++ [x] } }
  | .egress h => { s with eng := { s.eng with egressQ := s.eng.egressQ ++ [h] } }
  | .body _ => s

/-- A good flit: the channel's next flit is accepted, in its order and never twice (R20 to R22). -/
def flitGood (ch : Nat) (s : State) : State :=
  let s := { s with bridge := { s.bridge with fails := tabSet s.bridge.fails ch 0 0 } }
  match nextFlit (getChan s ch) with
  | some (f, x) => deliver f (setChan ch x s)
  | none => s

/-- A flit with a CRC error: the receiving end discards it, and the channel keeps it, ahead of every later flit, for its replay (R22);
after 8 failures of one flit the channel retrains. -/
def flitBad (ch : Nat) (s : State) : State :=
  let s := match nextFlit (getChan s ch) with
    | some (f, x) => setChan ch { x with retry := some f } s
    | none => s
  let n := tabGet s.bridge.fails ch 0 + 1
  let s := bump .brgCtr ch 0 1 { s with bridge := { s.bridge with fails := tabSet s.bridge.fails ch n 0 } }
  if n < 8 then s
  else
    let s := { s with bridge := { s.bridge with fails := tabSet s.bridge.fails ch 0 0 } }
    startRetrain ch (raiseAt 0x78 ch 1 brgKey s)

/-- FLIT_RECEIVE (R20 to R22): while the channel is up its next flit arrives, good or with a CRC error. A receiving end that cannot accept
a flit withholds credit: the step does not come, and the flit and all behind it wait. -/
def execFlitReceive (ch : Fin 2) (crcOk : Bool) (s : State) : Answer :=
  .next (if chanState s ch.val ≠ 1 then s else if crcOk then flitGood ch.val s else flitBad ch.val s)

/-- BRIDGE_RETRAIN_COMPLETE (R22): the channel is up again, or the failure is reported, at most once per second. -/
def execBridgeRetrainComplete (ch : Fin 2) (ok : Bool) (s : State) : Answer :=
  let ch := ch.val
  .next (if chanState s ch ≠ 2 ∨ s.bridge.again.contains ch then s
    else if ok then wr s brgKey (chanFld ch) 1
    else raiseEach 0x78 ch 2 0 brgKey { s with bridge := { s.bridge with again := ch :: s.bridge.again } })

/-- BRIDGE_RETRAIN_RETRY (R22): a retrain that failed is repeated. -/
def execBridgeRetrainRetry (ch : Fin 2) (s : State) : Answer :=
  .next (if chanState s ch.val = 2 ∧ s.bridge.again.contains ch.val then startRetrain ch.val s else s)

end Sys2Proof.Machine
end

