-- ==== Sys2Proof/Machine/Buffer.lean ====
section
/-! DEFINITION. Billets, pools, stored packets and their references, and the peat tier of a queue (R269 to R304). -/
namespace Sys2Proof.Machine

/-! ## Pools (R275 to R281) -/

/-- The billets of a packet of L bytes (R269). -/
def billetsOf (len : Nat) : Nat := (len + 255) / 256

/-- Control and status of a pool (R290). -/
def poolK (k : Nat) : Key := obj .poolCtl k
/-- See `poolK`. -/
def poolS (k : Nat) : Key := obj .poolStatus k
/-- The occupancy of a pool. -/
def occ (s : State) (k : Nat) : Nat := rd s (poolS k) PoolStatus.OCC

/-- The billets of the staging area. -/
def stageSize (s : State) : Nat := rd s (obj .bufCtl) BufCtl.STAGE_SIZE

/-- shared_total of R276. -/
def sharedTotal (s : State) : Nat :=
  Config.billets - stageSize s - ((List.range 16).map fun k => rd s (poolK k) PoolCtl.RESERVED).sum
/-- shared_used of R276. -/
def sharedUsed (s : State) : Nat := ((List.range 16).map fun k => occ s k - rd s (poolK k) PoolCtl.RESERVED).sum

/-- The billets that a pool may draw one after another (R276): those below its reserve, then those the shared space and its
limit allow. -/
def mayDraw (s : State) (k : Nat) : Nat :=
  let res := rd s (poolK k) PoolCtl.RESERVED
  (res - occ s k) + min (rd s (poolK k) PoolCtl.LIMIT - max (occ s k) res) (sharedTotal s - sharedUsed s)

/-- Charge n billets to a pool; PEAK follows OCC. -/
def charge (k n : Nat) (s : State) : State :=
  let o := occ s k + n
  let s := wr s (poolS k) PoolStatus.OCC o
  wr s (poolS k) PoolStatus.PEAK (max o (rd s (poolS k) PoolStatus.PEAK))

/-- Take n billets off a pool's charge. -/
def uncharge (k n : Nat) (s : State) : State := mapF s (poolS k) PoolStatus.OCC (· - n)

/-- The handles in a pool's cache. -/
def cacheOf (s : State) (k : Nat) : Nat := rd s (poolS k) PoolStatus.CACHE
/-- The handles in the billet ring: the free billets that no cache holds. -/
def inRing (s : State) : Nat := rd s (obj .bufStatus) BufStatus.FREE - ((List.range 16).map (cacheOf s)).sum

/-- The cache that holds the most handles (R281). -/
def fullestCache (s : State) : Nat :=
  (List.range 16).foldl (fun b k => if cacheOf s b < cacheOf s k then k else b) 0

/-- Draw n handles one after another from a cache and the ring behind it: below 2,048 the cache is refilled with a block of
1,024, or what the ring holds; answers the cache, the ring and the draws that found both empty (R280, R281). -/
def drawHandles : Nat → Nat → Nat → Nat → Nat × Nat × Nat
  | 0, c, ring, stolen => (c, ring, stolen)
  | n + 1, c, ring, stolen =>
    if c = 0 ∧ ring = 0 then drawHandles n c ring (stolen + 1)
    else
      let (c, ring) := if c = 0 then (min 1024 ring, ring - 1024) else (c, ring)
      let c := c - 1
      if c < 2048 then drawHandles n (c + min 1024 ring) (ring - 1024) stolen else drawHandles n c ring stolen

/-- Take n handles from a pool's cache; a steal takes from the cache that holds the most (R280, R281). -/
def takeHandles (k n : Nat) (s : State) : State :=
  let (c, _, stolen) := drawHandles n (cacheOf s k) (inRing s) 0
  let s := if stolen = 0 then s else
    bump .poolCtr k 4 stolen (mapF s (poolS (fullestCache s)) PoolStatus.CACHE (· - stolen))
  mapF (wr s (poolS k) PoolStatus.CACHE c) (obj .bufStatus) BufStatus.FREE (· - n)

/-- Give n handles back to a pool's cache; above 7,168 a block of 1,024 goes to the ring (R280). -/
def giveHandles (k n : Nat) (s : State) : State :=
  let c := cacheOf s k + n
  let s := mapF s (obj .bufStatus) BufStatus.FREE (· + n)
  wr s (poolS k) PoolStatus.CACHE (if 7168 < c then c - 1024 * ((c - 7168 + 1023) / 1024) else c)

/-- The billets whose allocated bit is set (R282): those of the stored packets, and those that no list names until Sheepdog finds them. -/
def allocated (s : State) : List Nat := (s.buf.pkts.flatMap fun e => e.2.billets) ++ s.buf.lostBillets

/-- A draw meets a bad entry of the ring (R282): it is discarded, counted, and reported, and the draw goes on; the billet of an entry that
cannot be read stays away until Sheepdog recovers it. -/
def meetRing (m : RingMeet) (s : State) : State :=
  match m with
  | .allocated h =>
    if (allocated s).contains h.val then raiseAt 0x41 0 2 (obj .bufStatus) (bump .poolGctr 2 0 1 s) else s
  | .unreadable h =>
    if (allocated s).contains h.val then raiseAt 0x41 0 1 (obj .bufStatus) (bump .poolGctr 2 0 1 s)
    else
      let s := { s with buf := { s.buf with lostBillets := s.buf.lostBillets ++ [h.val] } }
      raiseAt 0x41 0 1 (obj .bufStatus) (bump .poolGctr 2 0 1 (mapF s (obj .bufStatus) BufStatus.FREE (· - 1)))

/-- Draw n billets from a pool and charge them, when the pool may draw them all. -/
def drawBillets (k n : Nat) (s : State) : Option State :=
  if n ≤ mayDraw s k then some (takeHandles k n (charge k n s)) else none

/-- Free n billets of a pool. -/
def freeBillets (k n : Nat) (s : State) : State := giveHandles k n (uncharge k n s)

/-! ## Stored packets (R270, R284, R285) -/

/-- A stored packet. -/
def getPkt (s : State) (n : Nat) : Option Packet := tabGet? s.buf.pkts n
/-- Replace a stored packet. -/
def putPkt (n : Nat) (p : Packet) (s : State) : State := { s with buf := { s.buf with pkts := tabPut s.buf.pkts n p } }

/-- The owner of a packet that its reception or its thread holds (R273). -/
def ownerNone : Nat := 0x1FFFFF

/-- The object of a packet's descriptor. -/
def descKey (p : Packet) : Key := obj .pktDesc p.desc

/-- The first n numbers below m, from a start and wrapping, that a list does not hold. -/
def freshNumbers (start n m : Nat) (used : List Nat) : List Nat :=
  (((List.range (used.length + n)).map fun i => (start + i) % m).filter fun h => !used.contains h).take n

/-- A descriptor and billets for a packet: which of the free ones is the device's own choice (R270, R280). -/
def pickHandles (n : Nat) (s : State) : Nat × List Nat × State :=
  let (c, s) := drawChoice s
  let (b, s) := drawChoice s
  let d := freshNumbers c 1 Config.billets (s.buf.pkts.map fun e => e.2.desc)
  (d.headD 0, freshNumbers b n Config.billets (allocated s), s)

/-- Store a packet whose billets are drawn; answers its internal number. A descriptor allocated during a Sheepdog round is
marked (R288). -/
def storePacket (p : Packet) (s : State) : Nat × State :=
  let (d, bs, s) := pickHandles (billetsOf p.len) s
  let n := s.buf.nextPkt
  let mark := if s.buf.round then s.buf.rounds % 256 else p.mark
  let s := { s with buf := { s.buf with nextPkt := n + 1 } }
  (n, mapF (putPkt n { p with desc := d, billets := bs, mark := mark } s) (obj .bufStatus) BufStatus.DESC_USED (· + 1))

/-- Store a packet that has just arrived: its sojourn counts from its arrival time (R335, R416). -/
def storeArrival (p : Packet) (s : State) : Nat × State := storePacket { p with since := ivl s - (s.ct - p.arrival) } s

/-- Whether the end of a packet's frame has yet to arrive (R81, R185). -/
def isArriving (s : State) (n : Nat) : Bool := s.line.arriving.any fun e => e.2.any fun a => a.pkts.contains n

/-- A packet with nothing in it. -/
def Packet.empty : Packet :=
  { desc := 0, len := 0, arrival := 0, arrPort := 0xFF, words := List.replicate 8 0, tc := 0, pool := 0, node := 0, port := 0,
    since := 0, leases := 0, freePending := false, bad := false, owner := ownerNone, staged := false, billets := [], mark := 0,
    inject := false, copied := false, hash := 0,
    content := { etherType := 0, opcode := 0, pfcEn := 0, quanta := [], tag := none, toPtp := false,
                 window := 0 } }

/-- n bytes of a header window from an offset. -/
def winBytes (win off n : Nat) : Nat := bitsAt win (8 * (256 - off - n)) (8 * n)

/-- The offset of the EtherType of a frame behind at most two tags. -/
def etherAt (win : Nat) : Nat :=
  let isTag (off : Nat) : Bool := winBytes win off 2 == 0x8100 || winBytes win off 2 == 0x88A8
  if !isTag 12 then 12 else if !isTag 16 then 16 else 20

/-- The offset of a PTP message: behind EtherType 0x88F7, or in UDP to port 319 (R427). -/
def ptpAt (win : Nat) : Option Nat :=
  let t := etherAt win
  let udp (off : Nat) : Option Nat := if winBytes win (off + 2) 2 = 319 then some (off + 8) else none
  if winBytes win t 2 = 0x88F7 then some (t + 2)
  else if winBytes win t 2 = 0x0800 ∧ winBytes win (t + 11) 1 = 17 then udp (t + 2 + 4 * (winBytes win (t + 2) 1 % 16))
  else if winBytes win t 2 = 0x86DD ∧ winBytes win (t + 8) 1 = 17 then udp (t + 42)
  else none

/-- The correctionField of a frame that carries a Sync or Delay_Req of version 2 (R427): message type in the low half of the first
byte, version in the low half of the second, correctionField in bytes 8 to 15 (PRESUMED: IEEE 1588). -/
def ptpCorrOf (win : Nat) : Option (BitVec 64) :=
  match ptpAt win with
  | some o =>
    if winBytes win o 1 % 16 < 2 ∧ winBytes win (o + 1) 1 % 16 = 2 ∧ o + 16 ≤ 256 then some (BitVec.ofNat 64 (winBytes win (o + 8) 8))
    else none
  | none => none

/-- What a packet rebuilt from the bytes of a frame holds: its first 256 bytes (R383). -/
def contentOf (frame : Bytes) : Content :=
  let win := ofBytes (frame.take 256) * 256 ^ (256 - frame.length)
  { Packet.empty.content with etherType := BitVec.ofNat 16 (winBytes win 12 2), window := BitVec.ofNat 2048 win }

/-- Return a packet's billets and descriptor (R285); staged billets go back to the staging area. -/
def freePacket (n : Nat) (s : State) : State :=
  match getPkt s n with
  | none => s
  | some p =>
    let s := { s with buf := { s.buf with pkts := tabDel s.buf.pkts n } }
    let s := mapF s (obj .bufStatus) BufStatus.DESC_USED (· - 1)
    if p.staged then mapF s (obj .bufStatus) BufStatus.STAGED (· - billetsOf p.len)
    else freeBillets p.pool (billetsOf p.len) s

/-- A free or a lease return that is refused: it changes nothing but its counter and its message (R286). -/
def refuseFree (ctr kind : Nat) (k : Key) (s : State) : State := raiseAt 0x41 1 kind k (bump .poolGctr ctr 0 1 s)

/-- The named owner of a packet ends: the free request (R285). One from another requester, or on a descriptor that is not in use, is refused
(R286). -/
def endOwner (n by_ : Nat) (s : State) : State :=
  match getPkt s n with
  | none => refuseFree 1 4 (obj .bufStatus) s
  | some p =>
    if p.owner ≠ by_ then refuseFree 0 3 (descKey p) s
    else if p.leases = 0 then freePacket n s
    else putPkt n { p with freePending := true } s

/-- A lease on a packet ends (R285); a return where no lease is out, or on a descriptor that is not in use, is refused (R286). -/
def endLeaseOn (n : Nat) (s : State) : State :=
  match getPkt s n with
  | none => refuseFree 1 4 (obj .bufStatus) s
  | some p =>
    if p.leases = 0 then refuseFree 1 4 (descKey p) s
    else
      let s := putPkt n { p with leases := p.leases - 1 } s
      if p.leases = 1 ∧ p.freePending then freePacket n s else s

/-- A reference ends, served or discarded (R285). -/
def endRef (r : Ref) (s : State) : State := if r.lease then endLeaseOn r.pkt s else endOwner r.pkt r.from_ s

/-- Take a read lease on a packet: above 127 the copy is not made and is counted (R284). -/
def takeLease (n : Nat) (s : State) : Option State × State :=
  match getPkt s n with
  | none => (none, s)
  | some p =>
    if 127 ≤ p.leases then (none, bump .poolCtr p.pool 2 1 s)
    else (some (putPkt n { p with leases := p.leases + 1 } s), s)

/-- The billets that a reference counts in its queue (R310, R511). -/
def refBillets (r : Ref) : Nat := billetsOf r.len

/-- The pool of a received frame: by its outer tag's PCP, else UNTAGGED (R275). -/
def arrivalPool (s : State) (port : Nat) (c : Content) : Nat :=
  match c.tag with
  | some (tpid, pcp) =>
    if tpid = 0x8100 ∨ tpid = 0x88A8 then bitsAt (rd s (obj .arrMap port) ArrMap.PCP_MAP) (4 * pcp.toNat) 4
    else rd s (obj .arrMap port) ArrMap.UNTAGGED
  | none => rd s (obj .arrMap port) ArrMap.UNTAGGED

/-- The pool of a packet for an egress port and class (R275). -/
def egressPool (s : State) (port tc : Nat) : Nat := bitsAt (rd s (obj .egMap port) EgMap.TC_MAP) (4 * tc) 4

/-- Count a shortfall drop of a pool (R277). -/
def shortfall (k : Nat) (s : State) : State := bump .poolCtr k 0 1 s

/-! ## Queues and their tiers (R292 to R299) -/

/-- A queue, by the numbers of R273 and R306. -/
def getQ (s : State) (q : Nat) : Queue := tabGet s.que.queues q Queue.empty
/-- See `getQ`. -/
def setQ (q : Nat) (x : Queue) (s : State) : State :=
  { s with que := { s.que with queues := tabSet s.que.queues q x Queue.empty } }

/-- The billets of a list of references. -/
def sumBillets (l : List Ref) : Nat := (l.map refBillets).sum
/-- The references of a page. -/
def pageRefs (p : Page) : List Ref := p.imgs.map Image.ref
/-- The depth of a queue, in all tiers (R293, R310). -/
def depth (x : Queue) : Nat := sumBillets x.head + (x.pages.map fun p => sumBillets (pageRefs p)).sum + sumBillets x.tail
/-- The billets of a queue in the hot tier, those of pages still being written included (R294). -/
def hotDepth (x : Queue) : Nat :=
  sumBillets x.head + ((x.pages.filter fun p => p.phase == .writing).map fun p => sumBillets (pageRefs p)).sum +
    sumBillets x.tail

/-- The spill object of a queue, none for a multicast queue, which never spills (R303, R306). -/
def spillKey (q : Nat) : Option Key := if q < Config.voqs + Config.egressQueues then some (obj .qSpill q) else none

/-- The spill profile of a queue, none for profile 0 and while the page ring is not built (R283, R293). -/
def profileOf (s : State) (q : Nat) : Option Key :=
  match spillKey q with
  | none => none
  | some k =>
    let n := rd s k QSpill.PROFILE
    if n = 0 ∨ !flag s (obj .peatStatus) PeatStatus.READY then none else some (obj .spillProf n)

/-- The billet image slots that some packets take in a page: their billets, and one for two descriptor images beyond the
tenth (R292). -/
def pageSlots (l : List Ref) : Nat := sumBillets l + (l.length - 10 + 1) / 2

/-- The longest run of packets that fits in a page. -/
def pageFill : List Ref → List Ref → List Ref
  | acc, [] => acc
  | acc, r :: rest => if pageSlots (acc ++ [r]) ≤ 60 then pageFill (acc ++ [r]) rest else acc

/-- The head segment: the longest run from the head whose billets total at most HEAD_KEEP (R294). -/
def headRun (keep : Nat) : List Ref → List Ref → List Ref
  | acc, [] => acc
  | acc, r :: rest => if sumBillets (acc ++ [r]) ≤ keep then headRun keep (acc ++ [r]) rest else acc

/-- The page handles in use. -/
def pagesInUse (s : State) : List Nat := s.que.queues.flatMap fun e => e.2.pages.map Page.handle

/-- Draw a page for a pool, when its PAGES stays within PAGE_LIMIT and a free page exists (R301). -/
def drawPage (pool : Nat) (s : State) : Option (Nat × State) :=
  if rd s (poolS pool) PoolStatus.PAGES < rd s (poolK pool) PoolCtl.PAGE_LIMIT ∧
      0 < rd s (obj .peatStatus) PeatStatus.PAGES_FREE then
    let (c, s) := drawChoice s
    let h := (freshNumbers c 1 Config.peatPages (pagesInUse s)).headD 0
    let s := mapF s (poolS pool) PoolStatus.PAGES (· + 1)
    some (h, mapF s (obj .peatStatus) PeatStatus.PAGES_FREE (· - 1))
  else none

/-- The pool of a reference's packet. -/
def refPool (s : State) (r : Ref) : Nat := match getPkt s r.pkt with
  | some p => p.pool
  | none => 0

/-- A packet's image in a page: on its own, owned by the queue that the page belongs to (R292, R294). -/
def imageOf (s : State) (q : Nat) (r : Ref) : Image :=
  let p := (getPkt s r.pkt).getD Packet.empty
  { ref := { r with lease := false, from_ := q },
    pkt := { p with leases := 0, freePending := false, owner := q, staged := true, billets := [] } }

/-- The packets at the front of a list whose frames have ended: only these go into a page (the model's choice, log entry 82). -/
def wholeRun (s : State) (l : List Ref) : List Ref := l.takeWhile fun r => !isArriving s r.pkt

/-- A page is ready to be written: it waits for those before it, 131,072 bits each at 6.2 Tb/s, and is then counted (R300). -/
def readyPage (s : State) : State :=
  let now := s.clock * 6200
  let s := if now < s.buf.wrFree then bump .peatCtr 0 6 1 s else s
  { s with buf := { s.buf with wrFree := max now s.buf.wrFree + 131072 } }

/-- Write the first packets of a tail buffer as one page: a page draw that fails leaves them in the tail buffer and is counted
(R296, R301). The billets are freed when the page is written. -/
def writePage (q : Nat) (flushed : Bool) (s : State) : State :=
  let x := getQ s q
  let now := pageFill [] (wholeRun s x.tail)
  match now with
  | [] => s
  | r :: _ =>
    let pool := refPool s r
    match drawPage pool s with
    | none => bump .poolCtr pool 3 1 s
    | some (h, s) =>
      let page : Page :=
        { handle := h, pool := pool, imgs := now.map (imageOf s q), flushed := flushed, phase := .writing }
      let rest := x.tail.drop now.length
      let s := setQ q { x with pages := x.pages ++ [page], tail := rest, tailFrom := s.clock } s
      let s := readyPage s
      match spillKey q with
      | some k => mapF s k QSpill.PAGES (· + 1)
      | none => s

/-- Write every page whose next packet would not fit (R296). -/
def writePages : Nat → Nat → State → State
  | 0, _, s => s
  | fuel + 1, q, s =>
    let t := wholeRun s (getQ s q).tail
    let now := pageFill [] t
    if now.length < t.length ∧ !now.isEmpty then
      let s' := writePage q false s
      if (getQ s' q).tail.length < (getQ s q).tail.length then writePages fuel q s' else s'
    else s

/-- Put a packet at the end of a queue, which may make it SPILLED (R294, R296). -/
def appendRef (q : Nat) (r : Ref) (s : State) : State :=
  let x := getQ s q
  let spilled := x.spilled
  if spilled then
    let s := setQ q { x with tail := x.tail ++ [r], tailFrom := if x.tail.isEmpty then s.clock else x.tailFrom } s
    if (profileOf s q).isSome then writePages (x.tail.length + 1) q s else s
  else
    let y := { x with head := x.head ++ [r], headAt := if x.head.isEmpty then ivl s else x.headAt }
    let s := setQ q y s
    match profileOf s q, spillKey q with
    | some k, some sk =>
      if rd s k SpillProf.SPILL_ON < hotDepth y then
        let h := headRun (rd s k SpillProf.HEAD_KEEP) [] y.head
        let s := setQ q { y with head := h, tail := y.head.drop h.length, tailFrom := s.clock, spilled := true } s
        let s := mapF (wr s sk QSpill.STATE 1) (obj .peatStatus) PeatStatus.SPILLED (· + 1)
        writePages (y.head.length + 1) q (bump .peatCtr 0 3 1 s)
      else s
    | _, _ => s

/-- A SPILLED queue with no page left and none in flight is HOT again, its tail buffer part of its head segment (R298). -/
def settleQueue (q : Nat) (s : State) : State :=
  let x := getQ s q
  if x.spilled ∧ x.pages.isEmpty then
    let s := setQ q { x with head := x.head ++ x.tail, tail := [], spilled := false } s
    match spillKey q with
    | some k => mapF (wr s k QSpill.STATE 0) (obj .peatStatus) PeatStatus.SPILLED (· - 1)
    | none => s
  else s

/-- A page of a queue is freed (R297). -/
def freePage (q : Nat) (p : Page) (s : State) : State :=
  let s := mapF s (poolS p.pool) PoolStatus.PAGES (· - 1)
  let s := mapF s (obj .peatStatus) PeatStatus.PAGES_FREE (· + 1)
  match spillKey q with
  | some k => mapF s k QSpill.PAGES (· - 1)
  | none => s

/-- Whether a page is being read. -/
def reading (p : Page) : Bool := match p.phase with
  | .reading _ => true
  | _ => false

/-- The address of a queue's spill object, of its state when it is a multicast queue. -/
def queueAddr (q : Nat) : Key :=
  match spillKey q with
  | some k => k
  | none => obj .vqState (q - Config.egressQueues)

/-- PAGE_WRITE_COMPLETE (R294, R296): the oldest page of the queue that is being written is stored, and each packet's
reference ends. -/
def execPageWriteComplete (q : Nat) (s : State) : Answer :=
  let x := getQ s q
  .next (match x.pages.find? fun p => p.phase == .writing with
    | none => s
    | some p =>
      let pages := x.pages.map fun e => if e.handle = p.handle then { e with phase := .stored } else e
      let s := setQ q { x with pages := pages } s
      let s := { s with buf := { s.buf with wrAt := s.clock :: recent s s.buf.wrAt ms } }
      let s := bump .peatCtr 0 0 1 (if p.flushed then bump .peatCtr 0 2 1 s else s)
      forAll (p.imgs.map Image.ref) (fun r s =>
        let lease := match getPkt s r.pkt with
          | some k => k.owner != q
          | none => false
        endRef { r with lease := lease } s) s)

/-- WR_LOAD or RD_LOAD of the times of its pages: 16 KB each, per mille of 6.2 Tb/s over the last 1 ms (R300, R303). -/
def peatLoad (s : State) (l : List Nat) : Nat := min 1000 ((recent s l ms).length * 131072 / 6200000)

/-- PAGE_FLUSH (R296, R301): FLUSH after its first packet came, the tail buffer of a SPILLED queue whose profile lets it write is written
as a partial page. -/
def execPageFlush (q : Nat) (s : State) : Answer :=
  let x := getQ s q
  .next (match profileOf s q with
    | some k => if x.spilled && !x.tail.isEmpty then writePage q true (due (x.tailFrom + rd s k SpillProf.FLUSH * 1000) s) else s
    | none => s)

/-- PAGE_RETURN_START (R297): the first page of a SPILLED queue whose head segment is below RETURN_AT is read into staging;
a profile of 0 calls every page back (R298). A return without room waits and is counted. -/
def execPageReturnStart (q : Nat) (s : State) : Answer :=
  let x := getQ s q
  let low := match profileOf s q with
    | some k => decide (sumBillets x.head < rd s k SpillProf.RETURN_AT)
    | none => true
  let staged := (x.head.filterMap Ref.page).dedup
  let inFlight := (x.pages.filter reading).length
  .next (match x.pages.find? fun p => !reading p with
    | none => s
    | some p =>
      if !x.spilled ∨ !low ∨ p.phase ≠ .stored ∨ 2 ≤ inFlight + staged.length then s
      else
        let n := (p.imgs.map fun i => refBillets i.ref).sum
        if stageSize s < rd s (obj .bufStatus) BufStatus.STAGED + n then bump .bufCtr 0 3 1 s
        else
          let pages := x.pages.map fun e => if e.handle = p.handle then { e with phase := .reading 1 } else e
          mapF (setQ q { x with pages := pages } s) (obj .bufStatus) BufStatus.STAGED (· + n))

/-- The packets of a page that a read loses, and those it marks BAD (R302). -/
def lostOf (r : PageRead) (n : Nat) : List Nat × List Nat :=
  match r with
  | .badRecord => (List.range n, [])
  | .badDescriptor i => ([i], [])
  | .badBillet i => ([], [i])
  | _ => ([], [])

/-- The fault kind of a page read (R302). -/
def readKind : PageRead → Option (Nat × Nat)
  | .clean => none
  | .badRecord => some (0, 1)
  | .badDescriptor _ => some (0, 2)
  | .badBillet _ => some (0, 3)
  | .linkOneCopy => some (1, 5)
  | .linkBothCopies => some (1, 5)

/-- Packets lost on return: counted, their staging room given back. -/
def losePackets (l : List Image) (s : State) : State :=
  let s := bump .peatCtr 0 4 l.length s
  mapF s (obj .bufStatus) BufStatus.STAGED (· - (l.map fun i => refBillets i.ref).sum)

/-- A returned packet joins the head segment, in staging billets (R297). -/
def returnImage (q page : Nat) (bad : Bool) (i : Image) (s : State) : State :=
  let (n, s) := storePacket { i.pkt with bad := i.pkt.bad || bad } s
  let x := getQ s q
  setQ q { x with head := x.head ++ [{ i.ref with pkt := n, page := some page }] } s

/-- The first page being read ends with some packets lost and some BAD; the page is freed. -/
def endReturn (q : Nat) (p : Page) (lost bad : List Nat) (s : State) : State :=
  let x := getQ s q
  let s := setQ q { x with pages := x.pages.filter fun e => e.handle != p.handle } s
  let ixs := List.range p.imgs.length
  let gone := ixs.filterMap fun j => if lost.contains j then p.imgs[j]? else none
  let s := if gone.isEmpty then s else losePackets gone s
  let s := forAll ixs (fun j s =>
    if lost.contains j then s
    else
      match p.imgs[j]? with
      | some i => returnImage q p.handle (bad.contains j) i s
      | none => s) s
  settleQueue q (freePage q p (bump .peatCtr 0 1 1 s))

/-- PAGE_RETURN_COMPLETE (R297, R302): the first page being read has arrived and is checked; its packets join the head
segment. A page link entry lost in both copies loses every page behind it, which Sheepdog reclaims. -/
def execPageReturnComplete (q : Nat) (r : PageRead) (s : State) : Answer :=
  let x := getQ s q
  .next (match x.pages.find? reading with
    | none => s
    | some p =>
      let s := { s with buf := { s.buf with rdAt := s.clock :: recent s s.buf.rdAt ms } }
      let s := match readKind r with
        | some (inst, kind) => raiseAt 0x42 inst kind (queueAddr q) s
        | none => s
      let (lost, bad) := lostOf r p.imgs.length
      let s := if r = .linkBothCopies then
        let behind := x.pages.filter fun e => e.handle != p.handle && !reading e && e.phase == .stored
        let s := setQ q { x with pages := x.pages.filter fun e => !behind.contains e } s
        let s := match spillKey q with
          | some k => mapF s k QSpill.PAGES (· - behind.length)
          | none => s
        let gone := behind.foldl (fun t e => tabPut t e.handle (e.pool, q)) s.buf.lostPages
        bump .peatCtr 0 4 (behind.map fun e => e.imgs.length).sum { s with buf := { s.buf with lostPages := gone } }
      else s
      endReturn q p lost bad s)

/-- PAGE_READ_TIMEOUT (R302): the read is repeated once; a second timeout loses every packet of the page. -/
def execPageReadTimeout (q : Nat) (s : State) : Answer :=
  let x := getQ s q
  .next (match x.pages.find? reading with
    | none => s
    | some p =>
      let s := raiseAt 0x42 0 4 (queueAddr q) s
      if p.phase = .reading 1 then
        let pages := x.pages.map fun e => if e.handle = p.handle then { e with phase := .reading 2 } else e
        bump .peatCtr 0 5 1 (setQ q { x with pages := pages } s)
      else endReturn q p (List.range p.imgs.length) [] s)

/-- Whether an HBM stack reads READY (R408, R411). -/
def hbmReady (s : State) (st : Nat) : Bool := rd s (obj .hbStatus st) HbStatus.STATE == 1

/-- PAGE_RING_BUILT (R283, R409): once the training of HQ0 to HQ3 has ended with at least two of them READY, the page ring
holds the pages of those stacks, 1,474,560 each. -/
def execPageRingBuilt (s : State) : Answer :=
  let ended := [2, 3, 4, 5].all fun st => rd s (obj .hbStatus st) HbStatus.STATE != 0
  let n := ([2, 3, 4, 5].filter (hbmReady s)).length
  .next (if ended && decide (2 ≤ n) && !flag s (obj .peatStatus) PeatStatus.READY then
      wr (wr s (obj .peatStatus) PeatStatus.READY 1) (obj .peatStatus) PeatStatus.PAGES_FREE
        (1474560 * n - (pagesInUse s).length)
    else s)

/-! ## Sheepdog (R288, R289) -/

/-- The packets that a root reaches (R288): those of queues, page writes and receptions; of threads and the dispatch, inject and egress paths; of
pass results and the bridge; of transmit paths; and of streams in hand. -/
def rooted (s : State) : List Nat :=
  let refs (x : Queue) : List Nat := (x.head ++ x.tail ++ x.pages.flatMap pageRefs).map Ref.pkt
  let tx (f : TxFrame) : List Nat := match f.body with
    | .packet r _ _ _ => [r.pkt]
    | .device _ _ => []
  let flit (f : Flit) : Nat := match f with
    | .result x => x.pkt
    | .body n => n
    | .egress h => h.ref.pkt
  (s.que.queues.flatMap fun e => refs e.2) ++ (s.line.arriving.flatMap fun e => e.2.flatMap Arriving.pkts) ++
    (s.eng.threads.map fun e => e.2.ref.pkt) ++ (s.eng.dispQ.flatMap Prod.snd) ++ s.eng.injectQ ++
    (s.eng.egressQ.map fun h => h.ref.pkt) ++ s.que.results.map PassResult.pkt ++
    (s.bridge.chans.flatMap fun e => (e.2.retry.toList ++ e.2.ctl ++ e.2.data).map flit) ++
    (s.que.tx.flatMap fun e => e.2.flatMap tx) ++ (s.line.sending.flatMap fun e => tx e.2.frame) ++
    (s.fab.src.filterMap fun e => e.2.open_.map fun r => r.1.pkt) ++
    (s.pair.frames.flatMap fun e => e.2.filterMap fun x => x.result.map PassResult.pkt)

/-- SHEEPDOG_ROUND_START (R288): a round begins PERIOD after the one before began, and marks every descriptor that a root reaches. -/
def execSheepdogRoundStart (s : State) : Answer :=
  .next (if flag s (obj .shCtl) ShCtl.EN && !s.buf.round then
      let s := if s.buf.rounds = 0 then s else due (s.buf.roundAt + rd s (obj .shCtl) ShCtl.PERIOD * ms) s
      let n := s.buf.rounds + 1
      let roots := rooted s
      let pkts := s.buf.pkts.map fun e => (e.1, if roots.contains e.1 then { e.2 with mark := n % 256 } else e.2)
      { s with buf := { s.buf with round := true, roundAt := s.clock, rounds := n, pkts := pkts } }
    else s)

/-- One leaked item: counted, and reclaimed with RECLAIM 1; at most 256 messages in a round (R289). -/
def leakFound (k : Key) (nth : Nat) (s : State) : State :=
  let s := if flag s (obj .shCtl) ShCtl.RECLAIM then bump .poolGctr 3 0 1 s else bump .poolGctr 4 0 1 s
  if nth < 256 then raiseAt 0x41 2 5 k s else s

/-- A leaked page is free again, and its pool no longer charged for it (R289). -/
def reclaimPage (h : Nat) (s : State) : State :=
  let s := match tabGet? s.buf.lostPages h with
    | some (pool, _) => mapF s (poolS pool) PoolStatus.PAGES (· - 1)
    | none => s
  let s := { s with buf := { s.buf with lostPages := tabDel s.buf.lostPages h } }
  mapF s (obj .peatStatus) PeatStatus.PAGES_FREE (· + 1)

/-- A stray billet that Sheepdog has found twice is free again (R282, R289). -/
def reclaimBillet (h : Nat) (s : State) : State :=
  if s.buf.lostBillets.contains h then
    mapF { s with buf := { s.buf with lostBillets := s.buf.lostBillets.filter fun i => i != h } } (obj .bufStatus) BufStatus.FREE (· + 1)
  else s

/-- The owner queue of a page that no queue names, which its message names (R289). -/
def pageOwner (s : State) (h : Nat) : Key := match tabGet? s.buf.lostPages h with
  | some (_, q) => queueAddr q
  | none => obj .bufStatus

/-- SHEEPDOG_ROUND_END (R288, R289): a descriptor in use that the round has not marked is suspect, a billet or page that nothing names is
stray, and what this round and the last one found is leaked; after a reset that clears POOL the first round reclaims nothing. -/
def execSheepdogRoundEnd (tookMs : Fin 101) (s : State) : Answer :=
  .next (if !s.buf.round then s
    else
      let s := due (s.buf.roundAt + tookMs.val * ms) s
      let suspects := (s.buf.pkts.filter fun e => e.2.mark != s.buf.rounds % 256).map fun e => e.2.desc
      let billets := s.buf.lostBillets
      let pages := (s.buf.lostPages.map Prod.fst).map (· + Config.billets)
      let ds := suspects.filter fun i => s.buf.suspects.contains i
      let bs := billets.filter fun i => s.buf.strays.contains i
      let ps := pages.filter fun i => s.buf.strays.contains i
      let reclaim := flag s (obj .shCtl) ShCtl.RECLAIM
      let items := ds.map (fun d => obj .pktDesc d) ++ bs.map (fun _ => obj .bufStatus) ++ ps.map fun h => pageOwner s (h - Config.billets)
      let s := forAll (items.zipIdx) (fun e s => leakFound e.1 e.2 s) s
      let s := if reclaim then
          forAll bs reclaimBillet (forAll ps (fun h s => reclaimPage (h - Config.billets) s)
            (forAll ((s.buf.pkts.filter fun e => ds.contains e.2.desc).map Prod.fst) freePacket s))
        else s
      let s := { s with buf := { s.buf with round := false, suspects := suspects, strays := billets ++ pages } }
      let k := obj .shStatus
      let s := mapF s k ShStatus.ROUND (· + 1)
      let s := wr s k ShStatus.LAST_MS tookMs.val
      let s := wr (wr s k ShStatus.SUSPECTS (suspects.length + billets.length + pages.length)) k ShStatus.LAST_LEAKS items.length
      bump .poolGctr 5 0 1 s)

end Sys2Proof.Machine
end

