-- ==== Sys2Proof/Machine/HbmPort.lean ====
section
/-! DEFINITION. How a requester gives a request to an HBM controller (R122, R395, R399, R400). -/
namespace Sys2Proof.Machine

/-- What the model keeps of a stack. -/
def getStack (s : State) (st : Nat) : Stack := tabGet s.hbm st Stack.idle
/-- See `getStack`. -/
def setStack (st : Nat) (x : Stack) (s : State) : State := { s with hbm := tabPut s.hbm st x }

/-- The block of a stack. -/
def hbBlock (st : Nat) : Nat := (hbmBlocks[st]?).getD 0x58
/-- Control and status of a stack, its requesters and its channels. -/
def hbC (st : Nat) : Key := obj .hbCtl st
/-- See `hbC`. -/
def hbS (st : Nat) : Key := obj .hbStatus st
/-- See `hbC`. -/
def hbR (st r : Nat) : Key := obj .hbReq (16 * st + r)
/-- See `hbC`. -/
def hbCh (st c : Nat) : Key := obj .hbChan (8 * st + c)

/-- The parts of a byte address (R395): pseudo-channel, bank and row. -/
def pcOf (a : Nat) : Nat := bitsAt a 10 4
/-- See `pcOf`. -/
def bankOfAddr (a : Nat) : Nat := bitsAt a 14 5
/-- See `pcOf`. -/
def rowOf (a : Nat) : Nat := a / 2 ^ 19
/-- The address of the first line of a row. -/
def rowAddr (pc bank row : Nat) : Nat := row * 2 ^ 19 + bank * 2 ^ 14 + pc * 2 ^ 10

/-- A bank of a stack. -/
def getBank (x : Stack) (pc b : Nat) : Bank := tabGet x.banks (32 * pc + b) Bank.idle
/-- See `getBank`. -/
def setBank (pc b : Nat) (k : Bank) (x : Stack) : Stack := { x with banks := tabSet x.banks (32 * pc + b) k Bank.idle }

/-- Add to a counter of a pseudo-channel and of a requester. -/
def pcCount (st pc i : Nat) (s : State) : State := bump .hbPcCtr (16 * st + pc) i 1 s
/-- See `pcCount`. -/
def rqCount (st r i : Nat) (s : State) : State := bump .hbRqCtr (16 * st + r) i 1 s

/-- Bring QUEUED of the controller and of its requesters up to date (R411, R412). -/
def showRequests (st : Nat) (s : State) : State :=
  let l := (getStack s st).reqs
  let s := wr s (hbS st) HbStatus.QUEUED l.length
  forAll (List.range 16) (fun r s =>
    let n := (l.filter fun h => h.rq.req.val == r).length
    if rd s (hbR st r) HbReq.QUEUED = n then s else wr s (hbR st r) HbReq.QUEUED n) s

/-- Whether a requester is throttled on a bank of a pseudo-channel. -/
def throttledOn (x : Stack) (pc r : Nat) : Bool := (List.range 32).any fun b => (getBank x pc b).slowed.any fun e => e.1 == r

/-- Whether the controller has room for a request (R399). -/
def hbmRoom (x : Stack) (pc r cls : Nat) : Bool :=
  let l := x.reqs
  let mine := l.filter fun h => pcOf h.rq.addr == pc
  decide (l.length < 1024) && decide (mine.length < 256) &&
    (cls == 0 || decide ((l.filter fun h => h.cls != 0).length < 896)) &&
    (cls != 3 || decide ((l.filter fun h => h.cls == 3).length < 64)) &&
    (!throttledOn x pc r || decide ((mine.filter fun h => h.rq.req.val == r).length < 32))

/-- Offer a request to a controller (R399, R400): a read of a line whose last held request is a read joins it; after a held write it is
served from that write; of two held writes to a line the earlier is not carried out. Answers whether it is accepted, with the number
under which it is held. -/
def hbmOfferAs (cls st : Nat) (r : HbmReq) (s : State) : Option (Option Nat) × State :=
  let q := r.req.val
  let x := getStack s st
  let line := x.reqs.filter fun h => h.rq.addr == r.addr
  if rd s (hbS st) HbStatus.STATE ≠ 1 ∨ !flag s (hbR st q) HbReq.PRESENT then (none, s)
  else if !r.write ∧ !line.isEmpty then (some none, rqCount st q 0 s)
  else if !hbmRoom x (pcOf r.addr) q cls then (none, pcCount st (pcOf r.addr) 7 s)
  else
    let kept := if r.write then x.reqs.filter fun h => !(h.rq.addr == r.addr && h.rq.write && !h.issued) else x.reqs
    let h : HbmHeld := { id := x.nextId, rq := r, cls := cls, close := flag s (hbR st q) HbReq.HINT, since := s.clock,
                         passed := 0, issued := false, slowed := false }
    (some (some h.id), showRequests st (rqCount st q 0 (setStack st { x with reqs := kept ++ [h], nextId := x.nextId + 1 } s)))

/-- Offer a request in its requester's class (R397). -/
def hbmOffer (st : Nat) (r : HbmReq) (s : State) : Option (Option Nat) × State :=
  hbmOfferAs (rd s (hbR st r.req.val) HbReq.CLASS) st r s

/-- Take a request out of the controller. -/
def dropRequest (st : Nat) (h : HbmHeld) (s : State) : State :=
  let x := getStack s st
  showRequests st (setStack st { x with reqs := x.reqs.erase h } s)

/-- A request of a requester ends: its controller no longer holds it. -/
def endRequest (st id : Nat) (s : State) : State :=
  match (getStack s st).reqs.find? fun h => h.id == id with
  | some h => dropRequest st h s
  | none => s

/-- Requests queued for a pseudo-channel of an FD stack, a FAILED stack counting as full (R122, R409). -/
def queuedAt (s : State) (st pc : Nat) : Nat :=
  if rd s (hbS st) HbStatus.STATE = 2 then 1024 else ((getStack s st).reqs.filter fun h => pcOf h.rq.addr == pc).length

end Sys2Proof.Machine
end

