-- ==== Sys2Proof/Machine/Threads.lean ====
section
/-! DEFINITION. Engine clusters and threads as other blocks see them, and records of twin mode (R27, R78, R110, R454, R460, R462). -/
namespace Sys2Proof.Machine

/-! ## Clusters and threads (R77, R78, R110) -/

/-- Cluster control, version and status. -/
def clKey (cl : Nat) : Key := obj .clCtl cl
/-- See `clKey`. -/
def clVer (cl : Nat) : Key := obj .clVersion cl

/-- STATE of a cluster: EMPTY, RUNNING, PENDING, DRAINING, LOADING, PARKED, FAILED (R116). -/
def csEmpty : Nat := 0
/-- See `csEmpty`. -/
def csRunning : Nat := 1
/-- See `csEmpty`. -/
def csPending : Nat := 2
/-- See `csEmpty`. -/
def csDraining : Nat := 3
/-- See `csEmpty`. -/
def csLoading : Nat := 4
/-- See `csEmpty`. -/
def csParked : Nat := 5
/-- See `csEmpty`. -/
def csFailed : Nat := 6

/-- STATE of a cluster. -/
def clState (s : State) (cl : Nat) : Nat := rd s (clKey cl) ClCtl.STATE

/-- What the model keeps of a cluster. -/
def getCl (s : State) (cl : Nat) : Cluster := tabGet s.eng.clusters cl Cluster.empty
/-- See `getCl`. -/
def setCl (cl : Nat) (x : Cluster) (s : State) : State :=
  { s with eng := { s.eng with clusters := tabSet s.eng.clusters cl x Cluster.empty } }

/-- Whether a cluster runs an image. -/
def hasImage (s : State) (cl : Nat) : Bool := !(getCl s cl).image.isEmpty

/-- Whether a cluster is in service: it reads RUNNING, or PENDING with an image running (R110). -/
def inService (s : State) (cl : Nat) : Bool :=
  clState s cl == csRunning || (clState s cl == csPending && hasImage s cl)

/-- The clusters in service. -/
def serviceClusters (s : State) : List Nat := (List.range 32).filter (inService s)

/-- A thread that is not IDLE. -/
def getThr (s : State) (t : Nat) : Option Thread := tabGet? s.eng.threads t
/-- Replace a thread. -/
def setThr (t : Nat) (x : Thread) (s : State) : State :=
  { s with eng := { s.eng with threads := tabPut s.eng.threads t x } }
/-- The threads of a cluster that hold a pass. -/
def busyThreads (s : State) (cl : Nat) : Nat := (s.eng.threads.filter fun t => t.1 / 512 == cl).length

/-! ## Load (R110, R117) -/

/-- The entries of a log, newest first, that the last 1 ms needs: those within it, and the one in force when it began. -/
def lastMs (s : State) (l : List (Nat × Nat)) : List (Nat × Nat) :=
  let (a, b) := l.span fun e => decide (s.clock < e.1 + ms)
  a ++ b.take 1

/-- Note how many threads of a cluster are busy from now on. -/
def noteBusy (cl : Nat) (s : State) : State :=
  let l := (s.clock, busyThreads s cl) :: lastMs s (tabGet s.eng.busyLog cl [])
  { s with eng := { s.eng with busyLog := tabPut s.eng.busyLog cl l } }

/-- Note the EC cycles of an issue in a cluster. -/
def noteIssue (cl n : Nat) (s : State) : State :=
  let l := (s.clock, n) :: lastMs s (tabGet s.eng.issueLog cl [])
  { s with eng := { s.eng with issueLog := tabPut s.eng.issueLog cl l } }

/-- EC cycles that a cluster issued in the last 1 ms. -/
def cyclesOf (s : State) (cl : Nat) : Nat :=
  (((tabGet s.eng.issueLog cl []).filter fun e => decide (s.clock < e.1 + ms)).map Prod.snd).sum

/-- The busy threads of a cluster summed over the last 1 ms, in thread nanoseconds. -/
def busyArea (s : State) (cl : Nat) : Nat :=
  ((tabGet s.eng.busyLog cl []).foldl (fun (x : Nat × Nat) e =>
    let from_ := max e.1 (s.clock - ms)
    (x.1 + e.2 * (x.2 - from_), min x.2 from_)) (0, s.clock)).1

/-- EC cycles that a cluster can issue in 1 ms: 32 engines at 1.8 GHz. -/
def cyclesPerMs : Nat := 32 * 1800000

/-- UTIL of a cluster, per mille (R117). -/
def utilOf (s : State) (cl : Nat) : Nat := min 1000 (cyclesOf s cl * 1000 / cyclesPerMs)

/-- Issued EC cycles and busy thread nanoseconds of the whole device over the last 1 ms. -/
def deviceWork (s : State) : Nat × Nat :=
  (((List.range 32).map (cyclesOf s)).sum, ((List.range 32).map (busyArea s)).sum)

/-- DEVICE_LOAD, per mille: the greater of the two fractions of R110. -/
def deviceLoad (s : State) : Nat :=
  let (c, b) := deviceWork s
  min 1000 (max (c * 1000 / (32 * cyclesPerMs)) (b * 1000 / (16384 * ms)))

/-- The load test of R110, load ≤ LOAD_LIMIT × m ÷ 31. -/
def loadFits (s : State) (limit m : Nat) : Bool :=
  let (c, b) := deviceWork s
  decide (c * 3100 ≤ limit * m * (32 * cyclesPerMs) ∧ b * 3100 ≤ limit * m * (16384 * ms))

/-! ## Threads and the headers that wait for them -/

/-- Whether a lookup unit holds a request: it has accepted it, and has not formed its result. -/
def inUnit (k : Look) : Bool :=
  match k.phase with
  | .asked | .formed .. => false
  | _ => true

/-- A thread becomes IDLE; a lookup that a unit holds goes on without it (R137, R162). -/
def endThr (t : Nat) (s : State) : State :=
  let left : List (Nat × Thread) := match getThr s t with
    | some x => if x.look.any inUnit then [(t, x)] else []
    | none => []
  noteBusy (t / 512) { s with eng := { s.eng with threads := tabDel s.eng.threads t, orphans := s.eng.orphans ++ left } }

/-- The requests that the lookup units hold or are offered: those of ended passes first. -/
def lookups (s : State) : List (Thread × Look) :=
  (s.eng.orphans ++ s.eng.threads).filterMap fun e => e.2.look.map fun k => (e.2, k)

/-- The oldest request of a thread's number whose look fits: whether its pass has ended, its thread and the look. -/
def requestOf (s : State) (t : Nat) (p : Look → Bool) : Option (Bool × Thread × Look) :=
  let fit (gone : Bool) (x : Thread) : Option (Bool × Thread × Look) :=
    match x.look with
    | some k => if p k then some (gone, x, k) else none
    | none => none
  match s.eng.orphans.findSome? fun e => if e.1 = t then fit true e.2 else none with
  | some r => some r
  | none => (getThr s t).bind (fit false)

/-- Replace the look of a request that `requestOf` has found; the look of an ended pass goes when its result is formed. -/
def putLook (gone : Bool) (t : Nat) (x : Thread) (k : Look) (s : State) : State :=
  if gone then
    let rest := s.eng.orphans.erase (t, x)
    { s with eng := { s.eng with orphans := if inUnit k then (t, { x with look := some k }) :: rest else rest } }
  else setThr t { x with look := some k } s

/-- Heads of packets that have been dequeued and wait for their egress thread, those still in the bridge first (R27). -/
def egressWaits (s : State) : List EgressHdr :=
  ((flitsOf s 1).filterMap fun f => match f with
    | .egress h => some h
    | _ => none) ++ s.eng.egressQ

/-- IDLE threads of an engine: none while Grazing has it out of dispatch (R495). -/
def idleOfEngine (s : State) (e : Nat) : Nat :=
  if s.flt.engOut.contains e then 0 else 16 - (s.eng.threads.filter fun x => x.1 / 16 == e).length
/-- IDLE threads of a cluster. -/
def idleOfCluster (s : State) (cl : Nat) : Nat :=
  512 - 16 * (s.flt.engOut.filter fun e => e / 32 == cl).length -
    (s.eng.threads.filter fun x => x.1 / 512 == cl && !s.flt.engOut.contains (x.1 / 16)).length
/-- IDLE threads that dispatch may give a header. -/
def idleThreads (s : State) : Nat := ((serviceClusters s).map (idleOfCluster s)).sum

/-! ## Twin mode (R454, R460, R462) -/

/-- Send a load over the Yoke: blocks are spread over the links that are up (R454). -/
def yokeSpread (load : YokeLoad) (s : State) : State :=
  match yokesUp s with
  | [] => s
  | [y] => yokeSend y load s
  | _ => yokeSend (s.pair.txSeq % 2) load s

/-- Records that a block carries. -/
def recordsPerBlock : Nat := 126
/-- Records that a unit holds for the Yoke: 1 MB of 8 B each (R462). -/
def maxRecords : Nat := 131072

/-- Send the records that wait, as many blocks as they fill, and the rest when `all` (R460). -/
def sendRecords : Nat → Bool → State → State
  | 0, _, s => s
  | fuel + 1, all, s =>
    let l := s.pair.records
    if (yokesUp s).isEmpty ∨ l.isEmpty ∨ (!all ∧ l.length < recordsPerBlock) then s
    else
      let s := { s with pair := { s.pair with records := l.drop recordsPerBlock, recFrom := s.clock } }
      sendRecords fuel all (yokeSpread (.records (l.take recordsPerBlock)) s)

/-- The active unit of a twin pair sends a record: it waits for the Yoke, in a buffer of 1 MB (R460, R462). -/
def twinRecord (r : YokeRec) (s : State) : State :=
  if twin s && role s == roleActive then
    if maxRecords ≤ s.pair.records.length then raiseAt 0x64 2 4 prS s
    else
      let s := { s with pair := { s.pair with records := s.pair.records ++ [r],
                                              recFrom := if s.pair.records.isEmpty then s.clock else s.pair.recFrom } }
      sendRecords (s.pair.records.length + 1) false (bump .prCtr 3 0 1 s)
  else s

end Sys2Proof.Machine
end

