-- ==== Sys2Proof/Machine/Queue.lean ====
section
/-! DEFINITION. Queues, admission, meters and buckets, the egress hierarchy, gate control lists, PFC and the sampler (R305 to
R336). -/
namespace Sys2Proof.Machine

/-! ## Buckets (R317 to R319) -/

/-- A bucket pair, by its meter or shaper: full until its first use (R319). -/
def bucketOf (s : State) (k : Key) : Bucket :=
  match tabGet? s.que.buckets (keyNo k) with
  | some b => b
  | none => { tc := 1024 * rd s k Meter.CBS, tp := 1024 * rd s k Meter.PBS, last := ivl s }

/-- Tokens that a rate in units of 10 kb/s gives in dt units of 2^-16 ns, in 1/1,024 B: the whole ones (R317). -/
def tokens (rate dt : Nat) : Nat := rate * dt / 51200000

/-- A level after dt at a rate, never filled above its depth. -/
def fill (level : Int) (rate dt depthB : Nat) : Int := min (1024 * (depthB : Int)) (level + (tokens rate dt : Int))

/-- The bucket pair at this moment (R317). -/
def credited (s : State) (k : Key) : Bucket :=
  let b := bucketOf s k
  let dt := ivl s - b.last
  { tc := fill b.tc (rd s k Meter.CIR) dt (rd s k Meter.CBS),
    tp := fill b.tp (rd s k Meter.PIR) dt (rd s k Meter.PBS), last := ivl s }

/-- Keep the levels of a bucket pair. -/
def setBucket (k : Key) (b : Bucket) (s : State) : State :=
  { s with que := { s.que with buckets := tabPut s.que.buckets (keyNo k) b } }

/-- Credit the tokens due up to now, as a write of a rate or a depth does first at the old values (R318). -/
def touchBucket (k : Key) (s : State) : State := setBucket k (credited s k) s

/-- Take L bytes from both levels (R325). -/
def takeBucket (k : Key) (len : Nat) (s : State) : State :=
  let b := credited s k
  setBucket k { b with tc := b.tc - 1024 * len, tp := b.tp - 1024 * len } s

/-- CLEAR sets both levels to their depths (R318). -/
def clearBucket (k : Key) (s : State) : State :=
  setBucket k { tc := 1024 * rd s k Meter.CBS, tp := 1024 * rd s k Meter.PBS, last := ivl s } s

/-- A level in whole bytes, two's complement in 32 bits (R339). -/
def levelBytes (l : Int) : Nat := ((2 ^ 32 + l.fdiv 1024) % 2 ^ 32).toNat

/-! ## Meters (R313 to R316) -/

/-- Colours: green, yellow, red. -/
def green : Nat := 0
/-- See `green`. -/
def yellow : Nat := 1
/-- See `green`. -/
def red : Nat := 2

/-- The colour of a packet of L bytes and the levels after it (R315). -/
def colourOf (loose aware : Bool) (pre len : Nat) (b : Bucket) : Nat × Bucket :=
  let l : Int := 1024 * len
  let low (x : Int) : Bool := if loose then decide (x ≤ 0) else decide (x < l)
  if (aware && decide (2 ≤ pre)) || low b.tp then (red, b)
  else if (aware && pre == 1) || low b.tc then (yellow, { b with tp := b.tp - l })
  else (green, { b with tp := b.tp - l, tc := b.tc - l })

/-- The levels after a packet that another unit coloured (R461). -/
def chargeColour (colour len : Nat) (b : Bucket) : Bucket :=
  let l : Int := 1024 * len
  if colour = green then { b with tp := b.tp - l, tc := b.tc - l }
  else if colour = yellow then { b with tp := b.tp - l } else b

/-- Apply a meter to a packet, or charge the colour that a record names; answers the colour, none when the meter is not enabled
(R314, R461). -/
def runMeter (m pre len : Nat) (named : Option Nat) (s : State) : Option Nat × State :=
  let k := obj .meter m
  if !flag s k Meter.EN then (none, s)
  else
    let b := credited s k
    let (c, b) := match named with
      | some c => (c, chargeColour c len b)
      | none => colourOf (flag s k Meter.LOOSE) (flag s k Meter.COLOR_AWARE) pre len b
    let s := setBucket k b s
    (some c, bump .mtCtr m (2 * c + 1) len (bump .mtCtr m (2 * c) 1 s))

/-! ## Queue numbers and their objects (R305, R306, R336) -/

/-- The VOQ of a node, port and class. -/
def voqOf (node port tc : Nat) : Nat := 384 * node + 8 * port + tc
/-- The number of an egress queue. -/
def egressNo (e : Nat) : Nat := Config.voqs + e
/-- The multicast queue of a class. -/
def mqOf (tc : Nat) : Nat := Config.voqs + Config.egressQueues + tc
/-- Whether a queue is an egress queue. -/
def isEgress (q : Nat) : Bool := decide (Config.voqs ≤ q ∧ q < Config.voqs + Config.egressQueues)
/-- The index of a queue in its block: j of block VOQ, or e. -/
def queueIx (q : Nat) : Nat :=
  if isEgress q then q - Config.voqs else if q < Config.voqs then q else q - Config.egressQueues
/-- The state object of a queue. -/
def queueState (q : Nat) : Key := obj (if isEgress q then .eqState else .vqState) (queueIx q)
/-- The admission profile of a queue (R310). -/
def admOf (s : State) (q : Nat) : Key :=
  obj .admProf (if isEgress q then rd s (obj .eqCfg (queueIx q)) EqCfg.PROFILE
    else rd s (obj .vqCfg (queueIx q)) VqCfg.PROFILE)
/-- Count on a queue's counters. -/
def queueCount (q i n : Nat) (s : State) : State :=
  if isEgress q then bump .eqCtr (queueIx q) i n s else bump .vqCtr (queueIx q) i n s

/-! ## Admission (R310 to R312, R332) -/

/-- EN, MAXP, MIN and MAX of a drop precedence. -/
def wredOf (s : State) (a : Key) (k : Nat) : Bool × Nat × Nat × Nat :=
  let x := bitsAt (rdWord s a) (64 * (2 - k)) 64
  (x.testBit 63, bitsAt x 48 15, bitsAt x 24 24, bitsAt x 0 24)

/-- Whether a class is lossless. -/
def lossless (s : State) (tc : Nat) : Bool := (rd s (obj .voqGlobal) VoqGlobal.LOSSLESS).testBit tc

/-- One update of AVG towards a depth, in 1/256 billets (R312). -/
def avgStep (avg d w : Nat) : Nat := ((avg : Int) + ((256 * d : Int) - avg).fdiv (2 ^ w)).toNat

/-- Updates with a depth of 0. -/
def avgIdle : Nat → Nat → Nat → Nat
  | 0, avg, _ => avg
  | n + 1, avg, w => if avg = 0 then 0 else avgIdle n (avgStep avg 0 w) w

/-- AVG of a queue at an enqueue, before its checks: an update for each whole 10 µs that it was empty, then one for its depth
(R312). -/
def touchAvg (q : Nat) (s : State) : State :=
  let x := getQ s q
  let d := depth x
  let w := rd s (admOf s q) AdmProf.WEIGHT
  let n := if d = 0 then (ivl s - x.emptyAt) / 655360000 else 0
  let avg := if x.avgSet then avgStep (avgIdle n x.avg w) d w else 256 * d
  setQ q { x with avg := avg, avgSet := true, emptyAt := x.emptyAt + 655360000 * n } s

/-- What admission decides: admitted, or dropped with the VOQ global counter of the reason. -/
def admitPkt (q tc prec n : Nat) (s : State) : Option Nat × State :=
  let s := touchAvg q s
  let x := getQ s q
  let a := admOf s q
  let (en, maxp, mn, mx) := wredOf s a prec
  if lossless s tc then (none, s)
  else if rd s a AdmProf.LIMIT < depth x + n then (some 0, s)
  else if en && decide (4096 * mx ≤ x.avg) then (some 1, s)
  else if en && decide (4096 * mn < x.avg) then
    let (r, s) := drawEntropy s
    (if r % (32768 * (4096 * (mx - mn))) < (maxp + 1) * (x.avg - 4096 * mn) then some 1 else none, s)
  else (none, s)

/-- The length of the frame that a reference stands for: a mirror copy is cut at TRUNC (R511). -/
def frameLen (r : Ref) : Nat := match r.mirror with
  | some (_, t) => min r.len t
  | none => r.len

/-- Drop a packet at a queue: counted there and for its reason, and freed (R310). -/
def dropAt (q reason : Nat) (r : Ref) (s : State) : State :=
  endRef r (bump .voqGctr reason 0 1 (queueCount q 3 (frameLen r) (queueCount q 2 1 s)))

/-! ## The egress hierarchy (R320 to R325) -/

/-- The config of a node at levels 1 to 4. -/
def nodeKey (lv n : Nat) : Key :=
  match lv with
  | 1 => obj .grpCfg n
  | 2 => obj .tenCfg n
  | 3 => obj .subCfg n
  | _ => obj .eqCfg n
/-- The shaper of a node. -/
def shaperKey (lv n : Nat) : Key :=
  match lv with
  | 0 => obj .shPort n
  | 1 => obj .shGrp n
  | 2 => obj .shTen n
  | 3 => obj .shSub n
  | _ => obj .shQueue n
/-- The parent of a node at levels 1 to 4. -/
def parentOf (s : State) (lv n : Nat) : Nat := rd s (nodeKey lv n) GrpCfg.PARENT
/-- A number for a node. -/
def nodeId (lv n : Nat) : Nat := lv * 2 ^ 20 + n

/-- The chain of an egress queue, from the queue up to its port: (level, number). -/
def chainOf (s : State) (e : Nat) : List (Nat × Nat) :=
  let b := parentOf s 4 e
  let t := parentOf s 3 b
  let g := parentOf s 2 t
  [(4, e), (3, b), (2, t), (1, g), (0, parentOf s 1 g)]

/-- The port at the top of an egress queue's chain (R320). -/
def portOfQueue (s : State) (e : Nat) : Nat :=
  match (chainOf s e).getLast? with
  | some (_, p) => p
  | none => 0

/-- The egress queues that hold a packet. -/
def busyQueues (s : State) : List Nat :=
  (s.que.queues.filter fun x => isEgress x.1 && depth x.2 != 0).map fun x => x.1 - Config.voqs
/-- The egress queues of a port that hold a packet. -/
def queuesOfPort (s : State) (p : Nat) : List Nat := (busyQueues s).filter fun e => portOfQueue s e == p

/-- The number of the node at a level of a queue's chain. -/
def ancestor (s : State) (e lv : Nat) : Nat :=
  match (chainOf s e).find? fun x => x.1 == lv with
  | some (_, n) => n
  | none => 0

/-- The band a node took when it became active (R324). -/
def bandOf (s : State) (lv n : Nat) : Nat := tabGet s.que.bands (nodeId lv n) 0
/-- The virtual time of a node for a band of its children. -/
def vOf (s : State) (lv n band : Nat) : Word := tabGet s.que.vtime (nodeId lv n * 8 + band) 0
/-- See `vOf`. -/
def setV (lv n band : Nat) (v : Word) (s : State) : State :=
  { s with que := { s.que with vtime := tabSet s.que.vtime (nodeId lv n * 8 + band) v 0 } }
/-- The start tag of a node. -/
def tagOf (s : State) (lv n : Nat) : Word := tabGet s.que.stag (nodeId lv n) 0
/-- See `tagOf`. -/
def setTag (lv n : Nat) (v : Word) (s : State) : State :=
  { s with que := { s.que with stag := tabSet s.que.stag (nodeId lv n) v 0 } }

/-- Serial comparison modulo 2^64 (R324). -/
def before (a b : Word) : Bool := a != b && decide ((b - a).toNat < 2 ^ 63)

/-- A node becomes active, when it is not: it takes its band, and S ← V (R321, R324). -/
def activate (lv n : Nat) (s : State) : State :=
  if lv = 0 ∨ flag s (nodeKey lv n) GrpCfg.ACTIVE then s
  else
    let band := rd s (nodeKey lv n) GrpCfg.BAND
    let s := wr s (nodeKey lv n) GrpCfg.ACTIVE 1
    let s := { s with que := { s.que with bands := tabSet s.que.bands (nodeId lv n) band 0 } }
    setTag lv n (vOf s (lv - 1) (parentOf s lv n) band) s

/-- A node holds no packet any more. -/
def deactivate (lv n : Nat) (s : State) : State :=
  let s := wr s (nodeKey lv n) GrpCfg.ACTIVE 0
  { s with que := { s.que with held := s.que.held.filter fun i => i != nodeId lv n } }

/-- Clear ACTIVE along the chain of a queue, at every node that holds no packet (R321). -/
def settleActive (e : Nat) (s : State) : State :=
  let busy := busyQueues s
  forAll (chainOf s e) (fun x s =>
    if x.1 = 0 ∨ busy.any (fun f => ancestor s f x.1 == x.2) then s else deactivate x.1 x.2 s) s

/-- Whether the peak bucket lets a node serve (R323). -/
def peakOk (s : State) (lv n : Nat) : Bool :=
  let k := shaperKey lv n
  !flag s k ShPort.PEAK_EN || decide (0 ≤ (credited s k).tp)
/-- Whether a node takes part in the committed phase (R322). -/
def committed (s : State) (lv n : Nat) : Bool :=
  let k := shaperKey lv n
  flag s k ShPort.COMMIT_EN && decide (0 ≤ (credited s k).tc)

/-- Whether a class is paused on a port (R334). -/
def pausedOn (s : State) (p tc : Nat) : Bool :=
  match tabGet? s.que.paused (8 * p + tc) with
  | some t => decide (ivl s < t)
  | none => false

/-- Frames of a class on their way to a port's transmit FIFO: dequeued, in an egress pass, or in the FIFO (R329). -/
def inTransit (s : State) (p tc : Nat) : Nat :=
  ((txOf s p).filter fun f => f.tc == tc).length + ((egressWaits s).filter fun h => h.port == p && h.tc == tc).length +
    (s.eng.threads.filter fun t => t.2.egress && t.2.outPort == p && t.2.ref.tc == tc).length

/-- Whether the bytes of a packet are still on their way to the hot tier (R19). -/
def inBridge (s : State) (pkt : Nat) : Bool := (flitsOf s 0).contains (.body pkt)

/-- The conditions of R323 on a queue beside its own shaper: a head packet at hand, not paused, room in the transmit FIFO. -/
def queueReady (s : State) (p e : Nat) : Bool :=
  match (getQ s (egressNo e)).head with
  | [] => false
  | r :: _ => !inBridge s r.pkt && !pausedOn s p r.tc && (!gateInForce s p || decide (inTransit s p r.tc < 4))

/-- Whether a queue may be reached from the port down: it is ready and every node of its chain may serve. -/
def reachableQueue (s : State) (p e : Nat) : Bool :=
  queueReady s p e && (chainOf s e).all fun x => peakOk s x.1 x.2

/-- Whether a queue's head is held by a pause. -/
def pausedQueue (s : State) (p e : Nat) : Bool :=
  match (getQ s (egressNo e)).head with
  | r :: _ => pausedOn s p r.tc
  | [] => false

/-- The active nodes of a port below its level. -/
def nodesOf (s : State) (p : Nat) : List (Nat × Nat) :=
  ((queuesOfPort s p).flatMap fun e => (chainOf s e).filter fun x => x.1 != 0).dedup

/-- Whether the node's own shaper or a pause holds it: every queue at or below it is paused. -/
def heldNow (s : State) (p : Nat) (x : Nat × Nat) : Bool :=
  !peakOk s x.1 x.2 ||
    ((queuesOfPort s p).filter fun e => ancestor s e x.1 == x.2).all (pausedQueue s p)

/-- Note which nodes of a port are held; one that is held no more takes S ← max(S, V) (R324). -/
def noteHeld (p : Nat) (s : State) : State :=
  forAll (nodesOf s p) (fun x s =>
    let id := nodeId x.1 x.2
    if heldNow s p x then
      if s.que.held.contains id then s else { s with que := { s.que with held := id :: s.que.held } }
    else if s.que.held.contains id then
      let s := { s with que := { s.que with held := s.que.held.filter fun i => i != id } }
      let v := vOf s (x.1 - 1) (parentOf s x.1 x.2) (bandOf s x.1 x.2)
      if before (tagOf s x.1 x.2) v then setTag x.1 x.2 v s else s
    else s) s

/-- Whether one child comes before another: higher band, smaller start tag, lower number (R322). -/
def childBefore (s : State) (lv a b : Nat) : Bool :=
  let ba := bandOf s lv a
  let bb := bandOf s lv b
  if ba ≠ bb then decide (bb < ba)
  else if tagOf s lv a ≠ tagOf s lv b then before (tagOf s lv a) (tagOf s lv b)
  else decide (a < b)

/-- The choice of R322 among the eligible children of a node. -/
def chooseChild (s : State) (lv : Nat) (l : List Nat) : Option Nat :=
  let c := l.filter (committed s lv)
  (if c.isEmpty then l else c).foldl (fun best n =>
    match best with
    | none => some n
    | some b => if childBefore s lv n b then some n else some b) none

/-- Descend from the port: at each level keep the queues under the chosen child. -/
def descend (s : State) : Nat → List Nat → List Nat
  | 0, l => l
  | n + 1, l =>
    let lv := 4 - n
    match chooseChild s lv (l.map fun e => ancestor s e lv).dedup with
    | none => []
    | some c => descend s n (l.filter fun e => ancestor s e lv == c)

/-- The queue that a dequeue of a port serves (R322). -/
def chooseQueue (s : State) (p : Nat) : Option Nat :=
  (descend s 4 ((queuesOfPort s p).filter (reachableQueue s p))).head?

/-- Charge L bytes along a queue's chain and advance the tags at every level (R324, R325). -/
def chargeChain (e len : Nat) (s : State) : State :=
  forAll (chainOf s e) (fun x s =>
    let s := takeBucket (shaperKey x.1 x.2) len s
    if x.1 = 0 then s
    else
      let tag := tagOf s x.1 x.2
      let w := rd s (nodeKey x.1 x.2) GrpCfg.WEIGHT
      let s := setV (x.1 - 1) (parentOf s x.1 x.2) (bandOf s x.1 x.2) tag s
      setTag x.1 x.2 (tag + BitVec.ofNat 64 ((len * 4096 + w - 1) / w)) s) s

/-! ## Enqueue and dequeue -/

/-- Take the head packet of a queue, when it is in the head segment or in staging (R300). -/
def popHead (q : Nat) (s : State) : Option (Ref × State) :=
  let x := getQ s q
  match x.head with
  | [] => none
  | r :: rest =>
    let s := setQ q { x with head := rest, headAt := ivl s } s
    let s := if depth (getQ s q) = 0 then setQ q { getQ s q with emptyAt := ivl s } s else s
    some (r, settleQueue q s)

/-- Put an admitted packet in a queue: it becomes its named owner, or a copy's lease, and the queue's chain becomes active. -/
def enqueue (q : Nat) (r : Ref) (s : State) : State :=
  let s := queueCount q 1 (frameLen r) (queueCount q 0 1 s)
  let n := if isEgress q then rdWord s (obj .eqCtr (4 * queueIx q)) else rdWord s (obj .vqCtr (4 * queueIx q))
  let r := { r with qseq := n % 2 ^ 16, from_ := q }
  let s := match r.lease, getPkt s r.pkt with
    | false, some p => putPkt r.pkt { p with owner := q } s
    | _, _ => s
  let s := appendRef q r s
  if isEgress q then forAll (chainOf s (queueIx q)).reverse (fun x s => activate x.1 x.2 s) s else s

/-- Meterless admission of a packet to a queue: enqueued, or dropped (R310). -/
def admitTo (q : Nat) (r : Ref) (s : State) : Bool × State :=
  match admitPkt q r.tc r.prec (refBillets r) s with
  | (none, s) => (true, enqueue q r s)
  | (some reason, s) => (false, dropAt q reason r s)

/-- The egress queue of a packet for a port and class from a source node (R307). -/
def classQueue (s : State) (p tc src : Nat) : Nat :=
  let x := rdWord s (obj .classMap p)
  let base := getF x (classBase tc)
  let log := getF x (classLog2 tc)
  if log = 0 then base else base + src % 2 ^ log

/-- A packet reaches the egress queue of a port and class; it is dropped when that queue lies under another port (R307, R308,
R310). -/
def egressEnqueue (p tc src : Nat) (r : Ref) (s : State) : State :=
  let e := classQueue s p tc src
  if portOfQueue s e ≠ p then endRef r (bump .egCtr p 16 1 s)
  else (admitTo (egressNo e) r s).2

/-! ## IN_OCC and PFC (R333) -/

/-- XOFF and XON of a class on a port. -/
def xoffOf (s : State) (p n : Nat) : Nat := bitsAt (rdWord s (obj .pfcThr p)) (448 - 64 * n + 40) 24
/-- See `xoffOf`. -/
def xonOf (s : State) (p n : Nat) : Nat := bitsAt (rdWord s (obj .pfcThr p)) (448 - 64 * n + 16) 24
/-- IN_OCC of a port and class. -/
def inOcc (s : State) (p n : Nat) : Nat := tabGet s.que.inOcc (8 * p + n) 0

/-- Send one PFC frame for a class, and count it. -/
def sendPfc (p n quanta : Nat) (s : State) : State :=
  bump .voqGctr 3 0 1 (originate p .pfc [n, quanta] 64 s)

/-- The port signals PFC for a class at IN_OCC's crossings of XOFF and XON. -/
def checkPfc (p n : Nat) (s : State) : State :=
  let k := 8 * p + n
  let o := inOcc s p n
  match tabGet? s.que.xoff k with
  | some _ =>
    if o ≤ xonOf s p n then sendPfc p n 0 { s with que := { s.que with xoff := tabDel s.que.xoff k } } else s
  | none =>
    if (rd s (obj .lpCtl p) LpCtl.PFC_TX).testBit n && decide (xoffOf s p n < o) then
      sendPfc p n 0xFFFF { s with que := { s.que with xoff := tabPut s.que.xoff k s.clock } }
    else s

/-- A packet received on a port enters its VOQ: its billets count in IN_OCC. -/
def enterOcc (p n billets : Nat) (s : State) : State :=
  if p < 48 then
    checkPfc p n { s with que := { s.que with inOcc := tabSet s.que.inOcc (8 * p + n) (inOcc s p n + billets) 0 } }
  else s

/-- Its last billet has left into cells or the loop-back port, or it has been dropped from the VOQ. -/
def leaveOcc (r : Ref) (s : State) : State :=
  match r.occ, getPkt s r.pkt with
  | true, some x =>
    if x.arrPort < 48 then
      let k := 8 * x.arrPort + r.tc
      let s := { s with que := { s.que with inOcc := tabSet s.que.inOcc k (tabGet s.que.inOcc k 0 - refBillets r) 0 } }
      checkPfc x.arrPort r.tc s
    else s
  | _, _ => s

/-- The words of a descriptor cannot be read (R272): its packet is lost from every queue, or dropped where its pass ends, and its billets stay
allocated until Sheepdog reclaims them. -/
def loseDescriptor (d : Nat) (s : State) : State :=
  let s := raiseAt 0x40 1 2 (obj .pktDesc d) (bump .bufCtr 2 0 1 s)
  match s.buf.pkts.find? fun e => e.2.desc == d with
  | none => s
  | some (n, p) =>
    let here (r : Ref) : Bool := r.pkt == n
    forAll ((s.que.queues.filter fun e => (e.2.head ++ e.2.tail).any here).map Prod.fst) (fun q s =>
      let x := getQ s q
      let s := forAll ((x.head ++ x.tail).filter here) leaveOcc s
      let s := setQ q { x with head := x.head.filter fun r => !here r, tail := x.tail.filter fun r => !here r } s
      settleQueue q (if isEgress q then settleActive (queueIx q) s else s)) (putPkt n { p with bad := true } s)

/-- A word of queue state cannot be read (R340): the queue is emptied, its packets are lost and counted, and Sheepdog reclaims their
billets and its pages. -/
def loseQueue (q : Nat) (s : State) : State :=
  let x := getQ s q
  let here := x.head ++ x.tail
  let lost := here ++ x.pages.flatMap pageRefs
  let s := raiseAt (if isEgress q then 0x49 else 0x48) 0 1 (queueState q) s
  let s := queueCount q 3 (lost.map frameLen).sum (queueCount q 2 lost.length s)
  let s := forAll here leaveOcc s
  let gone := x.pages.foldl (fun t e => tabPut t e.handle (e.pool, q)) s.buf.lostPages
  let staged := ((x.pages.filter reading).flatMap Page.imgs).map fun i => refBillets i.ref
  let s := mapF { s with buf := { s.buf with lostPages := gone } } (obj .bufStatus) BufStatus.STAGED (· - staged.sum)
  let s := match spillKey q with
    | some k => wr s k QSpill.PAGES 0
    | none => s
  let s := settleQueue q (setQ q { x with head := [], pages := [], tail := [], emptyAt := ivl s } s)
  if isEgress q then settleActive (queueIx q) s else s

/-- PFC_REFRESH (R333): while IN_OCC stays above XON the frame is sent again, each time half of the last quanta has elapsed at the port's
rate. -/
def execPfcRefresh (p : Fin 48) (tc : Fin 8) (s : State) : Answer :=
  let k := 8 * p.val + tc.val
  .next (match tabGet? s.que.xoff k with
    | some t =>
      if xonOf s p.val tc.val < inOcc s p.val tc.val then
        let s := due (t + 0xFFFF * 256 * 1000 / max 1 (rateMb s p.val)) s
        sendPfc p.val tc.val 0xFFFF { s with que := { s.que with xoff := tabPut s.que.xoff k s.clock } }
      else s
    | none => s)

/-! ## VOQ_ENQUEUE (R310, R314, R360) -/

/-- The parts of a destination (R129, R130). -/
structure Dest where
  kind : Nat
  node : Nat
  port : Nat
  arg  : Nat
  tc   : Nat
  deriving DecidableEq, Repr

/-- Read a destination in the layout of R129. -/
def destOf (x : Nat) : Dest :=
  { kind := bitsAt x 61 3, node := bitsAt x 49 12, port := bitsAt x 43 6, arg := bitsAt x 21 22, tc := bitsAt x 0 3 }

/-- Whether a value names a destination: unicast to one of 48 ports, or multicast (R129, R130). -/
def isDest (x : Nat) : Bool :=
  let d := destOf x
  (d.kind == 1 && decide (d.port < 48)) || d.kind == 5

/-- Whether a packet for a node can go: the own address always can (R360). -/
def nodeOk (s : State) (n : Nat) : Bool :=
  n == s.fab.plan.addr || (inPlan s.fab.plan n && reachable s n)

/-- A pass result is metered and admitted; `named` is the colour of the record that the standby of a twin pair follows. Answers
the colour for the ingress record (R310, R314, R316, R360, R460). -/
def voqEnqueue (x : PassResult) (named : Option Nat) (s : State) : Option Nat × State :=
  match getPkt s x.pkt with
  | none => (none, s)
  | some p =>
    let d := destOf x.next
    let own : Ref := { pkt := x.pkt, lease := false, tc := d.tc, len := p.len, prec := 0, mirror := none, words := p.words,
                       group := none, occ := true, page := none, qseq := 0, from_ := ownerNone }
    if d.kind = 1 ∧ !nodeOk s d.node then (none, endRef own (bump .rtCtr 0 0 1 s))
    else
      let s := putPkt x.pkt { p with tc := d.tc, node := d.node, port := d.port, hash := x.hash } s
      let (c, s) := match x.meter with
        | some (m, pre) => runMeter m pre p.len named s
        | none => (none, s)
      let isRed := match x.meter with
        | some (m, _) => c == some red && !flag s (obj .meter m) Meter.RED_ACT
        | none => false
      if isRed then (c, endRef own (bump .voqGctr 2 0 1 s))
      else
        let q := if d.kind = 5 then mqOf d.tc else voqOf d.node d.port d.tc
        let r := { own with prec := c.getD green, group := if d.kind = 5 then some (d.arg % 2 ^ 16) else none }
        let (ok, s) := admitTo q r s
        (c, if ok then enterOcc p.arrPort d.tc (refBillets r) s else s)

/-- The digest of an ingress record (R460): the layout of the bytes it is taken over is not given. -/
def digestOf (x : PassResult) : Nat :=
  Config.twinDigest x.next ((x.meter.map Prod.fst).getD 0) x.hash % 2 ^ 24

/-- Frames received on a port, as twin records count them. -/
def nextSeq (p : Nat) (s : State) : Nat × State :=
  let n := (tabGet s.pair.fseq p 0 + 1) % 2 ^ 16
  (n, { s with pair := { s.pair with fseq := tabPut s.pair.fseq p n } })

/-- Send an ingress record for a pass of a frame received on a protected port (R460). -/
def ingressRecord (p : Nat) (colour : Option Nat) (digest : Nat) (s : State) : State :=
  if twin s && protPort s p && role s == roleActive then
    let (n, s) := nextSeq p s
    twinRecord (.ingress (Fin.ofNat 48 p) (BitVec.ofNat 16 n) (BitVec.ofNat 2 (colour.getD 3)) (BitVec.ofNat 24 digest)) s
  else s

/-- The standby of a twin pair keeps a pass's result until its ingress record comes (R461). -/
def expectRecord (p digest : Nat) (x : Option PassResult) (s : State) : State :=
  let (n, s) := nextSeq p s
  { s with pair := { s.pair with frames := tabPut s.pair.frames p (tabGet s.pair.frames p [] ++ [⟨n, digest, x⟩]) } }

/-- VOQ_ENQUEUE (R310, R314): the oldest result reaches block VOQ. -/
def execVoqEnqueue (s : State) : Answer :=
  .next (match s.que.results with
    | [] => s
    | x :: rest =>
      let s := { s with que := { s.que with results := rest } }
      let p := match getPkt s x.pkt with
        | some k => k.arrPort
        | none => 0xFF
      if twin s && protPort s p && role s == roleStandby then expectRecord p (digestOf x) (some x) s
      else
        let (c, s) := voqEnqueue x none s
        ingressRecord p c (digestOf x) s)

/-! ## EGRESS_DEQUEUE (R27, R184, R188, R322) -/

/-- Whether an egress queue is protected (R452, R460). -/
def protQueue (s : State) (e : Nat) : Bool := pairOn s && protPort s (portOfQueue s e)

/-- Dequeue the head packet of an egress queue: charge its path, advance the tags, clear what is no longer active. -/
def dequeueFrom (e : Nat) (s : State) : Option (Ref × State) :=
  match popHead (egressNo e) s with
  | none => none
  | some (r, s) => some (r, settleActive e (chargeChain e (frameLen r) s))

/-! ## Gate control lists (R327 to R331) -/

/-- The gate control of a port. -/
def gateKey (p : Nat) : Key := obj .gateCtl p
/-- The gate state the model keeps. -/
def getGate (s : State) (p : Nat) : Gate :=
  tabGet s.que.gates p { checking := none, pending := none, start := 0, entry := 0, count := 0, base := 0, restart := none }
/-- See `getGate`. -/
def setGate (p : Nat) (g : Gate) (s : State) : State :=
  { s with que := { s.que with gates := tabPut s.que.gates p g } }

/-- GATES and DURATION of an entry of a gate list. -/
def gateEntry (s : State) (p k i : Nat) : Nat × Nat :=
  let x := bitsAt (rdWord s (obj .gateList ((2 * p + k) * 4 + i / 64))) (2048 - 32 * (i % 64 + 1)) 32
  (x / 2 ^ 24, x % 2 ^ 24)

/-- The admin list: the one that is not in force, list 0 when none is (R327). -/
def adminList (s : State) (p : Nat) : Nat :=
  if gateInForce s p then 1 - rd s (gateKey p) GateCtl.OPER else 0

/-- The durations of a list's first n entries, in ns. -/
def durations (s : State) (p k n : Nat) : List Nat := (List.range n).map fun i => (gateEntry s p k i).2

/-- Whether the admin list passes the check of R328. -/
def listOk (s : State) (p : Nat) : Bool :=
  let n := rd s (gateKey p) GateCtl.COUNT
  decide (1 ≤ n ∧ n ≤ 256) &&
    (let d := durations s p (adminList s p) n
     d.all (fun x => decide (100 ≤ x)) && decide (d.sum ≤ 1000000000))

/-- T0 = BASE_TIME + k × cycle time, for the smallest k ≥ 0 at least 10 µs from now, in units of 2^-16 ns (R328). -/
def gateT0 (s : State) (base cycle : Nat) : Nat :=
  let least := s.ct + 10000 * 65536
  if least ≤ base then base else base + cycle * ((least - base + cycle - 1) / cycle)

/-- Whether a write of GO to a port is refused: on a framed port, and while another GO is pending (R327, R328). -/
def gateBusy (s : State) (p : Nat) : Bool :=
  let g := getGate s p
  isFramed s p || g.checking.isSome || g.pending.isSome

/-- A write with GO 1 waits for the check of the list that it names. -/
def gateGo (c : Hdr) (p new : Nat) (s : State) : State :=
  defer c 0x49 (setGate p { getGate s p with checking := some (c, new) } s)

/-- GATE_CHECK_COMPLETE (R328). -/
def execGateCheckComplete (p : Fin 48) (s : State) : Answer :=
  let g := getGate s p.val
  let k := gateKey p.val
  .next (match g.checking with
    | none => s
    | some (c, new) =>
      let old := setGate p.val { g with checking := none } s
      let s := storeObj k new old
      if listOk s p.val then
        let n := rd s k GateCtl.COUNT
        let cycle := (durations s p.val (adminList s p.val) n).sum * 65536
        let base := rd s k GateCtl.BASE_TIME
        let base := (base / 2 ^ 32 * 10 ^ 9 + base % 2 ^ 32) * 65536
        let pend := some (gateT0 s base cycle, n, base)
        let s := wr (setGate p.val { g with checking := none, pending := pend } s) k GateCtl.BAD 0
        replyWith c k (rdWord s k) s
      else refuse c stState (addrOf k) (wr old k GateCtl.BAD 1))

/-- GATE_LIST_START (R328): at T0 the admin list comes into force and the list that was in force stops. -/
def execGateListStart (p : Fin 48) (s : State) : Answer :=
  let g := getGate s p.val
  let k := gateKey p.val
  .next (match g.pending with
    | none => s
    | some (t0, n, base) =>
      let s := reach t0 s
      let list := adminList s p.val
      let s := setGate p.val { g with pending := none, start := t0, entry := 0, count := n, base := base, restart := none } s
      wr (wr s k GateCtl.OPER list) k GateCtl.IN_FORCE 1)

/-- The common time the present entry ends, in units of 2^-16 ns: after a step the instant at which the list restarts (R416). -/
def entryEnd (s : State) (p : Nat) : Nat :=
  let g := getGate s p
  match g.restart with
  | some t => t
  | none => g.start + (durations s p (rd s (gateKey p) GateCtl.OPER) (g.entry + 1)).sum * 65536

/-- GATE_ENTRY_CHANGE (R328, R329, R416): the entry ends; at the end of a cycle EN 0 takes the list out of force. -/
def execGateEntryChange (p : Fin 48) (s : State) : Answer :=
  let g := getGate s p.val
  let k := gateKey p.val
  .next (if !gateInForce s p.val then s
    else
      let t := entryEnd s p.val
      let s := reach t s
      if g.restart.isNone ∧ g.entry + 1 < g.count then setGate p.val { g with entry := g.entry + 1 } s
      else
        let s := setGate p.val { g with start := t, entry := 0, restart := none } s
        if flag s k GateCtl.EN then s else wr s k GateCtl.IN_FORCE 0)

/-- A step of common time to t: the list in force keeps its entry until the first instant BASE_TIME + k × cycle time at or after t,
and restarts there (R416). -/
def gateStep (t p : Nat) (s : State) : State :=
  let g := getGate s p
  if !gateInForce s p then s
  else
    let cycle := (durations s p (rd s (gateKey p) GateCtl.OPER) g.count).sum * 65536
    let at_ := if t ≤ g.base then g.base else g.base + cycle * ((t - g.base + cycle - 1) / cycle)
    setGate p { g with restart := some at_ } s

/-- Entries of the list in force from the present one on, for two cycles: (open, the entry's length, where it is a whole one). -/
def openEntries (s : State) (p tc : Nat) : List (Bool × Nat) :=
  let g := getGate s p
  let k := rd s (gateKey p) GateCtl.OPER
  (List.range (2 * g.count)).map fun i =>
    let j := if g.restart.isSome then (if i = 0 then g.entry else (i - 1) % g.count) else (g.entry + i) % g.count
    let (gates, d) := gateEntry s p k j
    (gates.testBit tc, d * 65536)

/-- The common time the gate of a class closes, when it is open: the end of the unbroken run of open entries, none when it stays
open for the whole cycle (R329). -/
def gateCloses (s : State) (p tc : Nat) : Option Nat :=
  let es := openEntries s p tc
  match es with
  | [] => none
  | _ :: rest =>
    if es.all Prod.fst then none
    else some (entryEnd s p + ((rest.takeWhile Prod.fst).map Prod.snd).sum)

/-- Whether the gate of a class is open now. -/
def gateOpen (s : State) (p tc : Nat) : Bool :=
  match openEntries s p tc with
  | (o, _) :: _ => o
  | [] => true

/-- The lengths of the open runs in a list of entries. -/
def runsOf : List (Bool × Nat) → Nat → List Nat
  | [], cur => [cur]
  | (true, d) :: rest, cur => runsOf rest (cur + d)
  | (false, _) :: rest, cur => cur :: runsOf rest 0

/-- The longest open run of a class's gate in the list in force (R330); none when it is always open. -/
def longestRun (s : State) (p tc : Nat) : Option Nat :=
  let es := openEntries s p tc
  if es.all Prod.fst then none else some ((runsOf es 0).foldl max 0)

/-! ## Class maps (R309) -/

/-- Whether every egress queue of a class map entry's range is empty. -/
def rangeEmpty (s : State) (base log : Nat) : Bool :=
  (busyQueues s).all fun e => decide (e < base ∨ base + 2 ^ log ≤ e)

/-- A pending class map entry takes effect when its old range is empty. -/
def applyClass (p n : Nat) (s : State) : State :=
  match tabGet? s.que.classNew (8 * p + n) with
  | none => s
  | some v =>
    let k := obj .classMap p
    let x := rdWord s k
    if rangeEmpty s (getF x (classBase n)) (getF x (classLog2 n)) then
      let s := { s with que := { s.que with classNew := tabDel s.que.classNew (8 * p + n) } }
      let x := putF (putF x (classBase n) (v / 16)) (classLog2 n) (v % 16)
      wrWord s k (putF x (classPending n) 0)
    else s

/-- A write to a class map entry: it takes effect at once when its old range is empty, else it is PENDING (R309). -/
def writeClass (p n base log : Nat) (s : State) : State :=
  let x := rdWord s (obj .classMap p)
  if tabGet? s.que.classNew (8 * p + n) = none ∧ getF x (classBase n) = base ∧ getF x (classLog2 n) = log then s
  else
    let s := { s with que := { s.que with classNew := tabPut s.que.classNew (8 * p + n) (base * 16 + log) } }
    applyClass p n (wr s (obj .classMap p) (classPending n) 1)

/-- CLASS_MAP_APPLY (R309). -/
def execClassMapApply (p : Fin 48) (tc : Fin 8) (s : State) : Answer := .next (applyClass p.val tc.val s)

/-! ## The sampler (R335) -/

/-- When the packet of a reference arrived, by the measure of intervals (R335, R416). -/
def sinceOf (s : State) (r : Ref) : Nat := match getPkt s r.pkt with
  | some p => p.since
  | none => 0

/-- The queues that the sampler visits (R335). -/
def sampledQueues : Nat := Config.voqs + Config.egressQueues + 8

/-- QUEUE_SAMPLE (R335): SDEPTH, SOJOURN and SFLAG of the next queue, and a sample for the telemetry streams. -/
def execQueueSample (s : State) : Answer :=
  let q := s.que.sampleQ
  let x := getQ s q
  let k := queueState q
  let d := depth x
  let soj := match x.head with
    | r :: _ => min ((ivl s - sinceOf s r) / 65536) 0xFFFFFFFF
    | [] => 0
  let s := { s with que := { s.que with sampleQ := (q + 1) % sampledQueues } }
  let s := wr (wr s k VqState.SDEPTH d) k VqState.SOJOURN (if d = 0 then 0 else soj)
  let s := wr s k VqState.SFLAG (if d = 0 then 2 else 1)
  let word := putF (putF (rdWord s k) VqState.DEPTH d) VqState.AVG (x.avg / 256)
  .next (if d = 0 then s
    else
      let ns := (subscribers s 2).filter fun n =>
        match (getSess s n).sub with
        | some u => decide (u.qsMin ≤ d)
        | none => false
      forAll ns (fun n s => pushRecord n (.sample q word) s) s)

end Sys2Proof.Machine
end

