-- ==== Sys2Proof/Machine/Mirror.lean ====
section
/-! DEFINITION. Mirror copies and the egress dequeue that makes some of them (R184, R188, R322, R510 to R512). -/
namespace Sys2Proof.Machine

/-- A mirror session. -/
def mirKey (n : Nat) : Key := obj .mirSess n

/-- The rate bucket of a session in 1/1,000 of a copy, depth 1,000 copies, full after reset (R510). -/
def mirLevel (s : State) (n : Nat) : Nat :=
  match tabGet? s.cnt.mirrors n with
  | some (l, t) => min 1000000 (l + rd s (mirKey n) MirSess.MAX_KPPS * (s.clock - t) / 1000)
  | none => 1000000

/-- Take one copy from a session's rate bucket; none when it holds less than one. -/
def mirTake (n : Nat) (s : State) : Option State :=
  if rd s (mirKey n) MirSess.MAX_KPPS = 0 then some s
  else
    let l := mirLevel s n
    if l < 1000 then none
    else some { s with cnt := { s.cnt with mirrors := tabPut s.cnt.mirrors n (l - 1000, s.clock) } }

/-- Word M15 of a copy (R511). -/
def mirWord (n port : Nat) (egress trunc : Bool) (len : Nat) : Word :=
  BitVec.ofNat 64 (n + port * 2 ^ 4 + (if egress then 2 ^ 12 else 0) + (if trunc then 2 ^ 13 else 0) + len * 2 ^ 14)

/-- Make one session's copy of an eligible packet: the draw, the rate, the lease, then admission to the VOQ of the analysis port
(R510, R511). -/
def mirrorCopy (n pkt port : Nat) (egress : Bool) (s : State) : State :=
  let k := mirKey n
  match getPkt s pkt with
  | none => s
  | some p =>
    if !flag s k MirSess.EN || p.bad || p.copied then s
    else
      let (r, s) := drawEntropy s
      if r % rd s k MirSess.SAMPLE_N ≠ 0 then s
      else
        match mirTake n s with
        | none => bump .mirCtr n 1 1 s
        | some s =>
          match takeLease pkt s with
          | (none, s) => bump .mirCtr n 2 1 s
          | (some s, _) =>
            let t := rd s k MirSess.TRUNC
            let tc := rd s k MirSess.TC
            let words := p.words.take 7 ++ [mirWord n port egress (decide (t < p.len)) p.len]
            let r : Ref := { pkt := pkt, lease := true, tc := tc, len := p.len, prec := 0, mirror := some (n, t),
                             words := words, group := none, occ := false, page := none, qseq := 0, from_ := ownerNone }
            let (ok, s) := admitTo (voqOf (rd s k MirSess.NODE) (rd s k MirSess.PORT) tc) r s
            bump .mirCtr n (if ok then 0 else 3) 1 s

/-- The sessions for which a packet is eligible at the end of an ingress pass, or at an egress dequeue; those that the pass named
are in `named` (R510). A standby's protected ports make no copies (R456). -/
def mirrorSet (s : State) (port : Nat) (egress : Bool) (named : List Nat) : List Nat :=
  if silent s port then []
  else
    (List.range 16).filter fun n =>
      let k := mirKey n
      named.contains n ||
        ((if egress then flag s k MirSess.EGR else flag s k MirSess.ING) && (rd s k MirSess.PORTS).testBit port)

/-- Make the copies of an eligible packet, one for each session (R510). -/
def mirrorAll (pkt port : Nat) (egress : Bool) (named : List Nat) (s : State) : State :=
  forAll (mirrorSet s port egress named) (fun n s => mirrorCopy n pkt port egress s) s

/-- The dequeued packet goes over the bridge to its egress pass, under the number of its dequeue (R19, R33), unless it is bad or the port is down or the device is in the safe state (R184,
R188, R484). -/
def dequeued (p : Nat) (r : Ref) (s : State) : State :=
  match getPkt s r.pkt with
  | none => s
  | some x =>
    if x.bad then endRef r s
    else
      let s := mirrorAll r.pkt p true [] s
      if !portUp s p || inSafe s then endRef r (bump .lpCtr p 17 1 s)
      else
        let n := s.eng.deqNo
        sendData 1 (.egress { ref := r, port := p, tc := r.tc, no := n }) { s with eng := { s.eng with deqNo := n + 1 } }

/-- EGRESS_DEQUEUE (R22, R27, R322 to R325): when an egress thread is free and the bridge takes the packet, the hierarchy of the port
chooses a queue, and its head packet is dequeued. On a protected port only the active unit dequeues. -/
def execEgressDequeue (p : Fin 48) (s : State) : Answer :=
  let p := p.val
  .next (
    let s := noteHeld p s
    if silent s p || decide (idleThreads s ≤ (egressWaits s).length) || chanState s 1 != 1 then s
    else
      match chooseQueue s p with
      | none => s
      | some e =>
        match dequeueFrom e s with
        | none => s
        | some (r, s) =>
          let s := if protPort s p then twinRecord (.dequeue (egressNo e) (BitVec.ofNat 16 r.qseq)) s else s
          dequeued p r (noteHeld p s))

end Sys2Proof.Machine
end

