-- ==== Sys2Proof/Machine/Engine.lean ====
section
/-! DEFINITION. Dispatch, microinstructions and the end of a pass (R26, R27, R77 to R98, R577, R578). -/
namespace Sys2Proof.Machine

/-! ## Stores and words (R85, R86, R100, R106) -/

/-- A byte of an image that is kept in parts of 256 bytes. -/
def imgByte (t : Tab Nat) (off : Nat) : Nat := bitsAt (tabGet t (off / 256) 0) (8 * (255 - off % 256)) 8
/-- n bytes of an image as a number, most significant first. -/
def imgNat (t : Tab Nat) (off : Nat) : Nat → Nat
  | 0 => 0
  | n + 1 => imgNat t off n * 256 + imgByte t (off + n)

/-- MW_COUNT, NW_COUNT, ENTRY_IN and ENTRY_EG of an image (R100). -/
def mwCount (t : Tab Nat) : Nat := imgNat t 20 2
/-- See `mwCount`. -/
def nwCount (t : Tab Nat) : Nat := imgNat t 22 2
/-- See `mwCount`. -/
def entryIn (t : Tab Nat) : Nat := imgNat t 24 2
/-- See `mwCount`. -/
def entryEg (t : Tab Nat) : Nat := imgNat t 26 2

/-- An overlay bank of a cluster. -/
def bankOf (x : Cluster) (b : Nat) : Overlay := (x.banks[b]?).getD ⟨0, [], []⟩

/-- The microword at an address, as a bank overlays it (R107, R115). -/
def microAt (x : Cluster) (bank a : Nat) : Nat :=
  match tabGet? (bankOf x bank).mw a with
  | some w => w
  | none => imgNat x.image (512 + 5 * a) 5
/-- The nanoword at an index, as a bank overlays it. -/
def nanoAt (x : Cluster) (bank a : Nat) : Nat :=
  match tabGet? (bankOf x bank).nw a with
  | some w => w
  | none => imgNat x.image (512 + 5 * mwCount x.image + 16 * a) 16

/-- The fields of a microword (R85). -/
structure Micro where
  nano : Nat
  rd   : Nat
  ra   : Nat
  rb   : Nat
  imm  : Nat
  deriving DecidableEq, Repr

/-- Read a microword. -/
def Micro.ofWord (w : Nat) : Micro :=
  { nano := bitsAt w 28 12, rd := bitsAt w 24 4, ra := bitsAt w 20 4, rb := bitsAt w 16 4, imm := bitsAt w 0 16 }

/-- The fields of a nanoword (R86). -/
structure Nano where
  dwell : Nat
  cls   : Nat
  alu   : Nat
  srcB  : Nat
  setf  : Bool
  foff  : Nat
  fwid  : Nat
  fbase : Bool
  fdir  : Bool
  lunit : Nat
  klen  : Nat
  wait  : Nat
  next  : Nat
  cond  : Nat
  res   : Nat
  const : Nat
  deriving DecidableEq, Repr

/-- Read a nanoword; DWELL and FWID are held plus one. -/
def Nano.ofWord (w : Nat) : Nano :=
  { dwell := bitsAt w 126 2 + 1, cls := bitsAt w 123 3, alu := bitsAt w 119 4, srcB := bitsAt w 117 2, setf := w.testBit 116,
    foff := bitsAt w 105 11, fwid := bitsAt w 99 6 + 1, fbase := w.testBit 98, fdir := w.testBit 97, lunit := bitsAt w 94 3,
    klen := bitsAt w 92 2, wait := bitsAt w 90 2, next := bitsAt w 87 3, cond := bitsAt w 84 3, res := bitsAt w 81 3,
    const := bitsAt w 0 64 }

/-- Whether R86 refuses an encoding of a word, in CLASS or in a field that its CLASS uses (R90, R578). -/
def Nano.refused (n : Nano) : Bool :=
  match n.cls with
  | 0 => decide (12 ≤ n.alu)
  | 1 => false
  | 2 => decide (3 ≤ n.lunit) || n.klen == 3
  | 3 => n.wait == 3
  | 4 => n.res == 7
  | 5 => false
  | _ => true

/-- The microinstructions of the opcode table. -/
inductive MicroRow where
  | add | sub | and | or | xor | shl | shr | movB | cmp | min | max | hash
  | fieldExtract | fieldInsert | lookupLpm | lookupExm | lookupPat
  | waitLookup | waitFlagT | waitTime
  | setDestination | setMeterIndex | drop | punt | mirror | setEcmpHash | writeInterPass
  | nop
  deriving DecidableEq, Repr

/-- The rows of the ALU operations, in the order of ALU_OP. -/
def aluRows : List MicroRow := [.add, .sub, .and, .or, .xor, .shl, .shr, .movB, .cmp, .min, .max, .hash]
/-- The rows of the results, in the order of RES_OP. -/
def resRows : List MicroRow := [.setDestination, .setMeterIndex, .drop, .punt, .mirror, .setEcmpHash, .writeInterPass]
/-- The rows of the lookups, in the order of LUNIT. -/
def lookRows : List MicroRow := [.lookupLpm, .lookupExm, .lookupPat]
/-- The rows of the waits, in the order of WAIT_COND. -/
def waitRows : List MicroRow := [.waitLookup, .waitFlagT, .waitTime]

/-- The row of a nanoword that R86 does not refuse. -/
def Nano.row (n : Nano) : MicroRow :=
  match n.cls with
  | 0 => aluRows.getD n.alu .nop
  | 1 => if n.fdir then .fieldInsert else .fieldExtract
  | 2 => lookRows.getD n.lunit .nop
  | 3 => waitRows.getD n.wait .nop
  | 4 => resRows.getD n.res .nop
  | _ => .nop

/-! ## Threads (R79 to R81) -/

/-- A register of a thread. -/
def Thread.reg (x : Thread) (r : Nat) : Word := x.g.getD r 0
/-- Write a register of a thread. -/
def Thread.setReg (x : Thread) (r : Nat) (v : Word) : Thread := { x with g := x.g.set r v }

/-- A flag of a thread by its COND code (R86). -/
def Thread.flag (x : Thread) (c : Nat) : Bool :=
  match c with
  | 0 => x.z
  | 1 => x.c
  | 2 => x.n
  | 3 => x.m
  | 4 => x.e
  | 5 => x.t
  | 6 => x.l
  | _ => x.o

/-- The valid bytes of the header window: M5 (R80). -/
def Thread.valid (x : Thread) : Nat := min x.ref.len 256

/-- A metadata word of a thread (R80). -/
def metaWord (s : State) (x : Thread) (i : Nat) : Word :=
  let p := (getPkt s x.ref.pkt).getD Packet.empty
  match i with
  | 0 => BitVec.ofNat 64 (p.arrival / 65536 / 10 ^ 9 % 2 ^ 48)
  | 1 => BitVec.ofNat 64 (p.arrival / 65536 % 10 ^ 9 * 2 ^ 16 + p.arrival % 65536)
  | 2 => BitVec.ofNat 64 (p.arrPort % 256 + (if x.egress then 2 ^ 8 else 0) + (if p.inject then 2 ^ 9 else 0) +
      (if x.egress then 2 ^ 10 * x.ref.tc else 0))
  | 3 => if x.t then BitVec.ofNat 64 x.ref.len else 0
  | 4 => if x.t && !p.bad then 1 else 0
  | 5 => BitVec.ofNat 64 x.valid
  | 6 => 0
  | 7 => 0
  | _ => x.words.getD (i - 8) 0

/-- The object of a thread's context. -/
def ctxKey (t : Nat) : Key := obj .threadCtx t

/-- How a thread's state stands in its context object: IDLE 0, READY 1, STALLED 2, WAITING 3 (R79, R115). -/
def holdCode : Hold → Nat
  | .ready => 1
  | .stalled => 2
  | .result | .wait => 3

/-- The context object of a thread (R115): its state, its PC and G0 to G15; how they lie in the object is the device's own. -/
def contextOf (s : State) (t : Nat) : Nat :=
  (match getThr s t with
    | some x => Config.threadContext (holdCode x.hold) x.pc x.g
    | none => Config.threadContext 0 0 []) % 2 ^ 2048

/-! ## The ALU (R577) -/

/-- A result and the carry or borrow of an ALU operation. -/
def alu (op : Nat) (a b : Word) : Word × Bool :=
  match op with
  | 0 => (a + b, decide (2 ^ 64 ≤ a.toNat + b.toNat))
  | 1 => (a - b, decide (a.toNat < b.toNat))
  | 2 => (a &&& b, false)
  | 3 => (a ||| b, false)
  | 4 => (a ^^^ b, false)
  | 5 => (a <<< (b.toNat % 64), false)
  | 6 => (a >>> (b.toNat % 64), false)
  | 7 => (b, false)
  | 8 => (a - b, decide (a.toNat < b.toNat))
  | 9 => (if a.toNat ≤ b.toNat then a else b, false)
  | 10 => (if a.toNat ≤ b.toNat then b else a, false)
  | _ => ((crc32c (toBytes 8 a.toNat ++ toBytes 8 b.toNat)).zeroExtend 64, false)

/-- Operand B of an ALU word (R86). -/
def operandB (s : State) (x : Thread) (m : Micro) (n : Nano) : Word :=
  match n.srcB with
  | 0 => x.reg m.rb
  | 1 => BitVec.ofNat 64 m.imm
  | 2 => BitVec.ofNat 64 n.const
  | _ => metaWord s x m.rb

/-- The writes of an ALU word: RD but for CMP, and with SETF the flags Z, C and N. -/
def runAlu (s : State) (m : Micro) (n : Nano) (x : Thread) : Thread :=
  let (r, c) := alu n.alu (x.reg m.ra) (operandB s x m n)
  let x := if n.alu = 8 then x else x.setReg m.rd r
  if n.setf then { x with z := r == 0, c := c, n := r.msb } else x

/-! ## FIELD (R81, R86) -/

/-- The bit offset of a FIELD word. -/
def fieldOff (n : Nano) (x : Thread) : Nat := n.foff + (if n.fbase then (x.reg 15).toNat % 2 ^ 11 else 0)

/-- The valid bytes of a window, with zeros behind them (R81). -/
def validWin (win valid : Nat) : Nat := win / 2 ^ (2048 - 8 * valid) * 2 ^ (2048 - 8 * valid)

/-- A field of the window: bits outside its valid bytes read as zero. Bit 0 of the window is the first bit of the frame. -/
def getField (win valid off w : Nat) : Nat := bitsAt (validWin win valid * 2 ^ 2176) (4224 - off - w) w

/-- The window with a field inserted: bits outside its valid bytes are discarded. -/
def putField (win valid off w v : Nat) : Nat :=
  let full := putBits (win * 2 ^ 2176) (4224 - off - w) w v / 2 ^ 2176
  let keep := 2 ^ (2048 - 8 * valid)
  full / keep * keep + win % keep

/-- The writes of a FIELD word. -/
def runField (m : Micro) (n : Nano) (x : Thread) : Thread :=
  let off := fieldOff n x
  let x' := if n.fdir then { x with win := putField x.win x.valid off n.fwid ((x.reg m.ra).toNat % 2 ^ n.fwid) }
    else x.setReg m.rd (BitVec.ofNat 64 (getField x.win x.valid off n.fwid))
  { x' with o := decide (8 * x.valid < off + n.fwid) }

/-- Count on a cluster's counters (R118). -/
def ecCount (cl i n : Nat) (s : State) : State := bump .ecCtr (7 * cl + i) 0 n s

/-! ## The end of a pass (R84, R98, R112, R184) -/

/-- The thread becomes IDLE and its packet's reference ends. -/
def abortPass (t : Nat) (x : Thread) (s : State) : State := endRef x.ref (endThr t s)

/-- A machine check: counted, the packet dropped, a fault message sent (R98, R119). -/
def machineCheck (t : Nat) (x : Thread) (inst kind : Nat) (k : Key) (s : State) : State :=
  let cl := t / 512
  raiseAt (0x10 + cl) inst kind k (ecCount cl 2 1 (abortPass t x s))

/-- The punt that a pass asks for (R64): RULE is the entry or rule of the pass's last hit, zero when it had none (the model's reading of
"caused the punt", log entry 81); the packet is the frame as the pass received it, or with the rewrites of an egress pass. -/
def puntOf (s : State) (x : Thread) (reason : Nat) : Punt :=
  let p := (getPkt s x.ref.pkt).getD Packet.empty
  { reason := reason, port := p.arrPort, tc := x.ref.tc, trunc := false, egress := x.egress, rule := x.cause,
    arrival := p.arrival, origLen := x.ref.len, kept := x.ref.len, win := if x.egress then x.win else p.content.window.toNat }

/-- An ingress pass ends with its last outcome (R84); a standby sends no punts for protected ports (R456). In twin mode the pass
of a protected port gives an ingress record, or waits for one (R460, R461). The results of all clusters enter the one FD to QD channel in
the order in which their passes end: the manual gives results of different clusters no order (R16), so that order is the model's choice
(log entry 71). -/
def endIngress (t : Nat) (x : Thread) (s : State) : State :=
  let s := endThr t s
  match getPkt s x.ref.pkt with
  | none => s
  | some p =>
    if p.bad then endRef x.ref s
    else
      let s := putPkt x.ref.pkt { p with words := x.words, hash := x.hash } s
      let s := mirrorAll x.ref.pkt p.arrPort false x.mirrors s
      let other := twin s && protPort s p.arrPort
      let note (s : State) : State :=
        if other && role s == roleStandby then expectRecord p.arrPort (Config.twinDigest 0 0 x.hash % 2 ^ 24) none s
        else if other then ingressRecord p.arrPort none (Config.twinDigest 0 0 x.hash % 2 ^ 24) s else s
      match x.outcome with
      | some (.dest d) => sendCtl 0 (.result ⟨x.ref.pkt, d, x.meter, x.hash⟩) s
      | some (.drop _) => note (endRef x.ref s)
      | some (.punt r) =>
        if silent s p.arrPort then note (endRef x.ref s) else note (endRef x.ref (queuePunt (puntOf s x r) s))
      | none => note (endRef x.ref { s with eng := { s.eng with noDest := (s.eng.noDest + 1) % 2 ^ 64 } })

/-- Put a packet that has ended its egress pass on its port's transmit path, in the order of the dequeues (R33). -/
def placeTx (p : Nat) (f : TxFrame) (n : Nat) (s : State) : State :=
  let later (g : TxFrame) : Bool := g.no.any fun m => decide (n < m)
  let l := txOf s p
  setTx p (l.takeWhile (fun g => !later g) ++ [f] ++ l.dropWhile (fun g => !later g)) s

/-- An egress pass ends: its window and the rest of the frame go to the transmit path, unless it dropped or punted the packet
(R84, R188). The packet's reference ends when its last billet has been read: at once, or once the end of the frame has arrived (R285). -/
def endEgress (t : Nat) (x : Thread) (s : State) : State :=
  let s := endThr t s
  match getPkt s x.ref.pkt with
  | none => s
  | some p =>
    if p.bad then endRef x.ref s
    else
      match x.outcome with
      | some (.drop _) => endRef x.ref s
      | some (.punt r) => endRef x.ref (queuePunt (puntOf s x r) s)
      | _ =>
        if !portUp s x.outPort || inSafe s || silent s x.outPort then endRef x.ref (bump .lpCtr x.outPort 17 1 s)
        else
          let open_ := isArriving s x.ref.pkt
          let f : TxFrame :=
            { body := .packet x.ref p.arrival (ptpCorrOf x.win) p.desc, tc := x.ref.tc, len := frameLen x.ref, win := x.win,
              missed := none, no := some x.no, open_ := open_, bad := false }
          let s := placeTx x.outPort f x.no s
          if open_ then s else endRef x.ref s

/-- END (R84). -/
def endPass (t : Nat) (x : Thread) (s : State) : State :=
  let s := ecCount (t / 512) 0 1 s
  if x.egress then endEgress t x s else endIngress t x s

/-! ## Sequencing (R91, R92) -/

/-- What follows a microinstruction: the thread at its next word, the end of the pass, or a return-stack error. -/
inductive Next where
  | go (x : Thread)
  | finish
  | stackError
  deriving DecidableEq, Repr

/-- Take NEXT: flags and RA as they stand after the word's own writes. -/
def takeNext (m : Micro) (n : Nano) (x : Thread) : Next :=
  let tgt := m.imm % 2 ^ 14
  let seq := x.pc + 1
  match n.next with
  | 0 => .go { x with pc := seq }
  | 1 => .go { x with pc := if x.flag n.cond then tgt else seq }
  | 2 => .go { x with pc := if x.flag n.cond then seq else tgt }
  | 3 => .go { x with pc := tgt }
  | 4 => if 4 ≤ x.stack.length then .stackError else .go { x with pc := tgt, stack := seq :: x.stack }
  | 5 =>
    match x.stack with
    | [] => .stackError
    | a :: rest => .go { x with pc := a, stack := rest }
  | 6 => .go { x with pc := tgt + (x.reg m.ra).toNat % 16 }
  | _ => .finish

/-- Carry out NEXT for a thread. -/
def proceed (t : Nat) (m : Micro) (n : Nano) (x : Thread) (s : State) : State :=
  match takeNext m n { x with hold := .ready } with
  | .go y => setThr t y s
  | .finish => endPass t { x with hold := .ready } s
  | .stackError => machineCheck t x 3 5 (ctxKey t) s

/-- The word at a thread's pc. -/
def wordAt (s : State) (t : Nat) (x : Thread) : Micro × Nano :=
  let c := getCl s (t / 512)
  let m := Micro.ofWord (microAt c x.bank x.pc)
  (m, Nano.ofWord (nanoAt c x.bank m.nano))

/-- A thread that waited takes the branch of the word at its pc. -/
def resume (t : Nat) (x : Thread) (s : State) : State :=
  let (m, n) := wordAt s t x
  proceed t m n x s

/-! ## LOOKUP, WAIT and RESULT (R86, R93, R94) -/

/-- The lookup units in the order of LUNIT. -/
def unitOf (n : Nat) : LUnit :=
  match n with
  | 0 => .lpm
  | 1 => .exm
  | _ => .pat

/-- Requests in the input queue of a lookup unit. -/
def inputQueue (s : State) (u : LUnit) : Nat :=
  ((lookups s).filter fun e => e.2.unit == u && e.2.phase == .accepted).length

/-- Whether a lookup unit has room for a request (R137, R170). -/
def unitRoom (s : State) (u : LUnit) : Bool :=
  decide (inputQueue s u < match u with
    | .lpm => 2048
    | .exm => 1024
    | .pat => 1024)

/-- The request of a LOOKUP word: the key registers from RA on, and RB second for KLEN 01. -/
def lookOf (m : Micro) (n : Nano) (x : Thread) : Look :=
  let r (i : Nat) : Word := x.reg ((m.ra + i) % 16)
  { unit := unitOf n.lunit, klen := n.klen,
    key := if n.klen = 2 then [r 0, r 1, r 2, r 3] else [r 0, x.reg m.rb],
    raBig := decide (12 < m.ra), imm := m.imm, rd := m.rd, win := x.win, phase := .asked }

/-- A LOOKUP issues: accepted when its unit has room, else the thread is STALLED (R32, R94, R137). -/
def runLookup (t : Nat) (m : Micro) (n : Nano) (x : Thread) (s : State) : State :=
  let k := lookOf m n x
  if unitRoom s k.unit then proceed t m n { x with look := some { k with phase := .accepted } } s
  else
    let s := if k.unit = .lpm then bump .lpmCtr 7 0 1 s else s
    setThr t { x with look := some k, hold := .stalled } (ecCount (t / 512) 5 1 s)

/-- Whether the condition of a WAIT word holds. -/
def waitDone (s : State) (m : Micro) (n : Nano) (x : Thread) : Bool :=
  match n.wait with
  | 0 => x.look.isNone
  | 1 => x.t
  | _ => decide ((x.reg m.ra).toNat ≤ nowNs s)

/-- A WAIT issues. -/
def runWait (t : Nat) (m : Micro) (n : Nano) (x : Thread) (s : State) : State :=
  if waitDone s m n x then proceed t m n x s else setThr t { x with hold := .wait } s

/-- The writes of a RESULT word: an egress pass takes only a drop, a punt and its own inter-pass words (R84, R130, R133, R313,
R510). -/
def runResult (m : Micro) (n : Nano) (x : Thread) : Thread :=
  let a := (x.reg m.ra).toNat
  match n.res with
  | 0 => if !x.egress && isDest a then { x with outcome := some (.dest a) } else x
  | 1 =>
    if x.egress then x
    else { x with meter := if a.testBit 22 then some (a % 2 ^ 20, bitsAt a 20 2) else none }
  | 2 => { x with outcome := some (.drop (m.imm % 256)) }
  | 3 => { x with outcome := some (.punt (m.imm % 256)) }
  | 4 => if x.egress then x else { x with mirrors := m.imm % 16 :: x.mirrors }
  | 5 => if x.egress then x else { x with hash := a % 2 ^ 32 }
  | _ => { x with words := x.words.set (m.imm % 8) (x.reg m.ra) }

/-! ## Issue (R88, R90, R93, R97) -/

/-- Whether a word must wait for the pending result: it is a LOOKUP, or it names its RD; with SRC_B 11 RB names no register. -/
def mustWait (m : Micro) (n : Nano) (x : Thread) : Bool :=
  match x.look with
  | none => false
  | some k => n.cls == 2 || m.rd == k.rd || m.ra == k.rd || (m.rb == k.rd && !(n.cls == 0 && n.srcB == 3))

/-- The effect of a word after its dwell. -/
def runWord (t : Nat) (m : Micro) (n : Nano) (x : Thread) (s : State) : State :=
  match n.cls with
  | 0 => proceed t m n (runAlu s m n x) s
  | 1 => proceed t m n (runField m n x) s
  | 2 => runLookup t m n x s
  | 3 => runWait t m n x s
  | 4 => proceed t m n (runResult m n x) s
  | _ => proceed t m n x s

/-- Whether a cluster runs in PARITY mode (R99, R104). -/
def parityMode (s : State) (cl : Nat) : Bool := rd s (clVer cl) ClVersion.PROT_ACTIVE == 1

/-- A word that decodes issues: a pending result may hold it; it takes its dwell, and then a register-file error its course. -/
def issueWord (t : Nat) (m : Micro) (n : Nano) (chk : MicroCheck) (x : Thread) (s : State) : State :=
  let cl := t / 512
  if mustWait m n x then setThr t { x with hold := .result } s
  else
    let s := noteIssue cl n.dwell (ecCount cl 1 n.dwell { s with eng := { s.eng with issued := tabPut s.eng.issued (t / 16) (t % 16) } })
    match chk with
    | .regUncorrectable => machineCheck t x 2 3 (ctxKey t) s
    | .regCorrected => runWord t m n x (ecCount cl 6 1 s)
    | _ => runWord t m n x s

/-- The thread that an engine issues at its boundary: the next READY one in round-robin order after the one it issued last (R79). -/
def nextReady (s : State) (e : Nat) : Option Nat :=
  let last := tabGet s.eng.issued e 15
  ((List.range 16).map fun i => 16 * e + (last + 1 + i) % 16).find? fun t => (getThr s t).any fun x => x.hold == .ready

/-- A READY thread whose turn it is comes to its boundary with a word of a row at its pc: the checks of R90 and R97, then the word. -/
def issue (row : MicroRow) (t : Nat) (chk : MicroCheck) (s : State) : State :=
  match getThr s t with
  | none => s
  | some x =>
    if nextReady s (t / 16) ≠ some t then s
    else
      let cl := t / 512
      let c := getCl s cl
      let (m, n) := wordAt s t x
      if mwCount c.image ≤ x.pc then machineCheck t x 3 2 (ctxKey t) s
      else if chk = .parityMicro ∧ parityMode s cl then
        machineCheck t x 0 1 (obj .microView (cl * 16384 + x.pc)) s
      else if chk = .parityNano ∧ parityMode s cl then
        machineCheck t x 1 1 (obj .nanoView (cl * 4096 + m.nano)) s
      else if nwCount c.image ≤ m.nano ∨ n.refused then machineCheck t x 3 2 (ctxKey t) s
      else if n.row = row then issueWord t m n chk x s else s

/-- ADD (R577). -/
def execAdd (t : Fin 16384) (chk : MicroCheck) (s : State) : Answer := .next (issue .add t.val chk s)
/-- SUB (R577). -/
def execSub (t : Fin 16384) (chk : MicroCheck) (s : State) : Answer := .next (issue .sub t.val chk s)
/-- AND (R577). -/
def execAnd (t : Fin 16384) (chk : MicroCheck) (s : State) : Answer := .next (issue .and t.val chk s)
/-- OR (R577). -/
def execOr (t : Fin 16384) (chk : MicroCheck) (s : State) : Answer := .next (issue .or t.val chk s)
/-- XOR (R577). -/
def execXor (t : Fin 16384) (chk : MicroCheck) (s : State) : Answer := .next (issue .xor t.val chk s)
/-- SHL (R577). -/
def execShl (t : Fin 16384) (chk : MicroCheck) (s : State) : Answer := .next (issue .shl t.val chk s)
/-- SHR (R577). -/
def execShr (t : Fin 16384) (chk : MicroCheck) (s : State) : Answer := .next (issue .shr t.val chk s)
/-- MOV B (R577). -/
def execMovB (t : Fin 16384) (chk : MicroCheck) (s : State) : Answer := .next (issue .movB t.val chk s)
/-- CMP (R577). -/
def execCmp (t : Fin 16384) (chk : MicroCheck) (s : State) : Answer := .next (issue .cmp t.val chk s)
/-- MIN (R577). -/
def execMin (t : Fin 16384) (chk : MicroCheck) (s : State) : Answer := .next (issue .min t.val chk s)
/-- MAX (R577). -/
def execMax (t : Fin 16384) (chk : MicroCheck) (s : State) : Answer := .next (issue .max t.val chk s)
/-- HASH (R577). -/
def execHash (t : Fin 16384) (chk : MicroCheck) (s : State) : Answer := .next (issue .hash t.val chk s)
/-- FIELD with FDIR 0 (R86). -/
def execFieldExtract (t : Fin 16384) (chk : MicroCheck) (s : State) : Answer := .next (issue .fieldExtract t.val chk s)
/-- FIELD with FDIR 1 (R86). -/
def execFieldInsert (t : Fin 16384) (chk : MicroCheck) (s : State) : Answer := .next (issue .fieldInsert t.val chk s)
/-- LOOKUP LPM (R94). -/
def execLookupLpm (t : Fin 16384) (chk : MicroCheck) (s : State) : Answer := .next (issue .lookupLpm t.val chk s)
/-- LOOKUP EXM (R94). -/
def execLookupExm (t : Fin 16384) (chk : MicroCheck) (s : State) : Answer := .next (issue .lookupExm t.val chk s)
/-- LOOKUP PAT (R161). -/
def execLookupPat (t : Fin 16384) (chk : MicroCheck) (s : State) : Answer := .next (issue .lookupPat t.val chk s)
/-- WAIT on the lookup result (R86). -/
def execWaitLookup (t : Fin 16384) (chk : MicroCheck) (s : State) : Answer := .next (issue .waitLookup t.val chk s)
/-- WAIT on flag T (R86). -/
def execWaitFlagT (t : Fin 16384) (chk : MicroCheck) (s : State) : Answer := .next (issue .waitFlagT t.val chk s)
/-- WAIT on common time (R86). -/
def execWaitTime (t : Fin 16384) (chk : MicroCheck) (s : State) : Answer := .next (issue .waitTime t.val chk s)
/-- RESULT 000 (R130). -/
def execSetDestination (t : Fin 16384) (chk : MicroCheck) (s : State) : Answer := .next (issue .setDestination t.val chk s)
/-- RESULT 001 (R313). -/
def execSetMeterIndex (t : Fin 16384) (chk : MicroCheck) (s : State) : Answer := .next (issue .setMeterIndex t.val chk s)
/-- RESULT 010 (R84). -/
def execDrop (t : Fin 16384) (chk : MicroCheck) (s : State) : Answer := .next (issue .drop t.val chk s)
/-- RESULT 011 (R84). -/
def execPunt (t : Fin 16384) (chk : MicroCheck) (s : State) : Answer := .next (issue .punt t.val chk s)
/-- RESULT 100 (R510). -/
def execMirror (t : Fin 16384) (chk : MicroCheck) (s : State) : Answer := .next (issue .mirror t.val chk s)
/-- RESULT 101 (R133). -/
def execSetEcmpHash (t : Fin 16384) (chk : MicroCheck) (s : State) : Answer := .next (issue .setEcmpHash t.val chk s)
/-- RESULT 110 (R86). -/
def execWriteInterPass (t : Fin 16384) (chk : MicroCheck) (s : State) : Answer := .next (issue .writeInterPass t.val chk s)
/-- NOP (R86). -/
def execNop (t : Fin 16384) (chk : MicroCheck) (s : State) : Answer := .next (issue .nop t.val chk s)

/-- LOOKUP_ACCEPT (R32, R137): the unit that has room accepts the request of a STALLED thread. -/
def execLookupAccept (t : Fin 16384) (s : State) : Answer :=
  .next (match getThr s t.val with
    | none => s
    | some x =>
      match x.look with
      | none => s
      | some k =>
        if x.hold = .stalled ∧ unitRoom s k.unit then
          resume t.val { x with look := some { k with phase := .accepted } } s
        else s)

/-- TIME_CONDITION_MET (R86, R96): common time has reached RA of the WAIT at a thread's pc, and the thread resumes. -/
def execTimeConditionMet (t : Fin 16384) (s : State) : Answer :=
  .next (match getThr s t.val with
    | none => s
    | some x =>
      let (m, n) := wordAt s t.val x
      if x.hold = .wait ∧ n.cls = 3 ∧ n.wait = 2 then
        resume t.val x (reach ((x.reg m.ra).toNat * 65536) s)
      else s)

/-- PASS_WATCHDOG (R95, R112): a pass has lasted PASS_LIMIT; in a DRAINING cluster it is aborted and counted as a reload abort. -/
def execPassWatchdog (t : Fin 16384) (s : State) : Answer :=
  let cl := t.val / 512
  .next (match getThr s t.val with
    | none => s
    | some x =>
      if clState s cl = csDraining then ecCount cl 4 1 (abortPass t.val x s)
      else machineCheck t.val x 3 4 (ctxKey t.val) (ecCount cl 3 1 s))

/-! ## Dispatch (R26, R27, R65, R78) -/

/-- The headers that a port's dispatch queue holds: 2,048 for each 400 Gb/s of its rate, rounded up (R26, R210). -/
def dispatchRoom (s : State) (p : Nat) : Nat := 2048 * ((rateMb s p + 399999) / 400000)

/-- The headers waiting in a port's dispatch queue. -/
def dispOf (s : State) (p : Nat) : List Nat := tabGet s.eng.dispQ p []
/-- See `dispOf`. -/
def setDisp (p : Nat) (l : List Nat) (s : State) : State :=
  { s with eng := { s.eng with dispQ := tabSet s.eng.dispQ p l [] } }

/-- The port whose turn it is, and the headers it may still take: the one that dispatch serves while it has some left, else the next
that waits, with a weight of its configured rate (R26). -/
def dispatchTurn (s : State) : Option (Nat × Nat) :=
  let e := s.eng
  if 0 < e.rrLeft ∧ !(dispOf s e.rrPort).isEmpty then some (e.rrPort, e.rrLeft)
  else
    match ((List.range 48).map fun i => (e.rrPort + 1 + i) % 48).find? fun p => !(dispOf s p).isEmpty with
    | some p => some (p, max 1 (rateMb s p / 1000))
    | none => none

/-- The first element of greatest value, ties to the earliest. -/
def argMax (f : Nat → Nat) : List Nat → Option Nat
  | [] => none
  | a :: l => some (l.foldl (fun b x => if f b < f x then x else b) a)

/-- The thread that R78 picks: cluster, engine and thread with the most IDLE threads. -/
def pickThread (s : State) : Option Nat :=
  match argMax (idleOfCluster s) ((serviceClusters s).filter fun c => decide (0 < idleOfCluster s c)) with
  | none => none
  | some cl =>
    match argMax (idleOfEngine s) ((List.range' (32 * cl) 32).filter fun e => decide (0 < idleOfEngine s e)) with
    | none => none
    | some e => (List.range' (16 * e) 16).find? fun t => (getThr s t).isNone

/-- The PAT bank that is ACTIVE (R157). -/
def activeBank (s : State) : Option Nat :=
  let k := obj .patStatus
  if rd s k PatStatus.BANK0 = 3 then some 0 else if rd s k PatStatus.BANK1 = 3 then some 1 else none

/-- The epoch in force for new passes (R147). -/
def epochNow (s : State) : Nat := match s.tbl.epochs with
  | e :: _ => e.number
  | [] => 0

/-- Give a header to the thread that R78 picks, bound to the banks and the epoch in force (R79, R80, R108, R147, R160); flag T is clear
while the end of its frame has not arrived (R81). -/
def startPass (r : Ref) (egress : Bool) (port no : Nat) (s : State) : State :=
  match pickThread s, getPkt s r.pkt with
  | some t, some p =>
    let cl := t / 512
    let img := (getCl s cl).image
    let open_ := isArriving s r.pkt
    noteBusy cl (setThr t
      { hold := .ready, pc := if egress then entryEg img else entryIn img, g := List.replicate 16 0,
        win := p.content.window.toNat, words := if egress then r.words else List.replicate 8 0,
        z := false, c := false, n := false, m := false, e := false, t := !open_, l := open_ || decide (256 < r.len), o := false,
        stack := [], egress := egress, ref := r, outPort := port, started := s.clock,
        bank := rd s (obj .clStatus cl) ClStatus.BANK, epoch := epochNow s, patBank := activeBank s, look := none,
        outcome := none, meter := none, hash := 0, mirrors := [], cause := 0, no := no } s)
  | _, _ => s

/-- The reference of a received packet's ingress pass. -/
def ingressRef (s : State) (n : Nat) : Ref :=
  let p := (getPkt s n).getD Packet.empty
  { pkt := n, lease := false, tc := p.tc, len := p.len, prec := 0, mirror := none, words := p.words, group := none, occ := false,
    page := none, qseq := 0, from_ := ownerNone }

/-- DISPATCH (R26, R27, R65, R78, R484): the header of a port whose turn it is, of an inject, or of an egress pass goes to an IDLE
thread; in the safe state none does. The threads that dequeued packets were promised are left for them (R27). -/
def execDispatch (src : HeaderSource) (s : State) : Answer :=
  .next (if inSafe s || (pickThread s).isNone || (src != .egress && decide (idleThreads s ≤ (egressWaits s).length)) then s
    else
      match src with
      | .port p =>
        match dispatchTurn s, dispOf s p.val with
        | some (q, left), n :: rest =>
          if q = p.val then
            let s := setDisp q rest s
            startPass (ingressRef s n) false 0 0 { s with eng := { s.eng with rrPort := q, rrLeft := left - 1 } }
          else s
        | _, _ => s
      | .inject =>
        match s.eng.injectQ with
        | n :: rest => startPass (ingressRef s n) false 0 0 { s with eng := { s.eng with injectQ := rest } }
        | [] => s
      | .egress =>
        match s.eng.egressQ with
        | h :: rest => startPass h.ref true h.port h.no { s with eng := { s.eng with egressQ := rest } }
        | [] => s)

end Sys2Proof.Machine
end

