-- ==== Sys2Proof/Machine/Cluster.lean ====
section
/-! DEFINITION. Images, their checks, patches, reloads and parking of the engine clusters (R87, R89, R99 to R119). -/
namespace Sys2Proof.Machine

/-! ## The checks of R89 (R86, R87, R578) -/

/-- Minimum dwell of a nanoword (R87). -/
def minDwell (n : Nano) : Nat :=
  let own := match n.cls with
    | 0 => if n.alu = 11 then 3 else 1
    | 1 => if n.fbase ∨ n.foff / 64 ≠ (n.foff + n.fwid - 1) / 64 then 2 else 1
    | 2 => 2
    | 4 => 2
    | _ => 1
  own + (if n.cls = 0 ∧ n.srcB = 3 then 1 else 0) + (if 4 ≤ n.next ∧ n.next ≤ 6 then 1 else 0)

/-- The bits of a nanoword that its CLASS does not use (R578). -/
def unusedBits (w : Nat) : Nat :=
  let n := Nano.ofWord w
  let clear (x lo k : Nat) : Nat := putBits x lo k 0
  let x := clear (clear (clear (clear w 126 2) 123 3) 87 3) 84 3
  match n.cls with
  | 0 =>
    let x := clear (clear (clear x 119 4) 117 2) 116 1
    if n.srcB = 2 then clear x 0 64 else x
  | 1 => clear (clear (clear (clear x 105 11) 99 6) 98 1) 97 1
  | 2 => clear (clear x 94 3) 92 2
  | 3 => clear x 90 2
  | 4 => clear x 81 3
  | _ => x

/-- Whether NEXT takes IMM as its target. -/
def needsTarget (n : Nano) : Bool := n.next == 1 || n.next == 2 || n.next == 3 || n.next == 4 || n.next == 6

/-- Whether a nanoword passes R89 on its own. -/
def nanoOk (w : Nat) : Bool :=
  let n := Nano.ofWord w
  !n.refused && decide (minDwell n ≤ n.dwell) && unusedBits w == 0 &&
    !(n.cls == 1 && !n.fbase && decide (2048 < n.foff + n.fwid)) && !(n.cls == 0 && n.srcB == 1 && needsTarget n)

/-- Whether a microword passes R89 with the nanoword it names. -/
def microOk (mw nw w nano : Nat) : Bool :=
  let m := Micro.ofWord w
  let n := Nano.ofWord nano
  decide (m.nano < nw) &&
    (!needsTarget n || (decide (m.imm < 2 ^ 14) && decide (m.imm + (if n.next = 6 then 15 else 0) < mw)))

/-- The fields of the image header with their checks, in the order of their offsets (R100): offset, size, least, greatest. -/
def headerChecks (t : Tab Nat) : List (Nat × Nat × Nat × Nat) :=
  let mw := mwCount t
  let signed := imgNat t 112 97 != 0
  [(0, 4, 0x56584543, 0x56584543), (4, 2, 1, 1), (6, 2, 0, 0), (15, 1, 0, 0), (19, 1, 0, 0), (20, 2, 1, 16384),
   (22, 2, 1, 4096), (24, 2, 0, mw - 1), (26, 2, 0, mw - 1), (28, 36, 0, 0), (209, 7, 0, 0),
   (216, 96, 0, if signed then 2 ^ 768 - 1 else 0), (312, 200, 0, 0)]

/-- The offset of the first header field that fails. -/
def headerBad (t : Tab Nat) : Option Nat :=
  ((headerChecks t).find? fun (off, n, lo, hi) => decide (imgNat t off n < lo ∨ hi < imgNat t off n)).map Prod.fst

/-- The offset of the first microword or nanoword of an image that fails R89. -/
def wordsBad (t : Tab Nat) : Option Nat :=
  let mw := mwCount t
  let nw := nwCount t
  let nano (i : Nat) := imgNat t (512 + 5 * mw + 16 * i) 16
  match (List.range mw).find? fun a =>
      let w := imgNat t (512 + 5 * a) 5
      !microOk mw nw w (nano (Micro.ofWord w).nano) with
  | some a => some (512 + 5 * a)
  | none => ((List.range nw).find? fun i => !nanoOk (nano i)).map fun i => 512 + 5 * mw + 16 * i

/-- The operator key slot that is PROGRAMMED with a digest (R72, R101). -/
def keySlotOf (s : State) (digest : Nat) : Option Nat :=
  (programmedSlots s).find? fun k => rd s (obj .opKey k) OpKey.DIGEST == digest

/-- Some bytes of an image or a patch. -/
def imgBytes (t : Tab Nat) (off n : Nat) : Bytes := (List.range' off n).map fun i => BitVec.ofNat 8 (imgByte t i)

/-- Whether DIGEST is SHA-384 over bytes 0 to 63 followed by n bytes from an offset (R100, R106). -/
def digestOk (t : Tab Nat) (off n : Nat) : Bool := (sha384 (imgBytes t 0 64 ++ imgBytes t off n)).toNat == imgNat t 64 48

/-- The operator key slot that holds the digest of SIGNER (R101). -/
def signerSlot (s : State) (t : Tab Nat) : Option Nat := keySlotOf s (sha384 (imgBytes t 112 97)).toNat

/-- Whether SIGNATURE verifies over DIGEST (R100, R106). -/
def signatureOk (t : Tab Nat) : Bool := Config.ecdsaOk (imgNat t 112 97) (imgNat t 64 48) (imgNat t 216 96)

/-- The verdict of a check of R101: SLOT_STATE, BAD_OFFSET, and the key slot that it verified under. -/
def imageVerdict (s : State) (t : Tab Nat) : Nat × Nat × Option Nat :=
  match (headerBad t).orElse fun _ => wordsBad t with
  | some off => (4, off, none)
  | none =>
    if !digestOk t 512 (5 * mwCount t + 16 * nwCount t) then (4, 64, none)
    else if imgNat t 112 97 = 0 then (2, 0, none)
    else
      match signerSlot s t with
      | none => (4, 112, none)
      | some k => if signatureOk t then (3, 0, some k) else (4, 216, none)

/-! ## Image slots (R101, R102, R118) -/

/-- The control object of an image slot. -/
def slotKey (k : Nat) : Key := obj .imgSlot k
/-- The parts of 256 B that hold an image slot's data. -/
def slotParts : Nat := 578

/-- The bytes of an image slot, by parts that are not zero. -/
def slotImage (s : State) (k : Nat) : Tab Nat :=
  (List.range slotParts).filterMap fun i =>
    let v := rdWord s (obj .imgData (k * slotParts + i))
    if v = 0 then none else some (i, v)

/-- Whether a slot is LOCKED: a cluster runs from it, or has a reload pending from it (R102). -/
def slotLocked (s : State) (k : Nat) : Bool :=
  (List.range 32).any fun cl =>
    let x := getCl s cl
    x.slot == some k ||
      (match x.reload with | some r => r.slot == k | none => false) ||
      (match x.behind with | some r => r.slot == k | none => false)

/-- The checks of a slot end without a verdict, and it takes a state (R101). -/
def setSlot (k st off : Nat) (s : State) : State :=
  let s := { s with eng := { s.eng with verifying := s.eng.verifying.filter fun i => i != k } }
  wr (wr s (slotKey k) ImgSlot.SLOT_STATE st) (slotKey k) ImgSlot.BAD_OFFSET off

/-- A write to a slot's data returns it to WRITTEN. -/
def slotWritten (k : Nat) (s : State) : State := setSlot k 1 0 s

/-- ERASE zeroes a slot and sets EMPTY. -/
def slotErase (k : Nat) (s : State) : State :=
  setSlot k 0 0 (forAll (List.range slotParts) (fun i s => wrWord s (obj .imgData (k * slotParts + i)) 0) s)

/-- VERIFY starts the checks of a slot. -/
def slotVerify (k : Nat) (s : State) : State :=
  if s.eng.verifying.contains k then s else { s with eng := { s.eng with verifying := s.eng.verifying ++ [k] } }

/-- IMAGE_VERIFY_COMPLETE (R101). -/
def execImageVerifyComplete (k : Fin 4) (s : State) : Answer :=
  .next (if !s.eng.verifying.contains k.val then s
    else
      let (st, off, by_) := imageVerdict s (slotImage s k.val)
      let s := setSlot k.val st off s
      match by_ with
      | some i => { s with eng := { s.eng with verifiedBy := tabPut s.eng.verifiedBy k.val i } }
      | none => { s with eng := { s.eng with verifiedBy := tabDel s.eng.verifiedBy k.val } })

/-- An operator key slot has become REVOKED: image slots VERIFIED under it become BAD (R73, R101). -/
def revokeImages (key : Nat) (s : State) : State :=
  forAll (List.range 4) (fun k s =>
    if rd s (slotKey k) ImgSlot.SLOT_STATE = 3 ∧ tabGet? s.eng.verifiedBy k = some key then setSlot k 4 112 s else s) s

/-! ## Loads (R105, R109 to R114) -/

/-- ABI_WR, ABI_RD_MIN and ABI_RD_MAX of three bytes. -/
def abiOf (x : Nat) : Nat × Nat × Nat := (bitsAt x 16 8, bitsAt x 8 8, bitsAt x 0 8)

/-- Whether two images may run together (R105). -/
def abiFits (n r : Nat) : Bool :=
  let (nw, nlo, nhi) := abiOf n
  let (rw, rlo, rhi) := abiOf r
  decide (rlo ≤ nw ∧ nw ≤ rhi ∧ nlo ≤ rw ∧ rw ≤ nhi)

/-- Whether a cluster counts as EMPTY: it has never been loaded. -/
def neverLoaded (s : State) (cl : Nat) : Bool := (getCl s cl).base == csEmpty

/-- R105 for a slot's image and every other cluster. The image of a FAILED cluster is the one its version object names, which is all zero
after a failed first load: the manual does not say which image R of R105 such a cluster has (the model's choice, log entry 74). -/
def abiOk (s : State) (cl slot : Nat) : Bool :=
  let n := imgNat (slotImage s slot) 16 3
  (List.range 32).all fun o => o == cl || neverLoaded s o || abiFits n (rd s (clVer o) ClVersion.ABI)

/-- Whether a slot may be loaded under a mode of PROTECT (R99, R109). -/
def slotLoadable (s : State) (slot protect : Nat) : Bool :=
  let st := rd s (slotKey slot) ImgSlot.SLOT_STATE
  st == 3 || (protect == 1 && st == 2)

/-- Whether a LOAD_GO is accepted (R109), with PROTECT and SRC_SLOT as the write leaves them. -/
def loadOk (s : State) (cl slot protect : Nat) : Bool :=
  let x := getCl s cl
  slotLoadable s slot protect && abiOk s cl slot && x.reload.isNone && x.behind.isNone

/-- The state of a cluster with a queued reload: PENDING unless it is PARKED or out of dispatch (R116). -/
def showQueued (cl : Nat) (s : State) : State :=
  let st := clState s cl
  if st = csRunning ∨ st = csEmpty ∨ st = csFailed then wr s (clKey cl) ClCtl.STATE csPending else s

/-- A reload no longer waits: the cluster reads what it would read without it. -/
def showBase (cl : Nat) (s : State) : State :=
  if clState s cl = csPending then wr s (clKey cl) ClCtl.STATE (getCl s cl).base else s

/-- Whether a cluster is PARKED or drains towards PARKED: it drains with no reload of its own under way (R114). -/
def parkedOrParking (s : State) (cl : Nat) : Bool :=
  clState s cl == csParked ||
    (clState s cl == csDraining &&
      (match (getCl s cl).reload with
        | some r => r.phase == .queued
        | none => true))

/-- RELOAD_WAIT of a queued reload stands still while its cluster is PARKED or on its way there (R114). -/
def holdWait (cl : Nat) (s : State) : State :=
  let x := getCl s cl
  match x.reload with
  | some r =>
    if r.phase = .queued then
      match parkedOrParking s cl, r.held with
      | true, none => setCl cl { x with reload := some { r with held := some (ivl s) } } s
      | false, some h => setCl cl { x with reload := some { r with since := r.since + (ivl s - h), held := none } } s
      | _, _ => s
    else s
  | none => s

/-- LOAD_GO queues a reload of a cluster (R109). An accepted LOAD_GO of a FAILED cluster ends its FAILED state (R113). -/
def loadGo (cl : Nat) (s : State) : State :=
  let r : Reload := { slot := rd s (clKey cl) ClCtl.SRC_SLOT, protect := rd s (clKey cl) ClCtl.PROTECT, since := ivl s, held := none,
                      sweep := false, phase := .queued }
  let s := setCl cl { getCl s cl with reload := some r } s
  holdWait cl (showQueued cl { s with eng := { s.eng with reloads := s.eng.reloads ++ [cl] } })

/-- Whether a reload is in progress: its start conditions held, and it has not ended. -/
def inProgress (s : State) (cl : Nat) : Bool :=
  match (getCl s cl).reload with
  | some r => r.phase != .queued && r.phase != .out
  | none => false

/-- Whether a reload of a cluster is pending: accepted, and not in progress (R117). -/
def reloadPending (s : State) (cl : Nat) : Bool :=
  ((getCl s cl).reload.isSome && !inProgress s cl) || (getCl s cl).behind.isSome

/-- Whether a reload of a cluster is queued: it waits for its turn or for its T_s (R116, R117). -/
def reloadQueued (s : State) (cl : Nat) : Bool :=
  reloadPending s cl || (match (getCl s cl).reload.map Reload.phase with
    | some (.fixed _) => true
    | _ => false)

/-- The cluster whose reload is next: that of R103 first, then in the order of the LOAD_GO writes, passing over those that are
PARKED or on their way there (R103, R109, R114). -/
def reloadTurn (s : State) : Option Nat :=
  let waiting := s.eng.reloads.filter fun cl => !inProgress s cl && !parkedOrParking s cl
  match waiting.find? fun cl => (getCl s cl).reload.any Reload.sweep with
  | some cl => some cl
  | none => waiting.head?

/-- A reload leaves the model: completed, dropped, abandoned or failed. A LOAD_GO that waited behind it keeps its place in the order. -/
def dropReload (cl : Nat) (s : State) : State :=
  let x := getCl s cl
  let s := setCl cl { x with reload := x.behind, behind := none } s
  if x.behind.isSome then s else { s with eng := { s.eng with reloads := s.eng.reloads.filter fun i => i != cl } }

/-- A reload is refused at its start: LAST_ERR, a fault message of kind 0x07, and the cluster goes on as it was (R109). -/
def reloadRefused (cl err : Nat) (s : State) : State :=
  let s := showBase cl (wr (dropReload cl s) (clKey cl) ClCtl.LAST_ERR err)
  raiseAt (0x10 + cl) 4 7 (clKey cl) s

/-- Set how far a reload is. -/
def setReload (cl : Nat) (ph : ReloadPhase) (s : State) : State :=
  let x := getCl s cl
  setCl cl { x with reload := x.reload.map fun r => { r with phase := ph } } s

/-- The mode in PROTECT is the one that the next load of a cluster puts in force (R99). -/
def setProtect (cl : Nat) (s : State) : State :=
  let x := getCl s cl
  setCl cl { x with reload := x.reload.map fun r => { r with protect := rd s (clKey cl) ClCtl.PROTECT } } s

/-- The clusters that stay in service while a cluster is reloaded: m of R110. -/
def stayInService (s : State) (cl : Nat) : Nat := (serviceClusters s).length - (if inService s cl then 1 else 0)

/-- RELOAD_START (R103, R109, R110, R112): the next reload's turn, when no other is in progress; FORCE skips the load test. The reload
of R103 has no conditions, and its cluster drains already. T_s lies 10 µs on; the mode that PROTECT gives then is the one the load puts
in force. -/
def execReloadStart (cl : Fin 32) (s : State) : Answer :=
  let cl := cl.val
  .next (match (getCl s cl).reload with
    | none => s
    | some r =>
      if reloadTurn s ≠ some cl ∨ (List.range 32).any (inProgress s) then s
      else if r.sweep then setReload cl .draining (setProtect cl s)
      else if (List.range 32).any fun o => clState s o == csFailed then s
      else if !flag s (clKey cl) ClCtl.FORCE && !loadFits s (rd s (clKey cl) ClCtl.LOAD_LIMIT) (stayInService s cl) then s
      else if !slotLoadable s r.slot (rd s (clKey cl) ClCtl.PROTECT) then reloadRefused cl 6 s
      else if !abiOk s cl r.slot then reloadRefused cl 3 s
      else setReload cl (.fixed (s.ct + 655360000)) (setProtect cl s))

/-- RELOAD_DRAIN (R112, step 2): at T_s dispatch stops. -/
def execReloadDrain (cl : Fin 32) (s : State) : Answer :=
  let cl := cl.val
  .next (match (getCl s cl).reload.map Reload.phase with
    | some (.fixed ts) => wr (setReload cl .draining (reach ts s)) (clKey cl) ClCtl.STATE csDraining
    | _ => s)

/-- Whether a cluster is to be parked: ENABLE is 0, or the power ladder parks it (R114). -/
def wantsPark (s : State) (cl : Nat) : Bool := !flag s (clKey cl) ClCtl.ENABLE || (getCl s cl).shed

/-- RELOAD_DRAINED (R112, steps 3 and 4; R114): once the passes have ended, the stores are written from the slot; a cluster that drains
to be parked reads PARKED. -/
def execReloadDrained (cl : Fin 32) (s : State) : Answer :=
  let cl := cl.val
  let x := getCl s cl
  .next (if clState s cl ≠ csDraining ∨ busyThreads s cl ≠ 0 then s
    else
      match x.reload with
      | some r =>
        if r.phase = .draining then
          let s := setCl cl { x with image := slotImage s r.slot, banks := Cluster.empty.banks, patch := none, slot := some r.slot } s
          wr (setReload cl (.loading false) s) (clKey cl) ClCtl.STATE csLoading
        else if r.phase = .out then s
        else wr s (clKey cl) ClCtl.STATE csParked
      | none => wr s (clKey cl) ClCtl.STATE csParked)

/-- RELOAD_LOADED (R112, step 5; R113): a failure repeats the load once, and then the cluster is FAILED. -/
def execReloadLoaded (cl : Fin 32) (ok : Bool) (s : State) : Answer :=
  let cl := cl.val
  .next (match (getCl s cl).reload.map Reload.phase with
    | some (.loading again) =>
      if ok then setReload cl (.loaded (s.ct + 327680000)) s
      else if !again then setReload cl (.loading true) s
      else
        let s := setCl cl { getCl s cl with image := [], base := csFailed, slot := none } s
        let s := dropReload cl s
        let s := wr (wr s (clKey cl) ClCtl.STATE csFailed) (clKey cl) ClCtl.LAST_ERR 5
        let s := if (getCl s cl).reload.isSome then showQueued cl s else s
        raiseAt (0x10 + cl) 4 7 (clKey cl) s
    | _ => s)

/-- The version object of a loaded image (R104). -/
def versionOf (t : Tab Nat) (protect slot : Nat) : Nat :=
  let x := putF 0 ClVersion.IMAGE_ID (imgNat t 8 4)
  let x := putF x ClVersion.VERSION (imgNat t 12 3)
  let x := putF x ClVersion.ABI (imgNat t 16 3)
  putF (putF (putF x ClVersion.PROT_ACTIVE protect) ClVersion.SLOT slot) ClVersion.DIGEST_TAG (imgNat t 64 4)

/-- RELOAD_RESUME (R104, R112, step 6; R114): at a common-time instant, 5 µs after the stores were checked, the version object is
updated, and the cluster is RUNNING or PARKED. -/
def execReloadResume (cl : Fin 32) (s : State) : Answer :=
  let cl := cl.val
  let x := getCl s cl
  .next (match x.reload with
    | some r =>
      match r.phase with
      | .loaded at_ =>
        let s := reach at_ s
        let s := wrWord s (clVer cl) (versionOf x.image r.protect r.slot)
        let s := wr s (obj .clStatus cl) ClStatus.BANK 0
        let s := dropReload cl (setCl cl { x with base := csRunning } s)
        let s := wr s (clKey cl) ClCtl.STATE (if wantsPark s cl then csParked else csRunning)
        holdWait cl (if (getCl s cl).reload.isSome then showQueued cl s else s)
      | _ => s
    | none => s)

/-- RELOAD_ABANDON (R111): a reload has waited RELOAD_WAIT; time does not run while its cluster is PARKED (R114). A LOAD_GO that waits
behind the reload of R103 is abandoned alike. -/
def execReloadAbandon (cl : Fin 32) (s : State) : Answer :=
  let cl := cl.val
  let x := getCl s cl
  let fault (s : State) : State := raiseAt (0x10 + cl) 4 8 (clKey cl) (wr s (clKey cl) ClCtl.LAST_ERR 4)
  let due (r : Reload) (s : State) : State := reachIvl (r.since + rd s (clKey cl) ClCtl.RELOAD_WAIT * sec * 65536) s
  .next (match x.reload, x.behind with
    | some r, none =>
      if r.phase ≠ .queued ∨ r.sweep ∨ parkedOrParking s cl then s
      else fault (showBase cl (dropReload cl (due r s)))
    | some _, some b =>
      if parkedOrParking s cl then s else fault (setCl cl { x with behind := none } (due b s))
    | none, _ => s)

/-! ## Parking (R114, R116) -/

/-- Park a cluster: one in dispatch drains; one that a reload has taken out of dispatch goes on and is parked when the reload ends. One
that reads PENDING with no image keeps its state: R116 has a PENDING cluster end PARKED, R114 lets an EMPTY or FAILED one keep its state,
and which holds for an EMPTY or FAILED cluster that reads PENDING is the model's choice (log entry 77). -/
def parkCluster (cl : Nat) (s : State) : State :=
  holdWait cl (if inService s cl then wr s (clKey cl) ClCtl.STATE csDraining else s)

/-- Take a cluster out of dispatch at once for its reload (R103). -/
def takeOut (cl : Nat) (s : State) : State := wr (setReload cl .out s) (clKey cl) ClCtl.STATE csDraining

/-- Return a cluster that nothing parks any more to service. One that still drains towards PARKED returns at once: the manual speaks of a
PARKED cluster only (the model's choice, log entry 78). One whose reload is that of R103 goes on to that reload. -/
def returnCluster (cl : Nat) (s : State) : State :=
  if parkedOrParking s cl ∧ !wantsPark s cl then
    match (getCl s cl).reload with
    | some r => if r.sweep then takeOut cl s else holdWait cl (showQueued cl (wr s (clKey cl) ClCtl.STATE csRunning))
    | none => wr s (clKey cl) ClCtl.STATE csRunning
  else s

/-- The power ladder parks a cluster or gives it back (R114, R560). -/
def shedCluster (cl : Nat) (on : Bool) (s : State) : State :=
  let s := setCl cl { getCl s cl with shed := on } s
  if on then parkCluster cl s else returnCluster cl s

/-- Whether a cluster is out of dispatch for a reload of its own (R114). -/
def outForReload (s : State) (cl : Nat) : Bool :=
  clState s cl == csLoading || (clState s cl == csDraining && !parkedOrParking s cl)

/-! ## The SIGNED sweep (R99, R103) -/

/-- The default reaction to a digest mismatch: out of dispatch at once, then a reload from its slot ahead of all that are pending. A
LOAD_GO of the cluster that is pending keeps its place in the order, and waits behind that reload. -/
def sweepReload (cl : Nat) (s : State) : State :=
  let x := getCl s cl
  let r : Reload := { slot := rd s (clVer cl) ClVersion.SLOT, protect := rd s (clKey cl) ClCtl.PROTECT, since := ivl s, held := none,
                      sweep := true, phase := .queued }
  if inProgress s cl ∨ x.reload.any Reload.sweep then s
  else
    let s := setCl cl { x with reload := some r, behind := x.reload } s
    let s := if x.reload.isSome then s else { s with eng := { s.eng with reloads := s.eng.reloads ++ [cl] } }
    if inService s cl then takeOut cl s else s

/-- SIGNED_SWEEP (R99, R103): the sweep of a cluster in SIGNED mode ends; `bad` names the store whose digest differs. -/
def execSignedSweep (cl : Fin 32) (bad : Option (Fin 2)) (s : State) : Answer :=
  let cl := cl.val
  .next (if parityMode s cl ∨ !hasImage s cl then s
    else
      match bad with
      | none => s
      | some i =>
        let k := if i = 0 then obj .microView (cl * 16384) else obj .nanoView (cl * 4096)
        let (s, a) := raiseA { blk := 0x10 + cl, inst := i.val, kind := 6, addr := addrOf k } s
        if a / 2 % 2 = 1 then sweepReload cl s else s)

/-! ## Patches (R106 to R108) -/

/-- The staged bytes of a patch, by parts. -/
def stagedPatch (s : State) (cl : Nat) : Tab Nat :=
  (List.range 8).map fun i => (i, rdWord s (obj .patchStage (cl * 8 + i)))

/-- Microword and nanoword entries of a patch: address or index, reserved bytes, word. -/
def patchMicros (t : Tab Nat) : List (Nat × Nat × Nat) :=
  (List.range (imgNat t 57 1)).map fun i => (imgNat t (320 + 8 * i) 2, imgNat t (322 + 8 * i) 1, imgNat t (323 + 8 * i) 5)
/-- See `patchMicros`. -/
def patchNanos (t : Tab Nat) : List (Nat × Nat × Nat) :=
  let b := 320 + 8 * imgNat t 57 1
  (List.range (imgNat t 58 1)).map fun i => (imgNat t (b + 24 * i) 2, imgNat t (b + 24 * i + 2) 6, imgNat t (b + 24 * i + 8) 16)

/-- The overlay that a patch makes: a patch without entries removes all patching. -/
def patchOverlay (t : Tab Nat) : Overlay :=
  let mw := (patchMicros t).foldl (fun m e => tabPut m e.1 e.2.2) []
  let nw := (patchNanos t).foldl (fun m e => tabPut m e.1 e.2.2) []
  { level := if mw.isEmpty ∧ nw.isEmpty then 0 else imgNat t 56 1, mw := mw, nw := nw }

/-- The header and the replaced words of a patch pass R89 and R106. -/
def patchFormOk (x : Cluster) (t : Tab Nat) : Bool :=
  let y : Cluster := { x with banks := [patchOverlay t, patchOverlay t] }
  let mw := mwCount x.image
  let nw := nwCount x.image
  imgNat t 0 4 == 0x56584550 && imgNat t 4 2 == 1 && imgNat t 6 2 == 0 && decide (1 ≤ imgNat t 56 1) &&
    decide (imgNat t 57 1 ≤ 64) && decide (imgNat t 58 1 ≤ 32) && imgNat t 59 5 == 0 && imgNat t 209 7 == 0 &&
    imgNat t 312 8 == 0 && (imgNat t 112 97 != 0 || imgNat t 216 96 == 0) &&
    (patchMicros t).all (fun (a, r, w) => r == 0 && decide (a < mw) && microOk mw nw w (nanoAt y 0 (Micro.ofWord w).nano)) &&
    (patchNanos t).all (fun (i, r, w) => r == 0 && decide (i < nw) && nanoOk w)

/-- The first conditions of a PATCH_GO, which refuse the write with STATE (R107). -/
def patchAllowed (s : State) (cl : Nat) : Bool :=
  let x := getCl s cl
  let t := stagedPatch s cl
  hasImage s cl && imgNat t 8 48 == imgNat x.image 64 48 &&
    decide (rd s (clVer cl) ClVersion.PATCH_LEVEL < imgNat t 56 1) && x.reload.isNone

/-- The bank in force for new passes of a cluster. -/
def bankNow (s : State) (cl : Nat) : Nat := rd s (obj .clStatus cl) ClStatus.BANK

/-- µs left under PASS_LIMIT of the passes that use the bank a patch would overwrite, none when no pass does (R108). -/
def patchBusy (s : State) (cl : Nat) : Option Nat :=
  let l := (s.eng.threads.filter fun t => t.1 / 512 == cl && t.2.bank != bankNow s cl).map fun t =>
    (t.2.started + rd s (clKey cl) ClCtl.PASS_LIMIT * 1000 - s.clock + 999) / 1000
  if l.isEmpty then none else some (max 1 (l.foldl max 0))

/-- A patch is refused by its check: LAST_ERR and a fault message of kind 0x09 (R107). -/
def patchRefused (cl err : Nat) (s : State) : State :=
  raiseAt (0x10 + cl) 4 9 (clKey cl) (wr s (clKey cl) ClCtl.LAST_ERR err)

/-- PATCH_GO: the checks of R101 on the staged patch, then the inactive bank is written and a switch is scheduled at least 10 µs on.
No LAST_ERR value is given for a failure of form. One that finds an earlier patch still waiting for its switch takes that patch's place:
the manual does not speak of it (the model's choice, log entry 75). -/
def patchGo (cl : Nat) (s : State) : State :=
  let x := getCl s cl
  let t := stagedPatch s cl
  let signed := imgNat t 112 97 != 0
  if !patchFormOk x t then
    let (c, s) := drawChoice s
    patchRefused cl (c % 6 + 1) s
  else if !digestOk t 320 (8 * imgNat t 57 1 + 24 * imgNat t 58 1) then patchRefused cl 2 s
  else if (signed && ((signerSlot s t).isNone || !signatureOk t)) || (!signed && !parityMode s cl) then
    patchRefused cl 1 s
  else
    let b := 1 - bankNow s cl
    setCl cl { x with banks := x.banks.set b (patchOverlay t), patch := some (s.ct + 655360000) } s

/-- PATCH_SWITCH (R104, R107): at the scheduled instant new passes use the patched bank. -/
def execPatchSwitch (cl : Fin 32) (s : State) : Answer :=
  let cl := cl.val
  let x := getCl s cl
  .next (match x.patch with
    | none => s
    | some t =>
      let s := setCl cl { x with patch := none } (reach t s)
      let b := 1 - bankNow s cl
      wr (wr s (obj .clStatus cl) ClStatus.BANK b) (clVer cl) ClVersion.PATCH_LEVEL (bankOf x b).level)

end Sys2Proof.Machine
end

