-- ==== Sys2Proof/Machine/Macsec.lean ====
section
/-! DEFINITION. MACsec: key slots and their drains, validation and protection of frames, the DRBG, and the MKA service (R235 to
R268). -/
namespace Sys2Proof.Machine

/-! ## Objects and slots (R252, R264 to R267) -/

/-- The MSEC status object. -/
def msS : Key := obj .msStatus
/-- The MACsec control of a port. -/
def msK (p : Nat) : Key := obj .msPort p
/-- The MKA status of a port. -/
def mkaK (p : Nat) : Key := obj .mkaStatus p
/-- The status of an SA key slot. -/
def saK (n : Nat) : Key := obj .saSlot n
/-- The status of a CAK slot. -/
def cakK (c : Nat) : Key := obj .cakSlot c

/-- STATE of an SA key slot: EMPTY, VALID, PAUSED, ERASING, EXHAUSTED. -/
def saEmpty : Nat := 0
/-- See `saEmpty`. -/
def saValid : Nat := 1
/-- See `saEmpty`. -/
def saPaused : Nat := 2
/-- See `saEmpty`. -/
def saErasing : Nat := 3
/-- See `saEmpty`. -/
def saExhausted : Nat := 4

/-- STATE of an SA key slot. -/
def saState (s : State) (n : Nat) : Nat := rd s (saK n) SaSlot.STATE

/-- Count on a port's MACsec counters. -/
def msCount (p i : Nat) (s : State) : State := bump .msCtr p i 1 s

/-- SLOTS_VALID follows the slots that are not EMPTY. -/
def countSlots (s : State) : State :=
  wr s msS MsStatus.SLOTS_VALID ((listed .saSlot s).filter fun n => saState s n != saEmpty).length
/-- CAKS_VALID follows the CAK slots that are VALID. -/
def countCaks (s : State) : State :=
  wr s msS MsStatus.CAKS_VALID ((List.range 192).filter fun c => rd s (cakK c) CakSlot.STATE == 1).length

/-- Move an SA key slot to a state. -/
def setSa (n st : Nat) (s : State) : State := countSlots (wr s (saK n) SaSlot.STATE st)

/-- The slots of a direction, port, AN and, on receive, SCI. -/
def slotsOf (s : State) (dir p an sci : Nat) : List Nat :=
  (listed .saSlot s).filter fun n =>
    let x := rdWord s (saK n)
    getF x SaSlot.DIR == dir && getF x SaSlot.PORT == p && getF x SaSlot.AN == an && getF x SaSlot.STATE != saEmpty &&
      (dir == 1 || getF x SaSlot.SCI == sci)

/-- The receive slot of a frame: the VALID one with its port, SCI and AN (R241). -/
def rxSlot (s : State) (p an sci : Nat) : Option Nat := (slotsOf s 0 p an sci).find? fun n => saState s n == saValid

/-- The transmit slot of a port: that of ENC_AN, a VALID one before any other (R244). -/
def txSlot (s : State) (p : Nat) : Option Nat :=
  let l := slotsOf s 1 p (rd s (msK p) MsPort.ENC_AN) 0
  match l.find? fun n => saState s n == saValid with
  | some n => some n
  | none =>
    match l.find? fun n => saState s n == saPaused with
    | some n => some n
    | none =>
      match l.find? fun n => saState s n == saExhausted with
      | some n => some n
      | none => l.head?

/-- Whether XPN is the suite of a slot. -/
def isXpn (s : State) (n : Nat) : Bool := rd s (saK n) SaSlot.SUITE == 2
/-- The highest PN of a suite: 0x02 is XPN (R235). -/
def topPn (suite : Nat) : Nat := if suite = 2 then 2 ^ 64 - 1 else 2 ^ 32 - 1

/-! ## Receiving (R236, R238, R240 to R243) -/

/-- What MSEC makes of a received frame: dropped; for the MKA service; or delivered, with its length, its content and whether it
turned bad. -/
inductive SecIn where
  | drop
  | mka
  | deliver (len : Nat) (c : Content) (bad : Bool)
  deriving DecidableEq, Repr

/-- What a frame holds as it arrived, tag and all. -/
def rawContent (f : LineFrame) : Content :=
  match f.sec with
  | none => f.content
  | some g => { f.content with etherType := 0x88E5, opcode := 0, toPtp := false, window := g.window }
/-- The frame as it arrived. -/
def rawFrame (f : LineFrame) : SecHead := .deliver f.len (rawContent f)

/-- Bytes that the SecTAG and the ICV add (R237). -/
def secOverhead (sci : Bool) : Nat := if sci then 32 else 24

/-- The length of a frame with its SecTAG and ICV removed, padded to 64 B (R238). -/
def bareLen (f : LineFrame) (g : SecTag) : Nat := max (f.len - secOverhead g.sc) 64
/-- A frame that needs padding is counted (R238). -/
def notePad (p : Nat) (f : LineFrame) (g : SecTag) (s : State) : State :=
  if f.len - secOverhead g.sc < 64 then msCount p 12 s else s

/-- Whether a tag is bad (R241). -/
def badTag (g : SecTag) : Bool := g.v || (g.es && g.sc) || (g.c && !g.e) || !g.slOk || g.pn == 0 || !g.fits

/-- The SCI of a frame (R241). -/
def sciOf (s : State) (p : Nat) (f : LineFrame) (g : SecTag) : Nat :=
  if g.sc then g.sci.toNat
  else if g.es then f.sa.toNat * 2 ^ 16 + 1
  else rd s (msK p) MsPort.PEER_SCI

/-- The PN of a frame: under XPN its upper half is that of the lowest acceptable PN, or one more when that PN's lower half has its
top bit set and the frame's has not (R241; IEEE 802.1AE-2018). -/
def recoverPn (lap pn : Nat) (xpn : Bool) : Nat :=
  if xpn then
    let hi := lap / 2 ^ 32
    let hi := if (lap % 2 ^ 32).testBit 31 && !pn.testBit 31 then hi + 1 else hi
    hi % 2 ^ 32 * 2 ^ 32 + pn
  else pn

/-- The bytes that a pipe processes of a frame: without its ICV and its FCS (R247). -/
def pipeBytes (len : Nat) : Nat := len - 20
/-- The entries of a log that lie within the last 1 ms. -/
def inMs (s : State) (l : List (Nat × Nat)) : List (Nat × Nat) := l.filter fun e => within s e.1 ms
/-- TX_LOAD or RX_LOAD: the bytes of the last 1 ms per mille of what the cores in service take (R247, R248, R265). -/
def pipeLoad (s : State) (l : List (Nat × Nat)) : Nat :=
  let cap := (64 - s.msec.coresOut.length) * 4000000 * (100 - rd s (obj .msGlobal) MsGlobal.DUMMY_PCT)
  if cap = 0 then 0 else min 1000 (((inMs s l).map Prod.snd).sum * 8 * 1000 / cap)

/-- A frame with an SA whose PN is not late: a core decrypts it as it arrives, and the ICV decides at its end (R242, R243). -/
def startIcv (p n pn val : Nat) (f : LineFrame) (g : SecTag) (s : State) : SecHead × State :=
  let s := { s with msec := { s.msec with rxLog := (s.clock, pipeBytes f.len) :: inMs s s.msec.rxLog } }
  if val = 0 then (.check n pn val f.len (rawContent f), s)
  else (.check n pn val (bareLen f g) f.content, notePad p f g s)

/-- The end of a frame that a core has worked on: whether it turned bad (R242, R243). `bad` says that it had turned bad before. -/
def endIcv (p n pn val : Nat) (f : LineFrame) (bad : Bool) (s : State) : Bool × State :=
  match f.sec with
  | none => (false, s)
  | some g =>
    if val = 0 then (false, s)
    else if g.icvOk then
      let k := saK n
      let low := max (rd s k SaSlot.PN) (pn + 1 - rd s (msK p) MsPort.REPLAY_WINDOW)
      let s := wr s k SaSlot.PN (min low (2 ^ 64 - 1))
      (false, mapF (msCount p 3 s) k SaSlot.FRAMES (· + 1))
    else if val = 1 ∧ !g.e then (false, msCount p 10 s)
    else (true, if bad then s else msCount p 9 s)

/-- The start of a tagged frame (R241, R242). -/
def startTagged (p : Nat) (f : LineFrame) (g : SecTag) (s : State) : SecHead × State :=
  let val := rd s (msK p) MsPort.VALIDATE
  if badTag g then (if val = 0 then rawFrame f else .drop, msCount p 6 s)
  else
    match rxSlot s p g.an.toNat (sciOf s p f g) with
    | none =>
      let s := msCount p 7 s
      if val = 0 then (rawFrame f, s)
      else if val = 1 ∧ !g.e then (.deliver (bareLen f g) f.content, notePad p f g s) else (.drop, s)
    | some n =>
      let lap := rd s (saK n) SaSlot.PN
      let pn := recoverPn lap g.pn.toNat (isXpn s n)
      if flag s (msK p) MsPort.REPLAY_PROTECT ∧ pn < lap then
        (if val = 0 then rawFrame f else .drop, msCount p 8 s)
      else startIcv p n pn val f g s

/-- MSEC sorts the start of a received frame (R240). -/
def secureHead (p : Nat) (f : LineFrame) (s : State) : SecHead × State :=
  let k := msK p
  if !flag s k MsPort.EN then (rawFrame f, s)
  else
    match f.sec with
    | some g => startTagged p f g s
    | none =>
      let t := f.content.etherType
      if t = 0x8808 ∨ t = 0x8809 then (rawFrame f, s)
      else if t = 0x888E ∧ f.da = 0x0180C2000003 ∧ flag s k MsPort.MKA_EN then (.mka, s)
      else if rd s k MsPort.VALIDATE = 2 then (.drop, msCount p 5 s)
      else (rawFrame f, msCount p 4 s)

/-- The end of a frame, after its start. -/
def secureEnd (p : Nat) (f : LineFrame) (h : SecHead) (bad : Bool) (s : State) : SecIn × State :=
  match h with
  | .drop => (.drop, s)
  | .mka => (.mka, s)
  | .deliver len c => (.deliver len c false, s)
  | .check n pn val len c =>
    let (turned, s) := endIcv p n pn val f bad s
    (.deliver len c turned, s)

/-- What MSEC makes of a whole frame (R240 to R243). -/
def secureIn (p : Nat) (f : LineFrame) (bad : Bool) (s : State) : SecIn × State :=
  let (h, s) := secureHead p f s
  secureEnd p f h bad s

/-! ## Frames at the cores (R249) -/

/-- The key slot that a core works under. -/
def SecHead.slot : SecHead → Option Nat
  | .check n _ _ _ _ => some n
  | _ => none

/-- The received frames that cores work on. -/
def atCores (s : State) : List Nat := s.line.arriving.flatMap fun e => e.2.filterMap fun a => a.sec.slot

/-- Whether the slot of a frame holds 256 frames that are not yet complete. -/
def slotFull (s : State) (p : Nat) (f : LineFrame) : Bool :=
  match (secureHead p f s).1.slot with
  | some n => decide (256 ≤ (atCores s).count n)
  | none => false

/-- Whether a frame needs a core and every pipe of its direction holds two frames. -/
def pipesFull (s : State) (p : Nat) (f : LineFrame) : Bool :=
  (secureHead p f s).1.slot.isSome && decide (2 * (64 - s.msec.coresOut.length) ≤ (atCores s).length)

/-! ## Writing and erasing slots (R253 to R258) -/

/-- The key material of a slot. -/
def setKey (n : Nat) (k : Option SaKey) (s : State) : State :=
  { s with msec := { s.msec with keys := match k with
      | some k => tabPut s.msec.keys n k
      | none => tabDel s.msec.keys n } }

/-- The new key of a slot takes effect (R256). -/
def installSa (n : Nat) (w : SaParams) (mka : Bool) (s : State) : State :=
  let k := saK n
  let gen := rd s k SaSlot.GEN + 1
  let x := putF (putF 0 SaSlot.STATE saValid) SaSlot.GEN gen
  let x := putF (putF (putF x SaSlot.SUITE w.suite.toNat) SaSlot.DIR w.dir.toNat) SaSlot.PORT w.port.toNat
  let x := putF (putF x SaSlot.AN w.an.toNat) SaSlot.MKA (if mka then 1 else 0)
  let x := putF (putF x SaSlot.SCI w.sci.toNat) SaSlot.PN w.initPn.toNat
  countSlots (wrWord (setKey n (some ⟨w.key.toNat, w.salt.toNat, w.ssci.toNat, w.thresh.toNat⟩) s) k x)

/-- A slot becomes EMPTY, its key material zeroised (R257). -/
def emptySa (n : Nat) (s : State) : State :=
  countSlots (wrWord (setKey n none s) (saK n) (putF 0 SaSlot.GEN (rd s (saK n) SaSlot.GEN + 1)))

/-- The changes that wait for a slot, the first in its drain. -/
def drainsOf (s : State) (n : Nat) : List Drain := tabGet s.msec.drains n []
/-- See `drainsOf`. -/
def setDrains (n : Nat) (l : List Drain) (s : State) : State :=
  { s with msec := { s.msec with drains := tabSet s.msec.drains n l [] } }

/-- A change of a slot ends: the new key is in, or the slot is EMPTY, and the reply follows. -/
def endDrain (n : Nat) (d : Drain) (s : State) : State :=
  let s := match d.write with
    | some w => installSa n w d.mka s
    | none => emptySa n s
  match d.hdr with
  | none => s
  | some c =>
    match d.write with
    | some _ => ok c (toBytes 2 (rd s (saK n) SaSlot.GEN) ++ [0, 0]) s
    | none => done c s

/-- Start the first change that waits for a slot: one that needs no drain ends at once (R256 to R258). -/
def startDrains : Nat → Nat → State → State
  | 0, _, s => s
  | fuel + 1, n, s =>
    match drainsOf s n with
    | [] => s
    | d :: rest =>
      if saState s n = saEmpty then
        let s := setDrains n rest s
        let s := match d.write with
          | some _ => endDrain n d s
          | none => (match d.hdr with
            | some c => done c s
            | none => s)
        startDrains fuel n s
      else setSa n (if d.write.isSome then saPaused else saErasing) s

/-- A change of a slot is accepted: it starts, or waits for the one under way (R258). -/
def changeSlot (n : Nat) (d : Drain) (s : State) : State :=
  let l := drainsOf s n
  let s := setDrains n (l ++ [d]) s
  let s := match d.hdr with
    | some c => defer c 0x3A s
    | none => s
  if l.isEmpty then startDrains 2 n s else s

/-- SLOT_DRAIN_END (R256 to R258): the frames admitted under the old generation complete first. -/
def execSlotDrainEnd (slot : Fin 16384) (s : State) : Answer :=
  let n := slot.val
  .next (match drainsOf s n with
    | [] => s
    | d :: rest => if (atCores s).contains n then s else startDrains (rest.length + 1) n (endDrain n d (setDrains n rest s)))

/-! ## The MKA service (R259 to R263) -/

/-- The slots that the service owns on a port: transmit AN k, receive AN k (R262). -/
def mkaTx (p an : Nat) : Nat := 15360 + 8 * p + an
/-- See `mkaTx`. -/
def mkaRx (p an : Nat) : Nat := 15360 + 8 * p + 4 + an
/-- The port whose service owns a slot, none when no running service does. -/
def mkaOwner (s : State) (n : Nat) : Option Nat :=
  if 15360 ≤ n ∧ n < 15744 ∧ flag s (msK ((n - 15360) / 8)) MsPort.MKA_EN then some ((n - 15360) / 8) else none
/-- The slots of the service on a port. -/
def mkaSlots (p : Nat) : List Nat := List.range' (15360 + 8 * p) 8

/-- The CAK slots of a port that are VALID: its participants. -/
def participants (s : State) (p : Nat) : List Nat :=
  (List.range' (4 * p) 4).filter fun c => rd s (cakK c) CakSlot.STATE == 1

/-- A participant that has heard nothing. -/
def Mka.fresh (order mi : Nat) : Mka :=
  { peer := none, peerSci := 0, peerPrio := 0, mns := [], order := order, heard := 0, mi := mi, mn := 0 }
/-- A participant. -/
def getMka (s : State) (c : Nat) : Mka := tabGet s.msec.mka c (Mka.fresh 0 0)
/-- See `getMka`. -/
def setMka (c : Nat) (x : Mka) (s : State) : State := { s with msec := { s.msec with mka := tabPut s.msec.mka c x } }
/-- A participant starts anew, under a member identifier that the DRBG supplies (R250). -/
def startMka (order c : Nat) (s : State) : State :=
  let (mi, s) := drawEntropy s
  setMka c (Mka.fresh order (mi % 2 ^ 96)) s
/-- A participant starts anew with the CAK it has. -/
def restartMka (c : Nat) (s : State) : State := startMka (getMka s c).order c s

/-- Whether the service runs on a port: MKA_EN is 1, and the first seeding has completed (R250). -/
def mkaRuns (s : State) (p : Nat) : Bool := flag s (msK p) MsPort.MKA_EN && rd s msS MsStatus.DRBG_STATE != 0

/-- The principal participant: the live one written most recently (R261). -/
def principalOf (s : State) (p : Nat) : Option Nat :=
  ((participants s p).filter fun c => (getMka s c).peer.isSome).foldl (fun best c =>
    match best with
    | none => some c
    | some b => if (getMka s b).order < (getMka s c).order then some c else some b) none

/-- Whether the device is key server: a lower MKA_PRIO wins, then a lower SCI (R261; IEEE 802.1X-2020). -/
def serverHere (s : State) (p c : Nat) : Bool :=
  let x := getMka s c
  let mine := rd s (msK p) MsPort.MKA_PRIO
  decide (mine < x.peerPrio ∨ (mine = x.peerPrio ∧ rd s (msK p) MsPort.TX_SCI < x.peerSci))

/-- The SAK of a port. -/
def sakOf (s : State) (p : Nat) : Option SakRun := tabGet? s.msec.sak p
/-- See `sakOf`. -/
def setSak (p : Nat) (x : Option SakRun) (s : State) : State :=
  { s with msec := { s.msec with sak := match x with
      | some r => tabPut s.msec.sak p r
      | none => tabDel s.msec.sak p } }

/-- The MKA status follows the participants, the principal and the SAK (R267). -/
def showMka (p : Nat) (s : State) : State :=
  let k := mkaK p
  let old := rdWord s k
  let pr := if mkaRuns s p then principalOf s p else none
  let ca := if !mkaRuns s p || (participants s p).isEmpty then 0
    else if pr.isNone then 1
    else match sakOf s p with
      | some r => if r.switched then 3 else 2
      | none => 2
  let c := pr.getD (4 * p)
  let one (b : Bool) : Nat := if b then 1 else 0
  let x := putF (putF old MkaStatus.CA ca) MkaStatus.PRINCIPAL_VALID (one pr.isSome)
  let x := putF (putF x MkaStatus.PRINCIPAL (c - 4 * p)) MkaStatus.KEY_SERVER (one (pr.isSome && serverHere s p c))
  wrWord s k (putF x MkaStatus.PEER (if pr.isSome then (getMka s c).peerSci else 0))

/-- The parameters of a slot that the service writes. -/
def mkaParams (p an : Nat) (dir : BitVec 8) (r : SakRun) (sci thresh : Nat) : SaParams :=
  { paramLen := 88, cls := 1, slot := 0, suite := BitVec.ofNat 8 r.suite, dir := dir, port := BitVec.ofNat 8 p,
    an := BitVec.ofNat 8 an, sci := BitVec.ofNat 64 sci, ssci := 0, initPn := 1, thresh := BitVec.ofNat 64 thresh,
    key := BitVec.ofNat 256 r.key, salt := 0, resOk := true }

/-- Install a SAK: the receive slot of the next AN is written first (R261). -/
def installSak (p key suite : Nat) (s : State) : State :=
  let old := sakOf s p
  let an := match old with
    | some r => (r.an + 1) % 4
    | none => 0
  let prev := match old with
    | some r => if r.switched then some r.an else r.prevAn
    | none => none
  let r : SakRun := { an := an, key := key, suite := suite, switched := false, prevAn := prev, at_ := 0 }
  let sci := match principalOf s p with
    | some c => (getMka s c).peerSci
    | none => 0
  let s := mapF s (mkaK p) MkaStatus.KEY_NUMBER (· + 1)
  showMka p (changeSlot (mkaRx p an) ⟨none, some (mkaParams p an 0 r sci 0), true⟩ (setSak p (some r) s))

/-- The key server distributes a new SAK, unless the entropy source has failed (R251, R261). -/
def distribute (p : Nat) (s : State) : State :=
  match principalOf s p with
  | none => s
  | some c =>
    if mkaRuns s p && serverHere s p c && rd s msS MsStatus.DRBG_STATE == 1 then
      let (key, s) := drawEntropy s
      installSak p (key % 2 ^ 256) (rd s (msK p) MsPort.MKA_SUITE) s
    else s

/-- The PN_THRESH that the key server sets (R261). -/
def mkaThresh (suite : Nat) : Nat := if suite = 2 then 0xC000000000000000 else 0xC0000000

/-- The peer reports the SAK installed for receive: the transmit slot is written and ENC_AN switched (R261). -/
def switchSak (p : Nat) (s : State) : State :=
  match sakOf s p with
  | some r =>
    if r.switched then s
    else
      let server := match principalOf s p with
        | some c => serverHere s p c
        | none => false
      let w := mkaParams p r.an 1 r 0 (if server then mkaThresh r.suite else 0)
      let s := changeSlot (mkaTx p r.an) ⟨none, some w, true⟩ (setSak p (some { r with switched := true, at_ := s.clock }) s)
      showMka p (wr (wr s (msK p) MsPort.ENC_AN r.an) (mkaK p) MkaStatus.TX_AN r.an)
  | none => s

/-- Erase a slot of the service that is not EMPTY. -/
def mkaErase (n : Nat) (s : State) : State :=
  if saState s n = saEmpty ∧ (drainsOf s n).isEmpty then s else changeSlot n ⟨none, none, true⟩ s

/-- The previous AN's slots are erased (R261). -/
def retireSak (p : Nat) (s : State) : State :=
  match sakOf s p with
  | some r =>
    match r.switched, r.prevAn with
    | true, some a => mkaErase (mkaRx p a) (mkaErase (mkaTx p a) (setSak p (some { r with prevAn := none }) s))
    | _, _ => s
  | none => s

/-- Every slot of the service on a port is erased, and its SAK is gone (R262, R263). -/
def eraseMka (p : Nat) (s : State) : State :=
  forAll (mkaSlots p) mkaErase (setSak p none s)

/-- Send an MKPDU for each participant of a port (R259). -/
def sendMkpdus (p : Nat) (s : State) : State :=
  if portUp s p && !inSafe s && !silent s p then
    forAll (participants s p) (fun c s =>
      let x := getMka s c
      let s := setMka c { x with mn := x.mn + 1 } s
      msCount p 15 (originate p .mkpdu [c, rd s (mkaK p) MkaStatus.KEY_NUMBER, x.mi, x.mn + 1] 64 s)) s
  else s

/-- The participants of a port have changed: a change of principal lets the key server distribute a new SAK (R261). -/
def principalMoved (p : Nat) (was : Option Nat) (s : State) : State :=
  let s := showMka p s
  if principalOf s p = was then s else distribute p s

/-- A discarded MKPDU is counted. -/
def mkaDiscard (p : Nat) (s : State) : State := msCount p 14 s

/-- An MKPDU that passes every check drives its participant (R261, R263). -/
def mkaAccept (p c : Nat) (m : Mkpdu) (s : State) : State :=
  let x := getMka s c
  let was := principalOf s p
  let isNew := m.live && x.peer.isNone
  let s := setMka c { x with mns := tabPut x.mns m.member.toNat m.mn.toNat
                             peer := if m.live then some m.member else x.peer
                             heard := if m.live then s.clock else x.heard
                             peerSci := if m.live then m.sci.toNat else x.peerSci
                             peerPrio := if m.live then m.prio else x.peerPrio } s
  let s := showMka p s
  let s := if isNew then (if principalOf s p = was ∧ was ≠ some c then s else distribute p s) else s
  if principalOf s p ≠ some c then s
  else
    let s := match m.sakSuite with
      | none => s
      | some su =>
        if serverHere s p c then s
        else if su.toNat ≠ rd s (msK p) MsPort.MKA_SUITE then stateEvent (mkaK p) s
        else
          match sakOf s p with
          | some r => if r.key = m.sak.toNat then s else installSak p m.sak.toNat su.toNat s
          | none => installSak p m.sak.toNat su.toNat s
    let s := if m.rxInstalled then switchSak p s else s
    if m.txUnder then retireSak p s else s

/-- MKPDU_RECEIVE (R260, R261, R263). -/
def execMkpduReceive (p : Fin 48) (m : Mkpdu) (s : State) : Answer :=
  let p := p.val
  .next (if !mkaRuns s p then s
    else
      let s := msCount p 13 s
      let at_ := recent s (tabGet s.msec.pduAt p []) sec
      if 50 ≤ at_.length then mkaDiscard p s
      else
        let s := { s with msec := { s.msec with pduAt := tabPut s.msec.pduAt p (s.clock :: at_) } }
        if !m.wellFormed then mkaDiscard p s
        else
          match (participants s p).find? fun c => rd s (cakK c) CakSlot.CKN == m.ckn.toNat with
          | none => mkaDiscard p s
          | some c =>
            if !m.icvOk then
              let fails := s.clock :: recent s (tabGet s.msec.icvAt p []) sec
              let s := { s with msec := { s.msec with icvAt := tabPut s.msec.icvAt p fails } }
              mkaDiscard p (if 16 < fails.length then raiseEach 0x3A 3 4 p (mkaK p) s else s)
            else
              let x := getMka s c
              let last := (tabGet? x.mns m.member.toNat)
              if last.any fun n => decide (m.mn.toNat ≤ n) then mkaDiscard p s
              else if x.peer.any fun q => q != m.member then
                mkaDiscard p (raiseEach 0x3A 3 5 p (mkaK p) (stateEvent (mkaK p) s))
              else mkaAccept p c m s)

/-- MKA_HELLO (R259). -/
def execMkaHello (p : Fin 48) (s : State) : Answer := .next (if mkaRuns s p.val then sendMkpdus p.val s else s)

/-- CA_LOST (R263): no MKPDU has come from the live peer for 6 s. -/
def execCaLost (p : Fin 48) (s : State) : Answer :=
  let p := p.val
  .next (match principalOf s p with
    | none => s
    | some c =>
      if !mkaRuns s p then s
      else
        let s := restartMka c (due ((getMka s c).heard + 6 * sec) s)
        stateEvent (mkaK p) (principalMoved p (some c) (showMka p (eraseMka p s))))

/-- SAK_RETIRE_TIMEOUT (R261): 6 s have passed since the switch. -/
def execSakRetireTimeout (p : Fin 48) (s : State) : Answer :=
  .next (match sakOf s p.val with
    | some r => if r.switched && r.prevAn.isSome then retireSak p.val (due (r.at_ + 6 * sec) s) else s
    | none => s)

/-- Whether MKA_EN may be set: the port is not protected, and every slot of the service on it is EMPTY (R262, R453). -/
def mkaFree (s : State) (p : Nat) : Bool := !protPort s p && (mkaSlots p).all fun n => saState s n == saEmpty

/-- MKA_EN has been set to 1: a participant starts for each VALID CAK slot. -/
def mkaStart (p : Nat) (s : State) : State :=
  showMka p (forAll (participants s p) restartMka s)

/-- MKA_EN has been set to 0: the participants stop and the slots are erased (R262). -/
def mkaStop (p : Nat) (s : State) : State :=
  showMka p (eraseMka p (forAll (participants s p) restartMka s))

/-! ## Transmitting (R236, R237, R244 to R246) -/

/-- What MSEC makes of a frame for the MAC. -/
inductive SecOut where
  | plain
  | wait
  | noSa
  | exhausted
  | protect (slot : Nat)
  deriving DecidableEq, Repr

/-- Whether a frame of an EtherType is protected on a port, and how (R236, R244). -/
def secureOut (s : State) (p etherType : Nat) : SecOut :=
  let k := msK p
  if !flag s k MsPort.EN || !flag s k MsPort.PROTECT || etherType == 0x8808 || etherType == 0x8809 ||
      etherType == 0x888E then .plain
  else
    match txSlot s p with
    | none => .noSa
    | some n =>
      let st := saState s n
      if st = saValid then .protect n
      else if st = saPaused then .wait
      else if st = saExhausted then .exhausted else .noSa

/-- The SecTAG of the frame of len bytes that a port sends next, and how much of its secure data stays clear: CONF_OFFSET bytes of it, or
none of it is enciphered (R237, R266). The TCI holds V, ES, SC, SCB, E, C and AN from bit 7 down; the PN field is the PN's low half. -/
def secTag (p n pn len : Nat) (s : State) : State :=
  let k := msK p
  let one (f : Fld) (v : Nat) : Nat := if flag s k f then v else 0
  let tci := one MsPort.ES 64 + one MsPort.INCLUDE_SCI 32 + one MsPort.CONF 12 + rd s k MsPort.ENC_AN
  let clear := match rd s k MsPort.CONF_OFFSET with
    | 0 => 0
    | 1 => 30
    | _ => 50
  emit s (.secTag p n tci (if len - 16 < 48 then len - 16 else 0) (pn % 2 ^ 32)
    (if flag s k MsPort.INCLUDE_SCI then some (rd s k MsPort.TX_SCI) else none) (if flag s k MsPort.CONF then some clear else none))

/-- An admitted frame, of so many bytes as sent, takes the slot's next PN (R245, R246). -/
def takePn (p n len : Nat) (s : State) : Nat × State :=
  let s := { s with msec := { s.msec with txLog := (s.clock, pipeBytes len) :: inMs s s.msec.txLog } }
  let k := saK n
  let pn := rd s k SaSlot.PN
  let top := topPn (rd s k SaSlot.SUITE)
  let t := (tabGet? s.msec.keys n).elim 0 SaKey.thresh
  let s := msCount p 0 (mapF s k SaSlot.FRAMES (· + 1))
  let s := if pn < top then wr s k SaSlot.PN (pn + 1) else setSa n saExhausted s
  let s := if t ≠ 0 ∧ t ≤ pn ∧ !flag s k SaSlot.THRESH then
    let s := stateEvent k (wr s k SaSlot.THRESH 1)
    if flag s k SaSlot.MKA then distribute p s else s
  else s
  (pn, s)

/-- A core's datapath check fails: it leaves the scheduler until its Grazing check passes (R268). -/
def coreFails (core : Nat) (s : State) : State :=
  let s := { s with msec := { s.msec with coresOut := (core :: s.msec.coresOut).dedup } }
  raiseAt 0x3A 1 2 msS (bump .msGctr 3 0 1 (wr s msS MsStatus.CORES (64 - s.msec.coresOut.length)))

/-- A core passes its Grazing check again. -/
def coreReturns (core : Nat) (s : State) : State :=
  let s := { s with msec := { s.msec with coresOut := s.msec.coresOut.filter fun i => i != core } }
  wr s msS MsStatus.CORES (64 - s.msec.coresOut.length)

/-! ## Commands (R253 to R257) -/

/-- Whether the fields of an SA write lie in their ranges (R253). -/
def saRange (w : SaParams) : Bool :=
  let xpn := w.suite == 2
  w.cls == 1 && decide (w.slot.toNat < 16384) && (w.suite == 1 || w.suite == 2) && decide (w.dir.toNat ≤ 1) &&
    decide (w.port.toNat < 48) && decide (w.an.toNat < 4) && (w.dir == 0 || w.sci == 0) &&
    (xpn || (w.ssci == 0 && w.salt == 0)) && decide (1 ≤ w.initPn.toNat ∧ w.initPn.toNat ≤ topPn w.suite.toNat) &&
    (w.dir == 1 || w.thresh == 0)

/-- Whether another VALID slot already has the direction, port and AN, and on receive the SCI (R255). -/
def saTwin (s : State) (w : SaParams) : Bool :=
  (slotsOf s w.dir.toNat w.port.toNat w.an.toNat w.sci.toNat).any fun n => n != w.slot.toNat && saState s n == saValid

/-- The address that a key command names: its slot, or the session when it names none. -/
def slotAddr (c : Hdr) (cls slot : Nat) : ObjAddr :=
  if cls = 1 ∧ slot < 16384 then addrOf (saK slot)
  else if cls = 2 ∧ slot < 192 then addrOf (cakK slot) else sessAddr c.sid.val

/-- KEY_SLOT_WRITE with CLASS 0x01 (R253, R255, R256). -/
def execKeySlotWriteSa (c : Hdr) (w : SaParams) (s : State) : Answer :=
  let n := w.slot.toNat
  let a := slotAddr c w.cls.toNat n
  .next (checked c 0x0601 accKeys (fun l => l == 88 && w.paramLen == 88) w.resOk 0x3A a (fun s =>
    need c (rd s msS MsStatus.DRBG_STATE != 0) stNotReady a (need c (saRange w) stRange a
      (need c ((mkaOwner s n).isNone && !saTwin s w) stState a (changeSlot n ⟨some c, some w, false⟩))) s) s)

/-- Whether the fields of a CAK write lie in their ranges (R254). -/
def cakRange (w : CakParams) : Bool :=
  let n := w.cknLen.toNat
  decide (w.slot.toNat < 192) && decide (1 ≤ n ∧ n ≤ 32) && w.ckn.toNat % 2 ^ (8 * (32 - n)) == 0

/-- The generation of a CAK slot counts every write and erase (R256). -/
def nextCakGen (n : Nat) (s : State) : State :=
  { s with msec := { s.msec with cakGen := tabPut s.msec.cakGen n ((tabGet s.msec.cakGen n 0 + 1) % 2 ^ 16) } }

/-- KEY_SLOT_WRITE with CLASS 0x02 (R254, R255): the slot is VALID and its participant starts anew. -/
def execKeySlotWriteCak (c : Hdr) (w : CakParams) (s : State) : Answer :=
  let n := w.slot.toNat
  let a := slotAddr c 2 n
  .next (checked c 0x0601 accKeys (fun l => l == 88 && w.paramLen == 88) w.resOk 0x3A a (fun s =>
    need c (rd s msS MsStatus.DRBG_STATE != 0) stNotReady a (need c (cakRange w) stRange a (fun s =>
      let was := principalOf s (n / 4)
      let x := putF (putF (putF 0 CakSlot.CKN w.ckn.toNat) CakSlot.CKN_LEN w.cknLen.toNat) CakSlot.STATE 1
      let s := countCaks (wrWord s (cakK n) x)
      let s := { s with msec := { s.msec with caks := tabPut s.msec.caks n w.cak.toNat, cakN := s.msec.cakN + 1 } }
      let s := principalMoved (n / 4) was (startMka s.msec.cakN n (nextCakGen n s))
      ok c (toBytes 2 (tabGet s.msec.cakGen n 0) ++ [0, 0]) s)) s) s)

/-- KEY_SLOT_ERASE (R257). -/
def execKeySlotErase (c : Hdr) (slot : BitVec 16) (cls res : BitVec 8) (s : State) : Answer :=
  let n := slot.toNat
  let a := slotAddr c cls.toNat n
  .next (checked c 0x0602 accKeys (fun l => l == 4) (res == 0) 0x3A a (fun s =>
    need c ((cls == 1 && decide (n < 16384)) || (cls == 2 && decide (n < 192))) stRange a (fun s =>
      if cls = 1 then
        need c (mkaOwner s n).isNone stState a (changeSlot n ⟨some c, none, false⟩) s
      else if rd s (cakK n) CakSlot.STATE = 0 then done c s
      else
        let was := principalOf s (n / 4)
        let s := countCaks (wrWord s (cakK n) 0)
        let s := { s with msec := { s.msec with caks := tabDel s.msec.caks n, mka := tabDel s.msec.mka n } }
        done c (principalMoved (n / 4) was (nextCakGen n s))) s) s)

/-! ## The DRBG (R250, R251) -/

/-- A health test fails (R251). -/
def entropyFails (s : State) : State :=
  raiseAt 0x3A 2 3 msS (bump .msGctr 1 0 1 (wr s msS MsStatus.DRBG_STATE 2))

/-- DRBG_SEED_COMPLETE (R250): the first seeding ends, and the MKA service may start. -/
def execDrbgSeedComplete (good : Bool) (s : State) : Answer :=
  .next (if rd s msS MsStatus.DRBG_STATE ≠ 0 then s
    else forAll (ports.filter fun p => flag s (msK p) MsPort.MKA_EN) showMka
      (if good then wr s msS MsStatus.DRBG_STATE 1 else entropyFails s))

/-- DRBG_RESEED (R250, R251). -/
def execDrbgReseed (good : Bool) (s : State) : Answer :=
  .next (if rd s msS MsStatus.DRBG_STATE ≠ 1 then s
    else if good then bump .msGctr 0 0 1 s else entropyFails s)

/-- DRBG_RETRY (R251). -/
def execDrbgRetry (good : Bool) (s : State) : Answer :=
  .next (if rd s msS MsStatus.DRBG_STATE ≠ 2 then s
    else if good then bump .msGctr 0 0 1 (wr s msS MsStatus.DRBG_STATE 1) else entropyFails s)

end Sys2Proof.Machine
end

