-- ==== Sys2Proof/Machine/LinePort.lean ====
section
/-! DEFINITION. Line ports: link state, received and transmitted frames, optics, and the BFD and LACP services (R178 to R206). -/
namespace Sys2Proof.Machine

/-! ## Link state (R187 to R190, R202, R226) -/

/-- Control, status and identity mirror of a line port. -/
def lpK (p : Nat) : Key := obj .lpCtl p
/-- See `lpK`. -/
def lpS (p : Nat) : Key := obj .lpStatus p

/-- LINK of a line port: down, up, HOLDING, HELD. -/
def lkDown : Nat := 0
/-- See `lkDown`. -/
def lkUp : Nat := 1
/-- See `lkDown`. -/
def lkHolding : Nat := 2
/-- See `lkDown`. -/
def lkHeld : Nat := 3

/-- Move a line port to a state of LINK. -/
def setLink (p st : Nat) (s : State) : State := wr s (lpS p) LpStatus.LINK st

/-- The control and the status of framing on a port. -/
def frK (p : Nat) : Key := obj .frCtl p
/-- See `frK`. -/
def frS (p : Nat) : Key := obj .frStatus p

/-- The port whose receive side serves a working port (R228). -/
def servingPort (s : State) (p : Nat) : Nat :=
  match groupOfWork s p with
  | some g => if flag s (obj .protGrp g) ProtGrp.SELECTED then rd s (obj .protGrp g) ProtGrp.PROT else p
  | none => p

/-- Server failure of a port (R225). -/
def serverFail (s : State) (p : Nat) : Bool :=
  let x := rdWord s (frS p)
  bitsAt x 124 4 != 0 || (flag s (frK p) FrCtl.TIM_ACT && x.testBit 123)
/-- ODUCn failure of a port (R225). -/
def oduFail (s : State) (p : Nat) : Bool :=
  let x := rdWord s (frS p)
  serverFail s p || bitsAt x 117 3 != 0 || x.testBit 113 || (flag s (frK p) FrCtl.TIM_ACT && x.testBit 116)
/-- The page entry of a slot. -/
def entK (page p sl : Nat) : Key := obj .pageEnt (page * 7680 + 160 * p + sl)
/-- The page in force at a port: during a swap the new one once the port has taken it (R221). -/
def pageAt (s : State) (p : Nat) : Nat :=
  let a := rd s (obj .tfuCtl) TfuCtl.ACTIVE_PAGE
  if s.tfu.taken.contains p then 1 - a else a
/-- An entry as the interchange reads it: one that cannot be read is unequipped (R234). -/
def entryAt (s : State) (k : Key) : Nat := if s.tfu.lostEnt.contains k.idx then 0 else rdWord s k

/-- The packet slots of a port in a page, as a mask. -/
def packetSlots (s : State) (page p : Nat) : Nat :=
  maskOf ((List.range 160).filter fun sl => getF (entryAt s (entK page p sl)) PageEnt.TYPE == 2)

/-- Packet tributary failure of a working port (R225). -/
def packetFail (s : State) (p : Nat) : Bool :=
  let x := rdWord s (frS p)
  let w := servingPort s p
  oduFail s w || (rdWord s (frS w)).testBit 112 && (tabGet s.tfu.msim w 0 &&& packetSlots s (pageAt s p) p) != 0 ||
    bitsAt x 107 5 != 0 || (flag s (frK p) FrCtl.TIM_ACT && x.testBit 106)

/-- The condition of R187, for a framed port that of R226. -/
def portCond (s : State) (p : Nat) : Bool :=
  if isFramed s p then
    !packetFail s p && bitsAt (rdWord s (frS p)) 102 2 == 0 && rd s (frS p) FrStatus.GFP_STATE == 2 &&
      rd s (frS p) FrStatus.PKT_SLOTS != 0
  else isEthernet s p && s.line.cond.contains p

/-- Whether the identity of a port's module lets its link come up (R193). -/
def identityOk (s : State) (p : Nat) : Bool :=
  let st := rd s (lpS p) LpStatus.ID_STATE
  if flag s (lpK p) LpCtl.ID_POLICY then st == 2 else st != 0

/-- Whether the power ladder has shed a port (R560). -/
def portShed (s : State) (p : Nat) : Bool := powerShed s (.port (Fin.ofNat 48 p))

/-- Whether a port may come up: it is administratively up, powered, and its identity allows it. -/
def mayRise (s : State) (p : Nat) : Bool := adminUp s p && !portShed s p && identityOk s p && portCond s p

/-- Since when a port waits in HOLDING, for DOWN_HOLD, or in HELD. -/
def setSince (p : Nat) (t : Option Nat) (s : State) : State :=
  { s with line := { s.line with since := match t with
      | some t => tabPut s.line.since p t
      | none => tabDel s.line.since p } }
/-- A port has waited long enough: the moment at which its wait of d ns ends has come. -/
def waited (p d : Nat) (s : State) : State :=
  match tabGet? s.line.since p with
  | some t => reachIvl (t + d * 65536) s
  | none => s

/-! ## Lanes (R178, R179, R181, R203) -/

/-- Lanes of a port mode (R178). -/
def modeLanes (m : Nat) : Nat :=
  match m with
  | 1 => 1
  | 2 => 2
  | 3 => 4
  | 4 => 8
  | 5 => 4
  | 6 => 8
  | _ => 0
/-- The lanes of a port. -/
def lanesOf (s : State) (p : Nat) : List Nat := (List.range (modeLanes (portMode s p))).map fun i => 4 * p + i

/-- Whether a tap set's absolute values sum to at most 63 (R203, R365). -/
def tapsOk (pre main post : Nat) : Bool := decide ((signedOf 6 pre).natAbs + main + (signedOf 6 post).natAbs ≤ 63)

/-- A lane object with the taps that come into force: as written, or under AUTO some valid taps of the device's own choice (R181, R203). -/
def lanesTaken (x choice : Nat) : Nat :=
  if getF x LaneCtl.EQ_MODE = 0 then
    let pre := choice % 64
    let main := choice / 64 % 64
    let post := choice / 4096 % 64
    if tapsOk pre main post then putF (putF (putF x LaneCtl.TX_PRE pre) LaneCtl.TX_MAIN main) LaneCtl.TX_POST post else x
  else x

/-- The settings of a port's lanes come into force: at its bring-up, which the model puts where ADMIN_UP becomes 1 and where LINK enters
HOLDING (R181, R203; log entry 84). -/
def takeLanes (p : Nat) (s : State) : State :=
  forAll (lanesOf s p) (fun l s =>
    let (c, s) := drawChoice s
    { s with line := { s.line with lanes := tabPut s.line.lanes l (lanesTaken (rdWord s (obj .laneCtl l)) c) } }) s

/-- The place of a lane in its port's order, by the settings in force (R179). -/
def lanePlace (s : State) (p l : Nat) : Nat :=
  4 * (l / 4 - p) + getF (tabGet s.line.lanes l (rdWord s (obj .laneCtl l))) LaneCtl.LOGICAL

/-- LANE_LOCK of a set of locked lanes, bit i lane 4p + i, in the port's lane order (R179, R202). -/
def laneLock (s : State) (p lanes : Nat) : Nat :=
  maskOf (((lanesOf s p).filter fun l => lanes.testBit (l - 4 * p)).map (lanePlace s p))

/-- The lanes of a framed port that are locked: those without dLOS (R202, R207). -/
def framedLock (s : State) (p : Nat) : Nat :=
  laneLock s p (maskOf ((List.range 8).filter fun i => !(rd s (frS p) FrStatus.LOS_LANES).testBit i))

/-- The condition of a port has changed: a port that waits enters HOLDING or leaves it, and one that is up begins to wait for DOWN_HOLD or
ends that wait (R187). -/
def condChanged (p : Nat) (s : State) : State :=
  let s := if isFramed s p then wr s (lpS p) LpStatus.LANE_LOCK (if adminUp s p then framedLock s p else 0) else s
  let st := linkOf s p
  if st = lkDown ∧ mayRise s p then setSince p (some (ivl s)) (setLink p lkHolding (takeLanes p s))
  else if st = lkHolding ∧ !mayRise s p then setSince p none (setLink p lkDown s)
  else if st = lkUp ∧ portCond s p then setSince p none s
  else if st = lkUp ∧ (tabGet? s.line.since p).isNone then setSince p (some (ivl s)) s
  else s

/-! ## Aggregators (R199, R200, R204) -/

/-- The control of an aggregator. -/
def agK (a : Nat) : Key := obj .aggCtl a
/-- The aggregator of a port, none for 0x1F. -/
def aggOf (s : State) (p : Nat) : Option Nat :=
  let a := rd s (lpS p) LpStatus.AGG
  if a < 24 then some a else none
/-- The members of an aggregator, in port order. -/
def membersOfAgg (s : State) (a : Nat) : List Nat := ports.filter fun p => (rd s (agK a) AggCtl.MEMBERS).testBit p

/-- The partner of a port. -/
def partnerOf (s : State) (p : Nat) : Option Lacpdu := (tabGet? s.line.partner p).map Partner.pdu

/-- Enabled BFD sessions. -/
def bfdEnabled (s : State) : List Nat := (listed .bfdSess s).filter fun i => rd s (obj .bfdSess i) BfdSess.ADMIN == 1

/-- Whether a micro-BFD session of a port has gone Down on its detection timer (R198). -/
def microDown (s : State) (p : Nat) : Bool :=
  (bfdEnabled s).any fun i =>
    let k := obj .bfdSess i
    rd s k BfdSess.TYPE == 2 && rd s k BfdSess.PORT == p && rd s k BfdSess.STATE == 1 && rd s k BfdSess.DIAG == 1

/-- The members of an aggregator that are selected (R199): up, of the rate of the lowest-numbered member, with the partner system
and key of the first of them. -/
def selectedOf (s : State) (a : Nat) : List Nat :=
  match membersOfAgg s a with
  | [] => []
  | lead :: rest =>
    let fit := (lead :: rest).filter fun p => portUp s p && rateMb s p == rateMb s lead && portMode s p == portMode s lead
    fit.foldl (fun acc p =>
      match partnerOf s p with
      | none => acc
      | some q =>
        match acc.head?.bind (partnerOf s) with
        | none => if q.aggregatable ∨ acc.isEmpty then acc ++ [p] else acc
        | some f => if q.sysPrio = f.sysPrio ∧ q.sysId = f.sysId ∧ q.key = f.key then acc ++ [p] else acc) []

/-- The members that would distribute: selected, in sync, the partner collecting. -/
def readyOf (s : State) (a : Nat) : List Nat :=
  (selectedOf s a).filter fun p =>
    match partnerOf s p with
    | some q => q.sync && q.collecting && !microDown s p
    | none => false

/-- Bring the LACP state of an aggregator's members up to date; below MIN_LINKS no member distributes, with an event (R200). -/
def updateAgg (a : Nat) (s : State) : State :=
  let on := flag s (agK a) AggCtl.EN
  let sel := if on then selectedOf s a else []
  let ready := if on then readyOf s a else []
  let short := on && decide (ready.length < rd s (agK a) AggCtl.MIN_LINKS)
  let one (b : Bool) : Nat := if b then 1 else 0
  let s := forAll (ports.filter fun p => aggOf s p == some a) (fun p s =>
    let sync := match partnerOf s p with
      | some q => q.sync
      | none => false
    let s := wr s (lpS p) LpStatus.SELECTED (one (sel.contains p))
    let s := wr s (lpS p) LpStatus.COLLECTING (one (sel.contains p && sync))
    wr s (lpS p) LpStatus.DISTRIBUTING (one (ready.contains p && !short))) s
  let was := s.line.short.contains a
  let s := { s with line := { s.line with short := (s.line.short.filter fun b => b != a) ++ if short then [a] else [] } }
  if short && !was then stateEvent (agK a) s else s

/-- Bring the aggregator of a port up to date. -/
def updateAggOf (p : Nat) (s : State) : State :=
  match aggOf s p with
  | some a => updateAgg a s
  | none => s

/-- Whether a write of EN or MEMBERS is refused: a member of another aggregator (R199). -/
def aggTaken (s : State) (a members : Nat) : Bool :=
  (List.range 24).any fun b => b != a && (rd s (agK b) AggCtl.MEMBERS &&& members) != 0

/-- An aggregator's control has been written: LACP runs on its members, or stops (R204). -/
def aggWritten (a : Nat) (s : State) : State :=
  let on := flag s (agK a) AggCtl.EN
  let mem := membersOfAgg s a
  let s := forAll ports (fun p s =>
    if on && mem.contains p then wr s (lpS p) LpStatus.AGG a
    else if aggOf s p = some a then
      let s := { s with line := { s.line with partner := tabDel s.line.partner p, slowQ := tabDel s.line.slowQ p } }
      let s := wr (wr (wr s (lpS p) LpStatus.SELECTED 0) (lpS p) LpStatus.COLLECTING 0) (lpS p) LpStatus.DISTRIBUTING 0
      wr s (lpS p) LpStatus.AGG 31
    else s) s
  updateAgg a s

/-! ## Ports that come up and go down (R188 to R190) -/

/-- A frame that leaves the transmit path before its end has arrived: its reference ends here (R285). -/
def endOpen (f : TxFrame) (s : State) : State :=
  match f.body with
  | .packet r _ _ _ => if f.open_ then endRef r s else s
  | .device _ _ => s

/-- Discard the frames that wait for a port's MAC and the one in transmission, as down discards. -/
def dropTx (p : Nat) (s : State) : State :=
  let l := txOf s p ++ ((tabGet? s.line.sending p).map Sending.frame).toList
  let n := (l.filter fun f => match f.body with
    | .packet _ _ _ _ => true
    | .device _ _ => false).length
  let s := forAll l endOpen (setTx p [] { s with line := { s.line with sending := tabDel s.line.sending p } })
  if n = 0 then s else bump .lpCtr p 17 n s

/-! ## The end of a frame that has started to arrive (R81, R183, R185, R186) -/

/-- The frames of a port that have started to arrive, oldest first. -/
def arrivingOf (s : State) (p : Nat) : List Arriving := tabGet s.line.arriving p []
/-- See `arrivingOf`. -/
def setArriving (p : Nat) (l : List Arriving) (s : State) : State :=
  { s with line := { s.line with arriving := tabSet s.line.arriving p l [] } }

/-- The received frames of a port that wait for a core. -/
def fifoOf (s : State) (p : Nat) : List FifoFrame := tabGet s.line.fifo p []
/-- See `fifoOf`. -/
def setFifo (p : Nat) (l : List FifoFrame) (s : State) : State :=
  { s with line := { s.line with fifo := tabSet s.line.fifo p l [] } }

/-- A frame is ended with the inverse of its FCS after n bytes (R186). -/
def sendInverted (p : Nat) (x : Sending) (n : Nat) (s : State) : State :=
  match x.frame.body with
  | .device _ _ => s
  | .packet r _ _ _ =>
    let n := min n x.len
    countSent p n (bump .lpCtr p 10 1 (emitLine p n (fun q => .frame q r x.frame.win n x.pn x.corr true) s))

/-- A packet's frame is sent to its end. -/
def sendGood (p : Nat) (x : Sending) (s : State) : State :=
  match x.frame.body with
  | .device _ _ => s
  | .packet r _ _ _ => countSent p x.len (emitLine p x.len (fun q => .frame q r x.frame.win x.len x.pn x.corr false) s)

/-- Whether a frame that waits for the MAC is of a packet and waits for its end. -/
def awaits (n : Nat) (f : TxFrame) : Bool :=
  match f.body with
  | .packet r _ _ _ => f.open_ && r.pkt == n
  | .device _ _ => false

/-- The thread that works on a packet learns that its whole frame has arrived: flag T, and a WAIT on it ends (R81, R96). -/
def setArrived (n t : Nat) (s : State) : State :=
  match getThr s t with
  | none => s
  | some x =>
    if x.ref.pkt ≠ n then s
    else
      let x := { x with t := true, l := decide (256 < x.ref.len) }
      let w := (wordAt s t x).2
      if x.hold = .wait ∧ w.cls = 3 ∧ w.wait = 1 then resume t x (setThr t x s) else setThr t x s

/-- The end of a packet's frame has arrived, or never will: its threads learn it, a bad one is marked, and a transmission in cut-through
ends, with the inverse of the FCS when the frame is bad (R81, R183, R184, R186). -/
def endArrival (bad : Bool) (n : Nat) (s : State) : State :=
  let s := match getPkt s n with
    | some p => if bad then putPkt n { p with bad := true } s else s
    | none => s
  let s := forAll (s.eng.threads.map Prod.fst) (setArrived n) s
  forAll ports (fun p s =>
    let l := txOf s p
    let s := forAll (l.filter (awaits n)) endOpen
      (if l.any (awaits n) then setTx p (l.map fun f => if awaits n f then { f with open_ := false, bad := bad } else f) s else s)
    match tabGet? s.line.sending p with
    | some x =>
      if awaits n x.frame then
        let s := endOpen x.frame { s with line := { s.line with sending := tabDel s.line.sending p } }
        if bad then sendInverted p x x.len s else sendGood p x s
      else s
    | none => s) s

/-- The frames that are still arriving on a port are cut off: bad, and those that wait for a core are gone (R183). -/
def cutArrivals (p : Nat) (s : State) : State :=
  let l := arrivingOf s p
  forAll (l.flatMap Arriving.pkts) (endArrival true) (setFifo p [] (setArriving p [] s))

/-- FLAPS of a port: its down transitions of the last 10 s. -/
def flapsOf (s : State) (p : Nat) : List Nat := recent s (tabGet s.line.downs p []) (10 * sec)

/-- A port goes down (R188), to a state of LINK. -/
def goDown (p st : Nat) (s : State) : State :=
  let downs := s.clock :: flapsOf s p
  let s := { s with line := { s.line with downs := tabPut s.line.downs p downs } }
  let s := wr (setLink p st s) (lpS p) LpStatus.FLAPS (min downs.length 255)
  let s := setPt p { ptOf s p with listened := false, down := none } (wr s (ptS p) PtStatus.CAL 0)
  let s := cutArrivals p (setSince p (if st = lkHeld then some (ivl s) else none) s)
  timeChanged (stateEvent (lpS p) (dropTx p (updateAggOf p (bump .lpCtr p 14 1 s))))

/-- PCS_ALIGNMENT_CHANGE (R187): what the receiver sees has changed; bit i of `lanes` says that lane 4p + i is locked. It signals remote
fault while it sees local fault. -/
def execPcsAlignmentChange (p : Fin 48) (aligned localFault remoteFault : Bool) (lanes : BitVec 8) (s : State) : Answer :=
  let p := p.val
  let good := aligned && !localFault && !remoteFault
  let one (b : Bool) : Nat := if b then 1 else 0
  .next (if !isEthernet s p || !adminUp s p then s
    else
      let s := wr (wr (wr s (lpS p) LpStatus.LOCAL_FAULT (one localFault)) (lpS p) LpStatus.REMOTE_FAULT (one remoteFault))
        (lpS p) LpStatus.LANE_LOCK (laneLock s p lanes.toNat)
      let s := { s with line := { s.line with cond := (s.line.cond.filter fun q => q != p) ++ if good then [p] else [] } }
      condChanged p (if localFault then emit s (.pdu p .remoteFault []) else s))

/-- LINK_UP (R187): the condition has held for UP_HOLD. -/
def execLinkUp (p : Fin 48) (s : State) : Answer :=
  let p := p.val
  .next (if linkOf s p = lkHolding ∧ mayRise s p then
      let s := setSince p none (waited p (rd s (lpK p) LpCtl.UP_HOLD * ms) s)
      timeChanged (updateAggOf p (setLink p lkUp s))
    else s)

/-- LINK_DOWN (R188, R189): the condition has failed for DOWN_HOLD; a port that has gone down more than FLAP_MAX times in 10 s is
HELD. -/
def execLinkDown (p : Fin 48) (s : State) : Answer :=
  let p := p.val
  let max := rd s (lpK p) LpCtl.FLAP_MAX
  .next (if linkOf s p = lkUp ∧ !portCond s p then
      let s := waited p (rd s (lpK p) LpCtl.DOWN_HOLD * ms) s
      goDown p (if max ≠ 0 ∧ max < (flapsOf s p).length + 1 then lkHeld else lkDown) s
    else s)

/-- FLAP_HOLD_EXPIRE (R189): the hold ends. -/
def execFlapHoldExpire (p : Fin 48) (s : State) : Answer :=
  let p := p.val
  .next (if linkOf s p = lkHeld then
      let s := waited p (rd s (lpK p) LpCtl.FLAP_HOLD * sec) s
      condChanged p (setSince p none (setLink p lkDown s))
    else s)

/-- ADMIN_UP has become 1: bring-up starts, and a hold ends (R189, R202). -/
def portRise (p : Nat) (s : State) : State := condChanged p (takeLanes p (setSince p none (setLink p lkDown s)))

/-- ADMIN_UP has become 0: the port transmits idle and reads down (R190). -/
def portFall (p : Nat) (s : State) : State :=
  let s := { s with line := { s.line with cond := s.line.cond.filter fun q => q != p } }
  let s := wr (wr (wr s (lpS p) LpStatus.LOCAL_FAULT 0) (lpS p) LpStatus.REMOTE_FAULT 0) (lpS p) LpStatus.LANE_LOCK 0
  let s := if linkOf s p = lkUp then goDown p lkDown s else setSince p none (setLink p lkDown s)
  emit s (.pdu p .idle [])

/-- Whether the LOGICAL values of a quad are a permutation (R179). -/
def quadOk (s : State) (q : Nat) : Bool :=
  ((List.range 4).map fun i => rd s (obj .laneCtl (4 * q + i)) LaneCtl.LOGICAL).dedup.length == 4

/-- Whether a mode takes eight lanes. -/
def wide (mode : Nat) : Bool := mode == 4 || mode == 6

/-- Whether an entry of the ACTIVE page names a port (R223). -/
def namedByPage (s : State) (p : Nat) : Bool :=
  let a := rd s (obj .tfuCtl) TfuCtl.ACTIVE_PAGE
  (listed .pageEnt s).any fun i =>
    let x := rdWord s (obj .pageEnt i)
    i / 7680 == a && getF x PageEnt.TYPE != 0 &&
      (i % 7680 / 160 == p || (getF x PageEnt.TYPE == 1 && getF x PageEnt.SRC_PORT == p))

/-- Whether a write of the port control object is refused with STATE (R178, R179, R223). -/
def lpCtlRefused (s : State) (p new : Nat) : Bool :=
  let m := getF new LpCtl.MODE
  let up := getF new LpCtl.ADMIN_UP == 1
  let moves := m != portMode s p
  (moves && (adminUp s p || namedByPage s p)) ||
    (wide m && p + 1 < 48 && portMode s (p + 1) != 0) ||
    (m != 0 && p % 2 == 1 && wide (portMode s (p - 1))) ||
    (up && !adminUp s p && !(quadOk s p && (!wide m || quadOk s (p + 1))))

/-! ## Receiving (R26, R182 to R184, R195, R275, R277, R334, R423, R456, R484) -/

/-- A received PFC frame: each class enabled in PFC_RX is paused, or its pause ends (R334). -/
def receivePfc (p : Nat) (c : Content) (s : State) : State :=
  forAll ((List.range 8).filter fun n => c.pfcEn.getLsbD n && (rd s (lpK p) LpCtl.PFC_RX).testBit n) (fun n s =>
    let q := (c.quanta.getD n 0).toNat
    let k := 8 * p + n
    let rate := rateMb s p
    let now := if q = 0 ∨ rate = 0 then tabDel s.que.paused k
      else tabPut s.que.paused k (ivl s + q * 512 * 1000 * 65536 / rate)
    { s with que := { s.que with paused := now } }) s

/-- PFC_PAUSE_EXPIRE (R334): the quanta of a pause have elapsed. -/
def execPfcPauseExpire (p : Fin 48) (tc : Fin 8) (s : State) : Answer :=
  let k := 8 * p.val + tc.val
  .next (match tabGet? s.que.paused k with
    | some t =>
      let s := reachIvl t s
      { s with que := { s.que with paused := tabDel s.que.paused k } }
    | none => s)

/-- The port on which the frame of a packet is arriving. -/
def arrivalPort (s : State) (n : Nat) : Option Nat := (s.line.arriving.find? fun e => e.2.any fun a => a.pkts.contains n).map Prod.fst

/-- Store a frame and give its header to dispatch; `bad` says that it has turned bad (R26, R277). Answers its packet, and whether row 7 of
R182 still counts it when it is good: a frame that met a shortfall counts there only. -/
def storeFrame (p len : Nat) (c : Content) (ring : List RingMeet) (bad : Bool) (s : State) : Option Nat × Bool × State :=
  let s := forAll ring meetRing s
  let pool := arrivalPool s p c
  let n := billetsOf len
  let m := mayDraw s pool
  if m = 0 then (none, false, shortfall pool s)
  else if dispatchRoom s p ≤ (dispOf s p).length then (none, true, bump .lpCtr p 7 1 s)
  else
    let cut := decide (m < n)
    let s := if cut then shortfall pool s else s
    match drawBillets pool (min m n) s with
    | none => (none, false, s)
    | some s =>
      let (i, s) := storeArrival { Packet.empty with
        len := if cut then 256 * m else len, arrival := rxStamp s p, arrPort := p, pool := pool, bad := bad || cut, content := c } s
      (some i, !cut, setDisp p (dispOf s p ++ [i]) (sendData 0 (.body i) s))

/-- Row 7 counts a good frame (R182). -/
def countRow7 (p len : Nat) (bad counts : Bool) (s : State) : State :=
  if counts && !bad then bump .lpCtr p 1 len (bump .lpCtr p 0 1 s) else s

/-- Row 6 of R182: a BFD frame goes to the service (R195). -/
def divertBfd (p : Nat) (s : State) : State :=
  let n := tabGet s.line.divertQ p 0
  if 1024 ≤ n then raiseEach 0x38 3 4 p (lpK p) (bump .lpCtr p 16 1 s)
  else { s with line := { s.line with divertQ := tabPut s.line.divertQ p (n + 1) } }

/-- A PTP message addressed to the service waits in the port's divert queue of 512 (R423). -/
def divertPtp (p : Nat) (s : State) : State :=
  let x := ptOf s p
  if 512 ≤ x.divert then bump .tmCtr 3 0 1 s else setPt p { x with divert := x.divert + 1 } s

/-- Whether a frame is a BFD frame: IPv4 without options or fragmentation, or IPv6 without extension headers, behind at most two tags,
and UDP to port 3784, 4784 or 6784 (R195). -/
def isBfd (win : Nat) : Bool :=
  let t := etherAt win
  let udp (off : Nat) : Bool := [3784, 4784, 6784].contains (winBytes win (off + 2) 2)
  if winBytes win t 2 = 0x0800 then
    winBytes win (t + 2) 1 == 0x45 && winBytes win (t + 8) 2 % 2 ^ 14 == 0 && winBytes win (t + 11) 1 == 17 && udp (t + 22)
  else winBytes win t 2 == 0x86DD && winBytes win (t + 8) 1 == 17 && udp (t + 42)

/-- Rows 3 to 7 of R182, with the diversion of R423 before the last. -/
inductive FrameRow where
  | pfc | control | slow | bfd | ptp | dispatch
  deriving DecidableEq, Repr

/-- The row of a frame that MSEC has handled. -/
def frameRow (s : State) (p : Nat) (c : Content) : FrameRow :=
  if c.etherType = 0x8808 then (if c.opcode = 0x0101 then .pfc else .control)
  else if c.etherType = 0x8809 then .slow
  else if isBfd c.window.toNat && flag s (lpK p) LpCtl.BFD_DIVERT then .bfd
  else if c.toPtp && rd s (obj .ptCtl p) PtCtl.PTP_MODE == 1 then .ptp
  else .dispatch

/-- Rows 3 to 7 of R182, on a whole frame that MSEC has handled. -/
def sortFrame (p len : Nat) (c : Content) (ring : List RingMeet) (bad : Bool) (s : State) : State :=
  match frameRow s p c with
  | .pfc => receivePfc p c (bump .lpCtr p 6 1 s)
  | .control => bump .lpCtr p 5 1 s
  | .slow =>
    match aggOf s p with
    | some _ => { s with line := { s.line with slowQ := tabPut s.line.slowQ p (tabGet s.line.slowQ p 0 + 1) } }
    | none => bump .lpCtr p 15 1 s
  | .bfd => divertBfd p s
  | .ptp => divertPtp p (countRow7 p len bad true s)
  | .dispatch =>
    let (_, counts, s) := storeFrame p len c ring bad s
    countRow7 p len bad counts s

/-- The receive limit of a port (R183, R238). -/
def maxFrame (s : State) (p : Nat) : Nat :=
  rd s (lpK p) LpCtl.MAX_FRAME + if flag s (msK p) MsPort.EN then 32 else 0

/-- Whether a frame turns bad in the MAC before its end, counted at its first cause: it is too long, its FCS is wrong, or a MAC buffer
fails (R183, R206). -/
def macJudge (p : Nat) (f : LineFrame) (bad : Bool) (s : State) : Bool × State :=
  let long := decide (maxFrame s p < f.len)
  let s := if bad then s else if long then bump .lpCtr p 4 1 s else if !f.fcsOk then bump .lpCtr p 2 1 s else s
  let s := if f.bufBad then raiseAt 0x38 0 1 (lpK p) s else s
  (bad || long || !f.fcsOk || f.bufBad, s)

/-- A frame as far as it is received: reception ends at MAX_FRAME + 1 bytes (R183). -/
def cutLong (s : State) (p : Nat) (f : LineFrame) : LineFrame := { f with len := min f.len (maxFrame s p + 1) }

/-- A frame that a core may take at once and whose end has come: through MSEC to its row. -/
def wholeFrame (p : Nat) (f : LineFrame) (bad : Bool) (s : State) : State :=
  let (bad, s) := macJudge p f bad s
  match secureIn p (cutLong s p f) bad s with
  | (.drop, s) => s
  | (.mka, s) => s
  | (.deliver len c turned, s) => sortFrame p len c f.ring (bad || turned) s

/-- A frame starts to arrive: the bytes of a frame for row 7 go on as they leave MSEC, its header to dispatch (R182, R243). -/
def headFrame (p : Nat) (f : LineFrame) (s : State) : State :=
  let f := cutLong s p f
  let (h, s) := secureHead p f s
  let put (row7 : Bool) (pkts : List Nat) (counts : Bool) (s : State) : State :=
    setArriving p (arrivingOf s p ++ [⟨f, h, row7, pkts, counts⟩]) s
  let go (len : Nat) (c : Content) : State :=
    if frameRow s p c = .dispatch then
      let (i, counts, s) := storeFrame p len c f.ring false s
      put true i.toList counts s
    else put false [] false s
  match h with
  | .deliver len c => go len c
  | .check _ _ _ len c => go len c
  | .drop => put false [] false s
  | .mka => put false [] false s

/-- The end of a frame that had started to arrive: the verdicts on it, and for a frame of another row than 7 what that row says. -/
def endFrame (p : Nat) (a : Arriving) (bad : Bool) (s : State) : State :=
  let (bad, s) := macJudge p a.frame bad s
  match secureEnd p a.frame a.sec bad s with
  | (.drop, s) => s
  | (.mka, s) => s
  | (.deliver len c turned, s) =>
    let bad := bad || turned
    if a.row7 then forAll a.pkts (endArrival bad) (countRow7 p len bad a.counts s) else sortFrame p len c a.frame.ring bad s

/-- The bytes that a port's receive FIFO holds. -/
def fifoBytes (s : State) (p : Nat) : Nat := ((fifoOf s p).map fun x => x.frame.len).sum

/-- A frame that has passed rows 1 and 2 comes to MSEC: while its slot or the pipes are full, or another frame of its port waits, it waits
in the port's FIFO of 2 microseconds, and one that finds the FIFO full is dropped (R249). `bad` says that it has turned bad, `ended`
that its end has come. -/
def takeFrame (p : Nat) (f : LineFrame) (bad ended : Bool) (s : State) : State :=
  let l := fifoOf s p
  if !l.isEmpty || slotFull s p f || pipesFull s p f then
    if rateMb s p / 4 < fifoBytes s p + f.len then msCount p 11 s
    else
      let held := l.isEmpty && slotFull s p f
      setFifo p (l ++ [⟨f, bad, ended, held⟩]) (if held then bump .msGctr 2 0 1 s else s)
  else if ended then wholeFrame p f bad s
  else headFrame p f s

/-- A frame that has passed row 2 and, on a framed port, the GFP checks: it may have turned bad before its end (R183). -/
def passFrame (p : Nat) (f : LineFrame) (bad : Bool) (s : State) : State := takeFrame p f bad true s

/-- Take the frames of a port that a core may take out of its FIFO, in order; one that then meets the bound of its slot is counted. -/
def drainFifo : Nat → Nat → State → State
  | 0, _, s => s
  | fuel + 1, p, s =>
    match fifoOf s p with
    | [] => s
    | x :: rest =>
      if slotFull s p x.frame then
        if x.held then s else bump .msGctr 2 0 1 (setFifo p ({ x with held := true } :: rest) s)
      else if pipesFull s p x.frame then s
      else
        let s := setFifo p rest s
        drainFifo fuel p (if x.ended then wholeFrame p x.frame x.bad s else headFrame p x.frame s)
/-- Take what the cores may take out of every FIFO. -/
def drainFifos (s : State) : State := forAll ports (fun p s => drainFifo (fifoOf s p).length p s) s

/-- The frame of a start with the verdicts that its end brings. -/
def joinFrame (head tail : LineFrame) : LineFrame :=
  { head with
    fecBad := tail.fecBad, pcsBad := tail.pcsBad, fcsOk := tail.fcsOk, bufBad := tail.bufBad, fecWords := tail.fecWords,
    fecSyms := tail.fecSyms,
    sec := match head.sec, tail.sec with
      | some g, some v => some { g with icvOk := v.icvOk }
      | g, _ => g }

/-- What the FEC of an Ethernet port says of a frame: corrected codewords and symbols, and whether the frame is bad by the FEC or the PCS
(R183, R202, R205). -/
def lineJudge (p : Nat) (f : LineFrame) (s : State) : Bool × State :=
  let log := (s.clock, f.fecSyms) :: (tabGet s.line.fecAt p []).filter fun e => within s e.1 sec
  let s := if f.fecWords = 0 then s else bump .lpCtr p 12 f.fecWords s
  let s := if f.fecSyms = 0 then s else { s with line := { s.line with fecAt := tabPut s.line.fecAt p log } }
  (f.fecBad || f.pcsBad, if f.fecBad then bump .lpCtr p 13 1 s else if f.pcsBad then bump .lpCtr p 2 1 s else s)

/-- FEC_SYM: the symbols corrected in the last 1 s, saturating (R202). -/
def fecSym (s : State) (p : Nat) : Nat :=
  min ((((tabGet s.line.fecAt p []).filter fun e => within s e.1 sec).map Prod.snd).sum) (2 ^ 32 - 1)

/-- The end of the oldest frame of a port that has started: one whose core is at work ends, one that waits for a core has its end. While
the conditions of R187 fail the frame is bad. -/
def endOldest (p : Nat) (f : LineFrame) (s : State) : State :=
  match arrivingOf s p with
  | a :: rest =>
    let g := joinFrame a.frame f
    let (bad, s) := lineJudge p g (setArriving p rest s)
    drainFifos (endFrame p { a with frame := g } (bad || !portCond s p) s)
  | [] =>
    let l := fifoOf s p
    match l.find? fun x => !x.ended with
    | none => s
    | some x =>
      let g := joinFrame x.frame f
      let (bad, s) := lineJudge p g s
      let y : FifoFrame := { x with frame := g, bad := bad || !portCond s p, ended := true }
      setFifo p (l.takeWhile FifoFrame.ended ++ y :: (l.dropWhile FifoFrame.ended).drop 1) s

/-- Whether a port takes a frame: the device is not in the safe state, the port is up, and in mirror mode the unit is active on it. -/
def receives (p : Nat) (s : State) : Option State :=
  if inSafe s then some (bump .fltCtr 6 0 1 s)
  else if linkOf s p ≠ lkUp then some s
  else if silent s p && !twin s then some (bump .lpCtr p 17 1 s)
  else none

/-- FRAME_RECEIVE on an Ethernet port (R182, R183). -/
def execFrameReceive (p : Fin 48) (part : FramePart) (f : LineFrame) (s : State) : Answer :=
  let p := p.val
  .next (if !isEthernet s p then s
    else if part = .tail then endOldest p f s
    else
      match receives p s with
      | some s => s
      | none =>
        if !portCond s p then s
        else if f.bad64 then bump .lpCtr p 2 1 s
        else if f.len < 64 then bump .lpCtr p 3 1 s
        else if part = .head then takeFrame p f false false s
        else
          let (bad, s) := lineJudge p f s
          passFrame p f bad s)

/-! ## Transmitting (R184 to R186, R244, R329 to R331, R427) -/

/-- The EtherType of a frame for the MAC. -/
def etherOf (f : TxFrame) : Nat :=
  match f.body with
  | .packet _ _ _ _ => bitsAt f.win 1936 16
  | .device k _ =>
    match k with
    | .pfc => 0x8808
    | .lacp | .marker | .esmc => 0x8809
    | .mkpdu => 0x888E
    | .bfd => 0x0800
    | _ => 0x88F7

/-- The length of a frame as sent: MACsec adds its SecTAG and ICV (R237). -/
def sentLen (s : State) (p : Nat) (f : TxFrame) : Nat :=
  match secureOut s p (etherOf f) with
  | .protect _ => f.len + secOverhead (flag s (msK p) MsPort.INCLUDE_SCI)
  | _ => f.len

/-- The time a frame takes on a port, in units of 2^-16 ns (R329). -/
def txTime (s : State) (p : Nat) (f : TxFrame) : Nat := (sentLen s p f + 20) * 8 * 1000 * 65536 / max 1 (rateMb s p)

/-- The transmit FIFO heads of a port: the first frame of each class, in the order they were dequeued (R329). -/
def fifoHeads : List TxFrame → List Nat → List TxFrame
  | [], _ => []
  | f :: rest, seen => if seen.contains f.tc then fifoHeads rest seen else f :: fifoHeads rest (f.tc :: seen)

/-- Take a frame off a port's transmit path. -/
def unTx (p : Nat) (f : TxFrame) (s : State) : State := setTx p ((txOf s p).erase f) s

/-- Take a frame off a port's transmit path for good. -/
def discardTx (p : Nat) (f : TxFrame) (s : State) : State := endOpen f (unTx p f s)

/-- The heads that a gate list considers: it needs a frame's length, so only frames whose end has come (R185). -/
def gateHeads (s : State) (p : Nat) : List TxFrame := (fifoHeads (txOf s p) []).filter fun f => !f.open_

/-- Heads longer than their gate's longest open run are dropped, for as long as there are any (R330). -/
def dropOversize : Nat → Nat → State → State
  | 0, _, s => s
  | fuel + 1, p, s =>
    match (gateHeads s p).find? fun f =>
        match longestRun s p f.tc with
        | some r => decide (r < txTime s p f)
        | none => false with
    | some f => dropOversize fuel p (bump .egCtr p (8 + f.tc) 1 (discardTx p f s))
    | none => s

/-- Whether a head may start: its class is not paused, its gate is open and it ends before the gate closes (R329, R334). -/
def fits (s : State) (p : Nat) (f : TxFrame) : Bool :=
  gateOpen s p f.tc &&
    match gateCloses s p f.tc with
    | some t => decide (s.ct + txTime s p f ≤ t)
    | none => true

/-- Count a window that a head misses, once for each window. -/
def noteMiss (p : Nat) (f : TxFrame) (s : State) : State :=
  if gateOpen s p f.tc && !fits s p f && f.missed != gateCloses s p f.tc then
    let s := setTx p ((txOf s p).map fun g => if g = f then { f with missed := gateCloses s p f.tc } else g) s
    bump .egCtr p f.tc 1 s
  else s

/-- Whether a frame is one of a paused class: the device's own frames are not held (R334). -/
def heldByPause (s : State) (p : Nat) (f : TxFrame) : Bool :=
  match f.body with
  | .packet _ _ _ _ => pausedOn s p f.tc
  | .device _ _ => false

/-- Whether a frame of the device's own is meant, which waits for nothing but its gate (R197, R333). -/
def ownFrame (f : TxFrame) : Bool :=
  match f.body with
  | .packet _ _ _ _ => false
  | .device _ _ => true

/-- The conditions of cut-through (R185): CT_EN on both ports, a departure rate no higher than the arrival rate, no gate list in force, and
a packet that has not been spilled. The first 256 B of a frame whose header has gone on are in the hot tier. -/
def mayCutThrough (s : State) (p : Nat) (f : TxFrame) : Bool :=
  match f.body with
  | .device _ _ => false
  | .packet r _ _ _ =>
    match arrivalPort s r.pkt with
    | none => false
    | some a =>
      flag s (lpK p) LpCtl.CT_EN && flag s (lpK a) LpCtl.CT_EN && decide (rateMb s p ≤ rateMb s a) && !gateInForce s p && r.page.isNone

/-- Whether a packet of the port and class that was dequeued before a frame is still on its way through its egress pass: frames keep the
order of their dequeues (R33). -/
def overtakes (s : State) (p : Nat) (f : TxFrame) : Bool :=
  match f.no with
  | none => false
  | some n =>
    (egressWaits s).any (fun h => h.port == p && h.tc == f.tc && decide (h.no < n)) ||
      s.eng.threads.any fun e => e.2.egress && e.2.outPort == p && e.2.ref.tc == f.tc && decide (e.2.no < n)

/-- Whether a frame may start now, its class's turn aside. -/
def mayStart (s : State) (p : Nat) (f : TxFrame) : Bool :=
  !heldByPause s p f && !overtakes s p f && (!f.open_ || mayCutThrough s p f)

/-- The first frame that may start: a packet that may not holds back those of its class behind it. -/
def firstReady (s : State) (p : Nat) : List TxFrame → List Nat → Option TxFrame
  | [], _ => none
  | f :: rest, held =>
    if ownFrame f then some f
    else if !held.contains f.tc && mayStart s p f then some f
    else firstReady s p rest (f.tc :: held)

/-- A bad frame is dropped at the start of its transmission (R184). -/
def dropBad (p : Nat) (s : State) : State :=
  let l := (txOf s p).filter fun f => !f.bad
  if l.length = (txOf s p).length then s else setTx p l s

/-- The frame that the MAC starts next, with the misses counted. -/
def nextTx (p : Nat) (s : State) : Option TxFrame × State :=
  let s := dropBad p s
  if gateInForce s p then
    let s := dropOversize ((txOf s p).length + 1) p s
    let s := forAll (gateHeads s p) (noteMiss p) s
    ((gateHeads s p).find? fun f => mayStart s p f && fits s p f, s)
  else (firstReady s p (txOf s p) [], s)

/-- What the transparent clock makes of a correctionField: the residence time added, or the field unchanged and the frame counted
when the sum overflows (R427). -/
def transparent (p arrival : Nat) (c : Option (BitVec 64)) (s : State) : Option Nat × State :=
  match c with
  | none => (none, s)
  | some c =>
    if rd s (obj .ptCtl p) PtCtl.PTP_MODE ≠ 2 then (none, s)
    else
      let v := c.toInt + ((txStamp s p - arrival : Nat) : Int)
      if v < 2 ^ 63 then (some (v % 2 ^ 64).toNat, s) else (some c.toNat, bump .tmCtr 10 0 1 s)

/-- How the transmission of a packet's frame goes, once it has started (R186, R206, R268). -/
def finishFrame (p : Nat) (x : Sending) (fate : TxFate) (s : State) : State :=
  match x.frame.body with
  | .device _ _ => s
  | .packet _ _ _ desc =>
    match fate with
    | .whole => sendGood p x s
    | .turnsBad n => sendInverted p x n (raiseAt 0x40 0 1 (obj .pktDesc desc) (bump .bufCtr 1 0 1 s))
    | .underrun n => bump .lpCtr p 11 1 (sendInverted p x n s)
    | .coreFailed n core => sendInverted p x n (coreFails core.val s)
    | .bufFailed n => sendInverted p x n (raiseAt 0x38 0 1 (lpK p) s)

/-- A frame leaves a port, under a PN where it is protected. -/
def sendFrame (p : Nat) (f : TxFrame) (pn : Option Nat) (len : Nat) (fate : TxFate) (s : State) : State :=
  match f.body with
  | .device k args => countSent p len (emitLine p len (fun q => .pdu q k (args ++ pn.toList)) s)
  | .packet _ arrival c _ =>
    let (corr, s) := transparent p arrival c s
    finishFrame p ⟨f, pn, len, corr⟩ fate s

/-- A frame starts. One whose end has yet to arrive stays in transmission until it does (R185); one that is held to its end cannot run
out of bytes (R186). -/
def startFrame (p : Nat) (f : TxFrame) (pn : Option Nat) (len : Nat) (fate : TxFate) (s : State) : State :=
  match f.body, f.open_ with
  | .packet _ arrival c _, true =>
    let (corr, s) := transparent p arrival c s
    let x : Sending := ⟨f, pn, len, corr⟩
    match fate with
    | .whole => { s with line := { s.line with sending := tabPut s.line.sending p x } }
    | fate => finishFrame p x fate (endOpen f s)
  | _, _ =>
    sendFrame p f pn len (match fate with
      | .underrun _ => .whole
      | fate => fate) s

/-- Whether every transmit pipe holds two frames (R249). -/
def txPipesFull (s : State) : Bool :=
  decide (2 * (64 - s.msec.coresOut.length) ≤ s.line.sending.countP fun e => e.2.pn.isSome)

/-- FRAME_TRANSMIT (R184 to R186, R244, R249, R329): the MAC starts a frame, or a frame in cut-through meets its fate. -/
def execFrameTransmit (p : Fin 48) (fate : TxFate) (s : State) : Answer :=
  let p := p.val
  .next (if inSafe s || !portUp s p || silent s p then dropTx p s
    else
      match tabGet? s.line.sending p with
      | some x =>
        match fate with
        | .whole => s
        | fate => finishFrame p x fate (endOpen x.frame { s with line := { s.line with sending := tabDel s.line.sending p } })
      | none =>
        match nextTx p s with
        | (none, s) => s
        | (some f, s) =>
          match secureOut s p (etherOf f) with
          | .wait => s
          | .noSa => msCount p 1 (discardTx p f s)
          | .exhausted => msCount p 2 (discardTx p f s)
          | .plain => startFrame p f none f.len fate (unTx p f s)
          | .protect n =>
            if txPipesFull s then s
            else
              let len := sentLen s p f
              let (pn, s) := takePn p n len (unTx p f s)
              startFrame p f (some pn) len fate (secTag p n pn f.len s))

/-- Send a frame of the controlled port that the device originates, ahead of every egress queue and through MACsec where it applies;
answers whether it left or waits (R197, R331). -/
def originateSecure (p : Nat) (kind : Pdu) (args : List Nat) (len : Nat) (s : State) : Bool × State :=
  if !portUp s p || inSafe s || silent s p then (false, s)
  else
    let tc := if gateInForce s p then rd s (obj .gateCtl p) GateCtl.SVC_TC else 7
    let f := deviceFrame kind args tc len
    if gateInForce s p then (true, setTx p (f :: txOf s p) s)
    else
      match secureOut s p (etherOf f) with
      | .wait => (true, setTx p (f :: txOf s p) s)
      | .noSa => (false, msCount p 1 s)
      | .exhausted => (false, msCount p 2 s)
      | .plain => (true, sendFrame p f none len .whole s)
      | .protect n =>
        let n' := sentLen s p f
        let (pn, s) := takePn p n n' s
        (true, sendFrame p f (some pn) n' .whole (secTag p n pn len s))

/-! ## Optics identity and module access (R191 to R194) -/

/-- The channel of a port's module: its bus and switch channel. -/
def moduleOf (s : State) (p : Nat) : Nat := 16 * rd s (lpK p) LpCtl.MOD_BUS + rd s (lpK p) LpCtl.MOD_CH
/-- The line ports that name a channel. -/
def namersOf (s : State) (ch : Nat) : List Nat := ports.filter fun p => moduleOf s p == ch
/-- Those of them that are not OFF. -/
def usersOf (s : State) (ch : Nat) : List Nat := (namersOf s ch).filter fun p => portMode s p != 0

/-- Where the identity of a module is kept: its status field's object and field, its mirror, the source of its faults, its port, and the
application it must advertise. -/
structure IdPlace where
  status : Key
  field  : Fld
  mirror : Key
  blk    : Nat
  inst   : Nat
  kind   : Nat
  port   : Option Nat
  app    : Nat
  deriving DecidableEq, Repr

/-- The place of a line port. -/
def portPlace (s : State) (p : Nat) : IdPlace := ⟨lpS p, LpStatus.ID_STATE, obj .idMirror p, 0x38, 2, 3, some p, portMode s p⟩

/-- The places of a channel: its line ports, or the fabric link of a cable that the plan uses (R192, R341, R342). -/
def placesOf (s : State) (ch : Nat) : List IdPlace :=
  if ch < 64 then
    (usersOf s ch).map (portPlace s)
  else if linkState s (ch - 64) = lsUnused then []
  else [⟨flKey (ch - 64), FlStatus.ID_STATE, obj .cabMirror (ch - 64), 0x50, 3, 5, none, 15⟩]

/-- A channel is no longer being read, and its retries end. -/
def endReading (ch : Nat) (s : State) : State :=
  { s with line := { s.line with reading := s.line.reading.filter fun c => c != ch, retries := tabDel s.line.retries ch } }

/-- A module's transaction has come through: its retries begin anew (R191). -/
def endRetries (ch : Nat) (s : State) : State := { s with line := { s.line with retries := tabDel s.line.retries ch } }

/-- Drive a port's module through its CMIS machines when MOD_MGMT asks for it and its identity is VALID: the application of MODE, out of low
power, the data path of the port's lanes (R193). -/
def driveModule (p : Nat) (s : State) : State :=
  if flag s (lpK p) LpCtl.MOD_MGMT && rd s (lpS p) LpStatus.ID_STATE == 2 && portMode s p != 0 then
    emit s (.cmis p (moduleOf s p) (portMode s p) (rd s (lpK p) LpCtl.MOD_LANE))
  else s

/-- The identity of a module takes a state: an entry into INVALID, MISMATCH or UNREADABLE sends a message (R192), an entry into VALID lets
the device drive the module (R193). -/
def setIdentity (x : IdPlace) (st : Nat) (s : State) : State :=
  let was := rd s x.status x.field
  let s := wr s x.status x.field st
  let s := if 3 ≤ st ∧ was ≠ st then raiseAt x.blk x.inst x.kind x.mirror s else s
  match x.port with
  | some p => condChanged p (if st = 2 ∧ was ≠ st then driveModule p s else s)
  | none => s

/-- MODE, MOD_BUS or MOD_CH of a port has been written: another module is looked for at the next poll, and the module that was read is held
against the new MODE (R192; log entry 85). -/
def identityMoved (p old : Nat) (s : State) : State :=
  let m := portMode s p
  let was := getF old LpCtl.MODE
  let st := rd s (lpS p) LpStatus.ID_STATE
  if getF old LpCtl.MOD_BUS ≠ rd s (lpK p) LpCtl.MOD_BUS ∨ getF old LpCtl.MOD_CH ≠ rd s (lpK p) LpCtl.MOD_CH ∨ m = 0 ∨ was = 0 then
    if st = 0 then s else setIdentity (portPlace s p) 0 s
  else if m ≠ was ∧ (st = 2 ∨ st = 4) then
    driveModule p (setIdentity (portPlace s p) (if (tabGet s.line.apps p 0).testBit m then 2 else 4) s)
  else if getF old LpCtl.MOD_MGMT = 0 ∨ getF old LpCtl.MOD_LANE ≠ rd s (lpK p) LpCtl.MOD_LANE then driveModule p s
  else s

/-- The port control object has been written. -/
def lpCtlWritten (p old : Nat) (s : State) : State :=
  let was := getF old LpCtl.ADMIN_UP == 1
  let s := identityMoved p old s
  let s := if adminUp s p && !was then portRise p s
    else if !adminUp s p && was then portFall p s else condChanged p s
  timeChanged (updateAggOf p s)

/-- MODULE_POLL (R192). -/
def execModulePoll (ch : Fin 128) (present : Bool) (s : State) : Answer :=
  let c := ch.val
  .next (if s.line.busOut.contains (c / 16) then s
    else if present then
      forAll (placesOf s c) (fun x s =>
        if rd s x.status x.field = 0 then
          setIdentity x 1 { s with line := { s.line with reading := (s.line.reading ++ [c]).dedup } }
        else s) (endRetries c s)
    else forAll (placesOf s c) (fun x s => setIdentity x 0 s) (endReading c s))

/-- A byte of an identity mirror. -/
def idByte (v i : Nat) : Nat := bitsAt v (8 * (255 - i)) 8

/-- ID_STATE of what a read returned, for a place that needs an application (R192). -/
def identityState (r : IdentityRead) (app : Nat) : Nat :=
  let v := r.bytes.toNat
  let sum := ((List.range' 128 94).map (idByte v)).sum % 256
  if !r.readOk then 5
  else if idByte v 1 < 0x40 ∨ 0x5F < idByte v 1 ∨ idByte v 222 ≠ sum then 3
  else if r.appMatch.toNat.testBit app then 2 else 4

/-- IDENTITY_READ_COMPLETE (R192, R193). -/
def execIdentityReadComplete (ch : Fin 128) (r : IdentityRead) (s : State) : Answer :=
  let c := ch.val
  .next (if !s.line.reading.contains c then s
    else
      forAll (placesOf s c) (fun x s =>
        if rd s x.status x.field = 1 then
          let s := if r.readOk then wrWord s x.mirror r.bytes.toNat else s
          let s := match x.port with
            | some p => { s with line := { s.line with apps := tabPut s.line.apps p r.appMatch.toNat } }
            | none => s
          setIdentity x (identityState r x.app) s
        else s) (endReading c s))

/-- A bus is taken out of use: its module access ends, and a read of one of its channels ends UNREADABLE (R191, R203). -/
def busStuck (b : Nat) (s : State) : State :=
  let s := { s with line := { s.line with busOut := (s.line.busOut ++ [b]).dedup } }
  if b < 4 then raiseAt 0x38 1 2 (obj .modCtl b) s else raiseAt 0x50 3 6 (obj .lmacGlobal) s

/-- TWB_TIMEOUT (R191): a transaction is retried up to 3 times; an SDA that stays low is met by nine SCL clocks and a stop condition, and
one that they do not free takes the bus out of use. -/
def execTwbTimeout (ch : Fin 128) (o : TwbOutcome) (s : State) : Answer :=
  let c := ch.val
  let n := tabGet s.line.retries c 0 + 1
  let again (s : State) : State :=
    if n ≤ 3 then { s with line := { s.line with retries := tabPut s.line.retries c n } }
    else if s.line.reading.contains c then
      forAll (placesOf s c) (fun x s => if rd s x.status x.field = 1 then setIdentity x 5 s else s) (endReading c s)
    else endReading c s
  .next (if s.line.busOut.contains (c / 16) then s
    else
      match o with
      | .sdaLow false => busStuck (c / 16) (emit s (.busClear (c / 16)))
      | .sdaLow true => again (emit s (.busClear (c / 16)))
      | _ => again s)

/-- TWB_RECOVERY (R191): the recovery of a bus that is out of use is tried again. -/
def execTwbRecovery (b : Fin 8) (ok : Bool) (s : State) : Answer :=
  .next (if !s.line.busOut.contains b.val then s
    else
      let s := emit s (.busClear b.val)
      if ok then { s with line := { s.line with busOut := s.line.busOut.filter fun i => i != b.val } } else s)

/-- Whether a module access is refused with STATE: a write to a module that a port drives (R194). -/
def modRefused (s : State) (b new : Nat) : Bool :=
  getF new ModCtl.GO == 1 && getF new ModCtl.WRITE == 1 &&
    (namersOf s (16 * b + getF new ModCtl.CH)).any fun p => adminUp s p && flag s (lpK p) LpCtl.MOD_MGMT

/-- A module access starts: a write's bytes go to the module, the first LEN of the data object (R194, R203). -/
def moduleGo (b : Nat) (s : State) : State :=
  let k := obj .modCtl b
  let n := rd s k ModCtl.LEN
  let s := if flag s k ModCtl.WRITE && !s.line.busOut.contains b then
      emit s (.moduleWrite (16 * b + rd s k ModCtl.CH) (rd s k ModCtl.BANK) (rd s k ModCtl.PAGE) (rd s k ModCtl.OFFSET)
        ((toBytes 128 (rdWord s (obj .modData b))).take n))
    else s
  wr s k ModCtl.BUSY 1

/-- MODULE_ACCESS_COMPLETE (R194, R203): RESULT is set, and a read fills the first LEN bytes of the data object. -/
def execModuleAccessComplete (b : Fin 4) (r : ModResult) (data : BitVec 1024) (s : State) : Answer :=
  let k := obj .modCtl b.val
  let n := rd s k ModCtl.LEN
  .next (if !flag s k ModCtl.BUSY then s
    else
      let r := if s.line.busOut.contains b.val then ModResult.busOut else r
      let code := match r with
        | .done => 0
        | .noAck => 1
        | .timeout => 2
        | .busOut => 3
      let s := if r = .done then endRetries (16 * b.val + rd s k ModCtl.CH) s else s
      let s := wr (wr s k ModCtl.BUSY 0) k ModCtl.RESULT code
      if r = .done ∧ !flag s k ModCtl.WRITE then
        let d := obj .modData b.val
        let low := 2 ^ (1024 - 8 * n)
        wrWord s d (data.toNat / low * low + rdWord s d % low)
      else s)

/-! ## BFD (R195 to R198, R205) -/

/-- The object of a BFD session. -/
def bfK (i : Nat) : Key := obj .bfdSess i
/-- What the service keeps of a session that starts: its intervals are in force at once, and its first packet is due (R197, R198). -/
def bfdFresh (s : State) (i : Nat) : BfdRun :=
  { timer := false, rMult := 0, rDmti := 0, rRmri := 0, poll := false, final := false, last := 0,
    tx := rd s (bfK i) BfdSess.DMTI, rx := rd s (bfK i) BfdSess.RMRI, due := ivl s }
/-- What the service keeps of a session. -/
def bfdRun (s : State) (i : Nat) : BfdRun := (tabGet? s.line.bfd i).getD (bfdFresh s i)
/-- See `bfdRun`. -/
def setBfd (i : Nat) (x : BfdRun) (s : State) : State :=
  { s with line := { s.line with bfd := tabPut s.line.bfd i x } }

/-- n bytes of a session's template from an offset. -/
def tmplAt (s : State) (i off n : Nat) : Nat := bitsAt (rd s (bfK i) BfdSess.TEMPLATE) (8 * (96 - off - n)) (8 * n)

/-- The offset of the EtherType in a template behind at most two tags. -/
def tmplType (s : State) (i : Nat) : Nat :=
  let isTag (off : Nat) : Bool := tmplAt s i off 2 == 0x8100 || tmplAt s i off 2 == 0x88A8
  if !isTag 12 then 12 else if !isTag 16 then 16 else 20

/-- The destination address of a session's template. -/
def tmplDst (s : State) (i : Nat) : Nat :=
  let t := tmplType s i
  if tmplAt s i t 2 = 0x86DD then tmplAt s i (t + 26) 16 else tmplAt s i (t + 18) 4

/-- The session that a packet goes to (R196). -/
def bfdTarget (s : State) (p : Nat) (b : BfdPacket) : Option Nat :=
  (bfdEnabled s).find? fun i =>
    if b.yourDisc ≠ 0 then rd s (bfK i) BfdSess.MY_DISC == b.yourDisc.toNat
    else tmplDst s i == b.srcAddr.toNat && (rd s (bfK i) BfdSess.TYPE == 1 || rd s (bfK i) BfdSess.PORT == p)

/-- Whether the checks of R196 that need no session discard a packet. -/
def bfdBad (b : BfdPacket) : Bool :=
  b.version != 1 || !b.lenOk || b.mult == 0 || b.myDisc == 0 || b.aBit || b.mBit
/-- Whether a packet's TTL discards it. -/
def ttlBad (s : State) (i : Nat) (b : BfdPacket) : Bool :=
  if rd s (bfK i) BfdSess.TYPE = 1 then decide (b.ttl < rd s (bfK i) BfdSess.MIN_TTL) else b.ttl != 255

/-- STATE and DIAG after a packet (RFC 5880): 0 AdminDown, 1 Down, 2 Init, 3 Up. -/
def bfdNext (st diag remote : Nat) : Nat × Nat :=
  match remote, st with
  | 0, 1 => (1, diag)
  | 0, _ => (1, 3)
  | 1, 1 => (2, diag)
  | 1, 3 => (1, 3)
  | 2, 1 => (3, 0)
  | 2, 2 => (3, 0)
  | 3, 2 => (3, 0)
  | _, _ => (st, diag)

/-- A sum of 16-bit words, most significant byte first. -/
def sum16 : List Nat → Nat
  | a :: b :: rest => a * 256 + b + sum16 rest
  | [a] => a * 256
  | [] => 0
/-- The Internet checksum of bytes: the complement of their end-around-carry sum. -/
def inetSum (l : List Nat) : Nat :=
  let fold (n : Nat) : Nat := n % 65536 + n / 65536
  65535 - fold (fold (sum16 l))
/-- Write two bytes at an offset. -/
def put16 (off v : Nat) (l : List Nat) : List Nat := (l.set off (v / 256 % 256)).set (off + 1) (v % 256)
/-- n bytes of a value, most significant first. -/
def bytesOf (n v : Nat) : List Nat := (toBytes n v).map BitVec.toNat

/-- The 24 B BFD control packet of a session (R197; RFC 5880). -/
def bfdControl (s : State) (i : Nat) : List Nat :=
  let k := bfK i
  let x := bfdRun s i
  let one (b : Bool) (v : Nat) : Nat := if b then v else 0
  [32 + rd s k BfdSess.DIAG, 64 * rd s k BfdSess.STATE + one x.poll 32 + one x.final 16, rd s k BfdSess.DETECT_MULT, 24] ++
    bytesOf 4 (rd s k BfdSess.MY_DISC) ++ bytesOf 4 (rd s k BfdSess.REMOTE_DISC) ++ bytesOf 4 (rd s k BfdSess.DMTI) ++
    bytesOf 4 (rd s k BfdSess.RMRI) ++ bytesOf 4 0

/-- The UDP length and checksum of a datagram at an offset, under a pseudo-header (R197). -/
def fillUdp (off : Nat) (addrs : List Nat) (l : List Nat) : List Nat :=
  let n := l.length - off
  let l := put16 (off + 6) 0 (put16 (off + 4) n l)
  let c := inetSum (addrs ++ bytesOf 4 n ++ [0, 0, 0, 17] ++ l.drop off)
  put16 (off + 6) (if c = 0 then 65535 else c) l

/-- A session's packet: its template and its control packet, with the IP lengths, the IPv4 header checksum and the UDP length and checksum
filled in (R197). -/
def bfdBytes (s : State) (i : Nat) : List Nat :=
  let n := rd s (bfK i) BfdSess.TMPL_LEN
  let ip := tmplType s i + 2
  let l := (List.range n).map (fun j => tmplAt s i j 1) ++ bfdControl s i
  if tmplAt s i (ip - 2) 2 = 0x86DD then
    fillUdp (ip + 40) ((l.drop (ip + 8)).take 32) (put16 (ip + 4) (l.length - (ip + 40)) l)
  else if tmplAt s i (ip - 2) 2 = 0x0800 then
    let l := put16 (ip + 10) 0 (put16 (ip + 2) (l.length - ip) l)
    let l := put16 (ip + 10) (inetSum ((l.drop ip).take 20)) l
    fillUdp (ip + 20) ((l.drop (ip + 12)).take 8) l
  else l

/-- Send a BFD control packet of a session, padded to the least frame (R197). -/
def sendBfd (i : Nat) (s : State) : State :=
  let k := bfK i
  let (sent, s) := originateSecure (rd s k BfdSess.PORT) .bfd (bfdBytes s i) (max 64 (rd s k BfdSess.TMPL_LEN + 28)) s
  if sent then bump .svcCtr 1 0 1 (setBfd i { bfdRun s i with final := false } s) else s

/-- The transmit interval of a session, us: at least 1 s while it is not Up (R197). -/
def bfdEvery (s : State) (i : Nat) : Nat :=
  let x := bfdRun s i
  let t := max x.tx x.rRmri
  if rd s (bfK i) BfdSess.STATE = 3 then t else max t 1000000

/-- The detection time of a session, us (R198). -/
def bfdDetect (x : BfdRun) : Nat := x.rMult * max x.rx x.rDmti

/-- The next packet of a session is due after its interval, reduced at random by 0 to 25 %, or by 10 to 25 % when DETECT_MULT is 1
(R197). -/
def bfdNextDue (i : Nat) (s : State) : State :=
  let (c, s) := drawChoice s
  let cut := if rd s (bfK i) BfdSess.DETECT_MULT = 1 then 100 + c % 151 else c % 251
  setBfd i { bfdRun s i with due := ivl s + bfdEvery s i * 65536 * (1000 - cut) } s

/-- BFD_PACKET_RECEIVE (R196, R198). -/
def execBfdPacketReceive (p : Fin 48) (b : BfdPacket) (s : State) : Answer :=
  let p := p.val
  let q := tabGet s.line.divertQ p 0
  .next (if q = 0 then s
    else
      let s := { s with line := { s.line with divertQ := tabSet s.line.divertQ p (q - 1) 0 } }
      let s := bump .svcCtr 0 0 1 s
      if bfdBad b then bump .svcCtr 2 0 1 s
      else
        match bfdTarget s p b with
        | none => bump .svcCtr 3 0 1 s
        | some i =>
          if ttlBad s i b then bump .svcCtr 2 0 1 s
          else
            let k := bfK i
            let st := rd s k BfdSess.STATE
            let (st', diag) := bfdNext st (rd s k BfdSess.DIAG) b.state.toNat
            let x := bfdRun s i
            let ends := x.poll && b.final
            let s := setBfd i { x with
              timer := true, rMult := b.mult, rDmti := b.dmti, rRmri := b.rmri, poll := x.poll && !b.final,
              final := x.final || b.poll, last := ivl s, tx := if ends then rd s k BfdSess.DMTI else x.tx,
              rx := if ends then rd s k BfdSess.RMRI else x.rx } s
            let s := wr (wr (wr s k BfdSess.STATE st') k BfdSess.DIAG diag) k BfdSess.REMOTE_DISC b.myDisc.toNat
            let s := if st' = 1 ∧ st ≠ 1 then bump .svcCtr 4 0 1 s else s
            let s := updateAggOf (rd s k BfdSess.PORT) s
            if b.poll then sendBfd i s else s)

/-- BFD_TRANSMIT (R197): the moment at which the session's packet is due has come. -/
def execBfdTransmit (i : Fin 16384) (s : State) : Answer :=
  .next (if rd s (bfK i.val) BfdSess.ADMIN = 1 then
      let s := reachIvl (bfdRun s i.val).due s
      bfdNextDue i.val (sendBfd i.val s)
    else s)

/-- BFD_DETECT_EXPIRE (R198): the detection time has passed since the last valid packet; the session goes Down with diagnostic 1, with an event; micro-BFD leaves its aggregator. -/
def execBfdDetectExpire (i : Fin 16384) (s : State) : Answer :=
  let k := bfK i.val
  let x := bfdRun s i.val
  .next (if rd s k BfdSess.ADMIN ≠ 1 ∨ !x.timer then s
    else
      let was := rd s k BfdSess.STATE
      let s := reachIvl (x.last + bfdDetect x * 1000 * 65536) s
      let s := setBfd i.val { x with timer := false } s
      let s := wr (wr (wr s k BfdSess.STATE 1) k BfdSess.DIAG 1) k BfdSess.REMOTE_DISC 0
      if was = 1 then s
      else
        let s := stateEvent k (bump .svcCtr 4 0 1 s)
        if rd s k BfdSess.TYPE = 2 then updateAggOf (rd s k BfdSess.PORT) s else s)

/-- Whether a write of a BFD session is refused with STATE (R205). -/
def bfdRefused (s : State) (i new : Nat) : Bool :=
  let old := rdWord s (bfK i)
  let fixed : List Fld := [BfdSess.TYPE, BfdSess.PORT, BfdSess.MIN_TTL, BfdSess.TMPL_LEN, BfdSess.MY_DISC, BfdSess.TEMPLATE]
  let disc := getF new BfdSess.MY_DISC
  (getF old BfdSess.ADMIN == 1 && fixed.any fun f => getF old f != getF new f) ||
    (getF old BfdSess.ADMIN == 0 && getF new BfdSess.ADMIN == 1 &&
      (disc == 0 || (bfdEnabled s).any fun j => j != i && rd s (bfK j) BfdSess.MY_DISC == disc))

/-- A BFD session has been written: it starts in Down, stops in AdminDown, or announces new intervals with a Poll, whose Final puts a longer transmit or a shorter receive interval in force (R197, R198; RFC 5880). -/
def bfdWritten (i old : Nat) (s : State) : State :=
  let k := bfK i
  let was := getF old BfdSess.ADMIN == 1
  let on := rd s k BfdSess.ADMIN == 1
  let fresh := bfdFresh s i
  if on && !was then setBfd i fresh (wr (wr (wr s k BfdSess.STATE 1) k BfdSess.DIAG 0) k BfdSess.REMOTE_DISC 0)
  else if !on && was then setBfd i fresh (wr (wr s k BfdSess.STATE 0) k BfdSess.DIAG 7)
  else if on && (getF old BfdSess.DMTI != rd s k BfdSess.DMTI || getF old BfdSess.RMRI != rd s k BfdSess.RMRI) then
    let x := bfdRun s i
    let tx := rd s k BfdSess.DMTI
    let rx := rd s k BfdSess.RMRI
    let up := rd s k BfdSess.STATE == 3
    setBfd i { x with poll := true, tx := if up && x.tx < tx then x.tx else tx, rx := if up && rx < x.rx then x.rx else rx } s
  else s

/-! ## LACP (R199) -/

/-- Take a slow-protocol frame that waits on a port: none when none waits; the frame and whether it is within the rate. -/
def takeSlow (p : Nat) (s : State) : Option (Bool × State) :=
  let n := tabGet s.line.slowQ p 0
  if n = 0 then none
  else
    let s := { s with line := { s.line with slowQ := tabSet s.line.slowQ p (n - 1) 0 } }
    let l := recent s (tabGet s.line.slowAt p []) sec
    if 20 ≤ l.length then some (false, bump .lpCtr p 15 1 s)
    else some (true, { s with line := { s.line with slowAt := tabPut s.line.slowAt p (s.clock :: l) } })

/-- LACPDU_RECEIVE (R199, R200). -/
def execLacpduReceive (p : Fin 48) (l : Lacpdu) (s : State) : Answer :=
  .next (match takeSlow p.val s with
    | none => s
    | some (false, s) => s
    | some (true, s) =>
      let s := bump .svcCtr 5 0 1 s
      updateAggOf p.val { s with line := { s.line with partner := tabPut s.line.partner p.val ⟨l, ivl s⟩ } })

/-- MARKER_PDU_RECEIVE (R199): answered with a Marker Response. -/
def execMarkerPduReceive (p : Fin 48) (s : State) : Answer :=
  .next (match takeSlow p.val s with
    | none => s
    | some (false, s) => s
    | some (true, s) =>
      if portUp s p.val && !inSafe s && !silent s p.val then bump .svcCtr 7 0 1 (originate p.val .marker [] 128 s) else s)

/-- LACP_PERIODIC (R199): an active member, or one that has heard its partner, sends a LACPDU. -/
def execLacpPeriodic (p : Fin 48) (s : State) : Answer :=
  let p := p.val
  .next (match aggOf s p with
    | none => s
    | some a =>
      if (flag s (agK a) AggCtl.ACTIVE || (partnerOf s p).isSome) && portUp s p && !inSafe s && !silent s p then
        let g := obj .lmacGlobal
        let args := [rd s g LmacGlobal.SYS_PRIO, rd s g LmacGlobal.SYS_ID, rd s (agK a) AggCtl.KEY,
          rd s (lpS p) LpStatus.SELECTED, rd s (lpS p) LpStatus.COLLECTING, rd s (lpS p) LpStatus.DISTRIBUTING]
        bump .svcCtr 6 0 1 (originate p .lacp args 128 s)
      else s)

/-- LACP_TIMEOUT (R199): the partner has been silent for its timeout, 3 s when FAST is 1 and 90 s when it is 0. -/
def execLacpTimeout (p : Fin 48) (s : State) : Answer :=
  .next (match aggOf s p.val with
    | none => s
    | some a =>
      let s := match tabGet? s.line.partner p.val with
        | some x => reachIvl (x.at_ + (if flag s (agK a) AggCtl.FAST then 3 else 90) * sec * 65536) s
        | none => s
      updateAgg a { s with line := { s.line with partner := tabDel s.line.partner p.val } })

end Sys2Proof.Machine
end

