-- ==== Sys2Proof/Machine/Framing.lean ====
section
/-! DEFINITION. Transport framing: OTUCn frames, GFP-F, defects and their actions, connection pages and protection (R207 to R234). -/
namespace Sys2Proof.Machine

/-- The control of the interchange. -/
def tfuK : Key := obj .tfuCtl
/-- A protection group. -/
def grK (g : Nat) : Key := obj .protGrp g
/-- Tributary slots of a framed port (R209). -/
def tribSlots (s : State) (p : Nat) : Nat := if portMode s p = 5 then 80 else if portMode s p = 6 then 160 else 0
/-- The number of OTUC instances, and of lanes, of a framed port (R207). -/
def instances (s : State) (p : Nat) : Nat := tribSlots s p / 20
/-- The enabled group whose protection port a port is. -/
def groupOfProt (s : State) (p : Nat) : Option Nat :=
  (List.range 24).find? fun g => flag s (grK g) ProtGrp.EN && rd s (grK g) ProtGrp.PROT == p
/-- Whether a port is the protection port of an enabled group: pages name only its working port (R228). -/
def isProtection (s : State) (p : Nat) : Bool := (groupOfProt s p).isSome
/-- The working port that a port's receive side serves, none for an unselected port (R228). -/
def workOf (s : State) (p : Nat) : Option Nat :=
  ports.find? fun w => isFramed s w && !isProtection s w && servingPort s w == p
/-- Add n to a port counter of TFU. -/
def tfCount (p i n : Nat) (s : State) : State := if n = 0 then s else bump .tfuCtr p i n s

/-! ## Consequent actions (R215, R225, R226) -/

/-- The BDI that a port sends back (R225): bit 0 SM, 1 PM, 2 packet tributary. -/
def bdiOf (s : State) (p : Nat) : Nat :=
  let one (b : Bool) (v : Nat) : Nat := if b then v else 0
  one (serverFail s p) 1 + one (oduFail s p) 2 + one (rd s (frS p) FrStatus.PKT_SLOTS != 0 && packetFail s p) 4

/-- Whether a transit entry at a port takes its tributary from a slot that fails (R225). -/
def entryFails (s : State) (x : Nat) : Bool :=
  let w := servingPort s (getF x PageEnt.SRC_PORT)
  getF x PageEnt.TYPE == 1 &&
    (oduFail s w || ((rdWord s (frS w)).testBit 112 && (tabGet s.tfu.msim w 0).testBit (getF x PageEnt.SRC_TS)))

/-- The entries of the pages in force, with the port each belongs to. -/
def entriesInForce (s : State) : List (Nat × Nat) :=
  (listed .pageEnt s).filterMap fun i =>
    let p := i % 7680 / 160
    if i / 7680 = pageAt s p then some (p, entryAt s (obj .pageEnt i)) else none

/-- The tributary port number that each transmit slot of a port carries in the MSI, none for an unallocated slot (R214). -/
def msiOf (s : State) (p : Nat) : List (Option Nat) :=
  (List.range (tribSlots s p)).map fun sl =>
    let x := entryAt s (entK (pageAt s p) p sl)
    match getF x PageEnt.TYPE with
    | 1 => some (getF x PageEnt.TRIB + 2)
    | 2 => some 1
    | _ => none

/-- The overhead that a framed port sends (R213, R214, R225, R227): that of a protection port is its working port's content. -/
def overheadOf (s : State) (p : Nat) : Overhead :=
  let w := ((groupOfProt s p).map fun g => rd s (grK g) ProtGrp.WORK).getD p
  { ttis := [rdWord s (obj .tti (8 * p)), rdWord s (obj .tti (8 * p + 2)), rdWord s (obj .tti (8 * w + 4))],
    bdi := tabGet s.tfu.bdi p 0, iae := Config.iaeSent p (rdWord s (frS p)), pt := 0x22, pktPt := 0x05, msi := msiOf s w,
    maint := maintOf s p }

/-- The overhead that a framed port sends has changed (R221 step 4, R225). -/
def sendOverhead (p : Nat) (s : State) : State :=
  let o := overheadOf s p
  if tabGet? s.tfu.sent p = some o then s
  else emit { s with tfu := { s.tfu with sent := tabPut s.tfu.sent p o } } (.overhead p o)

/-- Take or reverse the consequent actions of R225: BDI, ODU AIS in the transmit slots of failed TRIBs, and the state of the ports. -/
def takeActions (s : State) : State :=
  let framed := ports.filter (isFramed s)
  let bdi := framed.foldl (fun t p => tabSet t p (bdiOf s p) 0) []
  let ais := (((entriesInForce s).filter fun e => entryFails s e.2).map fun e => getF e.2 PageEnt.TRIB).dedup
  let s := { s with tfu := { s.tfu with bdi := bdi, aisTrib := ais } }
  forAll framed condChanged (forAll (framed.filter (adminUp s)) sendOverhead s)

/-! ## Protection (R228, R229) -/

/-- The state of REQ: none, WTR, SD, SF, force, lockout (R233). -/
def rqWtr : Nat := 1
/-- See `rqWtr`. -/
def rqSd : Nat := 2
/-- See `rqWtr`. -/
def rqSf : Nat := 3
/-- See `rqWtr`. -/
def rqForce : Nat := 4
/-- See `rqWtr`. -/
def rqLockout : Nat := 5

/-- Signal fail and signal degrade of a port (R228). -/
def signalFail (s : State) (p : Nat) : Bool := oduFail s p || (rdWord s (frS p)).testBit 112
/-- See `signalFail`. -/
def signalDegrade (s : State) (p : Nat) : Bool :=
  let x := rdWord s (frS p)
  x.testBit 121 || x.testBit 114 || x.testBit 104

/-- The fails and degrades of a group now: bit 0 SF P, 1 SF W, 2 SD P, 3 SD W. -/
def presentFails (s : State) (g : Nat) : Nat :=
  let w := rd s (grK g) ProtGrp.WORK
  let p := rd s (grK g) ProtGrp.PROT
  let sd := flag s (grK g) ProtGrp.SD_EN
  let one (b : Bool) (v : Nat) : Nat := if b then v else 0
  one (signalFail s p) 1 + one (signalFail s w) 2 + one (sd && signalDegrade s p) 4 + one (sd && signalDegrade s w) 8

/-- The highest request of a group and the port it selects (1 is PROT), none where the selection stays (R228). -/
def topRequest (s : State) (g : Nat) : Option (Nat × Option Nat) :=
  let a := tabGet s.tfu.acting g 0
  match rd s (grK g) ProtGrp.CMD with
  | 2 => some (rqLockout, some 0)
  | 1 => some (rqForce, some 1)
  | _ =>
    if a.testBit 0 && a.testBit 1 then some (rqSf, none)
    else if a.testBit 0 then some (rqSf, some 0)
    else if a.testBit 1 then some (rqSf, some 1)
    else if a.testBit 2 && a.testBit 3 then some (rqSd, none)
    else if a.testBit 2 then some (rqSd, some 0)
    else if a.testBit 3 then some (rqSd, some 1)
    else none

/-- GFP leaves SYNC or PRESYNC and hunts; leaving SYNC declares dLFD, with an event (R217, R224). -/
def gfpHunt (w : Nat) (s : State) : State :=
  let was := rd s (frS w) FrStatus.GFP_STATE
  let s := wr { s with tfu := { s.tfu with presync := tabDel s.tfu.presync w } } (frS w) FrStatus.GFP_STATE 0
  if was = 2 ∧ rd s (frS w) FrStatus.LFD = 0 then stateEvent (frS w) (wr s (frS w) FrStatus.LFD 1) else s

/-- Select a port of a group: a move is counted and the packet tributary hunts again (R229, R230). -/
def selectPort (g sel : Nat) (s : State) : State :=
  if rd s (grK g) ProtGrp.SELECTED = sel then s
  else gfpHunt (rd s (grK g) ProtGrp.WORK) (bump .grpSwCtr g 0 1 (wr s (grK g) ProtGrp.SELECTED sel))

/-- Bring a group's selector and REQ up to its highest request (R228): a fail or degrade of W that clears starts wait-to-restore
with REVERT 1; a force that ends gives W back. A standby ignores its own requests (R467). -/
def updateProt (g : Nat) (s : State) : State :=
  let k := grK g
  if !flag s k ProtGrp.EN || (silent s (rd s k ProtGrp.WORK) && silent s (rd s k ProtGrp.PROT)) then s
  else
    let was := rd s k ProtGrp.REQ
    let s := match topRequest s g with
      | some (r, some sel) => selectPort g sel (wr s k ProtGrp.REQ r)
      | some (r, none) => wr s k ProtGrp.REQ r
      | none =>
        if rd s k ProtGrp.SELECTED = 0 ∨ !flag s k ProtGrp.REVERT then wr s k ProtGrp.REQ 0
        else if was = rqWtr then s
        else if was = rqSd ∨ was = rqSf then
          wr { s with tfu := { s.tfu with wtrEnd := tabPut s.tfu.wtrEnd g (s.clock + rd s k ProtGrp.WTR * sec) } } k ProtGrp.REQ rqWtr
        else selectPort g 0 (wr s k ProtGrp.REQ 0)
    takeActions s

/-- The groups that a port belongs to. -/
def groupsOf (s : State) (p : Nat) : List Nat :=
  (List.range 24).filter fun g => flag s (grK g) ProtGrp.EN &&
    (rd s (grK g) ProtGrp.WORK == p || rd s (grK g) ProtGrp.PROT == p)

/-- Let the fails and degrades act that a mask names. -/
def setActing (g v : Nat) (s : State) : State := { s with tfu := { s.tfu with acting := tabSet s.tfu.acting g v 0 } }

/-- Since when a group's fails and degrades are present, of those that a mask names (R228, R229). -/
def noteFails (g : Nat) (s : State) : State :=
  let now := presentFails s g
  forAll (List.range 4) (fun b s =>
    let k := 4 * g + b
    if !now.testBit b then { s with tfu := { s.tfu with failFrom := tabDel s.tfu.failFrom k } }
    else if (tabGet? s.tfu.failFrom k).isSome then s
    else { s with tfu := { s.tfu with failFrom := tabPut s.tfu.failFrom k s.clock } }) s

/-- A port's defects have changed: a fail or degrade that has cleared no longer acts (R228). -/
def defectsChanged (p : Nat) (s : State) : State :=
  forAll (groupsOf s p) (fun g s =>
    let s := noteFails g s
    let now := tabGet s.tfu.acting g 0 &&& presentFails s g
    if now = tabGet s.tfu.acting g 0 then s else updateProt g (setActing g now s)) (takeActions s)

/-- When a fail or degrade of a group has outlasted HOLD_OFF (R228, R229). -/
def actsAt (s : State) (g b : Nat) : Nat := tabGet s.tfu.failFrom (4 * g + b) 0 + rd s (grK g) ProtGrp.HOLD_OFF * 100 * ms

/-- PROTECTION_SWITCH (R229): the next fail or degrade of a group that does not act yet outlasts HOLD_OFF; all that have act. -/
def execProtectionSwitch (g : Fin 24) (s : State) : Answer :=
  let g := g.val
  .next (if !flag s (grK g) ProtGrp.EN then s
    else
      let s := noteFails g s
      let now := presentFails s g
      let was := tabGet s.tfu.acting g 0
      let wait := (List.range 4).filter fun b => now.testBit b && !was.testBit b
      let s := match (wait.map (actsAt s g)).min? with
        | some t => due t s
        | none => s
      updateProt g (setActing g ((wait.filter fun b => decide (actsAt s g b ≤ s.clock)).foldl (fun v b => v + 2 ^ b) (was &&& now)) s))

/-- WTR_EXPIRE (R228): wait-to-restore ends and W is selected. -/
def execWtrExpire (g : Fin 24) (s : State) : Answer :=
  let k := grK g.val
  .next (if flag s k ProtGrp.EN ∧ rd s k ProtGrp.REQ = rqWtr then
      takeActions (selectPort g.val 0 (wr (due (tabGet s.tfu.wtrEnd g.val 0) s) k ProtGrp.REQ 0))
    else s)

/-- Whether a write of a protection group is refused with STATE (R229, R233). -/
def protRefused (s : State) (g new : Nat) : Bool :=
  let w := getF new ProtGrp.WORK
  let p := getF new ProtGrp.PROT
  let on := flag s (grK g) ProtGrp.EN
  (on && (w != rd s (grK g) ProtGrp.WORK || p != rd s (grK g) ProtGrp.PROT)) ||
    (getF new ProtGrp.EN == 1 && (!isFramed s w || !isFramed s p || portMode s w != portMode s p ||
      ((groupsOf s w).any fun h => h != g) || (groupsOf s p).any fun h => h != g))

/-- A protection group has been written: what is no fail or degrade any more acts no more, and a disabled group selects W and has no
request (R228). -/
def protWritten (g old : Nat) (s : State) : State :=
  let k := grK g
  if flag s k ProtGrp.EN then updateProt g (noteFails g (setActing g (tabGet s.tfu.acting g 0 &&& presentFails s g) s))
  else if getF old ProtGrp.EN = 1 then
    takeActions (setActing g 0 (selectPort g 0 (wr s k ProtGrp.REQ 0)))
  else s

/-! ## Frames (R208, R215, R217, R218, R234) -/

/-- Follow an alignment signal: out after 5 consecutive errors, in again after so many correct ones (R224). -/
def follow (back : Nat) (x : Nat × Bool) (good : Bool) : Nat × Bool :=
  if good = x.2 then
    if (if x.2 then back else 5) ≤ x.1 + 1 then (0, !x.2) else (x.1 + 1, x.2)
  else (0, x.2)

/-- The alignment of an instance of a port, with the FAS or MFAS of one more frame. -/
def followIn (t : Tab (Nat × Bool)) (k back : Nat) (good : Bool) : Tab (Nat × Bool) :=
  tabSet t k (follow back (tabGet t k (0, false)) good) (0, false)

/-- The alignment of an instance of a port has changed: since when it is out or in (R224). Even keys are of the FAS, odd ones of the MFAS. -/
def noteOut (k : Nat) (was now : Nat × Bool) (s : State) : State :=
  if was.2 = now.2 then s else { s with tfu := { s.tfu with outAt := tabPut s.tfu.outAt k (ivl s) } }

/-- The FAS and the MFAS of a frame of an instance (R208, R224). -/
def noteAlign (i : Nat) (fasOk mfasOk : Bool) (s : State) : State :=
  let a := tabGet s.tfu.fas i (0, false)
  let b := tabGet s.tfu.mfas i (0, false)
  let s := { s with tfu := { s.tfu with fas := followIn s.tfu.fas i 2 fasOk, mfas := followIn s.tfu.mfas i 1 mfasOk } }
  noteOut (2 * i + 1) b (tabGet s.tfu.mfas i (0, false)) (noteOut (2 * i) a (tabGet s.tfu.fas i (0, false)) s)

/-- The signals of a port whose consecutive values count (R224). -/
inductive Signal where
  | smBdi | smIae | pmBdi | pmStat | pktBdi | pktStat | smTti | pmTti | pktTti | pt | pktPt
  deriving DecidableEq, Repr
/-- The place of a signal in the table of runs. -/
def Signal.place : Signal → Nat
  | .smBdi => 0
  | .smIae => 1
  | .pmBdi => 2
  | .pmStat => 3
  | .pktBdi => 4
  | .pktStat => 5
  | .smTti => 6
  | .pmTti => 7
  | .pktTti => 8
  | .pt => 9
  | .pktPt => 10
/-- The last value of a signal, and how often it has come in a row. -/
def runOfSig (s : State) (p : Nat) (g : Signal) : Nat × Nat := tabGet s.tfu.runs (16 * p + g.place) (0, 0)
/-- A signal has come with a value. -/
def noteSig (p : Nat) (g : Signal) (v : Nat) (s : State) : State :=
  let r := runOfSig s p g
  { s with tfu := { s.tfu with runs := tabPut s.tfu.runs (16 * p + g.place) (v, if r.1 = v then r.2 + 1 else 1) } }
/-- Whether a signal has come with a value n times in a row. -/
def sigIs (s : State) (p : Nat) (g : Signal) (v n : Nat) : Bool :=
  let r := runOfSig s p g
  r.1 == v && decide (n ≤ r.2)
/-- Whether a signal has come with another value n times in a row. -/
def sigIsNot (s : State) (p : Nat) (g : Signal) (v n : Nat) : Bool :=
  let r := runOfSig s p g
  r.1 != v && decide (n ≤ r.2)

/-- A TTI multiframe of 64 frames ends: a TTI that has come three times in a row is accepted (R224). -/
def noteTti (p : Nat) (g : Signal) (v : Option (BitVec 512)) (accept : Nat → State → State) (s : State) : State :=
  match v with
  | none => s
  | some v =>
    let s := noteSig p g v.toNat s
    if sigIs s p g v.toNat 3 then accept v.toNat s else s

/-- A PT that has come in three PSI multiframes in a row is accepted (R224): even keys OPUCn, odd ones the packet tributary. -/
def notePt (p : Nat) (g : Signal) (k : Nat) (v : BitVec 8) (s : State) : State :=
  let s := noteSig p g v.toNat s
  if sigIs s p g v.toNat 3 then { s with tfu := { s.tfu with pts := tabPut s.tfu.pts k v.toNat } } else s

/-- An MSI that has come in three PSI multiframes in a row is accepted (R224). -/
def noteMsi (p : Nat) (v : List (Option (BitVec 14))) (s : State) : State :=
  let r := tabGet s.tfu.msiRun p (v, 0)
  let n := if r.1 = v then r.2 + 1 else 1
  let s := { s with tfu := { s.tfu with msiRun := tabPut s.tfu.msiRun p (v, n) } }
  if 3 ≤ n then { s with tfu := { s.tfu with msi := tabPut s.tfu.msi p v } } else s

/-- Blocks of a layer: 0 SM, 1 PM, 2 the packet tributary (R224). -/
def degradeOf (s : State) (p layer : Nat) : Degrade :=
  tabGet s.tfu.deg (4 * p + layer) { second := s.clock / sec, blocks := 0, errs := 0, bad := false, run := 0 }
/-- The seconds that have ended are judged: one with no block is good. -/
def closeSeconds (thr now : Nat) (d : Degrade) : Degrade :=
  if d.second = now then d
  else
    let bad := d.blocks != 0 && decide (thr * d.blocks ≤ d.errs * 1000000)
    let n := if d.bad = bad then d.run + 1 else 1
    let idle := now - d.second - 1
    if idle = 0 then { second := now, blocks := 0, errs := 0, bad := bad, run := n }
    else { second := now, blocks := 0, errs := 0, bad := false, run := if bad then idle else n + idle }
/-- The degradation of a layer as the clock has it. -/
def degradeNow (s : State) (p layer : Nat) : Degrade :=
  closeSeconds (rd s (frK p) FrCtl.DEG_THR) (s.clock / sec) (degradeOf s p layer)
/-- A block of a layer has come. -/
def noteBlock (p layer : Nat) (err : Bool) (s : State) : State :=
  let d := degradeNow s p layer
  { s with tfu := { s.tfu with
      deg := tabPut s.tfu.deg (4 * p + layer) { d with blocks := d.blocks + 1, errs := d.errs + if err then 1 else 0 } } }
/-- Whether DEG_M consecutive seconds were all bad, or all good. -/
def degradedFor (s : State) (p layer : Nat) (bad : Bool) : Bool :=
  let d := degradeNow s p layer
  d.bad == bad && decide (rd s (frK p) FrCtl.DEG_M ≤ d.run)

/-- The transit entries in force that take their tributary from a slot of a port, with the transmit port and slot (R211, R228). -/
def entriesFrom (s : State) (p sl : Nat) : List (Nat × Nat × Nat) :=
  match workOf s p with
  | none => []
  | some w =>
    (listed .pageEnt s).filterMap fun i =>
      let q := i % 7680 / 160
      let x := entryAt s (obj .pageEnt i)
      if i / 7680 = pageAt s q ∧ getF x PageEnt.TYPE = 1 ∧ getF x PageEnt.SRC_PORT = w ∧ getF x PageEnt.SRC_TS = sl then
        some (q, i % 160, getF x PageEnt.TRIB)
      else none

/-- A tributary slot's content passes through the interchange to its transmit slots: ODU AIS in its place for a TRIB that carries it, and
nothing on a port that is down or sends a maintenance signal (R211, R225, R227). -/
def passSlot (p sl content : Nat) (s : State) : State :=
  forAll (entriesFrom s p sl) (fun e s =>
    forAll ((linesOf s e.1).filter fun q => adminUp s q && maintOf s q == 0) (fun q s =>
      emit s (.slot q e.2.1 (if s.tfu.aisTrib.contains e.2.2 then none else some content))) s) s

/-- PKT_SLOTS and the rate of a port follow its packet slots: when they change the tributary hunts, and with none the port is down (R210,
R222, R234). -/
def slotsChanged (p old : Nat) (s : State) : State :=
  let new := packetSlots s (pageAt s p) p
  let s := wr s (frS p) FrStatus.PKT_SLOTS ((List.range 160).filter fun i => new.testBit i).length
  if old = new then s
  else
    let s := gfpHunt p s
    if new ≠ 0 then s else if linkOf s p = lkUp then goDown p lkDown s else setLink p lkDown s

/-- The overhead of instance 1 (R213). -/
def readOverhead (p : Nat) (f : OtuFrame) (s : State) : State :=
  let one (b : Bool) : Nat := if b then 1 else 0
  let s := noteSig p .smIae (one f.smIae) (noteSig p .smBdi (one f.smBdi) s)
  let s := noteSig p .pmStat f.pmStat.toNat (noteSig p .pmBdi (one f.pmBdi) s)
  let s := noteTti p .smTti f.smTti (fun v s => wrWord s (obj .tti (8 * p + 6)) v) s
  noteTti p .pmTti f.pmTti (fun v s => wrWord s (obj .tti (8 * p + 7)) v) s

/-- The overhead of the packet tributary of a working port (R213). -/
def readPacketOverhead (w : Nat) (f : OtuFrame) (s : State) : State :=
  let s := noteSig w .pktStat f.pktStat.toNat (noteSig w .pktBdi (if f.pktBdi then 1 else 0) s)
  let s := noteTti w .pktTti f.pktTti (fun v s => { s with tfu := { s.tfu with pktTti := tabPut s.tfu.pktTti w v } }) s
  match f.pktPt with
  | some v => notePt w .pktPt (2 * w + 1) v s
  | none => s

/-- The TRIB's transmit ports that an error in an interchange buffer makes carry ODU AIS (R234). -/
def portsOfTrib (s : State) (t : Nat) : List Nat :=
  ((entriesInForce s).filter fun e => getF e.2 PageEnt.TYPE == 1 && getF e.2 PageEnt.TRIB == t).map Prod.fst |>.dedup

/-- OTU_FRAME_RECEIVE (R211, R213, R215, R224, R234). -/
def execOtuFrameReceive (p : Fin 48) (f : OtuFrame) (s : State) : Answer :=
  let p := p.val
  let i := 8 * p + f.inst.val
  let blk (n : Fin 9) : Nat := if n.val = 0 then 0 else 1
  let bei (n : BitVec 4) : Nat := if n.toNat ≤ 8 then n.toNat else 0
  .next (if !isFramed s p || !adminUp s p || decide (tribSlots s p ≤ 20 * f.inst.val) then s
    else
      let s := noteAlign i f.fasOk f.mfasOk s
      let s := noteBlock p 1 (f.pmBip.val != 0) (noteBlock p 0 (f.smBip.val != 0) s)
      let s := tfCount p 1 (bei f.smBei) (tfCount p 0 (blk f.smBip) s)
      let s := tfCount p 3 (bei f.pmBei) (tfCount p 2 (blk f.pmBip) s)
      let pkt := match workOf s p with
        | some w => if rd s (frS w) FrStatus.PKT_SLOTS = 0 then none else some w
        | none => none
      let s := match pkt with
        | some w =>
          let s := tfCount w 12 (if f.gmpCrcBad then 1 else 0) (tfCount w 5 (bei f.pktBei) (tfCount w 4 (blk f.pktBip) s))
          readPacketOverhead w f (noteBlock w 2 (f.pktBip.val != 0) s)
        | none => s
      let back := [f.inst.val, f.smBip.val, f.pmBip.val, if pkt.isSome then f.pktBip.val else 0]
      let s := if (back.drop 1).sum = 0 then s else emit s (.pdu p .bei back)
      let s := if f.inst.val = 0 then readOverhead p f s else s
      let s := match f.psi with
        | some (v, m) => noteMsi p m (notePt p .pt (2 * p) v s)
        | none => s
      let s := match f.tribBad with
        | some t =>
          raiseAt 0x39 0 1 tfuK (forAll (portsOfTrib s t.toNat) (fun q s => emit s (.pdu q .oduAis [t.toNat])) s)
        | none => s
      let s := forAll (f.slots.filter fun x => x.1.val / 20 == f.inst.val) (fun x s => passSlot p x.1.val x.2 s) s
      match f.entryBad with
      | some sl =>
        let old := packetSlots s (pageAt s p) p
        let k := entK (pageAt s p) p sl.val
        let s := { s with tfu := { s.tfu with lostEnt := (s.tfu.lostEnt ++ [k.idx]).dedup } }
        takeActions (slotsChanged p old (raiseAt 0x39 1 2 k s))
      | none => s)

/-- A client frame leads on to the checks of R182 (R218). -/
def clientFrame (p : Nat) (f : GfpFrame) (s : State) : State :=
  match receives p s with
  | some s => s
  | none =>
    if f.frame.len < 64 then bump .lpCtr p 3 1 s
    else
      let s := if f.pfcsOk then s else tfCount p 10 1 s
      let s := if f.bufBad then raiseAt 0x39 2 3 (frS p) s else s
      passFrame p f.frame (!f.pfcsOk || f.cut || f.bufBad || packetFail s p) s

/-- A change of dCSF, with its event (R224). -/
def setCsf (p v : Nat) (s : State) : State :=
  if rd s (frS p) FrStatus.CSF = v then s else condChanged p (stateEvent (frS p) (wr s (frS p) FrStatus.CSF v))

/-- A frame in SYNC, in the order of R218. -/
def gfpHandle (p : Nat) (f : GfpFrame) (s : State) : State :=
  if f.pli < 4 then s
  else if f.thec = .multi ∨ (f.thec = .single ∧ !flag s (frK p) FrCtl.CHEC_CORR) then tfCount p 8 1 s
  else if f.pti = 4 ∧ (f.upi = 1 ∨ f.upi = 2) then
    setCsf p 1 (tfCount p 11 1 { s with tfu := { s.tfu with csfAt := tabPut s.tfu.csfAt p (ivl s) } })
  else if f.pti ≠ 0 ∨ f.upi ≠ 1 ∨ f.exi ≠ 0 then tfCount p 9 1 s
  else clientFrame p f (setCsf p 0 s)

/-- The machine enters SYNC: dLFD clears, with its event (R217, R224). -/
def gfpSync (p : Nat) (s : State) : State :=
  let s := wr { s with tfu := { s.tfu with presync := tabDel s.tfu.presync p } } (frS p) FrStatus.GFP_STATE 2
  if rd s (frS p) FrStatus.LFD = 1 then stateEvent (frS p) (wr s (frS p) FrStatus.LFD 0) else s

/-- One step of frame delineation (R217). -/
def gfpStep (p : Nat) (f : GfpFrame) (s : State) : State :=
  match rd s (frS p) FrStatus.GFP_STATE with
  | 0 =>
    if f.chec = .ok then
      wr { s with tfu := { s.tfu with presync := tabPut s.tfu.presync p 0 } } (frS p) FrStatus.GFP_STATE 1
    else s
  | 1 =>
    if f.chec ≠ .ok then gfpHunt p s
    else
      let n := tabGet s.tfu.presync p 0 + 1
      if rd s (frK p) FrCtl.DELTA ≤ n then condChanged p (gfpSync p s)
      else { s with tfu := { s.tfu with presync := tabPut s.tfu.presync p n } }
  | _ =>
    let fixed := f.chec = .single ∧ flag s (frK p) FrCtl.CHEC_CORR
    if f.chec = .ok ∨ fixed then
      let s := gfpHandle p f (tfCount p 6 (if fixed then 1 else 0) s)
      if f.cut then condChanged p (gfpHunt p s) else s
    else condChanged p (gfpHunt p (tfCount p 7 1 s))

/-- GFP_FRAME_RECEIVE (R217, R218): on the port that serves a packet tributary. -/
def execGfpFrameReceive (p : Fin 48) (f : GfpFrame) (s : State) : Answer :=
  .next (match workOf s p.val with
    | none => s
    | some w => if rd s (frS w) FrStatus.PKT_SLOTS = 0 ∨ !adminUp s w then s else gfpStep w f s)

/-! ## Defects (R224) -/

/-- The part of a TTI that a selector compares (R232): SAPI in bytes 0 to 15, DAPI in bytes 16 to 31 (PRESUMED: ITU-T G.709). -/
def ttiPart (sel v : Nat) : Nat := (if sel.testBit 0 then bitsAt v 384 128 * 2 ^ 128 else 0) +
  if sel.testBit 1 then bitsAt v 256 128 else 0

/-- Whether the accepted TTI of a layer differs from the expected one in the fields selected. -/
def ttiDiffers (s : State) (p sel expect accept : Nat) : Bool :=
  ttiPart sel (rdWord s (obj .tti (8 * p + expect))) != ttiPart sel (rdWord s (obj .tti (8 * p + accept)))

/-- Whether the accepted packet TTI of a port differs from the expected one in the fields selected. -/
def pktTtiDiffers (s : State) (p sel : Nat) : Bool :=
  ttiPart sel (rdWord s (obj .tti (8 * p + 5))) != ttiPart sel (tabGet s.tfu.pktTti p 0)

/-- The tributary port number that the page in force implies for a received slot (R224): 1 for a packet slot, TRIB + 2 for an arrival slot
of a transit tributary (DEDUCED from R214; log entry 86), none for another. -/
def impliedMsi (s : State) (p sl : Nat) : Option Nat :=
  if (packetSlots s (pageAt s p) p).testBit sl then some 1
  else (entriesInForce s).findSome? fun e =>
    if getF e.2 PageEnt.TYPE = 1 ∧ getF e.2 PageEnt.SRC_PORT = p ∧ getF e.2 PageEnt.SRC_TS = sl then some (getF e.2 PageEnt.TRIB + 2)
    else none

/-- The slots of a port whose accepted MSI differs from the one that the page implies, as a mask: none while no MSI is accepted. -/
def msiMismatch (s : State) (p : Nat) : Nat :=
  match tabGet? s.tfu.msi p with
  | none => 0
  | some m => maskOf ((List.range (tribSlots s p)).filter fun sl =>
      ((m.getD sl none).map BitVec.toNat) != impliedMsi s p sl)

/-- The accepted PT of the OPUCn (0) or of the packet tributary (1), none before one is accepted. -/
def acceptedPt (s : State) (p layer : Nat) : Option Nat := tabGet? s.tfu.pts (2 * p + layer)

/-- Whether what the device holds lets a defect be declared (R224, R232). That a lane has no signal, that instances are out of step, and
the alignment of the ODUflex frames are seen outside what the model holds. -/
def mayDeclare (s : State) (p : Nat) (d : Defect) : Bool :=
  let x := rdWord s (frK p)
  match d with
  | .los l => decide (l.val < instances s p)
  | .lof i => (tabGet s.tfu.fas (8 * p + i.val) (0, false)).2
  | .lom i => (tabGet s.tfu.mfas (8 * p + i.val) (0, false)).2
  | .smTim => getF x FrCtl.SM_TIM != 0 && ttiDiffers s p (getF x FrCtl.SM_TIM) 1 6
  | .pmTim => getF x FrCtl.PM_TIM != 0 && ttiDiffers s p (getF x FrCtl.PM_TIM) 3 7
  | .ptTim => getF x FrCtl.PT_TIM != 0 && pktTtiDiffers s p (getF x FrCtl.PT_TIM)
  | .smBdi => sigIs s p .smBdi 1 5
  | .smIae => sigIs s p .smIae 1 5
  | .pmBdi => sigIs s p .pmBdi 1 5
  | .ptBdi => sigIs s p .pktBdi 1 5
  | .pmAis => sigIs s p .pmStat 7 3
  | .pmOci => sigIs s p .pmStat 6 3
  | .pmLck => sigIs s p .pmStat 5 3
  | .ptAis => sigIs s p .pktStat 7 3
  | .ptOci => sigIs s p .pktStat 6 3
  | .ptLck => sigIs s p .pktStat 5 3
  | .smDeg => degradedFor s p 0 true
  | .pmDeg => degradedFor s p 1 true
  | .ptDeg => degradedFor s p 2 true
  | .plm => (acceptedPt s p 0).any fun v => v != 0x22
  | .ptPlm => (acceptedPt s p 1).any fun v => v != 0x05
  | .msim m => getF x FrCtl.MSI_CHK == 1 && m != 0 && m.toNat == msiMismatch s p
  | .lfd => rd s (frS p) FrStatus.GFP_STATE != 2
  | .lol | .ptLoflom | .csf => true

/-- Whether what the device holds lets a defect clear (R224). -/
def mayClear (s : State) (p : Nat) (d : Defect) : Bool :=
  let x := rdWord s (frK p)
  match d with
  | .lof i => !(tabGet s.tfu.fas (8 * p + i.val) (0, false)).2
  | .lom i => !(tabGet s.tfu.mfas (8 * p + i.val) (0, false)).2
  | .smTim => getF x FrCtl.SM_TIM == 0 || !ttiDiffers s p (getF x FrCtl.SM_TIM) 1 6
  | .pmTim => getF x FrCtl.PM_TIM == 0 || !ttiDiffers s p (getF x FrCtl.PM_TIM) 3 7
  | .ptTim => getF x FrCtl.PT_TIM == 0 || !pktTtiDiffers s p (getF x FrCtl.PT_TIM)
  | .smBdi => sigIs s p .smBdi 0 5
  | .smIae => sigIs s p .smIae 0 5
  | .pmBdi => sigIs s p .pmBdi 0 5
  | .ptBdi => sigIs s p .pktBdi 0 5
  | .pmAis => sigIsNot s p .pmStat 7 3
  | .pmOci => sigIsNot s p .pmStat 6 3
  | .pmLck => sigIsNot s p .pmStat 5 3
  | .ptAis => sigIsNot s p .pktStat 7 3
  | .ptOci => sigIsNot s p .pktStat 6 3
  | .ptLck => sigIsNot s p .pktStat 5 3
  | .smDeg => degradedFor s p 0 false
  | .pmDeg => degradedFor s p 1 false
  | .ptDeg => degradedFor s p 2 false
  | .plm => (acceptedPt s p 0).any fun v => v == 0x22
  | .ptPlm => (acceptedPt s p 1).any fun v => v == 0x05
  | .msim _ => getF x FrCtl.MSI_CHK == 0 || msiMismatch s p == 0
  | .lfd => rd s (frS p) FrStatus.GFP_STATE == 2
  | .los _ | .lol | .ptLoflom | .csf => true

/-- The moment at which a defect whose wait the device has seen begin is declared or cleared: 3 ms in or out of alignment, 300 ms without a
client management frame (R224). -/
def defectWait (p : Nat) (d : Defect) (on : Bool) (s : State) : State :=
  let after (t : Option Nat) (n : Nat) : State :=
    match t with
    | some t => reachIvl (t + n * ms * 65536) s
    | none => s
  match d with
  | .lof i => after (tabGet? s.tfu.outAt (2 * (8 * p + i.val))) 3
  | .lom i => after (tabGet? s.tfu.outAt (2 * (8 * p + i.val) + 1)) 3
  | .csf => if on then s else after (tabGet? s.tfu.csfAt p) 300
  | _ => s

/-- The bit of a defect in the framing status object (R232). -/
def defectBit : Defect → Fld
  | .los _ => FrStatus.LOS
  | .lof _ => FrStatus.LOF
  | .lom _ => FrStatus.LOM
  | .lol => FrStatus.LOL
  | .smTim => FrStatus.SM_TIM
  | .smBdi => FrStatus.SM_BDI
  | .smDeg => FrStatus.SM_DEG
  | .smIae => FrStatus.SM_IAE
  | .pmAis => FrStatus.PM_AIS
  | .pmOci => FrStatus.PM_OCI
  | .pmLck => FrStatus.PM_LCK
  | .pmTim => FrStatus.PM_TIM
  | .pmBdi => FrStatus.PM_BDI
  | .pmDeg => FrStatus.PM_DEG
  | .plm => FrStatus.PLM
  | .msim _ => FrStatus.MSIM
  | .ptLoflom => FrStatus.PT_LOFLOM
  | .ptAis => FrStatus.PT_AIS
  | .ptOci => FrStatus.PT_OCI
  | .ptLck => FrStatus.PT_LCK
  | .ptPlm => FrStatus.PT_PLM
  | .ptTim => FrStatus.PT_TIM
  | .ptBdi => FrStatus.PT_BDI
  | .ptDeg => FrStatus.PT_DEG
  | .lfd => FrStatus.LFD
  | .csf => FrStatus.CSF

/-- A mask with a bit set or cleared. -/
def setBit (x i : Nat) (on : Bool) : Nat := if on then x ||| 2 ^ i else x - x / 2 ^ i % 2 * 2 ^ i

/-- A defect is declared or cleared: its mask where it has one, and its bit of the status object. -/
def setDefect (p : Nat) (d : Defect) (on : Bool) (s : State) : State :=
  let k := frS p
  let put (v : Nat) (s : State) : State := wr s k (defectBit d) (if v = 0 then 0 else 1)
  match d with
  | .los l =>
    let v := setBit (rd s k FrStatus.LOS_LANES) l.val on
    put v (wr s k FrStatus.LOS_LANES v)
  | .lof i =>
    let v := setBit (rd s k FrStatus.LOF_INST) i.val on
    put v (wr s k FrStatus.LOF_INST v)
  | .lom i =>
    let v := setBit (tabGet s.tfu.lomInst p 0) i.val on
    put v { s with tfu := { s.tfu with lomInst := tabSet s.tfu.lomInst p v 0 } }
  | .msim m =>
    let v := if on then m.toNat else 0
    put v { s with tfu := { s.tfu with msim := tabSet s.tfu.msim p v 0 } }
  | _ => put (if on then 1 else 0) s

/-- A defect changes, with an event, and the consequent actions follow (R224, R225). -/
def changeDefect (p : Nat) (d : Defect) (on : Bool) (s : State) : State :=
  let t := setDefect p d on s
  if t = s then s else defectsChanged p (stateEvent (frS p) t)

/-- DEFECT_DECLARE (R224, R225). -/
def execDefectDeclare (p : Fin 48) (d : Defect) (s : State) : Answer :=
  .next (if isFramed s p.val && adminUp s p.val && mayDeclare s p.val d then
      changeDefect p.val d true (defectWait p.val d true s)
    else s)

/-- DEFECT_CLEAR (R224, R225). -/
def execDefectClear (p : Fin 48) (d : Defect) (s : State) : Answer :=
  .next (if isFramed s p.val && adminUp s p.val && mayClear s p.val d then
      changeDefect p.val d false (defectWait p.val d false s)
    else s)

/-- The control of framing has been written: TIM_ACT and FORCE_TX act at once (R225, R227, R232). -/
def frCtlWritten (p : Nat) (s : State) : State := condChanged p (defectsChanged p s)

/-- CSF_TRANSMIT (R225): a client management frame with UPI 0x01. -/
def execCsfTransmit (p : Fin 48) (s : State) : Answer :=
  let p := p.val
  .next (if isFramed s p && adminUp s p && rd s (frS p) FrStatus.PKT_SLOTS != 0 && packetFail s p then
      forAll ((linesOf s p).filter fun q => maintOf s q == 0) (fun q s => emit s (.pdu q .csf [1])) s
    else s)

/-! ## Connection pages (R219 to R222, R231) -/

/-- SWAP_STATE: idle, checking, scheduled, switching. -/
def swIdle : Nat := 0
/-- See `swIdle`. -/
def swChecking : Nat := 1
/-- See `swIdle`. -/
def swScheduled : Nat := 2
/-- See `swIdle`. -/
def swSwitching : Nat := 3
/-- The state of the swap. -/
def swapState (s : State) : Nat := rd s tfuK TfuCtl.SWAP_STATE
/-- The ACTIVE page. -/
def activePage (s : State) : Nat := rd s tfuK TfuCtl.ACTIVE_PAGE

/-- Whether a slot of a port may be named by an entry (R220). -/
def slotNamed (s : State) (p sl : Nat) : Bool :=
  decide (p < 48 ∧ sl < tribSlots s p) &&
    !isProtection s p

/-- Whether an entry fails the checks of R220, given the entries of its page that come before it, the nearest first: each is its
index within the page and its value. -/
def entryRefused (s : State) (page : Nat) (before : List (Nat × Nat)) (e : Nat × Nat) : Bool :=
  let (i, x) := e
  let p := i / 160
  let sp := getF x PageEnt.SRC_PORT
  let st := getF x PageEnt.SRC_TS
  let transit := before.filter fun b => getF b.2 PageEnt.TYPE == 1
  let same := transit.filter fun b => getF b.2 PageEnt.TRIB == getF x PageEnt.TRIB
  if getF x PageEnt.TYPE = 0 then false
  else !slotNamed s p (i % 160) ||
    (getF x PageEnt.TYPE == 1 &&
      (!slotNamed s sp st ||
        (same.any fun b => b.1 / 160 != p || getF b.2 PageEnt.SRC_PORT != sp) ||
        sp == p ||
        (match same with
          | b :: _ => decide (st ≤ getF b.2 PageEnt.SRC_TS)
          | [] => false) ||
        (transit.any fun b => getF b.2 PageEnt.SRC_PORT == sp && getF b.2 PageEnt.SRC_TS == st) ||
        rd s (entK page sp st) PageEnt.TYPE == 2))

/-- The first entry of a page, in the order of the index, that fails the checks of R220. -/
def firstRefused (s : State) (page : Nat) : List (Nat × Nat) → List (Nat × Nat) → Option Nat
  | _, [] => none
  | before, e :: rest => if entryRefused s page before e then some e.1 else firstRefused s page (e :: before) rest

/-- The entries of a page that are listed, in the order of the index. -/
def pageEntries (s : State) (page : Nat) : List (Nat × Nat) :=
  ((listed .pageEnt s).filter fun i => i / 7680 == page).map fun i => (i % 7680, rdWord s (obj .pageEnt i))

/-- SWAP is accepted (R221 step 1). -/
def swapPages (s : State) : State := wr s tfuK TfuCtl.SWAP_STATE swChecking

/-- PAGE_CHECK_COMPLETE (R220, R221 step 2): T_sw is 100 µs later. -/
def execPageCheckComplete (s : State) : Answer :=
  .next (if swapState s ≠ swChecking then s
    else
      let page := 1 - activePage s
      match firstRefused s page [] (pageEntries s page) with
      | some i =>
        wr (wr s tfuK TfuCtl.SWAP_STATE swIdle) tfuK TfuCtl.FAIL_ADDR (addrOf (obj .pageEnt (page * 7680 + i))).toNat
      | none =>
        let s := { s with tfu := { s.tfu with swapAt := some (s.ct + 100000 * 65536) } }
        wr (wr s tfuK TfuCtl.SWAP_STATE swScheduled) tfuK TfuCtl.FAIL_ADDR 0)

/-- PAGE_SWITCH (R221 step 3). -/
def execPageSwitch (s : State) : Answer :=
  .next (match s.tfu.swapAt with
    | some t => if swapState s = swScheduled then wr (reach t s) tfuK TfuCtl.SWAP_STATE swSwitching else s
    | none => s)

/-- The transit tributaries of a port whose transmit or arrival slots differ between the pages are interrupted (R222). -/
def interrupted (s : State) (p : Nat) : List Nat :=
  let of (page t : Nat) : List (Nat × Nat) := ((List.range 160).map fun sl => (sl, entryAt s (entK page p sl))).filter fun e =>
    getF e.2 PageEnt.TYPE == 1 && getF e.2 PageEnt.TRIB == t
  let all := (((List.range 2).flatMap fun page => (List.range 160).map fun sl => entryAt s (entK page p sl)).filter fun x =>
    getF x PageEnt.TYPE == 1).map fun x => getF x PageEnt.TRIB
  all.dedup.filter fun t => of 0 t != of 1 t

/-- A framed port takes the new page: the transit tributaries whose slots change are interrupted, and so is its packet tributary when its
packet slots change (R221 step 4, R222). -/
def takePage (p : Nat) (s : State) : State :=
  if !isFramed s p || s.tfu.taken.contains p then s
  else
    let old := packetSlots s (pageAt s p) p
    let cut := interrupted s p
    let s := forAll cut (fun t s => emit s (.tribCut p t)) { s with tfu := { s.tfu with taken := s.tfu.taken ++ [p] } }
    slotsChanged p old s

/-- PAGE_TAKE (R221 step 4). -/
def execPageTake (p : Fin 48) (s : State) : Answer :=
  .next (if swapState s = swSwitching then takeActions (takePage p.val s) else s)

/-- PAGE_SWAP_END (R221 step 5): every framed port has taken the page by T_sw + 23.25 µs. -/
def execPageSwapEnd (s : State) : Answer :=
  .next (match s.tfu.swapAt with
    | none => s
    | some t =>
      if swapState s ≠ swSwitching then s
      else
        let s := forAll ports takePage (reach (t + 23250 * 65536) s)
        let s := wr (wr s tfuK TfuCtl.ACTIVE_PAGE (1 - activePage s)) tfuK TfuCtl.SWAP_STATE swIdle
        takeActions { s with tfu := { s.tfu with taken := [], swapAt := none } })

/-- COPY writes the ACTIVE page into the standby page (R231). -/
def copyPage (s : State) : State :=
  let a := activePage s
  let b := 1 - a
  let t := forAll ((listed .pageEnt s).filter fun i => i / 7680 == b) (fun i s => wrWord s (obj .pageEnt i) 0) s
  let t := forAll ((listed .pageEnt s).filter fun i => i / 7680 == a) (fun i t =>
    wrWord t (obj .pageEnt (b * 7680 + i % 7680)) (rdWord s (obj .pageEnt i))) t
  { t with tfu := { t.tfu with lostEnt := s.tfu.lostEnt.filter fun i => i / 7680 == a } }

/-- An entry of the standby page has been written. -/
def entryWritten (i : Nat) (s : State) : State :=
  { s with tfu := { s.tfu with lostEnt := s.tfu.lostEnt.filter fun j => j != i } }

end Sys2Proof.Machine
end

