-- ==== Sys2Proof/Machine/Fabric.lean ====
section
/-! DEFINITION. The fabric: the plan, links coming up and going down, quarantine, link-state records and the incarnations that they carry,
routes and unreachable nodes (R341 to R367, R382). -/
namespace Sys2Proof.Machine

/-! ## Set-aside and incarnations (R278, R381, R382) -/

/-- The difference of two 32-bit serial numbers, 0 where it is not positive (R377). -/
def serialGap (a b : Nat) : Nat :=
  let d := (a + 2 ^ 32 - b % 2 ^ 32) % 2 ^ 32
  if d < 2 ^ 31 then d else 0
/-- The greater of two 32-bit serial numbers. -/
def serialMax (a b : Nat) : Nat := if serialGap a b = 0 then b % 2 ^ 32 else a % 2 ^ 32

/-- The destination's side of a stream by source, port and class, and of multicast by source and class. -/
def getDst (s : State) (k : Nat) : DstStream := tabGet s.fab.dst k DstStream.zero
/-- See `getDst`. -/
def setDst (k : Nat) (x : DstStream) (s : State) : State :=
  { s with fab := { s.fab with dst := tabSet s.fab.dst k x DstStream.zero } }
/-- See `getDst`. -/
def getMc (s : State) (k : Nat) : McDst := tabGet s.fab.mcDst k McDst.zero
/-- See `getDst`. -/
def setMc (k : Nat) (x : McDst) (s : State) : State :=
  { s with fab := { s.fab with mcDst := tabSet s.fab.mcDst k x McDst.zero } }

/-- The object of a port's grants. -/
def grantKey (p : Nat) : Key := obj .portGrant p
/-- The set-aside of a stream (R377). -/
def asideOf (x : DstStream) : Nat := serialGap x.granted x.consumed

/-- Billets of a stream's set-aside return to their pool (R381). -/
def releaseAside (p pool n : Nat) (s : State) : State :=
  freeBillets pool n (mapF s (grantKey p) PortGrant.OUTSTANDING (· - n))

/-- The packets with bytes in what a stream holds: one in progress, or one that the held cells began. -/
def inHand (x : DstStream) : Nat := if x.buf.isEmpty && x.held.isEmpty then 0 else 1

/-- The links that hold cells this node cut for another node. -/
def ownTo (m : Nat) (c : FabCell) : Bool := !c.pieces.isEmpty && c.cell.type == 0 && c.cell.dst.toNat == m

/-- Reset every stream shared with a node, in both directions (R382). -/
def resetStreams (m : Nat) (s : State) : State :=
  let mine (k : Nat) : Bool := k / 384 == m
  let partly := ((s.fab.links.flatMap fun e => e.2.cells.filter (ownTo m)).flatMap fun c => c.pieces.map fun p => p.ref.pkt) ++
    ((s.fab.src.filter fun e => mine e.1).flatMap fun e => e.2.pieces.map fun p => p.ref.pkt)
  let dsts := s.fab.dst.filter fun e => mine e.1
  let lost := partly.dedup.length + (dsts.map fun e => inHand e.2).sum +
    ((s.fab.mcDst.filter fun e => e.1 / 8 == m).filter fun e => !e.2.buf.isEmpty).length
  let s := forAll dsts (fun e s => releaseAside (e.1 % 384 / 8) e.2.pool (asideOf e.2) s) s
  let s := forAll (s.fab.mcDst.filter fun e => e.1 / 8 == m) (fun e s =>
    freeBillets e.2.pool (serialGap e.2.granted e.2.consumed + e.2.taken.getD 0) s) s
  let links := s.fab.links.map fun e => (e.1, { e.2 with cells := e.2.cells.filter fun c => !ownTo m c })
  let s := { s with fab := { s.fab with
    links := links
    src := s.fab.src.filter fun e => !mine e.1
    dst := s.fab.dst.filter fun e => !mine e.1
    mcSrc := s.fab.mcSrc.filter fun e => e.1 / 8 != m
    mcDst := s.fab.mcDst.filter fun e => e.1 / 8 != m } }
  if lost = 0 then s else bump .trCtr 0 3 lost s

/-- Learn a node's incarnation: one that differs from the one held first resets every stream shared with it (R382). -/
def learnInc (m inc : Nat) (s : State) : State :=
  if tabGet? s.fab.incs m = some inc then s
  else
    let s := resetStreams m s
    { s with fab := { s.fab with incs := tabPut s.fab.incs m inc } }

/-- Draw the node's incarnation: 1 to 65,535, different from the last one (R382). -/
def drawInc (s : State) : State :=
  let (r, s) := drawEntropy s
  let n := r % 65534 + 1
  { s with fab := { s.fab with inc := if s.fab.inc ≠ 0 ∧ s.fab.inc ≤ n then n + 1 else n } }

/-! ## The plan (R342 to R345, R364) -/

/-- The fabric settings. -/
def fabK : Key := obj .fabSet

/-- The plan that the settings hold. -/
def planOfSettings (s : State) : Plan :=
  { cls := rd s fabK FabSet.CLASS, sx := rd s fabK FabSet.SIZE_X, sy := rd s fabK FabSet.SIZE_Y, sz := rd s fabK FabSet.SIZE_Z,
    dbl := rd s fabK FabSet.DBL, addr := rd s fabK FabSet.ADDR, valid := flag s fabK FabSet.ADDR_VALID }

/-- Whether the settings as a whole keep the ranges and combinations of R343, R345 and R364. -/
def settingsOk (x : Nat) : Bool :=
  let p : Plan := { cls := getF x FabSet.CLASS, sx := getF x FabSet.SIZE_X, sy := getF x FabSet.SIZE_Y, sz := getF x FabSet.SIZE_Z,
                    dbl := getF x FabSet.DBL, addr := getF x FabSet.ADDR, valid := false }
  let dim (n top : Nat) : Bool := decide (2 ≤ n ∧ n ≤ top)
  (match p.cls with
    | 0 => p.sx == 0 && p.sy == 0 && p.sz == 0
    | 1 => dim p.sx 65 && p.sy == 0 && p.sz == 0
    | 2 => dim p.sx 32 && dim p.sy 32 && p.sz == 0
    | _ => dim p.sx 16 && dim p.sy 16 && dim p.sz 16) &&
  (p.dbl == 0 || (p.cls == 3 && (match p.dbl with
    | 1 => p.sx
    | 2 => p.sy
    | _ => p.sz) == 16)) && inPlan p p.addr &&
  decide (1 ≤ getF x FabSet.QUAR_HOLD ∧ getF x FabSet.QUAR_HOLD ≤ 1000 ∧ 1 ≤ getF x FabSet.UNREACH_FLUSH)

/-- A start of FAB: the settings' plan comes into force, every link of it goes DOWN and every other is UNUSED, records and routes
begin afresh, and a new incarnation resets every stream (R342, R382). -/
def startFab (s : State) : State :=
  let nodes := (s.fab.src.map fun e => e.1 / 384) ++ (s.fab.dst.map fun e => e.1 / 384) ++
    (s.fab.mcSrc.map fun e => e.1 / 8) ++ (s.fab.mcDst.map fun e => e.1 / 8)
  let s := forAll nodes.dedup resetStreams s
  let s := drawInc { s with fab := { s.fab with plan := planOfSettings s, records := [], stale := true, incs := [] } }
  let used := planLinks s.fab.plan
  let s := forAll (List.range 64) (fun k s => moveLink k (if used.contains k then lsDown else lsUnused) 0 s) s
  timeChanged (rebuildRoutes { s with fab := { s.fab with started := s.fab.started || s.fab.plan.cls == 0 } })

/-! ## Bringing a link up (R346 to R348) -/

/-- The control of a link. -/
def flC (k : Nat) : Key := obj .flCtl k

/-- The CRC-32C of the vendor name and vendor serial number of a link's cable (R347): bytes 129 to 144 and 166 to 181 of the identity
memory (PRESUMED: CMIS, upper page 00h). -/
def cableCrc (s : State) (k : Nat) : Nat :=
  let v := rdWord s (obj .cabMirror k)
  (crc32c (((List.range' 129 16) ++ List.range' 166 16).map fun i => BitVec.ofNat 8 (idByte v i))).toNat

/-- This node's hello on a link (R347). -/
def helloOf (s : State) (k : Nat) : Hello :=
  { serial := BitVec.ofNat 64 s.fuses.serial, addr := BitVec.ofNat 12 s.fab.plan.addr, addrValid := s.fab.plan.valid,
    link := BitVec.ofNat 6 k, planHash := BitVec.ofNat 32 (planHash s.fab.plan), cableCrc := BitVec.ofNat 32 (cableCrc s k) }

/-- Whether a SERIAL is held by a route entry under another address. -/
def serialElsewhere (s : State) (a : Nat) (serial : Nat) : Bool :=
  serial != 0 && (routeNodes s).any fun n => n != a && rd s (routeKey n) Route.SERIAL == serial

/-- The checks of R348 on a hello: 0 when it passes, else the CAUSE of the first that fails. -/
def helloCause (s : State) (k : Nat) (h : Hello) : Nat :=
  if h.planHash.toNat ≠ planHash s.fab.plan then 5
  else
    match farEnd s.fab.plan s.fab.plan.addr k with
    | none => 6
    | some (_, m, far) =>
      if h.addr.toNat ≠ m then 6
      else if h.link.toNat ≠ far then 7
      else if flag s fabK FabSet.CABLE_CHECK ∧ rd s (flKey k) FlStatus.ID_STATE ≠ 2 then 8
      else if flag s fabK FabSet.CABLE_CHECK ∧ h.cableCrc.toNat ≠ cableCrc s k then 9
      else if serialElsewhere s h.addr.toNat h.serial.toNat then 10
      else 0

/-- Whether either end's ADDR_VALID is 0. -/
def unaddressed (s : State) (h : Hello) : Bool := !s.fab.plan.valid || !h.addrValid

/-- A check of R348 has failed: the link goes to MISMATCH, with a message at most once per second. -/
def toMismatch (k cause : Nat) (s : State) : State :=
  raiseEach 0x50 0 1 k (flKey k) (moveLink k lsMismatch cause s)

/-- Whether the power ladder has shed a link (R560). -/
def linkShed (s : State) (k : Nat) : Bool := powerShed s (.link (Fin.ofNat 64 k))

/-- A link that has passed its checks enters UP, unless the safe state or ADMIN_QUAR holds it out of service (R347, R356). -/
def bringUp (k : Nat) (s : State) : State :=
  if inSafe s then moveLink k lsQuar 11 s
  else if flag s (flC k) FlCtl.ADMIN_QUAR then moveLink k lsQuar 1 s
  else moveLink k lsUp 0 s

/-- LINK_TRAINING_START (R347). -/
def execLinkTrainingStart (k : Fin 64) (s : State) : Answer :=
  let k := k.val
  .next (if linkState s k = lsDown ∧ flag s (flC k) FlCtl.ADMIN_UP ∧ !linkShed s k then moveLink k lsTraining 0 s else s)

/-- A link's control object with the taps of its bring-up: as written, or under AUTO some valid taps of the device's own choice (R181, R347,
R365). -/
def flTaken (x choice : Nat) : Nat :=
  let pre := choice % 64
  let main := choice / 64 % 64
  let post := choice / 4096 % 64
  if getF x FlCtl.EQ_MODE = 0 ∧ tapsOk pre main post then
    putF (putF (putF x FlCtl.TX_PRE pre) FlCtl.TX_MAIN main) FlCtl.TX_POST post
  else x

/-- LINK_TRAINED (R347): the taps are chosen, and the link's settings come into force (R365). -/
def execLinkTrained (k : Fin 64) (s : State) : Answer :=
  let k := k.val
  .next (if linkState s k = lsTraining then
      let (c, s) := drawChoice s
      moveLink k lsHello 0 (setFl s k { getFl s k with ctl := flTaken (rdWord s (flC k)) c })
    else s)

/-- HELLO_SEND (R347, R356). -/
def execHelloSend (k : Fin 64) (s : State) : Answer :=
  let st := linkState s k.val
  .next (if st = lsHello ∨ st = lsMismatch ∨ st = lsQuar then emit s (.hello k.val (helloOf s k.val)) else s)

/-- Show a peer's hello in the link status object. -/
def showHello (k : Nat) (h : Hello) (s : State) : State :=
  let s := wr (wr s (flKey k) FlStatus.PEER_ADDR h.addr.toNat) (flKey k) FlStatus.PEER_LINK h.link.toNat
  wr s (flKey k) FlStatus.PEER_SERIAL h.serial.toNat

/-- HELLO_RECEIVE (R347, R348). -/
def execHelloReceive (k : Fin 64) (h : Hello) (s : State) : Answer :=
  let k := k.val
  let st := linkState s k
  .next (if st = lsUnused ∨ st = lsDown ∨ st = lsTraining then s
    else
      let x := getFl s k
      let s := showHello k h (setFl s k { x with hello := some h, helloN := 0 })
      let cause := helloCause s k h
      if st = lsUp then if cause = 0 then s else toMismatch k cause s
      else if st ≠ lsHello ∨ unaddressed s h then s
      else if cause ≠ 0 then toMismatch k cause s
      else
        let n := if x.hello = some h then x.helloN + 1 else 1
        if 64 ≤ n then bringUp k s else setFl s k { getFl s k with helloN := n })

/-- MISMATCH_RECHECK (R348): the checks are repeated against the current hello; a link that passes them exchanges hellos again. -/
def execMismatchRecheck (k : Fin 64) (s : State) : Answer :=
  let k := k.val
  .next (if linkState s k ≠ lsMismatch then s
    else
      match (getFl s k).hello with
      | none => s
      | some h =>
        if unaddressed s h then moveLink k lsHello 0 s
        else
          let cause := helloCause s k h
          if cause = 0 then moveLink k lsHello 0 s else toMismatch k cause s)

/-! ## Health and quarantine (R354, R356 to R358, R365) -/

/-- KEEPALIVE_LOSS (R356). -/
def execKeepaliveLoss (k : Fin 64) (s : State) : Answer :=
  .next (if linkState s k.val = lsUp then moveLink k.val lsQuar 4 s else s)

/-- CONGESTION_SAMPLE (R354): Q is the cells that wait for the link and those sent on it whose credit has not returned. -/
def execCongestionSample (k : Fin 64) (s : State) : Answer :=
  let k := k.val
  .next (if linkState s k ≠ lsUp then s
    else
      let x := getFl s k
      let q := x.cells.length + (x.spent.map Prod.snd).sum
      let e := ((x.e : Int) + (65536 * (q : Int) - x.e).fdiv 8).toNat
      let n := min 1024 (x.samples + 1)
      let s := setFl s k { x with e := e, samples := n }
      let s := wr s (flKey k) FlStatus.CONG (min (e / 65536) 65535)
      if n = 1024 then wr s (flKey k) FlStatus.SAMPLED 1 else s)

/-- A link declares DOWN and sends a down notice (R358): a quarantined link stays held (R357). -/
def declareDown (k : Nat) (s : State) : State :=
  let st := linkState s k
  if st = lsTraining ∨ st = lsHello ∨ st = lsUp ∨ st = lsMismatch then moveLink k lsDown 0 (emit s (.downNotice k)) else s

/-- FABRIC_LINK_DOWN (R353, R358). -/
def execFabricLinkDown (k : Fin 64) (s : State) : Answer := .next (declareDown k.val s)

/-- DOWN_NOTICE_RECEIVE (R358). -/
def execDownNoticeReceive (k : Fin 64) (s : State) : Answer := .next (declareDown k.val s)

/-- Whether a quarantined link passes the checks of R348 now. -/
def checksPass (s : State) (k : Nat) : Bool :=
  match (getFl s k).hello with
  | some h => !unaddressed s h && helloCause s k h == 0
  | none => false

/-- Whether ADMIN_QUAR or the safe state holds a link. -/
def quarHeld (s : State) (k : Nat) : Bool := inSafe s || flag s (flC k) FlCtl.ADMIN_QUAR

/-- A link's hold ends: with its checks passed it runs for 1 s (R357); still held otherwise, it shows the cause. -/
def leaveQuar (k : Nat) (s : State) : State :=
  if linkState s k ≠ lsQuar then s
  else if inSafe s then moveLink k lsQuar 11 s
  else if flag s (flC k) FlCtl.ADMIN_QUAR then moveLink k lsQuar 1 s
  else setFl s k { getFl s k with trial := checksPass s k, holdAt := s.clock }

/-- QUAR_HOLD_EXPIRE (R357): QUAR_HOLD seconds after a link entered quarantine, or failed its trial. -/
def execQuarHoldExpire (k : Fin 64) (s : State) : Answer :=
  let x := getFl s k.val
  .next (if linkState s k.val = lsQuar ∧ !quarHeld s k.val ∧ !x.trial then
      leaveQuar k.val (due (x.holdAt + rd s fabK FabSet.QUAR_HOLD * sec) s)
    else s)

/-- QUARANTINE_TRIAL_END (R357): the trial of 1 s ends; a link that fails it is held for a further QUAR_HOLD. -/
def execQuarantineTrialEnd (k : Fin 64) (clean : Bool) (s : State) : Answer :=
  let k := k.val
  let x := getFl s k
  .next (if linkState s k = lsQuar ∧ x.trial then
      let s := if clean then due (x.holdAt + sec) s else s
      if clean && !quarHeld s k && checksPass s k then moveLink k lsUp 0 s
      else setFl s k { getFl s k with trial := false, holdAt := s.clock }
    else s)

/-- The link control object has been written (R356, R357, R365). -/
def flCtlWritten (k old : Nat) (s : State) : State :=
  let wasQuar := getF old FlCtl.ADMIN_QUAR == 1
  let quar := flag s (flC k) FlCtl.ADMIN_QUAR
  if linkState s k = lsUnused then s
  else if !flag s (flC k) FlCtl.ADMIN_UP then moveLink k lsDown 0 s
  else if quar then if wasQuar && getF old FlCtl.ADMIN_UP == 1 then s else moveLink k lsQuar 1 s
  else if wasQuar ∧ rd s (flKey k) FlStatus.CAUSE = 1 then leaveQuar k s
  else s

/-! ## Records and routes (R349 to R353, R360, R361) -/

/-- LINK_STATE_RECORD (R349, R351, R382). -/
def execLinkStateRecord (k : Fin 64) (r : LinkRecord) (s : State) : Answer :=
  let a := r.addr.toNat
  let held := tabGet s.fab.records a []
  let newer := match held.find? fun h => h.record.serial == r.serial with
    | some h => decide (h.record.time < r.time)
    | none => true
  .next (if linkState s k.val ≠ lsUp ∨ !newer then s
    else
      let s := if a = s.fab.plan.addr then s else learnInc a r.inc.toNat s
      let s := floodRecord r (some k.val) (holdRecord s r)
      if held.length < 2 ∧ 2 ≤ (tabGet s.fab.records a []).length then
        let s := wr s (routeKey a) Route.DUP 1
        let s := if a = s.fab.plan.addr then s
          else wr (wr (wr s (routeKey a) Route.DIST 7) (routeKey a) Route.MIN_MASK 0) (routeKey a) Route.NM_MASK 0
        raiseAt 0x50 0 3 (routeKey a) s
      else s)

/-- RECORD_REFRESH (R350). -/
def execRecordRefresh (s : State) : Answer := .next (genRecord s)

/-- RECORD_EXPIRE (R351): 3.5 s after it came, the record of an address that came longest ago, not the node's own. -/
def execRecordExpire (addr : Fin 4096) (s : State) : Answer :=
  let a := addr.val
  let l := (tabGet s.fab.records a []).filter fun h => a != s.fab.plan.addr || h.record.serial.toNat != s.fuses.serial
  let oldest := l.foldl (fun b h => match b with
    | none => some h
    | some g => if h.came < g.came then some h else b) (none : Option Held)
  .next (match oldest with
    | none => s
    | some h =>
      let s := due (h.came + 3500 * ms) s
      let rest := (tabGet s.fab.records a []).erase h
      let t := if rest.isEmpty then tabDel s.fab.records a else tabPut s.fab.records a rest
      { s with fab := { s.fab with records := t, stale := true } })

/-- ROUTE_REBUILD (R352, R353): also replaces an entry that cannot be read, with its message. -/
def execRouteRebuild (bad : Option (Fin 4096)) (s : State) : Answer :=
  let s := match bad with
    | some n => raiseAt 0x50 2 4 (routeKey n.val) s
    | none => s
  .next (if s.fab.stale || bad.isSome then rebuildRoutes s else s)

/-- The fabric status object (R361, R364). -/
def fabStatus (s : State) : Nat :=
  let used := planLinks s.fab.plan
  let count (st : Nat) : Nat := ((List.range 64).filter fun k => linkState s k == st).length
  let quiet := used.all fun k =>
    let st := linkState s k
    (st == lsUp || st == lsQuar || st == lsMismatch || st == lsDown) && !within s (getFl s k).since (10 * ms)
  let settled := quiet && !s.fab.stale && (upLinks s).all fun k => flag s (flKey k) FlStatus.SAMPLED
  let near := ((routeNodes s).filter (reachable s)).length
  let x := putF 0 FabStatus.SETTLED (if settled then 1 else 0)
  let x := putF (putF x FabStatus.PLAN_LINKS used.length) FabStatus.LINKS_UP (count lsUp)
  putF (putF (putF x FabStatus.LINKS_QUAR (count lsQuar)) FabStatus.REACHABLE near) FabStatus.PLAN_HASH (planHash s.fab.plan)

/-- Drop everything a queue holds, in every tier; answers how many packets (R360). -/
def emptyQueue (q : Nat) (s : State) : Nat × State :=
  let x := getQ s q
  let images := x.pages.flatMap Page.imgs
  let s := forAll (x.head ++ x.tail) (fun r s => endRef r (leaveOcc r s)) s
  let s := forAll x.pages (freePage q) s
  let staged := ((x.pages.filter reading).flatMap Page.imgs).map fun i => refBillets i.ref
  let s := mapF s (obj .bufStatus) BufStatus.STAGED (· - staged.sum)
  let s := setQ q { getQ s q with head := [], pages := [], tail := [], emptyAt := ivl s } s
  (x.head.length + x.tail.length + images.length, settleQueue q s)

/-- UNREACH_FLUSH (R360): after so long a time of continuous unreachability the packets that wait for a node are dropped. -/
def execUnreachFlush (n : Fin 4096) (s : State) : Answer :=
  let n := n.val
  .next (if n = s.fab.plan.addr ∨ reachable s n then s
    else
      let s := match tabGet? s.fab.unreach n with
        | some t => due (t + rd s fabK FabSet.UNREACH_FLUSH * ms) s
        | none => s
      forAll ((s.que.queues.map Prod.fst).filter fun q => q < Config.voqs && q / 384 == n) (fun q s =>
        let (m, s) := emptyQueue q s
        if m = 0 then s else bump .rtCtr 0 1 m s) s)

end Sys2Proof.Machine
end

