-- ==== Sys2Proof/Machine/Transport.lean ====
section
/-! DEFINITION. The fabric's transport: cells and their link credits, relay, end-to-end credit, reassembly and multicast (R326, R368 to
R394). -/
namespace Sys2Proof.Machine

/-- The transport control. -/
def trK : Key := obj .trCtl
/-- The node's own address. -/
def me (s : State) : Nat := s.fab.plan.addr

/-! ## Lengths and charges (R370, R377, R386) -/

/-- Which inter-pass words travel with a packet (R370): those that are not zero, since the others read as zero anyway. -/
def metaBits (words : List Word) : List Bool := (List.range 8).map fun i => words.getD i 0 != 0
/-- How many they are. -/
def metaCount (words : List Word) : Nat := ((metaBits words).filter id).length
/-- The bytes of stream of a packet (R371). -/
def streamLen (len : Nat) (words : List Word) : Nat := len + 24 + 8 * metaCount words
/-- The cells that a number of bytes fills. -/
def cellsOf (n : Nat) : Nat := (n + 239) / 240
/-- The credit charge of a unicast packet (R377). -/
def chargeOf (r : Ref) : Nat := cellsOf (streamLen (frameLen r) r.words) + 1
/-- The credit charge of a multicast packet (R386). -/
def mcCharge (r : Ref) : Nat := cellsOf (streamLen (frameLen r) r.words)

/-! ## Deficit round robin (R326, R379) -/

/-- One choice of deficit round robin among TC0 to TC6: `size` is the next size of a class, none where it has nothing; `q` the quanta; the
class whose turn it is and the deficits. Answers the class served, and the turn and the deficits after it. -/
def drr (size : Nat → Option Nat) (q : Nat → Nat) : Nat → Nat → Tab Nat → Option (Nat × Nat × Tab Nat)
  | 0, _, _ => none
  | fuel + 1, tc, d =>
    let next := (tc + 1) % 7
    match size tc with
    | some n =>
      if n ≤ tabGet d tc 0 then some (tc, tc, tabSet d tc (tabGet d tc 0 - n) 0)
      else drr size q fuel next (tabSet d next (tabGet d next 0 + q next) 0)
    | none =>
      let d := tabDel d tc
      drr size q fuel next (tabSet d next (tabGet d next 0 + q next) 0)

/-- The quantum of a class, in billets (R337). -/
def quantumOf (s : State) (tc : Nat) : Nat := bitsAt (rdWord s (obj .voqGlobal)) (64 + 8 * tc) 8

/-- The first number after the last one served, wrapping. -/
def nextAfter (last : Nat) (l : List Nat) : Option Nat :=
  match l.find? fun q => decide (last < q) with
  | some q => some q
  | none => l.head?

/-! ## Sources of cells (R326, R371, R377, R378) -/

/-- The source's side of a unicast stream by its VOQ, and of multicast by destination and class. -/
def getSrc (s : State) (q : Nat) : SrcStream := tabGet s.fab.src q SrcStream.zero
/-- See `getSrc`. -/
def setSrc (q : Nat) (x : SrcStream) (s : State) : State :=
  { s with fab := { s.fab with src := tabSet s.fab.src q x SrcStream.zero } }
/-- See `getSrc`. -/
def getMs (s : State) (k : Nat) : SrcStream := tabGet s.fab.mcSrc k SrcStream.zero
/-- See `getSrc`. -/
def setMs (k : Nat) (x : SrcStream) (s : State) : State :=
  { s with fab := { s.fab with mcSrc := tabSet s.fab.mcSrc k x SrcStream.zero } }
/-- The balance of a stream at its source. -/
def balance (x : SrcStream) : Nat := serialGap x.granted x.spent

/-- The head packet of a queue, when it is at hand; a standby holds back packets received on protected ports (R456). -/
def headOf (s : State) (q : Nat) : Option Ref :=
  match (getQ s q).head with
  | [] => none
  | r :: _ =>
    match getPkt s r.pkt with
    | some p => if silent s p.arrPort then none else some r
    | none => some r

/-- The reference under which a packet goes into its stream: one whose end has yet to arrive is open, and its LEN holds MAX_FRAME of its
arrival port (R371). -/
def streamRef (s : State) (n : Nat) (r : Ref) : Ref :=
  match if n = me s then none else arrivalPort s r.pkt with
  | some p => { r with len := max r.len (rd s (lpK p) LpCtl.MAX_FRAME) }
  | none => r

/-- The packets that a frame still arriving fills gain another, that of the loop-back port. -/
def followArrival (old new : Nat) (s : State) : State :=
  { s with line := { s.line with arriving := s.line.arriving.map fun e =>
      (e.1, e.2.map fun a => if a.pkts.contains old then { a with pkts := a.pkts ++ [new] } else a) } }

/-- Whether a VOQ may send its head packet (R360, R378). -/
def maySend (s : State) (q : Nat) : Bool :=
  match headOf s q with
  | some r =>
    let n := q / 384
    (n == me s || (reachable s n && !inSafe s)) && (getSrc s q).open_.isNone &&
      decide (chargeOf (streamRef s n r) ≤ balance (getSrc s q))
  | none => false

/-- The member mask of a group (R392): nothing for a group whose tables cannot be read (R394). -/
def memberMask (s : State) (g : Nat) : Nat :=
  if s.fab.badGroups.contains g then 0
  else rdWord s (obj .memMask (2 * g)) * 2 ^ 2048 + rdWord s (obj .memMask (2 * g + 1))
/-- The members of a group. -/
def membersOf (s : State) (g : Nat) : List Nat :=
  let m := memberMask s g
  (List.range 4096).filter fun n => m.testBit n && inPlan s.fab.plan n

/-- Whether a node is reachable by the ordered route, by the records (R375, R386). -/
def orderedReach (s : State) : Nat → Nat → Nat → Bool
  | 0, a, n => a == n
  | fuel + 1, a, n =>
    if a = n then true
    else
      let p := s.fab.plan
      let ds := dimsOf p
      match (List.range ds.length).find? fun i => match ds[i]? with
          | some d => coord d a != coord d n
          | none => false with
      | none => false
      | some i =>
        match ds[i]? with
        | none => false
        | some d =>
          let k := (linkTowards d a (coord d n)).1
          let ways := (usable s a).map Prod.fst
          (ways.contains k || (p.cls == 3 && p.dbl == i + 1 && ways.contains (48 + (k - d.base)))) &&
            orderedReach s fuel (setCoord d a (coord d n)) n

/-- The members a multicast packet waits for: those that the ordered route reaches. -/
def reachableMembers (s : State) (g : Nat) : List Nat := (membersOf s g).filter fun n => orderedReach s 3 (me s) n

/-- Whether the head of a multicast queue has balance for every reachable member (R386). -/
def mcReady (s : State) (tc : Nat) : Bool :=
  match headOf s (mqOf tc) with
  | some r => !isArriving s r.pkt && (reachableMembers s (r.group.getD 0)).all fun n => decide (mcCharge r ≤ balance (getMs s (8 * n + tc)))
  | none => false

/-- The queues that may send cells, in order. -/
def senders (s : State) : List Nat :=
  ((s.que.queues.map Prod.fst).filter fun q => q < Config.voqs && maySend s q) ++
    ((List.range 8).filter (mcReady s)).map mqOf

/-- The class of a VOQ or multicast queue. -/
def tcOfQueue (q : Nat) : Nat := if q < Config.voqs then q % 8 else q - mqOf 0
/-- The size of a queue's head packet for the order of R326. -/
def headSize (s : State) (q : Nat) : Nat :=
  match headOf s q with
  | some r => if q < Config.voqs then chargeOf (streamRef s (q / 384) r) else mcCharge r
  | none => 0

/-- Take the turn of R326 for a queue: none when another queue comes before it. -/
def takeTurn (q : Nat) (s : State) : Option State :=
  let l := senders s
  let of (tc : Nat) : Option Nat := nextAfter (tabGet s.que.rr tc 0) (l.filter fun v => tcOfQueue v == tc)
  let mark (tc : Nat) (t : Tab Nat) : Tab Nat := tabPut t tc q
  match of 7 with
  | some v => if v = q then some { s with que := { s.que with rr := mark 7 s.que.rr } } else none
  | none =>
    match drr (fun tc => (of tc).map (headSize s)) (quantumOf s) 2000 (tabGet s.que.rr 8 0) s.que.deficit with
    | none => none
    | some (tc, turn, d) =>
      if of tc = some q then some { s with que := { s.que with rr := tabPut (mark tc s.que.rr) 8 turn, deficit := d } } else none

/-! ## Delivery at the destination (R200, R307, R383) -/

/-- A packet reaches its port at the destination: through the member that an aggregator's hash chooses (R200, R307). -/
def deliverTo (p tc src hash : Nat) (r : Ref) (s : State) : State :=
  match aggOf s p with
  | none => egressEnqueue p tc src r s
  | some a =>
    let l := (membersOfAgg s a).filter fun m => rd s (lpS m) LpStatus.DISTRIBUTING == 1
    match l[hash % 65536 * l.length / 65536]? with
    | some m => egressEnqueue m tc src r s
    | none => endRef r (bump .lpCtr p 17 1 s)

/-- The reference of a rebuilt packet. -/
def rebuiltRef (i : Nat) (p : Packet) (tc prec : Nat) : Ref :=
  { pkt := i, lease := false, tc := tc, len := p.len, prec := prec, mirror := none, words := p.words, group := none,
    occ := false, page := none, qseq := 0, from_ := ownerNone }

/-- A packet of a unicast stream is complete: its charge is consumed, the billets beyond its own return to the pool, and it goes to its
egress queue (R377, R383). -/
def rebuilt (k : Nat) (p : Packet) (prec : Nat) (from_ : Option Nat) (s : State) : State :=
  let x := getDst s k
  let port := k % 384 / 8
  let c := cellsOf (streamLen p.len p.words) + 1
  let own := min c (asideOf x)
  let n := billetsOf p.len
  let s := setDst k { x with consumed := (x.consumed + c) % 2 ^ 32 } s
  let s := mapF s (grantKey port) PortGrant.OUTSTANDING (· - own)
  if own < n then bump .trCtr 0 3 1 (freeBillets x.pool own s)
  else
    let (i, s) := storeArrival { p with pool := x.pool } (freeBillets x.pool (own - n) s)
    let s := match from_ with
      | some m => followArrival m i s
      | none => s
    deliverTo port (k % 8) (k / 384) p.hash (rebuiltRef i p (k % 8) prec) s

/-- Read a packet from its record, its words and its frame (R370): the packet and its drop precedence. -/
def readPacket (b : Bytes) (len : Nat) : Packet × Nat :=
  let bits := ofBytes ((b.drop 2).take 1)
  let word (i : Nat) : Word :=
    if bits.testBit i then
      let before := ((List.range i).filter fun j => bits.testBit j).length
      BitVec.ofNat 64 (ofBytes ((b.drop (24 + 8 * before)).take 8))
    else 0
  let w := ((List.range 8).filter fun j => bits.testBit j).length
  ({ Packet.empty with
      len := len, arrival := ofTime96 (ofBytes ((b.drop 8).take 12)), words := (List.range 8).map word,
      hash := ofBytes ((b.drop 4).take 4), inject := (ofBytes ((b.drop 3).take 1)).testBit 1,
      content := contentOf ((b.drop (24 + 8 * w)).take len) }, ofBytes (b.take 2) / 2 ^ 14)

/-- The bytes before the frame of a record. -/
def headLen (b : Bytes) : Nat :=
  24 + 8 * ((List.range 8).filter fun j => (ofBytes ((b.drop 2).take 1)).testBit j).length

/-- The next packet that a stream's bytes complete: its length of stream, how long its frame is, and whether the rest of the cell is
padding; a pad record drops the rest (R371). `endOff` is that of the cell whose bytes came last. -/
inductive NextPacket where
  | wait
  | pad
  | packet (total len : Nat) (last : Bool)
  deriving DecidableEq, Repr

/-- See `NextPacket`. -/
def nextPacket (b : Bytes) (endOff : Nat) : NextPacket :=
  let len := ofBytes (b.take 2) % 2 ^ 14
  if b.length < 2 then .wait
  else if len = 0 then .pad
  else if b.length < 24 then .wait
  else if (ofBytes ((b.drop 3).take 1)).testBit 0 then
    let total := b.length + endOff - 240
    if endOff = 0 ∨ total < headLen b then .wait else .packet total (total - headLen b) true
  else if b.length < headLen b + len then .wait
  else .packet (headLen b + len) len false

/-- Rebuild the packets that a stream's bytes complete (R383). -/
def rebuildAll : Nat → Nat → Nat → State → State
  | 0, _, _, s => s
  | fuel + 1, k, endOff, s =>
    let x := getDst s k
    match nextPacket x.buf endOff with
    | .wait => s
    | .pad => setDst k { x with buf := [] } s
    | .packet total len last =>
      let (p, prec) := readPacket x.buf len
      let s := setDst k { x with buf := if last then [] else x.buf.drop total } s
      rebuildAll fuel k endOff (rebuilt k p prec none s)

/-- The next cell of a stream in order (R383, R384): a poisoned one discards the packets with bytes in it, and the stream resumes at the
next REC_OFF. -/
def feed (k : Nat) (h : HeldCell) (s : State) : State :=
  let x := getDst s k
  match h.bytes with
  | none =>
    let n := (if x.buf.isEmpty then 0 else 1) + (if h.recOff = 255 then 0 else 1)
    let s := setDst k { x with buf := [], synced := false } s
    if n = 0 then s else bump .trCtr 0 4 n s
  | some b =>
    let b := toBytes 240 b.toNat
    let kept := if x.buf.length < 24 ∧ h.recOff = 0 then [] else x.buf
    if x.synced then rebuildAll 128 k h.endOff (setDst k { x with buf := kept ++ b } s)
    else if h.recOff = 255 then s
    else rebuildAll 128 k h.endOff (setDst k { x with buf := b.drop h.recOff, synced := true } s)

/-- Apply CONSUMED and the backlog of a REQUEST or RETURN; the set-aside it gives up returns to the pool (R381). -/
def applyCredit (k spent backlog : Nat) (s : State) : State :=
  let x := getDst s k
  let y := { x with consumed := serialMax x.consumed spent, spent := spent, backlog := backlog }
  let n := asideOf x - asideOf y
  setDst k y (if n = 0 then s else releaseAside (k % 384 / 8) x.pool n s)

/-- The distance of a SEQ ahead of the next one expected: none for one that has passed (R368). -/
def seqAhead (expect seq : Nat) : Option Nat :=
  let d := (seq + 2 ^ 18 - expect) % 2 ^ 18
  if d < 2 ^ 17 then some d else none

/-- Apply the control messages whose cells have all arrived or been declared lost (R381). -/
def applyWaits (k : Nat) (s : State) : State :=
  let x := getDst s k
  let (now, later) := x.waits.partition fun w => seqAhead x.expect w.1 == some 0 || (seqAhead x.expect w.1).isNone
  forAll now (fun w s => applyCredit k w.2.1 w.2.2 s) (setDst k { x with waits := later } s)

/-- Take the cells that are in order. -/
def drain : Nat → Nat → State → State
  | 0, _, s => s
  | fuel + 1, k, s =>
    let x := getDst s k
    match x.held.find? fun h => h.seq == x.expect with
    | none => applyWaits k s
    | some h =>
      let s := setDst k { x with held := x.held.erase h, expect := (x.expect + 1) % 2 ^ 18,
                                 poisoned := x.poisoned.filter fun e => e.1 != h.seq } s
      drain fuel k (feed k h s)

/-- A gap in SEQ stands since it first shows: one that was filled, or that another follows, is timed anew (R383). -/
def noteGap (k : Nat) (old : DstStream) (s : State) : State :=
  let x := getDst s k
  if x.held.isEmpty ∨ (!old.held.isEmpty ∧ x.expect = old.expect) then s else setDst k { x with gapAt := ivl s } s

/-- A cell of a unicast stream arrives at its destination (R383, R384, R389, R390). -/
def reassemble (k : Nat) (c : Cell) (poisoned : Bool) (s : State) : State :=
  let x := getDst s k
  let seq := c.seq.toNat
  let two := k % 8 == 7 && flag s trK TrCtl.DUP_EN
  let hold (b : Option (BitVec 1920)) : HeldCell :=
    { seq := seq, recOff := c.recOff.toNat, endOff := c.endOff.toNat, bytes := b }
  let past := (seqAhead x.expect seq).isNone || x.held.any fun h => h.seq == seq
  let take (b : Option (BitVec 1920)) (s : State) : State :=
    let y := getDst s k
    noteGap k x (drain (y.held.length + 2) k (setDst k { y with held := y.held ++ [hold b] } s))
  if past then if k % 8 = 7 then bump .trCtr 0 9 1 s else s
  else if !poisoned then
    let s := if x.poisoned.any fun e => e.1 == seq then bump .trCtr 0 10 1 s else s
    take (some c.payload) s
  else if two && !x.poisoned.contains (seq, !c.copy) then
    setDst k { x with poisoned := (x.poisoned ++ [(seq, c.copy)]).dedup } s
  else take none s

/-! ## Multicast at a node (R385 to R388) -/

/-- The number of a multicast stream at its destination. -/
def mcKey (src tc : Nat) : Nat := 8 * src + tc
/-- The local ports of a group. -/
def localPorts (s : State) (g : Nat) : List Nat :=
  if s.fab.badGroups.contains g then [] else ports.filter fun p => (rdWord s (obj .lpMask g)).testBit (16 + p)

/-- An accepted copy goes to each local port, each a lease; the copy for the lowest-numbered queue is the named owner (R284, R387). The
standby of a mirror pair frees the copies of protected ports (R456). -/
def spreadLocal (src tc g prec : Nat) (p : Packet) (s : State) : State :=
  let (i, s) := storeArrival p s
  let r := rebuiltRef i p tc prec
  let all := localPorts s g
  let idle := all.filter fun port => silent s port && !twin s
  let s := if idle.isEmpty then s else bump .prCtr 8 0 idle.length s
  match all.filter fun port => !idle.contains port with
  | [] => endRef r (if all.isEmpty then bump .trCtr 8 0 1 s else s)
  | l =>
    let l := l.mergeSort fun a b => decide (classQueue s a tc src ≤ classQueue s b tc src)
    let s := forAll l.tail (fun port s =>
      match takeLease i s with
      | (some s, _) => deliverTo port tc src p.hash { r with lease := true } s
      | (none, s) => s) s
    deliverTo (l.headD 0) tc src p.hash r s

/-- Decide a copy at its destination: it is accepted when the set-aside covers its charge; CONSUMED grows either way (R387). Answers
whether it is accepted. -/
def decideCopy (k c : Nat) (s : State) : Bool × State :=
  let x := getMc s k
  let old := serialGap x.granted x.consumed
  let y := { x with consumed := (x.consumed + c) % 2 ^ 32 }
  let new := serialGap y.granted y.consumed
  if c ≤ old then (true, setMc k { y with taken := some c } s)
  else (false, bump .trCtr 0 5 1 (freeBillets x.pool (old - new) (setMc k { y with taken := none } s)))

/-- The packet in progress of a multicast stream ends without being rebuilt. -/
def dropCopy (k ctr : Nat) (s : State) : State :=
  let x := getMc s k
  let s := setMc k { x with buf := [], taken := none } s
  match x.taken with
  | some c => bump .trCtr 0 ctr 1 (freeBillets x.pool c s)
  | none => s

/-- A cell of a multicast copy arrives at a member (R387, R388). -/
def collectCopy (src tc : Nat) (c : Cell) (poisoned : Bool) (s : State) : State :=
  let k := mcKey src tc
  let x := getMc s k
  let seq := c.seq.toNat
  let starts := c.recOff == 0
  let follows := !x.buf.isEmpty && seq == (x.seq + 1) % 2 ^ 18 && !starts
  let s := if x.buf.isEmpty || follows then s else dropCopy k 3 s
  if poisoned then
    if follows then dropCopy k 4 s else if starts then bump .trCtr 0 4 1 s else s
  else if !follows && !starts then s
  else
    let b := toBytes 240 c.payload.toNat
    let s :=
      if starts then (decideCopy k (cellsOf (ofBytes (b.take 2) % 2 ^ 14 + headLen b)) s).2 else s
    let x := getMc s k
    match x.taken with
    | none => setMc k { x with buf := [], seq := seq } s
    | some aside =>
      let buf := if starts then b else x.buf ++ b
      match nextPacket buf c.endOff.toNat with
      | .packet _ len _ =>
        let (p, prec) := readPacket buf len
        let n := billetsOf len
        let s := setMc k { x with buf := [], taken := none, seq := seq } s
        if aside < n then bump .trCtr 0 3 1 (freeBillets x.pool aside s)
        else spreadLocal src tc c.dst.toNat prec { p with pool := x.pool } (freeBillets x.pool (aside - n) s)
      | _ => setMc k { x with buf := buf, seq := seq, group := c.dst.toNat } s

/-- The branches of a multicast cell at this node: dimension and coordinate of each (R385). -/
def branches (s : State) (src g : Nat) : List (Nat × Nat) :=
  let p := s.fab.plan
  let ds := dimsOf p
  let a := p.addr
  let mem := membersOf s g
  let dim (i : Nat) : Dim := (ds[i]?).getD ⟨0, 0, 0, 0⟩
  let last := ((List.range ds.length).filter fun i => coord (dim i) a != coord (dim i) src).foldl (fun _ i => i + 1) 0
  ((List.range ds.length).filter fun e => decide (last ≤ e)).flatMap fun e =>
    ((List.range (dim e).size).filter fun v => v != coord (dim e) a &&
      mem.any fun m => coord (dim e) m == v && (List.range e).all fun i => coord (dim i) m == coord (dim i) a).map fun v => (e, v)

/-- Send the copies of a multicast cell on its branches; a branch whose links are not UP is discarded and counted (R385). -/
def sendBranches (src : Nat) (c : FabCell) (s : State) : State :=
  let l := branches s src c.cell.dst.toNat
  let s := forAll l (fun b s =>
    match orderedTowards s b.1 b.2 with
    | some k => queueCell k c s
    | none => bump .trCtr 0 7 1 s) s
  let s := if l.length ≤ 1 then s else
    bump .rlCtr ((l.findSome? fun b => orderedTowards s b.1 b.2).getD 0) 2 (l.length - 1) s
  leaveSlot c.slot s

/-! ## Sending (R371, R377, R378, R385, R386, R389) -/

/-- Cut the bytes of a packet into cells: the content and REC_OFF of every full cell, and the cell that is left unfilled. -/
def cut : Nat → Ref → Nat → Nat → List Piece × Nat × Nat → List (List Piece × Nat) × (List Piece × Nat × Nat)
  | 0, _, _, _, cell => ([], cell)
  | fuel + 1, r, off, rest, (ps, ro, fill) =>
    if rest = 0 then ([], (ps, ro, fill))
    else
      let ro := if off = 0 ∧ ro = 255 then fill else ro
      let n := min (240 - fill) rest
      let ps := ps ++ [⟨r, off, n⟩]
      if fill + n = 240 then
        let (l, c) := cut fuel r (off + n) (rest - n) ([], 255, 0)
        ((ps, ro) :: l, c)
      else ([], (ps, ro, fill + n))

/-- A cell that this node cuts (R368). -/
def ownCell (s : State) (type tc dst port seq ro : Nat) (copy : Bool) (ps : List Piece) : FabCell :=
  { cell := { type := BitVec.ofNat 2 type, hops := 0, derouted := 0, tc := BitVec.ofNat 3 tc, copy := copy,
              src := BitVec.ofNat 12 (me s), dst := BitVec.ofNat 16 dst, port := BitVec.ofNat 6 port, seq := BitVec.ofNat 18 seq,
              recOff := BitVec.ofNat 8 ro, endOff := 0, credVc := 0, credN := 0, hcrcOk := true, poison := false, crcOk := true,
              fecBad := false, fecCor := 0, payload := 0 },
    pieces := ps, slot := none, waited := false }

/-- Send cells of a VOQ, each twice for a duplicated class, under the same SEQ (R389). -/
def sendCells (q : Nat) (twice : Bool) (l : List (List Piece × Nat)) (s : State) : State :=
  forAll l (fun e s =>
    let x := getSrc s q
    let c (copy : Bool) : FabCell := ownCell s 0 (q % 8) (q / 384) (q % 384 / 8) x.seq e.2 copy e.1
    let s := setSrc q { x with seq := (x.seq + 1) % 2 ^ 18 } s
    let s := routeCell (c false) s
    if twice then routeCell (c true) s else s) s

/-- Close the cell that a stream is filling with a pad record and send it (R371). -/
def closeCell (q : Nat) (twice : Bool) (s : State) : State :=
  let x := getSrc s q
  if x.fill = 0 then s
  else sendCells q twice [(x.pieces, x.recOff)] (setSrc q { x with pieces := [], recOff := 255, fill := 0 } s)

/-- The bytes of an open packet's stream that have come when it starts: its record, its words and the 256 B of R185 (the model's choice of how
far the arrival has got, log entry 83). -/
def openLen (r : Ref) : Nat := streamLen 256 r.words

/-- The end of an open packet has come (R371, R376): the rest of it goes out, its last cell marked with END_OFF and the rest of that cell
padded; when the frame turned bad that cell is poisoned. -/
def closeOpen (q : Nat) (r : Ref) (done : Nat) (s : State) : State :=
  let x := getSrc s q
  let p := (getPkt s r.pkt).getD Packet.empty
  let twice := q % 8 == 7 && flag s trK TrCtl.DUP_EN
  let rest := streamLen p.len r.words - done
  let (full, (ps, ro, fill)) := cut 64 r done rest (x.pieces, x.recOff, x.fill)
  let s := setSrc q { x with pieces := [], recOff := 255, fill := 0, open_ := none } s
  let (full, last) := if fill = 0 then (full.dropLast, full.getLast?) else (full, some (ps, ro))
  let s := sendCells q twice full s
  let s := match last with
    | none => s
    | some e =>
      let c (copy : Bool) : FabCell :=
        let c := ownCell s 0 (q % 8) (q / 384) (q % 384 / 8) (getSrc s q).seq e.2 copy e.1
        { c with cell := { c.cell with endOff := BitVec.ofNat 8 (if fill = 0 then 240 else fill), poison := p.bad } }
      let y := getSrc s q
      let s := routeCell (c false) (setSrc q { y with seq := (y.seq + 1) % 2 ^ 18 } s)
      if twice then routeCell (c true) s else s
  endRef r s

/-- The packet that this node rebuilds from its own stream. -/
def ownPacket (p : Packet) (r : Ref) : Packet :=
  { Packet.empty with len := frameLen r, arrival := p.arrival, words := r.words, hash := p.hash, inject := p.inject,
                      copied := r.mirror.isSome, content := p.content }

/-- A packet received on a protected port leaves a queue: a dequeue record of twin mode (R460). -/
def noteDequeue (q : Nat) (p : Packet) (r : Ref) (s : State) : State :=
  if protPort s p.arrPort then twinRecord (.dequeue q (BitVec.ofNat 16 r.qseq)) s else s

/-- Send the head packet of a VOQ: bad frames are dropped here (R184); a packet for the own node goes over the loop-back port; any other is
cut into cells, the last of which is closed when no further packet may go at once. Of an open packet the cells that its first bytes fill go, and
its stream waits for its end (R371). -/
def sendHead (q : Nat) (s : State) : State :=
  match popHead q s with
  | none => s
  | some (r, s) =>
    match getPkt s r.pkt with
    | none => s
    | some p =>
      let s := noteDequeue q p r (leaveOcc r s)
      if p.bad then endRef r s
      else
        let x := getSrc s q
        let isOpen := q / 384 != me s && isArriving s r.pkt
        let r := streamRef s (q / 384) r
        let s := setSrc q { x with spent := (x.spent + chargeOf r) % 2 ^ 32 } s
        if q / 384 = me s then rebuilt q (ownPacket p r) r.prec (some r.pkt) (endRef r s)
        else
          let x := getSrc s q
          let n := if isOpen then openLen r else streamLen (frameLen r) r.words
          let (full, (ps, ro, fill)) := cut 64 r 0 n (x.pieces, x.recOff, x.fill)
          let s := setSrc q { x with pieces := ps, recOff := ro, fill := fill, open_ := if isOpen then some (r, n) else none } s
          let want := q % 8 == 7 && flag s trK TrCtl.DUP_EN
          let (twice, s) := if want then
              match takeLease r.pkt s with
              | (some s, _) => (true, endLeaseOn r.pkt s)
              | (none, s) => (false, s)
            else (false, s)
          let s := sendCells q twice full s
          if isOpen then s else endRef r (if maySend s q then s else closeCell q twice s)

/-- VOQ_SEND (R326, R371, R378): the VOQ of a stream sends its head packet when it may and its turn has come; a stream with an open packet
sends the rest of it once its end has arrived, and nothing before. -/
def execVoqSend (st : StreamId) (s : State) : Answer :=
  .next (match st.port with
    | none => s
    | some p =>
      let q := voqOf st.node.val p.val st.tc.val
      match (getSrc s q).open_ with
      | some (r, n) => if isArriving s r.pkt then s else closeOpen q r n s
      | none =>
      if maySend s q then
        match takeTurn q s with
        | some s => sendHead q s
        | none => s
      else s)

/-- Send the head of a multicast queue: each packet begins a new cell (R385, R386). -/
def sendMulticast (tc : Nat) (s : State) : State :=
  match popHead (mqOf tc) s with
  | none => s
  | some (r, s) =>
    match getPkt s r.pkt with
    | none => s
    | some p =>
      let s := noteDequeue (mqOf tc) p r (leaveOcc r s)
      if p.bad then endRef r s
      else
        let g := r.group.getD 0
        let c := mcCharge r
        let to_ := reachableMembers s g
        let s := forAll to_ (fun n s =>
          let x := getMs s (8 * n + tc)
          setMs (8 * n + tc) { x with spent := (x.spent + c) % 2 ^ 32, synced := false } s) s
        let (full, (ps, ro, fill)) := cut 64 r 0 (streamLen (frameLen r) r.words) ([], 255, 0)
        let cells := full ++ if fill = 0 then [] else [(ps, ro)]
        let s := forAll cells (fun e s =>
          let seq := tabGet s.fab.mcSeq tc 0
          let s := { s with fab := { s.fab with mcSeq := tabPut s.fab.mcSeq tc ((seq + 1) % 2 ^ 18) } }
          sendBranches (me s) (ownCell s 1 tc g 0 seq e.2 false e.1) s) s
        let s :=
          if (membersOf s g).contains (me s) then
            let k := mcKey (me s) tc
            let (yes, s) := decideCopy k c s
            let x := getMc s k
            let n := billetsOf (frameLen r)
            if !yes then s
            else
              let s := setMc k { x with taken := none } s
              if c < n then bump .trCtr 0 3 1 (freeBillets x.pool c s)
              else spreadLocal (me s) tc g r.prec { ownPacket p r with pool := x.pool } (freeBillets x.pool (c - n) s)
          else s
        endRef r s

/-- MULTICAST_SEND (R326, R386). -/
def execMulticastSend (tc : Fin 8) (s : State) : Answer :=
  .next (if mcReady s tc.val && !inSafe s then
      match takeTurn (mqOf tc.val) s with
      | some s => sendMulticast tc.val s
      | none => s
    else s)

/-- COPY_TIMEOUT (R386): after COPY_TMO a head that is not lossless is sent although a member lacks balance, and counted. -/
def execCopyTimeout (tc : Fin 8) (s : State) : Answer :=
  .next (match headOf s (mqOf tc.val) with
    | none => s
    | some r =>
      if isArriving s r.pkt || mcReady s tc.val || lossless s tc.val || inSafe s then s
      else
        let s := reachIvl ((getQ s (mqOf tc.val)).headAt + rd s trK TrCtl.COPY_TMO * 65536000) s
        sendMulticast tc.val (bump .trCtr 0 6 1 s))

/-! ## Cells on links (R369, R372 to R376, R394) -/

/-- Whether a sender holds a credit of a virtual channel: 16 slots of its own and 400 shared (R372). -/
def hasCredit (x : Fl) (vc : Nat) : Bool :=
  let n := tabGet x.spent vc 0
  decide (n < 16) || decide (((x.spent.filter fun e => e.1 != 7).map fun e => e.2 - 16).sum < 400)

/-- Credits that the peer returns. -/
def creditBack (k vc n : Nat) (s : State) : State :=
  let x := getFl s k
  setFl s k { x with spent := tabSet x.spent vc (tabGet x.spent vc 0 - n) 0 }

/-- CREDIT_WORD (R373): the credits of every virtual channel. -/
def execCreditWord (k : Fin 64) (credits : List Nat) (s : State) : Answer :=
  .next (if linkState s k.val = lsUp then
      forAll ((List.range 7).zip credits) (fun e s => creditBack k.val e.1 e.2 s) s
    else s)

/-- The cell that a link sends next: the first of its virtual channel whose channel has a credit (R374). -/
def nextCell (x : Fl) : Option FabCell :=
  x.cells.find? fun c => hasCredit x (vcOf c.cell) &&
    ((x.cells.find? fun d => vcOf d.cell == vcOf c.cell) == some c)

/-- Credits that a cell carries back: those of the lowest channel with any (R373). -/
def carryCredits (k : Nat) (c : Cell) (s : State) : Cell × State :=
  let x := getFl s k
  match x.freed with
  | [] => (c, s)
  | (vc, n) :: rest =>
    let m := min n 31
    ({ c with credVc := BitVec.ofNat 3 vc, credN := BitVec.ofNat 5 m },
      setFl s k { x with freed := if n = m then rest else (vc, n - m) :: rest })

/-- CELL_FORWARD (R374): a cell leaves on its link once its virtual channel has a credit; one that finds none is counted as waiting. -/
def execCellForward (k : Fin 64) (s : State) : Answer :=
  let k := k.val
  let x := getFl s k
  .next (if linkState s k ≠ lsUp then s
    else
      match nextCell x with
      | none =>
        match x.cells with
        | c :: rest =>
          if c.waited then s
          else bump .rlCtr k 3 1 (setFl s k { x with cells := { c with waited := true } :: rest })
        | [] => s
      | some c =>
        let vc := vcOf c.cell
        let s := setFl s k { x with cells := x.cells.erase c, spent := tabPut x.spent vc (tabGet x.spent vc 0 + 1) }
        let (cell, s) := carryCredits k c.cell s
        let s := bump .flCtr k 0 1 (emit s (.cell k cell c.pieces))
        let s := if c.slot.isSome then bump .rlCtr k 0 1 s else s
        returnCredits k (leaveSlot c.slot s))

/-- Errors of a link within 1 ms: the sixteenth quarantines it (R356). -/
def linkError (k : Nat) (fec : Bool) (s : State) : State :=
  let x := getFl s k
  let l := s.clock :: recent s (if fec then x.fecAt else x.crcAt) ms
  let s := setFl s k (if fec then { x with fecAt := l } else { x with crcAt := l })
  let s := bump .flCtr k (if fec then 3 else 4) 1 s
  if 16 ≤ l.length ∧ linkState s k = lsUp then moveLink k lsQuar (if fec then 2 else 3) s else s

/-- Whether a header passes the checks of R369. -/
def cellHeaderOk (c : Cell) : Bool :=
  c.hcrcOk && c.type != 3 && decide (c.hops.toNat ≤ 5) &&
    (c.type == 1 || decide (c.dst.toNat < 4096)) && (c.type != 0 || decide (c.port.toNat < 48))

/-- The state of a stream cannot be read: the cells it holds are declared lost, and R381 settles its credit (R394). -/
def streamBad (q : Nat) (s : State) : State :=
  let x := getDst s q
  let s := raiseAt 0x50 4 7 trK s
  if x.held.isEmpty then s
  else
    let n := inHand x
    let top := (x.held.filterMap fun h => seqAhead x.expect h.seq).foldl max 0
    let s := setDst q { x with held := [], poisoned := [], buf := [], synced := false, expect := (x.expect + top + 1) % 2 ^ 18 } s
    applyWaits q (bump .trCtr 0 3 n (bump .trCtr 0 2 x.held.length s))

/-- The tables of a group cannot be read: it reads as empty until it is written again (R394). -/
def groupBad (g : Nat) (s : State) : State :=
  raiseAt 0x50 5 8 (obj .lpMask g) { s with fab := { s.fab with badGroups := (s.fab.badGroups ++ [g]).dedup } }

/-- The faults that a cell meets in this device, with their messages; answers whether it is poisoned here (R394). -/
def cellFault (k : Nat) (c : Cell) (f : CellFault) (s : State) : Bool × State :=
  match f with
  | .slot => (true, raiseAt 0x51 0 1 (flKey k) s)
  | .crossbar => (true, raiseAt 0x51 1 2 (flKey k) s)
  | .stream =>
    (false, if c.type ≠ 0 ∨ c.dst.toNat ≠ me s then raiseAt 0x50 4 7 trK s
      else streamBad (voqOf c.src.toNat c.port.toNat c.tc.toNat) s)
  | .group => (false, if c.type = 1 then groupBad c.dst.toNat s else s)
  | .none => (false, s)

/-- CELL_RECEIVE (R369, R373, R376, R383, R385). The messages of a control cell for this node have commands of their own. -/
def execCellReceive (k : Fin 64) (cell : Cell) (fault : CellFault) (s : State) : Answer :=
  let k := k.val
  .next (if linkState s k ≠ lsUp then s
    else
      let s := bump .flCtr k 1 1 s
      let s := if cell.fecBad then linkError k true s else s
      let s := if cell.fecCor = 0 then s else bump .flCtr k 2 cell.fecCor s
      if !cellHeaderOk cell then
        linkError k false (freeSlot k (vcOf cell) s)
      else
        let s := creditBack k cell.credVc.toNat cell.credN.toNat s
        let s := if cell.crcOk then s else linkError k false s
        let (bad, s) := cellFault k cell fault s
        let poisoned := cell.poison || !cell.crcOk || bad
        let vc := vcOf cell
        let id := s.fab.cellNo
        let s := { s with fab := { s.fab with cellNo := id + 1 } }
        let on : FabCell :=
          { cell := { cell with hops := cell.hops + 1, poison := poisoned, crcOk := true, fecBad := false, fecCor := 0, credVc := 0, credN := 0 },
            pieces := [], slot := some (k, vc, id), waited := false }
        let here := cell.dst.toNat = me s
        let marked (s : State) : State := if poisoned && !cell.poison then bump .rlCtr k 1 1 s else s
        if cell.type = 1 then
          let s := sendBranches cell.src.toNat on (marked s)
          if (membersOf s cell.dst.toNat).contains (me s) then collectCopy cell.src.toNat cell.tc.toNat cell poisoned s else s
        else if !here then routeCell on (marked s)
        else if cell.type = 2 then freeSlot k vc s
        else reassemble (voqOf cell.src.toNat cell.port.toNat cell.tc.toNat) cell poisoned (freeSlot k vc s))

/-- REORDER_TIMEOUT (R383): after REORDER_TMO the cells missing before the first one held are lost, with the packet that has bytes in them. -/
def execReorderTimeout (st : StreamId) (s : State) : Answer :=
  .next (match st.port with
    | none => s
    | some p =>
      let k := voqOf st.node.val p.val st.tc.val
      let x := getDst s k
      match (x.held.filterMap fun h => seqAhead x.expect h.seq).min? with
      | none => s
      | some d =>
        let s := reachIvl (x.gapAt + rd s trK TrCtl.REORDER_TMO * 65536000) s
        let s := setDst k { x with expect := (x.expect + d) % 2 ^ 18, buf := [], synced := false,
                                   poisoned := x.poisoned.filter fun e => (seqAhead ((x.expect + d) % 2 ^ 18) e.1).isSome } s
        noteGap k x (drain (x.held.length + 1) k (bump .trCtr 0 3 1 (bump .trCtr 0 2 d s))))

/-! ## Control messages (R378 to R382, R386, R388, R391) -/

/-- Send a control message by the ordered route: kind, then its fields. Answers whether a way exists. -/
def sendControl (n kind : Nat) (args : List Nat) (s : State) : Bool × State :=
  match orderedLink s n with
  | some k => (true, emit s (.control k n kind (args ++ [s.fab.inc, tabGet s.fab.incs n 0])))
  | none => (false, s)

/-- Whether a message is accepted: its PEER_INC is this node's INC, or 0 where that is allowed; a port of the table (R382, R391). An
accepted one teaches its sender's INC. -/
def accepts (m : CreditMsg) (zeroOk : Bool) (s : State) : Option State :=
  let own := m.peer.toNat = me s
  if own then some s
  else if (m.peerInc.toNat ≠ s.fab.inc ∧ !(zeroOk && m.peerInc == 0)) ∨ (48 ≤ m.port.toNat ∧ m.port ≠ 255) then none
  else some (learnInc m.peer.toNat m.inc.toNat s)

/-- A message that is not accepted is counted. -/
def discardMsg (s : State) : State := bump .trCtr 0 11 1 s

/-- A REQUEST or RETURN at the destination: at once when its cells are all accounted for, else it waits for them (R381). -/
def creditNote (peer tc port spent backlog next : Nat) (s : State) : State :=
  if port = 255 then
    let k := mcKey peer tc
    setMc k { getMc s k with backlog := backlog, spent := spent } s
  else
    let k := voqOf peer port tc
    let x := getDst s k
    match seqAhead x.expect next with
    | some 0 => applyCredit k spent backlog s
    | none => applyCredit k spent backlog s
    | some _ => setDst k { x with waits := x.waits ++ [(next, spent, backlog)] } s

/-- REQUEST_RECEIVE (R381, R382). -/
def execRequestReceive (m : CreditMsg) (s : State) : Answer :=
  .next (match accepts m true s with
    | some s => creditNote m.peer.toNat m.tc.val m.port.toNat m.value.toNat m.backlog m.nextSeq.toNat s
    | none => discardMsg s)

/-- RETURN_RECEIVE (R381): the balance is given up. -/
def execReturnReceive (m : CreditMsg) (s : State) : Answer :=
  .next (match accepts m true s with
    | some s => creditNote m.peer.toNat m.tc.val m.port.toNat m.value.toNat 0 m.nextSeq.toNat s
    | none => discardMsg s)

/-- A source keeps the greater GRANTED (R381). -/
def takeGrant (peer tc port granted : Nat) (s : State) : State :=
  if port = 255 then
    let k := 8 * peer + tc
    let x := getMs s k
    setMs k { x with granted := serialMax x.granted granted } s
  else
    let q := voqOf peer port tc
    let x := getSrc s q
    setSrc q { x with granted := serialMax x.granted granted } s

/-- GRANT_RECEIVE (R381). -/
def execGrantReceive (m : CreditMsg) (s : State) : Answer :=
  .next (match accepts m false s with
    | some s => takeGrant m.peer.toNat m.tc.val m.port.toNat m.value.toNat s
    | none => discardMsg s)

/-- SYNC_RECEIVE (R388): CONSUMED becomes SENT. -/
def takeSync (peer tc sent : Nat) (s : State) : State :=
  let k := mcKey peer tc
  let x := getMc s k
  let y := { x with consumed := sent % 2 ^ 32 }
  setMc k y (freeBillets x.pool (serialGap x.granted x.consumed - serialGap y.granted y.consumed) s)

/-- See `takeSync`. -/
def execSyncReceive (m : CreditMsg) (s : State) : Answer :=
  .next (match accepts m false s with
    | some s => takeSync m.peer.toNat m.tc.val m.value.toNat s
    | none => discardMsg s)

/-- The backlog of a stream in billets: the charges of the packets that wait (R378); a standby asks for no credit for packets received
on protected ports (R456). -/
def backlogOf (s : State) (q : Nat) (f : Ref → Nat) : Nat :=
  let x := getQ s q
  let here := (x.head ++ x.tail).map fun r =>
    match getPkt s r.pkt with
    | some p => if silent s p.arrPort then 0 else f r
    | none => f r
  let away := (x.pages.flatMap Page.imgs).map fun i => if silent s i.pkt.arrPort then 0 else f i.ref
  here.sum + away.sum

/-- REQUEST_SEND (R378): a VOQ whose packets exceed its balance asks for credit, again when its backlog changes, at most once per µs; a
multicast queue asks each member for its head's group. -/
def execRequestSend (st : StreamId) (s : State) : Answer :=
  let n := st.node.val
  let tc := st.tc.val
  let due (x : SrcStream) (log : Nat) : Bool :=
    match x.reqAt with
    | none => true
    | some t => x.reqLog != log && !within s t 1000
  .next (match st.port with
    | some p =>
      let q := voqOf n p.val tc
      let x := getSrc s q
      let log := backlogOf s q chargeOf
      if log ≤ balance x ∨ !due x log then s
      else
        let s' := setSrc q { x with reqAt := some s.clock, reqLog := log } s
        if n = me s then creditNote n tc p.val x.spent log x.seq (bump .trCtr 0 0 1 s')
        else
          match sendControl n 1 [tc, p.val, min log (2 ^ 32 - 1), x.spent, x.seq] s' with
          | (true, s) => bump .trCtr 0 0 1 s
          | (false, _) => s
    | none =>
      let x := getMs s (8 * n + tc)
      let log := backlogOf s (mqOf tc) fun r => if (membersOf s (r.group.getD 0)).contains n then mcCharge r else 0
      if log ≤ balance x ∨ !due x log then s
      else
        let s' := setMs (8 * n + tc) { x with reqAt := some s.clock, reqLog := log } s
        if n = me s then creditNote n tc 255 x.spent log 0 (bump .trCtr 0 0 1 s')
        else
          match sendControl n 1 [tc, 255, min log (2 ^ 32 - 1), x.spent, tabGet s.fab.mcSeq tc 0] s' with
          | (true, s) => bump .trCtr 0 0 1 s
          | (false, _) => s)

/-- CREDIT_KEEP_EXPIRE (R380). -/
def execCreditKeepExpire (st : StreamId) (s : State) : Answer :=
  let n := st.node.val
  let tc := st.tc.val
  .next (match st.port with
    | none => s
    | some p =>
      let q := voqOf n p.val tc
      let x := getSrc s q
      if depth (getQ s q) ≠ 0 ∨ balance x = 0 ∨ x.open_.isSome then s
      else
        let s := reachIvl ((getQ s q).emptyAt + rd s trK TrCtl.CREDIT_KEEP * 65536000) s
        let s := closeCell q (tc == 7 && flag s trK TrCtl.DUP_EN) s
        let x := getSrc s q
        let s := setSrc q { x with spent := x.granted } s
        if n = me s then creditNote n tc p.val x.granted 0 x.seq s
        else (sendControl n 3 [tc, p.val, x.granted, x.seq] s).2)

/-- SYNC_SEND (R388): MC_SYNC after the last one, where multicast has gone since. -/
def execSyncSend (n : Fin 4096) (tc : Fin 8) (s : State) : Answer :=
  let k := 8 * n.val + tc.val
  let x := getMs s k
  .next (if x.synced then s
    else
      let s := due (x.syncAt + rd s trK TrCtl.MC_SYNC * ms) s
      let s' := setMs k { x with synced := true, syncAt := s.clock } s
      if n.val = me s then takeSync n.val tc.val x.spent s'
      else
        match sendControl n.val 4 [tc.val, x.spent] s' with
        | (true, s) => s
        | (false, _) => s)

/-! ## Grants (R379, R386) -/

/-- The largest grant that a stream of a port may have (R379): within GRANT_WIN, PORT_GRANT, the LIMIT of a lossless class's egress queue,
the backlog beyond the balance, and what the pool may draw; at most 256 billets. -/
def grantSize (s : State) (k : Nat) : Nat :=
  let x := getDst s k
  let p := k % 384 / 8
  let tc := k % 8
  let a := asideOf x
  let out := rd s (grantKey p) PortGrant.OUTSTANDING
  let e := classQueue s p tc (k / 384)
  let queue := egressNo e
  let forQueue := ((s.fab.dst.filter fun d => d.1 % 384 / 8 == p && d.1 % 8 == tc && classQueue s p tc (d.1 / 384) == e).map
    fun d => asideOf d.2).sum
  let room := rd s (admOf s queue) AdmProf.LIMIT - (depth (getQ s queue) + forQueue)
  let win := rd s trK TrCtl.GRANT_WIN - a
  let port := rd s (grantKey p) PortGrant.PORT_GRANT - out
  let log := x.backlog - serialGap x.granted x.spent
  let n := min 256 (min win (min port (min log (mayDraw s (if a = 0 then egressPool s p tc else x.pool)))))
  if lossless s tc then min n room else n

/-- Record a grant and tell the source. -/
def giveGrant (k n : Nat) (s : State) : State :=
  let x := getDst s k
  let p := k % 384 / 8
  let tc := k % 8
  let pool := if asideOf x = 0 then egressPool s p tc else x.pool
  match drawBillets pool n s with
  | none => s
  | some s =>
    let g := (x.granted + n) % 2 ^ 32
    let s := setDst k { x with granted := g, pool := pool } s
    let s := bump .trCtr 0 1 1 (mapF s (grantKey p) PortGrant.OUTSTANDING (· + n))
    if k / 384 = me s then takeGrant (k / 384) tc p g s else (sendControl (k / 384) 2 [tc, p, g] s).2

/-- The order of grants of a port (R379): TC7, then TC0 to TC6 by deficit round robin, sources of one class in round robin; none when
another stream of the port comes first. -/
def grantTurn (k : Nat) (s : State) : Option State :=
  let p := k % 384 / 8
  let base := 32 * p
  let cands := (s.fab.dst.map Prod.fst).filter fun d => d % 384 / 8 == p && grantSize s d != 0
  let of (tc : Nat) : Option Nat := nextAfter (tabGet s.fab.grantRr (base + tc) 0) (cands.filter fun d => d % 8 == tc)
  let t := tabPut s.fab.grantRr (base + k % 8) k
  match of 7 with
  | some v => if v = k then some { s with fab := { s.fab with grantRr := t } } else none
  | none =>
    let d := (List.range 7).map fun tc => (tc, tabGet s.fab.grantRr (base + 16 + tc) 0)
    match drr (fun tc => (of tc).map (grantSize s)) (quantumOf s) 2000 (tabGet s.fab.grantRr (base + 8) 0) d with
    | none => none
    | some (tc, turn, d) =>
      if of tc = some k then
        let t := (List.range 7).foldl (fun t tc => tabSet t (base + 16 + tc) (tabGet d tc 0) 0) (tabPut t (base + 8) turn)
        some { s with fab := { s.fab with grantRr := t } }
      else none

/-- The grant of a source's multicast in a class: at most GRANT_WIN set aside, from MC_POOL; a debt is repaid first (R386, R387). -/
def grantMulticast (src tc : Nat) (s : State) : State :=
  let k := mcKey src tc
  let x := getMc s k
  let a := serialGap x.granted x.consumed
  let debt := serialGap x.consumed x.granted
  let pool := if a = 0 then bitsAt (rdWord s trK) (31 + 4 * tc) 4 else x.pool
  let log := x.backlog - serialGap x.granted x.spent
  let n := min 256 (min (rd s trK TrCtl.GRANT_WIN - a) (min log (mayDraw s pool)))
  if n = 0 then s
  else
    match drawBillets pool (n - debt) s with
    | none => s
    | some s =>
      let g := (x.granted + n) % 2 ^ 32
      let s := bump .trCtr 0 1 1 (setMc k { x with granted := g, pool := pool } s)
      if src = me s then takeGrant src tc 255 g s else (sendControl src 2 [tc, 255, g] s).2

/-- GRANT (R379, R386): the destination grants a stream credit. -/
def execGrant (st : StreamId) (s : State) : Answer :=
  .next (match st.port with
    | none => grantMulticast st.node.val st.tc.val s
    | some p =>
      let k := voqOf st.node.val p.val st.tc.val
      let n := grantSize s k
      if n = 0 then s
      else
        match grantTurn k s with
        | some s => giveGrant k n s
        | none => s)

end Sys2Proof.Machine
end

