-- ==== Sys2Proof/WellFormed.lean ====
section
/-! DEFINITION. Which commands are well formed: an operand that a Lean type leaves too wide lies within what its rule
names. Every other operand is well formed by its type. -/
namespace Sys2Proof

/-- Why a command is ill formed. -/
inductive Illformed where
  /-- A management frame with more than two tags: check 3 of R36 tells none, one and more than one. -/
  | tags
  /-- A value wider than the field or object it goes into (R70, R442). -/
  | width
  /-- Data beyond the window it is written to (R115, R174). -/
  | window
  /-- More PFC quanta than classes (R184). -/
  | quanta
  /-- A queue number that R273 does not give. -/
  | queue
  /-- PARAMS of a KEY_SLOT_WRITE of the other CLASS (R253, R254). -/
  | keyClass
  /-- An HBM address that is no 64 B line of the stack (R395). -/
  | hbmLine
  deriving DecidableEq, Repr

/-- The bytes of an HBM stack: HF0 and HF1 hold 16 GB, HQ0 to HQ3 hold 24 GB (R395). -/
def hbmBytes (st : Nat) : Nat := if st < 2 then 16 * 2 ^ 30 else 24 * 2 ^ 30

/-- One check: the reason when it fails. -/
def check (ok : Bool) (why : Illformed) : Option Illformed := if ok then none else some why

/-- Whether the parts of an image fit its window (R100, R158). -/
def partsOk (n : Nat) (l : Option (List Nat)) : Bool :=
  match l with
  | some l => decide (l.length ≤ n) && l.all fun x => decide (x < 2 ^ 2048)
  | none => true

/-- What is ill formed about a command, none where it is well formed. -/
def Instr.illformed : Instr → Option Illformed
  | .jutosFrameReceive _ f => check (decide (f.vids.length ≤ 2)) .tags
  | .objModify _ _ _ _ _ mask value => check (decide (mask < 2 ^ 512 ∧ value < 2 ^ 512)) .width
  | .imageSlotDataWrite _ _ off data => check (decide (off + data.length ≤ 0x24200)) .window
  | .patWindowWrite _ off data => check (decide (off + data.length ≤ 2 * 0x1000000)) .window
  | .frameReceive _ _ f => check (decide (f.content.quanta.length ≤ 8)) .quanta
  | .pageWriteComplete q => check (decide (q < 1835008)) .queue
  | .pageFlush q => check (decide (q < 1835008)) .queue
  | .pageReturnStart q => check (decide (q < 1835008)) .queue
  | .pageReturnComplete q _ => check (decide (q < 1835008)) .queue
  | .pageReadTimeout q => check (decide (q < 1835008)) .queue
  | .keySlotWriteSa _ p => check (decide (p.cls ≠ 2)) .keyClass
  | .hbmRequest st r => check (decide (r.addr % 64 = 0 ∧ r.addr < hbmBytes st.val)) .hbmLine
  | .updateVerifyComplete b => check (partsOk 578 b.image && partsOk 49160 b.rules) .window
  | .todReceive m => check (decide (m.seconds < 2 ^ 48)) .width
  | .yokeBlockReceive _ b => check (match b.load with
      | .records l => l.all fun r => match r with
        | .dequeue q _ => decide (q < 1835008)
        | _ => true
      | _ => true) .queue
  | .reassemblyTimeout .. | .openRequest .. | .firstCommandTimeout .. | .idleTimeout .. | .commandBlockTimeout ..
  | .sessionClose .. | .objRead .. | .objWrite .. | .operatorKeyProgram .. | .operatorKeyRevoke ..
  | .fuseWriteComplete | .inject .. | .puntTransmit | .eventFrameTimeout .. | .flitReceive ..
  | .bridgeRetrainComplete .. | .bridgeRetrainRetry .. | .dispatch .. | .add .. | .sub .. | .and .. | .or ..
  | .xor .. | .shl .. | .shr .. | .movB .. | .cmp .. | .min .. | .max .. | .hash .. | .fieldExtract ..
  | .fieldInsert .. | .lookupLpm .. | .lookupExm .. | .lookupPat .. | .waitLookup .. | .waitFlagT .. | .waitTime ..
  | .setDestination .. | .setMeterIndex .. | .drop .. | .punt .. | .mirror .. | .setEcmpHash .. | .writeInterPass ..
  | .nop .. | .lookupAccept .. | .lookupResult .. | .passWatchdog .. | .signedSweep .. | .imageSlotVerify ..
  | .imageVerifyComplete .. | .imageSlotErase .. | .patchGo .. | .patchSwitch .. | .loadGo .. | .reloadStart ..
  | .reloadDrain .. | .reloadDrained .. | .reloadLoaded .. | .reloadResume .. | .reloadAbandon .. | .clusterPark ..
  | .clusterReturn .. | .tableInsert .. | .tableDelete .. | .tableChangeTurn | .tableCommit .. | .commitBuildDone
  | .epochSwitch | .epochRetire | .tableRead .. | .bulkLoad .. | .tableCreate .. | .tableRemove ..
  | .leafReadIssue .. | .leafReadComplete .. | .leafReadTimeout .. | .entryRebuildComplete .. | .patSwap ..
  | .patVerifyComplete .. | .patBankSwitch | .patDrainEnd | .patErase .. | .billetFetchIssue ..
  | .billetFetchComplete .. | .fetchTimeout .. | .shadowSweep .. | .pfcPauseExpire .. | .frameTransmit ..
  | .linkUp .. | .linkDown .. | .flapHoldExpire .. | .portAdminUp .. | .portAdminDown .. | .modulePoll ..
  | .identityReadComplete .. | .twbTimeout .. | .twbRecovery .. | .moduleAccessGo .. | .moduleAccessComplete ..
  | .bfdPacketReceive .. | .bfdTransmit .. | .bfdDetectExpire .. | .lacpduReceive .. | .markerPduReceive ..
  | .lacpPeriodic .. | .lacpTimeout .. | .otuFrameReceive .. | .gfpFrameReceive .. | .defectDeclare ..
  | .defectClear .. | .csfTransmit .. | .pageSwap .. | .pageCheckComplete | .pageSwitch | .pageTake .. | .pageSwapEnd
  | .pageCopy .. | .protectionSwitch .. | .wtrExpire .. | .forceToProtection .. | .lockoutOfProtection ..
  | .keySlotWriteCak .. | .keySlotErase .. | .slotDrainEnd .. | .drbgSeedComplete ..
  | .drbgReseed .. | .drbgRetry .. | .mkpduReceive .. | .mkaHello .. | .caLost .. | .sakRetireTimeout ..
  | .mkaEnable .. | .mkaDisable .. | .voqEnqueue | .pfcRefresh .. | .egressDequeue .. | .classMapApply ..
  | .bucketClear .. | .gateGo .. | .gateCheckComplete .. | .gateListStart .. | .gateEntryChange .. | .gateDisable ..
  | .queueSample | .pageRingBuilt | .sheepdogRoundStart | .sheepdogRoundEnd .. | .fabricRestart ..
  | .linkTrainingStart .. | .linkTrained .. | .helloSend .. | .helloReceive .. | .mismatchRecheck ..
  | .keepaliveSend .. | .keepaliveLoss .. | .congestionSample .. | .linkStateRecord .. | .recordRefresh
  | .recordExpire .. | .routeRebuild .. | .fabricLinkDown .. | .downNoticeReceive .. | .quarHoldExpire ..
  | .quarantineTrialEnd .. | .adminQuarSet .. | .adminQuarClear .. | .fabricAdminDown .. | .fabricAdminUp ..
  | .unreachFlush .. | .cellReceive .. | .cellForward .. | .creditWord .. | .voqSend .. | .requestSend ..
  | .requestReceive .. | .grant .. | .grantReceive .. | .returnReceive .. | .creditKeepExpire .. | .reorderTimeout ..
  | .multicastSend .. | .copyTimeout .. | .syncSend .. | .syncReceive .. | .hbmCommandIssue ..
  | .hbmRequestComplete .. | .hbmRequestTimeout .. | .refreshWindowEnd .. | .temperatureRead .. | .readRecentre ..
  | .retrain .. | .retrainSlice .. | .retrainRetry .. | .hbmTrainingComplete .. | .ptpMessageReceive ..
  | .syncTransmit .. | .delayReqTransmit .. | .announceTransmit .. | .announceTimeout .. | .pcsDelayCalibrate ..
  | .timeStep | .holdoverReady | .holdoverExpire | .timeWordReceive .. | .rootWordReceive .. | .rootWordExpire ..
  | .fabricTimeTake .. | .referenceDrop .. | .referenceRestore .. | .esmcPduReceive .. | .esmcTransmit ..
  | .esmcTimeout .. | .hoscQualify .. | .ppsEdge .. | .ppsMissing | .ppsOutput | .timeControlSet ..
  | .timeControlOffset .. | .forceHoldover .. | .timeControlRelease .. | .pairEnable .. | .pairWaitTimeout ..
  | .yokeLinkDown .. | .mirrorEpochEnd | .recordBlockFlush | .peerEmberLoss | .switchoverResume | .resyncComplete
  | .forceSwitch .. | .resync .. | .lock .. | .unlock .. | .faultCollect | .logCopy | .reactionWindowExpire ..
  | .safeEnter .. | .shadowClose .. | .safeExit .. | .faultInject .. | .faultRead .. | .grazingRound ..
  | .engineTestPass .. | .grazingOverdue .. | .counterSweep | .counterReadLive .. | .counterReadRing ..
  | .eventSubscribe .. | .updateLeaseAcquire .. | .updateLeaseRenew .. | .updateLeaseRelease .. | .leaseExpire
  | .updateWrite .. | .updateVerify .. | .updateCommit .. | .commitStepComplete ..
  | .storeAbort | .save .. | .saveComplete | .inService .. | .activationStepComplete | .restart ..
  | .confirm .. | .fallback .. | .raiseSecver .. | .healthWindowEnd | .bootReadyTimeout | .resetDevice ..
  | .resetDatapath .. | .pinReset | .resetRelease .. | .vinGood | .vinLoss | .vstbyGood .. | .vstbyLoss
  | .startupStepComplete .. | .powerMeasure .. | .shedItem | .restoreItem .. | .budgetUnmet | .currentLimit
  | .currentLimitShutdown | .vinLevelChange .. | .thermalRead .. | .stableChange .. | .timeConditionMet ..
  | .pcsAlignmentChange .. | .scrubberRead .. | .dpllLocked | .pairDisable .. | .protectionCmdClear ..
  | .bfdSessionAdmin .. | .aggregatorEnable .. | .forceLevelWrite .. | .trialBootRetry | .yokeEmptyBlock .. => none

/-- A well-formed command. -/
def Instr.wf (i : Instr) : Bool := i.illformed.isNone

end Sys2Proof
end

