-- ==== Sys2Proof/Machine/Hbm.lean ====
section
/-! DEFINITION. The HBM controllers and their memory (R395 to R413). -/
namespace Sys2Proof.Machine

/-! ## Memory (R395, R396, R408): bytes by address, none listed that is zero -/

/-- What a byte that is not listed reads as: training has written every line with zero (R408). -/
def memDefault : Byte := 0

/-- The byte at an address. -/
def memRead (m : List Host.Cell) (a : Nat) : Byte := tabGet m a memDefault
/-- Write a byte: a byte that reads as an unlisted one is not listed. -/
def memWrite (m : List Host.Cell) (a : Nat) (b : Byte) : List Host.Cell := tabSet m a b memDefault
/-- The canonical form: addresses strictly rising, no entry equal to what an unlisted address reads as. -/
abbrev Memory.wf (m : List Host.Cell) : Prop := (m.Pairwise fun a b => a.1 < b.1) ∧ ∀ e ∈ m, e.2 ≠ memDefault

/-- Write bytes from an address on. -/
def memStore (m : List Host.Cell) : Nat → Bytes → List Host.Cell
  | _, [] => m
  | a, b :: rest => memStore (memWrite m a b) (a + 1) rest
/-- Read n bytes from an address on. -/
def memLoad (m : List Host.Cell) (a n : Nat) : Bytes := (List.range n).map fun i => memRead m (a + i)

/-! ## Stacks -/

/-- The object address of a byte of a stack (R396). -/
def rawAddr (st a : Nat) : ObjAddr := BitVec.ofNat 48 (hbBlock st * 2 ^ 40 + 2 ^ 36 + a)
/-- Send a fault message of a stack with a raw-window address. -/
def raiseRaw (st inst kind a : Nat) (s : State) : State :=
  raise { blk := hbBlock st, inst := inst, kind := kind, addr := rawAddr st a } s

/-! ## Admission (R399, R400) -/

/-- HBM_REQUEST (R399, R400): a requester offers a request. -/
def execHbmRequest (st : Fin 6) (r : HbmReq) (s : State) : Answer := .next (hbmOffer st.val r s).2

/-! ## The next command of a pseudo-channel (R397, R398, R402, R404, R405) -/

/-- The row that is open in a bank now: OPEN_MAX ns without an access close it (R398). -/
def openRow (s : State) (st : Nat) (k : Bank) : Option Nat :=
  match k.row with
  | some r => if within s k.used (rd s (hbC st) HbCtl.OPEN_MAX + 1) then some r else none
  | none => none

/-- Whether a request needs no activation. -/
def rowHit (s : State) (st : Nat) (x : Stack) (h : HbmHeld) : Bool :=
  openRow s st (getBank x (pcOf h.rq.addr) (bankOfAddr h.rq.addr)) == some (rowOf h.rq.addr)

/-- Whether a throttle holds a request back (R405). -/
def heldBack (s : State) (st : Nat) (x : Stack) (h : HbmHeld) : Bool :=
  !rowHit s st x h &&
    (getBank x (pcOf h.rq.addr) (bankOfAddr h.rq.addr)).slowed.any fun e =>
      e.1 == h.rq.req.val && within s e.2 (rd s (hbC st) HbCtl.THROTTLE_NS)

/-- Whether a request is aged (R397). -/
def aged (s : State) (st : Nat) (h : HbmHeld) : Bool :=
  let lim := match h.cls with
    | 1 => rd s (hbC st) HbCtl.AGE_C1
    | 2 => rd s (hbC st) HbCtl.AGE_C2
    | _ => rd s (hbC st) HbCtl.AGE_C3
  h.cls != 0 && !within s h.since (100 * lim)

/-- The request of a class that goes first: one to an open row, while the oldest has been passed fewer than 16 times. -/
def firstOfClass (s : State) (st : Nat) (x : Stack) (l : List HbmHeld) (c : Nat) : Option HbmHeld :=
  let l := l.filter fun h => h.cls == c
  match l with
  | [] => none
  | o :: _ =>
    match if o.passed < 16 then l.find? (rowHit s st x) else none with
    | some h => some h
    | none => some o

/-- Command slots of a pseudo-channel in 1 µs: one in each cycle of its controller's island. -/
def slotsPerUs (st : Nat) : Nat := islandMHz (hbBlock st)

/-- The request that rules 3 and 4 of R397 choose, and whether it goes as an aged one. -/
def nextRequest (s : State) (st pc : Nat) (x : Stack) : Option (HbmHeld × Bool) :=
  let wait := x.reqs.filter fun h => pcOf h.rq.addr == pc && !h.issued && !heldBack s st x h
  let took := (recent s (tabGet x.agedAt pc []) 1000).length
  let share := decide (100 * took < rd s (hbC st) HbCtl.AGE_SHARE * slotsPerUs st)
  let free := !wait.any fun h => h.cls == 0
  match if share || free then wait.find? (aged s st) else none with
  | some h => some (h, true)
  | none => ((List.range 4).findSome? (firstOfClass s st x wait)).map fun h => (h, false)

/-- Count an activation of a row in its bank's tracker of 64 rows: a row not held takes the place of the one with the lowest count
(R404). -/
def trackRow (counts : List (Nat × Nat)) (row : Nat) : Nat × List (Nat × Nat) :=
  match counts.find? fun e => e.1 == row with
  | some e => (e.2 + 1, counts.map fun f => if f.1 = row then (row, e.2 + 1) else f)
  | none =>
    if counts.length < 64 then (1, counts ++ [(row, 1)])
    else
      match (counts.map Prod.snd).min? with
      | none => (1, [(row, 1)])
      | some m =>
        match counts.find? fun e => e.2 == m with
        | some e => (m + 1, counts.map fun f => if f = e then (row, m + 1) else f)
        | none => (1, counts)

/-- Hot rows of a stack. -/
def hotRows (x : Stack) : Nat := (x.banks.map fun b => b.2.hot.length).sum

/-- An activation of a row by a requester (R404, R405): at RD_THRESH its neighbours are due, the row is hot and the requester throttled. -/
def activateRow (st pc b row r : Nat) (s : State) : State :=
  let x := getStack s st
  let k := getBank x pc b
  let s := pcCount st pc 2 s
  let (n, counts) := trackRow k.counts row
  let slowed := k.slowed.map fun e => if e.1 = r then (r, s.clock) else e
  if n < rd s (hbC st) HbCtl.RD_THRESH then setStack st (setBank pc b { k with counts := counts, slowed := slowed } x) s
  else
    let k := { k with counts := counts.map fun e => if e.1 = row then (row, 0) else e, hot := (k.hot ++ [row]).dedup,
                      slowed := if slowed.any fun e => e.1 == r then slowed else slowed ++ [(r, s.clock)],
                      due := k.due ++ [row] }
    let x := setBank pc b k x
    let s := setStack st x s
    let s := wr s (hbR st r) HbReq.THROTTLED 1
    let o := obj .hbRow st
    let s := wr (wr s o HbRow.ROW (rawAddr st (rowAddr pc b row)).toNat) o HbRow.REQ r
    raiseRaw st pc 3 (rowAddr pc b row) (wr s o HbRow.HOT_ROWS (min (hotRows x) 65535))

/-- A neighbour refresh that is due in a pseudo-channel: the bank of the oldest. -/
def dueBank (x : Stack) (pc : Nat) : Option Nat := (List.range 32).find? fun b => !(getBank x pc b).due.isEmpty

/-- Issue a request: the activation it needs, and what becomes of its row (R398). -/
def issueRequest (st pc : Nat) (h : HbmHeld) (asAged : Bool) (s : State) : State :=
  let b := bankOfAddr h.rq.addr
  let row := rowOf h.rq.addr
  let hit := rowHit s st (getStack s st) h
  let s := if hit then s else activateRow st pc b row h.rq.req.val s
  let x := getStack s st
  let k := getBank x pc b
  let stays := !h.close || k.hot.contains row
  let x := setBank pc b { k with row := if stays then some row else none, used := s.clock } x
  let reqs := x.reqs.map fun g =>
    if g.id = h.id then { g with issued := true }
    else if g.cls = h.cls ∧ g.id < h.id ∧ !g.issued ∧ pcOf g.rq.addr = pc then { g with passed := g.passed + 1 } else g
  let agedAt := if asAged then tabPut x.agedAt pc (s.clock :: recent s (tabGet x.agedAt pc []) 1000) else x.agedAt
  pcCount st pc (if h.rq.write then 1 else 0) (setStack st { x with reqs := reqs, agedAt := agedAt } s)

/-- Count the requests that a throttle holds back, once each. -/
def noteThrottle (st pc : Nat) (s : State) : State :=
  let x := getStack s st
  let l := x.reqs.filter fun h => pcOf h.rq.addr == pc && !h.issued && !h.slowed && heldBack s st x h
  let reqs := x.reqs.map fun h => if l.contains h then { h with slowed := true } else h
  if l.isEmpty then s else forAll l (fun h s => rqCount st h.rq.req.val 1 s) (setStack st { x with reqs := reqs } s)

/-- HBM_COMMAND_ISSUE (R397, R402): `refreshDue` says that a refresh has fallen due since the last command of the pseudo-channel. -/
def execHbmCommandIssue (st : Fin 6) (pc : Fin 16) (refreshDue : Bool) (s : State) : Answer :=
  let st := st.val
  let pc := pc.val
  .next (if rd s (hbS st) HbStatus.STATE ≠ 1 then s
    else
      let s := noteThrottle st pc s
      let x := getStack s st
      let n := tabGet x.postponed pc 0 + (if refreshDue then 1 else 0)
      let x := { x with postponed := tabSet x.postponed pc n 0 }
      let busy := x.reqs.any fun h => pcOf h.rq.addr == pc && !h.issued && h.cls == 0
      if 8 < n ∨ (0 < n ∧ !busy) then
        pcCount st pc 5 (setStack st { x with postponed := tabSet x.postponed pc (n - 1) 0 } s)
      else
        let s := setStack st x s
        match dueBank x pc with
        | some b =>
          let k := getBank x pc b
          pcCount st pc 6 (setStack st (setBank pc b { k with due := k.due.tail, row := none } x) s)
        | none =>
          match nextRequest s st pc x with
          | some (h, a) => issueRequest st pc h a s
          | none => s)

/-! ## Completion (R401, R406, R407) -/

/-- Show which channel retrains: the first that is queued (R408). -/
def showRetrain (st : Nat) (s : State) : State :=
  match (getStack s st).retrains with
  | c :: _ => wr (wr s (hbS st) HbStatus.RETRAINING (2 ^ c)) (hbCh st c) HbChan.TRAIN 2
  | [] => wr s (hbS st) HbStatus.RETRAINING 0

/-- Put channels in a list in channel order, the one in progress first. -/
def queueChannel (c : Nat) : List Nat → List Nat
  | [] => [c]
  | a :: rest => if a = c ∨ rest.contains c then a :: rest else a :: (rest ++ [c]).mergeSort (fun x y => decide (x ≤ y))

/-- Queue a full retrain of a channel that training left usable (R408). -/
def queueRetrain (st c : Nat) (s : State) : State :=
  let x := getStack s st
  if rd s (hbS st) HbStatus.STATE ≠ 1 then s
  else showRetrain st (setStack st { x with retrains := queueChannel c x.retrains, slices := if x.retrains.isEmpty then 0 else x.slices } s)

/-- A corrected error of a channel: CE_RETRAIN of them in 1 s retrain it (R408). -/
def correctedOn (st pc : Nat) (s : State) : State :=
  let c := pc / 2
  let x := getStack s st
  let l := s.clock :: recent s (tabGet x.ces c []) sec
  let s := pcCount st pc 3 (setStack st { x with ces := tabPut x.ces c l } s)
  if flag s (hbC st) HbCtl.AUTO_RETRAIN ∧ rd s (hbC st) HbCtl.CE_RETRAIN ≤ l.length then
    let x := getStack s st
    queueRetrain st c (setStack st { x with ces := tabDel x.ces c } s)
  else s

/-- The scrubber among the requesters of a stack (R397). -/
def scrubberOf (st : Nat) : Fin 16 := if st < 2 then 9 else 7

/-- A corrected line is written back, unless a write to it has been accepted since (R406). -/
def oweBack (st a : Nat) (s : State) : State :=
  let x := getStack s st
  if x.reqs.any (fun h => h.rq.write && h.rq.addr == a) ∨ x.backs.contains a then s
  else setStack st { x with backs := x.backs ++ [a] } s

/-- Corrected lines are offered as class 3 writes until each is accepted (R399, R406). -/
def offerBacks (st : Nat) (s : State) : State :=
  forAll (getStack s st).backs (fun a s =>
    let line := BitVec.ofNat 512 (ofBytes (memLoad (getStack s st).mem a 64))
    match hbmOfferAs 3 st { req := scrubberOf st, write := true, addr := a, data := line } s with
    | (some _, s) => setStack st { getStack s st with backs := (getStack s st).backs.erase a } s
    | (none, s) => s) s

/-- HBM_REQUEST_COMPLETE (R401, R406): the request of the pseudo-channel that was issued first completes; a write reaches the memory. -/
def execHbmRequestComplete (st : Fin 6) (pc : Fin 16) (ecc : EccOutcome) (s : State) : Answer :=
  let st := st.val
  let pc := pc.val
  .next (match (getStack s st).reqs.find? fun h => pcOf h.rq.addr == pc && h.issued with
    | none => s
    | some h =>
      let s := dropRequest st h s
      let s := if h.rq.write then
          let x := getStack s st
          setStack st { x with mem := memStore x.mem h.rq.addr (toBytes 64 h.rq.data.toNat), backs := x.backs.erase h.rq.addr } s
        else s
      offerBacks st <| match ecc with
      | .clean => s
      | .corrected => correctedOn st pc (if h.rq.write then s else oweBack st h.rq.addr s)
      | .uncorrectable => raiseRaw st pc 1 h.rq.addr (pcCount st pc 4 s))

/-- HBM_REQUEST_TIMEOUT (R401): the oldest request of the pseudo-channel completes with the error flag, and its channel is retrained. -/
def execHbmRequestTimeout (st : Fin 6) (pc : Fin 16) (s : State) : Answer :=
  let st := st.val
  let pc := pc.val
  .next (match (getStack s st).reqs.find? fun h => pcOf h.rq.addr == pc with
    | none => s
    | some h =>
      let s := due (h.since + 20000) s
      queueRetrain st (pc / 2) (raiseRaw st pc 5 h.rq.addr (dropRequest st h s)))

/-- SCRUBBER_READ (R407): the next line, a pass being spread over SCRUB_HOURS; after the last one the pass is complete. A line that cannot
be corrected and that no block owns is rewritten with zero: which lines those are is a free choice (log entry 90). -/
def execScrubberRead (st : Fin 6) (ecc : EccOutcome) (s : State) : Answer :=
  let st := st.val
  let x := getStack s st
  .next (if rd s (hbS st) HbStatus.STATE ≠ 1 ∨ !flag s (hbC st) HbCtl.SCRUB_EN then s
    else
      let a := x.scrub
      let s := due (x.scrubAt.getD 0 + rd s (hbC st) HbCtl.SCRUB_HOURS * 3600 * sec * a / hbmBytes st) s
      let x := getStack s st
      let last := decide (hbmBytes st ≤ a + 64)
      let s := setStack st { x with scrub := if last then 0 else a + 64, scrubAt := if last then some s.clock else x.scrubAt } s
      match ecc with
      | .clean => s
      | .corrected => offerBacks st (correctedOn st (pcOf a) (oweBack st a s))
      | .uncorrectable =>
        let (c, s) := drawChoice (raiseRaw st (pcOf a) 2 a (pcCount st (pcOf a) 4 s))
        let x := getStack s st
        if c % 2 = 1 then setStack st { x with mem := memStore x.mem a (List.replicate 64 0) } s else s)

/-- SCRUB_AGE (R407). -/
def scrubAge (s : State) (st : Nat) : Nat :=
  match (getStack s st).scrubAt with
  | some t => min ((s.clock - t) / (3600 * sec)) 0xFFFE
  | none => 0xFFFF

/-! ## Windows, temperature and training (R402 to R405, R408, R409) -/

/-- REFRESH_WINDOW_END (R404, R405). -/
def execRefreshWindowEnd (st : Fin 6) (s : State) : Answer :=
  let st := st.val
  let s := due ((getStack s st).windowAt + (if flag s (hbS st) HbStatus.HOT then 16 else 32) * ms) s
  let x := getStack s st
  let banks := (x.banks.map fun e => (e.1, { e.2 with counts := [], hot := [], slowed := [] })).filter fun e => e.2 != Bank.idle
  let s := setStack st { x with banks := banks, windowAt := s.clock } s
  let s := forAll (List.range 16) (fun r s => if flag s (hbR st r) HbReq.THROTTLED then wr s (hbR st r) HbReq.THROTTLED 0 else s) s
  .next (wr s (obj .hbRow st) HbRow.HOT_ROWS 0)

/-- TEMPERATURE_READ (R403, R408). -/
def execTemperatureRead (st : Fin 6) (temp : Nat) (s : State) : Answer :=
  let st := st.val
  let k := hbS st
  let s := wr s k HbStatus.TEMP (min temp 255)
  let s := if 85 ≤ temp then wr s k HbStatus.HOT 1 else if temp < 80 then wr s k HbStatus.HOT 0 else s
  let s := if rd s (hbC st) HbCtl.TEMP_MAX ≤ temp then atMost (hbBlock st) 0 6 0 sec (raiseRaw st 0 6 0) s else s
  let moved (s : State) (c : Nat) : Bool :=
    let t := rd s (hbCh st c) HbChan.TRAIN_TEMP
    rd s (hbCh st c) HbChan.TRAIN == 1 && (decide (t + 10 ≤ temp) || decide (temp + 10 ≤ t))
  .next (if flag s (hbC st) HbCtl.AUTO_RETRAIN then
      forAll ((List.range 8).filter (moved s)) (fun c s => queueRetrain st c s) s
    else s)

/-- READ_RECENTRE (R408): holds the channel's requests for a moment, and changes nothing else. -/
def execReadRecentre (_st : Fin 6) (_ch : Fin 8) (s : State) : Answer := .next s

/-- RETRAIN_SLICE (R408): the 64th slice ends the retrain of the channel in progress, a failing one ends it at once; the next channel
begins. -/
def execRetrainSlice (st : Fin 6) (ch : Fin 8) (ok : Bool) (s : State) : Answer :=
  let st := st.val
  let c := ch.val
  let x := getStack s st
  .next (if x.retrains.head? ≠ some c then s
    else if ok ∧ x.slices + 1 < 64 then setStack st { x with slices := x.slices + 1 } s
    else
      let x := { x with retrains := x.retrains.tail, slices := 0, retry := if ok then x.retry else (x.retry ++ [c]).dedup,
                        failedAt := if ok then x.failedAt else tabPut x.failedAt c s.clock }
      let s := wr (setStack st x s) (hbCh st c) HbChan.TRAIN 1
      let s := if ok then satF (wr s (hbCh st c) HbChan.TRAIN_TEMP (rd s (hbS st) HbStatus.TEMP)) (hbCh st c) HbChan.RETRAINS
        else raise { blk := hbBlock st, inst := 2 * c, kind := 4, addr := addrOf (hbCh st c) } s
      showRetrain st s)

/-- RETRAIN_RETRY (R408). -/
def execRetrainRetry (st : Fin 6) (ch : Fin 8) (s : State) : Answer :=
  let st := st.val
  .next (if (getStack s st).retry.contains ch.val then
      let s := due (tabGet (getStack s st).failedAt ch.val 0 + sec) s
      let x := getStack s st
      queueRetrain st ch.val (setStack st { x with retry := x.retry.filter fun c => c != ch.val } s)
    else s)

/-- HBM_TRAINING_COMPLETE (R408, R409): every line is zero; a channel left unusable makes the stack FAILED. -/
def execHbmTrainingComplete (st : Fin 6) (unusable : BitVec 8) (repairs : List Nat) (s : State) : Answer :=
  let st := st.val
  .next (if rd s (hbS st) HbStatus.STATE ≠ 0 then s
    else
      let s := setStack st { Stack.idle with windowAt := s.clock } s
      let s := wr s (hbS st) HbStatus.STATE (if unusable = 0 then 1 else 2)
      let s := wr s (hbS st) HbStatus.LANES_REPAIRED (min repairs.sum 255)
      forAll (List.range 8) (fun c s =>
        let bad := unusable.getLsbD c
        let k := hbCh st c
        let s := wr (wr s k HbChan.TRAIN (if bad then 3 else 1)) k HbChan.TRAIN_TEMP (rd s (hbS st) HbStatus.TEMP)
        let s := wr s k HbChan.REPAIRS (min (repairs.getD c 0) 255)
        if bad then raise { blk := hbBlock st, inst := 2 * c, kind := 4, addr := addrOf k } s else s) s)

end Sys2Proof.Machine
end

