-- ==== Sys2Proof/Machine/Time.lean ====
section
/-! DEFINITION. Time and frequency: the clock service, the servo's commands, fabric time, references, and the time inputs and outputs
(R414 to R451). -/
namespace Sys2Proof.Machine

/-! ## The clock service (R422 to R426) -/

/-- The length of a PTP frame whose message has n bytes: behind an Ethernet header, or behind the port's template (R422, R450). -/
def ptpLen (s : State) (p n : Nat) : Nat :=
  if rd s tmC TmCtl.PROFILE = 0 then max 64 (18 + n) else rd s (obj .ptpTmpl p) PtpTmpl.TMPL_LEN + n + 4

/-- The destination of the service's messages: the multicast address that MCAST_ADDR selects, or 0 for the template's partner (R422,
R449). -/
def ptpDst (s : State) (p : Nat) : Nat :=
  if rd s tmC TmCtl.PROFILE ≠ 0 then 0 else if flag s (ptC p) PtCtl.MCAST_ADDR then 0x0180C200000E else 0x011B19000000

/-- The data set that the root sends by, as this node holds it: cls, accuracy, variance, priority2, grandmaster, steps. -/
def rootSet (s : State) : DataSet :=
  match following s with
  | some (_, w) =>
    { cls := w.cls, accuracy := w.accuracy, variance := w.variance, prio2 := w.prio2, gm := w.gm.toNat, steps := w.steps,
      traceTime := w.flags.getLsbD 0, traceFreq := w.flags.getLsbD 1, utc := w.utc }
  | none =>
    let d := (ownBest s).2
    { d with cls := rd s tmS TmStatus.CLOCK_CLASS, traceTime := flag s tmS TmStatus.TIME_TRACEABLE,
             traceFreq := flag s tmS TmStatus.FREQ_TRACEABLE, utc := s.time.utc }

/-- PORT_STATE of a port (R425, R449): 1 INITIALIZING, 3 DISABLED, 4 LISTENING, 6 MASTER, 7 PASSIVE, 9 SLAVE. -/
def portState (s : State) (p : Nat) : Nat :=
  if !ptpOn s p then 3
  else if !portUp s p then 1
  else if !flag s (ptS p) PtStatus.CAL || !(ptOf s p).listened then 4
  else if rd s tmS TmStatus.SOURCE = 1 ∧ rd s tmS TmStatus.SRC_PORT = p then 9
  else
    match (ptOf s p).master with
    | some m => if lexBefore (bmcaKey (rootSet s) 128) (bmcaKey (masterSet m) 128) then 6 else 7
    | none => 6

/-- Whether a port may send a message of the service now. -/
def mayPtp (s : State) (p : Nat) : Bool := ptpOn s p && portUp s p && !inSafe s && !silent s p

/-- Send a message of the service: one, or under G.8275.2 one for each partner granted. -/
def sendPtp (p : Nat) (kind : Pdu) (args : List Nat) (n : Nat) (s : State) : State :=
  let copies := if rd s tmC TmCtl.PROFILE = 0 then 1 else rd s (ptS p) PtStatus.PARTNERS
  if mayPtp s p then
    forAll (List.range copies) (fun _ s => bump .tmCtr 1 0 1 (originate p kind (ptpDst s p :: args) (ptpLen s p n) s)) s
  else s

/-- Send one message of the service to a partner. -/
def answerPtp (p : Nat) (kind : Pdu) (args : List Nat) (n : Nat) (s : State) : State :=
  if mayPtp s p then bump .tmCtr 1 0 1 (originate p kind (ptpDst s p :: args) (ptpLen s p n) s) else s

/-- SYNC_TRANSMIT (R424): one-step with its time of departure, or followed by it. -/
def execSyncTransmit (p : Fin 48) (s : State) : Answer :=
  let p := p.val
  .next (if portState s p ≠ 6 then s
    else if flag s tmC TmCtl.TWO_STEP then sendPtp p .followUp [txStamp s p] 44 (sendPtp p .sync [] 44 s)
    else sendPtp p .sync [txStamp s p] 44 s)

/-- DELAY_REQ_TRANSMIT (R424). -/
def execDelayReqTransmit (p : Fin 48) (s : State) : Answer :=
  .next (if portState s p.val = 9 then answerPtp p.val .delayReq [txStamp s p.val] 44 s else s)

/-- ANNOUNCE_TRANSMIT (R424 to R426): the root's quality, its parent's stepsRemoved plus one, the node's own clockIdentity. -/
def execAnnounceTransmit (p : Fin 48) (s : State) : Answer :=
  let d := rootSet s
  .next (if portState s p.val ≠ 6 then s
    else
      let flags := (if d.traceTime then 1 else 0) + if d.traceFreq then 2 else 0
      sendPtp p.val .announce [d.cls, d.accuracy, d.variance, d.prio2, d.gm, d.steps + 1, flags, ownClockId s] 64 s)

/-- The time without an Announce after which the foreign master is lost, in ns: ANN_TIMEOUT intervals of 2^LOG_ANNOUNCE s (R424). -/
def announceWait (s : State) (p : Nat) : Nat :=
  rd s (ptC p) PtCtl.ANN_TIMEOUT * (sec / 2 ^ (-signedOf 4 (rd s (ptC p) PtCtl.LOG_ANNOUNCE)).toNat)

/-- ANNOUNCE_TIMEOUT (R424): the foreign master is lost. -/
def execAnnounceTimeout (p : Fin 48) (s : State) : Answer :=
  let s := if ptpOn s p.val then due ((ptOf s p.val).annAt + announceWait s p.val) s else s
  .next (if ptpOn s p.val then timeChanged (setPt p.val { ptOf s p.val with master := none, listened := true } s) else s)

/-- PCS_DELAY_CALIBRATE (R418). -/
def execPcsDelayCalibrate (p : Fin 48) (s : State) : Answer :=
  .next (if isEthernet s p.val && portUp s p.val then timeChanged (wr s (ptS p.val) PtStatus.CAL 1) else s)

/-- Whether the type of a message is one of check 4 (R423): Sync, Delay_Req, Follow_Up, Delay_Resp, Announce, or Signaling under
G.8275.2. -/
def typeOk (s : State) (m : PtpMsg) : Bool :=
  let t := m.msgType.toNat
  t == 0 || t == 1 || t == 8 || t == 9 || t == 11 || (t == 12 && rd s tmC TmCtl.PROFILE == 1)

/-- Messages of the last second on a port, and device-wide (check 3 of R423). -/
def rateOk (s : State) (p : Nat) : Bool :=
  decide ((recent s (ptOf s p).msgAt sec).length < 65536) &&
    decide ((s.time.ports.map fun e => (recent s e.2.msgAt sec).length).sum < 4000000)

/-- The offset to the master of a port once both directions are known (R419; PRESUMED: IEEE 1588): the time from the master less the
mean path delay and the asymmetry. -/
def measurePort (p : Nat) (s : State) : State :=
  let mpd := rd s (ptS p) PtStatus.MPD
  match (ptOf s p).down with
  | some d =>
    if portState s p = 9 ∧ mpd ≠ 0xFFFFFFFF then
      timeChanged (measure (d - mpd - signedOf 16 (corrOf s p PtCtl.ASYM)) false s)
    else s
  | none => s

/-- Unicast partners of the device. -/
def partners (s : State) : Nat := (ports.map fun p => rd s (ptS p) PtStatus.PARTNERS).sum

/-- What the service does with a message that has passed the checks (R422, R424, R425). -/
def servePtp (p : Nat) (m : PtpMsg) (s : State) : State :=
  let x := ptOf s p
  match m.msgType.toNat with
  | 0 =>
    if m.twoStep then setPt p { x with syncRx := some m.arrived } s
    else measurePort p (setPt p { x with down := some (m.arrived - m.sent), syncRx := none } s)
  | 8 =>
    match x.syncRx with
    | some t => measurePort p (setPt p { x with down := some (t - m.sent), syncRx := none } s)
    | none => s
  | 1 => if portState s p = 6 then answerPtp p .delayResp [stamp s (corrOf s p PtCtl.TS_ING_CORR)] 54 s else s
  | 9 =>
    match x.down with
    | some d => measurePort p (wr s (ptS p) PtStatus.MPD (min 0xFFFFFFFE ((d + (m.sent - m.arrived)).fdiv 2).toNat))
    | none => s
  | 11 => timeChanged (setPt p { x with master := some m, listened := true, annAt := s.clock } s)
  | _ =>
    match m.signal with
    | .request true =>
      let n := rd s (ptS p) PtStatus.PARTNERS
      let grant := decide (n < 512 ∧ partners s < 2048)
      let s := if grant then wr s (ptS p) PtStatus.PARTNERS (n + 1) else s
      answerPtp p .signal [if grant then 1 else 0] 54 s
    | .request false => answerPtp p .signal [0] 54 s
    | .cancel => mapF s (ptS p) PtStatus.PARTNERS (· - 1)
    | .none => s

/-- PTP_MESSAGE_RECEIVE (R423): the checks in order, on a message that waits in the port's divert queue. -/
def execPtpMessageReceive (p : Fin 48) (m : PtpMsg) (s : State) : Answer :=
  let p := p.val
  let x := ptOf s p
  .next (if x.divert = 0 then s
    else
      let s := bump .tmCtr 0 0 1 (setPt p { x with divert := x.divert - 1 } s)
      if !rateOk s p then bump .tmCtr 3 0 1 s
      else
        let s := setPt p { ptOf s p with msgAt := s.clock :: recent s x.msgAt sec } s
        let t := m.msgType.toNat
        if !m.fieldsOk || m.domain.toNat != rd s tmC TmCtl.DOMAIN || !typeOk s m then bump .tmCtr 2 0 1 s
        else if t = 11 ∧ (255 ≤ m.stepsRemoved ∨ m.clockClass = 255 ∨ m.clockId.toNat = ownClockId s) then bump .tmCtr 2 0 1 s
        else if (t = 8 ∨ t = 9) ∧ !m.matched then bump .tmCtr 4 0 1 s
        else servePtp p m s)

/-! ## The servo (R416, R428 to R431) -/

/-- TIME_STEP (R416): 2 µs after the decision the step reaches every copy of common time; gate lists keep their entry until they
restart. Intervals do not change. -/
def execTimeStep (s : State) : Answer :=
  .next (match s.time.step with
    | none => s
    | some (d, decided) =>
      let s := advance (decided + 2000 - s.clock) s
      let t := max 0 ((s.ct : Int) + d)
      let moved := t - s.ct
      let s := { s with ct := t.toNat, time := { s.time with step := none, stepped := s.time.stepped + moved } }
      forAll ports (gateStep t.toNat) s)

/-- HOLDOVER_READY (R430). -/
def execHoldoverReady (s : State) : Answer :=
  .next (if servo s = svLocked then wr (due (s.time.lockedAt + 60 * sec) s) tmS TmStatus.HO_READY 1 else s)

/-- HOLDOVER_EXPIRE (R428, R451). -/
def execHoldoverExpire (s : State) : Answer :=
  .next (if servo s = svHold then
      let s := due (s.time.holdAt + rd s tmC TmCtl.HO_SPEC_S * sec) s
      raise (timeReport 1 2) (timeChanged (wr s tmS TmStatus.SERVO svOut))
    else s)

/-- HO_ELAPSED: seconds in HOLDOVER or HOLDOVER_OUT (R447). -/
def hoElapsed (s : State) : Nat :=
  if servo s = svHold ∨ servo s = svOut then min 65535 ((s.clock - s.time.holdAt) / sec) else 0

/-- The RESULT of TIME_CONTROL: the common time at execution, SERVO, three reserved bytes (R431). -/
def timeResult (t : Nat) (s : State) : Bytes := toBytes 12 t ++ toBytes 1 (servo s) ++ toBytes 3 0

/-- TIME_CONTROL: the checks of R57 and R431, then its effect. -/
def timeControl (c : Hdr) (res : BitVec 24) (inRange : Bool) (allowed : State → Bool) (f : State → State) (s : State) : State :=
  let a := sessAddr c.sid.val
  checked c 0x0802 accControl (fun n => n == 16) (res == 0) 0x60 a (fun s =>
    need c inRange stRange a (fun s =>
      need c (allowed s) stState a (fun s =>
        let t := time96 s
        let s := f s
        ok c (timeResult t s) s) s) s) s

/-- TIME_CONTROL_SET (R431), and any ACTION that R431 does not list (R57). -/
def execTimeControlSet (c : Hdr) (other : Unlisted) (res : BitVec 24) (value : BitVec 96) (s : State) : Answer :=
  .next (timeControl c res other.isNone (fun s => servo s == svFree && isRoot s)
    (fun s => { s with time := { s.time with step := some ((ofTime96 value.toNat : Int) - s.ct, s.clock) } }) s)

/-- TIME_CONTROL_OFFSET (R431): VALUE[95:32] in signed ns. -/
def execTimeControlOffset (c : Hdr) (res : BitVec 24) (value : BitVec 96) (s : State) : Answer :=
  let v := signedOf 64 (value.toNat / 2 ^ 32)
  let okv := decide (-(10 ^ 9) ≤ v ∧ v ≤ 10 ^ 9)
  .next (timeControl c res okv (fun s => (servo s == svFree || servo s == svHold || servo s == svOut) && isRoot s)
    (fun s => { s with time := { s.time with slew := 65536 * v } }) s)

/-- FORCE_HOLDOVER (R428, R431). -/
def execForceHoldover (c : Hdr) (res : BitVec 24) (_value : BitVec 96) (s : State) : Answer :=
  .next (timeControl c res true (fun s => servo s == svLocked && flag s tmS TmStatus.HO_READY)
    (fun s => timeChanged (toHold true s)) s)

/-- TIME_CONTROL_RELEASE (R428, R431). -/
def execTimeControlRelease (c : Hdr) (res : BitVec 24) (_value : BitVec 96) (s : State) : Answer :=
  .next (timeControl c res true (fun s => s.time.forced)
    (fun s => timeChanged (toAcquire s)) s)

/-! ## Fabric time (R432 to R437) -/

/-- The root word that a node sends: its own with HOPS 0, or the best one with HOPS plus one (R434). -/
def rootWordArgs (s : State) : List Nat :=
  let ql := systemQl s
  let d := rootSet s
  let flags := (if d.traceTime then 1 else 0) + (if d.traceFreq then 2 else 0) + 4 * ql
  let utc := ((d.utc % 65536 + 65536) % 65536).toNat
  match following s with
  | some (_, w) =>
    [w.ftPrio, w.cls, w.accuracy, w.variance, w.prio2, w.gm.toNat, w.steps, w.root.toNat, w.hops + 1, w.seq, w.flags.toNat, utc]
  | none =>
    [rd s tmC TmCtl.FT_PRIO, d.cls, d.accuracy, d.variance, d.prio2, d.gm, d.steps, s.fab.plan.addr, 0, s.time.rootSeq, flags, utc]

/-- KEEPALIVE_SEND (R347, R356, R432): on an UP link a time word, and a root word in place of every sixteenth; a quarantined link sends
no time words. -/
def execKeepaliveSend (k : Fin 64) (s : State) : Answer :=
  let k := k.val
  let x := ltOf s k
  .next (if linkState s k = lsQuar then emit s (.timeWord k false [])
    else if linkState s k ≠ lsUp then s
    else if x.sent % 16 = 15 then
      let s := if (following s).isNone then { s with time := { s.time with rootSeq := (s.time.rootSeq + 1) % 2 ^ 32 } } else s
      setLt k { x with sent := x.sent + 1 } (emit s (.timeWord k true (rootWordArgs s)))
    else
      let (echo, hold) := match x.last with
        | some (t, at_) => (t.toNat, (ivl s - at_) / 16384 % 2 ^ 32)
        | none => (0, 0)
      setLt k { x with sent := x.sent + 1 } (emit s (.timeWord k false [time96 s, echo, hold])))

/-- The offset to the parent has been above 4 ns for 1 ms while LOCKED (R451). -/
def watchParent (off : Int) (s : State) : State :=
  if servo s = svLocked ∧ 16 < off.natAbs then
    match s.time.wideFrom with
    | none => { s with time := { s.time with wideFrom := some s.clock } }
    | some t =>
      if t + ms ≤ s.clock then raise (timeReport 3 5) { s with time := { s.time with wideFrom := some s.clock } } else s
  else { s with time := { s.time with wideFrom := none } }

/-- A follower is disciplined by the offset to its parent. -/
def followOffset (k : Nat) (off : Int) (s : State) : State :=
  match following s with
  | some (j, _) => if j = k then timeChanged (watchParent off (measure off true s)) else s
  | none => s

/-- TIME_WORD_RECEIVE (R432, R433). -/
def execTimeWordReceive (k : Fin 64) (w : TimeWord) (s : State) : Answer :=
  let k := k.val
  .next (if linkState s k ≠ lsUp then s
    else if !w.crcOk then bump .tmCtr 2 0 1 s
    else
      let x := { ltOf s k with last := some (w.t3, ivl s) }
      if w.t1 = 0 then setLt k x s
      else
        let d := ((w.t4 - w.t1) - w.hold).fdiv 2
        let x := { x with words := x.words + 1, sum := x.sum + d }
        let (x, s) := if x.words = 64 then
            ({ x with words := 0, sum := 0 }, wr s (ltK k) FlTime.LINK_DELAY (min 0xFFFFFFFE (x.sum.fdiv 64).toNat))
          else (x, s)
        let mean := rd s (ltK k) FlTime.LINK_DELAY
        if mean = 0xFFFFFFFF then setLt k x s
        else
          let off := w.t4 - (w.t3 + mean + signedOf 16 (rd s (ltK k) FlTime.FT_ASYM))
          followOffset k off (setLt k { x with offset := some off } s))

/-- ROOT_WORD_RECEIVE (R432, R434, R437). -/
def execRootWordReceive (k : Fin 64) (w : RootWord) (s : State) : Answer :=
  let k := k.val
  .next (if linkState s k ≠ lsUp then s
    else if !w.crcOk then bump .tmCtr 2 0 1 s
    else
      let x := ltOf s k
      let advanced := match x.root with
        | some v => v.seq != w.seq || v.root != w.root
        | none => true
      timeChanged (setLt k { x with root := some w, rootAt := if advanced then s.clock else x.rootAt,
                                    rootFrom := if x.root.isSome then x.rootFrom else s.clock } s))

/-- ROOT_WORD_EXPIRE (R434): a root word that has not advanced for 256 µs is dropped. -/
def execRootWordExpire (k : Fin 64) (s : State) : Answer :=
  .next (if (ltOf s k.val).root.isNone then s
    else
      let s := due ((ltOf s k.val).rootAt + 256000) s
      timeChanged (setLt k.val { ltOf s k.val with root := none } s))

/-- FABRIC_TIME_TAKE (R350, R435): an ALONE node that has held root words on an UP link for 20 us becomes ROOT or FOLLOWING, and generates its
first record. -/
def execFabricTimeTake (k : Fin 64) (s : State) : Answer :=
  .next (if !s.fab.started ∧ linkUp? s k.val ∧ (ltOf s k.val).root.isSome then
      let s := due ((ltOf s k.val).rootFrom + 20000) s
      genRecord (timeChanged { s with fab := { s.fab with started := true } })
    else s)

/-! ## Frequency (R438 to R440) -/

/-- REFERENCE_DROP (R438): a reference that fails is dropped after HOLDOFF x 100 ms; it was in use until it failed. -/
def execReferenceDrop (r : Fin 49) (s : State) : Answer :=
  .next (if s.time.dropped.contains r.val then s
    else
      let s := due (tabGet s.time.refAt r.val 0 + rd s fqK FqCtl.HOLDOFF * 100 * ms) s
      timeChanged { s with time := { s.time with dropped := s.time.dropped ++ [r.val],
                                                 refAt := tabPut s.time.refAt r.val s.clock } })

/-- REFERENCE_RESTORE (R438): a reference that recovers is used again after WTR seconds. -/
def execReferenceRestore (r : Fin 49) (s : State) : Answer :=
  .next (if !s.time.dropped.contains r.val then s
    else
      let s := due (tabGet s.time.refAt r.val 0 + rd s fqK FqCtl.WTR * sec) s
      timeChanged { s with time := { s.time with dropped := s.time.dropped.filter fun x => x != r.val,
                                                 refAt := tabPut s.time.refAt r.val s.clock } })

/-- DPLL_LOCKED (R438). -/
def execDpllLocked (s : State) : Answer :=
  .next (if s.time.ref.isSome ∧ dpll s ≠ 1 then
      wr { s with time := { s.time with dpllAt := s.clock } } tmS TmStatus.DPLL 1
    else s)

/-- ESMC_PDU_RECEIVE (R439). -/
def execEsmcPduReceive (p : Fin 48) (formed : Bool) (ql : BitVec 4) (s : State) : Answer :=
  let p := p.val
  let l := recent s (ptOf s p).esmcAt sec
  .next (if !flag s fqK FqCtl.ESMC_EN || !isEthernet s p || !portUp s p || inSafe s then s
    else if 10 ≤ l.length ∨ !formed then bump .tmCtr 8 0 1 s
    else
      let s := setPt p { ptOf s p with esmcAt := s.clock :: l } s
      timeChanged (wr (wr s (ptS p) PtStatus.ESMC_VALID 1) (ptS p) PtStatus.RX_QL ql.toNat))

/-- ESMC_TRANSMIT (R439): the information PDU of each second. -/
def execEsmcTransmit (p : Fin 48) (s : State) : Answer := .next (sendEsmc false p.val s)

/-- ESMC_TIMEOUT (R439): QL-FAILED. -/
def execEsmcTimeout (p : Fin 48) (s : State) : Answer :=
  let s := due ((ptOf s p.val).esmcAt.headD 0 + 5 * sec) s
  .next (timeChanged (wr s (ptS p.val) PtStatus.ESMC_VALID 0))

/-- HOSC_QUALIFY (R440). -/
def execHoscQualify (ok : Bool) (s : State) : Answer :=
  .next (if !flag s fqK FqCtl.HOSC_EN ∨ dpll s ≠ 1 then s
    else if ok then wr (due (s.time.dpllAt + 60 * sec) s) tmS TmStatus.HOSC_OK 1
    else raise (timeReport 2 4) (wr s tmS TmStatus.HOSC_OK 0))

/-! ## Time inputs and outputs (R441 to R444) -/

/-- The offset of an edge now from the second it stands for, in units of 0.25 ns; none before ToD has named a second. -/
def edgeOffset (s : State) : Option Int :=
  s.time.edgeSec.map fun n =>
    ((s.ct / 16384 : Nat) : Int) + signedOf 16 (rd s fqK FqCtl.PPS_IN_CORR) - ((4 * 10 ^ 9 * (n + 1) : Nat) : Int)

/-- PPS_EDGE (R441): an edge counts only after 100 ns of high level. -/
def execPpsEdge (highNs : Nat) (s : State) : Answer :=
  let x := s.time
  let soon := match x.ppsAt with
    | some t => within s t (900 * ms)
    | none => false
  let far := rd s tmS TmStatus.SOURCE == 2 && servo s == svLocked &&
    match edgeOffset s with
    | some o => decide (400000 < o.natAbs)
    | none => false
  .next (if highNs < 100 then s
    else if soon || far then bump .tmCtr 9 0 1 s
    else
      let off := edgeOffset s
      let s := { s with time := { x with ppsAt := some s.clock, ppsOk := true, ppsMiss := 0, edgeSec := x.edgeSec.map (· + 1) } }
      let s := timeChanged s
      match off with
      | some o => if rd s tmS TmStatus.SOURCE = 2 then timeChanged (measure o false s) else s
      | none => s)

/-- PPS_MISSING (R441): three missing seconds in a row lose the input. -/
def execPpsMissing (s : State) : Answer :=
  let x := s.time
  .next (if !x.ppsOk then s
    else
      timeChanged { s with time := { x with ppsMiss := if 2 ≤ x.ppsMiss then 0 else x.ppsMiss + 1,
                                            ppsOk := decide (x.ppsMiss < 2), edgeSec := x.edgeSec.map (· + 1) } })

/-- TOD_RECEIVE (R442, R443): the message describes the edge before it; two failures in a row lose the input. -/
def execTodReceive (m : TodMsg) (s : State) : Answer :=
  let x := s.time
  let timely := match x.ppsAt with
    | some t => decide (t + ms ≤ s.clock ∧ s.clock ≤ t + 900 * ms)
    | none => false
  let follows := match x.todSec with
    | some n => m.seconds == n + 1
    | none => true
  .next (if m.syncOk && m.crcOk && m.resOk && timely && follows then
      timeChanged { s with time := { x with todOk := true, todBad := 0, todSec := some m.seconds, edgeSec := some m.seconds,
                                            todTrace := m.trace, utc := if rd s tmS TmStatus.SOURCE = 2 then m.utc else x.utc } }
    else
      let s := bump .tmCtr 9 0 1 s
      if x.todBad = 0 then { s with time := { x with todBad := 1 } }
      else timeChanged { s with time := { x with todBad := 0, todOk := false, todSec := none } })

/-- PPS_OUTPUT (R442, R444): at the next whole second, corrected, the output rises, and the ToD message that describes the edge
follows; neither in FREERUN, nor in the safe state. -/
def execPpsOutput (s : State) : Answer :=
  let corr := signedOf 16 (rd s fqK FqCtl.PPS_OUT_CORR) * 16384
  let unit := 65536 * 10 ^ 9
  let n := max (s.time.ppsSec + 1) ((((s.ct : Int) - corr).toNat + unit - 1) / unit)
  let s := reach (((unit * n : Nat) : Int) + corr).toNat s
  let s := { s with time := { s.time with ppsSec := n } }
  .next (if !flag s fqK FqCtl.PPS_OUT_EN || servo s == svFree || inSafe s then s
    else
      let flags := rd s tmS TmStatus.TIME_TRACEABLE
      emit (emit s (.pps n (rd s fqK FqCtl.PPS_WIDTH))) (.tod n (rd s tmS TmStatus.CLOCK_CLASS) flags s.time.utc))

/-! ## Writes (R422, R424, R446, R449) -/

/-- Whether DOMAIN lies in the range of PROFILE and UNLOCK_NS above LOCK_NS. -/
def tmCtlOk (x : Nat) : Bool :=
  let d := getF x TmCtl.DOMAIN
  (if getF x TmCtl.PROFILE = 0 then decide (24 ≤ d ∧ d ≤ 43) else decide (44 ≤ d ∧ d ≤ 63)) &&
    decide (getF x TmCtl.LOCK_NS < getF x TmCtl.UNLOCK_NS)

/-- Whether a write of the time control object is refused with STATE: PROFILE changes while a port runs the clock service. -/
def tmCtlRefused (s : State) (x : Nat) : Bool :=
  getF x TmCtl.PROFILE != rd s tmC TmCtl.PROFILE && ports.any fun p => rd s (ptC p) PtCtl.PTP_MODE == 1

/-- The message intervals of R424: fixed under G.8275.1. -/
def ptCtlOk (s : State) (x : Nat) : Bool :=
  let iv (f : Fld) : Int := signedOf 4 (getF x f)
  let sy := iv PtCtl.LOG_SYNC
  let dl := iv PtCtl.LOG_DELAY
  let an := iv PtCtl.LOG_ANNOUNCE
  if rd s tmC TmCtl.PROFILE = 0 then decide (sy = -4 ∧ dl = -4 ∧ an = -3)
  else decide (-7 ≤ sy ∧ sy ≤ 0 ∧ -7 ≤ dl ∧ dl ≤ 0 ∧ -3 ≤ an ∧ an ≤ 0)

/-- Whether a write of a port time control object is refused with STATE: the service does not run on framed ports. -/
def ptCtlRefused (s : State) (p x : Nat) : Bool := isFramed s p && getF x PtCtl.PTP_MODE != 0

end Sys2Proof.Machine
end

