-- ==== Sys2Proof/Machine/Pair.lean ====
section
/-! DEFINITION. Protected pairs: the Yoke, roles, mirror and twin mode, switch-over and resynchronisation (R452 to R473). -/
namespace Sys2Proof.Machine

/-- SYNC: UNSYNCED, RESYNCING, SYNCED (R472). -/
def syUn : Nat := 0
/-- See `syUn`. -/
def syRe : Nat := 1
/-- See `syUn`. -/
def sySynced : Nat := 2
/-- SYNC of the unit. -/
def syncOf (s : State) : Nat := rd s prS PrStatus.SYNC
/-- Set SYNC. -/
def setSync (v : Nat) (s : State) : State := wr s prS PrStatus.SYNC v
/-- The unit is B. -/
def unitB (s : State) : Bool := flag s prC PrCtl.UNIT

/-! ## What is protected (R452, R458, R459) -/

/-- The protected ports. -/
def protPorts (s : State) : List Nat := ports.filter (protPort s)
/-- The egress queues under the ports of a mask. -/
def queuesUnder (s : State) (mask : Nat) : Nat :=
  ((List.range Config.egressQueues).filter fun e => mask.testBit (portOfQueue s e)).length
/-- PROT_QUEUES: the protected egress queues. -/
def protQueues (s : State) : Nat := if pairOn s then queuesUnder s (rd s prC PrCtl.PROT_PORTS) else 0

/-- The nodes on the path of a protected queue: the shapers of a bucket table entry, by level and number. -/
def shaperOf (n : Nat) : Option (Nat × Nat) :=
  match keyOfNo n with
  | some k =>
    match k.ty with
    | .shPort => some (0, k.idx)
    | .shGrp => some (1, k.idx)
    | .shTen => some (2, k.idx)
    | .shSub => some (3, k.idx)
    | .shQueue => some (4, k.idx)
    | _ => none
  | none => none

/-- The port above a node. -/
def portAbove (s : State) (lv n : Nat) : Nat :=
  match lv with
  | 0 => n
  | 1 => parentOf s 1 n
  | 2 => parentOf s 1 (parentOf s 2 n)
  | 3 => parentOf s 1 (parentOf s 2 (parentOf s 3 n))
  | _ => portOfQueue s n

/-- Protected egress queues that are not as after reset. -/
def usedQueues (s : State) : List Nat :=
  (((s.que.queues.map Prod.fst).filterMap fun q => if isEgress q then some (q - Config.voqs) else none) ++
    (listed .eqCtr s).map (· / 4)).dedup.filter (protQueue s)

/-- The item of a protected egress queue. -/
def queueItem (s : State) (e : Nat) : YokeItem :=
  let x := getQ s (egressNo e)
  let refs := x.head ++ x.pages.flatMap pageRefs ++ x.tail
  let ctr (i : Nat) : Nat := rdWord s (obj .eqCtr (4 * e + i))
  .queue (Fin.ofNat 262144 e) x.avg (ctr 0 - refs.length) (ctr 1 - (refs.map frameLen).sum) (ctr 2)

/-- Whether an SA slot is a transmit slot of a protected port. -/
def protSlot (s : State) (n : Nat) : Bool :=
  saState s n != saEmpty && rd s (saK n) SaSlot.DIR == 1 && protPort s (rd s (saK n) SaSlot.PORT)

/-- The items that mirror mode alone carries (R458). -/
def mirrorItems (s : State) : List YokeItem :=
  let base := rd s prC PrCtl.METER_BASE
  let count := rd s prC PrCtl.METER_COUNT
  (usedQueues s).map (queueItem s) ++
    (s.que.buckets.filterMap fun e =>
      match shaperOf e.1 with
      | some (lv, n) =>
        if protPort s (portAbove s lv n) then some (.shaper (Fin.ofNat 5 lv) n e.2.tc e.2.tp (tagOf s lv n)) else none
      | none =>
        match keyOfNo e.1 with
        | some k =>
          if k.ty = .meter ∧ base ≤ k.idx ∧ k.idx < base + count then
            some (.meter (Fin.ofNat 1048576 k.idx) e.2.tc e.2.tp)
          else none
        | none => none) ++
    ((listed .saSlot s).filter (protSlot s)).map fun n => .sa (Fin.ofNat 16384 n) (BitVec.ofNat 64 (rd s (saK n) SaSlot.PN))

/-- The items that both modes carry (R458). -/
def commonItems (s : State) : List YokeItem :=
  let bit (k : Key) (f : Fld) : Bool := flag s k f
  (((bfdEnabled s).filter fun i => protPort s (rd s (bfK i) BfdSess.PORT)).map fun i =>
    let x := bfdRun s i
    .bfd (Fin.ofNat 16384 i) (BitVec.ofNat 2 (rd s (bfK i) BfdSess.STATE)) (BitVec.ofNat 5 (rd s (bfK i) BfdSess.DIAG))
      (BitVec.ofNat 32 (rd s (bfK i) BfdSess.REMOTE_DISC)) x.rMult x.rDmti x.rRmri x.poll x.final) ++
  ((protPorts s).map fun p => .lacp (Fin.ofNat 48 p) (partnerOf s p) (bit (lpS p) LpStatus.SELECTED)
    (bit (lpS p) LpStatus.COLLECTING) (bit (lpS p) LpStatus.DISTRIBUTING)) ++
  ((protPorts s).map fun p => .ptp (Fin.ofNat 48 p) (BitVec.ofNat 4 (portState s p)) 0) ++
  (((List.range 24).filter fun g => flag s (grK g) ProtGrp.EN && protPort s (rd s (grK g) ProtGrp.WORK)).map fun g =>
    .group (Fin.ofNat 24 g) (bit (grK g) ProtGrp.SELECTED) (BitVec.ofNat 3 (rd s (grK g) ProtGrp.REQ))
      (if rd s (grK g) ProtGrp.REQ = rqWtr then tabGet s.tfu.wtrEnd g 0 - s.clock else 0))

/-- Every item of R458. -/
def itemsOf (s : State) : List YokeItem := (if twin s then [] else mirrorItems s) ++ commonItems s

/-- The bytes of an item: its header and its content (R458). -/
def itemBytes : YokeItem → Nat
  | .queue _ _ _ _ _ => 40
  | .shaper _ _ _ _ _ => 32
  | .meter _ _ _ => 24
  | .bfd _ _ _ _ _ _ _ _ _ => 40
  | .sa _ _ => 16
  | .lacp _ _ _ _ _ => 40
  | .ptp _ _ _ => 16
  | .group _ _ _ _ => 16

/-- Cut items into blocks of 1,008 B of payload. -/
def blocksOf : Nat → List YokeItem → List YokeItem → List (List YokeItem)
  | _, [], cur => [cur]
  | used, i :: rest, cur =>
    if 1008 < used + itemBytes i then cur :: blocksOf (itemBytes i) rest [i] else blocksOf (used + itemBytes i) rest (cur ++ [i])

/-! ## Applying items (R458) -/

/-- The standby takes an item as its own. -/
def applyItem (i : YokeItem) (s : State) : State :=
  let one (b : Bool) : Nat := if b then 1 else 0
  match i with
  | .queue e avg served bytes dropped =>
    let q := egressNo e.val
    let s := setQ q { getQ s q with avg := avg, avgSet := true } s
    let s := wrWord (wrWord s (obj .eqCtr (4 * e.val)) served) (obj .eqCtr (4 * e.val + 1)) bytes
    wrWord s (obj .eqCtr (4 * e.val + 2)) dropped
  | .shaper lv n tc tp tag => setTag lv.val n tag (setBucket (shaperKey lv.val n) { tc := tc, tp := tp, last := ivl s } s)
  | .meter m tc tp => setBucket (obj .meter m.val) { tc := tc, tp := tp, last := ivl s } s
  | .bfd i st diag remote mult dmti rmri poll final =>
    let k := bfK i.val
    let s := wr (wr (wr s k BfdSess.STATE st.toNat) k BfdSess.DIAG diag.toNat) k BfdSess.REMOTE_DISC remote.toNat
    setBfd i.val { timer := true, rMult := mult, rDmti := dmti, rRmri := rmri, poll := poll, final := final, last := ivl s,
                     tx := rd s k BfdSess.DMTI, rx := rd s k BfdSess.RMRI, due := ivl s } s
  | .sa slot pn => wr s (saK slot.val) SaSlot.PN pn.toNat
  | .lacp p partner sel col dis =>
    let t := match partner with
      | some l => tabPut s.line.partner p.val ⟨l, ivl s⟩
      | none => tabDel s.line.partner p.val
    let s := { s with line := { s.line with partner := t } }
    wr (wr (wr s (lpS p.val) LpStatus.SELECTED (one sel)) (lpS p.val) LpStatus.COLLECTING (one col)) (lpS p.val)
      LpStatus.DISTRIBUTING (one dis)
  | .ptp p st _ => wr s (ptS p.val) PtStatus.PORT_STATE st.toNat
  | .group g sel req wtr =>
    let s := { s with tfu := { s.tfu with wtrEnd := tabPut s.tfu.wtrEnd g.val (s.clock + wtr) } }
    takeActions (wr (wr s (grK g.val) ProtGrp.SELECTED (one sel)) (grK g.val) ProtGrp.REQ req.toNat)

/-- Apply items in order. -/
def applyItems (l : List YokeItem) (s : State) : State := forAll l applyItem s

/-! ## Resynchronisation (R466) -/

/-- The reference of a packet that waits for its record. -/
def ownRef (n : Nat) : Ref :=
  { pkt := n, lease := false, tc := 0, len := 0, prec := 0, mirror := none, words := [], group := none, occ := false, page := none,
    qseq := 0, from_ := ownerNone }

/-- Free the packets that wait for their records. -/
def dropFrames (s : State) : State :=
  let l := s.pair.frames.flatMap fun e => e.2.filterMap fun x => x.result.map PassResult.pkt
  let s := forAll l (fun n s => endRef (ownRef n) s) s
  { s with pair := { s.pair with frames := [], todo := [] } }

/-- Empty a queue of the packets received on protected ports. -/
def purgeQueue (q : Nat) (s : State) : State :=
  let x := getQ s q
  let mine (r : Ref) : Bool := match getPkt s r.pkt with
    | some p => protPort s p.arrPort
    | none => false
  let gone := (x.head ++ x.tail).filter mine
  let pages := x.pages.map fun p => { p with imgs := p.imgs.filter fun i => !protPort s i.pkt.arrPort }
  let s := setQ q { x with head := x.head.filter (!mine ·), tail := x.tail.filter (!mine ·), pages := pages } s
  forAll gone (fun r s => endRef r (leaveOcc r s)) s

/-- The standby of a twin pair starts from empty protected queues. -/
def emptyProtected (s : State) : State :=
  let s := dropFrames s
  let s := forAll ((s.que.queues.map Prod.fst).filter isEgress) (fun q s =>
    let e := q - Config.voqs
    if protQueue s e then settleActive e (emptyQueue q s).2 else s) s
  forAll ((s.que.queues.map Prod.fst).filter fun q => !isEgress q) purgeQueue s

/-- Start a resynchronisation on a standby: with a Yoke link up, outside the safe state (R466). -/
def startResync (s : State) : State :=
  if role s ≠ roleStandby ∨ (yokesUp s).isEmpty ∨ inSafe s then s
  else
    let s := setSync syRe { s with pair := { s.pair with full := false, recv := none, todo := [], aligned := [] } }
    yokeSpread .ask (if twin s then emptyProtected s else s)

/-- A standby becomes UNSYNCED, and resynchronises. -/
def unsync (s : State) : State := startResync (setSync syUn s)

/-- A mismatch (R461). -/
def mismatch (s : State) : State := unsync (raiseAt 0x64 2 3 prS (bump .prCtr 4 0 1 s))

/-! ## Records (R460, R461) -/

/-- The references a queue holds, in order. -/
def queueRefs (x : Queue) : List Ref := x.head ++ x.pages.flatMap pageRefs ++ x.tail

/-- Advance the next PN of a port's transmit slot as a transmission would. -/
def advancePn (p ether : Nat) (s : State) : State :=
  match secureOut s p ether with
  | .protect n => (takePn p n 0 s).2
  | _ => s

/-- Apply a dequeue record to the packet at the head of its queue. -/
def followDequeue (q : Nat) (s : State) : State :=
  if isEgress q then
    match dequeueFrom (q - Config.voqs) s with
    | some (r, s) =>
      let ether := match getPkt s r.pkt with
        | some p => p.content.etherType.toNat
        | none => 0
      endRef r (advancePn (portOfQueue s (q - Config.voqs)) ether s)
    | none => s
  else
    match popHead q s with
    | some (r, s) => endRef r (leaveOcc r s)
    | none => s

/-- Apply a record on the standby; none while its frame or its packet is not yet at hand. The first ingress record of a port after a
resynchronisation sets the count of the port's frames. -/
def applyRecord (r : YokeRec) (s : State) : Option State :=
  match r with
  | .bad => some (mismatch s)
  | .ingress p seq colour digest =>
    match tabGet s.pair.frames p.val [] with
    | [] => none
    | e :: rest =>
      let first := !s.pair.aligned.contains p.val
      let shift := if first then (seq.toNat + 65536 - e.seq % 65536) % 65536 else 0
      let rest := rest.map fun x => { x with seq := (x.seq + shift) % 65536 }
      let s := { s with pair := { s.pair with
        frames := tabPut s.pair.frames p.val rest
        fseq := tabPut s.pair.fseq p.val ((tabGet s.pair.fseq p.val 0 + shift) % 65536)
        aligned := if first then p.val :: s.pair.aligned else s.pair.aligned } }
      let same := decide ((e.seq + shift) % 65536 = seq.toNat ∧ e.digest = digest.toNat)
      match e.result with
      | none => some (if same then s else mismatch s)
      | some x =>
        if same then some (voqEnqueue x (if colour = 3 then none else some colour.toNat) s).2
        else some (mismatch (endRef (ownRef x.pkt) s))
  | .dequeue q seq =>
    let x := getQ s q
    let wrong (s : State) : State := if syncOf s = syRe then bump .prCtr 9 0 1 s else mismatch s
    match x.head with
    | r :: _ => some (if r.qseq = seq.toNat then followDequeue q s else wrong s)
    | [] => if (queueRefs x).any fun r => r.qseq == seq.toNat then none else some (wrong s)

/-- Apply the records that wait, in order, for as long as they can be applied. -/
def runTodo : Nat → State → State
  | 0, s => s
  | fuel + 1, s =>
    match s.pair.todo with
    | [] => s
    | r :: rest =>
      match applyRecord r { s with pair := { s.pair with todo := rest } } with
      | some s' => runTodo fuel s'
      | none => s

/-! ## Roles (R455) -/

/-- The protected ports send idle. -/
def idlePorts (s : State) : State := forAll (protPorts s) (fun p s => emit s (.pdu p .idle [])) s

/-- The unit becomes STANDBY, UNSYNCED, and resynchronises. -/
def becomeStandby (s : State) : State := unsync (setRole roleStandby (idlePorts s))

/-- The unit becomes ACTIVE. -/
def becomeActive (s : State) : State :=
  setRole roleActive (setSync syUn { s with pair := { s.pair with last := [], recv := none, todo := [] } })

/-- Resolve the roles by the peer's report (R455). -/
def resolveRole (s : State) : State :=
  match s.pair.peer with
  | none => s
  | some (pu, pr, ps) =>
    let r := role s
    if pu = unitB s then
      let s := atMost 0x64 3 8 0 sec (raiseAt 0x64 3 8 prS) s
      if r = roleActive ∧ pr = roleActive ∧ s.fuses.serial < ps then setRole roleWaiting (idlePorts s) else s
    else if r = roleWaiting then
      if pr = roleActive ∨ unitB s then becomeStandby s
      else if inSafe s then s else becomeActive s
    else if r = roleActive ∧ pr = roleActive ∧ unitB s then raiseAt 0x64 3 6 prS (becomeStandby s)
    else if r = roleStandby ∧ syncOf s = syUn then startResync s
    else s

/-- A switch-over is triggered (R463). -/
def triggerSwitch (s : State) : State :=
  if role s = roleStandby ∧ !flag s prC PrCtl.LOCK ∧ !inSafe s ∧ s.pair.trigger.isNone then
    { s with pair := { s.pair with trigger := some s.clock } }
  else s

/-! ## Blocks (R454, R455) -/

/-- The standby takes the items of a block of a delta; the last one applies the delta whole (R457). -/
def takeDelta (epoch : Nat) (last : Bool) (items : List YokeItem) (s : State) : State :=
  if role s ≠ roleStandby ∨ syncOf s = syUn then s
  else
    let got := match s.pair.recv with
      | some (e, l) => if e = epoch then some (l ++ items) else none
      | none => some items
    match got with
    | none => unsync (bump .prCtr 2 0 1 { s with pair := { s.pair with recv := none } })
    | some l =>
      if last then
        wr (bump .prCtr 1 0 1 (applyItems l { s with pair := { s.pair with recv := none } })) prS PrStatus.EPOCH_LAST epoch
      else { s with pair := { s.pair with recv := some (epoch, l) } }

/-- The last packet of each queue of protected packets: a resynchronisation of a twin pair waits until they are out (R466). -/
def owedNow (s : State) : List (Nat × Nat) :=
  s.que.queues.filterMap fun e =>
    match (queueRefs e.2).filter (fun r => isEgress e.1 || (getPkt s r.pkt).any fun p => protPort s p.arrPort) |>.getLast? with
    | some r => if isEgress e.1 && !protQueue s (e.1 - Config.voqs) then none else some (e.1, r.qseq)
    | none => none

/-- What a block in sequence carries. After a trigger only the delta in progress is still taken (R464). -/
def takeLoad (load : YokeLoad) (s : State) : State :=
  if s.pair.trigger.isSome then
    match load with
    | .delta e last items => if (s.pair.recv.map Prod.fst) = some e then takeDelta e last items s else s
    | _ => s
  else
    match load with
    | .empty => s
    | .delta e last items => takeDelta e last items s
    | .full last items =>
      if role s = roleStandby ∧ syncOf s = syRe then
        let s := applyItems items s
        { s with pair := { s.pair with full := s.pair.full || last } }
      else s
    | .records l =>
      if role s = roleStandby ∧ twin s ∧ syncOf s ≠ syUn then
        let s := { s with pair := { s.pair with todo := s.pair.todo ++ l } }
        runTodo (s.pair.todo.length + 1) s
      else s
    | .yieldWord => triggerSwitch s
    | .ask =>
      let s := { s with pair := { s.pair with full := true, owed := if twin s then owedNow s else [] } }
      if role s = roleActive then setSync syRe s else s

/-- Take the blocks that are in sequence. -/
def takeBlocks : Nat → State → State
  | 0, s => s
  | fuel + 1, s =>
    match tabGet? s.pair.held s.pair.rxSeq with
    | none => s
    | some load =>
      let n := s.pair.rxSeq
      let s := { s with pair := { s.pair with rxSeq := n + 1, held := tabDel s.pair.held n } }
      takeBlocks fuel (takeLoad load s)

/-- YOKE_BLOCK_RECEIVE (R454, R455, R457, R461, R463). -/
def execYokeBlockReceive (y : Fin 2) (b : YokeBlock) (s : State) : Answer :=
  .next (if !b.crcOk then bump .prCtr 7 0 1 s
    else
      let up := rd s prS PrStatus.YOKE_UP
      let s := { s with pair := { s.pair with blockAt := tabPut s.pair.blockAt y.val s.clock } }
      let s := if up = 0 then { s with pair := { s.pair with rxSeq := b.seq, held := [] } } else s
      let s := if up.testBit y.val then s else wr s prS PrStatus.YOKE_UP (up + 2 ^ y.val)
      if !pairOn s then { s with pair := { s.pair with rxSeq := b.seq + 1 } }
      else
        let held := if b.seq < s.pair.rxSeq then s.pair.held else tabPut s.pair.held b.seq b.load
        let s := { s with pair := { s.pair with peer := some (b.unit, b.role.toNat, b.serial.toNat), held := held } }
        let s := resolveRole s
        let s := takeBlocks (s.pair.held.length + 1) s
        if s.pair.trigger.isNone then runTodo (s.pair.todo.length + 1) s else s)

/-- YOKE_LINK_DOWN (R454, R463). -/
def execYokeLinkDown (y : Fin 2) (s : State) : Answer :=
  let up := rd s prS PrStatus.YOKE_UP
  .next (if !up.testBit y.val then s
    else
      let s := due (tabGet s.pair.blockAt y.val 0 + 1000) s
      let s := raiseAt 0x64 0 1 prS (wr s prS PrStatus.YOKE_UP (up - 2 ^ y.val))
      if up - 2 ^ y.val ≠ 0 then s
      else
        let s := { s with pair := { s.pair with peer := none, recv := none, held := [], quietAt := s.clock } }
        if role s = roleStandby ∨ role s = roleActive then setSync syUn s else s)

/-- YOKE_EMPTY_BLOCK (R454). -/
def execYokeEmptyBlock (y : Fin 2) (s : State) : Answer := .next (yokeSend y.val .empty s)

/-- PAIR_WAIT_TIMEOUT (R455): 1 s in WAITING with both Yoke links down; `toggling` is what PEER_EMBER does. -/
def execPairWaitTimeout (toggling : Bool) (s : State) : Answer :=
  .next (if !pairOn s ∨ role s ≠ roleWaiting ∨ !(yokesUp s).isEmpty then s
    else
      let s := due (s.pair.quietAt + sec) s
      let s := wr s prS PrStatus.PEER_ALIVE (if toggling then 1 else 0)
      if toggling then raiseAt 0x64 3 7 prS s
      else if inSafe s then s else becomeActive s)

/-! ## Epochs (R457 to R459, R466) -/

/-- Send items in blocks, marked as `f` says, the last block of them marked so. -/
def sendItems (f : Bool → List YokeItem → YokeLoad) (first : Nat) (l : List YokeItem) (s : State) : State :=
  let bs := blocksOf first l []
  let s := forAll bs.dropLast (fun b s => yokeSpread (f false b) s) s
  yokeSpread (f true (bs.getLastD [])) s

/-- The bound of a delta: 4.5 MB while both Yoke links are up, 2.25 MB while one is (R459). -/
def deltaBound (s : State) : Nat := 2359296 * (yokesUp s).length

/-- MIRROR_EPOCH_END (R457, R459, R466): the active unit sends what has changed since the last snapshot, and a full copy that it owes;
on the standby a delta that has not fully arrived is an overflow. -/
def execMirrorEpochEnd (s : State) : Answer :=
  .next (if !pairOn s then s
    else
      let k := nowNs s / 50000
      let s := reach ((k + 1) * 50000 * 65536) s
      if role s = roleStandby then
        match s.pair.recv with
        | some (e, _) =>
          if e + 1 < k then unsync (bump .prCtr 2 0 1 { s with pair := { s.pair with recv := none } }) else s
        | none => s
      else if role s ≠ roleActive ∨ (yokesUp s).isEmpty then s
      else
        let now := itemsOf s
        let delta := now.filter fun i => !s.pair.last.contains i
        let bytes := 64 + (delta.map itemBytes).sum
        let s := wr { s with pair := { s.pair with last := now } } prS PrStatus.DELTA_KB (min 65535 (bytes / 1024))
        let s := if deltaBound s < bytes then setSync syUn (raiseAt 0x64 1 2 prS (bump .prCtr 2 0 1 s))
          else
            wr (bump .prCtr 0 0 1 (sendItems (.delta k) 64 delta s)) prS PrStatus.EPOCH_LAST k
        if s.pair.full then { sendItems .full 0 now s with pair := { (sendItems .full 0 now s).pair with full := false } } else s)

/-- RECORD_BLOCK_FLUSH (R460): a block is sent 100 ns after its first record. -/
def execRecordBlockFlush (s : State) : Answer :=
  let s := if s.pair.records.isEmpty then s else due (s.pair.recFrom + 100) s
  .next (sendRecords (s.pair.records.length + 1) true s)

/-- RESYNC_COMPLETE (R466): the full copy has been applied, and on the active unit sent; in twin mode every earlier packet is out. -/
def execResyncComplete (s : State) : Answer :=
  .next (if !pairOn s ∨ syncOf s ≠ syRe then s
    else if role s = roleStandby ∧ s.pair.full then bump .prCtr 6 0 1 (setSync sySynced { s with pair := { s.pair with full := false } })
    else if role s = roleActive ∧ !s.pair.full ∧ s.pair.owed.all (fun e => !(queueRefs (getQ s e.1)).any fun r => r.qseq == e.2) then
      setSync sySynced { s with pair := { s.pair with owed := [] } }
    else s)

/-! ## Switch-over (R463 to R465) -/

/-- PEER_EMBER_LOSS (R463). -/
def execPeerEmberLoss (s : State) : Answer := .next (triggerSwitch (wr s prS PrStatus.PEER_ALIVE 0))

/-- Every active child on the path of a protected queue takes S = V (R324, R464). -/
def restartTags (s : State) : State :=
  let nodes := ((busyQueues s).filter (protQueue s)).flatMap (chainOf s)
  forAll nodes.dedup (fun x s =>
    if x.1 = 0 then s else setTag x.1 x.2 (vOf s (x.1 - 1) (parentOf s x.1 x.2) (bandOf s x.1 x.2)) s) s

/-- The next PN of a transmit slot advances by 2^PN_SKIP_LOG2; one that would pass its highest PN is EXHAUSTED (R464, R465). -/
def skipPn (n : Nat) (s : State) : State :=
  let pn := rd s (saK n) SaSlot.PN + 2 ^ rd s prC PrCtl.PN_SKIP_LOG2
  let top := topPn (rd s (saK n) SaSlot.SUITE)
  if top < pn then setSa n saExhausted (wr s (saK n) SaSlot.PN top) else wr s (saK n) SaSlot.PN pn

/-- SWITCHOVER_RESUME (R464): in mirror mode a delta in progress is waited for until its epoch ends, at most 50 us; the new active unit starts its queues, advances its PNs and becomes ACTIVE; packets that waited for a
record go on. -/
def execSwitchoverResume (s : State) : Answer :=
  .next (match s.pair.trigger with
    | none => s
    | some t =>
      let s := match s.pair.recv with
        | some (e, _) => if twin s then s else due (min (s.clock + ((e + 2) * 50000 - nowNs s)) (t + 50000)) s
        | none => s
      let s := { s with pair := { s.pair with recv := none } }
      let waiting := s.pair.frames.flatMap fun e => e.2.filterMap Expected.result
      let s := { s with pair := { s.pair with trigger := none, frames := [] },
                        que := { s.que with results := s.que.results ++ waiting } }
      if role s ≠ roleStandby ∨ inSafe s then s
      else
        let s := restartTags s
        let s := forAll ((listed .saSlot s).filter fun n => protSlot s n && saState s n == saValid) skipPn s
        raiseAt 0x64 3 5 prS (bump .prCtr 5 0 1 (idlePorts (becomeActive s))))

/-- The active unit yields (R463, R465): its records go first, then the yield word on both Yoke links. -/
def yieldActive (s : State) : State :=
  let s := sendRecords (s.pair.records.length + 1) true s
  becomeStandby (yokeSend 1 .yieldWord (yokeSend 0 .yieldWord s))

/-! ## PAIR_CONTROL (R469) -/

/-- The RESULT of PAIR_CONTROL: ROLE, SYNC, two reserved bytes. -/
def pairResult (s : State) : Bytes := toBytes 1 (role s) ++ toBytes 1 (syncOf s) ++ toBytes 2 0

/-- PAIR_CONTROL: the checks of R57 and R469, then its effect. -/
def pairControl (c : Hdr) (inRange : Bool) (res : BitVec 24) (allowed : State → Bool) (f : State → State) (s : State) : State :=
  let a := sessAddr c.sid.val
  checked c 0x0801 accControl (fun n => n == 4) (res == 0) 0x64 a (fun s =>
    need c inRange stRange a (fun s =>
      need c (allowed s) stState a (fun s =>
        let s := f s
        ok c (pairResult s) s) s) s) s

/-- FORCE_SWITCH (R463, R465, R469), and any ACTION that R469 does not list (R57). -/
def execForceSwitch (c : Hdr) (other : Unlisted) (res : BitVec 24) (s : State) : Answer :=
  .next (pairControl c other.isNone res
    (fun s => (role s == roleActive || role s == roleStandby) && syncOf s == sySynced && !(yokesUp s).isEmpty)
    (fun s => if role s = roleActive then yieldActive s else triggerSwitch s) s)

/-- RESYNC (R466, R469). -/
def execResync (c : Hdr) (res : BitVec 24) (s : State) : Answer :=
  .next (pairControl c true res (fun s => role s == roleStandby) unsync s)

/-- LOCK (R469). -/
def execLock (c : Hdr) (res : BitVec 24) (s : State) : Answer :=
  .next (pairControl c true res pairOn (fun s => wr s prC PrCtl.LOCK 1) s)

/-- UNLOCK (R469). -/
def execUnlock (c : Hdr) (res : BitVec 24) (s : State) : Answer :=
  .next (pairControl c true res pairOn (fun s => wr s prC PrCtl.LOCK 0) s)

/-! ## Writes (R455, R459, R471) -/

/-- Whether a write of PAIR control is refused with STATE. -/
def prCtlRefused (s : State) (new : Nat) : Bool :=
  let old := rdWord s prC
  let fixed : List Fld := [PrCtl.MODE, PrCtl.UNIT, PrCtl.PROT_PORTS, PrCtl.METER_BASE, PrCtl.METER_COUNT]
  let mask := getF new PrCtl.PROT_PORTS
  (pairOn s && fixed.any fun f => getF old f != getF new f) ||
    (!pairOn s && getF new PrCtl.PAIR_EN == 1 &&
      ((ports.any fun p => mask.testBit p && flag s (msK p) MsPort.MKA_EN) ||
        (getF new PrCtl.MODE == 0 && (decide (4096 < queuesUnder s mask) || decide (65536 < getF new PrCtl.METER_COUNT)))))

/-- PAIR control has been written: the pair starts in WAITING, or ends. -/
def prCtlWritten (old : Nat) (s : State) : State :=
  let was := getF old PrCtl.PAIR_EN == 1
  let fresh : Pair := { Pair.reset with txSeq := s.pair.txSeq, rxSeq := s.pair.rxSeq, blockAt := s.pair.blockAt, quietAt := s.clock }
  if pairOn s && !was then
    resolveRole (idlePorts (setRole roleWaiting (setSync syUn { s with pair := fresh })))
  else if !pairOn s && was then setRole 0 (setSync syUn { dropFrames s with pair := fresh })
  else s

end Sys2Proof.Machine
end

