-- ==== Sys2Proof/Machine/Lookup.lean ====
section
/-! DEFINITION. The lookup tables: keys and entries, pending sets and epochs, the TABLE commands, and the lookups of LPM and EXM
(R120 to R156, R579). -/
namespace Sys2Proof.Machine

/-! ## Tables, keys and entries (R120, R129, R134, R140) -/

/-- Whether a TABLE ID is a prefix table's. -/
def isPrefix (tid : Nat) : Bool := tid == 1 || tid == 5 || decide (0x100 ≤ tid ∧ tid ≤ 0xFFF)
/-- Whether a TABLE ID is one of R120. -/
def isTable (tid : Nat) : Bool := isPrefix tid || decide (2 ≤ tid ∧ tid ≤ 4)

/-- The descriptor of a table. -/
def tableKey (tid : Nat) : Key := if isPrefix tid then obj .ptDesc tid else obj .exmDesc tid

/-- Whether a table is PRESENT: the tables of EXM always are. -/
def present (s : State) (tid : Nat) : Bool := !isPrefix tid || rd s (obj .ptDesc tid) PtDesc.STATE == 1
/-- Whether a prefix table is of IPv6. -/
def isV6 (s : State) (tid : Nat) : Bool := flag s (obj .ptDesc tid) PtDesc.FAMILY

/-- The KEY length of a table in bytes. -/
def keyLenOf (s : State) (tid : Nat) : Nat := if isPrefix tid then (if isV6 s tid then 24 else 8) else 4
/-- The ENTRY length of a table in bytes, for a group of N members. -/
def entLenOf (tid n : Nat) : Nat := if isPrefix tid then 4 else if tid = 3 then 4 + 4 * n else 8

/-- Address bits of a prefix table. -/
def addrBits (s : State) (tid : Nat) : Nat := if isV6 s tid then 128 else 32

/-- The number of a key: a prefix's length and address, or an index. -/
def keyNumber (s : State) (tid : Nat) (key : Bytes) : Nat :=
  if isPrefix tid then ofBytes (key.take 1) * 2 ^ 128 + ofBytes (key.drop (key.length - addrBits s tid / 8))
  else ofBytes key

/-- Whether a key lies in its range: reserved bytes zero, LEN, and no address bit beyond LEN (R140). -/
def keyOk (s : State) (tid : Nat) (key : Bytes) : Bool :=
  if isPrefix tid then
    let b := addrBits s tid
    let len := ofBytes (key.take 1)
    let addr := ofBytes (key.drop (key.length - b / 8))
    decide (len ≤ b) && ofBytes ((key.drop 1).take (key.length - b / 8 - 1)) == 0 && addr % 2 ^ (b - len) == 0
  else decide (ofBytes key < if tid = 2 then 2 ^ 22 else 2 ^ 20)

/-- Whether a next-hop entry lies in its range (R129). -/
def nextHopOk (x : Nat) : Bool :=
  let d := destOf x
  d.tc == 0 &&
    match d.kind with
    | 0 => d.node == 0 && d.port == 0 && d.arg == 0
    | 1 => decide (d.port < 48)
    | 2 => d.node == 0 && d.port == 0 && d.arg / 2 ^ 20 == 0
    | 3 => d.node == 0 && d.port == 0 && d.arg / 2 ^ 8 == 0
    | 4 => d.node == 0 && d.port == 0 && d.arg / 2 ^ 8 == 0
    | 5 => d.node == 0 && d.port == 0 && d.arg / 2 ^ 16 == 0
    | _ => false

/-- Whether a label entry lies in its range (R134). -/
def labelOk (x : Nat) : Bool :=
  let out := bitsAt x 41 20
  let tab := bitsAt x 22 16
  let nh := bitsAt x 0 22
  bitsAt x 38 3 == 0 &&
    match bitsAt x 61 3 with
    | 0 => out == 0 && tab == 0 && nh == 0
    | 1 => out == 0 && tab == 0 && nh == 0
    | 2 => tab == 0
    | 3 => out == 0 && tab == 0
    | 4 => out == 0 && nh == 0 && isPrefix tab
    | _ => false

/-- The members that a group's ENTRY names. -/
def ecmpMembersOf : Nat → Bytes → List Nat
  | 0, _ => []
  | n + 1, bs => ofBytes (bs.take 4) :: ecmpMembersOf n (bs.drop 4)

/-- An ENTRY as the tables hold it: one word, or a group's members. -/
def entryWords (tid : Nat) (bs : Bytes) : List Nat :=
  if tid = 3 then ecmpMembersOf (ofBytes (bs.take 2)) (bs.drop 4) else [ofBytes bs]

/-- Whether an ENTRY's length fits its table (R140). -/
def entryLenOk (tid : Nat) (bs : Bytes) : Bool := bs.length == entLenOf tid (ofBytes (bs.take 2))

/-- Whether an ENTRY lies in its range. -/
def entryOk (tid : Nat) (bs : Bytes) : Bool :=
  if isPrefix tid then ofBytes bs / 2 ^ 22 % 2 ^ 9 == 0
  else
    match tid with
    | 2 => nextHopOk (ofBytes bs)
    | 3 =>
      let n := ofBytes (bs.take 2)
      decide (1 ≤ n ∧ n ≤ 512) && ofBytes ((bs.drop 2).take 2) == 0 &&
        (entryWords 3 bs).all fun m => decide (m < 2 ^ 22)
    | _ => labelOk (ofBytes bs)

/-- The bytes of an entry, as TABLE_READ returns them (R142). -/
def entryBytes (tid : Nat) (e : Option (List Nat)) : Bytes :=
  match e with
  | some l =>
    if tid = 3 then toBytes 2 l.length ++ [0, 0] ++ l.flatMap (toBytes 4)
    else toBytes (entLenOf tid 0) (l.headD 0)
  | none => toBytes (if tid = 3 then 4 else entLenOf tid 0) 0

/-! ## What is committed, pending and live (R121, R125, R144, R147) -/

/-- The newest epoch. -/
def epochHead (s : State) : Epoch := s.tbl.epochs.headD ⟨0, []⟩
/-- A table of an epoch. -/
def tableIn (e : Epoch) (tid : Nat) : Entries := tabGet e.tables tid []
/-- The epoch that a pass is bound to. -/
def epochOf (s : State) (n : Nat) : Epoch := (s.tbl.epochs.find? fun e => e.number == n).getD (epochHead s)

/-- The open pending set of a table. -/
def pendOf (s : State) (tid : Nat) : Changes := tabGet s.tbl.pend tid []
/-- The closed sets of commits that have not switched, oldest first, then the open one. -/
def setsOf (s : State) (tid : Nat) : List Changes :=
  (s.tbl.commits.map fun c => tabGet c.sets tid []) ++ [pendOf s tid]

/-- The entry of a key as it will stand once every pending change is committed (R141, R142). -/
def futureEntry (s : State) (tid key : Nat) : Option (List Nat) :=
  match (setsOf s tid).reverse.findSome? fun t => tabGet? t key with
  | some e => e
  | none => tabGet? (tableIn (epochHead s) tid) key

/-- The pending inserts and deletes of a table (R155). -/
def pendingCount (s : State) (tid : Nat) : Nat := ((setsOf s tid).map List.length).sum

/-- Keys of a table that are live in either epoch (R121). -/
def liveKeys (s : State) (tid : Nat) : List Nat := (s.tbl.epochs.flatMap fun e => (tableIn e tid).map Prod.fst).dedup

/-- Pending inserts of new keys: a key that the newest epoch does not hold (R121). -/
def newKeys (s : State) (tid : Nat) : List Nat :=
  (((setsOf s tid).flatMap fun t => t.filterMap fun c => if c.2.isSome then some c.1 else none).filter fun k =>
    (tabGet? (tableIn (epochHead s) tid) k).isNone).dedup

/-- The prefix tables that hold anything. -/
def prefixTables (s : State) : List Nat :=
  ((s.tbl.epochs.flatMap fun e => e.tables.map Prod.fst) ++ (s.tbl.commits.flatMap fun c => c.sets.map Prod.fst) ++
    s.tbl.pend.map Prod.fst).dedup.filter isPrefix

/-- USED: the prefixes counted under R121. A key whose delete is committed while the old epoch lives, and that is inserted again, counts
twice: as the entry removed and as the pending insert. -/
def usedPrefixes (s : State) : Nat := ((prefixTables s).map fun t => (liveKeys s t).length + (newKeys s t).length).sum

/-- Apply closed changes to a table. -/
def applyChanges (t : Entries) (l : Changes) : Entries :=
  l.foldl (fun t c => match c.2 with
    | some e => tabPut t c.1 e
    | none => tabDel t c.1) t

/-! ## The trie and its leaves (R123 to R125) -/

/-- The depths at which a table's crown nodes stand, and the end of the last stride: 32 or 128 address bits (R123). -/
def nodeDepths (b : Nat) : List Nat := if b = 128 then [0, 20, 32, 40, 48, 56, 64, 80, 96, 112] else [0, 16, 24, 28]
/-- Where the stride of a node ends. -/
def strideEnd (b d : Nat) : Nat := ((nodeDepths b ++ [b]).find? fun x => decide (d < x)).getD b

/-- The length of a prefix key, and its first n address bits. -/
def prefixLen (key : Nat) : Nat := key / 2 ^ 128
/-- See `prefixLen`. -/
def prefixTop (b key n : Nat) : Nat := key % 2 ^ 128 / 2 ^ (b - n)

/-- The prefixes of a table as (key, value). -/
def prefixesOf (t : Entries) : List (Nat × Nat) := t.map fun e => (e.1, e.2.headD 0)

/-- Whether a table has a node at a depth for an address region: the root, or one under which a longer prefix lies (R123). -/
def hasNode (b : Nat) (t : Entries) (d bits : Nat) : Bool :=
  d == 0 || t.any fun e => decide (d < prefixLen e.1) && prefixTop b e.1 d == bits

/-- The depths of the nodes that a lookup walks. -/
def walkOf (b : Nat) (t : Entries) (a : Nat) : List Nat := (nodeDepths b).filter fun d => hasNode b t d (a / 2 ^ (b - d))

/-- The prefixes that end inside the stride of a node. -/
def strideOf (b : Nat) (t : Entries) (d bits : Nat) : List (Nat × Nat) :=
  (prefixesOf t).filter fun e =>
    decide (d < prefixLen e.1 ∧ prefixLen e.1 ≤ strideEnd b d) && prefixTop b e.1 d == bits

/-- The prefixes that a leaf for a region must hold: those that lie in it, and the longest that covers it all. -/
def regionOf (b : Nat) (l : List (Nat × Nat)) (n bits : Nat) : List (Nat × Nat) :=
  let inside := l.filter fun e => decide (n ≤ prefixLen e.1) && prefixTop b e.1 n == bits
  let cover := l.filter fun e => decide (prefixLen e.1 < n) && prefixTop b e.1 (prefixLen e.1) == bits / 2 ^ (n - prefixLen e.1)
  let longest := cover.foldl (fun (x : Option (Nat × Nat)) e =>
    if x.any fun y => decide (prefixLen e.1 ≤ prefixLen y.1) then x else some e) none
  if inside.any fun e => prefixLen e.1 == n then inside else inside ++ longest.toList

/-- BASE_LEN of a leaf: the length of its region, or of its shortest prefix where that is shorter (R124). -/
def baseLen (n : Nat) (l : List (Nat × Nat)) : Nat := (l.map fun e => prefixLen e.1).foldl min (min n 127)

/-- Whether the prefixes of a region fit in one leaf: up to 6, with suffixes of up to 16 bits (R123, R124). -/
def leafFits (n : Nat) (l : List (Nat × Nat)) : Bool :=
  decide (l.length ≤ 6) && l.all fun e => decide (prefixLen e.1 ≤ baseLen n l + 16)

/-- The leaf of a region: its entries, longest first. -/
def leafFor (epoch tid n bits : Nat) (l : List (Nat × Nat)) : Leaf :=
  { tid := tid, len := n, bits := bits, gen := Config.leafGen epoch tid n bits,
    entries := l.mergeSort fun x y => decide (prefixLen y.1 ≤ prefixLen x.1) }

/-- The leaf for an address under a node, none where the node has none for it. A region is split until its prefixes fit in one leaf, and
further where the device chooses to. -/
def leafUnder (epoch tid b a : Nat) (l : List (Nat × Nat)) : Nat → Nat → Option Leaf
  | 0, n => if (regionOf b l n (a / 2 ^ (b - n))).isEmpty then none
      else some (leafFor epoch tid n (a / 2 ^ (b - n)) (regionOf b l n (a / 2 ^ (b - n))))
  | fuel + 1, n =>
    let r := regionOf b l n (a / 2 ^ (b - n))
    if r.isEmpty then none
    else if leafFits n r && !Config.leafSplit epoch tid n (a / 2 ^ (b - n)) then some (leafFor epoch tid n (a / 2 ^ (b - n)) r)
    else leafUnder epoch tid b a l fuel (n + 1)

/-- Every leaf under a node's region. -/
def leavesUnder (epoch tid b : Nat) (l : List (Nat × Nat)) : Nat → Nat → Nat → List Leaf
  | 0, n, bits => if (regionOf b l n bits).isEmpty then [] else [leafFor epoch tid n bits (regionOf b l n bits)]
  | fuel + 1, n, bits =>
    let r := regionOf b l n bits
    if r.isEmpty then []
    else if leafFits n r && !Config.leafSplit epoch tid n bits then [leafFor epoch tid n bits r]
    else leavesUnder epoch tid b l fuel (n + 1) (2 * bits) ++ leavesUnder epoch tid b l fuel (n + 1) (2 * bits + 1)

/-- The leaf that a lookup of an address needs: the one under the deepest node it reaches (R123). -/
def leafOf (e : Epoch) (tid b a : Nat) : Option Leaf :=
  let t := tableIn e tid
  let d := (walkOf b t a).foldl max 0
  leafUnder e.number tid b a (strideOf b t d (a / 2 ^ (b - d))) (strideEnd b d - d) d

/-- The nodes of a table, as depth and bits. -/
def trieNodes (b : Nat) (t : Entries) : List (Nat × Nat) :=
  ((0, 0) :: t.flatMap fun e => (nodeDepths b).filterMap fun d =>
    if d < prefixLen e.1 then some (d, prefixTop b e.1 d) else none).dedup

/-- The leaves of a table in an epoch. -/
def leavesOf (s : State) (e : Epoch) (tid : Nat) : List Leaf :=
  let b := addrBits s tid
  let t := tableIn e tid
  (trieNodes b t).flatMap fun (d, bits) => leavesUnder e.number tid b (strideOf b t d bits) (strideEnd b d - d) d bits

/-- The leaves of an epoch. -/
def epochLeaves (s : State) (e : Epoch) : List Leaf :=
  ((e.tables.map Prod.fst).filter isPrefix).flatMap fun tid => if (tableIn e tid).isEmpty then [] else leavesOf s e tid

/-- The leaves of the live epochs, the older epoch's first. -/
def liveLeaves (s : State) : List Leaf := (s.tbl.epochs.reverse.flatMap (epochLeaves s)).dedup

/-- Whether a leaf is pinned: it holds a prefix written with PIN 1 (R125). -/
def Leaf.pinned (l : Leaf) : Bool := l.entries.any fun e => e.2.testBit 31

/-- Whether any entry of some prefix tables has PIN 1. -/
def anyPin (e : Epoch) : Bool := e.tables.any fun t => isPrefix t.1 && t.2.any fun x => (x.2.headD 0).testBit 31

/-- The set of the leaf cache that a line falls in: 16,384 sets (R125). -/
def cacheSet (line : Nat) : Nat := line % 16384

/-- Whether leaves may lie in some lines: one leaf a line, and at most 4 pinned leaves a set (R125). -/
def placingOk (l : List (Leaf × Nat)) : Bool :=
  decide (l.map Prod.snd).Nodup &&
    l.all fun x => decide ((l.filter fun y => y.1.pinned && cacheSet y.2 == cacheSet x.2).length ≤ 4)

/-- The line of every live leaf: where the device would place them when that is a placing, else in order from line 0, the pinned ones
first. -/
def placing (s : State) : List (Leaf × Nat) :=
  let l := liveLeaves s
  let want := l.map fun x => (x, Config.leafLine x.tid x.len x.bits x.gen % 33554432)
  if placingOk want then want else ((l.filter Leaf.pinned) ++ l.filter fun x => !x.pinned).zipIdx

/-- The line of a leaf. -/
def lineOf (s : State) (l : Leaf) : Nat := (((placing s).find? fun x => x.1 == l).map Prod.snd).getD 0

/-- The regions of the pinned leaves of some epochs. -/
def pinRegions (s : State) (l : List Epoch) : List (Nat × Nat × Nat) :=
  (((l.filter anyPin).flatMap (epochLeaves s)).filter Leaf.pinned).map (fun x => (x.tid, x.len, x.bits)) |>.dedup

/-- PINNED: the pinned leaves of the live epochs (R125, R154). -/
def pinnedLeaves (s : State) : Nat := (pinRegions s s.tbl.epochs).length

/-- The tables as they will stand once every pending change is committed. -/
def futureEpoch (s : State) : Epoch :=
  { number := (epochHead s).number + s.tbl.commits.length + 1,
    tables := (prefixTables s).map fun t => (t, (setsOf s t).foldl applyChanges (tableIn (epochHead s) t)) }

/-- The groups of the live epochs with their members (R579). -/
def liveGroups (s : State) : List (Nat × List Nat) := (s.tbl.epochs.flatMap fun e => tableIn e 3).dedup

/-- Member slots that either live epoch holds (R579). -/
def usedSlots (s : State) : Nat := ((liveGroups s).map fun g => g.2.length).sum

/-- Whether runs of member slots lie apart and within the store. -/
def runsOk : List ((Nat × List Nat) × Nat) → Bool
  | [] => true
  | x :: rest =>
    decide (x.2 + x.1.2.length ≤ 1048576) &&
      rest.all (fun y => decide (x.2 + x.1.2.length ≤ y.2 ∨ y.2 + y.1.2.length ≤ x.2)) && runsOk rest

/-- Runs one after the other from a slot on. -/
def runsFrom : Nat → List (Nat × List Nat) → List ((Nat × List Nat) × Nat)
  | _, [] => []
  | n, g :: rest => (g, n) :: runsFrom (n + g.2.length) rest

/-- The first member slot of every live group: where the device would place the runs when they lie apart, else one after the other
(R579). -/
def memberRuns (s : State) : List ((Nat × List Nat) × Nat) :=
  let l := liveGroups s
  let want := l.map fun g => (g, Config.memberRun (epochHead s).number g.1 % 1048576)
  if runsOk want then want else runsFrom 0 l

/-- The first member slot of a group. -/
def runOf (s : State) (g : Nat × List Nat) : Nat := (((memberRuns s).find? fun x => x.1 == g).map Prod.snd).getD 0

/-! ## Changes (R139, R141, R143 to R145) -/

/-- A change joins the open pending set of its table (R144). -/
def addChange (tid key : Nat) (e : Option (List Nat)) (s : State) : State :=
  { s with tbl := { s.tbl with pend := tabPut s.tbl.pend tid (tabPut (pendOf s tid) key e), unbuilt := s.tbl.unbuilt + 1,
                               taken := s.tbl.taken + 1 } }

/-- Whether an insert keeps the pinned leaves within 65,536: those of the live epochs and those that the pending sets will make (R125). -/
def pinsFit (s : State) (tid key : Nat) (e : List Nat) : Bool :=
  let t := addChange tid key (some e) s
  let n (s : State) : Nat := (pinRegions s (futureEpoch s :: s.tbl.epochs)).length
  !((futureEpoch t :: t.tbl.epochs).any anyPin) || decide (n t ≤ 65536) || decide (n t ≤ n s)

/-- The condition of step 7 on a change: the table, the limits, and a delete's key (R121, R125, R139, R141, R579). -/
def changeOk (s : State) (tid key : Nat) (e : Option (List Nat)) : Bool :=
  present s tid &&
    match e with
    | none => (futureEntry s tid key).isSome
    | some l =>
      if isPrefix tid then
        ((tabGet? (tableIn (epochHead s) tid) key).isSome || (newKeys s tid).contains key ||
            decide (usedPrefixes s < Config.maxPrefixes)) && pinsFit s tid key l
      else if tid = 3 then decide (usedSlots s + l.length ≤ 1048576) else true

/-- Changes the builder may still owe (R145). -/
def maxUnbuilt : Nat := 1048576
/-- Turns that lie within 1 ms at 2,000,000 changes a second (R145). -/
def maxTurns : Nat := 2000

/-- An insert or delete that has passed its checks takes a place among the turns, or is answered BUSY (R145). -/
def applyTurn (c : Hdr) (tid key : Nat) (e : Option (List Nat)) (s : State) : State :=
  if maxUnbuilt < s.tbl.unbuilt + s.tbl.turns.length + 1 then
    busyFor c ((s.tbl.unbuilt + s.tbl.turns.length + 1 - maxUnbuilt + 9) / 10) s
  else if maxTurns ≤ s.tbl.turns.length then busyFor c ((s.tbl.turns.length + 1 - maxTurns + 1) / 2) s
  else setPhase c .turn { s with tbl := { s.tbl with turns := s.tbl.turns ++ [⟨c, tid, key, e⟩] } }

/-- TABLE_INSERT (R139, R140). -/
def execTableInsert (c : Hdr) (tid keyLen entLen res : BitVec 16) (key entry : Bytes) (s : State) : Answer :=
  let t := tid.toNat
  let lenOk (n : Nat) : Bool :=
    n == 8 + keyLen.toNat + entLen.toNat && key.length == keyLen.toNat && entry.length == entLen.toNat &&
      (!isTable t || (keyLen.toNat == keyLenOf s t && entryLenOk t entry))
  let a := addrOf (tableKey t)
  .next (checked c 0x0301 accConfig lenOk (res == 0) 0x30 (if isTable t then a else sessAddr c.sid.val) (fun s =>
    need c (isTable t) stRange (sessAddr c.sid.val) (need c (keyOk s t key && entryOk t entry) stRange a
      (applyTurn c t (keyNumber s t key) (some (entryWords t entry)))) s) s)

/-- TABLE_DELETE (R141). -/
def execTableDelete (c : Hdr) (tid keyLen : BitVec 16) (res : BitVec 32) (key : Bytes) (s : State) : Answer :=
  let t := tid.toNat
  let lenOk (n : Nat) : Bool :=
    n == 8 + keyLen.toNat && key.length == keyLen.toNat && (!isTable t || keyLen.toNat == keyLenOf s t)
  let a := addrOf (tableKey t)
  .next (checked c 0x0302 accConfig lenOk (res == 0) 0x30 (if isTable t then a else sessAddr c.sid.val) (fun s =>
    need c (isTable t) stRange (sessAddr c.sid.val) (need c (keyOk s t key) stRange a
      (applyTurn c t (keyNumber s t key) none)) s) s)

/-- TABLE_CHANGE_TURN (R145): the oldest waiting change joins the pending set, and its reply follows. -/
def execTableChangeTurn (s : State) : Answer :=
  .next (match s.tbl.turns with
    | [] => s
    | x :: rest =>
      let s := { s with tbl := { s.tbl with turns := rest } }
      if (waitingOf s x.hdr).isNone then s
      else if changeOk s x.tid x.key x.entry then done x.hdr (addChange x.tid x.key x.entry s)
      else refuse x.hdr stState (addrOf (tableKey x.tid)) s)

/-- A record of a BULK_LOAD: its change, or the status that it would have given. -/
def bulkRecord (s : State) (t : Nat) (del : Bool) (r : Bytes × Bytes) : Except Nat State :=
  let e := if del then none else some (entryWords t r.2)
  if !keyOk s t r.1 || (!del && !entryOk t r.2) then .error stRange
  else if !changeOk s t (keyNumber s t r.1) e then .error stState
  else .ok (addChange t (keyNumber s t r.1) e s)

/-- The records of a BULK_LOAD in order: all of them, or the first that fails with its index (R143). -/
def bulkAll (t : Nat) (del : Bool) : List (Bytes × Bytes) → Nat → State → Except (Nat × Nat) State
  | [], _, s => .ok s
  | r :: rest, i, s =>
    match bulkRecord s t del r with
    | .error st => .error (st, i)
    | .ok s => bulkAll t del rest (i + 1) s

/-- The first record whose key or entry is out of range. -/
def bulkRange (s : State) (t : Nat) (del : Bool) (l : List (Bytes × Bytes)) : Option Nat :=
  l.findIdx? fun r => !keyOk s t r.1 || (!del && !entryOk t r.2)

/-- BULK_LOAD (R143). -/
def execBulkLoad (c : Hdr) (tid keyLen entLen flags : BitVec 16) (count res : BitVec 32) (records : List (Bytes × Bytes))
    (s : State) : Answer :=
  let t := tid.toNat
  let del := flags.getLsbD 0
  let known := isTable t && t != 3
  let lenOk (n : Nat) : Bool :=
    n == 16 + count.toNat * (keyLen.toNat + entLen.toNat) && records.length == count.toNat &&
      records.all (fun r => r.1.length == keyLen.toNat && r.2.length == entLen.toNat) &&
      (!known || (keyLen.toNat == keyLenOf s t && entLen.toNat == if del then 0 else entLenOf t 0))
  let a := if isTable t then addrOf (tableKey t) else sessAddr c.sid.val
  .next (checked c 0x0305 accConfig lenOk (res == 0 && flags.toNat / 2 == 0) 0x30 a (fun s =>
    need c known stRange a (fun s =>
      match bulkRange s t del records with
      | some i => refuseWith c stRange a (toBytes 4 i) s
      | none =>
        let n := s.tbl.unbuilt + s.tbl.turns.length + records.length
        if maxUnbuilt < n then busyFor c ((n - maxUnbuilt + 9) / 10) s
        else if !present s t then refuse c stState a s
        else
          match bulkAll t del records 0 s with
          | .error (st, i) => refuseWith c st a (toBytes 4 i) s
          | .ok s' => ok c (toBytes 4 0xFFFFFFFF) s') s) s)

/-! ## TABLE_COMMIT and epochs (R146 to R149) -/

/-- Fix T_sw of the oldest commit once it is built and the previous epoch has retired: at least 5 µs later (R148). -/
def fixSwitch (s : State) : State :=
  match s.tbl.commits with
  | c :: rest =>
    if c.phase = .built ∧ s.tbl.epochs.length ≤ 1 then
      { s with tbl := { s.tbl with commits := { c with phase := .fixed (s.ct + 5000 * 65536) } :: rest } }
    else s
  | [] => s

/-- Commits at the head that found nothing pending are answered (R146). -/
def settleCommits : Nat → State → State
  | 0, s => s
  | n + 1, s =>
    match s.tbl.commits with
    | c :: rest =>
      if c.changes = 0 then
        settleCommits n (ok c.hdr (toBytes 8 (epochHead s).number ++ toBytes 4 0)
          { s with tbl := { s.tbl with commits := rest } })
      else fixSwitch s
    | [] => s

/-- TABLE_COMMIT (R146): the pending sets close and wait for their epoch. -/
def execTableCommit (c : Hdr) (tid res : BitVec 16) (s : State) : Answer :=
  let t := tid.toNat
  let a := if isTable t then addrOf (tableKey t) else sessAddr c.sid.val
  .next (checked c 0x0303 accConfig (fun n => n == 4) (res == 0) 0x30 a (fun s =>
    need c (t == 0 || isTable t) stRange a (need c (t == 0 || present s t) stState a (fun s =>
      let sets := s.tbl.pend.filter fun e => (t == 0 || e.1 == t) && !e.2.isEmpty
      let k : Commit :=
        { hdr := c, sets := sets, changes := (sets.map fun e => e.2.length).sum, mark := s.tbl.taken, phase := .building }
      let pend := s.tbl.pend.filter fun e => !(t == 0 || e.1 == t)
      let s := defer c 0x30 { s with tbl := { s.tbl with pend := pend, commits := s.tbl.commits ++ [k] } }
      settleCommits s.tbl.commits.length s)) s) s)

/-- COMMIT_BUILD_DONE (R145, R148): the closed changes of the oldest commit that was building are built, and all that were accepted before
it closed. -/
def execCommitBuildDone (s : State) : Answer :=
  .next (match s.tbl.commits with
    | c :: rest =>
      if c.phase = .building then
        fixSwitch { s with tbl := { s.tbl with commits := { c with phase := .built } :: rest,
                                               unbuilt := min s.tbl.unbuilt (s.tbl.taken - c.mark) } }
      else fixSwitch s
    | [] => s)

/-- Put a leaf at the front of the cache: within its set of 12 the least recently used one that is not pinned goes (R125). -/
def cacheLeaf (s : State) (x : Leaf) (cache : List Leaf) : List Leaf :=
  let c := x :: cache.filter fun i => i != x
  let set := c.filter fun i => cacheSet (lineOf s i) == cacheSet (lineOf s x)
  if set.length ≤ 12 then c
  else
    match set.reverse.find? fun i => !i.pinned with
    | some v => c.filter fun i => i != v
    | none => c

/-- The pinned leaves of the newest epoch load into the cache (R125). -/
def loadPins (s : State) : State :=
  if !anyPin (epochHead s) then s
  else
    let pins := (epochLeaves s (epochHead s)).filter fun x => x.pinned && !s.tbl.cache.contains x
    { s with tbl := { s.tbl with cache := pins.foldl (fun c x => cacheLeaf s x c) s.tbl.cache } }

/-- EPOCH_SWITCH (R146, R148): at T_sw new passes bind to the new epoch, pinned leaves load, and the reply is sent. -/
def execEpochSwitch (s : State) : Answer :=
  .next (match s.tbl.commits with
    | c :: rest =>
      match c.phase with
      | .fixed t =>
        let s := reach t s
        let old := epochHead s
        let tables := c.sets.foldl (fun ts e => tabPut ts e.1 (applyChanges (tabGet ts e.1 []) e.2)) old.tables
        let lost := s.tbl.lost.filter fun l => (tabGet? (tabGet c.sets l.1 []) l.2).isNone
        let s := { s with tbl := { s.tbl with epochs := [⟨old.number + 1, tables⟩, old], commits := rest, lost := lost } }
        let s := loadPins s
        let s := ok c.hdr (toBytes 8 (old.number + 1) ++ toBytes 4 c.changes) s
        settleCommits (rest.length + 1) s
      | _ => s
    | [] => s)

/-- EPOCH_RETIRE (R148): the last pass bound to the old epoch has ended; leaves that only it held are freed. -/
def execEpochRetire (s : State) : Answer :=
  .next (match s.tbl.epochs with
    | new :: old :: _ =>
      if s.eng.threads.any fun t => t.2.epoch == old.number then s
      else
        let s := { s with tbl := { s.tbl with epochs := [new] } }
        let keep := if s.tbl.cache.isEmpty then [] else liveLeaves s
        fixSwitch { s with tbl := { s.tbl with cache := s.tbl.cache.filter fun x => keep.contains x } }
    | _ => s)

/-- TABLE_READ (R142, R151). -/
def execTableRead (c : Hdr) (tid keyLen : BitVec 16) (view : BitVec 8) (res : BitVec 24) (key : Bytes) (s : State) : Answer :=
  let t := tid.toNat
  let lenOk (n : Nat) : Bool :=
    n == 8 + keyLen.toNat && key.length == keyLen.toNat && (!isTable t || keyLen.toNat == keyLenOf s t)
  let a := if isTable t then addrOf (tableKey t) else sessAddr c.sid.val
  .next (checked c 0x0304 accRead lenOk (res == 0) 0x30 a (fun s =>
    need c (isTable t && decide (view.toNat ≤ 1)) stRange a (need c (keyOk s t key) stRange a
      (need c (present s t) stState a (fun s =>
        let k := keyNumber s t key
        if s.tbl.lost.contains (t, k) then refuse c stIntegrity a s
        else
          let e := if view = 0 then tabGet? (tableIn (epochHead s) t) k else futureEntry s t k
          ok c ([if e.isSome then 1 else 0, 0, 0, 0] ++ entryBytes t e) s))) s) s)

/-- Whether a write to a prefix table descriptor is allowed (R155). -/
def descWriteOk (s : State) (tid new : Nat) : Bool :=
  let k := obj .ptDesc tid
  let st := rd s k PtDesc.STATE
  let st' := getF new PtDesc.STATE
  let fam := getF new PtDesc.FAMILY == rd s k PtDesc.FAMILY
  if st = st' then fam
  else if st' = 1 then true
  else tid != 1 && tid != 5 && fam && (tableIn (epochHead s) tid).isEmpty && pendingCount s tid == 0

/-! ## Lookups (R122 to R138, R150 to R152) -/

/-- A result: RD, M and E. -/
abbrev LookOut := Word × Bool × Bool

/-- A request in error (R128). -/
def lookError : LookOut := (0, false, true)
/-- A miss. -/
def lookMiss : LookOut := (0, false, false)

/-- A key register of a request. -/
def keyReg (k : Look) (i : Nat) : Nat := (k.key.getD i 0).toNat

/-- The table that an LPM request names and its address, none when it is in error (R126, R128). -/
def lpmRequest (s : State) (k : Look) : Option (Nat × Nat) :=
  let a4 := keyReg k 0 % 2 ^ 32
  let a6 := keyReg k 0 * 2 ^ 64 + keyReg k 1
  let serve (tid : Nat) (v6 : Bool) (a : Nat) : Option (Nat × Nat) :=
    if isPrefix tid && present s tid && isV6 s tid == v6 then some (tid, a) else none
  if k.klen = 2 ∧ k.raBig then none
  else if k.imm = 0xFFFF then
    match k.klen with
    | 1 => serve (keyReg k 1 % 2 ^ 16) false a4
    | 2 => serve (keyReg k 2 % 2 ^ 16) true a6
    | _ => none
  else
    match k.klen with
    | 0 => serve k.imm false a4
    | _ => serve k.imm true a6

/-- Whether a prefix covers an address of b bits. -/
def covers (b key addr : Nat) : Bool :=
  let len := key / 2 ^ 128
  decide (len ≤ b) && addr / 2 ^ (b - len) == key % 2 ^ 128 / 2 ^ (b - len)

/-- The longest match of an address in a table: its key and entry (R123). -/
def longest (b addr : Nat) (t : Entries) : Option (Nat × List Nat) :=
  (t.filter fun e => covers b e.1 addr).foldl (fun best e =>
    match best with
    | none => some e
    | some x => if x.1 / 2 ^ 128 < e.1 / 2 ^ 128 then some e else best) none

/-- The result of an LPM walk (R127). -/
def lpmOut (hit : Bool) (m : Option (Nat × List Nat)) : LookOut :=
  match m with
  | some (key, v) =>
    (BitVec.ofNat 64 (v.headD 0 + key / 2 ^ 128 * 2 ^ 32 + if hit then 2 ^ 40 else 0), true, false)
  | none => lookMiss

/-- The member that a flow hash chooses (R132). -/
def memberOf (l : List Nat) (hash : Nat) : Nat := l.getD (hash / 2 ^ 16 * l.length / 65536) 0

/-- A next-hop entry of an epoch, zero where none is held. -/
def nextHop (e : Epoch) (i : Nat) : Nat :=
  match tabGet? (tableIn e 2) i with
  | some (v :: _) => v
  | _ => 0

/-- The place of the member that a flow hash chooses (R132). -/
def memberIx (l : List Nat) (hash : Nat) : Nat := hash / 2 ^ 16 * l.length / 65536

/-- The words of EXM SRAM that a lookup reads, as (store, word): 2 next hops, 3 ECMP groups, 4 ECMP members. -/
def exmWords (s : State) (e : Epoch) (k : Look) : List (Nat × Nat) :=
  let group (g hash : Nat) : List (Nat × Nat) :=
    match tabGet? (tableIn e 3) g with
    | some l => [(3, g), (4, runOf s (g, l) + memberIx l hash)]
    | none => [(3, g)]
  let i := keyReg k 0 % 2 ^ 22
  if k.imm = 3 then group (keyReg k 0 % 2 ^ 20) (if k.klen = 1 then keyReg k 1 % 2 ^ 32 else 0)
  else
    let v := nextHop e i
    if k.klen = 1 ∧ v / 2 ^ 61 = 2 then
      let g := (destOf v).arg % 2 ^ 20
      let hash := keyReg k 1 % 2 ^ 32
      [(2, i)] ++ group g hash ++ ((tabGet? (tableIn e 3) g).map fun l => (2, memberOf l hash)).toList
    else [(2, i)]

/-- The outcome of a next-hop lookup with ECMP (R131): the result, and whether a nested member was met. -/
def resolve (e : Epoch) (i hash : Nat) : LookOut × Bool :=
  let v := nextHop e i
  let out (x : Nat) : LookOut := if x / 2 ^ 61 = 0 then lookMiss else (BitVec.ofNat 64 x, true, false)
  if v / 2 ^ 61 ≠ 2 then (out v, false)
  else
    match tabGet? (tableIn e 3) ((destOf v).arg % 2 ^ 20) with
    | some (m :: l) =>
      let x := nextHop e (memberOf (m :: l) hash)
      if x / 2 ^ 61 = 2 then (lookError, true) else (out x, false)
    | _ => (lookMiss, false)

/-- Whether an EXM request is in error (R126, R128). -/
def exmBad (k : Look) : Bool :=
  !((k.imm == 2 && decide (k.klen ≤ 1)) || (k.imm == 3 && decide (k.klen ≤ 1)) || (k.imm == 4 && k.klen == 0))

/-- The outcome of an EXM lookup in SRAM. -/
def exmOut (e : Epoch) (k : Look) : LookOut × Bool :=
  if k.imm = 2 then
    let i := keyReg k 0 % 2 ^ 22
    if k.klen = 1 then resolve e i (keyReg k 1 % 2 ^ 32)
    else
      let v := nextHop e i
      (if v / 2 ^ 61 = 0 then lookMiss else (BitVec.ofNat 64 v, true, false), false)
  else
    match tabGet? (tableIn e 3) (keyReg k 0 % 2 ^ 20) with
    | some (m :: l) =>
      let h := if k.klen = 1 then keyReg k 1 % 2 ^ 32 else 0
      ((BitVec.ofNat 64 (memberOf (m :: l) h + (l.length + 1) * 2 ^ 32), true, false), false)
    | _ => (lookMiss, false)

/-- The outcome of a label lookup (R127). -/
def labelOut (e : Epoch) (k : Look) : LookOut :=
  match tabGet? (tableIn e 4) (keyReg k 0 % 2 ^ 20) with
  | some (v :: _) => if v / 2 ^ 61 = 0 then lookMiss else (BitVec.ofNat 64 v, true, false)
  | _ => lookMiss

/-- Words of the crown node store: 12 MB of 16 B. -/
def crownWords : Nat := 786432

/-- The crown node words that a lookup walks (R123). -/
def walkWords (e : Epoch) (tid b a : Nat) : List Nat :=
  (walkOf b (tableIn e tid) a).map fun d =>
    Config.crownWord e.number tid d (a / 2 ^ (b - d)) (a / 2 ^ (b - strideEnd b d) % 2 ^ (strideEnd b d - d)) % crownWords

/-- Whether a walk meets a word that is being rebuilt (R150). -/
def walkBad (s : State) (e : Epoch) (tid a : Nat) : Bool :=
  !s.tbl.bad.isEmpty && (walkWords e tid (addrBits s tid) a).any fun w => s.tbl.bad.contains (.word 0 w)

/-- The HBM line that a request needs: a leaf that is not in the cache, or a line of the label table (R123, R138). -/
def lineNeeded (s : State) (x : Thread) (k : Look) : Option HbmLine :=
  match k.unit with
  | .lpm =>
    match lpmRequest s k with
    | some (tid, a) =>
      let e := epochOf s x.epoch
      if walkBad s e tid a then none
      else
        match leafOf e tid (addrBits s tid) a with
        | some l => if s.tbl.cache.contains l then none else some (.leaf l)
        | none => none
    | none => none
  | .exm => if !exmBad k && k.imm == 4 then some (.labels (keyReg k 0 % 2 ^ 20 / 8)) else none
  | .pat => none

/-- The result of a request is formed: it waits for its thread's boundary, or nobody takes it. -/
def formResult (gone : Bool) (t : Nat) (x : Thread) (k : Look) (o : LookOut) (s : State) : State :=
  putLook gone t x { k with phase := .formed o.1 o.2.1 o.2.2 } s

/-- The result of a request whose line has been read (R127). -/
def readOut (s : State) (x : Thread) (k : Look) : LookOut :=
  match k.unit with
  | .lpm =>
    match lpmRequest s k with
    | some (tid, a) => lpmOut false (longest (addrBits s tid) a (tableIn (epochOf s x.epoch) tid))
    | none => lookError
  | _ => labelOut (epochOf s x.epoch) k

/-- Note a prefix lookup, and whether it was a crown hit (R125, R154). -/
def noteHit (hit : Bool) (s : State) : State :=
  { s with tbl := { s.tbl with hits := (s.clock, hit) :: s.tbl.hits.filter fun e => decide (s.clock < e.1 + ms) } }

/-- HIT_PM: crown hits per mille of the prefix lookups of the last 1 ms, 0 where there was none (R154). -/
def hitPm (s : State) : Nat :=
  let l := s.tbl.hits.filter fun e => decide (s.clock < e.1 + ms)
  (l.filter Prod.snd).length * 1000 / l.length

/-- Count a lookup that is served (R155): a lookup in the ECMP group table has no counter of its own. -/
def countLook (k : Look) (s : State) : State :=
  match k.unit with
  | .lpm => noteHit false (bump .lpmCtr 0 0 1 s)
  | _ => if k.imm = 4 then bump .exmCtr 2 0 1 s else if k.imm = 2 then bump .exmCtr 0 0 1 s else s

/-- Entries of the miss table in use: one for each read that a request makes itself, until its data returns (R138). -/
def missEntries (s : State) : Nat :=
  ((lookups s).filter fun e => match e.2.phase with
    | .reading _ sh _ => !sh
    | _ => false).length

/-- Whether some request reads a line already. -/
def lineInRead (s : State) (line : HbmLine) : Bool :=
  (lookups s).any fun e => match e.2.phase with
    | .reading l sh _ => l == line && !sh
    | _ => false

/-- The FD stack that a read of a pseudo-channel goes to: the one with fewer queued requests, HF0 on a tie (R122). -/
def readStack (s : State) (pc : Nat) : Nat := if queuedAt s 1 pc < queuedAt s 0 pc then 1 else 0
/-- Whether both FD stacks are FAILED: every read of theirs completes with the error flag (R409). -/
def noReads (s : State) : Bool := (List.range 2).all fun st => rd s (obj .hbStatus st) HbStatus.STATE == 2

/-- The address of a line in either FD stack (R395): a 64 B line of its 16 GB. -/
def lineAddr (s : State) (line : HbmLine) : Nat :=
  64 * ((match line with
    | .leaf l => Config.leafAddr (lineOf s l)
    | .labels n => Config.labelAddr n) % 2 ^ 28)

/-- The read of a request's own line enters the queue of its controller, or waits in the miss table (R122, R138). -/
def queueRead (gone : Bool) (t : Nat) (x : Thread) (k : Look) (line : HbmLine) (s : State) : State :=
  let a := lineAddr s line
  let st := readStack s (pcOf a)
  let (r, s) := hbmOffer st { req := if k.unit = .lpm then 0 else 1, write := false, addr := a, data := 0 } s
  let s := putLook gone t x { k with phase := .reading line false (r.map fun id => (st, id)) } s
  if r.isSome ∧ k.unit = .lpm then bump .lpmCtr 2 0 1 s else s

/-- LEAF_READ_ISSUE (R122, R136, R138, R409): a request that needs a line shares a read of it, or takes an entry of the miss table, when it
has one free; its read then enters the queue of a controller that has room. -/
def execLeafReadIssue (t : Fin 16384) (s : State) : Answer :=
  let waits (k : Look) : Bool := match k.phase with
    | .accepted | .reading _ false none => true
    | _ => false
  .next (match requestOf s t.val waits with
    | none => s
    | some (gone, x, k) =>
      let fail (s : State) : State := formResult gone t.val x k lookError (countLook k s)
      match k.phase with
      | .reading line _ _ => if noReads s then fail s else queueRead gone t.val x k line s
      | _ =>
        match lineNeeded s x k with
        | none => s
        | some line =>
          if noReads s then fail s
          else if lineInRead s line then
            putLook gone t.val x { k with phase := .reading line true none } (if k.unit = .lpm then bump .lpmCtr 3 0 1 s else s)
          else if missEntries s < 8192 then queueRead gone t.val x k line s
          else s)

/-- The block and the object of a line: a leaf, or the first label of its line. -/
def lineKey (s : State) : HbmLine → Nat × Key
  | .leaf l => (0x30, obj .leafLine (lineOf s l))
  | .labels n => (0x31, obj .labelEntry (8 * n))

/-- Every request that reads a line ends its wait: with its own result, or with the error result. -/
def endReads (line : HbmLine) (good : Bool) (s : State) : State :=
  let one (gone : Bool) (e : Nat × Thread) (s : State) : State :=
    match e.2.look with
    | some k =>
      (match k.phase with
      | .reading l _ _ =>
        if l = line then formResult gone e.1 e.2 k (if good then readOut s e.2 k else lookError) (countLook k s) else s
      | _ => s)
    | none => s
  forAll s.eng.threads (one false) (forAll s.eng.orphans (one true) s)

/-- The entries that a line holds, each with its place, its table and its key, and its address: of an entry of a leaf, its first byte in the
leaf line (R124); of a label, its object. -/
def lineEntries (s : State) : HbmLine → List (Nat × (Nat × Nat) × ObjAddr)
  | .leaf l => l.entries.zipIdx.map fun (e, i) =>
      (i, (l.tid, e.1), addrOf (obj .leafLine (lineOf s l)) + BitVec.ofNat 48 (4 + 10 * i))
  | .labels n => (List.range 8).filterMap fun i =>
      if (tabGet? (tableIn (epochHead s) 4) (8 * n + i)).isSome then some (i, (4, 8 * n + i), addrOf (obj .labelEntry (8 * n + i))) else none

/-- LEAF_READ_COMPLETE (R125, R151): the read that a request of a thread made returns. -/
def execLeafReadComplete (t : Fin 16384) (ecc : CopyEcc) (s : State) : Answer :=
  let out (k : Look) : Bool := match k.phase with
    | .reading _ false (some _) => true
    | _ => false
  .next (match requestOf s t.val out with
    | none => s
    | some (_, _, k) =>
      match k.phase with
      | .reading line _ (some (st, id)) =>
        let s := match id with
          | some i => endRequest st i s
          | none => s
        let (blk, key) := lineKey s line
        let fill (s : State) : State :=
          match line with
          | .leaf l => { s with tbl := { s.tbl with cache := cacheLeaf s l s.tbl.cache } }
          | .labels _ => s
        let rebuild (s : State) : State := { s with tbl := { s.tbl with bad := s.tbl.bad ++ [.line line] } }
        (match ecc with
        | .clean => endReads line true (fill s)
        | .oneCopyBad =>
          let s := if blk = 0x30 then bump .lpmCtr 6 0 1 s else s
          endReads line true (fill (raiseAt blk 2 3 key s))
        | .bothBad => endReads line false (raiseAt blk 2 4 key (rebuild s))
        | .entryStoreBad lost =>
          let gone := (lineEntries s line).filter fun e => lost.getLsbD e.1
          let s := raiseAt blk 2 4 key s
          let s := forAll gone (fun e s => raise { blk := blk, inst := 3, kind := 6, addr := e.2.2 } s) s
          let s := { s with tbl := { s.tbl with lost := (s.tbl.lost ++ gone.map fun e => e.2.1).dedup } }
          endReads line false (if gone.isEmpty then rebuild s else s))
      | _ => s)

/-- LEAF_READ_TIMEOUT (R152): the read of a request has not returned in time; its entry of the miss table is freed. -/
def execLeafReadTimeout (t : Fin 16384) (s : State) : Answer :=
  let out (k : Look) : Bool := match k.phase with
    | .reading _ false (some _) => true
    | _ => false
  .next (match requestOf s t.val out with
    | none => s
    | some (_, _, k) =>
      match k.phase with
      | .reading line _ _ => endReads line false (raiseAt (lineKey s line).1 2 5 (lineKey s line).2 s)
      | _ => s)

/-- Whether something that is rebuilt belongs to EXM. -/
def Broken.exm : Broken → Bool
  | .word store _ => decide (2 ≤ store)
  | .line (.labels _) => true
  | .line (.leaf _) => false

/-- ENTRY_REBUILD_COMPLETE (R150, R151): the oldest damaged word or line of LPM or of EXM has been rebuilt. -/
def execEntryRebuildComplete (exm : Bool) (s : State) : Answer :=
  .next (match s.tbl.bad.find? fun x => x.exm == exm with
    | some e => { s with tbl := { s.tbl with bad := s.tbl.bad.erase e } }
    | none => s)

/-- A store meets an uncorrectable word: one message per word, and it waits to be rebuilt (R150). -/
def wordLost (blk inst : Nat) (w : Nat × Nat) (k : Key) (s : State) : State :=
  if s.tbl.bad.contains (.word w.1 w.2) then s
  else raiseAt blk inst 2 k { s with tbl := { s.tbl with bad := s.tbl.bad ++ [.word w.1 w.2] } }

/-- What an LPM request gives without a read: its result, or none while it needs its leaf. -/
def lpmServe (x : Thread) (k : Look) (ecc : LookEcc) (s : State) : Option LookOut × State :=
  match lpmRequest s k with
  | none => (some lookError, bump .lpmCtr 4 0 1 s)
  | some (tid, a) =>
    let e := epochOf s x.epoch
    let b := addrBits s tid
    let hit (s : State) : Option LookOut × State :=
      (some (lpmOut true (longest b a (tableIn e tid))), noteHit true (bump .lpmCtr 1 0 1 (bump .lpmCtr 0 0 1 s)))
    let counted (s : State) : State := noteHit false (bump .lpmCtr 0 0 1 s)
    if walkBad s e tid a then (some lookError, counted s)
    else
      match ecc with
      | .badWord i =>
        let ws := walkWords e tid b a
        let w := ws.getD (i % ws.length) 0
        (some lookError, counted (wordLost 0x30 0 (0, w) (obj .crownWord w) s))
      | _ =>
        let s := match ecc with
          | .corrected _ => bump .lpmCtr 5 0 1 s
          | _ => s
        match leafOf e tid b a with
        | none => hit s
        | some l =>
          if !s.tbl.cache.contains l then (none, s)
          else if ecc = .badLine then
            let s := { s with tbl := { s.tbl with cache := s.tbl.cache.filter fun i => i != l } }
            (none, raiseAt 0x30 1 2 (obj .leafLine (lineOf s l)) s)
          else hit { s with tbl := { s.tbl with cache := cacheLeaf s l s.tbl.cache } }

/-- The object of a word of EXM SRAM, and the instance of its store (R153, R156). -/
def exmWordKey (w : Nat × Nat) : Nat × Key :=
  match w.1 with
  | 2 => (0, obj .nhEntry w.2)
  | 3 => (1, obj .ecmpGroup w.2)
  | _ => (1, obj .ecmpMember w.2)

/-- What an EXM request gives without a read. -/
def exmServe (x : Thread) (k : Look) (ecc : LookEcc) (s : State) : Option LookOut × State :=
  if exmBad k then (some lookError, bump .exmCtr 3 0 1 s)
  else if k.imm = 4 then (none, s)
  else
    let e := epochOf s x.epoch
    let ws := exmWords s e k
    let s := countLook k s
    if ws.any fun w => s.tbl.bad.contains (.word w.1 w.2) then (some lookError, s)
    else
      match ecc with
      | .badWord i =>
        let w := ws.getD (i % ws.length) (2, 0)
        (some lookError, wordLost 0x31 (exmWordKey w).1 w (exmWordKey w).2 s)
      | _ =>
        let s := match ecc with
          | .corrected _ => bump .exmCtr 4 0 1 s
          | _ => s
        let (o, nested) := exmOut e k
        let s := if k.imm = 2 ∧ 2 ≤ ws.length then bump .exmCtr 1 0 1 s else s
        (some o, if nested then bump .exmCtr 5 0 1 s else s)

end Sys2Proof.Machine
end

