-- ==== Sys2Proof/Machine/Pattern.lean ====
section
/-! DEFINITION. The pattern matcher: rule images and banks, requests and their results, fetches and the shadow sweep (R157 to
R177), and the landing of a lookup result at its thread (R93). -/
namespace Sys2Proof.Machine

/-! ## Banks and images (R157 to R160, R176) -/

/-- STATE of a bank: EMPTY, WRITTEN, READY, ACTIVE, DRAINING, BAD (R175). -/
def pbEmpty : Nat := 0
/-- See `pbEmpty`. -/
def pbWritten : Nat := 1
/-- See `pbEmpty`. -/
def pbReady : Nat := 2
/-- See `pbEmpty`. -/
def pbActive : Nat := 3
/-- See `pbEmpty`. -/
def pbDraining : Nat := 4
/-- See `pbEmpty`. -/
def pbBad : Nat := 5

/-- The status object of PAT. -/
def patS : Key := obj .patStatus
/-- The field of a bank's state. -/
def bankFld (b : Nat) : Fld := if b = 0 then PatStatus.BANK0 else PatStatus.BANK1
/-- The state of a bank. -/
def bankState (s : State) (b : Nat) : Nat := rd s patS (bankFld b)
/-- See `bankState`. -/
def setPatBank (b st : Nat) (s : State) : State := wr s patS (bankFld b) st

/-- The standby bank (R157). -/
def standby (s : State) : Nat := if activeBank s = some 0 then 1 else 0

/-- The 256 B objects of an image window. -/
def patParts : Nat := 49160
/-- The object of an image window that holds a byte. -/
def winKey (b off : Nat) : Key := obj .patWin (b * patParts + off / 256)

/-- n bytes of a bank's image as a number, most significant first. -/
def patNat (s : State) (b off : Nat) : Nat → Nat
  | 0 => 0
  | n + 1 => patNat s b off n * 256 + bitsAt (rdWord s (winKey b (off + n))) (8 * (255 - (off + n) % 256)) 8

/-- RULES and LINES of a bank's image (R158). -/
def patRules (s : State) (b : Nat) : Nat := patNat s b 12 4
/-- See `patRules`. -/
def patLines (s : State) (b : Nat) : Nat := patNat s b 16 4
/-- A set entry of a bank's image, as R176 lays it out. -/
def setEntry (s : State) (b i : Nat) : Nat := patNat s b (64 + 16 * i) 16
/-- A rule entry of a bank's image. -/
def ruleAt (s : State) (b a : Nat) : Nat := patNat s b (2048 + 16 * a) 16

/-- Whether a set entry passes R158 and R176. -/
def setEntryOk (s : State) (b i : Nat) : Bool :=
  let x := setEntry s b i
  let v := getF x RuleSet.VALID == 1
  let p := getF x RuleSet.P
  let a := getF x RuleSet.A
  getF x RuleSet.DAMAGED == 0 && bitsAt x 120 6 == 0 && bitsAt x 96 8 == 0 &&
    (if v then decide (1 ≤ p ∧ p ≤ 16 ∧ 1 ≤ a ∧ a ≤ 8) else p == 0 && a == 0) &&
    decide (getF x RuleSet.FIRST_LINE + getF x RuleSet.LINE_COUNT ≤ patLines s b ∧ getF x RuleSet.RULE_COUNT ≤ patRules s b)

/-- The checks of R159 that the image itself settles: every field range and every reserved field. -/
def imageFieldsOk (s : State) (b : Nat) : Bool :=
  patNat s b 0 4 == 0x56585041 && patNat s b 4 2 == 1 && patNat s b 6 2 == 0 &&
    decide (1 ≤ patRules s b ∧ patRules s b ≤ 262144 ∧ 1 ≤ patLines s b ∧ patLines s b ≤ 131072) &&
    patNat s b 20 44 == 0 && (List.range 64).all (setEntryOk s b) && patNat s b 1088 912 == 0 &&
    (List.range (patRules s b)).all fun a => bitsAt (ruleAt s b a) 64 18 == 0

/-- Bytes of a bank's image. -/
def patBytes (s : State) (b off n : Nat) : Bytes :=
  (List.range' off n).map fun i => BitVec.ofNat 8 (bitsAt (rdWord s (winKey b i)) (8 * (255 - i % 256)) 8)

/-- Whether DIGEST is SHA-384 over bytes 0 to 1,999, the rule entries and the lines (R158). -/
def patDigestOk (s : State) (b : Nat) : Bool :=
  (sha384 (patBytes s b 0 2000 ++ patBytes s b 2048 (16 * patRules s b + 64 * patLines s b))).toNat == patNat s b 2000 48

/-- Whether a bank is compared by the sweep: an ACTIVE bank, and a READY standby bank (R171). -/
def swept (s : State) (b : Nat) : Bool := bankState s b == pbActive || (b == standby s && bankState s b == pbReady)

/-- The sweep begins when a bank is there to compare, and ends with the last of them (R171). -/
def resweep (s : State) : State :=
  if swept s 0 || swept s 1 then { s with pat := { s.pat with sweepFrom := some (s.pat.sweepFrom.getD s.clock) } }
  else { s with pat := { s.pat with sweepFrom := none } }

/-- A part of a window is written to the shadow in HF0 as it stands in the SRAM (R157). -/
def toShadow (k : Key) (s : State) : State := { s with pat := { s.pat with shadow := tabSet s.pat.shadow k.idx (rdWord s k) 0 } }
/-- A part of a window is rewritten from its shadow (R172). -/
def fromShadow (k : Key) (s : State) : State := wrWord s k (tabGet s.pat.shadow k.idx 0)

/-- Whether a bank's window may be written (R159). -/
def windowOk (s : State) (b : Nat) : Bool :=
  bankState s b != pbActive && bankState s b != pbDraining && !(b == 1 && (activeBank s).isNone)

/-- An accepted write to a part of a bank's window goes to its shadow too, and sets the bank to WRITTEN (R157, R159). -/
def windowWritten (i : Nat) (s : State) : State :=
  resweep (setPatBank (i / patParts) pbWritten (toShadow (obj .patWin i) s))

/-- Whether SWAP may start (R159). -/
def swapOk (s : State) : Bool :=
  let st := bankState s (standby s)
  (st == pbWritten || st == pbReady) && bankState s 0 != pbDraining && bankState s 1 != pbDraining

/-- Fix T_sw, 10 µs ahead: R159 has it lie at least 10 µs ahead, and that it lies exactly there is the model's choice (log entry 80). -/
def fixPatSwap (s : State) : State := { s with pat := { s.pat with swapAt := some (s.ct + 10000 * 65536) } }

/-- SWAP starts the verification of a WRITTEN bank, or fixes T_sw for a READY one; one that is under way goes on. -/
def swapGo (s : State) : State :=
  if s.pat.verifying ∨ s.pat.swapAt.isSome then s
  else if bankState s (standby s) = pbWritten then { s with pat := { s.pat with verifying := true } }
  else fixPatSwap s

/-- Whether ERASE may run (R175). -/
def patEraseOk (s : State) : Bool := bankState s (standby s) != pbDraining

/-- ERASE zeroes the standby bank and its shadow and sets it EMPTY; a swap under way ends with it. -/
def patEraseGo (s : State) : State :=
  let b := standby s
  resweep (setPatBank b pbEmpty
    { s with regs := s.regs.filter fun e => !(e.1 % 256 == ObjTy.patWin.ctorIdx && e.1 / 256 / patParts == b)
             pat := { s.pat with verifying := false, swapAt := none,
                                 shadow := s.pat.shadow.filter fun e => e.1 / patParts != b } })

/-- PAT_VERIFY_COMPLETE (R158, R159). -/
def execPatVerifyComplete (s : State) : Answer :=
  .next (if !s.pat.verifying then s
    else
      let b := standby s
      let s := { s with pat := { s.pat with verifying := false } }
      if imageFieldsOk s b && patDigestOk s b then fixPatSwap (resweep (setPatBank b pbReady s))
      else raiseAt 0x32 3 5 patS (setPatBank b pbBad s))

/-- PAT_BANK_SWITCH (R159, R171, R172): at T_sw new passes bind to the new bank, and the old one drains; the sweep starts again. -/
def execPatBankSwitch (s : State) : Answer :=
  .next (match s.pat.swapAt with
    | none => s
    | some t =>
      let s := reach t { s with pat := { s.pat with swapAt := none } }
      let b := standby s
      if bankState s b ≠ pbReady then s
      else
        let old := activeBank s
        let s := match old with
          | some o => setPatBank o pbDraining s
          | none => s
        let s := { s with pat := { s.pat with damaged := [], sweepFrom := some s.clock } }
        wr (setPatBank b pbActive s) patS PatStatus.IMAGE_ID (patNat s b 8 4))

/-- PAT_DRAIN_END (R159): the last pass bound to the old bank has ended. -/
def execPatDrainEnd (s : State) : Answer :=
  .next (match (List.range 2).find? fun b => bankState s b == pbDraining with
    | some b => if s.eng.threads.any fun t => t.2.patBank == some b then s else resweep (setPatBank b pbReady s)
    | none => s)

/-! ## Requests (R161 to R166, R169, R170, R173) -/

/-- PAY_OFF and SCAN_LEN of a request. -/
def payOff (k : Look) : Nat := keyReg k 3 % 2 ^ 9
/-- See `payOff`. -/
def scanLen (k : Look) : Nat := if k.klen = 2 then keyReg k 3 / 2 ^ 9 % 2 ^ 9 else 0

/-- The field key of 192 bits (R161). -/
def fieldKey (k : Look) : Nat :=
  match k.klen with
  | 0 => keyReg k 0
  | 1 => keyReg k 0 * 2 ^ 64 + keyReg k 1
  | _ => (keyReg k 0 * 2 ^ 64 + keyReg k 1) * 2 ^ 64 + keyReg k 2

/-- The end of a request's scan window (R162). -/
def scanEnd (x : Thread) (k : Look) : Nat := min (payOff k + scanLen k) (x.ref.len - 4)
/-- Whether the frame's end cuts the window short. -/
def scanCut (x : Thread) (k : Look) : Bool := scanLen k != 0 && decide (x.ref.len - 4 < payOff k + scanLen k)
/-- Whether a scan still waits for bytes of its window (R162). -/
def scanWaits (s : State) (x : Thread) (k : Look) : Bool :=
  scanLen k != 0 && decide (256 < scanEnd x k) && isArriving s x.ref.pkt
/-- RD of a result with M 0: zero except TRUNC (R164). -/
def patMiss (x : Thread) (k : Look) (e : Bool) : LookOut := (if scanCut x k then BitVec.ofNat 64 (2 ^ 22) else 0, false, e)
/-- Whether a request needs a hot-tier billet: its window reaches byte 256 (R162, R169). -/
def needsFetch (x : Thread) (k : Look) : Bool := scanLen k != 0 && decide (256 < scanEnd x k)

/-- Whether a request is in error (R163). -/
def patBad (s : State) (x : Thread) (k : Look) : Bool :=
  match x.patBank with
  | none => true
  | some b =>
    getF (setEntry s b (k.imm % 64)) RuleSet.VALID == 0 || decide (64 ≤ k.imm) || k.klen == 3 ||
      (k.klen == 2 && (k.raBig || decide (255 < payOff k) || decide (256 < scanLen k))) || (scanLen k != 0 && x.egress)

/-- Whether a request names a DAMAGED set (R163, R172). -/
def patDamaged (s : State) (x : Thread) (k : Look) : Bool :=
  s.pat.damaged.contains (x.patBank.getD 0, k.imm % 64)

/-- Whether a request's scan window holds a byte. -/
def scans (x : Thread) (k : Look) : Bool := scanLen k != 0 && decide (payOff k < scanEnd x k)

/-- The scan window as the free match function sees it: its place and the bytes that the header window holds. -/
def scanBytes (x : Thread) (k : Look) : Nat :=
  let a := payOff k
  let e := scanEnd x k
  (bitsAt k.win (8 * (256 - min e 256)) (8 * (min e 256 - a)) * 1024 + e) * 512 + a + 1

/-- Whether a rule of a bank matches a request: its field part, and its payload pattern where it has one, which needs a scan window that is
not empty (R165). -/
def ruleMatches (s : State) (x : Thread) (k : Look) (b a : Nat) : Bool :=
  let d := patNat s b 2000 48
  Config.fieldMatches d a (fieldKey k) &&
    (!Config.hasPattern d a ||
      (scans x k && Config.patternIn d a (scanBytes x k) (if needsFetch x k then x.ref.pkt else 0)))

/-- The rules of a set of a bank. -/
def rulesOf (s : State) (b set : Nat) : List Nat :=
  (List.range (patRules s b)).filter fun a => getF (ruleAt s b a) RuleEntry.SET == set

/-- The rules of the named set that match (R165). -/
def matching (s : State) (x : Thread) (k : Look) : List Nat :=
  let b := x.patBank.getD 0
  (rulesOf s b (k.imm % 64)).filter (ruleMatches s x k b)

/-- The words of a set: its rules, and then its lines from 262,144 on (R171, R172). -/
def setWords (s : State) (b set : Nat) : List Nat :=
  let e := setEntry s b set
  rulesOf s b set ++ List.range' (262144 + getF e RuleSet.FIRST_LINE) (getF e RuleSet.LINE_COUNT)

/-- The winning rule: highest PRIORITY, then lowest address; with whether another shared its PRIORITY (R166). -/
def winner (s : State) (b : Nat) (l : List Nat) : Option (Nat × Bool) :=
  let prio (a : Nat) : Nat := getF (ruleAt s b a) RuleEntry.PRIORITY
  match (l.map prio).max? with
  | none => none
  | some m =>
    let top := (l.filter fun a => prio a == m).dedup
    top.min?.map fun a => (a, decide (2 ≤ top.length))

/-- RD of a match (R164). -/
def patWord (s : State) (b a : Nat) (tie trunc : Bool) : Word :=
  let e := ruleAt s b a
  BitVec.ofNat 64 (getF e RuleEntry.ACTION * 2 ^ 40 + getF e RuleEntry.PRIORITY * 2 ^ 24 + (if tie then 2 ^ 23 else 0) +
    (if trunc then 2 ^ 22 else 0) + a)

/-- The object of a word of a bank: a rule entry of the ACTIVE bank, else the part of the image window that holds it (R172). -/
def patWordKey (s : State) (b w : Nat) : Key :=
  if w < 262144 then
    if activeBank s = some b then obj .ruleEntry w else winKey b (2048 + 16 * w)
  else winKey b (2048 + 16 * patRules s b + 64 * (w - 262144))

/-- The part of a window that holds a word of a bank. -/
def wordPart (s : State) (b w : Nat) : Key :=
  if w < 262144 then winKey b (2048 + 16 * w) else winKey b (2048 + 16 * patRules s b + 64 * (w - 262144))

/-- A word is repaired, with the message of the repair: from its shadow, or the shadow from the SRAM (R172). -/
def patRepair (inst kind b w : Nat) (s : State) : State :=
  let k := wordPart s b w
  raiseAt 0x32 inst kind (patWordKey s b w) (bump .patCtr 6 0 1 (if inst = 2 then toShadow k s else fromShadow k s))

/-- Both copies of a word are bad: the sets that contain it are DAMAGED (R172). -/
def patLose (b w : Nat) (s : State) : State :=
  let sets := (List.range 64).filter fun i =>
    let x := setEntry s b i
    getF x RuleSet.VALID == 1 &&
      (if w < 262144 then decide (w < patRules s b) && getF (ruleAt s b w) RuleEntry.SET == i
       else decide (getF x RuleSet.FIRST_LINE ≤ w - 262144 ∧ w - 262144 < getF x RuleSet.FIRST_LINE + getF x RuleSet.LINE_COUNT))
  let s := { s with pat := { s.pat with damaged := (s.pat.damaged ++ sets.map fun i => (b, i)).dedup } }
  raiseAt 0x32 b 4 (patWordKey s b w) s

/-- The result of a request to a set that is not damaged (R164 to R166). -/
def patMatch (s : State) (x : Thread) (k : Look) : LookOut × State :=
  let b := x.patBank.getD 0
  match winner s b (matching s x k) with
  | none => (patMiss x k false, s)
  | some (a, tie) =>
    let s := bump .patCtr 1 0 1 s
    ((patWord s b a tie (scanCut x k), true, false),
      if tie then bump .tieCtr (k.imm % 64) 0 1 (bump .patCtr 2 0 1 s) else s)

/-- What a PAT request gives: none while it needs its billet. With HF0 not READY there is no shadow to serve a read from (R409). -/
def patServe (x : Thread) (k : Look) (fetched : Bool) (ecc : LookEcc) (s : State) : Option LookOut × State :=
  let count := bump .patCtr 0 0 1
  if patBad s x k then (some lookError, bump .patCtr 3 0 1 (count s))
  else if patDamaged s x k then (some (patMiss x k true), bump .patCtr 4 0 1 (count s))
  else if scanWaits s x k || (needsFetch x k && !fetched) then (none, s)
  else
    let s := count s
    let b := x.patBank.getD 0
    let ws := setWords s b (k.imm % 64)
    let clean (s : State) : Option LookOut × State := let (o, s) := patMatch s x k; (some o, s)
    let repaired (i : Nat) (s : State) : Option LookOut × State :=
      let (o, s) := patMatch s x k
      (some o, patRepair b 1 b (ws.getD (i % ws.length) 0) s)
    let damaged (i : Nat) (s : State) : Option LookOut × State :=
      (some (patMiss x k true), bump .patCtr 4 0 1 (patLose b (ws.getD (i % ws.length) 0) s))
    if ws.isEmpty then clean s
    else
      match ecc with
      | .corrected i => if hbmReady s 0 then repaired i s else damaged i s
      | .badWord i => damaged i s
      | _ => clean s

/-- Fetches outstanding (R170). -/
def fetches (s : State) : Nat := ((lookups s).filter fun e => e.2.phase == .fetching).length

/-- BILLET_FETCH_ISSUE (R162, R169, R170). -/
def execBilletFetchIssue (t : Fin 16384) (s : State) : Answer :=
  .next (match requestOf s t.val fun k => k.unit == .pat && k.phase == .accepted with
    | none => s
    | some (gone, x, k) =>
      if !patBad s x k ∧ !patDamaged s x k ∧ needsFetch x k ∧ !scanWaits s x k ∧ fetches s < 2048 then
        putLook gone t.val x { k with phase := .fetching } (bump .patCtr 5 0 1 s)
      else s)

/-- BILLET_FETCH_COMPLETE (R162). -/
def execBilletFetchComplete (t : Fin 16384) (s : State) : Answer :=
  .next (match requestOf s t.val fun k => k.phase == .fetching with
    | none => s
    | some (gone, x, k) => putLook gone t.val x { k with phase := .fetched } s)

/-- FETCH_TIMEOUT (R164, R173). -/
def execFetchTimeout (t : Fin 16384) (s : State) : Answer :=
  .next (match requestOf s t.val fun k => k.phase == .fetching with
    | none => s
    | some (gone, x, k) =>
      formResult gone t.val x k (patMiss x k true) (raiseAt 0x32 3 6 (obj .ruleSet (k.imm % 64)) (bump .patCtr 0 0 1 s)))

/-- SHADOW_SWEEP (R171, R172, R409). A sweep completes only while a bank is there to compare; the next begins at once. -/
def execShadowSweep (f : SweepFind) (s : State) : Answer :=
  .next (match f with
    | .mismatch b w => if !swept s b.val then s else if hbmReady s 0 then patRepair b.val 2 b.val w s else patLose b.val w s
    | .shadowBad b w => if swept s b.val then patRepair 2 3 b.val w s else s
    | .bothBad b w => if swept s b.val then patLose b.val w s else s
    | .complete =>
      if s.pat.sweepFrom.isSome then { s with pat := { s.pat with sweptAt := some s.clock, sweepFrom := some s.clock } } else s)

/-! ## Landing (R93, R96) -/

/-- The address of the entry or rule that a hit returned (R64): the rule of a PAT match; the next hop, group or label that an EXM request
named; the descriptor of the prefix table of an LPM match. -/
def causeOf (s : State) (x : Thread) (k : Look) (o : LookOut) : ObjAddr :=
  match k.unit with
  | .pat => addrOf (obj .ruleEntry (o.1.toNat % 2 ^ 18))
  | .exm => addrOf (match k.imm with
      | 2 => obj .nhEntry (keyReg k 0 % 2 ^ 22)
      | 3 => obj .ecmpGroup (keyReg k 0 % 2 ^ 20)
      | _ => obj .labelEntry (keyReg k 0 % 2 ^ 20))
  | .lpm =>
    match lpmRequest s k with
    | some (tid, _) => addrOf (tableKey tid)
    | none => x.cause

/-- A result lands at its thread: RD, M and E are written, and a thread that waited for it goes on. -/
def land (t : Nat) (x : Thread) (k : Look) (o : LookOut) (s : State) : State :=
  let x := { x.setReg k.rd o.1 with m := o.2.1, e := o.2.2, look := none, cause := if o.2.1 then causeOf s x k o else x.cause }
  match x.hold with
  | .result => setThr t { x with hold := .ready } s
  | .wait =>
    let n := (wordAt s t x).2
    if n.cls = 3 ∧ n.wait = 0 then resume t x s else setThr t x s
  | _ => setThr t x s

/-- LOOKUP_RESULT (R93, R162, R164): the result of a request that its unit can serve, or one that is already formed, lands; nobody takes
that of a request whose pass has ended. -/
def execLookupResult (t : Fin 16384) (ecc : LookEcc) (s : State) : Answer :=
  let served (k : Look) : Bool := match k.phase with
    | .formed .. | .fetched | .accepted => true
    | _ => false
  .next (match requestOf s t.val served with
    | none => s
    | some (gone, x, k) =>
      let give (r : Option LookOut × State) : State :=
        match r.1 with
        | some o => if gone then formResult true t.val x k o r.2 else land t.val x k o r.2
        | none => r.2
      match k.phase with
      | .formed r m e => land t.val x k (r, m, e) s
      | .fetched => give (patServe x k true ecc s)
      | _ =>
        (match k.unit with
        | .lpm => give (lpmServe x k ecc s)
        | .exm => give (exmServe x k ecc s)
        | .pat => give (patServe x k false ecc s)))

end Sys2Proof.Machine
end

