-- ==== Sys2Proof/Machine/Fault.lean ====
section
/-! DEFINITION. The fault collector and its log, reaction windows and shadows, the safe state's end, injection, the fault log as it is
read, and Grazing (R474 to R499). -/
namespace Sys2Proof.Machine

/-- FLT control and status. -/
def ftC : Key := obj .fltCtl
/-- See `ftC`. -/
def ftS : Key := obj .fltStatus
/-- Grazing control and status. -/
def grC : Key := obj .grCtl
/-- See `grC`. -/
def grS : Key := obj .grStatus

/-! ## The fault tables (R479) -/

/-- The kinds of each instance that a block's fault table lists. -/
def faultTable (blk : Nat) : List (Nat × List Nat) :=
  if blk = 0x01 then [(0, [1, 2]), (1, [1, 2]), (2, [1, 2]), (3, [1, 2])]
  else if blk = 0x02 then [(0, [2, 3, 4, 5, 6, 7, 8, 11]), (1, [2, 3, 4, 5, 6, 7, 8, 11])]
  else if 0x10 ≤ blk ∧ blk ≤ 0x2F then [(0, [1, 6]), (1, [1, 6]), (2, [3]), (3, [2, 4, 5]), (4, [7, 8, 9])]
  else
    match blk with
    | 0x30 | 0x31 => [(0, [2]), (1, [2]), (2, [3, 4, 5]), (3, [6])]
    | 0x32 => [(0, [1, 2, 4]), (1, [1, 2, 4]), (2, [3]), (3, [5, 6])]
    | 0x38 => [(0, [1]), (1, [2]), (2, [3]), (3, [4])]
    | 0x39 => [(0, [1]), (1, [2]), (2, [3])]
    | 0x3A => [(0, [1]), (1, [2]), (2, [3]), (3, [4, 5])]
    | 0x40 => [(0, [1]), (1, [2])]
    | 0x41 => [(0, [1, 2]), (1, [3, 4]), (2, [5])]
    | 0x42 => [(0, [1, 2, 3, 4]), (1, [5])]
    | 0x48 | 0x49 => [(0, [1]), (1, [2])]
    | 0x4A => [(0, [1, 2]), (1, [1, 2])]
    | 0x50 => [(0, [1, 3]), (1, [2]), (2, [4]), (3, [5, 6]), (4, [7]), (5, [8])]
    | 0x51 => [(0, [1]), (1, [2])]
    | 0x60 => [(0, [1]), (1, [2, 3]), (2, [4]), (3, [5])]
    | 0x64 => [(0, [1]), (1, [2]), (2, [3, 4]), (3, [5, 6, 7, 8])]
    | 0x68 => [(0, [1, 2, 3]), (1, [0x11, 0x12])]
    | 0x6C => [(0, [1, 2]), (1, [3])]
    | 0x70 => [(0, [1, 2, 4]), (1, [3, 5])]
    | 0x74 => [(0, [2, 3]), (1, [4, 5])]
    | 0x78 => [(0, [1, 2]), (1, [1, 2])]
    | _ =>
      if 0x58 ≤ blk ∧ blk ≤ 0x5F then
        (List.range 16).map fun i => (i, [1, 2, 3, 5] ++ (if i % 2 = 0 then [4] else []) ++ if i = 0 then [6] else [])
      else []

/-- Whether a block's fault table lists a source and kind. -/
def faultListed (blk inst kind : Nat) : Bool := (faultTable blk).any fun e => e.1 == inst && e.2.contains kind

/-! ## The collector (R474 to R478) -/

/-- The messages of a block's queue. -/
def queueOf (s : State) (blk : Nat) : List FaultMsg := tabGet s.flt.queues blk []

/-- The block that the collector serves: one with a reacted message, in the order of the reactions, else the next in round robin. The
messages of QD blocks wait while the bridge is not up (R19, R22). -/
def collectFrom (s : State) : Option Nat :=
  match s.flt.react.find? fun b => !(queueOf s b).isEmpty && !bridgeWaits s b with
  | some b => some b
  | none =>
    let n := allBlocks.length
    (List.range n).findSome? fun i =>
      let b := (allBlocks[(s.flt.next + i) % n]?).getD 0
      if (queueOf s b).isEmpty || bridgeWaits s b then none else some b

/-- The entry that the collector makes of a message. -/
def entryOf (s : State) (m : FaultMsg) : FaultEntry :=
  { seq := rd s ftS FltStatus.NEWEST + 1, blk := m.blk, inst := m.inst, kind := m.kind, inject := m.inject,
    conseq := m.shadow.isSome, reacted := m.reacted, actions := m.actions,
    lost := min 131071 (tabGet s.flt.lost m.blk 0),
    origin := match m.shadow with
      | some i => tabGet s.flt.origins i 0
      | none => 0
    addr := m.addr, time := m.time }

/-- Log a message: its entry goes into the ring, and what waits for it follows. -/
def logMessage (m : FaultMsg) (s : State) : State :=
  let e := entryOf s m
  let s := { s with flt := { s.flt with
    ring := s.flt.ring ++ [e]
    lost := tabDel s.flt.lost m.blk
    origins := match m.opens with
      | some i => tabPut s.flt.origins i e.seq
      | none => s.flt.origins } }
  let s := wr (mapF s ftS FltStatus.RING_USED (· + 1)) ftS FltStatus.NEWEST e.seq
  let s := if rd s ftS FltStatus.OLDEST = 0 then wr s ftS FltStatus.OLDEST e.seq else s
  let s := if m.entersSafe then wr s ftS FltStatus.SAFE_SEQ e.seq else s
  let s := bump .fltCtr 0 0 1 s
  let s := if e.conseq then bump .fltCtr 3 0 1 s else s
  let s := if e.inject then bump .fltCtr 4 0 1 s else s
  let s := if 4 ≤ m.actions then publish 0 (.fault e) s else s
  match m.reply with
  | some c => ok c (toBytes 8 e.seq) s
  | none => s

/-- FAULT_COLLECT (R477): the collector takes one message, unless the ring is full. -/
def execFaultCollect (s : State) : Answer :=
  .next (if 4096 ≤ s.flt.ring.length then s
    else
      match collectFrom s with
      | none => s
      | some b =>
        match queueOf s b with
        | [] => s
        | m :: rest =>
          let q := if rest.isEmpty then tabDel s.flt.queues b else tabPut s.flt.queues b rest
          let react := if m.reacted then s.flt.react.erase b else s.flt.react
          logMessage m { s with flt := { s.flt with queues := q, react := react, next := (allBlocks.idxOf b + 1) % allBlocks.length } })

/-- HBM_OK: a stack that holds the log is READY (R478). -/
def hbmOk (s : State) : Bool := hbmReady s 0 || hbmReady s 1

/-- LOG_COPY (R477, R478): the oldest entry of the ring is copied into the HBM log; a full log overwrites its oldest entry. -/
def execLogCopy (s : State) : Answer :=
  .next (match s.flt.ring with
    | [] => s
    | e :: rest =>
      if !hbmOk s then s
      else
        let full := decide (1048576 ≤ s.flt.log.length)
        let log := (if full then s.flt.log.tail else s.flt.log) ++ [e]
        let s := { s with flt := { s.flt with ring := rest, log := log } }
        let s := mapF s ftS FltStatus.RING_USED (· - 1)
        let s := wr s ftS FltStatus.OLDEST ((log.head?.map FaultEntry.seq).getD 0)
        if full then bump .fltCtr 2 0 1 s else s)

/-! ## Windows and shadows (R481, R487) -/

/-- REACTION_WINDOW_EXPIRE (R481): WINDOW milliseconds after it opened. -/
def execReactionWindowExpire (source : BitVec 12) (kind : BitVec 8) (s : State) : Answer :=
  let blk := source.toNat / 16
  let k := reactKey blk (source.toNat % 16) kind.toNat
  .next (if faultListed blk (source.toNat % 16) kind.toNat then
      let s := match tabGet? s.flt.windows (keyNo k) with
        | some t => due (t + rd s k Reaction.WINDOW * ms) s
        | none => s
      wr { s with flt := { s.flt with windows := tabDel s.flt.windows (keyNo k) } } k Reaction.COUNT 0
    else s)

/-- SHADOW_CLOSE (R487): the i-th open shadow has been open for 100 µs of common time. -/
def execShadowClose (i : Nat) (s : State) : Answer :=
  .next (match s.flt.shadows[i]? with
    | none => s
    | some h =>
      let s := reachIvl (h.opened + 100000 * 65536) s
      { s with flt := { s.flt with shadows := s.flt.shadows.filter fun g => g.id != h.id } })

/-! ## The safe state (R483, R485, R486, R497) -/

/-- Whether EMBER runs: the device is command-ready and not in the safe state. -/
def emberRuns (s : State) : State :=
  let on := flag s rstKey RstStatus.READY && !inSafe s
  wr { s with pwr := { s.pwr with ember := on } } ftS FltStatus.EMBER_ON (if on then 1 else 0)

/-- Whether the safe state may end: no shadow that a SAFE reaction opened is still open. -/
def exitAllowed (s : State) : Bool := inSafe s && !s.flt.shadows.any fun h => h.safe && shadowOpen s h

/-- The safe state ends: ports come up with their holding times, links leave quarantine, EMBER restarts, a paired unit resynchronises. -/
def leaveSafe (s : State) : State :=
  let s := wr s ftS FltStatus.SAFE 0
  let s := { s with tfu := { s.tfu with aisOdu := [] } }
  let s := takeActions (forAll (ports.filter (adminUp s)) portRise s)
  let s := forAll (List.range 64) leaveQuar s
  let s := emberRuns s
  let s := if role s = roleStandby then unsync s else s
  timeChanged s

/-- A write of SAFE_ENTER (R497). -/
def askSafe (s : State) : State := raise { blk := 0x68, inst := 0, kind := 3, addr := addrOf ftC } s

/-! ## Injection (R489, R490) -/

/-- The object of an EC store that an injected digest mismatch names its cluster by: with the local reaction it reloads. -/
def localReaction (blk inst kind actions : Nat) (s : State) : State :=
  if hasLocal blk inst kind ∧ actions / 2 % 2 = 1 then sweepReload (blk - 0x10) s else s

/-- FAULT_INJECT (R489, R490): the reply is sent once the entry is logged; without room in the block's queue it is BUSY. -/
def execFaultInject (c : Hdr) (source : BitVec 16) (kind flags : BitVec 8) (addr : ObjAddr) (res : BitVec 16) (s : State) : Answer :=
  let blk := source.toNat / 16
  let inst := source.toNat % 16
  let a := sessAddr c.sid.val
  let good := res == 0 && decide (source.toNat < 4096) && decide (flags.toNat < 2) && faultListed blk inst kind.toNat
  .next (checked c 0x0502 accControl (fun n => n == 12) good 0x68 a (fun s =>
    need c (decide ((queueOf s blk).length < 16)) stBusy a (fun s =>
      let r : Report := { blk := blk, inst := inst, kind := kind.toNat, addr := addr, inject := true,
                          react := flags == 1, reply := some c }
      let (s, acts) := raiseA r (defer c blk s)
      localReaction blk inst kind.toNat acts s) s) s)

/-! ## Reading the log (R491) -/

/-- An entry in the layout of R474. -/
def entryWord (e : FaultEntry) : Nat :=
  let one (b : Bool) : Nat := if b then 1 else 0
  let x := putF (putF 0 RingSlot.SEQ e.seq) RingSlot.SOURCE (e.blk * 16 + e.inst)
  let x := putF (putF x RingSlot.KIND e.kind) RingSlot.INJECT (one e.inject)
  let x := putF (putF x RingSlot.CONSEQ (one e.conseq)) RingSlot.REACTED (one e.reacted)
  let x := putF (putF x RingSlot.ACTIONS e.actions) RingSlot.LOST e.lost
  putF (putF (putF x RingSlot.ORIGIN e.origin) RingSlot.ADDRESS e.addr.toNat) RingSlot.TIME e.time

/-- What a ring slot reads: the entry of the ring whose number falls on it. -/
def ringWord (s : State) (j : Nat) : Nat :=
  match s.flt.ring.find? fun e => (e.seq - 1) % 4096 == j with
  | some e => entryWord e
  | none => 0

/-- The entries a read takes: from FROM, at most COUNT, up to one whose HBM copies are both uncorrectable. -/
def readEntries (s : State) (first count : Nat) (bad : Option Nat) : List FaultEntry :=
  let l := ((s.flt.log ++ s.flt.ring).filter fun e => decide (first ≤ e.seq)).take count
  match bad with
  | none => l
  | some b => l.takeWhile fun e => !(e.seq == b && s.flt.log.any fun f => f.seq == b)

/-- FAULT_READ (R491, R499): `bad` names an entry of the HBM log whose copies are both uncorrectable. -/
def execFaultRead (c : Hdr) (first : Word) (count res : BitVec 32) (bad : Option Word) (s : State) : Answer :=
  let good := res == 0 && decide (1 ≤ count.toNat ∧ count.toNat ≤ 1024)
  .next (checked c 0x0501 accRead (fun n => n == 16) good 0x68 (sessAddr c.sid.val) (fun s =>
    let oldest := rd s ftS FltStatus.OLDEST
    let from_ := max first.toNat oldest
    let b := bad.map BitVec.toNat
    let l := readEntries s from_ count.toNat b
    let all := readEntries s from_ count.toNat none
    let hit := decide (l.length < all.length)
    let slot := obj .ringSlot ((b.getD 1 - 1) % 4096)
    let s := if hit then raiseAt 0x68 0 2 slot s else s
    if hit ∧ l.isEmpty then refuse c stIntegrity (addrOf slot) s
    else
      ok c (toBytes 8 oldest ++ toBytes 8 (rd s ftS FltStatus.NEWEST) ++ toBytes 4 l.length ++ toBytes 4 0 ++
        l.flatMap fun e => toBytes 64 (entryWord e)) s) s)

/-! ## Grazing (R493 to R495, R498) -/

/-- The levels of the egress hierarchy below the port, and their nodes (R320). -/
def nodesAt (level : Nat) : Nat := (([2048, 16384, 65536, 262144] : List Nat)[level]?).getD 0

/-- What a Grazing round finds is handled, and reported, by the owner of the item (R97, R119, R150, R172, R268, R272, R340, R353, R394,
R494, R499). -/
def grazeFind (x : GrazeItem) (s : State) : State :=
  match x with
  | .billet d =>
    let s := raiseAt 0x40 0 1 (obj .pktDesc d.val) (bump .bufCtr 1 0 1 s)
    match s.buf.pkts.find? fun e => e.2.desc == d.val with
    | some (n, p) => putPkt n { p with bad := true } s
    | none => s
  | .descriptor d => loseDescriptor d.val s
  | .queue q => loseQueue q.val s
  | .node level n =>
    let lv := level.val + 1
    if nodesAt level.val ≤ n.val then s
    else
      let s := setTag lv n.val (vOf s (lv - 1) (parentOf s lv n.val) (bandOf s lv n.val)) s
      raiseAt 0x49 0 1 (nodeKey lv n.val) s
  | .config a =>
    match findObj a with
    | some k =>
      let b := blockOf k
      if b = 0x48 ∨ b = 0x49 then raiseAt b 1 2 k s
      else if b = 0x4A then raiseAt b (if k.ty = .meter then 0 else 1) 2 k s
      else if k.ty = .mirSess then raiseAt 0x6C 1 3 k (wr s k MirSess.EN 0)
      else s
    | none => s
  | .level a =>
    match findObj a with
    | some k => if [ObjTy.meter, .shPort, .shGrp, .shTen, .shSub, .shQueue].contains k.ty then raiseAt 0x4A (if k.ty = .meter then 0 else 1) 1 k (clearBucket k s) else s
    | none => s
  | .keySlot n => changeSlot n.val ⟨none, none, false⟩ (raiseAt 0x3A 0 1 (saK n.val) s)
  | .micro cl nano n =>
    if nano then raiseAt (0x10 + cl.val) 1 1 (obj .nanoView (4096 * cl.val + n.val % 4096)) s
    else raiseAt (0x10 + cl.val) 0 1 (obj .microView (16384 * cl.val + n.val)) s
  | .pattern b w both => if both then patLose b.val w.val s else patRepair b.val 1 b.val w.val s
  | .lookup store i =>
    if store.val = 0 then wordLost 0x30 0 (0, i) (obj .crownWord i) s
    else
      let (inst, k) := exmWordKey (store.val, i)
      if store.val = 1 then s else wordLost 0x31 inst (store.val, i) k s
  | .leaf j =>
    let s := { s with tbl := { s.tbl with cache := s.tbl.cache.filter fun l => lineOf s l != j.val } }
    raiseAt 0x30 1 2 (obj .leafLine j.val) s
  | .route n => rebuildRoutes (raiseAt 0x50 2 4 (routeKey n.val) s)
  | .stream st =>
    match st.port with
    | some p => streamBad (voqOf st.node.val p.val st.tc.val) s
    | none => s
  | .group g => groupBad g.val s
  | .crossbar k => raiseAt 0x51 1 2 (flKey k.val) s
  | .ringEntry j =>
    let ring := s.flt.ring.map fun e => if (e.seq - 1) % 4096 = j.val then { e with blk := 0, inst := 0, kind := 0, lost := 1 } else e
    raiseAt 0x68 0 1 (obj .ringSlot j.val) { s with flt := { s.flt with ring := ring } }
  | .mgmtWord c => raise { blk := 1, inst := c.val, kind := 2, addr := 0 } s

/-- GRAZING_ROUND: a round ends. What it found is handled by its owners; cores that failed their known-answer test go out of service, and
those that passed it return (R268). -/
def execGrazingRound (f : GrazingFind) (s : State) : Answer :=
  .next (if !flag s grC GrCtl.EN then s
    else
      let s := match s.flt.grazed with
        | some t => due (t + rd s grC GrCtl.ROUND_S * sec + f.tookMs * ms) s
        | none => s
      let n := f.hotFixed + f.fixed + f.found.length + f.coresFailed.length
      let s := mapF s grS GrStatus.ROUND (· + 1)
      let s := wr (wr s grS GrStatus.LAST_MS (min 65535 f.tookMs)) grS GrStatus.FINDINGS n
      let s := { s with flt := { s.flt with grazed := some (s.clock - f.tookMs * ms) } }
      let s := bump .fltCtr 8 0 n (bump .fltCtr 7 0 f.items s)
      let s := forAll f.found grazeFind (if f.hotFixed = 0 then s else bump .bufCtr 0 0 f.hotFixed s)
      let failed := f.coresFailed.map Fin.val
      let s := drainFifos (forAll (s.msec.coresOut.filter fun n => !failed.contains n) coreReturns s)
      forAll (failed.filter fun n => !s.msec.coresOut.contains n) coreFails s)

/-- OLDEST_S: seconds since the least recently checked item was checked. -/
def oldestS (s : State) : Nat :=
  match s.flt.grazed with
  | some t => min 254 ((s.clock - t) / sec)
  | none => 255

/-- ENGINE_TEST_PASS (R495). -/
def execEngineTestPass (e : Fin 1024) (ok : Bool) (s : State) : Answer :=
  let e := e.val
  let out := s.flt.engOut.contains e
  let show_ (s : State) : State := wr s grS GrStatus.ENGINES_OUT s.flt.engOut.length
  .next (if ok && out then show_ { s with flt := { s.flt with engOut := s.flt.engOut.filter fun n => n != e } }
    else if !ok && !out then
      raiseAt 0x68 1 0x11 (obj .threadCtx (16 * e)) (show_ { s with flt := { s.flt with engOut := e :: s.flt.engOut } })
    else s)

/-- GRAZING_OVERDUE (R495). -/
def execGrazingOverdue (item : ObjAddr) (s : State) : Answer :=
  .next (raise { blk := 0x68, inst := 1, kind := 0x12, addr := item } s)

end Sys2Proof.Machine
end

