-- ==== Sys2Proof/Machine/Observe.lean ====
section
/-! DEFINITION. Performance counters and the collection list as they may be set, sweeps, COUNTER_READ and EVENT_SUBSCRIBE (R500 to
R514). -/
namespace Sys2Proof.Machine

/-! ## Counters as the object space names them (R501, R503) -/

/-- Whether an object is a counter of the counter region, or a performance counter. -/
def isCounter (k : Key) : Bool := (descOf k.ty).base / 2 ^ 32 == 1 || k.ty == .perfCnt

/-- A run of counters from an address: 8 B apart in the counter region, 16 B in the performance counter region; none where an address
names no counter of the block. -/
def counterRun (a : ObjAddr) (n : Nat) : Option (List Key) :=
  let off := a.toNat % 2 ^ 40
  let stride := if off / 2 ^ 32 = 2 then 16 else 8
  let one (i : Nat) : Option Key :=
    if off + stride * i < 2 ^ 40 then
      match findObj (BitVec.ofNat 48 (a.toNat + stride * i)) with
      | some k => if isCounter k then some k else none
      | none => none
    else none
  let l := (List.range n).filterMap one
  if l.length = n then some l else none

/-- The list of a counter type in its block's object table, how many counters it has and how many objects. -/
def listShape (ty : ObjTy) : Nat × Nat × Nat :=
  let d := descOf ty
  let l := (ctrPlace ⟨ty, 0⟩).1
  match ty with
  | .cmdCtr => (l, d.n1, d.n2)
  | .tieCtr | .grpSwCtr | .lostCtr => (l, 1, d.n1)
  | _ => if d.n2 = 1 then (l, d.n1, 1) else (l, d.n2, d.n1)

/-- Whether the EVENT and INST of a selector of a block are in range (R501). -/
def selectorOk (blk new : Nat) : Bool :=
  let ev := getF new PerfSel.EVENT
  let inst := getF new PerfSel.INST
  let k := getF new PerfSel.SAMPLE_LOG2
  (k == 0 || decide (8 ≤ k ∧ k ≤ 40)) &&
    (if ev = 0xFF00 ∨ ev = 0xFF01 then inst == 0
     else
       (allTypes.filter fun ty => (descOf ty).blks.contains blk && (descOf ty).base / 2 ^ 32 == 1).any fun ty =>
         let (l, n, m) := listShape ty
         ev / 256 == l && decide (ev % 256 < n) && (decide (inst < m) || (decide (1 < m) && inst == 0x1FFFFF)))

/-! ## The collector (R503 to R505) -/

/-- An entry of the collection list. -/
def colKey (e : Nat) : Key := obj .colEnt e
/-- The counters of an entry's value. -/
def entryRun (x : Nat) : Option (List Key) :=
  counterRun (BitVec.ofNat 48 (getF x ColEnt.ADDR)) (getF x ColEnt.COUNT + 1)

/-- The counters that every sweep collects: those of the enabled entries in list order, then the performance counters. -/
def collected (s : State) : List Key :=
  ((listed .colEnt s).filter fun e => flag s (colKey e) ColEnt.EN).flatMap (fun e => (entryRun (rdWord s (colKey e))).getD []) ++
    ((listed .perfSel s).filter fun p => flag s (obj .perfSel p) PerfSel.COLLECT).map fun p => obj .perfCnt p

/-- Whether a collection entry may take a value: it names counters, and the whole stays within 32,768. -/
def colOk (s : State) (e new : Nat) : Bool :=
  let others := (collected (wr s (colKey e) ColEnt.EN 0)).length
  match entryRun new with
  | some l => getF new ColEnt.EN == 0 || decide (others + l.length ≤ 32768)
  | none => false

/-- Whether a selector may take a value that collects its counter. -/
def collectOk (s : State) (p new : Nat) : Bool :=
  getF new PerfSel.COLLECT == 0 || flag s (obj .perfSel p) PerfSel.COLLECT || decide ((collected s).length < 32768)

/-- The bytes of a record. -/
def recordBytes (r : SweepRec) : Nat := 32 + 8 * r.values.length

/-- The newest records that a ring of 1 GB holds. -/
def ringFit : Nat → List SweepRec → List SweepRec
  | _, [] => []
  | used, r :: rest => if used + recordBytes r ≤ 2 ^ 30 then r :: ringFit (used + recordBytes r) rest else []

/-- The parts of a record that a session's stream carries: 8,156 B each (R508). -/
def sweepParts (number total : Nat) : List TelRec :=
  (List.range ((total + 8155) / 8156)).map fun i => .sweep number (8156 * i) (min 8156 (total - 8156 * i))

/-- A record has been written: it is counted, shown and streamed (R507, R513). -/
def recordWritten (s : State) : State :=
  match s.cnt.ring with
  | [] => s
  | r :: _ =>
    let s := { s with cnt := { s.cnt with unwritten := false } }
    let s := wr (bump .cntCtr 0 0 1 s) (obj .cntStatus) CntStatus.SWEEP r.number
    let to_ := (subscribers s 3).filter fun n =>
      match (getSess s n).sub with
      | some u => r.number % max 1 u.sweepDiv == 0
      | none => false
    forAll to_ (fun n s => forAll (sweepParts r.number (recordBytes r)) (pushRecord n) s) s

/-- Whether some counters must wait for the bridge, which carries those of QD blocks (R19, R22). -/
def countersWait (s : State) (l : List Key) : Bool := l.any fun k => bridgeWaits s (blockOf k)

/-- COUNTER_SWEEP (R504, R505): at the next multiple of 100 µs the counters are latched, unless the last record is still not written. -/
def execCounterSweep (s : State) : Answer :=
  let x := s.cnt
  .next (if (x.nextNo = 0 ∧ !hbmOk s) ∨ countersWait s (collected s) then s
    else
      let s := reach ((nowNs s / 100000 + 1) * 100000 * 65536) s
      let s := if x.unwritten ∧ hbmOk s then recordWritten s else s
      if s.cnt.unwritten then
        let s := bump .cntCtr 1 0 1 { s with cnt := { s.cnt with nextNo := x.nextNo + 1, skipped := true } }
        raiseEach 0x6C 0 2 0 (obj .cntStatus) s
      else
        let r : SweepRec := { number := x.nextNo, time := time96 s, skipped := x.skipped, values := (collected s).map (rdWord s) }
        let s := { s with cnt := { s.cnt with ring := r :: ringFit (recordBytes r) s.cnt.ring, nextNo := x.nextNo + 1,
                                              skipped := false, unwritten := true } }
        if hbmOk s then recordWritten s else s)

/-! ## COUNTER_READ (R506) -/

/-- COUNTER_READ_LIVE (R506), and any MODE that R506 does not list (R57), whose further PARAMS have no layout. -/
def execCounterReadLive (c : Hdr) (other : Unlisted) (res : BitVec 24) (addr : ObjAddr) (res2 : BitVec 16) (count : BitVec 32) (s : State) : Answer :=
  let n := count.toNat
  let a := if other.isNone then addr else sessAddr c.sid.val
  .next (checked c 0x0402 accRead (fun l => l == 16 || (other.isSome && decide (4 ≤ l))) (res == 0 && (res2 == 0 || other.isSome)) 0x6C a (fun s =>
    match if other.isNone ∧ 1 ≤ n ∧ n ≤ 8192 then counterRun addr n else none with
    | none => refuse c stRange a s
    | some l => if countersWait s l then s else ok c (toBytes 12 (time96 s) ++ toBytes 4 0 ++ l.flatMap fun k => toBytes 8 (rdWord s k)) s) s)

/-- The header of a record (R504). -/
def recordHeader (r : SweepRec) : Bytes :=
  toBytes 8 r.number ++ toBytes 12 r.time ++ toBytes 4 r.values.length ++ toBytes 1 (if r.skipped then 1 else 0) ++ toBytes 7 0

/-- COUNTER_READ_RING (R506, R514): `bad` says which copies of the record are uncorrectable. -/
def execCounterReadRing (c : Hdr) (res : BitVec 24) (sweep : Word) (first count : BitVec 32) (bad : CopyLoss) (s : State) : Answer :=
  let a := sessAddr c.sid.val
  let n := count.toNat
  .next (checked c 0x0402 accRead (fun l => l == 20) (res == 0) 0x6C a (fun s =>
    let held := if s.cnt.unwritten then s.cnt.ring.tail else s.cnt.ring
    match held.find? fun r => r.number == sweep.toNat with
    | none => refuse c stRange a s
    | some r =>
      if !(decide (1 ≤ n ∧ n ≤ 8192 ∧ first.toNat + n ≤ r.values.length)) then refuse c stRange a s
      else if bad = .both then refuse c stIntegrity a s
      else
        let s := if bad = .one then raiseAt 0x6C 0 1 (obj .cntStatus) s else s
        ok c (recordHeader r ++ ((r.values.drop first.toNat).take n).flatMap (toBytes 8)) s) s)

/-! ## EVENT_SUBSCRIBE (R507) -/

/-- EVENT_SUBSCRIBE (R507). -/
def execEventSubscribe (c : Hdr) (streams qsMin : BitVec 32) (sweepDiv res : BitVec 16) (s : State) : Answer :=
  let n := c.sid.val
  let good := res == 0 && decide (streams.toNat < 32) && decide (1 ≤ sweepDiv.toNat ∧ sweepDiv.toNat ≤ 10000)
  .next (checked c 0x0401 accRead (fun l => l == 12) good 0x6C (sessAddr n) (fun s =>
    let u : Option Sub :=
      if streams = 0 then none else some { streams := streams, qsMin := qsMin.toNat, sweepDiv := sweepDiv.toNat }
    done c (setSess s n { getSess s n with sub := u })) s)

end Sys2Proof.Machine
end

