-- ==== Sys2Proof/Machine/Update.lean ====
section
/-! DEFINITION. In-service update: the lease, staging, verify, the flash, commit, activation, the health check and fallback (R515 to
R540). -/
namespace Sys2Proof.Machine

/-- The objects of block UPD (R538). -/
def upC : Key := obj .updCtl
/-- See `upC`. -/
def upS : Key := obj .updStatus
/-- The directory record of FSk (R539). -/
def dirK (k : Nat) : Key := obj .dirRec k

/-- STATE of a slot (R525). -/
def fsEmpty : Nat := 0
/-- See `fsEmpty`. -/
def fsWriting : Nat := 1
/-- See `fsEmpty`. -/
def fsVerified : Nat := 2
/-- See `fsEmpty`. -/
def fsActive : Nat := 3
/-- See `fsEmpty`. -/
def fsPrevious : Nat := 4

/-- STAGE (R538). -/
def sgReceiving : Nat := 1
/-- See `sgReceiving`. -/
def sgVerifying : Nat := 2
/-- See `sgReceiving`. -/
def sgVerified : Nat := 3
/-- See `sgReceiving`. -/
def sgBad : Nat := 4
/-- See `sgReceiving`. -/
def sgCommitting : Nat := 5

/-- ACT_STATE (R538). -/
def acIdle : Nat := 0
/-- See `acIdle`. -/
def acActivating : Nat := 1
/-- See `acIdle`. -/
def acHealth : Nat := 2
/-- See `acIdle`. -/
def acFalling : Nat := 3

/-- The stage of the staging area. -/
def stage (s : State) : Nat := rd s upS UpdStatus.STAGE
/-- How far an activation is. -/
def actState (s : State) : Nat := rd s upS UpdStatus.ACT_STATE
/-- The first slot in a state. -/
def slotIn (s : State) (st : Nat) : Option Nat := (List.range 2).find? fun k => rd s (dirK k) DirRec.STATE == st
/-- The slot of the running firmware. -/
def runSlot (s : State) : Nat := rd s upS UpdStatus.RUN_SLOT
/-- A slot of the flash. -/
def flashSlot (s : State) (k : Nat) : FlashSlot := s.upd.slots.getD k ⟨none, []⟩
/-- What the bundle of a slot declares. -/
def bundleIn (s : State) (k : Nat) : Option BundleInfo := (flashSlot s k).bundle
/-- Whether power is stable enough for a flash store or a fuse write (R566). -/
def stable (s : State) : Bool := flag s (obj .pwrStatus) PwrStatus.STABLE
/-- Count on a counter of UPD (R539). -/
def updCount (i : Nat) (s : State) : State := bump .updCtr 0 i 1 s

/-- One directory write: the copy in force becomes the older one (R524). -/
def dirWrite (f : State → State) (s : State) : State :=
  f { s with upd := { s.upd with dirSeq := s.upd.dirSeq + 1, dirOld := [rdWord s (dirK 0), rdWord s (dirK 1)] } }

/-! ## The lease (R520, R521) -/

/-- Seconds left of the lease. -/
def leaseLeft (s : State) : Nat :=
  if rd s upS UpdStatus.HOLDER = 255 then 0 else (s.upd.leaseAt + s.upd.leaseS * sec - s.clock + (sec - 1)) / sec

/-- RESULT of UPDATE_LEASE. -/
def leaseResult (s : State) : Bytes :=
  toBytes 1 (rd s upS UpdStatus.HOLDER) ++ toBytes 1 0 ++ toBytes 2 (leaseLeft s)

/-- The lease of a session restarts. -/
def restartLease (s : State) : State := { s with upd := { s.upd with leaseAt := s.clock } }

/-- What stands against a command that only the holder may send (R521). -/
def leaseFault (s : State) (n : Nat) : Option Nat :=
  let h := rd s upS UpdStatus.HOLDER
  if h = 255 then some stState else if h = n then none else some stLeaseHeld

/-- An UPDATE_LEASE that passes the checks up to the parameter ranges. -/
def updateLease (c : Hdr) (inRange : Bool) (res : BitVec 8) (leaseS : BitVec 16) (f : State → State) (s : State) : State :=
  checked c 0x0701 accUpdate (fun n => n == 4) (res == 0) 0x70 (sessAddr c.sid.val) (fun s =>
    need c (inRange && decide (10 ≤ leaseS.toNat ∧ leaseS.toNat ≤ 3600)) stRange (sessAddr c.sid.val) f s) s

/-- The lease is taken or renewed for a length. -/
def holdLease (c : Hdr) (leaseS : Nat) (s : State) : State :=
  let s := wr { s with upd := { s.upd with leaseS := leaseS, leaseAt := s.clock } } upS UpdStatus.HOLDER c.sid.val
  ok c (leaseResult s) s

/-- UPDATE_LEASE_ACQUIRE (R520), and any ACTION that R520 does not list (R57). -/
def execUpdateLeaseAcquire (c : Hdr) (other : Unlisted) (res : BitVec 8) (leaseS : BitVec 16) (s : State) : Answer :=
  .next (updateLease c other.isNone res leaseS (fun s =>
    match leaseFault s c.sid.val with
    | none => holdLease c leaseS.toNat s
    | some st =>
      if st = stLeaseHeld then refuseWith c st 0 (leaseResult s) s else holdLease c leaseS.toNat (endLease s)) s)

/-- UPDATE_LEASE_RENEW (R520). -/
def execUpdateLeaseRenew (c : Hdr) (res : BitVec 8) (leaseS : BitVec 16) (s : State) : Answer :=
  .next (updateLease c true res leaseS (fun s =>
    match leaseFault s c.sid.val with
    | none => holdLease c leaseS.toNat s
    | some st => refuseWith c st (sessAddr c.sid.val) (if st = stLeaseHeld then leaseResult s else []) s) s)

/-- UPDATE_LEASE_RELEASE (R520): not while the holder's UPDATE_COMMIT is outstanding. -/
def execUpdateLeaseRelease (c : Hdr) (res : BitVec 8) (leaseS : BitVec 16) (s : State) : Answer :=
  .next (updateLease c true res leaseS (fun s =>
    match leaseFault s c.sid.val with
    | none =>
      need c s.upd.commit.isNone stState (sessAddr c.sid.val) (fun s =>
        let s := endLease s
        ok c (leaseResult s) s) s
    | some st => refuseWith c st (sessAddr c.sid.val) (if st = stLeaseHeld then leaseResult s else []) s) s)

/-- LEASE_EXPIRE (R521): not while a command of the holder is outstanding. -/
def execLeaseExpire (s : State) : Answer :=
  let h := rd s upS UpdStatus.HOLDER
  .next (if h = 255 ∨ rd s (sessKey h) SessStatus.OUTSTANDING ≠ 0 then s else endLease (due (s.upd.leaseAt + s.upd.leaseS * sec) s))

/-- A command of the holder: the checks of its opcode, then the parameter ranges, then the lease (R57, R521). -/
def holderCommand (c : Hdr) (op plen : Nat) (resOk rangeOk ready : Bool) (f : State → State) (s : State) : State :=
  checked c op accUpdate (fun n => n == plen) resOk 0x70 (sessAddr c.sid.val) (fun s =>
    need c ready stNotReady 0 (fun s =>
      need c rangeOk stRange (sessAddr c.sid.val) (fun s =>
        match leaseFault s c.sid.val with
        | some st => refuse c st (sessAddr c.sid.val) s
        | none => f s) s) s) s

/-- A status of the holder's command that depends on the state, with the address of the session: the command names no object (R62). -/
def holderNeed (c : Hdr) (cond : Bool) (st : Nat) (result : Bytes) (f : State → State) (s : State) : State :=
  if cond then f (restartLease s) else refuseWith c st (sessAddr c.sid.val) result s

/-! ## Staging (R522) -/

/-- A block of the staging area. -/
def blockSize : Nat := 65536

/-- Bytes of the staged outer header. -/
def headerField (b : Bytes) (off n : Nat) : Nat := ofBytes ((b.drop off).take n)

/-- LENGTH of the staged bundle, once the block at offset 0 has arrived (R522). -/
def stagedLength (s : State) : Option Nat :=
  match tabGet? s.upd.blocks 0 with
  | some b => if b.length < 16 then none else some (headerField b 12 4)
  | none => none

/-- Whether a block fits a bundle's length: it ends within it, and only the last one may be short. -/
def blockFits (len i n : Nat) : Bool := decide (i * blockSize + n ≤ len ∧ (n = blockSize ∨ i * blockSize + n = len))

/-- Drop the blocks that lie beyond LENGTH. -/
def dropBeyond (s : State) : State :=
  match stagedLength s with
  | some len =>
    { s with upd := { s.upd with blocks := s.upd.blocks.filter fun e => e.1 == 0 || decide (e.1 * blockSize + e.2.length ≤ len) } }
  | none => s

/-- The number of blocks held. -/
def countBlocks (s : State) : State := wr s upS UpdStatus.BLOCKS s.upd.blocks.length

/-- UPDATE_WRITE (R522). -/
def execUpdateWrite (c : Hdr) (off len res : BitVec 32) (data : Bytes) (s : State) : Answer :=
  let i := off.toNat / blockSize
  let inLen := match stagedLength s with
    | some l => i == 0 || blockFits l i len.toNat
    | none => true
  let inRange := off.toNat % blockSize == 0 && decide (off.toNat < 33554432 ∧ 1 ≤ len.toNat ∧ len.toNat ≤ blockSize) && inLen
  .next (if data.length ≠ len.toNat then
      checked c 0x0702 accUpdate (fun _ => false) (res == 0) 0x70 (sessAddr c.sid.val) (fun s => s) s
    else
      holderCommand c 0x0702 (12 + len.toNat) (res == 0) inRange (hbmReady s 0) (fun s =>
        holderNeed c (stage s != sgVerifying && stage s != sgCommitting) stState [] (fun s =>
          let s := { s with upd := { s.upd with blocks := tabPut s.upd.blocks i data, staged := none } }
          let s := countBlocks (dropBeyond s)
          let s := updCount 0 (wr s upS UpdStatus.STAGE sgReceiving)
          ok c (toBytes 2 s.upd.blocks.length ++ toBytes 2 0) s) s) s)

/-! ## Verify (R515 to R519, R523) -/

/-- Whether every block up to LENGTH is held. -/
def allHeld (s : State) : Bool :=
  match stagedLength s with
  | some len =>
    (List.range ((len + blockSize - 1) / blockSize)).all fun i =>
      match tabGet? s.upd.blocks i with
      | some b => b.length == min blockSize (len - i * blockSize)
      | none => false
  | none => false

/-- Whether the outer header is as R515 gives it. -/
def outerOk (s : State) : Bool :=
  let b := tabGet s.upd.blocks 0 []
  let len := headerField b 12 4
  headerField b 0 4 == 0x56584255 && headerField b 4 2 == 1 && headerField b 6 1 == 1 && headerField b 7 1 == 0 &&
    decide (4096 ≤ len ∧ len ≤ 33554432) && headerField b 28 36 == 0

/-- An image as parts of 256 B. -/
def partsOf (l : List Nat) : Tab Nat := (List.range l.length).zip l
/-- The ABI bytes of an image: ABI_WR, ABI_RD_MIN, ABI_RD_MAX (R100). -/
def imageAbi (l : List Nat) : Nat := imgNat (partsOf l) 16 3

/-- The first of the checks 0x09 to 0x0E that fails against the running state, and whether 0x0A does (R523). -/
def runningChecks (s : State) (b : BundleInfo) : Option Nat × Bool :=
  let run := bundleIn s (runSlot s)
  let mine := match run with
    | some r => decide (b.setMin ≤ r.setWr ∧ r.setWr ≤ b.setMax)
    | none => true
  let svc := match run with
    | some r => decide (b.svcMin ≤ r.svcWr ∧ r.svcWr ≤ b.svcMax ∧ r.svcMin ≤ b.svcWr ∧ b.svcWr ≤ r.svcMax)
    | none => true
  let loaded := (List.range 32).filter fun cl => !neverLoaded s cl
  let serves (abi : Nat) : Bool := let w := (abiOf abi).1; decide (b.abiMin ≤ w ∧ w ≤ b.abiMax)
  let abi := loaded.all (fun cl => serves (rd s (clVer cl) ClVersion.ABI)) &&
    (match b.image with
      | some l => serves (imageAbi l) && loaded.all fun cl => abiFits (imageAbi l) (rd s (clVer cl) ClVersion.ABI)
      | none => true)
  let free := b.image.isNone || (List.range 4).any fun k => !slotLocked s k
  (if b.secver < rd s upS UpdStatus.SECVER_MIN then some 0x09
   else if !svc then some 0x0B
   else if !abi then some 0x0C
   else if !b.phyOk then some 0x0D
   else if !free then some 0x0E
   else none, !mine)

/-- The status of a failing reason (R523). -/
def reasonStatus (r : Nat) : Nat := if 2 ≤ r ∧ r ≤ 8 then stIntegrity else stState

/-- The outcome of a verify: REASON, COMPONENT and BAD_OFFSET, and whether it fails. -/
def verifyOutcome (s : State) (b : BundleInfo) : Nat × Nat × Nat × Bool :=
  if !allHeld s then (1, 255, 0, true)
  else if !outerOk s then (2, 255, 0, true)
  else
    match b.failing with
    | some (r, comp, off) => (r.toNat, comp.toNat, off.toNat, true)
    | none =>
      match runningChecks s b with
      | (some r, _) => (r, 255, 0, true)
      | (none, true) => (0x0A, 255, 0, false)
      | (none, false) => (0, 255, 0, false)

/-- RESULT of UPDATE_VERIFY. -/
def verifyResult (o : Nat × Nat × Nat × Bool) : Bytes := toBytes 1 o.1 ++ toBytes 1 o.2.1 ++ toBytes 2 0 ++ toBytes 4 o.2.2.1

/-- UPDATE_VERIFY (R523): the checks begin. -/
def execUpdateVerify (c : Hdr) (s : State) : Answer :=
  .next (holderCommand c 0x0703 0 true true true (fun s =>
    holderNeed c (stage s != sgVerifying && stage s != sgCommitting) stState [] (fun s =>
      defer c 0x70 (wr { s with upd := { s.upd with verify := some c } } upS UpdStatus.STAGE sgVerifying)) s) s)

/-- UPDATE_VERIFY_COMPLETE (R523): STAGE becomes VERIFIED or BAD, and the reply is sent. -/
def execUpdateVerifyComplete (b : BundleInfo) (s : State) : Answer :=
  .next (match s.upd.verify with
    | none => s
    | some c =>
      let o := verifyOutcome s b
      let s := wr { s with upd := { s.upd with verify := none, staged := if o.2.2.2 then none else some b } } upS UpdStatus.LAST_REASON o.1
      let s := if stage s = sgVerifying then wr s upS UpdStatus.STAGE (if o.2.2.2 then sgBad else sgVerified) else s
      if o.2.2.2 then refuseWith c (reasonStatus o.1) (sessAddr c.sid.val) (verifyResult o) (updCount 1 s) else ok c (verifyResult o) s)

/-! ## Settings (R526, R527, R546) -/

/-- Whether an object's RW fields are settings: objects of the two regions but the operator key slots. -/
def isSetting (ty : ObjTy) : Bool :=
  let b := (descOf ty).base
  ty != .opKey && (decide (b < 2 ^ 32) || decide (3 * 2 ^ 32 ≤ b ∧ b < 4 * 2 ^ 32)) &&
    (fieldsOf ty).any fun d => d.acc == .rw

/-- The RW fields of a value, taken over into another. -/
def takeSettings (ty : ObjTy) (old new : Nat) : Nat :=
  (fieldsOf ty).foldl (fun x d => if d.acc = .rw then putF x d.f (getF new d.f) else x) old

/-- The current settings, for the objects that differ from their reset values. -/
def currentSettings (s : State) : Tab Nat :=
  s.regs.filter fun e =>
    match keyOfNo e.1 with
    | some k => isSetting k.ty && takeSettings k.ty 0 e.2 != takeSettings k.ty 0 (resetVal s.fuses k)
    | none => false

/-- The newer half of a slot's settings area, beside the half that is older. -/
def withHalf (h : Settings) (l : List Settings) : List Settings := h :: l.take 1

/-- Set a slot of the flash. -/
def setFlash (k : Nat) (x : FlashSlot) (s : State) : State := { s with upd := { s.upd with slots := s.upd.slots.set k x } }

/-- Whether SAVE is refused with STATE (R526, R527, R538): during a commit or fallback, without stable power, or with no ACTIVE slot. -/
def saveRefused (s : State) : Bool :=
  s.upd.commit.isSome || actState s == acFalling || !stable s || (slotIn s fsActive).isNone

/-- SAVE starts (R526): the settings as they stand, in the running firmware's format; one under way goes on. -/
def saveGo (s : State) : State :=
  if s.upd.save.isSome then s
  else
    let fmt := match bundleIn s (runSlot s) with
      | some b => b.setWr
      | none => 0
    { s with upd := { s.upd with save := some { seq := 0, format := fmt, regs := currentSettings s } } }

/-- SAVE_COMPLETE (R526, R536): the half just written is the newer one, and SETTINGS_DEFAULTED clears. -/
def execSaveComplete (s : State) : Answer :=
  .next (match s.upd.save with
    | none => s
    | some h =>
      let s := { s with upd := { s.upd with save := none } }
      match slotIn s fsActive with
      | none => s
      | some k =>
        let x := flashSlot s k
        let seq := match x.halves with
          | o :: _ => o.seq + 1
          | [] => 1
        let s := setFlash k { x with halves := withHalf { h with seq := seq } x.halves } s
        updCount 6 (wr (wr s (dirK k) DirRec.SET_FORMAT h.format) upS UpdStatus.SETTINGS_DEFAULTED 0))

/-! ## Commit (R527 to R529) -/

/-- UPDATE_COMMIT (R528): step 1. -/
def execUpdateCommit (c : Hdr) (res : BitVec 32) (s : State) : Answer :=
  let trial := match slotIn s fsActive with
    | some k => flag s (dirK k) DirRec.TRIAL
    | none => false
  .next (holderCommand c 0x0704 4 (res == 0) true true (fun s =>
    holderNeed c (stage s == sgVerified && !trial && actState s != acActivating && actState s != acFalling && stable s) stState []
      (fun s =>
        match s.upd.staged with
        | none => refuse c stState (sessAddr c.sid.val) s
        | some b =>
          let t := if slotIn s fsActive = some 0 then 1 else 0
          let len := (stagedLength s).getD 0
          let s := dirWrite (fun s => wr s (dirK t) DirRec.STATE fsWriting) (wr s upS UpdStatus.STAGE sgCommitting)
          defer c 0x70 { s with upd := { s.upd with
            commit := some { hdr := c, step := 2, target := t, bundle := b, len := len, repeats := 0 } } }) s) s)

/-- A commit fails: the target stays WRITING, STAGE returns to VERIFIED (R529). -/
def commitFails (x : Storing) (kind st : Nat) (s : State) : State :=
  let s := { s with upd := { s.upd with commit := none } }
  let s := if stage s = sgCommitting then wr s upS UpdStatus.STAGE sgVerified else s
  let s := raiseAt 0x70 0 kind upS (updCount 3 s)
  if (waitingOf s x.hdr).isSome then refuse x.hdr st (sessAddr x.hdr.sid.val) s else s

/-- The directory record of a slot just committed (R528, R539). -/
def committedRec (b : BundleInfo) (len fmt : Nat) : Nat :=
  let x := putF (putF 0 DirRec.STATE fsActive) DirRec.TRIAL 1
  let x := putF (putF x DirRec.BUNDLE_ID b.bundleId.toNat) DirRec.FW_VERSION b.fwVersion.toNat
  let x := putF (putF x DirRec.SECVER b.secver) DirRec.SET_FORMAT fmt
  putF (putF x DirRec.LENGTH len) DirRec.TAG b.tag.toNat

/-- Step 6 of a commit: one directory write, and the staging area is empty. -/
def commitEnds (x : Storing) (s : State) : State :=
  let fmt := match (flashSlot s x.target).halves with
    | h :: _ => h.format
    | [] => 0
  let was := slotIn s fsActive
  let s := dirWrite (fun s =>
    let s := match was with
      | some k => wr s (dirK k) DirRec.STATE fsPrevious
      | none => s
    wrWord s (dirK x.target) (committedRec x.bundle x.len fmt)) s
  let s := { s with upd := { s.upd with commit := none, blocks := [], staged := none } }
  let s := updCount 2 (wr (wr s upS UpdStatus.STAGE 0) upS UpdStatus.BLOCKS 0)
  done x.hdr s

/-- COMMIT_STEP_COMPLETE (R528, R529): `ok` is the outcome of the readback of step 4; a sector that differs is written again, at most
twice. -/
def execCommitStepComplete (ok : Bool) (s : State) : Answer :=
  .next (match s.upd.commit with
    | none => s
    | some x =>
      let put (x : Storing) (s : State) : State := { s with upd := { s.upd with commit := some x } }
      match x.step with
      | 2 => put { x with step := 3 } (setFlash x.target ⟨none, []⟩ s)
      | 3 => put { x with step := 4 } (setFlash x.target ⟨some x.bundle, []⟩ s)
      | 4 =>
        if ok then put { x with step := 5 } s
        else if x.repeats < 2 then put { x with repeats := x.repeats + 1 } s
        else commitFails x 2 stIntegrity s
      | 5 =>
        let half := match slotIn s fsActive with
          | some k => (flashSlot s k).halves.take 1
          | none => []
        put { x with step := 6 } (setFlash x.target ⟨some x.bundle, half⟩ s)
      | _ => commitEnds x s)

/-- STORE_ABORT (R527): power has left the stable conditions during a store. -/
def execStoreAbort (s : State) : Answer :=
  .next (if stable s then s
    else
      let s := match s.upd.commit with
        | some x => commitFails x 1 stState s
        | none => s
      if s.upd.save.isSome then raiseAt 0x70 0 1 upS { s with upd := { s.upd with save := none } } else s)

/-! ## Activation (R530 to R532, R551) -/

/-- A step of an activation after the health check has failed: LAST_REASON, and an event (R532). -/
def partFailed (s : State) : State := stateEvent upS (wr s upS UpdStatus.LAST_REASON 8)

/-- Write parts of 256 B from a register on. -/
def writeParts (ty : ObjTy) (base n : Nat) (l : List Nat) (s : State) : State :=
  forAll (List.range n) (fun i s => wrWord s (obj ty (base + i)) (l.getD i 0)) s

/-- Whether a start-up loads the images (R551), and not an activation or a fallback: command-ready has not been reached. -/
def booting (s : State) : Bool := !flag s rstKey RstStatus.READY

/-- The bundle whose components an activation, a fallback or a boot loads: that of the ACTIVE slot, at a boot that of the running slot. -/
def loading (s : State) : Option BundleInfo :=
  if booting s then bundleIn s (runSlot s)
  else match slotIn s fsActive with
    | some k => bundleIn s k
    | none => none

/-- The rule image is written to the standby bank and SWAP is written (R531, step 6; R551). -/
def rulesGo (l : List Nat) (s : State) : State :=
  let b := standby s
  if !windowOk s b then partFailed s
  else
    let s := { s with regs := s.regs.filter fun e => !(e.1 % 256 == ObjTy.patWin.ctorIdx && e.1 / 256 / patParts == b) }
    let s := windowWritten b (writeParts .patWin (b * patParts) l.length l s)
    if swapOk s then swapGo s else partFailed s

/-- The cluster image is written to the lowest image slot that is not LOCKED, and its check begins (R531, step 7; R551). -/
def imageGo (l : List Nat) (s : State) : State :=
  match (List.range 4).find? fun k => !slotLocked s k with
  | none => partFailed { s with upd := { s.upd with actSlot := none } }
  | some k =>
    let s := slotWritten k (writeParts .imgData (k * slotParts) slotParts l s)
    slotVerify k { s with upd := { s.upd with actSlot := some k } }

/-- LOAD_GO is written on every cluster that is not EMPTY, at a boot on every cluster, in ascending order (R531, R551). -/
def loadsGo (k : Nat) (s : State) : State :=
  let all := booting s
  forAll ((List.range 32).filter fun cl => all || !neverLoaded s cl) (fun cl s =>
    let s := wr s (clKey cl) ClCtl.SRC_SLOT k
    if loadOk s cl k (rd s (clKey cl) ClCtl.PROTECT) then loadGo cl s else partFailed s) s

/-- The part at the head begins. -/
def beginPart (s : State) : State :=
  match s.upd.act with
  | [] => if actState s = acFalling then stateEvent upS (wr s upS UpdStatus.ACT_STATE acIdle) else s
  | p :: _ =>
    let s := { s with upd := { s.upd with actDone := p :: s.upd.actDone.filter (fun q => q != p) } }
    match p with
    | .phy | .core _ => s
    | .rules => match (loading s).bind BundleInfo.rules with
      | some l => rulesGo l s
      | none => s
    | .image => match (loading s).bind BundleInfo.image with
      | some l => imageGo l s
      | none => { s with upd := { s.upd with actSlot := none } }
    | .reloads => match s.upd.actSlot with
      | some k => if slotLoadable s k 1 then loadsGo k s else s
      | none => s

/-- Whether the part at the head has come to its end. -/
def partOver (s : State) (p : ActPart) : Bool :=
  match p with
  | .phy | .core _ => true
  | .rules => !s.pat.verifying && s.pat.swapAt.isNone
  | .image => match s.upd.actSlot with
    | some k => !s.eng.verifying.contains k
    | none => true
  | .reloads => (List.range 32).all fun cl => (getCl s cl).reload.isNone || parkedOrParking s cl

/-- What the end of a part shows: a BAD image slot, a swap refused by its check, a reload refused or abandoned (R532). -/
def partResult (p : ActPart) (s : State) : State :=
  match p with
  | .phy | .core _ => s
  | .rules =>
    match (loading s).bind BundleInfo.rules with
    | some _ => if bankState s (standby s) = pbBad then partFailed s else s
    | none => s
  | .image => match s.upd.actSlot with
    | some k => if slotLoadable s k 1 then s else partFailed s
    | none => s
  | .reloads => match s.upd.actSlot with
    | some k =>
      let bad := (List.range 32).any fun cl =>
        !parkedOrParking s cl && (!neverLoaded s cl || booting s) && rd s (clVer cl) ClVersion.SLOT != k
      if slotLoadable s k 1 && bad then partFailed s else s
    | none => s

/-- Whether a part is the restart of a core. -/
def ActPart.isCore : ActPart → Bool
  | .core _ => true
  | _ => false

/-- The cores run the firmware of the ACTIVE slot; at an activation the reply is sent and the health window opens (R531, step 4). -/
def coresDone (s : State) : State :=
  match slotIn s fsActive with
  | none => s
  | some k =>
    let ver := match bundleIn s k with
      | some b => b.fwVersion.toNat
      | none => 0
    let s := wr (wr s upS UpdStatus.RUN_SLOT k) upS UpdStatus.RUN_VERSION ver
    if actState s ≠ acActivating then s
    else
      let s := wr s upS UpdStatus.ACT_STATE acHealth
      let h := s.upd.actHdr
      let s := { s with upd := { s.upd with actHdr := none, healthAt := s.clock, confirmed := false, coreFault := false } }
      match h with
      | some c => ok c (toBytes 1 0 ++ toBytes 1 acHealth ++ toBytes 2 0) s
      | none => s

/-- ACTIVATION_STEP_COMPLETE (R531, R535, R551): the part at the head ends, and the next begins. -/
def execActivationStepComplete (s : State) : Answer :=
  .next (match s.upd.act with
    | [] => s
    | p :: rest =>
      if !partOver s p then s
      else
        let s := partResult p { s with upd := { s.upd with act := rest } }
        let s := if p.isCore && !rest.any ActPart.isCore then coresDone s else s
        beginPart s)

/-- The parts of an activation in the order of R531. -/
def partsOfBundle (b : BundleInfo) : List ActPart :=
  let rules := if b.rules.isSome then [ActPart.rules] else []
  let image := if b.image.isSome then [ActPart.image, .reloads] else []
  [.phy, .core 3, .core 2, .core 1, .core 0] ++ (if b.rulesFirst then rules ++ image else image ++ rules)

/-- RESULT of UPDATE_ACTIVATE. -/
def actResult (reason : Nat) (s : State) : Bytes := toBytes 1 reason ++ toBytes 1 (actState s) ++ toBytes 2 0

/-- IN_SERVICE (R530, R531): `bad` is what a check of 0x02 to 0x08 finds as the slot is read again. -/
def execInService (c : Hdr) (other : Unlisted) (res : BitVec 24) (bad : Option BundleFail) (s : State) : Answer :=
  .next (holderCommand c 0x0705 4 (res == 0) other.isNone true (fun s =>
    let k := (slotIn s fsActive).getD 2
    match bundleIn s k with
    | none => refuseWith c stState (sessAddr c.sid.val) (actResult 0 s) s
    | some b =>
      let (r, settings) := runningChecks s b
      let reason := if settings ∧ r ≠ some 9 then 0x0A else r.getD 0
      holderNeed c (flag s (dirK k) DirRec.TRIAL && runSlot s != k && actState s == acIdle && reason == 0) stState (actResult reason s)
        (fun s =>
          match bad with
          | some (r, _, _) =>
            let s := wr s upS UpdStatus.LAST_REASON r.toNat
            refuseWith c stIntegrity (sessAddr c.sid.val) (actResult r.toNat s) s
          | none =>
            let s := updCount 4 (wr s upS UpdStatus.ACT_STATE acActivating)
            beginPart (defer c 0x70 { s with upd := { s.upd with act := partsOfBundle b, actDone := [], actHdr := some c } })) s) s)

/-- RESTART (R530): the reply is sent, and then the device resets. -/
def execRestart (c : Hdr) (res : BitVec 24) (s : State) : Answer :=
  .next (holderCommand c 0x0705 4 (res == 0) true true (fun s =>
    holderNeed c (actState s == acIdle || actState s == acHealth) stState (actResult 0 s) (fun s =>
      finish c stOk 0 0 (actResult 0 s) .restartSlot s) s) s)

/-! ## Health check and fallback (R533 to R535) -/

/-- The image passes: TRIAL and TRIES clear in one directory write, and an event is raised (R533). -/
def healthPass (s : State) : State :=
  let k := runSlot s
  let s := dirWrite (fun s => wr (wr s (dirK k) DirRec.TRIAL 0) (dirK k) DirRec.TRIES 0) s
  stateEvent upS (wr s upS UpdStatus.ACT_STATE acIdle)

/-- The directory write of a fallback (R535). -/
def fallbackWrite (failed prev : Nat) (s : State) : State :=
  updCount 5 (dirWrite (fun s =>
    let s := wr (wr s (dirK prev) DirRec.STATE fsActive) (dirK prev) DirRec.TRIAL 0
    wr (wr s (dirK failed) DirRec.STATE fsVerified) (dirK failed) DirRec.HEALTH_FAILED 1) s)

/-- A fallback in service (R535): from an image on defaulted settings through a device reset, else the parts that the activation changed,
in reverse. -/
def fallBack (s : State) : State :=
  match slotIn s fsPrevious with
  | none => stateEvent upS (wr s upS UpdStatus.ACT_STATE acIdle)
  | some prev =>
    let s := fallbackWrite (runSlot s) prev s
    if flag s upS UpdStatus.SETTINGS_DEFAULTED then fullReset 6 false s
    else
      let parts := s.upd.actDone.filter fun p => p != .reloads
      let parts := parts.flatMap fun p => if p = .image then [p, .reloads] else [p]
      beginPart (wr { s with upd := { s.upd with act := parts, actDone := [] } } upS UpdStatus.ACT_STATE acFalling)

/-- HEALTH_WINDOW_END (R533): the image passes or falls back; the directory write waits for stable power (R527). -/
def execHealthWindowEnd (s : State) : Answer :=
  .next (if actState s ≠ acHealth ∨ !stable s then s
    else
      let s := due (s.upd.healthAt + rd s upC UpdCtl.HEALTH_S * sec) s
      if !s.upd.coreFault && (!flag s upC UpdCtl.CONFIRM_REQ || s.upd.confirmed) then healthPass s
      else fallBack (raiseAt 0x70 1 3 upS s))

/-- Seconds left in the health window. -/
def healthLeft (s : State) : Nat :=
  if actState s ≠ acHealth then 0 else (s.upd.healthAt + rd s upC UpdCtl.HEALTH_S * sec - s.clock + (sec - 1)) / sec

/-- CONFIRM (R530, R533). -/
def execConfirm (c : Hdr) (res : BitVec 24) (s : State) : Answer :=
  .next (holderCommand c 0x0705 4 (res == 0) true true (fun s =>
    holderNeed c (actState s == acHealth) stState (actResult 0 s) (fun s =>
      let s := { s with upd := { s.upd with confirmed := true } }
      let s := if !s.upd.coreFault && stable s then healthPass s else s
      ok c (actResult 0 s) s) s) s)

/-- FALLBACK (R530, R535). -/
def execFallback (c : Hdr) (res : BitVec 24) (s : State) : Answer :=
  .next (holderCommand c 0x0705 4 (res == 0) true true (fun s =>
    holderNeed c (flag s (dirK (runSlot s)) DirRec.TRIAL && (slotIn s fsPrevious).isSome && stable s) stState (actResult 0 s) (fun s =>
      fallBack (ok c (toBytes 1 0 ++ toBytes 1 acFalling ++ toBytes 2 0) s)) s) s)

/-- Time left of the fuse write in progress, in µs (R73). -/
def fuseLeft (s : State) : Option Nat :=
  s.cmd.fuse.map fun f => (f.from_ + 50 * ms - s.clock) / 1000

/-- RAISE_SECVER (R530): a fuse write (R73); nothing is written where SECVER_MIN is already as high. -/
def execRaiseSecver (c : Hdr) (res : BitVec 24) (s : State) : Answer :=
  .next (holderCommand c 0x0705 4 (res == 0) true true (fun s =>
    match fuseLeft s with
    | some t => busyFor c t s
    | none =>
      let v := match bundleIn s (runSlot s) with
        | some b => b.secver
        | none => 0
      holderNeed c (!flag s (dirK (runSlot s)) DirRec.TRIAL && stable s) stState (actResult 0 s) (fun s =>
        if v ≤ rd s upS UpdStatus.SECVER_MIN then ok c (actResult 0 s) s
        else
          defer c 0x01 { s with cmd := { s.cmd with fuse := some { hdr := some c, slots := [], secver := some v, from_ := s.clock } } }) s) s)

/-! ## The boot loader (R524, R534) -/

/-- The loader chooses a slot and starts it; it falls back from one that must not be started, and waits where a directory write is due
and power is not stable (R527, R534, R550). -/
def loader : Nat → State → State
  | 0, s => s
  | fuel + 1, s =>
    match (slotIn s fsActive).orElse fun _ => slotIn s fsPrevious with
    | none => s
    | some k =>
      let trial := flag s (dirK k) DirRec.TRIAL
      let spent := trial && decide (rd s upC UpdCtl.TRIAL_BOOTS ≤ rd s (dirK k) DirRec.TRIES)
      if s.upd.bootBad.contains k || spent then
        match (slotIn s fsPrevious).filter fun p => p != k with
        | none => s
        | some prev =>
          if !stable s then { s with upd := { s.upd with trialBoot := true } }
          else
            let s := raiseAt 0x70 1 5 upS (fallbackWrite k prev s)
            loader fuel { s with upd := { s.upd with trialBoot := false, fellBack := true } }
      else if trial && !stable s then { s with upd := { s.upd with trialBoot := true } }
      else
        let s := if trial then dirWrite (fun s => mapF s (dirK k) DirRec.TRIES (· + 1)) s else s
        let first := !s.upd.fellBack && rd s (dirK k) DirRec.STATE == fsActive
        let s := if first then s else updCount 7 s
        let ver := match bundleIn s k with
          | some b => b.fwVersion.toNat
          | none => 0
        let parts := match bundleIn s k with
          | some b => (partsOfBundle b).reverse
          | none => []
        let s := { s with upd := { s.upd with trialBoot := false, bootSlot := some k, bootAt := s.clock, actDone := parts } }
        wr (wr s upS UpdStatus.RUN_SLOT k) upS UpdStatus.RUN_VERSION ver

/-- The loader reads the directory: a copy whose CRC fails is ignored, with a message (R524). -/
def readDirectory (bad : Option Bool) (s : State) : State :=
  match bad with
  | none => s
  | some newer =>
    let s := match newer, s.upd.dirOld with
      | true, [a, b] => wrWord (wrWord s (dirK 0) a) (dirK 1) b
      | _, _ => s
    raiseAt 0x70 0 4 upS s

end Sys2Proof.Machine
end

