-- ==== Sys2Proof/Machine/Power.lean ====
section
/-! DEFINITION. The power ladder, its thermal level and stable power (R556 to R566, R574 to R576). -/
namespace Sys2Proof.Machine

/-- The objects of block PWR (R574). -/
def pwC : Key := obj .pwrCtl
/-- See `pwC`. -/
def pwS : Key := obj .pwrStatus
/-- Count on a counter of PWR (R575). -/
def pwrCount (i n : Nat) (s : State) : State := bump .pwrCtr 0 i n s

/-- The budget of a level in watts (R559). -/
def budget (level : Nat) : Nat :=
  match level with
  | 0 => 980
  | 1 => 750
  | 2 => 600
  | _ => 450
/-- The level in force. -/
def level (s : State) : Nat := rd s pwS PwrStatus.LEVEL

/-! ## The shedding items (R560) -/

/-- The step of an item; clusters EC0 to EC7 are in none. -/
def shedStep : ShedUnit → Nat
  | .cluster c => if 24 ≤ c.val then 1 else if 16 ≤ c.val then 3 else if 8 ≤ c.val then 5 else 0
  | .link _ => 2
  | .port _ => 4

/-- The items of a step, in order. -/
def itemsOfStep (n : Nat) : List ShedUnit :=
  match n with
  | 1 => ((List.range' 24 8).reverse.map fun c => .cluster (Fin.ofNat 32 c))
  | 2 => ((List.range 64).reverse.map fun k => .link (Fin.ofNat 64 k))
  | 3 => ((List.range' 16 8).reverse.map fun c => .cluster (Fin.ofNat 32 c))
  | 4 => ((List.range 48).reverse.map fun p => .port (Fin.ofNat 48 p))
  | 5 => ((List.range' 8 8).reverse.map fun c => .cluster (Fin.ofNat 32 c))
  | _ => []

/-- Whether an item is never shed: marked to be kept, or a port of a running pair (R560, R575). -/
def keptItem (s : State) : ShedUnit → Bool
  | .cluster c => decide (c.val < 8)
  | .link k => (rd s pwC PwrCtl.KEEP_LINKS).testBit k.val
  | .port p => (rd s pwC PwrCtl.KEEP_PORTS).testBit p.val || protPort s p.val

/-- Whether an item is in service or in use. A cluster that is out of dispatch for a reload counts, unless it is to be parked anyway: it
is parked when its reload ends (R114). -/
def itemUsed (s : State) : ShedUnit → Bool
  | .cluster c => inService s c.val || (outForReload s c.val && !wantsPark s c.val)
  | .link k => linkState s k.val != lsUnused && flag s (flC k.val) FlCtl.ADMIN_UP
  | .port p => adminUp s p.val && portMode s p.val != 0

/-- The items of some steps that may still be shed, in order. -/
def itemsLeft (s : State) (steps : List Nat) : List ShedUnit :=
  (steps.flatMap itemsOfStep).filter fun u => !powerShed s u && !keptItem s u && itemUsed s u

/-- Show what is shed in the status object. -/
def showShed (s : State) : State :=
  let all := s.pwr.shed ++ s.pwr.unstarted
  let ports := maskOf (all.filterMap fun u => match u with
    | .port p => some p.val
    | _ => none)
  let links := maskOf (all.filterMap fun u => match u with
    | .link k => some k.val
    | _ => none)
  let s := wr (wr s pwS PwrStatus.SHED_PORTS ports) pwS PwrStatus.SHED_LINKS links
  wr s pwS PwrStatus.STEPS ((all.map shedStep).foldl max 0)

/-- Power down an item: a cluster parks, a link sends idle and reads DOWN, a port goes down (R560). -/
def powerDown (u : ShedUnit) (s : State) : State :=
  match u with
  | .cluster c => shedCluster c.val true s
  | .link k => if linkState s k.val = lsUnused then s else moveLink k.val lsDown 0 s
  | .port p =>
    let s := { s with line := { s.line with cond := s.line.cond.filter fun q => q != p.val } }
    let s := wr s (lpS p.val) LpStatus.LANE_LOCK 0
    if linkOf s p.val = lkUp then goDown p.val lkDown s
    else if linkOf s p.val = lkHolding then setLink p.val lkDown s else s

/-- Power up an item: a link comes up under R347, a port under R187 (R561). -/
def powerUp (u : ShedUnit) (s : State) : State :=
  match u with
  | .cluster c => shedCluster c.val false s
  | .link _ => s
  | .port p => condChanged p.val s

/-- Shed an item. -/
def shedOne (u : ShedUnit) (s : State) : State :=
  let s := powerDown u { s with pwr := { s.pwr with shed := u :: s.pwr.shed, shedAt := some s.clock } }
  pwrCount 1 1 (showShed s)

/-! ## The level in force (R559, R563, R564) -/

/-- The steps of the start set of a level (R563). -/
def startSteps (level : Nat) : List Nat :=
  match level with
  | 0 => []
  | 1 => [1]
  | 2 => [1, 2, 3]
  | _ => [1, 2, 3, 4, 5]

/-- The thermal level: one worse than VIN_LEVEL while THERMAL reads 1, to at most L3 (R564). -/
def thermalLevel (s : State) : Nat :=
  if flag s pwS PwrStatus.THERMAL then min 3 (rd s pwS PwrStatus.VIN_LEVEL + 1) else 0

/-- Items not started start once LEVEL no longer includes them (R563). -/
def startItems (s : State) : State :=
  let go := s.pwr.unstarted.filter fun u => !(startSteps (level s)).contains (shedStep u)
  let s := { s with pwr := { s.pwr with unstarted := s.pwr.unstarted.filter fun u => !go.contains u } }
  forAll go powerUp (showShed s)

/-- LEVEL follows VIN_LEVEL, FORCE_LEVEL and the thermal level; every change raises an event. -/
def levelChanged (s : State) : State :=
  let l := max (rd s pwS PwrStatus.VIN_LEVEL) (max (rd s pwC PwrCtl.FORCE_LEVEL) (thermalLevel s))
  if l = level s then s else startItems (stateEvent pwS (pwrCount 0 1 (wr s pwS PwrStatus.LEVEL l)))

/-- VIN_LEVEL_CHANGE (R559). -/
def execVinLevelChange (level : BitVec 2) (s : State) : Answer :=
  .next (levelChanged (wr s pwS PwrStatus.VIN_LEVEL level.toNat))

/-- STABLE_CHANGE (R566). -/
def execStableChange (stable : Bool) (s : State) : Answer :=
  .next (wr s pwS PwrStatus.STABLE (if stable then 1 else 0))

/-! ## A main reset (R543, R544, R550, R562, R564) -/

/-- The main rails shut down in order, as a main reset; where VIN stays good, one that falls during an update becomes a device reset at
once. -/
def mainDown (s : State) : State :=
  let s := { s with pwr := { s.pwr with shed := [], unstarted := [], limitAt := none, limited := false, overAt := none, unmet := false } }
  let s := timeChanged (mainReset (showShed s))
  if s.pwr.vin && s.pwr.toDevice then fullReset 3 false s else s

/-! ## Measuring and shedding (R560 to R562) -/

/-- POWER_MEASURE (R560): the averages and readings; since when the budget and the current limit are exceeded. -/
def execPowerMeasure (watts deciamps millivolts standby : Nat) (s : State) : Answer :=
  let s := wr (wr s pwS PwrStatus.PIN_W (min watts 4095)) pwS PwrStatus.IIN (min deciamps 2047)
  let s := wr (wr s pwS PwrStatus.VIN_MV (min millivolts 20000)) pwS PwrStatus.VSTBY_MV (min standby 65535)
  let above := decide (budget (level s) < watts)
  let high := decide (1100 < deciamps)
  let since (b : Bool) (t : Option Nat) : Option Nat := if b then some (t.getD s.clock) else none
  .next { s with pwr := { s.pwr with overAt := since above s.pwr.overAt, unmet := above && s.pwr.unmet,
                                     limitAt := since high s.pwr.limitAt, limited := high && s.pwr.limited } }

/-- Whether the item shed last has been applied: its cluster no longer drains or loads. -/
def lastApplied (s : State) : Bool :=
  match s.pwr.shed with
  | .cluster c :: _ => clState s c.val != csDraining && clState s c.val != csLoading
  | _ => true

/-- SHED_ITEM (R560): the average exceeds the budget, and the next item is taken. -/
def execShedItem (s : State) : Answer :=
  .next (if s.pwr.overAt.isNone || s.pwr.unmet || !lastApplied s then s
    else match itemsLeft s [1, 2, 3, 4, 5] with
      | u :: _ => shedOne u (match s.pwr.shedAt with
        | some t => due (t + 50000) s
        | none => s)
      | [] => s)

/-- BUDGET_UNMET (R561). -/
def execBudgetUnmet (s : State) : Answer :=
  .next (if s.pwr.overAt.isNone || s.pwr.unmet || !(itemsLeft s [1, 2, 3, 4, 5]).isEmpty then s
    else
      let s := due (max (s.pwr.overAt.getD 0) (s.pwr.shedAt.getD 0) + 10 * ms) s
      raiseAt 0x74 0 2 pwS { s with pwr := { s.pwr with unmet := true } })

/-- Whether a moment lies at least d ns back, or has not been. -/
def longAgo (s : State) (t : Option Nat) (d : Nat) : Bool :=
  match t with
  | some t => !within s t d
  | none => true

/-- RESTORE_ITEM (R561): `watts` is the 1 s average of input power. -/
def execRestoreItem (watts : Nat) (s : State) : Answer :=
  .next (match s.pwr.shed with
    | [] => s
    | u :: rest =>
      if decide (100 * watts < 85 * budget (level s)) && longAgo s s.pwr.shedAt (10 * sec) && longAgo s s.pwr.restAt sec &&
          !(startSteps (level s)).contains (shedStep u) then
        powerUp u (showShed { s with pwr := { s.pwr with shed := rest, restAt := some s.clock } })
      else s)

/-- CURRENT_LIMIT (R562): every remaining item of steps 1 to 3 at once. -/
def execCurrentLimit (s : State) : Answer :=
  .next (if s.pwr.limitAt.isNone || s.pwr.limited then s
    else
      let s := due (s.pwr.limitAt.getD 0 + 20000) s
      let s := { s with pwr := { s.pwr with limited := true } }
      raiseAt 0x74 0 3 pwS (pwrCount 2 1 (forAll (itemsLeft s [1, 2, 3]) shedOne s)))

/-- CURRENT_LIMIT_SHUTDOWN (R562). -/
def execCurrentLimitShutdown (s : State) : Answer :=
  .next (if s.pwr.limited && s.pwr.limitAt.isSome then mainDown (due (s.pwr.limitAt.getD 0 + 20000 + ms) s) else s)

/-! ## Temperature (R564) -/

/-- THERMAL_READ (R564): the highest die temperature; the thermal level, and the trip. -/
def execThermalRead (fd qd : Nat) (s : State) : Answer :=
  let t := max fd qd
  let s := wr s pwS PwrStatus.TJ_MAX (min t 255)
  let hot := if 98 ≤ t then some (s.pwr.hotAt.getD s.clock) else none
  let cool := if t < 93 then some (s.pwr.coolAt.getD s.clock) else none
  let s := { s with pwr := { s.pwr with hotAt := hot, coolAt := cool } }
  let old (x : Option Nat) (d : Nat) : Bool := match x with
    | some a => !within s a d
    | none => false
  let s :=
    if !flag s pwS PwrStatus.THERMAL && old hot (10 * ms) then
      raiseAt 0x74 1 4 pwS (levelChanged (pwrCount 3 1 (wr s pwS PwrStatus.THERMAL 1)))
    else if flag s pwS PwrStatus.THERMAL && old cool sec then levelChanged (wr s pwS PwrStatus.THERMAL 0)
    else s
  .next (if 110 ≤ t then mainDown (raiseAt 0x74 1 5 pwS s) else s)

end Sys2Proof.Machine
end

