-- ==== Sys2Proof/Machine/HostWrite.lean ====
section
/-! DEFINITION. What a write of an object does, when it is refused, and OBJ_READ, OBJ_WRITE and OBJ_MODIFY with the writes that the
opcode table names one by one (R9 to R13, R57, R67 to R73, and the object tables of every chapter). -/
namespace Sys2Proof.Machine

/-! ## Reading an object (R10, R68, R69) -/

/-- A descriptor's object (R273). -/
def descWord (s : State) (d : Nat) : Nat :=
  match s.buf.pkts.find? fun e => e.2.desc == d with
  | none => 0
  | some (n, p) =>
    let one (b : Bool) : Nat := if b then 1 else 0
    let time := p.arrival / 65536 / 10 ^ 9 % 2 ^ 48 * 2 ^ 48 + p.arrival / 65536 % 10 ^ 9 * 2 ^ 16 + p.arrival % 65536
    let meta_ := p.words.foldl (fun x w => x * 2 ^ 64 + w.toNat) 0
    let x := putF (putF (putF 0 PktDesc.METADATA meta_) PktDesc.ARRIVAL time) PktDesc.LENGTH (if isArriving s n then 0 else p.len)
    let x := putF (putF (putF x PktDesc.TC p.tc) PktDesc.POOL p.pool) PktDesc.NODE p.node
    let x := putF (putF (putF x PktDesc.PORT p.port) PktDesc.LEASES p.leases) PktDesc.FREE_PENDING (one p.freePending)
    let x := putF (putF (putF x PktDesc.BAD (one p.bad)) PktDesc.OWNER p.owner) PktDesc.IN_USE 1
    putF (putF (putF x PktDesc.HEAD (p.billets.headD 0)) PktDesc.TAIL (p.billets.getLastD 0)) PktDesc.MARK (p.mark % 256)

/-- A bucket's object with its levels as they stand (R339). -/
def bucketWord (s : State) (k : Key) : Nat :=
  let b := credited s k
  putF (putF (rdWord s k) Meter.TC_LEVEL (levelBytes b.tc)) Meter.TP_LEVEL (levelBytes b.tp)

/-- A queue state object with its live depth and average (R337). -/
def queueWord (s : State) (k : Key) (q : Nat) : Nat :=
  let x := getQ s q
  putF (putF (rdWord s k) VqState.DEPTH (depth x)) VqState.AVG (x.avg / 256)

/-- A group of EXM as the epoch in force holds it (R153, R579). -/
def groupWord (s : State) (g : Nat) : Nat :=
  match tabGet? (tableIn (epochHead s) 3) g with
  | some l => putF (putF (putF 0 EcmpGroup.VALID 1) EcmpGroup.N l.length) EcmpGroup.FIRST (runOf s (g, l))
  | none => 0

/-- A member slot: the member of the group whose run holds it (R153, R579). -/
def memberWord (s : State) (i : Nat) : Nat :=
  ((memberRuns s).findSome? fun (g, first) =>
    if first ≤ i then (g.2.drop (i - first)).head? else none).getD 0

/-- The 64 B of a leaf of a table with b address bits, most significant byte first (R124). -/
def leafBytes (b : Nat) (l : Leaf) : Bytes :=
  let base := baseLen l.len l.entries
  let entry (e : Nat × Nat) : Bytes :=
    let n := prefixLen e.1 - base
    toBytes 2 (prefixTop b e.1 (prefixLen e.1) % 2 ^ n * 2 ^ (16 - n)) ++ toBytes 1 n ++ [0] ++ toBytes 4 e.2 ++ [0, 0]
  let head := toBytes 1 l.entries.length ++ toBytes 1 base ++ [0, 0]
  head ++ l.entries.flatMap entry ++ List.replicate (60 - 10 * l.entries.length) 0

/-- A leaf line: the leaf that lies in it (R124, R153); the manual does not say what a line that holds none reads. -/
def leafWord (s : State) (j : Nat) : Nat :=
  match (placing s).find? fun x => x.2 == j with
  | some (l, _) => ofBytes (leafBytes (addrBits s l.tid) l)
  | none => Config.spareLeaf j (s.tbl.epochs.map Epoch.number) % 2 ^ 512

/-- The entry of a table of EXM. -/
def entryWord1 (s : State) (tid i : Nat) : Nat :=
  match tabGet? (tableIn (epochHead s) tid) i with
  | some (v :: _) => v
  | _ => 0

/-- Set a one-bit field where a condition holds. -/
def setIf (x : Nat) (f : Fld) (b : Bool) : Nat := putF x f (if b then 1 else 0)

/-- The value that a read of an object returns, but for the fields that the device measures. A microword or nanoword at or above the
counts of the running image, and every one of a cluster that runs none, reads 0: the manual does not say whether older words stay in the
stores (the model's choice, log entry 76). -/
def viewWord (s : State) (k : Key) : Nat :=
  let x := rdWord s k
  let i := k.idx
  match k.ty with
  | .clStatus =>
    let x := putF x ClStatus.THREADS_BUSY (busyThreads s i)
    let x := putF x ClStatus.IN_SERVICE ((List.range 32).filter (inService s)).length
    let x := putF x ClStatus.RELOADS_PENDING ((List.range 32).filter (reloadPending s)).length
    let x := putF (putF x ClStatus.UTIL (utilOf s i)) ClStatus.DEVICE_LOAD (deviceLoad s)
    setIf x ClStatus.QUEUED (reloadQueued s i)
  | .clCtl => setIf x ClCtl.PATCH_GO (getCl s i).patch.isSome
  | .threadCtx => contextOf s i
  | .imgSlot => setIf (setIf x ImgSlot.LOCKED (slotLocked s i)) ImgSlot.VERIFY (s.eng.verifying.contains i)
  | .microView => let cl := i / 16384; let y := getCl s cl; if i % 16384 < mwCount y.image then microAt y (bankNow s cl) (i % 16384) else 0
  | .nanoView => let cl := i / 4096; let y := getCl s cl; if i % 4096 < nwCount y.image then nanoAt y (bankNow s cl) (i % 4096) else 0
  | .lpmStatus =>
    let x := putF (putF x LpmStatus.EPOCH (epochHead s).number) LpmStatus.USED (usedPrefixes s)
    putF (putF x LpmStatus.PINNED (pinnedLeaves s)) LpmStatus.HIT_PM (hitPm s)
  | .crownWord => Config.crownContent i (s.tbl.epochs.map Epoch.number) % 2 ^ 128
  | .leafLine => leafWord s i
  | .ptDesc => putF (putF x PtDesc.COUNT (tableIn (epochHead s) i).length) PtDesc.PENDING (pendingCount s i)
  | .exmDesc => putF x ExmDesc.COUNT (tableIn (epochHead s) i).length
  | .nhEntry => entryWord1 s 2 i
  | .labelEntry => entryWord1 s 4 i
  | .ecmpGroup => groupWord s i
  | .ecmpMember => memberWord s i
  | .patCtl => setIf x PatCtl.SWAP (s.pat.verifying || s.pat.swapAt.isSome)
  | .patStatus => putF x PatStatus.SWEEP_AGE (match s.pat.sweptAt with
      | some t => min 0xFFFE ((s.clock - t) / ms)
      | none => 0xFFFF)
  | .ruleSet => match activeBank s with
    | some b => setIf (setEntry s b i) RuleSet.DAMAGED (s.pat.damaged.contains (b, i))
    | none => 0
  | .ruleEntry => match activeBank s with
    | some b => if i < patRules s b then ruleAt s b i else 0
    | none => 0
  | .lpStatus => putF (putF x LpStatus.FLAPS (min (flapsOf s i).length 255)) LpStatus.FEC_SYM (fecSym s i)
  | .modCtl => setIf x ModCtl.GO (flag s k ModCtl.BUSY)
  | .tfuCtl => setIf x TfuCtl.SWAP (swapState s != swIdle)
  | .frCtl | .frStatus => if isFramed s i then x else 0
  | .tfuCtr => if isFramed s (i / 13) then x else 0
  | .lpCtr => if isFramed s (i / 18) && (i % 18 == 12 || i % 18 == 13) then 0 else x
  | .tti => if isFramed s (i / 8) then x else 0
  | .msStatus => putF (putF x MsStatus.TX_LOAD (pipeLoad s s.msec.txLog)) MsStatus.RX_LOAD (pipeLoad s s.msec.rxLog)
  | .peatStatus => putF (putF x PeatStatus.WR_LOAD (peatLoad s s.buf.wrAt)) PeatStatus.RD_LOAD (peatLoad s s.buf.rdAt)
  | .pktDesc => descWord s i
  | .vqState => queueWord s k (if i < Config.voqs then i else mqOf (i - Config.voqs))
  | .eqState => queueWord s k (egressNo i)
  | .gateCtl => setIf x GateCtl.GO (getGate s i).checking.isSome
  | .meter | .shPort | .shGrp | .shTen | .shSub | .shQueue => bucketWord s k
  | .fabStatus => fabStatus s
  | .hbCtl => putF x HbCtl.RETRAIN (rd s (hbS i) HbStatus.RETRAINING)
  | .hbStatus => putF x HbStatus.SCRUB_AGE (scrubAge s i)
  | .hbRaw => ofBytes (memLoad (getStack s (i / 100663296)).mem (256 * (i % 100663296)) 256)
  | .tmStatus => putF x TmStatus.HO_ELAPSED (hoElapsed s)
  | .ptStatus => if silent s i then x else putF x PtStatus.PORT_STATE (portState s i)
  | .prStatus => putF x PrStatus.PROT_QUEUES (protQueues s)
  | .fltStatus => setIf x FltStatus.HBM_OK (hbmOk s)
  | .grStatus => putF x GrStatus.OLDEST_S (oldestS s)
  | .ringSlot => ringWord s i
  | .cntStatus => putF x CntStatus.VALUES (collected s).length
  | .updCtl => setIf x UpdCtl.SAVE s.upd.save.isSome
  | .updStatus => putF (putF x UpdStatus.LEASE_LEFT (leaseLeft s)) UpdStatus.HEALTH_LEFT (healthLeft s)
  | .reaction => if faultListed (blockOf k) (outerOf k) (innerOf k) then putF x Reaction.COUNT (countedIn s k) else 0
  | .flStatus => putF x FlStatus.FLAPS (min (recent s (getFl s i).falls (10 * sec)).length 1023)
  | _ => x

/-- The fields of an object that the device measures, whose values the manual leaves to it, each with the number of its values. -/
def measured (ty : ObjTy) : List (Fld × Nat) :=
  match ty with
  | .tmStatus => [(TmStatus.FREQ_OFF, 2 ^ 32)]
  | _ => []

/-- Read an object: measured fields are free, and RC fields clear (R10). -/
def readObj (k : Key) (s : State) : Nat × State :=
  let x := viewWord s k
  let (x, s) := (measured k.ty).foldl (fun (x, s) (f, n) =>
    (putF x f (Config.openObject (keyNo k) s.free % n), { s with free := s.free + 1 })) (x, s)
  let rc := (fieldsOf k.ty).filter fun d => d.acc == .rc
  (x, rc.foldl (fun s d => wr s k d.f 0) s)

/-- Reply to a write that has taken effect: an OBJ_MODIFY returns what the object then reads (R70). -/
def replyWrite (c : Hdr) (k : Key) (s : State) : State := replyWith c k (viewWord s k) s

/-! ## Access and ranges (R11 to R13) -/

/-- Whether an object has no writable field (R11): spill profile 0 is read-only (R303), and so are the TTIs accepted (R230). -/
def readOnly (k : Key) : Bool :=
  (fieldsOf k.ty).all (fun d => d.acc == .ro || d.acc == .rc) || (k.ty == .spillProf && k.idx == 0) ||
    (k.ty == .tti && decide (6 ≤ k.idx % 8))

/-- The bits of a value that no field of its object holds (R12). -/
def reservedBits (ty : ObjTy) (x : Nat) : Nat := (fieldsOf ty).foldl (fun y d => putF y d.f 0) x

/-- Whether the reserved bits are zero and every written field holds a listed value (R12, R13). -/
def fieldsOk (ty : ObjTy) (x : Nat) : Bool :=
  reservedBits ty x == 0 &&
    (fieldsOf ty).all fun d => !(d.acc == .rw || d.acc == .wo) || decide (d.min ≤ getF x d.f ∧ getF x d.f ≤ d.max)

/-- Whether two one-bit fields are not both set. -/
def notBoth (x : Nat) (f g : Fld) : Bool := getF x f == 0 || getF x g == 0

/-- Whether the bounds of R292 on a spill profile hold. -/
def spillOk (x : Nat) : Bool :=
  let r := getF x SpillProf.RETURN_AT
  let h := getF x SpillProf.HEAD_KEEP
  let o := getF x SpillProf.SPILL_ON
  decide (0 < r ∧ r ≤ h ∧ h < o ∧ o ≤ 262144 ∧ 80 ≤ h)

/-- The ranges of an object that join fields, another object or its place (R74, R118, R178, R201 to R203, R219, R228, R279, R292, R337 to
R339, R345, R364, R365, R412, R421, R422, R471, R479, R485, R501, R503). -/
def rangeOk (s : State) (k : Key) (x : Nat) : Bool :=
  let i := k.idx
  match k.ty with
  | .mgmtPort => getF x MgmtPort.VLAN_EN == 0 || (getF x MgmtPort.VID != 0 && getF x MgmtPort.VID != 0xFFF)
  | .imgSlot => notBoth x ImgSlot.VERIFY ImgSlot.ERASE
  | .lmacGlobal => !(getF x LmacGlobal.SYS_ID).testBit 40
  | .lpCtl =>
    let m := getF x LpCtl.MODE
    !(wide m && i % 2 == 1) && decide (getF x LpCtl.MOD_LANE + modeLanes m ≤ 8)
  | .laneCtl => tapsOk (getF x LaneCtl.TX_PRE) (getF x LaneCtl.TX_MAIN) (getF x LaneCtl.TX_POST)
  | .modCtl => decide (getF x ModCtl.OFFSET + getF x ModCtl.LEN ≤ 256)
  | .protGrp => getF x ProtGrp.WORK != getF x ProtGrp.PROT
  | .pageEnt => getF x PageEnt.TYPE == 1 || (getF x PageEnt.SRC_PORT == 0 && getF x PageEnt.SRC_TS == 0 && getF x PageEnt.TRIB == 0)
  | .poolCtl => decide (getF x PoolCtl.RESERVED ≤ getF x PoolCtl.LIMIT)
  | .spillProf => spillOk x
  | .voqGlobal => (List.range 7).all fun n => bitsAt x (64 + 8 * n) 8 != 0
  | .admProf =>
    let ok (en lo hi : Fld) : Bool := getF x en == 0 || decide (getF x lo < getF x hi)
    ok AdmProf.DP0_EN AdmProf.DP0_MIN AdmProf.DP0_MAX && ok AdmProf.DP1_EN AdmProf.DP1_MIN AdmProf.DP1_MAX &&
      ok AdmProf.DP2_EN AdmProf.DP2_MIN AdmProf.DP2_MAX
  | .pfcThr => (List.range 8).all fun n => decide (bitsAt x (448 - 64 * n + 16) 24 < bitsAt x (448 - 64 * n + 40) 24)
  | .classMap => (List.range 8).all fun n => decide (getF x (classBase n) + 2 ^ getF x (classLog2 n) ≤ 262144)
  | .grpCfg => decide (getF x GrpCfg.PARENT < 48)
  | .tenCfg => decide (getF x TenCfg.PARENT < 2048)
  | .subCfg => decide (getF x SubCfg.PARENT < 16384)
  | .meter => decide (getF x Meter.CIR ≤ getF x Meter.PIR)
  | .shPort | .shGrp | .shTen | .shSub | .shQueue =>
    !(getF x Meter.EN == 1 && getF x Meter.COLOR_AWARE == 1) || decide (getF x Meter.CIR ≤ getF x Meter.PIR)
  | .fabSet => settingsOk x
  | .flCtl => tapsOk (getF x FlCtl.TX_PRE) (getF x FlCtl.TX_MAIN) (getF x FlCtl.TX_POST)
  | .hbReq => rd s k HbReq.PRESENT == 1
  | .tmCtl => tmCtlOk x
  | .ptCtl => ptCtlOk s x
  | .prCtl => decide (getF x PrCtl.METER_BASE + getF x PrCtl.METER_COUNT ≤ 1048576)
  | .fltCtl => notBoth x FltCtl.SAFE_EXIT FltCtl.SAFE_ENTER
  | .perfSel => selectorOk (blockOf k) x && collectOk s i x
  | .colEnt => colOk s i x
  | .reaction => faultListed (blockOf k) (outerOf k) (innerOf k)
  | _ => true

/-! ## States that refuse a write -/

/-- The sum of RESERVED, with one pool's value replaced (R279). -/
def reserves (s : State) (pool res : Nat) : Nat :=
  ((List.range 16).map fun q => if q = pool then res else rd s (obj .poolCtl q) PoolCtl.RESERVED).sum

/-- Whether a class of a port's map spreads over more than one queue, or is to (R308, R309). -/
def spreads (s : State) (p n : Nat) : Bool :=
  getF (rdWord s (obj .classMap p)) (classLog2 n) != 0 ||
    (match tabGet? s.que.classNew (8 * p + n) with
      | some v => v % 16 != 0
      | none => false)

/-- Whether a write of PARENT is refused: the node is active, or a pair in mirror mode would protect too many queues (R321, R459). -/
def parentRefused (s : State) (k : Key) (x : Nat) : Bool :=
  getF x GrpCfg.PARENT != rd s k GrpCfg.PARENT &&
    (flag s k GrpCfg.ACTIVE ||
      (pairOn s && rd s prC PrCtl.MODE == 0 &&
        decide (4096 < protQueues (wr s k GrpCfg.PARENT (getF x GrpCfg.PARENT)))))

/-- Why a write is refused in the present state: its status, and the hint of BUSY. A write that sets LOAD_GO and PATCH_GO both is refused:
the manual gives the two no order (the model's choice, log entry 79). -/
def stateFault (s : State) (k : Key) (x : Nat) : Option (Nat × Nat) :=
  let i := k.idx
  let state (bad : Bool) : Option (Nat × Nat) := if bad then some (stState, 0) else none
  match k.ty with
  | .clCtl =>
    if getF x ClCtl.LOAD_GO = 1 ∧ !loadOk s i (getF x ClCtl.SRC_SLOT) (getF x ClCtl.PROTECT) then some (stState, 0)
    else if getF x ClCtl.PATCH_GO = 1 then
      if !patchAllowed s i || getF x ClCtl.LOAD_GO == 1 then some (stState, 0)
      else (patchBusy s i).map fun h => (stBusy, h)
    else none
  | .imgSlot => state (getF x ImgSlot.ERASE == 1 && slotLocked s i)
  | .imgData => state (slotLocked s (i / slotParts))
  | .ptDesc => state (!descWriteOk s i x)
  | .patWin => state (!windowOk s (i / patParts))
  | .patCtl => state ((getF x PatCtl.SWAP == 1 && !swapOk s) || (getF x PatCtl.ERASE == 1 && !patEraseOk s))
  | .lpCtl => state (lpCtlRefused s i x)
  | .modCtl =>
    if getF x ModCtl.GO = 1 ∧ flag s k ModCtl.BUSY then
      some (stBusy, 50000)
    else state (modRefused s i x)
  | .aggCtl => state (aggTaken s i (getF x AggCtl.MEMBERS))
  | .bfdSess => state (bfdRefused s i x)
  | .tfuCtl => state ((getF x TfuCtl.SWAP == 1 || getF x TfuCtl.COPY == 1) && swapState s != swIdle)
  | .frCtl => state (!isFramed s i)
  | .tti => state (!isFramed s (i / 8))
  | .protGrp => state (protRefused s i x)
  | .pageEnt => state (i / 7680 == activePage s)
  | .msPort =>
    state ((flag s k MsPort.MKA_EN && getF x MsPort.ENC_AN != rd s k MsPort.ENC_AN) ||
      (getF x MsPort.MKA_EN == 1 && !flag s k MsPort.MKA_EN && !mkaFree s i))
  | .bufCtl =>
    state ((s.que.queues.any fun q => q.2.spilled) || decide (524288 < getF x BufCtl.STAGE_SIZE + reserves s 16 0))
  | .poolCtl =>
    state (decide (524288 < rd s (obj .bufCtl) BufCtl.STAGE_SIZE + reserves s i (getF x PoolCtl.RESERVED)))
  | .voqGlobal => state ((List.range 8).any fun n => (getF x VoqGlobal.LOSSLESS).testBit n && ports.any fun p => spreads s p n)
  | .classMap => state ((List.range 8).any fun n => lossless s n && getF x (classLog2 n) != 0)
  | .grpCfg | .tenCfg | .subCfg | .eqCfg => state (parentRefused s k x)
  | .gateCtl => state ((isFramed s i && (getF x GateCtl.GO == 1 || getF x GateCtl.EN == 1)) || (getF x GateCtl.GO == 1 && gateBusy s i))
  | .gateList => state (flag s (gateKey (i / 8)) GateCtl.IN_FORCE && rd s (gateKey (i / 8)) GateCtl.OPER == i / 4 % 2)
  | .hbCtl => state (getF x HbCtl.RETRAIN != 0 && !hbmReady s i)
  | .tmCtl => state (tmCtlRefused s x)
  | .ptCtl => state (ptCtlRefused s i x)
  | .prCtl => state (prCtlRefused s x)
  | .fltCtl => state (getF x FltCtl.SAFE_EXIT == 1 && !exitAllowed s)
  | .updCtl => state (getF x UpdCtl.SAVE == 1 && saveRefused s)
  | _ => none

/-! ## What a write does -/

/-- The cluster control object has been written (R107, R109, R114). -/
def clWritten (cl old x : Nat) (s : State) : State :=
  let s := if getF x ClCtl.LOAD_GO = 1 then loadGo cl s else s
  let s := if getF x ClCtl.PATCH_GO = 1 then patchGo cl s else s
  if getF x ClCtl.ENABLE = getF old ClCtl.ENABLE then s
  else if getF x ClCtl.ENABLE = 0 then parkCluster cl s else returnCluster cl s

/-- A bucket's object is written: its levels come up to date under the old rates (R318, R319). -/
def bucketWritten (k : Key) (x : Nat) (s : State) : State :=
  let s := storeObj k x (touchBucket k s)
  if getF x Meter.CLEAR = 1 then clearBucket k s else s

/-- An accepted write of an object takes effect. -/
def applyWrite (k : Key) (x : Nat) (s : State) : State :=
  let i := k.idx
  let old := rdWord s k
  let set := storeObj k x s
  match k.ty with
  | .clCtl => clWritten i old x set
  | .imgSlot => if getF x ImgSlot.ERASE = 1 then slotErase i set else if getF x ImgSlot.VERIFY = 1 then slotVerify i set else set
  | .imgData => slotWritten (i / slotParts) set
  | .patWin => windowWritten i set
  | .patCtl =>
    let t := if getF x PatCtl.SWAP = 1 then swapGo set else set
    if getF x PatCtl.ERASE = 1 then patEraseGo t else t
  | .lpCtl => lpCtlWritten i old set
  | .modCtl => if getF x ModCtl.GO = 1 then moduleGo i set else set
  | .aggCtl => aggWritten i set
  | .bfdSess => bfdWritten i old set
  | .tfuCtl =>
    let t := if getF x TfuCtl.COPY = 1 then copyPage set else set
    if getF x TfuCtl.SWAP = 1 then swapPages t else t
  | .frCtl => frCtlWritten i set
  | .tti => if i % 8 == 0 || i % 8 == 2 || i % 8 == 4 then takeActions set else set
  | .protGrp => protWritten i old set
  | .pageEnt => entryWritten i set
  | .msPort =>
    if flag set k MsPort.MKA_EN && getF old MsPort.MKA_EN == 0 then mkaStart i set
    else if !flag set k MsPort.MKA_EN && getF old MsPort.MKA_EN == 1 then mkaStop i set else set
  | .classMap => forAll (List.range 8) (fun n s => writeClass i n (getF x (classBase n)) (getF x (classLog2 n)) s) s
  | .meter | .shPort | .shGrp | .shTen | .shSub | .shQueue => bucketWritten k x s
  | .fabSet => if getF x FabSet.RESTART = 1 then startFab set else set
  | .flCtl => flCtlWritten i old set
  | .memMask => { set with fab := { set.fab with badGroups := set.fab.badGroups.filter fun g => g != i / 2 } }
  | .lpMask => { set with fab := { set.fab with badGroups := set.fab.badGroups.filter fun g => g != i } }
  | .hbCtl => forAll ((List.range 8).filter fun c => (getF x HbCtl.RETRAIN).testBit c) (queueRetrain i) set
  | .fqCtl =>
    let on := getF x FqCtl.OUT_10M_EN
    timeChanged (if getF old FqCtl.OUT_10M_EN = on then set else emit set (.tenMHz (on == 1)))
  | .ptCtl => timeChanged (corrWritten i old set)
  | .tmCtl | .flTime => timeChanged set
  | .prCtl => prCtlWritten old set
  | .fltCtl => if getF x FltCtl.SAFE_EXIT = 1 then leaveSafe set else if getF x FltCtl.SAFE_ENTER = 1 then askSafe set else set
  | .updCtl => if getF x UpdCtl.SAVE = 1 then saveGo set else set
  | .pwrCtl => levelChanged set
  | _ => set

/-! ## Operator keys (R72, R73) -/

/-- What stands against a change of operator key slots, judged against the slots before the write, and the count that would stay
PROGRAMMED against the slots that the whole write would leave. -/
def keyFault (s : State) (n : Nat) (l : List (Key × Nat)) : Option Key :=
  let after (k : Nat) : Nat :=
    match l.find? fun e => e.1.idx == k with
    | some e => getF e.2 OpKey.STATE
    | none => rd s (obj .opKey k) OpKey.STATE
  let left := (List.range 4).any fun k => after k == 1
  (l.find? fun (k, x) =>
    let st := rd s k OpKey.STATE
    let st' := getF x OpKey.STATE
    let same := getF x OpKey.DIGEST == rd s k OpKey.DIGEST
    if st = st' then !same
    else if st = 0 ∧ st' = 1 then getF x OpKey.DIGEST == 0 || !(holds s n accProvision || holds s n accConfig)
    else !(st == 1 && st' == 2 && same && holds s n accConfig && left)).map Prod.fst

/-- A write of operator key slots: a fuse write, whose completion sends the reply (R73); one that changes nothing writes no fuse. -/
def writeKeys (c : Hdr) (l : List (Key × Nat)) (s : State) : State :=
  let changes := l.filter fun e => e.2 != rdWord s e.1
  let first := match l with
    | e :: _ => addrOf e.1
    | [] => 0
  if changes.isEmpty then match l with
    | e :: _ => replyWrite c e.1 s
    | [] => s
  else
    match fuseLeft s with
    | some t => busyFor c t s
    | none =>
      match keyFault s c.sid.val l with
      | some k => refuse c stState (addrOf k) s
      | none =>
        need c (stable s) stState first (fun s =>
          defer c 0x01 { s with cmd := { s.cmd with
            fuse := some { hdr := some c, slots := changes.map fun e => (e.1.idx, e.2), secver := none, from_ := s.clock } } }) s

/-- FUSE_WRITE_COMPLETE (R73, R530): the fuses hold the new value; image slots verified under a revoked key become BAD; then the reply is
sent, and the sessions opened under a revoked slot close. -/
def execFuseWriteComplete (s : State) : Answer :=
  .next (match s.cmd.fuse with
    | none => s
    | some f =>
      let s := { s with cmd := { s.cmd with fuse := none } }
      let s := { s with fuses := { s.fuses with opKeys := f.slots.foldl (fun t e => tabPut t e.1 e.2) s.fuses.opKeys } }
      let gone := (f.slots.filter fun e => getF e.2 OpKey.STATE == 2).map Prod.fst
      let s := forAll gone revokeImages s
      let s := match f.secver with
        | some v => wr { s with fuses := { s.fuses with secver := v } } upS UpdStatus.SECVER_MIN v
        | none => s
      match f.hdr with
      | none => s
      | some c =>
        match waitingOf s c with
        | none => forAll ((openSessions s).filter fun m => gone.contains (rd s (sessKey m) SessStatus.SLOT)) closeSess s
        | some w =>
          let result := match f.slots, f.secver with
            | _, some _ => actResult 0 s
            | e :: _, none => if w.op = 0x0203 then toBytes 64 (viewWord s (obj .opKey e.1)) else []
            | [], none => []
          finish c stOk 0 0 result (if gone.isEmpty then .nothing else .closeSlots gone) s)

/-! ## The object commands (R68 to R70) -/

/-- The objects that a run of bytes covers whole, from the first byte of one on, within one block (R68). -/
def coveredFrom : Nat → ObjAddr → Nat → Option (List Key)
  | 0, _, _ => none
  | fuel + 1, a, n =>
    match findObj a with
    | none => none
    | some k =>
      let z := sizeOf k
      if n < z then none
      else if n = z then some [k]
      else (coveredFrom fuel (a + BitVec.ofNat 48 z) (n - z)).map fun l => k :: l

/-- The objects that an address and a length name. -/
def covered (a : ObjAddr) (n : Nat) : Option (List Key) :=
  if n = 0 ∨ 65536 < n then none
  else
    match coveredFrom (n / 4 + 1) a n with
    | some l => if l.all fun k => blockOf k == a.toNat / 2 ^ 40 then some l else none
    | none => none

/-- The first object whose write fails R11, R12 or R13 (R69). -/
def formFault (s : State) (l : List (Key × Nat)) : Option (Nat × Key) :=
  l.findSome? fun (k, x) =>
    if readOnly k then some (stAccess, k)
    else if !fieldsOk k.ty x || !rangeOk s k x then some (stRange, k)
    else none

/-- The first object whose write the state refuses, each judged with the earlier objects of the write stored. -/
def firstState : List (Key × Nat) → State → Option (Nat × Nat × Key)
  | [], _ => none
  | (k, x) :: rest, s =>
    match stateFault s k x with
    | some (st, h) => some (st, h, k)
    | none => firstState rest (if k.ty = .classMap then s else storeObj k x s)

/-- A write that passes the checks up to the target block: all of its objects are written, or none (R69). A refused GO sets BAD (R328);
an accepted one is answered after its check. -/
def writeObjects (c : Hdr) (l : List (Key × Nat)) (s : State) : State :=
  match formFault s l with
  | some (st, k) => refuse c st (addrOf k) s
  | none =>
    if l.any fun e => e.1.ty == .opKey then writeKeys c l s
    else
      match firstState l s with
      | some (st, h, k) =>
        let s := if k.ty = .gateCtl ∧ l.any (fun e => e.1 == k && getF e.2 GateCtl.GO == 1) then wr s k GateCtl.BAD 1 else s
        if st = stBusy then busyFor c h s else refuse c st (addrOf k) s
      | none =>
        match l with
        | [] => s
        | (k, x) :: rest =>
          if k.ty = .gateCtl ∧ getF x GateCtl.GO = 1 then gateGo c k.idx x s
          else
            let go := fun (e : Key × Nat) s => applyWrite e.1 e.2 s
            replyWrite c k (forAll ((k, x) :: rest) go s)

/-- The access type that an OBJ_WRITE or OBJ_MODIFY needs (R42): KEYS for the key objects of MSEC; PROVISION serves for the operator key
slots only. -/
def writeAccess (s : State) (n op : Nat) (l : Option (List Key)) : Nat :=
  match l with
  | some ks =>
    if ks.any fun k => k.ty == .saSlot || k.ty == .cakSlot then accKeys
    else if op = 0x0202 ∧ ks.all (fun k => k.ty == .opKey) ∧ !holds s n accConfig then accProvision else accConfig
  | none => accConfig

/-- The values that the data of a write gives its objects. -/
def splitData : List Key → Bytes → List (Key × Nat)
  | [], _ => []
  | k :: ks, b => (k, ofBytes (b.take (sizeOf k))) :: splitData ks (b.drop (sizeOf k))

/-- OBJ_WRITE of data at an address. -/
def writeAt (c : Hdr) (addr : ObjAddr) (res : BitVec 16) (n : Nat) (data : Bytes) (s : State) : State :=
  let l := covered addr n
  checked c 0x0202 (writeAccess s c.sid.val 0x0202 l) (fun p => p == 12 + n && data.length == n) (res == 0) (addr.toNat / 2 ^ 40) addr (fun s =>
    match l with
    | none => refuse c stRange addr s
    | some ks => writeObjects c (splitData ks data) s) s

/-- A write of one object whose new value is made from its present one, as an OBJ_WRITE or an OBJ_MODIFY (R70). -/
def hostWrite (c : Hdr) (k : Key) (f : Nat → Nat) (s : State) : State :=
  match waitingOf s c with
  | none => s
  | some w =>
    let op := if w.op = 0x0203 then 0x0203 else 0x0202
    let plen := if op = 0x0203 then 12 + 2 * sizeOf k else 12 + sizeOf k
    checked c op (writeAccess s c.sid.val op (some [k])) (fun p => p == plen) true (blockOf k) (addrOf k) (fun s =>
      if op = 0x0203 ∧ 64 < sizeOf k then refuse c stRange (addrOf k) s
      else if !exists? k then refuse c stRange (addrOf k) s
      else writeObjects c [(k, f (rdWord s k))] s) s

/-! ## The object commands with their operands (R68 to R70) -/

/-- OBJ_READ (R68, R69): `bad` is the address of an object that meets an uncorrectable error. -/
def execObjRead (c : Hdr) (addr : ObjAddr) (res : BitVec 16) (len : BitVec 32) (bad : Option ObjAddr) (s : State) : Answer :=
  .next (checked c 0x0201 accRead (fun n => n == 12) (res == 0) (addr.toNat / 2 ^ 40) addr (fun s =>
    match covered addr len.toNat with
    | none => refuse c stRange addr s
    | some ks =>
      match bad.filter fun a => ks.any fun k => addrOf k == a with
      | some a => refuse c stIntegrity a s
      | none =>
        let (b, s) := ks.foldl (fun (b, s) k =>
          let (x, s) := readObj k s
          (b ++ toBytes (sizeOf k) x, s)) (([] : Bytes), s)
        ok c b s) s)

/-- OBJ_WRITE (R69). -/
def execObjWrite (c : Hdr) (addr : ObjAddr) (res : BitVec 16) (len : BitVec 32) (data : Bytes) (s : State) : Answer :=
  .next (writeAt c addr res len.toNat data s)

/-- The value an OBJ_MODIFY gives an object, none for an OP that R70 does not list. -/
def modified (op x mask value : Nat) : Option Nat :=
  match op with
  | 1 => some (x ||| mask)
  | 2 => some (x - (x &&& mask))
  | 3 => some (x - (x &&& mask) + (value &&& mask))
  | _ => none

/-- OBJ_MODIFY (R70): SC fields that the mask leaves alone are written 0. -/
def execObjModify (c : Hdr) (addr : ObjAddr) (op res : BitVec 8) (len : BitVec 32) (mask value : Nat) (s : State) : Answer :=
  let n := len.toNat
  let acc := writeAccess s c.sid.val 0x0203 ((findObj addr).map fun k => [k])
  .next (checked c 0x0203 acc (fun p => decide (4 ≤ n ∧ n ≤ 64) && n % 4 == 0 && p == 12 + 2 * n) (res == 0) (addr.toNat / 2 ^ 40) addr
    (fun s =>
      match findObj addr with
      | none => refuse c stRange addr s
      | some k =>
        if sizeOf k ≠ n then refuse c stRange addr s
        else match modified op.toNat (rdWord s k) (mask % 2 ^ (8 * n)) (value % 2 ^ (8 * n)) with
          | none => refuse c stRange addr s
          | some x => writeObjects c [(k, x)] s) s)

/-! ## The writes that have a row of their own -/

/-- OPERATOR_KEY_PROGRAM (R72, R73). -/
def execOperatorKeyProgram (c : Hdr) (k : Fin 4) (digest : BitVec 384) (s : State) : Answer :=
  .next (hostWrite c (obj .opKey k.val) (fun _ => putF (putF 0 OpKey.DIGEST digest.toNat) OpKey.STATE 1) s)
/-- OPERATOR_KEY_REVOKE (R72, R73). -/
def execOperatorKeyRevoke (c : Hdr) (k : Fin 4) (s : State) : Answer :=
  .next (hostWrite c (obj .opKey k.val) (fun x => putF x OpKey.STATE 2) s)
/-- IMAGE_SLOT_DATA_WRITE (R101, R102). -/
def execImageSlotDataWrite (c : Hdr) (k : Fin 4) (off : Nat) (data : Bytes) (s : State) : Answer :=
  .next (writeAt c (addrOf (obj .imgData (k.val * slotParts)) + BitVec.ofNat 48 off) 0 data.length data s)
/-- IMAGE_SLOT_VERIFY (R101). -/
def execImageSlotVerify (c : Hdr) (k : Fin 4) (s : State) : Answer :=
  .next (hostWrite c (slotKey k.val) (fun x => putF x ImgSlot.VERIFY 1) s)
/-- IMAGE_SLOT_ERASE (R102). -/
def execImageSlotErase (c : Hdr) (k : Fin 4) (s : State) : Answer :=
  .next (hostWrite c (slotKey k.val) (fun x => putF x ImgSlot.ERASE 1) s)
/-- PATCH_GO (R107, R108). -/
def execPatchGo (c : Hdr) (cl : Fin 32) (s : State) : Answer :=
  .next (hostWrite c (clKey cl.val) (fun x => putF x ClCtl.PATCH_GO 1) s)
/-- LOAD_GO (R109). -/
def execLoadGo (c : Hdr) (cl : Fin 32) (s : State) : Answer :=
  .next (hostWrite c (clKey cl.val) (fun x => putF x ClCtl.LOAD_GO 1) s)
/-- CLUSTER_PARK (R114). -/
def execClusterPark (c : Hdr) (cl : Fin 32) (s : State) : Answer :=
  .next (hostWrite c (clKey cl.val) (fun x => putF x ClCtl.ENABLE 0) s)
/-- CLUSTER_RETURN (R114). -/
def execClusterReturn (c : Hdr) (cl : Fin 32) (s : State) : Answer :=
  .next (hostWrite c (clKey cl.val) (fun x => putF x ClCtl.ENABLE 1) s)
/-- TABLE_CREATE (R155). -/
def execTableCreate (c : Hdr) (tid : BitVec 16) (family : Bool) (s : State) : Answer :=
  .next (if tid.toNat < 4096 then
      hostWrite c (obj .ptDesc tid.toNat) (fun x => putF (putF x PtDesc.STATE 1) PtDesc.FAMILY (if family then 1 else 0)) s
    else writeAt c (addrOf (obj .ptDesc 0) + BitVec.ofNat 48 (8 * tid.toNat)) 0 8 (List.replicate 8 0) s)
/-- TABLE_REMOVE (R155). -/
def execTableRemove (c : Hdr) (tid : BitVec 16) (s : State) : Answer :=
  .next (if tid.toNat < 4096 then hostWrite c (obj .ptDesc tid.toNat) (fun x => putF x PtDesc.STATE 0) s
    else writeAt c (addrOf (obj .ptDesc 0) + BitVec.ofNat 48 (8 * tid.toNat)) 0 8 (List.replicate 8 0) s)
/-- PAT_WINDOW_WRITE (R159): an offset counts through both windows. -/
def execPatWindowWrite (c : Hdr) (off : Nat) (data : Bytes) (s : State) : Answer :=
  .next (writeAt c (addrOf (obj .patWin 0) + BitVec.ofNat 48 off) 0 data.length data s)
/-- PAT_SWAP (R159). -/
def execPatSwap (c : Hdr) (s : State) : Answer := .next (hostWrite c (obj .patCtl) (fun x => putF x PatCtl.SWAP 1) s)
/-- PAT_ERASE (R175). -/
def execPatErase (c : Hdr) (s : State) : Answer := .next (hostWrite c (obj .patCtl) (fun x => putF x PatCtl.ERASE 1) s)
/-- PORT_ADMIN_UP (R187). -/
def execPortAdminUp (c : Hdr) (p : Fin 48) (s : State) : Answer := .next (hostWrite c (lpK p.val) (fun x => putF x LpCtl.ADMIN_UP 1) s)
/-- PORT_ADMIN_DOWN (R190). -/
def execPortAdminDown (c : Hdr) (p : Fin 48) (s : State) : Answer := .next (hostWrite c (lpK p.val) (fun x => putF x LpCtl.ADMIN_UP 0) s)
/-- MODULE_ACCESS_GO (R194). -/
def execModuleAccessGo (c : Hdr) (b : Fin 4) (s : State) : Answer := .next (hostWrite c (obj .modCtl b.val) (fun x => putF x ModCtl.GO 1) s)
/-- PAGE_SWAP (R220). -/
def execPageSwap (c : Hdr) (s : State) : Answer := .next (hostWrite c tfuK (fun x => putF x TfuCtl.SWAP 1) s)
/-- PAGE_COPY (R222). -/
def execPageCopy (c : Hdr) (s : State) : Answer := .next (hostWrite c tfuK (fun x => putF x TfuCtl.COPY 1) s)
/-- FORCE_TO_PROTECTION (R228). -/
def execForceToProtection (c : Hdr) (g : Fin 24) (s : State) : Answer := .next (hostWrite c (grK g.val) (fun x => putF x ProtGrp.CMD 1) s)
/-- LOCKOUT_OF_PROTECTION (R228). -/
def execLockoutOfProtection (c : Hdr) (g : Fin 24) (s : State) : Answer := .next (hostWrite c (grK g.val) (fun x => putF x ProtGrp.CMD 2) s)
/-- PROTECTION_CMD_CLEAR (R228). -/
def execProtectionCmdClear (c : Hdr) (g : Fin 24) (s : State) : Answer := .next (hostWrite c (grK g.val) (fun x => putF x ProtGrp.CMD 0) s)
/-- MKA_ENABLE (R263). -/
def execMkaEnable (c : Hdr) (p : Fin 48) (s : State) : Answer := .next (hostWrite c (msK p.val) (fun x => putF x MsPort.MKA_EN 1) s)
/-- MKA_DISABLE (R263). -/
def execMkaDisable (c : Hdr) (p : Fin 48) (s : State) : Answer := .next (hostWrite c (msK p.val) (fun x => putF x MsPort.MKA_EN 0) s)
/-- The addressed object as OBJ_WRITE or OBJ_MODIFY finds it when it is no object that the command's row names: none, RANGE (R9). -/
def noObject (c : Hdr) (addr : ObjAddr) (s : State) : State :=
  match waitingOf s c with
  | none => s
  | some w =>
    checked c (if w.op = 0x0203 then 0x0203 else 0x0202) accConfig (fun _ => true) true (addr.toNat / 2 ^ 40) addr
      (refuse c stRange addr) s

/-- BUCKET_CLEAR (R318): of the meter or shaper that an address names; any other address names nothing to clear. -/
def execBucketClear (c : Hdr) (addr : ObjAddr) (s : State) : Answer :=
  .next (match findObj addr with
    | some k =>
      if k.ty ∈ [.meter, .shPort, .shGrp, .shTen, .shSub, .shQueue] then hostWrite c k (fun x => putF x Meter.CLEAR 1) s
      else noObject c addr s
    | none => noObject c addr s)
/-- GATE_GO (R328). -/
def execGateGo (c : Hdr) (p : Fin 48) (s : State) : Answer := .next (hostWrite c (gateKey p.val) (fun x => putF x GateCtl.GO 1) s)
/-- GATE_DISABLE (R328). -/
def execGateDisable (c : Hdr) (p : Fin 48) (s : State) : Answer := .next (hostWrite c (gateKey p.val) (fun x => putF x GateCtl.EN 0) s)
/-- FABRIC_RESTART (R342). -/
def execFabricRestart (c : Hdr) (s : State) : Answer := .next (hostWrite c (obj .fabSet) (fun x => putF x FabSet.RESTART 1) s)
/-- ADMIN_QUAR_SET (R356). -/
def execAdminQuarSet (c : Hdr) (k : Fin 64) (s : State) : Answer := .next (hostWrite c (flC k.val) (fun x => putF x FlCtl.ADMIN_QUAR 1) s)
/-- ADMIN_QUAR_CLEAR (R357). -/
def execAdminQuarClear (c : Hdr) (k : Fin 64) (s : State) : Answer := .next (hostWrite c (flC k.val) (fun x => putF x FlCtl.ADMIN_QUAR 0) s)
/-- FABRIC_ADMIN_DOWN (R365). -/
def execFabricAdminDown (c : Hdr) (k : Fin 64) (s : State) : Answer := .next (hostWrite c (flC k.val) (fun x => putF x FlCtl.ADMIN_UP 0) s)
/-- FABRIC_ADMIN_UP (R365). -/
def execFabricAdminUp (c : Hdr) (k : Fin 64) (s : State) : Answer := .next (hostWrite c (flC k.val) (fun x => putF x FlCtl.ADMIN_UP 1) s)
/-- RETRAIN (R409, R411). -/
def execRetrain (c : Hdr) (st : Fin 6) (ch : Fin 8) (s : State) : Answer :=
  .next (hostWrite c (hbC st.val) (fun x => putF x HbCtl.RETRAIN (2 ^ ch.val)) s)
/-- PAIR_ENABLE (R455, R471). -/
def execPairEnable (c : Hdr) (s : State) : Answer := .next (hostWrite c prC (fun x => putF x PrCtl.PAIR_EN 1) s)
/-- PAIR_DISABLE (R455, R471). -/
def execPairDisable (c : Hdr) (s : State) : Answer := .next (hostWrite c prC (fun x => putF x PrCtl.PAIR_EN 0) s)
/-- SAFE_ENTER (R482, R497). -/
def execSafeEnter (c : Hdr) (s : State) : Answer := .next (hostWrite c ftC (fun x => putF x FltCtl.SAFE_ENTER 1) s)
/-- SAFE_EXIT (R485). -/
def execSafeExit (c : Hdr) (s : State) : Answer := .next (hostWrite c ftC (fun x => putF x FltCtl.SAFE_EXIT 1) s)
/-- SAVE (R526). -/
def execSave (c : Hdr) (s : State) : Answer := .next (hostWrite c upC (fun x => putF x UpdCtl.SAVE 1) s)
/-- BFD_SESSION_ADMIN (R205). -/
def execBfdSessionAdmin (c : Hdr) (i : Fin 16384) (admin : BitVec 2) (s : State) : Answer :=
  .next (hostWrite c (bfK i.val) (fun x => putF x BfdSess.ADMIN admin.toNat) s)
/-- AGGREGATOR_ENABLE (R199, R204). -/
def execAggregatorEnable (c : Hdr) (a : Fin 24) (en : Bool) (members : BitVec 48) (s : State) : Answer :=
  .next (hostWrite c (agK a.val) (fun x => putF (putF x AggCtl.EN (if en then 1 else 0)) AggCtl.MEMBERS members.toNat) s)
/-- FORCE_LEVEL_WRITE (R559, R575). -/
def execForceLevelWrite (c : Hdr) (level : BitVec 2) (s : State) : Answer :=
  .next (hostWrite c pwC (fun x => putF x PwrCtl.FORCE_LEVEL level.toNat) s)

/-! ## Inject (R65, R66, R275) -/

/-- Whether an inject's metadata and length pass their checks (R65). -/
def injectOk (m : InjectMeta) : Bool :=
  (m.mode == 1 || m.mode == 2) && decide (m.port.toNat < 48 ∧ m.tc.toNat < 8) && m.resOk && decide (64 ≤ m.len ∧ m.len ≤ 10240)

/-- A checked inject is stored and queued: in MODE 0x01 on the port's egress queue, in MODE 0x02 for an ingress pass as if received; one
that finds no room is dropped. -/
def placeInject (q : MgmtPort) (m : InjectMeta) (s : State) : State :=
  let egress := m.mode == 1
  let p := m.port.toNat
  let pool := if egress then egressPool s p m.tc.toNat else arrivalPool s p m.content
  if 4096 ≤ s.eng.injectQ.length then injectDrop q s
  else
    match drawBillets pool (billetsOf m.len) s with
    | none => injectDrop q (shortfall pool s)
    | some s =>
      let x := { Packet.empty with len := m.len, arrival := s.ct, arrPort := if egress then 0xFF else p, tc := m.tc.toNat, pool := pool,
                                   inject := true, content := m.content }
      let (i, s) := storeArrival x s
      let s := sendData 0 (.body i) s
      if egress then egressEnqueue p m.tc.toNat s.fab.plan.addr (rebuiltRef i x m.tc.toNat 0) s
      else { s with eng := { s.eng with injectQ := s.eng.injectQ ++ [i] } }

/-- INJECT (R19, R22, R65, R66, R484): the oldest whole inject of a session is checked and placed, or dropped and counted; it waits while
the bridge does not take it. -/
def execInject (sid : Fin 64) (m : InjectMeta) (s : State) : Answer :=
  let x := getSess s sid.val
  .next (match x.injReady with
    | [] => s
    | q :: rest =>
      if chanState s 0 ≠ 1 then s else
      let s := setSess s sid.val { x with injReady := rest }
      if inSafe s || !injectOk m then injectDrop q s else placeInject q m s)

end Sys2Proof.Machine
end

