-- ==== Sys2Proof/Machine/Startup.lean ====
section
/-! DEFINITION. Power-up, the reset inputs, the start-up sequence and the RESET command (R534, R541 to R555). -/
namespace Sys2Proof.Machine

/-! ## The RESET command (R545, R554) -/

/-- Whether RESET is refused with STATE. -/
def resetRefused (s : State) : Bool :=
  s.upd.commit.isSome || s.upd.save.isSome || s.cmd.fuse.isSome || actState s == acActivating || actState s == acFalling

/-- A RESET that passes every check. -/
def resetCommand (c : Hdr) (inRange : Bool) (flags : BitVec 8) (res : BitVec 16) (f : State → State) (s : State) : State :=
  let a := sessAddr c.sid.val
  checked c 0x0F01 accControl (fun n => n == 4) (res == 0 && decide (flags.toNat < 2)) 0x01 a (fun s =>
    need c inRange stRange a (need c (!resetRefused s) stState a f) s) s

/-- RESET_DEVICE: the reply is sent, and then the device resets. -/
def execResetDevice (c : Hdr) (other : Unlisted) (flags : BitVec 8) (res : BitVec 16) (s : State) : Answer :=
  .next (resetCommand c other.isNone flags res (fun s => finish c stOk 0 0 [] (.resetDevice (flags == 1)) s) s)

/-- The outstanding commands to blocks that a datapath reset clears, a table change waiting for its turn among them. -/
def datapathWaiting (s : State) : List Hdr :=
  (s.cmd.waiting.filter fun w =>
    match w.phase with
    | .started b => datapathBlocks.contains b
    | .turn => true
    | _ => false).map Waiting.hdr

/-- RESET_DATAPATH (R545): outstanding commands to its blocks are answered NOT_READY; the reply waits for their restart. -/
def execResetDatapath (c : Hdr) (flags : BitVec 8) (res : BitVec 16) (s : State) : Answer :=
  .next (resetCommand c true flags res (fun s =>
    let s := forAll (datapathWaiting s) (fun h s => finish h stNotReady 0 0 [] .nothing s) s
    let s := clearBlocks datapathBlocks (noteReset 5 s)
    timeChanged (defer c 0x01 (beginSequence datapathSteps (flags == 1) (some c) s))) s)

/-! ## Reset inputs and power inputs (R541 to R544, R547, R550) -/

/-- Every step of a start-up. -/
def allSteps : List Nat := [1, 2, 3, 4, 5, 6, 7, 8, 9, 10, 11]

/-- The straps are sampled (R542). -/
def sampleStraps (strap : BitVec 2) (s : State) : State := wr s rstKey RstStatus.BOOT_MODE strap.toNat

/-- An instruction of the test access port (R572): the table names no command for it, and what one does beyond IEEE 1149.1 is outside the
manual. -/
inductive TapInstr where
  | bypass | idcode | other
  deriving DecidableEq, Repr

/-- Whether the TAP accepts an instruction: every one while nRESET is low or BOOT_MODE is 10, else BYPASS and IDCODE only (R572). -/
def tapAccepts (s : State) (i : TapInstr) : Bool :=
  i != .other || s.pwr.nreset || rd s rstKey RstStatus.BOOT_MODE == 2

/-- Whether debug access to the management cores exists (R542, R572). -/
def debugAccess (s : State) : Bool := rd s rstKey RstStatus.BOOT_MODE == 2

/-- PIN_RESET (R541): nRESET has been low for 10 µs; every block is held in reset. -/
def execPinReset (s : State) : Answer := .next (fullReset 2 false { s with pwr := { s.pwr with nreset := true } })

/-- RESET_RELEASE (R541, R542): nRESET goes high; start-up runs from step 2 with VIN good. -/
def execResetRelease (strap : BitVec 2) (s : State) : Answer :=
  .next (if !s.pwr.nreset then s
    else
      let s := sampleStraps strap { s with pwr := { s.pwr with nreset := false } }
      beginSequence (bootSteps s (if s.pwr.vin then allSteps.tail else allSteps)) false none s)

/-- VIN_GOOD (R543, R544, R550): a power-on reset when VSTBY is not good either; else start-up goes on, as a device reset where a main
reset fell during an update. -/
def execVinGood (s : State) : Answer :=
  .next (if s.pwr.vin then s
    else
      let s := { s with pwr := { s.pwr with vin := true } }
      if !s.pwr.vstby then powerOnReset s else if s.pwr.toDevice then fullReset 3 false s else s)

/-- VIN_LOSS (R543, R550): a main reset while VSTBY stays good; a loss of both leaves nothing. -/
def execVinLoss (s : State) : Answer :=
  .next (if !s.pwr.vin then s
    else
      let s := { s with pwr := { s.pwr with vin := false } }
      if s.pwr.vstby then mainDown s else powerOnReset s)

/-- VSTBY_GOOD (R542, R543, R547): the straps are sampled; a power-on reset when VIN is not good either. -/
def execVstbyGood (strap : BitVec 2) (s : State) : Answer :=
  .next (if s.pwr.vstby then s
    else
      let s := sampleStraps strap { s with pwr := { s.pwr with vstby := true } }
      if !s.pwr.vin then powerOnReset s
      else if s.pwr.steps.contains 1 && !s.pwr.done.contains 1 then
        beginSequence (bootSteps s (if s.pwr.steps.contains 2 then allSteps else s.pwr.steps)) s.pwr.skipSet none s
      else s)

/-- VSTBY_LOSS (R550): alone it resets nothing. -/
def execVstbyLoss (s : State) : Answer :=
  .next (if !s.pwr.vstby then s
    else
      let s := { s with pwr := { s.pwr with vstby := false } }
      if s.pwr.vin then s else powerOnReset s)

/-! ## Settings (R536, R542, R546) -/

/-- Whether a key is a setting of a block that has not started since it was cleared. -/
def freshSetting (s : State) (k : Key) : Bool := isSetting k.ty && s.pwr.fresh.contains (blockOf k)

/-- Run an operation on every register of a list that is a fresh setting. -/
def onSettings (l : List Nat) (f : Key → State → State) (s : State) : State :=
  forAll l (fun n s =>
    match keyOfNo n with
    | some k => if freshSetting s k then f k s else s
    | none => s) s

/-- The settings of the blocks to start are at their reset values. -/
def settingsReset (s : State) : State :=
  onSettings (s.regs.map Prod.fst) (fun k s => wrWord s k (takeSettings k.ty (rdWord s k) (resetVal s.fuses k))) s

/-- The newer half of the running slot's settings area, where the running firmware reads its format. -/
def readableHalf (s : State) : Option Settings :=
  match (flashSlot s (runSlot s)).halves with
  | h :: _ => match bundleIn s (runSlot s) with
    | some b => if b.setMin ≤ h.format ∧ h.format ≤ b.setMax then some h else none
    | none => none
  | [] => none

/-- Step 8: settings are loaded, or defaulted with an event unless NO_SETTINGS asked for it. -/
def loadSettings (s : State) : State :=
  let s := settingsReset s
  let defaulted (s : State) : State := wr s upS UpdStatus.SETTINGS_DEFAULTED 1
  if rd s rstKey RstStatus.BOOT_MODE = 1 then stateEvent upS (defaulted s)
  else if s.pwr.skipSet then defaulted s
  else match readableHalf s with
    | none => stateEvent upS (defaulted s)
    | some h =>
      onSettings (h.regs.map Prod.fst) (fun k s => wrWord s k (takeSettings k.ty (rdWord s k) (tabGet h.regs (keyNo k) 0))) s

/-! ## Starting the blocks (R549, R551, R553, R563) -/

/-- A setting takes effect as its block starts: what its write does, from its reset value. -/
def startSetting (k : Key) (s : State) : State :=
  let x := rdWord s k
  let s := wrWord s k (takeSettings k.ty x (resetVal s.fuses k))
  match k.ty with
  | .meter | .shPort | .shGrp | .shTen | .shSub | .shQueue => storeObj k x s
  | _ => applyWrite k x s

/-- The items of the start set of LEVEL that are not started (R563). -/
def startSet (s : State) : List ShedUnit :=
  ((startSteps (level s)).flatMap itemsOfStep).filter fun u =>
    !keptItem s u &&
      (match u with
        | .cluster _ => true
        | _ => itemUsed s u)

/-- What the power ladder holds back holds for blocks that start. -/
def holdBack (s : State) : State :=
  let s := if s.pwr.steps.contains 1 then { s with pwr := { s.pwr with unstarted := startSet s } } else s
  let s := forAll (s.pwr.shed ++ s.pwr.unstarted) (fun u s =>
    match u with
    | .cluster c => shedCluster c.val true s
    | _ => s) s
  showShed s

/-- The parts that a start-up loads (R551). -/
def bootParts (s : State) : List ActPart :=
  match bundleIn s (runSlot s) with
  | some b => (if b.image.isSome then [.image, .reloads] else []) ++ if b.rules.isSome then [.rules] else []
  | none => []

/-- Step 9: the blocks start with their settings, and the bundle's images begin to load. -/
def startBlocks (s : State) : State :=
  let s := if s.pwr.fresh.contains 0x50 then startFab s else s
  let s := holdBack s
  let s := onSettings (s.regs.map Prod.fst) startSetting s
  timeChanged { s with pwr := { s.pwr with fresh := [] } }

/-! ## The start-up sequence (R547, R548) -/

/-- The steps that a step follows. -/
def stepsBefore (n : Nat) : List Nat :=
  match n with
  | 2 => [1]
  | 3 => [1]
  | 4 => [3]
  | 5 => [3]
  | 6 => [2]
  | 7 => [4, 5]
  | 8 => [6, 7]
  | 9 => [8]
  | 10 => [9]
  | 11 => [1, 2, 3, 4, 5, 6, 7, 8, 9, 10]
  | _ => []

/-- Whether the sequence runs a step now: its power is there, the steps it follows are done, and it is not. -/
def stepReady (s : State) (n : Nat) : Bool :=
  let p := s.pwr
  p.steps.contains n && !p.done.contains n && !p.nreset &&
    (if n = 1 then p.vin && p.vstby else if n = 2 ∨ n = 6 then p.vin || p.vstby else p.vin) &&
    (stepsBefore n).all fun m => p.done.contains m || !p.steps.contains m

/-- A step has completed. -/
def stepDone (n : Nat) (s : State) : State :=
  let done := s.pwr.done ++ [n]
  wr { s with pwr := { s.pwr with done := done } } rstKey RstStatus.STEP (stepOf s.pwr.steps done)

/-- Step 6 has completed once the loader has started an image. -/
def bootTried (s : State) : State :=
  if s.upd.bootSlot.isSome && !s.pwr.done.contains 6 then stepDone 6 s else s

/-- Step 6 as the loader first runs it: what it reads of the flash (R524, R534). -/
def firstBoot (r : BootRead) (s : State) : State :=
  if s.upd.trialBoot then s
  else
    let bad := (if r.bad0 then [0] else []) ++ if r.bad1 then [1] else []
    let s := readDirectory r.dirBad { s with upd := { s.upd with bootSlot := none, bootBad := s.upd.bootBad ++ bad } }
    bootTried (loader 3 s)

/-- Command-ready (R486, R533, R547): EMBER starts, and the health window of a TRIAL image that has booted opens. -/
def commandReady (s : State) : State :=
  let s := wr s rstKey RstStatus.READY 1
  let s := wr s rstKey RstStatus.START_MS (min 65535 ((s.clock - s.pwr.startAt) / ms))
  let s := emberRuns s
  if s.pwr.steps.contains 6 && flag s (dirK (runSlot s)) DirRec.TRIAL then
    wr { s with upd := { s.upd with healthAt := s.clock, confirmed := false, coreFault := false } } upS UpdStatus.ACT_STATE acHealth
  else s

/-- The end of a datapath reset: READY reads 1 again, EMBER starts and the command is answered (R545, R554). -/
def datapathDone (s : State) : State :=
  if s.pwr.steps = datapathSteps then
    let h := s.pwr.hdr
    let s := emberRuns (wr { s with pwr := { s.pwr with hdr := none } } rstKey RstStatus.READY 1)
    match h with
    | some c => done c s
    | none => s
  else s

/-- The die-to-die bridge has trained (R23, R547 step 3). -/
def bridgeUp (s : State) : State := wr (wr s brgKey (chanFld 0) 1) brgKey (chanFld 1) 1

/-- STARTUP_STEP_COMPLETE (R547). -/
def execStartupStepComplete (step : Fin 12) (r : BootRead) (s : State) : Answer :=
  let n := step.val
  .next (if !stepReady s n then s
    else
      match n with
      | 1 => stepDone 1 (levelChanged (wr { s with pwr := { s.pwr with startAt := s.clock } } pwS PwrStatus.VIN_LEVEL r.level.toNat))
      | 3 => stepDone 3 (bridgeUp { s with pwr := { s.pwr with rails := true } })
      | 5 => if (List.range 6).all fun i => rd s (obj .hbStatus i) HbStatus.STATE != 0 then stepDone 5 s else s
      | 6 => firstBoot r s
      | 8 => stepDone 8 (loadSettings s)
      | 9 =>
        let s := stepDone 9 (startBlocks s)
        beginPart { s with upd := { s.upd with act := bootParts s } }
      | 10 => if s.upd.act.isEmpty then datapathDone (stepDone 10 s) else s
      | 11 => commandReady (stepDone 11 s)
      | _ => stepDone n s)

/-- TRIAL_BOOT_RETRY (R550): the loader tries again the directory write that waits for stable power. -/
def execTrialBootRetry (s : State) : Answer := .next (if s.upd.trialBoot then bootTried (loader 3 s) else s)

/-- BOOT_READY_TIMEOUT (R534): a TRIAL image has not reached command-ready 5 s after the loader started it. -/
def execBootReadyTimeout (s : State) : Answer :=
  .next (match s.upd.bootSlot with
    | none => s
    | some k =>
      if !flag s (dirK k) DirRec.TRIAL || !s.pwr.done.contains 6 || s.pwr.done.contains 11 then s
      else
        let s := due (s.upd.bootAt + 5 * sec) s
        let fresh := if s.pwr.done.contains 9 then allBlocks else s.pwr.fresh
        let done := s.pwr.done.filter fun n => decide (n ≤ 5 ∨ n = 7)
        let s := { s with pwr := { s.pwr with done := done, fresh := fresh } }
        let s := wr s rstKey RstStatus.STEP (stepOf s.pwr.steps done)
        bootTried (loader 3 { s with upd := { s.upd with act := [], bootSlot := none, bootBad := k :: s.upd.bootBad } }))

end Sys2Proof.Machine
end

