-- ==== Sys2Proof/Machine/Dispatch.lean ====
section
/-! DEFINITION. The dispatch: one arm for each command of the table, in the table's order. -/
namespace Sys2Proof.Machine

/-- The effect of a command on everything but the queue of waiting commands. -/
def exec (i : Instr) (s : State) : Host.Outcome State Fault Refusal :=
  match i with
  | .jutosFrameReceive p f => Sys2Proof.Machine.execJutosFrameReceive p f s
  | .reassemblyTimeout sid inject first => Sys2Proof.Machine.execReassemblyTimeout sid inject first s
  | .openRequest p peer seq r => Sys2Proof.Machine.execOpenRequest p peer seq r s
  | .firstCommandTimeout sid => Sys2Proof.Machine.execFirstCommandTimeout sid s
  | .idleTimeout sid => Sys2Proof.Machine.execIdleTimeout sid s
  | .commandBlockTimeout c => Sys2Proof.Machine.execCommandBlockTimeout c s
  | .sessionClose c => Sys2Proof.Machine.execSessionClose c s
  | .objRead c addr res len bad => Sys2Proof.Machine.execObjRead c addr res len bad s
  | .objWrite c addr res len data => Sys2Proof.Machine.execObjWrite c addr res len data s
  | .objModify c addr op res len mask value => Sys2Proof.Machine.execObjModify c addr op res len mask value s
  | .operatorKeyProgram c k digest => Sys2Proof.Machine.execOperatorKeyProgram c k digest s
  | .operatorKeyRevoke c k => Sys2Proof.Machine.execOperatorKeyRevoke c k s
  | .fuseWriteComplete => Sys2Proof.Machine.execFuseWriteComplete s
  | .inject sid m => Sys2Proof.Machine.execInject sid m s
  | .puntTransmit => Sys2Proof.Machine.execPuntTransmit s
  | .eventFrameTimeout sid => Sys2Proof.Machine.execEventFrameTimeout sid s
  | .flitReceive ch crcOk => Sys2Proof.Machine.execFlitReceive ch crcOk s
  | .bridgeRetrainComplete ch ok => Sys2Proof.Machine.execBridgeRetrainComplete ch ok s
  | .bridgeRetrainRetry ch => Sys2Proof.Machine.execBridgeRetrainRetry ch s
  | .dispatch src => Sys2Proof.Machine.execDispatch src s
  | .add t chk => Sys2Proof.Machine.execAdd t chk s
  | .sub t chk => Sys2Proof.Machine.execSub t chk s
  | .and t chk => Sys2Proof.Machine.execAnd t chk s
  | .or t chk => Sys2Proof.Machine.execOr t chk s
  | .xor t chk => Sys2Proof.Machine.execXor t chk s
  | .shl t chk => Sys2Proof.Machine.execShl t chk s
  | .shr t chk => Sys2Proof.Machine.execShr t chk s
  | .movB t chk => Sys2Proof.Machine.execMovB t chk s
  | .cmp t chk => Sys2Proof.Machine.execCmp t chk s
  | .min t chk => Sys2Proof.Machine.execMin t chk s
  | .max t chk => Sys2Proof.Machine.execMax t chk s
  | .hash t chk => Sys2Proof.Machine.execHash t chk s
  | .fieldExtract t chk => Sys2Proof.Machine.execFieldExtract t chk s
  | .fieldInsert t chk => Sys2Proof.Machine.execFieldInsert t chk s
  | .lookupLpm t chk => Sys2Proof.Machine.execLookupLpm t chk s
  | .lookupExm t chk => Sys2Proof.Machine.execLookupExm t chk s
  | .lookupPat t chk => Sys2Proof.Machine.execLookupPat t chk s
  | .waitLookup t chk => Sys2Proof.Machine.execWaitLookup t chk s
  | .waitFlagT t chk => Sys2Proof.Machine.execWaitFlagT t chk s
  | .waitTime t chk => Sys2Proof.Machine.execWaitTime t chk s
  | .setDestination t chk => Sys2Proof.Machine.execSetDestination t chk s
  | .setMeterIndex t chk => Sys2Proof.Machine.execSetMeterIndex t chk s
  | .drop t chk => Sys2Proof.Machine.execDrop t chk s
  | .punt t chk => Sys2Proof.Machine.execPunt t chk s
  | .mirror t chk => Sys2Proof.Machine.execMirror t chk s
  | .setEcmpHash t chk => Sys2Proof.Machine.execSetEcmpHash t chk s
  | .writeInterPass t chk => Sys2Proof.Machine.execWriteInterPass t chk s
  | .nop t chk => Sys2Proof.Machine.execNop t chk s
  | .lookupAccept t => Sys2Proof.Machine.execLookupAccept t s
  | .lookupResult t ecc => Sys2Proof.Machine.execLookupResult t ecc s
  | .passWatchdog t => Sys2Proof.Machine.execPassWatchdog t s
  | .signedSweep cl bad => Sys2Proof.Machine.execSignedSweep cl bad s
  | .imageSlotDataWrite c k off data => Sys2Proof.Machine.execImageSlotDataWrite c k off data s
  | .imageSlotVerify c k => Sys2Proof.Machine.execImageSlotVerify c k s
  | .imageVerifyComplete k => Sys2Proof.Machine.execImageVerifyComplete k s
  | .imageSlotErase c k => Sys2Proof.Machine.execImageSlotErase c k s
  | .patchGo c cl => Sys2Proof.Machine.execPatchGo c cl s
  | .patchSwitch cl => Sys2Proof.Machine.execPatchSwitch cl s
  | .loadGo c cl => Sys2Proof.Machine.execLoadGo c cl s
  | .reloadStart cl => Sys2Proof.Machine.execReloadStart cl s
  | .reloadDrain cl => Sys2Proof.Machine.execReloadDrain cl s
  | .reloadDrained cl => Sys2Proof.Machine.execReloadDrained cl s
  | .reloadLoaded cl ok => Sys2Proof.Machine.execReloadLoaded cl ok s
  | .reloadResume cl => Sys2Proof.Machine.execReloadResume cl s
  | .reloadAbandon cl => Sys2Proof.Machine.execReloadAbandon cl s
  | .clusterPark c cl => Sys2Proof.Machine.execClusterPark c cl s
  | .clusterReturn c cl => Sys2Proof.Machine.execClusterReturn c cl s
  | .tableInsert c tid keyLen entLen res key entry => Sys2Proof.Machine.execTableInsert c tid keyLen entLen res key entry s
  | .tableDelete c tid keyLen res key => Sys2Proof.Machine.execTableDelete c tid keyLen res key s
  | .tableChangeTurn => Sys2Proof.Machine.execTableChangeTurn s
  | .tableCommit c tid res => Sys2Proof.Machine.execTableCommit c tid res s
  | .commitBuildDone => Sys2Proof.Machine.execCommitBuildDone s
  | .epochSwitch => Sys2Proof.Machine.execEpochSwitch s
  | .epochRetire => Sys2Proof.Machine.execEpochRetire s
  | .tableRead c tid keyLen view res key => Sys2Proof.Machine.execTableRead c tid keyLen view res key s
  | .bulkLoad c tid keyLen entLen flags count res records => Sys2Proof.Machine.execBulkLoad c tid keyLen entLen flags count res records s
  | .tableCreate c tid family => Sys2Proof.Machine.execTableCreate c tid family s
  | .tableRemove c tid => Sys2Proof.Machine.execTableRemove c tid s
  | .leafReadIssue t => Sys2Proof.Machine.execLeafReadIssue t s
  | .leafReadComplete t ecc => Sys2Proof.Machine.execLeafReadComplete t ecc s
  | .leafReadTimeout t => Sys2Proof.Machine.execLeafReadTimeout t s
  | .entryRebuildComplete exm => Sys2Proof.Machine.execEntryRebuildComplete exm s
  | .patWindowWrite c off data => Sys2Proof.Machine.execPatWindowWrite c off data s
  | .patSwap c => Sys2Proof.Machine.execPatSwap c s
  | .patVerifyComplete => Sys2Proof.Machine.execPatVerifyComplete s
  | .patBankSwitch => Sys2Proof.Machine.execPatBankSwitch s
  | .patDrainEnd => Sys2Proof.Machine.execPatDrainEnd s
  | .patErase c => Sys2Proof.Machine.execPatErase c s
  | .billetFetchIssue t => Sys2Proof.Machine.execBilletFetchIssue t s
  | .billetFetchComplete t => Sys2Proof.Machine.execBilletFetchComplete t s
  | .fetchTimeout t => Sys2Proof.Machine.execFetchTimeout t s
  | .shadowSweep f => Sys2Proof.Machine.execShadowSweep f s
  | .frameReceive p part f => Sys2Proof.Machine.execFrameReceive p part f s
  | .pfcPauseExpire p tc => Sys2Proof.Machine.execPfcPauseExpire p tc s
  | .frameTransmit p fate => Sys2Proof.Machine.execFrameTransmit p fate s
  | .linkUp p => Sys2Proof.Machine.execLinkUp p s
  | .linkDown p => Sys2Proof.Machine.execLinkDown p s
  | .flapHoldExpire p => Sys2Proof.Machine.execFlapHoldExpire p s
  | .portAdminUp c p => Sys2Proof.Machine.execPortAdminUp c p s
  | .portAdminDown c p => Sys2Proof.Machine.execPortAdminDown c p s
  | .modulePoll ch present => Sys2Proof.Machine.execModulePoll ch present s
  | .identityReadComplete ch r => Sys2Proof.Machine.execIdentityReadComplete ch r s
  | .twbTimeout ch o => Sys2Proof.Machine.execTwbTimeout ch o s
  | .twbRecovery bus ok => Sys2Proof.Machine.execTwbRecovery bus ok s
  | .moduleAccessGo c b => Sys2Proof.Machine.execModuleAccessGo c b s
  | .moduleAccessComplete b r data => Sys2Proof.Machine.execModuleAccessComplete b r data s
  | .bfdPacketReceive p b => Sys2Proof.Machine.execBfdPacketReceive p b s
  | .bfdTransmit ii => Sys2Proof.Machine.execBfdTransmit ii s
  | .bfdDetectExpire ii => Sys2Proof.Machine.execBfdDetectExpire ii s
  | .lacpduReceive p l => Sys2Proof.Machine.execLacpduReceive p l s
  | .markerPduReceive p => Sys2Proof.Machine.execMarkerPduReceive p s
  | .lacpPeriodic p => Sys2Proof.Machine.execLacpPeriodic p s
  | .lacpTimeout p => Sys2Proof.Machine.execLacpTimeout p s
  | .otuFrameReceive p f => Sys2Proof.Machine.execOtuFrameReceive p f s
  | .gfpFrameReceive p f => Sys2Proof.Machine.execGfpFrameReceive p f s
  | .defectDeclare p d => Sys2Proof.Machine.execDefectDeclare p d s
  | .defectClear p d => Sys2Proof.Machine.execDefectClear p d s
  | .csfTransmit p => Sys2Proof.Machine.execCsfTransmit p s
  | .pageSwap c => Sys2Proof.Machine.execPageSwap c s
  | .pageCheckComplete => Sys2Proof.Machine.execPageCheckComplete s
  | .pageSwitch => Sys2Proof.Machine.execPageSwitch s
  | .pageTake p => Sys2Proof.Machine.execPageTake p s
  | .pageSwapEnd => Sys2Proof.Machine.execPageSwapEnd s
  | .pageCopy c => Sys2Proof.Machine.execPageCopy c s
  | .protectionSwitch g => Sys2Proof.Machine.execProtectionSwitch g s
  | .wtrExpire g => Sys2Proof.Machine.execWtrExpire g s
  | .forceToProtection c g => Sys2Proof.Machine.execForceToProtection c g s
  | .lockoutOfProtection c g => Sys2Proof.Machine.execLockoutOfProtection c g s
  | .keySlotWriteSa c p => Sys2Proof.Machine.execKeySlotWriteSa c p s
  | .keySlotWriteCak c p => Sys2Proof.Machine.execKeySlotWriteCak c p s
  | .keySlotErase c slot cls res => Sys2Proof.Machine.execKeySlotErase c slot cls res s
  | .slotDrainEnd slot => Sys2Proof.Machine.execSlotDrainEnd slot s
  | .drbgSeedComplete ok => Sys2Proof.Machine.execDrbgSeedComplete ok s
  | .drbgReseed ok => Sys2Proof.Machine.execDrbgReseed ok s
  | .drbgRetry ok => Sys2Proof.Machine.execDrbgRetry ok s
  | .mkpduReceive p m => Sys2Proof.Machine.execMkpduReceive p m s
  | .mkaHello p => Sys2Proof.Machine.execMkaHello p s
  | .caLost p => Sys2Proof.Machine.execCaLost p s
  | .sakRetireTimeout p => Sys2Proof.Machine.execSakRetireTimeout p s
  | .mkaEnable c p => Sys2Proof.Machine.execMkaEnable c p s
  | .mkaDisable c p => Sys2Proof.Machine.execMkaDisable c p s
  | .voqEnqueue => Sys2Proof.Machine.execVoqEnqueue s
  | .pfcRefresh p tc => Sys2Proof.Machine.execPfcRefresh p tc s
  | .egressDequeue p => Sys2Proof.Machine.execEgressDequeue p s
  | .classMapApply p tc => Sys2Proof.Machine.execClassMapApply p tc s
  | .bucketClear c addr => Sys2Proof.Machine.execBucketClear c addr s
  | .gateGo c p => Sys2Proof.Machine.execGateGo c p s
  | .gateCheckComplete p => Sys2Proof.Machine.execGateCheckComplete p s
  | .gateListStart p => Sys2Proof.Machine.execGateListStart p s
  | .gateEntryChange p => Sys2Proof.Machine.execGateEntryChange p s
  | .gateDisable c p => Sys2Proof.Machine.execGateDisable c p s
  | .queueSample => Sys2Proof.Machine.execQueueSample s
  | .pageWriteComplete q => Sys2Proof.Machine.execPageWriteComplete q s
  | .pageFlush q => Sys2Proof.Machine.execPageFlush q s
  | .pageReturnStart q => Sys2Proof.Machine.execPageReturnStart q s
  | .pageReturnComplete q r => Sys2Proof.Machine.execPageReturnComplete q r s
  | .pageReadTimeout q => Sys2Proof.Machine.execPageReadTimeout q s
  | .pageRingBuilt => Sys2Proof.Machine.execPageRingBuilt s
  | .sheepdogRoundStart => Sys2Proof.Machine.execSheepdogRoundStart s
  | .sheepdogRoundEnd tookMs => Sys2Proof.Machine.execSheepdogRoundEnd tookMs s
  | .fabricRestart c => Sys2Proof.Machine.execFabricRestart c s
  | .linkTrainingStart k => Sys2Proof.Machine.execLinkTrainingStart k s
  | .linkTrained k => Sys2Proof.Machine.execLinkTrained k s
  | .helloSend k => Sys2Proof.Machine.execHelloSend k s
  | .helloReceive k h => Sys2Proof.Machine.execHelloReceive k h s
  | .mismatchRecheck k => Sys2Proof.Machine.execMismatchRecheck k s
  | .keepaliveSend k => Sys2Proof.Machine.execKeepaliveSend k s
  | .keepaliveLoss k => Sys2Proof.Machine.execKeepaliveLoss k s
  | .congestionSample k => Sys2Proof.Machine.execCongestionSample k s
  | .linkStateRecord k r => Sys2Proof.Machine.execLinkStateRecord k r s
  | .recordRefresh => Sys2Proof.Machine.execRecordRefresh s
  | .recordExpire addr => Sys2Proof.Machine.execRecordExpire addr s
  | .routeRebuild bad => Sys2Proof.Machine.execRouteRebuild bad s
  | .fabricLinkDown k => Sys2Proof.Machine.execFabricLinkDown k s
  | .downNoticeReceive k => Sys2Proof.Machine.execDownNoticeReceive k s
  | .quarHoldExpire k => Sys2Proof.Machine.execQuarHoldExpire k s
  | .quarantineTrialEnd k clean => Sys2Proof.Machine.execQuarantineTrialEnd k clean s
  | .adminQuarSet c k => Sys2Proof.Machine.execAdminQuarSet c k s
  | .adminQuarClear c k => Sys2Proof.Machine.execAdminQuarClear c k s
  | .fabricAdminDown c k => Sys2Proof.Machine.execFabricAdminDown c k s
  | .fabricAdminUp c k => Sys2Proof.Machine.execFabricAdminUp c k s
  | .unreachFlush n => Sys2Proof.Machine.execUnreachFlush n s
  | .cellReceive k cell fault => Sys2Proof.Machine.execCellReceive k cell fault s
  | .cellForward k => Sys2Proof.Machine.execCellForward k s
  | .creditWord k credits => Sys2Proof.Machine.execCreditWord k credits s
  | .voqSend st => Sys2Proof.Machine.execVoqSend st s
  | .requestSend st => Sys2Proof.Machine.execRequestSend st s
  | .requestReceive m => Sys2Proof.Machine.execRequestReceive m s
  | .grant st => Sys2Proof.Machine.execGrant st s
  | .grantReceive m => Sys2Proof.Machine.execGrantReceive m s
  | .returnReceive m => Sys2Proof.Machine.execReturnReceive m s
  | .creditKeepExpire st => Sys2Proof.Machine.execCreditKeepExpire st s
  | .reorderTimeout st => Sys2Proof.Machine.execReorderTimeout st s
  | .multicastSend tc => Sys2Proof.Machine.execMulticastSend tc s
  | .copyTimeout tc => Sys2Proof.Machine.execCopyTimeout tc s
  | .syncSend n tc => Sys2Proof.Machine.execSyncSend n tc s
  | .syncReceive m => Sys2Proof.Machine.execSyncReceive m s
  | .hbmRequest st r => Sys2Proof.Machine.execHbmRequest st r s
  | .hbmCommandIssue st pc refreshDue => Sys2Proof.Machine.execHbmCommandIssue st pc refreshDue s
  | .hbmRequestComplete st pc ecc => Sys2Proof.Machine.execHbmRequestComplete st pc ecc s
  | .hbmRequestTimeout st pc => Sys2Proof.Machine.execHbmRequestTimeout st pc s
  | .refreshWindowEnd st => Sys2Proof.Machine.execRefreshWindowEnd st s
  | .temperatureRead st temp => Sys2Proof.Machine.execTemperatureRead st temp s
  | .readRecentre st ch => Sys2Proof.Machine.execReadRecentre st ch s
  | .retrain c st ch => Sys2Proof.Machine.execRetrain c st ch s
  | .retrainSlice st ch ok => Sys2Proof.Machine.execRetrainSlice st ch ok s
  | .retrainRetry st ch => Sys2Proof.Machine.execRetrainRetry st ch s
  | .hbmTrainingComplete st unusable repairs => Sys2Proof.Machine.execHbmTrainingComplete st unusable repairs s
  | .ptpMessageReceive p m => Sys2Proof.Machine.execPtpMessageReceive p m s
  | .syncTransmit p => Sys2Proof.Machine.execSyncTransmit p s
  | .delayReqTransmit p => Sys2Proof.Machine.execDelayReqTransmit p s
  | .announceTransmit p => Sys2Proof.Machine.execAnnounceTransmit p s
  | .announceTimeout p => Sys2Proof.Machine.execAnnounceTimeout p s
  | .pcsDelayCalibrate p => Sys2Proof.Machine.execPcsDelayCalibrate p s
  | .timeStep => Sys2Proof.Machine.execTimeStep s
  | .holdoverReady => Sys2Proof.Machine.execHoldoverReady s
  | .holdoverExpire => Sys2Proof.Machine.execHoldoverExpire s
  | .timeWordReceive k w => Sys2Proof.Machine.execTimeWordReceive k w s
  | .rootWordReceive k w => Sys2Proof.Machine.execRootWordReceive k w s
  | .rootWordExpire k => Sys2Proof.Machine.execRootWordExpire k s
  | .fabricTimeTake k => Sys2Proof.Machine.execFabricTimeTake k s
  | .referenceDrop r => Sys2Proof.Machine.execReferenceDrop r s
  | .referenceRestore r => Sys2Proof.Machine.execReferenceRestore r s
  | .esmcPduReceive p formed ql => Sys2Proof.Machine.execEsmcPduReceive p formed ql s
  | .esmcTransmit p => Sys2Proof.Machine.execEsmcTransmit p s
  | .esmcTimeout p => Sys2Proof.Machine.execEsmcTimeout p s
  | .hoscQualify ok => Sys2Proof.Machine.execHoscQualify ok s
  | .ppsEdge highNs => Sys2Proof.Machine.execPpsEdge highNs s
  | .ppsMissing => Sys2Proof.Machine.execPpsMissing s
  | .todReceive m => Sys2Proof.Machine.execTodReceive m s
  | .ppsOutput => Sys2Proof.Machine.execPpsOutput s
  | .timeControlSet c other res value => Sys2Proof.Machine.execTimeControlSet c other res value s
  | .timeControlOffset c res value => Sys2Proof.Machine.execTimeControlOffset c res value s
  | .forceHoldover c res value => Sys2Proof.Machine.execForceHoldover c res value s
  | .timeControlRelease c res value => Sys2Proof.Machine.execTimeControlRelease c res value s
  | .pairEnable c => Sys2Proof.Machine.execPairEnable c s
  | .pairWaitTimeout toggling => Sys2Proof.Machine.execPairWaitTimeout toggling s
  | .yokeBlockReceive y b => Sys2Proof.Machine.execYokeBlockReceive y b s
  | .yokeLinkDown y => Sys2Proof.Machine.execYokeLinkDown y s
  | .mirrorEpochEnd => Sys2Proof.Machine.execMirrorEpochEnd s
  | .recordBlockFlush => Sys2Proof.Machine.execRecordBlockFlush s
  | .peerEmberLoss => Sys2Proof.Machine.execPeerEmberLoss s
  | .switchoverResume => Sys2Proof.Machine.execSwitchoverResume s
  | .resyncComplete => Sys2Proof.Machine.execResyncComplete s
  | .forceSwitch c other res => Sys2Proof.Machine.execForceSwitch c other res s
  | .resync c res => Sys2Proof.Machine.execResync c res s
  | .lock c res => Sys2Proof.Machine.execLock c res s
  | .unlock c res => Sys2Proof.Machine.execUnlock c res s
  | .faultCollect => Sys2Proof.Machine.execFaultCollect s
  | .logCopy => Sys2Proof.Machine.execLogCopy s
  | .reactionWindowExpire source kind => Sys2Proof.Machine.execReactionWindowExpire source kind s
  | .safeEnter c => Sys2Proof.Machine.execSafeEnter c s
  | .shadowClose ii => Sys2Proof.Machine.execShadowClose ii s
  | .safeExit c => Sys2Proof.Machine.execSafeExit c s
  | .faultInject c source kind flags addr res => Sys2Proof.Machine.execFaultInject c source kind flags addr res s
  | .faultRead c first count res bad => Sys2Proof.Machine.execFaultRead c first count res bad s
  | .grazingRound f => Sys2Proof.Machine.execGrazingRound f s
  | .engineTestPass e ok => Sys2Proof.Machine.execEngineTestPass e ok s
  | .grazingOverdue item => Sys2Proof.Machine.execGrazingOverdue item s
  | .counterSweep => Sys2Proof.Machine.execCounterSweep s
  | .counterReadLive c other res addr res2 count => Sys2Proof.Machine.execCounterReadLive c other res addr res2 count s
  | .counterReadRing c res sweep first count bad => Sys2Proof.Machine.execCounterReadRing c res sweep first count bad s
  | .eventSubscribe c streams qsMin sweepDiv res => Sys2Proof.Machine.execEventSubscribe c streams qsMin sweepDiv res s
  | .updateLeaseAcquire c other res leaseS => Sys2Proof.Machine.execUpdateLeaseAcquire c other res leaseS s
  | .updateLeaseRenew c res leaseS => Sys2Proof.Machine.execUpdateLeaseRenew c res leaseS s
  | .updateLeaseRelease c res leaseS => Sys2Proof.Machine.execUpdateLeaseRelease c res leaseS s
  | .leaseExpire => Sys2Proof.Machine.execLeaseExpire s
  | .updateWrite c off len res data => Sys2Proof.Machine.execUpdateWrite c off len res data s
  | .updateVerify c => Sys2Proof.Machine.execUpdateVerify c s
  | .updateVerifyComplete b => Sys2Proof.Machine.execUpdateVerifyComplete b s
  | .updateCommit c res => Sys2Proof.Machine.execUpdateCommit c res s
  | .commitStepComplete ok => Sys2Proof.Machine.execCommitStepComplete ok s
  | .storeAbort => Sys2Proof.Machine.execStoreAbort s
  | .save c => Sys2Proof.Machine.execSave c s
  | .saveComplete => Sys2Proof.Machine.execSaveComplete s
  | .inService c other res bad => Sys2Proof.Machine.execInService c other res bad s
  | .activationStepComplete => Sys2Proof.Machine.execActivationStepComplete s
  | .restart c res => Sys2Proof.Machine.execRestart c res s
  | .confirm c res => Sys2Proof.Machine.execConfirm c res s
  | .fallback c res => Sys2Proof.Machine.execFallback c res s
  | .raiseSecver c res => Sys2Proof.Machine.execRaiseSecver c res s
  | .healthWindowEnd => Sys2Proof.Machine.execHealthWindowEnd s
  | .bootReadyTimeout => Sys2Proof.Machine.execBootReadyTimeout s
  | .resetDevice c other flags res => Sys2Proof.Machine.execResetDevice c other flags res s
  | .resetDatapath c flags res => Sys2Proof.Machine.execResetDatapath c flags res s
  | .pinReset => Sys2Proof.Machine.execPinReset s
  | .resetRelease strap => Sys2Proof.Machine.execResetRelease strap s
  | .vinGood => Sys2Proof.Machine.execVinGood s
  | .vinLoss => Sys2Proof.Machine.execVinLoss s
  | .vstbyGood strap => Sys2Proof.Machine.execVstbyGood strap s
  | .vstbyLoss => Sys2Proof.Machine.execVstbyLoss s
  | .startupStepComplete step r => Sys2Proof.Machine.execStartupStepComplete step r s
  | .powerMeasure watts deciamps millivolts standby => Sys2Proof.Machine.execPowerMeasure watts deciamps millivolts standby s
  | .shedItem => Sys2Proof.Machine.execShedItem s
  | .restoreItem watts => Sys2Proof.Machine.execRestoreItem watts s
  | .budgetUnmet => Sys2Proof.Machine.execBudgetUnmet s
  | .currentLimit => Sys2Proof.Machine.execCurrentLimit s
  | .currentLimitShutdown => Sys2Proof.Machine.execCurrentLimitShutdown s
  | .vinLevelChange level => Sys2Proof.Machine.execVinLevelChange level s
  | .thermalRead fd qd => Sys2Proof.Machine.execThermalRead fd qd s
  | .stableChange stable => Sys2Proof.Machine.execStableChange stable s
  | .timeConditionMet t => Sys2Proof.Machine.execTimeConditionMet t s
  | .pcsAlignmentChange p aligned localFault remoteFault lanes => Sys2Proof.Machine.execPcsAlignmentChange p aligned localFault remoteFault lanes s
  | .scrubberRead st ecc => Sys2Proof.Machine.execScrubberRead st ecc s
  | .dpllLocked => Sys2Proof.Machine.execDpllLocked s
  | .pairDisable c => Sys2Proof.Machine.execPairDisable c s
  | .protectionCmdClear c g => Sys2Proof.Machine.execProtectionCmdClear c g s
  | .bfdSessionAdmin c ii admin => Sys2Proof.Machine.execBfdSessionAdmin c ii admin s
  | .aggregatorEnable c a en members => Sys2Proof.Machine.execAggregatorEnable c a en members s
  | .forceLevelWrite c level => Sys2Proof.Machine.execForceLevelWrite c level s
  | .trialBootRetry => Sys2Proof.Machine.execTrialBootRetry s
  | .yokeEmptyBlock y => Sys2Proof.Machine.execYokeEmptyBlock y s

end Sys2Proof.Machine
end

