-- ==== Sys2Proof/Machine/Tick.lean ====
section
/-! DEFINITION. What a step does when no command waits: one tick of 1 ns. -/
namespace Sys2Proof.Machine

/-- One tick: time passes. -/
def idleTick (s : State) : State := advance 1 s

end Sys2Proof.Machine
end

