-- ==== Sys2Proof/Safety.lean ====
section
/-! DEFINITION. What the claims call a safe state and a safe step, and the words they are stated in, in the model's own terms. -/
namespace Sys2Proof

open Sys2Proof.Machine

/-- The block goes on: a step answers a next state. -/
def Safety.Goes (s : State) : Prop := ∃ t, step s = .next t

/-- The register store is in its canonical form: the key numbers rise strictly. -/
def Safety.RegsSorted (s : State) : Prop := tabSorted s.regs = true

/-- The bytes of every HBM stack are in their canonical form. -/
def Safety.MemoryOk (s : State) : Prop := ∀ e ∈ s.hbm, Memory.wf e.2.mem

/-- A command answers a next state, and that state has a property. -/
def Safety.Gives (c : Instr) (s : State) (P : State → Prop) : Prop := ∃ t, exec c s = .next t ∧ P t

/-- Every object whose type is not in a list holds what it held. -/
def Safety.RegsKept (l : List ObjTy) (s t : State) : Prop := ∀ k, k.ty ∉ l → rdWord t k = rdWord s k

/-- What counting and telling write beside the counter: performance counters, the counters of lost records and of captures, and the
NEXT_SEQ of sessions (R50, R501, R502, R508, R509). -/
def Safety.telling : List ObjTy := [.perfCnt, .lostCtr, .cntCtr, .sessStatus]

/-- What a fault message writes, with whatever reaction it takes: the objects of `telling`, reaction sets, FLT, and what the safe state,
a change of link state and a change of time's source show. -/
def Safety.raising : List ObjTy :=
  [.reaction, .fltStatus, .fltCtr, .flStatus, .flCtr, .flTime, .rtCtr, .route, .trCtr, .lpCtr, .tmStatus, .tmCtr, .prStatus, .perfCnt,
   .lostCtr, .cntCtr, .sessStatus]

/-- The object of counter j2 of object j1 of a counter type. -/
def Safety.counter (ty : ObjTy) (j1 : Nat) (j2 : Nat := 0) : Key := obj ty (j1 * (descOf ty).n2 + j2)

/-- A counter has counted n more, wrapping at 2^64 (R14). -/
def Safety.Counted (ty : ObjTy) (j1 j2 n : Nat) (s t : State) : Prop :=
  rdWord t (counter ty j1 j2) = (rdWord s (counter ty j1 j2) + n) % 2 ^ 64

/-- A command of an opcode is the one command outstanding in the device; its session holds the access type and is not closing, its
PARAM_LEN agrees with its body, its reserved field is zero and its block has started and can be reached over the bridge (R22), and its session's stream has SEQs left (R53): the
checks of R57 pass up to its parameters. -/
structure Safety.Turn (s : State) (c : Hdr) (w : Waiting) (op acc plen blk : Nat) : Prop where
  only   : s.cmd.waiting = [w]
  mine   : w.hdr = c
  queued : w.phase = .queued
  opcode : w.op = op
  length : w.plen = plen
  body   : w.body = plen + 8
  res    : w.res = 0
  going  : (getSess s c.sid.val).closing = false
  stream : rd s (sessKey c.sid.val) SessStatus.NEXT_SEQ < 2 ^ 64 - 4096
  access : holds s c.sid.val acc = true
  ready  : blockReady s blk = true
  bridge : bridgeWaits s blk = false

/-- The reply that a waiting command gets under a SEQ of its session's stream, in as many sealed frames as its body takes (R39, R40,
R55). -/
def Safety.replyOf (s : State) (w : Waiting) (q st : Nat) (addr : ObjAddr) (hint : Nat) (result : Bytes) : Out :=
  .reply w.port w.mac w.hdr.sid.val q w.op st w.hdr.seq.toNat addr hint result
    (sealsOf (keysOf s w.hdr.sid.val).cmdOut 2 w.hdr.sid.val q (24 + result.length))

/-- No command waits, and the last thing sent is the reply of this one, OK with a result. -/
def Safety.Done (t : State) (w : Waiting) (result : Bytes) : Prop :=
  t.cmd.waiting = [] ∧ ∃ q l, t.out = replyOf t w q stOk 0 0 result :: l

/-- No command waits, and the last thing sent is the reply of this one: a refusal with a status and a logged address (R61, R62). -/
def Safety.Refused (t : State) (w : Waiting) (st : Nat) (addr : ObjAddr) : Prop :=
  t.cmd.waiting = [] ∧ ∃ q l, t.out = replyOf t w q st addr 0 [] :: l

/-- Nothing has changed but objects, the records that wait in sessions, the captures of counters and what was sent, with the punts that
left before it. -/
def Safety.Told (s t : State) : Prop :=
  t = { s with regs := t.regs, cmd := { s.cmd with sess := t.cmd.sess, puntQ := t.cmd.puntQ },
               cnt := { s.cnt with samples := t.cnt.samples }, out := t.out }

/-- A command has been answered, and beside its reply nothing has changed but objects of some types and what its session shows. -/
def Safety.Answered (l : List ObjTy) (s t : State) (w : Waiting) (result : Bytes) : Prop :=
  Done t w result ∧ RegsKept (.sessStatus :: l) s t ∧
    t = { s with regs := t.regs, cmd := { s.cmd with sess := t.cmd.sess, waiting := [], puntQ := t.cmd.puntQ }, out := t.out }

/-- Object types whose write has no effect beside its fields. -/
def Safety.plain : List ObjTy :=
  [.mgmtPort, .sessSet, .patchStage, .lmacGlobal, .laneCtl, .modData, .tti, .msGlobal, .bufCtl, .arrMap, .shCtl, .poolCtl, .egMap, .spillProf,
   .qSpill, .voqGlobal, .admProf, .pfcThr, .vqCfg, .gateList, .grpCfg, .tenCfg, .subCfg, .eqCfg, .trCtl, .portGrant, .hbReq, .ptpTmpl, .grCtl,
   .mirSess, .colEnt, .perfSel, .perfCnt, .reaction]

/-- An object whose write has no effect beside its fields: one of those types, but for spill profile 0, which is read-only, and the TTIs that
are read-only (R230, R303) or whose write may change a consequent action (R225). -/
def Safety.Plain (k : Key) : Prop :=
  k.ty ∈ plain ∧ ¬ (k.ty = .spillProf ∧ k.idx = 0) ∧ ¬ (k.ty = .tti ∧ k.idx % 8 ∉ [1, 3, 5])

/-- An object holds what a write of a value leaves (R10, R11): RW and WO fields as written, read-only ones as they were. -/
def Safety.Holds (s t : State) (k : Key) (x : Nat) : Prop :=
  ∀ d ∈ fieldsOf k.ty, (d.acc = .rw ∨ d.acc = .wo → rd t k d.f = getF x d.f) ∧ (d.acc = .ro → rd t k d.f = rd s k d.f)

/-- A write of one object is the one command outstanding, and none of R11 to R13, R57 and R69 and no state stands against it. -/
structure Safety.Write (s : State) (c : Hdr) (w : Waiting) (k : Key) (x : Nat) : Prop where
  turn   : Turn s c w 0x0202 accConfig (12 + Machine.sizeOf k) (blockOf k)
  fields : fieldsOk k.ty x = true
  range  : rangeOk s k x = true
  state  : stateFault s k x = none

/-- A write that sets one field of an object, the others as they stand, is the one command outstanding, and nothing stands against it. -/
abbrev Safety.Sets (s : State) (c : Hdr) (w : Waiting) (k : Key) (f : Fld) (v : Nat) : Prop := Write s c w k (putF (rdWord s k) f v)

/-- No frame is under way on a line port: none is arriving or waits for a core, and none that has yet to arrive to its end waits for the
port's MAC or is in transmission. -/
def Safety.NoneUnderWay (s : State) (p : Nat) : Prop :=
  arrivingOf s p = [] ∧ fifoOf s p = [] ∧ tabGet? s.line.sending p = none ∧ ∀ f ∈ txOf s p, f.open_ = false

/-- A READY thread whose turn it is on its engine (R79) comes to a word that decodes, that nothing pending holds back, and after which the thread goes on at the next address. -/
structure Safety.Issues (s : State) (t : Fin 16384) (x : Thread) (m : Micro) (n : Nano) : Prop where
  thread : getThr s t.val = some x
  ready  : x.hold = .ready
  turn   : nextReady s (t.val / 16) = some t.val
  word   : wordAt s t.val x = (m, n)
  micro  : x.pc < mwCount (getCl s (t.val / 512)).image
  nano   : m.nano < nwCount (getCl s (t.val / 512)).image
  known  : n.refused = false
  free   : mustWait m n x = false

/-- A word has run: its thread is as given, its cluster has counted the dwell, and but for what counting tells nothing else has changed. -/
def Safety.Ran (s : State) (t : Fin 16384) (n : Nano) (y : Thread) (u : State) : Prop :=
  getThr u t.val = some y ∧ Counted .ecCtr (7 * (t.val / 512) + 1) 0 n.dwell s u ∧ RegsKept (.ecCtr :: telling) s u ∧
    u = { s with regs := u.regs, cmd := { s.cmd with sess := u.cmd.sess, puntQ := u.cmd.puntQ }, out := u.out,
                 cnt := { s.cnt with samples := u.cnt.samples },
                 eng := { s.eng with threads := tabPut s.eng.threads t.val y, issueLog := u.eng.issueLog,
                                     issued := tabPut s.eng.issued (t.val / 16) (t.val % 16) } }

end Sys2Proof
end

