-- ==== Sys2Proof/Certificates/Slice0/Obligations.lean ====
section
/-! DEFINITION. What is claimed of the model, for the provers: one definition for each entry of OBLIGATIONS.json. -/

open Sys2Proof Sys2Proof.Machine

/-! ## The step, the queue and the whole machine -/

/-- A step runs the command at the front of the queue, and only it, on the state with the rest of the queue. -/
def Obligations.StepRunsFrontCommand : Prop :=
  ∀ (c : Instr) (rest : List Instr) (s : State), step { s with pending := c :: rest } = exec c { s with pending := rest }

/-- With no command waiting, a step lets 1 ns pass (a choice of the model, log entry 2): the clock counts one, nothing is queued, and only the
performance counters with what they tell, common time and the table builder's backlog move. -/
def Obligations.IdleStepLetsTimePass : Prop :=
  ∀ s : State, s.pending = [] → ∃ t, step s = .next t ∧ t.clock = s.clock + 1 ∧ t.pending = [] ∧
    t = { s with regs := t.regs, clock := t.clock, ct := t.ct, cmd := { s.cmd with sess := t.cmd.sess, puntQ := t.cmd.puntQ },
                 cnt := { s.cnt with samples := t.cnt.samples }, tbl := { s.tbl with unbuilt := t.tbl.unbuilt },
                 time := { s.time with slew := t.time.slew }, out := t.out } ∧
    Safety.RegsKept Safety.telling s t

/-- No command faults and none is refused: each answers a next state, in every state.
The model's readings in it: log entry 1. -/
def Obligations.NoCommandStops : Prop := ∀ (c : Instr) (s : State), Safety.Goes { s with pending := c :: s.pending }

/-- No command touches the queue of waiting commands.
The model's readings in it: log entry 70. -/
def Obligations.CommandsLeaveQueue : Prop := ∀ (c : Instr) (s t : State), exec c s = .next t → t.pending = s.pending

/-- The fuses change only when a fuse write completes (R73). -/
def Obligations.FusesChangeOnlyByFuseWrite : Prop :=
  ∀ (c : Instr) (s t : State), c ≠ .fuseWriteComplete → exec c s = .next t → t.fuses = s.fuses

/-- The clock never goes back, and nothing that was sent is taken back.
The model's readings in it: log entries 3 and 11. -/
def Obligations.TimeAndOutputOnlyGrow : Prop :=
  ∀ s t : State, step s = .next t → s.clock ≤ t.clock ∧ ∃ l, t.out = l ++ s.out

/-- Every step keeps the register store and the bytes of every HBM stack in their canonical forms.
The model's readings in it: log entry 54. -/
def Obligations.StepKeepsCanonicalStores : Prop :=
  ∀ s t : State, Safety.RegsSorted s → Safety.MemoryOk s → step s = .next t → Safety.RegsSorted t ∧ Safety.MemoryOk t

/-- The state after reset has both canonical forms. -/
def Obligations.ResetStoresAreCanonical : Prop := Safety.RegsSorted State.reset ∧ Safety.MemoryOk State.reset

/-- Right after a power-on reset: no session is open and none of its commands waits, no update lease is held, nothing is staged, every
cluster is EMPTY, both PAT banks are EMPTY, the epoch is 0, MSEC is UNSEEDED, every stack is in TRAINING, common time is 0, every BFD
session is down, the device is not command-ready, CAUSE is power-on and no fault has been logged.
The model's readings in it: log entry 7. -/
def Obligations.ResetState : Prop :=
  let s := State.reset
  openSessions s = [] ∧ s.cmd.waiting = [] ∧ rd s (obj .updStatus) UpdStatus.HOLDER = 255 ∧ rd s (obj .updStatus) UpdStatus.STAGE = 0 ∧
    (∀ cl < 32, rd s (obj .clCtl cl) ClCtl.STATE = 0) ∧ rd s (obj .patStatus) PatStatus.BANK0 = 0 ∧ rd s (obj .patStatus) PatStatus.BANK1 = 0 ∧
    (s.tbl.epochs.map Epoch.number) = [0] ∧ rd s (obj .msStatus) MsStatus.DRBG_STATE = 0 ∧
    (∀ st < 6, rd s (obj .hbStatus st) HbStatus.STATE = 0) ∧ s.ct = 0 ∧ (∀ i < 16384, rd s (obj .bfdSess i) BfdSess.STATE = 1) ∧
    rd s (obj .rstStatus) RstStatus.READY = 0 ∧ rd s (obj .rstStatus) RstStatus.CAUSE = 0 ∧
    rd s (obj .fltStatus) FltStatus.NEWEST = 0 ∧ s.flt.ring = []

/-! ## Chapter 2: the bridge, management frames, sessions and commands -/

/-- A management frame fails the first of the checks of R36 that it does not pass, and counts there (R76), with nothing else changed; an
open request that passes waits for its check; a command of one frame that passes, with room for it, becomes outstanding, in its session's
order, and H takes its SEQ when that is higher. A frame passes its tag check under the key, the nonce and the additional data of R39 alone;
one that does not is counted and nothing of it is carried out.
The model's readings in it: log entries 8, 19 and 89. -/
def Obligations.ManagementFrames : Prop :=
  ∀ (p : MgmtPort) (f : JutosFrame) (s : State), mgmtUp s = true →
    (∀ k, frameFails s p f = some k → Safety.Gives (.jutosFrameReceive p f) s fun t =>
      Safety.Counted .cmdCtr k (portInst p) 1 s t ∧ Safety.Told s t ∧ Safety.RegsKept (.cmdCtr :: Safety.telling) s t) ∧
    (f.fcsOk = false ∨ f.len < 64 ∨ 9600 < f.len → frameFails s p f = some 0) ∧
    (f.fcsOk = true → 64 ≤ f.len → f.len ≤ 9600 → f.dst.toNat ≠ rd s (mgmtKey p) MgmtPort.MAC → frameFails s p f = some 1) ∧
    (frameFails s p f = none → f.kind = 3 → Safety.Gives (.jutosFrameReceive p f) s fun t =>
      t.cmd.opens = s.cmd.opens ++ [⟨p, f.src, f.seq⟩] ∧
        t = { s with cmd := { s.cmd with opens := t.cmd.opens, openTimes := t.cmd.openTimes } }) ∧
    (∀ n : Fin 64, frameFails s p f = none → f.kind = 1 → f.session.toNat = n.val →
      f.tag = some (sealOfFrame (keysOf s n.val).cmdIn f) → fragCount f = 1 → (getSess s n.val).reasm = [] →
      rd s (sessKey n.val) SessStatus.H < f.seq.toNat → rd s (sessKey n.val) SessStatus.H < seqLimit →
      rd s (sessKey n.val) SessStatus.NEXT_SEQ ≤ seqLimit →
      boundsReached s n.val = false → 8 ≤ f.bodyLen.toNat → f.op.toNat ∈ opcodes →
      Safety.Gives (.jutosFrameReceive p f) s fun t =>
        (∃ w : Waiting, t.cmd.waiting = s.cmd.waiting ++ [w] ∧ w.hdr = ⟨n, f.seq⟩ ∧ w.op = f.op.toNat ∧ w.port = p ∧ w.mac = f.src ∧
          w.phase = .queued) ∧
        rd t (sessKey n.val) SessStatus.OUTSTANDING = rd s (sessKey n.val) SessStatus.OUTSTANDING + 1 ∧
        rd t (sessKey n.val) SessStatus.H = f.seq.toNat ∧ Safety.RegsKept [.sessStatus] s t ∧
        t = { s with regs := t.regs, cmd := { s.cmd with sess := t.cmd.sess, waiting := t.cmd.waiting } }) ∧
    (∀ n : Fin 64, frameFails s p f = none → f.kind = 1 ∨ f.kind = 0x11 → f.session.toNat = n.val →
      (∀ k ∈ [(keysOf s n.val).cmdIn, (keysOf s n.val).piIn], f.tag ≠ some (sealOfFrame k f)) → rd s (sessKey n.val) SessStatus.AUTH_FAILS < 65535 →
      (recent s (getSess s n.val).fails sec).length < 1023 → Safety.Gives (.jutosFrameReceive p f) s fun t =>
        rd t (sessKey n.val) SessStatus.AUTH_FAILS = rd s (sessKey n.val) SessStatus.AUTH_FAILS + 1 ∧
        (∀ k, k ≠ sessKey n.val → rdWord t k = rdWord s k) ∧
        t = { s with regs := t.regs, cmd := { s.cmd with sess := t.cmd.sess } })

/-- An open request in turn is answered: with the status of the first check of R46 that fails, no session changed; or with a session
that was closed and now awaits its first command, with the access types granted, NEXT_SEQ 1, H 0 and the keys of R47, and with a reply
signed by the identity key (R45). A device that is not command-ready answers NOT_READY, and while an operator key is
programmed, a signature that does not verify or a key that no programmed slot holds is AUTH_FAIL.
The model's readings in it: log entries 5, 8, 73 and 89. -/
def Obligations.OpenRequestsAnswered : Prop :=
  ∀ (p : MgmtPort) (peer : BitVec 48) (seq : Word) (r : OpenReq) (s : State), ⟨p, peer, seq⟩ ∈ s.cmd.opens →
    (openStatus s r ≠ stOk → Safety.Gives (.openRequest p peer seq r) s fun t =>
      (∃ l, t.out = .openReply p peer seq (openStatus s r) 0xFF 0 none :: l) ∧ t.cmd.waiting = s.cmd.waiting ∧
        t.cmd.opens = s.cmd.opens.erase ⟨p, peer, seq⟩ ∧ Safety.RegsKept Safety.raising s t) ∧
    (openStatus s r = stOk → Safety.Gives (.openRequest p peer seq r) s fun t =>
      ∃ n < 64, sessOpen s n = false ∧ (∀ m < n, sessOpen s m = true) ∧ rd t (sessKey n) SessStatus.STATE = 1 ∧
        rd t (sessKey n) SessStatus.GRANTED = grantedTypes ((openSlot s r).getD 0xFF) r.access.toNat ∧
        rd t (sessKey n) SessStatus.NEXT_SEQ = 1 ∧ rd t (sessKey n) SessStatus.H = 0 ∧
        (∃ tail, tail = openTail s.fuses.identKey (Config.entropy (s.free + 1)) (Config.entropy s.free) r n
            (grantedTypes ((openSlot s r).getD 0xFF) r.access.toNat) ∧
          (getSess t n).keys = some (sessKeys (Config.entropy s.free) r tail.nonce) ∧
          t.out = .openReply p peer seq stOk n (grantedTypes ((openSlot s r).getD 0xFF) r.access.toNat) (some tail) :: s.out) ∧
        t.free = s.free + 2 ∧
        (∀ k, k ≠ sessKey n → rdWord t k = rdWord s k)) ∧
    (flag s rstKey RstStatus.READY = false → openStatus s r = stNotReady) ∧
    (flag s rstKey RstStatus.READY = true → r.bodyLen = 326 → r.openVer = 1 → r.access.toNat < 64 → r.reserved = 0 →
      onP384 r.hostEph = true → onP384 r.opKey = true → programmedSlots s ≠ [] →
      (Config.ecdsaOk r.opKey.toNat (openDigest r s.fuses.serial).toNat r.opSig.toNat = false ∨
        ∀ k ∈ programmedSlots s, rd s (obj .opKey k) OpKey.DIGEST ≠ (sha384 (toBytes 97 r.opKey.toNat)).toNat) → openStatus s r = stAuthFail)

/-- A session ends: its status object reads closed, its keys and records are gone, and none of its commands waits any more. The others
keep theirs. This is so of a session that never had a first command, of an idle one once IDLE_TIMEOUT has passed, and after the reply to SESSION_CLOSE.
The model's readings in it: log entry 21. -/
def Obligations.SessionsEnd : Prop :=
  (∀ (n : Fin 64) (s : State), rd s (sessKey n.val) SessStatus.STATE = 1 → Safety.Gives (.firstCommandTimeout n) s fun t =>
    sessOpen t n.val = false ∧ getSess t n.val = Sess.closed ∧ t.cmd.waiting = s.cmd.waiting.filter (fun w => w.hdr.sid.val != n.val) ∧
      t.out = s.out ∧ (∀ k, k ≠ sessKey n.val → k.ty ≠ .updStatus → rdWord t k = rdWord s k)) ∧
  (∀ (n : Fin 64) (s : State), sessOpen s n.val = true → rd s (sessKey n.val) SessStatus.OUTSTANDING = 0 →
    s.time.stepped ≤ (s.ct : Int) → Safety.Gives (.idleTimeout n) s fun t =>
      sessOpen t n.val = false ∧ getSess t n.val = Sess.closed ∧ idleEnd s n.val ≤ ivl t ∧
        t.cmd.waiting = s.cmd.waiting.filter (fun w => w.hdr.sid.val != n.val) ∧ Safety.RegsKept (.updStatus :: Safety.telling) s t ∧
        (idleEnd s n.val ≤ ivl s → t.out = s.out ∧ t.clock = s.clock ∧
          ∀ k, k ≠ sessKey n.val → k.ty ≠ .updStatus → rdWord t k = rdWord s k)) ∧
  (∀ (c : Hdr) (s : State) (w : Waiting), Safety.Turn s c w 0x0102 accRead 0 0x02 → Safety.Gives (.sessionClose c) s fun t =>
    t.cmd.waiting = [] ∧ (∃ q l, t.out = Safety.replyOf s w q stOk 0 0 [] :: l) ∧ sessOpen t c.sid.val = false ∧ getSess t c.sid.val = Sess.closed ∧
      (∀ k, k ≠ sessKey c.sid.val → k.ty ≠ .updStatus → rdWord t k = rdWord s k))

/-- What waits in a session does not wait for ever: a reassembly of an inject that is not complete in time is dropped and counted (R41),
one of a command is answered BAD_LENGTH; a command that has not taken effect in time is answered BUSY with a hint between 1 and 65,535
(R59); records that wait leave in one event frame, under the session's SEQ (R508).
The model's readings in it: log entries 11 and 22. -/
def Obligations.WaitingEnds : Prop :=
  (∀ (n : Fin 64) (first : Word) (r : Reasm) (s : State), reasmOf (getSess s n.val).injReasm first = some r →
    Safety.Gives (.reassemblyTimeout n true first) s fun t =>
      (getSess t n.val).injReasm = (getSess s n.val).injReasm.filter (fun e => e.first != first) ∧
        Safety.Counted .cmdCtr 7 (portInst r.port) 1 s t ∧ Safety.Told s t ∧ Safety.RegsKept (.cmdCtr :: Safety.telling) s t) ∧
  (∀ (n : Fin 64) (first : Word) (r : Reasm) (s : State), reasmOf (getSess s n.val).reasm first = some r → s.cmd.waiting = [] →
    (getSess s n.val).closing = false → rd s (sessKey n.val) SessStatus.NEXT_SEQ < 2 ^ 64 - 4096 →
    Safety.Gives (.reassemblyTimeout n false first) s fun t =>
      t.cmd.waiting = [] ∧ ∃ q res seals l, t.out =
        .reply r.port r.mac n.val q (reasmOp r) stBadLength r.first.toNat (sessAddr n.val) 0 res seals :: l) ∧
  (∀ (c : Hdr) (s : State) (w : Waiting), s.cmd.waiting = [w] → w.hdr = c → w.phase = .queued → (getSess s c.sid.val).closing = false →
    rd s (sessKey c.sid.val) SessStatus.NEXT_SEQ < 2 ^ 64 - 4096 → Safety.Gives (.commandBlockTimeout c) s fun t =>
      t.cmd.waiting = [] ∧ (∃ q res seals l hint, 1 ≤ hint ∧ hint ≤ 65535 ∧
        t.out = .reply w.port w.mac w.hdr.sid.val q w.op stBusy w.hdr.seq.toNat 0 hint res seals :: l) ∧
      Safety.RegsKept [.sessStatus] s t) ∧
  (∀ (n : Fin 64) (s : State), sessOpen s n.val = true → (getSess s n.val).recs ≠ [] → Safety.Gives (.eventFrameTimeout n) s fun t =>
    (getSess t n.val).recs = [] ∧ (getSess s n.val).recsFrom + 100000 ≤ t.clock ∧ Safety.RegsKept Safety.telling s t ∧
      ((getSess s n.val).recsFrom + 100000 ≤ s.clock →
        (getSess t n.val).evSeq = (getSess s n.val).evSeq + (getSess s n.val).recs.length ∧ (∃ l, t.out =
          .event (getSess s n.val).port (getSess s n.val).mac n.val (rd s (sessKey n.val) SessStatus.NEXT_SEQ) (getSess s n.val).evSeq
            (getSess s n.val).evLost (getSess s n.val).recs (cmdSeals s n.val 5 (16 + waitingBytes (getSess s n.val))) :: (l ++ s.out)) ∧
        Safety.RegsKept [.sessStatus] s t))

/-- The object commands: a read of an object that has no measured field and no field that a read clears returns its bytes and changes
nothing but its session; a write and a modify of an object whose write has no other effect store its writable fields and leave the
read-only ones and every other object (R10, R11, R68 to R70).
The model's readings in it: log entries 9 and 19. -/
def Obligations.ObjectCommands : Prop :=
  (∀ (c : Hdr) (s : State) (w : Waiting) (k : Key), Safety.Turn s c w 0x0201 accRead 12 ((addrOf k).toNat / 2 ^ 40) →
    covered (addrOf k) (Machine.sizeOf k) = some [k] → measured k.ty = [] → (∀ d ∈ fieldsOf k.ty, d.acc ≠ .rc) →
    Safety.Gives (.objRead c (addrOf k) 0 (BitVec.ofNat 32 (Machine.sizeOf k)) none) s fun t =>
      Safety.Answered [] s t w (toBytes (Machine.sizeOf k) (viewWord s k))) ∧
  (∀ (c : Hdr) (s : State) (w : Waiting) (k : Key) (data : Bytes), Safety.Plain k → data.length = Machine.sizeOf k →
    covered (addrOf k) (Machine.sizeOf k) = some [k] → (addrOf k).toNat / 2 ^ 40 = blockOf k → Safety.Write s c w k (ofBytes data) →
    Safety.Gives (.objWrite c (addrOf k) 0 (BitVec.ofNat 32 (Machine.sizeOf k)) data) s fun t =>
      Safety.Answered [k.ty] s t w [] ∧ Safety.Holds s t k (ofBytes data) ∧ ∀ j, j ≠ k → j.ty ≠ .sessStatus → rdWord t j = rdWord s j) ∧
  (∀ (c : Hdr) (s : State) (w : Waiting) (k : Key) (mask value : Nat), Safety.Plain k → Machine.sizeOf k ≤ 64 →
    findObj (addrOf k) = some k → (addrOf k).toNat / 2 ^ 40 = blockOf k →
    Safety.Turn s c w 0x0203 accConfig (12 + 2 * Machine.sizeOf k) (blockOf k) → mask < 2 ^ (8 * Machine.sizeOf k) →
    fieldsOk k.ty (rdWord s k ||| mask) = true → rangeOk s k (rdWord s k ||| mask) = true → stateFault s k (rdWord s k ||| mask) = none →
    Safety.Gives (.objModify c (addrOf k) 1 0 (BitVec.ofNat 32 (Machine.sizeOf k)) mask value) s fun t =>
      Safety.Answered [k.ty] s t w (toBytes (Machine.sizeOf k) (viewWord t k)) ∧ Safety.Holds s t k (rdWord s k ||| mask) ∧
        ∀ j, j ≠ k → j.ty ≠ .sessStatus → rdWord t j = rdWord s j)

/-- Operator keys and the fuses: programming an empty slot, or revoking one while another stays programmed, starts a fuse write and is not
yet answered; when the write completes, the fuses hold the new slot or the new SECVER_MIN, and nothing else in them has changed.
The model's readings in it: log entry 65. -/
def Obligations.FuseWrites : Prop :=
  (∀ (c : Hdr) (k : Fin 4) (digest : BitVec 384) (s : State) (w : Waiting),
    Safety.Turn s c w 0x0202 accConfig 76 0x01 → stable s = true → s.cmd.fuse = none → digest ≠ 0 →
    rd s (obj .opKey k.val) OpKey.STATE = 0 → Safety.Gives (.operatorKeyProgram c k digest) s fun t =>
      (∃ f, t.cmd.fuse = some f ∧ f.hdr = some c ∧ f.secver = none ∧ f.from_ = s.clock ∧
        f.slots = [(k.val, putF (putF 0 OpKey.DIGEST digest.toNat) OpKey.STATE 1)]) ∧
      t.cmd.waiting = [{ w with phase := .started 0x01 }] ∧
      t = { s with cmd := { s.cmd with waiting := t.cmd.waiting, fuse := t.cmd.fuse } }) ∧
  (∀ (c : Hdr) (k j : Fin 4) (s : State) (w : Waiting),
    Safety.Turn s c w 0x0202 accConfig 76 0x01 → stable s = true → s.cmd.fuse = none → j ≠ k →
    rd s (obj .opKey k.val) OpKey.STATE = 1 → rd s (obj .opKey j.val) OpKey.STATE = 1 →
    reservedBits .opKey (rdWord s (obj .opKey k.val)) = 0 → Safety.Gives (.operatorKeyRevoke c k) s fun t =>
      (∃ f, t.cmd.fuse = some f ∧ f.hdr = some c ∧ f.slots = [(k.val, putF (rdWord s (obj .opKey k.val)) OpKey.STATE 2)]) ∧
      t = { s with cmd := { s.cmd with waiting := t.cmd.waiting, fuse := t.cmd.fuse } }) ∧
  (∀ (s : State) (f : FuseWrite) (k x : Nat), s.cmd.fuse = some f → f.slots = [(k, x)] → f.secver = none →
    Safety.Gives .fuseWriteComplete s fun t => t.fuses = { s.fuses with opKeys := tabPut s.fuses.opKeys k x }) ∧
  (∀ (s : State) (f : FuseWrite) (v : Nat), s.cmd.fuse = some f → f.slots = [] → f.secver = some v →
    Safety.Gives .fuseWriteComplete s fun t => t.fuses = { s.fuses with secver := v })

/-- Injects and punts: an inject in the safe state, or one that fails a check of R65, is dropped and counted; one for an ingress pass that
finds its billets is stored and waits last in its queue. The oldest punt leaves first, by the punt session, and its stream's SEQ counts
its fragments; in the safe state none leaves, nor while the bridge is not up (R22, R64 to R66, R484).
The model's readings in it: log entries 23, 68, 73, 81 and 91. -/
def Obligations.InjectsAndPunts : Prop :=
  (∀ (n : Fin 64) (m : InjectMeta) (s : State) (q : MgmtPort) (rest : List MgmtPort), (getSess s n.val).injReady = q :: rest →
    chanState s 0 = 1 → inSafe s = true ∨ injectOk m = false → Safety.Gives (.inject n m) s fun t =>
      (getSess t n.val).injReady = rest ∧ Safety.Counted .cmdCtr 7 (portInst q) 1 s t ∧ Safety.Told s t ∧
        Safety.RegsKept (.cmdCtr :: Safety.telling) s t) ∧
  (∀ (n : Fin 64) (m : InjectMeta) (s : State) (q : MgmtPort) (rest : List MgmtPort), (getSess s n.val).injReady = q :: rest →
    chanState s 0 = 1 → inSafe s = false → injectOk m = true → m.mode = 2 → s.eng.injectQ.length < 4096 →
    billetsOf m.len ≤ mayDraw s (arrivalPool s m.port.toNat m.content) → Safety.Gives (.inject n m) s fun t =>
      t.eng = { s.eng with injectQ := s.eng.injectQ ++ [s.buf.nextPkt] } ∧ ∃ x, tabGet? t.buf.pkts s.buf.nextPkt = some x ∧
        x.len = m.len ∧ x.arrPort = m.port.toNat ∧ x.tc = m.tc.toNat ∧ x.inject = true) ∧
  (∀ (s : State) (x : Punt) (rest : List Punt) (n : Nat), s.cmd.puntQ = x :: rest → inSafe s = false → chanState s 1 = 1 →
    puntSession s = some n → Safety.Gives .puntTransmit s fun t =>
      t.cmd.puntQ = rest ∧ t.out = .punt (getSess s n).port (getSess s n).mac n (getSess s n).piSeq x
          (sealsOf (keysOf s n).piOut 0x10 n (getSess s n).piSeq (32 + x.kept)) :: s.out ∧
        (getSess t n).piSeq = (getSess s n).piSeq + (32 + x.kept + 8191) / 8192 ∧
        t = { s with cmd := { s.cmd with puntQ := t.cmd.puntQ, sess := t.cmd.sess }, out := t.out }) ∧
  (∀ s : State, inSafe s = true ∨ chanState s 1 ≠ 1 → Safety.Gives .puntTransmit s fun t => t = s)

/-- The bridge: the next flit of a channel, control flits before data flits, arrives once and in order, a result for block VOQ and a head
for its egress thread; one that fails its CRC stays the next, and is counted; a good flit ends a run of failures; the eighth failure of one flit retrains its channel; a retrain that succeeds brings
the channel up, one that fails is repeated, and every retrain is counted (R20 to R23).
The model's readings in it: log entry 91. -/
def Obligations.BridgeRetrains : Prop :=
  ∀ (ch : Fin 2) (s : State),
    (chanState s ch.val = 1 → Safety.Gives (.flitReceive ch true) s fun t =>
      tabGet t.bridge.fails ch.val 0 = 0 ∧ flitsOf t ch.val = (flitsOf s ch.val).drop 1 ∧
        t.que.results = s.que.results ++ (match (flitsOf s ch.val).head? with | some (.result x) => [x] | _ => []) ∧
        t.eng.egressQ = s.eng.egressQ ++ (match (flitsOf s ch.val).head? with | some (.egress h) => [h] | _ => []) ∧
        t = { s with bridge := { s.bridge with fails := t.bridge.fails, chans := t.bridge.chans },
                     que := { s.que with results := t.que.results }, eng := { s.eng with egressQ := t.eng.egressQ } }) ∧
    (chanState s ch.val = 1 → tabGet s.bridge.fails ch.val 0 < 7 → Safety.Gives (.flitReceive ch false) s fun t =>
      tabGet t.bridge.fails ch.val 0 = tabGet s.bridge.fails ch.val 0 + 1 ∧ flitsOf t ch.val = flitsOf s ch.val ∧
        t.que = s.que ∧ t.eng = s.eng ∧ Safety.Counted .brgCtr ch.val 0 1 s t ∧
        chanState t ch.val = 1 ∧ Safety.RegsKept (.brgCtr :: Safety.telling) s t) ∧
    (chanState s ch.val = 1 → tabGet s.bridge.fails ch.val 0 = 7 → Safety.Gives (.flitReceive ch false) s fun t =>
      tabGet t.bridge.fails ch.val 0 = 0 ∧ flitsOf t ch.val = flitsOf s ch.val ∧ Safety.Counted .brgCtr ch.val 0 1 s t ∧ Safety.Counted .brgCtr (2 + ch.val) 0 1 s t ∧
        chanState t ch.val = 2 ∧ Safety.RegsKept (.brgCtr :: .brgStatus :: Safety.raising) s t) ∧
    (chanState s ch.val = 2 → ch.val ∉ s.bridge.again → Safety.Gives (.bridgeRetrainComplete ch true) s fun t =>
      chanState t ch.val = 1 ∧ (∀ k, k ≠ brgKey → rdWord t k = rdWord s k) ∧ t = { s with regs := t.regs }) ∧
    (chanState s ch.val = 2 → ch.val ∉ s.bridge.again → Safety.Gives (.bridgeRetrainComplete ch false) s fun t =>
      ch.val ∈ t.bridge.again ∧ chanState t ch.val = 2 ∧ Safety.RegsKept Safety.raising s t) ∧
    (chanState s ch.val = 2 → ch.val ∈ s.bridge.again → Safety.Gives (.bridgeRetrainRetry ch) s fun t =>
      ch.val ∉ t.bridge.again ∧ chanState t ch.val = 2 ∧ Safety.Counted .brgCtr (2 + ch.val) 0 1 s t ∧
        Safety.RegsKept (.brgCtr :: .brgStatus :: Safety.telling) s t)

/-! ## Chapter 3: the engines -/

/-- The ALU rows (R86, R88, R577): RD takes the operation's result of RA and operand B, but for CMP, which writes no register; with SETF the
flags Z, C and N are those of the result, C the carry of an addition, the borrow of a subtraction or compare, and 0 for every other
operation; without SETF no flag changes. No other register, thread or object changes.
The model's readings in it: log entry 12. -/
def Obligations.AluRows : Prop :=
  let row (i : Fin 16384 → MicroCheck → Instr) (op : Nat) (f : Word → Word → Word) (c : Word → Word → Bool) (writes : Bool) : Prop :=
    ∀ (s : State) (t : Fin 16384) (x : Thread) (m : Micro) (n : Nano), Safety.Issues s t x m n → n.next = 0 → n.cls = 0 → n.alu = op →
      Safety.Gives (i t .clean) s (Safety.Ran s t n
        { x with pc := x.pc + 1
                 g := if writes then x.g.set m.rd (f (x.reg m.ra) (operandB s x m n)) else x.g
                 z := if n.setf then f (x.reg m.ra) (operandB s x m n) == 0 else x.z
                 c := if n.setf then c (x.reg m.ra) (operandB s x m n) else x.c
                 n := if n.setf then (f (x.reg m.ra) (operandB s x m n)).msb else x.n })
  let none_ := fun (_ _ : Word) => false
  row .add 0 (· + ·) (fun a b => decide (2 ^ 64 ≤ a.toNat + b.toNat)) true ∧
  row .sub 1 (· - ·) (fun a b => decide (a.toNat < b.toNat)) true ∧
  row .and 2 (· &&& ·) none_ true ∧ row .or 3 (· ||| ·) none_ true ∧ row .xor 4 (· ^^^ ·) none_ true ∧
  row .shl 5 (fun a b => a <<< (b.toNat % 64)) none_ true ∧ row .shr 6 (fun a b => a >>> (b.toNat % 64)) none_ true ∧
  row .movB 7 (fun _ b => b) none_ true ∧
  row .cmp 8 (· - ·) (fun a b => decide (a.toNat < b.toNat)) false ∧
  row .min 9 (fun a b => if a.toNat ≤ b.toNat then a else b) none_ true ∧
  row .max 10 (fun a b => if a.toNat ≤ b.toNat then b else a) none_ true ∧
  row .hash 11 (fun a b => (crc32c (toBytes 8 a.toNat ++ toBytes 8 b.toNat)).zeroExtend 64) none_ true

/-- FIELD and RESULT rows (R81, R84, R86, R130, R133, R313, R510): a field is read from the window, bits outside it as zero, or inserted
from RA; flag O says that it reaches past the valid bytes; a RESULT word sets the outcome, meter request, mirrors, flow hash or an
inter-pass word of its pass, and in an egress pass only a drop, a punt and inter-pass words. A NOP only goes on.
The model's readings in it: log entries 24, 71, 81 and 91. -/
def Obligations.FieldAndResultRows : Prop :=
  ∀ (s : State) (t : Fin 16384) (x : Thread) (m : Micro) (n : Nano), Safety.Issues s t x m n → n.next = 0 →
    (n.cls = 1 → n.fdir = false → Safety.Gives (.fieldExtract t .clean) s (Safety.Ran s t n
      { x with pc := x.pc + 1, g := x.g.set m.rd (BitVec.ofNat 64 (getField x.win x.valid (fieldOff n x) n.fwid))
               o := decide (8 * x.valid < fieldOff n x + n.fwid) })) ∧
    (n.cls = 1 → n.fdir = true → Safety.Gives (.fieldInsert t .clean) s (Safety.Ran s t n
      { x with pc := x.pc + 1, win := putField x.win x.valid (fieldOff n x) n.fwid ((x.reg m.ra).toNat % 2 ^ n.fwid)
               o := decide (8 * x.valid < fieldOff n x + n.fwid) })) ∧
    (n.cls = 4 → n.res = 0 → x.egress = false → isDest (x.reg m.ra).toNat = true → Safety.Gives (.setDestination t .clean) s
      (Safety.Ran s t n { x with pc := x.pc + 1, outcome := some (.dest (x.reg m.ra).toNat) })) ∧
    (n.cls = 4 → n.res = 0 → x.egress = true → Safety.Gives (.setDestination t .clean) s (Safety.Ran s t n { x with pc := x.pc + 1 })) ∧
    (n.cls = 4 → n.res = 1 → x.egress = false → (x.reg m.ra).toNat.testBit 22 = true → Safety.Gives (.setMeterIndex t .clean) s
      (Safety.Ran s t n { x with pc := x.pc + 1, meter := some ((x.reg m.ra).toNat % 2 ^ 20, (x.reg m.ra).toNat / 2 ^ 20 % 4) })) ∧
    (n.cls = 4 → n.res = 2 → Safety.Gives (.drop t .clean) s
      (Safety.Ran s t n { x with pc := x.pc + 1, outcome := some (.drop (m.imm % 256)) })) ∧
    (n.cls = 4 → n.res = 3 → Safety.Gives (.punt t .clean) s
      (Safety.Ran s t n { x with pc := x.pc + 1, outcome := some (.punt (m.imm % 256)) })) ∧
    (n.cls = 4 → n.res = 4 → x.egress = false → Safety.Gives (.mirror t .clean) s
      (Safety.Ran s t n { x with pc := x.pc + 1, mirrors := m.imm % 16 :: x.mirrors })) ∧
    (n.cls = 4 → n.res = 5 → x.egress = false → Safety.Gives (.setEcmpHash t .clean) s
      (Safety.Ran s t n { x with pc := x.pc + 1, hash := (x.reg m.ra).toNat % 2 ^ 32 })) ∧
    (n.cls = 4 → n.res = 6 → Safety.Gives (.writeInterPass t .clean) s
      (Safety.Ran s t n { x with pc := x.pc + 1, words := x.words.set (m.imm % 8) (x.reg m.ra) })) ∧
    (n.cls = 5 → Safety.Gives (.nop t .clean) s (Safety.Ran s t n { x with pc := x.pc + 1 }))

/-- Sequencing (R91, R92), as a NOP shows it: a branch is taken on its flag, a jump and an indexed jump always; a call pushes the next
address on a return stack of four, a return takes it back; a call with a full stack or a return with an empty one is a machine check,
which ends the thread; END ends it too.
The model's readings in it: log entry 24. -/
def Obligations.Sequencing : Prop :=
  ∀ (s : State) (t : Fin 16384) (x : Thread) (m : Micro) (n : Nano), Safety.Issues s t x m n → n.cls = 5 →
    (n.next = 1 → Safety.Gives (.nop t .clean) s (Safety.Ran s t n
      { x with pc := if x.flag n.cond then m.imm % 2 ^ 14 else x.pc + 1 })) ∧
    (n.next = 2 → Safety.Gives (.nop t .clean) s (Safety.Ran s t n
      { x with pc := if x.flag n.cond then x.pc + 1 else m.imm % 2 ^ 14 })) ∧
    (n.next = 3 → Safety.Gives (.nop t .clean) s (Safety.Ran s t n { x with pc := m.imm % 2 ^ 14 })) ∧
    (n.next = 4 → x.stack.length < 4 → Safety.Gives (.nop t .clean) s (Safety.Ran s t n
      { x with pc := m.imm % 2 ^ 14, stack := (x.pc + 1) :: x.stack })) ∧
    (∀ a l, n.next = 5 → x.stack = a :: l → Safety.Gives (.nop t .clean) s (Safety.Ran s t n { x with pc := a, stack := l })) ∧
    (n.next = 6 → Safety.Gives (.nop t .clean) s (Safety.Ran s t n { x with pc := m.imm % 2 ^ 14 + (x.reg m.ra).toNat % 16 })) ∧
    (n.next = 7 → Safety.Gives (.nop t .clean) s fun u =>
      getThr u t.val = none ∧ Safety.Counted .ecCtr (7 * (t.val / 512)) 0 1 s u) ∧
    ((n.next = 4 ∧ 4 ≤ x.stack.length) ∨ (n.next = 5 ∧ x.stack = []) → Safety.Gives (.nop t .clean) s fun u =>
      getThr u t.val = none ∧ Safety.Counted .ecCtr (7 * (t.val / 512) + 2) 0 1 s u)

/-- Lookups and waits (R86, R93, R94, R137): a LOOKUP whose unit has room leaves its request accepted there and the thread goes on; one
without room leaves the thread STALLED, counted, until the unit accepts it; a word that names the RD of a pending result, or is a
second LOOKUP, waits for it with nothing changed; a WAIT whose condition holds goes on, and another waits, as for common time until it
comes.
The model's readings in it: log entries 11, 24 and 25. -/
def Obligations.LookupsAndWaits : Prop :=
  let look (i : Fin 16384 → MicroCheck → Instr) (unit : Nat) : Prop :=
    ∀ (s : State) (t : Fin 16384) (x : Thread) (m : Micro) (n : Nano), Safety.Issues s t x m n → n.next = 0 → n.cls = 2 → n.lunit = unit →
      (unitRoom s (unitOf unit) = true → Safety.Gives (i t .clean) s (Safety.Ran s t n
        { x with pc := x.pc + 1, look := some { lookOf m n x with phase := .accepted } })) ∧
      (unitRoom s (unitOf unit) = false → Safety.Gives (i t .clean) s fun u =>
        getThr u t.val = some { x with look := some (lookOf m n x), hold := .stalled } ∧
          Safety.Counted .ecCtr (7 * (t.val / 512) + 5) 0 1 s u ∧ Safety.RegsKept (.ecCtr :: .lpmCtr :: Safety.telling) s u)
  let wait_ (i : Fin 16384 → MicroCheck → Instr) (cond : Nat) (done_ : State → Thread → Micro → Prop) : Prop :=
    ∀ (s : State) (t : Fin 16384) (x : Thread) (m : Micro) (n : Nano), Safety.Issues s t x m n → n.next = 0 → n.cls = 3 → n.wait = cond →
      (done_ s x m → Safety.Gives (i t .clean) s (Safety.Ran s t n { x with pc := x.pc + 1 })) ∧
      (¬ done_ s x m → Safety.Gives (i t .clean) s (Safety.Ran s t n { x with hold := .wait }))
  look .lookupLpm 0 ∧ look .lookupExm 1 ∧ look .lookupPat 2 ∧
  wait_ .waitLookup 0 (fun _ x _ => x.look = none) ∧ wait_ .waitFlagT 1 (fun _ x _ => x.t = true) ∧
  wait_ .waitTime 2 (fun s x m => (x.reg m.ra).toNat ≤ nowNs s) ∧
  (∀ (s : State) (t : Fin 16384) (x : Thread) (k : Look), getThr s t.val = some x → x.hold = .stalled → x.look = some k →
    unitRoom s k.unit = true → (wordAt s t.val x).2.next = 0 → Safety.Gives (.lookupAccept t) s fun u =>
      getThr u t.val = some { x with hold := .ready, pc := x.pc + 1, look := some { k with phase := .accepted } } ∧
        u = { s with eng := { s.eng with threads := u.eng.threads } }) ∧
  (∀ (s : State) (t : Fin 16384) (x : Thread), getThr s t.val = some x → x.hold = .wait → (wordAt s t.val x).2.cls = 3 →
    (wordAt s t.val x).2.wait = 2 → (wordAt s t.val x).2.next = 0 → Safety.Gives (.timeConditionMet t) s fun u =>
      getThr u t.val = some { x with hold := .ready, pc := x.pc + 1 } ∧ (x.reg (wordAt s t.val x).1.ra).toNat ≤ nowNs u) ∧
  (∀ (s : State) (t : Fin 16384) (x : Thread) (k : Look) (r : Word) (m e : Bool), getThr s t.val = some x → x.look = some k →
    k.phase = .formed r m e → x.hold = .ready ∨ x.hold = .result → (∀ e ∈ s.eng.orphans, e.1 ≠ t.val) →
    Safety.Gives (.lookupResult t .clean) s fun u =>
      getThr u t.val = some { x with hold := .ready, g := x.g.set k.rd r, m := m, e := e, look := none,
                                     cause := if m then causeOf s x k (r, m, e) else x.cause } ∧
        u = { s with eng := { s.eng with threads := u.eng.threads } })

/-- Machine checks, watchdog and sweep (R90, R95, R97, R98, R103, R112): a thread whose pc lies outside its image, whose word does not
decode, or whose words or registers have lost their parity is checked: it ends, and its cluster counts one machine check; so does a
pass past its limit, which counts on the watchdog, or as a reload abort in a cluster that drains. A cluster whose sweep finds a wrong
digest goes out of dispatch and queues for a reload, unless the reaction set says otherwise.
The model's readings in it: log entries 8 and 24. -/
def Obligations.MachineChecks : Prop :=
  (∀ (s : State) (t : Fin 16384) (x : Thread) (chk : MicroCheck), getThr s t.val = some x →
    nextReady s (t.val / 16) = some t.val → (mwCount (getCl s (t.val / 512)).image ≤ x.pc ∨ nwCount (getCl s (t.val / 512)).image ≤ (wordAt s t.val x).1.nano ∨
      (wordAt s t.val x).2.refused = true ∨ (chk = .parityMicro ∧ parityMode s (t.val / 512) = true) ∨
      (chk = .parityNano ∧ parityMode s (t.val / 512) = true)) →
    Safety.Gives (.add t chk) s fun u => getThr u t.val = none ∧ Safety.Counted .ecCtr (7 * (t.val / 512) + 2) 0 1 s u) ∧
  (∀ (s : State) (t : Fin 16384) (x : Thread) (m : Micro) (n : Nano), Safety.Issues s t x m n → n.cls = 0 → n.alu = 0 →
    Safety.Gives (.add t .regUncorrectable) s fun u => getThr u t.val = none ∧ Safety.Counted .ecCtr (7 * (t.val / 512) + 2) 0 1 s u) ∧
  (∀ (s : State) (t : Fin 16384) (x : Thread), getThr s t.val = some x → clState s (t.val / 512) = csDraining →
    Safety.Gives (.passWatchdog t) s fun u => getThr u t.val = none ∧ Safety.Counted .ecCtr (7 * (t.val / 512) + 4) 0 1 s u) ∧
  (∀ (s : State) (t : Fin 16384) (x : Thread), getThr s t.val = some x → clState s (t.val / 512) ≠ csDraining →
    Safety.Gives (.passWatchdog t) s fun u => getThr u t.val = none ∧ Safety.Counted .ecCtr (7 * (t.val / 512) + 3) 0 1 s u ∧
      Safety.Counted .ecCtr (7 * (t.val / 512) + 2) 0 1 s u) ∧
  (∀ (s : State) (cl : Fin 32), parityMode s cl.val = true → Safety.Gives (.signedSweep cl none) s fun u => u = s) ∧
  (∀ (s : State) (cl : Fin 32) (i : Fin 2), parityMode s cl.val = false → hasImage s cl.val = true → inService s cl.val = true →
    (getCl s cl.val).reload = none → shadowOver s (0x10 + cl.val) = none →
    rd s (reactKey (0x10 + cl.val) i.val 6) Reaction.THRESH = 1 → rd s (reactKey (0x10 + cl.val) i.val 6) Reaction.LOCAL = 1 →
    Safety.Gives (.signedSweep cl (some i)) s fun u =>
      clState u cl.val = csDraining ∧ cl.val ∈ u.eng.reloads ∧ ∃ r, (getCl u cl.val).reload = some r ∧ r.sweep = true ∧ r.phase = .out ∧
        r.slot = rd s (clVer cl.val) ClVersion.SLOT)

/-- Dispatch (R26, R27, R65, R78 to R81, R484): the header whose turn it is goes to a thread that was IDLE, of a cluster in service, which
starts at the entry of its image with cleared registers and flags, flag T set once the frame has arrived whole and flag L as the packet is
longer than the window or has yet to arrive, and leaves its queue; in the safe state, with no IDLE thread, or for a received header with no
more IDLE threads than dequeued packets wait for, nothing changes.
The model's readings in it: log entry 25. -/
def Obligations.DispatchStartsAPass : Prop :=
  (∀ (s : State) (n : Nat) (rest : List Nat) (p : Packet), inSafe s = false → (pickThread s).isSome = true →
    (egressWaits s).length < idleThreads s → s.eng.injectQ = n :: rest → getPkt s n = some p → Safety.Gives (.dispatch .inject) s fun u =>
      u.eng.injectQ = rest ∧ ∃ t x, pickThread s = some t ∧ getThr s t = none ∧ inService s (t / 512) = true ∧ getThr u t = some x ∧
        x.hold = .ready ∧ x.pc = entryIn (getCl s (t / 512)).image ∧ x.g = List.replicate 16 0 ∧ x.words = List.replicate 8 0 ∧ x.t = !isArriving s n ∧
        x.l = (isArriving s n || decide (256 < p.len)) ∧ (x.z, x.c, x.n, x.m, x.e, x.o) = (false, false, false, false, false, false) ∧ x.egress = false ∧
        x.ref.pkt = n ∧ u = { s with eng := { s.eng with threads := u.eng.threads, injectQ := rest, busyLog := u.eng.busyLog } }) ∧
  (∀ (s : State) (p : Fin 48) (n left : Nat) (rest : List Nat) (k : Packet), inSafe s = false → (pickThread s).isSome = true →
    (egressWaits s).length < idleThreads s → dispatchTurn s = some (p.val, left) → dispOf s p.val = n :: rest → getPkt s n = some k → Safety.Gives (.dispatch (.port p)) s fun u =>
      dispOf u p.val = rest ∧ u.eng.rrPort = p.val ∧ u.eng.rrLeft = left - 1 ∧ ∃ t x, pickThread s = some t ∧ getThr u t = some x ∧
        x.ref.pkt = n ∧ x.egress = false) ∧
  (∀ (s : State) (h : EgressHdr) (rest : List EgressHdr) (p : Packet), inSafe s = false → (pickThread s).isSome = true →
    s.eng.egressQ = h :: rest → getPkt s h.ref.pkt = some p → Safety.Gives (.dispatch .egress) s fun u =>
      u.eng.egressQ = rest ∧ ∃ t x, pickThread s = some t ∧ getThr u t = some x ∧ x.ref = h.ref ∧ x.egress = true ∧ x.outPort = h.port ∧ x.no = h.no ∧
        x.pc = entryEg (getCl s (t / 512)).image) ∧
  (∀ (s : State) (src : HeaderSource), inSafe s = true ∨ pickThread s = none ∨ (src ≠ .egress ∧ idleThreads s ≤ (egressWaits s).length) →
    Safety.Gives (.dispatch src) s fun u => u = s)

/-- Every thread keeps its shape: sixteen registers and a return stack of at most four. -/
def Obligations.ThreadsKeepShape : Prop :=
  ∀ s t : State, (∀ e ∈ s.eng.threads, e.2.g.length = 16 ∧ e.2.stack.length ≤ 4) → step s = .next t →
    ∀ e ∈ t.eng.threads, e.2.g.length = 16 ∧ e.2.stack.length ≤ 4

/-- Image slots (R101, R102): a write of a part of a slot that is not LOCKED stores it and makes the slot WRITTEN; VERIFY starts its checks;
ERASE zeroes it and makes it EMPTY; when the checks end, the slot is BAD at the offset of the first header field or word that fails, BAD at
64 on its digest, UNSIGNED without a signer, BAD at 112 where no programmed key is its signer's, VERIFIED under the one that is when the
signature holds, else BAD at 216. Other objects stay.
The model's readings in it: log entries 8 and 89. -/
def Obligations.ImageSlots : Prop :=
  (∀ (c : Hdr) (k : Fin 4) (i : Nat) (data : Bytes) (s : State) (w : Waiting), i < slotParts → data.length = 256 →
    covered (addrOf (obj .imgData (k.val * slotParts)) + BitVec.ofNat 48 (256 * i)) 256 = some [obj .imgData (k.val * slotParts + i)] →
    (addrOf (obj .imgData (k.val * slotParts)) + BitVec.ofNat 48 (256 * i)).toNat / 2 ^ 40 = blockOf (obj .imgData (k.val * slotParts + i)) →
    Safety.Write s c w (obj .imgData (k.val * slotParts + i)) (ofBytes data) →
    Safety.Gives (.imageSlotDataWrite c k (256 * i) data) s fun t =>
      Safety.Done t w [] ∧ Safety.Holds s t (obj .imgData (k.val * slotParts + i)) (ofBytes data) ∧ rd t (slotKey k.val) ImgSlot.SLOT_STATE = 1 ∧
        k.val ∉ t.eng.verifying ∧ Safety.RegsKept [.sessStatus, .imgData, .imgSlot] s t) ∧
  (∀ (c : Hdr) (k : Fin 4) (s : State) (w : Waiting), Safety.Sets s c w (slotKey k.val) ImgSlot.VERIFY 1 →
    rd s (slotKey k.val) ImgSlot.ERASE = 0 → Safety.Gives (.imageSlotVerify c k) s fun t =>
      Safety.Done t w [] ∧ k.val ∈ t.eng.verifying ∧ rd t (slotKey k.val) ImgSlot.SLOT_STATE = rd s (slotKey k.val) ImgSlot.SLOT_STATE ∧
        Safety.RegsKept [.sessStatus, .imgSlot] s t) ∧
  (∀ (c : Hdr) (k : Fin 4) (s : State) (w : Waiting), Safety.Sets s c w (slotKey k.val) ImgSlot.ERASE 1 →
    Safety.Gives (.imageSlotErase c k) s fun t =>
      Safety.Done t w [] ∧ rd t (slotKey k.val) ImgSlot.SLOT_STATE = 0 ∧ k.val ∉ t.eng.verifying ∧
        (∀ i < slotParts, rdWord t (obj .imgData (k.val * slotParts + i)) = 0) ∧
        Safety.RegsKept [.sessStatus, .imgData, .imgSlot] s t) ∧
  (∀ (k : Fin 4) (s : State) (img : Tab Nat), k.val ∈ s.eng.verifying → slotImage s k.val = img →
    Safety.Gives (.imageVerifyComplete k) s fun t =>
      k.val ∉ t.eng.verifying ∧ (∀ j, j ≠ slotKey k.val → rdWord t j = rdWord s j) ∧ t.out = s.out ∧
      (∀ off, headerBad img = some off ∨ (headerBad img = none ∧ wordsBad img = some off) →
        rd t (slotKey k.val) ImgSlot.SLOT_STATE = 4 ∧ rd t (slotKey k.val) ImgSlot.BAD_OFFSET = off % 2 ^ ImgSlot.BAD_OFFSET.w) ∧
      (headerBad img = none → wordsBad img = none → ∀ good, good = digestOk img 512 (5 * mwCount img + 16 * nwCount img) →
        (good = false → rd t (slotKey k.val) ImgSlot.SLOT_STATE = 4 ∧ rd t (slotKey k.val) ImgSlot.BAD_OFFSET = 64) ∧
        (good = true → imgNat img 112 97 = 0 → rd t (slotKey k.val) ImgSlot.SLOT_STATE = 2) ∧
        (good = true → imgNat img 112 97 ≠ 0 → signerSlot s img = none →
          rd t (slotKey k.val) ImgSlot.SLOT_STATE = 4 ∧ rd t (slotKey k.val) ImgSlot.BAD_OFFSET = 112) ∧
        (good = true → imgNat img 112 97 ≠ 0 → ∀ q, signerSlot s img = some q →
          (signatureOk img = true → rd t (slotKey k.val) ImgSlot.SLOT_STATE = 3 ∧ tabGet? t.eng.verifiedBy k.val = some q) ∧
          (signatureOk img = false → rd t (slotKey k.val) ImgSlot.SLOT_STATE = 4 ∧ rd t (slotKey k.val) ImgSlot.BAD_OFFSET = 216))))

/-- A reload (R99, R103, R104, R109 to R113): LOAD_GO queues it and the cluster reads PENDING; its turn, when the load of the device fits the
clusters that stay in service or FORCE is set, fixes T_s 10 µs on, under the mode that PROTECT gives then; at T_s the cluster drains; with its
passes ended its stores are loaded from the slot; a load that succeeds makes it RUNNING on bank 0 with the image's version at an instant 5 µs
on, one that fails twice FAILED with LAST_ERR 5; one that waits RELOAD_WAIT is abandoned with LAST_ERR 4.
The model's readings in it: log entry 11. -/
def Obligations.Reloads : Prop :=
  (∀ (c : Hdr) (cl : Fin 32) (s : State) (w : Waiting), Safety.Sets s c w (clKey cl.val) ClCtl.LOAD_GO 1 →
    clState s cl.val = csRunning ∨ clState s cl.val = csEmpty ∨ clState s cl.val = csFailed → Safety.Gives (.loadGo c cl) s fun t =>
      Safety.Done t w [] ∧ clState t cl.val = csPending ∧ t.eng.reloads = s.eng.reloads ++ [cl.val] ∧
        (∃ r, (getCl t cl.val).reload = some r ∧ r.slot = rd s (clKey cl.val) ClCtl.SRC_SLOT ∧ r.phase = .queued ∧ r.sweep = false) ∧
        (∀ j, j ≠ clKey cl.val → j.ty ≠ .sessStatus → rdWord t j = rdWord s j)) ∧
  (∀ (cl : Fin 32) (s : State) (r : Reload), (getCl s cl.val).reload = some r → r.sweep = false → reloadTurn s = some cl.val →
    (∀ o < 32, inProgress s o = false ∧ clState s o ≠ csFailed) → slotLoadable s r.slot (rd s (clKey cl.val) ClCtl.PROTECT) = true →
    abiOk s cl.val r.slot = true →
    (flag s (clKey cl.val) ClCtl.FORCE = true ∨ loadFits s (rd s (clKey cl.val) ClCtl.LOAD_LIMIT) (stayInService s cl.val) = true →
      Safety.Gives (.reloadStart cl) s fun t =>
        (getCl t cl.val).reload = some { r with phase := .fixed (s.ct + 10000 * 65536), protect := rd s (clKey cl.val) ClCtl.PROTECT } ∧
          t = { s with eng := { s.eng with clusters := t.eng.clusters } }) ∧
    (flag s (clKey cl.val) ClCtl.FORCE = false → loadFits s (rd s (clKey cl.val) ClCtl.LOAD_LIMIT) (stayInService s cl.val) = false →
      Safety.Gives (.reloadStart cl) s fun t => t = s)) ∧
  (∀ (cl : Fin 32) (s : State) (r : Reload), (getCl s cl.val).reload = some r → r.sweep = true → reloadTurn s = some cl.val →
    (∀ o < 32, inProgress s o = false) → Safety.Gives (.reloadStart cl) s fun t =>
      (getCl t cl.val).reload = some { r with phase := .draining, protect := rd s (clKey cl.val) ClCtl.PROTECT } ∧
        t = { s with eng := { s.eng with clusters := t.eng.clusters } }) ∧
  (∀ (cl : Fin 32) (s : State) (r : Reload) (ts : Nat), (getCl s cl.val).reload = some r → r.phase = .fixed ts →
    Safety.Gives (.reloadDrain cl) s fun t =>
      clState t cl.val = csDraining ∧ (getCl t cl.val).reload = some { r with phase := .draining } ∧ ts ≤ t.ct ∧
        Safety.RegsKept (.clCtl :: Safety.telling) s t) ∧
  (∀ (cl : Fin 32) (s : State) (r : Reload), (getCl s cl.val).reload = some r → r.phase = .draining → clState s cl.val = csDraining →
    busyThreads s cl.val = 0 → Safety.Gives (.reloadDrained cl) s fun t =>
      clState t cl.val = csLoading ∧ (getCl t cl.val).image = slotImage s r.slot ∧
        (getCl t cl.val).reload = some { r with phase := .loading false } ∧ Safety.RegsKept [.clCtl] s t) ∧
  (∀ (cl : Fin 32) (s : State), (getCl s cl.val).reload = none → clState s cl.val = csDraining → busyThreads s cl.val = 0 →
    Safety.Gives (.reloadDrained cl) s fun t => clState t cl.val = csParked ∧ Safety.RegsKept [.clCtl] s t ∧ t = { s with regs := t.regs }) ∧
  (∀ (cl : Fin 32) (s : State) (r : Reload) (again : Bool), (getCl s cl.val).reload = some r → r.phase = .loading again →
    Safety.Gives (.reloadLoaded cl true) s fun t =>
      (getCl t cl.val).reload = some { r with phase := .loaded (s.ct + 5000 * 65536) } ∧ t = { s with eng := { s.eng with clusters := t.eng.clusters } }) ∧
  (∀ (cl : Fin 32) (s : State) (r : Reload), (getCl s cl.val).reload = some r → r.phase = .loading true → (getCl s cl.val).behind = none →
    Safety.Gives (.reloadLoaded cl false) s fun t =>
      clState t cl.val = csFailed ∧ rd t (clKey cl.val) ClCtl.LAST_ERR = 5 ∧ (getCl t cl.val).reload = none ∧ hasImage t cl.val = false ∧
        Safety.RegsKept (.clCtl :: Safety.raising) s t) ∧
  (∀ (cl : Fin 32) (s : State) (r : Reload) (at_ : Nat), (getCl s cl.val).reload = some r → r.phase = .loaded at_ →
    (getCl s cl.val).behind = none → wantsPark s cl.val = false → Safety.Gives (.reloadResume cl) s fun t =>
      clState t cl.val = csRunning ∧ (getCl t cl.val).reload = none ∧ rd t (obj .clStatus cl.val) ClStatus.BANK = 0 ∧
        rdWord t (clVer cl.val) = versionOf (getCl s cl.val).image r.protect r.slot ∧ at_ ≤ t.ct ∧
        Safety.RegsKept (.clCtl :: .clVersion :: .clStatus :: Safety.telling) s t) ∧
  (∀ (cl : Fin 32) (s : State) (r : Reload), (getCl s cl.val).reload = some r → r.phase = .queued → r.sweep = false →
    parkedOrParking s cl.val = false → (getCl s cl.val).behind = none → s.time.stepped ≤ (s.ct : Int) →
    Safety.Gives (.reloadAbandon cl) s fun t =>
      rd t (clKey cl.val) ClCtl.LAST_ERR = 4 ∧ (getCl t cl.val).reload = none ∧
        r.since + rd s (clKey cl.val) ClCtl.RELOAD_WAIT * 10 ^ 9 * 65536 ≤ ivl t ∧
        (getCl t cl.val).image = (getCl s cl.val).image ∧
        (clState s cl.val = csRunning ∨ (clState s cl.val = csPending ∧ (getCl s cl.val).base = csRunning) → clState t cl.val = csRunning) ∧
        ((queueOf s (0x10 + cl.val)).length < 16 →
          ∃ m ∈ queueOf t (0x10 + cl.val), m.inst = 4 ∧ m.kind = 8 ∧ m.addr = addrOf (clKey cl.val)) ∧
        Safety.RegsKept (.clCtl :: Safety.raising) s t)

/-- Parking and patches (R104, R107, R108, R114): ENABLE 0 drains a cluster in service, ENABLE 1 returns one that reads PARKED; a PATCH_GO
whose staged patch passes its checks writes the bank that is not in force and schedules the switch 10 µs on, one that fails them leaves
both banks and says why; at the instant the banks change and PATCH_LEVEL is the patch's.
The model's readings in it: log entries 8, 41, 75, 77, 78 and 80. -/
def Obligations.ParkingAndPatches : Prop :=
  (∀ (c : Hdr) (cl : Fin 32) (s : State) (w : Waiting), Safety.Sets s c w (clKey cl.val) ClCtl.ENABLE 0 →
    rd s (clKey cl.val) ClCtl.LOAD_GO = 0 → rd s (clKey cl.val) ClCtl.PATCH_GO = 0 → rd s (clKey cl.val) ClCtl.ENABLE = 1 →
    inService s cl.val = true → Safety.Gives (.clusterPark c cl) s fun t =>
      Safety.Done t w [] ∧ Safety.RegsKept [.sessStatus, .clCtl] s t ∧ ((getCl s cl.val).reload = none → Safety.Answered [.clCtl] s t w []) ∧
        (getCl t cl.val).image = (getCl s cl.val).image ∧ clState t cl.val = csDraining ∧ rd t (clKey cl.val) ClCtl.ENABLE = 0 ∧ inService t cl.val = false) ∧
  (∀ (c : Hdr) (cl : Fin 32) (s : State) (w : Waiting), Safety.Sets s c w (clKey cl.val) ClCtl.ENABLE 1 →
    rd s (clKey cl.val) ClCtl.LOAD_GO = 0 → rd s (clKey cl.val) ClCtl.PATCH_GO = 0 → rd s (clKey cl.val) ClCtl.ENABLE = 0 →
    clState s cl.val = csParked → (getCl s cl.val).shed = false → (getCl s cl.val).reload = none → Safety.Gives (.clusterReturn c cl) s fun t =>
      Safety.Answered [.clCtl] s t w [] ∧ clState t cl.val = csRunning ∧ rd t (clKey cl.val) ClCtl.ENABLE = 1 ∧ inService t cl.val = true) ∧
  (∀ (c : Hdr) (cl : Fin 32) (s : State) (w : Waiting) (p : Tab Nat) (good signer : Bool), Safety.Sets s c w (clKey cl.val) ClCtl.PATCH_GO 1 →
    rd s (clKey cl.val) ClCtl.LOAD_GO = 0 → stagedPatch s cl.val = p → patchFormOk (getCl s cl.val) p = true →
    good = digestOk p 320 (8 * imgNat p 57 1 + 24 * imgNat p 58 1) →
    signer = (if imgNat p 112 97 = 0 then parityMode s cl.val else (signerSlot s p).isSome && signatureOk p) →
    (good = true → signer = true → Safety.Gives (.patchGo c cl) s fun t =>
      Safety.Done t w [] ∧ (getCl t cl.val).patch = some (s.ct + 10000 * 65536) ∧
        (getCl t cl.val).banks = (getCl s cl.val).banks.set (1 - bankNow s cl.val) (patchOverlay p) ∧
        bankNow t cl.val = bankNow s cl.val ∧ Safety.RegsKept [.sessStatus, .clCtl] s t) ∧
    (good = false ∨ signer = false → Safety.Gives (.patchGo c cl) s fun t =>
      (getCl t cl.val).banks = (getCl s cl.val).banks ∧ (getCl t cl.val).patch = (getCl s cl.val).patch ∧
        rd t (clKey cl.val) ClCtl.LAST_ERR = (if good then 1 else 2) ∧ Safety.RegsKept (.clCtl :: Safety.raising) s t)) ∧
  (∀ (cl : Fin 32) (s : State) (at_ : Nat), (getCl s cl.val).patch = some at_ → Safety.Gives (.patchSwitch cl) s fun t =>
    bankNow t cl.val = (1 - bankNow s cl.val) % 2 ^ ClStatus.BANK.w ∧ (getCl t cl.val).patch = none ∧ at_ ≤ t.ct ∧
      rd t (clVer cl.val) ClVersion.PATCH_LEVEL = (bankOf (getCl s cl.val) (1 - bankNow s cl.val)).level % 256 ∧
      Safety.RegsKept (.clStatus :: .clVersion :: Safety.telling) s t)

/-! ## Chapters 4 and 5: the lookup tables and the pattern matcher -/

/-- Table changes (R139 to R141, R144, R145): an insert or delete that passes its checks waits for its turn, last, and is not yet
answered; at its turn it joins the pending set, so that its key will hold the entry it names once all is committed, the epoch in force
unchanged, and is answered OK.
The model's readings in it: log entry 41. -/
def Obligations.TableChanges : Prop :=
  (∀ (c : Hdr) (tid keyLen entLen : BitVec 16) (key entry : Bytes) (s : State) (w : Waiting),
    Safety.Turn s c w 0x0301 accConfig (8 + keyLen.toNat + entLen.toNat) 0x30 → isTable tid.toNat = true → key.length = keyLen.toNat →
    entry.length = entLen.toNat → keyLen.toNat = keyLenOf s tid.toNat → entryLenOk tid.toNat entry = true → keyOk s tid.toNat key = true →
    entryOk tid.toNat entry = true → s.tbl.unbuilt + s.tbl.turns.length < maxUnbuilt → s.tbl.turns.length < maxTurns →
    Safety.Gives (.tableInsert c tid keyLen entLen 0 key entry) s fun t =>
      t.tbl.turns = s.tbl.turns ++ [⟨c, tid.toNat, keyNumber s tid.toNat key, some (entryWords tid.toNat entry)⟩] ∧
        t.cmd.waiting = [{ w with phase := .turn }] ∧
        t = { s with cmd := { s.cmd with waiting := t.cmd.waiting }, tbl := { s.tbl with turns := t.tbl.turns } }) ∧
  (∀ (c : Hdr) (tid keyLen : BitVec 16) (key : Bytes) (s : State) (w : Waiting),
    Safety.Turn s c w 0x0302 accConfig (8 + keyLen.toNat) 0x30 → isTable tid.toNat = true → key.length = keyLen.toNat →
    keyLen.toNat = keyLenOf s tid.toNat → keyOk s tid.toNat key = true → s.tbl.unbuilt + s.tbl.turns.length < maxUnbuilt →
    s.tbl.turns.length < maxTurns → Safety.Gives (.tableDelete c tid keyLen 0 key) s fun t =>
      t.tbl.turns = s.tbl.turns ++ [⟨c, tid.toNat, keyNumber s tid.toNat key, none⟩] ∧ t.cmd.waiting = [{ w with phase := .turn }] ∧
        t = { s with cmd := { s.cmd with waiting := t.cmd.waiting }, tbl := { s.tbl with turns := t.tbl.turns } }) ∧
  (∀ (s : State) (w : Waiting) (x : Machine.Turn) (rest : List Machine.Turn), s.tbl.turns = x :: rest → s.cmd.waiting = [w] → w.hdr = x.hdr →
    w.phase = .turn → w.op = 0x0301 ∨ w.op = 0x0302 → rd s (sessKey w.hdr.sid.val) SessStatus.NEXT_SEQ < 2 ^ 64 - 4096 → changeOk { s with tbl := { s.tbl with turns := rest } } x.tid x.key x.entry = true →
    Safety.Gives .tableChangeTurn s fun t =>
      Safety.Done t w [] ∧ t.tbl.turns = rest ∧ futureEntry t x.tid x.key = x.entry ∧ t.tbl.epochs = s.tbl.epochs ∧
        t.tbl.commits = s.tbl.commits ∧ Safety.RegsKept [.sessStatus] s t)

/-- Commits and epochs (R146 to R149): a commit of all tables closes the pending sets, or is answered at once with the epoch in force and 0
when there is nothing pending; once built, and with one epoch live, its T_sw is fixed 5 µs on; at T_sw the next epoch holds the closed
changes, the previous one is kept for the passes bound to it, and the reply gives the epoch and the number of changes; the previous epoch
retires with its last pass, and only leaves of the new one stay in the cache.
The model's readings in it: log entries 11 and 80. -/
def Obligations.CommitsAndEpochs : Prop :=
  (∀ (c : Hdr) (s : State) (w : Waiting), Safety.Turn s c w 0x0303 accConfig 4 0x30 → s.tbl.commits = [] →
    0 < (s.tbl.pend.map fun e => e.2.length).sum → Safety.Gives (.tableCommit c 0 0) s fun t =>
      t.tbl.pend = [] ∧ t.tbl.epochs = s.tbl.epochs ∧ t.out = s.out ∧ t.cmd.waiting = [{ w with phase := .started 0x30 }] ∧
        ∃ k, t.tbl.commits = [k] ∧ k.hdr = c ∧ k.changes = (s.tbl.pend.map fun e => e.2.length).sum ∧ k.phase = .building) ∧
  (∀ (c : Hdr) (s : State) (w : Waiting), Safety.Turn s c w 0x0303 accConfig 4 0x30 → s.tbl.commits = [] → s.tbl.pend = [] →
    Safety.Gives (.tableCommit c 0 0) s fun t =>
      Safety.Answered [] s t w (toBytes 8 (epochHead s).number ++ toBytes 4 0)) ∧
  (∀ (s : State) (k : Commit) (rest : List Commit), s.tbl.commits = k :: rest → k.phase = .building → s.tbl.epochs.length ≤ 1 →
    Safety.Gives .commitBuildDone s fun t =>
      t.tbl.commits = { k with phase := .fixed (s.ct + 5000 * 65536) } :: rest ∧ t.tbl.unbuilt = min s.tbl.unbuilt (s.tbl.taken - k.mark) ∧
        t = { s with tbl := { s.tbl with commits := t.tbl.commits, unbuilt := t.tbl.unbuilt } }) ∧
  (∀ (s : State) (w : Waiting) (k : Commit) (at_ tid : Nat) (l : Changes), s.tbl.commits = [k] → k.phase = .fixed at_ → k.sets = [(tid, l)] →
    s.cmd.waiting = [w] → w.hdr = k.hdr → w.phase = .started 0x30 → w.op = 0x0303 → s.tbl.epochs ≠ [] →
    rd s (sessKey w.hdr.sid.val) SessStatus.NEXT_SEQ < 2 ^ 64 - 4096 →
    Safety.Gives .epochSwitch s fun t =>
      Safety.Done t w (toBytes 8 ((epochHead s).number + 1) ++ toBytes 4 k.changes) ∧ at_ ≤ t.ct ∧ t.tbl.commits = [] ∧
        (epochHead t).number = (epochHead s).number + 1 ∧ t.tbl.epochs.tail = [epochHead s] ∧
        tableIn (epochHead t) tid = applyChanges (tableIn (epochHead s) tid) l ∧
        (∀ u, u ≠ tid → tableIn (epochHead t) u = tableIn (epochHead s) u) ∧ Safety.RegsKept Safety.telling s t) ∧
  (∀ (s : State) (new old : Epoch) (rest : List Epoch), s.tbl.epochs = new :: old :: rest → (∀ x ∈ s.eng.threads, x.2.epoch ≠ old.number) →
    Safety.Gives .epochRetire s fun t =>
      t.tbl.epochs = [new] ∧ (∀ x ∈ t.tbl.cache, x ∈ s.tbl.cache ∧ x ∈ liveLeaves t) ∧
        t = { s with tbl := { s.tbl with epochs := [new], commits := t.tbl.commits, cache := t.tbl.cache } }) ∧
  (∀ (s : State) (new old : Epoch) (rest : List Epoch), s.tbl.epochs = new :: old :: rest → (∃ x ∈ s.eng.threads, x.2.epoch = old.number) →
    Safety.Gives .epochRetire s fun t => t = s)

/-- Reading, loading, creating and removing tables (R142, R143, R155): a read answers whether the entry is held, and the entry, in the
epoch in force, and changes nothing; a bulk load of records that all pass joins them to the pending set, and one whose first record is
out of range joins none; a prefix table is PRESENT after its create, with its family, and absent after its remove.
The model's readings in it: log entry 41. -/
def Obligations.TableReadsAndLoads : Prop :=
  (∀ (c : Hdr) (tid keyLen : BitVec 16) (key : Bytes) (s : State) (w : Waiting), Safety.Turn s c w 0x0304 accRead (8 + keyLen.toNat) 0x30 →
    isTable tid.toNat = true → key.length = keyLen.toNat → keyLen.toNat = keyLenOf s tid.toNat → keyOk s tid.toNat key = true →
    present s tid.toNat = true → (tid.toNat, keyNumber s tid.toNat key) ∉ s.tbl.lost → Safety.Gives (.tableRead c tid keyLen 0 0 key) s fun t =>
      Safety.Answered [] s t w
        ([if (tabGet? (tableIn (epochHead s) tid.toNat) (keyNumber s tid.toNat key)).isSome then 1 else 0, 0, 0, 0] ++
          entryBytes tid.toNat (tabGet? (tableIn (epochHead s) tid.toNat) (keyNumber s tid.toNat key)))) ∧
  (∀ (c : Hdr) (tid keyLen entLen : BitVec 16) (count : BitVec 32) (records : List (Bytes × Bytes)) (s u : State) (w : Waiting),
    Safety.Turn s c w 0x0305 accConfig (16 + count.toNat * (keyLen.toNat + entLen.toNat)) 0x30 → isTable tid.toNat = true → tid ≠ 3 →
    records.length = count.toNat → (∀ r ∈ records, r.1.length = keyLen.toNat ∧ r.2.length = entLen.toNat) →
    keyLen.toNat = keyLenOf s tid.toNat → entLen.toNat = entLenOf tid.toNat 0 → bulkRange s tid.toNat false records = none →
    s.tbl.unbuilt + s.tbl.turns.length + records.length ≤ maxUnbuilt → present s tid.toNat = true →
    bulkAll tid.toNat false records 0 s = .ok u → Safety.Gives (.bulkLoad c tid keyLen entLen 0 count 0 records) s fun t =>
      Safety.Done t w (toBytes 4 0xFFFFFFFF) ∧ t.tbl = u.tbl ∧ t.tbl.epochs = s.tbl.epochs ∧ Safety.RegsKept [.sessStatus] s t) ∧
  (∀ (c : Hdr) (tid : BitVec 16) (family : Bool) (s : State) (w : Waiting), isPrefix tid.toNat = true →
    Safety.Write s c w (obj .ptDesc tid.toNat) (putF (putF (rdWord s (obj .ptDesc tid.toNat)) PtDesc.STATE 1) PtDesc.FAMILY
      (if family then 1 else 0)) → Safety.Gives (.tableCreate c tid family) s fun t =>
      Safety.Answered [.ptDesc] s t w [] ∧ present t tid.toNat = true ∧ isV6 t tid.toNat = family ∧
        ∀ k, k ≠ obj .ptDesc tid.toNat → k.ty ≠ .sessStatus → rdWord t k = rdWord s k) ∧
  (∀ (c : Hdr) (tid : BitVec 16) (s : State) (w : Waiting), isPrefix tid.toNat = true →
    Safety.Sets s c w (obj .ptDesc tid.toNat) PtDesc.STATE 0 → Safety.Gives (.tableRemove c tid) s fun t =>
      Safety.Answered [.ptDesc] s t w [] ∧ present t tid.toNat = false)

/-- Lookup results (R64, R122, R123, R126 to R128, R131, R132, R136 to R138, R150 to R152): an LPM request whose walk meets no damaged word
and whose leaf, where it needs one, is in the cache lands the longest prefix that covers its address, or a miss; a next-hop request lands its
entry; a request that needs a line shares a read of it that is out, or takes an entry of the miss table, and its read enters the queue of the
stack with fewer requests when that has room; the read that returns, clean, forms the result of every request that waits for the line; lost
copies and a timeout form the error result, which lands as M 0 and E 1; a damaged word that has been rebuilt is no longer bad.
The model's readings in it: log entries 42, 45, 55 and 81. -/
def Obligations.LookupResults : Prop :=
  (∀ (s : State) (t : Fin 16384) (x : Thread) (k : Look) (tid a : Nat), getThr s t.val = some x → (∀ e ∈ s.eng.orphans, e.1 ≠ t.val) →
    x.look = some k → k.unit = .lpm → k.phase = .accepted → x.hold = .ready ∨ x.hold = .result → lpmRequest s k = some (tid, a) →
    (∀ l, leafOf (epochOf s x.epoch) tid (addrBits s tid) a = some l → l ∈ s.tbl.cache) → walkBad s (epochOf s x.epoch) tid a = false →
    Safety.Gives (.lookupResult t .clean) s fun u =>
      Safety.Counted .lpmCtr 0 0 1 s u ∧ Safety.Counted .lpmCtr 1 0 1 s u ∧
      ∃ y, getThr u t.val = some y ∧ y.look = none ∧ y.hold = .ready ∧ y.e = false ∧
        (y.g, y.m) = (match longest (addrBits s tid) a (tableIn (epochOf s x.epoch) tid) with
          | some (key, v) => (x.g.set k.rd (BitVec.ofNat 64 (v.headD 0 + key / 2 ^ 128 * 2 ^ 32 + 2 ^ 40)), true)
          | none => (x.g.set k.rd 0, false))) ∧
  (∀ (s : State) (t : Fin 16384) (x : Thread) (k : Look), getThr s t.val = some x → (∀ e ∈ s.eng.orphans, e.1 ≠ t.val) → x.look = some k →
    k.unit = .lpm → k.phase = .accepted → x.hold = .ready ∨ x.hold = .result → lpmRequest s k = none →
    Safety.Gives (.lookupResult t .clean) s fun u => Safety.Counted .lpmCtr 4 0 1 s u ∧
      getThr u t.val = some { x with hold := .ready, g := x.g.set k.rd 0, m := false, e := true, look := none }) ∧
  (∀ (s : State) (t : Fin 16384) (x : Thread) (k : Look), getThr s t.val = some x → (∀ e ∈ s.eng.orphans, e.1 ≠ t.val) → x.look = some k →
    k.unit = .exm → k.phase = .accepted → x.hold = .ready ∨ x.hold = .result → k.imm = 2 → k.klen = 0 →
    .word 2 (keyReg k 0 % 2 ^ 22) ∉ s.tbl.bad → nextHop (epochOf s x.epoch) (keyReg k 0 % 2 ^ 22) / 2 ^ 61 ≠ 0 →
    Safety.Gives (.lookupResult t .clean) s fun u =>
      Safety.Counted .exmCtr 0 0 1 s u ∧ getThr u t.val = some { x with
        hold := .ready, g := x.g.set k.rd (BitVec.ofNat 64 (nextHop (epochOf s x.epoch) (keyReg k 0 % 2 ^ 22))), m := true, e := false,
        look := none, cause := addrOf (obj .nhEntry (keyReg k 0 % 2 ^ 22)) }) ∧
  (∀ (s : State) (t : Fin 16384) (x : Thread) (k : Look) (line : HbmLine), getThr s t.val = some x → (∀ e ∈ s.eng.orphans, e.1 ≠ t.val) →
    x.look = some k → k.phase = .accepted → k.unit = .exm → lineNeeded s x k = some line → noReads s = false →
    Safety.Gives (.leafReadIssue t) s fun u =>
      Safety.RegsKept (.hbStatus :: .hbReq :: .hbRqCtr :: .hbPcCtr :: Safety.telling) s u ∧
      (lineInRead s line = true → getThr u t.val = some { x with look := some { k with phase := .reading line true none } }) ∧
      (lineInRead s line = false → missEntries s < 8192 → ∃ q y, getThr u t.val = some { x with look := some y } ∧
        y = { k with phase := .reading line false (q.map fun id => (readStack s (pcOf (lineAddr s line)), id)) } ∧
        (rd s (hbS (readStack s (pcOf (lineAddr s line)))) HbStatus.STATE = 1 →
          flag s (hbR (readStack s (pcOf (lineAddr s line))) 1) HbReq.PRESENT = true →
          hbmRoom (getStack s (readStack s (pcOf (lineAddr s line)))) (pcOf (lineAddr s line)) 1
            (rd s (hbR (readStack s (pcOf (lineAddr s line))) 1) HbReq.CLASS) = true → q ≠ none))) ∧
  (∀ (s : State) (t : Fin 16384) (x : Thread) (k : Look) (n : Nat) (b : Nat × Option Nat), getThr s t.val = some x →
    (∀ e ∈ s.eng.orphans, e.1 ≠ t.val) → x.look = some k → k.phase = .reading (.labels n) false (some b) → k.unit = .exm →
    tabSorted s.eng.threads = true → Safety.Gives (.leafReadComplete t .clean) s fun u =>
      (∃ y r m e, getThr u t.val = some y ∧ labelOut (epochOf s x.epoch) k = (r, m, e) ∧
        y.look = some { k with phase := .formed r m e }) ∧
        Safety.RegsKept (.lpmCtr :: .exmCtr :: .hbStatus :: .hbReq :: Safety.telling) s u) ∧
  (∀ (s : State) (t : Fin 16384) (x : Thread) (k : Look) (line : HbmLine) (b : Nat × Option Nat), getThr s t.val = some x →
    (∀ e ∈ s.eng.orphans, e.1 ≠ t.val) → x.look = some k → k.phase = .reading line false (some b) → tabSorted s.eng.threads = true →
    Safety.Gives (.leafReadTimeout t) s fun u => ∃ y, getThr u t.val = some y ∧ y.look = some { k with phase := .formed 0 false true }) ∧
  (∀ (s : State) (exm : Bool) (e : Broken) (l : List Broken), s.tbl.bad = e :: l → e.exm = exm →
    Safety.Gives (.entryRebuildComplete exm) s fun u => u = { s with tbl := { s.tbl with bad := l } })

/-- The pattern matcher (R157 to R160, R162, R164 to R166, R169 to R173, R175): a write of a window makes its bank WRITTEN; SWAP starts the
check of a WRITTEN bank, which makes it READY and fixes T_sw 10 µs on, or BAD; at T_sw the banks change and the old one drains until the
last pass bound to it has ended; ERASE empties the standby bank. What is written goes to the shadow too. A request for bytes beyond the
window fetches its billet first; a timeout forms the error result; a request to a valid set lands its winning rule, or a miss. The sweep
repairs a word from its good copy, and damages its sets when both are bad; it completes only with a bank to compare.
The model's readings in it: log entries 8, 43, 44, 80 and 89. -/
def Obligations.PatternMatcher : Prop :=
  (∀ (c : Hdr) (b i : Nat) (data : Bytes) (s : State) (w : Waiting), b < 2 → i < patParts → data.length = 256 →
    covered (addrOf (obj .patWin 0) + BitVec.ofNat 48 (256 * (b * patParts + i))) 256 = some [obj .patWin (b * patParts + i)] →
    (addrOf (obj .patWin 0) + BitVec.ofNat 48 (256 * (b * patParts + i))).toNat / 2 ^ 40 = blockOf (obj .patWin (b * patParts + i)) →
    Safety.Write s c w (obj .patWin (b * patParts + i)) (ofBytes data) →
    Safety.Gives (.patWindowWrite c (256 * (b * patParts + i)) data) s fun t =>
      Safety.Done t w [] ∧ Safety.RegsKept [.sessStatus, .patWin, .patStatus] s t ∧ bankState t b = pbWritten ∧
        Safety.Holds s t (obj .patWin (b * patParts + i)) (ofBytes data) ∧
        tabGet t.pat.shadow (b * patParts + i) 0 = rdWord t (obj .patWin (b * patParts + i)) ∧
        t.pat = { s.pat with shadow := t.pat.shadow, sweepFrom := t.pat.sweepFrom }) ∧
  (∀ (c : Hdr) (s : State) (w : Waiting), Safety.Sets s c w (obj .patCtl) PatCtl.SWAP 1 → rd s (obj .patCtl) PatCtl.ERASE = 0 →
    s.pat.verifying = false → s.pat.swapAt = none → Safety.Gives (.patSwap c) s fun t =>
      Safety.Done t w [] ∧ Safety.RegsKept [.sessStatus, .patCtl] s t ∧
      (bankState s (standby s) = pbWritten → t.pat = { s.pat with verifying := true }) ∧
      (bankState s (standby s) = pbReady → t.pat = { s.pat with swapAt := some (s.ct + 10000 * 65536) })) ∧
  (∀ s : State, s.pat.verifying = true →
    (imageFieldsOk s (standby s) = true → patDigestOk s (standby s) = true → Safety.Gives .patVerifyComplete s fun t =>
      bankState t (standby s) = pbReady ∧ Safety.RegsKept [.patStatus] s t ∧
        t.pat = { s.pat with verifying := false, swapAt := some (s.ct + 10000 * 65536), sweepFrom := t.pat.sweepFrom }) ∧
    (imageFieldsOk s (standby s) = false ∨ patDigestOk s (standby s) = false → Safety.Gives .patVerifyComplete s fun t =>
      bankState t (standby s) = pbBad ∧ t.pat = { s.pat with verifying := false } ∧ Safety.RegsKept (.patStatus :: Safety.raising) s t)) ∧
  (∀ (s : State) (at_ : Nat), s.pat.swapAt = some at_ → bankState s (standby s) = pbReady →
    Safety.Gives .patBankSwitch s fun t =>
      bankState t (standby s) = pbActive ∧ (∀ o, activeBank s = some o → bankState t o = pbDraining) ∧ t.pat.swapAt = none ∧ at_ ≤ t.ct ∧
        t.pat.damaged = [] ∧ t.pat.sweepFrom = some t.clock ∧ Safety.RegsKept (.patStatus :: Safety.telling) s t) ∧
  (∀ s : State, bankState s 0 = pbDraining → (∀ x ∈ s.eng.threads, x.2.patBank ≠ some 0) → Safety.Gives .patDrainEnd s fun t =>
    bankState t 0 = pbReady ∧ bankState t 1 = bankState s 1 ∧
      t = { s with regs := t.regs, pat := { s.pat with sweepFrom := t.pat.sweepFrom } }) ∧
  (∀ (c : Hdr) (s : State) (w : Waiting), Safety.Sets s c w (obj .patCtl) PatCtl.ERASE 1 → rd s (obj .patCtl) PatCtl.SWAP = 0 →
    Safety.Gives (.patErase c) s fun t =>
      Safety.Done t w [] ∧ bankState t (standby s) = pbEmpty ∧ t.pat.verifying = false ∧ t.pat.swapAt = none ∧
        (∀ i < patParts, rdWord t (obj .patWin (standby s * patParts + i)) = 0 ∧
          tabGet t.pat.shadow (standby s * patParts + i) 0 = 0) ∧ Safety.RegsKept [.sessStatus, .patCtl, .patStatus, .patWin] s t) ∧
  (∀ (s : State) (t : Fin 16384) (x : Thread) (k : Look), getThr s t.val = some x → x.look = some k → (∀ e ∈ s.eng.orphans, e.1 ≠ t.val) →
    (k.unit = .pat → k.phase = .accepted → patBad s x k = false → patDamaged s x k = false → needsFetch x k = true → scanWaits s x k = false →
      fetches s < 2048 → Safety.Gives (.billetFetchIssue t) s fun u =>
        getThr u t.val = some { x with look := some { k with phase := .fetching } } ∧ Safety.Counted .patCtr 5 0 1 s u ∧
          Safety.RegsKept (.patCtr :: Safety.telling) s u) ∧
    (k.phase = .fetching → Safety.Gives (.billetFetchComplete t) s fun u =>
      getThr u t.val = some { x with look := some { k with phase := .fetched } } ∧ u = { s with eng := { s.eng with threads := u.eng.threads } }) ∧
    (k.phase = .fetching → Safety.Gives (.fetchTimeout t) s fun u =>
      getThr u t.val = some { x with look := some { k with phase := .formed (if scanCut x k then 0x400000 else 0) false true } } ∧
        Safety.Counted .patCtr 0 0 1 s u ∧ Safety.RegsKept (.patCtr :: Safety.raising) s u) ∧
    (k.unit = .pat → k.phase = .fetched → x.hold = .ready ∨ x.hold = .result → patBad s x k = false → patDamaged s x k = false →
      scanWaits s x k = false → Safety.Gives (.lookupResult t .clean) s fun u =>
        Safety.Counted .patCtr 0 0 1 s u ∧
          (winner s (x.patBank.getD 0) (matching s x k) = none → getThr u t.val = some
            { x with hold := .ready, g := x.g.set k.rd (if scanCut x k then 0x400000 else 0), m := false, e := false, look := none }) ∧
          (∀ a tie, winner s (x.patBank.getD 0) (matching s x k) = some (a, tie) → Safety.Counted .patCtr 1 0 1 s u ∧
            ∃ r, r = patWord s (x.patBank.getD 0) a tie (scanCut x k) ∧ getThr u t.val = some
              { x with hold := .ready, g := x.g.set k.rd r, m := true, e := false, look := none,
                       cause := addrOf (obj .ruleEntry (r.toNat % 2 ^ 18)) }))) ∧
  (∀ (s : State) (b : Fin 2) (i : Nat), swept s b.val = true →
    (hbmReady s 0 = true → Safety.Gives (.shadowSweep (.mismatch b i)) s fun t =>
      Safety.Counted .patCtr 6 0 1 s t ∧ t.pat = s.pat ∧ rdWord t (wordPart s b.val i) = tabGet s.pat.shadow (wordPart s b.val i).idx 0 ∧
        (∀ k, k ≠ wordPart s b.val i → k.ty ∉ .patCtr :: Safety.raising → rdWord t k = rdWord s k)) ∧
    (i < 262144 → i < patRules s b.val → ∀ set < 64, getF (setEntry s b.val set) RuleSet.VALID = 1 → getF (ruleAt s b.val i) RuleEntry.SET = set →
      Safety.Gives (.shadowSweep (.bothBad b i)) s fun t => (b.val, set) ∈ t.pat.damaged ∧ Safety.RegsKept Safety.raising s t)) ∧
  (∀ s : State, s.pat.sweepFrom ≠ none → Safety.Gives (.shadowSweep .complete) s fun t =>
    t = { s with pat := { s.pat with sweptAt := some s.clock, sweepFrom := some s.clock } }) ∧
  (∀ s : State, s.pat.sweepFrom = none → Safety.Gives (.shadowSweep .complete) s fun t => t = s)

/-- The member that a flow takes (R132): of a group of N members and a 32-bit hash H the member floor(H[31:16] × N ÷ 65,536), counted from 0
in the order in which the members were written; it is always one of them. -/
def Obligations.MemberChoice : Prop :=
  ∀ (l : List Nat) (hash : Nat), l ≠ [] → hash < 2 ^ 32 →
    ∃ i, i = bitsAt hash 16 16 * l.length / 65536 ∧ i < l.length ∧ l[i]? = some (memberOf l hash)

/-! ## Chapter 6: line ports -/

/-- Link state (R178, R179, R181, R187 to R190, R200, R202, R203): a port whose condition comes to hold is HOLDING, its lanes shown in their
order and their settings in force, and leaves it when a fault is seen, with remote fault sent; after UP_HOLD it is up; after DOWN_HOLD it is
down, or HELD when it has gone down more than FLAP_MAX times in 10 s, its FLAPS counted and the port out of its aggregator's distribution;
after FLAP_HOLD the hold ends; ADMIN_UP starts bring-up, with the settings of the lanes, and its absence takes the port down with idle sent.
A port that goes down is one without a frame under way.
The model's readings in it: log entries 27 and 84. -/
def Obligations.LinkStates : Prop :=
  (∀ (p : Fin 48) (lanes : BitVec 8) (s : State), isEthernet s p.val = true → adminUp s p.val = true → portShed s p.val = false →
    identityOk s p.val = true → linkOf s p.val = lkDown → Safety.Gives (.pcsAlignmentChange p true false false lanes) s fun t =>
      linkOf t p.val = lkHolding ∧ rd t (lpS p.val) LpStatus.LANE_LOCK = laneLock s p.val lanes.toNat % 256 ∧
        rd t (lpS p.val) LpStatus.LOCAL_FAULT = 0 ∧ p.val ∈ t.line.cond ∧ tabGet? t.line.since p.val = some (ivl s) ∧
        (∀ l ∈ lanesOf s p.val, ∃ c, tabGet? t.line.lanes l = some (lanesTaken (rdWord s (obj .laneCtl l)) c)) ∧
        t = { s with regs := t.regs, free := t.free,
                     line := { s.line with cond := t.line.cond, since := t.line.since, lanes := t.line.lanes } } ∧
        Safety.RegsKept [.lpStatus] s t) ∧
  (∀ (p : Fin 48) (lanes : BitVec 8) (s : State), isEthernet s p.val = true → adminUp s p.val = true → linkOf s p.val = lkHolding →
    Safety.Gives (.pcsAlignmentChange p true true false lanes) s fun t =>
      linkOf t p.val = lkDown ∧ rd t (lpS p.val) LpStatus.LOCAL_FAULT = 1 ∧ p.val ∉ t.line.cond ∧
        t.out = .pdu p.val .remoteFault [] :: s.out ∧ Safety.RegsKept [.lpStatus] s t) ∧
  (∀ (p : Fin 48) (s : State), linkOf s p.val = lkHolding → mayRise s p.val = true → Safety.Gives (.linkUp p) s fun t =>
    linkOf t p.val = lkUp ∧ (∀ q < 48, q ≠ p.val → linkOf t q = linkOf s q) ∧ Safety.RegsKept (.lpStatus :: Safety.raising) s t ∧
    ∀ t0, tabGet? s.line.since p.val = some t0 → s.time.stepped ≤ (s.ct : Int) →
      t0 + rd s (lpK p.val) LpCtl.UP_HOLD * ms * 65536 ≤ ivl t) ∧
  (∀ (p : Fin 48) (s u : State), linkOf s p.val = lkUp → portCond s p.val = false → Safety.NoneUnderWay s p.val →
    u = waited p.val (rd s (lpK p.val) LpCtl.DOWN_HOLD * ms) s → Safety.Gives (.linkDown p) s fun t =>
    linkOf t p.val = (if rd s (lpK p.val) LpCtl.FLAP_MAX ≠ 0 ∧ rd s (lpK p.val) LpCtl.FLAP_MAX < (flapsOf u p.val).length + 1
      then lkHeld else lkDown) ∧
    rd t (lpS p.val) LpStatus.FLAPS = min ((flapsOf u p.val).length + 1) 255 ∧
    (∀ t0, tabGet? s.line.since p.val = some t0 → s.time.stepped ≤ (s.ct : Int) →
      t0 + rd s (lpK p.val) LpCtl.DOWN_HOLD * ms * 65536 ≤ ivl t) ∧
    (aggOf s p.val ≠ none → rd t (lpS p.val) LpStatus.DISTRIBUTING = 0) ∧
    Safety.RegsKept (.lpStatus :: .ptStatus :: Safety.raising) s t) ∧
  (∀ (p : Fin 48) (s : State), linkOf s p.val = lkHeld → Safety.Gives (.flapHoldExpire p) s fun t =>
    linkOf t p.val = (if mayRise s p.val then lkHolding else lkDown) ∧ Safety.RegsKept (.lpStatus :: Safety.telling) s t ∧
    ∀ t0, tabGet? s.line.since p.val = some t0 → s.time.stepped ≤ (s.ct : Int) →
      t0 + rd s (lpK p.val) LpCtl.FLAP_HOLD * sec * 65536 ≤ ivl t) ∧
  (∀ (c : Hdr) (p : Fin 48) (s : State) (w : Waiting), Safety.Sets s c w (lpK p.val) LpCtl.ADMIN_UP 1 → adminUp s p.val = false →
    Safety.Gives (.portAdminUp c p) s fun t =>
      Safety.Done t w [] ∧ adminUp t p.val = true ∧
        linkOf t p.val = (if !portShed s p.val && identityOk s p.val && portCond s p.val then lkHolding else lkDown) ∧
        (∀ l ∈ lanesOf s p.val, ∃ c, tabGet? t.line.lanes l = some (lanesTaken (rdWord s (obj .laneCtl l)) c)) ∧
        Safety.RegsKept (.lpCtl :: .lpStatus :: Safety.raising) s t) ∧
  (∀ (c : Hdr) (p : Fin 48) (s : State) (w : Waiting), Safety.Sets s c w (lpK p.val) LpCtl.ADMIN_UP 0 → adminUp s p.val = true →
    Safety.NoneUnderWay s p.val →
    Safety.Gives (.portAdminDown c p) s fun t =>
      Safety.Done t w [] ∧ adminUp t p.val = false ∧ linkOf t p.val = lkDown ∧ p.val ∉ t.line.cond ∧
        Out.pdu p.val .idle [] ∈ t.out ∧ Safety.RegsKept (.lpCtl :: .lpStatus :: .ptStatus :: Safety.raising) s t)

/-- Frames received and sent (R26, R182 to R184, R186, R188, R205, R334, R423, R484): a good frame, on a port without MACsec, is counted, draws
its billets from its pool and waits for dispatch; runts, PCS and FEC errors, MAC control and slow-protocol frames are counted where R182 and
R183 say, and a BFD frame or a PTP message to the service waits for its service; a PFC frame pauses or releases the classes it names, and the
pause ends with its quanta; the MAC sends the first frame that waits and counts it, drops a bad one, and ends one in cut-through that runs dry
with an inverted FCS; a port that is not up discards what waits.
The model's readings in it: log entries 25, 26, 28, 38 and 88. -/
def Obligations.FramesReceivedAndSent : Prop :=
  (∀ (p : Fin 48) (f : LineFrame) (s : State), isEthernet s p.val = true → inSafe s = false → portUp s p.val = true →
    silent s p.val = false → portCond s p.val = true →
    (f.bad64 = true → Safety.Gives (.frameReceive p .whole f) s fun t =>
      Safety.Counted .lpCtr p.val 2 1 s t ∧ Safety.Told s t ∧ Safety.RegsKept (.lpCtr :: Safety.telling) s t) ∧
    (f.bad64 = false → f.len < 64 → Safety.Gives (.frameReceive p .whole f) s fun t =>
      Safety.Counted .lpCtr p.val 3 1 s t ∧ Safety.Told s t ∧ Safety.RegsKept (.lpCtr :: Safety.telling) s t) ∧
    (f.bad64 = false → 64 ≤ f.len → f.bufBad = false → flag s (msK p.val) MsPort.EN = false → fifoOf s p.val = [] →
      f.content.etherType = 0x8808 → f.content.opcode ≠ 0x0101 → Safety.Gives (.frameReceive p .whole f) s fun t =>
        Safety.RegsKept (.lpCtr :: Safety.telling) s t ∧ Safety.Counted .lpCtr p.val 5 1 s t ∧
        (f.fecWords ≠ 0 → Safety.Counted .lpCtr p.val 12 f.fecWords s t) ∧
        (f.fecBad = true → Safety.Counted .lpCtr p.val 13 1 s t) ∧
        (f.fecBad = false → f.pcsBad = true → Safety.Counted .lpCtr p.val 2 1 s t) ∧
        (f.fecBad = false → f.pcsBad = false → maxFrame s p.val < f.len → Safety.Counted .lpCtr p.val 4 1 s t) ∧
        (f.fecBad = false → f.pcsBad = false → f.len ≤ maxFrame s p.val → f.fcsOk = false → Safety.Counted .lpCtr p.val 2 1 s t)) ∧
    (f.bad64 = false → f.fecBad = false → f.pcsBad = false → f.fcsOk = true → f.bufBad = false → 64 ≤ f.len → f.len ≤ maxFrame s p.val →
      f.fecWords = 0 → f.fecSyms = 0 → f.ring = [] → flag s (msK p.val) MsPort.EN = false → fifoOf s p.val = [] →
      (f.content.etherType ≠ 0x8808 → f.content.etherType ≠ 0x8809 →
        ¬ (isBfd f.content.window.toNat = true ∧ flag s (lpK p.val) LpCtl.BFD_DIVERT = true) →
        ¬ (f.content.toPtp = true ∧ rd s (obj .ptCtl p.val) PtCtl.PTP_MODE = 1) →
        billetsOf f.len ≤ mayDraw s (arrivalPool s p.val f.content) → (dispOf s p.val).length < dispatchRoom s p.val →
        Safety.Gives (.frameReceive p .whole f) s fun t =>
          Safety.Counted .lpCtr p.val 0 1 s t ∧ Safety.Counted .lpCtr p.val 1 f.len s t ∧
          occ t (arrivalPool s p.val f.content) = occ s (arrivalPool s p.val f.content) + billetsOf f.len ∧
          (∃ n x, dispOf t p.val = dispOf s p.val ++ [n] ∧ getPkt t n = some x ∧ x.len = f.len ∧ x.arrPort = p.val ∧ x.bad = false ∧
            x.content = f.content ∧ x.pool = arrivalPool s p.val f.content) ∧
          Safety.RegsKept (.lpCtr :: .poolStatus :: .poolCtr :: .bufStatus :: Safety.telling) s t) ∧
      (f.content.etherType = 0x8808 → f.content.opcode = 0x0101 → Safety.Gives (.frameReceive p .whole f) s fun t =>
        Safety.Counted .lpCtr p.val 6 1 s t ∧ t.buf = s.buf ∧ Safety.RegsKept (.lpCtr :: Safety.telling) s t ∧
        ∀ n < 8, tabGet? t.que.paused (8 * p.val + n) =
          (if f.content.pfcEn.getLsbD n && (rd s (lpK p.val) LpCtl.PFC_RX).testBit n then
            (if (f.content.quanta.getD n 0).toNat = 0 then none
              else some (ivl s + (f.content.quanta.getD n 0).toNat * 512 * 1000 * 65536 / rateMb s p.val))
            else tabGet? s.que.paused (8 * p.val + n))) ∧
      (f.content.etherType = 0x8809 → aggOf s p.val = none → Safety.Gives (.frameReceive p .whole f) s fun t =>
        Safety.Counted .lpCtr p.val 15 1 s t ∧ Safety.Told s t ∧ Safety.RegsKept (.lpCtr :: Safety.telling) s t) ∧
      (f.content.etherType = 0x8809 → aggOf s p.val ≠ none → Safety.Gives (.frameReceive p .whole f) s fun t =>
        tabGet t.line.slowQ p.val 0 = tabGet s.line.slowQ p.val 0 + 1 ∧ t = { s with line := { s.line with slowQ := t.line.slowQ } }) ∧
      (f.content.etherType ≠ 0x8808 → f.content.etherType ≠ 0x8809 → isBfd f.content.window.toNat = true →
        flag s (lpK p.val) LpCtl.BFD_DIVERT = true → tabGet s.line.divertQ p.val 0 < 1024 →
        Safety.Gives (.frameReceive p .whole f) s fun t =>
          tabGet t.line.divertQ p.val 0 = tabGet s.line.divertQ p.val 0 + 1 ∧
            t = { s with line := { s.line with divertQ := t.line.divertQ } }) ∧
      (f.content.etherType ≠ 0x8808 → f.content.etherType ≠ 0x8809 → isBfd f.content.window.toNat = false → f.content.toPtp = true →
        rd s (obj .ptCtl p.val) PtCtl.PTP_MODE = 1 → (ptOf s p.val).divert < 512 → Safety.Gives (.frameReceive p .whole f) s fun t =>
          Safety.Counted .lpCtr p.val 0 1 s t ∧ Safety.Counted .lpCtr p.val 1 f.len s t ∧
          (ptOf t p.val).divert = (ptOf s p.val).divert + 1 ∧ Safety.RegsKept (.lpCtr :: Safety.telling) s t))) ∧
  (∀ (p : Fin 48) (f : LineFrame) (s : State), isEthernet s p.val = true → inSafe s = true →
    Safety.Gives (.frameReceive p .whole f) s fun t =>
      Safety.Counted .fltCtr 0 6 1 s t ∧ Safety.Told s t ∧ Safety.RegsKept (.fltCtr :: Safety.telling) s t) ∧
  (∀ (p : Fin 48) (tc : Fin 8) (s : State) (t0 : Nat), tabGet? s.que.paused (8 * p.val + tc.val) = some t0 →
    s.time.stepped ≤ (s.ct : Int) → Safety.Gives (.pfcPauseExpire p tc) s fun t =>
      tabGet? t.que.paused (8 * p.val + tc.val) = none ∧ t0 ≤ ivl t ∧ Safety.RegsKept Safety.telling s t) ∧
  (∀ (p : Fin 48) (s : State) (f : TxFrame) (rest : List TxFrame) (r : Ref) (a d : Nat), isEthernet s p.val = true → inSafe s = false →
    portUp s p.val = true → silent s p.val = false → gateInForce s p.val = false → flag s (msK p.val) MsPort.EN = false →
    tabGet? s.line.sending p.val = none → txOf s p.val = f :: rest → f.body = .packet r a none d → f.open_ = false →
    (f.bad = false → pausedOn s p.val f.tc = false → overtakes s p.val f = false → Safety.Gives (.frameTransmit p .whole) s fun t =>
      txOf t p.val = (rest.filter fun g => !g.bad) ∧ Out.frame p.val r f.win f.len none none false ∈ t.out ∧
        Safety.Counted .lpCtr p.val 8 1 s t ∧ Safety.Counted .lpCtr p.val 9 f.len s t ∧
        Safety.RegsKept (.lpCtr :: Safety.telling) s t) ∧
    (f.bad = true → rest = [] → ∀ fate, Safety.Gives (.frameTransmit p fate) s fun t =>
      txOf t p.val = [] ∧ t = { s with que := { s.que with tx := t.que.tx } })) ∧
  (∀ (p : Fin 48) (s : State) (x : Sending) (r : Ref) (y : Packet) (a d n : Nat) (c : Option (BitVec 64)), isEthernet s p.val = true →
    inSafe s = false → portUp s p.val = true → silent s p.val = false → tabGet? s.line.sending p.val = some x →
    x.frame.body = .packet r a c d → getPkt s r.pkt = some y → (if r.lease then y.leases ≠ 0 else y.owner = r.from_) →
    Safety.Gives (.frameTransmit p (.underrun n)) s fun t =>
      tabGet? t.line.sending p.val = none ∧ Out.frame p.val r x.frame.win (min n x.len) x.pn x.corr true ∈ t.out ∧
        Safety.Counted .lpCtr p.val 10 1 s t ∧ Safety.Counted .lpCtr p.val 11 1 s t ∧ Safety.Counted .lpCtr p.val 9 (min n x.len) s t ∧
        Safety.RegsKept (.lpCtr :: .poolStatus :: .bufStatus :: Safety.telling) s t) ∧
  (∀ (p : Fin 48) (s : State) (fate : TxFate), portUp s p.val = false → Safety.Gives (.frameTransmit p fate) s fun t =>
    txOf t p.val = [] ∧ tabGet? t.line.sending p.val = none ∧
      Safety.RegsKept (.lpCtr :: .poolStatus :: .poolGctr :: .bufStatus :: Safety.raising) s t)

/-- Optics (R191 to R194, R203): a module that answers is read, and one that does not is ABSENT; what the read returns makes its identity
VALID, INVALID, MISMATCH or UNREADABLE, and a VALID one is driven where MOD_MGMT asks for it; a transaction is retried three times, anew
after each that comes through; a bus that recovery does not free leaves use until a later recovery frees it; an access runs from GO, a write
with the first LEN bytes of its data, to its RESULT, and a read fills those bytes.
The model's readings in it: log entries 29 and 85. -/
def Obligations.Optics : Prop :=
  (∀ (ch : Fin 128) (p : Nat) (s : State), ch.val < 64 → usersOf s ch.val = [p] → ch.val / 16 ∉ s.line.busOut →
    (rd s (lpS p) LpStatus.ID_STATE = 0 → Safety.Gives (.modulePoll ch true) s fun t =>
      rd t (lpS p) LpStatus.ID_STATE = 1 ∧ ch.val ∈ t.line.reading ∧ tabGet? t.line.retries ch.val = none ∧
        Safety.RegsKept [.lpStatus] s t ∧ t = { s with regs := t.regs, free := t.free, line := t.line }) ∧
    (Safety.Gives (.modulePoll ch false) s fun t =>
      rd t (lpS p) LpStatus.ID_STATE = 0 ∧ ch.val ∉ t.line.reading ∧ Safety.RegsKept [.lpStatus] s t)) ∧
  (∀ (ch : Fin 128) (p : Nat) (r : IdentityRead) (s : State), ch.val < 64 → usersOf s ch.val = [p] → ch.val ∈ s.line.reading →
    rd s (lpS p) LpStatus.ID_STATE = 1 → Safety.Gives (.identityReadComplete ch r) s fun t =>
      ch.val ∉ t.line.reading ∧ Safety.RegsKept (.lpStatus :: .idMirror :: Safety.raising) s t ∧
      (r.readOk = false → rd t (lpS p) LpStatus.ID_STATE = 5) ∧
      (r.readOk = true → rdWord t (obj .idMirror p) = r.bytes.toNat ∧
        tabGet? t.line.apps p = some r.appMatch.toNat ∧
        (∀ sum, sum = ((List.range' 128 94).map (idByte r.bytes.toNat)).sum % 256 → rd t (lpS p) LpStatus.ID_STATE =
          if 0x40 ≤ idByte r.bytes.toNat 1 ∧ idByte r.bytes.toNat 1 ≤ 0x5F ∧ idByte r.bytes.toNat 222 = sum
          then (if r.appMatch.toNat.testBit (portMode s p) then 2 else 4) else 3) ∧
        (flag s (lpK p) LpCtl.MOD_MGMT = true → rd t (lpS p) LpStatus.ID_STATE = 2 →
          Out.cmis p (moduleOf s p) (portMode s p) (rd s (lpK p) LpCtl.MOD_LANE) ∈ t.out))) ∧
  (∀ (ch : Fin 128) (s : State), ch.val / 16 ∉ s.line.busOut →
    (tabGet s.line.retries ch.val 0 < 3 → Safety.Gives (.twbTimeout ch .timeout) s fun t =>
      tabGet t.line.retries ch.val 0 = tabGet s.line.retries ch.val 0 + 1 ∧
        t = { s with line := { s.line with retries := t.line.retries } }) ∧
    (∀ p, ch.val < 64 → usersOf s ch.val = [p] → rd s (lpS p) LpStatus.ID_STATE = 1 → ch.val ∈ s.line.reading →
      3 ≤ tabGet s.line.retries ch.val 0 → Safety.Gives (.twbTimeout ch .noAck) s fun t =>
      rd t (lpS p) LpStatus.ID_STATE = 5 ∧ ch.val ∉ t.line.reading ∧ Safety.RegsKept (.lpStatus :: Safety.raising) s t) ∧
    (Safety.Gives (.twbTimeout ch (.sdaLow false)) s fun t =>
      ch.val / 16 ∈ t.line.busOut ∧ Out.busClear (ch.val / 16) ∈ t.out ∧ Safety.RegsKept Safety.raising s t)) ∧
  (∀ (b : Fin 8) (s : State),
    (b.val ∈ s.line.busOut → Safety.Gives (.twbRecovery b true) s fun t => (∀ x, x ∈ t.line.busOut ↔ x ∈ s.line.busOut ∧ x ≠ b.val) ∧
      t = { s with line := { s.line with busOut := t.line.busOut }, out := .busClear b.val :: s.out }) ∧
    (b.val ∈ s.line.busOut → Safety.Gives (.twbRecovery b false) s fun t => t = { s with out := .busClear b.val :: s.out }) ∧
    (b.val ∉ s.line.busOut → ∀ ok, Safety.Gives (.twbRecovery b ok) s fun t => t = s)) ∧
  (∀ (c : Hdr) (b : Fin 4) (s : State) (w : Waiting), Safety.Sets s c w (obj .modCtl b.val) ModCtl.GO 1 →
    Safety.Gives (.moduleAccessGo c b) s fun t =>
      Safety.Answered [.modCtl] s t w [] ∧ flag t (obj .modCtl b.val) ModCtl.BUSY = true ∧
      (flag s (obj .modCtl b.val) ModCtl.WRITE = true → b.val ∉ s.line.busOut →
        Out.moduleWrite (16 * b.val + rd s (obj .modCtl b.val) ModCtl.CH) (rd s (obj .modCtl b.val) ModCtl.BANK)
          (rd s (obj .modCtl b.val) ModCtl.PAGE) (rd s (obj .modCtl b.val) ModCtl.OFFSET)
          ((toBytes 128 (rdWord s (obj .modData b.val))).take (rd s (obj .modCtl b.val) ModCtl.LEN)) ∈ t.out)) ∧
  (∀ (b : Fin 4) (data : BitVec 1024) (s : State), flag s (obj .modCtl b.val) ModCtl.BUSY = true → b.val ∉ s.line.busOut →
    rd s (obj .modCtl b.val) ModCtl.LEN ≤ 128 →
    (Safety.Gives (.moduleAccessComplete b .done data) s fun t =>
      flag t (obj .modCtl b.val) ModCtl.BUSY = false ∧ rd t (obj .modCtl b.val) ModCtl.RESULT = 0 ∧
        t = { s with regs := t.regs, line := { s.line with retries := t.line.retries } } ∧
        Safety.RegsKept [.modCtl, .modData] s t ∧
        (flag s (obj .modCtl b.val) ModCtl.WRITE = false →
          rdWord t (obj .modData b.val) / 2 ^ (1024 - 8 * rd s (obj .modCtl b.val) ModCtl.LEN) =
            data.toNat / 2 ^ (1024 - 8 * rd s (obj .modCtl b.val) ModCtl.LEN)) ∧
        (flag s (obj .modCtl b.val) ModCtl.WRITE = true → rdWord t (obj .modData b.val) = rdWord s (obj .modData b.val))) ∧
    (∀ r n, (r, n) ∈ [(ModResult.noAck, 1), (.timeout, 2), (.busOut, 3)] → Safety.Gives (.moduleAccessComplete b r data) s fun t =>
      flag t (obj .modCtl b.val) ModCtl.BUSY = false ∧ rd t (obj .modCtl b.val) ModCtl.RESULT = n ∧ t = { s with regs := t.regs } ∧
        Safety.RegsKept [.modCtl] s t))

/-- BFD and LACP (R195 to R200, R204, R205): a session starts Down when enabled and stops when disabled; a packet moves its state by RFC 5880,
starts its timer and gives the remote discriminator, a bad one is counted; the session's own packet is its template and its control packet,
and the next is due after the interval less 0 to 25 %, or 10 to 25 %; an expiry of the detection time makes it Down with diagnostic 1 and
takes a micro-BFD member out of distribution. LACP runs on the members of an enabled aggregator, hears and loses partners, answers markers,
and sends its own PDUs.
The model's readings in it: log entries 30 and 31. -/
def Obligations.BfdAndLacp : Prop :=
  (∀ (c : Hdr) (i : Fin 16384) (s : State) (w : Waiting),
    (Safety.Sets s c w (bfK i.val) BfdSess.ADMIN 1 → rd s (bfK i.val) BfdSess.ADMIN = 0 →
      Safety.Gives (.bfdSessionAdmin c i 1) s fun t =>
        Safety.Done t w [] ∧ rd t (bfK i.val) BfdSess.ADMIN = 1 ∧ rd t (bfK i.val) BfdSess.STATE = 1 ∧
          (bfdRun t i.val).timer = false ∧ Safety.RegsKept [.bfdSess, .sessStatus] s t) ∧
    (Safety.Sets s c w (bfK i.val) BfdSess.ADMIN 0 → rd s (bfK i.val) BfdSess.ADMIN = 1 →
      Safety.Gives (.bfdSessionAdmin c i 0) s fun t =>
        Safety.Done t w [] ∧ rd t (bfK i.val) BfdSess.ADMIN = 0 ∧ rd t (bfK i.val) BfdSess.STATE = 0 ∧
          Safety.RegsKept [.bfdSess, .sessStatus] s t)) ∧
  (∀ (p : Fin 48) (b : BfdPacket) (s : State), tabGet s.line.divertQ p.val 0 ≠ 0 →
    (bfdBad b = true → Safety.Gives (.bfdPacketReceive p b) s fun t =>
      Safety.Counted .svcCtr 0 0 1 s t ∧ Safety.Counted .svcCtr 2 0 1 s t ∧ tabGet t.line.divertQ p.val 0 + 1 = tabGet s.line.divertQ p.val 0 ∧
        Safety.RegsKept (.svcCtr :: Safety.telling) s t) ∧
    (bfdBad b = false → bfdTarget s p.val b = none → Safety.Gives (.bfdPacketReceive p b) s fun t =>
      Safety.Counted .svcCtr 0 0 1 s t ∧ Safety.Counted .svcCtr 3 0 1 s t ∧ Safety.RegsKept (.svcCtr :: Safety.telling) s t) ∧
    (∀ i st dg, bfdBad b = false → bfdTarget s p.val b = some i → ttlBad s i b = false →
      bfdNext (rd s (bfK i) BfdSess.STATE) (rd s (bfK i) BfdSess.DIAG) b.state.toNat = (st, dg) →
      Safety.Gives (.bfdPacketReceive p b) s fun t =>
        rd t (bfK i) BfdSess.STATE = st ∧ rd t (bfK i) BfdSess.REMOTE_DISC = b.myDisc.toNat ∧ (bfdRun t i).timer = true ∧
          (b.poll = false → Safety.RegsKept (.svcCtr :: .bfdSess :: .lpStatus :: Safety.telling) s t))) ∧
  (∀ (i : Fin 16384) (p : Nat) (s : State), rd s (bfK i.val) BfdSess.ADMIN = 1 → rd s (bfK i.val) BfdSess.PORT = p → isEthernet s p = true →
    portUp s p = true → inSafe s = false → silent s p = false → gateInForce s p = false → flag s (msK p) MsPort.EN = false →
    Safety.Gives (.bfdTransmit i) s fun t =>
      Safety.Counted .svcCtr 1 0 1 s t ∧ Safety.Counted .lpCtr p 8 1 s t ∧ Safety.RegsKept (.svcCtr :: .lpCtr :: Safety.telling) s t ∧
        Out.pdu p .bfd (bfdBytes s i.val) ∈ t.out ∧
        (s.time.stepped ≤ (s.ct : Int) → (tabGet? s.line.bfd i.val).isSome = true → (bfdRun s i.val).due ≤ ivl t) ∧
        ∃ cut ≤ 250, (rd s (bfK i.val) BfdSess.DETECT_MULT = 1 → 100 ≤ cut) ∧
          (bfdRun t i.val).due = ivl t + bfdEvery s i.val * 65536 * (1000 - cut)) ∧
  (∀ (i : Fin 16384) (s : State), rd s (bfK i.val) BfdSess.ADMIN = 1 → (bfdRun s i.val).timer = true →
    Safety.Gives (.bfdDetectExpire i) s fun t =>
      rd t (bfK i.val) BfdSess.STATE = 1 ∧ rd t (bfK i.val) BfdSess.DIAG = 1 ∧ rd t (bfK i.val) BfdSess.REMOTE_DISC = 0 ∧
        (bfdRun t i.val).timer = false ∧
        (s.time.stepped ≤ (s.ct : Int) → (bfdRun s i.val).last + bfdDetect (bfdRun s i.val) * 1000 * 65536 ≤ ivl t) ∧
        (rd s (bfK i.val) BfdSess.STATE ≠ 1 → Safety.Counted .svcCtr 4 0 1 s t) ∧
        (rd s (bfK i.val) BfdSess.STATE ≠ 1 → rd s (bfK i.val) BfdSess.TYPE = 2 → rd s (bfK i.val) BfdSess.PORT < 48 →
          aggOf s (rd s (bfK i.val) BfdSess.PORT) ≠ none → rd t (lpS (rd s (bfK i.val) BfdSess.PORT)) LpStatus.DISTRIBUTING = 0) ∧
        Safety.RegsKept (.bfdSess :: .svcCtr :: .lpStatus :: Safety.telling) s t) ∧
  (∀ (c : Hdr) (a : Fin 24) (m : BitVec 48) (s : State) (w : Waiting),
    (Safety.Write s c w (agK a.val) (putF (putF (rdWord s (agK a.val)) AggCtl.EN 1) AggCtl.MEMBERS m.toNat) →
      Safety.Gives (.aggregatorEnable c a true m) s fun t =>
        Safety.Done t w [] ∧ (∀ p < 48, m.getLsbD p = true → aggOf t p = some a.val) ∧
          Safety.RegsKept (.aggCtl :: .lpStatus :: Safety.telling) s t) ∧
    (Safety.Write s c w (agK a.val) (putF (putF (rdWord s (agK a.val)) AggCtl.EN 0) AggCtl.MEMBERS m.toNat) →
      Safety.Gives (.aggregatorEnable c a false m) s fun t =>
        Safety.Done t w [] ∧ (∀ p < 48, aggOf s p = some a.val → aggOf t p = none ∧ rd t (lpS p) LpStatus.DISTRIBUTING = 0) ∧
          Safety.RegsKept (.aggCtl :: .lpStatus :: Safety.telling) s t)) ∧
  (∀ (p : Fin 48) (l : Lacpdu) (s : State), tabGet s.line.slowQ p.val 0 ≠ 0 →
    ((recent s (tabGet s.line.slowAt p.val []) sec).length < 20 → Safety.Gives (.lacpduReceive p l) s fun t =>
      tabGet? t.line.partner p.val = some ⟨l, ivl s⟩ ∧ Safety.Counted .svcCtr 5 0 1 s t ∧
        tabGet t.line.slowQ p.val 0 + 1 = tabGet s.line.slowQ p.val 0 ∧ Safety.RegsKept (.svcCtr :: .lpStatus :: Safety.telling) s t) ∧
    (20 ≤ (recent s (tabGet s.line.slowAt p.val []) sec).length → Safety.Gives (.lacpduReceive p l) s fun t =>
      Safety.Counted .lpCtr p.val 15 1 s t ∧ t.line.partner = s.line.partner ∧ Safety.RegsKept (.lpCtr :: Safety.telling) s t) ∧
    ((recent s (tabGet s.line.slowAt p.val []) sec).length < 20 → isEthernet s p.val = true → portUp s p.val = true → inSafe s = false → silent s p.val = false →
      gateInForce s p.val = false → Safety.Gives (.markerPduReceive p) s fun t =>
      Out.pdu p.val .marker [] ∈ t.out ∧ Safety.Counted .svcCtr 7 0 1 s t ∧ Safety.RegsKept (.svcCtr :: .lpCtr :: Safety.telling) s t)) ∧
  (∀ (p : Fin 48) (a : Nat) (s : State), aggOf s p.val = some a →
    (flag s (agK a) AggCtl.ACTIVE = true → isEthernet s p.val = true → portUp s p.val = true → inSafe s = false → silent s p.val = false → gateInForce s p.val = false →
      Safety.Gives (.lacpPeriodic p) s fun t =>
        (∃ l, Out.pdu p.val .lacp l ∈ t.out) ∧ Safety.Counted .svcCtr 6 0 1 s t ∧ Safety.Counted .lpCtr p.val 8 1 s t ∧
          Safety.RegsKept (.svcCtr :: .lpCtr :: Safety.telling) s t) ∧
    (Safety.Gives (.lacpTimeout p) s fun t =>
      tabGet? t.line.partner p.val = none ∧ rd t (lpS p.val) LpStatus.SELECTED = 0 ∧ rd t (lpS p.val) LpStatus.DISTRIBUTING = 0 ∧
        (∀ x, tabGet? s.line.partner p.val = some x → s.time.stepped ≤ (s.ct : Int) →
          x.at_ + (if flag s (agK a) AggCtl.FAST then 3 else 90) * sec * 65536 ≤ ivl t) ∧
        Safety.RegsKept (.lpStatus :: Safety.telling) s t))

/-! ## Chapter 7: transport framing -/

/-- Frames and defects (R211, R213, R215, R217, R218, R224 to R226, R232, R234): a received OTUC frame counts its errored blocks and BEI, is
answered with BEI, follows its alignment, leaves a TTI that comes three times in a row as accepted, and its slots pass to the transmit slots
of their tributaries; a page entry that cannot be read is unequipped, and a port left without packet slots is down; GFP hunts, presyncs and
syncs, and in SYNC handles each frame as R218 says; a defect that may be declared or cleared is so in the status object, with its consequent
actions and the overhead they change; the client management frame goes while the packet tributary fails.
The model's readings in it: log entries 32, 34, 86 and 87. -/
def Obligations.FramesAndDefects : Prop :=
  (∀ (p : Fin 48) (f : OtuFrame) (s : State), isFramed s p.val = true → adminUp s p.val = true → 20 * f.inst.val < tribSlots s p.val →
    f.entryBad = none → Safety.Gives (.otuFrameReceive p f) s fun t =>
      (f.smBip ≠ 0 → Safety.Counted .tfuCtr p.val 0 1 s t ∧ ∃ l, Out.pdu p.val .bei (f.inst.val :: f.smBip.val :: l) ∈ t.out) ∧
      (1 ≤ f.smBei.toNat → f.smBei.toNat ≤ 8 → Safety.Counted .tfuCtr p.val 1 f.smBei.toNat s t) ∧
      (8 < f.smBei.toNat → rdWord t (Safety.counter .tfuCtr p.val 1) = rdWord s (Safety.counter .tfuCtr p.val 1)) ∧
      (f.pmBip ≠ 0 → Safety.Counted .tfuCtr p.val 2 1 s t) ∧
      (1 ≤ f.pmBei.toNat → f.pmBei.toNat ≤ 8 → Safety.Counted .tfuCtr p.val 3 f.pmBei.toNat s t) ∧
      tabGet t.tfu.fas (8 * p.val + f.inst.val) (0, false) = follow 2 (tabGet s.tfu.fas (8 * p.val + f.inst.val) (0, false)) f.fasOk ∧
      (∀ v, f.inst = 0 → f.smTti = some v → rdWord t (obj .tti (8 * p.val + 6)) =
        if sigIs s p.val .smTti v.toNat 2 then v.toNat else rdWord s (obj .tti (8 * p.val + 6))) ∧
      (∀ v, f.inst = 0 → f.pmTti = some v → rdWord t (obj .tti (8 * p.val + 7)) =
        if sigIs s p.val .pmTti v.toNat 2 then v.toNat else rdWord s (obj .tti (8 * p.val + 7))) ∧
      (∀ x, f.tribBad = some x → ∀ q ∈ portsOfTrib s x.toNat, Out.pdu q .oduAis [x.toNat] ∈ t.out) ∧
      (f.tribBad = none → ∀ x ∈ f.slots, x.1.val / 20 = f.inst.val → ∀ e ∈ entriesFrom s p.val x.1.val, adminUp s e.1 = true →
        maintOf s e.1 = 0 → Out.slot e.1 e.2.1 (if s.tfu.aisTrib.contains e.2.2 then none else some x.2) ∈ t.out) ∧
      (f.tribBad = none → Safety.RegsKept (.tfuCtr :: .tti :: Safety.telling) s t) ∧
      Safety.RegsKept (.tfuCtr :: .tti :: Safety.raising) s t) ∧
  (∀ (p : Fin 48) (f : OtuFrame) (sl : Fin 160) (s : State), isFramed s p.val = true → adminUp s p.val = true →
    20 * f.inst.val < tribSlots s p.val → f.entryBad = some sl → Safety.Gives (.otuFrameReceive p f) s fun t =>
      (entK (pageAt s p.val) p.val sl.val).idx ∈ t.tfu.lostEnt ∧
      rd t (frS p.val) FrStatus.PKT_SLOTS =
        ((List.range 160).filter fun i => (packetSlots t (pageAt s p.val) p.val).testBit i).length ∧
      (packetSlots s (pageAt s p.val) p.val ≠ 0 → packetSlots t (pageAt s p.val) p.val = 0 → linkOf t p.val = lkDown) ∧
      (Safety.NoneUnderWay s p.val →
        Safety.RegsKept (.tfuCtr :: .tti :: .frStatus :: .lpStatus :: .ptStatus :: Safety.raising) s t)) ∧
  (∀ (p : Fin 48) (f : GfpFrame) (w : Nat) (s : State), workOf s p.val = some w → rd s (frS w) FrStatus.PKT_SLOTS ≠ 0 → adminUp s w = true →
    (rd s (frS w) FrStatus.GFP_STATE = 0 → f.chec = .ok → Safety.Gives (.gfpFrameReceive p f) s fun t =>
      rd t (frS w) FrStatus.GFP_STATE = 1 ∧ Safety.RegsKept [.frStatus] s t) ∧
    (rd s (frS w) FrStatus.GFP_STATE = 1 → f.chec = .ok → rd s (frK w) FrCtl.DELTA ≤ tabGet s.tfu.presync w 0 + 1 →
      Safety.Gives (.gfpFrameReceive p f) s fun t =>
        rd t (frS w) FrStatus.GFP_STATE = 2 ∧ rd t (frS w) FrStatus.LFD = 0 ∧
          Safety.RegsKept (.frStatus :: .lpStatus :: Safety.telling) s t) ∧
    (rd s (frS w) FrStatus.GFP_STATE = 1 → f.chec ≠ .ok → Safety.Gives (.gfpFrameReceive p f) s fun t =>
      rd t (frS w) FrStatus.GFP_STATE = 0 ∧ Safety.RegsKept [.frStatus] s t) ∧
    (rd s (frS w) FrStatus.GFP_STATE = 2 → f.chec = .multi → Safety.Gives (.gfpFrameReceive p f) s fun t =>
      rd t (frS w) FrStatus.GFP_STATE = 0 ∧ rd t (frS w) FrStatus.LFD = 1 ∧ Safety.Counted .tfuCtr w 7 1 s t ∧
        Safety.RegsKept (.tfuCtr :: .frStatus :: .lpStatus :: Safety.telling) s t) ∧
    (rd s (frS w) FrStatus.GFP_STATE = 2 → f.chec = .ok → f.cut = false →
      (f.pli < 4 → Safety.Gives (.gfpFrameReceive p f) s fun t => t = s) ∧
      (4 ≤ f.pli → f.thec = .multi → Safety.Gives (.gfpFrameReceive p f) s fun t =>
        Safety.Counted .tfuCtr w 8 1 s t ∧ Safety.Told s t ∧ Safety.RegsKept (.tfuCtr :: Safety.telling) s t) ∧
      (4 ≤ f.pli → f.thec = .ok → f.pti = 4 → f.upi = 1 → Safety.Gives (.gfpFrameReceive p f) s fun t =>
        Safety.Counted .tfuCtr w 11 1 s t ∧ rd t (frS w) FrStatus.CSF = 1 ∧ tabGet? t.tfu.csfAt w = some (ivl s) ∧
          Safety.RegsKept (.tfuCtr :: .frStatus :: .lpStatus :: Safety.telling) s t) ∧
      (4 ≤ f.pli → f.thec = .ok → f.pti = 0 → f.upi ≠ 1 → Safety.Gives (.gfpFrameReceive p f) s fun t =>
        Safety.Counted .tfuCtr w 9 1 s t ∧ Safety.Told s t ∧ Safety.RegsKept (.tfuCtr :: Safety.telling) s t) ∧
      (4 ≤ f.pli → f.thec = .ok → f.pti = 0 → f.upi = 1 → f.exi = 0 → rd s (frS w) FrStatus.CSF = 0 → f.pfcsOk = true →
        f.bufBad = false → packetFail s w = false → inSafe s = false → portUp s w = true → silent s w = false → f.frame.fcsOk = true → f.frame.bufBad = false →
        64 ≤ f.frame.len → f.frame.len ≤ maxFrame s w → flag s (msK w) MsPort.EN = false →
        f.frame.content.etherType ≠ 0x8808 → f.frame.content.etherType ≠ 0x8809 →
        ¬ (isBfd f.frame.content.window.toNat = true ∧ flag s (lpK w) LpCtl.BFD_DIVERT = true) →
        ¬ (f.frame.content.toPtp = true ∧ rd s (obj .ptCtl w) PtCtl.PTP_MODE = 1) → f.frame.ring = [] → fifoOf s w = [] → billetsOf f.frame.len ≤ mayDraw s (arrivalPool s w f.frame.content) →
        (dispOf s w).length < dispatchRoom s w → Safety.Gives (.gfpFrameReceive p f) s fun t =>
        Safety.Counted .lpCtr w 0 1 s t ∧ Safety.Counted .lpCtr w 1 f.frame.len s t ∧
        (∃ n x, dispOf t w = dispOf s w ++ [n] ∧ getPkt t n = some x ∧ x.len = f.frame.len ∧ x.arrPort = w ∧ x.bad = false) ∧
        Safety.RegsKept (.lpCtr :: .poolStatus :: .poolCtr :: .bufStatus :: Safety.telling) s t))) ∧
  (∀ (p : Fin 48) (d : Defect) (s : State), isFramed s p.val = true → adminUp s p.val = true →
    (mayDeclare s p.val d = true → Safety.Gives (.defectDeclare p d) s fun t =>
      rd t (frS p.val) (defectBit d) = 1 ∧ Safety.RegsKept (.frStatus :: .lpStatus :: .protGrp :: .grpSwCtr :: Safety.telling) s t) ∧
    (mayDeclare s p.val d = false → Safety.Gives (.defectDeclare p d) s fun t => t = s) ∧
    (mayClear s p.val d = true → d ≠ .lfd → (∀ i, d ≠ .los i ∧ d ≠ .lof i ∧ d ≠ .lom i) → Safety.Gives (.defectClear p d) s fun t =>
      rd t (frS p.val) (defectBit d) = 0 ∧ Safety.RegsKept (.frStatus :: .lpStatus :: .protGrp :: .grpSwCtr :: Safety.telling) s t) ∧
    (mayClear s p.val d = false → Safety.Gives (.defectClear p d) s fun t => t = s)) ∧
  (∀ (p : Fin 48) (l : Fin 8) (s : State), isFramed s p.val = true → adminUp s p.val = true →
    (l.val < instances s p.val → rd s (frS p.val) FrStatus.LOS = 0 → Safety.Gives (.defectDeclare p (.los l)) s fun t =>
      (tabGet t.tfu.bdi p.val 0).testBit 0 = true ∧ (tabGet t.tfu.bdi p.val 0).testBit 1 = true ∧
        tabGet? t.tfu.sent p.val = some (overheadOf t p.val)) ∧
    (rd s (frS p.val) FrStatus.LOS_LANES = 2 ^ l.val → Safety.Gives (.defectClear p (.los l)) s fun t =>
      rd t (frS p.val) FrStatus.LOS = 0 ∧ rd t (frS p.val) FrStatus.LOS_LANES = 0)) ∧
  (∀ (p : Fin 48) (s : State), isFramed s p.val = true → adminUp s p.val = true → rd s (frS p.val) FrStatus.PKT_SLOTS ≠ 0 →
    (packetFail s p.val = true → Safety.Gives (.csfTransmit p) s fun t =>
      t = { s with out := ((linesOf s p.val).filter fun q => maintOf s q == 0).reverse.map (fun q => .pdu q .csf [1]) ++ s.out }) ∧
    (packetFail s p.val = false → Safety.Gives (.csfTransmit p) s fun t => t = s))

/-- Pages and protection (R219 to R222, R228, R229, R231, R233): SWAP starts the check of the standby page; a page that passes is scheduled
100 µs on, and one with an entry that fails is refused with that entry's address; at T_sw the swap switches, each framed port takes the new
page with its packet slots, its changed tributaries interrupted and its new overhead sent, and the pages change places, their entries
unchanged; COPY makes the standby page a copy. Once fails have outlasted HOLD_OFF the selector follows the highest request; wait-to-restore
ends on W; force, lockout and their end act at once. A port that takes a page is one without a frame under way.
The model's readings in it: log entries 32, 33 and 80. -/
def Obligations.PagesAndProtection : Prop :=
  (∀ (c : Hdr) (s : State) (w : Waiting), Safety.Sets s c w tfuK TfuCtl.SWAP 1 → rd s tfuK TfuCtl.COPY = 0 →
    Safety.Gives (.pageSwap c) s fun t => Safety.Answered [.tfuCtl] s t w [] ∧ swapState t = swChecking) ∧
  (∀ s : State, swapState s = swChecking →
    (∀ i, firstRefused s (1 - activePage s) [] (pageEntries s (1 - activePage s)) = some i → Safety.Gives .pageCheckComplete s fun t =>
      swapState t = swIdle ∧ rd t tfuK TfuCtl.FAIL_ADDR = (addrOf (obj .pageEnt ((1 - activePage s) * 7680 + i))).toNat ∧
        t = { s with regs := t.regs } ∧ Safety.RegsKept [.tfuCtl] s t) ∧
    (∀ i < 7680, rd s (obj .pageEnt ((1 - activePage s) * 7680 + i)) PageEnt.TYPE ≠ 0 → isFramed s (i / 160) = false →
      Safety.Gives .pageCheckComplete s fun t => swapState t = swIdle ∧ t.tfu = s.tfu ∧ Safety.RegsKept [.tfuCtl] s t) ∧
    ((∀ i < 7680, rd s (obj .pageEnt ((1 - activePage s) * 7680 + i)) PageEnt.TYPE = 0) → Safety.Gives .pageCheckComplete s fun t =>
      swapState t = swScheduled ∧ rd t tfuK TfuCtl.FAIL_ADDR = 0 ∧ t.tfu = { s.tfu with swapAt := some (s.ct + 100000 * 65536) } ∧
        Safety.RegsKept [.tfuCtl] s t)) ∧
  (∀ (s : State) (at_ : Nat), s.tfu.swapAt = some at_ →
    (swapState s = swScheduled → Safety.Gives .pageSwitch s fun t =>
      swapState t = swSwitching ∧ at_ ≤ t.ct ∧ t.tfu = s.tfu ∧ Safety.RegsKept (.tfuCtl :: Safety.telling) s t) ∧
    (swapState s = swSwitching → (∀ p < 48, Safety.NoneUnderWay s p) → Safety.Gives .pageSwapEnd s fun t =>
      swapState t = swIdle ∧ activePage t = 1 - activePage s ∧ t.tfu.taken = [] ∧ t.tfu.swapAt = none ∧ at_ + 23250 * 65536 ≤ t.ct ∧
        Safety.RegsKept (.tfuCtl :: .frStatus :: .lpStatus :: .ptStatus :: Safety.raising) s t)) ∧
  (∀ (p : Fin 48) (s : State), swapState s = swSwitching → isFramed s p.val = true → p.val ∉ s.tfu.taken →
    Safety.NoneUnderWay s p.val → Safety.Gives (.pageTake p) s fun t =>
      t.tfu.taken = s.tfu.taken ++ [p.val] ∧ Safety.RegsKept (.frStatus :: .lpStatus :: .ptStatus :: Safety.raising) s t ∧
      (∀ x ∈ interrupted s p.val, Out.tribCut p.val x ∈ t.out) ∧
      (adminUp s p.val = true → tabGet? t.tfu.sent p.val = some (overheadOf t p.val)) ∧
      rd t (frS p.val) FrStatus.PKT_SLOTS = ((List.range 160).filter fun sl =>
        getF (entryAt s (entK (1 - activePage s) p.val sl)) PageEnt.TYPE == 2).length) ∧
  (∀ (c : Hdr) (s : State) (w : Waiting), Safety.Sets s c w tfuK TfuCtl.COPY 1 → rd s tfuK TfuCtl.SWAP = 0 →
    Safety.Gives (.pageCopy c) s fun t =>
      Safety.Done t w [] ∧ Safety.RegsKept [.pageEnt, .tfuCtl, .sessStatus] s t ∧ activePage t = activePage s ∧
      ∀ i < 7680, rdWord t (obj .pageEnt ((1 - activePage s) * 7680 + i)) = rdWord s (obj .pageEnt (activePage s * 7680 + i)) ∧
        rdWord t (obj .pageEnt (activePage s * 7680 + i)) = rdWord s (obj .pageEnt (activePage s * 7680 + i))) ∧
  (∀ (g : Fin 24) (s : State), flag s (grK g.val) ProtGrp.EN = true → silent s (rd s (grK g.val) ProtGrp.WORK) = false →
    rd s (grK g.val) ProtGrp.CMD = 0 →
    (∀ b < 4, (presentFails s g.val).testBit b = true → actsAt (noteFails g.val s) g.val b ≤ s.clock) →
    (signalFail s (rd s (grK g.val) ProtGrp.PROT) = false → signalFail s (rd s (grK g.val) ProtGrp.WORK) = true →
      Safety.Gives (.protectionSwitch g) s fun t =>
        rd t (grK g.val) ProtGrp.SELECTED = 1 ∧ rd t (grK g.val) ProtGrp.REQ = rqSf ∧
        (rd s (grK g.val) ProtGrp.SELECTED = 0 → Safety.Counted .grpSwCtr g.val 0 1 s t ∧
          rd t (frS (rd s (grK g.val) ProtGrp.WORK)) FrStatus.GFP_STATE = 0) ∧
        Safety.RegsKept (.protGrp :: .grpSwCtr :: .frStatus :: .lpStatus :: Safety.telling) s t) ∧
    (signalFail s (rd s (grK g.val) ProtGrp.PROT) = true → signalFail s (rd s (grK g.val) ProtGrp.WORK) = false →
      Safety.Gives (.protectionSwitch g) s fun t =>
        rd t (grK g.val) ProtGrp.SELECTED = 0 ∧ rd t (grK g.val) ProtGrp.REQ = rqSf ∧
        Safety.RegsKept (.protGrp :: .grpSwCtr :: .frStatus :: .lpStatus :: Safety.telling) s t) ∧
    (signalFail s (rd s (grK g.val) ProtGrp.PROT) = true → signalFail s (rd s (grK g.val) ProtGrp.WORK) = true →
      Safety.Gives (.protectionSwitch g) s fun t =>
        rd t (grK g.val) ProtGrp.SELECTED = rd s (grK g.val) ProtGrp.SELECTED ∧ rd t (grK g.val) ProtGrp.REQ = rqSf ∧
        Safety.RegsKept (.protGrp :: .lpStatus :: Safety.telling) s t)) ∧
  (∀ (g : Fin 24) (s : State) (b T : Nat), flag s (grK g.val) ProtGrp.EN = true → b < 4 → (presentFails s g.val).testBit b = true →
    (tabGet s.tfu.acting g.val 0).testBit b = false → actsAt (noteFails g.val s) g.val b = T →
    (∀ c < 4, (presentFails s g.val).testBit c = true → T ≤ actsAt (noteFails g.val s) g.val c) →
    Safety.Gives (.protectionSwitch g) s fun t => T ≤ t.clock ∧ (tabGet t.tfu.acting g.val 0).testBit b = true) ∧
  (∀ (g : Fin 24) (s : State), flag s (grK g.val) ProtGrp.EN = true → rd s (grK g.val) ProtGrp.REQ = rqWtr →
    Safety.Gives (.wtrExpire g) s fun t =>
      rd t (grK g.val) ProtGrp.SELECTED = 0 ∧ rd t (grK g.val) ProtGrp.REQ = 0 ∧ tabGet s.tfu.wtrEnd g.val 0 ≤ t.clock ∧
        Safety.RegsKept (.protGrp :: .grpSwCtr :: .frStatus :: .lpStatus :: Safety.telling) s t) ∧
  (∀ (c : Hdr) (g : Fin 24) (s : State) (w : Waiting), flag s (grK g.val) ProtGrp.EN = true →
    silent s (rd s (grK g.val) ProtGrp.WORK) = false →
    (Safety.Sets s c w (grK g.val) ProtGrp.CMD 1 → Safety.Gives (.forceToProtection c g) s fun t =>
      Safety.Done t w [] ∧ rd t (grK g.val) ProtGrp.SELECTED = 1 ∧ rd t (grK g.val) ProtGrp.REQ = rqForce ∧
        Safety.RegsKept (.protGrp :: .grpSwCtr :: .frStatus :: .lpStatus :: Safety.telling) s t) ∧
    (Safety.Sets s c w (grK g.val) ProtGrp.CMD 2 → Safety.Gives (.lockoutOfProtection c g) s fun t =>
      Safety.Done t w [] ∧ rd t (grK g.val) ProtGrp.SELECTED = 0 ∧ rd t (grK g.val) ProtGrp.REQ = rqLockout ∧
        Safety.RegsKept (.protGrp :: .grpSwCtr :: .frStatus :: .lpStatus :: Safety.telling) s t) ∧
    (Safety.Sets s c w (grK g.val) ProtGrp.CMD 0 → tabGet s.tfu.acting g.val 0 = 0 → flag s (grK g.val) ProtGrp.REVERT = true →
      rd s (grK g.val) ProtGrp.REQ = rqForce → Safety.Gives (.protectionCmdClear c g) s fun t =>
      Safety.Done t w [] ∧ rd t (grK g.val) ProtGrp.SELECTED = 0 ∧ rd t (grK g.val) ProtGrp.REQ = 0 ∧
        Safety.RegsKept (.protGrp :: .grpSwCtr :: .frStatus :: .lpStatus :: Safety.telling) s t))

/-! ## Chapter 8: link encryption -/

/-- Key slots and the DRBG (R244 to R246, R242, R250 to R258): a write of an EMPTY SA slot makes it VALID with its key and the next
generation; a slot in use is PAUSED or ERASING until its drain ends, and only then takes its new key or becomes EMPTY, with the reply; a CAK
slot is written and erased at once; seeding, reseeding, failing and recovering move the DRBG and its counters. A protected frame leaves
under its slot's next PN with its SecTAG, and a late one is dropped where replay protection is on. A drain does not end while a core works on
a frame of the slot.
The model's readings in it: log entries 8 and 36. -/
def Obligations.KeySlots : Prop :=
  (∀ (c : Hdr) (x : SaParams) (s : State) (w : Waiting), Safety.Turn s c w 0x0601 accKeys 88 0x3A → x.paramLen = 88 → x.resOk = true →
    rd s msS MsStatus.DRBG_STATE ≠ 0 → saRange x = true → mkaOwner s x.slot.toNat = none → saTwin s x = false → drainsOf s x.slot.toNat = [] →
    (saState s x.slot.toNat = saEmpty → Safety.Gives (.keySlotWriteSa c x) s fun t =>
      Safety.Done t w (toBytes 2 (rd t (saK x.slot.toNat) SaSlot.GEN) ++ [0, 0]) ∧
        rd t (saK x.slot.toNat) SaSlot.GEN = (rd s (saK x.slot.toNat) SaSlot.GEN + 1) % 2 ^ 16 ∧ saState t x.slot.toNat = saValid ∧
        rd t (saK x.slot.toNat) SaSlot.PN = x.initPn.toNat ∧
        tabGet? t.msec.keys x.slot.toNat = some ⟨x.key.toNat, x.salt.toNat, x.ssci.toNat, x.thresh.toNat⟩ ∧
        Safety.RegsKept [.saSlot, .msStatus, .sessStatus] s t) ∧
    (saState s x.slot.toNat ≠ saEmpty → Safety.Gives (.keySlotWriteSa c x) s fun t =>
      saState t x.slot.toNat = saPaused ∧ drainsOf t x.slot.toNat = [⟨some c, some x, false⟩] ∧ t.out = s.out ∧
        t.cmd.waiting = [{ w with phase := .started 0x3A }] ∧ t.msec.keys = s.msec.keys ∧ Safety.RegsKept [.saSlot, .msStatus] s t)) ∧
  (∀ (c : Hdr) (n : Fin 16384) (x : SaParams) (s : State) (w : Waiting), s.cmd.waiting = [w] → w.hdr = c → w.phase = .started 0x3A →
    n.val ∉ atCores s → rd s (sessKey c.sid.val) SessStatus.NEXT_SEQ < 2 ^ 64 - 4096 →
    (drainsOf s n.val = [⟨some c, some x, false⟩] → w.op = 0x0601 → Safety.Gives (.slotDrainEnd n) s fun t =>
      Safety.Done t w (toBytes 2 ((rd s (saK n.val) SaSlot.GEN + 1) % 2 ^ 16) ++ [0, 0]) ∧ saState t n.val = saValid ∧ drainsOf t n.val = [] ∧
        tabGet? t.msec.keys n.val = some ⟨x.key.toNat, x.salt.toNat, x.ssci.toNat, x.thresh.toNat⟩ ∧
        Safety.RegsKept [.saSlot, .msStatus, .sessStatus] s t) ∧
    (drainsOf s n.val = [⟨some c, none, false⟩] → w.op = 0x0602 → Safety.Gives (.slotDrainEnd n) s fun t =>
      Safety.Done t w [] ∧ saState t n.val = saEmpty ∧ drainsOf t n.val = [] ∧ tabGet? t.msec.keys n.val = none ∧
        rd t (saK n.val) SaSlot.GEN = (rd s (saK n.val) SaSlot.GEN + 1) % 2 ^ 16 ∧
        Safety.RegsKept [.saSlot, .msStatus, .sessStatus] s t)) ∧
  (∀ (n : Fin 16384) (s : State), n.val ∈ atCores s → Safety.Gives (.slotDrainEnd n) s fun t => t = s) ∧
  (∀ (c : Hdr) (slot : BitVec 16) (s : State) (w : Waiting), Safety.Turn s c w 0x0602 accKeys 4 0x3A →
    (slot.toNat < 16384 → mkaOwner s slot.toNat = none → drainsOf s slot.toNat = [] → saState s slot.toNat ≠ saEmpty →
      Safety.Gives (.keySlotErase c slot 1 0) s fun t =>
        saState t slot.toNat = saErasing ∧ drainsOf t slot.toNat = [⟨some c, none, false⟩] ∧ t.out = s.out ∧
          t.cmd.waiting = [{ w with phase := .started 0x3A }] ∧ Safety.RegsKept [.saSlot, .msStatus] s t) ∧
    (slot.toNat < 16384 → mkaOwner s slot.toNat = none → drainsOf s slot.toNat = [] → saState s slot.toNat = saEmpty →
      Safety.Gives (.keySlotErase c slot 1 0) s fun t => Safety.Done t w [] ∧ Safety.RegsKept [.sessStatus] s t) ∧
    (slot.toNat < 192 → rd s (cakK slot.toNat) CakSlot.STATE = 1 → Safety.Gives (.keySlotErase c slot 2 0) s fun t =>
      Safety.Done t w [] ∧ rd t (cakK slot.toNat) CakSlot.STATE = 0 ∧ tabGet? t.msec.caks slot.toNat = none ∧
        Safety.RegsKept [.cakSlot, .msStatus, .mkaStatus, .saSlot, .sessStatus] s t)) ∧
  (∀ (c : Hdr) (x : CakParams) (s : State) (w : Waiting), Safety.Turn s c w 0x0601 accKeys 88 0x3A → x.paramLen = 88 → x.resOk = true →
    rd s msS MsStatus.DRBG_STATE ≠ 0 → cakRange x = true → Safety.Gives (.keySlotWriteCak c x) s fun t =>
      Safety.Done t w (toBytes 2 ((tabGet s.msec.cakGen x.slot.toNat 0 + 1) % 2 ^ 16) ++ [0, 0]) ∧
        rd t (cakK x.slot.toNat) CakSlot.STATE = 1 ∧ rd t (cakK x.slot.toNat) CakSlot.CKN = x.ckn.toNat ∧
        tabGet? t.msec.caks x.slot.toNat = some x.cak.toNat ∧
        Safety.RegsKept [.cakSlot, .msStatus, .mkaStatus, .saSlot, .sessStatus] s t) ∧
  (∀ s : State,
    (rd s msS MsStatus.DRBG_STATE = 0 → (Safety.Gives (.drbgSeedComplete true) s fun t =>
        rd t msS MsStatus.DRBG_STATE = 1 ∧ t = { s with regs := t.regs } ∧ Safety.RegsKept [.msStatus, .mkaStatus] s t) ∧
      Safety.Gives (.drbgSeedComplete false) s fun t =>
        rd t msS MsStatus.DRBG_STATE = 2 ∧ Safety.Counted .msGctr 1 0 1 s t ∧
          Safety.RegsKept (.msStatus :: .mkaStatus :: .msGctr :: Safety.raising) s t) ∧
    (rd s msS MsStatus.DRBG_STATE = 1 → (Safety.Gives (.drbgReseed true) s fun t =>
        Safety.Counted .msGctr 0 0 1 s t ∧ Safety.Told s t ∧ Safety.RegsKept (.msGctr :: Safety.telling) s t) ∧
      Safety.Gives (.drbgReseed false) s fun t =>
        rd t msS MsStatus.DRBG_STATE = 2 ∧ Safety.Counted .msGctr 1 0 1 s t ∧
          Safety.RegsKept (.msStatus :: .msGctr :: Safety.raising) s t) ∧
    (rd s msS MsStatus.DRBG_STATE = 2 → (Safety.Gives (.drbgRetry true) s fun t =>
        rd t msS MsStatus.DRBG_STATE = 1 ∧ Safety.Counted .msGctr 0 0 1 s t ∧ Safety.RegsKept (.msStatus :: .msGctr :: Safety.telling) s t) ∧
      Safety.Gives (.drbgRetry false) s fun t =>
        rd t msS MsStatus.DRBG_STATE = 2 ∧ Safety.Counted .msGctr 1 0 1 s t ∧
          Safety.RegsKept (.msStatus :: .msGctr :: Safety.raising) s t)) ∧
  (∀ (p : Fin 48) (s : State) (f : TxFrame) (rest : List TxFrame) (r : Ref) (a d n : Nat), isEthernet s p.val = true → inSafe s = false →
    portUp s p.val = true → silent s p.val = false → gateInForce s p.val = false → tabGet? s.line.sending p.val = none →
    txOf s p.val = f :: rest → f.body = .packet r a none d → f.open_ = false → f.bad = false → pausedOn s p.val f.tc = false →
    overtakes s p.val f = false → txPipesFull s = false → secureOut s p.val (etherOf f) = .protect n →
    (tabGet? s.msec.keys n).elim 0 SaKey.thresh = 0 → rd s (saK n) SaSlot.PN < topPn (rd s (saK n) SaSlot.SUITE) →
    Safety.Gives (.frameTransmit p .whole) s fun t =>
      txOf t p.val = (rest.filter fun g => !g.bad) ∧ rd t (saK n) SaSlot.PN = rd s (saK n) SaSlot.PN + 1 ∧
        Safety.Counted .msCtr p.val 0 1 s t ∧
        Out.frame p.val r f.win (f.len + secOverhead (flag s (msK p.val) MsPort.INCLUDE_SCI)) (some (rd s (saK n) SaSlot.PN)) none false
          ∈ t.out ∧
        (∃ tci sl clear, Out.secTag p.val n tci sl (rd s (saK n) SaSlot.PN % 2 ^ 32)
            (if flag s (msK p.val) MsPort.INCLUDE_SCI then some (rd s (msK p.val) MsPort.TX_SCI) else none) clear ∈ t.out ∧
          tci % 4 = rd s (msK p.val) MsPort.ENC_AN ∧ sl = if f.len - 16 < 48 then f.len - 16 else 0) ∧
        Safety.RegsKept (.saSlot :: .msCtr :: .lpCtr :: Safety.telling) s t) ∧
  (∀ (p : Fin 48) (f : LineFrame) (g : SecTag) (n : Nat) (s : State), isEthernet s p.val = true → inSafe s = false → portUp s p.val = true →
    silent s p.val = false → portCond s p.val = true → f.bad64 = false → f.fecBad = false → f.pcsBad = false → f.fcsOk = true →
    f.bufBad = false → f.fecWords = 0 → f.fecSyms = 0 → fifoOf s p.val = [] → 64 ≤ f.len → f.len ≤ maxFrame s p.val → f.sec = some g → flag s (msK p.val) MsPort.EN = true → badTag g = false →
    rxSlot s p.val g.an.toNat (sciOf s p.val f g) = some n → rd s (msK p.val) MsPort.VALIDATE ≠ 0 →
    flag s (msK p.val) MsPort.REPLAY_PROTECT = true →
    recoverPn (rd s (saK n) SaSlot.PN) g.pn.toNat (isXpn s n) < rd s (saK n) SaSlot.PN → Safety.Gives (.frameReceive p .whole f) s fun t =>
      Safety.Counted .msCtr p.val 8 1 s t ∧ Safety.Told s t ∧ Safety.RegsKept (.msCtr :: Safety.telling) s t)

/-- The MKA service (R259 to R263, R266): MKA_EN starts a fresh participant for each VALID CAK slot, and its absence stops them and erases
their slots; an MKPDU that fails a check or exceeds the rate is counted and discarded, one that passes makes its sender the participant's
peer, and a SAK that the key server distributes goes into the receive slot of the next AN; hellos go for each participant; a lost peer and a
retired SAK leave the service's slots, once drained, EMPTY.
The model's readings in it: log entries 35 and 37. -/
def Obligations.MkaService : Prop :=
  (∀ (c : Hdr) (p : Fin 48) (s : State) (w : Waiting),
    (Safety.Sets s c w (msK p.val) MsPort.MKA_EN 1 → flag s (msK p.val) MsPort.MKA_EN = false → Safety.Gives (.mkaEnable c p) s fun t =>
      Safety.Done t w [] ∧ flag t (msK p.val) MsPort.MKA_EN = true ∧
        (∀ x ∈ participants s p.val, ∃ mi < 2 ^ 96, getMka t x = Mka.fresh (getMka s x).order mi) ∧
        Safety.RegsKept [.msPort, .mkaStatus, .sessStatus] s t) ∧
    (Safety.Sets s c w (msK p.val) MsPort.MKA_EN 0 → flag s (msK p.val) MsPort.MKA_EN = true → Safety.Gives (.mkaDisable c p) s fun t =>
      Safety.Done t w [] ∧ flag t (msK p.val) MsPort.MKA_EN = false ∧ sakOf t p.val = none ∧
        (∀ n ∈ mkaSlots p.val, saState t n = saEmpty ∨ drainsOf t n ≠ []) ∧
        Safety.RegsKept [.msPort, .mkaStatus, .saSlot, .msStatus, .sessStatus] s t)) ∧
  (∀ (p : Fin 48) (m : Mkpdu) (s : State), mkaRuns s p.val = true →
    (50 ≤ (recent s (tabGet s.msec.pduAt p.val []) sec).length ∨ m.wellFormed = false → Safety.Gives (.mkpduReceive p m) s fun t =>
      Safety.Counted .msCtr p.val 13 1 s t ∧ Safety.Counted .msCtr p.val 14 1 s t ∧ t.msec.mka = s.msec.mka ∧
        Safety.RegsKept (.msCtr :: Safety.telling) s t) ∧
    (∀ x, (recent s (tabGet s.msec.pduAt p.val []) sec).length < 50 → m.wellFormed = true → m.icvOk = true →
      (participants s p.val).find? (fun c => rd s (cakK c) CakSlot.CKN == m.ckn.toNat) = some x →
      (∀ n, tabGet? (getMka s x).mns m.member.toNat = some n → n < m.mn.toNat) →
      ((getMka s x).peer = none ∨ (getMka s x).peer = some m.member) → m.live = true → Safety.Gives (.mkpduReceive p m) s fun t =>
      Safety.Counted .msCtr p.val 13 1 s t ∧ (getMka t x).peer = some m.member ∧ (getMka t x).peerSci = m.sci.toNat ∧ (getMka t x).heard = s.clock ∧
        tabGet? (getMka t x).mns m.member.toNat = some m.mn.toNat ∧
        Safety.RegsKept (.msCtr :: .mkaStatus :: .saSlot :: .msStatus :: .msPort :: Safety.telling) s t) ∧
    (∀ x su, (recent s (tabGet s.msec.pduAt p.val []) sec).length < 50 → m.wellFormed = true → m.icvOk = true →
      (participants s p.val).find? (fun c => rd s (cakK c) CakSlot.CKN == m.ckn.toNat) = some x →
      (∀ n, tabGet? (getMka s x).mns m.member.toNat = some n → n < m.mn.toNat) → (getMka s x).peer = some m.member → m.live = false →
      principalOf s p.val = some x → serverHere s p.val x = false → m.sakSuite = some su → su.toNat = rd s (msK p.val) MsPort.MKA_SUITE →
      sakOf s p.val = none → m.rxInstalled = false → m.txUnder = false → saState s (mkaRx p.val 0) = saEmpty →
      drainsOf s (mkaRx p.val 0) = [] → Safety.Gives (.mkpduReceive p m) s fun t =>
      saState t (mkaRx p.val 0) = saValid ∧ tabGet? t.msec.keys (mkaRx p.val 0) = some ⟨m.sak.toNat, 0, 0, 0⟩ ∧
        sakOf t p.val = some ⟨0, m.sak.toNat, su.toNat, false, none, 0⟩)) ∧
  (∀ (p : Fin 48) (x : Nat) (s : State), mkaRuns s p.val = true → participants s p.val = [x] →
    (isEthernet s p.val = true → portUp s p.val = true → inSafe s = false → silent s p.val = false → gateInForce s p.val = false →
      Safety.Gives (.mkaHello p) s fun t =>
      Out.pdu p.val .mkpdu [x, rd s (mkaK p.val) MkaStatus.KEY_NUMBER, (getMka s x).mi, (getMka s x).mn + 1] ∈ t.out ∧
        (getMka t x).mn = (getMka s x).mn + 1 ∧ Safety.Counted .msCtr p.val 15 1 s t ∧
        Safety.RegsKept (.msCtr :: .lpCtr :: Safety.telling) s t) ∧
    (principalOf s p.val = some x → Safety.Gives (.caLost p) s fun t =>
      (getMka t x).peer = none ∧ sakOf t p.val = none ∧ (getMka s x).heard + 6 * sec ≤ t.clock ∧ (∀ n ∈ mkaSlots p.val, saState t n = saEmpty ∨ drainsOf t n ≠ []) ∧
        Safety.RegsKept (.mkaStatus :: .saSlot :: .msStatus :: Safety.telling) s t)) ∧
  (∀ (p : Fin 48) (r : SakRun) (a : Nat) (s : State), sakOf s p.val = some r → r.switched = true → r.prevAn = some a →
    Safety.Gives (.sakRetireTimeout p) s fun t =>
      sakOf t p.val = some { r with prevAn := none } ∧ r.at_ + 6 * sec ≤ t.clock ∧
        (∀ n ∈ [mkaTx p.val a, mkaRx p.val a], saState t n = saEmpty ∨ drainsOf t n ≠ []) ∧
        Safety.RegsKept (.saSlot :: .msStatus :: Safety.telling) s t)

/-! ## Chapters 9 and 10: buffers, queues and scheduling -/

/-- Queues and meters (R310, R314 to R318, R322, R325, R309, R333, R335, R360): a packet for a reachable node joins its VOQ, counted there
and as its owner, its input occupancy grown; a meter takes tokens by R315, counts the colour, and drops red; one for an unreachable node is
freed; PFC is repeated while the occupancy stays above XON; the queue that the hierarchy chooses is dequeued, every shaper on its path
charged, and its head goes over the bridge to the egress pass; a class map entry waits until its old range is empty; CLEAR fills both
buckets; the sampler visits one queue after another.
The model's readings in it: log entries 46, 47 and 48. -/
def Obligations.QueuesAndMeters : Prop :=
  (∀ (s : State) (x : PassResult) (rest : List PassResult) (pk : Packet), s.que.results = x :: rest → getPkt s x.pkt = some pk →
    twin s = false → (destOf x.next).kind = 1 → (destOf x.next).port < 48 →
    (nodeOk s (destOf x.next).node = true → x.meter = none → lossless s (destOf x.next).tc = true →
      (getQ s (voqOf (destOf x.next).node (destOf x.next).port (destOf x.next).tc)).spilled = false →
      profileOf s (voqOf (destOf x.next).node (destOf x.next).port (destOf x.next).tc) = none → Safety.Gives .voqEnqueue s fun t =>
      ∃ r, (getQ t (voqOf (destOf x.next).node (destOf x.next).port (destOf x.next).tc)).head =
          (getQ s (voqOf (destOf x.next).node (destOf x.next).port (destOf x.next).tc)).head ++ [r] ∧
        r.pkt = x.pkt ∧ r.tc = (destOf x.next).tc ∧ r.len = pk.len ∧ r.prec = green ∧ t.que.results = rest ∧
        Safety.Counted .vqCtr (voqOf (destOf x.next).node (destOf x.next).port (destOf x.next).tc) 0 1 s t ∧
        (∃ y, getPkt t x.pkt = some y ∧ y.owner = voqOf (destOf x.next).node (destOf x.next).port (destOf x.next).tc) ∧
        (pk.arrPort < 48 → inOcc t pk.arrPort (destOf x.next).tc = inOcc s pk.arrPort (destOf x.next).tc + billetsOf pk.len) ∧
        Safety.RegsKept (.vqCtr :: .voqGctr :: .lpCtr :: Safety.telling) s t) ∧
    (∀ m pre b, nodeOk s (destOf x.next).node = true → x.meter = some (m, pre) → flag s (obj .meter m) Meter.EN = true →
      flag s (obj .meter m) Meter.LOOSE = false → flag s (obj .meter m) Meter.COLOR_AWARE = false → credited s (obj .meter m) = b →
      (b.tp < 1024 * (pk.len : Int) → flag s (obj .meter m) Meter.RED_ACT = false → pk.leases = 0 → pk.owner = ownerNone →
        Safety.Gives .voqEnqueue s fun t =>
        tabGet? t.que.buckets (keyNo (obj .meter m)) = some b ∧ Safety.Counted .mtCtr m 4 1 s t ∧ Safety.Counted .mtCtr m 5 pk.len s t ∧
        Safety.Counted .voqGctr 2 0 1 s t ∧ getPkt t x.pkt = none) ∧
      (1024 * (pk.len : Int) ≤ b.tp → b.tc < 1024 * (pk.len : Int) → Safety.Gives .voqEnqueue s fun t =>
        tabGet? t.que.buckets (keyNo (obj .meter m)) = some { b with tp := b.tp - 1024 * (pk.len : Int) } ∧
        Safety.Counted .mtCtr m 2 1 s t ∧ Safety.Counted .mtCtr m 3 pk.len s t) ∧
      (1024 * (pk.len : Int) ≤ b.tp → 1024 * (pk.len : Int) ≤ b.tc → Safety.Gives .voqEnqueue s fun t =>
        tabGet? t.que.buckets (keyNo (obj .meter m)) =
          some { b with tp := b.tp - 1024 * (pk.len : Int), tc := b.tc - 1024 * (pk.len : Int) } ∧
        Safety.Counted .mtCtr m 0 1 s t ∧ Safety.Counted .mtCtr m 1 pk.len s t)) ∧
    (nodeOk s (destOf x.next).node = false → pk.leases = 0 → pk.owner = ownerNone → Safety.Gives .voqEnqueue s fun t =>
      Safety.Counted .rtCtr 0 0 1 s t ∧ getPkt t x.pkt = none ∧ t.que.queues = s.que.queues ∧
        Safety.RegsKept (.rtCtr :: .bufStatus :: .poolStatus :: Safety.telling) s t)) ∧
  (∀ (p : Fin 48) (tc : Fin 8) (s : State), tabGet? s.que.xoff (8 * p.val + tc.val) ≠ none →
    (xonOf s p.val tc.val < inOcc s p.val tc.val → isEthernet s p.val = true → portUp s p.val = true → inSafe s = false → silent s p.val = false →
      gateInForce s p.val = false → Safety.Gives (.pfcRefresh p tc) s fun t =>
      Out.pdu p.val .pfc [tc.val, 0xFFFF] ∈ t.out ∧ Safety.Counted .voqGctr 3 0 1 s t ∧
        tabGet? t.que.xoff (8 * p.val + tc.val) = some t.clock ∧
        (∀ t0, tabGet? s.que.xoff (8 * p.val + tc.val) = some t0 → t0 + 0xFFFF * 256 * 1000 / max 1 (rateMb s p.val) ≤ t.clock) ∧ Safety.RegsKept (.voqGctr :: .lpCtr :: Safety.telling) s t) ∧
    (inOcc s p.val tc.val ≤ xonOf s p.val tc.val → Safety.Gives (.pfcRefresh p tc) s fun t => t = s)) ∧
  (∀ (p : Fin 48) (e : Nat) (r : Ref) (rest : List Ref) (pk : Packet) (s : State), silent s p.val = false → protPort s p.val = false →
    (egressWaits s).length < idleThreads s → chanState s 1 = 1 → chooseQueue (noteHeld p.val s) p.val = some e → (getQ s (egressNo e)).head = r :: rest →
    (getQ s (egressNo e)).spilled = false → getPkt s r.pkt = some pk → pk.bad = false → mirrorSet s p.val true [] = [] →
    portUp s p.val = true → inSafe s = false → Safety.Gives (.egressDequeue p) s fun t =>
      t.eng = { s.eng with deqNo := s.eng.deqNo + 1 } ∧
      (getChan t 1).data = (getChan s 1).data ++ [.egress { ref := r, port := p.val, tc := r.tc, no := s.eng.deqNo }] ∧ (getQ t (egressNo e)).head = rest ∧
      (∀ x ∈ chainOf s e, tabGet? t.que.buckets (keyNo (shaperKey x.1 x.2)) =
        some { credited s (shaperKey x.1 x.2) with tc := (credited s (shaperKey x.1 x.2)).tc - 1024 * (frameLen r : Int),
                                                   tp := (credited s (shaperKey x.1 x.2)).tp - 1024 * (frameLen r : Int) }) ∧
      Safety.RegsKept [.grpCfg, .tenCfg, .subCfg, .eqCfg] s t) ∧
  (∀ (p : Fin 48) (tc : Fin 8) (base log : Nat) (s : State), tabGet? s.que.classNew (8 * p.val + tc.val) = some (base * 16 + log) →
    base < 2 ^ 18 → log < 16 →
    (rangeEmpty s (rd s (obj .classMap p.val) (classBase tc.val)) (rd s (obj .classMap p.val) (classLog2 tc.val)) = true →
      Safety.Gives (.classMapApply p tc) s fun t =>
        rd t (obj .classMap p.val) (classBase tc.val) = base ∧ rd t (obj .classMap p.val) (classLog2 tc.val) = log ∧
        rd t (obj .classMap p.val) (classPending tc.val) = 0 ∧ tabGet? t.que.classNew (8 * p.val + tc.val) = none ∧
        Safety.RegsKept [.classMap] s t) ∧
    (rangeEmpty s (rd s (obj .classMap p.val) (classBase tc.val)) (rd s (obj .classMap p.val) (classLog2 tc.val)) = false →
      Safety.Gives (.classMapApply p tc) s fun t => t = s)) ∧
  (∀ (c : Hdr) (addr : ObjAddr) (k : Key) (s : State) (w : Waiting), findObj addr = some k →
    k.ty ∈ [ObjTy.meter, .shPort, .shGrp, .shTen, .shSub, .shQueue] → Safety.Sets s c w k Meter.CLEAR 1 →
    Safety.Gives (.bucketClear c addr) s fun t =>
      Safety.Done t w [] ∧ Safety.RegsKept [k.ty, .sessStatus] s t ∧
        tabGet? t.que.buckets (keyNo k) = some { tc := 1024 * rd s k Meter.CBS, tp := 1024 * rd s k Meter.PBS, last := ivl s }) ∧
  (∀ s : State, Safety.Gives .queueSample s fun t =>
    t.que.sampleQ = (s.que.sampleQ + 1) % sampledQueues ∧
    rd t (queueState s.que.sampleQ) VqState.SDEPTH = depth (getQ s s.que.sampleQ) % 2 ^ 30 ∧
    rd t (queueState s.que.sampleQ) VqState.SFLAG = (if depth (getQ s s.que.sampleQ) = 0 then 2 else 1) ∧
    t.que = { s.que with sampleQ := t.que.sampleQ } ∧ Safety.RegsKept (.vqState :: .eqState :: Safety.telling) s t)

/-- Gate control lists (R327, R328): GO waits for the check of the admin list and is answered then; a list that passes comes into force at
the first cycle boundary at least 10 µs on, and one that fails sets BAD; entries follow one another at their ends, and the cycle starts
again, or with EN 0 the list leaves force.
The model's readings in it: log entry 47. -/
def Obligations.GateLists : Prop :=
  (∀ (c : Hdr) (p : Fin 48) (s : State) (w : Waiting), Safety.Sets s c w (gateKey p.val) GateCtl.GO 1 → Safety.Gives (.gateGo c p) s fun t =>
    (getGate t p.val).checking = some (c, putF (rdWord s (gateKey p.val)) GateCtl.GO 1) ∧
    t.cmd.waiting = [{ w with phase := .started 0x49 }] ∧
    t = { s with cmd := { s.cmd with waiting := t.cmd.waiting }, que := { s.que with gates := t.que.gates } }) ∧
  (∀ (c : Hdr) (p : Fin 48) (new : Nat) (s : State) (w : Waiting), (getGate s p.val).checking = some (c, new) → s.cmd.waiting = [w] →
    w.hdr = c → w.phase = .started 0x49 → w.op = 0x0202 → rd s (sessKey c.sid.val) SessStatus.NEXT_SEQ < 2 ^ 64 - 4096 →
    (listOk (storeObj (gateKey p.val) new s) p.val = true → Safety.Gives (.gateCheckComplete p) s fun t =>
      Safety.Done t w [] ∧ rd t (gateKey p.val) GateCtl.EN = getF new GateCtl.EN ∧ Safety.RegsKept [.gateCtl, .sessStatus] s t ∧
      ∃ t0 n base k cycle, (getGate t p.val).pending = some (t0, n, base) ∧ (getGate t p.val).checking = none ∧
        n = rd t (gateKey p.val) GateCtl.COUNT ∧ cycle = (durations t p.val (adminList t p.val) n).sum * 65536 ∧
        t0 = base + cycle * k ∧ s.ct + 10000 * 65536 ≤ t0 ∧ (k = 0 ∨ base + cycle * (k - 1) < s.ct + 10000 * 65536)) ∧
    (listOk (storeObj (gateKey p.val) new s) p.val = false → Safety.Gives (.gateCheckComplete p) s fun t =>
      rd t (gateKey p.val) GateCtl.BAD = 1 ∧ t.cmd.waiting = [] ∧ (getGate t p.val).checking = none ∧
        (getGate t p.val).pending = (getGate s p.val).pending ∧ Safety.RegsKept (.gateCtl :: Safety.raising) s t)) ∧
  (∀ (p : Fin 48) (t0 n base : Nat) (s : State), (getGate s p.val).pending = some (t0, n, base) →
    Safety.Gives (.gateListStart p) s fun t =>
      gateInForce t p.val = true ∧ rd t (gateKey p.val) GateCtl.OPER = adminList s p.val ∧ t0 ≤ t.ct ∧
        (getGate t p.val).pending = none ∧ (getGate t p.val).start = t0 ∧ (getGate t p.val).entry = 0 ∧ (getGate t p.val).count = n ∧
        Safety.RegsKept (.gateCtl :: Safety.telling) s t) ∧
  (∀ (p : Fin 48) (s : State), gateInForce s p.val = true → (getGate s p.val).restart = none →
    ((getGate s p.val).entry + 1 < (getGate s p.val).count → Safety.Gives (.gateEntryChange p) s fun t =>
      (getGate t p.val).entry = (getGate s p.val).entry + 1 ∧ entryEnd s p.val ≤ t.ct ∧ Safety.RegsKept Safety.telling s t) ∧
    ((getGate s p.val).count ≤ (getGate s p.val).entry + 1 → Safety.Gives (.gateEntryChange p) s fun t =>
      (getGate t p.val).entry = 0 ∧ (getGate t p.val).start = entryEnd s p.val ∧ entryEnd s p.val ≤ t.ct ∧
        gateInForce t p.val = flag s (gateKey p.val) GateCtl.EN ∧ Safety.RegsKept (.gateCtl :: Safety.telling) s t)) ∧
  (∀ (c : Hdr) (p : Fin 48) (s : State) (w : Waiting), Safety.Sets s c w (gateKey p.val) GateCtl.EN 0 → rd s (gateKey p.val) GateCtl.GO = 0 →
    Safety.Gives (.gateDisable c p) s fun t =>
      Safety.Answered [.gateCtl] s t w [] ∧ flag t (gateKey p.val) GateCtl.EN = false ∧ gateInForce t p.val = gateInForce s p.val)

/-- Peat and Sheepdog (R283, R288, R289, R294, R296 to R298, R301, R302): a page that is written is stored and its packets' billets freed;
a tail buffer is flushed as a partial page, or counted when no page may be drawn; the first page of a queue that runs low is read into
staging, and its packets join the head segment in order, but for those a read loses; a read that times out is repeated once; the page ring
is built from the stacks that are READY; a round, PERIOD after the one before, marks every descriptor that a root reaches, what it has not
marked is suspect at its end, and what two rounds find is reclaimed.
The model's readings in it: log entries 38, 39 and 82. -/
def Obligations.PeatAndSheepdog : Prop :=
  (∀ (q : Nat) (p : Page) (s : State), (getQ s q).pages.find? (fun e => e.phase == .writing) = some p →
    Safety.Gives (.pageWriteComplete q) s fun t =>
      (getQ t q).pages = (getQ s q).pages.map (fun e => if e.handle = p.handle then { e with phase := .stored } else e) ∧
      Safety.Counted .peatCtr 0 0 1 s t ∧ (p.flushed = true → Safety.Counted .peatCtr 0 2 1 s t) ∧
      (∀ i ∈ p.imgs, ∀ k, getPkt s i.ref.pkt = some k → k.owner = q → i.ref.from_ = q → k.leases = 0 →
        getPkt t i.ref.pkt = none) ∧
      Safety.RegsKept (.peatCtr :: .bufStatus :: .poolStatus :: .poolGctr :: Safety.raising) s t) ∧
  (∀ (q : Nat) (k : Key) (r : Ref) (l : List Ref) (s : State), (getQ s q).spilled = true → profileOf s q = some k →
    pageFill [] (wholeRun s (getQ s q).tail) = r :: l →
    (rd s (poolS (refPool s r)) PoolStatus.PAGES < rd s (poolK (refPool s r)) PoolCtl.PAGE_LIMIT →
      0 < rd s (obj .peatStatus) PeatStatus.PAGES_FREE → Safety.Gives (.pageFlush q) s fun t =>
      (∃ pg, (getQ t q).pages = (getQ s q).pages ++ [pg] ∧ pg.phase = .writing ∧ pg.flushed = true ∧
        pageRefs pg = (r :: l).map fun x => { x with lease := false, from_ := q }) ∧
      (getQ t q).tail = (getQ s q).tail.drop (l.length + 1) ∧ (getQ s q).tailFrom + rd s k SpillProf.FLUSH * 1000 ≤ t.clock ∧
      rd t (obj .peatStatus) PeatStatus.PAGES_FREE + 1 = rd s (obj .peatStatus) PeatStatus.PAGES_FREE ∧
      Safety.RegsKept (.poolStatus :: .peatStatus :: .qSpill :: .peatCtr :: Safety.telling) s t) ∧
    (rd s (obj .peatStatus) PeatStatus.PAGES_FREE = 0 → Safety.Gives (.pageFlush q) s fun t =>
      Safety.Counted .poolCtr (refPool s r) 3 1 s t ∧ t.que = s.que ∧ Safety.RegsKept (.poolCtr :: Safety.telling) s t)) ∧
  (∀ (q : Nat) (p : Page) (s : State), (getQ s q).spilled = true → (getQ s q).pages.find? (fun e => !reading e) = some p → p.phase = .stored →
    (∀ k, profileOf s q = some k → sumBillets (getQ s q).head < rd s k SpillProf.RETURN_AT) →
    ((getQ s q).pages.filter reading).length + ((getQ s q).head.filterMap Ref.page).dedup.length < 2 →
    (rd s (obj .bufStatus) BufStatus.STAGED + (p.imgs.map fun i => refBillets i.ref).sum ≤ stageSize s →
      Safety.Gives (.pageReturnStart q) s fun t =>
      (getQ t q).pages = (getQ s q).pages.map (fun e => if e.handle = p.handle then { e with phase := .reading 1 } else e) ∧
        rd t (obj .bufStatus) BufStatus.STAGED = rd s (obj .bufStatus) BufStatus.STAGED + (p.imgs.map fun i => refBillets i.ref).sum ∧
        Safety.RegsKept [.bufStatus] s t) ∧
    (stageSize s < rd s (obj .bufStatus) BufStatus.STAGED + (p.imgs.map fun i => refBillets i.ref).sum →
      Safety.Gives (.pageReturnStart q) s fun t =>
      Safety.Counted .bufCtr 0 3 1 s t ∧ Safety.Told s t ∧ Safety.RegsKept (.bufCtr :: Safety.telling) s t)) ∧
  (∀ (q : Nat) (p : Page) (s : State), (getQ s q).pages.find? reading = some p →
    (Safety.Gives (.pageReturnComplete q .clean) s fun t =>
      Safety.Counted .peatCtr 0 1 1 s t ∧ (∀ e ∈ (getQ t q).pages, e.handle ≠ p.handle) ∧
      (∃ l m, (getQ t q).head = (getQ s q).head ++ l ++ m ∧ l.map Ref.len = p.imgs.map (fun i => i.ref.len) ∧
        (∀ r ∈ l, r.page = some p.handle) ∧ (m = [] ∨ m = (getQ s q).tail)) ∧
      Safety.RegsKept (.peatCtr :: .poolStatus :: .peatStatus :: .qSpill :: .bufStatus :: Safety.telling) s t) ∧
    (p.imgs ≠ [] → Safety.Gives (.pageReturnComplete q .badRecord) s fun t =>
      Safety.Counted .peatCtr 0 1 1 s t ∧ Safety.Counted .peatCtr 0 4 p.imgs.length s t ∧ (∀ e ∈ (getQ t q).pages, e.handle ≠ p.handle) ∧
        t.buf = { s.buf with rdAt := t.buf.rdAt } ∧ Safety.RegsKept (.peatCtr :: .poolStatus :: .peatStatus :: .qSpill :: .bufStatus :: Safety.raising) s t) ∧
    (p.phase = .reading 1 → Safety.Gives (.pageReadTimeout q) s fun t =>
      (getQ t q).pages = (getQ s q).pages.map (fun e => if e.handle = p.handle then { e with phase := .reading 2 } else e) ∧
        Safety.Counted .peatCtr 0 5 1 s t ∧ Safety.RegsKept (.peatCtr :: Safety.raising) s t) ∧
    (p.phase = .reading 2 → p.imgs ≠ [] → Safety.Gives (.pageReadTimeout q) s fun t =>
      Safety.Counted .peatCtr 0 4 p.imgs.length s t ∧ ∀ e ∈ (getQ t q).pages, e.handle ≠ p.handle)) ∧
  (∀ s : State, (∀ st ∈ [2, 3, 4, 5], rd s (obj .hbStatus st) HbStatus.STATE ≠ 0) → flag s (obj .peatStatus) PeatStatus.READY = false →
    (2 ≤ (([2, 3, 4, 5] : List Nat).filter (hbmReady s)).length → Safety.Gives .pageRingBuilt s fun t =>
      flag t (obj .peatStatus) PeatStatus.READY = true ∧ rd t (obj .peatStatus) PeatStatus.PAGES_FREE =
        1474560 * (([2, 3, 4, 5] : List Nat).filter (hbmReady s)).length - (pagesInUse s).length ∧
      t = { s with regs := t.regs } ∧ Safety.RegsKept [.peatStatus] s t) ∧
    ((([2, 3, 4, 5] : List Nat).filter (hbmReady s)).length < 2 → Safety.Gives .pageRingBuilt s fun t => t = s)) ∧
  (∀ s : State, flag s (obj .shCtl) ShCtl.EN = true → s.buf.round = false → Safety.Gives .sheepdogRoundStart s fun t =>
    t.buf.round = true ∧ t.buf.rounds = s.buf.rounds + 1 ∧ Safety.RegsKept Safety.telling s t ∧
    (s.buf.rounds ≠ 0 → s.buf.roundAt + rd s (obj .shCtl) ShCtl.PERIOD * ms ≤ t.clock) ∧
    ∀ n x, getPkt s n = some x → getPkt t n = some { x with mark := if n ∈ rooted s then (s.buf.rounds + 1) % 256 else x.mark }) ∧
  (∀ (took : Fin 101) (s : State), s.buf.round = true →
    ((∀ e ∈ s.buf.pkts, e.2.mark ≠ s.buf.rounds % 256 → e.2.desc ∉ s.buf.suspects) → (∀ i ∈ s.buf.lostBillets, i ∉ s.buf.strays) →
      (∀ e ∈ s.buf.lostPages, e.1 + Config.billets ∉ s.buf.strays) → Safety.Gives (.sheepdogRoundEnd took) s fun t =>
      t.buf.round = false ∧ t.buf.suspects = ((s.buf.pkts.filter fun e => e.2.mark != s.buf.rounds % 256).map fun e => e.2.desc) ∧
        rd t (obj .shStatus) ShStatus.LAST_LEAKS = 0 ∧ rd t (obj .shStatus) ShStatus.LAST_MS = took.val ∧
        rd t (obj .shStatus) ShStatus.ROUND = (rd s (obj .shStatus) ShStatus.ROUND + 1) % 2 ^ 32 ∧ t.buf.pkts = s.buf.pkts ∧
        s.buf.roundAt + took.val * ms ≤ t.clock ∧ Safety.Counted .poolGctr 5 0 1 s t ∧
        Safety.RegsKept (.shStatus :: .poolGctr :: Safety.telling) s t) ∧
    (∀ n x, (s.buf.pkts.filter fun e => e.2.mark != s.buf.rounds % 256) = [(n, x)] → x.desc ∈ s.buf.suspects → s.buf.lostBillets = [] →
      s.buf.lostPages = [] → flag s (obj .shCtl) ShCtl.RECLAIM = true → Safety.Gives (.sheepdogRoundEnd took) s fun t =>
      getPkt t n = none ∧ rd t (obj .shStatus) ShStatus.LAST_LEAKS = 1 ∧ Safety.Counted .poolGctr 3 0 1 s t))

/-! ## Chapter 11: fabric topology -/

/-- Links of the fabric (R342, R346 to R348, R353, R354, R356 to R358, R365, R382): a restart brings the settings' plan into force, its links
DOWN and every other UNUSED, under a new incarnation; a link trains, its settings in force, exchanges hellos, and is UP after 64 alike that pass every check, or
MISMATCH with the check that failed; lost keepalives quarantine it, the hold's end starts a trial, and a clean trial brings it UP; a loss of
signal and a down notice take it DOWN with a notice sent; ADMIN_QUAR and ADMIN_UP do as R356, R357 and R365 say.
The model's readings in it: log entries 49, 50, 51 and 84. -/
def Obligations.FabricLinks : Prop :=
  (∀ (c : Hdr) (s : State) (w : Waiting), Safety.Sets s c w fabK FabSet.RESTART 1 → Safety.Gives (.fabricRestart c) s fun t =>
    Safety.Done t w [] ∧ t.fab.plan = planOfSettings s ∧ t.fab.inc ≠ s.fab.inc ∧
    (∀ k < 64, k ∉ planLinks t.fab.plan → linkState t k = lsUnused) ∧
    (∀ k < 64, k ∈ planLinks t.fab.plan → linkState t k = lsDown ∨ linkState t k = lsQuar) ∧
    Safety.RegsKept (.fabSet :: .poolStatus :: .bufStatus :: .portGrant :: Safety.raising) s t) ∧
  (∀ (k : Fin 64) (s : State),
    (linkState s k.val = lsDown → flag s (flC k.val) FlCtl.ADMIN_UP = true → linkShed s k.val = false →
      Safety.Gives (.linkTrainingStart k) s fun t =>
        linkState t k.val = lsTraining ∧ rd t (flKey k.val) FlStatus.CAUSE = 0 ∧ Safety.RegsKept (.flStatus :: Safety.telling) s t) ∧
    (linkState s k.val = lsTraining → Safety.Gives (.linkTrained k) s fun t =>
      linkState t k.val = lsHello ∧ (∃ c, (getFl t k.val).ctl = flTaken (rdWord s (flC k.val)) c) ∧
        Safety.RegsKept (.flStatus :: Safety.telling) s t) ∧
    (linkState s k.val ∈ [lsHello, lsMismatch, lsQuar] → Safety.Gives (.helloSend k) s fun t =>
      t = { s with out := .hello k.val (helloOf s k.val) :: s.out })) ∧
  (∀ (k : Fin 64) (h : Hello) (s : State), unaddressed s h = false →
    (linkState s k.val = lsHello → helloCause s k.val h = 0 → (getFl s k.val).hello = some h →
      (63 ≤ (getFl s k.val).helloN → inSafe s = false → flag s (flC k.val) FlCtl.ADMIN_QUAR = false →
        Safety.Gives (.helloReceive k h) s fun t =>
          (linkState t k.val = lsUp ∨ inSafe t = true) ∧ Safety.RegsKept Safety.raising s t) ∧
      ((getFl s k.val).helloN < 63 → Safety.Gives (.helloReceive k h) s fun t =>
        linkState t k.val = lsHello ∧ (getFl t k.val).helloN = (getFl s k.val).helloN + 1 ∧
          rd t (flKey k.val) FlStatus.PEER_ADDR = h.addr.toNat ∧ rd t (flKey k.val) FlStatus.PEER_SERIAL = h.serial.toNat ∧
          Safety.RegsKept [.flStatus] s t)) ∧
    (linkState s k.val = lsHello ∨ linkState s k.val = lsUp → helloCause s k.val h ≠ 0 → Safety.Gives (.helloReceive k h) s fun t =>
      ((linkState t k.val = lsMismatch ∧ rd t (flKey k.val) FlStatus.CAUSE = helloCause s k.val h) ∨ (inSafe s = false ∧ inSafe t = true)) ∧
        Safety.RegsKept Safety.raising s t) ∧
    (linkState s k.val = lsMismatch → (getFl s k.val).hello = some h → helloCause s k.val h = 0 →
      Safety.Gives (.mismatchRecheck k) s fun t => linkState t k.val = lsHello ∧ Safety.RegsKept (.flStatus :: Safety.telling) s t)) ∧
  (∀ (k : Fin 64) (s : State), linkState s k.val = lsUp →
    (Safety.Gives (.keepaliveLoss k) s fun t => linkState t k.val = lsQuar ∧ t.fab.stale = true ∧ Safety.RegsKept Safety.raising s t) ∧
    (∀ x q e, getFl s k.val = x → q = x.cells.length + (x.spent.map Prod.snd).sum →
      e = ((x.e : Int) + (65536 * (q : Int) - x.e).fdiv 8).toNat → Safety.Gives (.congestionSample k) s fun t =>
      (getFl t k.val).e = e ∧ (getFl t k.val).samples = min 1024 (x.samples + 1) ∧
        rd t (flKey k.val) FlStatus.CONG = min (e / 65536) 65535 ∧
        (1023 ≤ x.samples → rd t (flKey k.val) FlStatus.SAMPLED = 1) ∧ Safety.RegsKept [.flStatus] s t ∧
        t = { s with regs := t.regs, fab := { s.fab with links := t.fab.links } })) ∧
  (∀ (k : Fin 64) (s : State), linkState s k.val ∈ [lsTraining, lsHello, lsUp, lsMismatch] →
    (recent s (getFl s k.val).falls (10 * sec)).length < 5 →
    ∀ c ∈ [Instr.fabricLinkDown k, .downNoticeReceive k], Safety.Gives c s fun t =>
      (linkState t k.val = lsDown ∨ (inSafe s = false ∧ inSafe t = true)) ∧ Out.downNotice k.val ∈ t.out ∧
        Safety.RegsKept Safety.raising s t) ∧
  (∀ (k : Fin 64) (s : State), linkState s k.val = lsQuar → quarHeld s k.val = false →
    ((getFl s k.val).trial = false → Safety.Gives (.quarHoldExpire k) s fun t =>
      (getFl t k.val).trial = checksPass s k.val ∧ (getFl t k.val).holdAt = t.clock ∧
        (getFl s k.val).holdAt + rd s fabK FabSet.QUAR_HOLD * sec ≤ t.clock ∧ Safety.RegsKept Safety.telling s t) ∧
    ((getFl s k.val).trial = true → checksPass s k.val = true → Safety.Gives (.quarantineTrialEnd k true) s fun t =>
      (linkState t k.val = lsUp ∨ inSafe t = true) ∧ (getFl s k.val).holdAt + sec ≤ t.clock ∧ Safety.RegsKept Safety.raising s t) ∧
    ((getFl s k.val).trial = true → Safety.Gives (.quarantineTrialEnd k false) s fun t =>
      (getFl t k.val).trial = false ∧ (getFl t k.val).holdAt = s.clock ∧ t = { s with fab := { s.fab with links := t.fab.links } })) ∧
  (∀ (c : Hdr) (k : Fin 64) (s : State) (w : Waiting),
    (Safety.Sets s c w (flC k.val) FlCtl.ADMIN_QUAR 1 → flag s (flC k.val) FlCtl.ADMIN_QUAR = false →
      flag s (flC k.val) FlCtl.ADMIN_UP = true → linkState s k.val ≠ lsUnused → Safety.Gives (.adminQuarSet c k) s fun t =>
      Safety.Done t w [] ∧ linkState t k.val = lsQuar ∧ flag t (flC k.val) FlCtl.ADMIN_QUAR = true ∧
        Safety.RegsKept (.flCtl :: Safety.raising) s t) ∧
    (Safety.Sets s c w (flC k.val) FlCtl.ADMIN_QUAR 0 → flag s (flC k.val) FlCtl.ADMIN_QUAR = true →
      flag s (flC k.val) FlCtl.ADMIN_UP = true → inSafe s = false → linkState s k.val = lsQuar → rd s (flKey k.val) FlStatus.CAUSE = 1 →
      Safety.Gives (.adminQuarClear c k) s fun t =>
      Safety.Done t w [] ∧ linkState t k.val = lsQuar ∧ (getFl t k.val).trial = checksPass s k.val ∧
        flag t (flC k.val) FlCtl.ADMIN_QUAR = false ∧ Safety.RegsKept [.flCtl, .sessStatus] s t) ∧
    (Safety.Sets s c w (flC k.val) FlCtl.ADMIN_UP 0 → linkState s k.val ≠ lsUnused →
      (recent s (getFl s k.val).falls (10 * sec)).length < 5 → Safety.Gives (.fabricAdminDown c k) s fun t =>
      Safety.Done t w [] ∧ (linkState t k.val = lsDown ∨ (inSafe s = false ∧ inSafe t = true)) ∧
        flag t (flC k.val) FlCtl.ADMIN_UP = false ∧ Safety.RegsKept (.flCtl :: Safety.raising) s t) ∧
    (Safety.Sets s c w (flC k.val) FlCtl.ADMIN_UP 1 → flag s (flC k.val) FlCtl.ADMIN_QUAR = false → linkState s k.val = lsDown →
      Safety.Gives (.fabricAdminUp c k) s fun t =>
      Safety.Done t w [] ∧ linkState t k.val = lsDown ∧ flag t (flC k.val) FlCtl.ADMIN_UP = true ∧
        Safety.RegsKept [.flCtl, .sessStatus] s t))

/-- Records and routes (R349 to R352, R360): a record newer than the one held is held and flooded on every other UP link, and one that is
not changes nothing; a refresh floods the node's own; a record expires 3.5 s after it came; a rebuild gives every node with a record its hop count by the records
held; packets that wait for a node that stays unreachable are dropped.
The model's readings in it: log entry 49. -/
def Obligations.FabricRoutes : Prop :=
  (∀ (k : Fin 64) (r : LinkRecord) (s : State), linkState s k.val = lsUp →
    (r.addr.toNat ≠ s.fab.plan.addr → tabGet? s.fab.incs r.addr.toNat = some r.inc.toNat → tabGet s.fab.records r.addr.toNat [] = [] →
      Safety.Gives (.linkStateRecord k r) s fun t =>
        tabGet t.fab.records r.addr.toNat [] = [⟨r, s.clock⟩] ∧ t.fab.stale = true ∧
        (∀ j ∈ upLinks s, j ≠ k.val → Out.record j r ∈ t.out) ∧
        t = { s with fab := { s.fab with records := t.fab.records, stale := true }, out := t.out }) ∧
    (∀ h : Held, (tabGet s.fab.records r.addr.toNat []).find? (fun h => h.record.serial == r.serial) = some h → r.time ≤ h.record.time →
      Safety.Gives (.linkStateRecord k r) s fun t => t = s)) ∧
  (∀ s : State,
    (s.fab.started = true → Safety.Gives .recordRefresh s fun t =>
      ∃ r : LinkRecord, r.addr = BitVec.ofNat 12 s.fab.plan.addr ∧ r.mask = BitVec.ofNat 64 (maskOf (upLinks s)) ∧
        r.time = max (nowNs s) (s.fab.genTime + 1) ∧ (∀ j ∈ upLinks s, Out.record j r ∈ t.out) ∧
        (∃ h ∈ tabGet t.fab.records r.addr.toNat [], h.record = r) ∧
        t = { s with fab := { s.fab with records := t.fab.records, stale := true, genTime := r.time }, out := t.out }) ∧
    (s.fab.started = false → Safety.Gives .recordRefresh s fun t => t = s)) ∧
  (∀ (a : Fin 4096) (h : Held) (s : State), a.val ≠ s.fab.plan.addr → tabGet s.fab.records a.val [] = [h] →
    Safety.Gives (.recordExpire a) s fun t =>
      tabGet? t.fab.records a.val = none ∧ t.fab = { s.fab with records := t.fab.records, stale := true } ∧
        h.came + 3500 * ms ≤ t.clock ∧ Safety.RegsKept Safety.telling s t) ∧
  (∀ s : State,
    (s.fab.stale = true → Safety.Gives (.routeRebuild none) s fun t =>
      t.fab.stale = false ∧ Safety.Counted .rtCtr 0 3 1 s t ∧
      (∀ n ∈ routeNodes s, rd t (routeKey n) Route.DIST = if n = s.fab.plan.addr then 0
        else if 2 ≤ (tabGet s.fab.records n []).length then 7 else hopsTo (hopsFrom s s.fab.plan.addr) n) ∧
      Safety.RegsKept (.route :: .rtCtr :: Safety.telling) s t) ∧
    (s.fab.stale = false → Safety.Gives (.routeRebuild none) s fun t => t = s) ∧
    (∀ n : Fin 4096, Safety.Gives (.routeRebuild (some n)) s fun t => t.fab.stale = false)) ∧
  (∀ (n : Fin 4096) (s : State), n.val ≠ s.fab.plan.addr →
    (reachable s n.val = false → Safety.Gives (.unreachFlush n) s fun t =>
      (∀ q < Config.voqs, q / 384 = n.val → (getQ t q).head = [] ∧ (getQ t q).pages = [] ∧ (getQ t q).tail = []) ∧
      (∀ t0, tabGet? s.fab.unreach n.val = some t0 → t0 + rd s fabK FabSet.UNREACH_FLUSH * ms ≤ t.clock) ∧
      Safety.RegsKept (.bufStatus :: .poolStatus :: .poolGctr :: .peatStatus :: .qSpill :: .voqGctr :: Safety.raising) s t) ∧
    (reachable s n.val = true → Safety.Gives (.unreachFlush n) s fun t => t = s))

/-! ## Chapter 12: fabric transport -/

/-- Cells on links (R369, R372 to R376, R383, R384, R394): a cell with a bad header is counted and its slot freed; a cell for another node
joins the link that R355 and R375 choose, and the credits it carries come back; one for this node, next in order, adds its bytes to its
stream, and a poisoned one discards them and is counted; a cell leaves on its link against a credit of its virtual channel, or is counted as
waiting; credit words return credits; a gap is given up REORDER_TMO after it began, its cells counted as lost.
The model's readings in it: log entries 8, 52 and 83. -/
def Obligations.FabricCells : Prop :=
  (∀ (k : Fin 64) (cell : Cell) (f : CellFault) (s : State), linkState s k.val = lsUp → cellHeaderOk cell = false → cell.fecBad = false →
    (getFl s k.val).cells = [] → (recent s (getFl s k.val).crcAt ms).length < 15 → Safety.Gives (.cellReceive k cell f) s fun t =>
      Safety.Counted .flCtr k.val 1 1 s t ∧ Safety.Counted .flCtr k.val 4 1 s t ∧
      Out.credits k.val (vcOf cell) (tabGet (getFl s k.val).freed (vcOf cell) 0 + 1) ∈ t.out ∧ (getFl t k.val).freed = [] ∧
      Safety.RegsKept (.flCtr :: Safety.telling) s t) ∧
  (∀ (k j : Fin 64) (cell c c' : Cell) (s : State), linkState s k.val = lsUp → cellHeaderOk cell = true → cell.fecBad = false →
    cell.crcOk = true → cell.poison = false → cell.type = 0 → cell.dst.toNat ≠ me s → cell.hops.toNat < 5 →
    c = { cell with hops := cell.hops + 1, poison := false, crcOk := true, fecBad := false, fecCor := 0, credVc := 0, credN := 0 } →
    chooseLink s c = some (j.val, c', false) → Safety.Gives (.cellReceive k cell .none) s fun t =>
      (getFl t j.val).cells =
        (getFl s j.val).cells ++ [{ cell := c', pieces := [], slot := some (k.val, vcOf cell, s.fab.cellNo), waited := false }] ∧
      tabGet (getFl t k.val).spent cell.credVc.toNat 0 = tabGet (getFl s k.val).spent cell.credVc.toNat 0 - cell.credN.toNat ∧
      Safety.Counted .flCtr k.val 1 1 s t ∧ Safety.RegsKept (.flCtr :: Safety.telling) s t) ∧
  (∀ (k : Fin 64) (cell : Cell) (q : Nat) (x : DstStream) (s : State), linkState s k.val = lsUp → cellHeaderOk cell = true →
    cell.fecBad = false → cell.crcOk = true → cell.type = 0 → cell.dst.toNat = me s →
    q = voqOf cell.src.toNat cell.port.toNat cell.tc.toNat → getDst s q = x → cell.seq.toNat = x.expect → x.held = [] → x.waits = [] →
    (cell.poison = false → x.poisoned = [] → x.synced = true → cell.recOff ≠ 0 →
      nextPacket (x.buf ++ toBytes 240 cell.payload.toNat) cell.endOff.toNat = .wait → Safety.Gives (.cellReceive k cell .none) s fun t =>
      getDst t q = { x with buf := x.buf ++ toBytes 240 cell.payload.toNat, expect := (x.expect + 1) % 2 ^ 18 } ∧
        Safety.Counted .flCtr k.val 1 1 s t ∧ Safety.RegsKept (.flCtr :: Safety.telling) s t) ∧
    (cell.poison = true → cell.tc ≠ 7 → x.buf ≠ [] → cell.recOff = 255 → Safety.Gives (.cellReceive k cell .none) s fun t =>
      (getDst t q).buf = [] ∧ (getDst t q).synced = false ∧ (getDst t q).expect = (x.expect + 1) % 2 ^ 18 ∧
        Safety.Counted .trCtr 0 4 1 s t ∧ Safety.RegsKept (.flCtr :: .trCtr :: Safety.telling) s t)) ∧
  (∀ (k : Fin 64) (x : Fl) (c : FabCell) (s : State), linkState s k.val = lsUp → getFl s k.val = x →
    (nextCell x = some c → c.slot = none → x.freed = [] → Safety.Gives (.cellForward k) s fun t =>
      Out.cell k.val c.cell c.pieces ∈ t.out ∧ (getFl t k.val).cells = x.cells.erase c ∧
      tabGet (getFl t k.val).spent (vcOf c.cell) 0 = tabGet x.spent (vcOf c.cell) 0 + 1 ∧ Safety.Counted .flCtr k.val 0 1 s t ∧
      Safety.RegsKept (.flCtr :: Safety.telling) s t) ∧
    (∀ rest, nextCell x = none → x.cells = c :: rest → c.waited = false → Safety.Gives (.cellForward k) s fun t =>
      (getFl t k.val).cells = { c with waited := true } :: rest ∧ Safety.Counted .rlCtr k.val 3 1 s t ∧
      Safety.RegsKept (.rlCtr :: Safety.telling) s t) ∧
    (∀ l : List Nat, l.length = 7 → Safety.Gives (.creditWord k l) s fun t =>
      (∀ vc < 7, tabGet (getFl t k.val).spent vc 0 = tabGet x.spent vc 0 - l.getD vc 0) ∧
      (getFl t k.val).cells = x.cells ∧ t = { s with fab := { s.fab with links := t.fab.links } })) ∧
  (∀ (n : Fin 4096) (p : Fin 48) (tc : Fin 8) (q : Nat) (x : DstStream) (s : State), q = voqOf n.val p.val tc.val → getDst s q = x →
    (∀ h d, x.held = [h] → h.seq < 2 ^ 18 → x.expect < 2 ^ 18 → seqAhead x.expect h.seq = some d → 0 < d → h.bytes = none → h.recOff = 255 →
      x.waits = [] → Safety.Gives (.reorderTimeout ⟨n, some p, tc⟩) s fun t =>
      Safety.Counted .trCtr 0 2 d s t ∧ Safety.Counted .trCtr 0 3 1 s t ∧ (getDst t q).expect = (h.seq + 1) % 2 ^ 18 ∧
        (getDst t q).held = [] ∧ (getDst t q).buf = [] ∧ (getDst t q).synced = false ∧
        (s.time.stepped ≤ (s.ct : Int) → x.gapAt + rd s trK TrCtl.REORDER_TMO * 65536000 ≤ ivl t) ∧
        Safety.RegsKept (.trCtr :: Safety.telling) s t) ∧
    (x.held = [] → Safety.Gives (.reorderTimeout ⟨n, some p, tc⟩) s fun t => t = s))

/-- End-to-end credit (R326, R371, R377 to R382, R386, R388, R391): a VOQ whose turn it is sends its head packet within its balance and
spends its charge, and while the end of a packet in it has yet to arrive sends nothing more, its rest once that has come; multicast spends it for every reachable member, and goes without balance after COPY_TMO, counted; a stream whose packets
exceed its balance asks for credit, again when its backlog has changed, at most once a microsecond; a destination grants at most 256 billets, which it draws; both sides keep
the greater number; a stream that has had nothing to send for CREDIT_KEEP gives its balance back; SYNC, MC_SYNC after the last, makes CONSUMED equal SENT; a message under another
incarnation is discarded and counted.
The model's readings in it: log entries 52 and 83. -/
def Obligations.EndToEndCredit : Prop :=
  (∀ (n : Fin 4096) (p : Fin 48) (tc : Fin 8) (q : Nat) (r : Ref) (rest : List Ref) (pk : Packet) (s u : State),
    q = voqOf n.val p.val tc.val → n.val ≠ me s → (getQ s q).head = r :: rest → (getQ s q).spilled = false → getPkt s r.pkt = some pk →
    protPort s pk.arrPort = false → (getSrc s q).open_ = none → isArriving s r.pkt = false →
    (if r.lease then pk.leases ≠ 0 else pk.owner = r.from_) →
    (maySend s q = true → takeTurn q s = some u → pk.bad = false → Safety.Gives (.voqSend ⟨n, some p, tc⟩) s fun t =>
      (getQ t q).head = rest ∧ (getSrc t q).spent = ((getSrc s q).spent + chargeOf r) % 2 ^ 32 ∧
        (getSrc t q).granted = (getSrc s q).granted ∧
        Safety.RegsKept (.bufStatus :: .poolStatus :: .poolCtr :: .voqGctr :: .lpCtr :: .rtCtr :: .flCtr :: Safety.telling) s t) ∧
    (maySend s q = true → takeTurn q s = some u → pk.bad = true → r.lease = false → pk.leases = 0 →
      Safety.Gives (.voqSend ⟨n, some p, tc⟩) s fun t =>
      (getQ t q).head = rest ∧ getPkt t r.pkt = none ∧ t.fab = s.fab) ∧
    (maySend s q = false → Safety.Gives (.voqSend ⟨n, some p, tc⟩) s fun t => t = s)) ∧
  (∀ (n : Fin 4096) (p : Fin 48) (tc : Fin 8) (q d : Nat) (r : Ref) (s : State), q = voqOf n.val p.val tc.val →
    (getSrc s q).open_ = some (r, d) →
    (isArriving s r.pkt = true → Safety.Gives (.voqSend ⟨n, some p, tc⟩) s fun t => t = s) ∧
    (∀ pk, isArriving s r.pkt = false → getPkt s r.pkt = some pk → (if r.lease then pk.leases ≠ 0 else pk.owner = r.from_) →
      Safety.Gives (.voqSend ⟨n, some p, tc⟩) s fun t =>
      (getSrc t q).open_ = none ∧ (getSrc t q).fill = 0 ∧ (getSrc t q).spent = (getSrc s q).spent ∧
        (getSrc t q).granted = (getSrc s q).granted ∧
        Safety.RegsKept (.bufStatus :: .poolStatus :: .poolCtr :: .voqGctr :: .lpCtr :: .rtCtr :: .flCtr :: Safety.telling) s t)) ∧
  (∀ (tc : Fin 8) (r : Ref) (rest : List Ref) (pk : Packet) (s u : State), inSafe s = false →
    (getQ s (mqOf tc.val)).head = r :: rest → (getQ s (mqOf tc.val)).spilled = false → getPkt s r.pkt = some pk → pk.bad = false →
    protPort s pk.arrPort = false → me s ∉ membersOf s (r.group.getD 0) → (if r.lease then pk.leases ≠ 0 else pk.owner = r.from_) →
    (mcReady s tc.val = true → takeTurn (mqOf tc.val) s = some u → Safety.Gives (.multicastSend tc) s fun t =>
      (getQ t (mqOf tc.val)).head = rest ∧
        ∀ n ∈ reachableMembers s (r.group.getD 0),
          (getMs t (8 * n + tc.val)).spent = ((getMs s (8 * n + tc.val)).spent + mcCharge r) % 2 ^ 32 ∧
          (getMs t (8 * n + tc.val)).synced = false) ∧
    (mcReady s tc.val = false → Safety.Gives (.multicastSend tc) s fun t => t = s) ∧
    (mcReady s tc.val = false → lossless s tc.val = false → isArriving s r.pkt = false → Safety.Gives (.copyTimeout tc) s fun t =>
      Safety.Counted .trCtr 0 6 1 s t ∧ (getQ t (mqOf tc.val)).head = rest ∧
        (s.time.stepped ≤ (s.ct : Int) → (getQ s (mqOf tc.val)).headAt + rd s trK TrCtl.COPY_TMO * 65536000 ≤ ivl t)) ∧
    (isArriving s r.pkt = true → Safety.Gives (.copyTimeout tc) s fun t => t = s) ∧
    (lossless s tc.val = true → Safety.Gives (.copyTimeout tc) s fun t => t = s)) ∧
  (∀ (n : Fin 4096) (p : Fin 48) (tc : Fin 8) (k : Nat) (x : SrcStream) (s : State), n.val ≠ me s → orderedLink s n.val = some k →
    getSrc s (voqOf n.val p.val tc.val) = x →
    (x.reqAt = none → balance x < backlogOf s (voqOf n.val p.val tc.val) chargeOf → Safety.Gives (.requestSend ⟨n, some p, tc⟩) s fun t =>
      Out.control k n.val 1 [tc.val, p.val, min (backlogOf s (voqOf n.val p.val tc.val) chargeOf) (2 ^ 32 - 1), x.spent, x.seq, s.fab.inc,
        tabGet s.fab.incs n.val 0] ∈ t.out ∧
      getSrc t (voqOf n.val p.val tc.val) =
        { x with reqAt := some s.clock, reqLog := backlogOf s (voqOf n.val p.val tc.val) chargeOf } ∧
      Safety.Counted .trCtr 0 0 1 s t ∧ Safety.RegsKept (.trCtr :: Safety.telling) s t) ∧
    (backlogOf s (voqOf n.val p.val tc.val) chargeOf ≤ balance x → Safety.Gives (.requestSend ⟨n, some p, tc⟩) s fun t => t = s) ∧
    (∀ t0, x.reqAt = some t0 → s.clock < t0 + 1000 → Safety.Gives (.requestSend ⟨n, some p, tc⟩) s fun t => t = s) ∧
    (∀ t0, x.reqAt = some t0 → x.reqLog = backlogOf s (voqOf n.val p.val tc.val) chargeOf →
      Safety.Gives (.requestSend ⟨n, some p, tc⟩) s fun t => t = s) ∧
    (depth (getQ s (voqOf n.val p.val tc.val)) = 0 → balance x ≠ 0 → x.fill = 0 → x.open_ = none → Safety.Gives (.creditKeepExpire ⟨n, some p, tc⟩) s fun t =>
      getSrc t (voqOf n.val p.val tc.val) = { x with spent := x.granted } ∧
      t.fab = { s.fab with src := t.fab.src } ∧
      Out.control k n.val 3 [tc.val, p.val, x.granted, x.seq, s.fab.inc, tabGet s.fab.incs n.val 0] ∈ t.out ∧
      (s.time.stepped ≤ (s.ct : Int) →
        (getQ s (voqOf n.val p.val tc.val)).emptyAt + rd s trK TrCtl.CREDIT_KEEP * 65536000 ≤ ivl t) ∧ Safety.RegsKept Safety.telling s t) ∧
    (x.open_ ≠ none → Safety.Gives (.creditKeepExpire ⟨n, some p, tc⟩) s fun t => t = s) ∧
    (depth (getQ s (voqOf n.val p.val tc.val)) ≠ 0 → Safety.Gives (.creditKeepExpire ⟨n, some p, tc⟩) s fun t => t = s)) ∧
  (∀ (n : Fin 4096) (tc : Fin 8) (k : Nat) (x : SrcStream) (s : State), n.val ≠ me s → orderedLink s n.val = some k →
    getMs s (8 * n.val + tc.val) = x →
    (x.synced = false → Safety.Gives (.syncSend n tc) s fun t =>
      getMs t (8 * n.val + tc.val) = { x with synced := true, syncAt := t.clock } ∧ x.syncAt + rd s trK TrCtl.MC_SYNC * ms ≤ t.clock ∧
      t.fab = { s.fab with mcSrc := t.fab.mcSrc } ∧
      Out.control k n.val 4 [tc.val, x.spent, s.fab.inc, tabGet s.fab.incs n.val 0] ∈ t.out ∧ Safety.RegsKept Safety.telling s t) ∧
    (x.synced = true → Safety.Gives (.syncSend n tc) s fun t => t = s)) ∧
  (∀ (m : CreditMsg) (s : State), m.peer.toNat ≠ me s →
    (m.peerInc.toNat = s.fab.inc → tabGet? s.fab.incs m.peer.toNat = some m.inc.toNat → m.port.toNat < 48 →
      (∀ q x, q = voqOf m.peer.toNat m.port.toNat m.tc.val → getDst s q = x → m.nextSeq.toNat = x.expect →
        (Safety.Gives (.requestReceive m) s fun t =>
          getDst t q = { x with consumed := serialMax x.consumed m.value.toNat, spent := m.value.toNat, backlog := m.backlog } ∧
          t = { s with regs := t.regs, fab := { s.fab with dst := t.fab.dst } } ∧
          Safety.RegsKept [.poolStatus, .bufStatus, .portGrant] s t) ∧
        (Safety.Gives (.returnReceive m) s fun t =>
          getDst t q = { x with consumed := serialMax x.consumed m.value.toNat, spent := m.value.toNat, backlog := 0 } ∧
          t = { s with regs := t.regs, fab := { s.fab with dst := t.fab.dst } } ∧
          Safety.RegsKept [.poolStatus, .bufStatus, .portGrant] s t)) ∧
      (∀ q x, q = voqOf m.peer.toNat m.port.toNat m.tc.val → getSrc s q = x → Safety.Gives (.grantReceive m) s fun t =>
        getSrc t q = { x with granted := serialMax x.granted m.value.toNat } ∧
        t = { s with fab := { s.fab with src := t.fab.src } }) ∧
      (∀ x, getMc s (mcKey m.peer.toNat m.tc.val) = x → Safety.Gives (.syncReceive m) s fun t =>
        getMc t (mcKey m.peer.toNat m.tc.val) = { x with consumed := m.value.toNat } ∧
        t = { s with regs := t.regs, fab := { s.fab with mcDst := t.fab.mcDst } } ∧ Safety.RegsKept [.poolStatus, .bufStatus] s t)) ∧
    (m.peerInc.toNat ≠ s.fab.inc → m.peerInc ≠ 0 →
      ∀ c ∈ [Instr.requestReceive m, .returnReceive m, .grantReceive m, .syncReceive m], Safety.Gives c s fun t =>
        Safety.Counted .trCtr 0 11 1 s t ∧ Safety.Told s t ∧ Safety.RegsKept (.trCtr :: Safety.telling) s t)) ∧
  (∀ (n : Fin 4096) (p : Fin 48) (tc : Fin 8) (q g : Nat) (s u : State), q = voqOf n.val p.val tc.val → grantSize s q = g →
    (0 < g → grantTurn q s = some u → Safety.Gives (.grant ⟨n, some p, tc⟩) s fun t =>
      g ≤ 256 ∧ (getDst t q).granted = ((getDst s q).granted + g) % 2 ^ 32 ∧
      rd t (grantKey p.val) PortGrant.OUTSTANDING = rd s (grantKey p.val) PortGrant.OUTSTANDING + g ∧ Safety.Counted .trCtr 0 1 1 s t ∧
      (∀ k, n.val ≠ me s → orderedLink s n.val = some k →
        Out.control k n.val 2 [tc.val, p.val, ((getDst s q).granted + g) % 2 ^ 32, s.fab.inc, tabGet s.fab.incs n.val 0] ∈ t.out) ∧
      Safety.RegsKept (.portGrant :: .poolStatus :: .poolCtr :: .bufStatus :: .trCtr :: Safety.telling) s t) ∧
    (g = 0 → Safety.Gives (.grant ⟨n, some p, tc⟩) s fun t => t = s))

/-! ## Chapter 13: HBM -/

/-- Requests and commands of a stack (R397 to R402, R404 to R407): a request is held while there is room, and counted and refused without;
a read of a line that is held joins it; a refresh postponed eight times goes first, then a neighbour refresh that is due, then the request
of R397, which activates its row unless it is open; a row at RD_THRESH is hot, its neighbours due and its requester throttled; a completed
write is in memory and nothing else there has changed; ECC errors are counted and reported, and a corrected line is written back; a request
that times out, 20 µs old, leaves and its channel retrains; the scrubber reads line after line, its pass spread over SCRUB_HOURS.
The model's readings in it: log entries 53 and 90. -/
def Obligations.HbmRequests : Prop :=
  (∀ (st : Fin 6) (r : HbmReq) (x : Stack) (s : State), getStack s st.val = x → rd s (hbS st.val) HbStatus.STATE = 1 →
    flag s (hbR st.val r.req.val) HbReq.PRESENT = true →
    (r.write = false → (∃ h ∈ x.reqs, h.rq.addr = r.addr) → Safety.Gives (.hbmRequest st r) s fun t =>
      Safety.Counted .hbRqCtr (16 * st.val + r.req.val) 0 1 s t ∧ Safety.Told s t ∧ Safety.RegsKept (.hbRqCtr :: Safety.telling) s t) ∧
    ((∀ h ∈ x.reqs, h.rq.addr ≠ r.addr) →
      (hbmRoom x (pcOf r.addr) r.req.val (rd s (hbR st.val r.req.val) HbReq.CLASS) = true → Safety.Gives (.hbmRequest st r) s fun t =>
        (∃ h, (getStack t st.val).reqs = x.reqs ++ [h] ∧ h.rq = r ∧ h.cls = rd s (hbR st.val r.req.val) HbReq.CLASS ∧ h.issued = false ∧
          h.since = s.clock) ∧
        rd t (hbS st.val) HbStatus.QUEUED = x.reqs.length + 1 ∧ (getStack t st.val).mem = x.mem ∧
        Safety.Counted .hbRqCtr (16 * st.val + r.req.val) 0 1 s t ∧
        Safety.RegsKept (.hbRqCtr :: .hbStatus :: .hbReq :: Safety.telling) s t) ∧
      (hbmRoom x (pcOf r.addr) r.req.val (rd s (hbR st.val r.req.val) HbReq.CLASS) = false → Safety.Gives (.hbmRequest st r) s fun t =>
        Safety.Counted .hbPcCtr (16 * st.val + pcOf r.addr) 7 1 s t ∧ Safety.Told s t ∧
        Safety.RegsKept (.hbPcCtr :: Safety.telling) s t))) ∧
  (∀ (st : Fin 6) (pc : Fin 16) (due : Bool) (x : Stack) (s : State), getStack s st.val = x → rd s (hbS st.val) HbStatus.STATE = 1 →
    (8 < tabGet x.postponed pc.val 0 + (if due then 1 else 0) → Safety.Gives (.hbmCommandIssue st pc due) s fun t =>
      tabGet (getStack t st.val).postponed pc.val 0 = tabGet x.postponed pc.val 0 + (if due then 1 else 0) - 1 ∧
      Safety.Counted .hbPcCtr (16 * st.val + pc.val) 5 1 s t ∧ Safety.RegsKept (.hbPcCtr :: .hbRqCtr :: Safety.telling) s t) ∧
    (tabGet x.postponed pc.val 0 = 0 → (∀ h ∈ x.reqs, heldBack s st.val x h = false) →
      (∀ b, dueBank x pc.val = some b → Safety.Gives (.hbmCommandIssue st pc false) s fun t =>
        (getBank (getStack t st.val) pc.val b).due = (getBank x pc.val b).due.tail ∧ (getBank (getStack t st.val) pc.val b).row = none ∧
        Safety.Counted .hbPcCtr (16 * st.val + pc.val) 6 1 s t ∧ Safety.RegsKept (.hbPcCtr :: Safety.telling) s t) ∧
      (∀ h a, dueBank x pc.val = none → nextRequest s st.val pc.val x = some (h, a) →
        (rowHit s st.val x h = true → Safety.Gives (.hbmCommandIssue st pc false) s fun t =>
          { h with issued := true } ∈ (getStack t st.val).reqs ∧
          Safety.Counted .hbPcCtr (16 * st.val + pc.val) (if h.rq.write then 1 else 0) 1 s t ∧
          Safety.RegsKept (.hbPcCtr :: Safety.telling) s t) ∧
        (∀ k n l, rowHit s st.val x h = false → getBank x pc.val (bankOfAddr h.rq.addr) = k → trackRow k.counts (rowOf h.rq.addr) = (n, l) →
          (n < rd s (hbC st.val) HbCtl.RD_THRESH → Safety.Gives (.hbmCommandIssue st pc false) s fun t =>
            { h with issued := true } ∈ (getStack t st.val).reqs ∧
            (getBank (getStack t st.val) pc.val (bankOfAddr h.rq.addr)).counts = l ∧
            Safety.Counted .hbPcCtr (16 * st.val + pc.val) 2 1 s t ∧ Safety.RegsKept (.hbPcCtr :: Safety.telling) s t) ∧
          (rd s (hbC st.val) HbCtl.RD_THRESH ≤ n → Safety.Gives (.hbmCommandIssue st pc false) s fun t =>
            (getBank (getStack t st.val) pc.val (bankOfAddr h.rq.addr)).due = k.due ++ [rowOf h.rq.addr] ∧
            rowOf h.rq.addr ∈ (getBank (getStack t st.val) pc.val (bankOfAddr h.rq.addr)).hot ∧
            flag t (hbR st.val h.rq.req.val) HbReq.THROTTLED = true ∧ rd t (obj .hbRow st.val) HbRow.REQ = h.rq.req.val ∧
            Safety.RegsKept (.hbPcCtr :: .hbReq :: .hbRow :: Safety.raising) s t))))) ∧
  (∀ (st : Fin 6) (pc : Fin 16) (x : Stack) (h : HbmHeld) (s : State), getStack s st.val = x →
    x.reqs.find? (fun h => pcOf h.rq.addr == pc.val && h.issued) = some h → x.backs = [] →
    (Safety.Gives (.hbmRequestComplete st pc .clean) s fun t =>
      (getStack t st.val).reqs = x.reqs.erase h ∧
      (h.rq.write = true → memLoad (getStack t st.val).mem h.rq.addr 64 = toBytes 64 h.rq.data.toNat ∧
        ∀ a, a < h.rq.addr ∨ h.rq.addr + 64 ≤ a → memRead (getStack t st.val).mem a = memRead x.mem a) ∧
      (h.rq.write = false → (getStack t st.val).mem = x.mem) ∧
      t = { s with regs := t.regs, hbm := t.hbm } ∧ Safety.RegsKept [.hbStatus, .hbReq] s t) ∧
    (Safety.Gives (.hbmRequestComplete st pc .corrected) s fun t =>
      Safety.Counted .hbPcCtr (16 * st.val + pc.val) 3 1 s t ∧ (h.rq.write = true → (getStack t st.val).reqs = x.reqs.erase h) ∧
      (h.rq.write = false → ∃ l, (getStack t st.val).reqs = x.reqs.erase h ++ l ∧
        (∀ g ∈ l, g.rq.write = true ∧ g.rq.addr = h.rq.addr ∧ g.cls = 3 ∧ g.rq.data.toNat = ofBytes (memLoad x.mem h.rq.addr 64)) ∧
        (rd s (hbS st.val) HbStatus.STATE = 1 → flag s (hbR st.val (scrubberOf st.val).val) HbReq.PRESENT = true →
          (∀ g ∈ x.reqs, g.rq.write = true → g.rq.addr ≠ h.rq.addr) →
          hbmRoom { x with reqs := x.reqs.erase h } pc.val (scrubberOf st.val).val 3 = true → l.length = 1)) ∧
      Safety.RegsKept (.hbPcCtr :: .hbRqCtr :: .hbStatus :: .hbReq :: .hbChan :: Safety.telling) s t) ∧
    (Safety.Gives (.hbmRequestComplete st pc .uncorrectable) s fun t =>
      Safety.Counted .hbPcCtr (16 * st.val + pc.val) 4 1 s t ∧ (getStack t st.val).reqs = x.reqs.erase h ∧
      Safety.RegsKept (.hbPcCtr :: .hbStatus :: .hbReq :: Safety.raising) s t)) ∧
  (∀ (st : Fin 6) (pc : Fin 16) (x : Stack) (h : HbmHeld) (s : State), getStack s st.val = x → rd s (hbS st.val) HbStatus.STATE = 1 →
    x.reqs.find? (fun h => pcOf h.rq.addr == pc.val) = some h → Safety.Gives (.hbmRequestTimeout st pc) s fun t =>
      (getStack t st.val).reqs = x.reqs.erase h ∧ pc.val / 2 ∈ (getStack t st.val).retrains ∧ (getStack t st.val).mem = x.mem ∧
      h.since + 20000 ≤ t.clock ∧ Safety.RegsKept (.hbStatus :: .hbReq :: .hbChan :: Safety.raising) s t) ∧
  (∀ (st : Fin 6) (x : Stack) (s : State), getStack s st.val = x →
    (rd s (hbS st.val) HbStatus.STATE = 1 → flag s (hbC st.val) HbCtl.SCRUB_EN = true →
      (Safety.Gives (.scrubberRead st .clean) s fun t =>
        (getStack t st.val).scrub = (if hbmBytes st.val ≤ x.scrub + 64 then 0 else x.scrub + 64) ∧
        (hbmBytes st.val ≤ x.scrub + 64 → scrubAge t st.val = 0) ∧ (getStack t st.val).mem = x.mem ∧
        x.scrubAt.getD 0 + rd s (hbC st.val) HbCtl.SCRUB_HOURS * 3600 * sec * x.scrub / hbmBytes st.val ≤ t.clock ∧
        Safety.RegsKept Safety.telling s t) ∧
      (Safety.Gives (.scrubberRead st .corrected) s fun t =>
        Safety.Counted .hbPcCtr (16 * st.val + pcOf x.scrub) 3 1 s t ∧
        (x.scrub ∈ (getStack t st.val).backs ∨ ∃ g ∈ (getStack t st.val).reqs, g.rq.write = true ∧ g.rq.addr = x.scrub) ∧
        Safety.RegsKept (.hbPcCtr :: .hbRqCtr :: .hbReq :: .hbStatus :: .hbChan :: Safety.telling) s t) ∧
      (Safety.Gives (.scrubberRead st .uncorrectable) s fun t =>
        Safety.Counted .hbPcCtr (16 * st.val + pcOf x.scrub) 4 1 s t ∧
        ((getStack t st.val).mem = x.mem ∨ memLoad (getStack t st.val).mem x.scrub 64 = List.replicate 64 0) ∧
        (∀ a, a < x.scrub ∨ x.scrub + 64 ≤ a → memRead (getStack t st.val).mem a = memRead x.mem a) ∧ Safety.RegsKept (.hbPcCtr :: Safety.raising) s t)) ∧
    (flag s (hbC st.val) HbCtl.SCRUB_EN = false → ∀ e, Safety.Gives (.scrubberRead st e) s fun t => t = s))

/-- Windows, temperature and training (R403 to R405, R408, R409): a window's end clears every count, hot row and throttle; TEMP and HOT follow
what is read, and channels ten degrees from their training retrain; RETRAIN queues a channel, whose 64th slice ends its retrain, a failing
one at once, to be tried again 1 s later; training leaves every line zero, the stack READY, or FAILED with the channels that are unusable.
The model's readings in it: log entries 53 and 54. -/
def Obligations.HbmUpkeep : Prop :=
  (∀ (st : Fin 6) (s : State), Safety.Gives (.refreshWindowEnd st) s fun t =>
    rd t (obj .hbRow st.val) HbRow.HOT_ROWS = 0 ∧ (∀ r < 16, rd t (hbR st.val r) HbReq.THROTTLED = 0) ∧
    (∀ e ∈ (getStack t st.val).banks, e.2.counts = [] ∧ e.2.hot = [] ∧ e.2.slowed = []) ∧
    (getStack t st.val).mem = (getStack s st.val).mem ∧ (getStack t st.val).windowAt = t.clock ∧
    (getStack s st.val).windowAt + (if flag s (hbS st.val) HbStatus.HOT then 16 else 32) * ms ≤ t.clock ∧
    Safety.RegsKept (.hbReq :: .hbRow :: Safety.telling) s t) ∧
  (∀ (st : Fin 6) (temp : Nat) (s : State),
    (Safety.Gives (.temperatureRead st temp) s fun t =>
      rd t (hbS st.val) HbStatus.TEMP = min temp 255 ∧
      rd t (hbS st.val) HbStatus.HOT = (if 85 ≤ temp then 1 else if temp < 80 then 0 else rd s (hbS st.val) HbStatus.HOT) ∧
      Safety.RegsKept (.hbStatus :: .hbChan :: Safety.raising) s t) ∧
    (temp < rd s (hbC st.val) HbCtl.TEMP_MAX → flag s (hbC st.val) HbCtl.AUTO_RETRAIN = false → Safety.Gives (.temperatureRead st temp) s fun t =>
      t = { s with regs := t.regs } ∧ Safety.RegsKept [.hbStatus] s t) ∧
    (∀ ch < 8, flag s (hbC st.val) HbCtl.AUTO_RETRAIN = true → rd s (hbS st.val) HbStatus.STATE = 1 →
      rd s (hbCh st.val ch) HbChan.TRAIN = 1 →
      rd s (hbCh st.val ch) HbChan.TRAIN_TEMP + 10 ≤ temp ∨ temp + 10 ≤ rd s (hbCh st.val ch) HbChan.TRAIN_TEMP →
      Safety.Gives (.temperatureRead st temp) s fun t => ch ∈ (getStack t st.val).retrains)) ∧
  (∀ (st : Fin 6) (ch : Fin 8) (s : State), Safety.Gives (.readRecentre st ch) s fun t => t = s) ∧
  (∀ (c : Hdr) (st : Fin 6) (ch : Fin 8) (s : State) (w : Waiting), Safety.Sets s c w (hbC st.val) HbCtl.RETRAIN (2 ^ ch.val) →
    Safety.Gives (.retrain c st ch) s fun t =>
      Safety.Done t w [] ∧ ch.val ∈ (getStack t st.val).retrains ∧
        Safety.RegsKept [.hbCtl, .hbStatus, .hbChan, .sessStatus] s t) ∧
  (∀ (st : Fin 6) (ch : Fin 8) (x : Stack) (rest : List Nat) (s : State), getStack s st.val = x → x.retrains = ch.val :: rest → ch.val ∉ rest →
    (x.slices < 63 → Safety.Gives (.retrainSlice st ch true) s fun t =>
      (getStack t st.val) = { x with slices := x.slices + 1 } ∧ t = { s with hbm := t.hbm }) ∧
    (63 ≤ x.slices → Safety.Gives (.retrainSlice st ch true) s fun t =>
      (getStack t st.val).retrains = rest ∧ (getStack t st.val).slices = 0 ∧ rd t (hbCh st.val ch.val) HbChan.TRAIN = 1 ∧
      rd t (hbCh st.val ch.val) HbChan.TRAIN_TEMP = rd s (hbS st.val) HbStatus.TEMP ∧
      rd t (hbCh st.val ch.val) HbChan.RETRAINS = min (rd s (hbCh st.val ch.val) HbChan.RETRAINS + 1) 65535 ∧
      Safety.RegsKept [.hbStatus, .hbChan] s t) ∧
    (Safety.Gives (.retrainSlice st ch false) s fun t =>
      (getStack t st.val).retrains = rest ∧ ch.val ∈ (getStack t st.val).retry ∧
      tabGet (getStack t st.val).failedAt ch.val 0 = s.clock ∧ rd t (hbCh st.val ch.val) HbChan.TRAIN = 1 ∧
      Safety.RegsKept (.hbStatus :: .hbChan :: Safety.raising) s t)) ∧
  (∀ (st : Fin 6) (ch : Fin 8) (s : State),
    (ch.val ∈ (getStack s st.val).retry → rd s (hbS st.val) HbStatus.STATE = 1 → Safety.Gives (.retrainRetry st ch) s fun t =>
      ch.val ∈ (getStack t st.val).retrains ∧ ch.val ∉ (getStack t st.val).retry ∧
      tabGet (getStack s st.val).failedAt ch.val 0 + sec ≤ t.clock ∧ Safety.RegsKept (.hbStatus :: .hbChan :: Safety.telling) s t) ∧
    (ch.val ∉ (getStack s st.val).retry → Safety.Gives (.retrainRetry st ch) s fun t => t = s)) ∧
  (∀ (st : Fin 6) (bad : BitVec 8) (repairs : List Nat) (s : State),
    (rd s (hbS st.val) HbStatus.STATE = 0 → Safety.Gives (.hbmTrainingComplete st bad repairs) s fun t =>
      rd t (hbS st.val) HbStatus.STATE = (if bad = 0 then 1 else 2) ∧ (getStack t st.val).mem = [] ∧
      rd t (hbS st.val) HbStatus.LANES_REPAIRED = min repairs.sum 255 ∧
      (∀ ch < 8, rd t (hbCh st.val ch) HbChan.TRAIN = (if bad.getLsbD ch then 3 else 1) ∧
        rd t (hbCh st.val ch) HbChan.REPAIRS = min (repairs.getD ch 0) 255) ∧
      (bad = 0 → t = { s with regs := t.regs, hbm := t.hbm } ∧ Safety.RegsKept [.hbStatus, .hbChan] s t) ∧
      Safety.RegsKept (.hbStatus :: .hbChan :: Safety.raising) s t) ∧
    (rd s (hbS st.val) HbStatus.STATE ≠ 0 → Safety.Gives (.hbmTrainingComplete st bad repairs) s fun t => t = s))

/-! ## Chapter 14: time -/

/-- The clock service and TIME_CONTROL (R418, R422 to R426, R428, R431): a message from the divert queue is counted, and what fails a check
of R423 is counted there and has no other effect; an Announce is held, and a Sync's arrival kept; in MASTER a port sends Sync and Announce,
and answers Delay_Req, in SLAVE it sends Delay_Req; a master that sends no Announce for its timeout is forgotten; calibration; and each operation of TIME_CONTROL answers
with the common time and SERVO, and does its effect, or STATE with none, an ACTION that is not listed RANGE.
The model's readings in it: log entries 56 and 58. -/
def Obligations.ClockService : Prop :=
  (∀ (p : Fin 48) (m : PtpMsg) (x : PortTime) (s : State), ptOf s p.val = x →
    (x.divert = 0 → Safety.Gives (.ptpMessageReceive p m) s fun t => t = s) ∧
    (0 < x.divert → rateOk (setPt p.val { x with divert := x.divert - 1 } s) p.val = false → Safety.Gives (.ptpMessageReceive p m) s fun t =>
      (ptOf t p.val) = { x with divert := x.divert - 1 } ∧ Safety.Counted .tmCtr 0 0 1 s t ∧ Safety.Counted .tmCtr 3 0 1 s t ∧
      Safety.RegsKept (.tmCtr :: Safety.telling) s t) ∧
    (0 < x.divert → rateOk (setPt p.val { x with divert := x.divert - 1 } s) p.val = true →
      (m.fieldsOk = false ∨ m.domain.toNat ≠ rd s tmC TmCtl.DOMAIN ∨ typeOk s m = false ∨
          (m.msgType = 11 ∧ (255 ≤ m.stepsRemoved ∨ m.clockClass = 255 ∨ m.clockId.toNat = ownClockId s)) →
        Safety.Gives (.ptpMessageReceive p m) s fun t =>
          (ptOf t p.val).master = x.master ∧ Safety.Counted .tmCtr 0 0 1 s t ∧ Safety.Counted .tmCtr 2 0 1 s t ∧
            Safety.RegsKept (.tmCtr :: Safety.telling) s t) ∧
      (m.fieldsOk = true → m.domain.toNat = rd s tmC TmCtl.DOMAIN →
        (m.msgType = 8 ∨ m.msgType = 9 → m.matched = false → Safety.Gives (.ptpMessageReceive p m) s fun t =>
          Safety.Counted .tmCtr 4 0 1 s t ∧ (ptOf t p.val).down = x.down ∧ Safety.RegsKept (.tmCtr :: Safety.telling) s t) ∧
        (m.msgType = 11 → m.stepsRemoved < 255 → m.clockClass ≠ 255 → m.clockId.toNat ≠ ownClockId s →
          Safety.Gives (.ptpMessageReceive p m) s fun t =>
            (ptOf t p.val).master = some m ∧ (ptOf t p.val).annAt = s.clock ∧ (ptOf t p.val).listened = true ∧ (ptOf t p.val).divert = x.divert - 1 ∧
              Safety.RegsKept Safety.raising s t) ∧
        (m.msgType = 0 → m.twoStep = true → Safety.Gives (.ptpMessageReceive p m) s fun t =>
          (ptOf t p.val).syncRx = some m.arrived ∧ Safety.Counted .tmCtr 0 0 1 s t ∧
            Safety.RegsKept (.tmCtr :: Safety.telling) s t) ∧
        (m.msgType = 1 → portState s p.val = 6 → mayPtp s p.val = true → gateInForce s p.val = false →
          Safety.Gives (.ptpMessageReceive p m) s fun t =>
            Out.pdu p.val .delayResp [ptpDst s p.val, stamp s (corrOf s p.val PtCtl.TS_ING_CORR)] ∈ t.out ∧ Safety.Counted .tmCtr 1 0 1 s t ∧
              Safety.RegsKept (.tmCtr :: .lpCtr :: Safety.telling) s t)))) ∧
  (∀ (p : Fin 48) (s : State), mayPtp s p.val = true → gateInForce s p.val = false →
    (portState s p.val = 6 → rd s tmC TmCtl.PROFILE = 0 →
      (flag s tmC TmCtl.TWO_STEP = false → Safety.Gives (.syncTransmit p) s fun t =>
        Out.pdu p.val .sync [ptpDst s p.val, txStamp s p.val] ∈ t.out ∧ Safety.Counted .tmCtr 1 0 1 s t ∧
          Safety.RegsKept (.tmCtr :: .lpCtr :: Safety.telling) s t) ∧
      (flag s tmC TmCtl.TWO_STEP = true → Safety.Gives (.syncTransmit p) s fun t =>
        Out.pdu p.val .sync [ptpDst s p.val] ∈ t.out ∧ Out.pdu p.val .followUp [ptpDst s p.val, txStamp s p.val] ∈ t.out ∧ Safety.Counted .tmCtr 1 0 2 s t ∧
          Safety.RegsKept (.tmCtr :: .lpCtr :: Safety.telling) s t) ∧
      (∀ d, rootSet s = d → Safety.Gives (.announceTransmit p) s fun t =>
        Out.pdu p.val .announce [ptpDst s p.val, d.cls, d.accuracy, d.variance, d.prio2, d.gm, d.steps + 1,
          (if d.traceTime then 1 else 0) + (if d.traceFreq then 2 else 0), ownClockId s] ∈ t.out ∧
        Safety.Counted .tmCtr 1 0 1 s t ∧ Safety.RegsKept (.tmCtr :: .lpCtr :: Safety.telling) s t)) ∧
    (portState s p.val = 9 → Safety.Gives (.delayReqTransmit p) s fun t =>
      Out.pdu p.val .delayReq [ptpDst s p.val, txStamp s p.val] ∈ t.out ∧ Safety.Counted .tmCtr 1 0 1 s t ∧
        Safety.RegsKept (.tmCtr :: .lpCtr :: Safety.telling) s t)) ∧
  (∀ (p : Fin 48) (s : State),
    (portState s p.val ≠ 6 → ∀ c ∈ [Instr.syncTransmit p, .announceTransmit p], Safety.Gives c s fun t => t = s) ∧
    (portState s p.val ≠ 9 → Safety.Gives (.delayReqTransmit p) s fun t => t = s) ∧
    (ptpOn s p.val = true → Safety.Gives (.announceTimeout p) s fun t =>
      (ptOf t p.val).master = none ∧ (ptOf t p.val).listened = true ∧
        (ptOf s p.val).annAt + announceWait s p.val ≤ t.clock ∧ Safety.RegsKept Safety.raising s t) ∧
    (isEthernet s p.val = true → portUp s p.val = true → Safety.Gives (.pcsDelayCalibrate p) s fun t =>
      rd t (ptS p.val) PtStatus.CAL = 1 ∧ Safety.RegsKept (.ptStatus :: Safety.raising) s t)) ∧
  (∀ (c : Hdr) (v : BitVec 96) (s : State) (w : Waiting), Safety.Turn s c w 0x0802 accControl 16 0x60 →
    (servo s = svFree → isRoot s = true → Safety.Gives (.timeControlSet c none 0 v) s fun t =>
      Safety.Done t w (timeResult (time96 s) s) ∧ t.time = { s.time with step := some ((ofTime96 v.toNat : Int) - s.ct, s.clock) } ∧
        t.ct = s.ct ∧ Safety.RegsKept [.sessStatus] s t) ∧
    (servo s ≠ svFree ∨ isRoot s = false → Safety.Gives (.timeControlSet c none 0 v) s fun t =>
      Safety.Refused t w stState (sessAddr c.sid.val) ∧ t.time.step = s.time.step ∧ t.ct = s.ct ∧ Safety.RegsKept Safety.raising s t) ∧
    (∀ o, o ≠ none → Safety.Gives (.timeControlSet c o 0 v) s fun t =>
      Safety.Refused t w stRange (sessAddr c.sid.val) ∧ t.time.step = s.time.step ∧ t.ct = s.ct ∧ Safety.RegsKept Safety.raising s t) ∧
    (servo s ∈ [svFree, svHold, svOut] → isRoot s = true →
      -(10 ^ 9) ≤ signedOf 64 (v.toNat / 2 ^ 32) → signedOf 64 (v.toNat / 2 ^ 32) ≤ 10 ^ 9 →
      Safety.Gives (.timeControlOffset c 0 v) s fun t =>
        Safety.Done t w (timeResult (time96 s) s) ∧ t.time = { s.time with slew := 65536 * signedOf 64 (v.toNat / 2 ^ 32) } ∧
          Safety.RegsKept [.sessStatus] s t) ∧
    (servo s = svLocked → flag s tmS TmStatus.HO_READY = true → Safety.Gives (.forceHoldover c 0 v) s fun t =>
      Safety.Done t w (toBytes 12 (time96 s) ++ toBytes 1 svHold ++ toBytes 3 0) ∧ servo t = svHold ∧ t.time.forced = true ∧
        Safety.RegsKept Safety.raising s t) ∧
    (s.time.forced = true → Safety.Gives (.timeControlRelease c 0 v) s fun t =>
      Safety.Done t w (toBytes 12 (time96 s) ++ toBytes 1 (servo t) ++ toBytes 3 0) ∧ (servo t = svAcquire ∨ servo t = svFree) ∧
        t.time.forced = false ∧ Safety.RegsKept Safety.raising s t))

/-- Fabric time and frequency (R350, R416, R428, R430, R432 to R435, R438 to R442, R444): a step of common time moves it and no interval; the
time words and root words that links send and receive, and what a node keeps of them, until 256 µs after a root word last advanced; an ALONE
node takes fabric time; references are dropped after HOLDOFF and restored after WTR; the DPLL locks, and the holdover oscillator qualifies or raises its fault; ESMC PDUs; the time input's edges and
messages, and the output at whole seconds.
The model's readings in it: log entries 57 and 58. -/
def Obligations.TimeAndFrequency : Prop :=
  (∀ (d : Int) (decided : Nat) (s : State),
    (s.time.step = some (d, decided) → Safety.Gives .timeStep s fun t =>
      t.time.step = none ∧ decided + 2000 ≤ t.clock ∧
      (t.ct : Int) = max 0 ((s.ct : Int) + 65536 * ((t.clock : Int) - s.clock) + (s.time.slew - t.time.slew) + d) ∧
      10000 * (s.time.slew - t.time.slew).natAbs ≤ 131072 * (t.clock - s.clock) ∧
      (s.time.stepped ≤ s.ct → (ivl t : Int) = ivl s + 65536 * ((t.clock : Int) - s.clock) + (s.time.slew - t.time.slew)) ∧
      Safety.RegsKept Safety.telling s t) ∧
    (s.time.step = none → Safety.Gives .timeStep s fun t => t = s)) ∧
  (∀ s : State,
    (servo s = svLocked → Safety.Gives .holdoverReady s fun t =>
      flag t tmS TmStatus.HO_READY = true ∧ s.time.lockedAt + 60 * sec ≤ t.clock ∧ Safety.RegsKept (.tmStatus :: Safety.telling) s t) ∧
    (servo s ≠ svLocked → Safety.Gives .holdoverReady s fun t => t = s) ∧
    (servo s = svHold → s.time.forced = true → Safety.Gives .holdoverExpire s fun t =>
      servo t = svOut ∧ s.time.holdAt + rd s tmC TmCtl.HO_SPEC_S * sec ≤ t.clock ∧ Safety.RegsKept Safety.raising s t) ∧
    (servo s ≠ svHold → Safety.Gives .holdoverExpire s fun t => t = s)) ∧
  (∀ (k : Fin 64) (x : LinkTime) (s : State), ltOf s k.val = x →
    (linkState s k.val = lsQuar → Safety.Gives (.keepaliveSend k) s fun t => t = { s with out := .timeWord k.val false [] :: s.out }) ∧
    (linkState s k.val = lsUp →
      (x.sent % 16 = 15 → Safety.Gives (.keepaliveSend k) s fun t =>
        (∃ l, t.out = .timeWord k.val true l :: s.out) ∧ ltOf t k.val = { x with sent := x.sent + 1 } ∧
          t = { s with time := t.time, out := t.out }) ∧
      (x.sent % 16 ≠ 15 → Safety.Gives (.keepaliveSend k) s fun t =>
        (∃ e h, t.out = .timeWord k.val false [time96 s, e, h] :: s.out) ∧ ltOf t k.val = { x with sent := x.sent + 1 } ∧
          t = { s with time := { s.time with links := t.time.links }, out := t.out }) ∧
      (∀ w : TimeWord,
        (w.crcOk = false → Safety.Gives (.timeWordReceive k w) s fun t =>
          Safety.Counted .tmCtr 2 0 1 s t ∧ Safety.Told s t ∧ Safety.RegsKept (.tmCtr :: Safety.telling) s t) ∧
        (w.crcOk = true → w.t1 = 0 → Safety.Gives (.timeWordReceive k w) s fun t =>
          ltOf t k.val = { x with last := some (w.t3, ivl s) } ∧ t = { s with time := { s.time with links := t.time.links } }) ∧
        (w.crcOk = true → w.t1 ≠ 0 → following s = none →
          (x.words < 63 → Safety.Gives (.timeWordReceive k w) s fun t =>
            (ltOf t k.val).words = x.words + 1 ∧ (ltOf t k.val).sum = x.sum + ((w.t4 - w.t1) - w.hold).fdiv 2 ∧
              t = { s with time := { s.time with links := t.time.links } }) ∧
          (x.words = 63 → Safety.Gives (.timeWordReceive k w) s fun t =>
            (ltOf t k.val).words = 0 ∧
            rd t (ltK k.val) FlTime.LINK_DELAY = min 0xFFFFFFFE ((x.sum + ((w.t4 - w.t1) - w.hold).fdiv 2).fdiv 64).toNat ∧
            Safety.RegsKept [.flTime] s t)) ∧
        (∀ r, w.crcOk = true → w.t1 ≠ 0 → x.words < 63 → following s = some (k.val, r) →
          rd s (ltK k.val) FlTime.LINK_DELAY ≠ 0xFFFFFFFF → Safety.Gives (.timeWordReceive k w) s fun t =>
          rd t tmS TmStatus.OFFSET = offsetField (w.t4 - (w.t3 + (rd s (ltK k.val) FlTime.LINK_DELAY : Int) +
            signedOf 16 (rd s (ltK k.val) FlTime.FT_ASYM))) ∧ Safety.RegsKept Safety.raising s t)) ∧
      (∀ w : RootWord,
        (w.crcOk = true → Safety.Gives (.rootWordReceive k w) s fun t =>
          (((ltOf t k.val).root = some w ∧ (x.root = none → (ltOf t k.val).rootAt = s.clock ∧ (ltOf t k.val).rootFrom = s.clock)) ∨ (inSafe s = false ∧ inSafe t = true)) ∧ Safety.RegsKept Safety.raising s t) ∧
        (w.crcOk = false → Safety.Gives (.rootWordReceive k w) s fun t =>
          Safety.Counted .tmCtr 2 0 1 s t ∧ Safety.Told s t ∧ Safety.RegsKept (.tmCtr :: Safety.telling) s t)) ∧
      (s.fab.started = false → x.root ≠ none → Safety.Gives (.fabricTimeTake k) s fun t =>
        t.fab.started = true ∧ x.rootFrom + 20000 ≤ t.clock ∧ tabGet t.fab.records (s.fab.plan.addr % 4096) [] ≠ [] ∧ Safety.RegsKept Safety.raising s t)) ∧
    (x.root ≠ none → Safety.Gives (.rootWordExpire k) s fun t =>
      (ltOf t k.val).root = none ∧ x.rootAt + 256000 ≤ t.clock ∧ Safety.RegsKept Safety.raising s t) ∧
    (x.root = none → Safety.Gives (.rootWordExpire k) s fun t => t = s) ∧
    (s.fab.started = true → Safety.Gives (.fabricTimeTake k) s fun t => t = s)) ∧
  (∀ (r : Fin 49) (s : State),
    (r.val ∉ s.time.dropped → Safety.Gives (.referenceDrop r) s fun t =>
      r.val ∈ t.time.dropped ∧ tabGet s.time.refAt r.val 0 + rd s fqK FqCtl.HOLDOFF * 100 * ms ≤ t.clock ∧
        Safety.RegsKept Safety.raising s t) ∧
    (r.val ∈ s.time.dropped → Safety.Gives (.referenceDrop r) s fun t => t = s) ∧
    (r.val ∈ s.time.dropped → Safety.Gives (.referenceRestore r) s fun t =>
      r.val ∉ t.time.dropped ∧ tabGet s.time.refAt r.val 0 + rd s fqK FqCtl.WTR * sec ≤ t.clock ∧ Safety.RegsKept Safety.raising s t) ∧
    (r.val ∉ s.time.dropped → Safety.Gives (.referenceRestore r) s fun t => t = s)) ∧
  (∀ s : State,
    (s.time.ref ≠ none → dpll s ≠ 1 → Safety.Gives .dpllLocked s fun t =>
      dpll t = 1 ∧ t = { s with regs := t.regs, time := { s.time with dpllAt := s.clock } } ∧ Safety.RegsKept [.tmStatus] s t) ∧
    (s.time.ref = none → Safety.Gives .dpllLocked s fun t => t = s) ∧
    (flag s fqK FqCtl.HOSC_EN = true → dpll s = 1 →
      (Safety.Gives (.hoscQualify true) s fun t =>
        flag t tmS TmStatus.HOSC_OK = true ∧ s.time.dpllAt + 60 * sec ≤ t.clock ∧ Safety.RegsKept (.tmStatus :: Safety.telling) s t) ∧
      (Safety.Gives (.hoscQualify false) s fun t => flag t tmS TmStatus.HOSC_OK = false ∧ Safety.RegsKept Safety.raising s t)) ∧
    (∀ ok, flag s fqK FqCtl.HOSC_EN = false → Safety.Gives (.hoscQualify ok) s fun t => t = s)) ∧
  (∀ (p : Fin 48) (ql : BitVec 4) (s : State), isEthernet s p.val = true → portUp s p.val = true → inSafe s = false →
    (flag s fqK FqCtl.ESMC_EN = true →
      ((recent s (ptOf s p.val).esmcAt sec).length < 10 → Safety.Gives (.esmcPduReceive p true ql) s fun t =>
        rd t (ptS p.val) PtStatus.ESMC_VALID = 1 ∧ rd t (ptS p.val) PtStatus.RX_QL = ql.toNat ∧
          Safety.RegsKept (.ptStatus :: Safety.raising) s t) ∧
      (Safety.Gives (.esmcPduReceive p false ql) s fun t =>
        Safety.Counted .tmCtr 8 0 1 s t ∧ Safety.Told s t ∧ Safety.RegsKept (.tmCtr :: Safety.telling) s t) ∧
      (silent s p.val = false → gateInForce s p.val = false → Safety.Gives (.esmcTransmit p) s fun t =>
        Out.pdu p.val .esmc [qlOn s p.val, 0] ∈ t.out ∧ Safety.Told s t ∧ Safety.RegsKept (.lpCtr :: Safety.telling) s t)) ∧
    (flag s fqK FqCtl.ESMC_EN = false → ∀ c ∈ [Instr.esmcPduReceive p true ql, .esmcTransmit p], Safety.Gives c s fun t => t = s)) ∧
  (∀ (p : Fin 48) (s : State), Safety.Gives (.esmcTimeout p) s fun t =>
    rd t (ptS p.val) PtStatus.ESMC_VALID = 0 ∧ (ptOf s p.val).esmcAt.headD 0 + 5 * sec ≤ t.clock ∧ Safety.RegsKept (.ptStatus :: Safety.raising) s t) ∧
  (∀ (high : Nat) (s : State),
    (high < 100 → Safety.Gives (.ppsEdge high) s fun t => t = s) ∧
    (100 ≤ high → (∃ t0, s.time.ppsAt = some t0 ∧ s.clock < t0 + 900 * ms) → Safety.Gives (.ppsEdge high) s fun t =>
      Safety.Counted .tmCtr 9 0 1 s t ∧ Safety.Told s t ∧ Safety.RegsKept (.tmCtr :: Safety.telling) s t) ∧
    (100 ≤ high → s.time.ppsAt = none → rd s tmS TmStatus.SOURCE ≠ 2 → Safety.Gives (.ppsEdge high) s fun t =>
      t.time.ppsOk = true ∧ t.time.ppsAt = some s.clock ∧ t.time.ppsMiss = 0 ∧ Safety.RegsKept Safety.raising s t)) ∧
  (∀ s : State,
    (s.time.ppsOk = true → Safety.Gives .ppsMissing s fun t =>
      t.time.ppsOk = decide (s.time.ppsMiss < 2) ∧ (s.time.ppsMiss < 2 → t.time.ppsMiss = s.time.ppsMiss + 1) ∧
        Safety.RegsKept Safety.raising s t) ∧
    (s.time.ppsOk = false → Safety.Gives .ppsMissing s fun t => t = s)) ∧
  (∀ (m : TodMsg) (s : State),
    (∀ t0, m.syncOk = true → m.crcOk = true → m.resOk = true → s.time.ppsAt = some t0 → t0 + ms ≤ s.clock → s.clock ≤ t0 + 900 * ms →
      (s.time.todSec = none ∨ s.time.todSec = some (m.seconds - 1) ∧ 0 < m.seconds) → Safety.Gives (.todReceive m) s fun t =>
      t.time.todOk = true ∧ t.time.todSec = some m.seconds ∧ t.time.edgeSec = some m.seconds ∧ t.time.todBad = 0 ∧
        Safety.RegsKept Safety.raising s t) ∧
    (m.crcOk = false →
      (s.time.todBad = 0 → Safety.Gives (.todReceive m) s fun t =>
        t.time = { s.time with todBad := 1 } ∧ Safety.Counted .tmCtr 9 0 1 s t ∧ Safety.RegsKept (.tmCtr :: Safety.telling) s t) ∧
      (s.time.todBad ≠ 0 → Safety.Gives (.todReceive m) s fun t =>
        t.time.todOk = false ∧ t.time.todSec = none ∧ Safety.RegsKept Safety.raising s t))) ∧
  (∀ s : State,
    (flag s fqK FqCtl.PPS_OUT_EN = true → servo s ≠ svFree → inSafe s = false → Safety.Gives .ppsOutput s fun t =>
      s.time.ppsSec < t.time.ppsSec ∧ Out.pps t.time.ppsSec (rd s fqK FqCtl.PPS_WIDTH) ∈ t.out ∧
      ((65536 * 10 ^ 9 * t.time.ppsSec : Nat) : Int) + signedOf 16 (rd s fqK FqCtl.PPS_OUT_CORR) * 16384 ≤ t.ct ∧
      Safety.RegsKept Safety.telling s t) ∧
    (flag s fqK FqCtl.PPS_OUT_EN = false → Safety.Gives .ppsOutput s fun t =>
      s.time.ppsSec < t.time.ppsSec ∧ Safety.RegsKept Safety.telling s t))

/-! ## Chapter 15: protected pairs -/

/-- The Yoke and the roles (R452, R454, R455, R457, R461, R463, R464, R466, R469, R471, R472): a pair begins in WAITING and its protected ports
send idle; a waiting unit takes the role that R455 gives it; blocks are taken in sequence, a bad one counted; the standby holds a delta
until its last block; a Yoke link is down 1 µs after its last block; the yield word triggers a switch-over, as does the loss of PEER_EMBER; a switch-over, once a delta in progress has had its
time, makes the standby ACTIVE; the
loss of the last Yoke link leaves the unit UNSYNCED.
The model's readings in it: log entries 59 and 60. -/
def Obligations.PairRoles : Prop :=
  (∀ (c : Hdr) (s : State) (w : Waiting),
    (Safety.Sets s c w prC PrCtl.PAIR_EN 1 → pairOn s = false → Safety.Gives (.pairEnable c) s fun t =>
      Safety.Done t w [] ∧ pairOn t = true ∧ role t = roleWaiting ∧ syncOf t = syUn ∧
        (∀ p < 48, protPort t p = true → Out.pdu p .idle [] ∈ t.out) ∧ Safety.RegsKept (.prCtl :: .prStatus :: Safety.telling) s t) ∧
    (Safety.Sets s c w prC PrCtl.PAIR_EN 0 → pairOn s = true → Safety.Gives (.pairDisable c) s fun t =>
      Safety.Done t w [] ∧ pairOn t = false ∧ role t = 0 ∧ syncOf t = syUn ∧ t.pair.frames = [] ∧
        Safety.RegsKept (.prCtl :: .prStatus :: .bufStatus :: .poolStatus :: .poolGctr :: Safety.raising) s t)) ∧
  (∀ s : State,
    (pairOn s = true → role s = roleWaiting → yokesUp s = [] →
      (Safety.Gives (.pairWaitTimeout true) s fun t =>
        rd t prS PrStatus.PEER_ALIVE = 1 ∧ role t = roleWaiting ∧ s.pair.quietAt + sec ≤ t.clock ∧
          Safety.RegsKept Safety.raising s t) ∧
      (inSafe s = false → Safety.Gives (.pairWaitTimeout false) s fun t =>
        rd t prS PrStatus.PEER_ALIVE = 0 ∧ role t = roleActive ∧ s.pair.quietAt + sec ≤ t.clock ∧
          Safety.RegsKept (.prStatus :: Safety.telling) s t)) ∧
    (∀ e, role s ≠ roleWaiting → Safety.Gives (.pairWaitTimeout e) s fun t => t = s)) ∧
  (∀ (y : Fin 2) (b : YokeBlock) (s : State),
    (b.crcOk = false → Safety.Gives (.yokeBlockReceive y b) s fun t =>
      Safety.Counted .prCtr 7 0 1 s t ∧ Safety.Told s t ∧ Safety.RegsKept (.prCtr :: Safety.telling) s t) ∧
    (b.crcOk = true → pairOn s = false → Safety.Gives (.yokeBlockReceive y b) s fun t =>
      (rd t prS PrStatus.YOKE_UP).testBit y.val = true ∧ t.pair.rxSeq = b.seq + 1 ∧ Safety.RegsKept [.prStatus] s t) ∧
    (b.crcOk = true → pairOn s = true → (rd s prS PrStatus.YOKE_UP).testBit y.val = true → b.unit ≠ unitB s → b.seq = s.pair.rxSeq →
      s.pair.held = [] → s.pair.todo = [] → s.pair.trigger = none → inSafe s = false →
      (role s = roleWaiting → b.load = .empty → Safety.Gives (.yokeBlockReceive y b) s fun t =>
        role t = if b.role.toNat = roleActive ∨ unitB s = true then roleStandby else roleActive) ∧
      (role s = roleActive → b.role.toNat ≠ roleActive →
        (b.load = .empty → Safety.Gives (.yokeBlockReceive y b) s fun t =>
          t.pair = { s.pair with rxSeq := b.seq + 1, peer := some (b.unit, b.role.toNat, b.serial.toNat),
                                 blockAt := tabPut s.pair.blockAt y.val s.clock } ∧
            t = { s with pair := t.pair }) ∧
        (b.load = .ask → Safety.Gives (.yokeBlockReceive y b) s fun t =>
          t.pair.full = true ∧ (twin s = true → t.pair.owed = owedNow s) ∧ syncOf t = syRe ∧ t.pair.rxSeq = b.seq + 1 ∧ Safety.RegsKept [.prStatus] s t)) ∧
      (role s = roleStandby → syncOf s ≠ syUn →
        (∀ e l, b.load = .delta e false l → s.pair.recv = none → Safety.Gives (.yokeBlockReceive y b) s fun t =>
          t.pair.recv = some (e, l) ∧ t.que = s.que ∧ t.pair.rxSeq = b.seq + 1 ∧ Safety.RegsKept [] s t) ∧
        (∀ e l m tc tp, b.load = .delta e true [.meter m tc tp] → s.pair.recv = some (e, l) → l = [] →
          Safety.Gives (.yokeBlockReceive y b) s fun t =>
          t.pair.recv = none ∧ tabGet? t.que.buckets (keyNo (obj .meter m.val)) = some { tc := tc, tp := tp, last := ivl s } ∧
            Safety.Counted .prCtr 1 0 1 s t ∧ rd t prS PrStatus.EPOCH_LAST = e % 2 ^ 32 ∧
            Safety.RegsKept (.prCtr :: .prStatus :: Safety.telling) s t) ∧
        (b.load = .yieldWord → flag s prC PrCtl.LOCK = false → Safety.Gives (.yokeBlockReceive y b) s fun t =>
          t.pair.trigger = some s.clock ∧ role t = roleStandby ∧ Safety.RegsKept [] s t)))) ∧
  (∀ (y : Fin 2) (s : State),
    ((rd s prS PrStatus.YOKE_UP).testBit y.val = true → Safety.Gives (.yokeLinkDown y) s fun t =>
      rd t prS PrStatus.YOKE_UP = rd s prS PrStatus.YOKE_UP - 2 ^ y.val ∧
        tabGet s.pair.blockAt y.val 0 + 1000 ≤ t.clock ∧
        (rd s prS PrStatus.YOKE_UP = 2 ^ y.val → t.pair.peer = none ∧ t.pair.quietAt = t.clock ∧ (role s = roleStandby ∨ role s = roleActive → syncOf t = syUn)) ∧
        Safety.RegsKept Safety.raising s t) ∧
    ((rd s prS PrStatus.YOKE_UP).testBit y.val = false → Safety.Gives (.yokeLinkDown y) s fun t => t = s) ∧
    (Safety.Gives (.yokeEmptyBlock y) s fun t =>
      t = { s with pair := { s.pair with txSeq := s.pair.txSeq + 1 },
                   out := .yoke y.val s.pair.txSeq .empty (unitB s) (role s) s.fuses.serial :: s.out })) ∧
  (∀ s : State,
    (Safety.Gives .peerEmberLoss s fun t =>
      rd t prS PrStatus.PEER_ALIVE = 0 ∧
      (role s = roleStandby → flag s prC PrCtl.LOCK = false → inSafe s = false → s.pair.trigger = none →
        t.pair = { s.pair with trigger := some s.clock }) ∧
      (role s ≠ roleStandby → t.pair = s.pair) ∧
      t = { s with regs := t.regs, pair := t.pair } ∧ Safety.RegsKept [.prStatus] s t) ∧
    (s.pair.trigger = none → Safety.Gives .switchoverResume s fun t => t = s) ∧
    (s.pair.trigger ≠ none → role s = roleStandby → inSafe s = false → Safety.Gives .switchoverResume s fun t =>
      (role t = roleActive ∨ inSafe t = true) ∧ t.pair.trigger = none ∧ t.pair.recv = none ∧
      (∀ e l t0, twin s = false → s.pair.recv = some (e, l) → s.pair.trigger = some t0 →
        min (s.clock + ((e + 2) * 50000 - nowNs s)) (t0 + 50000) ≤ t.clock) ∧ t.pair.frames = [] ∧
      t.que.results = s.que.results ++ s.pair.frames.flatMap (fun e => e.2.filterMap Expected.result) ∧
      (∀ p < 48, protPort s p = true → Out.pdu p .idle [] ∈ t.out) ∧ Safety.RegsKept (.prCtr :: .saSlot :: .msStatus :: Safety.raising) s t))

/-- Epochs and PAIR_CONTROL (R457, R459, R460, R465, R466, R469): at an epoch's end the active unit sends what has changed, while it keeps to
the bound; records go within 100 ns; a resynchronisation ends once the full copy is across and, on a twin's
active unit, every packet queued before it is out; each operation of PAIR_CONTROL does its effect
and answers ROLE and SYNC, or answers STATE, an ACTION that is not listed RANGE.
The model's readings in it: log entries 59 and 60. -/
def Obligations.PairControl : Prop :=
  (∀ s : State,
    (pairOn s = false → ∀ c ∈ [Instr.mirrorEpochEnd, .resyncComplete], Safety.Gives c s fun t => t = s) ∧
    (∀ k u, k = nowNs s / 50000 → u = reach ((k + 1) * 50000 * 65536) s → pairOn s = true →
      (role s = roleActive → yokesUp s ≠ [] → s.pair.full = false →
        64 + (((itemsOf u).filter fun i => !s.pair.last.contains i).map itemBytes).sum ≤ deltaBound s →
        Safety.Gives .mirrorEpochEnd s fun t =>
          (k + 1) * 50000 * 65536 ≤ t.ct ∧ t.pair.last = itemsOf u ∧ rd t prS PrStatus.EPOCH_LAST = k % 2 ^ 32 ∧
            Safety.Counted .prCtr 0 0 1 s t ∧ Safety.RegsKept (.prCtr :: .prStatus :: Safety.telling) s t) ∧
      (∀ e l, role s = roleStandby → yokesUp s = [] → s.pair.recv = some (e, l) → e + 1 < k → Safety.Gives .mirrorEpochEnd s fun t =>
        t.pair.recv = none ∧ syncOf t = syUn ∧ Safety.Counted .prCtr 2 0 1 s t ∧
          Safety.RegsKept (.prCtr :: .prStatus :: Safety.telling) s t)) ∧
    (yokesUp s ≠ [] → Safety.Gives .recordBlockFlush s fun t =>
      t.pair = { s.pair with records := [], txSeq := t.pair.txSeq, recFrom := t.pair.recFrom } ∧
        (s.pair.records ≠ [] → s.pair.recFrom + 100 ≤ t.clock) ∧ Safety.RegsKept Safety.telling s t) ∧
    (s.pair.records = [] → Safety.Gives .recordBlockFlush s fun t => t = s) ∧
    (pairOn s = true → syncOf s = syRe →
      (role s = roleStandby → s.pair.full = true → Safety.Gives .resyncComplete s fun t =>
        syncOf t = sySynced ∧ t.pair.full = false ∧ Safety.Counted .prCtr 6 0 1 s t ∧
          Safety.RegsKept (.prCtr :: .prStatus :: Safety.telling) s t) ∧
      (role s = roleActive → s.pair.full = false →
        ((∀ e ∈ s.pair.owed, ∀ r ∈ queueRefs (getQ s e.1), r.qseq ≠ e.2) → Safety.Gives .resyncComplete s fun t =>
          syncOf t = sySynced ∧ t = { s with regs := t.regs, pair := { s.pair with owed := [] } } ∧ Safety.RegsKept [.prStatus] s t) ∧
        ((∃ e ∈ s.pair.owed, ∃ r ∈ queueRefs (getQ s e.1), r.qseq = e.2) → Safety.Gives .resyncComplete s fun t => t = s)))) ∧
  (∀ (c : Hdr) (s : State) (w : Waiting), Safety.Turn s c w 0x0801 accControl 4 0x64 →
    (pairOn s = true →
      (Safety.Gives (.lock c 0) s fun t =>
        Safety.Answered [.prCtl] s t w (pairResult s) ∧ flag t prC PrCtl.LOCK = true) ∧
      (Safety.Gives (.unlock c 0) s fun t =>
        Safety.Answered [.prCtl] s t w (pairResult s) ∧ flag t prC PrCtl.LOCK = false)) ∧
    (role s = roleStandby → syncOf s = sySynced → yokesUp s ≠ [] → inSafe s = false → s.pair.trigger = none →
      flag s prC PrCtl.LOCK = false → Safety.Gives (.forceSwitch c none 0) s fun t =>
      Safety.Done t w (pairResult s) ∧ t.pair = { s.pair with trigger := some s.clock } ∧ Safety.RegsKept [.sessStatus] s t) ∧
    (role s = roleActive → syncOf s = sySynced → yokesUp s ≠ [] → inSafe s = false → twin s = false → Safety.Gives (.forceSwitch c none 0) s fun t =>
      Safety.Done t w (toBytes 1 roleStandby ++ toBytes 1 syRe ++ toBytes 2 0) ∧ role t = roleStandby ∧ syncOf t = syRe ∧
        (∀ y < 2, ∃ n, Out.yoke y n .yieldWord (unitB s) roleActive s.fuses.serial ∈ t.out) ∧
        Safety.RegsKept (.prStatus :: Safety.telling) s t) ∧
    (∀ o, o ≠ none → Safety.Gives (.forceSwitch c o 0) s fun t =>
      Safety.Refused t w stRange (sessAddr c.sid.val) ∧ Safety.RegsKept Safety.raising s t) ∧
    (role s = roleStandby → yokesUp s ≠ [] → inSafe s = false → twin s = false → Safety.Gives (.resync c 0) s fun t =>
      Safety.Done t w (toBytes 1 roleStandby ++ toBytes 1 syRe ++ toBytes 2 0) ∧ syncOf t = syRe ∧ t.pair.full = false ∧
        (∃ y n, Out.yoke y n .ask (unitB s) roleStandby s.fuses.serial ∈ t.out) ∧ Safety.RegsKept [.prStatus, .sessStatus] s t) ∧
    (role s ≠ roleStandby → Safety.Gives (.resync c 0) s fun t =>
      Safety.Refused t w stState (sessAddr c.sid.val) ∧ Safety.RegsKept Safety.raising s t))

/-! ## Chapters 16 and 17: faults and observation -/

/-- The fault log and the safe state (R474 to R478, R481 to R483, R485 to R491, R493 to R495, R497, R499): the collector logs one message, its
number the next, unless the ring is full, and an injected one is then answered; a stack that is READY takes the oldest entry of the ring, a
full log losing its oldest; windows and shadows end; SAFE_ENTER takes the actions of the safe state and SAFE_EXIT ends them; an injection
without REACT waits in its block's queue, or is BUSY; a read of the log; Grazing's rounds, paced by
ROUND_S, what becomes of an uncorrectable billet, a group or a mirror session that a round finds, engine tests and overdue items.
The model's readings in it: log entry 61. -/
def Obligations.FaultLog : Prop :=
  (∀ (b : Nat) (m : FaultMsg) (rest : List FaultMsg) (s : State), s.flt.ring.length < 4096 → collectFrom s = some b →
    queueOf s b = m :: rest →
    (m.reply = none → Safety.Gives .faultCollect s fun t =>
      t.flt.ring = s.flt.ring ++ [entryOf s m] ∧ queueOf t b = rest ∧
      rd t ftS FltStatus.NEWEST = (rd s ftS FltStatus.NEWEST + 1) % 2 ^ 64 ∧ Safety.Counted .fltCtr 0 0 1 s t ∧
      Safety.RegsKept (.fltStatus :: .fltCtr :: Safety.telling) s t) ∧
    (∀ c w blk, m.reply = some c → s.cmd.waiting = [w] → w.hdr = c → w.phase = .started blk → w.op = 0x0502 →
      rd s (sessKey c.sid.val) SessStatus.NEXT_SEQ < 2 ^ 64 - 4096 →
      Safety.Gives .faultCollect s fun t =>
        Safety.Done t w (toBytes 8 (rd s ftS FltStatus.NEWEST + 1)) ∧ t.flt.ring = s.flt.ring ++ [entryOf s m] ∧ queueOf t b = rest ∧
        Safety.RegsKept (.fltStatus :: .fltCtr :: Safety.telling) s t)) ∧
  (∀ s : State,
    (4096 ≤ s.flt.ring.length → Safety.Gives .faultCollect s fun t => t = s) ∧
    (collectFrom s = none → Safety.Gives .faultCollect s fun t => t = s) ∧
    (∀ e rest, s.flt.ring = e :: rest → hbmOk s = true →
      (s.flt.log.length < 1048576 → Safety.Gives .logCopy s fun t =>
        t.flt = { s.flt with ring := rest, log := s.flt.log ++ [e] } ∧ t = { s with regs := t.regs, flt := t.flt } ∧
          Safety.RegsKept [.fltStatus] s t) ∧
      (1048576 ≤ s.flt.log.length → Safety.Gives .logCopy s fun t =>
        t.flt = { s.flt with ring := rest, log := s.flt.log.tail ++ [e] } ∧ Safety.Counted .fltCtr 2 0 1 s t ∧
          Safety.RegsKept (.fltStatus :: .fltCtr :: Safety.telling) s t)) ∧
    (hbmOk s = false → Safety.Gives .logCopy s fun t => t = s)) ∧
  (∀ (source : BitVec 12) (kind : BitVec 8) (k : Key) (s : State), k = reactKey (source.toNat / 16) (source.toNat % 16) kind.toNat →
    (faultListed (source.toNat / 16) (source.toNat % 16) kind.toNat = true → Safety.Gives (.reactionWindowExpire source kind) s fun t =>
      rd t k Reaction.COUNT = 0 ∧ tabGet? t.flt.windows (keyNo k) = none ∧
        (∀ t0, tabGet? s.flt.windows (keyNo k) = some t0 → t0 + rd s k Reaction.WINDOW * ms ≤ t.clock) ∧
        Safety.RegsKept (.reaction :: Safety.telling) s t) ∧
    (faultListed (source.toNat / 16) (source.toNat % 16) kind.toNat = false → Safety.Gives (.reactionWindowExpire source kind) s fun t =>
      t = s)) ∧
  (∀ (i : Nat) (h : Shadow) (s : State), s.flt.shadows[i]? = some h → s.time.stepped ≤ s.ct →
    Safety.Gives (.shadowClose i) s fun t =>
      t.flt.shadows = s.flt.shadows.filter (fun g => g.id != h.id) ∧ h.opened + 100000 * 65536 ≤ ivl t ∧
        Safety.RegsKept Safety.telling s t) ∧
  (∀ (c : Hdr) (s : State) (w : Waiting),
    (Safety.Sets s c w ftC FltCtl.SAFE_ENTER 1 → rd s ftC FltCtl.SAFE_EXIT = 0 → inSafe s = false → shadowOver s 0x68 = none →
      rd s (reactKey 0x68 0 3) Reaction.SAFE = 1 → rd s (reactKey 0x68 0 3) Reaction.THRESH ≤ countedIn s (reactKey 0x68 0 3) + 1 →
      Safety.Gives (.safeEnter c) s fun t =>
        Safety.Done t w [] ∧ inSafe t = true ∧ rd t ftS FltStatus.EMBER_ON = 0 ∧ t.pwr.ember = false ∧
        (∀ p < 48, isEthernet s p = true → adminUp s p = true → Out.pdu p .localFault [] ∈ t.out) ∧
        (∀ p < 48, isFramed s p = true → Out.pdu p .oduAis [] ∈ t.out) ∧
        (∀ k < 64, linkState s k ≠ lsUnused → linkState t k = lsQuar) ∧ Safety.RegsKept (.fltCtl :: Safety.raising) s t) ∧
    (Safety.Sets s c w ftC FltCtl.SAFE_EXIT 1 → servo s ≠ svLocked → rd s (reactKey 0x41 1 3) Reaction.SAFE = 0 →
      rd s (reactKey 0x41 1 4) Reaction.SAFE = 0 → Safety.Gives (.safeExit c) s fun t =>
      Safety.Done t w [] ∧ inSafe t = false ∧ t.pwr.ember = flag s rstKey RstStatus.READY ∧ t.tfu.aisOdu = [])) ∧
  (∀ (c : Hdr) (source : BitVec 16) (kind : BitVec 8) (addr : ObjAddr) (s : State) (w : Waiting),
    Safety.Turn s c w 0x0502 accControl 12 0x68 → source.toNat < 4096 →
    faultListed (source.toNat / 16) (source.toNat % 16) kind.toNat = true →
    ((queueOf s (source.toNat / 16)).length < 16 → Safety.Gives (.faultInject c source kind 0 addr 0) s fun t =>
      (∃ m, queueOf t (source.toNat / 16) = queueOf s (source.toNat / 16) ++ [m] ∧ m.inst = source.toNat % 16 ∧ m.kind = kind.toNat ∧
        m.addr = addr ∧ m.inject = true ∧ m.reacted = false ∧ m.reply = some c) ∧
      t.cmd.waiting = [{ w with phase := .started (source.toNat / 16) }] ∧ Safety.RegsKept [] s t) ∧
    (16 ≤ (queueOf s (source.toNat / 16)).length → Safety.Gives (.faultInject c source kind 0 addr 0) s fun t =>
      t.cmd.waiting = [] ∧ t.flt = s.flt ∧
      (∃ q h l, t.out = Safety.replyOf t w q stBusy 0 h [] :: l) ∧ Safety.RegsKept [.sessStatus] s t)) ∧
  (∀ (c : Hdr) (first : Word) (count : BitVec 32) (l : List FaultEntry) (s : State) (w : Waiting),
    Safety.Turn s c w 0x0501 accRead 16 0x68 → 1 ≤ count.toNat → count.toNat ≤ 1024 →
    l = ((s.flt.log ++ s.flt.ring).filter fun e => decide (max first.toNat (rd s ftS FltStatus.OLDEST) ≤ e.seq)).take count.toNat →
    Safety.Gives (.faultRead c first count 0 none) s fun t =>
      Safety.Answered [] s t w (toBytes 8 (rd s ftS FltStatus.OLDEST) ++ toBytes 8 (rd s ftS FltStatus.NEWEST) ++ toBytes 4 l.length ++
        toBytes 4 0 ++ l.flatMap fun e => toBytes 64 (entryWord e))) ∧
  (∀ (f : GrazingFind) (s : State),
    (flag s grC GrCtl.EN = true → f.coresFailed = [] → s.msec.coresOut = [] → s.line.fifo = [] →
      (f.found = [] → Safety.Gives (.grazingRound f) s fun t =>
        rd t grS GrStatus.ROUND = (rd s grS GrStatus.ROUND + 1) % 2 ^ 32 ∧ rd t grS GrStatus.LAST_MS = min 65535 f.tookMs ∧
        rd t grS GrStatus.FINDINGS = (f.hotFixed + f.fixed) % 2 ^ 20 ∧ Safety.Counted .fltCtr 7 0 f.items s t ∧
        Safety.Counted .fltCtr 8 0 (f.hotFixed + f.fixed) s t ∧ Safety.Counted .bufCtr 0 0 f.hotFixed s t ∧
        (∀ t0, s.flt.grazed = some t0 → t0 + rd s grC GrCtl.ROUND_S * sec + f.tookMs * ms ≤ t.clock) ∧
        t.flt.grazed = some (t.clock - f.tookMs * ms) ∧ Safety.RegsKept (.grStatus :: .fltCtr :: .bufCtr :: Safety.telling) s t) ∧
      (∀ d n p, f.found = [.billet d] → s.buf.pkts.find? (fun e => e.2.desc == d.val) = some (n, p) →
        Safety.Gives (.grazingRound f) s fun t =>
        getPkt t n = some { p with bad := true } ∧ Safety.Counted .bufCtr 1 0 1 s t ∧
          Safety.RegsKept (.grStatus :: .bufCtr :: Safety.raising) s t) ∧
      (∀ g, f.found = [.group g] → Safety.Gives (.grazingRound f) s fun t =>
        g.val ∈ t.fab.badGroups ∧ Safety.RegsKept (.grStatus :: .bufCtr :: Safety.raising) s t) ∧
      (∀ a k, f.found = [.config a] → findObj a = some k → k.ty = .mirSess → Safety.Gives (.grazingRound f) s fun t =>
        rd t k MirSess.EN = 0 ∧ Safety.RegsKept (.mirSess :: .grStatus :: .bufCtr :: Safety.raising) s t)) ∧
    (flag s grC GrCtl.EN = true → Safety.Gives (.grazingRound f) s fun t =>
      (∀ n ∈ f.coresFailed, n.val ∈ t.msec.coresOut) ∧ (∀ n ∈ t.msec.coresOut, ∃ i ∈ f.coresFailed, i.val = n)) ∧
    (flag s grC GrCtl.EN = false → Safety.Gives (.grazingRound f) s fun t => t = s)) ∧
  (∀ (e : Fin 1024) (s : State),
    (e.val ∉ s.flt.engOut → s.flt.engOut.length < 4095 → Safety.Gives (.engineTestPass e false) s fun t =>
      t.flt.engOut = e.val :: s.flt.engOut ∧ rd t grS GrStatus.ENGINES_OUT = s.flt.engOut.length + 1 ∧
        Safety.RegsKept (.grStatus :: Safety.raising) s t) ∧
    (e.val ∈ s.flt.engOut → s.flt.engOut.length < 4096 → Safety.Gives (.engineTestPass e true) s fun t =>
      e.val ∉ t.flt.engOut ∧ rd t grS GrStatus.ENGINES_OUT = t.flt.engOut.length ∧
        t = { s with regs := t.regs, flt := { s.flt with engOut := t.flt.engOut } } ∧ Safety.RegsKept [.grStatus] s t) ∧
    (e.val ∉ s.flt.engOut → Safety.Gives (.engineTestPass e true) s fun t => t = s)) ∧
  (∀ (item : ObjAddr) (s : State), (queueOf s 0x68).length < 16 → Safety.Gives (.grazingOverdue item) s fun t =>
    (∃ m ∈ queueOf t 0x68, m.inst = 1 ∧ m.kind = 0x12 ∧ m.addr = item) ∧ Safety.RegsKept Safety.raising s t)

/-- Observation (R503 to R507, R513): at a multiple of 100 µs a sweep latches every counter that is collected, its record numbered one after
another, and is skipped and counted while the last one is not written, nothing being latched while counters of the QD cannot be reached; COUNTER_READ
answers a run of counters, or a record's values, from the copy that is left where one is lost, or INTEGRITY;
EVENT_SUBSCRIBE replaces the session's subscription.
The model's readings in it: log entries 55 and 62. -/
def Obligations.Sweeps : Prop :=
  (∀ s : State,
    (s.cnt.nextNo = 0 → hbmOk s = false → Safety.Gives .counterSweep s fun t => t = s) ∧
    (countersWait s (collected s) = true → Safety.Gives .counterSweep s fun t => t = s) ∧
    (countersWait s (collected s) = false → s.cnt.unwritten = false → hbmOk s = true → Safety.Gives .counterSweep s fun t =>
      (∃ r l, t.cnt.ring = r :: l ∧ r.number = s.cnt.nextNo ∧ r.skipped = s.cnt.skipped ∧ r.values.length = (collected s).length) ∧
      (nowNs s / 100000 + 1) * 100000 * 65536 ≤ t.ct ∧ t.cnt.nextNo = s.cnt.nextNo + 1 ∧ t.cnt.unwritten = false ∧ t.cnt.skipped = false ∧
      rd t (obj .cntStatus) CntStatus.SWEEP = s.cnt.nextNo % 2 ^ 64 ∧ Safety.RegsKept (.cntStatus :: Safety.telling) s t) ∧
    (countersWait s (collected s) = false → s.cnt.unwritten = true → hbmOk s = false → s.cnt.nextNo ≠ 0 → Safety.Gives .counterSweep s fun t =>
      t.cnt.ring = s.cnt.ring ∧ t.cnt.nextNo = s.cnt.nextNo + 1 ∧ t.cnt.skipped = true ∧ Safety.RegsKept Safety.raising s t)) ∧
  (∀ (c : Hdr) (addr : ObjAddr) (count : BitVec 32) (s : State) (w : Waiting), Safety.Turn s c w 0x0402 accRead 16 0x6C →
    1 ≤ count.toNat → count.toNat ≤ 8192 →
    (∀ l, counterRun addr count.toNat = some l →
      (countersWait s l = false → Safety.Gives (.counterReadLive c none 0 addr 0 count) s fun t =>
        Safety.Answered [] s t w (toBytes 12 (time96 s) ++ toBytes 4 0 ++ l.flatMap fun k => toBytes 8 (rdWord s k))) ∧
      (countersWait s l = true → Safety.Gives (.counterReadLive c none 0 addr 0 count) s fun t => t = s)) ∧
    (∀ o, o ≠ none → Safety.Gives (.counterReadLive c o 0 addr 0 count) s fun t =>
      Safety.Refused t w stRange (sessAddr c.sid.val) ∧ Safety.RegsKept Safety.raising s t) ∧
    (counterRun addr count.toNat = none → Safety.Gives (.counterReadLive c none 0 addr 0 count) s fun t =>
      Safety.Refused t w stRange addr ∧ Safety.RegsKept Safety.raising s t)) ∧
  (∀ (c : Hdr) (sweep : Word) (first count : BitVec 32) (s : State) (w : Waiting), Safety.Turn s c w 0x0402 accRead 20 0x6C →
    s.cnt.unwritten = false →
    (∀ r, s.cnt.ring.find? (fun r => r.number == sweep.toNat) = some r → 1 ≤ count.toNat → count.toNat ≤ 8192 →
      first.toNat + count.toNat ≤ r.values.length →
      (Safety.Gives (.counterReadRing c 0 sweep first count .none) s fun t =>
        Safety.Answered [] s t w (recordHeader r ++ ((r.values.drop first.toNat).take count.toNat).flatMap (toBytes 8))) ∧
      (Safety.Gives (.counterReadRing c 0 sweep first count .one) s fun t =>
        Safety.Done t w (recordHeader r ++ ((r.values.drop first.toNat).take count.toNat).flatMap (toBytes 8)) ∧
          Safety.RegsKept Safety.raising s t) ∧
      (Safety.Gives (.counterReadRing c 0 sweep first count .both) s fun t =>
        Safety.Refused t w stIntegrity (sessAddr c.sid.val) ∧ Safety.RegsKept Safety.raising s t)) ∧
    (∀ bad, (∀ r ∈ s.cnt.ring, r.number ≠ sweep.toNat) → Safety.Gives (.counterReadRing c 0 sweep first count bad) s fun t =>
      Safety.Refused t w stRange (sessAddr c.sid.val) ∧ Safety.RegsKept Safety.raising s t)) ∧
  (∀ (c : Hdr) (streams qsMin : BitVec 32) (sweepDiv : BitVec 16) (s : State) (w : Waiting), Safety.Turn s c w 0x0401 accRead 12 0x6C →
    streams.toNat < 32 → 1 ≤ sweepDiv.toNat → sweepDiv.toNat ≤ 10000 → Safety.Gives (.eventSubscribe c streams qsMin sweepDiv 0) s fun t =>
      Safety.Answered [] s t w [] ∧
      (getSess t c.sid.val).sub = if streams = 0 then none
        else some { streams := streams, qsMin := qsMin.toNat, sweepDiv := sweepDiv.toNat })

/-! ## Chapter 18: update -/

/-- The lease, staging, verify and commit (R520 to R523, R525, R527 to R529): a session takes, renews and releases the lease, which another
session cannot take while it runs; it ends after its length; a block is staged; a verify answers with its reason and leaves STAGE VERIFIED
or BAD; a commit writes the slot step by step, repeats a sector at most twice, and ends with one directory write; loss of stable power ends a
store.
The model's readings in it: log entries 63, 64 and 65. -/
def Obligations.UpdateLeaseAndCommit : Prop :=
  (∀ (c : Hdr) (n : BitVec 16) (s : State) (w : Waiting), Safety.Turn s c w 0x0701 accUpdate 4 0x70 → 10 ≤ n.toNat → n.toNat ≤ 3600 →
    (rd s upS UpdStatus.HOLDER = 255 ∨ rd s upS UpdStatus.HOLDER = c.sid.val → Safety.Gives (.updateLeaseAcquire c none 0 n) s fun t =>
      Safety.Done t w (toBytes 1 c.sid.val ++ toBytes 1 0 ++ toBytes 2 n.toNat) ∧ rd t upS UpdStatus.HOLDER = c.sid.val ∧
        t.upd.leaseS = n.toNat ∧ t.upd.leaseAt = s.clock ∧
        (rd s upS UpdStatus.HOLDER = 255 → t.upd.blocks = [] ∧ t.upd.staged = none) ∧ Safety.RegsKept [.updStatus, .sessStatus] s t) ∧
    (rd s upS UpdStatus.HOLDER ≠ 255 → rd s upS UpdStatus.HOLDER ≠ c.sid.val →
      ∀ i ∈ [Instr.updateLeaseAcquire c none 0 n, .updateLeaseRenew c 0 n, .updateLeaseRelease c 0 n], Safety.Gives i s fun t =>
        t.cmd.waiting = [] ∧ t.upd = s.upd ∧ Safety.RegsKept [.sessStatus] s t ∧
        ∃ q l, t.out = Safety.replyOf t w q stLeaseHeld 0 0 (leaseResult s) :: l) ∧
    (∀ o, o ≠ none → Safety.Gives (.updateLeaseAcquire c o 0 n) s fun t =>
      Safety.Refused t w stRange (sessAddr c.sid.val) ∧ t.upd = s.upd ∧ Safety.RegsKept Safety.raising s t) ∧
    (rd s upS UpdStatus.HOLDER = c.sid.val → Safety.Gives (.updateLeaseRenew c 0 n) s fun t =>
      Safety.Done t w (toBytes 1 c.sid.val ++ toBytes 1 0 ++ toBytes 2 n.toNat) ∧
        t.upd = { s.upd with leaseS := n.toNat, leaseAt := s.clock } ∧ Safety.RegsKept [.updStatus, .sessStatus] s t) ∧
    (rd s upS UpdStatus.HOLDER = c.sid.val → s.upd.commit = none → Safety.Gives (.updateLeaseRelease c 0 n) s fun t =>
      Safety.Done t w (toBytes 1 255 ++ toBytes 1 0 ++ toBytes 2 0) ∧ rd t upS UpdStatus.HOLDER = 255 ∧ stage t = 0 ∧
        t.upd = { s.upd with leaseS := 0, blocks := [], staged := none } ∧ Safety.RegsKept [.updStatus, .sessStatus] s t)) ∧
  (∀ s : State,
    (rd s upS UpdStatus.HOLDER ≠ 255 → rd s (sessKey (rd s upS UpdStatus.HOLDER)) SessStatus.OUTSTANDING = 0 →
      Safety.Gives .leaseExpire s fun t =>
        rd t upS UpdStatus.HOLDER = 255 ∧ t.upd = { s.upd with leaseS := 0, blocks := [], staged := none } ∧
          s.upd.leaseAt + s.upd.leaseS * sec ≤ t.clock ∧ Safety.RegsKept (.updStatus :: Safety.telling) s t) ∧
    (rd s upS UpdStatus.HOLDER = 255 → Safety.Gives .leaseExpire s fun t => t = s)) ∧
  (∀ (c : Hdr) (off len : BitVec 32) (data : Bytes) (i : Nat) (s : State) (w : Waiting),
    Safety.Turn s c w 0x0702 accUpdate (12 + len.toNat) 0x70 → rd s upS UpdStatus.HOLDER = c.sid.val → hbmReady s 0 = true →
    stage s ≠ sgVerifying → stage s ≠ sgCommitting → data.length = len.toNat → 1 ≤ len.toNat → len.toNat ≤ 65536 →
    off.toNat = 65536 * i → i < 512 → (i = 0 ∨ stagedLength s = none ∨ ∃ l, stagedLength s = some l ∧ blockFits l i len.toNat = true) →
    Safety.Gives (.updateWrite c off len 0 data) s fun t =>
      tabGet? t.upd.blocks i = some data ∧ stage t = sgReceiving ∧ t.upd.staged = none ∧
        Safety.Done t w (toBytes 2 t.upd.blocks.length ++ toBytes 2 0) ∧ Safety.Counted .updCtr 0 0 1 s t ∧
        Safety.RegsKept (.updStatus :: .updCtr :: Safety.telling) s t) ∧
  (∀ (c : Hdr) (s : State) (w : Waiting), rd s upS UpdStatus.HOLDER = c.sid.val →
    (Safety.Turn s c w 0x0703 accUpdate 0 0x70 → stage s ≠ sgVerifying → stage s ≠ sgCommitting → Safety.Gives (.updateVerify c) s fun t =>
      stage t = sgVerifying ∧ t.upd.verify = some c ∧ t.cmd.waiting = [{ w with phase := .started 0x70 }] ∧ t.out = s.out ∧
        Safety.RegsKept [.updStatus] s t) ∧
    (∀ k b, Safety.Turn s c w 0x0704 accUpdate 4 0x70 → stage s = sgVerified → actState s = acIdle → stable s = true →
      slotIn s fsActive = some k → flag s (dirK k) DirRec.TRIAL = false → s.upd.staged = some b →
      Safety.Gives (.updateCommit c 0) s fun t =>
        stage t = sgCommitting ∧ rd t (dirK (if k = 0 then 1 else 0)) DirRec.STATE = fsWriting ∧ t.cmd.waiting = [{ w with phase := .started 0x70 }] ∧
        t.upd.commit =
          some { hdr := c, step := 2, target := if k = 0 then 1 else 0, bundle := b, len := (stagedLength s).getD 0, repeats := 0 } ∧
        t.upd.dirSeq = s.upd.dirSeq + 1 ∧ t.upd.slots = s.upd.slots ∧ Safety.RegsKept [.updStatus, .dirRec] s t)) ∧
  (∀ (b : BundleInfo) (c : Hdr) (r comp off : Nat) (s : State) (w : Waiting), s.upd.verify = some c → s.cmd.waiting = [w] → w.hdr = c →
    w.phase = .started 0x70 → w.op = 0x0703 → stage s = sgVerifying → rd s (sessKey c.sid.val) SessStatus.NEXT_SEQ < 2 ^ 64 - 4096 →
    (verifyOutcome s b = (r, comp, off, false) → Safety.Gives (.updateVerifyComplete b) s fun t =>
      Safety.Done t w (toBytes 1 r ++ toBytes 1 comp ++ toBytes 2 0 ++ toBytes 4 off) ∧ stage t = sgVerified ∧ t.upd.staged = some b ∧
        t.upd.verify = none ∧ rd t upS UpdStatus.LAST_REASON = r % 256 ∧ Safety.RegsKept [.updStatus, .sessStatus] s t) ∧
    (verifyOutcome s b = (r, comp, off, true) → Safety.Gives (.updateVerifyComplete b) s fun t =>
      stage t = sgBad ∧ t.upd.staged = none ∧ t.upd.verify = none ∧ Safety.Counted .updCtr 0 1 1 s t ∧ t.cmd.waiting = [] ∧
        (∃ q l, t.out = Safety.replyOf t w q (reasonStatus r) (sessAddr c.sid.val) 0
          (toBytes 1 r ++ toBytes 1 comp ++ toBytes 2 0 ++ toBytes 4 off) :: l) ∧
        Safety.RegsKept (.updStatus :: .updCtr :: Safety.raising) s t)) ∧
  (∀ (b : BundleInfo) (s : State), s.upd.verify = none → Safety.Gives (.updateVerifyComplete b) s fun t => t = s) ∧
  (∀ (ok : Bool) (x : Storing) (s : State),
    (s.upd.commit = none → Safety.Gives (.commitStepComplete ok) s fun t => t = s) ∧
    (s.upd.commit = some x → s.upd.slots.length = 2 → x.target < 2 →
      (x.step = 2 → Safety.Gives (.commitStepComplete ok) s fun t =>
        bundleIn t x.target = none ∧ t.upd.commit = some { x with step := 3 } ∧ t = { s with upd := t.upd }) ∧
      (x.step = 3 → Safety.Gives (.commitStepComplete ok) s fun t =>
        bundleIn t x.target = some x.bundle ∧ t.upd.commit = some { x with step := 4 } ∧ t = { s with upd := t.upd }) ∧
      (x.step = 4 → ok = true → Safety.Gives (.commitStepComplete ok) s fun t =>
        t = { s with upd := { s.upd with commit := some { x with step := 5 } } }) ∧
      (x.step = 4 → ok = false → x.repeats < 2 → Safety.Gives (.commitStepComplete ok) s fun t =>
        t = { s with upd := { s.upd with commit := some { x with repeats := x.repeats + 1 } } }) ∧
      (x.step = 4 → ok = false → 2 ≤ x.repeats → stage s = sgCommitting → Safety.Gives (.commitStepComplete ok) s fun t =>
        t.upd.commit = none ∧ stage t = sgVerified ∧ Safety.Counted .updCtr 0 3 1 s t ∧
          (∀ k < 2, rd t (dirK k) DirRec.STATE = rd s (dirK k) DirRec.STATE) ∧
          Safety.RegsKept (.updStatus :: .updCtr :: Safety.raising) s t) ∧
      (x.step = 5 → Safety.Gives (.commitStepComplete ok) s fun t =>
        t.upd.commit = some { x with step := 6 } ∧ bundleIn t x.target = some x.bundle ∧ t = { s with upd := t.upd }) ∧
      (∀ k w, x.step = 6 → slotIn s fsActive = some k → k ≠ x.target → s.cmd.waiting = [w] → w.hdr = x.hdr → w.phase = .started 0x70 →
        w.op = 0x0704 → rd s (sessKey w.hdr.sid.val) SessStatus.NEXT_SEQ < 2 ^ 64 - 4096 → Safety.Gives (.commitStepComplete ok) s fun t =>
          Safety.Done t w [] ∧ rd t (dirK x.target) DirRec.STATE = fsActive ∧ flag t (dirK x.target) DirRec.TRIAL = true ∧
            rd t (dirK k) DirRec.STATE = fsPrevious ∧ t.upd.commit = none ∧ t.upd.blocks = [] ∧ t.upd.staged = none ∧ stage t = 0 ∧
            Safety.Counted .updCtr 0 2 1 s t ∧ Safety.RegsKept (.dirRec :: .updStatus :: .updCtr :: Safety.telling) s t))) ∧
  (∀ s : State,
    (stable s = true → Safety.Gives .storeAbort s fun t => t = s) ∧
    (stable s = false → Safety.Gives .storeAbort s fun t =>
      t.upd.commit = none ∧ t.upd.save = none ∧ Safety.RegsKept (.updStatus :: .updCtr :: Safety.raising) s t))

/-- Settings, activation and fallback (R526, R530 to R533, R535): SAVE takes the settings as they stand, and they become the newer half;
IN_SERVICE activates the ACTIVE bundle, part after part, and the health window opens when the cores are done; RESTART answers and resets the
device; CONFIRM and the window's end pass the image, or fall back to the slot before; RAISE_SECVER is a fuse write, or nothing.
The model's readings in it: log entries 6, 18 and 66. -/
def Obligations.ActivationAndFallback : Prop :=
  (∀ (c : Hdr) (s : State) (w : Waiting), Safety.Sets s c w upC UpdCtl.SAVE 1 → s.upd.save = none → Safety.Gives (.save c) s fun t =>
    Safety.Done t w [] ∧ (∃ h, t.upd.save = some h ∧ t.upd = { s.upd with save := some h }) ∧ Safety.RegsKept [.updCtl, .sessStatus] s t) ∧
  (∀ (h : Settings) (k : Nat) (s : State),
    (s.upd.save = some h → slotIn s fsActive = some k → s.upd.slots.length = 2 → Safety.Gives .saveComplete s fun t =>
      (∃ n, (flashSlot t k).halves = { h with seq := n } :: (flashSlot s k).halves.take 1) ∧ bundleIn t k = bundleIn s k ∧
      t.upd.save = none ∧ rd t upS UpdStatus.SETTINGS_DEFAULTED = 0 ∧ Safety.Counted .updCtr 0 6 1 s t ∧
      Safety.RegsKept (.dirRec :: .updStatus :: .updCtr :: Safety.telling) s t) ∧
    (s.upd.save = none → Safety.Gives .saveComplete s fun t => t = s)) ∧
  (∀ (c : Hdr) (k : Nat) (b : BundleInfo) (s : State) (w : Waiting), Safety.Turn s c w 0x0705 accUpdate 4 0x70 →
    rd s upS UpdStatus.HOLDER = c.sid.val →
    (slotIn s fsActive = some k → bundleIn s k = some b → flag s (dirK k) DirRec.TRIAL = true → runSlot s ≠ k → actState s = acIdle →
      runningChecks s b = (none, false) →
      (Safety.Gives (.inService c none 0 none) s fun t =>
        actState t = acActivating ∧ t.upd.act = partsOfBundle b ∧ t.upd.actHdr = some c ∧ t.cmd.waiting = [{ w with phase := .started 0x70 }] ∧
          Safety.Counted .updCtr 0 4 1 s t ∧ Safety.RegsKept (.updStatus :: .updCtr :: Safety.telling) s t) ∧
      (∀ r comp off, Safety.Gives (.inService c none 0 (some (r, comp, off))) s fun t =>
        rd t upS UpdStatus.LAST_REASON = r.toNat ∧ t.upd.act = s.upd.act ∧ t.cmd.waiting = [] ∧
        (∃ q l, t.out = Safety.replyOf t w q stIntegrity (sessAddr c.sid.val) 0
          (toBytes 1 r.toNat ++ toBytes 1 acIdle ++ toBytes 2 0) :: l) ∧ Safety.RegsKept (.updStatus :: Safety.raising) s t)) ∧
    (∀ o bad, o ≠ none → Safety.Gives (.inService c o 0 bad) s fun t =>
      Safety.Refused t w stRange (sessAddr c.sid.val) ∧ t.upd = s.upd ∧ Safety.RegsKept Safety.raising s t) ∧
    (actState s = acIdle → Safety.Gives (.restart c 0) s fun t =>
      flag t rstKey RstStatus.READY = false ∧ rd t rstKey RstStatus.CAUSE = 4 ∧ t.cmd.waiting = [] ∧ t.hbm = [] ∧ t.upd.slots = s.upd.slots ∧
        (∃ q l, t.out = Safety.replyOf s w q stOk 0 0 (toBytes 1 0 ++ toBytes 1 acIdle ++ toBytes 2 0) :: l)) ∧
    (actState s = acHealth →
      (s.upd.coreFault = false → stable s = true → Safety.Gives (.confirm c 0) s fun t =>
        Safety.Done t w (toBytes 1 0 ++ toBytes 1 acIdle ++ toBytes 2 0) ∧ actState t = acIdle ∧
          flag t (dirK (runSlot s)) DirRec.TRIAL = false ∧ rd t (dirK (runSlot s)) DirRec.TRIES = 0 ∧
          Safety.RegsKept (.dirRec :: .updStatus :: Safety.telling) s t) ∧
      (s.upd.coreFault = true → Safety.Gives (.confirm c 0) s fun t =>
        Safety.Done t w (toBytes 1 0 ++ toBytes 1 acHealth ++ toBytes 2 0) ∧ t.upd.confirmed = true ∧ Safety.RegsKept [.sessStatus] s t)) ∧
    (∀ p, flag s (dirK (runSlot s)) DirRec.TRIAL = true → slotIn s fsPrevious = some p → p ≠ runSlot s → stable s = true →
      flag s upS UpdStatus.SETTINGS_DEFAULTED = false → s.upd.actDone = [] → Safety.Gives (.fallback c 0) s fun t =>
        (∃ q, Safety.replyOf s w q stOk 0 0 (toBytes 1 0 ++ toBytes 1 acFalling ++ toBytes 2 0) ∈ t.out) ∧ t.cmd.waiting = [] ∧ actState t = acIdle ∧
        rd t (dirK p) DirRec.STATE = fsActive ∧ flag t (dirK p) DirRec.TRIAL = false ∧ rd t (dirK (runSlot s)) DirRec.STATE = fsVerified ∧
        flag t (dirK (runSlot s)) DirRec.HEALTH_FAILED = true ∧ Safety.Counted .updCtr 0 5 1 s t ∧
        Safety.RegsKept (.dirRec :: .updStatus :: .updCtr :: Safety.telling) s t) ∧
    (s.cmd.fuse = none → bundleIn s (runSlot s) = some b → flag s (dirK (runSlot s)) DirRec.TRIAL = false → stable s = true →
      (b.secver ≤ rd s upS UpdStatus.SECVER_MIN → Safety.Gives (.raiseSecver c 0) s fun t =>
        Safety.Done t w (toBytes 1 0 ++ toBytes 1 (actState s) ++ toBytes 2 0) ∧ t.cmd.fuse = none ∧ Safety.RegsKept [.sessStatus] s t) ∧
      (rd s upS UpdStatus.SECVER_MIN < b.secver → Safety.Gives (.raiseSecver c 0) s fun t =>
        t.cmd.fuse = some { hdr := some c, slots := [], secver := some b.secver, from_ := s.clock } ∧
          t.cmd.waiting = [{ w with phase := .started 0x01 }] ∧ t.fuses = s.fuses ∧ Safety.RegsKept [] s t))) ∧
  (∀ (p q : ActPart) (rest : List ActPart) (s : State),
    (s.upd.act = [] → Safety.Gives .activationStepComplete s fun t => t = s) ∧
    (s.upd.act = p :: q :: rest → p = .phy ∨ p.isCore = true → q.isCore = true → Safety.Gives .activationStepComplete s fun t =>
      t = { s with upd := { s.upd with act := q :: rest, actDone := q :: s.upd.actDone.filter (fun r => r != q) } }) ∧
    (∀ k b c w, s.upd.act = [p] → p.isCore = true → slotIn s fsActive = some k → bundleIn s k = some b → actState s = acActivating →
      s.upd.actHdr = some c → s.cmd.waiting = [w] → w.hdr = c → w.phase = .started 0x70 → w.op = 0x0705 →
      rd s (sessKey c.sid.val) SessStatus.NEXT_SEQ < 2 ^ 64 - 4096 →
      Safety.Gives .activationStepComplete s fun t =>
        Safety.Done t w (toBytes 1 0 ++ toBytes 1 acHealth ++ toBytes 2 0) ∧ runSlot t = k % 2 ∧
          rd t upS UpdStatus.RUN_VERSION = b.fwVersion.toNat ∧ actState t = acHealth ∧ t.upd.act = [] ∧ t.upd.healthAt = s.clock ∧
          t.upd.confirmed = false ∧ Safety.RegsKept [.updStatus, .sessStatus] s t)) ∧
  (∀ s : State,
    (actState s = acHealth → stable s = true → s.upd.coreFault = false →
      flag s upC UpdCtl.CONFIRM_REQ = false ∨ s.upd.confirmed = true → Safety.Gives .healthWindowEnd s fun t =>
      actState t = acIdle ∧ flag t (dirK (runSlot s)) DirRec.TRIAL = false ∧ rd t (dirK (runSlot s)) DirRec.TRIES = 0 ∧
        s.upd.healthAt + rd s upC UpdCtl.HEALTH_S * sec ≤ t.clock ∧ Safety.RegsKept (.dirRec :: .updStatus :: Safety.telling) s t) ∧
    (∀ p, actState s = acHealth → stable s = true → s.upd.coreFault = true → slotIn s fsPrevious = some p → p ≠ runSlot s →
      flag s upS UpdStatus.SETTINGS_DEFAULTED = false → s.upd.actDone = [] → Safety.Gives .healthWindowEnd s fun t =>
      actState t = acIdle ∧ rd t (dirK p) DirRec.STATE = fsActive ∧ rd t (dirK (runSlot s)) DirRec.STATE = fsVerified ∧
        flag t (dirK (runSlot s)) DirRec.HEALTH_FAILED = true ∧ Safety.Counted .updCtr 0 5 1 s t ∧
        s.upd.healthAt + rd s upC UpdCtl.HEALTH_S * sec ≤ t.clock ∧
        Safety.RegsKept (.dirRec :: .updStatus :: .updCtr :: Safety.raising) s t) ∧
    (actState s ≠ acHealth → Safety.Gives .healthWindowEnd s fun t => t = s))

/-! ## Chapters 19 and 20: start-up and power -/

/-- Resets and start-up (R534, R541 to R551, R554, R555): RESET is answered, or refused: with RANGE for a KIND that is not listed, with
STATE while the flash or the fuses are written; a
device or pin reset gives every object but the reset status and the flash records its reset value; a datapath reset clears its blocks alone;
the straps choose the steps; VIN's loss is a main reset while VSTBY is good; steps complete in their order, and the last makes the device
command-ready; the loader counts a trial boot, and falls back from an image that is not ready 5 s after its start.
The model's readings in it: log entries 15, 16 and 17. -/
def Obligations.ResetAndStartUp : Prop :=
  (∀ (c : Hdr) (flags : BitVec 8) (s : State) (w : Waiting), Safety.Turn s c w 0x0F01 accControl 4 0x01 → flags.toNat < 2 →
    (resetRefused s = false → Safety.Gives (.resetDevice c none flags 0) s fun t =>
      (∃ q l, t.out = Safety.replyOf s w q stOk 0 0 [] :: l) ∧ rd t rstKey RstStatus.CAUSE = 3 ∧
      flag t rstKey RstStatus.READY = false ∧ t.cmd.waiting = [] ∧ t.pwr.skipSet = (flags == 1) ∧ t.upd.slots = s.upd.slots ∧
      ∀ k, blockOf k ∈ allBlocks → k.ty ∉ [ObjTy.rstStatus, .dirRec, .fltStatus] → rdWord t k = resetVal s.fuses k) ∧
    (resetRefused s = false → servo s ≠ svLocked → Safety.Gives (.resetDatapath c flags 0) s fun t =>
      rd t rstKey RstStatus.CAUSE = 5 ∧ flag t rstKey RstStatus.READY = false ∧ t.pwr.steps = datapathSteps ∧
      t.cmd.waiting = [{ w with phase := .started 0x01 }] ∧ t.buf = Buf.reset ∧ t.upd = s.upd ∧
      ∀ k, blockOf k ∈ datapathBlocks → k.ty ∉ Safety.raising → rdWord t k = resetVal s.fuses k) ∧
    (∀ o, o ≠ none → Safety.Gives (.resetDevice c o flags 0) s fun t =>
      Safety.Refused t w stRange (sessAddr c.sid.val) ∧ Safety.RegsKept Safety.raising s t) ∧
    (resetRefused s = true → ∀ i ∈ [Instr.resetDevice c none flags 0, .resetDatapath c flags 0], Safety.Gives i s fun t =>
      Safety.Refused t w stState (sessAddr c.sid.val) ∧ Safety.RegsKept Safety.raising s t)) ∧
  (∀ (strap : BitVec 2) (s : State),
    (Safety.Gives .pinReset s fun t =>
      rd t rstKey RstStatus.CAUSE = 2 ∧ rd t rstKey RstStatus.RESETS = min (rd s rstKey RstStatus.RESETS + 1) 65535 ∧
      flag t rstKey RstStatus.READY = false ∧ t.pwr.nreset = true ∧ t.cmd.waiting = [] ∧ t.upd.slots = s.upd.slots ∧
      ∀ k, blockOf k ∈ allBlocks → k.ty ∉ [ObjTy.rstStatus, .dirRec, .fltStatus] → rdWord t k = resetVal s.fuses k) ∧
    (s.pwr.nreset = true → Safety.Gives (.resetRelease strap) s fun t =>
      t.pwr.nreset = false ∧ rd t rstKey RstStatus.BOOT_MODE = strap.toNat ∧
      t.pwr.steps = (if strap.toNat < 2 then (if s.pwr.vin then allSteps.tail else allSteps)
        else (if s.pwr.vin then allSteps.tail else allSteps).filter fun n => decide (n ≤ 5)) ∧
      t.pwr.done = [] ∧ Safety.RegsKept [.rstStatus, .fltStatus] s t) ∧
    (s.pwr.nreset = false → Safety.Gives (.resetRelease strap) s fun t => t = s) ∧
    (s.pwr.vin = false → s.pwr.vstby = true → s.pwr.toDevice = false → Safety.Gives .vinGood s fun t =>
      t = { s with pwr := { s.pwr with vin := true } }) ∧
    (s.pwr.vin = false → s.pwr.vstby = true → s.pwr.toDevice = true → Safety.Gives .vinGood s fun t =>
      t.pwr.vin = true ∧ rd t rstKey RstStatus.CAUSE = 3 ∧ flag t rstKey RstStatus.READY = false ∧ t.upd.slots = s.upd.slots) ∧
    (s.pwr.vin = true → Safety.Gives .vinGood s fun t => t = s) ∧
    (s.pwr.vin = true → s.pwr.vstby = true → Safety.Gives .vinLoss s fun t =>
      t.pwr.vin = false ∧ rd t rstKey RstStatus.CAUSE = 1 ∧ flag t rstKey RstStatus.READY = false ∧ t.hbm = [] ∧ t.cmd.waiting = [] ∧
      t.upd.blocks = [] ∧ t.upd.staged = none ∧ rd t upS UpdStatus.HOLDER = 255 ∧ t.upd.slots = s.upd.slots) ∧
    (s.pwr.vin = true → s.pwr.vstby = false → Safety.Gives .vinLoss s fun t =>
      t.pwr.vin = false ∧ flag t rstKey RstStatus.READY = false ∧ rd t rstKey RstStatus.RESETS = 0 ∧ t.upd.slots = s.upd.slots) ∧
    (s.pwr.vin = false → Safety.Gives .vinLoss s fun t => t = s) ∧
    (s.pwr.vstby = false → s.pwr.vin = false → Safety.Gives (.vstbyGood strap) s fun t =>
      t.pwr.vstby = true ∧ rd t rstKey RstStatus.BOOT_MODE = strap.toNat ∧ flag t rstKey RstStatus.READY = false) ∧
    (s.pwr.vstby = false → s.pwr.vin = true → 1 ∈ s.pwr.done → Safety.Gives (.vstbyGood strap) s fun t =>
      rd t rstKey RstStatus.BOOT_MODE = strap.toNat ∧ t = { s with regs := t.regs, pwr := { s.pwr with vstby := true } } ∧
        Safety.RegsKept [.rstStatus] s t) ∧
    (s.pwr.vstby = true → Safety.Gives (.vstbyGood strap) s fun t => t = s) ∧
    (s.pwr.vstby = true → s.pwr.vin = true → Safety.Gives .vstbyLoss s fun t => t = { s with pwr := { s.pwr with vstby := false } }) ∧
    (s.pwr.vstby = false → Safety.Gives .vstbyLoss s fun t => t = s)) ∧
  (∀ (r : BootRead) (s : State),
    (∀ n : Fin 12, stepReady s n.val = false → Safety.Gives (.startupStepComplete n r) s fun t => t = s) ∧
    (stepReady s 1 = true → Safety.Gives (.startupStepComplete 1 r) s fun t =>
      rd t (obj .pwrStatus) PwrStatus.VIN_LEVEL = r.level.toNat ∧ t.pwr.startAt = s.clock ∧ t.pwr.done = s.pwr.done ++ [1]) ∧
    (∀ n : Fin 12, n.val ∈ [2, 4, 7] → stepReady s n.val = true → Safety.Gives (.startupStepComplete n r) s fun t =>
      rd t rstKey RstStatus.STEP = stepOf s.pwr.steps (s.pwr.done ++ [n.val]) ∧
      t = { s with regs := t.regs, pwr := { s.pwr with done := s.pwr.done ++ [n.val] } } ∧ Safety.RegsKept [.rstStatus] s t) ∧
    (stepReady s 3 = true → Safety.Gives (.startupStepComplete 3 r) s fun t =>
      t = { s with regs := t.regs, pwr := { s.pwr with rails := true, done := s.pwr.done ++ [3] } } ∧
        Safety.RegsKept [.rstStatus, .brgStatus] s t) ∧
    (stepReady s 5 = true → (∀ i < 6, rd s (obj .hbStatus i) HbStatus.STATE ≠ 0) → Safety.Gives (.startupStepComplete 5 r) s fun t =>
      t.pwr.done = s.pwr.done ++ [5] ∧ Safety.RegsKept [.rstStatus] s t) ∧
    (∀ k, stepReady s 6 = true → s.upd.trialBoot = false → r.dirBad = none → r.bad0 = false → r.bad1 = false → s.upd.bootBad = [] →
      s.upd.fellBack = false → slotIn s fsActive = some k → flag s (dirK k) DirRec.TRIAL = false → Safety.Gives (.startupStepComplete 6 r) s fun t =>
      t.upd.bootSlot = some k ∧ t.upd.bootAt = s.clock ∧ runSlot t = k ∧ t.pwr.done = s.pwr.done ++ [6] ∧ Safety.RegsKept [.updStatus, .rstStatus] s t) ∧
    (stepReady s 8 = true → rd s rstKey RstStatus.BOOT_MODE = 1 → Safety.Gives (.startupStepComplete 8 r) s fun t =>
      rd t upS UpdStatus.SETTINGS_DEFAULTED = 1 ∧ t.pwr.done = s.pwr.done ++ [8]) ∧
    (stepReady s 9 = true → Safety.Gives (.startupStepComplete 9 r) s fun t => 9 ∈ t.pwr.done ∧ t.pwr.fresh = []) ∧
    (∀ c w, stepReady s 10 = true → s.upd.act = [] → s.pwr.steps = datapathSteps → s.pwr.hdr = some c → inSafe s = false →
      s.cmd.waiting = [w] → w.hdr = c → w.phase = .started 0x01 → w.op = 0x0F01 →
      rd s (sessKey c.sid.val) SessStatus.NEXT_SEQ < 2 ^ 64 - 4096 → Safety.Gives (.startupStepComplete 10 r) s fun t =>
      Safety.Done t w [] ∧ flag t rstKey RstStatus.READY = true ∧ t.pwr.ember = true ∧
        Safety.RegsKept [.rstStatus, .fltStatus, .sessStatus] s t) ∧
    (stepReady s 11 = true → Safety.Gives (.startupStepComplete 11 r) s fun t =>
      flag t rstKey RstStatus.READY = true ∧ rd t rstKey RstStatus.START_MS = min 65535 ((s.clock - s.pwr.startAt) / ms) ∧
      t.pwr.ember = !inSafe s ∧ Safety.RegsKept [.rstStatus, .fltStatus, .updStatus] s t) ∧
    (s.upd.trialBoot = false → Safety.Gives .trialBootRetry s fun t => t = s) ∧
    (∀ k, s.upd.trialBoot = true → stable s = true → slotIn s fsActive = some k → k ∉ s.upd.bootBad →
      flag s (dirK k) DirRec.TRIAL = true → rd s (dirK k) DirRec.TRIES < rd s upC UpdCtl.TRIAL_BOOTS → Safety.Gives .trialBootRetry s fun t =>
      t.upd.bootSlot = some k ∧ t.upd.trialBoot = false ∧ runSlot t = k ∧ rd t (dirK k) DirRec.TRIES = (rd s (dirK k) DirRec.TRIES + 1) % 4) ∧
    (∀ k p, s.upd.bootSlot = some k → flag s (dirK k) DirRec.TRIAL = true → 6 ∈ s.pwr.done → 11 ∉ s.pwr.done → stable s = true →
      slotIn s fsActive = some k → slotIn s fsPrevious = some p → p ∉ s.upd.bootBad → Safety.Gives .bootReadyTimeout s fun t =>
      t.upd.bootSlot = some p ∧ runSlot t = p ∧ rd t (dirK p) DirRec.STATE = fsActive ∧ rd t (dirK k) DirRec.STATE = fsVerified ∧
        flag t (dirK k) DirRec.HEALTH_FAILED = true ∧ 6 ∈ t.pwr.done ∧ 8 ∉ t.pwr.done ∧
        s.upd.bootAt + 5 * sec ≤ t.clock) ∧
    (s.upd.bootSlot = none → Safety.Gives .bootReadyTimeout s fun t => t = s))

/-- The power ladder (R556, R559 to R566): measurements are shown and an excess noted; one item after another is shed, 50 µs apart, while the budget is
exceeded, and its shortfall reported once nothing has been left for 10 ms; the item shed last comes back once the power has been low; the current limit sheds
steps 1 to 3 at once, and shuts the rails down where that is not enough; LEVEL is the worst of VIN_LEVEL, FORCE_LEVEL and the thermal level;
110 degrees shut the rails down.
The model's readings in it: log entry 67. -/
def Obligations.PowerLadder : Prop :=
  (∀ (watts amps mv sb : Nat) (s : State), Safety.Gives (.powerMeasure watts amps mv sb) s fun t =>
    rd t pwS PwrStatus.PIN_W = min watts 4095 ∧ rd t pwS PwrStatus.IIN = min amps 2047 ∧ rd t pwS PwrStatus.VIN_MV = min mv 20000 ∧
    (t.pwr.overAt = if budget (level s) < watts then some (s.pwr.overAt.getD s.clock) else none) ∧
    (t.pwr.limitAt = if 1100 < amps then some (s.pwr.limitAt.getD s.clock) else none) ∧
    t = { s with regs := t.regs, pwr := t.pwr } ∧ Safety.RegsKept [.pwrStatus] s t) ∧
  (∀ (u : ShedUnit) (l : List ShedUnit) (s : State),
    (s.pwr.overAt ≠ none → s.pwr.unmet = false → lastApplied s = true → itemsLeft s [1, 2, 3, 4, 5] = u :: l →
      Safety.Gives .shedItem s fun t =>
        t.pwr.shed = u :: s.pwr.shed ∧ t.pwr.shedAt = some t.clock ∧ (∀ t0, s.pwr.shedAt = some t0 → t0 + 50000 ≤ t.clock) ∧ Safety.Counted .pwrCtr 0 1 1 s t ∧
        (∀ p : Fin 48, u = .port p → linkOf t p.val ≠ lkUp)) ∧
    (s.pwr.overAt = none → ∀ c ∈ [Instr.shedItem, .budgetUnmet], Safety.Gives c s fun t => t = s) ∧
    (s.pwr.overAt ≠ none → s.pwr.unmet = false → itemsLeft s [1, 2, 3, 4, 5] = [] → Safety.Gives .budgetUnmet s fun t =>
      t.pwr.unmet = true ∧ max (s.pwr.overAt.getD 0) (s.pwr.shedAt.getD 0) + 10 * ms ≤ t.clock ∧ Safety.RegsKept Safety.raising s t)) ∧
  (∀ (watts : Nat) (u : ShedUnit) (l : List ShedUnit) (s : State),
    (s.pwr.shed = u :: l → 100 * watts < 85 * budget (level s) → longAgo s s.pwr.shedAt (10 * sec) = true →
      longAgo s s.pwr.restAt sec = true → shedStep u ∉ startSteps (level s) → Safety.Gives (.restoreItem watts) s fun t =>
        t.pwr.shed = l ∧ t.pwr.restAt = some s.clock) ∧
    (85 * budget (level s) ≤ 100 * watts → Safety.Gives (.restoreItem watts) s fun t => t = s) ∧
    (s.pwr.shed = [] → Safety.Gives (.restoreItem watts) s fun t => t = s)) ∧
  (∀ s : State,
    (s.pwr.limitAt ≠ none → s.pwr.limited = false → Safety.Gives .currentLimit s fun t =>
      t.pwr.limited = true ∧ s.pwr.limitAt.getD 0 + 20000 ≤ t.clock ∧ (∀ u ∈ itemsLeft s [1, 2, 3], u ∈ t.pwr.shed) ∧ Safety.Counted .pwrCtr 0 2 1 s t) ∧
    (s.pwr.limitAt = none → ∀ c ∈ [Instr.currentLimit, .currentLimitShutdown], Safety.Gives c s fun t => t = s) ∧
    (s.pwr.limitAt ≠ none → s.pwr.limited = true → Safety.Gives .currentLimitShutdown s fun t =>
      flag t rstKey RstStatus.READY = false ∧ t.hbm = [] ∧ t.pwr.shed = [] ∧ t.cmd.waiting = [] ∧ t.upd.slots = s.upd.slots)) ∧
  (∀ (lv : BitVec 2) (s : State),
    (Safety.Gives (.vinLevelChange lv) s fun t =>
      rd t pwS PwrStatus.VIN_LEVEL = lv.toNat ∧ level t = max lv.toNat (max (rd s pwC PwrCtl.FORCE_LEVEL) (thermalLevel t))) ∧
    (∀ c w, Safety.Sets s c w pwC PwrCtl.FORCE_LEVEL lv.toNat → Safety.Gives (.forceLevelWrite c lv) s fun t =>
      Safety.Done t w [] ∧ rd t pwC PwrCtl.FORCE_LEVEL = lv.toNat ∧
        level t = max (rd s pwS PwrStatus.VIN_LEVEL) (max lv.toNat (thermalLevel t))) ∧
    (∀ b, Safety.Gives (.stableChange b) s fun t =>
      stable t = b ∧ t = { s with regs := t.regs } ∧ Safety.RegsKept [.pwrStatus] s t)) ∧
  (∀ (fd qd : Nat) (s : State),
    (93 ≤ max fd qd → max fd qd < 98 → Safety.Gives (.thermalRead fd qd) s fun t =>
      rd t pwS PwrStatus.TJ_MAX = max fd qd ∧ t = { s with regs := t.regs, pwr := { s.pwr with hotAt := none, coolAt := none } } ∧
        Safety.RegsKept [.pwrStatus] s t) ∧
    (∀ t0, 98 ≤ max fd qd → max fd qd < 110 → s.pwr.hotAt = some t0 → t0 + 10 * ms ≤ s.clock → flag s pwS PwrStatus.THERMAL = false →
      Safety.Gives (.thermalRead fd qd) s fun t =>
        flag t pwS PwrStatus.THERMAL = true ∧ rd t pwS PwrStatus.TJ_MAX = max fd qd ∧ Safety.Counted .pwrCtr 0 3 1 s t) ∧
    (∀ t0, max fd qd < 93 → s.pwr.coolAt = some t0 → t0 + sec ≤ s.clock → flag s pwS PwrStatus.THERMAL = true →
      Safety.Gives (.thermalRead fd qd) s fun t => flag t pwS PwrStatus.THERMAL = false ∧ thermalLevel t = 0) ∧
    (110 ≤ max fd qd → Safety.Gives (.thermalRead fd qd) s fun t =>
      flag t rstKey RstStatus.READY = false ∧ t.hbm = [] ∧ t.cmd.waiting = [] ∧ t.upd.slots = s.upd.slots))
end

