-- ==== Sys2Proof/Laws/Tab.lean ====
section
/-! SUPPORT. Sparse tables: reading after writing, and the canonical form that every operation keeps. -/
namespace Sys2Proof.Machine

variable {β : Type}

@[simp] theorem tabGet?_nil (k : Nat) : tabGet? ([] : Tab β) k = none := rfl

theorem tabGet?_put (t : Tab β) (k j : Nat) (v : β) : tabGet? (tabPut t k v) j = if j = k then some v else tabGet? t j := by
  induction t with
  | nil => simp [tabPut, tabGet?]
  | cons e r ih =>
    obtain ⟨k', v'⟩ := e
    simp only [tabPut]
    split
    · simp [tabGet?]
    · split
      · subst_vars
        simp only [tabGet?]
        split <;> rfl
      · simp only [tabGet?, ih]
        by_cases h : j = k'
        · subst h
          simp
          omega
        · simp [h]

theorem tabGet?_del (t : Tab β) (k j : Nat) : tabGet? (tabDel t k) j = if j = k then none else tabGet? t j := by
  induction t with
  | nil => simp [tabDel, tabGet?]
  | cons e r ih =>
    obtain ⟨k', v'⟩ := e
    simp only [tabDel] at ih
    by_cases h : k' = k
    · subst h
      simp only [tabDel, List.filter_cons, bne_self_eq_false, Bool.false_eq_true, if_false, ih, tabGet?]
      split <;> simp_all
    · simp only [tabDel, List.filter_cons, bne_iff_ne, ne_eq, h, not_false_eq_true, if_true, tabGet?, ih]
      by_cases hj : j = k'
      · subst hj; simp [h]
      · simp [hj]

@[simp] theorem tabGet?_put_self (t : Tab β) (k : Nat) (v : β) : tabGet? (tabPut t k v) k = some v := by simp [tabGet?_put]
@[simp] theorem tabGet?_put_ne (t : Tab β) {k j : Nat} (v : β) (h : j ≠ k) : tabGet? (tabPut t k v) j = tabGet? t j := by
  simp [tabGet?_put, h]
@[simp] theorem tabGet_put_self (t : Tab β) (k : Nat) (v d : β) : tabGet (tabPut t k v) k d = v := by simp [tabGet]
@[simp] theorem tabGet_put_ne (t : Tab β) {k j : Nat} (v d : β) (h : j ≠ k) : tabGet (tabPut t k v) j d = tabGet t j d := by
  simp [tabGet, h]
@[simp] theorem tabGet?_del_self (t : Tab β) (k : Nat) : tabGet? (tabDel t k) k = none := by simp [tabGet?_del]
@[simp] theorem tabGet?_del_ne (t : Tab β) {k j : Nat} (h : j ≠ k) : tabGet? (tabDel t k) j = tabGet? t j := by
  simp [tabGet?_del, h]

@[simp] theorem tabGet_set_self [DecidableEq β] (t : Tab β) (k : Nat) (v d : β) : tabGet (tabSet t k v d) k d = v := by
  unfold tabSet
  split
  · simp [tabGet, *]
  · simp
@[simp] theorem tabGet_set_ne [DecidableEq β] (t : Tab β) {k j : Nat} (v d d' : β) (h : j ≠ k) :
    tabGet (tabSet t k v d) j d' = tabGet t j d' := by
  unfold tabSet
  split <;> simp [tabGet, h]

/-! ## The canonical form -/

theorem tabPut_keys (t : Tab β) (k : Nat) (v : β) (e : Nat × β) (h : e ∈ tabPut t k v) : e.1 = k ∨ e ∈ t := by
  induction t with
  | nil => simp [tabPut] at h; simp [h]
  | cons e' r ih =>
    obtain ⟨k', v'⟩ := e'
    simp only [tabPut] at h
    split at h
    · simp at h
      rcases h with h | h | h <;> simp [h]
    · split at h
      · simp at h
        rcases h with h | h <;> simp [h]
      · simp at h
        rcases h with h | h
        · simp [h]
        · rcases ih h with h | h <;> simp [h]

/-- Listing a value keeps the keys strictly rising. -/
theorem tabPut_sorted (t : Tab β) (k : Nat) (v : β) (h : tabSorted t = true) : tabSorted (tabPut t k v) = true := by
  simp only [tabSorted, decide_eq_true_eq] at h ⊢
  induction t with
  | nil => simp [tabPut]
  | cons e r ih =>
    obtain ⟨k', v'⟩ := e
    simp only [List.pairwise_cons] at h
    simp only [tabPut]
    split
    · rename_i hk
      simp only [List.pairwise_cons, List.mem_cons]
      refine ⟨?_, h⟩
      rintro b (rfl | hb)
      · exact hk
      · exact Nat.lt_trans hk (h.1 b hb)
    · split
      · subst_vars
        simp only [List.pairwise_cons]
        exact h
      · simp only [List.pairwise_cons]
        refine ⟨fun b hb => ?_, ih h.2⟩
        rcases tabPut_keys r k v b hb with hb | hb
        · simp only [hb]; omega
        · exact h.1 b hb

theorem tabFilter_sorted (t : Tab β) (p : Nat × β → Bool) (h : tabSorted t = true) : tabSorted (t.filter p) = true := by
  simp only [tabSorted, decide_eq_true_eq] at h ⊢
  exact h.filter _

theorem tabDel_sorted (t : Tab β) (k : Nat) (h : tabSorted t = true) : tabSorted (tabDel t k) = true := tabFilter_sorted t _ h

theorem tabSet_sorted [DecidableEq β] (t : Tab β) (k : Nat) (v d : β) (h : tabSorted t = true) :
    tabSorted (tabSet t k v d) = true := by
  unfold tabSet
  split
  · exact tabDel_sorted t k h
  · exact tabPut_sorted t k v h

theorem tabPut_mem (t : Tab β) (k : Nat) (v : β) (e : Nat × β) (h : e ∈ tabPut t k v) : e = (k, v) ∨ e ∈ t := by
  induction t with
  | nil => simpa [tabPut] using h
  | cons e' r ih =>
    obtain ⟨k', v'⟩ := e'
    simp only [tabPut] at h
    split at h
    · simpa using h
    · split at h
      · simp at h
        rcases h with h | h <;> simp [h]
      · simp at h
        rcases h with h | h
        · simp [h]
        · rcases ih h with h | h <;> simp [h]

end Sys2Proof.Machine
end

