-- ==== Sys2Proof/Laws/State.lean ====
section
/-! SUPPORT. The register store: keys, fields, what a write of an object or of a field changes and what it leaves; what the other small
operations over State leave as it is. -/
namespace Sys2Proof.Machine

/-! ## Keys -/

theorem allTypes_ctorIdx (ty : ObjTy) : allTypes[ty.ctorIdx]? = some ty := by cases ty <;> rfl

theorem ctorIdx_lt (ty : ObjTy) : ty.ctorIdx < 256 := by cases ty <;> decide

theorem ctorIdx_inj {a b : ObjTy} (h : a.ctorIdx = b.ctorIdx) : a = b := by
  have ha := allTypes_ctorIdx a
  rw [h, allTypes_ctorIdx b] at ha
  exact (Option.some.inj ha).symm

theorem keyNo_inj {a b : Key} (h : keyNo a = keyNo b) : a = b := by
  obtain ⟨ta, ia⟩ := a
  obtain ⟨tb, ib⟩ := b
  simp only [keyNo] at h
  have h1 := ctorIdx_lt ta
  have h2 := ctorIdx_lt tb
  have hi : ia = ib := by omega
  have ht : ta.ctorIdx = tb.ctorIdx := by omega
  rw [hi, ctorIdx_inj ht]

@[simp] theorem keyNo_eq_iff {a b : Key} : keyNo a = keyNo b ↔ a = b := ⟨keyNo_inj, fun h => by rw [h]⟩

@[simp] theorem obj_eq_iff {a b : ObjTy} {i j : Nat} : obj a i = obj b j ↔ a = b ∧ i = j := by simp [obj]

@[simp] theorem obj_ty (a : ObjTy) (i : Nat) : (obj a i).ty = a := id rfl
@[simp] theorem obj_idx (a : ObjTy) (i : Nat) : (obj a i).idx = i := id rfl

theorem keyOfNo_keyNo (k : Key) : (allTypes[keyNo k % 256]?).map (fun ty => (⟨ty, keyNo k / 256⟩ : Key)) = some k := by
  obtain ⟨ty, i⟩ := k
  have h := ctorIdx_lt ty
  have h1 : keyNo ⟨ty, i⟩ % 256 = ty.ctorIdx := by simp only [keyNo]; omega
  have h2 : keyNo ⟨ty, i⟩ / 256 = i := by simp only [keyNo]; omega
  rw [h1, h2, allTypes_ctorIdx]
  rfl

/-! ## Bit fields -/

/-- Whether two fields share no bit. -/
def Fld.apart (f g : Fld) : Bool := decide (f.lo + f.w ≤ g.lo ∨ g.lo + g.w ≤ f.lo)

theorem bitsAt_put_self (x lo w v : Nat) : bitsAt (putBits x lo w v) lo w = v % 2 ^ w := by
  have h1 : 0 < 2 ^ lo := Nat.two_pow_pos lo
  have h2 : 0 < 2 ^ w := Nat.two_pow_pos w
  unfold bitsAt putBits
  rw [Nat.add_mul_div_left _ _ h1, Nat.div_eq_of_lt (Nat.mod_lt _ h1), Nat.zero_add, Nat.add_mul_mod_self_left, Nat.mod_mod]

theorem testBit_putBits (x lo w v i : Nat) :
    (putBits x lo w v).testBit i = if i < lo then x.testBit i else if i < lo + w then v.testBit (i - lo) else x.testBit i := by
  unfold putBits
  rw [Nat.add_comm, Nat.testBit_two_pow_mul_add _ (Nat.mod_lt _ (Nat.two_pow_pos lo))]
  by_cases h : i < lo
  · simp [h, Nat.testBit_mod_two_pow]
  · simp only [h, if_false]
    rw [Nat.add_comm, Nat.testBit_two_pow_mul_add _ (Nat.mod_lt _ (Nat.two_pow_pos w))]
    by_cases h2 : i < lo + w
    · have h3 : i - lo < w := by omega
      simp [h2, h3, Nat.testBit_mod_two_pow]
    · have h3 : ¬ i - lo < w := by omega
      simp only [h2, h3, if_false, Nat.testBit_div_two_pow]
      congr 1
      omega

theorem testBit_bitsAt (x lo w i : Nat) : (bitsAt x lo w).testBit i = (decide (i < w) && x.testBit (lo + i)) := by
  unfold bitsAt
  rw [Nat.testBit_mod_two_pow, Nat.testBit_div_two_pow, Nat.add_comm]

@[simp] theorem getF_put_self (x : Nat) (f : Fld) (v : Nat) : getF (putF x f v) f = v % 2 ^ f.w := bitsAt_put_self ..

theorem getF_put_apart (x : Nat) {f g : Fld} (v : Nat) (h : f.apart g = true) : getF (putF x f v) g = getF x g := by
  have h := of_decide_eq_true h
  apply Nat.eq_of_testBit_eq
  intro i
  simp only [getF, putF, testBit_bitsAt, testBit_putBits]
  by_cases hi : i < g.w
  · simp only [hi, decide_true, Bool.true_and]
    split
    · rfl
    · rw [if_neg (by omega)]
  · simp [hi]

@[simp] theorem getF_le (x : Nat) (f : Fld) : getF x f < 2 ^ f.w := Nat.mod_lt _ (Nat.two_pow_pos _)

/-! ## Objects -/

@[simp] theorem rdWord_wrWord_self (s : State) (k : Key) (v : Nat) : rdWord (wrWord s k v) k = v := by
  simp [rdWord, wrWord]

@[simp] theorem rdWord_wrWord_ne (s : State) {k j : Key} (v : Nat) (h : j ≠ k) : rdWord (wrWord s k v) j = rdWord s j := by
  simp [rdWord, wrWord, h]

@[simp] theorem rdWord_wr_ne (s : State) {k j : Key} (f : Fld) (v : Nat) (h : j ≠ k) : rdWord (wr s k f v) j = rdWord s j := by
  simp [wr, h]

theorem rdWord_wr_self (s : State) (k : Key) (f : Fld) (v : Nat) : rdWord (wr s k f v) k = putF (rdWord s k) f v := by
  simp [wr]

/-! ## Fields of objects -/

@[simp] theorem rd_wr_self (s : State) (k : Key) (f : Fld) (v : Nat) : rd (wr s k f v) k f = v % 2 ^ f.w := by
  simp [rd, wr]

@[simp] theorem rd_wr_apart (s : State) (k : Key) {f g : Fld} (v : Nat) (h : f.apart g = true) :
    rd (wr s k f v) k g = rd s k g := by
  simp [rd, wr, getF_put_apart _ _ h]

@[simp] theorem rd_wr_ne (s : State) {k j : Key} (f g : Fld) (v : Nat) (h : j ≠ k) : rd (wr s k f v) j g = rd s j g := by
  simp [rd, h]

@[simp] theorem rd_wrWord_ne (s : State) {k j : Key} (v : Nat) (g : Fld) (h : j ≠ k) : rd (wrWord s k v) j g = rd s j g := by
  simp [rd, h]

@[simp] theorem rd_wrWord_self (s : State) (k : Key) (v : Nat) (g : Fld) : rd (wrWord s k v) k g = getF v g := by
  simp [rd]

theorem rd_lt (s : State) (k : Key) (f : Fld) : rd s k f < 2 ^ f.w := getF_le ..

/-- A change of any other part of the state leaves every object as it is. -/
@[simp] theorem rdWord_mk (s : State) (fu : Fuses) (k : Key) (h : fu = s.fuses) {x0 x1 x2 x3 x4 x5 x6 x7 x8 x9 x10 x11 x12 x13 x14 x15 x16 x17 x18 x19 x20 x21 x22} :
    rdWord (State.mk s.regs fu x0 x1 x2 x3 x4 x5 x6 x7 x8 x9 x10 x11 x12 x13 x14 x15 x16 x17 x18 x19 x20 x21 x22) k = rdWord s k := by subst h; rfl

/-- See `rdWord_mk`. -/
@[simp] theorem rd_mk (s : State) (fu : Fuses) (k : Key) (f : Fld) (h : fu = s.fuses) {x0 x1 x2 x3 x4 x5 x6 x7 x8 x9 x10 x11 x12 x13 x14 x15 x16 x17 x18 x19 x20 x21 x22} :
    rd (State.mk s.regs fu x0 x1 x2 x3 x4 x5 x6 x7 x8 x9 x10 x11 x12 x13 x14 x15 x16 x17 x18 x19 x20 x21 x22) k f = rd s k f := by subst h; rfl

/-! ## What the small operations leave as it is -/

@[simp] theorem wrWord_fuses (s : State) (k : Key) (v : Nat) : (wrWord s k v).fuses = s.fuses := id rfl
@[simp] theorem wrWord_clock (s : State) (k : Key) (v : Nat) : (wrWord s k v).clock = s.clock := id rfl
@[simp] theorem wrWord_ct (s : State) (k : Key) (v : Nat) : (wrWord s k v).ct = s.ct := id rfl
@[simp] theorem wrWord_cmd (s : State) (k : Key) (v : Nat) : (wrWord s k v).cmd = s.cmd := id rfl
@[simp] theorem wrWord_bridge (s : State) (k : Key) (v : Nat) : (wrWord s k v).bridge = s.bridge := id rfl
@[simp] theorem wrWord_flt (s : State) (k : Key) (v : Nat) : (wrWord s k v).flt = s.flt := id rfl
@[simp] theorem wrWord_cnt (s : State) (k : Key) (v : Nat) : (wrWord s k v).cnt = s.cnt := id rfl
@[simp] theorem wrWord_eng (s : State) (k : Key) (v : Nat) : (wrWord s k v).eng = s.eng := id rfl
@[simp] theorem wrWord_tbl (s : State) (k : Key) (v : Nat) : (wrWord s k v).tbl = s.tbl := id rfl
@[simp] theorem wrWord_pat (s : State) (k : Key) (v : Nat) : (wrWord s k v).pat = s.pat := id rfl
@[simp] theorem wrWord_line (s : State) (k : Key) (v : Nat) : (wrWord s k v).line = s.line := id rfl
@[simp] theorem wrWord_tfu (s : State) (k : Key) (v : Nat) : (wrWord s k v).tfu = s.tfu := id rfl
@[simp] theorem wrWord_msec (s : State) (k : Key) (v : Nat) : (wrWord s k v).msec = s.msec := id rfl
@[simp] theorem wrWord_buf (s : State) (k : Key) (v : Nat) : (wrWord s k v).buf = s.buf := id rfl
@[simp] theorem wrWord_que (s : State) (k : Key) (v : Nat) : (wrWord s k v).que = s.que := id rfl
@[simp] theorem wrWord_fab (s : State) (k : Key) (v : Nat) : (wrWord s k v).fab = s.fab := id rfl
@[simp] theorem wrWord_hbm (s : State) (k : Key) (v : Nat) : (wrWord s k v).hbm = s.hbm := id rfl
@[simp] theorem wrWord_time (s : State) (k : Key) (v : Nat) : (wrWord s k v).time = s.time := id rfl
@[simp] theorem wrWord_pair (s : State) (k : Key) (v : Nat) : (wrWord s k v).pair = s.pair := id rfl
@[simp] theorem wrWord_upd (s : State) (k : Key) (v : Nat) : (wrWord s k v).upd = s.upd := id rfl
@[simp] theorem wrWord_pwr (s : State) (k : Key) (v : Nat) : (wrWord s k v).pwr = s.pwr := id rfl
@[simp] theorem wrWord_out (s : State) (k : Key) (v : Nat) : (wrWord s k v).out = s.out := id rfl
@[simp] theorem wrWord_free (s : State) (k : Key) (v : Nat) : (wrWord s k v).free = s.free := id rfl
@[simp] theorem wrWord_pending (s : State) (k : Key) (v : Nat) : (wrWord s k v).pending = s.pending := id rfl

@[simp] theorem wr_fuses (s : State) (k : Key) (f : Fld) (v : Nat) : (wr s k f v).fuses = s.fuses := id rfl
@[simp] theorem wr_clock (s : State) (k : Key) (f : Fld) (v : Nat) : (wr s k f v).clock = s.clock := id rfl
@[simp] theorem wr_ct (s : State) (k : Key) (f : Fld) (v : Nat) : (wr s k f v).ct = s.ct := id rfl
@[simp] theorem wr_cmd (s : State) (k : Key) (f : Fld) (v : Nat) : (wr s k f v).cmd = s.cmd := id rfl
@[simp] theorem wr_bridge (s : State) (k : Key) (f : Fld) (v : Nat) : (wr s k f v).bridge = s.bridge := id rfl
@[simp] theorem wr_flt (s : State) (k : Key) (f : Fld) (v : Nat) : (wr s k f v).flt = s.flt := id rfl
@[simp] theorem wr_cnt (s : State) (k : Key) (f : Fld) (v : Nat) : (wr s k f v).cnt = s.cnt := id rfl
@[simp] theorem wr_eng (s : State) (k : Key) (f : Fld) (v : Nat) : (wr s k f v).eng = s.eng := id rfl
@[simp] theorem wr_tbl (s : State) (k : Key) (f : Fld) (v : Nat) : (wr s k f v).tbl = s.tbl := id rfl
@[simp] theorem wr_pat (s : State) (k : Key) (f : Fld) (v : Nat) : (wr s k f v).pat = s.pat := id rfl
@[simp] theorem wr_line (s : State) (k : Key) (f : Fld) (v : Nat) : (wr s k f v).line = s.line := id rfl
@[simp] theorem wr_tfu (s : State) (k : Key) (f : Fld) (v : Nat) : (wr s k f v).tfu = s.tfu := id rfl
@[simp] theorem wr_msec (s : State) (k : Key) (f : Fld) (v : Nat) : (wr s k f v).msec = s.msec := id rfl
@[simp] theorem wr_buf (s : State) (k : Key) (f : Fld) (v : Nat) : (wr s k f v).buf = s.buf := id rfl
@[simp] theorem wr_que (s : State) (k : Key) (f : Fld) (v : Nat) : (wr s k f v).que = s.que := id rfl
@[simp] theorem wr_fab (s : State) (k : Key) (f : Fld) (v : Nat) : (wr s k f v).fab = s.fab := id rfl
@[simp] theorem wr_hbm (s : State) (k : Key) (f : Fld) (v : Nat) : (wr s k f v).hbm = s.hbm := id rfl
@[simp] theorem wr_time (s : State) (k : Key) (f : Fld) (v : Nat) : (wr s k f v).time = s.time := id rfl
@[simp] theorem wr_pair (s : State) (k : Key) (f : Fld) (v : Nat) : (wr s k f v).pair = s.pair := id rfl
@[simp] theorem wr_upd (s : State) (k : Key) (f : Fld) (v : Nat) : (wr s k f v).upd = s.upd := id rfl
@[simp] theorem wr_pwr (s : State) (k : Key) (f : Fld) (v : Nat) : (wr s k f v).pwr = s.pwr := id rfl
@[simp] theorem wr_out (s : State) (k : Key) (f : Fld) (v : Nat) : (wr s k f v).out = s.out := id rfl
@[simp] theorem wr_free (s : State) (k : Key) (f : Fld) (v : Nat) : (wr s k f v).free = s.free := id rfl
@[simp] theorem wr_pending (s : State) (k : Key) (f : Fld) (v : Nat) : (wr s k f v).pending = s.pending := id rfl

@[simp] theorem mapF_fuses (s : State) (k : Key) (f : Fld) (g : Nat → Nat) : (mapF s k f g).fuses = s.fuses := id rfl
@[simp] theorem mapF_clock (s : State) (k : Key) (f : Fld) (g : Nat → Nat) : (mapF s k f g).clock = s.clock := id rfl
@[simp] theorem mapF_ct (s : State) (k : Key) (f : Fld) (g : Nat → Nat) : (mapF s k f g).ct = s.ct := id rfl
@[simp] theorem mapF_cmd (s : State) (k : Key) (f : Fld) (g : Nat → Nat) : (mapF s k f g).cmd = s.cmd := id rfl
@[simp] theorem mapF_bridge (s : State) (k : Key) (f : Fld) (g : Nat → Nat) : (mapF s k f g).bridge = s.bridge := id rfl
@[simp] theorem mapF_flt (s : State) (k : Key) (f : Fld) (g : Nat → Nat) : (mapF s k f g).flt = s.flt := id rfl
@[simp] theorem mapF_cnt (s : State) (k : Key) (f : Fld) (g : Nat → Nat) : (mapF s k f g).cnt = s.cnt := id rfl
@[simp] theorem mapF_eng (s : State) (k : Key) (f : Fld) (g : Nat → Nat) : (mapF s k f g).eng = s.eng := id rfl
@[simp] theorem mapF_tbl (s : State) (k : Key) (f : Fld) (g : Nat → Nat) : (mapF s k f g).tbl = s.tbl := id rfl
@[simp] theorem mapF_pat (s : State) (k : Key) (f : Fld) (g : Nat → Nat) : (mapF s k f g).pat = s.pat := id rfl
@[simp] theorem mapF_line (s : State) (k : Key) (f : Fld) (g : Nat → Nat) : (mapF s k f g).line = s.line := id rfl
@[simp] theorem mapF_tfu (s : State) (k : Key) (f : Fld) (g : Nat → Nat) : (mapF s k f g).tfu = s.tfu := id rfl
@[simp] theorem mapF_msec (s : State) (k : Key) (f : Fld) (g : Nat → Nat) : (mapF s k f g).msec = s.msec := id rfl
@[simp] theorem mapF_buf (s : State) (k : Key) (f : Fld) (g : Nat → Nat) : (mapF s k f g).buf = s.buf := id rfl
@[simp] theorem mapF_que (s : State) (k : Key) (f : Fld) (g : Nat → Nat) : (mapF s k f g).que = s.que := id rfl
@[simp] theorem mapF_fab (s : State) (k : Key) (f : Fld) (g : Nat → Nat) : (mapF s k f g).fab = s.fab := id rfl
@[simp] theorem mapF_hbm (s : State) (k : Key) (f : Fld) (g : Nat → Nat) : (mapF s k f g).hbm = s.hbm := id rfl
@[simp] theorem mapF_time (s : State) (k : Key) (f : Fld) (g : Nat → Nat) : (mapF s k f g).time = s.time := id rfl
@[simp] theorem mapF_pair (s : State) (k : Key) (f : Fld) (g : Nat → Nat) : (mapF s k f g).pair = s.pair := id rfl
@[simp] theorem mapF_upd (s : State) (k : Key) (f : Fld) (g : Nat → Nat) : (mapF s k f g).upd = s.upd := id rfl
@[simp] theorem mapF_pwr (s : State) (k : Key) (f : Fld) (g : Nat → Nat) : (mapF s k f g).pwr = s.pwr := id rfl
@[simp] theorem mapF_out (s : State) (k : Key) (f : Fld) (g : Nat → Nat) : (mapF s k f g).out = s.out := id rfl
@[simp] theorem mapF_free (s : State) (k : Key) (f : Fld) (g : Nat → Nat) : (mapF s k f g).free = s.free := id rfl
@[simp] theorem mapF_pending (s : State) (k : Key) (f : Fld) (g : Nat → Nat) : (mapF s k f g).pending = s.pending := id rfl

@[simp] theorem satF_fuses (s : State) (k : Key) (f : Fld) : (satF s k f).fuses = s.fuses := id rfl
@[simp] theorem satF_clock (s : State) (k : Key) (f : Fld) : (satF s k f).clock = s.clock := id rfl
@[simp] theorem satF_ct (s : State) (k : Key) (f : Fld) : (satF s k f).ct = s.ct := id rfl
@[simp] theorem satF_cmd (s : State) (k : Key) (f : Fld) : (satF s k f).cmd = s.cmd := id rfl
@[simp] theorem satF_bridge (s : State) (k : Key) (f : Fld) : (satF s k f).bridge = s.bridge := id rfl
@[simp] theorem satF_flt (s : State) (k : Key) (f : Fld) : (satF s k f).flt = s.flt := id rfl
@[simp] theorem satF_cnt (s : State) (k : Key) (f : Fld) : (satF s k f).cnt = s.cnt := id rfl
@[simp] theorem satF_eng (s : State) (k : Key) (f : Fld) : (satF s k f).eng = s.eng := id rfl
@[simp] theorem satF_tbl (s : State) (k : Key) (f : Fld) : (satF s k f).tbl = s.tbl := id rfl
@[simp] theorem satF_pat (s : State) (k : Key) (f : Fld) : (satF s k f).pat = s.pat := id rfl
@[simp] theorem satF_line (s : State) (k : Key) (f : Fld) : (satF s k f).line = s.line := id rfl
@[simp] theorem satF_tfu (s : State) (k : Key) (f : Fld) : (satF s k f).tfu = s.tfu := id rfl
@[simp] theorem satF_msec (s : State) (k : Key) (f : Fld) : (satF s k f).msec = s.msec := id rfl
@[simp] theorem satF_buf (s : State) (k : Key) (f : Fld) : (satF s k f).buf = s.buf := id rfl
@[simp] theorem satF_que (s : State) (k : Key) (f : Fld) : (satF s k f).que = s.que := id rfl
@[simp] theorem satF_fab (s : State) (k : Key) (f : Fld) : (satF s k f).fab = s.fab := id rfl
@[simp] theorem satF_hbm (s : State) (k : Key) (f : Fld) : (satF s k f).hbm = s.hbm := id rfl
@[simp] theorem satF_time (s : State) (k : Key) (f : Fld) : (satF s k f).time = s.time := id rfl
@[simp] theorem satF_pair (s : State) (k : Key) (f : Fld) : (satF s k f).pair = s.pair := id rfl
@[simp] theorem satF_upd (s : State) (k : Key) (f : Fld) : (satF s k f).upd = s.upd := id rfl
@[simp] theorem satF_pwr (s : State) (k : Key) (f : Fld) : (satF s k f).pwr = s.pwr := id rfl
@[simp] theorem satF_out (s : State) (k : Key) (f : Fld) : (satF s k f).out = s.out := id rfl
@[simp] theorem satF_free (s : State) (k : Key) (f : Fld) : (satF s k f).free = s.free := id rfl
@[simp] theorem satF_pending (s : State) (k : Key) (f : Fld) : (satF s k f).pending = s.pending := id rfl

@[simp] theorem emit_regs (s : State) (o : Out) : (emit s o).regs = s.regs := id rfl
@[simp] theorem emit_fuses (s : State) (o : Out) : (emit s o).fuses = s.fuses := id rfl
@[simp] theorem emit_clock (s : State) (o : Out) : (emit s o).clock = s.clock := id rfl
@[simp] theorem emit_ct (s : State) (o : Out) : (emit s o).ct = s.ct := id rfl
@[simp] theorem emit_cmd (s : State) (o : Out) : (emit s o).cmd = s.cmd := id rfl
@[simp] theorem emit_bridge (s : State) (o : Out) : (emit s o).bridge = s.bridge := id rfl
@[simp] theorem emit_flt (s : State) (o : Out) : (emit s o).flt = s.flt := id rfl
@[simp] theorem emit_cnt (s : State) (o : Out) : (emit s o).cnt = s.cnt := id rfl
@[simp] theorem emit_eng (s : State) (o : Out) : (emit s o).eng = s.eng := id rfl
@[simp] theorem emit_tbl (s : State) (o : Out) : (emit s o).tbl = s.tbl := id rfl
@[simp] theorem emit_pat (s : State) (o : Out) : (emit s o).pat = s.pat := id rfl
@[simp] theorem emit_line (s : State) (o : Out) : (emit s o).line = s.line := id rfl
@[simp] theorem emit_tfu (s : State) (o : Out) : (emit s o).tfu = s.tfu := id rfl
@[simp] theorem emit_msec (s : State) (o : Out) : (emit s o).msec = s.msec := id rfl
@[simp] theorem emit_buf (s : State) (o : Out) : (emit s o).buf = s.buf := id rfl
@[simp] theorem emit_que (s : State) (o : Out) : (emit s o).que = s.que := id rfl
@[simp] theorem emit_fab (s : State) (o : Out) : (emit s o).fab = s.fab := id rfl
@[simp] theorem emit_hbm (s : State) (o : Out) : (emit s o).hbm = s.hbm := id rfl
@[simp] theorem emit_time (s : State) (o : Out) : (emit s o).time = s.time := id rfl
@[simp] theorem emit_pair (s : State) (o : Out) : (emit s o).pair = s.pair := id rfl
@[simp] theorem emit_upd (s : State) (o : Out) : (emit s o).upd = s.upd := id rfl
@[simp] theorem emit_pwr (s : State) (o : Out) : (emit s o).pwr = s.pwr := id rfl
@[simp] theorem emit_free (s : State) (o : Out) : (emit s o).free = s.free := id rfl
@[simp] theorem emit_pending (s : State) (o : Out) : (emit s o).pending = s.pending := id rfl

@[simp] theorem emit_out (s : State) (o : Out) : (emit s o).out = o :: s.out := id rfl
@[simp] theorem rdWord_emit (s : State) (o : Out) (k : Key) : rdWord (emit s o) k = rdWord s k := id rfl
@[simp] theorem rd_emit (s : State) (o : Out) (k : Key) (f : Fld) : rd (emit s o) k f = rd s k f := id rfl
@[simp] theorem drawEntropy_snd (s : State) : (drawEntropy s).2 = { s with free := s.free + 1 } := id rfl
@[simp] theorem drawChoice_snd (s : State) : (drawChoice s).2 = { s with free := s.free + 1 } := id rfl
@[simp] theorem drawHint_snd (s : State) : (drawHint s).2 = { s with free := s.free + 1 } := id rfl

/-- A property that every operation of a list keeps, all of them together keep. -/
theorem forAll_keeps {α : Type} (l : List α) (f : α → State → State) (p : State → Prop) (h : ∀ a s, p s → p (f a s)) (s : State)
    (hs : p s) : p (forAll l f s) := by
  induction l generalizing s with
  | nil => exact hs
  | cons a r ih => exact ih _ (h a s hs)

/-- What every operation of a list leaves as it is, all of them together leave. -/
theorem forAll_same {α β : Type} (l : List α) (f : α → State → State) (g : State → β) (h : ∀ a s, g (f a s) = g s) (s : State) :
    g (forAll l f s) = g s :=
  forAll_keeps l f (fun t => g t = g s) (fun a t ht => (h a t).trans ht) s rfl

/-- A register store in its canonical form stays so. -/
theorem wrWord_sorted (s : State) (k : Key) (v : Nat) (h : tabSorted s.regs = true) : tabSorted (wrWord s k v).regs = true :=
  tabSet_sorted _ _ _ _ h

end Sys2Proof.Machine
end

