-- ==== Sys2Proof/Laws/Bridge.lean ====
section
/-! SUPPORT. The channels of the die-to-die bridge: reading after writing, what sending adds, and the order in which flits arrive. -/
namespace Sys2Proof.Machine

/-- A channel that was written reads as written. -/
@[simp] theorem getChan_setChan_self (s : State) (ch : Nat) (x : Channel) : getChan (setChan ch x s) ch = x := by
  simp [getChan, setChan]

/-- A write of one channel leaves the other. -/
@[simp] theorem getChan_setChan_ne (s : State) {ch c : Nat} (x : Channel) (h : c ≠ ch) : getChan (setChan ch x s) c = getChan s c := by
  simp [getChan, setChan, h]

/-- A write of a channel touches no object. -/
@[simp] theorem rdWord_setChan (s : State) (ch : Nat) (x : Channel) (k : Key) : rdWord (setChan ch x s) k = rdWord s k := id rfl
/-- See `rdWord_setChan`. -/
@[simp] theorem setChan_regs (s : State) (ch : Nat) (x : Channel) : (setChan ch x s).regs = s.regs := id rfl

/-- A control flit waits behind the control flits of its channel and ahead of every data flit (R21). -/
theorem flitsOf_sendCtl (s : State) (ch : Nat) (f : Flit) :
    flitsOf (sendCtl ch f s) ch = (getChan s ch).retry.toList ++ (getChan s ch).ctl ++ f :: (getChan s ch).data := by
  simp [flitsOf, sendCtl]

/-- A data flit waits behind every flit of its channel. -/
theorem flitsOf_sendData (s : State) (ch : Nat) (f : Flit) : flitsOf (sendData ch f s) ch = flitsOf s ch ++ [f] := by
  simp [flitsOf, sendData]

/-- The next flit of a channel is the first in its order, and taking it leaves the rest in theirs (R20 to R22). -/
theorem nextFlit_order (x y : Channel) (f : Flit) (h : nextFlit x = some (f, y)) :
    x.retry.toList ++ x.ctl ++ x.data = f :: (y.retry.toList ++ y.ctl ++ y.data) := by
  unfold nextFlit at h
  split at h <;> simp_all <;> obtain ⟨rfl, rfl⟩ := h <;> simp_all

/-- Once its next flit is taken, a channel holds none to replay. -/
theorem nextFlit_again (x y : Channel) (f : Flit) (h : nextFlit x = some (f, y)) : y.retry = none := by
  unfold nextFlit at h
  split at h <;> simp_all <;> obtain ⟨rfl, rfl⟩ := h <;> simp_all

end Sys2Proof.Machine
end

