-- ==== Sys2Proof/Laws/Counters.lean ====
section
/-! SUPPORT. What counting, a state event and a telemetry record can change, said once for all of them. -/
namespace Sys2Proof.Machine

/-- The object types that telemetry and the performance counters write beside a counter. -/
def telTypes : List ObjTy := [.perfCnt, .lostCtr, .cntCtr, .sessStatus]

/-- A session but for the records that wait in it and the number of its punts. -/
def Sess.quiet (x : Sess) : Sess := { x with recs := [], recsFrom := 0, evSeq := 0, evLost := 0, piSeq := 0 }

/-- Everything that telemetry can do: registers of `telTypes` (of a session's status its NEXT_SEQ alone), the records that wait in
sessions, the captures of overflow samples, and event frames sent, with the punts that wait before them. -/
structure Told (s t : State) : Prop where
  parts : t = { s with regs := t.regs, cmd := { s.cmd with sess := t.cmd.sess, puntQ := t.cmd.puntQ }, cnt := t.cnt, out := t.out }
  sess  : ∀ n, (getSess t n).quiet = (getSess s n).quiet
  regs  : ∀ k, k.ty ∉ telTypes → rdWord t k = rdWord s k
  stat  : ∀ n f, SessStatus.NEXT_SEQ.apart f = true → rd t (sessKey n) f = rd s (sessKey n) f
  sent  : ∃ l, t.out = l ++ s.out
  ring  : t.cnt = { s.cnt with samples := t.cnt.samples }

theorem Told.refl (s : State) : Told s s := ⟨rfl, fun _ => rfl, fun _ _ => rfl, fun _ _ _ => rfl, ⟨[], rfl⟩, rfl⟩

theorem Told.trans {r s t : State} (h : Told r s) (g : Told s t) : Told r t where
  parts := by
    have hp := h.parts
    have gp := g.parts
    generalize hc : t.cmd.sess = c at gp ⊢
    generalize t.cmd.puntQ = q at gp ⊢
    generalize t.regs = a at gp ⊢
    generalize t.cnt = b at gp ⊢
    generalize t.out = d at gp ⊢
    subst gp
    rw [hp]
  sess n := (g.sess n).trans (h.sess n)
  regs k hk := (g.regs k hk).trans (h.regs k hk)
  stat n f hf := (g.stat n f hf).trans (h.stat n f hf)
  sent := by
    obtain ⟨l, hl⟩ := h.sent
    obtain ⟨m, hm⟩ := g.sent
    exact ⟨m ++ l, by rw [hm, hl, List.append_assoc]⟩
  ring := by
    have hr := h.ring
    rw [g.ring, hr]

theorem Told.mapF_tel (s : State) (ty : ObjTy) (i : Nat) (f : Fld) (g : Nat → Nat) (h : ty ∈ telTypes) (hs : ty ≠ .sessStatus) :
    Told s (mapF s (obj ty i) f g) where
  parts := rfl
  sess _ := rfl
  regs k hk := by
    have hne : k ≠ obj ty i := by rintro rfl; exact hk h
    simp [mapF, hne]
  stat n f' _ := by
    have hne : sessKey n ≠ obj ty i := by
      simp only [sessKey, ne_eq, obj_eq_iff, not_and]
      intro hh; exact absurd hh.symm hs
    simp [mapF, hne]
  sent := ⟨[], rfl⟩
  ring := rfl

@[simp] theorem getSess_setSess_self (s : State) (n : Nat) (x : Sess) : getSess (setSess s n x) n = x := by
  simp [getSess, setSess]
@[simp] theorem getSess_setSess_ne (s : State) {n m : Nat} (x : Sess) (h : m ≠ n) : getSess (setSess s n x) m = getSess s m := by
  simp [getSess, setSess, h]
@[simp] theorem rd_setSess (s : State) (n : Nat) (x : Sess) (k : Key) (f : Fld) : rd (setSess s n x) k f = rd s k f := id rfl
@[simp] theorem rdWord_setSess (s : State) (n : Nat) (x : Sess) (k : Key) : rdWord (setSess s n x) k = rdWord s k := id rfl
@[simp] theorem getSess_wr (s : State) (k : Key) (f : Fld) (v n : Nat) : getSess (wr s k f v) n = getSess s n := id rfl
@[simp] theorem getSess_wrWord (s : State) (k : Key) (v n : Nat) : getSess (wrWord s k v) n = getSess s n := id rfl
@[simp] theorem getSess_mapF (s : State) (k : Key) (f : Fld) (g : Nat → Nat) (n : Nat) : getSess (mapF s k f g) n = getSess s n := id rfl
@[simp] theorem getSess_emit (s : State) (o : Out) (n : Nat) : getSess (emit s o) n = getSess s n := id rfl

theorem Told.setSess (s : State) (n : Nat) (x : Sess) (h : x.quiet = (getSess s n).quiet) : Told s (setSess s n x) where
  parts := rfl
  sess m := by
    by_cases hm : m = n
    · subst hm; rw [getSess_setSess_self]; exact h
    · rw [getSess_setSess_ne _ _ hm]
  regs _ _ := rfl
  stat _ _ _ := rfl
  sent := ⟨[], rfl⟩
  ring := rfl

theorem Told.emit (s : State) (o : Out) : Told s (emit s o) where
  parts := rfl
  sess _ := rfl
  regs _ _ := rfl
  stat _ _ _ := rfl
  sent := ⟨[o], rfl⟩
  ring := rfl

theorem Told.nextSeq (s : State) (n v : Nat) : Told s (wr s (sessKey n) SessStatus.NEXT_SEQ v) where
  parts := rfl
  sess _ := rfl
  regs k hk := by
    have hne : k ≠ sessKey n := by rintro rfl; exact hk (show ObjTy.sessStatus ∈ telTypes by decide)
    simp [hne]
  stat m f hf := by
    by_cases hm : sessKey m = sessKey n
    · rw [hm]; exact rd_wr_apart _ _ _ hf
    · exact rd_wr_ne _ _ _ _ hm
  sent := ⟨[], rfl⟩
  ring := rfl

theorem Told.samples (s : State) (x : Tab (Nat × Nat)) : Told s { s with cnt := { s.cnt with samples := x } } where
  parts := rfl
  sess _ := rfl
  regs _ _ := rfl
  stat _ _ _ := rfl
  sent := ⟨[], rfl⟩
  ring := rfl

theorem Told.puntQ (s : State) (q : List Punt) : Told s { s with cmd := { s.cmd with puntQ := q } } where
  parts := rfl
  sess _ := rfl
  regs _ _ := rfl
  stat _ _ _ := rfl
  sent := ⟨[], rfl⟩
  ring := rfl

theorem sendPunt_told (n : Nat) (x : Punt) (s : State) : Told s (sendPunt n x s) := by
  unfold sendPunt
  dsimp only
  exact (Told.emit s _).trans (Told.setSess _ n _ rfl)

/-- Operations that tell, told one after the other, tell. -/
theorem Told.forAll {α : Type} (l : List α) (f : α → State → State) (h : ∀ a s, Told s (f a s)) (s : State) : Told s (forAll l f s) := by
  unfold Machine.forAll
  induction l generalizing s with
  | nil => exact Told.refl s
  | cons a r ih => exact (h a s).trans (ih _)

theorem puntsBefore_told (p : MgmtPort) (s : State) : Told s (puntsBefore p s) := by
  unfold puntsBefore
  split
  · split
    · exact Told.refl s
    · exact (Told.puntQ s []).trans (Told.forAll _ _ (fun x s => sendPunt_told _ x s) _)
  · exact Told.refl s

theorem sendEvents_told (n : Nat) (s : State) : Told s (sendEvents n s) := by
  unfold sendEvents
  dsimp only
  split
  · exact Told.refl s
  · have h := puntsBefore_told (getSess s n).port s
    refine (h.trans ((Told.emit _ _).trans (Told.setSess _ n _ ?_))).trans (Told.nextSeq _ n _)
    rfl

theorem putRecord_told (n : Nat) (x : Sess) (u : State) (h : x.quiet = (getSess u n).quiet) :
    Told u (if 16 + waitingBytes (getSess (setSess u n x) n) = 8192 then sendEvents n (setSess u n x) else setSess u n x) := by
  split
  · exact (Told.setSess u n x h).trans (sendEvents_told n _)
  · exact Told.setSess u n x h

theorem Told.wrWord_tel (s : State) (ty : ObjTy) (i v : Nat) (h : ty ∈ telTypes) (hs : ty ≠ .sessStatus) :
    Told s (wrWord s (obj ty i) v) where
  parts := rfl
  sess _ := rfl
  regs k hk := by
    have hne : k ≠ obj ty i := by rintro rfl; exact hk h
    simp [hne]
  stat n f' _ := by
    have hne : sessKey n ≠ obj ty i := by
      simp only [sessKey, ne_eq, obj_eq_iff, not_and]
      intro hh; exact absurd hh.symm hs
    simp [hne]
  sent := ⟨[], rfl⟩
  ring := rfl

/-- Counting an event of the telemetry itself tells. -/
theorem countQuiet_told (ty : ObjTy) (i : Nat) (s : State) (h : ty ∈ telTypes) (hs : ty ≠ .sessStatus) :
    Told s (countQuiet (obj ty i) s) := by
  unfold countQuiet
  dsimp only
  refine (Told.wrWord_tel s ty i _ h hs).trans (Told.forAll _ _ (fun p u => ?_) _)
  split
  · exact Told.wrWord_tel u .perfCnt p _ (by decide) (by decide)
  · exact Told.refl u

theorem lostRecord_told (n : Nat) (x : Sess) (u : State) (h : x.quiet = (getSess u n).quiet) :
    Told u (countQuiet (obj .cntCtr 4) (countQuiet (obj .lostCtr n) (setSess u n x))) := by
  have h1 := Told.setSess u n x h
  have h2 := countQuiet_told .lostCtr n (Machine.setSess u n x) (by decide) (by decide)
  exact (h1.trans h2).trans (countQuiet_told .cntCtr 4 _ (by decide) (by decide))

theorem pushRecord_told (n : Nat) (r : TelRec) (s : State) : Told s (pushRecord n r s) := by
  unfold pushRecord
  have h : Told s (if 16 + waitingBytes (getSess s n) + r.bytes > 8192 then sendEvents n s else s) := by
    split
    · exact sendEvents_told n s
    · exact Told.refl s
  revert h
  generalize (if 16 + waitingBytes (getSess s n) + r.bytes > 8192 then sendEvents n s else s) = u
  intro h
  refine h.trans ?_
  by_cases hb : waitingBytes (getSess u n) + r.bytes > 2 ^ 20
  · simp only [hb, if_true]
    exact lostRecord_told n _ u rfl
  · simp only [hb, if_false]
    exact putRecord_told n _ u rfl

/-- A telemetry record only tells. -/
theorem publish_told (bit : Nat) (r : TelRec) (s : State) : Told s (publish bit r s) :=
  Told.forAll _ _ (fun n s => pushRecord_told n r s) s

/-- So does a state event. -/
theorem stateEvent_told (k : Key) (s : State) : Told s (stateEvent k s) := publish_told _ _ s

theorem overflowSample_told (p count : Nat) (ctx : ObjAddr) (s : State) : Told s (overflowSample p count ctx s) := by
  have hc (i : Nat) (u : State) : Told u (countQuiet (obj .cntCtr i) u) := countQuiet_told .cntCtr i u (by decide) (by decide)
  unfold overflowSample
  dsimp only
  split
  · split
    · exact (Told.samples s _).trans (hc 3 _)
    · exact ((Told.samples s _).trans (hc 2 _)).trans (publish_told _ _ _)
  · exact ((Told.samples s _).trans (hc 2 _)).trans (publish_told _ _ _)

theorem perfAdd_told (p n : Nat) (ctx : ObjAddr) (s : State) : Told s (perfAdd p n ctx s) := by
  have hw := Told.wrWord_tel s .perfCnt p ((rdWord s (obj .perfCnt p) + n) % 2 ^ 64) (by decide) (by decide)
  unfold perfAdd
  dsimp only
  split
  · exact hw
  · exact hw.trans (overflowSample_told _ _ _ _)

/-- Counting writes its counter and tells. -/
theorem bumpBy_told (k : Key) (n : Nat) (ctx : ObjAddr) (s : State) :
    Told (wrWord s k ((rdWord s k + n) % 2 ^ 64)) (bumpBy k n ctx s) := by
  unfold bumpBy
  dsimp only
  refine Told.forAll _ _ (fun p u => ?_) _
  split
  · exact perfAdd_told _ _ _ _
  · exact Told.refl u

/-- The object of counter j2 of object j1 of a counter type. -/
def ctr (ty : ObjTy) (j1 : Nat) (j2 : Nat := 0) : Key := obj ty (j1 * (descOf ty).n2 + j2)

/-- See `bumpBy_told`. -/
theorem bump_told (ty : ObjTy) (j1 j2 n : Nat) (s : State) :
    Told (wrWord s (ctr ty j1 j2) ((rdWord s (ctr ty j1 j2) + n) % 2 ^ 64)) (bump ty j1 j2 n s) := bumpBy_told _ _ _ _

/-- The counter has grown. -/
theorem bump_self (ty : ObjTy) (j1 j2 n : Nat) (s : State) (h : ty ∉ telTypes) :
    rdWord (bump ty j1 j2 n s) (ctr ty j1 j2) = (rdWord s (ctr ty j1 j2) + n) % 2 ^ 64 := by
  rw [(bump_told ty j1 j2 n s).regs _ h, rdWord_wrWord_self]

/-- Every other object but those that tell is as it was. -/
theorem bump_other (ty : ObjTy) (j1 j2 n : Nat) (s : State) (k : Key) (hk : k ≠ ctr ty j1 j2) (h : k.ty ∉ telTypes) :
    rdWord (bump ty j1 j2 n s) k = rdWord s k := by
  rw [(bump_told ty j1 j2 n s).regs _ h, rdWord_wrWord_ne _ _ hk]

theorem bump_rd (ty : ObjTy) (j1 j2 n : Nat) (s : State) (k : Key) (f : Fld) (ht : k.ty ≠ ty) (h : k.ty ∉ telTypes) :
    rd (bump ty j1 j2 n s) k f = rd s k f := by
  have hk : k ≠ ctr ty j1 j2 := by rintro rfl; exact ht rfl
  simp only [rd, bump_other ty j1 j2 n s k hk h]

end Sys2Proof.Machine
end

