-- ==== Sys2Proof/Laws/Raise.lean ====
section
/-! SUPPORT. What sending a fault message, a change of a link's state and a change of time's source leave as it is: everything in `State.rest`. -/
set_option linter.all false
namespace Sys2Proof.Machine

/-- The parts of the state that a fault message never changes, whatever reaction it takes. -/
def State.rest (s : State) := (s.fuses, s.clock, s.ct, s.bridge, s.eng, s.tbl, s.pat, s.line, s.msec, s.buf, s.hbm, s.free, s.pending)

@[simp] theorem rest_mk (s : State) {x_regs x_cmd x_flt x_cnt x_tfu x_que x_fab x_time x_pair x_upd x_pwr x_out} :
    (State.mk x_regs s.fuses s.clock s.ct x_cmd s.bridge x_flt x_cnt s.eng s.tbl s.pat s.line x_tfu s.msec s.buf x_que x_fab s.hbm x_time x_pair x_upd x_pwr x_out s.free s.pending).rest = s.rest := id rfl

theorem Told.rest {s t : State} (h : Told s t) : t.rest = s.rest := by rw [h.parts]; rfl

@[simp] theorem ite_rest (c : Prop) [Decidable c] (a b : State) : (if c then a else b).rest = if c then a.rest else b.rest :=
  apply_ite State.rest c a b
@[simp] theorem forAll_rest {α : Type} (l : List α) (f : α → State → State) (s : State) (h : ∀ a s, (f a s).rest = s.rest) :
    (forAll l f s).rest = s.rest := forAll_same l f State.rest h s
@[simp] theorem wrWord_rest (s : State) (k : Key) (v : Nat) : (wrWord s k v).rest = s.rest := id rfl
@[simp] theorem wr_rest (s : State) (k : Key) (f : Fld) (v : Nat) : (wr s k f v).rest = s.rest := id rfl
@[simp] theorem mapF_rest (s : State) (k : Key) (f : Fld) (g : Nat → Nat) : (mapF s k f g).rest = s.rest := id rfl
@[simp] theorem satF_rest (s : State) (k : Key) (f : Fld) : (satF s k f).rest = s.rest := id rfl
@[simp] theorem emit_rest (s : State) (o : Out) : (emit s o).rest = s.rest := id rfl
@[simp] theorem setSess_rest (s : State) (n : Nat) (x : Sess) : (setSess s n x).rest = s.rest := id rfl
@[simp] theorem publish_rest (b : Nat) (r : TelRec) (s : State) : (publish b r s).rest = s.rest := (publish_told b r s).rest
@[simp] theorem stateEvent_rest (k : Key) (s : State) : (stateEvent k s).rest = s.rest := (stateEvent_told k s).rest
@[simp] theorem bump_rest (ty : ObjTy) (a b n : Nat) (s : State) : (bump ty a b n s).rest = s.rest := by
  rw [(bump_told ty a b n s).rest, wrWord_rest]
@[simp] theorem bumpBy_rest (k : Key) (n : Nat) (c : ObjAddr) (s : State) : (bumpBy k n c s).rest = s.rest := by
  rw [(bumpBy_told k n c s).rest, wrWord_rest]

@[simp] theorem setFl_rest (s : State) (k : Nat) (x : Fl) : (setFl s k x).rest = s.rest := by
  unfold setFl
  simp
@[simp] theorem floodRecord_rest (r : LinkRecord) (but : Option Nat) (s : State) : (floodRecord r but s).rest = s.rest := by
  unfold floodRecord
  simp
@[simp] theorem holdRecord_rest (s : State) (r : LinkRecord) : (holdRecord s r).rest = s.rest := by
  unfold holdRecord
  simp
@[simp] theorem genRecord_rest (s : State) : (genRecord s).rest = s.rest := by
  unfold genRecord
  simp
@[simp] theorem maskOut_rest (k : Nat) (s : State) : (maskOut k s).rest = s.rest := by
  unfold maskOut
  simp
@[simp] theorem returnCredits_rest (k : Nat) (s : State) : (returnCredits k s).rest = s.rest := by
  unfold returnCredits
  simp
@[simp] theorem freeSlot_rest (k vc : Nat) (s : State) : (freeSlot k vc s).rest = s.rest := by
  unfold freeSlot
  simp
@[simp] theorem leaveSlot_rest (slot : Option (Nat × Nat × Nat)) (s : State) : (leaveSlot slot s).rest = s.rest := by
  unfold leaveSlot
  repeat' first | (with_reducible rfl) | (simp [*]; done) | split
@[simp] theorem queueCell_rest (k : Nat) (c : FabCell) (s : State) : (queueCell k c s).rest = s.rest := by
  unfold queueCell
  simp
@[simp] theorem routeCell_rest (c : FabCell) (s : State) : (routeCell c s).rest = s.rest := by
  unfold routeCell
  repeat' first | (with_reducible rfl) | (simp [*]; done) | split
@[simp] theorem chooseAgain_rest (k : Nat) (c : FabCell) (s : State) : (chooseAgain k c s).rest = s.rest := by
  unfold chooseAgain
  dsimp only
  repeat' first | (with_reducible rfl) | (simp [*]; done) | split
@[simp] theorem enterLink_rest (k st cause : Nat) (s : State) : (enterLink k st cause s).rest = s.rest := by
  unfold enterLink
  simp
@[simp] theorem queueMessage_rest (m : FaultMsg) (s : State) : (queueMessage m s).rest = s.rest := by
  unfold queueMessage
  simp
@[simp] theorem noteCore_rest (blk : Nat) (s : State) : (noteCore blk s).rest = s.rest := by
  unfold noteCore
  simp
@[simp] theorem report_rest (r : Report) (s : State) : (report r s).1.rest = s.rest := by
  unfold report
  dsimp only
  repeat' first | (with_reducible rfl) | (simp [*]; done) | split
@[simp] theorem yokeSend_rest (y : Nat) (load : YokeLoad) (s : State) : (yokeSend y load s).rest = s.rest := by
  unfold yokeSend
  simp
@[simp] theorem setRole_rest (role : Nat) (s : State) : (setRole role s).rest = s.rest := by
  unfold setRole
  simp
@[simp] theorem atMost_rest (blk inst kind sub d : Nat) (f : State → State) (s : State) (hf : ∀ b0, (f b0).rest = b0.rest) : (atMost blk inst kind sub d f s).rest = s.rest := by
  unfold atMost
  dsimp only
  repeat' first | (with_reducible rfl) | (simp [*]; done) | split
@[simp] theorem countSent_rest (p len : Nat) (s : State) : (countSent p len s).rest = s.rest := by
  unfold countSent
  simp
@[simp] theorem emitLine_rest (p n : Nat) (o : Nat → Out) (s : State) : (emitLine p n o s).rest = s.rest := by
  unfold emitLine
  simp
@[simp] theorem setTx_rest (p : Nat) (l : List TxFrame) (s : State) : (setTx p l s).rest = s.rest := by
  unfold setTx
  simp
@[simp] theorem originate_rest (p : Nat) (kind : Pdu) (args : List Nat) (len : Nat) (s : State) : (originate p kind args len s).rest = s.rest := by
  unfold originate
  simp
@[simp] theorem setLt_rest (k : Nat) (x : LinkTime) (s : State) : (setLt k x s).rest = s.rest := by
  unfold setLt
  simp
@[simp] theorem toAcquire_rest (s : State) : (toAcquire s).rest = s.rest := by
  unfold toAcquire
  simp
@[simp] theorem toFree_rest (s : State) : (toFree s).rest = s.rest := by
  unfold toFree
  simp
@[simp] theorem toHold_rest (forced : Bool) (s : State) : (toHold forced s).rest = s.rest := by
  unfold toHold
  simp
@[simp] theorem moveServo_rest (has : Bool) (s : State) : (moveServo has s).1.rest = s.rest := by
  unfold moveServo
  dsimp only
  repeat' first | (with_reducible rfl) | (simp [*]; done) | split
@[simp] theorem updateSource_rest (s : State) : (updateSource s).1.rest = s.rest := by
  unfold updateSource
  simp
@[simp] theorem updateRoot_rest (s : State) : (updateRoot s).rest = s.rest := by
  unfold updateRoot
  dsimp only
  repeat' first | (with_reducible rfl) | (simp [*]; done) | split
@[simp] theorem updateQuality_rest (s : State) : (updateQuality s).rest = s.rest := by
  unfold updateQuality
  repeat' first | (with_reducible rfl) | (simp [*]; done) | split
@[simp] theorem sendEsmc_rest (event : Bool) (p : Nat) (s : State) : (sendEsmc event p s).rest = s.rest := by
  unfold sendEsmc
  simp
@[simp] theorem updateRef_rest (s : State) : (updateRef s).rest = s.rest := by
  unfold updateRef
  simp
@[simp] theorem updateTime_rest (s : State) : (updateTime s).1.rest = s.rest := by
  unfold updateTime
  simp
@[simp] theorem enterSafe_rest (s : State) : (enterSafe s).rest = s.rest := by
  unfold enterSafe
  simp
@[simp] theorem raiseA_rest (r : Report) (s : State) : (raiseA r s).1.rest = s.rest := by
  unfold raiseA
  dsimp only
  repeat' first | (with_reducible rfl) | (simp [*]; done) | split
@[simp] theorem timeChanged_rest (s : State) : (timeChanged s).rest = s.rest := by
  unfold timeChanged
  simp
@[simp] theorem raise_rest (r : Report) (s : State) : (raise r s).rest = s.rest := by
  unfold raise
  simp
@[simp] theorem raiseAt_rest (blk inst kind : Nat) (k : Key) (s : State) : (raiseAt blk inst kind k s).rest = s.rest := by
  unfold raiseAt
  simp
@[simp] theorem raiseEach_rest (blk inst kind sub : Nat) (k : Key) (s : State) : (raiseEach blk inst kind sub k s).rest = s.rest := by
  unfold raiseEach
  simp
@[simp] theorem moveLink_rest (k st cause : Nat) (s : State) : (moveLink k st cause s).rest = s.rest := by
  unfold moveLink
  simp

/-! ## The parts, one by one -/

theorem rest_inj {s t : State} (h : t.rest = s.rest) : t.fuses = s.fuses ∧ t.clock = s.clock ∧ t.ct = s.ct ∧ t.bridge = s.bridge ∧ t.eng = s.eng ∧ t.tbl = s.tbl ∧ t.pat = s.pat ∧ t.line = s.line ∧ t.msec = s.msec ∧ t.buf = s.buf ∧ t.hbm = s.hbm ∧ t.free = s.free ∧ t.pending = s.pending := by
  simpa [State.rest] using h

@[simp] theorem stateEvent_fuses (k : Key) (s : State) : (stateEvent k s).fuses = s.fuses := by rw [(stateEvent_told k s).parts]
@[simp] theorem stateEvent_clock (k : Key) (s : State) : (stateEvent k s).clock = s.clock := by rw [(stateEvent_told k s).parts]
@[simp] theorem stateEvent_ct (k : Key) (s : State) : (stateEvent k s).ct = s.ct := by rw [(stateEvent_told k s).parts]
@[simp] theorem stateEvent_bridge (k : Key) (s : State) : (stateEvent k s).bridge = s.bridge := by rw [(stateEvent_told k s).parts]
@[simp] theorem stateEvent_flt (k : Key) (s : State) : (stateEvent k s).flt = s.flt := by rw [(stateEvent_told k s).parts]
@[simp] theorem stateEvent_eng (k : Key) (s : State) : (stateEvent k s).eng = s.eng := by rw [(stateEvent_told k s).parts]
@[simp] theorem stateEvent_tbl (k : Key) (s : State) : (stateEvent k s).tbl = s.tbl := by rw [(stateEvent_told k s).parts]
@[simp] theorem stateEvent_pat (k : Key) (s : State) : (stateEvent k s).pat = s.pat := by rw [(stateEvent_told k s).parts]
@[simp] theorem stateEvent_line (k : Key) (s : State) : (stateEvent k s).line = s.line := by rw [(stateEvent_told k s).parts]
@[simp] theorem stateEvent_tfu (k : Key) (s : State) : (stateEvent k s).tfu = s.tfu := by rw [(stateEvent_told k s).parts]
@[simp] theorem stateEvent_msec (k : Key) (s : State) : (stateEvent k s).msec = s.msec := by rw [(stateEvent_told k s).parts]
@[simp] theorem stateEvent_buf (k : Key) (s : State) : (stateEvent k s).buf = s.buf := by rw [(stateEvent_told k s).parts]
@[simp] theorem stateEvent_que (k : Key) (s : State) : (stateEvent k s).que = s.que := by rw [(stateEvent_told k s).parts]
@[simp] theorem stateEvent_fab (k : Key) (s : State) : (stateEvent k s).fab = s.fab := by rw [(stateEvent_told k s).parts]
@[simp] theorem stateEvent_hbm (k : Key) (s : State) : (stateEvent k s).hbm = s.hbm := by rw [(stateEvent_told k s).parts]
@[simp] theorem stateEvent_time (k : Key) (s : State) : (stateEvent k s).time = s.time := by rw [(stateEvent_told k s).parts]
@[simp] theorem stateEvent_pair (k : Key) (s : State) : (stateEvent k s).pair = s.pair := by rw [(stateEvent_told k s).parts]
@[simp] theorem stateEvent_upd (k : Key) (s : State) : (stateEvent k s).upd = s.upd := by rw [(stateEvent_told k s).parts]
@[simp] theorem stateEvent_pwr (k : Key) (s : State) : (stateEvent k s).pwr = s.pwr := by rw [(stateEvent_told k s).parts]
@[simp] theorem stateEvent_free (k : Key) (s : State) : (stateEvent k s).free = s.free := by rw [(stateEvent_told k s).parts]
@[simp] theorem stateEvent_pending (k : Key) (s : State) : (stateEvent k s).pending = s.pending := by rw [(stateEvent_told k s).parts]
@[simp] theorem publish_fuses (b : Nat) (r : TelRec) (s : State) : (publish b r s).fuses = s.fuses := by rw [(publish_told b r s).parts]
@[simp] theorem publish_clock (b : Nat) (r : TelRec) (s : State) : (publish b r s).clock = s.clock := by rw [(publish_told b r s).parts]
@[simp] theorem publish_ct (b : Nat) (r : TelRec) (s : State) : (publish b r s).ct = s.ct := by rw [(publish_told b r s).parts]
@[simp] theorem publish_bridge (b : Nat) (r : TelRec) (s : State) : (publish b r s).bridge = s.bridge := by rw [(publish_told b r s).parts]
@[simp] theorem publish_flt (b : Nat) (r : TelRec) (s : State) : (publish b r s).flt = s.flt := by rw [(publish_told b r s).parts]
@[simp] theorem publish_eng (b : Nat) (r : TelRec) (s : State) : (publish b r s).eng = s.eng := by rw [(publish_told b r s).parts]
@[simp] theorem publish_tbl (b : Nat) (r : TelRec) (s : State) : (publish b r s).tbl = s.tbl := by rw [(publish_told b r s).parts]
@[simp] theorem publish_pat (b : Nat) (r : TelRec) (s : State) : (publish b r s).pat = s.pat := by rw [(publish_told b r s).parts]
@[simp] theorem publish_line (b : Nat) (r : TelRec) (s : State) : (publish b r s).line = s.line := by rw [(publish_told b r s).parts]
@[simp] theorem publish_tfu (b : Nat) (r : TelRec) (s : State) : (publish b r s).tfu = s.tfu := by rw [(publish_told b r s).parts]
@[simp] theorem publish_msec (b : Nat) (r : TelRec) (s : State) : (publish b r s).msec = s.msec := by rw [(publish_told b r s).parts]
@[simp] theorem publish_buf (b : Nat) (r : TelRec) (s : State) : (publish b r s).buf = s.buf := by rw [(publish_told b r s).parts]
@[simp] theorem publish_que (b : Nat) (r : TelRec) (s : State) : (publish b r s).que = s.que := by rw [(publish_told b r s).parts]
@[simp] theorem publish_fab (b : Nat) (r : TelRec) (s : State) : (publish b r s).fab = s.fab := by rw [(publish_told b r s).parts]
@[simp] theorem publish_hbm (b : Nat) (r : TelRec) (s : State) : (publish b r s).hbm = s.hbm := by rw [(publish_told b r s).parts]
@[simp] theorem publish_time (b : Nat) (r : TelRec) (s : State) : (publish b r s).time = s.time := by rw [(publish_told b r s).parts]
@[simp] theorem publish_pair (b : Nat) (r : TelRec) (s : State) : (publish b r s).pair = s.pair := by rw [(publish_told b r s).parts]
@[simp] theorem publish_upd (b : Nat) (r : TelRec) (s : State) : (publish b r s).upd = s.upd := by rw [(publish_told b r s).parts]
@[simp] theorem publish_pwr (b : Nat) (r : TelRec) (s : State) : (publish b r s).pwr = s.pwr := by rw [(publish_told b r s).parts]
@[simp] theorem publish_free (b : Nat) (r : TelRec) (s : State) : (publish b r s).free = s.free := by rw [(publish_told b r s).parts]
@[simp] theorem publish_pending (b : Nat) (r : TelRec) (s : State) : (publish b r s).pending = s.pending := by rw [(publish_told b r s).parts]
@[simp] theorem bump_fuses (ty : ObjTy) (a b n : Nat) (s : State) : (bump ty a b n s).fuses = s.fuses := by rw [(bump_told ty a b n s).parts]; exact id rfl
@[simp] theorem bump_clock (ty : ObjTy) (a b n : Nat) (s : State) : (bump ty a b n s).clock = s.clock := by rw [(bump_told ty a b n s).parts]; exact id rfl
@[simp] theorem bump_ct (ty : ObjTy) (a b n : Nat) (s : State) : (bump ty a b n s).ct = s.ct := by rw [(bump_told ty a b n s).parts]; exact id rfl
@[simp] theorem bump_bridge (ty : ObjTy) (a b n : Nat) (s : State) : (bump ty a b n s).bridge = s.bridge := by rw [(bump_told ty a b n s).parts]; exact id rfl
@[simp] theorem bump_flt (ty : ObjTy) (a b n : Nat) (s : State) : (bump ty a b n s).flt = s.flt := by rw [(bump_told ty a b n s).parts]; exact id rfl
@[simp] theorem bump_eng (ty : ObjTy) (a b n : Nat) (s : State) : (bump ty a b n s).eng = s.eng := by rw [(bump_told ty a b n s).parts]; exact id rfl
@[simp] theorem bump_tbl (ty : ObjTy) (a b n : Nat) (s : State) : (bump ty a b n s).tbl = s.tbl := by rw [(bump_told ty a b n s).parts]; exact id rfl
@[simp] theorem bump_pat (ty : ObjTy) (a b n : Nat) (s : State) : (bump ty a b n s).pat = s.pat := by rw [(bump_told ty a b n s).parts]; exact id rfl
@[simp] theorem bump_line (ty : ObjTy) (a b n : Nat) (s : State) : (bump ty a b n s).line = s.line := by rw [(bump_told ty a b n s).parts]; exact id rfl
@[simp] theorem bump_tfu (ty : ObjTy) (a b n : Nat) (s : State) : (bump ty a b n s).tfu = s.tfu := by rw [(bump_told ty a b n s).parts]; exact id rfl
@[simp] theorem bump_msec (ty : ObjTy) (a b n : Nat) (s : State) : (bump ty a b n s).msec = s.msec := by rw [(bump_told ty a b n s).parts]; exact id rfl
@[simp] theorem bump_buf (ty : ObjTy) (a b n : Nat) (s : State) : (bump ty a b n s).buf = s.buf := by rw [(bump_told ty a b n s).parts]; exact id rfl
@[simp] theorem bump_que (ty : ObjTy) (a b n : Nat) (s : State) : (bump ty a b n s).que = s.que := by rw [(bump_told ty a b n s).parts]; exact id rfl
@[simp] theorem bump_fab (ty : ObjTy) (a b n : Nat) (s : State) : (bump ty a b n s).fab = s.fab := by rw [(bump_told ty a b n s).parts]; exact id rfl
@[simp] theorem bump_hbm (ty : ObjTy) (a b n : Nat) (s : State) : (bump ty a b n s).hbm = s.hbm := by rw [(bump_told ty a b n s).parts]; exact id rfl
@[simp] theorem bump_time (ty : ObjTy) (a b n : Nat) (s : State) : (bump ty a b n s).time = s.time := by rw [(bump_told ty a b n s).parts]; exact id rfl
@[simp] theorem bump_pair (ty : ObjTy) (a b n : Nat) (s : State) : (bump ty a b n s).pair = s.pair := by rw [(bump_told ty a b n s).parts]; exact id rfl
@[simp] theorem bump_upd (ty : ObjTy) (a b n : Nat) (s : State) : (bump ty a b n s).upd = s.upd := by rw [(bump_told ty a b n s).parts]; exact id rfl
@[simp] theorem bump_pwr (ty : ObjTy) (a b n : Nat) (s : State) : (bump ty a b n s).pwr = s.pwr := by rw [(bump_told ty a b n s).parts]; exact id rfl
@[simp] theorem bump_free (ty : ObjTy) (a b n : Nat) (s : State) : (bump ty a b n s).free = s.free := by rw [(bump_told ty a b n s).parts]; exact id rfl
@[simp] theorem bump_pending (ty : ObjTy) (a b n : Nat) (s : State) : (bump ty a b n s).pending = s.pending := by rw [(bump_told ty a b n s).parts]; exact id rfl
@[simp] theorem raise_fuses (r : Report) (s : State) : (raise r s).fuses = s.fuses := (rest_inj (raise_rest r s)).1
@[simp] theorem raise_clock (r : Report) (s : State) : (raise r s).clock = s.clock := (rest_inj (raise_rest r s)).2.1
@[simp] theorem raise_ct (r : Report) (s : State) : (raise r s).ct = s.ct := (rest_inj (raise_rest r s)).2.2.1
@[simp] theorem raise_bridge (r : Report) (s : State) : (raise r s).bridge = s.bridge := (rest_inj (raise_rest r s)).2.2.2.1
@[simp] theorem raise_eng (r : Report) (s : State) : (raise r s).eng = s.eng := (rest_inj (raise_rest r s)).2.2.2.2.1
@[simp] theorem raise_tbl (r : Report) (s : State) : (raise r s).tbl = s.tbl := (rest_inj (raise_rest r s)).2.2.2.2.2.1
@[simp] theorem raise_pat (r : Report) (s : State) : (raise r s).pat = s.pat := (rest_inj (raise_rest r s)).2.2.2.2.2.2.1
@[simp] theorem raise_line (r : Report) (s : State) : (raise r s).line = s.line := (rest_inj (raise_rest r s)).2.2.2.2.2.2.2.1
@[simp] theorem raise_msec (r : Report) (s : State) : (raise r s).msec = s.msec := (rest_inj (raise_rest r s)).2.2.2.2.2.2.2.2.1
@[simp] theorem raise_buf (r : Report) (s : State) : (raise r s).buf = s.buf := (rest_inj (raise_rest r s)).2.2.2.2.2.2.2.2.2.1
@[simp] theorem raise_hbm (r : Report) (s : State) : (raise r s).hbm = s.hbm := (rest_inj (raise_rest r s)).2.2.2.2.2.2.2.2.2.2.1
@[simp] theorem raise_free (r : Report) (s : State) : (raise r s).free = s.free := (rest_inj (raise_rest r s)).2.2.2.2.2.2.2.2.2.2.2.1
@[simp] theorem raise_pending (r : Report) (s : State) : (raise r s).pending = s.pending := (rest_inj (raise_rest r s)).2.2.2.2.2.2.2.2.2.2.2.2
@[simp] theorem raiseAt_fuses (blk inst kind : Nat) (k : Key) (s : State) : (raiseAt blk inst kind k s).fuses = s.fuses := (rest_inj (raiseAt_rest blk inst kind k s)).1
@[simp] theorem raiseAt_clock (blk inst kind : Nat) (k : Key) (s : State) : (raiseAt blk inst kind k s).clock = s.clock := (rest_inj (raiseAt_rest blk inst kind k s)).2.1
@[simp] theorem raiseAt_ct (blk inst kind : Nat) (k : Key) (s : State) : (raiseAt blk inst kind k s).ct = s.ct := (rest_inj (raiseAt_rest blk inst kind k s)).2.2.1
@[simp] theorem raiseAt_bridge (blk inst kind : Nat) (k : Key) (s : State) : (raiseAt blk inst kind k s).bridge = s.bridge := (rest_inj (raiseAt_rest blk inst kind k s)).2.2.2.1
@[simp] theorem raiseAt_eng (blk inst kind : Nat) (k : Key) (s : State) : (raiseAt blk inst kind k s).eng = s.eng := (rest_inj (raiseAt_rest blk inst kind k s)).2.2.2.2.1
@[simp] theorem raiseAt_tbl (blk inst kind : Nat) (k : Key) (s : State) : (raiseAt blk inst kind k s).tbl = s.tbl := (rest_inj (raiseAt_rest blk inst kind k s)).2.2.2.2.2.1
@[simp] theorem raiseAt_pat (blk inst kind : Nat) (k : Key) (s : State) : (raiseAt blk inst kind k s).pat = s.pat := (rest_inj (raiseAt_rest blk inst kind k s)).2.2.2.2.2.2.1
@[simp] theorem raiseAt_line (blk inst kind : Nat) (k : Key) (s : State) : (raiseAt blk inst kind k s).line = s.line := (rest_inj (raiseAt_rest blk inst kind k s)).2.2.2.2.2.2.2.1
@[simp] theorem raiseAt_msec (blk inst kind : Nat) (k : Key) (s : State) : (raiseAt blk inst kind k s).msec = s.msec := (rest_inj (raiseAt_rest blk inst kind k s)).2.2.2.2.2.2.2.2.1
@[simp] theorem raiseAt_buf (blk inst kind : Nat) (k : Key) (s : State) : (raiseAt blk inst kind k s).buf = s.buf := (rest_inj (raiseAt_rest blk inst kind k s)).2.2.2.2.2.2.2.2.2.1
@[simp] theorem raiseAt_hbm (blk inst kind : Nat) (k : Key) (s : State) : (raiseAt blk inst kind k s).hbm = s.hbm := (rest_inj (raiseAt_rest blk inst kind k s)).2.2.2.2.2.2.2.2.2.2.1
@[simp] theorem raiseAt_free (blk inst kind : Nat) (k : Key) (s : State) : (raiseAt blk inst kind k s).free = s.free := (rest_inj (raiseAt_rest blk inst kind k s)).2.2.2.2.2.2.2.2.2.2.2.1
@[simp] theorem raiseAt_pending (blk inst kind : Nat) (k : Key) (s : State) : (raiseAt blk inst kind k s).pending = s.pending := (rest_inj (raiseAt_rest blk inst kind k s)).2.2.2.2.2.2.2.2.2.2.2.2
@[simp] theorem raiseEach_fuses (blk inst kind sub : Nat) (k : Key) (s : State) : (raiseEach blk inst kind sub k s).fuses = s.fuses := (rest_inj (raiseEach_rest blk inst kind sub k s)).1
@[simp] theorem raiseEach_clock (blk inst kind sub : Nat) (k : Key) (s : State) : (raiseEach blk inst kind sub k s).clock = s.clock := (rest_inj (raiseEach_rest blk inst kind sub k s)).2.1
@[simp] theorem raiseEach_ct (blk inst kind sub : Nat) (k : Key) (s : State) : (raiseEach blk inst kind sub k s).ct = s.ct := (rest_inj (raiseEach_rest blk inst kind sub k s)).2.2.1
@[simp] theorem raiseEach_bridge (blk inst kind sub : Nat) (k : Key) (s : State) : (raiseEach blk inst kind sub k s).bridge = s.bridge := (rest_inj (raiseEach_rest blk inst kind sub k s)).2.2.2.1
@[simp] theorem raiseEach_eng (blk inst kind sub : Nat) (k : Key) (s : State) : (raiseEach blk inst kind sub k s).eng = s.eng := (rest_inj (raiseEach_rest blk inst kind sub k s)).2.2.2.2.1
@[simp] theorem raiseEach_tbl (blk inst kind sub : Nat) (k : Key) (s : State) : (raiseEach blk inst kind sub k s).tbl = s.tbl := (rest_inj (raiseEach_rest blk inst kind sub k s)).2.2.2.2.2.1
@[simp] theorem raiseEach_pat (blk inst kind sub : Nat) (k : Key) (s : State) : (raiseEach blk inst kind sub k s).pat = s.pat := (rest_inj (raiseEach_rest blk inst kind sub k s)).2.2.2.2.2.2.1
@[simp] theorem raiseEach_line (blk inst kind sub : Nat) (k : Key) (s : State) : (raiseEach blk inst kind sub k s).line = s.line := (rest_inj (raiseEach_rest blk inst kind sub k s)).2.2.2.2.2.2.2.1
@[simp] theorem raiseEach_msec (blk inst kind sub : Nat) (k : Key) (s : State) : (raiseEach blk inst kind sub k s).msec = s.msec := (rest_inj (raiseEach_rest blk inst kind sub k s)).2.2.2.2.2.2.2.2.1
@[simp] theorem raiseEach_buf (blk inst kind sub : Nat) (k : Key) (s : State) : (raiseEach blk inst kind sub k s).buf = s.buf := (rest_inj (raiseEach_rest blk inst kind sub k s)).2.2.2.2.2.2.2.2.2.1
@[simp] theorem raiseEach_hbm (blk inst kind sub : Nat) (k : Key) (s : State) : (raiseEach blk inst kind sub k s).hbm = s.hbm := (rest_inj (raiseEach_rest blk inst kind sub k s)).2.2.2.2.2.2.2.2.2.2.1
@[simp] theorem raiseEach_free (blk inst kind sub : Nat) (k : Key) (s : State) : (raiseEach blk inst kind sub k s).free = s.free := (rest_inj (raiseEach_rest blk inst kind sub k s)).2.2.2.2.2.2.2.2.2.2.2.1
@[simp] theorem raiseEach_pending (blk inst kind sub : Nat) (k : Key) (s : State) : (raiseEach blk inst kind sub k s).pending = s.pending := (rest_inj (raiseEach_rest blk inst kind sub k s)).2.2.2.2.2.2.2.2.2.2.2.2
@[simp] theorem timeChanged_fuses (s : State) : (timeChanged s).fuses = s.fuses := (rest_inj (timeChanged_rest s)).1
@[simp] theorem timeChanged_clock (s : State) : (timeChanged s).clock = s.clock := (rest_inj (timeChanged_rest s)).2.1
@[simp] theorem timeChanged_ct (s : State) : (timeChanged s).ct = s.ct := (rest_inj (timeChanged_rest s)).2.2.1
@[simp] theorem timeChanged_bridge (s : State) : (timeChanged s).bridge = s.bridge := (rest_inj (timeChanged_rest s)).2.2.2.1
@[simp] theorem timeChanged_eng (s : State) : (timeChanged s).eng = s.eng := (rest_inj (timeChanged_rest s)).2.2.2.2.1
@[simp] theorem timeChanged_tbl (s : State) : (timeChanged s).tbl = s.tbl := (rest_inj (timeChanged_rest s)).2.2.2.2.2.1
@[simp] theorem timeChanged_pat (s : State) : (timeChanged s).pat = s.pat := (rest_inj (timeChanged_rest s)).2.2.2.2.2.2.1
@[simp] theorem timeChanged_line (s : State) : (timeChanged s).line = s.line := (rest_inj (timeChanged_rest s)).2.2.2.2.2.2.2.1
@[simp] theorem timeChanged_msec (s : State) : (timeChanged s).msec = s.msec := (rest_inj (timeChanged_rest s)).2.2.2.2.2.2.2.2.1
@[simp] theorem timeChanged_buf (s : State) : (timeChanged s).buf = s.buf := (rest_inj (timeChanged_rest s)).2.2.2.2.2.2.2.2.2.1
@[simp] theorem timeChanged_hbm (s : State) : (timeChanged s).hbm = s.hbm := (rest_inj (timeChanged_rest s)).2.2.2.2.2.2.2.2.2.2.1
@[simp] theorem timeChanged_free (s : State) : (timeChanged s).free = s.free := (rest_inj (timeChanged_rest s)).2.2.2.2.2.2.2.2.2.2.2.1
@[simp] theorem timeChanged_pending (s : State) : (timeChanged s).pending = s.pending := (rest_inj (timeChanged_rest s)).2.2.2.2.2.2.2.2.2.2.2.2
@[simp] theorem moveLink_fuses (k st cause : Nat) (s : State) : (moveLink k st cause s).fuses = s.fuses := (rest_inj (moveLink_rest k st cause s)).1
@[simp] theorem moveLink_clock (k st cause : Nat) (s : State) : (moveLink k st cause s).clock = s.clock := (rest_inj (moveLink_rest k st cause s)).2.1
@[simp] theorem moveLink_ct (k st cause : Nat) (s : State) : (moveLink k st cause s).ct = s.ct := (rest_inj (moveLink_rest k st cause s)).2.2.1
@[simp] theorem moveLink_bridge (k st cause : Nat) (s : State) : (moveLink k st cause s).bridge = s.bridge := (rest_inj (moveLink_rest k st cause s)).2.2.2.1
@[simp] theorem moveLink_eng (k st cause : Nat) (s : State) : (moveLink k st cause s).eng = s.eng := (rest_inj (moveLink_rest k st cause s)).2.2.2.2.1
@[simp] theorem moveLink_tbl (k st cause : Nat) (s : State) : (moveLink k st cause s).tbl = s.tbl := (rest_inj (moveLink_rest k st cause s)).2.2.2.2.2.1
@[simp] theorem moveLink_pat (k st cause : Nat) (s : State) : (moveLink k st cause s).pat = s.pat := (rest_inj (moveLink_rest k st cause s)).2.2.2.2.2.2.1
@[simp] theorem moveLink_line (k st cause : Nat) (s : State) : (moveLink k st cause s).line = s.line := (rest_inj (moveLink_rest k st cause s)).2.2.2.2.2.2.2.1
@[simp] theorem moveLink_msec (k st cause : Nat) (s : State) : (moveLink k st cause s).msec = s.msec := (rest_inj (moveLink_rest k st cause s)).2.2.2.2.2.2.2.2.1
@[simp] theorem moveLink_buf (k st cause : Nat) (s : State) : (moveLink k st cause s).buf = s.buf := (rest_inj (moveLink_rest k st cause s)).2.2.2.2.2.2.2.2.2.1
@[simp] theorem moveLink_hbm (k st cause : Nat) (s : State) : (moveLink k st cause s).hbm = s.hbm := (rest_inj (moveLink_rest k st cause s)).2.2.2.2.2.2.2.2.2.2.1
@[simp] theorem moveLink_free (k st cause : Nat) (s : State) : (moveLink k st cause s).free = s.free := (rest_inj (moveLink_rest k st cause s)).2.2.2.2.2.2.2.2.2.2.2.1
@[simp] theorem moveLink_pending (k st cause : Nat) (s : State) : (moveLink k st cause s).pending = s.pending := (rest_inj (moveLink_rest k st cause s)).2.2.2.2.2.2.2.2.2.2.2.2
@[simp] theorem setRole_fuses (role : Nat) (s : State) : (setRole role s).fuses = s.fuses := (rest_inj (setRole_rest role s)).1
@[simp] theorem setRole_clock (role : Nat) (s : State) : (setRole role s).clock = s.clock := (rest_inj (setRole_rest role s)).2.1
@[simp] theorem setRole_ct (role : Nat) (s : State) : (setRole role s).ct = s.ct := (rest_inj (setRole_rest role s)).2.2.1
@[simp] theorem setRole_bridge (role : Nat) (s : State) : (setRole role s).bridge = s.bridge := (rest_inj (setRole_rest role s)).2.2.2.1
@[simp] theorem setRole_eng (role : Nat) (s : State) : (setRole role s).eng = s.eng := (rest_inj (setRole_rest role s)).2.2.2.2.1
@[simp] theorem setRole_tbl (role : Nat) (s : State) : (setRole role s).tbl = s.tbl := (rest_inj (setRole_rest role s)).2.2.2.2.2.1
@[simp] theorem setRole_pat (role : Nat) (s : State) : (setRole role s).pat = s.pat := (rest_inj (setRole_rest role s)).2.2.2.2.2.2.1
@[simp] theorem setRole_line (role : Nat) (s : State) : (setRole role s).line = s.line := (rest_inj (setRole_rest role s)).2.2.2.2.2.2.2.1
@[simp] theorem setRole_msec (role : Nat) (s : State) : (setRole role s).msec = s.msec := (rest_inj (setRole_rest role s)).2.2.2.2.2.2.2.2.1
@[simp] theorem setRole_buf (role : Nat) (s : State) : (setRole role s).buf = s.buf := (rest_inj (setRole_rest role s)).2.2.2.2.2.2.2.2.2.1
@[simp] theorem setRole_hbm (role : Nat) (s : State) : (setRole role s).hbm = s.hbm := (rest_inj (setRole_rest role s)).2.2.2.2.2.2.2.2.2.2.1
@[simp] theorem setRole_free (role : Nat) (s : State) : (setRole role s).free = s.free := (rest_inj (setRole_rest role s)).2.2.2.2.2.2.2.2.2.2.2.1
@[simp] theorem setRole_pending (role : Nat) (s : State) : (setRole role s).pending = s.pending := (rest_inj (setRole_rest role s)).2.2.2.2.2.2.2.2.2.2.2.2
@[simp] theorem enterSafe_fuses (s : State) : (enterSafe s).fuses = s.fuses := (rest_inj (enterSafe_rest s)).1
@[simp] theorem enterSafe_clock (s : State) : (enterSafe s).clock = s.clock := (rest_inj (enterSafe_rest s)).2.1
@[simp] theorem enterSafe_ct (s : State) : (enterSafe s).ct = s.ct := (rest_inj (enterSafe_rest s)).2.2.1
@[simp] theorem enterSafe_bridge (s : State) : (enterSafe s).bridge = s.bridge := (rest_inj (enterSafe_rest s)).2.2.2.1
@[simp] theorem enterSafe_eng (s : State) : (enterSafe s).eng = s.eng := (rest_inj (enterSafe_rest s)).2.2.2.2.1
@[simp] theorem enterSafe_tbl (s : State) : (enterSafe s).tbl = s.tbl := (rest_inj (enterSafe_rest s)).2.2.2.2.2.1
@[simp] theorem enterSafe_pat (s : State) : (enterSafe s).pat = s.pat := (rest_inj (enterSafe_rest s)).2.2.2.2.2.2.1
@[simp] theorem enterSafe_line (s : State) : (enterSafe s).line = s.line := (rest_inj (enterSafe_rest s)).2.2.2.2.2.2.2.1
@[simp] theorem enterSafe_msec (s : State) : (enterSafe s).msec = s.msec := (rest_inj (enterSafe_rest s)).2.2.2.2.2.2.2.2.1
@[simp] theorem enterSafe_buf (s : State) : (enterSafe s).buf = s.buf := (rest_inj (enterSafe_rest s)).2.2.2.2.2.2.2.2.2.1
@[simp] theorem enterSafe_hbm (s : State) : (enterSafe s).hbm = s.hbm := (rest_inj (enterSafe_rest s)).2.2.2.2.2.2.2.2.2.2.1
@[simp] theorem enterSafe_free (s : State) : (enterSafe s).free = s.free := (rest_inj (enterSafe_rest s)).2.2.2.2.2.2.2.2.2.2.2.1
@[simp] theorem enterSafe_pending (s : State) : (enterSafe s).pending = s.pending := (rest_inj (enterSafe_rest s)).2.2.2.2.2.2.2.2.2.2.2.2

end Sys2Proof.Machine
end

