-- ==== Sys2Proof/Laws/RaiseRegs.lean ====
section
/-! SUPPORT. The objects that sending a fault message, a change of a link's state and a change of time's source can write, and that they
leave every other object as it is. -/
set_option linter.all false
namespace Sys2Proof.Machine

/-- The object types that a fault message may write, with whatever reaction it takes. -/
def raiseTypes : List ObjTy := [.reaction, .fltStatus, .fltCtr, .flStatus, .flCtr, .flTime, .rtCtr, .route, .trCtr, .lpCtr, .tmStatus, .tmCtr, .prStatus, .perfCnt, .lostCtr, .cntCtr, .sessStatus]

theorem tel_of_raise {k : Key} (h : k.ty ∉ raiseTypes) : k.ty ∉ telTypes := by
  intro hm
  apply h
  simp only [telTypes, List.mem_cons, List.not_mem_nil, or_false] at hm
  simp only [raiseTypes, List.mem_cons, List.not_mem_nil, or_false]
  rcases hm with h | h | h | h <;> simp [h]

@[simp] theorem ite_regs (c : Prop) [Decidable c] (a b : State) (key : Key) :
    rdWord (if c then a else b) key = if c then rdWord a key else rdWord b key := apply_ite (fun s => rdWord s key) c a b
@[simp] theorem forAll_regs {α : Type} (l : List α) (f : α → State → State) (s : State) (key : Key)
    (h : ∀ a s, rdWord (f a s) key = rdWord s key) : rdWord (forAll l f s) key = rdWord s key :=
  forAll_same l f (fun s => rdWord s key) h s
@[simp] theorem wrWord_regs (s : State) (j : Key) (v : Nat) (key : Key) (hk : key.ty ∉ raiseTypes) (h : j.ty ∈ raiseTypes) :
    rdWord (wrWord s j v) key = rdWord s key := rdWord_wrWord_ne s v (fun e => hk (by rw [e]; exact h))
@[simp] theorem wr_regs (s : State) (j : Key) (f : Fld) (v : Nat) (key : Key) (hk : key.ty ∉ raiseTypes) (h : j.ty ∈ raiseTypes) :
    rdWord (wr s j f v) key = rdWord s key := wrWord_regs s j _ key hk h
@[simp] theorem mapF_regs (s : State) (j : Key) (f : Fld) (g : Nat → Nat) (key : Key) (hk : key.ty ∉ raiseTypes) (h : j.ty ∈ raiseTypes) :
    rdWord (mapF s j f g) key = rdWord s key := wrWord_regs s j _ key hk h
@[simp] theorem publish_regs (b : Nat) (r : TelRec) (s : State) (key : Key) (hk : key.ty ∉ raiseTypes) :
    rdWord (publish b r s) key = rdWord s key := (publish_told b r s).regs key (tel_of_raise hk)
@[simp] theorem stateEvent_regs (k : Key) (s : State) (key : Key) (hk : key.ty ∉ raiseTypes) :
    rdWord (stateEvent k s) key = rdWord s key := (stateEvent_told k s).regs key (tel_of_raise hk)
@[simp] theorem bump_regs (ty : ObjTy) (a b n : Nat) (s : State) (key : Key) (hk : key.ty ∉ raiseTypes) (h : ty ∈ raiseTypes) :
    rdWord (bump ty a b n s) key = rdWord s key :=
  bump_other ty a b n s key (fun e => hk (by rw [e]; exact h)) (tel_of_raise hk)
@[simp] theorem flKey_raise (k : Nat) : (flKey k).ty ∈ raiseTypes := by simp [flKey, raiseTypes]
@[simp] theorem ltK_raise (k : Nat) : (ltK k).ty ∈ raiseTypes := by simp [ltK, raiseTypes]
@[simp] theorem tmS_raise  : (tmS).ty ∈ raiseTypes := by simp [tmS, raiseTypes]
@[simp] theorem prS_raise  : (prS).ty ∈ raiseTypes := by simp [prS, raiseTypes]
@[simp] theorem routeKey_raise (k : Nat) : (routeKey k).ty ∈ raiseTypes := by simp [routeKey, raiseTypes]
@[simp] theorem sessKey_raise (k : Nat) : (sessKey k).ty ∈ raiseTypes := by simp [sessKey, raiseTypes]
@[simp] theorem reactKey_raise (a b k : Nat) : (reactKey a b k).ty ∈ raiseTypes := by simp [reactKey, raiseTypes]
@[simp] theorem reaction_raise : ObjTy.reaction ∈ raiseTypes := by decide
@[simp] theorem fltStatus_raise : ObjTy.fltStatus ∈ raiseTypes := by decide
@[simp] theorem fltCtr_raise : ObjTy.fltCtr ∈ raiseTypes := by decide
@[simp] theorem flStatus_raise : ObjTy.flStatus ∈ raiseTypes := by decide
@[simp] theorem flCtr_raise : ObjTy.flCtr ∈ raiseTypes := by decide
@[simp] theorem flTime_raise : ObjTy.flTime ∈ raiseTypes := by decide
@[simp] theorem rtCtr_raise : ObjTy.rtCtr ∈ raiseTypes := by decide
@[simp] theorem route_raise : ObjTy.route ∈ raiseTypes := by decide
@[simp] theorem trCtr_raise : ObjTy.trCtr ∈ raiseTypes := by decide
@[simp] theorem lpCtr_raise : ObjTy.lpCtr ∈ raiseTypes := by decide
@[simp] theorem tmStatus_raise : ObjTy.tmStatus ∈ raiseTypes := by decide
@[simp] theorem tmCtr_raise : ObjTy.tmCtr ∈ raiseTypes := by decide
@[simp] theorem prStatus_raise : ObjTy.prStatus ∈ raiseTypes := by decide
@[simp] theorem perfCnt_raise : ObjTy.perfCnt ∈ raiseTypes := by decide
@[simp] theorem lostCtr_raise : ObjTy.lostCtr ∈ raiseTypes := by decide
@[simp] theorem cntCtr_raise : ObjTy.cntCtr ∈ raiseTypes := by decide
@[simp] theorem sessStatus_raise : ObjTy.sessStatus ∈ raiseTypes := by decide
@[simp] theorem obj_raise (ty : ObjTy) (i : Nat) (h : ty ∈ raiseTypes) : (obj ty i).ty ∈ raiseTypes := h

@[simp] theorem setFl_regs (s : State) (k : Nat) (x : Fl) (key : Key) (hk : key.ty ∉ raiseTypes) : rdWord ((setFl s k x)) key = rdWord s key := by
  unfold setFl
  simp [hk]
@[simp] theorem floodRecord_regs (r : LinkRecord) (but : Option Nat) (s : State) (key : Key) (hk : key.ty ∉ raiseTypes) : rdWord ((floodRecord r but s)) key = rdWord s key := by
  unfold floodRecord
  simp [hk]
@[simp] theorem holdRecord_regs (s : State) (r : LinkRecord) (key : Key) (hk : key.ty ∉ raiseTypes) : rdWord ((holdRecord s r)) key = rdWord s key := by
  unfold holdRecord
  simp [hk]
@[simp] theorem genRecord_regs (s : State) (key : Key) (hk : key.ty ∉ raiseTypes) : rdWord ((genRecord s)) key = rdWord s key := by
  unfold genRecord
  simp [hk]
@[simp] theorem maskOut_regs (k : Nat) (s : State) (key : Key) (hk : key.ty ∉ raiseTypes) : rdWord ((maskOut k s)) key = rdWord s key := by
  unfold maskOut
  simp [hk]
@[simp] theorem returnCredits_regs (k : Nat) (s : State) (key : Key) (hk : key.ty ∉ raiseTypes) : rdWord ((returnCredits k s)) key = rdWord s key := by
  unfold returnCredits
  simp [hk]
@[simp] theorem freeSlot_regs (k vc : Nat) (s : State) (key : Key) (hk : key.ty ∉ raiseTypes) : rdWord ((freeSlot k vc s)) key = rdWord s key := by
  unfold freeSlot
  simp [hk]
@[simp] theorem leaveSlot_regs (slot : Option (Nat × Nat × Nat)) (s : State) (key : Key) (hk : key.ty ∉ raiseTypes) : rdWord ((leaveSlot slot s)) key = rdWord s key := by
  unfold leaveSlot
  repeat' first | (with_reducible rfl) | (simp [hk]; done) | (simp [hk, *]; done) | split
@[simp] theorem queueCell_regs (k : Nat) (c : FabCell) (s : State) (key : Key) (hk : key.ty ∉ raiseTypes) : rdWord ((queueCell k c s)) key = rdWord s key := by
  unfold queueCell
  simp [hk]
@[simp] theorem routeCell_regs (c : FabCell) (s : State) (key : Key) (hk : key.ty ∉ raiseTypes) : rdWord ((routeCell c s)) key = rdWord s key := by
  unfold routeCell
  repeat' first | (with_reducible rfl) | (simp [hk]; done) | (simp [hk, *]; done) | split
@[simp] theorem chooseAgain_regs (k : Nat) (c : FabCell) (s : State) (key : Key) (hk : key.ty ∉ raiseTypes) : rdWord ((chooseAgain k c s)) key = rdWord s key := by
  unfold chooseAgain
  dsimp only
  repeat' first | (with_reducible rfl) | (simp [hk]; done) | (simp [hk, *]; done) | split
@[simp] theorem enterLink_regs (k st cause : Nat) (s : State) (key : Key) (hk : key.ty ∉ raiseTypes) : rdWord ((enterLink k st cause s)) key = rdWord s key := by
  unfold enterLink
  simp [hk]
@[simp] theorem queueMessage_regs (m : FaultMsg) (s : State) (key : Key) (hk : key.ty ∉ raiseTypes) : rdWord ((queueMessage m s)) key = rdWord s key := by
  unfold queueMessage
  simp [hk]
@[simp] theorem noteCore_regs (blk : Nat) (s : State) (key : Key) (hk : key.ty ∉ raiseTypes) : rdWord ((noteCore blk s)) key = rdWord s key := by
  unfold noteCore
  simp [hk]
@[simp] theorem report_regs (r : Report) (s : State) (key : Key) (hk : key.ty ∉ raiseTypes) : rdWord ((report r s).1) key = rdWord s key := by
  unfold report
  dsimp only
  repeat' first | (with_reducible rfl) | (simp [hk]; done) | (simp [hk, *]; done) | split
@[simp] theorem yokeSend_regs (y : Nat) (load : YokeLoad) (s : State) (key : Key) (hk : key.ty ∉ raiseTypes) : rdWord ((yokeSend y load s)) key = rdWord s key := by
  unfold yokeSend
  simp [hk]
@[simp] theorem setRole_regs (role : Nat) (s : State) (key : Key) (hk : key.ty ∉ raiseTypes) : rdWord ((setRole role s)) key = rdWord s key := by
  unfold setRole
  simp [hk]
@[simp] theorem atMost_regs (blk inst kind sub d : Nat) (f : State → State) (s : State) (key : Key) (hf : ∀ b0, rdWord (f b0) key = rdWord b0 key) (hk : key.ty ∉ raiseTypes) : rdWord ((atMost blk inst kind sub d f s)) key = rdWord s key := by
  unfold atMost
  dsimp only
  repeat' first | (with_reducible rfl) | (simp [hk]; done) | (simp [hk, *]; done) | split
@[simp] theorem countSent_regs (p len : Nat) (s : State) (key : Key) (hk : key.ty ∉ raiseTypes) : rdWord ((countSent p len s)) key = rdWord s key := by
  unfold countSent
  simp [hk]
@[simp] theorem emitLine_regs (p n : Nat) (o : Nat → Out) (s : State) (key : Key) (hk : key.ty ∉ raiseTypes) : rdWord ((emitLine p n o s)) key = rdWord s key := by
  unfold emitLine
  simp [hk]
@[simp] theorem setTx_regs (p : Nat) (l : List TxFrame) (s : State) (key : Key) (hk : key.ty ∉ raiseTypes) : rdWord ((setTx p l s)) key = rdWord s key := by
  unfold setTx
  simp [hk]
@[simp] theorem originate_regs (p : Nat) (kind : Pdu) (args : List Nat) (len : Nat) (s : State) (key : Key) (hk : key.ty ∉ raiseTypes) : rdWord ((originate p kind args len s)) key = rdWord s key := by
  unfold originate
  simp [hk]
@[simp] theorem setLt_regs (k : Nat) (x : LinkTime) (s : State) (key : Key) (hk : key.ty ∉ raiseTypes) : rdWord ((setLt k x s)) key = rdWord s key := by
  unfold setLt
  simp [hk]
@[simp] theorem toAcquire_regs (s : State) (key : Key) (hk : key.ty ∉ raiseTypes) : rdWord ((toAcquire s)) key = rdWord s key := by
  unfold toAcquire
  simp [hk]
@[simp] theorem toFree_regs (s : State) (key : Key) (hk : key.ty ∉ raiseTypes) : rdWord ((toFree s)) key = rdWord s key := by
  unfold toFree
  simp [hk]
@[simp] theorem toHold_regs (forced : Bool) (s : State) (key : Key) (hk : key.ty ∉ raiseTypes) : rdWord ((toHold forced s)) key = rdWord s key := by
  unfold toHold
  simp [hk]
@[simp] theorem moveServo_regs (s : State) (key : Key) (has : Bool) (hk : key.ty ∉ raiseTypes) : rdWord ((moveServo has s).1) key = rdWord s key := by
  unfold moveServo
  dsimp only
  repeat' first | (with_reducible rfl) | (simp [hk]; done) | (simp [hk, *]; done) | split
@[simp] theorem updateSource_regs (s : State) (key : Key) (hk : key.ty ∉ raiseTypes) : rdWord ((updateSource s).1) key = rdWord s key := by
  unfold updateSource
  simp [hk]
@[simp] theorem updateRoot_regs (s : State) (key : Key) (hk : key.ty ∉ raiseTypes) : rdWord ((updateRoot s)) key = rdWord s key := by
  unfold updateRoot
  dsimp only
  repeat' first | (with_reducible rfl) | (simp [hk]; done) | (simp [hk, *]; done) | split
@[simp] theorem updateQuality_regs (s : State) (key : Key) (hk : key.ty ∉ raiseTypes) : rdWord ((updateQuality s)) key = rdWord s key := by
  unfold updateQuality
  repeat' first | (with_reducible rfl) | (simp [hk]; done) | (simp [hk, *]; done) | split
@[simp] theorem sendEsmc_regs (event : Bool) (p : Nat) (s : State) (key : Key) (hk : key.ty ∉ raiseTypes) : rdWord ((sendEsmc event p s)) key = rdWord s key := by
  unfold sendEsmc
  simp [hk]
@[simp] theorem updateRef_regs (s : State) (key : Key) (hk : key.ty ∉ raiseTypes) : rdWord ((updateRef s)) key = rdWord s key := by
  unfold updateRef
  simp [hk]
@[simp] theorem updateTime_regs (s : State) (key : Key) (hk : key.ty ∉ raiseTypes) : rdWord ((updateTime s).1) key = rdWord s key := by
  unfold updateTime
  simp [hk]
@[simp] theorem enterSafe_regs (s : State) (key : Key) (hk : key.ty ∉ raiseTypes) : rdWord ((enterSafe s)) key = rdWord s key := by
  unfold enterSafe
  simp (maxDischargeDepth := 5) [hk]
@[simp] theorem raiseA_regs (r : Report) (s : State) (key : Key) (hk : key.ty ∉ raiseTypes) : rdWord ((raiseA r s).1) key = rdWord s key := by
  unfold raiseA
  dsimp only
  repeat' first | (with_reducible rfl) | (simp [hk]; done) | (simp [hk, *]; done) | split
@[simp] theorem timeChanged_regs (s : State) (key : Key) (hk : key.ty ∉ raiseTypes) : rdWord ((timeChanged s)) key = rdWord s key := by
  unfold timeChanged
  simp [hk]
@[simp] theorem raise_regs (r : Report) (s : State) (key : Key) (hk : key.ty ∉ raiseTypes) : rdWord ((raise r s)) key = rdWord s key := by
  unfold raise
  simp [hk]
@[simp] theorem raiseAt_regs (blk inst kind : Nat) (k : Key) (s : State) (key : Key) (hk : key.ty ∉ raiseTypes) : rdWord ((raiseAt blk inst kind k s)) key = rdWord s key := by
  unfold raiseAt
  simp [hk]
@[simp] theorem raiseEach_regs (blk inst kind sub : Nat) (k : Key) (s : State) (key : Key) (hk : key.ty ∉ raiseTypes) : rdWord ((raiseEach blk inst kind sub k s)) key = rdWord s key := by
  unfold raiseEach
  simp [hk]
@[simp] theorem moveLink_regs (k st cause : Nat) (s : State) (key : Key) (hk : key.ty ∉ raiseTypes) : rdWord ((moveLink k st cause s)) key = rdWord s key := by
  unfold moveLink
  simp [hk]

@[simp] theorem stateEvent_rd (k0 : Key) (s : State) (key : Key) (f : Fld) (hk : key.ty ∉ raiseTypes) : rd (stateEvent k0 s) key f = rd s key f := by
  simp only [rd, stateEvent_regs (hk := hk)]
@[simp] theorem publish_rd (b : Nat) (r : TelRec) (s : State) (key : Key) (f : Fld) (hk : key.ty ∉ raiseTypes) : rd (publish b r s) key f = rd s key f := by
  simp only [rd, publish_regs (hk := hk)]
@[simp] theorem raise_rd (r : Report) (s : State) (key : Key) (f : Fld) (hk : key.ty ∉ raiseTypes) : rd (raise r s) key f = rd s key f := by
  simp only [rd, raise_regs (hk := hk)]
@[simp] theorem raiseAt_rd (blk inst kind : Nat) (k0 : Key) (s : State) (key : Key) (f : Fld) (hk : key.ty ∉ raiseTypes) : rd (raiseAt blk inst kind k0 s) key f = rd s key f := by
  simp only [rd, raiseAt_regs (hk := hk)]
@[simp] theorem raiseEach_rd (blk inst kind sub : Nat) (k0 : Key) (s : State) (key : Key) (f : Fld) (hk : key.ty ∉ raiseTypes) : rd (raiseEach blk inst kind sub k0 s) key f = rd s key f := by
  simp only [rd, raiseEach_regs (hk := hk)]
@[simp] theorem timeChanged_rd (s : State) (key : Key) (f : Fld) (hk : key.ty ∉ raiseTypes) : rd (timeChanged s) key f = rd s key f := by
  simp only [rd, timeChanged_regs (hk := hk)]
@[simp] theorem moveLink_rd (k0 st cause : Nat) (s : State) (key : Key) (f : Fld) (hk : key.ty ∉ raiseTypes) : rd (moveLink k0 st cause s) key f = rd s key f := by
  simp only [rd, moveLink_regs (hk := hk)]
@[simp] theorem setRole_rd (role : Nat) (s : State) (key : Key) (f : Fld) (hk : key.ty ∉ raiseTypes) : rd (setRole role s) key f = rd s key f := by
  simp only [rd, setRole_regs (hk := hk)]
@[simp] theorem enterSafe_rd (s : State) (key : Key) (f : Fld) (hk : key.ty ∉ raiseTypes) : rd (enterSafe s) key f = rd s key f := by
  simp only [rd, enterSafe_regs (hk := hk)]

end Sys2Proof.Machine
end

