-- ==== Sys2Proof/Laws/Host.lean ====
section
/-! SUPPORT. The life of a command: whose turn it is, the checks of R57, and the reply of the only command that waits. -/
namespace Sys2Proof.Machine

open Sys2Proof

/-- The punts that leave before a frame change what sessions hold of them, the queue of punts, and what was sent; the keys stay. -/
theorem puntsBefore_parts (p : MgmtPort) (s : State) :
    ∃ c q l, puntsBefore p s = { s with cmd := { s.cmd with sess := c, puntQ := q }, out := l ++ s.out } ∧
      ∀ n, keysOf (puntsBefore p s) n = keysOf s n := by
  have hk (n : Nat) : keysOf (puntsBefore p s) n = keysOf s n := by
    have h := congrArg Sess.keys ((puntsBefore_told p s).sess n)
    simp only [Sess.quiet] at h
    simp only [keysOf, h]
  have hf (n : Nat) (l : List Punt) (u : State) :
      ∃ c m, forAll l (sendPunt n) u = { u with cmd := { u.cmd with sess := c }, out := m ++ u.out } := by
    unfold Machine.forAll
    induction l generalizing u with
    | nil => exact ⟨u.cmd.sess, [], rfl⟩
    | cons a r ih =>
      obtain ⟨c, m, h⟩ := ih (sendPunt n a u)
      refine ⟨c, m ++ (sendPunt n a u).out.take 1, ?_⟩
      simp only [List.foldl_cons, h]
      simp [sendPunt, emit, setSess]
  have hp : ∃ c q l, puntsBefore p s = { s with cmd := { s.cmd with sess := c, puntQ := q }, out := l ++ s.out } := by
    unfold puntsBefore
    split
    · split
      · exact ⟨s.cmd.sess, s.cmd.puntQ, [], rfl⟩
      · obtain ⟨c, m, h⟩ := hf _ s.cmd.puntQ { s with cmd := { s.cmd with puntQ := [] } }
        exact ⟨c, [], m, h⟩
    · exact ⟨s.cmd.sess, s.cmd.puntQ, [], rfl⟩
  obtain ⟨c, q, l, h⟩ := hp
  exact ⟨c, q, l, h, hk⟩

/-- A session's reply changes its status and when it was idle last, and sends one frame behind the punts of its port; nothing else. -/
theorem sendReply_parts (w : Waiting) (st : Nat) (addr : ObjAddr) (hint : Nat) (result : Bytes) (s : State)
    (ho : w.op ≠ 0x0305) (hs : rd s (sessKey w.hdr.sid.val) SessStatus.NEXT_SEQ + fragments (24 + result.length) < 2 ^ 64) :
    ∃ r c q l, sendReply w st addr hint result s =
        { s with regs := r, cmd := { s.cmd with sess := c, puntQ := q },
                 out := Safety.replyOf s w (rd s (sessKey w.hdr.sid.val) SessStatus.NEXT_SEQ) st addr hint result :: (l ++ s.out) } ∧
      (∀ k, k.ty ≠ .sessStatus → tabGet r (keyNo k) (resetVal s.fuses k) = rdWord s k) ∧
      ∀ n, keysOf (sendReply w st addr hint result s) n = keysOf s n := by
  have hk (n : Nat) (k : Key) (h : k.ty ≠ .sessStatus) : k ≠ sessKey n := by rintro rfl; exact h rfl
  have hi (n m : Nat) (t : Nat) (u : State) : keysOf (setSess u n { getSess u n with idleFrom := t }) m = keysOf u m := by
    by_cases h : m = n
    · subst h; simp [keysOf]
    · simp [keysOf, h]
  obtain ⟨c, q, l, hp, hkeys⟩ := puntsBefore_parts w.port s
  have hq : rd (puntsBefore w.port s) (sessKey w.hdr.sid.val) SessStatus.NEXT_SEQ = rd s (sessKey w.hdr.sid.val) SessStatus.NEXT_SEQ := by
    rw [hp]; rfl
  have hl : ¬ 2 ^ 64 ≤ rd s (sessKey w.hdr.sid.val) SessStatus.NEXT_SEQ + fragments (24 + result.length) := by omega
  have hsl : cmdSeals (puntsBefore w.port s) w.hdr.sid.val 2 (24 + result.length) =
      sealsOf (keysOf s w.hdr.sid.val).cmdOut 2 w.hdr.sid.val (rd s (sessKey w.hdr.sid.val) SessStatus.NEXT_SEQ) (24 + result.length) := by
    simp only [cmdSeals, hkeys, hq]
  have he : emitReply w.hdr.sid.val w.port w.mac w.op st w.hdr.seq.toNat addr hint result s =
      wr (emit (puntsBefore w.port s) (Safety.replyOf s w (rd s (sessKey w.hdr.sid.val) SessStatus.NEXT_SEQ) st addr hint result))
        (sessKey w.hdr.sid.val) SessStatus.NEXT_SEQ
        (rd s (sessKey w.hdr.sid.val) SessStatus.NEXT_SEQ + fragments (24 + result.length)) := by
    unfold emitReply Safety.replyOf
    dsimp only
    rw [hq, if_neg hl, hsl]
  unfold sendReply
  dsimp only
  simp only [ho, false_and, if_false]
  rw [he]
  generalize Safety.replyOf s w _ st addr hint result = o
  generalize rd s (sessKey w.hdr.sid.val) SessStatus.NEXT_SEQ + fragments (24 + result.length) = v
  have hpk (n : Nat) : keysOf (puntsBefore w.port s) n = keysOf s n := hkeys n
  rw [hp] at hpk ⊢
  by_cases hc : w.counted = true
  all_goals simp only [hc, if_true, Bool.false_eq_true, if_false]
  all_goals split
  all_goals refine ⟨_, _, _, l, rfl, fun k h => ?_, fun n => ?_⟩
  · exact ((rdWord_wr_ne _ _ _ (hk _ k h)).trans (rdWord_wr_ne _ _ _ (hk _ k h)) :)
  · exact (hi _ _ _ _).trans (hpk n)
  · exact ((rdWord_wr_ne _ _ _ (hk _ k h)).trans (rdWord_wr_ne _ _ _ (hk _ k h)) :)
  · exact hpk n
  · exact (rdWord_wr_ne _ _ _ (hk _ k h) :)
  · exact (hi _ _ _ _).trans (hpk n)
  · exact (rdWord_wr_ne _ _ _ (hk _ k h) :)
  · exact hpk n

/-- Only a command that waits, queued, in a session that is not closing: it is its turn. -/
theorem turnOf_only {s : State} {c : Hdr} {w : Waiting} (h : s.cmd.waiting = [w]) (hc : w.hdr = c) (hq : w.phase = .queued)
    (hg : (getSess s c.sid.val).closing = false) : turnOf s c = some w := by
  subst hc
  simp [turnOf, hg, h, hq]

/-- A command of one's own opcode that passes the checks of R57 goes on. -/
theorem checked_pass {s : State} {c : Hdr} {w : Waiting} {op acc blk : Nat} {lenOk : Nat → Bool} {addr : ObjAddr} {f : State → State}
    (h : Safety.Turn s c w op acc w.plen blk) (hl : lenOk w.plen = true) :
    checked c op acc lenOk true blk addr f s = f s := by
  have hm := h.mine
  have ha := h.access
  have hb := h.bridge
  subst hm
  simp [checked, hb, onTurn, turnOf_only h.only rfl h.queued h.going, h.opcode, checkCommand, ha, hl, h.body, h.res, h.ready]

/-- The only command that waits gets its reply at once. -/
theorem finish_only {s : State} {c : Hdr} {w : Waiting} {st hint : Nat} {addr : ObjAddr} {r : Bytes} {a : AfterReply}
    (h : s.cmd.waiting = [w]) (hc : w.hdr = c) (hq : ∀ st a h r f, w.phase ≠ .done st a h r f) :
    finish c st addr hint r a s =
      flushReplies 1 c.sid.val
        (afterReply c.sid.val a (sendReply w st addr hint r { s with cmd := { s.cmd with waiting := [] } })) := by
  subst hc
  have hs : setPhase w.hdr (.done st addr hint r a) s =
      { s with cmd := { s.cmd with waiting := [{ w with phase := .done st addr hint r a }] } } := by
    unfold setPhase
    simp only [h, List.map_cons, List.map_nil]
    cases hp : w.phase
    case done => exact absurd hp (hq _ _ _ _ _)
    all_goals simp
  unfold finish flush
  rw [hs]
  simp [flushReplies, sendReply]

theorem flushReplies_none {n m : Nat} {s : State} (h : s.cmd.waiting = []) : flushReplies n m s = s := by
  cases n <;> simp [flushReplies, h]

/-- With nothing to follow, that reply changes its session's status, sends one frame behind the punts of its port and leaves every other
object as it was. -/
theorem finish_parts {s : State} {c : Hdr} {w : Waiting} {st hint : Nat} {addr : ObjAddr} {r : Bytes}
    (h : s.cmd.waiting = [w]) (hc : w.hdr = c) (hq : ∀ st a h r f, w.phase ≠ .done st a h r f) (ho : w.op ≠ 0x0305)
    (hs : rd s (sessKey c.sid.val) SessStatus.NEXT_SEQ + fragments (24 + r.length) < 2 ^ 64) :
    ∃ g x y l, finish c st addr hint r .nothing s =
        { s with regs := g, cmd := { s.cmd with sess := x, waiting := [], puntQ := y },
                 out := Safety.replyOf s w (rd s (sessKey c.sid.val) SessStatus.NEXT_SEQ) st addr hint r :: (l ++ s.out) } ∧
      (∀ k, k.ty ≠ .sessStatus → tabGet g (keyNo k) (resetVal s.fuses k) = rdWord s k) ∧
      ∀ n, keysOf (finish c st addr hint r .nothing s) n = keysOf s n := by
  subst hc
  obtain ⟨g, x, y, l, he, hk, hy⟩ := sendReply_parts w st addr hint r { s with cmd := { s.cmd with waiting := [] } } ho hs
  have hf : finish w.hdr st addr hint r .nothing s = sendReply w st addr hint r { s with cmd := { s.cmd with waiting := [] } } := by
    rw [finish_only h rfl hq]
    simp only [afterReply]
    exact flushReplies_none (by rw [he])
  refine ⟨g, x, y, l, ?_, hk, fun n => ?_⟩
  · rw [hf, he]; rfl
  · rw [hf]; exact hy n

end Sys2Proof.Machine
end

