-- ==== Sys2Proof/Laws/HostWrite.lean ====
section
/-! SUPPORT. A write of one object that no check stands against: it takes effect and is answered. -/
set_option linter.all false
namespace Sys2Proof.Machine

open Sys2Proof

theorem queued_not_done {w : Waiting} (h : w.phase = .queued) : ∀ st a h r f, w.phase ≠ .done st a h r f := by
  intro st a h' r f; rw [h]; intro e; cases e

/-- The command whose turn it is, is found by its header. -/
theorem waitingOf_only {s : State} {c : Hdr} {w : Waiting} (h : s.cmd.waiting = [w]) (hc : w.hdr = c) : waitingOf s c = some w := by
  subst hc
  simp [waitingOf, h]

/-- A write that passes every check takes effect. -/
theorem hostWrite_ok {s : State} {c : Hdr} {w : Waiting} {k : Key} {f : Nat → Nat}
    (h : Safety.Write s c w k (f (rdWord s k))) (hr : readOnly k = false) (he : exists? k = true) (ho : k.ty ≠ .opKey)
    (hg : k.ty ≠ .gateCtl) (hs : k.ty ≠ .saSlot) (hc : k.ty ≠ .cakSlot) :
    hostWrite c k f s = replyWrite c k (applyWrite k (f (rdWord s k)) s) := by
  have ht := h.turn
  have hw := waitingOf_only ht.only ht.mine
  have hop := ht.opcode
  have hac := ht.access
  have hpl := ht.length
  have ha : writeAccess s c.sid.val 0x0202 (some [k]) = accConfig := by simp [writeAccess, hac, hs, hc]
  unfold hostWrite
  simp only [hw, hop]
  norm_num
  rw [ha, checked_pass (w := w) (by rw [hpl]; exact ht) (by simp [hpl])]
  have hff : formFault s [(k, f (rdWord s k))] = none := by simp [formFault, hr, h.fields, h.range]
  have hfs : firstState [(k, f (rdWord s k))] s = none := by simp [firstState, h.state]
  simp [he, writeObjects, hff, hfs, ho, hg, forAll]

/-- Its reply, when no hook took the command away. -/
theorem replyWrite_done {u : State} {c : Hdr} {w : Waiting} (k : Key) (h : u.cmd.waiting = [w]) (hc : w.hdr = c) (ho : w.op = 0x0202) :
    replyWrite c k u = done c u := by
  simp [replyWrite, replyWith, waitingOf_only h hc, ho]

/-- A reply reads its session's keys alone. -/
theorem replyOf_keys {s t : State} {w : Waiting} {q st hint : Nat} {addr : ObjAddr} {r : Bytes}
    (h : keysOf t w.hdr.sid.val = keysOf s w.hdr.sid.val) : Safety.replyOf t w q st addr hint r = Safety.replyOf s w q st addr hint r := by
  unfold Safety.replyOf
  rw [h]

/-- An answer with a result, of the only command that waits. -/
theorem ok_answered {u : State} {c : Hdr} {w : Waiting} {r : Bytes} (h : u.cmd.waiting = [w]) (hc : w.hdr = c)
    (hq : w.phase = .queued) (ho : w.op ≠ 0x0305)
    (hs : rd u (sessKey c.sid.val) SessStatus.NEXT_SEQ + fragments (24 + r.length) < 2 ^ 64) : Safety.Answered [] u (ok c r u) w r := by
  obtain ⟨g, x, y, l, he, hk, hy⟩ := finish_parts (st := stOk) (addr := 0) (hint := 0) (r := r) h hc (queued_not_done hq) ho hs
  unfold ok
  have hk' (k : Key) (hn : k.ty ≠ .sessStatus) : rdWord (finish c stOk 0 0 r .nothing u) k = rdWord u k := by
    rw [he]; exact hk k hn
  refine ⟨⟨by rw [he], rd u (sessKey c.sid.val) SessStatus.NEXT_SEQ, l ++ u.out, ?_⟩, fun k hn => hk' k (by simpa using hn), by rw [he]⟩
  rw [replyOf_keys (hy _), he]

/-- What an answered command left as it was, seen from the state before its effect. -/
theorem Answered.after {l : List ObjTy} {s u t : State} {w : Waiting} {r : Bytes} (h : Safety.Answered [] u t w r)
    (hk : Safety.RegsKept l s u) (hp : u = { s with regs := u.regs, cmd := { s.cmd with sess := u.cmd.sess, waiting := u.cmd.waiting, puntQ := u.cmd.puntQ }, out := u.out }) :
    Safety.Answered l s t w r := by
  obtain ⟨hd, hr, ht⟩ := h
  refine ⟨hd, ?_, ?_⟩
  · intro k hk'
    simp only [List.mem_cons, not_or] at hk'
    rw [hr k (by simpa using hk'.1), hk k hk'.2]
  · rw [ht, hp]

set_option maxRecDepth 20000 in
/-- No two fields of an object share a bit. -/
theorem fields_apart (ty : ObjTy) : (fieldsOf ty).Pairwise fun d e => d.f.apart e.f = true ∧ e.f.apart d.f = true := by
  cases ty <;> decide

/-- One field of a stored value. -/
def storeField (new : Nat) (x : Nat) (d : FieldDesc) : Nat :=
  match d.acc with
  | .rw | .wo => putF x d.f (getF new d.f)
  | .rw1c => putF x d.f (getF x d.f - (getF x d.f &&& getF new d.f))
  | _ => x

theorem storeField_apart (new x : Nat) (d e : FieldDesc) (h : d.f.apart e.f = true) : getF (storeField new x d) e.f = getF x e.f := by
  unfold storeField
  split <;> first | exact getF_put_apart _ _ h | rfl

theorem storeFields_apart (new : Nat) (l : List FieldDesc) (e : FieldDesc) (h : ∀ d ∈ l, d.f.apart e.f = true) (x : Nat) :
    getF (l.foldl (storeField new) x) e.f = getF x e.f := by
  induction l generalizing x with
  | nil => rfl
  | cons d l ih =>
    rw [List.foldl_cons, ih (fun d' hd => h d' (by simp [hd])), storeField_apart _ _ _ _ (h d (by simp))]

theorem storeFields_self (new : Nat) (l : List FieldDesc) (h : l.Pairwise fun d e => d.f.apart e.f = true ∧ e.f.apart d.f = true) (x : Nat)
    (e : FieldDesc) (he : e ∈ l) : getF (l.foldl (storeField new) x) e.f = getF (storeField new x e) e.f := by
  induction l generalizing x with
  | nil => cases he
  | cons d l ih =>
    rw [List.pairwise_cons] at h
    rw [List.foldl_cons]
    rcases List.mem_cons.mp he with rfl | hm
    · exact storeFields_apart new l e (fun d hd => (h.1 d hd).2) _
    · rw [ih h.2 _ hm]
      have ha := storeField_apart new x d e (h.1 e hm).1
      unfold storeField at ha ⊢
      cases e.acc <;> simp_all

/-- What a stored object holds (R10, R11). -/
theorem storeObj_holds (k : Key) (x : Nat) (s : State) : Safety.Holds s (storeObj k x s) k x := by
  intro d hd
  have hf : rd (storeObj k x s) k d.f = getF (storeField x (rdWord s k) d) d.f := by
    unfold storeObj
    rw [rd_wrWord_self]
    exact storeFields_self x _ (fields_apart k.ty) _ d hd
  rw [hf]
  unfold storeField
  refine ⟨fun h => ?_, fun h => ?_⟩
  · rcases h with h | h <;> simp [h, Nat.mod_eq_of_lt (getF_le x d.f)]
  · simp [h, rd]

theorem Holds.after {s u t : State} {k : Key} {x : Nat} {l : List ObjTy} (h : Safety.Holds s u k x) (hk : k.ty ∉ l)
    (hr : Safety.RegsKept l u t) : Safety.Holds s t k x := by
  intro d hd
  have e : rd t k d.f = rd u k d.f := by unfold rd; rw [hr k hk]
  rw [e]
  exact h d hd

theorem storeObj_kept (k : Key) (x : Nat) (s : State) : Safety.RegsKept [k.ty] s (storeObj k x s) := by
  intro j hj
  exact rdWord_wrWord_ne s _ (by rintro rfl; exact hj (by simp))

end Sys2Proof.Machine
end

