-- ==== Sys2Proof/Laws/RaiseHeld.lean ====
section
/-! SUPPORT. More of what sending a fault message, a change of a link's state and a change of time's source leave as it is: what CMD, TFU, VOQ
and EGS, UPD, PWR and CNT hold, but for what telemetry, the safe state and an originated frame touch. -/
set_option linter.all false
namespace Sys2Proof.Machine

/-- The parts of cmd that no fault message changes. -/
def State.cmdHeld (s : State) := (s.cmd.waiting, s.cmd.opens, s.cmd.openTimes, s.cmd.fuse)

@[simp] theorem cmdHeld_mk (s : State) {x_regs x_fuses x_clock x_ct x_bridge x_flt x_cnt x_eng x_tbl x_pat x_line x_tfu x_msec x_buf x_que x_fab x_hbm x_time x_pair x_upd x_pwr x_out x_free x_pending} : (State.mk x_regs x_fuses x_clock x_ct s.cmd x_bridge x_flt x_cnt x_eng x_tbl x_pat x_line x_tfu x_msec x_buf x_que x_fab x_hbm x_time x_pair x_upd x_pwr x_out x_free x_pending).cmdHeld = s.cmdHeld := id rfl
@[simp] theorem cmdHeld_mk2 (s : State) {x_regs x_fuses x_clock x_ct x_bridge x_flt x_cnt x_eng x_tbl x_pat x_line x_tfu x_msec x_buf x_que x_fab x_hbm x_time x_pair x_upd x_pwr x_out x_free x_pending} {d_sess d_puntQ} : (State.mk x_regs x_fuses x_clock x_ct (Cmd.mk d_sess s.cmd.waiting s.cmd.opens s.cmd.openTimes d_puntQ s.cmd.fuse) x_bridge x_flt x_cnt x_eng x_tbl x_pat x_line x_tfu x_msec x_buf x_que x_fab x_hbm x_time x_pair x_upd x_pwr x_out x_free x_pending).cmdHeld = s.cmdHeld := id rfl
theorem Told.cmdHeld {s t : State} (h : Told s t) : t.cmdHeld = s.cmdHeld := by rw [h.parts]; first | rfl | (rw [h.ring]; rfl)
@[simp] theorem ite_cmdHeld (c : Prop) [Decidable c] (a b : State) : (if c then a else b).cmdHeld = if c then a.cmdHeld else b.cmdHeld :=
  apply_ite State.cmdHeld c a b
@[simp] theorem forAll_cmdHeld {α : Type} (l : List α) (f : α → State → State) (s : State) (h : ∀ a s, (f a s).cmdHeld = s.cmdHeld) :
    (forAll l f s).cmdHeld = s.cmdHeld := forAll_same l f State.cmdHeld h s
@[simp] theorem wrWord_cmdHeld (s : State) (k : Key) (v : Nat) : (wrWord s k v).cmdHeld = s.cmdHeld := id rfl
@[simp] theorem wr_cmdHeld (s : State) (k : Key) (f : Fld) (v : Nat) : (wr s k f v).cmdHeld = s.cmdHeld := id rfl
@[simp] theorem mapF_cmdHeld (s : State) (k : Key) (f : Fld) (g : Nat → Nat) : (mapF s k f g).cmdHeld = s.cmdHeld := id rfl
@[simp] theorem satF_cmdHeld (s : State) (k : Key) (f : Fld) : (satF s k f).cmdHeld = s.cmdHeld := id rfl
@[simp] theorem emit_cmdHeld (s : State) (o : Out) : (emit s o).cmdHeld = s.cmdHeld := id rfl
@[simp] theorem setSess_cmdHeld (s : State) (n : Nat) (x : Sess) : (setSess s n x).cmdHeld = s.cmdHeld := id rfl
@[simp] theorem publish_cmdHeld (b : Nat) (r : TelRec) (s : State) : (publish b r s).cmdHeld = s.cmdHeld := (publish_told b r s).cmdHeld
@[simp] theorem stateEvent_cmdHeld (k : Key) (s : State) : (stateEvent k s).cmdHeld = s.cmdHeld := (stateEvent_told k s).cmdHeld
@[simp] theorem bump_cmdHeld (ty : ObjTy) (a b n : Nat) (s : State) : (bump ty a b n s).cmdHeld = s.cmdHeld := by
  rw [(bump_told ty a b n s).cmdHeld, wrWord_cmdHeld]
@[simp] theorem bumpBy_cmdHeld (k : Key) (n : Nat) (c : ObjAddr) (s : State) : (bumpBy k n c s).cmdHeld = s.cmdHeld := by
  rw [(bumpBy_told k n c s).cmdHeld, wrWord_cmdHeld]

@[simp] theorem setFl_cmdHeld (s : State) (k : Nat) (x : Fl) : (setFl s k x).cmdHeld = s.cmdHeld := by
  unfold setFl
  simp
@[simp] theorem floodRecord_cmdHeld (r : LinkRecord) (but : Option Nat) (s : State) : (floodRecord r but s).cmdHeld = s.cmdHeld := by
  unfold floodRecord
  simp
@[simp] theorem holdRecord_cmdHeld (s : State) (r : LinkRecord) : (holdRecord s r).cmdHeld = s.cmdHeld := by
  unfold holdRecord
  simp
@[simp] theorem genRecord_cmdHeld (s : State) : (genRecord s).cmdHeld = s.cmdHeld := by
  unfold genRecord
  simp
@[simp] theorem maskOut_cmdHeld (k : Nat) (s : State) : (maskOut k s).cmdHeld = s.cmdHeld := by
  unfold maskOut
  simp
@[simp] theorem returnCredits_cmdHeld (k : Nat) (s : State) : (returnCredits k s).cmdHeld = s.cmdHeld := by
  unfold returnCredits
  simp
@[simp] theorem freeSlot_cmdHeld (k vc : Nat) (s : State) : (freeSlot k vc s).cmdHeld = s.cmdHeld := by
  unfold freeSlot
  simp
@[simp] theorem leaveSlot_cmdHeld (slot : Option (Nat × Nat × Nat)) (s : State) : (leaveSlot slot s).cmdHeld = s.cmdHeld := by
  unfold leaveSlot
  repeat' first | (with_reducible rfl) | (simp [*]; done) | split
@[simp] theorem queueCell_cmdHeld (k : Nat) (c : FabCell) (s : State) : (queueCell k c s).cmdHeld = s.cmdHeld := by
  unfold queueCell
  simp
@[simp] theorem routeCell_cmdHeld (c : FabCell) (s : State) : (routeCell c s).cmdHeld = s.cmdHeld := by
  unfold routeCell
  repeat' first | (with_reducible rfl) | (simp [*]; done) | split
@[simp] theorem chooseAgain_cmdHeld (k : Nat) (c : FabCell) (s : State) : (chooseAgain k c s).cmdHeld = s.cmdHeld := by
  unfold chooseAgain
  dsimp only
  repeat' first | (with_reducible rfl) | (simp [*]; done) | split
@[simp] theorem enterLink_cmdHeld (k st cause : Nat) (s : State) : (enterLink k st cause s).cmdHeld = s.cmdHeld := by
  unfold enterLink
  simp
@[simp] theorem queueMessage_cmdHeld (m : FaultMsg) (s : State) : (queueMessage m s).cmdHeld = s.cmdHeld := by
  unfold queueMessage
  simp
@[simp] theorem noteCore_cmdHeld (blk : Nat) (s : State) : (noteCore blk s).cmdHeld = s.cmdHeld := by
  unfold noteCore
  simp
@[simp] theorem report_cmdHeld (r : Report) (s : State) : (report r s).1.cmdHeld = s.cmdHeld := by
  unfold report
  dsimp only
  repeat' first | (with_reducible rfl) | (simp [*]; done) | split
@[simp] theorem yokeSend_cmdHeld (y : Nat) (load : YokeLoad) (s : State) : (yokeSend y load s).cmdHeld = s.cmdHeld := by
  unfold yokeSend
  simp
@[simp] theorem setRole_cmdHeld (role : Nat) (s : State) : (setRole role s).cmdHeld = s.cmdHeld := by
  unfold setRole
  simp
@[simp] theorem atMost_cmdHeld (blk inst kind sub d : Nat) (f : State → State) (s : State) (hf : ∀ b0, (f b0).cmdHeld = b0.cmdHeld) : (atMost blk inst kind sub d f s).cmdHeld = s.cmdHeld := by
  unfold atMost
  dsimp only
  repeat' first | (with_reducible rfl) | (simp [*]; done) | split
@[simp] theorem countSent_cmdHeld (p len : Nat) (s : State) : (countSent p len s).cmdHeld = s.cmdHeld := by
  unfold countSent
  simp
@[simp] theorem emitLine_cmdHeld (p n : Nat) (o : Nat → Out) (s : State) : (emitLine p n o s).cmdHeld = s.cmdHeld := by
  unfold emitLine
  simp
@[simp] theorem setTx_cmdHeld (p : Nat) (l : List TxFrame) (s : State) : (setTx p l s).cmdHeld = s.cmdHeld := by
  unfold setTx
  simp
@[simp] theorem originate_cmdHeld (p : Nat) (kind : Pdu) (args : List Nat) (len : Nat) (s : State) : (originate p kind args len s).cmdHeld = s.cmdHeld := by
  unfold originate
  simp
@[simp] theorem setLt_cmdHeld (k : Nat) (x : LinkTime) (s : State) : (setLt k x s).cmdHeld = s.cmdHeld := by
  unfold setLt
  simp
@[simp] theorem toAcquire_cmdHeld (s : State) : (toAcquire s).cmdHeld = s.cmdHeld := by
  unfold toAcquire
  simp
@[simp] theorem toFree_cmdHeld (s : State) : (toFree s).cmdHeld = s.cmdHeld := by
  unfold toFree
  simp
@[simp] theorem toHold_cmdHeld (forced : Bool) (s : State) : (toHold forced s).cmdHeld = s.cmdHeld := by
  unfold toHold
  simp
@[simp] theorem moveServo_cmdHeld (has : Bool) (s : State) : (moveServo has s).1.cmdHeld = s.cmdHeld := by
  unfold moveServo
  dsimp only
  repeat' first | (with_reducible rfl) | (simp [*]; done) | split
@[simp] theorem updateSource_cmdHeld (s : State) : (updateSource s).1.cmdHeld = s.cmdHeld := by
  unfold updateSource
  simp
@[simp] theorem updateRoot_cmdHeld (s : State) : (updateRoot s).cmdHeld = s.cmdHeld := by
  unfold updateRoot
  dsimp only
  repeat' first | (with_reducible rfl) | (simp [*]; done) | split
@[simp] theorem updateQuality_cmdHeld (s : State) : (updateQuality s).cmdHeld = s.cmdHeld := by
  unfold updateQuality
  repeat' first | (with_reducible rfl) | (simp [*]; done) | split
@[simp] theorem sendEsmc_cmdHeld (event : Bool) (p : Nat) (s : State) : (sendEsmc event p s).cmdHeld = s.cmdHeld := by
  unfold sendEsmc
  simp
@[simp] theorem updateRef_cmdHeld (s : State) : (updateRef s).cmdHeld = s.cmdHeld := by
  unfold updateRef
  simp
@[simp] theorem updateTime_cmdHeld (s : State) : (updateTime s).1.cmdHeld = s.cmdHeld := by
  unfold updateTime
  simp
@[simp] theorem enterSafe_cmdHeld (s : State) : (enterSafe s).cmdHeld = s.cmdHeld := by
  unfold enterSafe
  simp
@[simp] theorem raiseA_cmdHeld (r : Report) (s : State) : (raiseA r s).1.cmdHeld = s.cmdHeld := by
  unfold raiseA
  dsimp only
  repeat' first | (with_reducible rfl) | (simp [*]; done) | split
@[simp] theorem timeChanged_cmdHeld (s : State) : (timeChanged s).cmdHeld = s.cmdHeld := by
  unfold timeChanged
  simp
@[simp] theorem raise_cmdHeld (r : Report) (s : State) : (raise r s).cmdHeld = s.cmdHeld := by
  unfold raise
  simp
@[simp] theorem raiseAt_cmdHeld (blk inst kind : Nat) (k : Key) (s : State) : (raiseAt blk inst kind k s).cmdHeld = s.cmdHeld := by
  unfold raiseAt
  simp
@[simp] theorem raiseEach_cmdHeld (blk inst kind sub : Nat) (k : Key) (s : State) : (raiseEach blk inst kind sub k s).cmdHeld = s.cmdHeld := by
  unfold raiseEach
  simp
@[simp] theorem moveLink_cmdHeld (k st cause : Nat) (s : State) : (moveLink k st cause s).cmdHeld = s.cmdHeld := by
  unfold moveLink
  simp
/-- The parts of tfu that no fault message changes. -/
def State.tfuHeld (s : State) := (s.tfu.fas, s.tfu.mfas, s.tfu.outAt, s.tfu.presync, s.tfu.swapAt, s.tfu.taken, s.tfu.lostEnt, s.tfu.lomInst, s.tfu.msim, s.tfu.bdi, s.tfu.aisTrib, s.tfu.acting, s.tfu.failFrom, s.tfu.wtrEnd, s.tfu.runs, s.tfu.msiRun, s.tfu.pts, s.tfu.msi, s.tfu.pktTti, s.tfu.deg, s.tfu.csfAt, s.tfu.sent)

@[simp] theorem tfuHeld_mk (s : State) {x_regs x_fuses x_clock x_ct x_cmd x_bridge x_flt x_cnt x_eng x_tbl x_pat x_line x_msec x_buf x_que x_fab x_hbm x_time x_pair x_upd x_pwr x_out x_free x_pending} : (State.mk x_regs x_fuses x_clock x_ct x_cmd x_bridge x_flt x_cnt x_eng x_tbl x_pat x_line s.tfu x_msec x_buf x_que x_fab x_hbm x_time x_pair x_upd x_pwr x_out x_free x_pending).tfuHeld = s.tfuHeld := id rfl
@[simp] theorem tfuHeld_mk2 (s : State) {x_regs x_fuses x_clock x_ct x_cmd x_bridge x_flt x_cnt x_eng x_tbl x_pat x_line x_msec x_buf x_que x_fab x_hbm x_time x_pair x_upd x_pwr x_out x_free x_pending} {d_aisOdu} : (State.mk x_regs x_fuses x_clock x_ct x_cmd x_bridge x_flt x_cnt x_eng x_tbl x_pat x_line (Tfu.mk s.tfu.fas s.tfu.mfas s.tfu.outAt s.tfu.presync s.tfu.swapAt s.tfu.taken s.tfu.lostEnt s.tfu.lomInst s.tfu.msim s.tfu.bdi s.tfu.aisTrib d_aisOdu s.tfu.acting s.tfu.failFrom s.tfu.wtrEnd s.tfu.runs s.tfu.msiRun s.tfu.pts s.tfu.msi s.tfu.pktTti s.tfu.deg s.tfu.csfAt s.tfu.sent) x_msec x_buf x_que x_fab x_hbm x_time x_pair x_upd x_pwr x_out x_free x_pending).tfuHeld = s.tfuHeld := id rfl
theorem Told.tfuHeld {s t : State} (h : Told s t) : t.tfuHeld = s.tfuHeld := by rw [h.parts]; first | rfl | (rw [h.ring]; rfl)
@[simp] theorem ite_tfuHeld (c : Prop) [Decidable c] (a b : State) : (if c then a else b).tfuHeld = if c then a.tfuHeld else b.tfuHeld :=
  apply_ite State.tfuHeld c a b
@[simp] theorem forAll_tfuHeld {α : Type} (l : List α) (f : α → State → State) (s : State) (h : ∀ a s, (f a s).tfuHeld = s.tfuHeld) :
    (forAll l f s).tfuHeld = s.tfuHeld := forAll_same l f State.tfuHeld h s
@[simp] theorem wrWord_tfuHeld (s : State) (k : Key) (v : Nat) : (wrWord s k v).tfuHeld = s.tfuHeld := id rfl
@[simp] theorem wr_tfuHeld (s : State) (k : Key) (f : Fld) (v : Nat) : (wr s k f v).tfuHeld = s.tfuHeld := id rfl
@[simp] theorem mapF_tfuHeld (s : State) (k : Key) (f : Fld) (g : Nat → Nat) : (mapF s k f g).tfuHeld = s.tfuHeld := id rfl
@[simp] theorem satF_tfuHeld (s : State) (k : Key) (f : Fld) : (satF s k f).tfuHeld = s.tfuHeld := id rfl
@[simp] theorem emit_tfuHeld (s : State) (o : Out) : (emit s o).tfuHeld = s.tfuHeld := id rfl
@[simp] theorem setSess_tfuHeld (s : State) (n : Nat) (x : Sess) : (setSess s n x).tfuHeld = s.tfuHeld := id rfl
@[simp] theorem publish_tfuHeld (b : Nat) (r : TelRec) (s : State) : (publish b r s).tfuHeld = s.tfuHeld := (publish_told b r s).tfuHeld
@[simp] theorem stateEvent_tfuHeld (k : Key) (s : State) : (stateEvent k s).tfuHeld = s.tfuHeld := (stateEvent_told k s).tfuHeld
@[simp] theorem bump_tfuHeld (ty : ObjTy) (a b n : Nat) (s : State) : (bump ty a b n s).tfuHeld = s.tfuHeld := by
  rw [(bump_told ty a b n s).tfuHeld, wrWord_tfuHeld]
@[simp] theorem bumpBy_tfuHeld (k : Key) (n : Nat) (c : ObjAddr) (s : State) : (bumpBy k n c s).tfuHeld = s.tfuHeld := by
  rw [(bumpBy_told k n c s).tfuHeld, wrWord_tfuHeld]

@[simp] theorem setFl_tfuHeld (s : State) (k : Nat) (x : Fl) : (setFl s k x).tfuHeld = s.tfuHeld := by
  unfold setFl
  simp
@[simp] theorem floodRecord_tfuHeld (r : LinkRecord) (but : Option Nat) (s : State) : (floodRecord r but s).tfuHeld = s.tfuHeld := by
  unfold floodRecord
  simp
@[simp] theorem holdRecord_tfuHeld (s : State) (r : LinkRecord) : (holdRecord s r).tfuHeld = s.tfuHeld := by
  unfold holdRecord
  simp
@[simp] theorem genRecord_tfuHeld (s : State) : (genRecord s).tfuHeld = s.tfuHeld := by
  unfold genRecord
  simp
@[simp] theorem maskOut_tfuHeld (k : Nat) (s : State) : (maskOut k s).tfuHeld = s.tfuHeld := by
  unfold maskOut
  simp
@[simp] theorem returnCredits_tfuHeld (k : Nat) (s : State) : (returnCredits k s).tfuHeld = s.tfuHeld := by
  unfold returnCredits
  simp
@[simp] theorem freeSlot_tfuHeld (k vc : Nat) (s : State) : (freeSlot k vc s).tfuHeld = s.tfuHeld := by
  unfold freeSlot
  simp
@[simp] theorem leaveSlot_tfuHeld (slot : Option (Nat × Nat × Nat)) (s : State) : (leaveSlot slot s).tfuHeld = s.tfuHeld := by
  unfold leaveSlot
  repeat' first | (with_reducible rfl) | (simp [*]; done) | split
@[simp] theorem queueCell_tfuHeld (k : Nat) (c : FabCell) (s : State) : (queueCell k c s).tfuHeld = s.tfuHeld := by
  unfold queueCell
  simp
@[simp] theorem routeCell_tfuHeld (c : FabCell) (s : State) : (routeCell c s).tfuHeld = s.tfuHeld := by
  unfold routeCell
  repeat' first | (with_reducible rfl) | (simp [*]; done) | split
@[simp] theorem chooseAgain_tfuHeld (k : Nat) (c : FabCell) (s : State) : (chooseAgain k c s).tfuHeld = s.tfuHeld := by
  unfold chooseAgain
  dsimp only
  repeat' first | (with_reducible rfl) | (simp [*]; done) | split
@[simp] theorem enterLink_tfuHeld (k st cause : Nat) (s : State) : (enterLink k st cause s).tfuHeld = s.tfuHeld := by
  unfold enterLink
  simp
@[simp] theorem queueMessage_tfuHeld (m : FaultMsg) (s : State) : (queueMessage m s).tfuHeld = s.tfuHeld := by
  unfold queueMessage
  simp
@[simp] theorem noteCore_tfuHeld (blk : Nat) (s : State) : (noteCore blk s).tfuHeld = s.tfuHeld := by
  unfold noteCore
  simp
@[simp] theorem report_tfuHeld (r : Report) (s : State) : (report r s).1.tfuHeld = s.tfuHeld := by
  unfold report
  dsimp only
  repeat' first | (with_reducible rfl) | (simp [*]; done) | split
@[simp] theorem yokeSend_tfuHeld (y : Nat) (load : YokeLoad) (s : State) : (yokeSend y load s).tfuHeld = s.tfuHeld := by
  unfold yokeSend
  simp
@[simp] theorem setRole_tfuHeld (role : Nat) (s : State) : (setRole role s).tfuHeld = s.tfuHeld := by
  unfold setRole
  simp
@[simp] theorem atMost_tfuHeld (blk inst kind sub d : Nat) (f : State → State) (s : State) (hf : ∀ b0, (f b0).tfuHeld = b0.tfuHeld) : (atMost blk inst kind sub d f s).tfuHeld = s.tfuHeld := by
  unfold atMost
  dsimp only
  repeat' first | (with_reducible rfl) | (simp [*]; done) | split
@[simp] theorem countSent_tfuHeld (p len : Nat) (s : State) : (countSent p len s).tfuHeld = s.tfuHeld := by
  unfold countSent
  simp
@[simp] theorem emitLine_tfuHeld (p n : Nat) (o : Nat → Out) (s : State) : (emitLine p n o s).tfuHeld = s.tfuHeld := by
  unfold emitLine
  simp
@[simp] theorem setTx_tfuHeld (p : Nat) (l : List TxFrame) (s : State) : (setTx p l s).tfuHeld = s.tfuHeld := by
  unfold setTx
  simp
@[simp] theorem originate_tfuHeld (p : Nat) (kind : Pdu) (args : List Nat) (len : Nat) (s : State) : (originate p kind args len s).tfuHeld = s.tfuHeld := by
  unfold originate
  simp
@[simp] theorem setLt_tfuHeld (k : Nat) (x : LinkTime) (s : State) : (setLt k x s).tfuHeld = s.tfuHeld := by
  unfold setLt
  simp
@[simp] theorem toAcquire_tfuHeld (s : State) : (toAcquire s).tfuHeld = s.tfuHeld := by
  unfold toAcquire
  simp
@[simp] theorem toFree_tfuHeld (s : State) : (toFree s).tfuHeld = s.tfuHeld := by
  unfold toFree
  simp
@[simp] theorem toHold_tfuHeld (forced : Bool) (s : State) : (toHold forced s).tfuHeld = s.tfuHeld := by
  unfold toHold
  simp
@[simp] theorem moveServo_tfuHeld (has : Bool) (s : State) : (moveServo has s).1.tfuHeld = s.tfuHeld := by
  unfold moveServo
  dsimp only
  repeat' first | (with_reducible rfl) | (simp [*]; done) | split
@[simp] theorem updateSource_tfuHeld (s : State) : (updateSource s).1.tfuHeld = s.tfuHeld := by
  unfold updateSource
  simp
@[simp] theorem updateRoot_tfuHeld (s : State) : (updateRoot s).tfuHeld = s.tfuHeld := by
  unfold updateRoot
  dsimp only
  repeat' first | (with_reducible rfl) | (simp [*]; done) | split
@[simp] theorem updateQuality_tfuHeld (s : State) : (updateQuality s).tfuHeld = s.tfuHeld := by
  unfold updateQuality
  repeat' first | (with_reducible rfl) | (simp [*]; done) | split
@[simp] theorem sendEsmc_tfuHeld (event : Bool) (p : Nat) (s : State) : (sendEsmc event p s).tfuHeld = s.tfuHeld := by
  unfold sendEsmc
  simp
@[simp] theorem updateRef_tfuHeld (s : State) : (updateRef s).tfuHeld = s.tfuHeld := by
  unfold updateRef
  simp
@[simp] theorem updateTime_tfuHeld (s : State) : (updateTime s).1.tfuHeld = s.tfuHeld := by
  unfold updateTime
  simp
@[simp] theorem enterSafe_tfuHeld (s : State) : (enterSafe s).tfuHeld = s.tfuHeld := by
  unfold enterSafe
  simp
@[simp] theorem raiseA_tfuHeld (r : Report) (s : State) : (raiseA r s).1.tfuHeld = s.tfuHeld := by
  unfold raiseA
  dsimp only
  repeat' first | (with_reducible rfl) | (simp [*]; done) | split
@[simp] theorem timeChanged_tfuHeld (s : State) : (timeChanged s).tfuHeld = s.tfuHeld := by
  unfold timeChanged
  simp
@[simp] theorem raise_tfuHeld (r : Report) (s : State) : (raise r s).tfuHeld = s.tfuHeld := by
  unfold raise
  simp
@[simp] theorem raiseAt_tfuHeld (blk inst kind : Nat) (k : Key) (s : State) : (raiseAt blk inst kind k s).tfuHeld = s.tfuHeld := by
  unfold raiseAt
  simp
@[simp] theorem raiseEach_tfuHeld (blk inst kind sub : Nat) (k : Key) (s : State) : (raiseEach blk inst kind sub k s).tfuHeld = s.tfuHeld := by
  unfold raiseEach
  simp
@[simp] theorem moveLink_tfuHeld (k st cause : Nat) (s : State) : (moveLink k st cause s).tfuHeld = s.tfuHeld := by
  unfold moveLink
  simp
/-- The parts of que that no fault message changes. -/
def State.queHeld (s : State) := (s.que.queues, s.que.vtime, s.que.stag, s.que.held, s.que.buckets, s.que.gates, s.que.paused, s.que.inOcc, s.que.xoff, s.que.classNew, s.que.sampleQ, s.que.results, s.que.bands, s.que.rr, s.que.deficit)

@[simp] theorem queHeld_mk (s : State) {x_regs x_fuses x_clock x_ct x_cmd x_bridge x_flt x_cnt x_eng x_tbl x_pat x_line x_tfu x_msec x_buf x_fab x_hbm x_time x_pair x_upd x_pwr x_out x_free x_pending} : (State.mk x_regs x_fuses x_clock x_ct x_cmd x_bridge x_flt x_cnt x_eng x_tbl x_pat x_line x_tfu x_msec x_buf s.que x_fab x_hbm x_time x_pair x_upd x_pwr x_out x_free x_pending).queHeld = s.queHeld := id rfl
@[simp] theorem queHeld_mk2 (s : State) {x_regs x_fuses x_clock x_ct x_cmd x_bridge x_flt x_cnt x_eng x_tbl x_pat x_line x_tfu x_msec x_buf x_fab x_hbm x_time x_pair x_upd x_pwr x_out x_free x_pending} {d_tx} : (State.mk x_regs x_fuses x_clock x_ct x_cmd x_bridge x_flt x_cnt x_eng x_tbl x_pat x_line x_tfu x_msec x_buf (Que.mk s.que.queues s.que.vtime s.que.stag s.que.held s.que.buckets s.que.gates s.que.paused s.que.inOcc s.que.xoff s.que.classNew s.que.sampleQ s.que.results s.que.bands d_tx s.que.rr s.que.deficit) x_fab x_hbm x_time x_pair x_upd x_pwr x_out x_free x_pending).queHeld = s.queHeld := id rfl
theorem Told.queHeld {s t : State} (h : Told s t) : t.queHeld = s.queHeld := by rw [h.parts]; first | rfl | (rw [h.ring]; rfl)
@[simp] theorem ite_queHeld (c : Prop) [Decidable c] (a b : State) : (if c then a else b).queHeld = if c then a.queHeld else b.queHeld :=
  apply_ite State.queHeld c a b
@[simp] theorem forAll_queHeld {α : Type} (l : List α) (f : α → State → State) (s : State) (h : ∀ a s, (f a s).queHeld = s.queHeld) :
    (forAll l f s).queHeld = s.queHeld := forAll_same l f State.queHeld h s
@[simp] theorem wrWord_queHeld (s : State) (k : Key) (v : Nat) : (wrWord s k v).queHeld = s.queHeld := id rfl
@[simp] theorem wr_queHeld (s : State) (k : Key) (f : Fld) (v : Nat) : (wr s k f v).queHeld = s.queHeld := id rfl
@[simp] theorem mapF_queHeld (s : State) (k : Key) (f : Fld) (g : Nat → Nat) : (mapF s k f g).queHeld = s.queHeld := id rfl
@[simp] theorem satF_queHeld (s : State) (k : Key) (f : Fld) : (satF s k f).queHeld = s.queHeld := id rfl
@[simp] theorem emit_queHeld (s : State) (o : Out) : (emit s o).queHeld = s.queHeld := id rfl
@[simp] theorem setSess_queHeld (s : State) (n : Nat) (x : Sess) : (setSess s n x).queHeld = s.queHeld := id rfl
@[simp] theorem publish_queHeld (b : Nat) (r : TelRec) (s : State) : (publish b r s).queHeld = s.queHeld := (publish_told b r s).queHeld
@[simp] theorem stateEvent_queHeld (k : Key) (s : State) : (stateEvent k s).queHeld = s.queHeld := (stateEvent_told k s).queHeld
@[simp] theorem bump_queHeld (ty : ObjTy) (a b n : Nat) (s : State) : (bump ty a b n s).queHeld = s.queHeld := by
  rw [(bump_told ty a b n s).queHeld, wrWord_queHeld]
@[simp] theorem bumpBy_queHeld (k : Key) (n : Nat) (c : ObjAddr) (s : State) : (bumpBy k n c s).queHeld = s.queHeld := by
  rw [(bumpBy_told k n c s).queHeld, wrWord_queHeld]

@[simp] theorem setFl_queHeld (s : State) (k : Nat) (x : Fl) : (setFl s k x).queHeld = s.queHeld := by
  unfold setFl
  simp
@[simp] theorem floodRecord_queHeld (r : LinkRecord) (but : Option Nat) (s : State) : (floodRecord r but s).queHeld = s.queHeld := by
  unfold floodRecord
  simp
@[simp] theorem holdRecord_queHeld (s : State) (r : LinkRecord) : (holdRecord s r).queHeld = s.queHeld := by
  unfold holdRecord
  simp
@[simp] theorem genRecord_queHeld (s : State) : (genRecord s).queHeld = s.queHeld := by
  unfold genRecord
  simp
@[simp] theorem maskOut_queHeld (k : Nat) (s : State) : (maskOut k s).queHeld = s.queHeld := by
  unfold maskOut
  simp
@[simp] theorem returnCredits_queHeld (k : Nat) (s : State) : (returnCredits k s).queHeld = s.queHeld := by
  unfold returnCredits
  simp
@[simp] theorem freeSlot_queHeld (k vc : Nat) (s : State) : (freeSlot k vc s).queHeld = s.queHeld := by
  unfold freeSlot
  simp
@[simp] theorem leaveSlot_queHeld (slot : Option (Nat × Nat × Nat)) (s : State) : (leaveSlot slot s).queHeld = s.queHeld := by
  unfold leaveSlot
  repeat' first | (with_reducible rfl) | (simp [*]; done) | split
@[simp] theorem queueCell_queHeld (k : Nat) (c : FabCell) (s : State) : (queueCell k c s).queHeld = s.queHeld := by
  unfold queueCell
  simp
@[simp] theorem routeCell_queHeld (c : FabCell) (s : State) : (routeCell c s).queHeld = s.queHeld := by
  unfold routeCell
  repeat' first | (with_reducible rfl) | (simp [*]; done) | split
@[simp] theorem chooseAgain_queHeld (k : Nat) (c : FabCell) (s : State) : (chooseAgain k c s).queHeld = s.queHeld := by
  unfold chooseAgain
  dsimp only
  repeat' first | (with_reducible rfl) | (simp [*]; done) | split
@[simp] theorem enterLink_queHeld (k st cause : Nat) (s : State) : (enterLink k st cause s).queHeld = s.queHeld := by
  unfold enterLink
  simp
@[simp] theorem queueMessage_queHeld (m : FaultMsg) (s : State) : (queueMessage m s).queHeld = s.queHeld := by
  unfold queueMessage
  simp
@[simp] theorem noteCore_queHeld (blk : Nat) (s : State) : (noteCore blk s).queHeld = s.queHeld := by
  unfold noteCore
  simp
@[simp] theorem report_queHeld (r : Report) (s : State) : (report r s).1.queHeld = s.queHeld := by
  unfold report
  dsimp only
  repeat' first | (with_reducible rfl) | (simp [*]; done) | split
@[simp] theorem yokeSend_queHeld (y : Nat) (load : YokeLoad) (s : State) : (yokeSend y load s).queHeld = s.queHeld := by
  unfold yokeSend
  simp
@[simp] theorem setRole_queHeld (role : Nat) (s : State) : (setRole role s).queHeld = s.queHeld := by
  unfold setRole
  simp
@[simp] theorem atMost_queHeld (blk inst kind sub d : Nat) (f : State → State) (s : State) (hf : ∀ b0, (f b0).queHeld = b0.queHeld) : (atMost blk inst kind sub d f s).queHeld = s.queHeld := by
  unfold atMost
  dsimp only
  repeat' first | (with_reducible rfl) | (simp [*]; done) | split
@[simp] theorem countSent_queHeld (p len : Nat) (s : State) : (countSent p len s).queHeld = s.queHeld := by
  unfold countSent
  simp
@[simp] theorem emitLine_queHeld (p n : Nat) (o : Nat → Out) (s : State) : (emitLine p n o s).queHeld = s.queHeld := by
  unfold emitLine
  simp
@[simp] theorem setTx_queHeld (p : Nat) (l : List TxFrame) (s : State) : (setTx p l s).queHeld = s.queHeld := by
  unfold setTx
  simp
@[simp] theorem originate_queHeld (p : Nat) (kind : Pdu) (args : List Nat) (len : Nat) (s : State) : (originate p kind args len s).queHeld = s.queHeld := by
  unfold originate
  simp
@[simp] theorem setLt_queHeld (k : Nat) (x : LinkTime) (s : State) : (setLt k x s).queHeld = s.queHeld := by
  unfold setLt
  simp
@[simp] theorem toAcquire_queHeld (s : State) : (toAcquire s).queHeld = s.queHeld := by
  unfold toAcquire
  simp
@[simp] theorem toFree_queHeld (s : State) : (toFree s).queHeld = s.queHeld := by
  unfold toFree
  simp
@[simp] theorem toHold_queHeld (forced : Bool) (s : State) : (toHold forced s).queHeld = s.queHeld := by
  unfold toHold
  simp
@[simp] theorem moveServo_queHeld (has : Bool) (s : State) : (moveServo has s).1.queHeld = s.queHeld := by
  unfold moveServo
  dsimp only
  repeat' first | (with_reducible rfl) | (simp [*]; done) | split
@[simp] theorem updateSource_queHeld (s : State) : (updateSource s).1.queHeld = s.queHeld := by
  unfold updateSource
  simp
@[simp] theorem updateRoot_queHeld (s : State) : (updateRoot s).queHeld = s.queHeld := by
  unfold updateRoot
  dsimp only
  repeat' first | (with_reducible rfl) | (simp [*]; done) | split
@[simp] theorem updateQuality_queHeld (s : State) : (updateQuality s).queHeld = s.queHeld := by
  unfold updateQuality
  repeat' first | (with_reducible rfl) | (simp [*]; done) | split
@[simp] theorem sendEsmc_queHeld (event : Bool) (p : Nat) (s : State) : (sendEsmc event p s).queHeld = s.queHeld := by
  unfold sendEsmc
  simp
@[simp] theorem updateRef_queHeld (s : State) : (updateRef s).queHeld = s.queHeld := by
  unfold updateRef
  simp
@[simp] theorem updateTime_queHeld (s : State) : (updateTime s).1.queHeld = s.queHeld := by
  unfold updateTime
  simp
@[simp] theorem enterSafe_queHeld (s : State) : (enterSafe s).queHeld = s.queHeld := by
  unfold enterSafe
  simp
@[simp] theorem raiseA_queHeld (r : Report) (s : State) : (raiseA r s).1.queHeld = s.queHeld := by
  unfold raiseA
  dsimp only
  repeat' first | (with_reducible rfl) | (simp [*]; done) | split
@[simp] theorem timeChanged_queHeld (s : State) : (timeChanged s).queHeld = s.queHeld := by
  unfold timeChanged
  simp
@[simp] theorem raise_queHeld (r : Report) (s : State) : (raise r s).queHeld = s.queHeld := by
  unfold raise
  simp
@[simp] theorem raiseAt_queHeld (blk inst kind : Nat) (k : Key) (s : State) : (raiseAt blk inst kind k s).queHeld = s.queHeld := by
  unfold raiseAt
  simp
@[simp] theorem raiseEach_queHeld (blk inst kind sub : Nat) (k : Key) (s : State) : (raiseEach blk inst kind sub k s).queHeld = s.queHeld := by
  unfold raiseEach
  simp
@[simp] theorem moveLink_queHeld (k st cause : Nat) (s : State) : (moveLink k st cause s).queHeld = s.queHeld := by
  unfold moveLink
  simp
/-- The parts of upd that no fault message changes. -/
def State.updHeld (s : State) := (s.upd.leaseS, s.upd.leaseAt, s.upd.blocks, s.upd.staged, s.upd.slots, s.upd.dirSeq, s.upd.dirOld, s.upd.commit, s.upd.save, s.upd.act, s.upd.actDone, s.upd.actSlot, s.upd.actHdr, s.upd.confirmed, s.upd.healthAt, s.upd.verify, s.upd.trialBoot, s.upd.bootSlot, s.upd.bootAt, s.upd.bootBad, s.upd.fellBack)

@[simp] theorem updHeld_mk (s : State) {x_regs x_fuses x_clock x_ct x_cmd x_bridge x_flt x_cnt x_eng x_tbl x_pat x_line x_tfu x_msec x_buf x_que x_fab x_hbm x_time x_pair x_pwr x_out x_free x_pending} : (State.mk x_regs x_fuses x_clock x_ct x_cmd x_bridge x_flt x_cnt x_eng x_tbl x_pat x_line x_tfu x_msec x_buf x_que x_fab x_hbm x_time x_pair s.upd x_pwr x_out x_free x_pending).updHeld = s.updHeld := id rfl
@[simp] theorem updHeld_mk2 (s : State) {x_regs x_fuses x_clock x_ct x_cmd x_bridge x_flt x_cnt x_eng x_tbl x_pat x_line x_tfu x_msec x_buf x_que x_fab x_hbm x_time x_pair x_pwr x_out x_free x_pending} {d_coreFault} : (State.mk x_regs x_fuses x_clock x_ct x_cmd x_bridge x_flt x_cnt x_eng x_tbl x_pat x_line x_tfu x_msec x_buf x_que x_fab x_hbm x_time x_pair (Upd.mk s.upd.leaseS s.upd.leaseAt s.upd.blocks s.upd.staged s.upd.slots s.upd.dirSeq s.upd.dirOld s.upd.commit s.upd.save s.upd.act s.upd.actDone s.upd.actSlot s.upd.actHdr s.upd.confirmed s.upd.healthAt d_coreFault s.upd.verify s.upd.trialBoot s.upd.bootSlot s.upd.bootAt s.upd.bootBad s.upd.fellBack) x_pwr x_out x_free x_pending).updHeld = s.updHeld := id rfl
theorem Told.updHeld {s t : State} (h : Told s t) : t.updHeld = s.updHeld := by rw [h.parts]; first | rfl | (rw [h.ring]; rfl)
@[simp] theorem ite_updHeld (c : Prop) [Decidable c] (a b : State) : (if c then a else b).updHeld = if c then a.updHeld else b.updHeld :=
  apply_ite State.updHeld c a b
@[simp] theorem forAll_updHeld {α : Type} (l : List α) (f : α → State → State) (s : State) (h : ∀ a s, (f a s).updHeld = s.updHeld) :
    (forAll l f s).updHeld = s.updHeld := forAll_same l f State.updHeld h s
@[simp] theorem wrWord_updHeld (s : State) (k : Key) (v : Nat) : (wrWord s k v).updHeld = s.updHeld := id rfl
@[simp] theorem wr_updHeld (s : State) (k : Key) (f : Fld) (v : Nat) : (wr s k f v).updHeld = s.updHeld := id rfl
@[simp] theorem mapF_updHeld (s : State) (k : Key) (f : Fld) (g : Nat → Nat) : (mapF s k f g).updHeld = s.updHeld := id rfl
@[simp] theorem satF_updHeld (s : State) (k : Key) (f : Fld) : (satF s k f).updHeld = s.updHeld := id rfl
@[simp] theorem emit_updHeld (s : State) (o : Out) : (emit s o).updHeld = s.updHeld := id rfl
@[simp] theorem setSess_updHeld (s : State) (n : Nat) (x : Sess) : (setSess s n x).updHeld = s.updHeld := id rfl
@[simp] theorem publish_updHeld (b : Nat) (r : TelRec) (s : State) : (publish b r s).updHeld = s.updHeld := (publish_told b r s).updHeld
@[simp] theorem stateEvent_updHeld (k : Key) (s : State) : (stateEvent k s).updHeld = s.updHeld := (stateEvent_told k s).updHeld
@[simp] theorem bump_updHeld (ty : ObjTy) (a b n : Nat) (s : State) : (bump ty a b n s).updHeld = s.updHeld := by
  rw [(bump_told ty a b n s).updHeld, wrWord_updHeld]
@[simp] theorem bumpBy_updHeld (k : Key) (n : Nat) (c : ObjAddr) (s : State) : (bumpBy k n c s).updHeld = s.updHeld := by
  rw [(bumpBy_told k n c s).updHeld, wrWord_updHeld]

@[simp] theorem setFl_updHeld (s : State) (k : Nat) (x : Fl) : (setFl s k x).updHeld = s.updHeld := by
  unfold setFl
  simp
@[simp] theorem floodRecord_updHeld (r : LinkRecord) (but : Option Nat) (s : State) : (floodRecord r but s).updHeld = s.updHeld := by
  unfold floodRecord
  simp
@[simp] theorem holdRecord_updHeld (s : State) (r : LinkRecord) : (holdRecord s r).updHeld = s.updHeld := by
  unfold holdRecord
  simp
@[simp] theorem genRecord_updHeld (s : State) : (genRecord s).updHeld = s.updHeld := by
  unfold genRecord
  simp
@[simp] theorem maskOut_updHeld (k : Nat) (s : State) : (maskOut k s).updHeld = s.updHeld := by
  unfold maskOut
  simp
@[simp] theorem returnCredits_updHeld (k : Nat) (s : State) : (returnCredits k s).updHeld = s.updHeld := by
  unfold returnCredits
  simp
@[simp] theorem freeSlot_updHeld (k vc : Nat) (s : State) : (freeSlot k vc s).updHeld = s.updHeld := by
  unfold freeSlot
  simp
@[simp] theorem leaveSlot_updHeld (slot : Option (Nat × Nat × Nat)) (s : State) : (leaveSlot slot s).updHeld = s.updHeld := by
  unfold leaveSlot
  repeat' first | (with_reducible rfl) | (simp [*]; done) | split
@[simp] theorem queueCell_updHeld (k : Nat) (c : FabCell) (s : State) : (queueCell k c s).updHeld = s.updHeld := by
  unfold queueCell
  simp
@[simp] theorem routeCell_updHeld (c : FabCell) (s : State) : (routeCell c s).updHeld = s.updHeld := by
  unfold routeCell
  repeat' first | (with_reducible rfl) | (simp [*]; done) | split
@[simp] theorem chooseAgain_updHeld (k : Nat) (c : FabCell) (s : State) : (chooseAgain k c s).updHeld = s.updHeld := by
  unfold chooseAgain
  dsimp only
  repeat' first | (with_reducible rfl) | (simp [*]; done) | split
@[simp] theorem enterLink_updHeld (k st cause : Nat) (s : State) : (enterLink k st cause s).updHeld = s.updHeld := by
  unfold enterLink
  simp
@[simp] theorem queueMessage_updHeld (m : FaultMsg) (s : State) : (queueMessage m s).updHeld = s.updHeld := by
  unfold queueMessage
  simp
@[simp] theorem noteCore_updHeld (blk : Nat) (s : State) : (noteCore blk s).updHeld = s.updHeld := by
  unfold noteCore
  simp
@[simp] theorem report_updHeld (r : Report) (s : State) : (report r s).1.updHeld = s.updHeld := by
  unfold report
  dsimp only
  repeat' first | (with_reducible rfl) | (simp [*]; done) | split
@[simp] theorem yokeSend_updHeld (y : Nat) (load : YokeLoad) (s : State) : (yokeSend y load s).updHeld = s.updHeld := by
  unfold yokeSend
  simp
@[simp] theorem setRole_updHeld (role : Nat) (s : State) : (setRole role s).updHeld = s.updHeld := by
  unfold setRole
  simp
@[simp] theorem atMost_updHeld (blk inst kind sub d : Nat) (f : State → State) (s : State) (hf : ∀ b0, (f b0).updHeld = b0.updHeld) : (atMost blk inst kind sub d f s).updHeld = s.updHeld := by
  unfold atMost
  dsimp only
  repeat' first | (with_reducible rfl) | (simp [*]; done) | split
@[simp] theorem countSent_updHeld (p len : Nat) (s : State) : (countSent p len s).updHeld = s.updHeld := by
  unfold countSent
  simp
@[simp] theorem emitLine_updHeld (p n : Nat) (o : Nat → Out) (s : State) : (emitLine p n o s).updHeld = s.updHeld := by
  unfold emitLine
  simp
@[simp] theorem setTx_updHeld (p : Nat) (l : List TxFrame) (s : State) : (setTx p l s).updHeld = s.updHeld := by
  unfold setTx
  simp
@[simp] theorem originate_updHeld (p : Nat) (kind : Pdu) (args : List Nat) (len : Nat) (s : State) : (originate p kind args len s).updHeld = s.updHeld := by
  unfold originate
  simp
@[simp] theorem setLt_updHeld (k : Nat) (x : LinkTime) (s : State) : (setLt k x s).updHeld = s.updHeld := by
  unfold setLt
  simp
@[simp] theorem toAcquire_updHeld (s : State) : (toAcquire s).updHeld = s.updHeld := by
  unfold toAcquire
  simp
@[simp] theorem toFree_updHeld (s : State) : (toFree s).updHeld = s.updHeld := by
  unfold toFree
  simp
@[simp] theorem toHold_updHeld (forced : Bool) (s : State) : (toHold forced s).updHeld = s.updHeld := by
  unfold toHold
  simp
@[simp] theorem moveServo_updHeld (has : Bool) (s : State) : (moveServo has s).1.updHeld = s.updHeld := by
  unfold moveServo
  dsimp only
  repeat' first | (with_reducible rfl) | (simp [*]; done) | split
@[simp] theorem updateSource_updHeld (s : State) : (updateSource s).1.updHeld = s.updHeld := by
  unfold updateSource
  simp
@[simp] theorem updateRoot_updHeld (s : State) : (updateRoot s).updHeld = s.updHeld := by
  unfold updateRoot
  dsimp only
  repeat' first | (with_reducible rfl) | (simp [*]; done) | split
@[simp] theorem updateQuality_updHeld (s : State) : (updateQuality s).updHeld = s.updHeld := by
  unfold updateQuality
  repeat' first | (with_reducible rfl) | (simp [*]; done) | split
@[simp] theorem sendEsmc_updHeld (event : Bool) (p : Nat) (s : State) : (sendEsmc event p s).updHeld = s.updHeld := by
  unfold sendEsmc
  simp
@[simp] theorem updateRef_updHeld (s : State) : (updateRef s).updHeld = s.updHeld := by
  unfold updateRef
  simp
@[simp] theorem updateTime_updHeld (s : State) : (updateTime s).1.updHeld = s.updHeld := by
  unfold updateTime
  simp
@[simp] theorem enterSafe_updHeld (s : State) : (enterSafe s).updHeld = s.updHeld := by
  unfold enterSafe
  simp
@[simp] theorem raiseA_updHeld (r : Report) (s : State) : (raiseA r s).1.updHeld = s.updHeld := by
  unfold raiseA
  dsimp only
  repeat' first | (with_reducible rfl) | (simp [*]; done) | split
@[simp] theorem timeChanged_updHeld (s : State) : (timeChanged s).updHeld = s.updHeld := by
  unfold timeChanged
  simp
@[simp] theorem raise_updHeld (r : Report) (s : State) : (raise r s).updHeld = s.updHeld := by
  unfold raise
  simp
@[simp] theorem raiseAt_updHeld (blk inst kind : Nat) (k : Key) (s : State) : (raiseAt blk inst kind k s).updHeld = s.updHeld := by
  unfold raiseAt
  simp
@[simp] theorem raiseEach_updHeld (blk inst kind sub : Nat) (k : Key) (s : State) : (raiseEach blk inst kind sub k s).updHeld = s.updHeld := by
  unfold raiseEach
  simp
@[simp] theorem moveLink_updHeld (k st cause : Nat) (s : State) : (moveLink k st cause s).updHeld = s.updHeld := by
  unfold moveLink
  simp
/-- The parts of pwr that no fault message changes. -/
def State.pwrHeld (s : State) := (s.pwr.vin, s.pwr.vstby, s.pwr.nreset, s.pwr.rails, s.pwr.shed, s.pwr.unstarted, s.pwr.overAt, s.pwr.unmet, s.pwr.shedAt, s.pwr.restAt, s.pwr.limitAt, s.pwr.limited, s.pwr.hotAt, s.pwr.coolAt, s.pwr.fresh, s.pwr.steps, s.pwr.done, s.pwr.startAt, s.pwr.skipSet, s.pwr.hdr, s.pwr.toDevice, s.pwr.peerEmber)

@[simp] theorem pwrHeld_mk (s : State) {x_regs x_fuses x_clock x_ct x_cmd x_bridge x_flt x_cnt x_eng x_tbl x_pat x_line x_tfu x_msec x_buf x_que x_fab x_hbm x_time x_pair x_upd x_out x_free x_pending} : (State.mk x_regs x_fuses x_clock x_ct x_cmd x_bridge x_flt x_cnt x_eng x_tbl x_pat x_line x_tfu x_msec x_buf x_que x_fab x_hbm x_time x_pair x_upd s.pwr x_out x_free x_pending).pwrHeld = s.pwrHeld := id rfl
@[simp] theorem pwrHeld_mk2 (s : State) {x_regs x_fuses x_clock x_ct x_cmd x_bridge x_flt x_cnt x_eng x_tbl x_pat x_line x_tfu x_msec x_buf x_que x_fab x_hbm x_time x_pair x_upd x_out x_free x_pending} {d_ember d_pairAct} : (State.mk x_regs x_fuses x_clock x_ct x_cmd x_bridge x_flt x_cnt x_eng x_tbl x_pat x_line x_tfu x_msec x_buf x_que x_fab x_hbm x_time x_pair x_upd (Pwr.mk s.pwr.vin s.pwr.vstby s.pwr.nreset s.pwr.rails s.pwr.shed s.pwr.unstarted s.pwr.overAt s.pwr.unmet s.pwr.shedAt s.pwr.restAt s.pwr.limitAt s.pwr.limited s.pwr.hotAt s.pwr.coolAt s.pwr.fresh s.pwr.steps s.pwr.done s.pwr.startAt s.pwr.skipSet s.pwr.hdr s.pwr.toDevice d_ember d_pairAct s.pwr.peerEmber) x_out x_free x_pending).pwrHeld = s.pwrHeld := id rfl
theorem Told.pwrHeld {s t : State} (h : Told s t) : t.pwrHeld = s.pwrHeld := by rw [h.parts]; first | rfl | (rw [h.ring]; rfl)
@[simp] theorem ite_pwrHeld (c : Prop) [Decidable c] (a b : State) : (if c then a else b).pwrHeld = if c then a.pwrHeld else b.pwrHeld :=
  apply_ite State.pwrHeld c a b
@[simp] theorem forAll_pwrHeld {α : Type} (l : List α) (f : α → State → State) (s : State) (h : ∀ a s, (f a s).pwrHeld = s.pwrHeld) :
    (forAll l f s).pwrHeld = s.pwrHeld := forAll_same l f State.pwrHeld h s
@[simp] theorem wrWord_pwrHeld (s : State) (k : Key) (v : Nat) : (wrWord s k v).pwrHeld = s.pwrHeld := id rfl
@[simp] theorem wr_pwrHeld (s : State) (k : Key) (f : Fld) (v : Nat) : (wr s k f v).pwrHeld = s.pwrHeld := id rfl
@[simp] theorem mapF_pwrHeld (s : State) (k : Key) (f : Fld) (g : Nat → Nat) : (mapF s k f g).pwrHeld = s.pwrHeld := id rfl
@[simp] theorem satF_pwrHeld (s : State) (k : Key) (f : Fld) : (satF s k f).pwrHeld = s.pwrHeld := id rfl
@[simp] theorem emit_pwrHeld (s : State) (o : Out) : (emit s o).pwrHeld = s.pwrHeld := id rfl
@[simp] theorem setSess_pwrHeld (s : State) (n : Nat) (x : Sess) : (setSess s n x).pwrHeld = s.pwrHeld := id rfl
@[simp] theorem publish_pwrHeld (b : Nat) (r : TelRec) (s : State) : (publish b r s).pwrHeld = s.pwrHeld := (publish_told b r s).pwrHeld
@[simp] theorem stateEvent_pwrHeld (k : Key) (s : State) : (stateEvent k s).pwrHeld = s.pwrHeld := (stateEvent_told k s).pwrHeld
@[simp] theorem bump_pwrHeld (ty : ObjTy) (a b n : Nat) (s : State) : (bump ty a b n s).pwrHeld = s.pwrHeld := by
  rw [(bump_told ty a b n s).pwrHeld, wrWord_pwrHeld]
@[simp] theorem bumpBy_pwrHeld (k : Key) (n : Nat) (c : ObjAddr) (s : State) : (bumpBy k n c s).pwrHeld = s.pwrHeld := by
  rw [(bumpBy_told k n c s).pwrHeld, wrWord_pwrHeld]

@[simp] theorem setFl_pwrHeld (s : State) (k : Nat) (x : Fl) : (setFl s k x).pwrHeld = s.pwrHeld := by
  unfold setFl
  simp
@[simp] theorem floodRecord_pwrHeld (r : LinkRecord) (but : Option Nat) (s : State) : (floodRecord r but s).pwrHeld = s.pwrHeld := by
  unfold floodRecord
  simp
@[simp] theorem holdRecord_pwrHeld (s : State) (r : LinkRecord) : (holdRecord s r).pwrHeld = s.pwrHeld := by
  unfold holdRecord
  simp
@[simp] theorem genRecord_pwrHeld (s : State) : (genRecord s).pwrHeld = s.pwrHeld := by
  unfold genRecord
  simp
@[simp] theorem maskOut_pwrHeld (k : Nat) (s : State) : (maskOut k s).pwrHeld = s.pwrHeld := by
  unfold maskOut
  simp
@[simp] theorem returnCredits_pwrHeld (k : Nat) (s : State) : (returnCredits k s).pwrHeld = s.pwrHeld := by
  unfold returnCredits
  simp
@[simp] theorem freeSlot_pwrHeld (k vc : Nat) (s : State) : (freeSlot k vc s).pwrHeld = s.pwrHeld := by
  unfold freeSlot
  simp
@[simp] theorem leaveSlot_pwrHeld (slot : Option (Nat × Nat × Nat)) (s : State) : (leaveSlot slot s).pwrHeld = s.pwrHeld := by
  unfold leaveSlot
  repeat' first | (with_reducible rfl) | (simp [*]; done) | split
@[simp] theorem queueCell_pwrHeld (k : Nat) (c : FabCell) (s : State) : (queueCell k c s).pwrHeld = s.pwrHeld := by
  unfold queueCell
  simp
@[simp] theorem routeCell_pwrHeld (c : FabCell) (s : State) : (routeCell c s).pwrHeld = s.pwrHeld := by
  unfold routeCell
  repeat' first | (with_reducible rfl) | (simp [*]; done) | split
@[simp] theorem chooseAgain_pwrHeld (k : Nat) (c : FabCell) (s : State) : (chooseAgain k c s).pwrHeld = s.pwrHeld := by
  unfold chooseAgain
  dsimp only
  repeat' first | (with_reducible rfl) | (simp [*]; done) | split
@[simp] theorem enterLink_pwrHeld (k st cause : Nat) (s : State) : (enterLink k st cause s).pwrHeld = s.pwrHeld := by
  unfold enterLink
  simp
@[simp] theorem queueMessage_pwrHeld (m : FaultMsg) (s : State) : (queueMessage m s).pwrHeld = s.pwrHeld := by
  unfold queueMessage
  simp
@[simp] theorem noteCore_pwrHeld (blk : Nat) (s : State) : (noteCore blk s).pwrHeld = s.pwrHeld := by
  unfold noteCore
  simp
@[simp] theorem report_pwrHeld (r : Report) (s : State) : (report r s).1.pwrHeld = s.pwrHeld := by
  unfold report
  dsimp only
  repeat' first | (with_reducible rfl) | (simp [*]; done) | split
@[simp] theorem yokeSend_pwrHeld (y : Nat) (load : YokeLoad) (s : State) : (yokeSend y load s).pwrHeld = s.pwrHeld := by
  unfold yokeSend
  simp
@[simp] theorem setRole_pwrHeld (role : Nat) (s : State) : (setRole role s).pwrHeld = s.pwrHeld := by
  unfold setRole
  simp
@[simp] theorem atMost_pwrHeld (blk inst kind sub d : Nat) (f : State → State) (s : State) (hf : ∀ b0, (f b0).pwrHeld = b0.pwrHeld) : (atMost blk inst kind sub d f s).pwrHeld = s.pwrHeld := by
  unfold atMost
  dsimp only
  repeat' first | (with_reducible rfl) | (simp [*]; done) | split
@[simp] theorem countSent_pwrHeld (p len : Nat) (s : State) : (countSent p len s).pwrHeld = s.pwrHeld := by
  unfold countSent
  simp
@[simp] theorem emitLine_pwrHeld (p n : Nat) (o : Nat → Out) (s : State) : (emitLine p n o s).pwrHeld = s.pwrHeld := by
  unfold emitLine
  simp
@[simp] theorem setTx_pwrHeld (p : Nat) (l : List TxFrame) (s : State) : (setTx p l s).pwrHeld = s.pwrHeld := by
  unfold setTx
  simp
@[simp] theorem originate_pwrHeld (p : Nat) (kind : Pdu) (args : List Nat) (len : Nat) (s : State) : (originate p kind args len s).pwrHeld = s.pwrHeld := by
  unfold originate
  simp
@[simp] theorem setLt_pwrHeld (k : Nat) (x : LinkTime) (s : State) : (setLt k x s).pwrHeld = s.pwrHeld := by
  unfold setLt
  simp
@[simp] theorem toAcquire_pwrHeld (s : State) : (toAcquire s).pwrHeld = s.pwrHeld := by
  unfold toAcquire
  simp
@[simp] theorem toFree_pwrHeld (s : State) : (toFree s).pwrHeld = s.pwrHeld := by
  unfold toFree
  simp
@[simp] theorem toHold_pwrHeld (forced : Bool) (s : State) : (toHold forced s).pwrHeld = s.pwrHeld := by
  unfold toHold
  simp
@[simp] theorem moveServo_pwrHeld (has : Bool) (s : State) : (moveServo has s).1.pwrHeld = s.pwrHeld := by
  unfold moveServo
  dsimp only
  repeat' first | (with_reducible rfl) | (simp [*]; done) | split
@[simp] theorem updateSource_pwrHeld (s : State) : (updateSource s).1.pwrHeld = s.pwrHeld := by
  unfold updateSource
  simp
@[simp] theorem updateRoot_pwrHeld (s : State) : (updateRoot s).pwrHeld = s.pwrHeld := by
  unfold updateRoot
  dsimp only
  repeat' first | (with_reducible rfl) | (simp [*]; done) | split
@[simp] theorem updateQuality_pwrHeld (s : State) : (updateQuality s).pwrHeld = s.pwrHeld := by
  unfold updateQuality
  repeat' first | (with_reducible rfl) | (simp [*]; done) | split
@[simp] theorem sendEsmc_pwrHeld (event : Bool) (p : Nat) (s : State) : (sendEsmc event p s).pwrHeld = s.pwrHeld := by
  unfold sendEsmc
  simp
@[simp] theorem updateRef_pwrHeld (s : State) : (updateRef s).pwrHeld = s.pwrHeld := by
  unfold updateRef
  simp
@[simp] theorem updateTime_pwrHeld (s : State) : (updateTime s).1.pwrHeld = s.pwrHeld := by
  unfold updateTime
  simp
@[simp] theorem enterSafe_pwrHeld (s : State) : (enterSafe s).pwrHeld = s.pwrHeld := by
  unfold enterSafe
  simp
@[simp] theorem raiseA_pwrHeld (r : Report) (s : State) : (raiseA r s).1.pwrHeld = s.pwrHeld := by
  unfold raiseA
  dsimp only
  repeat' first | (with_reducible rfl) | (simp [*]; done) | split
@[simp] theorem timeChanged_pwrHeld (s : State) : (timeChanged s).pwrHeld = s.pwrHeld := by
  unfold timeChanged
  simp
@[simp] theorem raise_pwrHeld (r : Report) (s : State) : (raise r s).pwrHeld = s.pwrHeld := by
  unfold raise
  simp
@[simp] theorem raiseAt_pwrHeld (blk inst kind : Nat) (k : Key) (s : State) : (raiseAt blk inst kind k s).pwrHeld = s.pwrHeld := by
  unfold raiseAt
  simp
@[simp] theorem raiseEach_pwrHeld (blk inst kind sub : Nat) (k : Key) (s : State) : (raiseEach blk inst kind sub k s).pwrHeld = s.pwrHeld := by
  unfold raiseEach
  simp
@[simp] theorem moveLink_pwrHeld (k st cause : Nat) (s : State) : (moveLink k st cause s).pwrHeld = s.pwrHeld := by
  unfold moveLink
  simp
/-- The parts of cnt that no fault message changes. -/
def State.cntHeld (s : State) := (s.cnt.ring, s.cnt.nextNo, s.cnt.unwritten, s.cnt.skipped, s.cnt.mirrors)

@[simp] theorem cntHeld_mk (s : State) {x_regs x_fuses x_clock x_ct x_cmd x_bridge x_flt x_eng x_tbl x_pat x_line x_tfu x_msec x_buf x_que x_fab x_hbm x_time x_pair x_upd x_pwr x_out x_free x_pending} : (State.mk x_regs x_fuses x_clock x_ct x_cmd x_bridge x_flt s.cnt x_eng x_tbl x_pat x_line x_tfu x_msec x_buf x_que x_fab x_hbm x_time x_pair x_upd x_pwr x_out x_free x_pending).cntHeld = s.cntHeld := id rfl
@[simp] theorem cntHeld_mk2 (s : State) {x_regs x_fuses x_clock x_ct x_cmd x_bridge x_flt x_eng x_tbl x_pat x_line x_tfu x_msec x_buf x_que x_fab x_hbm x_time x_pair x_upd x_pwr x_out x_free x_pending} {d_samples} : (State.mk x_regs x_fuses x_clock x_ct x_cmd x_bridge x_flt (Cnt.mk s.cnt.ring s.cnt.nextNo s.cnt.unwritten s.cnt.skipped s.cnt.mirrors d_samples) x_eng x_tbl x_pat x_line x_tfu x_msec x_buf x_que x_fab x_hbm x_time x_pair x_upd x_pwr x_out x_free x_pending).cntHeld = s.cntHeld := id rfl
theorem Told.cntHeld {s t : State} (h : Told s t) : t.cntHeld = s.cntHeld := by rw [h.parts]; first | rfl | (rw [h.ring]; rfl)
@[simp] theorem ite_cntHeld (c : Prop) [Decidable c] (a b : State) : (if c then a else b).cntHeld = if c then a.cntHeld else b.cntHeld :=
  apply_ite State.cntHeld c a b
@[simp] theorem forAll_cntHeld {α : Type} (l : List α) (f : α → State → State) (s : State) (h : ∀ a s, (f a s).cntHeld = s.cntHeld) :
    (forAll l f s).cntHeld = s.cntHeld := forAll_same l f State.cntHeld h s
@[simp] theorem wrWord_cntHeld (s : State) (k : Key) (v : Nat) : (wrWord s k v).cntHeld = s.cntHeld := id rfl
@[simp] theorem wr_cntHeld (s : State) (k : Key) (f : Fld) (v : Nat) : (wr s k f v).cntHeld = s.cntHeld := id rfl
@[simp] theorem mapF_cntHeld (s : State) (k : Key) (f : Fld) (g : Nat → Nat) : (mapF s k f g).cntHeld = s.cntHeld := id rfl
@[simp] theorem satF_cntHeld (s : State) (k : Key) (f : Fld) : (satF s k f).cntHeld = s.cntHeld := id rfl
@[simp] theorem emit_cntHeld (s : State) (o : Out) : (emit s o).cntHeld = s.cntHeld := id rfl
@[simp] theorem setSess_cntHeld (s : State) (n : Nat) (x : Sess) : (setSess s n x).cntHeld = s.cntHeld := id rfl
@[simp] theorem publish_cntHeld (b : Nat) (r : TelRec) (s : State) : (publish b r s).cntHeld = s.cntHeld := (publish_told b r s).cntHeld
@[simp] theorem stateEvent_cntHeld (k : Key) (s : State) : (stateEvent k s).cntHeld = s.cntHeld := (stateEvent_told k s).cntHeld
@[simp] theorem bump_cntHeld (ty : ObjTy) (a b n : Nat) (s : State) : (bump ty a b n s).cntHeld = s.cntHeld := by
  rw [(bump_told ty a b n s).cntHeld, wrWord_cntHeld]
@[simp] theorem bumpBy_cntHeld (k : Key) (n : Nat) (c : ObjAddr) (s : State) : (bumpBy k n c s).cntHeld = s.cntHeld := by
  rw [(bumpBy_told k n c s).cntHeld, wrWord_cntHeld]

@[simp] theorem setFl_cntHeld (s : State) (k : Nat) (x : Fl) : (setFl s k x).cntHeld = s.cntHeld := by
  unfold setFl
  simp
@[simp] theorem floodRecord_cntHeld (r : LinkRecord) (but : Option Nat) (s : State) : (floodRecord r but s).cntHeld = s.cntHeld := by
  unfold floodRecord
  simp
@[simp] theorem holdRecord_cntHeld (s : State) (r : LinkRecord) : (holdRecord s r).cntHeld = s.cntHeld := by
  unfold holdRecord
  simp
@[simp] theorem genRecord_cntHeld (s : State) : (genRecord s).cntHeld = s.cntHeld := by
  unfold genRecord
  simp
@[simp] theorem maskOut_cntHeld (k : Nat) (s : State) : (maskOut k s).cntHeld = s.cntHeld := by
  unfold maskOut
  simp
@[simp] theorem returnCredits_cntHeld (k : Nat) (s : State) : (returnCredits k s).cntHeld = s.cntHeld := by
  unfold returnCredits
  simp
@[simp] theorem freeSlot_cntHeld (k vc : Nat) (s : State) : (freeSlot k vc s).cntHeld = s.cntHeld := by
  unfold freeSlot
  simp
@[simp] theorem leaveSlot_cntHeld (slot : Option (Nat × Nat × Nat)) (s : State) : (leaveSlot slot s).cntHeld = s.cntHeld := by
  unfold leaveSlot
  repeat' first | (with_reducible rfl) | (simp [*]; done) | split
@[simp] theorem queueCell_cntHeld (k : Nat) (c : FabCell) (s : State) : (queueCell k c s).cntHeld = s.cntHeld := by
  unfold queueCell
  simp
@[simp] theorem routeCell_cntHeld (c : FabCell) (s : State) : (routeCell c s).cntHeld = s.cntHeld := by
  unfold routeCell
  repeat' first | (with_reducible rfl) | (simp [*]; done) | split
@[simp] theorem chooseAgain_cntHeld (k : Nat) (c : FabCell) (s : State) : (chooseAgain k c s).cntHeld = s.cntHeld := by
  unfold chooseAgain
  dsimp only
  repeat' first | (with_reducible rfl) | (simp [*]; done) | split
@[simp] theorem enterLink_cntHeld (k st cause : Nat) (s : State) : (enterLink k st cause s).cntHeld = s.cntHeld := by
  unfold enterLink
  simp
@[simp] theorem queueMessage_cntHeld (m : FaultMsg) (s : State) : (queueMessage m s).cntHeld = s.cntHeld := by
  unfold queueMessage
  simp
@[simp] theorem noteCore_cntHeld (blk : Nat) (s : State) : (noteCore blk s).cntHeld = s.cntHeld := by
  unfold noteCore
  simp
@[simp] theorem report_cntHeld (r : Report) (s : State) : (report r s).1.cntHeld = s.cntHeld := by
  unfold report
  dsimp only
  repeat' first | (with_reducible rfl) | (simp [*]; done) | split
@[simp] theorem yokeSend_cntHeld (y : Nat) (load : YokeLoad) (s : State) : (yokeSend y load s).cntHeld = s.cntHeld := by
  unfold yokeSend
  simp
@[simp] theorem setRole_cntHeld (role : Nat) (s : State) : (setRole role s).cntHeld = s.cntHeld := by
  unfold setRole
  simp
@[simp] theorem atMost_cntHeld (blk inst kind sub d : Nat) (f : State → State) (s : State) (hf : ∀ b0, (f b0).cntHeld = b0.cntHeld) : (atMost blk inst kind sub d f s).cntHeld = s.cntHeld := by
  unfold atMost
  dsimp only
  repeat' first | (with_reducible rfl) | (simp [*]; done) | split
@[simp] theorem countSent_cntHeld (p len : Nat) (s : State) : (countSent p len s).cntHeld = s.cntHeld := by
  unfold countSent
  simp
@[simp] theorem emitLine_cntHeld (p n : Nat) (o : Nat → Out) (s : State) : (emitLine p n o s).cntHeld = s.cntHeld := by
  unfold emitLine
  simp
@[simp] theorem setTx_cntHeld (p : Nat) (l : List TxFrame) (s : State) : (setTx p l s).cntHeld = s.cntHeld := by
  unfold setTx
  simp
@[simp] theorem originate_cntHeld (p : Nat) (kind : Pdu) (args : List Nat) (len : Nat) (s : State) : (originate p kind args len s).cntHeld = s.cntHeld := by
  unfold originate
  simp
@[simp] theorem setLt_cntHeld (k : Nat) (x : LinkTime) (s : State) : (setLt k x s).cntHeld = s.cntHeld := by
  unfold setLt
  simp
@[simp] theorem toAcquire_cntHeld (s : State) : (toAcquire s).cntHeld = s.cntHeld := by
  unfold toAcquire
  simp
@[simp] theorem toFree_cntHeld (s : State) : (toFree s).cntHeld = s.cntHeld := by
  unfold toFree
  simp
@[simp] theorem toHold_cntHeld (forced : Bool) (s : State) : (toHold forced s).cntHeld = s.cntHeld := by
  unfold toHold
  simp
@[simp] theorem moveServo_cntHeld (has : Bool) (s : State) : (moveServo has s).1.cntHeld = s.cntHeld := by
  unfold moveServo
  dsimp only
  repeat' first | (with_reducible rfl) | (simp [*]; done) | split
@[simp] theorem updateSource_cntHeld (s : State) : (updateSource s).1.cntHeld = s.cntHeld := by
  unfold updateSource
  simp
@[simp] theorem updateRoot_cntHeld (s : State) : (updateRoot s).cntHeld = s.cntHeld := by
  unfold updateRoot
  dsimp only
  repeat' first | (with_reducible rfl) | (simp [*]; done) | split
@[simp] theorem updateQuality_cntHeld (s : State) : (updateQuality s).cntHeld = s.cntHeld := by
  unfold updateQuality
  repeat' first | (with_reducible rfl) | (simp [*]; done) | split
@[simp] theorem sendEsmc_cntHeld (event : Bool) (p : Nat) (s : State) : (sendEsmc event p s).cntHeld = s.cntHeld := by
  unfold sendEsmc
  simp
@[simp] theorem updateRef_cntHeld (s : State) : (updateRef s).cntHeld = s.cntHeld := by
  unfold updateRef
  simp
@[simp] theorem updateTime_cntHeld (s : State) : (updateTime s).1.cntHeld = s.cntHeld := by
  unfold updateTime
  simp
@[simp] theorem enterSafe_cntHeld (s : State) : (enterSafe s).cntHeld = s.cntHeld := by
  unfold enterSafe
  simp
@[simp] theorem raiseA_cntHeld (r : Report) (s : State) : (raiseA r s).1.cntHeld = s.cntHeld := by
  unfold raiseA
  dsimp only
  repeat' first | (with_reducible rfl) | (simp [*]; done) | split
@[simp] theorem timeChanged_cntHeld (s : State) : (timeChanged s).cntHeld = s.cntHeld := by
  unfold timeChanged
  simp
@[simp] theorem raise_cntHeld (r : Report) (s : State) : (raise r s).cntHeld = s.cntHeld := by
  unfold raise
  simp
@[simp] theorem raiseAt_cntHeld (blk inst kind : Nat) (k : Key) (s : State) : (raiseAt blk inst kind k s).cntHeld = s.cntHeld := by
  unfold raiseAt
  simp
@[simp] theorem raiseEach_cntHeld (blk inst kind sub : Nat) (k : Key) (s : State) : (raiseEach blk inst kind sub k s).cntHeld = s.cntHeld := by
  unfold raiseEach
  simp
@[simp] theorem moveLink_cntHeld (k st cause : Nat) (s : State) : (moveLink k st cause s).cntHeld = s.cntHeld := by
  unfold moveLink
  simp

end Sys2Proof.Machine
end

