-- ==== Sys2Proof/Laws/Clauses.lean ====
section
/-! SUPPORT. Counting, telling and raising in the words the claims are stated in. -/
set_option linter.all false
namespace Sys2Proof.Machine

open Sys2Proof

theorem RegsKept.refl (l : List ObjTy) (s : State) : Safety.RegsKept l s s := fun _ _ => rfl
theorem RegsKept.trans {l : List ObjTy} {s t u : State} (h : Safety.RegsKept l s t) (g : Safety.RegsKept l t u) : Safety.RegsKept l s u :=
  fun k hk => (g k hk).trans (h k hk)
theorem RegsKept.mono {l m : List ObjTy} {s t : State} (h : Safety.RegsKept l s t) (hm : ∀ x ∈ l, x ∈ m) : Safety.RegsKept m s t :=
  fun k hk => h k fun e => hk (hm _ e)
theorem RegsKept.rd {l : List ObjTy} {s t : State} (h : Safety.RegsKept l s t) {k : Key} (hk : k.ty ∉ l) (f : Fld) :
    Machine.rd t k f = Machine.rd s k f := by unfold Machine.rd; rw [h k hk]

/-- Counting counts. -/
theorem counted_bump (ty : ObjTy) (a b n : Nat) (s : State) (h : ty ∉ Safety.telling) : Safety.Counted ty a b n s (bump ty a b n s) :=
  bump_self ty a b n s h
/-- See `counted_bump`. -/
theorem kept_bump (ty : ObjTy) (a b n : Nat) (s : State) : Safety.RegsKept (ty :: Safety.telling) s (bump ty a b n s) := by
  intro k hk
  simp only [List.mem_cons, not_or] at hk
  exact bump_other ty a b n s k (fun e => hk.1 (by rw [e]; rfl)) hk.2
/-- See `counted_bump`. -/
theorem told_bump (ty : ObjTy) (a b n : Nat) (s : State) : Safety.Told s (bump ty a b n s) := by
  have h := bump_told ty a b n s
  have hp := h.parts
  have hr := h.ring
  unfold Safety.Told
  generalize bump ty a b n s = t at *
  generalize t.regs = r at *
  generalize t.cmd.sess = c at *
  generalize t.cmd.puntQ = q at *
  generalize t.out = o at *
  rw [hp]
  simp only [wrWord]
  rw [hr]
  rfl

theorem Safety.Told.trans {r s t : State} (h : Safety.Told r s) (g : Safety.Told s t) : Safety.Told r t := by
  unfold Safety.Told at *
  generalize t.cmd.sess = c at *
  generalize t.cmd.puntQ = q at *
  generalize t.regs = a at *
  generalize t.cnt.samples = b at *
  generalize t.out = d at *
  rw [g, h]

theorem told_publish (b : Nat) (r : TelRec) (s : State) : Safety.Told s (publish b r s) := by
  have h := publish_told b r s
  have hp := h.parts
  have hr := h.ring
  unfold Safety.Told
  generalize publish b r s = t at *
  generalize t.regs = r at *
  generalize t.cmd.sess = c at *
  generalize t.cmd.puntQ = q at *
  generalize t.out = o at *
  rw [hp]
  rw [hr]
theorem kept_publish (b : Nat) (r : TelRec) (s : State) : Safety.RegsKept Safety.telling s (publish b r s) :=
  (publish_told b r s).regs
theorem told_stateEvent (k : Key) (s : State) : Safety.Told s (stateEvent k s) := told_publish _ _ _
theorem kept_stateEvent (k : Key) (s : State) : Safety.RegsKept Safety.telling s (stateEvent k s) := kept_publish _ _ _

theorem kept_raise (r : Report) (s : State) : Safety.RegsKept Safety.raising s (raise r s) := fun k hk => by
  simp [show k.ty ∉ raiseTypes from hk]
theorem kept_raiseAt (a b c : Nat) (k : Key) (s : State) : Safety.RegsKept Safety.raising s (raiseAt a b c k s) := fun k hk => by
  simp [show k.ty ∉ raiseTypes from hk]
theorem kept_raiseEach (a b c d : Nat) (k : Key) (s : State) : Safety.RegsKept Safety.raising s (raiseEach a b c d k s) := fun k hk => by
  simp [show k.ty ∉ raiseTypes from hk]
theorem kept_timeChanged (s : State) : Safety.RegsKept Safety.raising s (timeChanged s) := fun k hk => by
  simp [show k.ty ∉ raiseTypes from hk]
theorem kept_moveLink (a b c : Nat) (s : State) : Safety.RegsKept Safety.raising s (moveLink a b c s) := fun k hk => by
  simp [show k.ty ∉ raiseTypes from hk]
theorem kept_wr (s : State) (k : Key) (f : Fld) (v : Nat) (l : List ObjTy) (h : k.ty ∈ l) : Safety.RegsKept l s (wr s k f v) := fun j hj =>
  rdWord_wr_ne s f v (by rintro rfl; exact hj h)
theorem kept_wrWord (s : State) (k : Key) (v : Nat) (l : List ObjTy) (h : k.ty ∈ l) : Safety.RegsKept l s (wrWord s k v) := fun j hj =>
  rdWord_wrWord_ne s v (by rintro rfl; exact hj h)

/-- See `counted_bump`: counting after a change that leaves the counter. -/
theorem counted_from {ty : ObjTy} {a b n : Nat} {s s' : State} (h : ty ∉ Safety.telling)
    (e : rdWord s' (Safety.counter ty a b) = rdWord s (Safety.counter ty a b)) : Safety.Counted ty a b n s (bump ty a b n s') := by
  have g := counted_bump ty a b n s' h
  unfold Safety.Counted at g ⊢
  rw [g, e]
/-- See `counted_bump`: what is kept, after a change that keeps it. -/
theorem kept_from {l : List ObjTy} {s s' t : State} (h : Safety.RegsKept l s' t) (e : ∀ k, k.ty ∉ l → rdWord s' k = rdWord s k) :
    Safety.RegsKept l s t := fun k hk => (h k hk).trans (e k hk)

/-- Two counters of a type whose objects hold one each. -/
theorem counter_ne (ty : ObjTy) {a b : Nat} (hn : (descOf ty).n2 = 1) (h : a ≠ b) : Safety.counter ty a 0 ≠ Safety.counter ty b 0 := by
  intro e
  have e := congrArg Key.idx e
  simp only [Safety.counter, obj, hn] at e
  omega
/-- Two counters of one object. -/
theorem counter_ne2 (ty : ObjTy) (a : Nat) {i j : Nat} (h : i ≠ j) : Safety.counter ty a i ≠ Safety.counter ty a j := by
  intro e
  have e := congrArg Key.idx e
  simp only [Safety.counter, obj] at e
  omega
/-- Counting one counter leaves another of its type. -/
theorem bump_ne {ty : ObjTy} {a b n : Nat} {s : State} {k : Key} (hk : k ≠ Safety.counter ty a b) (h : k.ty ∉ Safety.telling) :
    rdWord (bump ty a b n s) k = rdWord s k := bump_other ty a b n s k hk h

theorem raise_waiting (r : Report) (s : State) : (raise r s).cmd.waiting = s.cmd.waiting := congrArg (·.1) (raise_cmdHeld r s)

/-- Counting leaves a session as it was but for the records that wait. -/
theorem bump_sess (ty : ObjTy) (a b n : Nat) (s : State) (m : Nat) : (getSess (bump ty a b n s) m).quiet = (getSess s m).quiet :=
  (bump_told ty a b n s).sess m

/-! ## Objects by type: what a write, a count and a message leave -/

@[simp] theorem mem_telling (ty : ObjTy) : ty ∈ Safety.telling ↔ ty = .perfCnt ∨ ty = .lostCtr ∨ ty = .cntCtr ∨ ty = .sessStatus := by
  simp [Safety.telling]
@[simp] theorem mem_raiseTypes (ty : ObjTy) : ty ∈ raiseTypes ↔ ty ∈ Safety.raising := Iff.rfl
@[simp] theorem mem_raising (ty : ObjTy) : ty ∈ Safety.raising ↔ ty = .reaction ∨ ty = .fltStatus ∨ ty = .fltCtr ∨ ty = .flStatus ∨
    ty = .flCtr ∨ ty = .flTime ∨ ty = .rtCtr ∨ ty = .route ∨ ty = .trCtr ∨ ty = .lpCtr ∨ ty = .tmStatus ∨ ty = .tmCtr ∨ ty = .prStatus ∨
    ty = .perfCnt ∨ ty = .lostCtr ∨ ty = .cntCtr ∨ ty = .sessStatus := by
  simp [Safety.raising]
@[simp] theorem counter_ty (ty : ObjTy) (a b : Nat) : (Safety.counter ty a b).ty = ty := id rfl
@[simp] theorem rdWord_wr_ty (s : State) (k j : Key) (f : Fld) (v : Nat) (h : j.ty ≠ k.ty) : rdWord (wr s k f v) j = rdWord s j :=
  rdWord_wr_ne s f v (by rintro rfl; exact h rfl)
@[simp] theorem rdWord_wrWord_ty (s : State) (k j : Key) (v : Nat) (h : j.ty ≠ k.ty) : rdWord (wrWord s k v) j = rdWord s j :=
  rdWord_wrWord_ne s v (by rintro rfl; exact h rfl)
@[simp] theorem rdWord_bump_ty (ty : ObjTy) (a b n : Nat) (s : State) (k : Key) (h : k.ty ≠ ty) (ht : k.ty ∉ Safety.telling) :
    rdWord (bump ty a b n s) k = rdWord s k := bump_other ty a b n s k (by rintro rfl; exact h rfl) ht
@[simp] theorem rd_wr_ty (s : State) (k j : Key) (f g : Fld) (v : Nat) (h : j.ty ≠ k.ty) : rd (wr s k f v) j g = rd s j g := by
  simp [rd, h]
@[simp] theorem rd_wrWord_ty (s : State) (k j : Key) (g : Fld) (v : Nat) (h : j.ty ≠ k.ty) : rd (wrWord s k v) j g = rd s j g := by
  simp [rd, h]
@[simp] theorem rd_bump_ty (ty : ObjTy) (a b n : Nat) (s : State) (k : Key) (f : Fld) (h : k.ty ≠ ty) (ht : k.ty ∉ Safety.telling) :
    rd (bump ty a b n s) k f = rd s k f := by unfold rd; rw [rdWord_bump_ty _ _ _ _ _ _ h ht]
@[simp] theorem rdWord_mapF_ty (s : State) (k j : Key) (f : Fld) (g : Nat → Nat) (h : j.ty ≠ k.ty) : rdWord (mapF s k f g) j = rdWord s j :=
  rdWord_wr_ty s k j f _ h
@[simp] theorem rd_mapF_ty (s : State) (k j : Key) (f e : Fld) (g : Nat → Nat) (h : j.ty ≠ k.ty) : rd (mapF s k f g) j e = rd s j e :=
  rd_wr_ty s k j f e _ h
@[simp] theorem rdWord_satF_ty (s : State) (k j : Key) (f : Fld) (h : j.ty ≠ k.ty) : rdWord (satF s k f) j = rdWord s j :=
  rdWord_wr_ty s k j f _ h
@[simp] theorem rd_satF_ty (s : State) (k j : Key) (f e : Fld) (h : j.ty ≠ k.ty) : rd (satF s k f) j e = rd s j e :=
  rd_wr_ty s k j f e _ h
/-- A counter that another of its type is not. -/
theorem rdWord_bump_counter (ty : ObjTy) (a b i j n : Nat) (s : State) (h : Safety.counter ty a b ≠ Safety.counter ty i j) (ht : ty ∉ Safety.telling) :
    rdWord (bump ty i j n s) (Safety.counter ty a b) = rdWord s (Safety.counter ty a b) := bump_ne h ht

end Sys2Proof.Machine
end

