-- ==== Sys2Proof/Laws/Memory.lean ====
section
/-! SUPPORT. The memory of the HBM stacks: reading after writing, and the canonical form that every write keeps. -/
namespace Sys2Proof.Machine

/-! ## The bytes of an HBM stack (R395, R396) -/

/-- A write of a byte keeps the canonical form of the memory. -/
theorem memWrite_wf (m : List Host.Cell) (a : Nat) (b : Byte) (h : Memory.wf m) : Memory.wf (memWrite m a b) := by
  have hs : tabSorted m = true := by simpa [tabSorted] using h.1
  refine ⟨of_decide_eq_true (tabSet_sorted m a b memDefault hs), fun e he => ?_⟩
  unfold memWrite tabSet at he
  split at he
  · exact h.2 e (List.mem_filter.mp he).1
  · rcases tabPut_mem m a b e he with rfl | he
    · assumption
    · exact h.2 e he

/-- So does a write of many. -/
theorem memStore_wf (bs : Bytes) (m : List Host.Cell) (a : Nat) (h : Memory.wf m) : Memory.wf (memStore m a bs) := by
  induction bs generalizing m a with
  | nil => exact h
  | cons b r ih => exact ih _ _ (memWrite_wf m a b h)

/-- A byte read where it was written. -/
@[simp] theorem memRead_write_self (m : List Host.Cell) (a : Nat) (b : Byte) : memRead (memWrite m a b) a = b := by
  simp [memRead, memWrite]

/-- A byte read anywhere else. -/
@[simp] theorem memRead_write_ne (m : List Host.Cell) {a c : Nat} (b : Byte) (h : c ≠ a) :
    memRead (memWrite m a b) c = memRead m c := by
  simp [memRead, memWrite, h]

/-- A store of many bytes leaves every byte outside them as it was. -/
theorem memRead_store_ne (bs : Bytes) (m : List Host.Cell) (a c : Nat) (h : c < a ∨ a + bs.length ≤ c) :
    memRead (memStore m a bs) c = memRead m c := by
  induction bs generalizing m a with
  | nil => rfl
  | cons b r ih =>
    simp only [List.length_cons] at h
    rw [show memStore m a (b :: r) = memStore (memWrite m a b) (a + 1) r from rfl, ih _ _ (by omega),
      memRead_write_ne _ _ (by omega)]

end Sys2Proof.Machine
end

