-- ==== Sys2Proof/Tests/Slice0.lean ====
section
/-! SUPPORT. Tests: ill-formed commands, the decoder, small results, and for every obligation with hypotheses a state and operands that meet
the hypotheses of each of its clauses together. -/
set_option linter.all false
set_option Elab.async false
namespace Sys2Proof.Tests
open Sys2Proof.Machine

/-! ## States for the witnesses -/

/-- The command that the witnesses send: session 0, SEQ 5. -/
def hd : Hdr := ⟨0, 5⟩
/-- A command of an opcode with a length, accepted and not yet in effect. -/
def waits (op plen : Nat) : Waiting := ⟨hd, .ma, 2, op, 0, plen, plen + 8, true, 0, .queued⟩
/-- Both channels of the bridge up. -/
def bridged (s : State) : State := wr (wr s brgKey (chanFld 0) 1) brgKey (chanFld 1) 1
/-- Command-ready, both channels of the bridge up, and session 0 open with every access type. -/
def up : State :=
  wr (wr (wr (wr (bridged State.reset) rstKey RstStatus.READY 1) (sessKey 0) SessStatus.STATE 2) (sessKey 0) SessStatus.GRANTED 31)
    (sessKey 0) SessStatus.NEXT_SEQ 1
/-- A state in which one command waits. -/
def ask (w : Waiting) (s : State) : State := { s with cmd := { s.cmd with waiting := [w] } }
/-- One field set over a state. -/
def fld (k : Key) (f : Fld) (v : Nat) (s : State) : State := wr s k f v
/-- A change of what session 0 keeps. -/
def sess0 (x : Sess) (s : State) : State := setSess s 0 x
/-- A command frame of session 0, and an open request, 64 B each, without a tag. -/
def bareFrame (kind : BitVec 8) : JutosFrame :=
  { fcsOk := true, len := 64, dst := 0, src := 0x42, vids := [], etherType := 0x88B5, version := 1, kind := kind,
    session := if kind = 3 then 0xFF else 0, frag := 1, seq := 5, bodyLen := 8, reserved := 0, tag := none, op := 0x0102, res := 0,
    plen := 0 }
/-- The same frame, sealed under keys of zeros. -/
def frame (kind : BitVec 8) : JutosFrame := { bareFrame kind with tag := some (sealOfFrame ⟨0, 0⟩ (bareFrame kind)) }
/-- The base point of P-384. -/
def point : BitVec 776 :=
  0x04aa87ca22be8b05378eb1c71ef320ad746e1d3b628ba79b9859f741e082542a385502f25dbf55296c3a545e3872760ab73617de4a96262c6f5d9e98bf9292dc29f8f41dbd289a147ce9da3113b5f0b8c00a60b1ce1d7e819d7a431d7c90ea0e5f
/-- An open request for every access type. -/
def openReq : OpenReq :=
  { bodyLen := 326, openVer := 1, access := 63, reserved := 0, hostNonce := 7, hostEph := point, opKey := point, opSig := 0 }
/-- Two programmed operator keys. -/
def keyed : State :=
  wr (wr (wr up (obj .opKey 1) OpKey.STATE 1) (obj .opKey 2) OpKey.STATE 1) (obj .opKey 1) OpKey.DIGEST 9
/-- The reassembly of a session's second fragment. -/
def reasm : Reasm := ⟨5, 4, 2, [0], .ma, 2, 0x0202, 0, 12, 20, 0⟩
/-- Nothing but an untagged frame. -/
def plainContent : Content :=
  { etherType := 0x0800, opcode := 0, pfcEn := 0, quanta := [], tag := none, toPtp := false, window := 0 }
/-- The first bytes of an IPv4 frame without options to UDP port 3784. -/
def bfdWindow : BitVec 2048 := 0x0800 * 2 ^ 1936 + 0x45 * 2 ^ 1928 + 17 * 2 ^ 1856 + 3784 * 2 ^ 1744
/-- A fuse write of a slot and of SECVER_MIN. -/
def fuseWrite (slots : List (Nat × Nat)) (v : Option Nat) : FuseWrite := ⟨some hd, slots, v, 0⟩
/-- A punt. -/
def puntOf : Punt := ⟨3, 2, 0, false, false, 0, 0, 64, 64, 0⟩
/-- The state after a step. -/
def stepped (s : State) : State := match step s with | .next t => t | _ => s
/-- Command-ready with the supply stable. -/
def upStable : State := wr up (obj .pwrStatus) PwrStatus.STABLE 1
/-- A reference to packet 1, and the packet. -/
def refOf (n : Nat) : Ref :=
  { pkt := n, lease := false, tc := 0, len := 64, prec := 0, mirror := none, words := [], group := none, occ := false, page := none, qseq := 0,
    from_ := ownerNone }
/-- See `refOf`. -/
def pktOf : Packet :=
  { desc := 11, len := 64, arrival := 0, since := 0, arrPort := 3, words := [], tc := 0, pool := 0, node := 0, port := 0, leases := 0,
    freePending := false, bad := false, owner := ownerNone, staged := false, billets := [], mark := 0, inject := false, copied := false, hash := 0,
    content := plainContent }
/-- A READY thread at address 0, every register 3. -/
def thr : Thread :=
  { hold := .ready, pc := 0, g := List.replicate 16 3, win := 0, words := List.replicate 8 0, z := false, c := false, n := false, m := false,
    e := false, t := true, l := false, o := false, stack := [], egress := false, ref := refOf 1, outPort := 0, started := 0, bank := 0,
    epoch := 0, patBank := none, look := none, outcome := none, meter := none, hash := 0, mirrors := [], cause := 0, no := 0 }
/-- A cluster whose image holds four microwords and four nanowords; address 0 holds one with RD 1, RA 2, RB 3 and IMM 5. -/
def clusterOf (nano : Nat) : Cluster :=
  { Cluster.empty with image := [(0, 4 * 2 ^ 1872 + 4 * 2 ^ 1856)], banks := [⟨0, [(0, 0x1230005)], [(0, nano)]⟩, ⟨0, [], []⟩] }
/-- Thread 7 of cluster 0 in a state. -/
def running (nano : Nat) (x : Thread) (s : State) : State :=
  wr { s with eng := { s.eng with threads := [(7, x)], clusters := [(0, clusterOf nano)] } } (clKey 0) ClCtl.STATE csRunning
/-- The word of `clusterOf`. -/
def word : Micro := Micro.ofWord 0x1230005
/-- A lookup outstanding. -/
def lookup (u : LUnit) (ph : LookPhase) : Look :=
  { unit := u, klen := 0, key := [3, 4, 5], raBig := false, imm := 0, rd := 9, win := 0, phase := ph }
/-- As many threads of cluster 1 with a request accepted by a unit, in the order of their numbers. -/
def crowd (u : LUnit) (n : Nat) (s : State) : State :=
  { s with eng := { s.eng with threads := s.eng.threads ++ (List.range n).map fun i => (512 + i, { thr with look := some (lookup u .accepted) }) } }
/-- A record of cluster 2, and cluster 2 in a state of STATE. -/
def inCl (x : Cluster) (st : Nat) (s : State) : State :=
  wr { s with eng := { s.eng with clusters := [(2, x)] } } (clKey 2) ClCtl.STATE st
/-- A reload of cluster 2 from slot 0. -/
def reload (ph : ReloadPhase) : Reload := ⟨0, 0, 0, none, false, ph⟩
/-- Cluster 2 with a reload. -/
def reloading (ph : ReloadPhase) (st : Nat) (s : State) : State := inCl { clusterOf 0 with reload := some (reload ph) } st s
/-- Cluster 2 has issued 57,600,000 EC cycles within the last 1 ms, all that it can. -/
def busyLoad (s : State) : State := { s with eng := { s.eng with issueLog := [(2, [(0, 57600000)])] } }
/-- A staged patch of cluster 2 with no words, under a DIGEST. -/
def patched (digest : Nat) (s : State) : State :=
  wrWord s (obj .patchStage 16) (0x56584550 * 2 ^ 2016 + 2 ^ 2000 + 2 ^ 1592 + digest * 2 ^ 1152)
/-- The SHA-384 of its first 64 bytes. -/
def patchDigest : Nat := 0x714f661e9ddd491295415c94bada07369e873b83c93ca9918057993e6df59d8b35ddcf5092fca4f362badab7b4aab425
/-- Bank b holds a rule image of one rule and one line. -/
def imaged (b set0 : Nat) (s : State) : State :=
  wrWord s (winKey b 0) (0x56585041 * 2 ^ 2016 + 2 ^ 2000 + 2 ^ 1920 + 2 ^ 1888 + set0 * 2 ^ 1408)
/-- That image of bank 0 without sets, under its DIGEST. -/
def digested (s : State) : State :=
  wrWord (imaged 0 0 s) (winKey 0 1792)
    0x3852768293b76513ffbc9861a7f3c5b12b2dcc993ae9d1b83d5de5ccce273fb54393cee6aa4381701c347add2be76237
/-- The shadow sweep is under way. -/
def sweeping (s : State) : State := { s with pat := { s.pat with sweepFrom := some 0 } }
/-- Both PAT banks in states. -/
def banks (a b : Nat) (s : State) : State := wr (wr s patS PatStatus.BANK0 a) patS PatStatus.BANK1 b
/-- Line port 2 in a mode, administratively up with its condition, in a state of LINK, its module read or being read. -/
def port2 (mode link : Nat) (s : State) : State :=
  wr (wr (wr (wr { s with line := { s.line with cond := [2] } } (lpK 2) LpCtl.MODE mode) (lpK 2) LpCtl.ADMIN_UP 1) (lpS 2) LpStatus.LINK link)
    (lpS 2) LpStatus.ID_STATE 1
/-- Line port 2 of Ethernet, up. -/
def lineUp : State := port2 3 lkUp up
/-- A good frame of 64 B. -/
def goodFrame (c : Content) : LineFrame :=
  { len := 64, bad64 := false, fecBad := false, pcsBad := false, fcsOk := true, bufBad := false, fecWords := 0, fecSyms := 0, ring := [], da := 1, sa := 2, sec := none, content := c }
/-- A frame that waits for the MAC. -/
def txPacket : TxFrame :=
  { body := .packet (refOf 1) 0 none 7, tc := 3, len := 64, win := 0, missed := none, no := none, open_ := false, bad := false }
/-- Line port 2 up with that frame waiting. -/
def sending : State := { lineUp with que := { lineUp.que with tx := [(2, [txPacket])] } }
/-- An aggregator of ports 2, enabled and active. -/
def joined (s : State) : State :=
  wr (wr (wr (wr s (lpS 2) LpStatus.AGG 4) (agK 4) AggCtl.EN 1) (agK 4) AggCtl.ACTIVE 1) (agK 4) AggCtl.MEMBERS 4
/-- A good BFD packet for discriminator 9. -/
def bfdPacket : BfdPacket :=
  { version := 1, lenOk := true, mult := 3, myDisc := 5, yourDisc := 9, aBit := false, mBit := false, poll := false, final := false,
    state := 1, ttl := 255, srcAddr := 0, dmti := 1, rmri := 1 }
/-- BFD session 7 enabled on port 2, with discriminator 9. -/
def bfd7 (s : State) : State :=
  wr (wr (wr s (bfK 7) BfdSess.ADMIN 1) (bfK 7) BfdSess.MY_DISC 9) (bfK 7) BfdSess.PORT 2
/-- A partner. -/
def lacpdu : Lacpdu := ⟨1, 2, 3, 4, true, true, true⟩
/-- What waits for the services of port 2. -/
def waitingIn (divert slow : Nat) (s : State) : State := { s with line := { s.line with divertQ := [(2, divert)], slowQ := [(2, slow)] } }
/-- The module of port 2 lies alone on bus 1, channel 1. -/
def optics : State :=
  wr (wr { lineUp with line := { lineUp.line with reading := [17], retries := [(17, 3)] } } (lpK 2) LpCtl.MOD_BUS 1) (lpK 2) LpCtl.MOD_CH 1
/-- Line port 2 framed, with four packet slots, in a GFP state. -/
def framed (gfp : Nat) (s : State) : State :=
  wr (wr (port2 5 lkUp s) (frS 2) FrStatus.PKT_SLOTS 4) (frS 2) FrStatus.GFP_STATE gfp
/-- A good GFP frame. -/
def gfp : GfpFrame :=
  { chec := .ok, pli := 64, thec := .ok, pti := 0, upi := 1, exi := 0, pfcsOk := true, cut := false, bufBad := false, frame := goodFrame plainContent }
/-- A good OTUC frame. -/
def otu : OtuFrame :=
  { inst := 3, fasOk := false, mfasOk := true, smBip := 8, pmBip := 1, pktBip := 0, smBei := 8, pmBei := 1, pktBei := 0, gmpCrcBad := false,
    smBdi := false, smIae := false, pmBdi := false, pmStat := 1, pktBdi := false, pktStat := 1, smTti := none, pmTti := none, pktTti := none, psi := none, pktPt := none, slots := [], tribBad := some 5, entryBad := none }
/-- Protection group 4 of ports 2 and 4, both framed, the first LOS and the second as given. -/
def group4 (w p : Nat) (s : State) : State :=
  wr (wr (wr (wr (wr (wr (framed 2 s) (lpK 4) LpCtl.MODE 5) (grK 4) ProtGrp.EN 1) (grK 4) ProtGrp.WORK 2) (grK 4) ProtGrp.PROT 4)
    (frS 2) FrStatus.LOS w) (frS 4) FrStatus.LOS p
/-- The swap of pages in a state. -/
def swap (st : Nat) (s : State) : State := wr { s with tfu := { s.tfu with swapAt := some 5 } } tfuK TfuCtl.SWAP_STATE st
/-- Parameters of a transmit SA of port 2 in slot 7. -/
def saParams : SaParams :=
  { paramLen := 88, cls := 1, slot := 7, suite := 1, dir := 1, port := 2, an := 0, sci := 0, ssci := 0, initPn := 1, thresh := 0, key := 5, salt := 0,
    resOk := true }
/-- MSEC seeded, with SA slot 7 of a direction in a state, for port 2. -/
def sa7 (dir st : Nat) (s : State) : State :=
  wr (wr (wr (wr s msS MsStatus.DRBG_STATE 1) (saK 7) SaSlot.STATE st) (saK 7) SaSlot.DIR dir) (saK 7) SaSlot.PORT 2
/-- A change of slot 7 that drains. -/
def draining (w : Option SaParams) (s : State) : State :=
  { s with msec := { s.msec with drains := [(7, [⟨some hd, w, false⟩])] } }
/-- MACsec on port 2, protecting. -/
def secured (s : State) : State := wr (wr s (msK 2) MsPort.EN 1) (msK 2) MsPort.PROTECT 1
/-- MKA on port 2 with CAK slot 9 VALID, CKN 6, and a participant. -/
def mka2 (x : Mka) (s : State) : State :=
  wr (wr (wr (wr { s with msec := { s.msec with mka := [(9, x)] } } msS MsStatus.DRBG_STATE 1) (msK 2) MsPort.MKA_EN 1) (cakK 9) CakSlot.STATE 1)
    (cakK 9) CakSlot.CKN 6
/-- A good MKPDU of member 8. -/
def mkpdu : Mkpdu :=
  { wellFormed := true, ckn := 6, icvOk := true, member := 8, sci := 4, mn := 2, prio := 0, live := true, sakSuite := none, sak := 0,
    rxInstalled := false, txUnder := false }
/-- A SecTAG with PN 3 and an explicit SCI. -/
def secTag : SecTag :=
  { v := false, es := false, sc := true, e := false, c := false, slOk := true, fits := true, an := 0, pn := 3, sci := 4, icvOk := true, window := 0 }
/-- A unicast destination of PORT 5 and TC 3. -/
def dest (node : Nat) : Nat := 2 ^ 61 + node * 2 ^ 49 + 5 * 2 ^ 43 + 3
/-- A pass result of packet 1 for PORT 5 of a node. -/
def result (node : Nat) (m : Option (Nat × Nat)) : PassResult := { pkt := 1, next := dest node, meter := m, hash := 0 }
/-- Packet 1 stored, and a pass result of it first. -/
def passed (node : Nat) (m : Option (Nat × Nat)) (s : State) : State :=
  putPkt 1 pktOf { s with que := { s.que with results := [result node m] } }
/-- Meter 6 enabled with two bucket depths. -/
def metered (cbs pbs : Nat) (s : State) : State :=
  wr (wr (wr s (obj .meter 6) Meter.EN 1) (obj .meter 6) Meter.CBS cbs) (obj .meter 6) Meter.PBS pbs
/-- An arrival port's class under XOFF with an occupancy. -/
def underXoff (port tc n : Nat) (s : State) : State :=
  { s with que := { s.que with xoff := [(8 * port + tc, 0)], inOcc := [(8 * port + tc, n)] } }
/-- A gate list in force on port 2, in an entry of three. -/
def gateIn (i : Nat) (s : State) : State :=
  wr (setGate 2 { checking := none, pending := none, start := 0, entry := i, count := 3, base := 0, restart := none } s) (gateKey 2) GateCtl.IN_FORCE 1
/-- Port 2 with one duration in its admin list, and the list under check. -/
def gateCheck (d : Nat) (s : State) : State :=
  wrWord { s with que := { s.que with gates := [(2, { checking := some (hd, putF (putF 0 GateCtl.EN 1) GateCtl.COUNT 1), pending := none, start := 0, entry := 0, count := 0, base := 0, restart := none })] } }
    (obj .gateList 16) (d * 2 ^ 2016)
/-- A page with packet 1, in a phase. -/
def pageOf (ph : PagePhase) : Page := { handle := 8, pool := 0, imgs := [⟨refOf 1, pktOf⟩], flushed := true, phase := ph }
/-- Queue 9 spilled, with a profile, pages and a tail. -/
def spilled (pages : List Page) (tail : List Ref) (s : State) : State :=
  wr (wr (wr (wr (setQ 9 { Queue.empty with spilled := true, pages := pages, tail := tail } s) (obj .qSpill 9) QSpill.PROFILE 1)
    (obj .peatStatus) PeatStatus.READY 1) (obj .peatStatus) PeatStatus.PAGES_FREE 4) (poolK 0) PoolCtl.PAGE_LIMIT 5
/-- The states of HQ0 to HQ3. -/
def hqStates (a b c d : Nat) (s : State) : State :=
  wr (wr (wr (wr s (obj .hbStatus 2) HbStatus.STATE a) (obj .hbStatus 3) HbStatus.STATE b) (obj .hbStatus 4) HbStatus.STATE c) (obj .hbStatus 5) HbStatus.STATE d
/-- A class 1 plan of four nodes, of which this one is node 1. -/
def plan4 : Plan := { cls := 1, sx := 4, sy := 0, sz := 0, dbl := 0, addr := 1, valid := true }
/-- Link 2 of node 1, towards node 3, administratively up and in a state. -/
def link2 (st : Nat) (s : State) : State :=
  wr (wr (wr { s with fab := { s.fab with plan := plan4, inc := 5, incs := [(3, 6)] } } fabK FabSet.CABLE_CHECK 0) (flC 2) FlCtl.ADMIN_UP 1)
    (flKey 2) FlStatus.STATE st
/-- What link 2 keeps beside its objects. -/
def fl2 (x : Fl) (s : State) : State := setFl s 2 x
/-- The hello that node 3 sends over link 2. -/
def hello3 : Hello :=
  { serial := 77, addr := 3, addrValid := true, link := 1, planHash := BitVec.ofNat 32 (planHash plan4), cableCrc := 0 }
/-- A record of node 3, with the link to node 1 up. -/
def record3 (time : Nat) : LinkRecord := { addr := 3, serial := 77, time := time, mask := 2, inc := 6 }
/-- The plan with link 2 up and node 3 reached over it. -/
def meshed (s : State) : State :=
  wr (wr { link2 lsUp s with fab := { (link2 lsUp s).fab with records := [(3, [⟨record3 1, 0⟩])] } } (routeKey 3) Route.DIST 1) (routeKey 3) Route.MIN_MASK 4
/-- A good cell from node 3 to node 1, port 3, class 2, the second of its record. -/
def cell3 : Cell :=
  { type := 0, hops := 0, derouted := 0, tc := 2, copy := false, src := 3, dst := 1, port := 3, seq := 0, recOff := 255, endOff := 0,
    credVc := 0, credN := 0, hcrcOk := true, poison := false, crcOk := true, fecBad := false, fecCor := 0, payload := 1000 * 2 ^ 1904 }
/-- A cell that waits for a link. -/
def waitCell : FabCell := ⟨{ cell3 with dst := 3, src := 1 }, [], none, false⟩
/-- Link 2 with a cell, its virtual channel without credit or with it. -/
def queued (spent : Tab Nat) : Fl := { Fl.reset with cells := [waitCell], spent := spent }
/-- The destination's stream of node 3, port 3, class 2. -/
def dst3 (x : DstStream) (s : State) : State := setDst (voqOf 3 3 2) x s
/-- The frame of packet 1 is still arriving on port 2. -/
def arriving1 (s : State) : State :=
  { s with line := { s.line with arriving := [(2, [⟨goodFrame plainContent, .deliver 64 plainContent, true, [1], true⟩])] } }
/-- A stream whose packet 1 is open. -/
def opened : SrcStream := { SrcStream.zero with open_ := some (refOf 1, 0) }
/-- The source's stream to node 3, port 3, class 2. -/
def src3 (x : SrcStream) (s : State) : State := setSrc (voqOf 3 3 2) x s
/-- A packet at the head of a queue. -/
def headed (q : Nat) (p : Packet) (s : State) : State := putPkt 1 p (setQ q { Queue.empty with head := [refOf 1] } s)
/-- Group 0 with member 3. -/
def group0 (s : State) : State := wrWord s (obj .memMask 1) (2 ^ 3)
/-- A credit message of node 3 for port 3, class 2. -/
def credit3 (port : BitVec 8) (inc : BitVec 16) : CreditMsg :=
  { peer := 3, tc := 2, port := port, backlog := 9, value := 0, nextSeq := 0, inc := 6, peerInc := inc }
/-- HQ stack 1 ready, with what its controller holds. -/
def hbm1 (x : Stack) (s : State) : State :=
  wr (wr (setStack 1 x s) (hbS 1) HbStatus.STATE 1) (hbR 1 3) HbReq.PRESENT 1
/-- A request of requester 3 for pseudo-channel 3, bank 0, row 0. -/
def hbmReq (w : Bool) : HbmReq := ⟨3, w, 3 * 2 ^ 10, 5⟩
/-- It is held. -/
def hbmHeld (w issued : Bool) : HbmHeld := ⟨0, hbmReq w, 1, false, 0, 0, issued, false⟩
/-- The controller holds that one request. -/
def holding (w issued : Bool) : Stack := { Stack.idle with reqs := [hbmHeld w issued] }
/-- Nothing of the sort heard on a port. -/
def portTime (m : Option PtpMsg) : PortTime :=
  { master := m, divert := 1, msgAt := [], esmcAt := [], listened := true, syncRx := none, down := none, annAt := 0, corrWas := none }
/-- Port 2 with the clock service. -/
def ptp2 (x : PortTime) (s : State) : State := wr (wr (setPt 2 x (port2 3 lkUp s)) (ptC 2) PtCtl.PTP_MODE 1) (ptS 2) PtStatus.CAL 1
/-- A good message of a type, in the domain of the profile. -/
def ptpMsg (t : BitVec 4) : PtpMsg :=
  { msgType := t, fieldsOk := true, domain := BitVec.ofNat 8 (rd State.reset tmC TmCtl.DOMAIN), stepsRemoved := 1, clockClass := 6, clockId := 8, gm := 8,
    matched := false, accuracy := 0, variance := 0, priority2 := 0, traceTime := true, traceFreq := true, utc := 37, twoStep := true,
    sent := 0, arrived := 9, signal := .none }
/-- The servo in a state, on the root. -/
def servoIn (v : Nat) (s : State) : State := wr (wr s tmS TmStatus.SERVO v) tmS TmStatus.FT_STATE 1
/-- A change of what TIME holds. -/
def timed (f : Time → Time) (s : State) : State := { s with time := f s.time }
/-- A root word of node 3 that is better than a clock of its own. -/
def root3 : RootWord :=
  { crcOk := true, ftPrio := 0, cls := 6, accuracy := 0, variance := 0, prio2 := 0, gm := 8, steps := 0, root := 3, hops := 0, seq := 1, flags := 0, utc := 37 }
/-- What TIME holds of link 2. -/
def linkTime (words sent : Nat) (r : Option RootWord) : LinkTime :=
  { words := words, sum := 0, offset := none, root := r, sent := sent, last := none, rootFrom := 0, rootAt := 0 }
/-- Link 2 in a state, with that. -/
def timeLink (x : LinkTime) (st : Nat) (s : State) : State := setLt 2 x (link2 st s)
/-- The node takes its time from the fabric. -/
def started (s : State) : State := { s with fab := { s.fab with started := true } }
/-- A time word. -/
def timeWord (ok : Bool) (t1 : Int) : TimeWord := ⟨ok, t1, 0, 7, 9⟩
/-- The pair runs in a mode, in a role and a state of SYNC, with both Yoke links up. -/
def paired (mode r sync : Nat) (s : State) : State :=
  wr (wr (wr (wr (wr s prC PrCtl.PAIR_EN 1) prC PrCtl.MODE mode) prS PrStatus.ROLE r) prS PrStatus.SYNC sync) prS PrStatus.YOKE_UP 3
/-- A good block of the peer, unit B, in order. -/
def yoke (r : BitVec 3) (l : YokeLoad) : YokeBlock := ⟨true, 0, true, r, 77, l⟩
/-- A change of what the pair holds. -/
def pairWith (f : Pair → Pair) (s : State) : State := { s with pair := f s.pair }
/-- A message of kind 3 of the fault block's own. -/
def faultMsg (c : Option Hdr) : FaultMsg :=
  { blk := 0x68, inst := 0, kind := 3, addr := 0, time := 0, inject := c.isSome, reacted := false, actions := 0, shadow := none, opens := none, entersSafe := false, reply := c }
/-- An entry of the fault log. -/
def entry (n : Nat) : FaultEntry :=
  { seq := n, blk := 0x68, inst := 0, kind := 3, inject := false, conseq := false, reacted := false, actions := 0, lost := 0, origin := 0, addr := 0, time := 0 }
/-- A change of what the fault handler holds. -/
def faulty (f : Flt → Flt) (s : State) : State := { s with flt := f s.flt }
/-- The first stack in a state. -/
def logStack (st : Nat) (s : State) : State := wr s (obj .hbStatus 0) HbStatus.STATE st
/-- A change of what the counters hold. -/
def counting (f : Cnt → Cnt) (s : State) : State := { s with cnt := f s.cnt }
/-- Session 0 holds the update lease, with STAGE and ACT_STATE in states and the supply stable. -/
def leased (st act : Nat) (s : State) : State :=
  wr (wr (wr (wr s upS UpdStatus.HOLDER 0) upS UpdStatus.STAGE st) upS UpdStatus.ACT_STATE act) (obj .pwrStatus) PwrStatus.STABLE 1
/-- A change of what the updater holds. -/
def updater (f : Upd → Upd) (s : State) : State := { s with upd := f s.upd }
/-- A whole bundle of 4,096 B, by its outer header. -/
def wholeBundle : Bytes := [0x56, 0x58, 0x42, 0x55, 0, 1, 1, 0, 0, 0, 0, 0, 0, 0, 0x10, 0] ++ List.replicate 4080 0
/-- A commit of session 0's command into slot 1, at a step. -/
def storing (n repeats : Nat) : Storing := ⟨hd, n, 1, BundleInfo.shipped, 4096, repeats⟩
/-- That commit under way. -/
def committing (n repeats : Nat) (s : State) : State := updater (fun x => { x with commit := some (storing n repeats) }) (leased sgCommitting 0 s)
/-- Both slots hold a bundle: slot 0 is ACTIVE and slot 1 in another state, the ACTIVE one on trial or not. -/
def slots (st1 run trial : Nat) (s : State) : State :=
  wr (wr (wr (updater (fun x => { x with slots := [⟨some BundleInfo.shipped, []⟩, ⟨some BundleInfo.shipped, []⟩] }) s) (dirK 1) DirRec.STATE st1)
    upS UpdStatus.RUN_SLOT run) (dirK run) DirRec.TRIAL trial
/-- A change of what the power and reset manager holds. -/
def powered (f : Pwr → Pwr) (s : State) : State := { s with pwr := f s.pwr }
/-- Both inputs are good, nRESET is high, and every step before step n is done. -/
def atStep (n : Nat) (s : State) : State :=
  powered (fun x => { x with vin := true, vstby := true, nreset := false, steps := List.range' 1 11, done := List.range' 1 (n - 1) }) s
/-- Nothing amiss in the directory and the slots. -/
def goodRead : BootRead := ⟨0, none, false, false⟩
/-- The state after a command. -/
def ran (c : Instr) (s : State) : State := match exec c s with | .next t => t | _ => s

/-! ## How a witness is shown -/

/-- A turn, by its parts. -/
theorem turn_of {s : State} {c : Hdr} {w : Waiting} {op acc plen blk : Nat}
    (h : s.cmd.waiting = [w] ∧ w.hdr = c ∧ w.phase = .queued ∧ w.op = op ∧ w.plen = plen ∧ w.body = plen + 8 ∧ w.res = 0 ∧
      (getSess s c.sid.val).closing = false ∧ rd s (sessKey c.sid.val) SessStatus.NEXT_SEQ < 2 ^ 64 - 4096 ∧
      holds s c.sid.val acc = true ∧ blockReady s blk = true ∧ bridgeWaits s blk = false) :
    Safety.Turn s c w op acc plen blk :=
  let ⟨a, b, c, d, e, f, g, h, i, j, k, l⟩ := h; ⟨a, b, c, d, e, f, g, h, i, j, k, l⟩
/-- A write, by its parts. -/
theorem write_of {s : State} {c : Hdr} {w : Waiting} {k : Key} {x : Nat}
    (h : (s.cmd.waiting = [w] ∧ w.hdr = c ∧ w.phase = .queued ∧ w.op = 0x0202 ∧ w.plen = 12 + Machine.sizeOf k ∧
        w.body = 12 + Machine.sizeOf k + 8 ∧ w.res = 0 ∧ (getSess s c.sid.val).closing = false ∧
        rd s (sessKey c.sid.val) SessStatus.NEXT_SEQ < 2 ^ 64 - 4096 ∧ holds s c.sid.val accConfig = true ∧
        blockReady s (blockOf k) = true ∧ bridgeWaits s (blockOf k) = false) ∧
      fieldsOk k.ty x = true ∧ rangeOk s k x = true ∧ stateFault s k x = none) : Safety.Write s c w k x :=
  ⟨turn_of h.1, h.2.1, h.2.2.1, h.2.2.2⟩
/-- A word that a thread comes to, by its parts. -/
theorem issues_of {s : State} {t : Fin 16384} {x : Thread} {m : Micro} {n : Nano}
    (h : getThr s t.val = some x ∧ x.hold = .ready ∧ nextReady s (t.val / 16) = some t.val ∧ wordAt s t.val x = (m, n) ∧
      x.pc < mwCount (getCl s (t.val / 512)).image ∧ m.nano < nwCount (getCl s (t.val / 512)).image ∧ n.refused = false ∧
      mustWait m n x = false) : Safety.Issues s t x m n :=
  let ⟨a, b, c, d, e, f, g, h⟩ := h; ⟨a, b, c, d, e, f, g, h⟩
/-- A step that goes on, goes on to `stepped`. -/
theorem step_next {s : State} (h : (match step s with | .next _ => true | _ => false) = true) : step s = .next (stepped s) := by
  unfold stepped; cases hs : step s <;> simp_all
/-- A command that goes on, goes on to `ran`. -/
theorem exec_next {c : Instr} {s : State} (h : (match exec c s with | .next _ => true | _ => false) = true) : exec c s = .next (ran c s) := by
  unfold ran; cases hs : exec c s <;> simp_all
/-- What is not there has every property. -/
theorem all_of_none {α : Type} {o : Option α} {P : α → Prop} (h : o.isNone = true) : ∀ l, o = some l → P l := by
  intro l hl; subst hl; exact absurd h (by simp)
/-- Nothing is under way anywhere. -/
theorem none_under_way {s : State} {n : Nat} (a : s.line.arriving = []) (b : s.line.fifo = []) (c : s.line.sending = []) (d : s.que.tx = []) :
    ∀ p < n, Safety.NoneUnderWay s p := by
  intro p _
  refine ⟨?_, ?_, ?_, ?_⟩ <;> simp [arrivingOf, fifoOf, txOf, tabGet, a, b, c, d, tabGet?]
/-- What holds below a number, tried for each. -/
theorem all_lt {n : Nat} {p : Nat → Prop} [DecidablePred p] (h : (List.range n).all (fun i => decide (p i)) = true) : ∀ i < n, p i := by
  intro i hi; exact of_decide_eq_true (List.all_eq_true.mp h i (List.mem_range.mpr hi))
/-- As many messages within the last second are too many. -/
theorem many_messages {s : State} {n : Nat} (hn : 65536 ≤ n) (h : (ptOf s 2).msgAt = List.replicate n 0) (hc : s.clock < sec) :
    rateOk s 2 = false := by
  have hl : (recent s (ptOf s 2).msgAt sec).length = n := by rw [h, recent, List.filter_replicate]; simp [within, hc]
  unfold rateOk; rw [hl, decide_eq_false (by omega), Bool.false_and]
/-- A bank without a rule matches nothing. -/
theorem no_match {s : State} {x : Thread} {k : Look} (h : patRules s (x.patBank.getD 0) = 0) :
    winner s (x.patBank.getD 0) (matching s x k) = none := by
  have hm : matching s x k = [] := by simp [matching, rulesOf, h]
  rw [hm]; rfl

/-! ## Ill-formed commands, one for each check, and the decoder -/

theorem test_wf_tags : Instr.illformed (.jutosFrameReceive .ma { frame 2 with vids := [1, 2, 3] }) = some .tags := by decide +kernel
theorem test_wf_width : Instr.illformed (.objModify hd 0 1 0 0 (2 ^ 512) 0) = some .width := by decide +kernel
theorem test_wf_window : Instr.illformed (.imageSlotDataWrite hd 1 0x24200 [1]) = some .window := by decide +kernel
theorem test_wf_quanta :
    Instr.illformed (.frameReceive 2 .whole (goodFrame { plainContent with quanta := List.replicate 9 5 })) = some .quanta := by decide +kernel
theorem test_wf_queue : Instr.illformed (.pageFlush 1835008) = some .queue := by decide +kernel
theorem test_wf_keyClass : Instr.illformed (.keySlotWriteSa hd { saParams with cls := 2 }) = some .keyClass := by decide +kernel
theorem test_wf_hbmLine : Instr.illformed (.hbmRequest 0 { hbmReq true with addr := 65 }) = some .hbmLine := by decide +kernel
theorem test_wf_ok : Instr.wf (.hbmRequest 0 (hbmReq true)) = true := by decide +kernel
theorem test_no_word_spells_a_command (n w : Nat) : decodeTableWord n w = none ∧ State.reset.withFetchWord n w = State.reset := ⟨rfl, rfl⟩

/-! ## Results that the spec works out -/

/-- Chapter 16, worked example: the reaction set of RLY instance 1, kind 0x02. -/
theorem test_reaction_address : addrOf (reactKey 0x51 1 2) = 0x510300000810 := by decide +kernel
/-- Chapter 4: hash 0x9E37_79B9 in a group of 6 takes member 3. -/
theorem test_ecmp_member : memberOf [10, 11, 12, 13, 14, 15] 0x9E3779B9 = 13 := by decide +kernel
/-- R305: the last VOQ. -/
theorem test_last_voq : voqOf 4095 47 7 = 1572863 := by decide +kernel
/-- R317: 10 kb/s gives one unit of 1/1,024 B in 781.25 ns of common time, and none before. -/
theorem test_tokens : tokens 1 51200000 = 1 ∧ tokens 1 51199999 = 0 := by decide +kernel
/-- R10: an object is found at its address, and its neighbour is another. -/
theorem test_find : findObj (addrOf (obj .lpCtl 47)) = some (obj .lpCtl 47) := by decide +kernel
/-- R347: 64 good hellos in a row bring a link up. -/
theorem test_hello_brings_link_up :
    linkState (ran (.helloReceive 2 hello3) (fl2 { Fl.reset with hello := some hello3, helloN := 63 } (link2 lsHello up))) 2 = lsUp := by
  decide +kernel
/-- One step runs the command in front and takes it off the queue. -/
theorem test_step_takes_the_front : step { State.reset with pending := [.recordRefresh] } = exec .recordRefresh State.reset := rfl

/-- A command that goes on. -/
theorem witness_CommandsLeaveQueue : ∃ (c : Instr) (s t : State), exec c s = .next t :=
  ⟨.puntTransmit, up, ran .puntTransmit up, exec_next (by decide +kernel)⟩


/-- SHA-384 of the three bytes of "abc", from FIPS 180-4's worked example. -/
theorem test_sha384_abc : sha384 [97, 98, 99] =
    0xCB00753F45A35E8BB5A03D699AC65007272C32AB0EDED1631A8B605A43FF5BED8086072BA1E7CC2358BAECA134C825A7 := by decide +kernel
/-- The base point of P-384, from SEC 2, lies on the curve, and its neighbour does not. -/
theorem test_p384_base : onP384 point = true ∧ onP384 (point + 1) = false := by decide +kernel

/-! ## Witnesses -/

/-- Every clause of `IdleStepLetsTimePass` with hypotheses has a case. -/
theorem witness_IdleStepLetsTimePass :
    ∃ (s : State), s.pending = [] :=
  ⟨up, by decide +kernel⟩

/-- Every clause of `FusesChangeOnlyByFuseWrite` with hypotheses has a case. -/
theorem witness_FusesChangeOnlyByFuseWrite :
    ∃ (c : Instr) (s : State) (t : State), exec c s = .next t ∧ c ≠ .fuseWriteComplete :=
  ⟨.puntTransmit, up, up, exec_next (by decide +kernel), by decide +kernel⟩

/-- Every clause of `TimeAndOutputOnlyGrow` with hypotheses has a case. -/
theorem witness_TimeAndOutputOnlyGrow :
    ∃ (s : State) (t : State), step s = .next t :=
  ⟨State.reset, stepped State.reset, step_next (by decide +kernel)⟩

/-- Every clause of `StepKeepsCanonicalStores` with hypotheses has a case. -/
theorem witness_StepKeepsCanonicalStores :
    ∃ (s : State) (t : State), Safety.RegsSorted s ∧ Safety.MemoryOk s ∧ step s = .next t :=
  ⟨up, stepped up, by unfold Safety.RegsSorted; decide +kernel, by unfold Safety.MemoryOk; decide +kernel, step_next (by decide +kernel)⟩

/-- Every clause of `ManagementFrames` with hypotheses has a case. -/
theorem witness_ManagementFrames :
    (∃ (p : MgmtPort) (f : JutosFrame) (s : State) (k : _), mgmtUp s = true ∧ frameFails s p f = some k) ∧
    (∃ (f : JutosFrame) (s : State), mgmtUp s = true ∧ (f.fcsOk = false ∨ f.len < 64 ∨ 9600 < f.len)) ∧
    (∃ (p : MgmtPort) (f : JutosFrame) (s : State), mgmtUp s = true ∧ f.fcsOk = true ∧ 64 ≤ f.len ∧ f.len ≤ 9600 ∧
      f.dst.toNat ≠ rd s (mgmtKey p) MgmtPort.MAC) ∧
    (∃ (p : MgmtPort) (f : JutosFrame) (s : State), mgmtUp s = true ∧ frameFails s p f = none ∧ f.kind = 3) ∧
    (∃ (p : MgmtPort) (f : JutosFrame) (s : State) (n : Fin 64), mgmtUp s = true ∧ frameFails s p f = none ∧ f.kind = 1 ∧ f.session.toNat = n.val ∧
      f.tag = some (sealOfFrame (keysOf s n.val).cmdIn f) ∧ fragCount f = 1 ∧ (getSess s n.val).reasm = [] ∧
      rd s (sessKey n.val) SessStatus.H < f.seq.toNat ∧ rd s (sessKey n.val) SessStatus.H < seqLimit ∧
      rd s (sessKey n.val) SessStatus.NEXT_SEQ ≤ seqLimit ∧ boundsReached s n.val = false ∧ 8 ≤ f.bodyLen.toNat ∧ f.op.toNat ∈ opcodes) ∧
    (∃ (p : MgmtPort) (f : JutosFrame) (s : State) (n : Fin 64), mgmtUp s = true ∧ frameFails s p f = none ∧ (f.kind = 1 ∨ f.kind = 0x11) ∧
      f.session.toNat = n.val ∧ (∀ k ∈ [(keysOf s n.val).cmdIn, (keysOf s n.val).piIn], f.tag ≠ some (sealOfFrame k f)) ∧
      rd s (sessKey n.val) SessStatus.AUTH_FAILS < 65535 ∧ (recent s (getSess s n.val).fails sec).length < 1023) :=
  ⟨⟨.ma, { frame 1 with fcsOk := false }, up, 0, by decide +kernel⟩,
   ⟨{ frame 1 with len := 63 }, up, by decide +kernel⟩,
   ⟨.ma, { frame 1 with len := 9600, dst := 3 }, up, by decide +kernel⟩,
   ⟨.ma, frame 3, up, by decide +kernel⟩,
   ⟨.ma, frame 1, up, 0, by decide +kernel⟩,
   ⟨.ma, bareFrame 1, up, 0, by decide +kernel⟩⟩

/-- Every clause of `OpenRequestsAnswered` with hypotheses has a case. -/
theorem witness_OpenRequestsAnswered :
    (∃ (p : MgmtPort) (peer : BitVec 48) (seq : Word) (r : OpenReq) (s : State), ⟨p, peer, seq⟩ ∈ s.cmd.opens ∧ openStatus s r ≠ stOk) ∧
    (∃ (p : MgmtPort) (peer : BitVec 48) (seq : Word) (r : OpenReq) (s : State), ⟨p, peer, seq⟩ ∈ s.cmd.opens ∧ openStatus s r = stOk) ∧
    (∃ (p : MgmtPort) (peer : BitVec 48) (seq : Word) (s : State), ⟨p, peer, seq⟩ ∈ s.cmd.opens ∧ flag s rstKey RstStatus.READY = false) ∧
    (∃ (p : MgmtPort) (peer : BitVec 48) (seq : Word) (r : OpenReq) (s : State),
      ((Config.ecdsaOk r.opKey.toNat (openDigest r s.fuses.serial).toNat r.opSig.toNat = false ∨ ∀ k ∈ programmedSlots s,
      rd s (obj .opKey k) OpKey.DIGEST ≠ (sha384 (toBytes 97 r.opKey.toNat)).toNat)) ∧ ⟨p, peer, seq⟩ ∈ s.cmd.opens ∧
      flag s rstKey RstStatus.READY = true ∧ r.bodyLen = 326 ∧ r.openVer = 1 ∧ r.access.toNat < 64 ∧ r.reserved = 0 ∧ onP384 r.hostEph = true ∧
      onP384 r.opKey = true ∧ programmedSlots s ≠ []) :=
  ⟨⟨.mb, 4, 6, { openReq with bodyLen := 325 }, { up with cmd := { up.cmd with opens := [⟨.mb, 4, 6⟩] } }, by decide +kernel⟩,
   ⟨.mb, 4, 6, openReq, { up with cmd := { up.cmd with opens := [⟨.mb, 4, 6⟩] } }, by decide +kernel⟩,
   ⟨.mb, 4, 6, { State.reset with cmd := { Cmd.reset with opens := [⟨.mb, 4, 6⟩] } }, by decide +kernel⟩,
   ⟨.mb, 4, 6, openReq, { keyed with cmd := { keyed.cmd with opens := [⟨.mb, 4, 6⟩] } }, Or.inr (by decide +kernel), by decide +kernel⟩⟩

/-- Every clause of `SessionsEnd` with hypotheses has a case. -/
theorem witness_SessionsEnd :
    (∃ (n : Fin 64) (s : State), rd s (sessKey n.val) SessStatus.STATE = 1) ∧
    (∃ (n : Fin 64) (s : State), sessOpen s n.val = true ∧ rd s (sessKey n.val) SessStatus.OUTSTANDING = 0 ∧ s.time.stepped ≤ (s.ct : Int)) ∧
    (∃ (c : Hdr) (s : State) (w : Waiting), Safety.Turn s c w 0x0102 accRead 0 0x02) :=
  ⟨⟨0, fld (sessKey 0) SessStatus.STATE 1 up, by decide +kernel⟩,
   ⟨0, up, by decide +kernel⟩,
   ⟨hd, ask (waits 0x0102 0) (up), waits 0x0102 0, turn_of (by decide +kernel)⟩⟩

/-- Every clause of `WaitingEnds` with hypotheses has a case. -/
theorem witness_WaitingEnds :
    (∃ (n : Fin 64) (first : Word) (r : Reasm) (s : State), reasmOf (getSess s n.val).injReasm first = some r) ∧
    (∃ (n : Fin 64) (first : Word) (r : Reasm) (s : State), reasmOf (getSess s n.val).reasm first = some r ∧ s.cmd.waiting = [] ∧
      (getSess s n.val).closing = false ∧ rd s (sessKey n.val) SessStatus.NEXT_SEQ < 2 ^ 64 - 4096) ∧
    (∃ (c : Hdr) (s : State) (w : Waiting), s.cmd.waiting = [w] ∧ w.hdr = c ∧ w.phase = .queued ∧ (getSess s c.sid.val).closing = false ∧
      rd s (sessKey c.sid.val) SessStatus.NEXT_SEQ < 2 ^ 64 - 4096) ∧
    (∃ (n : Fin 64) (s : State), sessOpen s n.val = true ∧ (getSess s n.val).recs ≠ []) :=
  ⟨⟨0, 5, reasm, sess0 { Sess.closed with injReasm := [reasm] } up, by decide +kernel⟩,
   ⟨0, 5, reasm, sess0 { Sess.closed with reasm := [reasm] } up, by decide +kernel⟩,
   ⟨hd, ask (waits 0x0102 0) up, waits 0x0102 0, by decide +kernel⟩,
   ⟨0, sess0 { Sess.closed with recs := [.sample 1 2] } up, by decide +kernel⟩⟩

/-- Every clause of `ObjectCommands` with hypotheses has a case. -/
theorem witness_ObjectCommands :
    (∃ (c : Hdr) (s : State) (w : Waiting) (k : Key), Safety.Turn s c w 0x0201 accRead 12 ((addrOf k).toNat / 2 ^ 40) ∧
      covered (addrOf k) (Machine.sizeOf k) = some [k] ∧ measured k.ty = [] ∧ (∀ d ∈ fieldsOf k.ty, d.acc ≠ .rc)) ∧
    (∃ (c : Hdr) (s : State) (w : Waiting) (k : Key) (data : Bytes), Safety.Plain k ∧ Safety.Write s c w k (ofBytes data) ∧
      data.length = Machine.sizeOf k ∧ covered (addrOf k) (Machine.sizeOf k) = some [k] ∧ (addrOf k).toNat / 2 ^ 40 = blockOf k) ∧
    (∃ (c : Hdr) (s : State) (w : Waiting) (k : Key) (mask : Nat), Safety.Plain k ∧
      Safety.Turn s c w 0x0203 accConfig (12 + 2 * Machine.sizeOf k) (blockOf k) ∧ Machine.sizeOf k ≤ 64 ∧ findObj (addrOf k) = some k ∧
      (addrOf k).toNat / 2 ^ 40 = blockOf k ∧ mask < 2 ^ (8 * Machine.sizeOf k) ∧ fieldsOk k.ty (rdWord s k ||| mask) = true ∧
      rangeOk s k (rdWord s k ||| mask) = true ∧ stateFault s k (rdWord s k ||| mask) = none) :=
  ⟨⟨hd, ask (waits 0x0201 12) (up), waits 0x0201 12, obj .mgmtPort 1, turn_of (by decide +kernel), by decide +kernel⟩,
   ⟨hd, ask (waits 0x0202 (12 + Machine.sizeOf (obj .mgmtPort 1))) (up), waits 0x0202 (12 + Machine.sizeOf (obj .mgmtPort 1)), obj .mgmtPort 1,
   List.replicate (Machine.sizeOf (obj .mgmtPort 1)) 0, by unfold Safety.Plain; decide +kernel, write_of (by decide +kernel), by decide +kernel⟩,
   ⟨hd, ask (waits 0x0203 (12 + 2 * Machine.sizeOf (obj .mgmtPort 1))) (up), waits 0x0203 (12 + 2 * Machine.sizeOf (obj .mgmtPort 1)),
   obj .mgmtPort 1, 0, by unfold Safety.Plain; decide +kernel, turn_of (by decide +kernel), by decide +kernel⟩⟩

/-- Every clause of `FuseWrites` with hypotheses has a case. -/
theorem witness_FuseWrites :
    (∃ (c : Hdr) (k : Fin 4) (digest : BitVec 384) (s : State) (w : Waiting), Safety.Turn s c w 0x0202 accConfig 76 0x01 ∧ stable s = true ∧
      s.cmd.fuse = none ∧ digest ≠ 0 ∧ rd s (obj .opKey k.val) OpKey.STATE = 0) ∧
    (∃ (c : Hdr) (k : Fin 4) (j : Fin 4) (s : State) (w : Waiting), Safety.Turn s c w 0x0202 accConfig 76 0x01 ∧ stable s = true ∧
      s.cmd.fuse = none ∧ j ≠ k ∧ rd s (obj .opKey k.val) OpKey.STATE = 1 ∧ rd s (obj .opKey j.val) OpKey.STATE = 1 ∧
      reservedBits .opKey (rdWord s (obj .opKey k.val)) = 0) ∧
    (∃ (s : State) (f : FuseWrite) (k : Nat) (x : Nat), s.cmd.fuse = some f ∧ f.slots = [(k, x)] ∧ f.secver = none) ∧
    (∃ (s : State) (f : FuseWrite) (v : Nat), s.cmd.fuse = some f ∧ f.slots = [] ∧ f.secver = some v) :=
  ⟨⟨hd, 0, 1, ask (waits 0x0202 76) (upStable), waits 0x0202 76, turn_of (by decide +kernel), by decide +kernel⟩,
   ⟨hd, 1, 2, ask (waits 0x0202 76) (fld (obj .pwrStatus) PwrStatus.STABLE 1 keyed), waits 0x0202 76, turn_of (by decide +kernel), by decide +kernel⟩,
   ⟨{ up with cmd := { up.cmd with fuse := some (fuseWrite [(1, 7)] none) } }, fuseWrite [(1, 7)] none, 1, 7, by decide +kernel⟩,
   ⟨{ up with cmd := { up.cmd with fuse := some (fuseWrite [] (some 3)) } }, fuseWrite [] (some 3), 3, by decide +kernel⟩⟩

/-- Every clause of `InjectsAndPunts` with hypotheses has a case. -/
theorem witness_InjectsAndPunts :
    (∃ (n : Fin 64) (m : InjectMeta) (s : State) (q : MgmtPort) (rest : List MgmtPort), (getSess s n.val).injReady = q :: rest ∧ chanState s 0 = 1 ∧
      (inSafe s = true ∨ injectOk m = false)) ∧
    (∃ (n : Fin 64) (m : InjectMeta) (s : State) (q : MgmtPort) (rest : List MgmtPort), (getSess s n.val).injReady = q :: rest ∧ chanState s 0 = 1 ∧
      inSafe s = false ∧ injectOk m = true ∧ m.mode = 2 ∧ s.eng.injectQ.length < 4096 ∧
      billetsOf m.len ≤ mayDraw s (arrivalPool s m.port.toNat m.content)) ∧
    (∃ (s : State) (x : Punt) (rest : List Punt) (n : Nat), s.cmd.puntQ = x :: rest ∧ inSafe s = false ∧ chanState s 1 = 1 ∧ puntSession s = some n) ∧
    (∃ (s : State), (inSafe s = true ∨ chanState s 1 ≠ 1)) :=
  ⟨⟨0, ⟨2, 3, 0, true, 63, plainContent⟩, sess0 { Sess.closed with injReady := [.ma] } up, .ma, [], by decide +kernel⟩,
   ⟨0, ⟨2, 47, 7, true, 64, plainContent⟩, sess0 { Sess.closed with injReady := [.ma, .mb] } up, .ma, [.mb], by decide +kernel⟩,
   ⟨{ fld (obj .sessSet) SessSet.PUNT_EN 1 up with cmd := { up.cmd with puntQ := [puntOf] } }, puntOf, [], 0, by decide +kernel⟩,
   ⟨fld (obj .fltStatus) FltStatus.SAFE 1 up, by decide +kernel⟩⟩

/-- Every clause of `BridgeRetrains` with hypotheses has a case. -/
theorem witness_BridgeRetrains :
    (∃ (ch : Fin 2) (s : State), chanState s ch.val = 1) ∧
    (∃ (ch : Fin 2) (s : State), chanState s ch.val = 1 ∧ tabGet s.bridge.fails ch.val 0 < 7) ∧
    (∃ (ch : Fin 2) (s : State), chanState s ch.val = 1 ∧ tabGet s.bridge.fails ch.val 0 = 7) ∧
    (∃ (ch : Fin 2) (s : State), chanState s ch.val = 2 ∧ ch.val ∉ s.bridge.again) ∧
    (∃ (ch : Fin 2) (s : State), chanState s ch.val = 2 ∧ ch.val ∈ s.bridge.again) :=
  ⟨⟨1, fld brgKey (chanFld 1) 1 up, by decide +kernel⟩,
   ⟨1, { fld brgKey (chanFld 1) 1 up with bridge := { chans := [], fails := [(1, 6)], again := [] } }, by decide +kernel⟩,
   ⟨1, { fld brgKey (chanFld 1) 1 up with bridge := { chans := [], fails := [(1, 7)], again := [] } }, by decide +kernel⟩,
   ⟨1, fld brgKey (chanFld 1) 2 up, by decide +kernel⟩,
   ⟨1, { fld brgKey (chanFld 1) 2 up with bridge := { chans := [], fails := [], again := [1] } }, by decide +kernel⟩⟩

/-- Every clause of `AluRows` with hypotheses has a case. -/
theorem witness_AluRows :
    (∃ (s : State) (t : Fin 16384) (x : Thread) (m : Micro) (n : Nano), Safety.Issues s t x m n ∧ n.next = 0 ∧ n.cls = 0 ∧ n.alu = 0) ∧
    (∃ (s : State) (t : Fin 16384) (x : Thread) (m : Micro) (n : Nano), Safety.Issues s t x m n ∧ n.next = 0 ∧ n.cls = 0 ∧ n.alu = 1) ∧
    (∃ (s : State) (t : Fin 16384) (x : Thread) (m : Micro) (n : Nano), Safety.Issues s t x m n ∧ n.next = 0 ∧ n.cls = 0 ∧ n.alu = 2) ∧
    (∃ (s : State) (t : Fin 16384) (x : Thread) (m : Micro) (n : Nano), Safety.Issues s t x m n ∧ n.next = 0 ∧ n.cls = 0 ∧ n.alu = 3) ∧
    (∃ (s : State) (t : Fin 16384) (x : Thread) (m : Micro) (n : Nano), Safety.Issues s t x m n ∧ n.next = 0 ∧ n.cls = 0 ∧ n.alu = 4) ∧
    (∃ (s : State) (t : Fin 16384) (x : Thread) (m : Micro) (n : Nano), Safety.Issues s t x m n ∧ n.next = 0 ∧ n.cls = 0 ∧ n.alu = 5) ∧
    (∃ (s : State) (t : Fin 16384) (x : Thread) (m : Micro) (n : Nano), Safety.Issues s t x m n ∧ n.next = 0 ∧ n.cls = 0 ∧ n.alu = 6) ∧
    (∃ (s : State) (t : Fin 16384) (x : Thread) (m : Micro) (n : Nano), Safety.Issues s t x m n ∧ n.next = 0 ∧ n.cls = 0 ∧ n.alu = 7) ∧
    (∃ (s : State) (t : Fin 16384) (x : Thread) (m : Micro) (n : Nano), Safety.Issues s t x m n ∧ n.next = 0 ∧ n.cls = 0 ∧ n.alu = 8) ∧
    (∃ (s : State) (t : Fin 16384) (x : Thread) (m : Micro) (n : Nano), Safety.Issues s t x m n ∧ n.next = 0 ∧ n.cls = 0 ∧ n.alu = 9) ∧
    (∃ (s : State) (t : Fin 16384) (x : Thread) (m : Micro) (n : Nano), Safety.Issues s t x m n ∧ n.next = 0 ∧ n.cls = 0 ∧ n.alu = 10) ∧
    (∃ (s : State) (t : Fin 16384) (x : Thread) (m : Micro) (n : Nano), Safety.Issues s t x m n ∧ n.next = 0 ∧ n.cls = 0 ∧ n.alu = 11) :=
  ⟨⟨running 0x40301078000000000000000000000007 thr (up), 7, thr, word, Nano.ofWord 0x40301078000000000000000000000007, issues_of (by decide +kernel),
   by decide +kernel⟩,
   ⟨running 0x40b01078000000000000000000000007 thr (up), 7, thr, word, Nano.ofWord 0x40b01078000000000000000000000007, issues_of (by decide +kernel),
   by decide +kernel⟩,
   ⟨running 0x41301078000000000000000000000007 thr (up), 7, thr, word, Nano.ofWord 0x41301078000000000000000000000007, issues_of (by decide +kernel),
   by decide +kernel⟩,
   ⟨running 0x41b01078000000000000000000000007 thr (up), 7, thr, word, Nano.ofWord 0x41b01078000000000000000000000007, issues_of (by decide +kernel),
   by decide +kernel⟩,
   ⟨running 0x42301078000000000000000000000007 thr (up), 7, thr, word, Nano.ofWord 0x42301078000000000000000000000007, issues_of (by decide +kernel),
   by decide +kernel⟩,
   ⟨running 0x42b01078000000000000000000000007 thr (up), 7, thr, word, Nano.ofWord 0x42b01078000000000000000000000007, issues_of (by decide +kernel),
   by decide +kernel⟩,
   ⟨running 0x43301078000000000000000000000007 thr (up), 7, thr, word, Nano.ofWord 0x43301078000000000000000000000007, issues_of (by decide +kernel),
   by decide +kernel⟩,
   ⟨running 0x43b01078000000000000000000000007 thr (up), 7, thr, word, Nano.ofWord 0x43b01078000000000000000000000007, issues_of (by decide +kernel),
   by decide +kernel⟩,
   ⟨running 0x44301078000000000000000000000007 thr (up), 7, thr, word, Nano.ofWord 0x44301078000000000000000000000007, issues_of (by decide +kernel),
   by decide +kernel⟩,
   ⟨running 0x44b01078000000000000000000000007 thr (up), 7, thr, word, Nano.ofWord 0x44b01078000000000000000000000007, issues_of (by decide +kernel),
   by decide +kernel⟩,
   ⟨running 0x45301078000000000000000000000007 thr (up), 7, thr, word, Nano.ofWord 0x45301078000000000000000000000007, issues_of (by decide +kernel),
   by decide +kernel⟩,
   ⟨running 0x45b01078000000000000000000000007 thr (up), 7, thr, word, Nano.ofWord 0x45b01078000000000000000000000007, issues_of (by decide +kernel),
   by decide +kernel⟩⟩

/-- Every clause of `FieldAndResultRows` with hypotheses has a case. -/
theorem witness_FieldAndResultRows :
    (∃ (s : State) (t : Fin 16384) (x : Thread) (m : Micro) (n : Nano), Safety.Issues s t x m n ∧ n.next = 0 ∧ n.cls = 1 ∧ n.fdir = false) ∧
    (∃ (s : State) (t : Fin 16384) (x : Thread) (m : Micro) (n : Nano), Safety.Issues s t x m n ∧ n.next = 0 ∧ n.cls = 1 ∧ n.fdir = true) ∧
    (∃ (s : State) (t : Fin 16384) (x : Thread) (m : Micro) (n : Nano), Safety.Issues s t x m n ∧ n.next = 0 ∧ n.cls = 4 ∧ n.res = 0 ∧
      x.egress = false ∧ isDest (x.reg m.ra).toNat = true) ∧
    (∃ (s : State) (t : Fin 16384) (x : Thread) (m : Micro) (n : Nano), Safety.Issues s t x m n ∧ n.next = 0 ∧ n.cls = 4 ∧ n.res = 0 ∧
      x.egress = true) ∧
    (∃ (s : State) (t : Fin 16384) (x : Thread) (m : Micro) (n : Nano), Safety.Issues s t x m n ∧ n.next = 0 ∧ n.cls = 4 ∧ n.res = 1 ∧
      x.egress = false ∧ (x.reg m.ra).toNat.testBit 22 = true) ∧
    (∃ (s : State) (t : Fin 16384) (x : Thread) (m : Micro) (n : Nano), Safety.Issues s t x m n ∧ n.next = 0 ∧ n.cls = 4 ∧ n.res = 2) ∧
    (∃ (s : State) (t : Fin 16384) (x : Thread) (m : Micro) (n : Nano), Safety.Issues s t x m n ∧ n.next = 0 ∧ n.cls = 4 ∧ n.res = 3) ∧
    (∃ (s : State) (t : Fin 16384) (x : Thread) (m : Micro) (n : Nano), Safety.Issues s t x m n ∧ n.next = 0 ∧ n.cls = 4 ∧ n.res = 4 ∧
      x.egress = false) ∧
    (∃ (s : State) (t : Fin 16384) (x : Thread) (m : Micro) (n : Nano), Safety.Issues s t x m n ∧ n.next = 0 ∧ n.cls = 4 ∧ n.res = 5 ∧
      x.egress = false) ∧
    (∃ (s : State) (t : Fin 16384) (x : Thread) (m : Micro) (n : Nano), Safety.Issues s t x m n ∧ n.next = 0 ∧ n.cls = 4 ∧ n.res = 6) ∧
    (∃ (s : State) (t : Fin 16384) (x : Thread) (m : Micro) (n : Nano), Safety.Issues s t x m n ∧ n.next = 0 ∧ n.cls = 5) :=
  ⟨⟨running 0x48201078000000000000000000000007 thr (up), 7, thr, word, Nano.ofWord 0x48201078000000000000000000000007, issues_of (by decide +kernel),
   by decide +kernel⟩,
   ⟨running 0x4820107a000000000000000000000007 thr (up), 7, thr, word, Nano.ofWord 0x4820107a000000000000000000000007, issues_of (by decide +kernel),
   by decide +kernel⟩,
   ⟨running 0x60201078000000000000000000000007 ({ thr with g := List.replicate 16 (BitVec.ofNat 64 (1 * 2 ^ 61)) }) (up), 7,
   { thr with g := List.replicate 16 (BitVec.ofNat 64 (1 * 2 ^ 61)) }, word, Nano.ofWord 0x60201078000000000000000000000007,
   issues_of (by decide +kernel), by decide +kernel⟩,
   ⟨running 0x60201078000000000000000000000007 ({ thr with egress := true }) (up), 7, { thr with egress := true }, word,
   Nano.ofWord 0x60201078000000000000000000000007, issues_of (by decide +kernel), by decide +kernel⟩,
   ⟨running 0x60201078000200000000000000000007 ({ thr with g := List.replicate 16 0x400003 }) (up), 7, { thr with g := List.replicate 16 0x400003 },
   word, Nano.ofWord 0x60201078000200000000000000000007, issues_of (by decide +kernel), by decide +kernel⟩,
   ⟨running 0x60201078000400000000000000000007 thr (up), 7, thr, word, Nano.ofWord 0x60201078000400000000000000000007, issues_of (by decide +kernel),
   by decide +kernel⟩,
   ⟨running 0x60201078000600000000000000000007 thr (up), 7, thr, word, Nano.ofWord 0x60201078000600000000000000000007, issues_of (by decide +kernel),
   by decide +kernel⟩,
   ⟨running 0x60201078000800000000000000000007 thr (up), 7, thr, word, Nano.ofWord 0x60201078000800000000000000000007, issues_of (by decide +kernel),
   by decide +kernel⟩,
   ⟨running 0x60201078000a00000000000000000007 thr (up), 7, thr, word, Nano.ofWord 0x60201078000a00000000000000000007, issues_of (by decide +kernel),
   by decide +kernel⟩,
   ⟨running 0x60201078000c00000000000000000007 thr (up), 7, thr, word, Nano.ofWord 0x60201078000c00000000000000000007, issues_of (by decide +kernel),
   by decide +kernel⟩,
   ⟨running 0x68201078000000000000000000000007 thr (up), 7, thr, word, Nano.ofWord 0x68201078000000000000000000000007, issues_of (by decide +kernel),
   by decide +kernel⟩⟩

/-- Every clause of `Sequencing` with hypotheses has a case. -/
theorem witness_Sequencing :
    (∃ (s : State) (t : Fin 16384) (x : Thread) (m : Micro) (n : Nano), Safety.Issues s t x m n ∧ n.cls = 5 ∧ n.next = 1) ∧
    (∃ (s : State) (t : Fin 16384) (x : Thread) (m : Micro) (n : Nano), Safety.Issues s t x m n ∧ n.cls = 5 ∧ n.next = 2) ∧
    (∃ (s : State) (t : Fin 16384) (x : Thread) (m : Micro) (n : Nano), Safety.Issues s t x m n ∧ n.cls = 5 ∧ n.next = 3) ∧
    (∃ (s : State) (t : Fin 16384) (x : Thread) (m : Micro) (n : Nano), Safety.Issues s t x m n ∧ n.cls = 5 ∧ n.next = 4 ∧ x.stack.length < 4) ∧
    (∃ (s : State) (t : Fin 16384) (x : Thread) (m : Micro) (n : Nano) (a : _) (l : List Nat), Safety.Issues s t x m n ∧ n.cls = 5 ∧ n.next = 5 ∧
      x.stack = a :: l) ∧
    (∃ (s : State) (t : Fin 16384) (x : Thread) (m : Micro) (n : Nano), Safety.Issues s t x m n ∧ n.cls = 5 ∧ n.next = 6) ∧
    (∃ (s : State) (t : Fin 16384) (x : Thread) (m : Micro) (n : Nano), Safety.Issues s t x m n ∧ n.cls = 5 ∧ n.next = 7) ∧
    (∃ (s : State) (t : Fin 16384) (x : Thread) (m : Micro) (n : Nano), Safety.Issues s t x m n ∧ n.cls = 5 ∧ ((n.next = 4 ∧
      4 ≤ x.stack.length) ∨ (n.next = 5 ∧ x.stack = []))) :=
  ⟨⟨running 0x68201078008000000000000000000007 thr (up), 7, thr, word, Nano.ofWord 0x68201078008000000000000000000007, issues_of (by decide +kernel),
   by decide +kernel⟩,
   ⟨running 0x68201078010000000000000000000007 thr (up), 7, thr, word, Nano.ofWord 0x68201078010000000000000000000007, issues_of (by decide +kernel),
   by decide +kernel⟩,
   ⟨running 0x68201078018000000000000000000007 thr (up), 7, thr, word, Nano.ofWord 0x68201078018000000000000000000007, issues_of (by decide +kernel),
   by decide +kernel⟩,
   ⟨running 0x68201078020000000000000000000007 ({ thr with stack := [1, 2, 3] }) (up), 7, { thr with stack := [1, 2, 3] }, word,
   Nano.ofWord 0x68201078020000000000000000000007, issues_of (by decide +kernel), by decide +kernel⟩,
   ⟨running 0x68201078028000000000000000000007 ({ thr with stack := [2] }) (up), 7, { thr with stack := [2] }, word,
   Nano.ofWord 0x68201078028000000000000000000007, 2, ([] : List Nat), issues_of (by decide +kernel), by decide +kernel⟩,
   ⟨running 0x68201078030000000000000000000007 thr (up), 7, thr, word, Nano.ofWord 0x68201078030000000000000000000007, issues_of (by decide +kernel),
   by decide +kernel⟩,
   ⟨running 0x68201078038000000000000000000007 thr (up), 7, thr, word, Nano.ofWord 0x68201078038000000000000000000007, issues_of (by decide +kernel),
   by decide +kernel⟩,
   ⟨running 0x68201078020000000000000000000007 ({ thr with stack := [1, 2, 3, 0] }) (up), 7, { thr with stack := [1, 2, 3, 0] }, word,
   Nano.ofWord 0x68201078020000000000000000000007, issues_of (by decide +kernel), by decide +kernel⟩⟩

/-- Every clause of `LookupsAndWaits` with hypotheses has a case. -/
theorem witness_LookupsAndWaits :
    (∃ (s : State) (t : Fin 16384) (x : Thread) (m : Micro) (n : Nano), Safety.Issues s t x m n ∧ n.next = 0 ∧ n.cls = 2 ∧ n.lunit = 0 ∧
      unitRoom s (unitOf 0) = true) ∧
    (∃ (s : State) (t : Fin 16384) (x : Thread) (m : Micro) (n : Nano), Safety.Issues s t x m n ∧ n.next = 0 ∧ n.cls = 2 ∧ n.lunit = 0 ∧
      unitRoom s (unitOf 0) = false) ∧
    (∃ (s : State) (t : Fin 16384) (x : Thread) (m : Micro) (n : Nano), Safety.Issues s t x m n ∧ n.next = 0 ∧ n.cls = 2 ∧ n.lunit = 1 ∧
      unitRoom s (unitOf 1) = true) ∧
    (∃ (s : State) (t : Fin 16384) (x : Thread) (m : Micro) (n : Nano), Safety.Issues s t x m n ∧ n.next = 0 ∧ n.cls = 2 ∧ n.lunit = 1 ∧
      unitRoom s (unitOf 1) = false) ∧
    (∃ (s : State) (t : Fin 16384) (x : Thread) (m : Micro) (n : Nano), Safety.Issues s t x m n ∧ n.next = 0 ∧ n.cls = 2 ∧ n.lunit = 2 ∧
      unitRoom s (unitOf 2) = true) ∧
    (∃ (s : State) (t : Fin 16384) (x : Thread) (m : Micro) (n : Nano), Safety.Issues s t x m n ∧ n.next = 0 ∧ n.cls = 2 ∧ n.lunit = 2 ∧
      unitRoom s (unitOf 2) = false) ∧
    (∃ (s : State) (t : Fin 16384) (x : Thread) (m : Micro) (n : Nano), Safety.Issues s t x m n ∧ n.next = 0 ∧ n.cls = 3 ∧ n.wait = 0 ∧ x.look = none) ∧
    (∃ (s : State) (t : Fin 16384) (x : Thread) (m : Micro) (n : Nano), Safety.Issues s t x m n ∧ n.next = 0 ∧ n.cls = 3 ∧ n.wait = 0 ∧
      (¬ (x.look = none))) ∧
    (∃ (s : State) (t : Fin 16384) (x : Thread) (m : Micro) (n : Nano), Safety.Issues s t x m n ∧ n.next = 0 ∧ n.cls = 3 ∧ n.wait = 1 ∧ x.t = true) ∧
    (∃ (s : State) (t : Fin 16384) (x : Thread) (m : Micro) (n : Nano), Safety.Issues s t x m n ∧ n.next = 0 ∧ n.cls = 3 ∧ n.wait = 1 ∧
      (¬ (x.t = true))) ∧
    (∃ (s : State) (t : Fin 16384) (x : Thread) (m : Micro) (n : Nano), Safety.Issues s t x m n ∧ n.next = 0 ∧ n.cls = 3 ∧ n.wait = 2 ∧
      (x.reg m.ra).toNat ≤ nowNs s) ∧
    (∃ (s : State) (t : Fin 16384) (x : Thread) (m : Micro) (n : Nano), Safety.Issues s t x m n ∧ n.next = 0 ∧ n.cls = 3 ∧ n.wait = 2 ∧
      (¬ ((x.reg m.ra).toNat ≤ nowNs s))) ∧
    (∃ (s : State) (t : Fin 16384) (x : Thread) (k : Look), getThr s t.val = some x ∧ x.hold = .stalled ∧ x.look = some k ∧
      unitRoom s k.unit = true ∧ (wordAt s t.val x).2.next = 0) ∧
    (∃ (s : State) (t : Fin 16384) (x : Thread), getThr s t.val = some x ∧ x.hold = .wait ∧ (wordAt s t.val x).2.cls = 3 ∧
      (wordAt s t.val x).2.wait = 2 ∧ (wordAt s t.val x).2.next = 0) ∧
    (∃ (s : State) (t : Fin 16384) (x : Thread) (k : Look) (r : Word) (m : Bool) (e : Bool), getThr s t.val = some x ∧ x.look = some k ∧
      k.phase = .formed r m e ∧ (x.hold = .ready ∨ x.hold = .result) ∧ (∀ e ∈ s.eng.orphans, e.1 ≠ t.val)) :=
  ⟨⟨running 0x50201078000000000000000000000007 thr (up), 7, thr, word, Nano.ofWord 0x50201078000000000000000000000007, issues_of (by decide +kernel),
   by decide +kernel⟩,
   ⟨crowd .lpm 2048 (running 0x50201078000000000000000000000007 thr (up)), 7, thr, word, Nano.ofWord 0x50201078000000000000000000000007,
   issues_of (by decide +kernel), by decide +kernel⟩,
   ⟨running 0x50201078400000000000000000000007 thr (up), 7, thr, word, Nano.ofWord 0x50201078400000000000000000000007, issues_of (by decide +kernel),
   by decide +kernel⟩,
   ⟨crowd .exm 1024 (running 0x50201078400000000000000000000007 thr (up)), 7, thr, word, Nano.ofWord 0x50201078400000000000000000000007,
   issues_of (by decide +kernel), by decide +kernel⟩,
   ⟨running 0x50201078800000000000000000000007 thr (up), 7, thr, word, Nano.ofWord 0x50201078800000000000000000000007, issues_of (by decide +kernel),
   by decide +kernel⟩,
   ⟨crowd .pat 1024 (running 0x50201078800000000000000000000007 thr (up)), 7, thr, word, Nano.ofWord 0x50201078800000000000000000000007,
   issues_of (by decide +kernel), by decide +kernel⟩,
   ⟨running 0x58201078000000000000000000000007 thr (up), 7, thr, word, Nano.ofWord 0x58201078000000000000000000000007, issues_of (by decide +kernel),
   by decide +kernel⟩,
   ⟨running 0x58201078000000000000000000000007 ({ thr with look := some (lookup .lpm .accepted) }) (up), 7,
   { thr with look := some (lookup .lpm .accepted) }, word, Nano.ofWord 0x58201078000000000000000000000007, issues_of (by decide +kernel),
   by decide +kernel⟩,
   ⟨running 0x58201078040000000000000000000007 thr (up), 7, thr, word, Nano.ofWord 0x58201078040000000000000000000007, issues_of (by decide +kernel),
   by decide +kernel⟩,
   ⟨running 0x58201078040000000000000000000007 ({ thr with t := false }) (up), 7, { thr with t := false }, word,
   Nano.ofWord 0x58201078040000000000000000000007, issues_of (by decide +kernel), by decide +kernel⟩,
   ⟨running 0x58201078080000000000000000000007 ({ thr with g := List.replicate 16 0 }) (up), 7, { thr with g := List.replicate 16 0 }, word,
   Nano.ofWord 0x58201078080000000000000000000007, issues_of (by decide +kernel), by decide +kernel⟩,
   ⟨running 0x58201078080000000000000000000007 thr (up), 7, thr, word, Nano.ofWord 0x58201078080000000000000000000007, issues_of (by decide +kernel),
   by decide +kernel⟩,
   ⟨running 0x50201078000000000000000000000007 ({ thr with hold := .stalled, look := some (lookup .lpm .asked) }) (up), 7,
   { thr with hold := .stalled, look := some (lookup .lpm .asked) }, lookup .lpm .asked, by decide +kernel⟩,
   ⟨running 0x58201078080000000000000000000007 ({ thr with hold := .wait }) (up), 7, { thr with hold := .wait }, by decide +kernel⟩,
   ⟨running 0x68201078000000000000000000000007 ({ thr with hold := .result, look := some (lookup .lpm (.formed (6 : Word) true false)) }) (up), 7,
   { thr with hold := .result, look := some (lookup .lpm (.formed (6 : Word) true false)) }, lookup .lpm (.formed (6 : Word) true false), 6, true,
   false, by decide +kernel⟩⟩

/-- Every clause of `MachineChecks` with hypotheses has a case. -/
theorem witness_MachineChecks :
    (∃ (s : State) (t : Fin 16384) (x : Thread) (chk : MicroCheck), getThr s t.val = some x ∧ nextReady s (t.val / 16) = some t.val ∧
      ((mwCount (getCl s (t.val / 512)).image ≤ x.pc ∨ nwCount (getCl s (t.val / 512)).image ≤ (wordAt s t.val x).1.nano ∨ (wordAt s t.val x).2.refused = true ∨ (chk = .parityMicro ∧
      parityMode s (t.val / 512) = true) ∨ (chk = .parityNano ∧ parityMode s (t.val / 512) = true)))) ∧
    (∃ (s : State) (t : Fin 16384) (x : Thread) (m : Micro) (n : Nano), Safety.Issues s t x m n ∧ n.cls = 0 ∧ n.alu = 0) ∧
    (∃ (s : State) (t : Fin 16384) (x : Thread), getThr s t.val = some x ∧ clState s (t.val / 512) = csDraining) ∧
    (∃ (s : State) (t : Fin 16384) (x : Thread), getThr s t.val = some x ∧ clState s (t.val / 512) ≠ csDraining) ∧
    (∃ (s : State) (cl : Fin 32), parityMode s cl.val = true) ∧
    (∃ (s : State) (cl : Fin 32) (i : Fin 2), parityMode s cl.val = false ∧ hasImage s cl.val = true ∧ inService s cl.val = true ∧
      (getCl s cl.val).reload = none ∧ shadowOver s (0x10 + cl.val) = none ∧ rd s (reactKey (0x10 + cl.val) i.val 6) Reaction.THRESH = 1 ∧
      rd s (reactKey (0x10 + cl.val) i.val 6) Reaction.LOCAL = 1) :=
  ⟨⟨running 0x40201078000000000000000000000007 ({ thr with pc := 4 }) (up), 7, { thr with pc := 4 }, .clean, by decide +kernel⟩,
   ⟨running 0x40201078000000000000000000000007 thr (up), 7, thr, word, Nano.ofWord 0x40201078000000000000000000000007, issues_of (by decide +kernel),
   by decide +kernel⟩,
   ⟨fld (clKey 0) ClCtl.STATE csDraining (running 0 thr up), 7, thr, by decide +kernel⟩,
   ⟨running 0 thr up, 7, thr, by decide +kernel⟩,
   ⟨fld (clVer 2) ClVersion.PROT_ACTIVE 1 up, 2, by decide +kernel⟩,
   ⟨fld (clVer 2) ClVersion.PROT_ACTIVE 0 (fld (reactKey 0x12 1 6) Reaction.THRESH 1 (fld (reactKey 0x12 1 6) Reaction.LOCAL 1 (fld (clKey 2) ClCtl.STATE csRunning { up with eng := { up.eng with clusters := [(2, clusterOf 0)] } }))),
   2, 1, by decide +kernel⟩⟩

/-- Every clause of `DispatchStartsAPass` with hypotheses has a case. -/
theorem witness_DispatchStartsAPass :
    (∃ (s : State) (n : Nat) (rest : List Nat) (p : Packet), inSafe s = false ∧ (pickThread s).isSome = true ∧
      (egressWaits s).length < idleThreads s ∧ s.eng.injectQ = n :: rest ∧ getPkt s n = some p) ∧
    (∃ (s : State) (p : Fin 48) (n : Nat) (left : Nat) (rest : List Nat) (k : Packet), inSafe s = false ∧ (pickThread s).isSome = true ∧
      (egressWaits s).length < idleThreads s ∧ dispatchTurn s = some (p.val, left) ∧ dispOf s p.val = n :: rest ∧ getPkt s n = some k) ∧
    (∃ (s : State) (h : EgressHdr) (rest : List EgressHdr) (p : Packet), inSafe s = false ∧ (pickThread s).isSome = true ∧
      s.eng.egressQ = h :: rest ∧ getPkt s h.ref.pkt = some p) ∧
    (∃ (s : State) (src : HeaderSource), (inSafe s = true ∨ pickThread s = none ∨ (src ≠ .egress ∧ idleThreads s ≤ (egressWaits s).length))) :=
  ⟨⟨running 0 thr { up with buf := { up.buf with pkts := [(2, pktOf)] }, eng := { up.eng with injectQ := [2] } }, 2, [], pktOf, by decide +kernel⟩,
   ⟨running 0 thr { up with buf := { up.buf with pkts := [(2, pktOf)] }, eng := { up.eng with rrPort := 3, rrLeft := 3, dispQ := [(3, [2])] } }, 3, 2,
   3, [], pktOf, by decide +kernel⟩,
   ⟨running 0 thr { up with buf := { up.buf with pkts := [(2, pktOf)] }, eng := { up.eng with egressQ := [⟨refOf 2, 3, 0, 4⟩] } }, ⟨refOf 2, 3, 0, 4⟩,
   [], pktOf, by decide +kernel⟩,
   ⟨up, .inject, by decide +kernel⟩⟩

/-- Every clause of `ThreadsKeepShape` with hypotheses has a case. -/
theorem witness_ThreadsKeepShape :
    ∃ (s : State) (t : State) (e : _), step s = .next t ∧ e ∈ t.eng.threads ∧ ((∀ e ∈ s.eng.threads, e.2.g.length = 16 ∧ e.2.stack.length ≤ 4)) :=
  ⟨running 0 { thr with stack := [1, 2, 3, 0] } up, stepped (running 0 { thr with stack := [1, 2, 3, 0] } up), ((7,
  { thr with stack := [1, 2, 3, 0] }) : Nat × Thread), step_next (by decide +kernel), by decide +kernel⟩

/-- Every clause of `ImageSlots` with hypotheses has a case. -/
theorem witness_ImageSlots :
    (∃ (c : Hdr) (k : Fin 4) (i : Nat) (data : Bytes) (s : State) (w : Waiting),
      Safety.Write s c w (obj .imgData (k.val * slotParts + i)) (ofBytes data) ∧ i < slotParts ∧ data.length = 256 ∧
      covered (addrOf (obj .imgData (k.val * slotParts)) + BitVec.ofNat 48 (256 * i)) 256 = some [obj .imgData (k.val * slotParts + i)] ∧
      (addrOf (obj .imgData (k.val * slotParts)) + BitVec.ofNat 48 (256 * i)).toNat / 2 ^ 40 = blockOf (obj .imgData (k.val * slotParts + i))) ∧
    (∃ (c : Hdr) (k : Fin 4) (s : State) (w : Waiting), Safety.Sets s c w (slotKey k.val) ImgSlot.VERIFY 1 ∧ rd s (slotKey k.val) ImgSlot.ERASE = 0) ∧
    (∃ (c : Hdr) (k : Fin 4) (s : State) (w : Waiting), Safety.Sets s c w (slotKey k.val) ImgSlot.ERASE 1) ∧
    (∃ (k : Fin 4) (s : State) (img : Tab Nat), k.val ∈ s.eng.verifying ∧ slotImage s k.val = img) :=
  ⟨⟨hd, 1, 577, List.replicate 256 0, ask (waits 0x0202 (12 + Machine.sizeOf (obj .imgData ((1 : Fin 4).val * slotParts + 577)))) (up),
   waits 0x0202 (12 + Machine.sizeOf (obj .imgData ((1 : Fin 4).val * slotParts + 577))), write_of (by decide +kernel), by decide +kernel⟩,
   ⟨hd, 1, ask (waits 0x0202 (12 + Machine.sizeOf (slotKey (1 : Fin 4).val))) (fld (slotKey 1) ImgSlot.SLOT_STATE 1 up),
   waits 0x0202 (12 + Machine.sizeOf (slotKey (1 : Fin 4).val)), write_of (by decide +kernel), by decide +kernel⟩,
   ⟨hd, 1, ask (waits 0x0202 (12 + Machine.sizeOf (slotKey (1 : Fin 4).val))) (up), waits 0x0202 (12 + Machine.sizeOf (slotKey (1 : Fin 4).val)),
   write_of (by decide +kernel)⟩,
   ⟨1, { up with eng := { up.eng with verifying := [1] } }, slotImage ({ up with eng := { up.eng with verifying := [1] } }) (1 : Fin 4).val,
   by decide +kernel⟩⟩

/-- Every clause of `Reloads` with hypotheses has a case. -/
theorem witness_Reloads :
    (∃ (c : Hdr) (cl : Fin 32) (s : State) (w : Waiting), Safety.Sets s c w (clKey cl.val) ClCtl.LOAD_GO 1 ∧
      (clState s cl.val = csRunning ∨ clState s cl.val = csEmpty ∨ clState s cl.val = csFailed)) ∧
    (∃ (cl : Fin 32) (s : State) (r : Reload), (getCl s cl.val).reload = some r ∧ r.sweep = false ∧ reloadTurn s = some cl.val ∧ ((∀ o < 32,
      inProgress s o = false ∧ clState s o ≠ csFailed)) ∧ slotLoadable s r.slot (rd s (clKey cl.val) ClCtl.PROTECT) = true ∧
      abiOk s cl.val r.slot = true ∧
      (flag s (clKey cl.val) ClCtl.FORCE = true ∨ loadFits s (rd s (clKey cl.val) ClCtl.LOAD_LIMIT) (stayInService s cl.val) = true)) ∧
    (∃ (cl : Fin 32) (s : State) (r : Reload), (getCl s cl.val).reload = some r ∧ r.sweep = false ∧ reloadTurn s = some cl.val ∧ ((∀ o < 32,
      inProgress s o = false ∧ clState s o ≠ csFailed)) ∧ slotLoadable s r.slot (rd s (clKey cl.val) ClCtl.PROTECT) = true ∧
      abiOk s cl.val r.slot = true ∧ flag s (clKey cl.val) ClCtl.FORCE = false ∧
      loadFits s (rd s (clKey cl.val) ClCtl.LOAD_LIMIT) (stayInService s cl.val) = false) ∧
    (∃ (cl : Fin 32) (s : State) (r : Reload), (getCl s cl.val).reload = some r ∧ r.sweep = true ∧ reloadTurn s = some cl.val ∧ (∀ o < 32,
      inProgress s o = false)) ∧
    (∃ (cl : Fin 32) (s : State) (r : Reload) (ts : Nat), (getCl s cl.val).reload = some r ∧ r.phase = .fixed ts) ∧
    (∃ (cl : Fin 32) (s : State) (r : Reload), (getCl s cl.val).reload = some r ∧ r.phase = .draining ∧ clState s cl.val = csDraining ∧
      busyThreads s cl.val = 0) ∧
    (∃ (cl : Fin 32) (s : State), (getCl s cl.val).reload = none ∧ clState s cl.val = csDraining ∧ busyThreads s cl.val = 0) ∧
    (∃ (cl : Fin 32) (s : State) (r : Reload) (again : Bool), (getCl s cl.val).reload = some r ∧ r.phase = .loading again) ∧
    (∃ (cl : Fin 32) (s : State) (r : Reload), (getCl s cl.val).reload = some r ∧ r.phase = .loading true ∧ (getCl s cl.val).behind = none) ∧
    (∃ (cl : Fin 32) (s : State) (r : Reload) (at_ : Nat), (getCl s cl.val).reload = some r ∧ r.phase = .loaded at_ ∧
      (getCl s cl.val).behind = none ∧ wantsPark s cl.val = false) ∧
    (∃ (cl : Fin 32) (s : State) (r : Reload), (getCl s cl.val).reload = some r ∧ r.phase = .queued ∧ r.sweep = false ∧
      parkedOrParking s cl.val = false ∧ (getCl s cl.val).behind = none ∧ s.time.stepped ≤ (s.ct : Int)) :=
  ⟨⟨hd, 2, ask (waits 0x0202 (12 + Machine.sizeOf (clKey (2 : Fin 32).val))) (fld (slotKey 0) ImgSlot.SLOT_STATE 3 up),
   waits 0x0202 (12 + Machine.sizeOf (clKey (2 : Fin 32).val)), write_of (by decide +kernel), by decide +kernel⟩,
   ⟨2,
   fld (slotKey 0) ImgSlot.SLOT_STATE 3 { reloading .queued csPending up with eng := { (reloading .queued csPending up).eng with reloads := [2] } },
   reload .queued, by decide +kernel⟩,
   ⟨2,
   busyLoad (fld (slotKey 0) ImgSlot.SLOT_STATE 3 { reloading .queued csPending up with eng := { (reloading .queued csPending up).eng with reloads := [2] } }),
   reload .queued, by decide +kernel⟩,
   ⟨2,
   { inCl { clusterOf 0 with reload := some ({ reload .out with sweep := true }) } csDraining up with eng := { (inCl { clusterOf 0 with reload := some ({ reload .out with sweep := true }) } csDraining up).eng with reloads := [2] } },
   { reload .out with sweep := true }, by decide +kernel⟩,
   ⟨2, reloading (.fixed 70000) csPending up, reload (.fixed 70000), 70000, by decide +kernel⟩,
   ⟨2, reloading .draining csDraining up, reload .draining, by decide +kernel⟩,
   ⟨2, inCl (clusterOf 0) csDraining up, by decide +kernel⟩,
   ⟨2, reloading (.loading false) csLoading up, reload (.loading false), false, by decide +kernel⟩,
   ⟨2, reloading (.loading true) csLoading up, reload (.loading true), by decide +kernel⟩,
   ⟨2, fld (clKey 2) ClCtl.ENABLE 1 (reloading (.loaded 90000) csLoading up), reload (.loaded 90000), 90000, by decide +kernel⟩,
   ⟨2, reloading .queued csPending up, reload .queued, by decide +kernel⟩⟩

/-- Every clause of `ParkingAndPatches` with hypotheses has a case. -/
theorem witness_ParkingAndPatches :
    (∃ (c : Hdr) (cl : Fin 32) (s : State) (w : Waiting), Safety.Sets s c w (clKey cl.val) ClCtl.ENABLE 0 ∧ rd s (clKey cl.val) ClCtl.LOAD_GO = 0 ∧
      rd s (clKey cl.val) ClCtl.PATCH_GO = 0 ∧ rd s (clKey cl.val) ClCtl.ENABLE = 1 ∧ inService s cl.val = true) ∧
    (∃ (c : Hdr) (cl : Fin 32) (s : State) (w : Waiting), Safety.Sets s c w (clKey cl.val) ClCtl.ENABLE 1 ∧ rd s (clKey cl.val) ClCtl.LOAD_GO = 0 ∧
      rd s (clKey cl.val) ClCtl.PATCH_GO = 0 ∧ rd s (clKey cl.val) ClCtl.ENABLE = 0 ∧ clState s cl.val = csParked ∧ (getCl s cl.val).shed = false ∧
      (getCl s cl.val).reload = none) ∧
    (∃ (c : Hdr) (cl : Fin 32) (s : State) (w : Waiting) (p : Tab Nat) (good : Bool) (signer : Bool),
      Safety.Sets s c w (clKey cl.val) ClCtl.PATCH_GO 1 ∧ rd s (clKey cl.val) ClCtl.LOAD_GO = 0 ∧ stagedPatch s cl.val = p ∧
      patchFormOk (getCl s cl.val) p = true ∧ good = digestOk p 320 (8 * imgNat p 57 1 + 24 * imgNat p 58 1) ∧
      signer = (if imgNat p 112 97 = 0 then parityMode s cl.val else (signerSlot s p).isSome && signatureOk p) ∧ good = true ∧ signer = true) ∧
    (∃ (c : Hdr) (cl : Fin 32) (s : State) (w : Waiting) (p : Tab Nat) (good : Bool) (signer : Bool),
      Safety.Sets s c w (clKey cl.val) ClCtl.PATCH_GO 1 ∧ rd s (clKey cl.val) ClCtl.LOAD_GO = 0 ∧ stagedPatch s cl.val = p ∧
      patchFormOk (getCl s cl.val) p = true ∧ good = digestOk p 320 (8 * imgNat p 57 1 + 24 * imgNat p 58 1) ∧
      signer = (if imgNat p 112 97 = 0 then parityMode s cl.val else (signerSlot s p).isSome && signatureOk p) ∧ (good = false ∨ signer = false)) ∧
    (∃ (cl : Fin 32) (s : State) (at_ : Nat), (getCl s cl.val).patch = some at_) :=
  ⟨⟨hd, 2, ask (waits 0x0202 (12 + Machine.sizeOf (clKey (2 : Fin 32).val))) (fld (clKey 2) ClCtl.ENABLE 1 (inCl (clusterOf 0) csRunning up)),
   waits 0x0202 (12 + Machine.sizeOf (clKey (2 : Fin 32).val)), write_of (by decide +kernel), by decide +kernel⟩,
   ⟨hd, 2, ask (waits 0x0202 (12 + Machine.sizeOf (clKey (2 : Fin 32).val))) (fld (clKey 2) ClCtl.ENABLE 0 (inCl (clusterOf 0) csParked up)),
   waits 0x0202 (12 + Machine.sizeOf (clKey (2 : Fin 32).val)), write_of (by decide +kernel), by decide +kernel⟩,
   ⟨hd, 2,
   ask (waits 0x0202 (12 + Machine.sizeOf (clKey (2 : Fin 32).val))) (patched patchDigest (fld (clVer 2) ClVersion.PROT_ACTIVE 1 (inCl (clusterOf 0) csRunning up))),
   waits 0x0202 (12 + Machine.sizeOf (clKey (2 : Fin 32).val)),
   stagedPatch (ask (waits 0x0202 (12 + Machine.sizeOf (clKey (2 : Fin 32).val))) (patched patchDigest (fld (clVer 2) ClVersion.PROT_ACTIVE 1 (inCl (clusterOf 0) csRunning up)))) 2,
   true, true, write_of (by decide +kernel), by decide +kernel⟩,
   ⟨hd, 2, ask (waits 0x0202 (12 + Machine.sizeOf (clKey (2 : Fin 32).val))) (patched 0 (inCl (clusterOf 0) csRunning up)),
   waits 0x0202 (12 + Machine.sizeOf (clKey (2 : Fin 32).val)),
   stagedPatch (ask (waits 0x0202 (12 + Machine.sizeOf (clKey (2 : Fin 32).val))) (patched 0 (inCl (clusterOf 0) csRunning up))) 2, false, false,
   write_of (by decide +kernel), by decide +kernel⟩,
   ⟨2, inCl { clusterOf 0 with patch := some 66000 } csRunning up, 66000, by decide +kernel⟩⟩

/-- Every clause of `TableChanges` with hypotheses has a case. -/
theorem witness_TableChanges :
    (∃ (c : Hdr) (tid : BitVec 16) (keyLen : BitVec 16) (entLen : BitVec 16) (key : Bytes) (entry : Bytes) (s : State) (w : Waiting),
      Safety.Turn s c w 0x0301 accConfig (8 + keyLen.toNat + entLen.toNat) 0x30 ∧ isTable tid.toNat = true ∧ key.length = keyLen.toNat ∧
      entry.length = entLen.toNat ∧ keyLen.toNat = keyLenOf s tid.toNat ∧ entryLenOk tid.toNat entry = true ∧ keyOk s tid.toNat key = true ∧
      entryOk tid.toNat entry = true ∧ s.tbl.unbuilt + s.tbl.turns.length < maxUnbuilt ∧ s.tbl.turns.length < maxTurns) ∧
    (∃ (c : Hdr) (tid : BitVec 16) (keyLen : BitVec 16) (key : Bytes) (s : State) (w : Waiting),
      Safety.Turn s c w 0x0302 accConfig (8 + keyLen.toNat) 0x30 ∧ isTable tid.toNat = true ∧ key.length = keyLen.toNat ∧
      keyLen.toNat = keyLenOf s tid.toNat ∧ keyOk s tid.toNat key = true ∧ s.tbl.unbuilt + s.tbl.turns.length < maxUnbuilt ∧
      s.tbl.turns.length < maxTurns) ∧
    (∃ (s : State) (w : Waiting) (x : Machine.Turn) (rest : List Machine.Turn), s.tbl.turns = x :: rest ∧ s.cmd.waiting = [w] ∧ w.hdr = x.hdr ∧
      w.phase = .turn ∧ (w.op = 0x0301 ∨ w.op = 0x0302) ∧ rd s (sessKey w.hdr.sid.val) SessStatus.NEXT_SEQ < 2 ^ 64 - 4096 ∧
      changeOk { s with tbl := { s.tbl with turns := rest } } x.tid x.key x.entry = true) :=
  ⟨⟨hd, 2, 4, 8, [0, 0x3F, 0xFF, 0xFF], List.replicate 8 0,
   ask (waits 0x0301 (8 + (4 : BitVec 16).toNat + (8 : BitVec 16).toNat)) ({ up with tbl := { up.tbl with turns := List.replicate 1999 ⟨hd, 2, 0, none⟩ } }),
   waits 0x0301 (8 + (4 : BitVec 16).toNat + (8 : BitVec 16).toNat), turn_of (by decide +kernel), by decide +kernel⟩,
   ⟨hd, 2, 4, [0, 0, 0, 1], ask (waits 0x0302 (8 + (4 : BitVec 16).toNat)) (up), waits 0x0302 (8 + (4 : BitVec 16).toNat),
   turn_of (by decide +kernel), by decide +kernel⟩,
   ⟨ask ({ waits 0x0301 20 with phase := .turn }) ({ up with tbl := { up.tbl with turns := [(⟨hd, 2, 7, some [0]⟩ : Machine.Turn)] } }),
   { waits 0x0301 20 with phase := .turn }, ⟨hd, 2, 7, some [0]⟩, [], by decide +kernel⟩⟩

/-- Every clause of `CommitsAndEpochs` with hypotheses has a case. -/
theorem witness_CommitsAndEpochs :
    (∃ (c : Hdr) (s : State) (w : Waiting), Safety.Turn s c w 0x0303 accConfig 4 0x30 ∧ s.tbl.commits = [] ∧
      0 < (s.tbl.pend.map fun e => e.2.length).sum) ∧
    (∃ (c : Hdr) (s : State) (w : Waiting), Safety.Turn s c w 0x0303 accConfig 4 0x30 ∧ s.tbl.commits = [] ∧ s.tbl.pend = []) ∧
    (∃ (s : State) (k : Commit) (rest : List Commit), s.tbl.commits = k :: rest ∧ k.phase = .building ∧ s.tbl.epochs.length ≤ 1) ∧
    (∃ (s : State) (w : Waiting) (k : Commit) (at_ : Nat) (tid : Nat) (l : Changes), s.tbl.commits = [k] ∧ k.phase = .fixed at_ ∧ k.sets = [(tid,
      l)] ∧ s.cmd.waiting = [w] ∧ w.hdr = k.hdr ∧ w.phase = .started 0x30 ∧ w.op = 0x0303 ∧ s.tbl.epochs ≠ [] ∧
      rd s (sessKey w.hdr.sid.val) SessStatus.NEXT_SEQ < 2 ^ 64 - 4096) ∧
    (∃ (s : State) (new : Epoch) (old : Epoch) (rest : List Epoch), s.tbl.epochs = new :: old :: rest ∧ (∀ x ∈ s.eng.threads, x.2.epoch ≠ old.number)) ∧
    (∃ (s : State) (new : Epoch) (old : Epoch) (rest : List Epoch), s.tbl.epochs = new :: old :: rest ∧ (∃ x ∈ s.eng.threads, x.2.epoch = old.number)) :=
  ⟨⟨hd, ask (waits 0x0303 4) ({ up with tbl := { up.tbl with pend := [(2, [(7, some [0])])] } }), waits 0x0303 4, turn_of (by decide +kernel),
   by decide +kernel⟩,
   ⟨hd, ask (waits 0x0303 4) (up), waits 0x0303 4, turn_of (by decide +kernel), by decide +kernel⟩,
   ⟨{ up with tbl := { up.tbl with commits := [(⟨hd, [], 1, 0, .building⟩ : Commit)] } }, ⟨hd, [], 1, 0, .building⟩, [], by decide +kernel⟩,
   ⟨ask ({ waits 0x0303 4 with phase := .started 0x30 }) ({ up with tbl := { up.tbl with commits := [(⟨hd, [(2, ([(7, some [9])]))], 1, 0, .fixed 99⟩ : Commit)] } }),
   { waits 0x0303 4 with phase := .started 0x30 }, ⟨hd, [(2, ([(7, some [9])]))], 1, 0, .fixed 99⟩, 99, 2, [(7, some [9])], by decide +kernel⟩,
   ⟨{ up with tbl := { up.tbl with epochs := [(⟨1, []⟩ : Epoch), (⟨0, []⟩ : Epoch)] } }, ⟨1, []⟩, ⟨0, []⟩, [], by decide +kernel⟩,
   ⟨running 0 thr ({ up with tbl := { up.tbl with epochs := [(⟨1, []⟩ : Epoch), (⟨0, []⟩ : Epoch)] } }), ⟨1, []⟩, ⟨0, []⟩, [], by decide +kernel⟩⟩

/-- Every clause of `TableReadsAndLoads` with hypotheses has a case. -/
theorem witness_TableReadsAndLoads :
    (∃ (c : Hdr) (tid : BitVec 16) (keyLen : BitVec 16) (key : Bytes) (s : State) (w : Waiting),
      Safety.Turn s c w 0x0304 accRead (8 + keyLen.toNat) 0x30 ∧ isTable tid.toNat = true ∧ key.length = keyLen.toNat ∧
      keyLen.toNat = keyLenOf s tid.toNat ∧ keyOk s tid.toNat key = true ∧ present s tid.toNat = true ∧ (tid.toNat,
      keyNumber s tid.toNat key) ∉ s.tbl.lost) ∧
    (∃ (c : Hdr) (tid : BitVec 16) (keyLen : BitVec 16) (entLen : BitVec 16) (count : BitVec 32) (records : List (Bytes × Bytes)) (s : State) (u : State) (w : Waiting),
      Safety.Turn s c w 0x0305 accConfig (16 + count.toNat * (keyLen.toNat + entLen.toNat)) 0x30 ∧ isTable tid.toNat = true ∧ tid ≠ 3 ∧
      records.length = count.toNat ∧ ((∀ r ∈ records, r.1.length = keyLen.toNat ∧ r.2.length = entLen.toNat)) ∧ keyLen.toNat = keyLenOf s tid.toNat ∧
      entLen.toNat = entLenOf tid.toNat 0 ∧ bulkRange s tid.toNat false records = none ∧
      s.tbl.unbuilt + s.tbl.turns.length + records.length ≤ maxUnbuilt ∧ present s tid.toNat = true ∧ bulkAll tid.toNat false records 0 s = .ok u) ∧
    (∃ (c : Hdr) (tid : BitVec 16) (family : Bool) (s : State) (w : Waiting),
      Safety.Write s c w (obj .ptDesc tid.toNat) (putF (putF (rdWord s (obj .ptDesc tid.toNat)) PtDesc.STATE 1) PtDesc.FAMILY (if family then 1 else 0)) ∧
      isPrefix tid.toNat = true) ∧
    (∃ (c : Hdr) (tid : BitVec 16) (s : State) (w : Waiting), Safety.Sets s c w (obj .ptDesc tid.toNat) PtDesc.STATE 0 ∧ isPrefix tid.toNat = true) :=
  ⟨⟨hd, 2, 4, [0, 0, 0, 1], ask (waits 0x0304 (8 + (4 : BitVec 16).toNat)) (up), waits 0x0304 (8 + (4 : BitVec 16).toNat),
   turn_of (by decide +kernel), by decide +kernel⟩,
   ⟨hd, 2, 4, 8, 1, [([0, 0, 0, 1], List.replicate 8 0)],
   ask (waits 0x0305 (16 + (1 : BitVec 32).toNat * ((4 : BitVec 16).toNat + (8 : BitVec 16).toNat))) (up), match bulkAll 2 false [([0, 0, 0, 1],
   List.replicate 8 0)] 0 (ask (waits 0x0305 (16 + (1 : BitVec 32).toNat * ((4 : BitVec 16).toNat + (8 : BitVec 16).toNat))) (up)) with | .ok v => v | .error _ => (ask (waits 0x0305 (16 + (1 : BitVec 32).toNat * ((4 : BitVec 16).toNat + (8 : BitVec 16).toNat))) (up)),
   waits 0x0305 (16 + (1 : BitVec 32).toNat * ((4 : BitVec 16).toNat + (8 : BitVec 16).toNat)), turn_of (by decide +kernel), by decide +kernel⟩,
   ⟨hd, 0x100, true, ask (waits 0x0202 (12 + Machine.sizeOf (obj .ptDesc (0x100 : BitVec 16).toNat))) (up),
   waits 0x0202 (12 + Machine.sizeOf (obj .ptDesc (0x100 : BitVec 16).toNat)), write_of (by decide +kernel), by decide +kernel⟩,
   ⟨hd, 0x100, ask (waits 0x0202 (12 + Machine.sizeOf (obj .ptDesc (0x100 : BitVec 16).toNat))) (fld (obj .ptDesc 0x100) PtDesc.STATE 1 up),
   waits 0x0202 (12 + Machine.sizeOf (obj .ptDesc (0x100 : BitVec 16).toNat)), write_of (by decide +kernel), by decide +kernel⟩⟩

/-- Every clause of `LookupResults` with hypotheses has a case. -/
theorem witness_LookupResults :
    (∃ (s : State) (t : Fin 16384) (x : Thread) (k : Look) (tid : Nat) (a : Nat), ((∀ l,
      leafOf (epochOf s x.epoch) tid (addrBits s tid) a = some l → l ∈ s.tbl.cache)) ∧ getThr s t.val = some x ∧ (∀ e ∈ s.eng.orphans, e.1 ≠ t.val) ∧
      x.look = some k ∧ k.unit = .lpm ∧ k.phase = .accepted ∧ (x.hold = .ready ∨ x.hold = .result) ∧ lpmRequest s k = some (tid, a) ∧
      walkBad s (epochOf s x.epoch) tid a = false) ∧
    (∃ (s : State) (t : Fin 16384) (x : Thread) (k : Look), getThr s t.val = some x ∧ (∀ e ∈ s.eng.orphans, e.1 ≠ t.val) ∧ x.look = some k ∧
      k.unit = .lpm ∧ k.phase = .accepted ∧ (x.hold = .ready ∨ x.hold = .result) ∧ lpmRequest s k = none) ∧
    (∃ (s : State) (t : Fin 16384) (x : Thread) (k : Look), getThr s t.val = some x ∧ (∀ e ∈ s.eng.orphans, e.1 ≠ t.val) ∧ x.look = some k ∧
      k.unit = .exm ∧ k.phase = .accepted ∧ (x.hold = .ready ∨ x.hold = .result) ∧ k.imm = 2 ∧ k.klen = 0 ∧
      .word 2 (keyReg k 0 % 2 ^ 22) ∉ s.tbl.bad ∧ nextHop (epochOf s x.epoch) (keyReg k 0 % 2 ^ 22) / 2 ^ 61 ≠ 0) ∧
    (∃ (s : State) (t : Fin 16384) (x : Thread) (k : Look) (line : HbmLine), getThr s t.val = some x ∧ (∀ e ∈ s.eng.orphans, e.1 ≠ t.val) ∧
      x.look = some k ∧ k.phase = .accepted ∧ k.unit = .exm ∧ lineNeeded s x k = some line ∧ noReads s = false) ∧
    (∃ (s : State) (t : Fin 16384) (x : Thread) (k : Look) (n : Nat) (b : Nat × Option Nat), getThr s t.val = some x ∧ (∀ e ∈ s.eng.orphans,
      e.1 ≠ t.val) ∧ x.look = some k ∧ k.phase = .reading (.labels n) false (some b) ∧ k.unit = .exm ∧ tabSorted s.eng.threads = true) ∧
    (∃ (s : State) (t : Fin 16384) (x : Thread) (k : Look) (line : HbmLine) (b : Nat × Option Nat), getThr s t.val = some x ∧ (∀ e ∈ s.eng.orphans,
      e.1 ≠ t.val) ∧ x.look = some k ∧ k.phase = .reading line false (some b) ∧ tabSorted s.eng.threads = true) ∧
    (∃ (s : State) (exm : Bool) (e : Broken) (l : List Broken), s.tbl.bad = e :: l ∧ e.exm = exm) :=
  ⟨⟨{ (fld (obj .ptDesc 0x100) PtDesc.STATE 1 up) with eng := { up.eng with threads := [(7, ({ thr with look := some ({ lookup .lpm .accepted with imm := 0x100 }), hold := .ready }))] } },
   7, { thr with look := some ({ lookup .lpm .accepted with imm := 0x100 }), hold := .ready }, { lookup .lpm .accepted with imm := 0x100 }, 0x100, 3,
   all_of_none (by decide +kernel), by decide +kernel⟩,
   ⟨{ up with eng := { up.eng with threads := [(7, ({ thr with look := some ({ lookup .lpm .accepted with imm := 0x100 }), hold := .result }))] } },
   7, { thr with look := some ({ lookup .lpm .accepted with imm := 0x100 }), hold := .result }, { lookup .lpm .accepted with imm := 0x100 },
   by decide +kernel⟩,
   ⟨{ { up with eng := { up.eng with threads := [(7, ({ thr with look := some ({ lookup .exm .accepted with imm := 2 }), hold := .ready }))] } } with tbl := { up.tbl with epochs := [⟨0, [(2, [(3, [2 ^ 61])])]⟩] } },
   7, { thr with look := some ({ lookup .exm .accepted with imm := 2 }), hold := .ready }, { lookup .exm .accepted with imm := 2 }, by decide +kernel⟩,
   ⟨{ up with eng := { up.eng with threads := [(7, ({ thr with look := some ({ lookup .exm .accepted with imm := 4 }), hold := .ready }))] } }, 7,
   { thr with look := some ({ lookup .exm .accepted with imm := 4 }), hold := .ready }, { lookup .exm .accepted with imm := 4 }, .labels 0,
   by decide +kernel⟩,
   ⟨{ up with eng := { up.eng with threads := [(7, ({ thr with look := some ({ lookup .exm (.reading (.labels 0) false (some ((0, none)))) with imm := 4 }), hold := .result }))] } },
   7, { thr with look := some ({ lookup .exm (.reading (.labels 0) false (some ((0, none)))) with imm := 4 }), hold := .result },
   { lookup .exm (.reading (.labels 0) false (some ((0, none)))) with imm := 4 }, 0, (0, none), by decide +kernel⟩,
   ⟨{ up with eng := { up.eng with threads := [(7, ({ thr with look := some ({ lookup .exm (.reading (.labels 0 : HbmLine) false (some ((0, none)))) with imm := 4 }), hold := .result }))] } },
   7, { thr with look := some ({ lookup .exm (.reading (.labels 0 : HbmLine) false (some ((0, none)))) with imm := 4 }), hold := .result },
   { lookup .exm (.reading (.labels 0 : HbmLine) false (some ((0, none)))) with imm := 4 }, .labels 0, (0, none), by decide +kernel⟩,
   ⟨{ up with tbl := { up.tbl with bad := [(.word 2 5 : Broken)] } }, true, .word 2 5, [], by decide +kernel⟩⟩

/-- Every clause of `PatternMatcher` with hypotheses has a case. -/
theorem witness_PatternMatcher :
    (∃ (c : Hdr) (b : Nat) (i : Nat) (data : Bytes) (s : State) (w : Waiting), Safety.Write s c w (obj .patWin (b * patParts + i)) (ofBytes data) ∧
      b < 2 ∧ i < patParts ∧ data.length = 256 ∧
      covered (addrOf (obj .patWin 0) + BitVec.ofNat 48 (256 * (b * patParts + i))) 256 = some [obj .patWin (b * patParts + i)] ∧
      (addrOf (obj .patWin 0) + BitVec.ofNat 48 (256 * (b * patParts + i))).toNat / 2 ^ 40 = blockOf (obj .patWin (b * patParts + i))) ∧
    (∃ (c : Hdr) (s : State) (w : Waiting), Safety.Sets s c w (obj .patCtl) PatCtl.SWAP 1 ∧ rd s (obj .patCtl) PatCtl.ERASE = 0 ∧
      s.pat.verifying = false ∧ s.pat.swapAt = none) ∧
    (∃ (s : State), s.pat.verifying = true ∧ imageFieldsOk s (standby s) = true ∧ patDigestOk s (standby s) = true) ∧
    (∃ (s : State), s.pat.verifying = true ∧ (imageFieldsOk s (standby s) = false ∨ patDigestOk s (standby s) = false)) ∧
    (∃ (s : State) (at_ : Nat), s.pat.swapAt = some at_ ∧ bankState s (standby s) = pbReady) ∧
    (∃ (s : State), bankState s 0 = pbDraining ∧ (∀ x ∈ s.eng.threads, x.2.patBank ≠ some 0)) ∧
    (∃ (c : Hdr) (s : State) (w : Waiting), Safety.Sets s c w (obj .patCtl) PatCtl.ERASE 1 ∧ rd s (obj .patCtl) PatCtl.SWAP = 0) ∧
    (∃ (s : State) (t : Fin 16384) (x : Thread) (k : Look), getThr s t.val = some x ∧ x.look = some k ∧ (∀ e ∈ s.eng.orphans, e.1 ≠ t.val) ∧
      k.unit = .pat ∧ k.phase = .accepted ∧ patBad s x k = false ∧ patDamaged s x k = false ∧ needsFetch x k = true ∧ scanWaits s x k = false ∧
      fetches s < 2048) ∧
    (∃ (s : State) (t : Fin 16384) (x : Thread) (k : Look), getThr s t.val = some x ∧ x.look = some k ∧ (∀ e ∈ s.eng.orphans, e.1 ≠ t.val) ∧
      k.phase = .fetching) ∧
    (∃ (s : State) (t : Fin 16384) (x : Thread) (k : Look), getThr s t.val = some x ∧ x.look = some k ∧ (∀ e ∈ s.eng.orphans, e.1 ≠ t.val) ∧
      k.unit = .pat ∧ k.phase = .fetched ∧ (x.hold = .ready ∨ x.hold = .result) ∧ patBad s x k = false ∧ patDamaged s x k = false ∧
      scanWaits s x k = false) ∧
    (∃ (s : State) (b : Fin 2), swept s b.val = true ∧ hbmReady s 0 = true) ∧
    (∃ (s : State) (b : Fin 2) (i : Nat) (set : _), set < 64 ∧ swept s b.val = true ∧ i < 262144 ∧ i < patRules s b.val ∧
      getF (setEntry s b.val set) RuleSet.VALID = 1 ∧ getF (ruleAt s b.val i) RuleEntry.SET = set) ∧
    (∃ (s : State), s.pat.sweepFrom ≠ none) ∧
    (∃ (s : State), s.pat.sweepFrom = none) :=
  ⟨⟨hd, 0, 49159, List.replicate 256 0, ask (waits 0x0202 (12 + Machine.sizeOf (obj .patWin (0 * patParts + 49159)))) (up),
   waits 0x0202 (12 + Machine.sizeOf (obj .patWin (0 * patParts + 49159))), write_of (by decide +kernel), by decide +kernel⟩,
   ⟨hd, ask (waits 0x0202 (12 + Machine.sizeOf (obj .patCtl))) (banks pbWritten pbEmpty up), waits 0x0202 (12 + Machine.sizeOf (obj .patCtl)),
   write_of (by decide +kernel), by decide +kernel⟩,
   ⟨digested (banks pbWritten pbActive { up with pat := { up.pat with verifying := true } }), by decide +kernel⟩,
   ⟨banks pbWritten pbActive { up with pat := { up.pat with verifying := true } }, by decide +kernel⟩,
   ⟨banks pbReady pbActive { up with pat := { up.pat with swapAt := some 88 } }, 88, by decide +kernel⟩,
   ⟨banks pbDraining pbActive up, by decide +kernel⟩,
   ⟨hd, ask (waits 0x0202 (12 + Machine.sizeOf (obj .patCtl))) (banks pbReady pbActive up), waits 0x0202 (12 + Machine.sizeOf (obj .patCtl)),
   write_of (by decide +kernel), by decide +kernel⟩,
   ⟨{ (imaged 0 (2 ^ 127) up) with eng := { up.eng with threads := [(7, ({ thr with look := some ({ lookup .pat .accepted with klen := 2, key := [3, 4, 5, 250 + 16 * 2 ^ 9] }), hold := .ready, patBank := some 0, ref := { refOf 1 with len := 1000 } }))] } },
   7,
   { thr with look := some ({ lookup .pat .accepted with klen := 2, key := [3, 4, 5, 250 + 16 * 2 ^ 9] }), hold := .ready, patBank := some 0, ref := { refOf 1 with len := 1000 } },
   { lookup .pat .accepted with klen := 2, key := [3, 4, 5, 250 + 16 * 2 ^ 9] }, by decide +kernel⟩,
   ⟨{ up with eng := { up.eng with threads := [(7, ({ thr with look := some (lookup .pat .fetching), hold := .ready, patBank := some 0 }))] } }, 7,
   { thr with look := some (lookup .pat .fetching), hold := .ready, patBank := some 0 }, lookup .pat .fetching, by decide +kernel⟩,
   ⟨{ (wr (imaged 0 (2 ^ 127) up) (winKey 0 0) ⟨1920, 4⟩ 0) with eng := { up.eng with threads := [(7, ({ thr with look := some (lookup .pat .fetched), hold := .ready, patBank := some 0 }))] } },
   7, { thr with look := some (lookup .pat .fetched), hold := .ready, patBank := some 0 }, lookup .pat .fetched, by decide +kernel⟩,
   ⟨sweeping (fld (obj .hbStatus 0) HbStatus.STATE 1 (banks pbReady pbActive up)), 1, by decide +kernel⟩,
   ⟨sweeping (imaged 0 (2 ^ 127) (banks pbActive pbReady up)), 0, 0, 0, by decide +kernel⟩,
   ⟨sweeping up, by decide +kernel⟩,
   ⟨up, by decide +kernel⟩⟩

/-- Every clause of `MemberChoice` with hypotheses has a case. -/
theorem witness_MemberChoice :
    ∃ (l : List Nat) (hash : Nat), l ≠ [] ∧ hash < 2 ^ 32 :=
  ⟨[10, 11, 12, 13, 14, 15], 0xFFFFFFFF, by decide +kernel⟩

/-- Every clause of `LinkStates` with hypotheses has a case. -/
theorem witness_LinkStates :
    (∃ (p : Fin 48) (s : State), isEthernet s p.val = true ∧ adminUp s p.val = true ∧ portShed s p.val = false ∧ identityOk s p.val = true ∧
      linkOf s p.val = lkDown) ∧
    (∃ (p : Fin 48) (s : State), isEthernet s p.val = true ∧ adminUp s p.val = true ∧ linkOf s p.val = lkHolding) ∧
    (∃ (p : Fin 48) (s : State), linkOf s p.val = lkHolding ∧ mayRise s p.val = true) ∧
    (∃ (p : Fin 48) (s : State) (u : State), Safety.NoneUnderWay s p.val ∧ linkOf s p.val = lkUp ∧ portCond s p.val = false ∧
      u = waited p.val (rd s (lpK p.val) LpCtl.DOWN_HOLD * ms) s) ∧
    (∃ (p : Fin 48) (s : State), linkOf s p.val = lkHeld) ∧
    (∃ (c : Hdr) (p : Fin 48) (s : State) (w : Waiting), Safety.Sets s c w (lpK p.val) LpCtl.ADMIN_UP 1 ∧ adminUp s p.val = false) ∧
    (∃ (c : Hdr) (p : Fin 48) (s : State) (w : Waiting), Safety.Sets s c w (lpK p.val) LpCtl.ADMIN_UP 0 ∧ Safety.NoneUnderWay s p.val ∧
      adminUp s p.val = true) :=
  ⟨⟨2, port2 3 lkDown up, by decide +kernel⟩,
   ⟨2, port2 3 lkHolding up, by decide +kernel⟩,
   ⟨2, port2 3 lkHolding up, by decide +kernel⟩,
   ⟨2, { port2 3 lkUp up with line := { up.line with cond := [] } },
   waited (2 : Fin 48).val (rd ({ port2 3 lkUp up with line := { up.line with cond := [] } }) (lpK (2 : Fin 48).val) LpCtl.DOWN_HOLD * ms) ({ port2 3 lkUp up with line := { up.line with cond := [] } }),
   by unfold Safety.NoneUnderWay; decide +kernel, by decide +kernel⟩,
   ⟨2, port2 3 lkHeld up, by decide +kernel⟩,
   ⟨hd, 2, ask (waits 0x0202 (12 + Machine.sizeOf (lpK (2 : Fin 48).val))) (fld (lpK 2) LpCtl.ADMIN_UP 0 (port2 3 lkDown up)),
   waits 0x0202 (12 + Machine.sizeOf (lpK (2 : Fin 48).val)), write_of (by decide +kernel), by decide +kernel⟩,
   ⟨hd, 2, ask (waits 0x0202 (12 + Machine.sizeOf (lpK (2 : Fin 48).val))) (lineUp), waits 0x0202 (12 + Machine.sizeOf (lpK (2 : Fin 48).val)),
   write_of (by decide +kernel), by unfold Safety.NoneUnderWay; decide +kernel, by decide +kernel⟩⟩

/-- Every clause of `FramesReceivedAndSent` with hypotheses has a case. -/
theorem witness_FramesReceivedAndSent :
    (∃ (p : Fin 48) (f : LineFrame) (s : State), isEthernet s p.val = true ∧ inSafe s = false ∧ portUp s p.val = true ∧ silent s p.val = false ∧
      portCond s p.val = true ∧ f.bad64 = true) ∧
    (∃ (p : Fin 48) (f : LineFrame) (s : State), isEthernet s p.val = true ∧ inSafe s = false ∧ portUp s p.val = true ∧ silent s p.val = false ∧
      portCond s p.val = true ∧ f.bad64 = false ∧ f.len < 64) ∧
    (∃ (p : Fin 48) (f : LineFrame) (s : State), isEthernet s p.val = true ∧ inSafe s = false ∧ portUp s p.val = true ∧ silent s p.val = false ∧
      portCond s p.val = true ∧ f.bad64 = false ∧ 64 ≤ f.len ∧ f.bufBad = false ∧ flag s (msK p.val) MsPort.EN = false ∧ fifoOf s p.val = [] ∧
      f.content.etherType = 0x8808 ∧ f.content.opcode ≠ 0x0101) ∧
    (∃ (p : Fin 48) (f : LineFrame) (s : State), isEthernet s p.val = true ∧ inSafe s = false ∧ portUp s p.val = true ∧ silent s p.val = false ∧
      portCond s p.val = true ∧ f.bad64 = false ∧ f.fecBad = false ∧ f.pcsBad = false ∧ f.fcsOk = true ∧ f.bufBad = false ∧ 64 ≤ f.len ∧
      f.len ≤ maxFrame s p.val ∧ f.fecWords = 0 ∧ f.fecSyms = 0 ∧ f.ring = [] ∧ flag s (msK p.val) MsPort.EN = false ∧ fifoOf s p.val = [] ∧
      f.content.etherType ≠ 0x8808 ∧ f.content.etherType ≠ 0x8809 ∧ (¬ (isBfd f.content.window.toNat = true ∧
      flag s (lpK p.val) LpCtl.BFD_DIVERT = true)) ∧ (¬ (f.content.toPtp = true ∧ rd s (obj .ptCtl p.val) PtCtl.PTP_MODE = 1)) ∧
      billetsOf f.len ≤ mayDraw s (arrivalPool s p.val f.content) ∧ (dispOf s p.val).length < dispatchRoom s p.val) ∧
    (∃ (p : Fin 48) (f : LineFrame) (s : State), isEthernet s p.val = true ∧ inSafe s = false ∧ portUp s p.val = true ∧ silent s p.val = false ∧
      portCond s p.val = true ∧ f.bad64 = false ∧ f.fecBad = false ∧ f.pcsBad = false ∧ f.fcsOk = true ∧ f.bufBad = false ∧ 64 ≤ f.len ∧
      f.len ≤ maxFrame s p.val ∧ f.fecWords = 0 ∧ f.fecSyms = 0 ∧ f.ring = [] ∧ flag s (msK p.val) MsPort.EN = false ∧ fifoOf s p.val = [] ∧
      f.content.etherType = 0x8808 ∧ f.content.opcode = 0x0101) ∧
    (∃ (p : Fin 48) (f : LineFrame) (s : State), isEthernet s p.val = true ∧ inSafe s = false ∧ portUp s p.val = true ∧ silent s p.val = false ∧
      portCond s p.val = true ∧ f.bad64 = false ∧ f.fecBad = false ∧ f.pcsBad = false ∧ f.fcsOk = true ∧ f.bufBad = false ∧ 64 ≤ f.len ∧
      f.len ≤ maxFrame s p.val ∧ f.fecWords = 0 ∧ f.fecSyms = 0 ∧ f.ring = [] ∧ flag s (msK p.val) MsPort.EN = false ∧ fifoOf s p.val = [] ∧
      f.content.etherType = 0x8809 ∧ aggOf s p.val = none) ∧
    (∃ (p : Fin 48) (f : LineFrame) (s : State), isEthernet s p.val = true ∧ inSafe s = false ∧ portUp s p.val = true ∧ silent s p.val = false ∧
      portCond s p.val = true ∧ f.bad64 = false ∧ f.fecBad = false ∧ f.pcsBad = false ∧ f.fcsOk = true ∧ f.bufBad = false ∧ 64 ≤ f.len ∧
      f.len ≤ maxFrame s p.val ∧ f.fecWords = 0 ∧ f.fecSyms = 0 ∧ f.ring = [] ∧ flag s (msK p.val) MsPort.EN = false ∧ fifoOf s p.val = [] ∧
      f.content.etherType = 0x8809 ∧ aggOf s p.val ≠ none) ∧
    (∃ (p : Fin 48) (f : LineFrame) (s : State), isEthernet s p.val = true ∧ inSafe s = false ∧ portUp s p.val = true ∧ silent s p.val = false ∧
      portCond s p.val = true ∧ f.bad64 = false ∧ f.fecBad = false ∧ f.pcsBad = false ∧ f.fcsOk = true ∧ f.bufBad = false ∧ 64 ≤ f.len ∧
      f.len ≤ maxFrame s p.val ∧ f.fecWords = 0 ∧ f.fecSyms = 0 ∧ f.ring = [] ∧ flag s (msK p.val) MsPort.EN = false ∧ fifoOf s p.val = [] ∧
      f.content.etherType ≠ 0x8808 ∧ f.content.etherType ≠ 0x8809 ∧ isBfd f.content.window.toNat = true ∧ flag s (lpK p.val) LpCtl.BFD_DIVERT = true ∧
      tabGet s.line.divertQ p.val 0 < 1024) ∧
    (∃ (p : Fin 48) (f : LineFrame) (s : State), isEthernet s p.val = true ∧ inSafe s = false ∧ portUp s p.val = true ∧ silent s p.val = false ∧
      portCond s p.val = true ∧ f.bad64 = false ∧ f.fecBad = false ∧ f.pcsBad = false ∧ f.fcsOk = true ∧ f.bufBad = false ∧ 64 ≤ f.len ∧
      f.len ≤ maxFrame s p.val ∧ f.fecWords = 0 ∧ f.fecSyms = 0 ∧ f.ring = [] ∧ flag s (msK p.val) MsPort.EN = false ∧ fifoOf s p.val = [] ∧
      f.content.etherType ≠ 0x8808 ∧ f.content.etherType ≠ 0x8809 ∧ isBfd f.content.window.toNat = false ∧ f.content.toPtp = true ∧
      rd s (obj .ptCtl p.val) PtCtl.PTP_MODE = 1 ∧ (ptOf s p.val).divert < 512) ∧
    (∃ (p : Fin 48) (s : State), isEthernet s p.val = true ∧ inSafe s = true) ∧
    (∃ (p : Fin 48) (tc : Fin 8) (s : State) (t0 : Nat), tabGet? s.que.paused (8 * p.val + tc.val) = some t0 ∧ s.time.stepped ≤ (s.ct : Int)) ∧
    (∃ (p : Fin 48) (s : State) (f : TxFrame) (rest : List TxFrame) (r : Ref) (a : Nat) (d : Nat), isEthernet s p.val = true ∧ inSafe s = false ∧
      portUp s p.val = true ∧ silent s p.val = false ∧ gateInForce s p.val = false ∧ flag s (msK p.val) MsPort.EN = false ∧
      tabGet? s.line.sending p.val = none ∧ txOf s p.val = f :: rest ∧ f.body = .packet r a none d ∧ f.open_ = false ∧ f.bad = false ∧
      pausedOn s p.val f.tc = false ∧ overtakes s p.val f = false) ∧
    (∃ (p : Fin 48) (s : State) (f : TxFrame) (rest : List TxFrame) (r : Ref) (a : Nat) (d : Nat), isEthernet s p.val = true ∧ inSafe s = false ∧
      portUp s p.val = true ∧ silent s p.val = false ∧ gateInForce s p.val = false ∧ flag s (msK p.val) MsPort.EN = false ∧
      tabGet? s.line.sending p.val = none ∧ txOf s p.val = f :: rest ∧ f.body = .packet r a none d ∧ f.open_ = false ∧ f.bad = true ∧ rest = []) ∧
    (∃ (p : Fin 48) (s : State) (x : Sending) (r : Ref) (y : Packet) (a : Nat) (d : Nat) (c : Option (BitVec 64)), isEthernet s p.val = true ∧
      inSafe s = false ∧ portUp s p.val = true ∧ silent s p.val = false ∧ tabGet? s.line.sending p.val = some x ∧ x.frame.body = .packet r a c d ∧
      getPkt s r.pkt = some y ∧ (if r.lease then y.leases ≠ 0 else y.owner = r.from_)) ∧
    (∃ (p : Fin 48) (s : State), portUp s p.val = false) :=
  ⟨⟨2, { goodFrame plainContent with bad64 := true }, lineUp, by decide +kernel⟩,
   ⟨2, { goodFrame plainContent with len := 63 }, lineUp, by decide +kernel⟩,
   ⟨2, goodFrame { plainContent with etherType := 0x8808, opcode := 1 }, lineUp, by decide +kernel⟩,
   ⟨2, goodFrame plainContent, lineUp, by decide +kernel⟩,
   ⟨2, goodFrame { plainContent with etherType := 0x8808, opcode := 0x0101, pfcEn := 3, quanta := [5, 0] }, lineUp, by decide +kernel⟩,
   ⟨2, goodFrame { plainContent with etherType := 0x8809 }, fld (lpS 2) LpStatus.AGG 24 lineUp, by decide +kernel⟩,
   ⟨2, goodFrame { plainContent with etherType := 0x8809 }, fld (lpS 2) LpStatus.AGG 23 lineUp, by decide +kernel⟩,
   ⟨2, goodFrame { plainContent with window := bfdWindow },
   fld (lpK 2) LpCtl.BFD_DIVERT 1 { lineUp with line := { lineUp.line with divertQ := [(2, 1023)] } }, by decide +kernel⟩,
   ⟨2, goodFrame { plainContent with toPtp := true }, ptp2 (portTime none) lineUp, by decide +kernel⟩,
   ⟨2, fld (obj .fltStatus) FltStatus.SAFE 1 lineUp, by decide +kernel⟩,
   ⟨2, 7, { lineUp with que := { lineUp.que with paused := [(23, 99)] } }, 99, by decide +kernel⟩,
   ⟨2, sending, txPacket, [], refOf 1, 0, 7, by decide +kernel⟩,
   ⟨2, { lineUp with que := { lineUp.que with tx := [(2, [({ txPacket with bad := true })])] } }, { txPacket with bad := true }, [], refOf 1, 0, 7,
   by decide +kernel⟩,
   ⟨2, putPkt 1 pktOf { lineUp with line := { lineUp.line with sending := [(2, (⟨txPacket, none, 64, none⟩ : Sending))] } }, ⟨txPacket, none, 64,
   none⟩, refOf 1, pktOf, 0, 7, none, by decide +kernel⟩,
   ⟨2, port2 3 lkDown up, by decide +kernel⟩⟩

/-- Every clause of `Optics` with hypotheses has a case. -/
theorem witness_Optics :
    (∃ (ch : Fin 128) (p : Nat) (s : State), ch.val < 64 ∧ usersOf s ch.val = [p] ∧ ch.val / 16 ∉ s.line.busOut ∧ rd s (lpS p) LpStatus.ID_STATE = 0) ∧
    (∃ (ch : Fin 128) (p : Nat) (s : State), ch.val < 64 ∧ usersOf s ch.val = [p] ∧ ch.val / 16 ∉ s.line.busOut) ∧
    (∃ (ch : Fin 128) (p : Nat) (s : State), ch.val < 64 ∧ usersOf s ch.val = [p] ∧ ch.val ∈ s.line.reading ∧ rd s (lpS p) LpStatus.ID_STATE = 1) ∧
    (∃ (ch : Fin 128) (s : State), ch.val / 16 ∉ s.line.busOut ∧ tabGet s.line.retries ch.val 0 < 3) ∧
    (∃ (ch : Fin 128) (s : State) (p : _), ch.val / 16 ∉ s.line.busOut ∧ ch.val < 64 ∧ usersOf s ch.val = [p] ∧ rd s (lpS p) LpStatus.ID_STATE = 1 ∧
      ch.val ∈ s.line.reading ∧ 3 ≤ tabGet s.line.retries ch.val 0) ∧
    (∃ (ch : Fin 128) (s : State), ch.val / 16 ∉ s.line.busOut) ∧
    (∃ (b : Fin 8) (s : State), b.val ∈ s.line.busOut) ∧
    (∃ (b : Fin 8) (s : State), b.val ∉ s.line.busOut) ∧
    (∃ (c : Hdr) (b : Fin 4) (s : State) (w : Waiting), Safety.Sets s c w (obj .modCtl b.val) ModCtl.GO 1) ∧
    (∃ (b : Fin 4) (s : State), flag s (obj .modCtl b.val) ModCtl.BUSY = true ∧ b.val ∉ s.line.busOut ∧ rd s (obj .modCtl b.val) ModCtl.LEN ≤ 128) ∧
    (∃ (b : Fin 4) (s : State) (r : _) (n : _), flag s (obj .modCtl b.val) ModCtl.BUSY = true ∧ b.val ∉ s.line.busOut ∧
      rd s (obj .modCtl b.val) ModCtl.LEN ≤ 128 ∧ (r, n) ∈ [(ModResult.noAck, 1), (.timeout, 2), (.busOut, 3)]) :=
  ⟨⟨17, 2, fld (lpS 2) LpStatus.ID_STATE 0 optics, by decide +kernel⟩,
   ⟨17, 2, optics, by decide +kernel⟩,
   ⟨17, 2, optics, by decide +kernel⟩,
   ⟨127, { up with line := { up.line with retries := [(127, 2)] } }, by decide +kernel⟩,
   ⟨17, optics, 2, by decide +kernel⟩,
   ⟨17, optics, by decide +kernel⟩,
   ⟨1, { up with line := { up.line with busOut := [1] } }, by decide +kernel⟩,
   ⟨1, up, by decide +kernel⟩,
   ⟨hd, 1, ask (waits 0x0202 (12 + Machine.sizeOf (obj .modCtl (1 : Fin 4).val))) (up),
   waits 0x0202 (12 + Machine.sizeOf (obj .modCtl (1 : Fin 4).val)), write_of (by decide +kernel)⟩,
   ⟨1, wr (wr up (obj .modCtl 1) ModCtl.BUSY 1) (obj .modCtl 1) ModCtl.LEN 128, by decide +kernel⟩,
   ⟨1, wr (wr up (obj .modCtl 1) ModCtl.BUSY 1) (obj .modCtl 1) ModCtl.LEN 128, ModResult.busOut, 3, by decide +kernel⟩⟩

/-- Every clause of `BfdAndLacp` with hypotheses has a case. -/
theorem witness_BfdAndLacp :
    (∃ (c : Hdr) (i : Fin 16384) (s : State) (w : Waiting), Safety.Sets s c w (bfK i.val) BfdSess.ADMIN 1 ∧ rd s (bfK i.val) BfdSess.ADMIN = 0) ∧
    (∃ (c : Hdr) (i : Fin 16384) (s : State) (w : Waiting), Safety.Sets s c w (bfK i.val) BfdSess.ADMIN 0 ∧ rd s (bfK i.val) BfdSess.ADMIN = 1) ∧
    (∃ (p : Fin 48) (b : BfdPacket) (s : State), tabGet s.line.divertQ p.val 0 ≠ 0 ∧ bfdBad b = true) ∧
    (∃ (p : Fin 48) (b : BfdPacket) (s : State), tabGet s.line.divertQ p.val 0 ≠ 0 ∧ bfdBad b = false ∧ bfdTarget s p.val b = none) ∧
    (∃ (p : Fin 48) (b : BfdPacket) (s : State) (i : _) (st : _) (dg : _), tabGet s.line.divertQ p.val 0 ≠ 0 ∧ bfdBad b = false ∧
      bfdTarget s p.val b = some i ∧ ttlBad s i b = false ∧ bfdNext (rd s (bfK i) BfdSess.STATE) (rd s (bfK i) BfdSess.DIAG) b.state.toNat = (st, dg)) ∧
    (∃ (i : Fin 16384) (p : Nat) (s : State), rd s (bfK i.val) BfdSess.ADMIN = 1 ∧ rd s (bfK i.val) BfdSess.PORT = p ∧ isEthernet s p = true ∧
      portUp s p = true ∧ inSafe s = false ∧ silent s p = false ∧ gateInForce s p = false ∧ flag s (msK p) MsPort.EN = false) ∧
    (∃ (i : Fin 16384) (s : State), rd s (bfK i.val) BfdSess.ADMIN = 1 ∧ (bfdRun s i.val).timer = true) ∧
    (∃ (c : Hdr) (a : Fin 24) (m : BitVec 48) (s : State) (w : Waiting),
      Safety.Write s c w (agK a.val) (putF (putF (rdWord s (agK a.val)) AggCtl.EN 1) AggCtl.MEMBERS m.toNat)) ∧
    (∃ (c : Hdr) (a : Fin 24) (m : BitVec 48) (s : State) (w : Waiting),
      Safety.Write s c w (agK a.val) (putF (putF (rdWord s (agK a.val)) AggCtl.EN 0) AggCtl.MEMBERS m.toNat)) ∧
    (∃ (p : Fin 48) (s : State), tabGet s.line.slowQ p.val 0 ≠ 0 ∧ (recent s (tabGet s.line.slowAt p.val []) sec).length < 20) ∧
    (∃ (p : Fin 48) (s : State), tabGet s.line.slowQ p.val 0 ≠ 0 ∧ 20 ≤ (recent s (tabGet s.line.slowAt p.val []) sec).length) ∧
    (∃ (p : Fin 48) (s : State), tabGet s.line.slowQ p.val 0 ≠ 0 ∧ (recent s (tabGet s.line.slowAt p.val []) sec).length < 20 ∧
      isEthernet s p.val = true ∧ portUp s p.val = true ∧ inSafe s = false ∧ silent s p.val = false ∧ gateInForce s p.val = false) ∧
    (∃ (p : Fin 48) (a : Nat) (s : State), aggOf s p.val = some a ∧ flag s (agK a) AggCtl.ACTIVE = true ∧ isEthernet s p.val = true ∧
      portUp s p.val = true ∧ inSafe s = false ∧ silent s p.val = false ∧ gateInForce s p.val = false) ∧
    (∃ (p : Fin 48) (a : Nat) (s : State), aggOf s p.val = some a) :=
  ⟨⟨hd, 7, ask (waits 0x0202 (12 + Machine.sizeOf (bfK (7 : Fin 16384).val))) (fld (bfK 7) BfdSess.MY_DISC 9 up),
   waits 0x0202 (12 + Machine.sizeOf (bfK (7 : Fin 16384).val)), write_of (by decide +kernel), by decide +kernel⟩,
   ⟨hd, 7, ask (waits 0x0202 (12 + Machine.sizeOf (bfK (7 : Fin 16384).val))) (bfd7 up), waits 0x0202 (12 + Machine.sizeOf (bfK (7 : Fin 16384).val)),
   write_of (by decide +kernel), by decide +kernel⟩,
   ⟨2, { bfdPacket with version := 2 }, waitingIn 1 1 lineUp, by decide +kernel⟩,
   ⟨2, bfdPacket, waitingIn 1 1 lineUp, by decide +kernel⟩,
   ⟨2, bfdPacket, fld (bfK 7) BfdSess.STATE 1 (bfd7 (waitingIn 1 1 lineUp)), 7, 2, 0, by decide +kernel⟩,
   ⟨7, 2, bfd7 lineUp, by decide +kernel⟩,
   ⟨7, fld (bfK 7) BfdSess.STATE 3 { bfd7 lineUp with line := { lineUp.line with bfd := [(7, ⟨true, 3, 1, 1, false, false, 0, 1, 1, 0⟩)] } },
   by decide +kernel⟩,
   ⟨hd, 4, 4, ask (waits 0x0202 (12 + Machine.sizeOf (agK (4 : Fin 24).val))) (lineUp), waits 0x0202 (12 + Machine.sizeOf (agK (4 : Fin 24).val)),
   write_of (by decide +kernel)⟩,
   ⟨hd, 4, 4, ask (waits 0x0202 (12 + Machine.sizeOf (agK (4 : Fin 24).val))) (joined lineUp),
   waits 0x0202 (12 + Machine.sizeOf (agK (4 : Fin 24).val)), write_of (by decide +kernel)⟩,
   ⟨2, waitingIn 1 1 lineUp, by decide +kernel⟩,
   ⟨2, { waitingIn 1 1 lineUp with line := { (waitingIn 1 1 lineUp).line with slowAt := [(2, List.replicate 20 0)] } }, by decide +kernel⟩,
   ⟨2, waitingIn 1 1 lineUp, by decide +kernel⟩,
   ⟨2, 4, joined lineUp, by decide +kernel⟩,
   ⟨2, 4, joined lineUp, by decide +kernel⟩⟩

/-- Every clause of `FramesAndDefects` with hypotheses has a case. -/
theorem witness_FramesAndDefects :
    (∃ (p : Fin 48) (f : OtuFrame) (s : State), isFramed s p.val = true ∧ adminUp s p.val = true ∧ 20 * f.inst.val < tribSlots s p.val ∧
      f.entryBad = none) ∧
    (∃ (p : Fin 48) (f : OtuFrame) (sl : Fin 160) (s : State), isFramed s p.val = true ∧ adminUp s p.val = true ∧
      20 * f.inst.val < tribSlots s p.val ∧ f.entryBad = some sl) ∧
    (∃ (p : Fin 48) (f : GfpFrame) (w : Nat) (s : State), workOf s p.val = some w ∧ rd s (frS w) FrStatus.PKT_SLOTS ≠ 0 ∧ adminUp s w = true ∧
      rd s (frS w) FrStatus.GFP_STATE = 0 ∧ f.chec = .ok) ∧
    (∃ (p : Fin 48) (f : GfpFrame) (w : Nat) (s : State), workOf s p.val = some w ∧ rd s (frS w) FrStatus.PKT_SLOTS ≠ 0 ∧ adminUp s w = true ∧
      rd s (frS w) FrStatus.GFP_STATE = 1 ∧ f.chec = .ok ∧ rd s (frK w) FrCtl.DELTA ≤ tabGet s.tfu.presync w 0 + 1) ∧
    (∃ (p : Fin 48) (f : GfpFrame) (w : Nat) (s : State), workOf s p.val = some w ∧ rd s (frS w) FrStatus.PKT_SLOTS ≠ 0 ∧ adminUp s w = true ∧
      rd s (frS w) FrStatus.GFP_STATE = 1 ∧ f.chec ≠ .ok) ∧
    (∃ (p : Fin 48) (f : GfpFrame) (w : Nat) (s : State), workOf s p.val = some w ∧ rd s (frS w) FrStatus.PKT_SLOTS ≠ 0 ∧ adminUp s w = true ∧
      rd s (frS w) FrStatus.GFP_STATE = 2 ∧ f.chec = .multi) ∧
    (∃ (p : Fin 48) (f : GfpFrame) (w : Nat) (s : State), workOf s p.val = some w ∧ rd s (frS w) FrStatus.PKT_SLOTS ≠ 0 ∧ adminUp s w = true ∧
      rd s (frS w) FrStatus.GFP_STATE = 2 ∧ f.chec = .ok ∧ f.cut = false ∧ f.pli < 4) ∧
    (∃ (p : Fin 48) (f : GfpFrame) (w : Nat) (s : State), workOf s p.val = some w ∧ rd s (frS w) FrStatus.PKT_SLOTS ≠ 0 ∧ adminUp s w = true ∧
      rd s (frS w) FrStatus.GFP_STATE = 2 ∧ f.chec = .ok ∧ f.cut = false ∧ 4 ≤ f.pli ∧ f.thec = .multi) ∧
    (∃ (p : Fin 48) (f : GfpFrame) (w : Nat) (s : State), workOf s p.val = some w ∧ rd s (frS w) FrStatus.PKT_SLOTS ≠ 0 ∧ adminUp s w = true ∧
      rd s (frS w) FrStatus.GFP_STATE = 2 ∧ f.chec = .ok ∧ f.cut = false ∧ 4 ≤ f.pli ∧ f.thec = .ok ∧ f.pti = 4 ∧ f.upi = 1) ∧
    (∃ (p : Fin 48) (f : GfpFrame) (w : Nat) (s : State), workOf s p.val = some w ∧ rd s (frS w) FrStatus.PKT_SLOTS ≠ 0 ∧ adminUp s w = true ∧
      rd s (frS w) FrStatus.GFP_STATE = 2 ∧ f.chec = .ok ∧ f.cut = false ∧ 4 ≤ f.pli ∧ f.thec = .ok ∧ f.pti = 0 ∧ f.upi ≠ 1) ∧
    (∃ (p : Fin 48) (f : GfpFrame) (w : Nat) (s : State), workOf s p.val = some w ∧ rd s (frS w) FrStatus.PKT_SLOTS ≠ 0 ∧ adminUp s w = true ∧
      rd s (frS w) FrStatus.GFP_STATE = 2 ∧ f.chec = .ok ∧ f.cut = false ∧ 4 ≤ f.pli ∧ f.thec = .ok ∧ f.pti = 0 ∧ f.upi = 1 ∧ f.exi = 0 ∧
      rd s (frS w) FrStatus.CSF = 0 ∧ f.pfcsOk = true ∧ f.bufBad = false ∧ packetFail s w = false ∧ inSafe s = false ∧ portUp s w = true ∧
      silent s w = false ∧ f.frame.fcsOk = true ∧ f.frame.bufBad = false ∧ 64 ≤ f.frame.len ∧ f.frame.len ≤ maxFrame s w ∧
      flag s (msK w) MsPort.EN = false ∧ f.frame.content.etherType ≠ 0x8808 ∧ f.frame.content.etherType ≠ 0x8809 ∧
      (¬ (isBfd f.frame.content.window.toNat = true ∧ flag s (lpK w) LpCtl.BFD_DIVERT = true)) ∧ (¬ (f.frame.content.toPtp = true ∧
      rd s (obj .ptCtl w) PtCtl.PTP_MODE = 1)) ∧ f.frame.ring = [] ∧ fifoOf s w = [] ∧
      billetsOf f.frame.len ≤ mayDraw s (arrivalPool s w f.frame.content) ∧ (dispOf s w).length < dispatchRoom s w) ∧
    (∃ (p : Fin 48) (d : Defect) (s : State), isFramed s p.val = true ∧ adminUp s p.val = true ∧ mayDeclare s p.val d = true) ∧
    (∃ (p : Fin 48) (d : Defect) (s : State), isFramed s p.val = true ∧ adminUp s p.val = true ∧ mayDeclare s p.val d = false) ∧
    (∃ (p : Fin 48) (d : Defect) (s : State), isFramed s p.val = true ∧ adminUp s p.val = true ∧ mayClear s p.val d = true ∧ d ≠ .lfd ∧ ((∀ i,
      d ≠ .los i ∧ d ≠ .lof i ∧ d ≠ .lom i))) ∧
    (∃ (p : Fin 48) (d : Defect) (s : State), isFramed s p.val = true ∧ adminUp s p.val = true ∧ mayClear s p.val d = false) ∧
    (∃ (p : Fin 48) (l : Fin 8) (s : State), isFramed s p.val = true ∧ adminUp s p.val = true ∧ l.val < instances s p.val ∧
      rd s (frS p.val) FrStatus.LOS = 0) ∧
    (∃ (p : Fin 48) (l : Fin 8) (s : State), isFramed s p.val = true ∧ adminUp s p.val = true ∧ rd s (frS p.val) FrStatus.LOS_LANES = 2 ^ l.val) ∧
    (∃ (p : Fin 48) (s : State), isFramed s p.val = true ∧ adminUp s p.val = true ∧ rd s (frS p.val) FrStatus.PKT_SLOTS ≠ 0 ∧
      packetFail s p.val = true) ∧
    (∃ (p : Fin 48) (s : State), isFramed s p.val = true ∧ adminUp s p.val = true ∧ rd s (frS p.val) FrStatus.PKT_SLOTS ≠ 0 ∧
      packetFail s p.val = false) :=
  ⟨⟨2, otu, framed 2 up, by decide +kernel⟩,
   ⟨2, { otu with entryBad := some 79 }, 79, framed 2 up, by decide +kernel⟩,
   ⟨2, gfp, 2, framed 0 up, by decide +kernel⟩,
   ⟨2, gfp, 2, { framed 1 up with tfu := { up.tfu with presync := [(2, 7)] } }, by decide +kernel⟩,
   ⟨2, { gfp with chec := .multi }, 2, framed 1 up, by decide +kernel⟩,
   ⟨2, { gfp with chec := .multi }, 2, framed 2 up, by decide +kernel⟩,
   ⟨2, { gfp with pli := 3 }, 2, framed 2 up, by decide +kernel⟩,
   ⟨2, { gfp with pli := 4, thec := .multi }, 2, framed 2 up, by decide +kernel⟩,
   ⟨2, { gfp with pti := 4 }, 2, framed 2 up, by decide +kernel⟩,
   ⟨2, { gfp with upi := 2 }, 2, framed 2 up, by decide +kernel⟩,
   ⟨2, gfp, 2, framed 2 up, by decide +kernel⟩,
   ⟨2, .lol, framed 2 up, by decide +kernel⟩,
   ⟨2, .lof 3, framed 2 up, by decide +kernel⟩,
   ⟨2, .lol, fld (frS 2) FrStatus.LOL 1 (framed 2 up), by decide +kernel⟩,
   ⟨2, .lof 3, { framed 2 up with tfu := { up.tfu with fas := [(19, (0, true))] } }, by decide +kernel⟩,
   ⟨2, 3, framed 2 up, by decide +kernel⟩,
   ⟨2, 3, fld (frS 2) FrStatus.LOS_LANES 8 (fld (frS 2) FrStatus.LOS 1 (framed 2 up)), by decide +kernel⟩,
   ⟨2, fld (frS 2) FrStatus.LOL 1 (fld (frS 2) FrStatus.LOS 1 (framed 2 up)), by decide +kernel⟩,
   ⟨2, framed 2 up, by decide +kernel⟩⟩

/-- Every clause of `PagesAndProtection` with hypotheses has a case. -/
theorem witness_PagesAndProtection :
    (∃ (c : Hdr) (s : State) (w : Waiting), Safety.Sets s c w tfuK TfuCtl.SWAP 1 ∧ rd s tfuK TfuCtl.COPY = 0) ∧
    (∃ (s : State) (i : _), swapState s = swChecking ∧ firstRefused s (1 - activePage s) [] (pageEntries s (1 - activePage s)) = some i) ∧
    (∃ (s : State) (i : _), i < 7680 ∧ swapState s = swChecking ∧ rd s (obj .pageEnt ((1 - activePage s) * 7680 + i)) PageEnt.TYPE ≠ 0 ∧
      isFramed s (i / 160) = false) ∧
    (∃ (s : State), (∀ i < 7680, rd s (obj .pageEnt ((1 - activePage s) * 7680 + i)) PageEnt.TYPE = 0) ∧ swapState s = swChecking) ∧
    (∃ (s : State) (at_ : Nat), s.tfu.swapAt = some at_ ∧ swapState s = swScheduled) ∧
    (∃ (s : State) (at_ : Nat), (∀ p < 48, Safety.NoneUnderWay s p) ∧ s.tfu.swapAt = some at_ ∧ swapState s = swSwitching) ∧
    (∃ (p : Fin 48) (s : State), Safety.NoneUnderWay s p.val ∧ swapState s = swSwitching ∧ isFramed s p.val = true ∧ p.val ∉ s.tfu.taken) ∧
    (∃ (c : Hdr) (s : State) (w : Waiting), Safety.Sets s c w tfuK TfuCtl.COPY 1 ∧ rd s tfuK TfuCtl.SWAP = 0) ∧
    (∃ (g : Fin 24) (s : State), flag s (grK g.val) ProtGrp.EN = true ∧ silent s (rd s (grK g.val) ProtGrp.WORK) = false ∧
      rd s (grK g.val) ProtGrp.CMD = 0 ∧ ((∀ b < 4, (presentFails s g.val).testBit b = true → actsAt (noteFails g.val s) g.val b ≤ s.clock)) ∧
      signalFail s (rd s (grK g.val) ProtGrp.PROT) = false ∧ signalFail s (rd s (grK g.val) ProtGrp.WORK) = true) ∧
    (∃ (g : Fin 24) (s : State), flag s (grK g.val) ProtGrp.EN = true ∧ silent s (rd s (grK g.val) ProtGrp.WORK) = false ∧
      rd s (grK g.val) ProtGrp.CMD = 0 ∧ ((∀ b < 4, (presentFails s g.val).testBit b = true → actsAt (noteFails g.val s) g.val b ≤ s.clock)) ∧
      signalFail s (rd s (grK g.val) ProtGrp.PROT) = true ∧ signalFail s (rd s (grK g.val) ProtGrp.WORK) = false) ∧
    (∃ (g : Fin 24) (s : State), flag s (grK g.val) ProtGrp.EN = true ∧ silent s (rd s (grK g.val) ProtGrp.WORK) = false ∧
      rd s (grK g.val) ProtGrp.CMD = 0 ∧ ((∀ b < 4, (presentFails s g.val).testBit b = true → actsAt (noteFails g.val s) g.val b ≤ s.clock)) ∧
      signalFail s (rd s (grK g.val) ProtGrp.PROT) = true ∧ signalFail s (rd s (grK g.val) ProtGrp.WORK) = true) ∧
    (∃ (g : Fin 24) (s : State) (b : Nat) (T : Nat), flag s (grK g.val) ProtGrp.EN = true ∧ b < 4 ∧ (presentFails s g.val).testBit b = true ∧
      (tabGet s.tfu.acting g.val 0).testBit b = false ∧ actsAt (noteFails g.val s) g.val b = T ∧ ((∀ c < 4,
      (presentFails s g.val).testBit c = true → T ≤ actsAt (noteFails g.val s) g.val c))) ∧
    (∃ (g : Fin 24) (s : State), flag s (grK g.val) ProtGrp.EN = true ∧ rd s (grK g.val) ProtGrp.REQ = rqWtr) ∧
    (∃ (c : Hdr) (g : Fin 24) (s : State) (w : Waiting), Safety.Sets s c w (grK g.val) ProtGrp.CMD 1 ∧ flag s (grK g.val) ProtGrp.EN = true ∧
      silent s (rd s (grK g.val) ProtGrp.WORK) = false) ∧
    (∃ (c : Hdr) (g : Fin 24) (s : State) (w : Waiting), Safety.Sets s c w (grK g.val) ProtGrp.CMD 2 ∧ flag s (grK g.val) ProtGrp.EN = true ∧
      silent s (rd s (grK g.val) ProtGrp.WORK) = false) ∧
    (∃ (c : Hdr) (g : Fin 24) (s : State) (w : Waiting), Safety.Sets s c w (grK g.val) ProtGrp.CMD 0 ∧ flag s (grK g.val) ProtGrp.EN = true ∧
      silent s (rd s (grK g.val) ProtGrp.WORK) = false ∧ tabGet s.tfu.acting g.val 0 = 0 ∧ flag s (grK g.val) ProtGrp.REVERT = true ∧
      rd s (grK g.val) ProtGrp.REQ = rqForce) :=
  ⟨⟨hd, ask (waits 0x0202 (12 + Machine.sizeOf tfuK)) (up), waits 0x0202 (12 + Machine.sizeOf tfuK), write_of (by decide +kernel), by decide +kernel⟩,
   ⟨fld (obj .pageEnt (7680 + 7679)) PageEnt.TYPE 2 (swap swChecking up), 7679, by decide +kernel⟩,
   ⟨fld (obj .pageEnt (7680 + 7679)) PageEnt.TYPE 2 (swap swChecking up), 7679, by decide +kernel⟩,
   ⟨swap swChecking up, all_lt (by decide +kernel), by decide +kernel⟩,
   ⟨swap swScheduled up, 5, by decide +kernel⟩,
   ⟨swap swSwitching up, 5, none_under_way rfl rfl rfl rfl, by decide +kernel⟩,
   ⟨2, swap swSwitching (framed 2 up), by unfold Safety.NoneUnderWay; decide +kernel, by decide +kernel⟩,
   ⟨hd, ask (waits 0x0202 (12 + Machine.sizeOf tfuK)) (up), waits 0x0202 (12 + Machine.sizeOf tfuK), write_of (by decide +kernel), by decide +kernel⟩,
   ⟨4, group4 1 0 up, by decide +kernel⟩,
   ⟨4, group4 0 1 up, by decide +kernel⟩,
   ⟨4, group4 1 1 up, by decide +kernel⟩,
   ⟨4, group4 1 0 up, 1, actsAt (noteFails (4 : Fin 24).val (group4 1 0 up)) (4 : Fin 24).val 1, by decide +kernel⟩,
   ⟨4, fld (grK 4) ProtGrp.REQ rqWtr (group4 0 0 up), by decide +kernel⟩,
   ⟨hd, 4, ask (waits 0x0202 (12 + Machine.sizeOf (grK (4 : Fin 24).val))) (group4 0 0 up), waits 0x0202 (12 + Machine.sizeOf (grK (4 : Fin 24).val)),
   write_of (by decide +kernel), by decide +kernel⟩,
   ⟨hd, 4, ask (waits 0x0202 (12 + Machine.sizeOf (grK (4 : Fin 24).val))) (group4 0 0 up), waits 0x0202 (12 + Machine.sizeOf (grK (4 : Fin 24).val)),
   write_of (by decide +kernel), by decide +kernel⟩,
   ⟨hd, 4,
   ask (waits 0x0202 (12 + Machine.sizeOf (grK (4 : Fin 24).val))) (fld (grK 4) ProtGrp.REVERT 1 (fld (grK 4) ProtGrp.REQ rqForce (fld (grK 4) ProtGrp.CMD 1 (group4 0 0 up)))),
   waits 0x0202 (12 + Machine.sizeOf (grK (4 : Fin 24).val)), write_of (by decide +kernel), by decide +kernel⟩⟩

/-- Every clause of `KeySlots` with hypotheses has a case. -/
theorem witness_KeySlots :
    (∃ (c : Hdr) (x : SaParams) (s : State) (w : Waiting), Safety.Turn s c w 0x0601 accKeys 88 0x3A ∧ x.paramLen = 88 ∧ x.resOk = true ∧
      rd s msS MsStatus.DRBG_STATE ≠ 0 ∧ saRange x = true ∧ mkaOwner s x.slot.toNat = none ∧ saTwin s x = false ∧ drainsOf s x.slot.toNat = [] ∧
      saState s x.slot.toNat = saEmpty) ∧
    (∃ (c : Hdr) (x : SaParams) (s : State) (w : Waiting), Safety.Turn s c w 0x0601 accKeys 88 0x3A ∧ x.paramLen = 88 ∧ x.resOk = true ∧
      rd s msS MsStatus.DRBG_STATE ≠ 0 ∧ saRange x = true ∧ mkaOwner s x.slot.toNat = none ∧ saTwin s x = false ∧ drainsOf s x.slot.toNat = [] ∧
      saState s x.slot.toNat ≠ saEmpty) ∧
    (∃ (c : Hdr) (n : Fin 16384) (x : SaParams) (s : State) (w : Waiting), s.cmd.waiting = [w] ∧ w.hdr = c ∧ w.phase = .started 0x3A ∧
      n.val ∉ atCores s ∧ rd s (sessKey c.sid.val) SessStatus.NEXT_SEQ < 2 ^ 64 - 4096 ∧ drainsOf s n.val = [⟨some c, some x, false⟩] ∧ w.op = 0x0601) ∧
    (∃ (c : Hdr) (n : Fin 16384) (s : State) (w : Waiting), s.cmd.waiting = [w] ∧ w.hdr = c ∧ w.phase = .started 0x3A ∧ n.val ∉ atCores s ∧
      rd s (sessKey c.sid.val) SessStatus.NEXT_SEQ < 2 ^ 64 - 4096 ∧ drainsOf s n.val = [⟨some c, none, false⟩] ∧ w.op = 0x0602) ∧
    (∃ (n : Fin 16384) (s : State), n.val ∈ atCores s) ∧
    (∃ (c : Hdr) (slot : BitVec 16) (s : State) (w : Waiting), Safety.Turn s c w 0x0602 accKeys 4 0x3A ∧ slot.toNat < 16384 ∧
      mkaOwner s slot.toNat = none ∧ drainsOf s slot.toNat = [] ∧ saState s slot.toNat ≠ saEmpty) ∧
    (∃ (c : Hdr) (slot : BitVec 16) (s : State) (w : Waiting), Safety.Turn s c w 0x0602 accKeys 4 0x3A ∧ slot.toNat < 16384 ∧
      mkaOwner s slot.toNat = none ∧ drainsOf s slot.toNat = [] ∧ saState s slot.toNat = saEmpty) ∧
    (∃ (c : Hdr) (slot : BitVec 16) (s : State) (w : Waiting), Safety.Turn s c w 0x0602 accKeys 4 0x3A ∧ slot.toNat < 192 ∧
      rd s (cakK slot.toNat) CakSlot.STATE = 1) ∧
    (∃ (c : Hdr) (x : CakParams) (s : State) (w : Waiting), Safety.Turn s c w 0x0601 accKeys 88 0x3A ∧ x.paramLen = 88 ∧ x.resOk = true ∧
      rd s msS MsStatus.DRBG_STATE ≠ 0 ∧ cakRange x = true) ∧
    (∃ (s : State), rd s msS MsStatus.DRBG_STATE = 0) ∧
    (∃ (s : State), rd s msS MsStatus.DRBG_STATE = 1) ∧
    (∃ (s : State), rd s msS MsStatus.DRBG_STATE = 2) ∧
    (∃ (p : Fin 48) (s : State) (f : TxFrame) (rest : List TxFrame) (r : Ref) (a : Nat) (d : Nat) (n : Nat), isEthernet s p.val = true ∧
      inSafe s = false ∧ portUp s p.val = true ∧ silent s p.val = false ∧ gateInForce s p.val = false ∧ tabGet? s.line.sending p.val = none ∧
      txOf s p.val = f :: rest ∧ f.body = .packet r a none d ∧ f.open_ = false ∧ f.bad = false ∧ pausedOn s p.val f.tc = false ∧
      overtakes s p.val f = false ∧ txPipesFull s = false ∧ secureOut s p.val (etherOf f) = .protect n ∧
      (tabGet? s.msec.keys n).elim 0 SaKey.thresh = 0 ∧ rd s (saK n) SaSlot.PN < topPn (rd s (saK n) SaSlot.SUITE)) ∧
    (∃ (p : Fin 48) (f : LineFrame) (g : SecTag) (n : Nat) (s : State), isEthernet s p.val = true ∧ inSafe s = false ∧ portUp s p.val = true ∧
      silent s p.val = false ∧ portCond s p.val = true ∧ f.bad64 = false ∧ f.fecBad = false ∧ f.pcsBad = false ∧ f.fcsOk = true ∧ f.bufBad = false ∧
      f.fecWords = 0 ∧ f.fecSyms = 0 ∧ fifoOf s p.val = [] ∧ 64 ≤ f.len ∧ f.len ≤ maxFrame s p.val ∧ f.sec = some g ∧
      flag s (msK p.val) MsPort.EN = true ∧ badTag g = false ∧ rxSlot s p.val g.an.toNat (sciOf s p.val f g) = some n ∧
      rd s (msK p.val) MsPort.VALIDATE ≠ 0 ∧ flag s (msK p.val) MsPort.REPLAY_PROTECT = true ∧
      recoverPn (rd s (saK n) SaSlot.PN) g.pn.toNat (isXpn s n) < rd s (saK n) SaSlot.PN) :=
  ⟨⟨hd, saParams, ask (waits 0x0601 88) (fld msS MsStatus.DRBG_STATE 1 up), waits 0x0601 88, turn_of (by decide +kernel), by decide +kernel⟩,
   ⟨hd, saParams, ask (waits 0x0601 88) (sa7 1 saPaused up), waits 0x0601 88, turn_of (by decide +kernel), by decide +kernel⟩,
   ⟨hd, 7, saParams, ask ({ waits 0x0601 88 with phase := .started 0x3A }) (draining (some saParams) (sa7 1 saPaused up)),
   { waits 0x0601 88 with phase := .started 0x3A }, by decide +kernel⟩,
   ⟨hd, 7, ask ({ waits 0x0602 4 with phase := .started 0x3A }) (draining none (sa7 1 saErasing up)), { waits 0x0602 4 with phase := .started 0x3A },
   by decide +kernel⟩,
   ⟨7,
   { sa7 0 saValid lineUp with line := { lineUp.line with arriving := [(2, [⟨goodFrame plainContent, .check 7 3 2 64 plainContent, false, [], false⟩])] } },
   by decide +kernel⟩,
   ⟨hd, 7, ask (waits 0x0602 4) (sa7 1 saValid up), waits 0x0602 4, turn_of (by decide +kernel), by decide +kernel⟩,
   ⟨hd, 16383, ask (waits 0x0602 4) (up), waits 0x0602 4, turn_of (by decide +kernel), by decide +kernel⟩,
   ⟨hd, 191, ask (waits 0x0602 4) (fld (cakK 191) CakSlot.STATE 1 up), waits 0x0602 4, turn_of (by decide +kernel), by decide +kernel⟩,
   ⟨hd, ⟨88, 191, 32, 1, 7, true⟩, ask (waits 0x0601 88) (fld msS MsStatus.DRBG_STATE 1 up), waits 0x0601 88, turn_of (by decide +kernel),
   by decide +kernel⟩,
   ⟨fld msS MsStatus.DRBG_STATE 0 up, by decide +kernel⟩,
   ⟨fld msS MsStatus.DRBG_STATE 1 up, by decide +kernel⟩,
   ⟨fld msS MsStatus.DRBG_STATE 2 up, by decide +kernel⟩,
   ⟨2, secured (sa7 1 saValid sending), txPacket, [], refOf 1, 0, 7, 7, by decide +kernel⟩,
   ⟨2, { goodFrame plainContent with sec := some secTag, len := 100 }, secTag, 7,
   fld (saK 7) SaSlot.SCI 4 (fld (saK 7) SaSlot.PN 5 (fld (msK 2) MsPort.VALIDATE 2 (fld (msK 2) MsPort.REPLAY_PROTECT 1 (secured (sa7 0 saValid lineUp))))),
   by decide +kernel⟩⟩

/-- Every clause of `MkaService` with hypotheses has a case. -/
theorem witness_MkaService :
    (∃ (c : Hdr) (p : Fin 48) (s : State) (w : Waiting), Safety.Sets s c w (msK p.val) MsPort.MKA_EN 1 ∧ flag s (msK p.val) MsPort.MKA_EN = false) ∧
    (∃ (c : Hdr) (p : Fin 48) (s : State) (w : Waiting), Safety.Sets s c w (msK p.val) MsPort.MKA_EN 0 ∧ flag s (msK p.val) MsPort.MKA_EN = true) ∧
    (∃ (p : Fin 48) (m : Mkpdu) (s : State), mkaRuns s p.val = true ∧
      (50 ≤ (recent s (tabGet s.msec.pduAt p.val []) sec).length ∨ m.wellFormed = false)) ∧
    (∃ (p : Fin 48) (m : Mkpdu) (s : State) (x : _), mkaRuns s p.val = true ∧ (recent s (tabGet s.msec.pduAt p.val []) sec).length < 50 ∧
      m.wellFormed = true ∧ m.icvOk = true ∧ (participants s p.val).find? (fun c => rd s (cakK c) CakSlot.CKN == m.ckn.toNat) = some x ∧ ((∀ n,
      tabGet? (getMka s x).mns m.member.toNat = some n → n < m.mn.toNat)) ∧ (((getMka s x).peer = none ∨ (getMka s x).peer = some m.member)) ∧
      m.live = true) ∧
    (∃ (p : Fin 48) (m : Mkpdu) (s : State) (x : _) (su : BitVec 2), mkaRuns s p.val = true ∧
      (recent s (tabGet s.msec.pduAt p.val []) sec).length < 50 ∧ m.wellFormed = true ∧ m.icvOk = true ∧
      (participants s p.val).find? (fun c => rd s (cakK c) CakSlot.CKN == m.ckn.toNat) = some x ∧ ((∀ n,
      tabGet? (getMka s x).mns m.member.toNat = some n → n < m.mn.toNat)) ∧ (getMka s x).peer = some m.member ∧ m.live = false ∧
      principalOf s p.val = some x ∧ serverHere s p.val x = false ∧ m.sakSuite = some su ∧ su.toNat = rd s (msK p.val) MsPort.MKA_SUITE ∧
      sakOf s p.val = none ∧ m.rxInstalled = false ∧ m.txUnder = false ∧ saState s (mkaRx p.val 0) = saEmpty ∧ drainsOf s (mkaRx p.val 0) = []) ∧
    (∃ (p : Fin 48) (x : Nat) (s : State), mkaRuns s p.val = true ∧ participants s p.val = [x] ∧ isEthernet s p.val = true ∧ portUp s p.val = true ∧
      inSafe s = false ∧ silent s p.val = false ∧ gateInForce s p.val = false) ∧
    (∃ (p : Fin 48) (x : Nat) (s : State), mkaRuns s p.val = true ∧ participants s p.val = [x] ∧ principalOf s p.val = some x) ∧
    (∃ (p : Fin 48) (r : SakRun) (a : Nat) (s : State), sakOf s p.val = some r ∧ r.switched = true ∧ r.prevAn = some a) :=
  ⟨⟨hd, 2, ask (waits 0x0202 (12 + Machine.sizeOf (msK (2 : Fin 48).val))) (fld msS MsStatus.DRBG_STATE 1 up),
   waits 0x0202 (12 + Machine.sizeOf (msK (2 : Fin 48).val)), write_of (by decide +kernel), by decide +kernel⟩,
   ⟨hd, 2, ask (waits 0x0202 (12 + Machine.sizeOf (msK (2 : Fin 48).val))) (mka2 (Mka.fresh 0 0) up),
   waits 0x0202 (12 + Machine.sizeOf (msK (2 : Fin 48).val)), write_of (by decide +kernel), by decide +kernel⟩,
   ⟨2, { mkpdu with wellFormed := false }, mka2 (Mka.fresh 0 0) lineUp, by decide +kernel⟩,
   ⟨2, mkpdu, mka2 (Mka.fresh 0 0) lineUp, 9, by decide +kernel⟩,
   ⟨2, { mkpdu with live := false, sakSuite := some 1 },
   fld (msK 2) MsPort.MKA_PRIO 5 (fld (msK 2) MsPort.MKA_SUITE 1 (mka2 { Mka.fresh 0 0 with peer := some 8, peerPrio := 1 } lineUp)), 9,
   (1 : BitVec 2), by decide +kernel⟩,
   ⟨2, 9, mka2 (Mka.fresh 0 0) lineUp, by decide +kernel⟩,
   ⟨2, 9, mka2 { Mka.fresh 0 0 with peer := some 8 } lineUp, by decide +kernel⟩,
   ⟨2, ⟨1, 5, 1, true, some 0, 0⟩, 0, { up with msec := { up.msec with sak := [(2, (⟨1, 5, 1, true, some 0, 0⟩ : SakRun))] } }, by decide +kernel⟩⟩

/-- Every clause of `QueuesAndMeters` with hypotheses has a case. -/
theorem witness_QueuesAndMeters :
    (∃ (s : State) (x : PassResult) (rest : List PassResult) (pk : Packet), s.que.results = x :: rest ∧ getPkt s x.pkt = some pk ∧ twin s = false ∧
      (destOf x.next).kind = 1 ∧ (destOf x.next).port < 48 ∧ nodeOk s (destOf x.next).node = true ∧ x.meter = none ∧
      lossless s (destOf x.next).tc = true ∧ (getQ s (voqOf (destOf x.next).node (destOf x.next).port (destOf x.next).tc)).spilled = false ∧
      profileOf s (voqOf (destOf x.next).node (destOf x.next).port (destOf x.next).tc) = none) ∧
    (∃ (s : State) (x : PassResult) (rest : List PassResult) (pk : Packet) (m : _) (pre : _) (b : _), s.que.results = x :: rest ∧
      getPkt s x.pkt = some pk ∧ twin s = false ∧ (destOf x.next).kind = 1 ∧ (destOf x.next).port < 48 ∧ nodeOk s (destOf x.next).node = true ∧
      x.meter = some (m, pre) ∧ flag s (obj .meter m) Meter.EN = true ∧ flag s (obj .meter m) Meter.LOOSE = false ∧
      flag s (obj .meter m) Meter.COLOR_AWARE = false ∧ credited s (obj .meter m) = b ∧ b.tp < 1024 * (pk.len : Int) ∧
      flag s (obj .meter m) Meter.RED_ACT = false ∧ pk.leases = 0 ∧ pk.owner = ownerNone) ∧
    (∃ (s : State) (x : PassResult) (rest : List PassResult) (pk : Packet) (m : _) (pre : _) (b : _), s.que.results = x :: rest ∧
      getPkt s x.pkt = some pk ∧ twin s = false ∧ (destOf x.next).kind = 1 ∧ (destOf x.next).port < 48 ∧ nodeOk s (destOf x.next).node = true ∧
      x.meter = some (m, pre) ∧ flag s (obj .meter m) Meter.EN = true ∧ flag s (obj .meter m) Meter.LOOSE = false ∧
      flag s (obj .meter m) Meter.COLOR_AWARE = false ∧ credited s (obj .meter m) = b ∧ 1024 * (pk.len : Int) ≤ b.tp ∧ b.tc < 1024 * (pk.len : Int)) ∧
    (∃ (s : State) (x : PassResult) (rest : List PassResult) (pk : Packet) (m : _) (pre : _) (b : _), s.que.results = x :: rest ∧
      getPkt s x.pkt = some pk ∧ twin s = false ∧ (destOf x.next).kind = 1 ∧ (destOf x.next).port < 48 ∧ nodeOk s (destOf x.next).node = true ∧
      x.meter = some (m, pre) ∧ flag s (obj .meter m) Meter.EN = true ∧ flag s (obj .meter m) Meter.LOOSE = false ∧
      flag s (obj .meter m) Meter.COLOR_AWARE = false ∧ credited s (obj .meter m) = b ∧ 1024 * (pk.len : Int) ≤ b.tp ∧ 1024 * (pk.len : Int) ≤ b.tc) ∧
    (∃ (s : State) (x : PassResult) (rest : List PassResult) (pk : Packet), s.que.results = x :: rest ∧ getPkt s x.pkt = some pk ∧ twin s = false ∧
      (destOf x.next).kind = 1 ∧ (destOf x.next).port < 48 ∧ nodeOk s (destOf x.next).node = false ∧ pk.leases = 0 ∧ pk.owner = ownerNone) ∧
    (∃ (p : Fin 48) (tc : Fin 8) (s : State), tabGet? s.que.xoff (8 * p.val + tc.val) ≠ none ∧ xonOf s p.val tc.val < inOcc s p.val tc.val ∧
      isEthernet s p.val = true ∧ portUp s p.val = true ∧ inSafe s = false ∧ silent s p.val = false ∧ gateInForce s p.val = false) ∧
    (∃ (p : Fin 48) (tc : Fin 8) (s : State), tabGet? s.que.xoff (8 * p.val + tc.val) ≠ none ∧ inOcc s p.val tc.val ≤ xonOf s p.val tc.val) ∧
    (∃ (p : Fin 48) (e : Nat) (r : Ref) (rest : List Ref) (pk : Packet) (s : State), silent s p.val = false ∧ protPort s p.val = false ∧
      (egressWaits s).length < idleThreads s ∧ chanState s 1 = 1 ∧ chooseQueue (noteHeld p.val s) p.val = some e ∧
      (getQ s (egressNo e)).head = r :: rest ∧ (getQ s (egressNo e)).spilled = false ∧ getPkt s r.pkt = some pk ∧ pk.bad = false ∧
      mirrorSet s p.val true [] = [] ∧ portUp s p.val = true ∧ inSafe s = false) ∧
    (∃ (p : Fin 48) (tc : Fin 8) (base : Nat) (log : Nat) (s : State), tabGet? s.que.classNew (8 * p.val + tc.val) = some (base * 16 + log) ∧
      base < 2 ^ 18 ∧ log < 16 ∧ rangeEmpty s (rd s (obj .classMap p.val) (classBase tc.val)) (rd s (obj .classMap p.val) (classLog2 tc.val)) = true) ∧
    (∃ (p : Fin 48) (tc : Fin 8) (base : Nat) (log : Nat) (s : State), tabGet? s.que.classNew (8 * p.val + tc.val) = some (base * 16 + log) ∧
      base < 2 ^ 18 ∧ log < 16 ∧ rangeEmpty s (rd s (obj .classMap p.val) (classBase tc.val)) (rd s (obj .classMap p.val) (classLog2 tc.val)) = false) ∧
    (∃ (c : Hdr) (addr : ObjAddr) (k : Key) (s : State) (w : Waiting), Safety.Sets s c w k Meter.CLEAR 1 ∧ findObj addr = some k ∧
      k.ty ∈ [ObjTy.meter, .shPort, .shGrp, .shTen, .shSub, .shQueue]) :=
  ⟨⟨passed (up.fab.plan.addr) none (fld (obj .voqGlobal) VoqGlobal.LOSSLESS 255 up), result (up.fab.plan.addr) none, [], pktOf, by decide +kernel⟩,
   ⟨passed (up.fab.plan.addr) (some (6, 0)) (metered 0 0 up), result (up.fab.plan.addr) (some (6, 0)), [], pktOf, 6, 0,
   credited (passed (up.fab.plan.addr) (some (6, 0)) (metered 0 0 up)) (obj .meter 6), by decide +kernel⟩,
   ⟨passed (up.fab.plan.addr) (some (6, 0)) (metered 0 100 up), result (up.fab.plan.addr) (some (6, 0)), [], pktOf, 6, 0,
   credited (passed (up.fab.plan.addr) (some (6, 0)) (metered 0 100 up)) (obj .meter 6), by decide +kernel⟩,
   ⟨passed (up.fab.plan.addr) (some (6, 0)) (metered 100 100 up), result (up.fab.plan.addr) (some (6, 0)), [], pktOf, 6, 0,
   credited (passed (up.fab.plan.addr) (some (6, 0)) (metered 100 100 up)) (obj .meter 6), by decide +kernel⟩,
   ⟨passed (3) none (up), result (3) none, [], pktOf, by decide +kernel⟩,
   ⟨2, 3, underXoff 2 3 16000000 lineUp, by decide +kernel⟩,
   ⟨2, 3, underXoff 2 3 0 lineUp, by decide +kernel⟩,
   ⟨0, 0, refOf 1, [], pktOf,
   running 0 thr (putPkt 1 pktOf (setQ (egressNo 0) { Queue.empty with head := [refOf 1] } (fld (lpS 0) LpStatus.LINK 1 up))), by decide +kernel⟩,
   ⟨2, 3, 64, 2, { up with que := { up.que with classNew := [(19, 1026)] } }, by decide +kernel⟩,
   ⟨2, 3, 64, 2,
   { setQ (egressNo (rd up (obj .classMap 2) (classBase 3))) { Queue.empty with head := [refOf 1] } up with que := { (setQ (egressNo (rd up (obj .classMap 2) (classBase 3))) { Queue.empty with head := [refOf 1] } up).que with classNew := [(19, 1026)] } },
   by decide +kernel⟩,
   ⟨hd, addrOf (obj .meter 6), obj .meter 6, ask (waits 0x0202 (12 + Machine.sizeOf (obj .meter 6))) (metered 500 600 up),
   waits 0x0202 (12 + Machine.sizeOf (obj .meter 6)), write_of (by decide +kernel), by decide +kernel⟩⟩

/-- Every clause of `GateLists` with hypotheses has a case. -/
theorem witness_GateLists :
    (∃ (c : Hdr) (p : Fin 48) (s : State) (w : Waiting), Safety.Sets s c w (gateKey p.val) GateCtl.GO 1) ∧
    (∃ (c : Hdr) (p : Fin 48) (new : Nat) (s : State) (w : Waiting), (getGate s p.val).checking = some (c, new) ∧ s.cmd.waiting = [w] ∧ w.hdr = c ∧
      w.phase = .started 0x49 ∧ w.op = 0x0202 ∧ rd s (sessKey c.sid.val) SessStatus.NEXT_SEQ < 2 ^ 64 - 4096 ∧
      listOk (storeObj (gateKey p.val) new s) p.val = true) ∧
    (∃ (c : Hdr) (p : Fin 48) (new : Nat) (s : State) (w : Waiting), (getGate s p.val).checking = some (c, new) ∧ s.cmd.waiting = [w] ∧ w.hdr = c ∧
      w.phase = .started 0x49 ∧ w.op = 0x0202 ∧ rd s (sessKey c.sid.val) SessStatus.NEXT_SEQ < 2 ^ 64 - 4096 ∧
      listOk (storeObj (gateKey p.val) new s) p.val = false) ∧
    (∃ (p : Fin 48) (t0 : Nat) (n : Nat) (base : Nat) (s : State), (getGate s p.val).pending = some (t0, n, base)) ∧
    (∃ (p : Fin 48) (s : State), gateInForce s p.val = true ∧ (getGate s p.val).restart = none ∧
      (getGate s p.val).entry + 1 < (getGate s p.val).count) ∧
    (∃ (p : Fin 48) (s : State), gateInForce s p.val = true ∧ (getGate s p.val).restart = none ∧
      (getGate s p.val).count ≤ (getGate s p.val).entry + 1) ∧
    (∃ (c : Hdr) (p : Fin 48) (s : State) (w : Waiting), Safety.Sets s c w (gateKey p.val) GateCtl.EN 0 ∧ rd s (gateKey p.val) GateCtl.GO = 0) :=
  ⟨⟨hd, 2, ask (waits 0x0202 (12 + Machine.sizeOf (gateKey (2 : Fin 48).val))) (up), waits 0x0202 (12 + Machine.sizeOf (gateKey (2 : Fin 48).val)),
   write_of (by decide +kernel)⟩,
   ⟨hd, 2, putF (putF 0 GateCtl.EN 1) GateCtl.COUNT 1, ask ({ waits 0x0202 28 with phase := .started 0x49 }) (gateCheck 200 up),
   { waits 0x0202 28 with phase := .started 0x49 }, by decide +kernel⟩,
   ⟨hd, 2, putF (putF 0 GateCtl.EN 1) GateCtl.COUNT 1, ask ({ waits 0x0202 28 with phase := .started 0x49 }) (gateCheck 99 up),
   { waits 0x0202 28 with phase := .started 0x49 }, by decide +kernel⟩,
   ⟨2, 77, 3, 5,
   { up with que := { up.que with gates := [(2, { checking := none, pending := some (77, 3, 5), start := 0, entry := 0, count := 0, base := 0, restart := none })] } },
   by decide +kernel⟩,
   ⟨2, gateIn 1 up, by decide +kernel⟩,
   ⟨2, gateIn 2 up, by decide +kernel⟩,
   ⟨hd, 2, ask (waits 0x0202 (12 + Machine.sizeOf (gateKey (2 : Fin 48).val))) (gateIn 2 up),
   waits 0x0202 (12 + Machine.sizeOf (gateKey (2 : Fin 48).val)), write_of (by decide +kernel), by decide +kernel⟩⟩

/-- Every clause of `PeatAndSheepdog` with hypotheses has a case. -/
theorem witness_PeatAndSheepdog :
    (∃ (q : Nat) (p : Page) (s : State), (getQ s q).pages.find? (fun e => e.phase == .writing) = some p) ∧
    (∃ (q : Nat) (k : Key) (r : Ref) (l : List Ref) (s : State), (getQ s q).spilled = true ∧ profileOf s q = some k ∧
      pageFill [] (wholeRun s (getQ s q).tail) = r :: l ∧
      rd s (poolS (refPool s r)) PoolStatus.PAGES < rd s (poolK (refPool s r)) PoolCtl.PAGE_LIMIT ∧ 0 < rd s (obj .peatStatus) PeatStatus.PAGES_FREE) ∧
    (∃ (q : Nat) (k : Key) (r : Ref) (l : List Ref) (s : State), (getQ s q).spilled = true ∧ profileOf s q = some k ∧
      pageFill [] (wholeRun s (getQ s q).tail) = r :: l ∧ rd s (obj .peatStatus) PeatStatus.PAGES_FREE = 0) ∧
    (∃ (q : Nat) (p : Page) (s : State), (getQ s q).spilled = true ∧ (getQ s q).pages.find? (fun e => !reading e) = some p ∧ p.phase = .stored ∧
      ((∀ k, profileOf s q = some k → sumBillets (getQ s q).head < rd s k SpillProf.RETURN_AT)) ∧
      ((getQ s q).pages.filter reading).length + ((getQ s q).head.filterMap Ref.page).dedup.length < 2 ∧
      rd s (obj .bufStatus) BufStatus.STAGED + (p.imgs.map fun i => refBillets i.ref).sum ≤ stageSize s) ∧
    (∃ (q : Nat) (p : Page) (s : State), (getQ s q).spilled = true ∧ (getQ s q).pages.find? (fun e => !reading e) = some p ∧ p.phase = .stored ∧
      ((∀ k, profileOf s q = some k → sumBillets (getQ s q).head < rd s k SpillProf.RETURN_AT)) ∧
      ((getQ s q).pages.filter reading).length + ((getQ s q).head.filterMap Ref.page).dedup.length < 2 ∧
      stageSize s < rd s (obj .bufStatus) BufStatus.STAGED + (p.imgs.map fun i => refBillets i.ref).sum) ∧
    (∃ (q : Nat) (p : Page) (s : State), (getQ s q).pages.find? reading = some p) ∧
    (∃ (q : Nat) (p : Page) (s : State), (getQ s q).pages.find? reading = some p ∧ p.imgs ≠ []) ∧
    (∃ (q : Nat) (p : Page) (s : State), (getQ s q).pages.find? reading = some p ∧ p.phase = .reading 1) ∧
    (∃ (q : Nat) (p : Page) (s : State), (getQ s q).pages.find? reading = some p ∧ p.phase = .reading 2 ∧ p.imgs ≠ []) ∧
    (∃ (s : State), (∀ st ∈ [2, 3, 4, 5], rd s (obj .hbStatus st) HbStatus.STATE ≠ 0) ∧ flag s (obj .peatStatus) PeatStatus.READY = false ∧ 2 ≤ (([2,
      3, 4, 5] : List Nat).filter (hbmReady s)).length) ∧
    (∃ (s : State), (∀ st ∈ [2, 3, 4, 5], rd s (obj .hbStatus st) HbStatus.STATE ≠ 0) ∧ flag s (obj .peatStatus) PeatStatus.READY = false ∧ (([2, 3,
      4, 5] : List Nat).filter (hbmReady s)).length < 2) ∧
    (∃ (s : State), flag s (obj .shCtl) ShCtl.EN = true ∧ s.buf.round = false) ∧
    (∃ (s : State), s.buf.round = true ∧ ((∀ e ∈ s.buf.pkts, e.2.mark ≠ s.buf.rounds % 256 → e.2.desc ∉ s.buf.suspects)) ∧ (∀ i ∈ s.buf.lostBillets,
      i ∉ s.buf.strays) ∧ (∀ e ∈ s.buf.lostPages, e.1 + Config.billets ∉ s.buf.strays)) ∧
    (∃ (s : State) (n : _) (x : _), s.buf.round = true ∧ (s.buf.pkts.filter fun e => e.2.mark != s.buf.rounds % 256) = [(n, x)] ∧
      x.desc ∈ s.buf.suspects ∧ s.buf.lostBillets = [] ∧ s.buf.lostPages = [] ∧ flag s (obj .shCtl) ShCtl.RECLAIM = true) :=
  ⟨⟨9, pageOf (.writing), spilled [pageOf (.writing)] [] (putPkt 1 pktOf up), by decide +kernel⟩,
   ⟨9, obj .spillProf 1, refOf 1, [], spilled [] [refOf 1] (putPkt 1 pktOf up), by decide +kernel⟩,
   ⟨9, obj .spillProf 1, refOf 1, [], fld (obj .peatStatus) PeatStatus.PAGES_FREE 0 (spilled [] [refOf 1] (putPkt 1 pktOf up)), by decide +kernel⟩,
   ⟨9, pageOf (.stored), fld (obj .spillProf 1) SpillProf.RETURN_AT 9 (fld (obj .bufCtl) BufCtl.STAGE_SIZE 100 (spilled [pageOf .stored] [] up)),
   by decide +kernel⟩,
   ⟨9, pageOf (.stored), fld (obj .spillProf 1) SpillProf.RETURN_AT 9 (fld (obj .bufCtl) BufCtl.STAGE_SIZE 0 (spilled [pageOf .stored] [] up)),
   by decide +kernel⟩,
   ⟨9, pageOf (.reading 1), spilled [pageOf (.reading 1)] [] (putPkt 1 pktOf up), by decide +kernel⟩,
   ⟨9, pageOf (.reading 1), spilled [pageOf (.reading 1)] [] (putPkt 1 pktOf up), by decide +kernel⟩,
   ⟨9, pageOf (.reading 1), spilled [pageOf (.reading 1)] [] (putPkt 1 pktOf up), by decide +kernel⟩,
   ⟨9, pageOf (.reading 2), spilled [pageOf (.reading 2)] [] (putPkt 1 pktOf up), by decide +kernel⟩,
   ⟨hqStates 1 1 2 2 up, by decide +kernel⟩,
   ⟨hqStates 1 2 2 2 up, by decide +kernel⟩,
   ⟨fld (obj .shCtl) ShCtl.EN 1 up, by decide +kernel⟩,
   ⟨{ up with buf := { up.buf with round := true } }, by decide +kernel⟩,
   ⟨fld (obj .shCtl) ShCtl.RECLAIM 1 (putPkt 1 pktOf { up with buf := { up.buf with round := true, rounds := 1, suspects := [11] } }), 1, pktOf,
   by decide +kernel⟩⟩

/-- Every clause of `FabricLinks` with hypotheses has a case. -/
theorem witness_FabricLinks :
    (∃ (c : Hdr) (s : State) (w : Waiting), Safety.Sets s c w fabK FabSet.RESTART 1) ∧
    (∃ (k : Fin 64) (s : State), linkState s k.val = lsDown ∧ flag s (flC k.val) FlCtl.ADMIN_UP = true ∧ linkShed s k.val = false) ∧
    (∃ (k : Fin 64) (s : State), linkState s k.val = lsTraining) ∧
    (∃ (k : Fin 64) (s : State), linkState s k.val ∈ [lsHello, lsMismatch, lsQuar]) ∧
    (∃ (k : Fin 64) (h : Hello) (s : State), unaddressed s h = false ∧ linkState s k.val = lsHello ∧ helloCause s k.val h = 0 ∧
      (getFl s k.val).hello = some h ∧ 63 ≤ (getFl s k.val).helloN ∧ inSafe s = false ∧ flag s (flC k.val) FlCtl.ADMIN_QUAR = false) ∧
    (∃ (k : Fin 64) (h : Hello) (s : State), unaddressed s h = false ∧ linkState s k.val = lsHello ∧ helloCause s k.val h = 0 ∧
      (getFl s k.val).hello = some h ∧ (getFl s k.val).helloN < 63) ∧
    (∃ (k : Fin 64) (h : Hello) (s : State), unaddressed s h = false ∧ (linkState s k.val = lsHello ∨ linkState s k.val = lsUp) ∧
      helloCause s k.val h ≠ 0) ∧
    (∃ (k : Fin 64) (h : Hello) (s : State), unaddressed s h = false ∧ linkState s k.val = lsMismatch ∧ (getFl s k.val).hello = some h ∧
      helloCause s k.val h = 0) ∧
    (∃ (k : Fin 64) (s : State), linkState s k.val = lsUp) ∧
    (∃ (k : Fin 64) (s : State) (x : _) (q : _) (e : _), linkState s k.val = lsUp ∧ getFl s k.val = x ∧
      q = x.cells.length + (x.spent.map Prod.snd).sum ∧ e = ((x.e : Int) + (65536 * (q : Int) - x.e).fdiv 8).toNat) ∧
    (∃ (k : Fin 64) (s : State) (c : _), c ∈ [Instr.fabricLinkDown k, .downNoticeReceive k] ∧ linkState s k.val ∈ [lsTraining, lsHello, lsUp,
      lsMismatch] ∧ (recent s (getFl s k.val).falls (10 * sec)).length < 5) ∧
    (∃ (k : Fin 64) (s : State), linkState s k.val = lsQuar ∧ quarHeld s k.val = false ∧ (getFl s k.val).trial = false) ∧
    (∃ (k : Fin 64) (s : State), linkState s k.val = lsQuar ∧ quarHeld s k.val = false ∧ (getFl s k.val).trial = true ∧ checksPass s k.val = true) ∧
    (∃ (k : Fin 64) (s : State), linkState s k.val = lsQuar ∧ quarHeld s k.val = false ∧ (getFl s k.val).trial = true) ∧
    (∃ (c : Hdr) (k : Fin 64) (s : State) (w : Waiting), Safety.Sets s c w (flC k.val) FlCtl.ADMIN_QUAR 1 ∧
      flag s (flC k.val) FlCtl.ADMIN_QUAR = false ∧ flag s (flC k.val) FlCtl.ADMIN_UP = true ∧ linkState s k.val ≠ lsUnused) ∧
    (∃ (c : Hdr) (k : Fin 64) (s : State) (w : Waiting), Safety.Sets s c w (flC k.val) FlCtl.ADMIN_QUAR 0 ∧
      flag s (flC k.val) FlCtl.ADMIN_QUAR = true ∧ flag s (flC k.val) FlCtl.ADMIN_UP = true ∧ inSafe s = false ∧ linkState s k.val = lsQuar ∧
      rd s (flKey k.val) FlStatus.CAUSE = 1) ∧
    (∃ (c : Hdr) (k : Fin 64) (s : State) (w : Waiting), Safety.Sets s c w (flC k.val) FlCtl.ADMIN_UP 0 ∧ linkState s k.val ≠ lsUnused ∧
      (recent s (getFl s k.val).falls (10 * sec)).length < 5) ∧
    (∃ (c : Hdr) (k : Fin 64) (s : State) (w : Waiting), Safety.Sets s c w (flC k.val) FlCtl.ADMIN_UP 1 ∧
      flag s (flC k.val) FlCtl.ADMIN_QUAR = false ∧ linkState s k.val = lsDown) :=
  ⟨⟨hd, ask (waits 0x0202 (12 + Machine.sizeOf fabK)) (up), waits 0x0202 (12 + Machine.sizeOf fabK), write_of (by decide +kernel)⟩,
   ⟨2, link2 lsDown up, by decide +kernel⟩,
   ⟨2, link2 lsTraining up, by decide +kernel⟩,
   ⟨2, link2 lsHello up, by decide +kernel⟩,
   ⟨2, hello3, fl2 ({ Fl.reset with hello := some hello3, helloN := 63 }) (link2 lsHello up), by decide +kernel⟩,
   ⟨2, hello3, fl2 ({ Fl.reset with hello := some hello3, helloN := 62 }) (link2 lsHello up), by decide +kernel⟩,
   ⟨2, { hello3 with link := 2 }, link2 lsUp up, by decide +kernel⟩,
   ⟨2, hello3, fl2 ({ Fl.reset with hello := some hello3 }) (link2 lsMismatch up), by decide +kernel⟩,
   ⟨2, link2 lsUp up, by decide +kernel⟩,
   ⟨2, fl2 ({ queued [(0, 3)] with e := 70000 }) (link2 lsUp up), getFl (fl2 ({ queued [(0, 3)] with e := 70000 }) (link2 lsUp up)) 2, 4,
   (70000 + ((65536 * 4 : Int) - 70000).fdiv 8).toNat, by decide +kernel⟩,
   ⟨2, link2 lsUp up, Instr.downNoticeReceive (2 : Fin 64), by decide +kernel⟩,
   ⟨2, fl2 ({ Fl.reset with hello := some hello3 }) (link2 lsQuar up), by decide +kernel⟩,
   ⟨2, fl2 ({ Fl.reset with trial := true, hello := some hello3 }) (link2 lsQuar up), by decide +kernel⟩,
   ⟨2, fl2 ({ Fl.reset with trial := true, hello := some hello3 }) (link2 lsQuar up), by decide +kernel⟩,
   ⟨hd, 2, ask (waits 0x0202 (12 + Machine.sizeOf (flC (2 : Fin 64).val))) (link2 lsUp up), waits 0x0202 (12 + Machine.sizeOf (flC (2 : Fin 64).val)),
   write_of (by decide +kernel), by decide +kernel⟩,
   ⟨hd, 2,
   ask (waits 0x0202 (12 + Machine.sizeOf (flC (2 : Fin 64).val))) (fld (flKey 2) FlStatus.CAUSE 1 (fld (flC 2) FlCtl.ADMIN_QUAR 1 (link2 lsQuar up))),
   waits 0x0202 (12 + Machine.sizeOf (flC (2 : Fin 64).val)), write_of (by decide +kernel), by decide +kernel⟩,
   ⟨hd, 2, ask (waits 0x0202 (12 + Machine.sizeOf (flC (2 : Fin 64).val))) (link2 lsUp up), waits 0x0202 (12 + Machine.sizeOf (flC (2 : Fin 64).val)),
   write_of (by decide +kernel), by decide +kernel⟩,
   ⟨hd, 2, ask (waits 0x0202 (12 + Machine.sizeOf (flC (2 : Fin 64).val))) (fld (flC 2) FlCtl.ADMIN_UP 0 (link2 lsDown up)),
   waits 0x0202 (12 + Machine.sizeOf (flC (2 : Fin 64).val)), write_of (by decide +kernel), by decide +kernel⟩⟩

/-- Every clause of `FabricRoutes` with hypotheses has a case. -/
theorem witness_FabricRoutes :
    (∃ (k : Fin 64) (r : LinkRecord) (s : State), linkState s k.val = lsUp ∧ r.addr.toNat ≠ s.fab.plan.addr ∧
      tabGet? s.fab.incs r.addr.toNat = some r.inc.toNat ∧ tabGet s.fab.records r.addr.toNat [] = []) ∧
    (∃ (k : Fin 64) (r : LinkRecord) (s : State) (h : Held), linkState s k.val = lsUp ∧
      (tabGet s.fab.records r.addr.toNat []).find? (fun h => h.record.serial == r.serial) = some h ∧ r.time ≤ h.record.time) ∧
    (∃ (s : State), s.fab.started = true) ∧
    (∃ (s : State), s.fab.started = false) ∧
    (∃ (a : Fin 4096) (h : Held) (s : State), a.val ≠ s.fab.plan.addr ∧ tabGet s.fab.records a.val [] = [h]) ∧
    (∃ (s : State), s.fab.stale = true) ∧
    (∃ (s : State), s.fab.stale = false) ∧
    (∃ (n : Fin 4096) (s : State), n.val ≠ s.fab.plan.addr ∧ reachable s n.val = false) ∧
    (∃ (n : Fin 4096) (s : State), n.val ≠ s.fab.plan.addr ∧ reachable s n.val = true) :=
  ⟨⟨2, record3 1, link2 lsUp up, by decide +kernel⟩,
   ⟨2, record3 1, meshed up, ⟨record3 1, 0⟩, by decide +kernel⟩,
   ⟨{ meshed up with fab := { (meshed up).fab with started := true } }, by decide +kernel⟩,
   ⟨up, by decide +kernel⟩,
   ⟨3, ⟨record3 1, 0⟩, meshed up, by decide +kernel⟩,
   ⟨{ meshed up with fab := { (meshed up).fab with stale := true } }, by decide +kernel⟩,
   ⟨{ up with fab := { up.fab with stale := false } }, by decide +kernel⟩,
   ⟨3, fld (routeKey 3) Route.DIST 7 (meshed up), by decide +kernel⟩,
   ⟨3, meshed up, by decide +kernel⟩⟩

/-- Every clause of `FabricCells` with hypotheses has a case. -/
theorem witness_FabricCells :
    (∃ (k : Fin 64) (cell : Cell) (s : State), linkState s k.val = lsUp ∧ cellHeaderOk cell = false ∧ cell.fecBad = false ∧
      (getFl s k.val).cells = [] ∧ (recent s (getFl s k.val).crcAt ms).length < 15) ∧
    (∃ (k : Fin 64) (j : Fin 64) (cell : Cell) (c : Cell) (c' : Cell) (s : State), linkState s k.val = lsUp ∧ cellHeaderOk cell = true ∧
      cell.fecBad = false ∧ cell.crcOk = true ∧ cell.poison = false ∧ cell.type = 0 ∧ cell.dst.toNat ≠ me s ∧ cell.hops.toNat < 5 ∧
      c = { cell with hops := cell.hops + 1, poison := false, crcOk := true, fecBad := false, fecCor := 0, credVc := 0, credN := 0 } ∧
      chooseLink s c = some (j.val, c', false)) ∧
    (∃ (k : Fin 64) (cell : Cell) (q : Nat) (x : DstStream) (s : State), linkState s k.val = lsUp ∧ cellHeaderOk cell = true ∧ cell.fecBad = false ∧
      cell.crcOk = true ∧ cell.type = 0 ∧ cell.dst.toNat = me s ∧ q = voqOf cell.src.toNat cell.port.toNat cell.tc.toNat ∧ getDst s q = x ∧
      cell.seq.toNat = x.expect ∧ x.held = [] ∧ x.waits = [] ∧ cell.poison = false ∧ x.poisoned = [] ∧ x.synced = true ∧ cell.recOff ≠ 0 ∧
      nextPacket (x.buf ++ toBytes 240 cell.payload.toNat) cell.endOff.toNat = .wait) ∧
    (∃ (k : Fin 64) (cell : Cell) (q : Nat) (x : DstStream) (s : State), linkState s k.val = lsUp ∧ cellHeaderOk cell = true ∧ cell.fecBad = false ∧
      cell.crcOk = true ∧ cell.type = 0 ∧ cell.dst.toNat = me s ∧ q = voqOf cell.src.toNat cell.port.toNat cell.tc.toNat ∧ getDst s q = x ∧
      cell.seq.toNat = x.expect ∧ x.held = [] ∧ x.waits = [] ∧ cell.poison = true ∧ cell.tc ≠ 7 ∧ x.buf ≠ [] ∧ cell.recOff = 255) ∧
    (∃ (k : Fin 64) (x : Fl) (c : FabCell) (s : State), linkState s k.val = lsUp ∧ getFl s k.val = x ∧ nextCell x = some c ∧ c.slot = none ∧
      x.freed = []) ∧
    (∃ (k : Fin 64) (x : Fl) (c : FabCell) (s : State) (rest : List FabCell), linkState s k.val = lsUp ∧ getFl s k.val = x ∧ nextCell x = none ∧
      x.cells = c :: rest ∧ c.waited = false) ∧
    (∃ (k : Fin 64) (x : Fl) (s : State) (l : List Nat), linkState s k.val = lsUp ∧ getFl s k.val = x ∧ l.length = 7) ∧
    (∃ (n : Fin 4096) (p : Fin 48) (tc : Fin 8) (q : Nat) (x : DstStream) (s : State) (h : _) (d : _), q = voqOf n.val p.val tc.val ∧
      getDst s q = x ∧ x.held = [h] ∧ h.seq < 2 ^ 18 ∧ x.expect < 2 ^ 18 ∧ seqAhead x.expect h.seq = some d ∧ 0 < d ∧ h.bytes = none ∧
      h.recOff = 255 ∧ x.waits = []) ∧
    (∃ (n : Fin 4096) (p : Fin 48) (tc : Fin 8) (q : Nat) (x : DstStream) (s : State), q = voqOf n.val p.val tc.val ∧ getDst s q = x ∧ x.held = []) :=
  ⟨⟨2, { cell3 with hcrcOk := false }, link2 lsUp up, by decide +kernel⟩,
   ⟨1, 2, { cell3 with dst := 3, src := 2 },
   { ({ cell3 with dst := 3, src := 2 }) with hops := ({ cell3 with dst := 3, src := 2 }).hops + 1, poison := false, crcOk := true, fecBad := false, credVc := 0, credN := 0 },
   ({ ({ cell3 with dst := 3, src := 2 }) with hops := ({ cell3 with dst := 3, src := 2 }).hops + 1, poison := false, crcOk := true, fecBad := false, credVc := 0, credN := 0 }),
   fld (flKey 1) FlStatus.STATE lsUp (meshed up), by decide +kernel⟩,
   ⟨2, { cell3 with recOff := 3 }, voqOf 3 3 2, { DstStream.zero with synced := true }, dst3 ({ DstStream.zero with synced := true }) (meshed up),
   by decide +kernel⟩,
   ⟨2, { cell3 with poison := true }, voqOf 3 3 2, { DstStream.zero with buf := [5] }, dst3 ({ DstStream.zero with buf := [5] }) (meshed up),
   by decide +kernel⟩,
   ⟨2, queued [], waitCell, fl2 (queued []) (link2 lsUp up), by decide +kernel⟩,
   ⟨2, queued [(0, 416)], waitCell, fl2 (queued [(0, 416)]) (link2 lsUp up), ([] : List FabCell), by decide +kernel⟩,
   ⟨2, queued [(0, 416)], fl2 (queued [(0, 416)]) (link2 lsUp up), [1, 2, 3, 4, 5, 6, 7], by decide +kernel⟩,
   ⟨3, 3, 2, voqOf 3 3 2, { DstStream.zero with held := [(⟨2, 255, 0, none⟩)] },
   dst3 ({ DstStream.zero with held := [(⟨2, 255, 0, none⟩)] }) (meshed up), ⟨2, 255, 0, none⟩, 2, by decide +kernel⟩,
   ⟨3, 3, 2, voqOf 3 3 2, DstStream.zero, meshed up, by decide +kernel⟩⟩

/-- Every clause of `EndToEndCredit` with hypotheses has a case. -/
theorem witness_EndToEndCredit :
    (∃ (n : Fin 4096) (p : Fin 48) (tc : Fin 8) (q : Nat) (r : Ref) (rest : List Ref) (pk : Packet) (s : State) (u : State),
      q = voqOf n.val p.val tc.val ∧ n.val ≠ me s ∧ (getQ s q).head = r :: rest ∧ (getQ s q).spilled = false ∧ getPkt s r.pkt = some pk ∧
      protPort s pk.arrPort = false ∧ (getSrc s q).open_ = none ∧ isArriving s r.pkt = false ∧
      (if r.lease then pk.leases ≠ 0 else pk.owner = r.from_) ∧ maySend s q = true ∧ takeTurn q s = some u ∧ pk.bad = false) ∧
    (∃ (n : Fin 4096) (p : Fin 48) (tc : Fin 8) (q : Nat) (r : Ref) (rest : List Ref) (pk : Packet) (s : State) (u : State),
      q = voqOf n.val p.val tc.val ∧ n.val ≠ me s ∧ (getQ s q).head = r :: rest ∧ (getQ s q).spilled = false ∧ getPkt s r.pkt = some pk ∧
      protPort s pk.arrPort = false ∧ (getSrc s q).open_ = none ∧ isArriving s r.pkt = false ∧
      (if r.lease then pk.leases ≠ 0 else pk.owner = r.from_) ∧ maySend s q = true ∧ takeTurn q s = some u ∧ pk.bad = true ∧ r.lease = false ∧
      pk.leases = 0) ∧
    (∃ (n : Fin 4096) (p : Fin 48) (tc : Fin 8) (q : Nat) (r : Ref) (rest : List Ref) (pk : Packet) (s : State), q = voqOf n.val p.val tc.val ∧
      n.val ≠ me s ∧ (getQ s q).head = r :: rest ∧ (getQ s q).spilled = false ∧ getPkt s r.pkt = some pk ∧ protPort s pk.arrPort = false ∧
      (getSrc s q).open_ = none ∧ isArriving s r.pkt = false ∧ (if r.lease then pk.leases ≠ 0 else pk.owner = r.from_) ∧ maySend s q = false) ∧
    (∃ (n : Fin 4096) (p : Fin 48) (tc : Fin 8) (q : Nat) (d : Nat) (r : Ref) (s : State), q = voqOf n.val p.val tc.val ∧
      (getSrc s q).open_ = some (r, d) ∧ isArriving s r.pkt = true) ∧
    (∃ (n : Fin 4096) (p : Fin 48) (tc : Fin 8) (q : Nat) (d : Nat) (r : Ref) (s : State) (pk : _), q = voqOf n.val p.val tc.val ∧
      (getSrc s q).open_ = some (r, d) ∧ isArriving s r.pkt = false ∧ getPkt s r.pkt = some pk ∧
      (if r.lease then pk.leases ≠ 0 else pk.owner = r.from_)) ∧
    (∃ (tc : Fin 8) (r : Ref) (rest : List Ref) (pk : Packet) (s : State) (u : State), inSafe s = false ∧ (getQ s (mqOf tc.val)).head = r :: rest ∧
      (getQ s (mqOf tc.val)).spilled = false ∧ getPkt s r.pkt = some pk ∧ pk.bad = false ∧ protPort s pk.arrPort = false ∧
      me s ∉ membersOf s (r.group.getD 0) ∧ (if r.lease then pk.leases ≠ 0 else pk.owner = r.from_) ∧ mcReady s tc.val = true ∧
      takeTurn (mqOf tc.val) s = some u) ∧
    (∃ (tc : Fin 8) (r : Ref) (rest : List Ref) (pk : Packet) (s : State), inSafe s = false ∧ (getQ s (mqOf tc.val)).head = r :: rest ∧
      (getQ s (mqOf tc.val)).spilled = false ∧ getPkt s r.pkt = some pk ∧ pk.bad = false ∧ protPort s pk.arrPort = false ∧
      me s ∉ membersOf s (r.group.getD 0) ∧ (if r.lease then pk.leases ≠ 0 else pk.owner = r.from_) ∧ mcReady s tc.val = false) ∧
    (∃ (tc : Fin 8) (r : Ref) (rest : List Ref) (pk : Packet) (s : State), inSafe s = false ∧ (getQ s (mqOf tc.val)).head = r :: rest ∧
      (getQ s (mqOf tc.val)).spilled = false ∧ getPkt s r.pkt = some pk ∧ pk.bad = false ∧ protPort s pk.arrPort = false ∧
      me s ∉ membersOf s (r.group.getD 0) ∧ (if r.lease then pk.leases ≠ 0 else pk.owner = r.from_) ∧ mcReady s tc.val = false ∧
      lossless s tc.val = false ∧ isArriving s r.pkt = false) ∧
    (∃ (tc : Fin 8) (r : Ref) (rest : List Ref) (pk : Packet) (s : State), inSafe s = false ∧ (getQ s (mqOf tc.val)).head = r :: rest ∧
      (getQ s (mqOf tc.val)).spilled = false ∧ getPkt s r.pkt = some pk ∧ pk.bad = false ∧ protPort s pk.arrPort = false ∧
      me s ∉ membersOf s (r.group.getD 0) ∧ (if r.lease then pk.leases ≠ 0 else pk.owner = r.from_) ∧ isArriving s r.pkt = true) ∧
    (∃ (tc : Fin 8) (r : Ref) (rest : List Ref) (pk : Packet) (s : State), inSafe s = false ∧ (getQ s (mqOf tc.val)).head = r :: rest ∧
      (getQ s (mqOf tc.val)).spilled = false ∧ getPkt s r.pkt = some pk ∧ pk.bad = false ∧ protPort s pk.arrPort = false ∧
      me s ∉ membersOf s (r.group.getD 0) ∧ (if r.lease then pk.leases ≠ 0 else pk.owner = r.from_) ∧ lossless s tc.val = true) ∧
    (∃ (n : Fin 4096) (p : Fin 48) (tc : Fin 8) (k : Nat) (x : SrcStream) (s : State), n.val ≠ me s ∧ orderedLink s n.val = some k ∧
      getSrc s (voqOf n.val p.val tc.val) = x ∧ x.reqAt = none ∧ balance x < backlogOf s (voqOf n.val p.val tc.val) chargeOf) ∧
    (∃ (n : Fin 4096) (p : Fin 48) (tc : Fin 8) (k : Nat) (x : SrcStream) (s : State), n.val ≠ me s ∧ orderedLink s n.val = some k ∧
      getSrc s (voqOf n.val p.val tc.val) = x ∧ backlogOf s (voqOf n.val p.val tc.val) chargeOf ≤ balance x) ∧
    (∃ (n : Fin 4096) (p : Fin 48) (tc : Fin 8) (k : Nat) (x : SrcStream) (s : State) (t0 : _), n.val ≠ me s ∧ orderedLink s n.val = some k ∧
      getSrc s (voqOf n.val p.val tc.val) = x ∧ x.reqAt = some t0 ∧ s.clock < t0 + 1000) ∧
    (∃ (n : Fin 4096) (p : Fin 48) (tc : Fin 8) (k : Nat) (x : SrcStream) (s : State) (t0 : _), n.val ≠ me s ∧ orderedLink s n.val = some k ∧
      getSrc s (voqOf n.val p.val tc.val) = x ∧ x.reqAt = some t0 ∧ x.reqLog = backlogOf s (voqOf n.val p.val tc.val) chargeOf) ∧
    (∃ (n : Fin 4096) (p : Fin 48) (tc : Fin 8) (k : Nat) (x : SrcStream) (s : State), n.val ≠ me s ∧ orderedLink s n.val = some k ∧
      getSrc s (voqOf n.val p.val tc.val) = x ∧ depth (getQ s (voqOf n.val p.val tc.val)) = 0 ∧ balance x ≠ 0 ∧ x.fill = 0 ∧ x.open_ = none) ∧
    (∃ (n : Fin 4096) (p : Fin 48) (tc : Fin 8) (k : Nat) (x : SrcStream) (s : State), n.val ≠ me s ∧ orderedLink s n.val = some k ∧
      getSrc s (voqOf n.val p.val tc.val) = x ∧ x.open_ ≠ none) ∧
    (∃ (n : Fin 4096) (p : Fin 48) (tc : Fin 8) (k : Nat) (x : SrcStream) (s : State), n.val ≠ me s ∧ orderedLink s n.val = some k ∧
      getSrc s (voqOf n.val p.val tc.val) = x ∧ depth (getQ s (voqOf n.val p.val tc.val)) ≠ 0) ∧
    (∃ (n : Fin 4096) (tc : Fin 8) (k : Nat) (x : SrcStream) (s : State), n.val ≠ me s ∧ orderedLink s n.val = some k ∧
      getMs s (8 * n.val + tc.val) = x ∧ x.synced = false) ∧
    (∃ (n : Fin 4096) (tc : Fin 8) (k : Nat) (x : SrcStream) (s : State), n.val ≠ me s ∧ orderedLink s n.val = some k ∧
      getMs s (8 * n.val + tc.val) = x ∧ x.synced = true) ∧
    (∃ (m : CreditMsg) (s : State) (q : _) (x : _), m.peer.toNat ≠ me s ∧ m.peerInc.toNat = s.fab.inc ∧
      tabGet? s.fab.incs m.peer.toNat = some m.inc.toNat ∧ m.port.toNat < 48 ∧ q = voqOf m.peer.toNat m.port.toNat m.tc.val ∧ getDst s q = x ∧
      m.nextSeq.toNat = x.expect) ∧
    (∃ (m : CreditMsg) (s : State) (q : _) (x : _), m.peer.toNat ≠ me s ∧ m.peerInc.toNat = s.fab.inc ∧
      tabGet? s.fab.incs m.peer.toNat = some m.inc.toNat ∧ m.port.toNat < 48 ∧ q = voqOf m.peer.toNat m.port.toNat m.tc.val ∧ getSrc s q = x) ∧
    (∃ (m : CreditMsg) (s : State) (x : _), m.peer.toNat ≠ me s ∧ m.peerInc.toNat = s.fab.inc ∧ tabGet? s.fab.incs m.peer.toNat = some m.inc.toNat ∧
      m.port.toNat < 48 ∧ getMc s (mcKey m.peer.toNat m.tc.val) = x) ∧
    (∃ (m : CreditMsg) (s : State) (c : _), c ∈ [Instr.requestReceive m, .returnReceive m, .grantReceive m, .syncReceive m] ∧ m.peer.toNat ≠ me s ∧
      m.peerInc.toNat ≠ s.fab.inc ∧ m.peerInc ≠ 0) ∧
    (∃ (n : Fin 4096) (p : Fin 48) (tc : Fin 8) (q : Nat) (g : Nat) (s : State) (u : State), q = voqOf n.val p.val tc.val ∧ grantSize s q = g ∧
      0 < g ∧ grantTurn q s = some u) ∧
    (∃ (n : Fin 4096) (p : Fin 48) (tc : Fin 8) (q : Nat) (g : Nat) (s : State), q = voqOf n.val p.val tc.val ∧ grantSize s q = g ∧ g = 0) :=
  ⟨⟨3, 3, 2, voqOf 3 3 2, refOf 1, [], pktOf, src3 { SrcStream.zero with granted := 100 } (headed (voqOf 3 3 2) (pktOf) (meshed up)),
   (takeTurn (voqOf 3 3 2) (src3 { SrcStream.zero with granted := 100 } (headed (voqOf 3 3 2) (pktOf) (meshed up)))).getD (src3 { SrcStream.zero with granted := 100 } (headed (voqOf 3 3 2) (pktOf) (meshed up))),
   by decide +kernel⟩,
   ⟨3, 3, 2, voqOf 3 3 2, refOf 1, [], { pktOf with bad := true },
   src3 { SrcStream.zero with granted := 100 } (headed (voqOf 3 3 2) ({ pktOf with bad := true }) (meshed up)),
   (takeTurn (voqOf 3 3 2) (src3 { SrcStream.zero with granted := 100 } (headed (voqOf 3 3 2) ({ pktOf with bad := true }) (meshed up)))).getD (src3 { SrcStream.zero with granted := 100 } (headed (voqOf 3 3 2) ({ pktOf with bad := true }) (meshed up))),
   by decide +kernel⟩,
   ⟨3, 3, 2, voqOf 3 3 2, refOf 1, [], pktOf, src3 { SrcStream.zero with granted := 0 } (headed (voqOf 3 3 2) (pktOf) (meshed up)), by decide +kernel⟩,
   ⟨3, 3, 2, voqOf 3 3 2, 0, refOf 1, src3 opened (putPkt 1 pktOf (arriving1 (meshed up))), by decide +kernel⟩,
   ⟨3, 3, 2, voqOf 3 3 2, 0, refOf 1, src3 opened (putPkt 1 pktOf (meshed up)), pktOf, by decide +kernel⟩,
   ⟨2, refOf 1, [], pktOf, setMs (8 * 3 + 2) { SrcStream.zero with granted := 100 } (headed (mqOf 2) pktOf (group0 (meshed (up)))),
   (takeTurn (mqOf 2) (setMs (8 * 3 + 2) { SrcStream.zero with granted := 100 } (headed (mqOf 2) pktOf (group0 (meshed (up)))))).getD (setMs (8 * 3 + 2) { SrcStream.zero with granted := 100 } (headed (mqOf 2) pktOf (group0 (meshed (up))))),
   by decide +kernel⟩,
   ⟨2, refOf 1, [], pktOf, setMs (8 * 3 + 2) { SrcStream.zero with granted := 0 } (headed (mqOf 2) pktOf (group0 (meshed (up)))), by decide +kernel⟩,
   ⟨2, refOf 1, [], pktOf,
   setMs (8 * 3 + 2) { SrcStream.zero with granted := 0 } (headed (mqOf 2) pktOf (group0 (meshed (fld (obj .voqGlobal) VoqGlobal.LOSSLESS 0 up)))),
   by decide +kernel⟩,
   ⟨2, refOf 1, [], pktOf,
   arriving1 (setMs (8 * 3 + 2) { SrcStream.zero with granted := 0 } (headed (mqOf 2) pktOf (group0 (meshed (fld (obj .voqGlobal) VoqGlobal.LOSSLESS 0 up))))),
   by decide +kernel⟩,
   ⟨2, refOf 1, [], pktOf,
   setMs (8 * 3 + 2) { SrcStream.zero with granted := 0 } (headed (mqOf 2) pktOf (group0 (meshed (fld (obj .voqGlobal) VoqGlobal.LOSSLESS 255 up)))),
   by decide +kernel⟩,
   ⟨3, 3, 2, 2, SrcStream.zero, src3 SrcStream.zero (headed (voqOf 3 3 2) pktOf (meshed up)), by decide +kernel⟩,
   ⟨3, 3, 2, 2, { SrcStream.zero with granted := 100 }, src3 ({ SrcStream.zero with granted := 100 }) (headed (voqOf 3 3 2) pktOf (meshed up)),
   by decide +kernel⟩,
   ⟨3, 3, 2, 2, { SrcStream.zero with reqAt := some 0 }, src3 ({ SrcStream.zero with reqAt := some 0 }) (headed (voqOf 3 3 2) pktOf (meshed up)), 0,
   by decide +kernel⟩,
   ⟨3, 3, 2, 2, { SrcStream.zero with reqAt := some 0 }, src3 ({ SrcStream.zero with reqAt := some 0 }) ( (meshed up)), 0, by decide +kernel⟩,
   ⟨3, 3, 2, 2, { SrcStream.zero with granted := 9 }, src3 ({ SrcStream.zero with granted := 9 }) ( (meshed up)), by decide +kernel⟩,
   ⟨3, 3, 2, 2, opened, src3 opened (putPkt 1 pktOf (meshed up)), by decide +kernel⟩,
   ⟨3, 3, 2, 2, { SrcStream.zero with granted := 9 }, src3 ({ SrcStream.zero with granted := 9 }) (headed (voqOf 3 3 2) pktOf (meshed up)),
   by decide +kernel⟩,
   ⟨3, 2, 2, { SrcStream.zero with synced := false }, setMs (8 * 3 + 2) ({ SrcStream.zero with synced := false }) (meshed up), by decide +kernel⟩,
   ⟨3, 2, 2, SrcStream.zero, setMs (8 * 3 + 2) SrcStream.zero (meshed up), by decide +kernel⟩,
   ⟨credit3 3 5, meshed up, voqOf 3 3 2, DstStream.zero, by decide +kernel⟩,
   ⟨credit3 3 5, meshed up, voqOf 3 3 2, SrcStream.zero, by decide +kernel⟩,
   ⟨credit3 3 5, meshed up, McDst.zero, by decide +kernel⟩,
   ⟨credit3 3 4, meshed up, Instr.grantReceive (credit3 3 4), by decide +kernel⟩,
   ⟨3, 3, 2, voqOf 3 3 2, grantSize (dst3 { DstStream.zero with backlog := 9 } (meshed up)) (voqOf 3 3 2),
   dst3 { DstStream.zero with backlog := 9 } (meshed up),
   (grantTurn (voqOf 3 3 2) (dst3 { DstStream.zero with backlog := 9 } (meshed up))).getD (dst3 { DstStream.zero with backlog := 9 } (meshed up)),
   by decide +kernel⟩,
   ⟨3, 3, 2, voqOf 3 3 2, 0, meshed up, by decide +kernel⟩⟩

/-- Every clause of `HbmRequests` with hypotheses has a case. -/
theorem witness_HbmRequests :
    (∃ (st : Fin 6) (r : HbmReq) (x : Stack) (s : State), getStack s st.val = x ∧ rd s (hbS st.val) HbStatus.STATE = 1 ∧
      flag s (hbR st.val r.req.val) HbReq.PRESENT = true ∧ r.write = false ∧ (∃ h ∈ x.reqs, h.rq.addr = r.addr)) ∧
    (∃ (st : Fin 6) (r : HbmReq) (x : Stack) (s : State), getStack s st.val = x ∧ rd s (hbS st.val) HbStatus.STATE = 1 ∧
      flag s (hbR st.val r.req.val) HbReq.PRESENT = true ∧ (∀ h ∈ x.reqs, h.rq.addr ≠ r.addr) ∧
      hbmRoom x (pcOf r.addr) r.req.val (rd s (hbR st.val r.req.val) HbReq.CLASS) = true) ∧
    (∃ (st : Fin 6) (r : HbmReq) (x : Stack) (s : State), getStack s st.val = x ∧ rd s (hbS st.val) HbStatus.STATE = 1 ∧
      flag s (hbR st.val r.req.val) HbReq.PRESENT = true ∧ (∀ h ∈ x.reqs, h.rq.addr ≠ r.addr) ∧
      hbmRoom x (pcOf r.addr) r.req.val (rd s (hbR st.val r.req.val) HbReq.CLASS) = false) ∧
    (∃ (st : Fin 6) (pc : Fin 16) (due : Bool) (x : Stack) (s : State), getStack s st.val = x ∧ rd s (hbS st.val) HbStatus.STATE = 1 ∧
      8 < tabGet x.postponed pc.val 0 + (if due then 1 else 0)) ∧
    (∃ (st : Fin 6) (pc : Fin 16) (x : Stack) (s : State) (b : _), getStack s st.val = x ∧ rd s (hbS st.val) HbStatus.STATE = 1 ∧
      tabGet x.postponed pc.val 0 = 0 ∧ (∀ h ∈ x.reqs, heldBack s st.val x h = false) ∧ dueBank x pc.val = some b) ∧
    (∃ (st : Fin 6) (pc : Fin 16) (x : Stack) (s : State) (h : _) (a : _), getStack s st.val = x ∧ rd s (hbS st.val) HbStatus.STATE = 1 ∧
      tabGet x.postponed pc.val 0 = 0 ∧ (∀ h ∈ x.reqs, heldBack s st.val x h = false) ∧ dueBank x pc.val = none ∧
      nextRequest s st.val pc.val x = some (h, a) ∧ rowHit s st.val x h = true) ∧
    (∃ (st : Fin 6) (pc : Fin 16) (x : Stack) (s : State) (h : _) (a : _) (k : _) (n : _) (l : _), getStack s st.val = x ∧
      rd s (hbS st.val) HbStatus.STATE = 1 ∧ tabGet x.postponed pc.val 0 = 0 ∧ (∀ h ∈ x.reqs, heldBack s st.val x h = false) ∧
      dueBank x pc.val = none ∧ nextRequest s st.val pc.val x = some (h, a) ∧ rowHit s st.val x h = false ∧
      getBank x pc.val (bankOfAddr h.rq.addr) = k ∧ trackRow k.counts (rowOf h.rq.addr) = (n, l) ∧ n < rd s (hbC st.val) HbCtl.RD_THRESH) ∧
    (∃ (st : Fin 6) (pc : Fin 16) (x : Stack) (s : State) (h : _) (a : _) (k : _) (n : _) (l : _), getStack s st.val = x ∧
      rd s (hbS st.val) HbStatus.STATE = 1 ∧ tabGet x.postponed pc.val 0 = 0 ∧ (∀ h ∈ x.reqs, heldBack s st.val x h = false) ∧
      dueBank x pc.val = none ∧ nextRequest s st.val pc.val x = some (h, a) ∧ rowHit s st.val x h = false ∧
      getBank x pc.val (bankOfAddr h.rq.addr) = k ∧ trackRow k.counts (rowOf h.rq.addr) = (n, l) ∧ rd s (hbC st.val) HbCtl.RD_THRESH ≤ n) ∧
    (∃ (st : Fin 6) (pc : Fin 16) (x : Stack) (h : HbmHeld) (s : State), getStack s st.val = x ∧
      x.reqs.find? (fun h => pcOf h.rq.addr == pc.val && h.issued) = some h ∧ x.backs = []) ∧
    (∃ (st : Fin 6) (pc : Fin 16) (x : Stack) (h : HbmHeld) (s : State), getStack s st.val = x ∧ rd s (hbS st.val) HbStatus.STATE = 1 ∧
      x.reqs.find? (fun h => pcOf h.rq.addr == pc.val) = some h) ∧
    (∃ (st : Fin 6) (x : Stack) (s : State), getStack s st.val = x ∧ rd s (hbS st.val) HbStatus.STATE = 1 ∧ flag s (hbC st.val) HbCtl.SCRUB_EN = true) ∧
    (∃ (st : Fin 6) (x : Stack) (s : State), getStack s st.val = x ∧ flag s (hbC st.val) HbCtl.SCRUB_EN = false) :=
  ⟨⟨1, hbmReq false, holding true false, hbm1 (holding true false) up, by decide +kernel⟩,
   ⟨1, hbmReq true, Stack.idle, hbm1 Stack.idle up, by decide +kernel⟩,
   ⟨1, hbmReq true, { Stack.idle with reqs := List.replicate 256 { hbmHeld true false with rq := ⟨3, true, 2 ^ 25 + 3 * 2 ^ 10, 5⟩ } },
   hbm1 ({ Stack.idle with reqs := List.replicate 256 { hbmHeld true false with rq := ⟨3, true, 2 ^ 25 + 3 * 2 ^ 10, 5⟩ } }) up, by decide +kernel⟩,
   ⟨1, 3, true, { Stack.idle with postponed := [(3, 8)] }, hbm1 ({ Stack.idle with postponed := [(3, 8)] }) up, by decide +kernel⟩,
   ⟨1, 3, setBank 3 4 { Bank.idle with due := [9] } Stack.idle, hbm1 (setBank 3 4 { Bank.idle with due := [9] } Stack.idle) up, 4, by decide +kernel⟩,
   ⟨1, 3, setBank 3 0 { Bank.idle with row := some 0 } (holding false false),
   hbm1 (setBank 3 0 { Bank.idle with row := some 0 } (holding false false)) up, hbmHeld false false, false, by decide +kernel⟩,
   ⟨1, 3, holding false false, hbm1 (holding false false) up, hbmHeld false false, false, Bank.idle, 1, [(0, 1)], by decide +kernel⟩,
   ⟨1, 3, setBank 3 0 { Bank.idle with counts := [(0, 65535)] } (holding false false),
   hbm1 (setBank 3 0 { Bank.idle with counts := [(0, 65535)] } (holding false false)) up, hbmHeld false false, false,
   { Bank.idle with counts := [(0, 65535)] }, 65536, [(0, 65536)], by decide +kernel⟩,
   ⟨1, 3, holding true true, hbmHeld true true, hbm1 (holding true true) up, by decide +kernel⟩,
   ⟨1, 3, holding false false, hbmHeld false false, hbm1 (holding false false) up, by decide +kernel⟩,
   ⟨1, Stack.idle, fld (hbC 1) HbCtl.SCRUB_EN 1 (hbm1 Stack.idle up), by decide +kernel⟩,
   ⟨1, Stack.idle, fld (hbC 1) HbCtl.SCRUB_EN 0 (hbm1 Stack.idle up), by decide +kernel⟩⟩

/-- Every clause of `HbmUpkeep` with hypotheses has a case. -/
theorem witness_HbmUpkeep :
    (∃ (st : Fin 6) (temp : Nat) (s : State), temp < rd s (hbC st.val) HbCtl.TEMP_MAX ∧ flag s (hbC st.val) HbCtl.AUTO_RETRAIN = false) ∧
    (∃ (st : Fin 6) (temp : Nat) (s : State) (ch : _), ch < 8 ∧ flag s (hbC st.val) HbCtl.AUTO_RETRAIN = true ∧
      rd s (hbS st.val) HbStatus.STATE = 1 ∧ rd s (hbCh st.val ch) HbChan.TRAIN = 1 ∧
      (rd s (hbCh st.val ch) HbChan.TRAIN_TEMP + 10 ≤ temp ∨ temp + 10 ≤ rd s (hbCh st.val ch) HbChan.TRAIN_TEMP)) ∧
    (∃ (c : Hdr) (st : Fin 6) (ch : Fin 8) (s : State) (w : Waiting), Safety.Sets s c w (hbC st.val) HbCtl.RETRAIN (2 ^ ch.val)) ∧
    (∃ (st : Fin 6) (ch : Fin 8) (x : Stack) (rest : List Nat) (s : State), getStack s st.val = x ∧ x.retrains = ch.val :: rest ∧ ch.val ∉ rest ∧
      x.slices < 63) ∧
    (∃ (st : Fin 6) (ch : Fin 8) (x : Stack) (rest : List Nat) (s : State), getStack s st.val = x ∧ x.retrains = ch.val :: rest ∧ ch.val ∉ rest ∧
      63 ≤ x.slices) ∧
    (∃ (st : Fin 6) (ch : Fin 8) (x : Stack) (rest : List Nat) (s : State), getStack s st.val = x ∧ x.retrains = ch.val :: rest ∧ ch.val ∉ rest) ∧
    (∃ (st : Fin 6) (ch : Fin 8) (s : State), ch.val ∈ (getStack s st.val).retry ∧ rd s (hbS st.val) HbStatus.STATE = 1) ∧
    (∃ (st : Fin 6) (ch : Fin 8) (s : State), ch.val ∉ (getStack s st.val).retry) ∧
    (∃ (st : Fin 6) (s : State), rd s (hbS st.val) HbStatus.STATE = 0) ∧
    (∃ (st : Fin 6) (s : State), rd s (hbS st.val) HbStatus.STATE ≠ 0) :=
  ⟨⟨1, 40, fld (hbC 1) HbCtl.AUTO_RETRAIN 0 (hbm1 (Stack.idle) up), by decide +kernel⟩,
   ⟨1, 40, fld (hbCh 1 2) HbChan.TRAIN 1 (fld (hbCh 1 2) HbChan.TRAIN_TEMP 20 (fld (hbC 1) HbCtl.AUTO_RETRAIN 1 (hbm1 (Stack.idle) up))), 2,
   by decide +kernel⟩,
   ⟨hd, 1, 2, ask (waits 0x0202 (12 + Machine.sizeOf (hbC (1 : Fin 6).val))) (hbm1 (Stack.idle) up),
   waits 0x0202 (12 + Machine.sizeOf (hbC (1 : Fin 6).val)), write_of (by decide +kernel)⟩,
   ⟨1, 2, { Stack.idle with retrains := [2], slices := 62 }, [], hbm1 ({ Stack.idle with retrains := [2], slices := 62 }) up, by decide +kernel⟩,
   ⟨1, 2, { Stack.idle with retrains := [2], slices := 63 }, [], hbm1 ({ Stack.idle with retrains := [2], slices := 63 }) up, by decide +kernel⟩,
   ⟨1, 2, { Stack.idle with retrains := [2], slices := 1 }, [], hbm1 ({ Stack.idle with retrains := [2], slices := 1 }) up, by decide +kernel⟩,
   ⟨1, 2, hbm1 ({ Stack.idle with retry := [2] }) up, by decide +kernel⟩,
   ⟨1, 2, hbm1 (Stack.idle) up, by decide +kernel⟩,
   ⟨1, up, by decide +kernel⟩,
   ⟨1, hbm1 (Stack.idle) up, by decide +kernel⟩⟩

/-- Every clause of `ClockService` with hypotheses has a case. -/
theorem witness_ClockService :
    (∃ (p : Fin 48) (x : PortTime) (s : State), ptOf s p.val = x ∧ x.divert = 0) ∧
    (∃ (p : Fin 48) (x : PortTime) (s : State), ptOf s p.val = x ∧ rateOk (setPt p.val { x with divert := x.divert - 1 } s) p.val = false ∧
      0 < x.divert) ∧
    (∃ (p : Fin 48) (m : PtpMsg) (x : PortTime) (s : State), ptOf s p.val = x ∧ 0 < x.divert ∧
      rateOk (setPt p.val { x with divert := x.divert - 1 } s) p.val = true ∧
      (m.fieldsOk = false ∨ m.domain.toNat ≠ rd s tmC TmCtl.DOMAIN ∨ typeOk s m = false ∨ (m.msgType = 11 ∧
      (255 ≤ m.stepsRemoved ∨ m.clockClass = 255 ∨ m.clockId.toNat = ownClockId s)))) ∧
    (∃ (p : Fin 48) (m : PtpMsg) (x : PortTime) (s : State), ptOf s p.val = x ∧ 0 < x.divert ∧
      rateOk (setPt p.val { x with divert := x.divert - 1 } s) p.val = true ∧ m.fieldsOk = true ∧ m.domain.toNat = rd s tmC TmCtl.DOMAIN ∧
      (m.msgType = 8 ∨ m.msgType = 9) ∧ m.matched = false) ∧
    (∃ (p : Fin 48) (m : PtpMsg) (x : PortTime) (s : State), ptOf s p.val = x ∧ 0 < x.divert ∧
      rateOk (setPt p.val { x with divert := x.divert - 1 } s) p.val = true ∧ m.fieldsOk = true ∧ m.domain.toNat = rd s tmC TmCtl.DOMAIN ∧
      m.msgType = 11 ∧ m.stepsRemoved < 255 ∧ m.clockClass ≠ 255 ∧ m.clockId.toNat ≠ ownClockId s) ∧
    (∃ (p : Fin 48) (m : PtpMsg) (x : PortTime) (s : State), ptOf s p.val = x ∧ 0 < x.divert ∧
      rateOk (setPt p.val { x with divert := x.divert - 1 } s) p.val = true ∧ m.fieldsOk = true ∧ m.domain.toNat = rd s tmC TmCtl.DOMAIN ∧
      m.msgType = 0 ∧ m.twoStep = true) ∧
    (∃ (p : Fin 48) (m : PtpMsg) (x : PortTime) (s : State), ptOf s p.val = x ∧ 0 < x.divert ∧
      rateOk (setPt p.val { x with divert := x.divert - 1 } s) p.val = true ∧ m.fieldsOk = true ∧ m.domain.toNat = rd s tmC TmCtl.DOMAIN ∧
      m.msgType = 1 ∧ portState s p.val = 6 ∧ mayPtp s p.val = true ∧ gateInForce s p.val = false) ∧
    (∃ (p : Fin 48) (s : State), mayPtp s p.val = true ∧ gateInForce s p.val = false ∧ portState s p.val = 6 ∧ rd s tmC TmCtl.PROFILE = 0 ∧
      flag s tmC TmCtl.TWO_STEP = false) ∧
    (∃ (p : Fin 48) (s : State), mayPtp s p.val = true ∧ gateInForce s p.val = false ∧ portState s p.val = 6 ∧ rd s tmC TmCtl.PROFILE = 0 ∧
      flag s tmC TmCtl.TWO_STEP = true) ∧
    (∃ (p : Fin 48) (s : State) (d : _), mayPtp s p.val = true ∧ gateInForce s p.val = false ∧ portState s p.val = 6 ∧ rd s tmC TmCtl.PROFILE = 0 ∧
      rootSet s = d) ∧
    (∃ (p : Fin 48) (s : State), mayPtp s p.val = true ∧ gateInForce s p.val = false ∧ portState s p.val = 9) ∧
    (∃ (p : Fin 48) (s : State) (c : _), c ∈ [Instr.syncTransmit p, .announceTransmit p] ∧ portState s p.val ≠ 6) ∧
    (∃ (p : Fin 48) (s : State), portState s p.val ≠ 9) ∧
    (∃ (p : Fin 48) (s : State), ptpOn s p.val = true) ∧
    (∃ (p : Fin 48) (s : State), isEthernet s p.val = true ∧ portUp s p.val = true) ∧
    (∃ (c : Hdr) (s : State) (w : Waiting), Safety.Turn s c w 0x0802 accControl 16 0x60 ∧ servo s = svFree ∧ isRoot s = true) ∧
    (∃ (c : Hdr) (s : State) (w : Waiting), Safety.Turn s c w 0x0802 accControl 16 0x60 ∧ (servo s ≠ svFree ∨ isRoot s = false)) ∧
    (∃ (c : Hdr) (s : State) (w : Waiting) (o : Unlisted), Safety.Turn s c w 0x0802 accControl 16 0x60 ∧ o ≠ none) ∧
    (∃ (c : Hdr) (v : BitVec 96) (s : State) (w : Waiting), Safety.Turn s c w 0x0802 accControl 16 0x60 ∧ servo s ∈ [svFree, svHold, svOut] ∧
      isRoot s = true ∧ -(10 ^ 9) ≤ signedOf 64 (v.toNat / 2 ^ 32) ∧ signedOf 64 (v.toNat / 2 ^ 32) ≤ 10 ^ 9) ∧
    (∃ (c : Hdr) (s : State) (w : Waiting), Safety.Turn s c w 0x0802 accControl 16 0x60 ∧ servo s = svLocked ∧ flag s tmS TmStatus.HO_READY = true) ∧
    (∃ (c : Hdr) (s : State) (w : Waiting), Safety.Turn s c w 0x0802 accControl 16 0x60 ∧ s.time.forced = true) :=
  ⟨⟨2, { portTime none with divert := 0 }, ptp2 ({ portTime none with divert := 0 }) (up), by decide +kernel⟩,
   ⟨2, { portTime none with msgAt := List.replicate 65536 0 }, ptp2 ({ portTime none with msgAt := List.replicate 65536 0 }) (up), rfl,
   many_messages (Nat.le_refl 65536) rfl (by decide +kernel), by decide +kernel⟩,
   ⟨2, { ptpMsg 0 with fieldsOk := false }, portTime none, ptp2 (portTime none) (up), by decide +kernel⟩,
   ⟨2, ptpMsg 9, portTime none, ptp2 (portTime none) (up), by decide +kernel⟩,
   ⟨2, ptpMsg 11, portTime none, ptp2 (portTime none) (up), by decide +kernel⟩,
   ⟨2, ptpMsg 0, portTime none, ptp2 (portTime none) (up), by decide +kernel⟩,
   ⟨2, ptpMsg 1, portTime none, ptp2 (portTime none) (up), by decide +kernel⟩,
   ⟨2, fld tmC TmCtl.TWO_STEP 0 (ptp2 (portTime none) up), by decide +kernel⟩,
   ⟨2, fld tmC TmCtl.TWO_STEP 1 (ptp2 (portTime none) up), by decide +kernel⟩,
   ⟨2, ptp2 (portTime none) up, rootSet (ptp2 (portTime none) up), by decide +kernel⟩,
   ⟨2, fld tmS TmStatus.SOURCE 1 (fld tmS TmStatus.SRC_PORT 2 (ptp2 (portTime none) up)), by decide +kernel⟩,
   ⟨2, up, Instr.announceTransmit (2 : Fin 48), by decide +kernel⟩,
   ⟨2, up, by decide +kernel⟩,
   ⟨2, ptp2 (portTime (some (ptpMsg 11))) up, by decide +kernel⟩,
   ⟨2, lineUp, by decide +kernel⟩,
   ⟨hd, ask (waits 0x0802 16) (servoIn svFree up), waits 0x0802 16, turn_of (by decide +kernel), by decide +kernel⟩,
   ⟨hd, ask (waits 0x0802 16) (servoIn svLocked up), waits 0x0802 16, turn_of (by decide +kernel), by decide +kernel⟩,
   ⟨hd, ask (waits 0x0802 16) (up), waits 0x0802 16, (some 7 : Unlisted), turn_of (by decide +kernel), by decide +kernel⟩,
   ⟨hd, (9 * 2 ^ 32 : BitVec 96), ask (waits 0x0802 16) (servoIn svHold up), waits 0x0802 16, turn_of (by decide +kernel), by decide +kernel⟩,
   ⟨hd, ask (waits 0x0802 16) (fld tmS TmStatus.HO_READY 1 (servoIn svLocked up)), waits 0x0802 16, turn_of (by decide +kernel), by decide +kernel⟩,
   ⟨hd, ask (waits 0x0802 16) ({ servoIn svHold up with time := { (servoIn svHold up).time with forced := true } }), waits 0x0802 16,
   turn_of (by decide +kernel), by decide +kernel⟩⟩

/-- Every clause of `TimeAndFrequency` with hypotheses has a case. -/
theorem witness_TimeAndFrequency :
    (∃ (d : Int) (decided : Nat) (s : State), s.time.step = some (d, decided)) ∧
    (∃ (s : State), s.time.step = none) ∧
    (∃ (s : State), servo s = svLocked) ∧
    (∃ (s : State), servo s ≠ svLocked) ∧
    (∃ (s : State), servo s = svHold ∧ s.time.forced = true) ∧
    (∃ (s : State), servo s ≠ svHold) ∧
    (∃ (k : Fin 64) (x : LinkTime) (s : State), ltOf s k.val = x ∧ linkState s k.val = lsQuar) ∧
    (∃ (k : Fin 64) (x : LinkTime) (s : State), ltOf s k.val = x ∧ linkState s k.val = lsUp ∧ x.sent % 16 = 15) ∧
    (∃ (k : Fin 64) (x : LinkTime) (s : State), ltOf s k.val = x ∧ linkState s k.val = lsUp ∧ x.sent % 16 ≠ 15) ∧
    (∃ (k : Fin 64) (x : LinkTime) (s : State) (w : TimeWord), ltOf s k.val = x ∧ linkState s k.val = lsUp ∧ w.crcOk = false) ∧
    (∃ (k : Fin 64) (x : LinkTime) (s : State) (w : TimeWord), ltOf s k.val = x ∧ linkState s k.val = lsUp ∧ w.crcOk = true ∧ w.t1 = 0) ∧
    (∃ (k : Fin 64) (x : LinkTime) (s : State) (w : TimeWord), ltOf s k.val = x ∧ linkState s k.val = lsUp ∧ w.crcOk = true ∧ w.t1 ≠ 0 ∧
      following s = none ∧ x.words < 63) ∧
    (∃ (k : Fin 64) (x : LinkTime) (s : State) (w : TimeWord), ltOf s k.val = x ∧ linkState s k.val = lsUp ∧ w.crcOk = true ∧ w.t1 ≠ 0 ∧
      following s = none ∧ x.words = 63) ∧
    (∃ (k : Fin 64) (x : LinkTime) (s : State) (w : TimeWord) (r : _), ltOf s k.val = x ∧ linkState s k.val = lsUp ∧ w.crcOk = true ∧ w.t1 ≠ 0 ∧
      x.words < 63 ∧ following s = some (k.val, r) ∧ rd s (ltK k.val) FlTime.LINK_DELAY ≠ 0xFFFFFFFF) ∧
    (∃ (k : Fin 64) (x : LinkTime) (s : State) (w : RootWord), ltOf s k.val = x ∧ linkState s k.val = lsUp ∧ w.crcOk = true) ∧
    (∃ (k : Fin 64) (x : LinkTime) (s : State) (w : RootWord), ltOf s k.val = x ∧ linkState s k.val = lsUp ∧ w.crcOk = false) ∧
    (∃ (k : Fin 64) (x : LinkTime) (s : State), ltOf s k.val = x ∧ linkState s k.val = lsUp ∧ s.fab.started = false ∧ x.root ≠ none) ∧
    (∃ (k : Fin 64) (x : LinkTime) (s : State), ltOf s k.val = x ∧ x.root ≠ none) ∧
    (∃ (k : Fin 64) (x : LinkTime) (s : State), ltOf s k.val = x ∧ x.root = none) ∧
    (∃ (k : Fin 64) (x : LinkTime) (s : State), ltOf s k.val = x ∧ s.fab.started = true) ∧
    (∃ (r : Fin 49) (s : State), r.val ∉ s.time.dropped) ∧
    (∃ (r : Fin 49) (s : State), r.val ∈ s.time.dropped) ∧
    (∃ (s : State), s.time.ref ≠ none ∧ dpll s ≠ 1) ∧
    (∃ (s : State), s.time.ref = none) ∧
    (∃ (s : State), flag s fqK FqCtl.HOSC_EN = true ∧ dpll s = 1) ∧
    (∃ (s : State), flag s fqK FqCtl.HOSC_EN = false) ∧
    (∃ (p : Fin 48) (s : State), isEthernet s p.val = true ∧ portUp s p.val = true ∧ inSafe s = false ∧ flag s fqK FqCtl.ESMC_EN = true ∧
      (recent s (ptOf s p.val).esmcAt sec).length < 10) ∧
    (∃ (p : Fin 48) (s : State), isEthernet s p.val = true ∧ portUp s p.val = true ∧ inSafe s = false ∧ flag s fqK FqCtl.ESMC_EN = true) ∧
    (∃ (p : Fin 48) (s : State), isEthernet s p.val = true ∧ portUp s p.val = true ∧ inSafe s = false ∧ flag s fqK FqCtl.ESMC_EN = true ∧
      silent s p.val = false ∧ gateInForce s p.val = false) ∧
    (∃ (p : Fin 48) (ql : BitVec 4) (s : State) (c : _), c ∈ [Instr.esmcPduReceive p true ql, .esmcTransmit p] ∧ isEthernet s p.val = true ∧
      portUp s p.val = true ∧ inSafe s = false ∧ flag s fqK FqCtl.ESMC_EN = false) ∧
    (∃ (high : Nat), high < 100) ∧
    (∃ (high : Nat) (s : State), 100 ≤ high ∧ ((∃ t0, s.time.ppsAt = some t0 ∧ s.clock < t0 + 900 * ms))) ∧
    (∃ (high : Nat) (s : State), 100 ≤ high ∧ s.time.ppsAt = none ∧ rd s tmS TmStatus.SOURCE ≠ 2) ∧
    (∃ (s : State), s.time.ppsOk = true) ∧
    (∃ (s : State), s.time.ppsOk = false) ∧
    (∃ (m : TodMsg) (s : State) (t0 : _), m.syncOk = true ∧ m.crcOk = true ∧ m.resOk = true ∧ s.time.ppsAt = some t0 ∧ t0 + ms ≤ s.clock ∧
      s.clock ≤ t0 + 900 * ms ∧ ((s.time.todSec = none ∨ s.time.todSec = some (m.seconds - 1) ∧ 0 < m.seconds))) ∧
    (∃ (m : TodMsg) (s : State), m.crcOk = false ∧ s.time.todBad = 0) ∧
    (∃ (m : TodMsg) (s : State), m.crcOk = false ∧ s.time.todBad ≠ 0) ∧
    (∃ (s : State), flag s fqK FqCtl.PPS_OUT_EN = true ∧ servo s ≠ svFree ∧ inSafe s = false) ∧
    (∃ (s : State), flag s fqK FqCtl.PPS_OUT_EN = false) :=
  ⟨⟨5, 3, timed (fun x => { x with step := some (5, 3) }) (up), by decide +kernel⟩,
   ⟨up, by decide +kernel⟩,
   ⟨servoIn svLocked up, by decide +kernel⟩,
   ⟨up, by decide +kernel⟩,
   ⟨timed (fun x => { x with forced := true }) (servoIn svHold up), by decide +kernel⟩,
   ⟨up, by decide +kernel⟩,
   ⟨2, linkTime 0 0 (none), timeLink (linkTime 0 0 (none)) lsQuar up, by decide +kernel⟩,
   ⟨2, linkTime 0 15 (none), timeLink (linkTime 0 15 (none)) lsUp up, by decide +kernel⟩,
   ⟨2, linkTime 0 16 (none), timeLink (linkTime 0 16 (none)) lsUp up, by decide +kernel⟩,
   ⟨2, linkTime 0 0 (none), timeLink (linkTime 0 0 (none)) lsUp up, timeWord false 0, by decide +kernel⟩,
   ⟨2, linkTime 0 0 (none), timeLink (linkTime 0 0 (none)) lsUp up, timeWord true 0, by decide +kernel⟩,
   ⟨2, linkTime 62 0 (none), timeLink (linkTime 62 0 (none)) lsUp up, timeWord true 1, by decide +kernel⟩,
   ⟨2, linkTime 63 0 (none), timeLink (linkTime 63 0 (none)) lsUp up, timeWord true 1, by decide +kernel⟩,
   ⟨2, linkTime 62 0 (some root3), started (fld (ltK 2) FlTime.LINK_DELAY 5 (timeLink (linkTime 62 0 (some root3)) lsUp up)), timeWord true 1, root3,
   by decide +kernel⟩,
   ⟨2, linkTime 0 0 (none), timeLink (linkTime 0 0 (none)) lsUp up, root3, by decide +kernel⟩,
   ⟨2, linkTime 0 0 (none), timeLink (linkTime 0 0 (none)) lsUp up, { root3 with crcOk := false }, by decide +kernel⟩,
   ⟨2, linkTime 0 0 (some root3), timeLink (linkTime 0 0 (some root3)) lsUp up, by decide +kernel⟩,
   ⟨2, linkTime 0 0 (some root3), timeLink (linkTime 0 0 (some root3)) lsUp up, by decide +kernel⟩,
   ⟨2, linkTime 0 0 (none), timeLink (linkTime 0 0 (none)) lsUp up, by decide +kernel⟩,
   ⟨2, linkTime 0 0 (none), started (timeLink (linkTime 0 0 (none)) lsUp up), by decide +kernel⟩,
   ⟨3, up, by decide +kernel⟩,
   ⟨3, timed (fun x => { x with dropped := [3] }) (up), by decide +kernel⟩,
   ⟨timed (fun x => { x with ref := some 3 }) (up), by decide +kernel⟩,
   ⟨timed (fun x => { x with ref := none }) (up), by decide +kernel⟩,
   ⟨fld fqK FqCtl.HOSC_EN 1 (fld tmS TmStatus.DPLL 1 up), by decide +kernel⟩,
   ⟨fld fqK FqCtl.HOSC_EN 0 up, by decide +kernel⟩,
   ⟨2, fld fqK FqCtl.ESMC_EN 1 lineUp, by decide +kernel⟩,
   ⟨2, fld fqK FqCtl.ESMC_EN 1 lineUp, by decide +kernel⟩,
   ⟨2, fld fqK FqCtl.ESMC_EN 1 lineUp, by decide +kernel⟩,
   ⟨2, 2, fld fqK FqCtl.ESMC_EN 0 lineUp, Instr.esmcTransmit (2 : Fin 48), by decide +kernel⟩,
   ⟨99, by decide +kernel⟩,
   ⟨100, timed (fun x => { x with ppsAt := some 0 }) (up), by decide +kernel⟩,
   ⟨100, up, by decide +kernel⟩,
   ⟨timed (fun x => { x with ppsOk := true }) (up), by decide +kernel⟩,
   ⟨timed (fun x => { x with ppsOk := false }) (up), by decide +kernel⟩,
   ⟨⟨true, true, true, 8, 0, true, 37⟩, { timed (fun x => { x with ppsAt := some 0, todSec := some 7 }) (up) with clock := ms }, 0, by decide +kernel⟩,
   ⟨⟨true, false, true, 8, 0, true, 37⟩, up, by decide +kernel⟩,
   ⟨⟨true, false, true, 8, 0, true, 37⟩, timed (fun x => { x with todBad := 1 }) (up), by decide +kernel⟩,
   ⟨fld fqK FqCtl.PPS_OUT_EN 1 (servoIn svLocked up), by decide +kernel⟩,
   ⟨fld fqK FqCtl.PPS_OUT_EN 0 up, by decide +kernel⟩⟩

/-- Every clause of `PairRoles` with hypotheses has a case. -/
theorem witness_PairRoles :
    (∃ (c : Hdr) (s : State) (w : Waiting), Safety.Sets s c w prC PrCtl.PAIR_EN 1 ∧ pairOn s = false) ∧
    (∃ (c : Hdr) (s : State) (w : Waiting), Safety.Sets s c w prC PrCtl.PAIR_EN 0 ∧ pairOn s = true) ∧
    (∃ (s : State), pairOn s = true ∧ role s = roleWaiting ∧ yokesUp s = []) ∧
    (∃ (s : State), pairOn s = true ∧ role s = roleWaiting ∧ yokesUp s = [] ∧ inSafe s = false) ∧
    (∃ (s : State), role s ≠ roleWaiting) ∧
    (∃ (b : YokeBlock), b.crcOk = false) ∧
    (∃ (b : YokeBlock) (s : State), b.crcOk = true ∧ pairOn s = false) ∧
    (∃ (y : Fin 2) (b : YokeBlock) (s : State), b.crcOk = true ∧ pairOn s = true ∧ (rd s prS PrStatus.YOKE_UP).testBit y.val = true ∧
      b.unit ≠ unitB s ∧ b.seq = s.pair.rxSeq ∧ s.pair.held = [] ∧ s.pair.todo = [] ∧ s.pair.trigger = none ∧ inSafe s = false ∧
      role s = roleWaiting ∧ b.load = .empty) ∧
    (∃ (y : Fin 2) (b : YokeBlock) (s : State), b.crcOk = true ∧ pairOn s = true ∧ (rd s prS PrStatus.YOKE_UP).testBit y.val = true ∧
      b.unit ≠ unitB s ∧ b.seq = s.pair.rxSeq ∧ s.pair.held = [] ∧ s.pair.todo = [] ∧ s.pair.trigger = none ∧ inSafe s = false ∧ role s = roleActive ∧
      b.role.toNat ≠ roleActive ∧ b.load = .empty) ∧
    (∃ (y : Fin 2) (b : YokeBlock) (s : State), b.crcOk = true ∧ pairOn s = true ∧ (rd s prS PrStatus.YOKE_UP).testBit y.val = true ∧
      b.unit ≠ unitB s ∧ b.seq = s.pair.rxSeq ∧ s.pair.held = [] ∧ s.pair.todo = [] ∧ s.pair.trigger = none ∧ inSafe s = false ∧ role s = roleActive ∧
      b.role.toNat ≠ roleActive ∧ b.load = .ask) ∧
    (∃ (y : Fin 2) (b : YokeBlock) (s : State) (e : _) (l : List YokeItem), b.crcOk = true ∧ pairOn s = true ∧
      (rd s prS PrStatus.YOKE_UP).testBit y.val = true ∧ b.unit ≠ unitB s ∧ b.seq = s.pair.rxSeq ∧ s.pair.held = [] ∧ s.pair.todo = [] ∧
      s.pair.trigger = none ∧ inSafe s = false ∧ role s = roleStandby ∧ syncOf s ≠ syUn ∧ b.load = .delta e false l ∧ s.pair.recv = none) ∧
    (∃ (y : Fin 2) (b : YokeBlock) (s : State) (e : _) (l : List YokeItem) (m : Fin 1048576) (tc : _) (tp : _), b.crcOk = true ∧ pairOn s = true ∧
      (rd s prS PrStatus.YOKE_UP).testBit y.val = true ∧ b.unit ≠ unitB s ∧ b.seq = s.pair.rxSeq ∧ s.pair.held = [] ∧ s.pair.todo = [] ∧
      s.pair.trigger = none ∧ inSafe s = false ∧ role s = roleStandby ∧ syncOf s ≠ syUn ∧ b.load = .delta e true [.meter m tc tp] ∧
      s.pair.recv = some (e, l) ∧ l = []) ∧
    (∃ (y : Fin 2) (b : YokeBlock) (s : State), b.crcOk = true ∧ pairOn s = true ∧ (rd s prS PrStatus.YOKE_UP).testBit y.val = true ∧
      b.unit ≠ unitB s ∧ b.seq = s.pair.rxSeq ∧ s.pair.held = [] ∧ s.pair.todo = [] ∧ s.pair.trigger = none ∧ inSafe s = false ∧
      role s = roleStandby ∧ syncOf s ≠ syUn ∧ b.load = .yieldWord ∧ flag s prC PrCtl.LOCK = false) ∧
    (∃ (y : Fin 2) (s : State), (rd s prS PrStatus.YOKE_UP).testBit y.val = true) ∧
    (∃ (y : Fin 2) (s : State), (rd s prS PrStatus.YOKE_UP).testBit y.val = false) ∧
    (∃ (s : State), s.pair.trigger = none) ∧
    (∃ (s : State), s.pair.trigger ≠ none ∧ role s = roleStandby ∧ inSafe s = false) :=
  ⟨⟨hd, ask (waits 0x0202 (12 + Machine.sizeOf prC)) (fld prC PrCtl.MODE 1 up), waits 0x0202 (12 + Machine.sizeOf prC), write_of (by decide +kernel),
   by decide +kernel⟩,
   ⟨hd, ask (waits 0x0202 (12 + Machine.sizeOf prC)) (fld prC PrCtl.PAIR_EN 1 up), waits 0x0202 (12 + Machine.sizeOf prC),
   write_of (by decide +kernel), by decide +kernel⟩,
   ⟨fld prS PrStatus.YOKE_UP 0 (paired 0 roleWaiting syUn up), by decide +kernel⟩,
   ⟨fld prS PrStatus.YOKE_UP 0 (paired 0 roleWaiting syUn up), by decide +kernel⟩,
   ⟨paired 0 roleActive syUn up, by decide +kernel⟩,
   ⟨⟨false, 0, true, 0, 77, .empty⟩, by decide +kernel⟩,
   ⟨yoke 0 .empty, up, by decide +kernel⟩,
   ⟨1, yoke 0 (.empty), paired 0 roleWaiting syRe (up), by decide +kernel⟩,
   ⟨1, yoke 0 (.empty), paired 0 roleActive syRe (up), by decide +kernel⟩,
   ⟨1, yoke 0 (.ask), paired 0 roleActive syRe (up), by decide +kernel⟩,
   ⟨1, yoke 0 (.delta 5 false []), pairWith (fun x => { x with recv := none }) (paired 0 roleStandby syRe up), 5, ([] : List YokeItem),
   by decide +kernel⟩,
   ⟨1, yoke 0 (.delta 5 true [.meter 6 7 8]), pairWith (fun x => { x with recv := some (5, []) }) (paired 0 roleStandby syRe up), 5,
   ([] : List YokeItem), (6 : Fin 1048576), 7, 8, by decide +kernel⟩,
   ⟨1, yoke 0 (.yieldWord), paired 0 roleStandby syRe (up), by decide +kernel⟩,
   ⟨1, paired 0 roleActive syUn up, by decide +kernel⟩,
   ⟨1, up, by decide +kernel⟩,
   ⟨up, by decide +kernel⟩,
   ⟨pairWith (fun x => { x with trigger := some 0 }) (paired 0 roleStandby sySynced up), by decide +kernel⟩⟩

/-- Every clause of `PairControl` with hypotheses has a case. -/
theorem witness_PairControl :
    (∃ (s : State) (c : _), c ∈ [Instr.mirrorEpochEnd, .resyncComplete] ∧ pairOn s = false) ∧
    (∃ (s : State) (k : _) (u : _), k = nowNs s / 50000 ∧ u = reach ((k + 1) * 50000 * 65536) s ∧ pairOn s = true ∧ role s = roleActive ∧
      yokesUp s ≠ [] ∧ s.pair.full = false ∧ 64 + (((itemsOf u).filter fun i => !s.pair.last.contains i).map itemBytes).sum ≤ deltaBound s) ∧
    (∃ (s : State) (k : _) (u : _) (e : _) (l : List YokeItem), k = nowNs s / 50000 ∧ u = reach ((k + 1) * 50000 * 65536) s ∧ pairOn s = true ∧
      role s = roleStandby ∧ yokesUp s = [] ∧ s.pair.recv = some (e, l) ∧ e + 1 < k) ∧
    (∃ (s : State), yokesUp s ≠ []) ∧
    (∃ (s : State), s.pair.records = []) ∧
    (∃ (s : State), pairOn s = true ∧ syncOf s = syRe ∧ role s = roleStandby ∧ s.pair.full = true) ∧
    (∃ (s : State), pairOn s = true ∧ syncOf s = syRe ∧ role s = roleActive ∧ s.pair.full = false ∧ (∀ e ∈ s.pair.owed, ∀ r ∈ queueRefs (getQ s e.1),
      r.qseq ≠ e.2)) ∧
    (∃ (s : State), pairOn s = true ∧ syncOf s = syRe ∧ role s = roleActive ∧ s.pair.full = false ∧ (∃ e ∈ s.pair.owed, ∃ r ∈ queueRefs (getQ s e.1),
      r.qseq = e.2)) ∧
    (∃ (c : Hdr) (s : State) (w : Waiting), Safety.Turn s c w 0x0801 accControl 4 0x64 ∧ pairOn s = true) ∧
    (∃ (c : Hdr) (s : State) (w : Waiting), Safety.Turn s c w 0x0801 accControl 4 0x64 ∧ role s = roleStandby ∧ syncOf s = sySynced ∧
      yokesUp s ≠ [] ∧ inSafe s = false ∧ s.pair.trigger = none ∧ flag s prC PrCtl.LOCK = false) ∧
    (∃ (c : Hdr) (s : State) (w : Waiting), Safety.Turn s c w 0x0801 accControl 4 0x64 ∧ role s = roleActive ∧ syncOf s = sySynced ∧ yokesUp s ≠ [] ∧
      inSafe s = false ∧ twin s = false) ∧
    (∃ (c : Hdr) (s : State) (w : Waiting) (o : Unlisted), Safety.Turn s c w 0x0801 accControl 4 0x64 ∧ o ≠ none) ∧
    (∃ (c : Hdr) (s : State) (w : Waiting), Safety.Turn s c w 0x0801 accControl 4 0x64 ∧ role s = roleStandby ∧ yokesUp s ≠ [] ∧ inSafe s = false ∧
      twin s = false) ∧
    (∃ (c : Hdr) (s : State) (w : Waiting), Safety.Turn s c w 0x0801 accControl 4 0x64 ∧ role s ≠ roleStandby) :=
  ⟨⟨up, Instr.resyncComplete, by decide +kernel⟩,
   ⟨paired 0 roleActive syUn up, nowNs (paired 0 roleActive syUn up) / 50000,
   reach (((nowNs (paired 0 roleActive syUn up) / 50000) + 1) * 50000 * 65536) (paired 0 roleActive syUn up), by decide +kernel⟩,
   ⟨pairWith (fun x => { x with recv := some (5, []) }) (reach (20 * 50000 * 65536) (fld prS PrStatus.YOKE_UP 0 (paired 0 roleStandby sySynced up))),
   nowNs (pairWith (fun x => { x with recv := some (5, []) }) (reach (20 * 50000 * 65536) (fld prS PrStatus.YOKE_UP 0 (paired 0 roleStandby sySynced up)))) / 50000,
   reach (((nowNs (pairWith (fun x => { x with recv := some (5, []) }) (reach (20 * 50000 * 65536) (fld prS PrStatus.YOKE_UP 0 (paired 0 roleStandby sySynced up)))) / 50000) + 1) * 50000 * 65536) (pairWith (fun x => { x with recv := some (5, []) }) (reach (20 * 50000 * 65536) (fld prS PrStatus.YOKE_UP 0 (paired 0 roleStandby sySynced up)))),
   5, ([] : List YokeItem), by decide +kernel⟩,
   ⟨paired 0 roleActive syUn up, by decide +kernel⟩,
   ⟨pairWith (fun x => { x with records := [] }) (up), by decide +kernel⟩,
   ⟨pairWith (fun x => { x with full := true }) (paired 0 roleStandby syRe up), by decide +kernel⟩,
   ⟨pairWith (fun x => { x with full := false }) (paired 0 roleActive syRe up), by decide +kernel⟩,
   ⟨pairWith (fun x => { x with owed := [(9, 0)] }) (headed 9 pktOf (paired 0 roleActive syRe up)), by decide +kernel⟩,
   ⟨hd, ask (waits 0x0801 4) (paired 0 roleActive syRe up), waits 0x0801 4, turn_of (by decide +kernel), by decide +kernel⟩,
   ⟨hd, ask (waits 0x0801 4) (paired 0 roleStandby sySynced up), waits 0x0801 4, turn_of (by decide +kernel), by decide +kernel⟩,
   ⟨hd, ask (waits 0x0801 4) (paired 0 roleActive sySynced up), waits 0x0801 4, turn_of (by decide +kernel), by decide +kernel⟩,
   ⟨hd, ask (waits 0x0801 4) (up), waits 0x0801 4, (some 7 : Unlisted), turn_of (by decide +kernel), by decide +kernel⟩,
   ⟨hd, ask (waits 0x0801 4) (paired 0 roleStandby syUn up), waits 0x0801 4, turn_of (by decide +kernel), by decide +kernel⟩,
   ⟨hd, ask (waits 0x0801 4) (paired 0 roleActive syUn up), waits 0x0801 4, turn_of (by decide +kernel), by decide +kernel⟩⟩

/-- Every clause of `FaultLog` with hypotheses has a case. -/
theorem witness_FaultLog :
    (∃ (b : Nat) (m : FaultMsg) (rest : List FaultMsg) (s : State), s.flt.ring.length < 4096 ∧ collectFrom s = some b ∧ queueOf s b = m :: rest ∧
      m.reply = none) ∧
    (∃ (b : Nat) (m : FaultMsg) (rest : List FaultMsg) (s : State) (c : _) (w : _) (blk : _), s.flt.ring.length < 4096 ∧ collectFrom s = some b ∧
      queueOf s b = m :: rest ∧ m.reply = some c ∧ s.cmd.waiting = [w] ∧ w.hdr = c ∧ w.phase = .started blk ∧ w.op = 0x0502 ∧
      rd s (sessKey c.sid.val) SessStatus.NEXT_SEQ < 2 ^ 64 - 4096) ∧
    (∃ (s : State), 4096 ≤ s.flt.ring.length) ∧
    (∃ (s : State), collectFrom s = none) ∧
    (∃ (s : State) (e : _) (rest : _), s.flt.ring = e :: rest ∧ hbmOk s = true ∧ s.flt.log.length < 1048576) ∧
    (∃ (s : State) (e : _) (rest : List FaultEntry), 1048576 ≤ s.flt.log.length ∧ s.flt.ring = e :: rest ∧ hbmOk s = true) ∧
    (∃ (s : State), hbmOk s = false) ∧
    (∃ (source : BitVec 12) (kind : BitVec 8) (k : Key), k = reactKey (source.toNat / 16) (source.toNat % 16) kind.toNat ∧
      faultListed (source.toNat / 16) (source.toNat % 16) kind.toNat = true) ∧
    (∃ (source : BitVec 12) (kind : BitVec 8) (k : Key), k = reactKey (source.toNat / 16) (source.toNat % 16) kind.toNat ∧
      faultListed (source.toNat / 16) (source.toNat % 16) kind.toNat = false) ∧
    (∃ (i : Nat) (h : Shadow) (s : State), s.flt.shadows[i]? = some h ∧ s.time.stepped ≤ s.ct) ∧
    (∃ (c : Hdr) (s : State) (w : Waiting), Safety.Sets s c w ftC FltCtl.SAFE_ENTER 1 ∧ rd s ftC FltCtl.SAFE_EXIT = 0 ∧ inSafe s = false ∧
      shadowOver s 0x68 = none ∧ rd s (reactKey 0x68 0 3) Reaction.SAFE = 1 ∧
      rd s (reactKey 0x68 0 3) Reaction.THRESH ≤ countedIn s (reactKey 0x68 0 3) + 1) ∧
    (∃ (c : Hdr) (s : State) (w : Waiting), Safety.Sets s c w ftC FltCtl.SAFE_EXIT 1 ∧ servo s ≠ svLocked ∧
      rd s (reactKey 0x41 1 3) Reaction.SAFE = 0 ∧ rd s (reactKey 0x41 1 4) Reaction.SAFE = 0) ∧
    (∃ (c : Hdr) (source : BitVec 16) (kind : BitVec 8) (s : State) (w : Waiting), Safety.Turn s c w 0x0502 accControl 12 0x68 ∧
      source.toNat < 4096 ∧ faultListed (source.toNat / 16) (source.toNat % 16) kind.toNat = true ∧ (queueOf s (source.toNat / 16)).length < 16) ∧
    (∃ (c : Hdr) (source : BitVec 16) (kind : BitVec 8) (s : State) (w : Waiting), Safety.Turn s c w 0x0502 accControl 12 0x68 ∧
      source.toNat < 4096 ∧ faultListed (source.toNat / 16) (source.toNat % 16) kind.toNat = true ∧ 16 ≤ (queueOf s (source.toNat / 16)).length) ∧
    (∃ (c : Hdr) (first : Word) (count : BitVec 32) (l : List FaultEntry) (s : State) (w : Waiting), Safety.Turn s c w 0x0501 accRead 16 0x68 ∧
      1 ≤ count.toNat ∧ count.toNat ≤ 1024 ∧
      l = ((s.flt.log ++ s.flt.ring).filter fun e => decide (max first.toNat (rd s ftS FltStatus.OLDEST) ≤ e.seq)).take count.toNat) ∧
    (∃ (f : GrazingFind) (s : State), flag s grC GrCtl.EN = true ∧ f.coresFailed = [] ∧ s.msec.coresOut = [] ∧ s.line.fifo = [] ∧ f.found = []) ∧
    (∃ (f : GrazingFind) (s : State) (d : Fin 524288) (n : _) (p : _), flag s grC GrCtl.EN = true ∧ f.coresFailed = [] ∧ s.msec.coresOut = [] ∧
      s.line.fifo = [] ∧ f.found = [.billet d] ∧ s.buf.pkts.find? (fun e => e.2.desc == d.val) = some (n, p)) ∧
    (∃ (f : GrazingFind) (s : State) (g : Fin 65536), flag s grC GrCtl.EN = true ∧ f.coresFailed = [] ∧ s.msec.coresOut = [] ∧ s.line.fifo = [] ∧
      f.found = [.group g]) ∧
    (∃ (f : GrazingFind) (s : State) (a : _) (k : _), flag s grC GrCtl.EN = true ∧ f.coresFailed = [] ∧ s.msec.coresOut = [] ∧ s.line.fifo = [] ∧
      f.found = [.config a] ∧ findObj a = some k ∧ k.ty = .mirSess) ∧
    (∃ (s : State), flag s grC GrCtl.EN = true) ∧
    (∃ (s : State), flag s grC GrCtl.EN = false) ∧
    (∃ (e : Fin 1024) (s : State), e.val ∉ s.flt.engOut ∧ s.flt.engOut.length < 4095) ∧
    (∃ (e : Fin 1024) (s : State), e.val ∈ s.flt.engOut ∧ s.flt.engOut.length < 4096) ∧
    (∃ (e : Fin 1024) (s : State), e.val ∉ s.flt.engOut) ∧
    (∃ (s : State), (queueOf s 0x68).length < 16) :=
  ⟨⟨0x68, faultMsg none, [], faulty (fun x => { x with queues := [(0x68, [faultMsg none])] }) (up), by decide +kernel⟩,
   ⟨0x68, faultMsg (some hd), [],
   ask ({ waits 0x0502 12 with phase := .started 0x68 }) (faulty (fun x => { x with queues := [(0x68, [faultMsg (some hd)])] }) (up)), hd,
   { waits 0x0502 12 with phase := .started 0x68 }, 0x68, by decide +kernel⟩,
   ⟨faulty (fun x => { x with ring := List.replicate 4096 (entry 1) }) (up), by decide +kernel⟩,
   ⟨up, by decide +kernel⟩,
   ⟨logStack 1 (faulty (fun x => { x with ring := [entry 1, entry 2] }) (up)), entry 1, [entry 2], by decide +kernel⟩,
   ⟨logStack 1 (faulty (fun x => { x with ring := [entry 1], log := List.replicate 1048576 (entry 1) }) (up)), entry 1, ([] : List FaultEntry),
   le_of_eq (List.length_replicate (n := 1048576) (a := entry 1)).symm, by decide +kernel⟩,
   ⟨up, by decide +kernel⟩,
   ⟨0x680, 3, reactKey 0x68 0 3, by decide +kernel⟩,
   ⟨0x686, 3, reactKey 0x68 6 3, by decide +kernel⟩,
   ⟨0, ⟨4, false, 0x68, 0⟩, faulty (fun x => { x with shadows := [⟨4, false, 0x68, 0⟩] }) (timed (fun x => { x with stepped := 0 }) up),
   by decide +kernel⟩,
   ⟨hd, ask (waits 0x0202 (12 + Machine.sizeOf ftC)) (fld (reactKey 0x68 0 3) Reaction.SAFE 1 (fld (reactKey 0x68 0 3) Reaction.THRESH 1 up)),
   waits 0x0202 (12 + Machine.sizeOf ftC), write_of (by decide +kernel), by decide +kernel⟩,
   ⟨hd, ask (waits 0x0202 (12 + Machine.sizeOf ftC)) (fld ftS FltStatus.SAFE 1 up), waits 0x0202 (12 + Machine.sizeOf ftC),
   write_of (by decide +kernel), by decide +kernel⟩,
   ⟨hd, 0x680, 3, ask (waits 0x0502 12) (up), waits 0x0502 12, turn_of (by decide +kernel), by decide +kernel⟩,
   ⟨hd, 0x680, 3, ask (waits 0x0502 12) (faulty (fun x => { x with queues := [(0x68, List.replicate 16 (faultMsg none))] }) (up)), waits 0x0502 12,
   turn_of (by decide +kernel), by decide +kernel⟩,
   ⟨hd, 1, 1024, [entry 1], ask (waits 0x0501 16) (faulty (fun x => { x with log := [entry 1] }) (up)), waits 0x0501 16, turn_of (by decide +kernel),
   by decide +kernel⟩,
   ⟨⟨9, 5, 0, 3, [], []⟩, fld grC GrCtl.EN 1 up, by decide +kernel⟩,
   ⟨⟨9, 5, 0, 3, [.billet ((11 : Fin 524288))], []⟩, fld grC GrCtl.EN 1 (putPkt 1 pktOf up), (11 : Fin 524288), 1, pktOf, by decide +kernel⟩,
   ⟨⟨9, 5, 0, 3, [.group ((7 : Fin 65536))], []⟩, fld grC GrCtl.EN 1 up, (7 : Fin 65536), by decide +kernel⟩,
   ⟨⟨9, 5, 0, 3, [.config (addrOf (obj .mirSess 2))], []⟩, fld grC GrCtl.EN 1 (fld (obj .mirSess 2) MirSess.EN 1 up), addrOf (obj .mirSess 2),
   obj .mirSess 2, by decide +kernel⟩,
   ⟨fld grC GrCtl.EN 1 up, by decide +kernel⟩,
   ⟨fld grC GrCtl.EN 0 up, by decide +kernel⟩,
   ⟨6, up, by decide +kernel⟩,
   ⟨6, faulty (fun x => { x with engOut := [6] }) (up), by decide +kernel⟩,
   ⟨6, up, by decide +kernel⟩,
   ⟨up, by decide +kernel⟩⟩

/-- Every clause of `Sweeps` with hypotheses has a case. -/
theorem witness_Sweeps :
    (∃ (s : State), s.cnt.nextNo = 0 ∧ hbmOk s = false) ∧
    (∃ (s : State), countersWait s (collected s) = true) ∧
    (∃ (s : State), countersWait s (collected s) = false ∧ s.cnt.unwritten = false ∧ hbmOk s = true) ∧
    (∃ (s : State), countersWait s (collected s) = false ∧ s.cnt.unwritten = true ∧ hbmOk s = false ∧ s.cnt.nextNo ≠ 0) ∧
    (∃ (c : Hdr) (addr : ObjAddr) (count : BitVec 32) (s : State) (w : Waiting) (l : _), Safety.Turn s c w 0x0402 accRead 16 0x6C ∧ 1 ≤ count.toNat ∧
      count.toNat ≤ 8192 ∧ counterRun addr count.toNat = some l ∧ countersWait s l = false) ∧
    (∃ (c : Hdr) (addr : ObjAddr) (count : BitVec 32) (s : State) (w : Waiting) (l : _), Safety.Turn s c w 0x0402 accRead 16 0x6C ∧ 1 ≤ count.toNat ∧
      count.toNat ≤ 8192 ∧ counterRun addr count.toNat = some l ∧ countersWait s l = true) ∧
    (∃ (c : Hdr) (count : BitVec 32) (s : State) (w : Waiting) (o : Unlisted), Safety.Turn s c w 0x0402 accRead 16 0x6C ∧ 1 ≤ count.toNat ∧
      count.toNat ≤ 8192 ∧ o ≠ none) ∧
    (∃ (c : Hdr) (addr : ObjAddr) (count : BitVec 32) (s : State) (w : Waiting), Safety.Turn s c w 0x0402 accRead 16 0x6C ∧ 1 ≤ count.toNat ∧
      count.toNat ≤ 8192 ∧ counterRun addr count.toNat = none) ∧
    (∃ (c : Hdr) (sweep : Word) (first : BitVec 32) (count : BitVec 32) (s : State) (w : Waiting) (r : SweepRec),
      Safety.Turn s c w 0x0402 accRead 20 0x6C ∧ s.cnt.unwritten = false ∧ s.cnt.ring.find? (fun r => r.number == sweep.toNat) = some r ∧
      1 ≤ count.toNat ∧ count.toNat ≤ 8192 ∧ first.toNat + count.toNat ≤ r.values.length) ∧
    (∃ (c : Hdr) (sweep : Word) (s : State) (w : Waiting), Safety.Turn s c w 0x0402 accRead 20 0x6C ∧ s.cnt.unwritten = false ∧ (∀ r ∈ s.cnt.ring,
      r.number ≠ sweep.toNat)) ∧
    (∃ (c : Hdr) (streams : BitVec 32) (sweepDiv : BitVec 16) (s : State) (w : Waiting), Safety.Turn s c w 0x0401 accRead 12 0x6C ∧
      streams.toNat < 32 ∧ 1 ≤ sweepDiv.toNat ∧ sweepDiv.toNat ≤ 10000) :=
  ⟨⟨counting (fun x => { x with nextNo := 0 }) (up), by decide +kernel⟩,
   ⟨fld brgKey (chanFld 0) 2 (fld (colKey 0) ColEnt.ADDR (addrOf (obj .poolGctr 0)).toNat (fld (colKey 0) ColEnt.COUNT 1 (fld (colKey 0) ColEnt.EN 1 up))),
   by decide +kernel⟩,
   ⟨logStack 1 up, by decide +kernel⟩,
   ⟨counting (fun x => { x with nextNo := 3, unwritten := true }) (up), by decide +kernel⟩,
   ⟨hd, addrOf (obj .lpCtr 0), 1, ask (waits 0x0402 16) (up), waits 0x0402 16, [obj .lpCtr 0], turn_of (by decide +kernel), by decide +kernel⟩,
   ⟨hd, addrOf (obj .poolGctr 0), 1, ask (waits 0x0402 16) (fld brgKey (chanFld 0) 2 up), waits 0x0402 16, [obj .poolGctr 0],
   turn_of (by decide +kernel), by decide +kernel⟩,
   ⟨hd, 1, ask (waits 0x0402 16) (up), waits 0x0402 16, (some 7 : Unlisted), turn_of (by decide +kernel), by decide +kernel⟩,
   ⟨hd, addrOf (obj .lpCtl 0), 1, ask (waits 0x0402 16) (up), waits 0x0402 16, turn_of (by decide +kernel), by decide +kernel⟩,
   ⟨hd, 3, 1, 1, ask (waits 0x0402 20) (counting (fun x => { x with ring := [⟨3, 0, false, [7, 8]⟩] }) (up)), waits 0x0402 20, (⟨3, 0, false, [7,
   8]⟩ : SweepRec), turn_of (by decide +kernel), by decide +kernel⟩,
   ⟨hd, 4, ask (waits 0x0402 20) (counting (fun x => { x with ring := [⟨3, 0, false, [7, 8]⟩] }) (up)), waits 0x0402 20, turn_of (by decide +kernel),
   by decide +kernel⟩,
   ⟨hd, 31, 10000, ask (waits 0x0401 12) (up), waits 0x0401 12, turn_of (by decide +kernel), by decide +kernel⟩⟩

/-- Every clause of `UpdateLeaseAndCommit` with hypotheses has a case. -/
theorem witness_UpdateLeaseAndCommit :
    (∃ (c : Hdr) (n : BitVec 16) (s : State) (w : Waiting), Safety.Turn s c w 0x0701 accUpdate 4 0x70 ∧ 10 ≤ n.toNat ∧ n.toNat ≤ 3600 ∧
      (rd s upS UpdStatus.HOLDER = 255 ∨ rd s upS UpdStatus.HOLDER = c.sid.val)) ∧
    (∃ (c : Hdr) (n : BitVec 16) (s : State) (w : Waiting) (i : _), Safety.Turn s c w 0x0701 accUpdate 4 0x70 ∧
      i ∈ [Instr.updateLeaseAcquire c none 0 n, .updateLeaseRenew c 0 n, .updateLeaseRelease c 0 n] ∧ 10 ≤ n.toNat ∧ n.toNat ≤ 3600 ∧
      rd s upS UpdStatus.HOLDER ≠ 255 ∧ rd s upS UpdStatus.HOLDER ≠ c.sid.val) ∧
    (∃ (c : Hdr) (n : BitVec 16) (s : State) (w : Waiting) (o : Unlisted), Safety.Turn s c w 0x0701 accUpdate 4 0x70 ∧ 10 ≤ n.toNat ∧
      n.toNat ≤ 3600 ∧ o ≠ none) ∧
    (∃ (c : Hdr) (n : BitVec 16) (s : State) (w : Waiting), Safety.Turn s c w 0x0701 accUpdate 4 0x70 ∧ 10 ≤ n.toNat ∧ n.toNat ≤ 3600 ∧
      rd s upS UpdStatus.HOLDER = c.sid.val) ∧
    (∃ (c : Hdr) (n : BitVec 16) (s : State) (w : Waiting), Safety.Turn s c w 0x0701 accUpdate 4 0x70 ∧ 10 ≤ n.toNat ∧ n.toNat ≤ 3600 ∧
      rd s upS UpdStatus.HOLDER = c.sid.val ∧ s.upd.commit = none) ∧
    (∃ (s : State), rd s upS UpdStatus.HOLDER ≠ 255 ∧ rd s (sessKey (rd s upS UpdStatus.HOLDER)) SessStatus.OUTSTANDING = 0) ∧
    (∃ (s : State), rd s upS UpdStatus.HOLDER = 255) ∧
    (∃ (c : Hdr) (off : BitVec 32) (len : BitVec 32) (data : Bytes) (i : Nat) (s : State) (w : Waiting),
      Safety.Turn s c w 0x0702 accUpdate (12 + len.toNat) 0x70 ∧ rd s upS UpdStatus.HOLDER = c.sid.val ∧ hbmReady s 0 = true ∧ stage s ≠ sgVerifying ∧
      stage s ≠ sgCommitting ∧ data.length = len.toNat ∧ 1 ≤ len.toNat ∧ len.toNat ≤ 65536 ∧ off.toNat = 65536 * i ∧ i < 512 ∧
      ((i = 0 ∨ stagedLength s = none ∨ ∃ l, stagedLength s = some l ∧ blockFits l i len.toNat = true))) ∧
    (∃ (c : Hdr) (s : State) (w : Waiting), Safety.Turn s c w 0x0703 accUpdate 0 0x70 ∧ rd s upS UpdStatus.HOLDER = c.sid.val ∧
      stage s ≠ sgVerifying ∧ stage s ≠ sgCommitting) ∧
    (∃ (c : Hdr) (s : State) (w : Waiting) (k : _) (b : _), Safety.Turn s c w 0x0704 accUpdate 4 0x70 ∧ rd s upS UpdStatus.HOLDER = c.sid.val ∧
      stage s = sgVerified ∧ actState s = acIdle ∧ stable s = true ∧ slotIn s fsActive = some k ∧ flag s (dirK k) DirRec.TRIAL = false ∧
      s.upd.staged = some b) ∧
    (∃ (b : BundleInfo) (c : Hdr) (r : Nat) (comp : Nat) (off : Nat) (s : State) (w : Waiting), s.upd.verify = some c ∧ s.cmd.waiting = [w] ∧
      w.hdr = c ∧ w.phase = .started 0x70 ∧ w.op = 0x0703 ∧ stage s = sgVerifying ∧ rd s (sessKey c.sid.val) SessStatus.NEXT_SEQ < 2 ^ 64 - 4096 ∧
      verifyOutcome s b = (r, comp, off, false)) ∧
    (∃ (b : BundleInfo) (c : Hdr) (r : Nat) (comp : Nat) (off : Nat) (s : State) (w : Waiting), s.upd.verify = some c ∧ s.cmd.waiting = [w] ∧
      w.hdr = c ∧ w.phase = .started 0x70 ∧ w.op = 0x0703 ∧ stage s = sgVerifying ∧ rd s (sessKey c.sid.val) SessStatus.NEXT_SEQ < 2 ^ 64 - 4096 ∧
      verifyOutcome s b = (r, comp, off, true)) ∧
    (∃ (s : State), s.upd.verify = none) ∧
    (∃ (s : State), s.upd.commit = none) ∧
    (∃ (x : Storing) (s : State), s.upd.commit = some x ∧ s.upd.slots.length = 2 ∧ x.target < 2 ∧ x.step = 2) ∧
    (∃ (x : Storing) (s : State), s.upd.commit = some x ∧ s.upd.slots.length = 2 ∧ x.target < 2 ∧ x.step = 3) ∧
    (∃ (ok : Bool) (x : Storing) (s : State), s.upd.commit = some x ∧ s.upd.slots.length = 2 ∧ x.target < 2 ∧ x.step = 4 ∧ ok = true) ∧
    (∃ (ok : Bool) (x : Storing) (s : State), s.upd.commit = some x ∧ s.upd.slots.length = 2 ∧ x.target < 2 ∧ x.step = 4 ∧ ok = false ∧ x.repeats < 2) ∧
    (∃ (ok : Bool) (x : Storing) (s : State), s.upd.commit = some x ∧ s.upd.slots.length = 2 ∧ x.target < 2 ∧ x.step = 4 ∧ ok = false ∧
      2 ≤ x.repeats ∧ stage s = sgCommitting) ∧
    (∃ (x : Storing) (s : State), s.upd.commit = some x ∧ s.upd.slots.length = 2 ∧ x.target < 2 ∧ x.step = 5) ∧
    (∃ (x : Storing) (s : State) (k : _) (w : _), s.upd.commit = some x ∧ s.upd.slots.length = 2 ∧ x.target < 2 ∧ x.step = 6 ∧
      slotIn s fsActive = some k ∧ k ≠ x.target ∧ s.cmd.waiting = [w] ∧ w.hdr = x.hdr ∧ w.phase = .started 0x70 ∧ w.op = 0x0704 ∧
      rd s (sessKey w.hdr.sid.val) SessStatus.NEXT_SEQ < 2 ^ 64 - 4096) ∧
    (∃ (s : State), stable s = true) ∧
    (∃ (s : State), stable s = false) :=
  ⟨⟨hd, 10, ask (waits 0x0701 4) (fld upS UpdStatus.HOLDER 255 up), waits 0x0701 4, turn_of (by decide +kernel), by decide +kernel⟩,
   ⟨hd, 3600, ask (waits 0x0701 4) (fld upS UpdStatus.HOLDER 1 up), waits 0x0701 4, Instr.updateLeaseAcquire hd none 0 (3600 : BitVec 16),
   turn_of (by decide +kernel), by decide +kernel⟩,
   ⟨hd, 10, ask (waits 0x0701 4) (up), waits 0x0701 4, (some 7 : Unlisted), turn_of (by decide +kernel), by decide +kernel⟩,
   ⟨hd, 10, ask (waits 0x0701 4) (leased 0 0 (up)), waits 0x0701 4, turn_of (by decide +kernel), by decide +kernel⟩,
   ⟨hd, 10, ask (waits 0x0701 4) (leased 0 0 (up)), waits 0x0701 4, turn_of (by decide +kernel), by decide +kernel⟩,
   ⟨leased 0 0 (up), by decide +kernel⟩,
   ⟨fld upS UpdStatus.HOLDER 255 up, by decide +kernel⟩,
   ⟨hd, 0, 4, [1, 2, 3, 4], 0, ask (waits 0x0702 (12 + (4 : BitVec 32).toNat)) (logStack 1 (leased 0 0 (up))),
   waits 0x0702 (12 + (4 : BitVec 32).toNat), turn_of (by decide +kernel), by decide +kernel⟩,
   ⟨hd, ask (waits 0x0703 0) (leased sgReceiving 0 (up)), waits 0x0703 0, turn_of (by decide +kernel), by decide +kernel⟩,
   ⟨hd, ask (waits 0x0704 4) (slots fsEmpty 0 0 (updater (fun x => { x with staged := some BundleInfo.shipped }) (leased sgVerified 0 (up)))),
   waits 0x0704 4, 0, BundleInfo.shipped, turn_of (by decide +kernel), by decide +kernel⟩,
   ⟨BundleInfo.shipped, hd, 0, 255, 0,
   ask ({ waits 0x0703 0 with phase := .started 0x70 }) (updater (fun x => { x with verify := some hd, blocks := [(0, wholeBundle)] }) (leased sgVerifying 0 (up))),
   { waits 0x0703 0 with phase := .started 0x70 }, by decide +kernel⟩,
   ⟨BundleInfo.shipped, hd, 1, 255, 0,
   ask ({ waits 0x0703 0 with phase := .started 0x70 }) (updater (fun x => { x with verify := some hd }) (leased sgVerifying 0 (up))),
   { waits 0x0703 0 with phase := .started 0x70 }, by decide +kernel⟩,
   ⟨up, by decide +kernel⟩,
   ⟨up, by decide +kernel⟩,
   ⟨storing 2 0, committing 2 0 (slots fsEmpty 0 0 up), by decide +kernel⟩,
   ⟨storing 3 0, committing 3 0 (slots fsEmpty 0 0 up), by decide +kernel⟩,
   ⟨true, storing 4 0, committing 4 0 (slots fsEmpty 0 0 up), by decide +kernel⟩,
   ⟨false, storing 4 0, committing 4 0 (slots fsEmpty 0 0 up), by decide +kernel⟩,
   ⟨false, storing 4 2, committing 4 2 (slots fsEmpty 0 0 up), by decide +kernel⟩,
   ⟨storing 5 0, committing 5 0 (slots fsEmpty 0 0 up), by decide +kernel⟩,
   ⟨storing 6 0, ask ({ waits 0x0704 4 with phase := .started 0x70 }) (committing 6 0 (slots fsWriting 0 0 up)), 0,
   { waits 0x0704 4 with phase := .started 0x70 }, by decide +kernel⟩,
   ⟨upStable, by decide +kernel⟩,
   ⟨fld (obj .pwrStatus) PwrStatus.STABLE 0 (committing 4 0 (slots fsEmpty 0 0 up)), by decide +kernel⟩⟩

/-- Every clause of `ActivationAndFallback` with hypotheses has a case. -/
theorem witness_ActivationAndFallback :
    (∃ (c : Hdr) (s : State) (w : Waiting), Safety.Sets s c w upC UpdCtl.SAVE 1 ∧ s.upd.save = none) ∧
    (∃ (h : Settings) (k : Nat) (s : State), s.upd.save = some h ∧ slotIn s fsActive = some k ∧ s.upd.slots.length = 2) ∧
    (∃ (s : State), s.upd.save = none) ∧
    (∃ (c : Hdr) (k : Nat) (b : BundleInfo) (s : State) (w : Waiting), Safety.Turn s c w 0x0705 accUpdate 4 0x70 ∧
      rd s upS UpdStatus.HOLDER = c.sid.val ∧ slotIn s fsActive = some k ∧ bundleIn s k = some b ∧ flag s (dirK k) DirRec.TRIAL = true ∧
      runSlot s ≠ k ∧ actState s = acIdle ∧ runningChecks s b = (none, false)) ∧
    (∃ (c : Hdr) (s : State) (w : Waiting) (o : Unlisted), Safety.Turn s c w 0x0705 accUpdate 4 0x70 ∧ rd s upS UpdStatus.HOLDER = c.sid.val ∧
      o ≠ none) ∧
    (∃ (c : Hdr) (s : State) (w : Waiting), Safety.Turn s c w 0x0705 accUpdate 4 0x70 ∧ rd s upS UpdStatus.HOLDER = c.sid.val ∧ actState s = acIdle) ∧
    (∃ (c : Hdr) (s : State) (w : Waiting), Safety.Turn s c w 0x0705 accUpdate 4 0x70 ∧ rd s upS UpdStatus.HOLDER = c.sid.val ∧
      actState s = acHealth ∧ s.upd.coreFault = false ∧ stable s = true) ∧
    (∃ (c : Hdr) (s : State) (w : Waiting), Safety.Turn s c w 0x0705 accUpdate 4 0x70 ∧ rd s upS UpdStatus.HOLDER = c.sid.val ∧
      actState s = acHealth ∧ s.upd.coreFault = true) ∧
    (∃ (c : Hdr) (s : State) (w : Waiting) (p : _), Safety.Turn s c w 0x0705 accUpdate 4 0x70 ∧ rd s upS UpdStatus.HOLDER = c.sid.val ∧
      flag s (dirK (runSlot s)) DirRec.TRIAL = true ∧ slotIn s fsPrevious = some p ∧ p ≠ runSlot s ∧ stable s = true ∧
      flag s upS UpdStatus.SETTINGS_DEFAULTED = false ∧ s.upd.actDone = []) ∧
    (∃ (c : Hdr) (b : BundleInfo) (s : State) (w : Waiting), Safety.Turn s c w 0x0705 accUpdate 4 0x70 ∧ rd s upS UpdStatus.HOLDER = c.sid.val ∧
      s.cmd.fuse = none ∧ bundleIn s (runSlot s) = some b ∧ flag s (dirK (runSlot s)) DirRec.TRIAL = false ∧ stable s = true ∧
      b.secver ≤ rd s upS UpdStatus.SECVER_MIN) ∧
    (∃ (c : Hdr) (b : BundleInfo) (s : State) (w : Waiting), Safety.Turn s c w 0x0705 accUpdate 4 0x70 ∧ rd s upS UpdStatus.HOLDER = c.sid.val ∧
      s.cmd.fuse = none ∧ bundleIn s (runSlot s) = some b ∧ flag s (dirK (runSlot s)) DirRec.TRIAL = false ∧ stable s = true ∧
      rd s upS UpdStatus.SECVER_MIN < b.secver) ∧
    (∃ (s : State), s.upd.act = []) ∧
    (∃ (p : ActPart) (q : ActPart) (rest : List ActPart) (s : State), s.upd.act = p :: q :: rest ∧ (p = .phy ∨ p.isCore = true) ∧ q.isCore = true) ∧
    (∃ (p : ActPart) (s : State) (k : _) (b : _) (c : _) (w : _), s.upd.act = [p] ∧ p.isCore = true ∧ slotIn s fsActive = some k ∧
      bundleIn s k = some b ∧ actState s = acActivating ∧ s.upd.actHdr = some c ∧ s.cmd.waiting = [w] ∧ w.hdr = c ∧ w.phase = .started 0x70 ∧
      w.op = 0x0705 ∧ rd s (sessKey c.sid.val) SessStatus.NEXT_SEQ < 2 ^ 64 - 4096) ∧
    (∃ (s : State), actState s = acHealth ∧ stable s = true ∧ s.upd.coreFault = false ∧
      (flag s upC UpdCtl.CONFIRM_REQ = false ∨ s.upd.confirmed = true)) ∧
    (∃ (s : State) (p : _), actState s = acHealth ∧ stable s = true ∧ s.upd.coreFault = true ∧ slotIn s fsPrevious = some p ∧ p ≠ runSlot s ∧
      flag s upS UpdStatus.SETTINGS_DEFAULTED = false ∧ s.upd.actDone = []) ∧
    (∃ (s : State), actState s ≠ acHealth) :=
  ⟨⟨hd, ask (waits 0x0202 (12 + Machine.sizeOf upC)) (upStable), waits 0x0202 (12 + Machine.sizeOf upC), write_of (by decide +kernel),
   by decide +kernel⟩,
   ⟨⟨1, 1, []⟩, 0, updater (fun x => { x with save := some ⟨1, 1, []⟩ }) (slots fsEmpty 0 0 up), by decide +kernel⟩,
   ⟨up, by decide +kernel⟩,
   ⟨hd, 0, BundleInfo.shipped, ask (waits 0x0705 4) (fld (dirK 0) DirRec.TRIAL 1 (slots fsPrevious 1 0 (leased 0 0 (up)))), waits 0x0705 4,
   turn_of (by decide +kernel), by decide +kernel⟩,
   ⟨hd, ask (waits 0x0705 4) (leased 0 0 (up)), waits 0x0705 4, (some 7 : Unlisted), turn_of (by decide +kernel), by decide +kernel⟩,
   ⟨hd, ask (waits 0x0705 4) (leased 0 0 (up)), waits 0x0705 4, turn_of (by decide +kernel), by decide +kernel⟩,
   ⟨hd, ask (waits 0x0705 4) (leased 0 acHealth (up)), waits 0x0705 4, turn_of (by decide +kernel), by decide +kernel⟩,
   ⟨hd, ask (waits 0x0705 4) (updater (fun x => { x with coreFault := true }) (leased 0 acHealth (up))), waits 0x0705 4, turn_of (by decide +kernel),
   by decide +kernel⟩,
   ⟨hd, ask (waits 0x0705 4) (slots fsPrevious 0 1 (leased 0 0 (up))), waits 0x0705 4, 1, turn_of (by decide +kernel), by decide +kernel⟩,
   ⟨hd, BundleInfo.shipped, ask (waits 0x0705 4) (slots fsEmpty 0 0 (leased 0 0 (up))), waits 0x0705 4, turn_of (by decide +kernel),
   by decide +kernel⟩,
   ⟨hd, { BundleInfo.shipped with secver := 3 },
   ask (waits 0x0705 4) (updater (fun x => { x with slots := [⟨some { BundleInfo.shipped with secver := 3 }, []⟩, ⟨none, []⟩] }) (slots fsEmpty 0 0 (leased 0 0 (up)))),
   waits 0x0705 4, turn_of (by decide +kernel), by decide +kernel⟩,
   ⟨up, by decide +kernel⟩,
   ⟨.phy, .core 2, [], updater (fun x => { x with act := [.phy, .core 2] }) (up), by decide +kernel⟩,
   ⟨.core 2,
   ask ({ waits 0x0705 4 with phase := .started 0x70 }) (updater (fun x => { x with act := [.core 2], actHdr := some hd }) (slots fsEmpty 0 0 (leased 0 acActivating (up)))),
   0, BundleInfo.shipped, hd, { waits 0x0705 4 with phase := .started 0x70 }, by decide +kernel⟩,
   ⟨leased 0 acHealth (slots fsEmpty 0 1 up), by decide +kernel⟩,
   ⟨updater (fun x => { x with coreFault := true }) (slots fsPrevious 0 1 (leased 0 acHealth (up))), 1, by decide +kernel⟩,
   ⟨up, by decide +kernel⟩⟩

/-- Every clause of `ResetAndStartUp` with hypotheses has a case. -/
theorem witness_ResetAndStartUp :
    (∃ (c : Hdr) (flags : BitVec 8) (s : State) (w : Waiting), Safety.Turn s c w 0x0F01 accControl 4 0x01 ∧ flags.toNat < 2 ∧ resetRefused s = false) ∧
    (∃ (c : Hdr) (flags : BitVec 8) (s : State) (w : Waiting), Safety.Turn s c w 0x0F01 accControl 4 0x01 ∧ flags.toNat < 2 ∧
      resetRefused s = false ∧ servo s ≠ svLocked) ∧
    (∃ (c : Hdr) (flags : BitVec 8) (s : State) (w : Waiting) (o : Unlisted), Safety.Turn s c w 0x0F01 accControl 4 0x01 ∧ flags.toNat < 2 ∧ o ≠ none) ∧
    (∃ (c : Hdr) (flags : BitVec 8) (s : State) (w : Waiting) (i : _), Safety.Turn s c w 0x0F01 accControl 4 0x01 ∧
      i ∈ [Instr.resetDevice c none flags 0, .resetDatapath c flags 0] ∧ flags.toNat < 2 ∧ resetRefused s = true) ∧
    (∃ (s : State), s.pwr.nreset = true) ∧
    (∃ (s : State), s.pwr.nreset = false) ∧
    (∃ (s : State), s.pwr.vin = false ∧ s.pwr.vstby = true ∧ s.pwr.toDevice = false) ∧
    (∃ (s : State), s.pwr.vin = false ∧ s.pwr.vstby = true ∧ s.pwr.toDevice = true) ∧
    (∃ (s : State), s.pwr.vin = true) ∧
    (∃ (s : State), s.pwr.vin = true ∧ s.pwr.vstby = true) ∧
    (∃ (s : State), s.pwr.vin = true ∧ s.pwr.vstby = false) ∧
    (∃ (s : State), s.pwr.vin = false) ∧
    (∃ (s : State), s.pwr.vstby = false ∧ s.pwr.vin = false) ∧
    (∃ (s : State), s.pwr.vstby = false ∧ s.pwr.vin = true ∧ 1 ∈ s.pwr.done) ∧
    (∃ (s : State), s.pwr.vstby = true) ∧
    (∃ (s : State), s.pwr.vstby = true ∧ s.pwr.vin = true) ∧
    (∃ (s : State), s.pwr.vstby = false) ∧
    (∃ (s : State) (n : Fin 12), stepReady s n.val = false) ∧
    (∃ (s : State), stepReady s 1 = true) ∧
    (∃ (s : State) (n : Fin 12), n.val ∈ [2, 4, 7] ∧ stepReady s n.val = true) ∧
    (∃ (s : State), stepReady s 3 = true) ∧
    (∃ (s : State), stepReady s 5 = true ∧ (∀ i < 6, rd s (obj .hbStatus i) HbStatus.STATE ≠ 0)) ∧
    (∃ (r : BootRead) (s : State) (k : _), stepReady s 6 = true ∧ s.upd.trialBoot = false ∧ r.dirBad = none ∧ r.bad0 = false ∧ r.bad1 = false ∧
      s.upd.bootBad = [] ∧ s.upd.fellBack = false ∧ slotIn s fsActive = some k ∧ flag s (dirK k) DirRec.TRIAL = false) ∧
    (∃ (s : State), stepReady s 8 = true ∧ rd s rstKey RstStatus.BOOT_MODE = 1) ∧
    (∃ (s : State), stepReady s 9 = true) ∧
    (∃ (s : State) (c : _) (w : _), stepReady s 10 = true ∧ s.upd.act = [] ∧ s.pwr.steps = datapathSteps ∧ s.pwr.hdr = some c ∧ inSafe s = false ∧
      s.cmd.waiting = [w] ∧ w.hdr = c ∧ w.phase = .started 0x01 ∧ w.op = 0x0F01 ∧ rd s (sessKey c.sid.val) SessStatus.NEXT_SEQ < 2 ^ 64 - 4096) ∧
    (∃ (s : State), stepReady s 11 = true) ∧
    (∃ (s : State), s.upd.trialBoot = false) ∧
    (∃ (s : State) (k : _), s.upd.trialBoot = true ∧ stable s = true ∧ slotIn s fsActive = some k ∧ k ∉ s.upd.bootBad ∧
      flag s (dirK k) DirRec.TRIAL = true ∧ rd s (dirK k) DirRec.TRIES < rd s upC UpdCtl.TRIAL_BOOTS) ∧
    (∃ (s : State) (k : _) (p : _), s.upd.bootSlot = some k ∧ flag s (dirK k) DirRec.TRIAL = true ∧ 6 ∈ s.pwr.done ∧ 11 ∉ s.pwr.done ∧
      stable s = true ∧ slotIn s fsActive = some k ∧ slotIn s fsPrevious = some p ∧ p ∉ s.upd.bootBad) ∧
    (∃ (s : State), s.upd.bootSlot = none) :=
  ⟨⟨hd, 1, ask (waits 0x0F01 4) (up), waits 0x0F01 4, turn_of (by decide +kernel), by decide +kernel⟩,
   ⟨hd, 1, ask (waits 0x0F01 4) (up), waits 0x0F01 4, turn_of (by decide +kernel), by decide +kernel⟩,
   ⟨hd, 1, ask (waits 0x0F01 4) (up), waits 0x0F01 4, (some 7 : Unlisted), turn_of (by decide +kernel), by decide +kernel⟩,
   ⟨hd, 1, ask (waits 0x0F01 4) (committing 4 0 up), waits 0x0F01 4, Instr.resetDatapath hd (1 : BitVec 8) 0, turn_of (by decide +kernel),
   by decide +kernel⟩,
   ⟨powered (fun x => { x with nreset := true }) (up), by decide +kernel⟩,
   ⟨powered (fun x => { x with nreset := false }) (up), by decide +kernel⟩,
   ⟨powered (fun x => { x with vin := false, vstby := true, toDevice := false }) (up), by decide +kernel⟩,
   ⟨powered (fun x => { x with vin := false, vstby := true, toDevice := true }) (up), by decide +kernel⟩,
   ⟨powered (fun x => { x with vin := true }) (up), by decide +kernel⟩,
   ⟨powered (fun x => { x with vin := true, vstby := true }) (up), by decide +kernel⟩,
   ⟨powered (fun x => { x with vin := true, vstby := false }) (up), by decide +kernel⟩,
   ⟨powered (fun x => { x with vin := false }) (up), by decide +kernel⟩,
   ⟨powered (fun x => { x with vin := false, vstby := false }) (up), by decide +kernel⟩,
   ⟨powered (fun x => { x with vin := true, vstby := false, done := [1] }) (up), by decide +kernel⟩,
   ⟨powered (fun x => { x with vstby := true }) (up), by decide +kernel⟩,
   ⟨powered (fun x => { x with vin := true, vstby := true }) (up), by decide +kernel⟩,
   ⟨powered (fun x => { x with vstby := false }) (up), by decide +kernel⟩,
   ⟨atStep 3 up, 4, by decide +kernel⟩,
   ⟨atStep 1 (up), by decide +kernel⟩,
   ⟨atStep 4 (up), 4, by decide +kernel⟩,
   ⟨atStep 3 (up), by decide +kernel⟩,
   ⟨atStep 5 ((List.range 6).foldl (fun s i => wr s (obj .hbStatus i) HbStatus.STATE 1) up), by decide +kernel⟩,
   ⟨goodRead, atStep 6 (slots fsEmpty 0 0 up), 0, by decide +kernel⟩,
   ⟨atStep 8 (fld rstKey RstStatus.BOOT_MODE 1 up), by decide +kernel⟩,
   ⟨atStep 9 (up), by decide +kernel⟩,
   ⟨ask ({ waits 0x0F01 4 with phase := .started 0x01 }) (powered (fun x => { x with vin := true, vstby := true, nreset := false, steps := datapathSteps, done := [4, 7, 8, 9], hdr := some hd }) (up)),
   hd, { waits 0x0F01 4 with phase := .started 0x01 }, by decide +kernel⟩,
   ⟨atStep 11 (up), by decide +kernel⟩,
   ⟨up, by decide +kernel⟩,
   ⟨updater (fun x => { x with trialBoot := true, bootBad := [] }) (slots fsEmpty 0 1 upStable), 0, by decide +kernel⟩,
   ⟨powered (fun x => { x with done := [6] }) (updater (fun x => { x with bootSlot := some 0 }) (slots fsPrevious 0 1 upStable)), 0, 1,
   by decide +kernel⟩,
   ⟨updater (fun x => { x with bootSlot := none }) (up), by decide +kernel⟩⟩

/-- Every clause of `PowerLadder` with hypotheses has a case. -/
theorem witness_PowerLadder :
    (∃ (u : ShedUnit) (l : List ShedUnit) (s : State), s.pwr.overAt ≠ none ∧ s.pwr.unmet = false ∧ lastApplied s = true ∧ itemsLeft s [1, 2, 3, 4,
      5] = u :: l) ∧
    (∃ (s : State) (c : _), c ∈ [Instr.shedItem, .budgetUnmet] ∧ s.pwr.overAt = none) ∧
    (∃ (s : State), s.pwr.overAt ≠ none ∧ s.pwr.unmet = false ∧ itemsLeft s [1, 2, 3, 4, 5] = []) ∧
    (∃ (watts : Nat) (u : ShedUnit) (l : List ShedUnit) (s : State), s.pwr.shed = u :: l ∧ 100 * watts < 85 * budget (level s) ∧
      longAgo s s.pwr.shedAt (10 * sec) = true ∧ longAgo s s.pwr.restAt sec = true ∧ shedStep u ∉ startSteps (level s)) ∧
    (∃ (watts : Nat) (s : State), 85 * budget (level s) ≤ 100 * watts) ∧
    (∃ (s : State), s.pwr.shed = []) ∧
    (∃ (s : State), s.pwr.limitAt ≠ none ∧ s.pwr.limited = false) ∧
    (∃ (s : State) (c : _), c ∈ [Instr.currentLimit, .currentLimitShutdown] ∧ s.pwr.limitAt = none) ∧
    (∃ (s : State), s.pwr.limitAt ≠ none ∧ s.pwr.limited = true) ∧
    (∃ (lv : BitVec 2) (s : State) (c : _) (w : _), Safety.Sets s c w pwC PwrCtl.FORCE_LEVEL lv.toNat) ∧
    (∃ (fd : Nat) (qd : Nat), 93 ≤ max fd qd ∧ max fd qd < 98) ∧
    (∃ (fd : Nat) (qd : Nat) (s : State) (t0 : _), 98 ≤ max fd qd ∧ max fd qd < 110 ∧ s.pwr.hotAt = some t0 ∧ t0 + 10 * ms ≤ s.clock ∧
      flag s pwS PwrStatus.THERMAL = false) ∧
    (∃ (fd : Nat) (qd : Nat) (s : State) (t0 : _), max fd qd < 93 ∧ s.pwr.coolAt = some t0 ∧ t0 + sec ≤ s.clock ∧ flag s pwS PwrStatus.THERMAL = true) ∧
    (∃ (fd : Nat) (qd : Nat), 110 ≤ max fd qd) :=
  ⟨⟨(itemsLeft (powered (fun x => { x with overAt := some 0 }) (up)) [1, 2, 3, 4, 5]).headD (.cluster 0),
   (itemsLeft (powered (fun x => { x with overAt := some 0 }) (up)) [1, 2, 3, 4, 5]).drop 1, powered (fun x => { x with overAt := some 0 }) (up),
   by decide +kernel⟩,
   ⟨powered (fun x => { x with overAt := none }) (up), Instr.shedItem, by decide +kernel⟩,
   ⟨powered (fun x => { x with overAt := some 0, shed := [1, 2, 3, 4, 5].flatMap itemsOfStep }) (up), by decide +kernel⟩,
   ⟨9, .cluster 31, ([] : List ShedUnit), powered (fun x => { x with shed := [.cluster 31] }) (up), by decide +kernel⟩,
   ⟨2000, powered (fun x => { x with shed := [.cluster 31] }) (up), by decide +kernel⟩,
   ⟨powered (fun x => { x with shed := [] }) (up), by decide +kernel⟩,
   ⟨powered (fun x => { x with limitAt := some 0, limited := false }) (up), by decide +kernel⟩,
   ⟨powered (fun x => { x with limitAt := none }) (up), Instr.currentLimit, by decide +kernel⟩,
   ⟨powered (fun x => { x with limitAt := some 0, limited := true }) (up), by decide +kernel⟩,
   ⟨2, ask (waits 0x0202 (12 + Machine.sizeOf pwC)) (up), hd, waits 0x0202 (12 + Machine.sizeOf pwC), write_of (by decide +kernel)⟩,
   ⟨97, 93, by decide +kernel⟩,
   ⟨98, 93, { powered (fun x => { x with hotAt := some 0 }) (up) with clock := 10 * ms }, 0, by decide +kernel⟩,
   ⟨92, 92, { powered (fun x => { x with coolAt := some 0 }) (fld pwS PwrStatus.THERMAL 1 up) with clock := sec }, 0, by decide +kernel⟩,
   ⟨110, 92, by decide +kernel⟩⟩

end Sys2Proof.Tests
end

section
/-! The object commands OBJ_READ, OBJ_WRITE and OBJ_MODIFY on one object (R10, R11, R68 to R70): what a write that has no other effect
stores, what its reply shows, and a read that clears nothing. -/
namespace Sys2Proof.Machine

open Sys2Proof

/-! ## Objects whose write has no effect beside its fields -/

/-- An object whose write has no other effect has a writable field. -/
theorem plain_writable : ∀ ty ∈ Safety.plain, (fieldsOf ty).all (fun d => d.acc == .ro || d.acc == .rc) = false := by decide

/-- Their sizes meet the lower bound and the multiple of 4 that R70 asks of an OBJ_MODIFY, and R68's bound on a length. -/
theorem plain_size : ∀ ty ∈ Safety.plain, 4 ≤ (descOf ty).size ∧ (descOf ty).size % 4 = 0 ∧ (descOf ty).size ≤ 65536 := by decide

/-- None of them is a type that the object commands treat apart, nor the one that a reply itself writes. -/
theorem plain_apart : ∀ ty ∈ Safety.plain,
    ty ≠ .opKey ∧ ty ≠ .gateCtl ∧ ty ≠ .saSlot ∧ ty ≠ .cakSlot ∧ ty ≠ .sessStatus := by decide

theorem readOnly_of_plain {k : Key} (h : Safety.Plain k) : readOnly k = false := by
  obtain ⟨hm, hspill, htti⟩ := h
  have hidx : k.ty = .tti → ¬ 6 ≤ k.idx % 8 := by
    intro e
    have : k.idx % 8 ∈ [1, 3, 5] := by_contra fun hn => htti ⟨e, hn⟩
    simp at this
    omega
  simp only [readOnly, plain_writable _ hm, Bool.false_or, Bool.or_eq_false_iff, Bool.and_eq_false_imp, beq_iff_eq, beq_eq_false_iff_ne,
    decide_eq_false_iff_not]
  exact ⟨fun e h0 => hspill ⟨e, h0⟩, hidx⟩

/-- `applyWrite` has no effect of its own for a plain object: the TTIs that change no consequent action take its plain branch. -/
theorem applyWrite_of_plain {k : Key} (h : Safety.Plain k) (x : Nat) (s : State) : applyWrite k x s = storeObj k x s := by
  obtain ⟨ty, i⟩ := k
  obtain ⟨hm, -, htti⟩ := h
  by_cases e : ty = .tti
  · subst e
    have hi : i % 8 ∈ [1, 3, 5] := by_contra fun hn => htti ⟨rfl, hn⟩
    simp only [List.mem_cons, List.not_mem_nil, or_false] at hi
    rcases hi with hi | hi | hi <;> simp [applyWrite, hi]
  · simp only [Safety.plain] at hm
    fin_cases hm <;> simp_all [applyWrite]

/-- But for the TTIs and the reaction sets, a read of a plain object returns the stored value. -/
theorem viewWord_of_plain {k : Key} (hm : k.ty ∈ Safety.plain) (htti : k.ty ≠ .tti) (hreact : k.ty ≠ .reaction) (s : State) :
    viewWord s k = rdWord s k := by
  obtain ⟨ty, i⟩ := k
  simp only [Safety.plain] at hm
  fin_cases hm <;> simp_all [viewWord]

/-- A read of a plain object depends on objects that a reply leaves, on the clock and on the windows of the reaction sets (R481). -/
theorem viewWord_congr {s t : State} {k : Key} (hm : k.ty ∈ Safety.plain) (hr : ∀ j, j.ty ≠ .sessStatus → rdWord t j = rdWord s j)
    (hc : t.clock = s.clock) (hf : t.flt = s.flt) : viewWord t k = viewWord s k := by
  have hk : rdWord t k = rdWord s k := hr k (plain_apart _ hm).2.2.2.2
  by_cases htti : k.ty = .tti
  · have hmode : isFramed t (k.idx / 8) = isFramed s (k.idx / 8) := by
      unfold isFramed portMode rd
      rw [hr (obj .lpCtl (k.idx / 8)) (by simp)]
    simp only [viewWord, htti, hk, hmode]
  · by_cases hreact : k.ty = .reaction
    · have hcount : countedIn t k = countedIn s k := by
        unfold countedIn within rd
        rw [hk, hc, hf]
      simp only [viewWord, hreact, hk, hcount]
    · rw [viewWord_of_plain hm htti hreact, viewWord_of_plain hm htti hreact, hk]

/-! ## The reply -/

theorem length_toBytes (n x : Nat) : (toBytes n x).length = n := by
  induction n with
  | zero => rfl
  | succ n ih => simp [toBytes, ih]

/-- The stream of a command in its turn has SEQs left for the frames of any result (R53, R55). -/
theorem Turn.stream_room {s : State} {c : Hdr} {w : Waiting} {op acc plen blk n : Nat} (h : Safety.Turn s c w op acc plen blk)
    (hn : n ≤ 65536) : rd s (sessKey c.sid.val) SessStatus.NEXT_SEQ + fragments (24 + n) < 2 ^ 64 := by
  have hs := h.stream
  unfold fragments
  omega

/-- The result of the reply to a write: an OBJ_MODIFY returns what the object then reads (R70). -/
def writeResult (s : State) (op : Nat) (k : Key) : Bytes := if op = 0x0203 then toBytes (sizeOf k) (viewWord s k) else []

theorem length_writeResult_le (s : State) (op : Nat) (k : Key) : (writeResult s op k).length ≤ sizeOf k := by
  unfold writeResult
  split
  · rw [length_toBytes]
  · exact Nat.zero_le _

theorem replyWrite_eq_ok {u : State} {c : Hdr} {w : Waiting} (k : Key) (h : u.cmd.waiting = [w]) (hc : w.hdr = c) :
    replyWrite c k u = ok c (writeResult u w.op k) u := by
  simp only [replyWrite, replyWith, waitingOf_only h hc, writeResult]
  split <;> rfl

/-! ## A write of one object -/

/-- With no check and no state against it, the write of a plain object is stored and answered at once (R69). -/
theorem writeObjects_of_plain {s : State} {c : Hdr} {k : Key} {x : Nat} (hp : Safety.Plain k) (hf : fieldsOk k.ty x = true)
    (hr : rangeOk s k x = true) (hs : stateFault s k x = none) :
    writeObjects c [(k, x)] s = replyWrite c k (storeObj k x s) := by
  obtain ⟨hkey, hgate, -, -, -⟩ := plain_apart _ hp.1
  have hform : formFault s [(k, x)] = none := by simp [formFault, readOnly_of_plain hp, hf, hr]
  have hstate : firstState [(k, x)] s = none := by simp [firstState, hs]
  simp [writeObjects, hform, hstate, hkey, hgate, forAll, applyWrite_of_plain hp]

/-- OBJ_WRITE and OBJ_MODIFY meet here: a value made for a plain object, by a command in its turn. -/
theorem writeObjects_stored {s : State} {c : Hdr} {w : Waiting} {k : Key} {x op acc plen blk : Nat} (hp : Safety.Plain k)
    (ht : Safety.Turn s c w op acc plen blk) (ho : op ≠ 0x0305) (hf : fieldsOk k.ty x = true) (hr : rangeOk s k x = true)
    (hs : stateFault s k x = none) :
    Safety.Answered [k.ty] s (writeObjects c [(k, x)] s) w (writeResult (writeObjects c [(k, x)] s) op k) ∧
      Safety.Holds s (writeObjects c [(k, x)] s) k x ∧
      ∀ j, j ≠ k → j.ty ≠ .sessStatus → rdWord (writeObjects c [(k, x)] s) j = rdWord s j := by
  obtain ⟨-, -, -, -, hsess⟩ := plain_apart _ hp.1
  have hwait : (storeObj k x s).cmd.waiting = [w] := ht.only
  have hroom : rd (storeObj k x s) (sessKey c.sid.val) SessStatus.NEXT_SEQ +
      fragments (24 + (writeResult (storeObj k x s) w.op k).length) < 2 ^ 64 := by
    rw [RegsKept.rd (storeObj_kept k x s) (by simpa [sessKey] using Ne.symm hsess)]
    exact Turn.stream_room ht ((length_writeResult_le _ _ _).trans (plain_size _ hp.1).2.2)
  rw [writeObjects_of_plain hp hf hr hs, replyWrite_eq_ok k hwait ht.mine]
  have ha := ok_answered hwait ht.mine ht.queued (ht.opcode ▸ ho) hroom
  generalize ok c (writeResult (storeObj k x s) w.op k) (storeObj k x s) = t at ha ⊢
  obtain ⟨hdone, hkept, hparts⟩ := ha
  have hview : viewWord t k = viewWord (storeObj k x s) k :=
    viewWord_congr hp.1 (fun j hj => hkept j (by simpa using hj)) (by rw [hparts]) (by rw [hparts])
  have hres : writeResult t op k = writeResult (storeObj k x s) w.op k := by simp only [writeResult, hview, ht.opcode]
  refine ⟨?_, Holds.after (storeObj_holds k x s) (by simpa using hsess) hkept, fun j hj hjs => ?_⟩
  · rw [hres]
    exact Answered.after ⟨hdone, hkept, hparts⟩ (storeObj_kept k x s) rfl
  · rw [hkept j (by simpa using hjs)]
    exact rdWord_wrWord_ne s _ hj

theorem writeAccess_of_plain {s : State} {n op : Nat} {k : Key} (hm : k.ty ∈ Safety.plain) :
    writeAccess s n op (some [k]) = accConfig := by
  obtain ⟨hkey, -, hsa, hcak, -⟩ := plain_apart _ hm
  simp [writeAccess, hkey, hsa, hcak]

/-! ## The three commands -/

theorem exec_objRead (c : Hdr) (addr : ObjAddr) (res : BitVec 16) (len : BitVec 32) (bad : Option ObjAddr) (s : State) :
    exec (.objRead c addr res len bad) s = execObjRead c addr res len bad s := by rfl

theorem exec_objWrite (c : Hdr) (addr : ObjAddr) (res : BitVec 16) (len : BitVec 32) (data : Bytes) (s : State) :
    exec (.objWrite c addr res len data) s = execObjWrite c addr res len data s := by rfl

theorem exec_objModify (c : Hdr) (addr : ObjAddr) (op res : BitVec 8) (len : BitVec 32) (mask value : Nat) (s : State) :
    exec (.objModify c addr op res len mask value) s = execObjModify c addr op res len mask value s := by rfl

/-- A length that covers objects is one that OBJ_READ and OBJ_WRITE take (R68). -/
theorem covered_length_le {a : ObjAddr} {n : Nat} {l : List Key} (h : covered a n = some l) : n ≤ 65536 := by
  by_contra hn
  simp [covered, show 65536 < n by omega] at h

/-- Such a length fits the command's LEN field. -/
theorem toNat_ofNat_length {n : Nat} (h : n ≤ 65536) : (BitVec.ofNat 32 n).toNat = n :=
  (BitVec.toNat_ofNat n 32).trans (Nat.mod_eq_of_lt (by omega))

/-- A read of an object with no measured field and no field that a read clears changes nothing (R10). -/
theorem readObj_of_unmeasured {k : Key} (s : State) (hm : measured k.ty = []) (hrc : ∀ d ∈ fieldsOf k.ty, d.acc ≠ .rc) :
    readObj k s = (viewWord s k, s) := by
  have hnone : (fieldsOf k.ty).filter (fun d => d.acc == .rc) = [] := by simpa [List.filter_eq_nil_iff] using hrc
  simp [readObj, hm, hnone]

theorem execObjRead_answered {c : Hdr} {s : State} {w : Waiting} {k : Key}
    (ht : Safety.Turn s c w 0x0201 accRead 12 ((addrOf k).toNat / 2 ^ 40)) (hcov : covered (addrOf k) (sizeOf k) = some [k])
    (hm : measured k.ty = []) (hrc : ∀ d ∈ fieldsOf k.ty, d.acc ≠ .rc) :
    Safety.Gives (.objRead c (addrOf k) 0 (BitVec.ofNat 32 (sizeOf k)) none) s fun t =>
      Safety.Answered [] s t w (toBytes (sizeOf k) (viewWord s k)) := by
  have hlen := covered_length_le hcov
  have hplen := ht.length
  refine ⟨ok c (toBytes (sizeOf k) (viewWord s k)) s, ?_, ?_⟩
  · simp only [exec_objRead, execObjRead, toNat_ofNat_length hlen, hcov]
    rw [beq_self_eq_true, checked_pass (w := w) (by rw [hplen]; exact ht) (by simp [hplen])]
    simp [readObj_of_unmeasured s hm hrc]
  · exact ok_answered ht.only ht.mine ht.queued (by rw [ht.opcode]; decide)
      (Turn.stream_room ht (by rw [length_toBytes]; exact hlen))

theorem execObjWrite_stored {c : Hdr} {s : State} {w : Waiting} {k : Key} {data : Bytes} (hp : Safety.Plain k)
    (hdata : data.length = sizeOf k) (hcov : covered (addrOf k) (sizeOf k) = some [k])
    (hblk : (addrOf k).toNat / 2 ^ 40 = blockOf k) (hw : Safety.Write s c w k (ofBytes data)) :
    Safety.Gives (.objWrite c (addrOf k) 0 (BitVec.ofNat 32 (sizeOf k)) data) s fun t =>
      Safety.Answered [k.ty] s t w [] ∧ Safety.Holds s t k (ofBytes data) ∧
        ∀ j, j ≠ k → j.ty ≠ .sessStatus → rdWord t j = rdWord s j := by
  have hplen := hw.turn.length
  refine ⟨writeObjects c [(k, ofBytes data)] s, ?_, ?_⟩
  · simp only [exec_objWrite, execObjWrite, writeAt, toNat_ofNat_length (covered_length_le hcov), hcov, writeAccess_of_plain hp.1, hblk]
    rw [beq_self_eq_true, checked_pass (w := w) (by rw [hplen]; exact hw.turn) (by simp [hplen, hdata])]
    simp [splitData, ← hdata]
  · exact writeObjects_stored hp hw.turn (by decide) hw.fields hw.range hw.state

theorem execObjModify_stored {c : Hdr} {s : State} {w : Waiting} {k : Key} {mask : Nat} (value : Nat) (hp : Safety.Plain k)
    (hsize : sizeOf k ≤ 64) (hfind : findObj (addrOf k) = some k) (hblk : (addrOf k).toNat / 2 ^ 40 = blockOf k)
    (ht : Safety.Turn s c w 0x0203 accConfig (12 + 2 * sizeOf k) (blockOf k)) (hmask : mask < 2 ^ (8 * sizeOf k))
    (hf : fieldsOk k.ty (rdWord s k ||| mask) = true) (hr : rangeOk s k (rdWord s k ||| mask) = true)
    (hs : stateFault s k (rdWord s k ||| mask) = none) :
    Safety.Gives (.objModify c (addrOf k) 1 0 (BitVec.ofNat 32 (sizeOf k)) mask value) s fun t =>
      Safety.Answered [k.ty] s t w (toBytes (sizeOf k) (viewWord t k)) ∧ Safety.Holds s t k (rdWord s k ||| mask) ∧
        ∀ j, j ≠ k → j.ty ≠ .sessStatus → rdWord t j = rdWord s j := by
  have hplen := ht.length
  have hlow : 4 ≤ sizeOf k ∧ sizeOf k % 4 = 0 := ⟨(plain_size _ hp.1).1, (plain_size _ hp.1).2.1⟩
  refine ⟨writeObjects c [(k, rdWord s k ||| mask)] s, ?_, ?_⟩
  · simp only [exec_objModify, execObjModify, toNat_ofNat_length (hsize.trans (by decide)), hfind, Option.map_some, writeAccess_of_plain hp.1, hblk]
    rw [beq_self_eq_true, checked_pass (w := w) (by rw [hplen]; exact ht) (by simp [hplen, hlow, hsize])]
    simp [modified, Nat.mod_eq_of_lt hmask]
  · exact writeObjects_stored hp ht (by decide) hf hr hs

/-- Settles O14: the reads, writes and modifies of one object, each by the theorem on its command. -/
theorem objectCommands : Obligations.ObjectCommands := by
  unfold Obligations.ObjectCommands
  exact ⟨fun _ _ _ _ ht hcov hm hrc => execObjRead_answered ht hcov hm hrc,
    fun _ _ _ _ _ hp hdata hcov hblk hw => execObjWrite_stored hp hdata hcov hblk hw,
    fun _ _ _ _ _ value hp hsize hfind hblk ht hmask hf hr hs =>
      execObjModify_stored value hp hsize hfind hblk ht hmask hf hr hs⟩

end Sys2Proof.Machine
end

section
/-! The die-to-die bridge (R20 to R23): a good flit, a flit with a CRC error, and the retrains of a channel. -/
namespace Sys2Proof.Machine

open Sys2Proof

/-! ## What the bridge's reads depend on -/

/-- The flits of a channel are those that the bridge holds for it. -/
theorem flitsOf_congr {s t : State} (h : t.bridge.chans = s.bridge.chans) (ch : Nat) : flitsOf t ch = flitsOf s ch := by
  simp only [flitsOf, getChan, h]

theorem flitsOf_setChan (s : State) (ch : Nat) (x : Channel) :
    flitsOf (setChan ch x s) ch = x.retry.toList ++ x.ctl ++ x.data := by simp [flitsOf]

/-- The state of a channel stands in the bridge's status object. -/
theorem chanState_congr {s t : State} (h : rdWord t brgKey = rdWord s brgKey) (ch : Nat) : chanState t ch = chanState s ch := by
  simp only [chanState, rd, h]

theorem chanState_wr (s : State) (ch v : Nat) (h : v < 4) : chanState (wr s brgKey (chanFld ch) v) ch = v := by
  have hw : (chanFld ch).w = 2 := by unfold chanFld; split <;> rfl
  simp [chanState, hw, Nat.mod_eq_of_lt h]

@[simp] theorem brgKey_ty : brgKey.ty = .brgStatus := id rfl

/-! ## A good flit -/

/-- A channel has no next flit only when it holds none. -/
theorem flits_of_nextFlit_none {x : Channel} (h : nextFlit x = none) : x.retry.toList ++ x.ctl ++ x.data = [] := by
  obtain ⟨retry, ctl, data⟩ := x
  unfold nextFlit at h
  split at h <;> simp_all

/-- A good flit ends the run of failures, and the first flit of the channel's order leaves it for where flits of its kind wait (R20 to
R22). -/
theorem flitGood_next (ch : Nat) (s t : State) (ht : flitGood ch s = t) :
    tabGet t.bridge.fails ch 0 = 0 ∧ flitsOf t ch = (flitsOf s ch).drop 1 ∧
      t.que.results = s.que.results ++ (match (flitsOf s ch).head? with | some (.result x) => [x] | _ => []) ∧
      t.eng.egressQ = s.eng.egressQ ++ (match (flitsOf s ch).head? with | some (.egress h) => [h] | _ => []) ∧
      t = { s with bridge := { s.bridge with fails := t.bridge.fails, chans := t.bridge.chans },
                   que := { s.que with results := t.que.results }, eng := { s.eng with egressQ := t.eng.egressQ } } := by
  have hsame : getChan { s with bridge := { s.bridge with fails := tabSet s.bridge.fails ch 0 0 } } ch = getChan s ch := rfl
  simp only [flitGood, hsame] at ht
  cases h : nextFlit (getChan s ch) with
  | none =>
    have hnil : flitsOf s ch = [] := flits_of_nextFlit_none h
    have hnone : flitsOf s ch = (flitsOf s ch).drop 1 := by rw [hnil]; rfl
    simp only [h] at ht
    subst ht
    exact ⟨by simp, (flitsOf_congr rfl ch).trans hnone, by simp [hnil], by simp [hnil], rfl⟩
  | some e =>
    obtain ⟨f, x⟩ := e
    have hord : flitsOf s ch = f :: (x.retry.toList ++ x.ctl ++ x.data) := nextFlit_order _ _ _ h
    have hleft (u : State) : flitsOf (setChan ch x u) ch = (flitsOf s ch).drop 1 := by
      rw [hord, flitsOf_setChan, List.drop_one, List.tail_cons]
    simp only [h] at ht
    subst ht
    cases f <;>
      exact ⟨by simp [deliver, setChan], (flitsOf_congr rfl ch).trans (hleft _), by simp [hord, deliver, setChan],
        by simp [hord, deliver, setChan], rfl⟩

/-! ## A flit with a CRC error -/

/-- A flit with a CRC error: its channel keeps it and the run of failures grows. -/
def flitKept (ch : Nat) (s : State) : State :=
  let s := match nextFlit (getChan s ch) with
    | some (f, x) => setChan ch { x with retry := some f } s
    | none => s
  { s with bridge := { s.bridge with fails := tabSet s.bridge.fails ch (tabGet s.bridge.fails ch 0 + 1) 0 } }

/-- The kept flit stays the channel's next, ahead of those behind it; only the bridge has changed (R22). -/
theorem flitKept_parts (ch : Nat) (s t : State) (ht : flitKept ch s = t) :
    flitsOf t ch = flitsOf s ch ∧ tabGet t.bridge.fails ch 0 = tabGet s.bridge.fails ch 0 + 1 ∧
      t = { s with bridge := t.bridge } := by
  cases h : nextFlit (getChan s ch) with
  | none =>
    simp only [flitKept, h] at ht
    subst ht
    exact ⟨rfl, by simp, rfl⟩
  | some e =>
    obtain ⟨f, x⟩ := e
    have hord : flitsOf s ch = f :: (x.retry.toList ++ x.ctl ++ x.data) := nextFlit_order _ _ _ h
    have hx : x.retry = none := nextFlit_again _ _ _ h
    have hkept : flitsOf (setChan ch { x with retry := some f } s) ch = flitsOf s ch := by rw [hord, flitsOf_setChan, hx]; rfl
    simp only [flitKept, h] at ht
    subst ht
    exact ⟨(flitsOf_congr rfl ch).trans hkept, by simp [setChan], rfl⟩

/-- A flit with a CRC error is kept and counted; the eighth failure is told, ends the run and retrains the channel (R22). -/
theorem flitBad_eq (ch : Nat) (s : State) :
    flitBad ch s =
      let u := bump .brgCtr ch 0 1 (flitKept ch s)
      if tabGet s.bridge.fails ch 0 + 1 < 8 then u
      else startRetrain ch (raiseAt 0x78 ch 1 brgKey { u with bridge := { u.bridge with fails := tabSet u.bridge.fails ch 0 0 } }) := by
  unfold flitBad flitKept
  cases h : nextFlit (getChan s ch) <;> rfl

/-- A failure before the eighth: kept and counted, and the channel stays as it is. -/
theorem flitBad_few {ch : Nat} {s : State} (hn : tabGet s.bridge.fails ch 0 < 7) (t : State) (ht : flitBad ch s = t) :
    tabGet t.bridge.fails ch 0 = tabGet s.bridge.fails ch 0 + 1 ∧ flitsOf t ch = flitsOf s ch ∧
      t.que = s.que ∧ t.eng = s.eng ∧ Safety.Counted .brgCtr ch 0 1 s t ∧
      chanState t ch = chanState s ch ∧ Safety.RegsKept (.brgCtr :: Safety.telling) s t := by
  rw [flitBad_eq, if_pos (by omega)] at ht
  obtain ⟨hflits, hfails, hparts⟩ := flitKept_parts ch s _ rfl
  generalize flitKept ch s = u at *
  have hreg (k : Key) : rdWord u k = rdWord s k := by rw [hparts]; exact rdWord_mk s s.fuses k rfl
  have hque : u.que = s.que := by rw [hparts]
  have heng : u.eng = s.eng := by rw [hparts]
  subst ht
  refine ⟨by simp [hfails], (flitsOf_congr (by simp) ch).trans hflits, by simp [hque], by simp [heng],
    counted_from (by decide) (hreg _), chanState_congr (by simp [hreg]) ch, kept_from (kept_bump .brgCtr ch 0 1 u) fun k _ => hreg k⟩

/-! ## Retrains -/

/-- A retrain takes its channel out of service and is counted; it is no longer one to repeat (R22, R23). -/
theorem startRetrain_parts (ch : Nat) (s t : State) (ht : startRetrain ch s = t) :
    chanState t ch = 2 ∧ ch ∉ t.bridge.again ∧ t.bridge.fails = s.bridge.fails ∧ t.bridge.chans = s.bridge.chans ∧
      Safety.Counted .brgCtr (2 + ch) 0 1 s t ∧ Safety.RegsKept (.brgCtr :: .brgStatus :: Safety.telling) s t ∧
      ∀ i, i ≠ 2 + ch → rdWord t (Safety.counter .brgCtr i) = rdWord s (Safety.counter .brgCtr i) := by
  subst ht
  unfold startRetrain
  refine ⟨?_, by simp, by simp, by simp, counted_from (by decide) (by simp), fun k hk => ?_, fun i hi => ?_⟩
  · rw [chanState_congr (rdWord_bump_ty _ _ _ _ _ _ (by decide) (by decide)), chanState_wr _ _ _ (by decide)]
  · simp only [List.mem_cons, not_or] at hk
    obtain ⟨hctr, hstat, htel⟩ := hk
    rw [rdWord_bump_ty _ _ _ _ _ _ hctr htel]
    simp [hstat]
  · rw [rdWord_bump_counter _ _ _ _ _ _ _ (counter_ne _ rfl hi) (by decide)]
    simp

/-- What telling writes, a fault message may write. -/
theorem telling_sub_raising : ∀ ty ∈ Safety.telling, ty ∈ Safety.raising := by decide

/-- The eighth failure of a flit: kept and counted, and its channel retrains (R22). -/
theorem flitBad_eighth {ch : Nat} {s : State} (hn : tabGet s.bridge.fails ch 0 = 7) (t : State) (ht : flitBad ch s = t) :
    tabGet t.bridge.fails ch 0 = 0 ∧ flitsOf t ch = flitsOf s ch ∧ Safety.Counted .brgCtr ch 0 1 s t ∧
      Safety.Counted .brgCtr (2 + ch) 0 1 s t ∧ chanState t ch = 2 ∧
      Safety.RegsKept (.brgCtr :: .brgStatus :: Safety.raising) s t := by
  rw [flitBad_eq, if_neg (by omega)] at ht
  obtain ⟨hflits, -, hparts⟩ := flitKept_parts ch s _ rfl
  generalize flitKept ch s = u at *
  have hreg (k : Key) : rdWord u k = rdWord s k := by rw [hparts]; exact rdWord_mk s s.fuses k rfl
  obtain ⟨v, hv⟩ : ∃ v, v = raiseAt 0x78 ch 1 brgKey { bump .brgCtr ch 0 1 u with
    bridge := { (bump .brgCtr ch 0 1 u).bridge with fails := tabSet (bump .brgCtr ch 0 1 u).bridge.fails ch 0 0 } } := ⟨_, rfl⟩
  have hraised (k : Key) (hk : k.ty ∉ Safety.raising) : rdWord v k = rdWord (bump .brgCtr ch 0 1 u) k := by
    rw [hv]
    exact (kept_raiseAt 0x78 ch 1 brgKey _ k hk).trans (rdWord_mk _ _ k rfl)
  have hbridge : v.bridge = { u.bridge with fails := tabSet u.bridge.fails ch 0 0 } := by
    rw [hv, raiseAt_bridge, bump_bridge]
  rw [← hv] at ht
  clear hv
  obtain ⟨hstate, -, hfails, hchans, hcount, hkept, hother⟩ := startRetrain_parts ch v t ht
  refine ⟨by simp [hfails, hbridge], (flitsOf_congr (by rw [hchans, hbridge]) ch).trans hflits, ?_, ?_, hstate, fun k hk => ?_⟩
  · rw [Safety.Counted, hother ch (by omega), hraised _ (by simp)]
    exact counted_from (by decide) (hreg _)
  · rw [Safety.Counted] at hcount ⊢
    rw [hcount, hraised _ (by simp), rdWord_bump_counter _ _ _ _ _ _ _ (counter_ne _ rfl (by omega)) (by decide), hreg]
  · simp only [List.mem_cons, not_or] at hk
    obtain ⟨hbc, hbs, hr⟩ := hk
    have htel : k.ty ∉ Safety.telling := fun h => hr (telling_sub_raising _ h)
    rw [hkept k (by simp only [List.mem_cons, not_or]; exact ⟨hbc, hbs, htel⟩), hraised k hr,
      rdWord_bump_ty _ _ _ _ _ _ hbc htel, hreg]

/-! ## The three commands -/

theorem exec_flitReceive (ch : Fin 2) (crcOk : Bool) (s : State) :
    exec (.flitReceive ch crcOk) s = execFlitReceive ch crcOk s := by rfl

theorem exec_bridgeRetrainComplete (ch : Fin 2) (ok : Bool) (s : State) :
    exec (.bridgeRetrainComplete ch ok) s = execBridgeRetrainComplete ch ok s := by rfl

theorem exec_bridgeRetrainRetry (ch : Fin 2) (s : State) : exec (.bridgeRetrainRetry ch) s = execBridgeRetrainRetry ch s := by rfl

/-- While its channel is up, a flit is received, good or not. -/
theorem exec_flitReceive_up {ch : Fin 2} {s : State} (h : chanState s ch.val = 1) (crcOk : Bool) :
    exec (.flitReceive ch crcOk) s = .next (if crcOk then flitGood ch.val s else flitBad ch.val s) := by
  simp [exec_flitReceive, execFlitReceive, h]

/-- A retrain ends well. -/
theorem exec_bridgeRetrainComplete_ok {ch : Fin 2} {s : State} (h : chanState s ch.val = 2) (ha : ch.val ∉ s.bridge.again) :
    exec (.bridgeRetrainComplete ch true) s = .next (wr s brgKey (chanFld ch.val) 1) := by
  simp [exec_bridgeRetrainComplete, execBridgeRetrainComplete, h, ha]

/-- A retrain fails: it waits to be repeated, and the failure is told. -/
theorem exec_bridgeRetrainComplete_failed {ch : Fin 2} {s : State} (h : chanState s ch.val = 2) (ha : ch.val ∉ s.bridge.again) :
    exec (.bridgeRetrainComplete ch false) s =
      .next (raiseEach 0x78 ch.val 2 0 brgKey { s with bridge := { s.bridge with again := ch.val :: s.bridge.again } }) := by
  simp [exec_bridgeRetrainComplete, execBridgeRetrainComplete, h, ha]

/-- The message of a failed retrain leaves the channel's state, and that it is to be repeated. -/
theorem raiseEach_retrain {ch : Nat} {s : State} (h : chanState s ch = 2) (t : State)
    (ht : raiseEach 0x78 ch 2 0 brgKey { s with bridge := { s.bridge with again := ch :: s.bridge.again } } = t) :
    ch ∈ t.bridge.again ∧ chanState t ch = 2 ∧ Safety.RegsKept Safety.raising s t := by
  have hkept := ht ▸ kept_raiseEach 0x78 ch 2 0 brgKey { s with bridge := { s.bridge with again := ch :: s.bridge.again } }
  have hagain : ch ∈ t.bridge.again := by simp [← ht]
  exact ⟨hagain, (chanState_congr (hkept brgKey (by decide)) ch).trans h, hkept⟩

/-- Settles O17: each clause by the lemma on what its flit or its retrain does. -/
theorem bridgeRetrains : Obligations.BridgeRetrains := by
  unfold Obligations.BridgeRetrains
  intro ch s
  refine ⟨fun hup => ?_, fun hup hn => ?_, fun hup hn => ?_, fun h ha => ?_, fun h ha => ?_, fun h ha => ?_⟩
  · exact ⟨_, exec_flitReceive_up hup true, flitGood_next ch.val s _ rfl⟩
  · exact ⟨_, exec_flitReceive_up hup false, hup ▸ flitBad_few hn _ rfl⟩
  · exact ⟨_, exec_flitReceive_up hup false, flitBad_eighth hn _ rfl⟩
  · exact ⟨_, exec_bridgeRetrainComplete_ok h ha, chanState_wr _ _ _ (by decide), fun k hk => rdWord_wr_ne _ _ _ hk, rfl⟩
  · exact ⟨_, exec_bridgeRetrainComplete_failed h ha, raiseEach_retrain h _ rfl⟩
  · obtain ⟨hstate, hagain, -, -, hcount, hkept, -⟩ := startRetrain_parts ch.val s _ rfl
    refine ⟨startRetrain ch.val s, ?_, hagain, hstate, hcount, hkept⟩
    simp [exec_bridgeRetrainRetry, execBridgeRetrainRetry, h, ha]

end Sys2Proof.Machine
end

section
/-! Dispatch (R26, R27, R65, R78 to R81): the thread that R78 picks, the pass that starts on it, and what the command leaves. -/
namespace Sys2Proof.Machine

open Sys2Proof

/-! ## The thread that R78 picks -/

/-- What `argMax` answers stands in its list. -/
theorem argMax_mem {f : Nat → Nat} {l : List Nat} {a : Nat} (h : argMax f l = some a) : a ∈ l := by
  cases l with
  | nil => simp [argMax] at h
  | cons b l =>
    have hfold : ∀ (l : List Nat) (c : Nat), l.foldl (fun b x => if f b < f x then x else b) c ∈ c :: l := by
      intro l
      induction l with
      | nil => simp
      | cons x l ih =>
        intro c
        rw [List.foldl_cons]
        split
        · exact List.mem_cons_of_mem _ (ih x)
        · rcases List.mem_cons.mp (ih c) with h | h <;> simp [h]
    exact Option.some.inj h ▸ hfold l b

/-- R78 picks a thread that is IDLE, of a cluster in service. -/
theorem pickThread_idle {s : State} {t : Nat} (h : pickThread s = some t) : getThr s t = none ∧ inService s (t / 512) = true := by
  unfold pickThread at h
  split at h
  · simp at h
  · next cl hcl =>
    split at h
    · simp at h
    · next e he =>
      have hservice : inService s cl = true := by
        have hm := argMax_mem hcl
        simp only [serviceClusters, List.mem_filter] at hm
        exact hm.1.2
      have heng := (List.mem_filter.mp (argMax_mem he)).1
      have hthr := List.mem_of_find?_eq_some h
      simp only [List.mem_range'_1] at heng hthr
      have hcluster : t / 512 = cl := by omega
      exact ⟨by simpa using List.find?_some h, hcluster ▸ hservice⟩

/-! ## The pass that starts -/

/-- The thread of a pass that starts: at its image's entry, with cleared registers and flags but T and L (R79 to R81, R108, R147, R160). -/
def newPass (s : State) (t : Nat) (r : Ref) (egress : Bool) (port no : Nat) (p : Packet) : Thread :=
  let img := (getCl s (t / 512)).image
  { hold := .ready, pc := if egress then entryEg img else entryIn img, g := List.replicate 16 0,
    win := p.content.window.toNat, words := if egress then r.words else List.replicate 8 0,
    z := false, c := false, n := false, m := false, e := false, t := !isArriving s r.pkt,
    l := isArriving s r.pkt || decide (256 < r.len), o := false,
    stack := [], egress := egress, ref := r, outPort := port, started := s.clock,
    bank := rd s (obj .clStatus (t / 512)) ClStatus.BANK, epoch := epochNow s, patBank := activeBank s, look := none,
    outcome := none, meter := none, hash := 0, mirrors := [], cause := 0, no := no }

theorem startPass_eq {s : State} {t : Nat} {r : Ref} {p : Packet} (egress : Bool) (port no : Nat) (ht : pickThread s = some t)
    (hp : getPkt s r.pkt = some p) :
    startPass r egress port no s = noteBusy (t / 512) (setThr t (newPass s t r egress port no p) s) := by
  simp only [startPass, ht, hp, newPass]

/-- The pass that starts holds its thread, and beside it only the log of busy threads has changed. -/
theorem startPass_parts {s : State} {t : Nat} {r : Ref} {p : Packet} (egress : Bool) (port no : Nat) (ht : pickThread s = some t)
    (hp : getPkt s r.pkt = some p) (u : State) (hu : startPass r egress port no s = u) :
    getThr u t = some (newPass s t r egress port no p) ∧
      u = { s with eng := { s.eng with threads := u.eng.threads, busyLog := u.eng.busyLog } } := by
  rw [startPass_eq egress port no ht hp] at hu
  subst hu
  exact ⟨tabGet?_put_self .., rfl⟩

/-- The reference of a received packet names it, and has its length. -/
theorem ingressRef_of {s : State} {n : Nat} {p : Packet} (h : getPkt s n = some p) :
    (ingressRef s n).pkt = n ∧ (ingressRef s n).len = p.len := by simp [ingressRef, h]

/-! ## The command -/

theorem exec_dispatch (src : HeaderSource) (s : State) : exec (.dispatch src) s = execDispatch src s := by rfl

/-- Nothing is dispatched in the safe state, without an IDLE thread, or from the threads that dequeued packets are promised. -/
theorem exec_dispatch_none {s : State} {src : HeaderSource}
    (h : inSafe s = true ∨ pickThread s = none ∨ (src ≠ .egress ∧ idleThreads s ≤ (egressWaits s).length)) :
    exec (.dispatch src) s = .next s := by
  have hstop : (inSafe s || (pickThread s).isNone || (src != .egress && decide (idleThreads s ≤ (egressWaits s).length))) = true := by
    simpa [or_assoc] using h
  rw [exec_dispatch]
  unfold execDispatch
  rw [if_pos hstop]

theorem exec_dispatch_inject {s : State} {n : Nat} {rest : List Nat} (hs : inSafe s = false) (ht : (pickThread s).isSome = true)
    (hw : (egressWaits s).length < idleThreads s) (hq : s.eng.injectQ = n :: rest) :
    exec (.dispatch .inject) s =
      .next (startPass (ingressRef s n) false 0 0 { s with eng := { s.eng with injectQ := rest } }) := by
  have hnone : (pickThread s).isNone = false := by simpa using ht
  simp [exec_dispatch, execDispatch, hs, hnone, hw, hq]

theorem exec_dispatch_port {s : State} {p : Fin 48} {n left : Nat} {rest : List Nat} (hs : inSafe s = false)
    (ht : (pickThread s).isSome = true) (hw : (egressWaits s).length < idleThreads s) (hturn : dispatchTurn s = some (p.val, left))
    (hq : dispOf s p.val = n :: rest) :
    exec (.dispatch (.port p)) s = .next (startPass (ingressRef (setDisp p.val rest s) n) false 0 0
      { setDisp p.val rest s with eng := { (setDisp p.val rest s).eng with rrPort := p.val, rrLeft := left - 1 } }) := by
  have hnone : (pickThread s).isNone = false := by simpa using ht
  simp [exec_dispatch, execDispatch, hs, hnone, hw, hturn, hq]

theorem exec_dispatch_egress {s : State} {h : EgressHdr} {rest : List EgressHdr} (hs : inSafe s = false)
    (ht : (pickThread s).isSome = true) (hq : s.eng.egressQ = h :: rest) :
    exec (.dispatch .egress) s = .next (startPass h.ref true h.port h.no { s with eng := { s.eng with egressQ := rest } }) := by
  have hnone : (pickThread s).isNone = false := by simpa using ht
  simp [exec_dispatch, execDispatch, hs, hnone, hq]

/-- Settles O23: the header of each source by the pass that it starts. -/
theorem dispatchStartsAPass : Obligations.DispatchStartsAPass := by
  unfold Obligations.DispatchStartsAPass
  refine ⟨fun s n rest p hs ht hw hq hp => ?_, fun s p n left rest k hs ht hw hturn hq hk => ?_, fun s h rest p hs ht hq hp => ?_,
    fun s src h => ⟨s, exec_dispatch_none h, rfl⟩⟩
  · obtain ⟨t, hpick⟩ := Option.isSome_iff_exists.mp ht
    obtain ⟨hidle, hservice⟩ := pickThread_idle hpick
    obtain ⟨hpkt, hlen⟩ := ingressRef_of hp
    refine ⟨_, exec_dispatch_inject hs ht hw hq, ?_⟩
    obtain ⟨hthr, hparts⟩ := startPass_parts (s := { s with eng := { s.eng with injectQ := rest } }) (r := ingressRef s n) false 0 0
      hpick (hpkt.symm ▸ hp) _ rfl
    generalize startPass (ingressRef s n) false 0 0 { s with eng := { s.eng with injectQ := rest } } = u at hthr hparts
    refine ⟨by rw [hparts], t, _, hpick, hidle, hservice, hthr, rfl, rfl, rfl, rfl, ?_, ?_, rfl, rfl, hpkt, hparts⟩
    · rw [← hpkt]; rfl
    · rw [← hlen, ← hpkt]; rfl
  · obtain ⟨t, hpick⟩ := Option.isSome_iff_exists.mp ht
    refine ⟨_, exec_dispatch_port hs ht hw hturn hq, ?_⟩
    obtain ⟨hpkt, -⟩ := ingressRef_of (s := setDisp p.val rest s) hk
    obtain ⟨hthr, hparts⟩ := startPass_parts
      (s := { setDisp p.val rest s with eng := { (setDisp p.val rest s).eng with rrPort := p.val, rrLeft := left - 1 } })
      (r := ingressRef (setDisp p.val rest s) n) false 0 0 hpick (hpkt.symm ▸ hk) _ rfl
    generalize startPass (ingressRef (setDisp p.val rest s) n) false 0 0 _ = u at hthr hparts
    refine ⟨?_, by rw [hparts], by rw [hparts], t, _, hpick, hthr, hpkt, rfl⟩
    rw [hparts]
    exact tabGet_set_self ..
  · obtain ⟨t, hpick⟩ := Option.isSome_iff_exists.mp ht
    refine ⟨_, exec_dispatch_egress hs ht hq, ?_⟩
    obtain ⟨hthr, hparts⟩ := startPass_parts (s := { s with eng := { s.eng with egressQ := rest } }) (r := h.ref) true h.port h.no
      hpick hp _ rfl
    generalize startPass h.ref true h.port h.no { s with eng := { s.eng with egressQ := rest } } = u at hthr hparts
    exact ⟨by rw [hparts], t, _, hpick, hthr, rfl, rfl, rfl, rfl, rfl⟩

end Sys2Proof.Machine
end

section
/-! Received frames (R182, R236): a frame with a SecTAG on a port without MACsec. -/
namespace Sys2Proof.Machine

open Sys2Proof

/-- Line port 2 of a device after reset, in an Ethernet mode and up, without MACsec. -/
def plainPort : State :=
  wr (wr { State.reset with line := { State.reset.line with cond := [2] } } (lpK 2) LpCtl.MODE 3) (lpS 2) LpStatus.LINK lkUp

/-- A good 64 B frame that carries a MAC control frame, not PFC, behind a SecTAG: as it arrives, its EtherType is 0x88E5. -/
def taggedControl : LineFrame :=
  { len := 64, bad64 := false, fecBad := false, pcsBad := false, fcsOk := true, bufBad := false, fecWords := 0, fecSyms := 0, ring := [],
    da := 1, sa := 2,
    sec := some { v := false, es := false, sc := false, e := true, c := true, slOk := true, fits := true, an := 0, pn := 1, sci := 0,
                  icvOk := true, window := 0x88E5 * 2 ^ 1936 },
    content := { etherType := 0x8808, opcode := 1, pfcEn := 0, quanta := [], tag := none, toPtp := false,
                 window := 0x8808 * 2 ^ 1936 + 2 ^ 1920 } }

/-- Counter 5 of line port 2, the MAC control frames of R205, after a command. -/
def controlFramesAfter (c : Instr) (s : State) : Option Nat :=
  match exec c s with
  | .next t => some (rdWord t (Safety.counter .lpCtr 2 5))
  | _ => none

theorem controlFramesAfter_next {c : Instr} {s t : State} (h : exec c s = .next t) :
    controlFramesAfter c s = some (rdWord t (Safety.counter .lpCtr 2 5)) := by
  simp only [controlFramesAfter, h]

/-- Without MACsec the port takes the frame as it arrived, for row 7 of R182: no MAC control frame is counted (R236). -/
theorem taggedControl_uncounted : controlFramesAfter (.frameReceive 2 .whole taggedControl) plainPort = some 0 := by decide +kernel

/-- Refutes O35: its clauses on a port without MACsec sort a frame by its content, which is what it holds once a SecTAG is removed. But with
EN 0 MSEC passes every frame unchanged (R236): a MAC control frame behind a SecTAG arrives with EtherType 0x88E5, and is not counted as
the clause on MAC control frames says. -/
theorem not_framesReceivedAndSent : ¬ Obligations.FramesReceivedAndSent := by
  unfold Obligations.FramesReceivedAndSent
  rintro ⟨hreceive, -⟩
  obtain ⟨-, -, hcontrol, -⟩ := hreceive 2 taggedControl plainPort (by decide +kernel) (by decide +kernel) (by decide +kernel)
    (by decide +kernel) (by decide +kernel)
  obtain ⟨t, ht, -, hcount, -⟩ := hcontrol rfl (by decide) rfl (by decide +kernel) (by decide +kernel) rfl (by decide)
  have hafter := controlFramesAfter_next ht
  rw [taggedControl_uncounted] at hafter
  have hbefore : rdWord plainPort (Safety.counter .lpCtr 2 5) = 0 := by decide +kernel
  have hone : rdWord t (Safety.counter .lpCtr 2 5) = (rdWord plainPort (Safety.counter .lpCtr 2 5) + 1) % 2 ^ 64 := hcount
  simp [hone, hbefore] at hafter

end Sys2Proof.Machine
end

section
/-! Where every operation leads: the fuses and the queue of waiting commands stay, time and what was sent only grow, and the stores keep
their canonical forms. -/
namespace Sys2Proof.Machine

open Sys2Proof

/-! ## The stacks of the memory -/

theorem mem_of_tabGet? {β : Type} {t : Tab β} {k : Nat} {v : β} (h : tabGet? t k = some v) : (k, v) ∈ t := by
  induction t with
  | nil => cases h
  | cons e r ih =>
    obtain ⟨j, w⟩ := e
    simp only [tabGet?] at h
    split at h
    · next hj =>
      subst hj
      cases h
      exact List.mem_cons_self
    · exact List.mem_cons_of_mem _ (ih h)

/-- The bytes of every stack are in their canonical form, those of one that is not listed too. -/
theorem getStack_wf {s : State} (h : Safety.MemoryOk s) (st : Nat) : Memory.wf (getStack s st).mem := by
  unfold getStack tabGet
  cases hg : tabGet? s.hbm st with
  | none => exact ⟨List.Pairwise.nil, by simp [Stack.idle]⟩
  | some x => exact h _ (mem_of_tabGet? hg)

theorem memoryOk_setStack {s : State} {st : Nat} {x : Stack} (h : Safety.MemoryOk s) (hx : Memory.wf x.mem) :
    Safety.MemoryOk (setStack st x s) := fun e he => by
  rcases tabPut_mem _ _ _ _ he with rfl | he
  · exact hx
  · exact h e he

/-! ## The relation -/

/-- A state that operations lead to from another. -/
structure Onward (a s : State) : Prop where
  fuses   : s.fuses = a.fuses
  pending : s.pending = a.pending
  clock   : a.clock ≤ s.clock
  out     : ∃ l, s.out = l ++ a.out
  regs    : Safety.RegsSorted a → Safety.RegsSorted s
  memory  : Safety.MemoryOk a → Safety.MemoryOk s

/-- A command answers a next state, and leads onward. -/
def Goes (a : State) (o : Answer) : Prop := ∃ t, o = .next t ∧ Onward a t

namespace Onward

theorem refl (a : State) : Onward a a := ⟨rfl, rfl, Nat.le_refl _, ⟨[], rfl⟩, id, id⟩

variable {a s t : State}

/-- An update of other parts. -/
theorem parts (h : Onward a s) {ct cmd bridge flt cnt eng tbl pat line tfu msec buf que fab time pair upd pwr free} :
    Onward a (State.mk s.regs s.fuses s.clock ct cmd bridge flt cnt eng tbl pat line tfu msec buf que fab s.hbm time pair upd pwr s.out
      free s.pending) :=
  ⟨h.fuses, h.pending, h.clock, h.out, h.regs, h.memory⟩

/-- An update that leaves the register store in its canonical form. -/
theorem ofRegs {r : Tab Nat} (h : Onward a s) (hr : tabSorted s.regs = true → tabSorted r = true) : Onward a { s with regs := r } :=
  ⟨h.fuses, h.pending, h.clock, h.out, fun ha => hr (h.regs ha), h.memory⟩

theorem wrWord {k : Key} {v : Nat} (h : Onward a s) : Onward a (wrWord s k v) := h.ofRegs (wrWord_sorted s k v)

/-- Registers that are not listed any more read as after reset. -/
theorem filterRegs {p : Nat × Nat → Bool} (h : Onward a s) {ct cmd bridge flt cnt eng tbl pat line tfu msec buf que fab time pair upd pwr
    free} :
    Onward a (State.mk (s.regs.filter p) s.fuses s.clock ct cmd bridge flt cnt eng tbl pat line tfu msec buf que fab s.hbm time pair upd
      pwr s.out free s.pending) :=
  (h.ofRegs (tabFilter_sorted s.regs p)).parts

theorem emit {o : Out} (h : Onward a s) : Onward a (emit s o) :=
  ⟨h.fuses, h.pending, h.clock, h.out.imp' (o :: ·) fun _ e => congrArg (o :: ·) e, h.regs, h.memory⟩

/-- A stack whose bytes, when they were in their canonical form, still are. -/
theorem setStackOf {st : Nat} {x : Stack} (h : Onward a s) (hx : Memory.wf (getStack s st).mem → Memory.wf x.mem) :
    Onward a (setStack st x s) :=
  ⟨h.fuses, h.pending, h.clock, h.out, h.regs, fun ha => memoryOk_setStack (h.memory ha) (hx (getStack_wf (h.memory ha) st))⟩

theorem setStack {st : Nat} {x : Stack} (h : Onward a s) (hx : x.mem = (getStack s st).mem) : Onward a (setStack st x s) :=
  h.setStackOf fun hw => hx ▸ hw

/-! ## Choices and lists -/

theorem ite {c : Prop} [Decidable c] (hs : Onward a s) (ht : Onward a t) : Onward a (if c then s else t) := by
  split <;> assumption

/-- What is done under a condition. -/
theorem ifThen {c : Prop} [Decidable c] (hs : Onward a s) (ht : Onward a s → Onward a t) : Onward a (if c then t else s) :=
  .ite (ht hs) hs

/-- What is done unless a condition holds. -/
theorem ifElse {c : Prop} [Decidable c] (hs : Onward a s) (ht : Onward a s → Onward a t) : Onward a (if c then s else t) :=
  .ite hs (ht hs)

theorem iteFst {α : Type} {c : Prop} [Decidable c] {p q : State × α} (hp : Onward a p.1) (hq : Onward a q.1) :
    Onward a (if c then p else q).1 := by split <;> assumption

theorem iteSnd {α : Type} {c : Prop} [Decidable c] {p q : α × State} (hp : Onward a p.2) (hq : Onward a q.2) :
    Onward a (if c then p else q).2 := by split <;> assumption

/-- The state of a pair that was taken apart. -/
theorem ofFst {α : Type} {p : State × α} {x : α} (e : p = (t, x)) (h : Onward a p.1) : Onward a t := by subst e; exact h
theorem ofSnd {α : Type} {p : α × State} {x : α} (e : p = (x, t)) (h : Onward a p.2) : Onward a t := by subst e; exact h

theorem snd {α : Type} {x : α} (h : Onward a s) : Onward a (x, s).2 := h

/-- A stack that is put back with the bytes it had before other parts were updated. -/
theorem setStackFrom {st : Nat} {x : Stack} (ht : Onward a t) (h : Onward a s) (hx : x.mem = (getStack t st).mem) :
    Onward a (Machine.setStack st x s) :=
  ⟨h.fuses, h.pending, h.clock, h.out, h.regs, fun ha => memoryOk_setStack (h.memory ha) (hx ▸ getStack_wf (ht.memory ha) st)⟩

/-- An update of other parts of a stack. -/
theorem stackParts {st : Nat} (h : Onward a s) {reqs nextId banks postponed agedAt retrains slices retry failedAt ces backs windowAt
    scrub scrubAt} :
    Onward a (Machine.setStack st (Stack.mk reqs nextId banks postponed agedAt retrains slices retry failedAt ces backs windowAt scrub
      scrubAt (getStack s st).mem) s) :=
  h.setStackOf id

/-- An update of other parts of a stack, with bytes stored. -/
theorem storeLine {st ad : Nat} {bs : Bytes} (h : Onward a s) {reqs nextId banks postponed agedAt retrains slices retry failedAt ces
    backs windowAt scrub scrubAt} :
    Onward a (Machine.setStack st (Stack.mk reqs nextId banks postponed agedAt retrains slices retry failedAt ces backs windowAt scrub
      scrubAt (memStore (getStack s st).mem ad bs)) s) :=
  h.setStackOf (memStore_wf _ _ _)

theorem forAll {α : Type} {l : List α} {f : α → State → State} (h : Onward a s) (hf : ∀ x s, Onward a s → Onward a (f x s)) :
    Onward a (forAll l f s) :=
  forAll_keeps l f (Onward a) hf s h

end Onward

theorem Goes.next {a t : State} (h : Onward a t) : Goes a (.next t) := ⟨t, rfl, h⟩

end Sys2Proof.Machine
end

section
/-! Each function of the model that answers a state leads onward, and each command but a completed fuse write goes on, in the order in which
the model defines them. -/
namespace Sys2Proof.Machine

open Sys2Proof

variable {a s t : State}

/-! ## Machine/Ops -/

theorem Onward.wr {k : Key} {f : Fld} {v : Nat} (h : Onward a s) : Onward a (wr s k f v) := .wrWord h

theorem Onward.mapF {k : Key} {f : Fld} {g : Nat → Nat} (h : Onward a s) : Onward a (mapF s k f g) := .wr h

theorem Onward.satF {k : Key} {f : Fld} (h : Onward a s) : Onward a (satF s k f) := .mapF h

theorem Onward.drawEntropy (h : Onward a s) : Onward a (drawEntropy s).2 := .parts h

theorem Onward.drawChoice (h : Onward a s) : Onward a (drawChoice s).2 := .parts h

theorem Onward.drawHint (h : Onward a s) : Onward a (drawHint s).2 := .parts h

theorem Onward.emits {os : List Out} (h : Onward a s) : Onward a (emits s os) := by
  unfold Machine.emits
  induction os generalizing s with
  | nil => exact h
  | cons o os ih => exact ih (.emit h)

theorem Onward.setChan {ch : Nat} {x : Channel} (h : Onward a s) : Onward a (setChan ch x s) := .parts h

theorem Onward.sendCtl {ch : Nat} {f : Flit} (h : Onward a s) : Onward a (sendCtl ch f s) := .setChan h

theorem Onward.sendData {ch : Nat} {f : Flit} (h : Onward a s) : Onward a (sendData ch f s) := .setChan h

/-! ## Machine/Counters -/

theorem Onward.setSess {n : Nat} {x : Sess} (h : Onward a s) : Onward a (setSess s n x) := .parts h

theorem Onward.sendPunt {n : Nat} {x : Punt} (h : Onward a s) : Onward a (sendPunt n x s) := .setSess (.emit h)

theorem Onward.puntsBefore {p : MgmtPort} (h : Onward a s) : Onward a (puntsBefore p s) := by
  unfold Machine.puntsBefore
  split
  · exact .ite h (.forAll (.parts h) (fun _ _ h => .sendPunt h))
  · exact h

theorem Onward.sendEvents {n : Nat} (h : Onward a s) : Onward a (sendEvents n s) := .ite h (.wr (.setSess (.emit (.puntsBefore h))))

theorem Onward.countQuiet {k : Key} (h : Onward a s) : Onward a (countQuiet k s) := by
  unfold Machine.countQuiet
  split
  · exact .forAll (.wrWord h) (fun _ _ h => .ite (.wrWord h) h)

theorem Onward.pushRecord {n : Nat} {r : TelRec} (h : Onward a s) : Onward a (pushRecord n r s) :=
  .ite (.countQuiet (.countQuiet (.setSess (.ite (.sendEvents h) h)))) (.ifThen (.setSess (.ite (.sendEvents h) h)) (fun h =>
    .sendEvents h))

theorem Onward.publish {bit : Nat} {r : TelRec} (h : Onward a s) : Onward a (publish bit r s) := .forAll h (fun _ _ h => .pushRecord h)

theorem Onward.stateEvent {k : Key} (h : Onward a s) : Onward a (stateEvent k s) := .publish h

theorem Onward.overflowSample {p count : Nat} {ctx : ObjAddr} (h : Onward a s) : Onward a (overflowSample p count ctx s) := by
  unfold Machine.overflowSample
  dsimp only
  split
  · exact .ite (.countQuiet (.parts h)) (.publish (.countQuiet (.parts h)))
  · exact .publish (.countQuiet (.parts h))

theorem Onward.perfAdd {p n : Nat} {ctx : ObjAddr} (h : Onward a s) : Onward a (perfAdd p n ctx s) :=
  .ifElse (.wrWord h) (fun h => .overflowSample h)

theorem Onward.bumpBy {k : Key} {n : Nat} {ctx : ObjAddr} (h : Onward a s) : Onward a (bumpBy k n ctx s) := by
  unfold Machine.bumpBy
  split
  · exact .forAll (.wrWord h) (fun _ _ h => .ite (.perfAdd h) h)

theorem Onward.bump {ty : ObjTy} {j1 j2 n : Nat} (h : Onward a s) : Onward a (bump ty j1 j2 n s) := .bumpBy h

theorem Onward.runTime {n : Nat} (h : Onward a s) : Onward a (runTime n s) :=
  ⟨h.fuses, h.pending, h.clock.trans (Nat.le_add_right _ _), h.out, h.regs, h.memory⟩

theorem Onward.advance {n : Nat} (h : Onward a s) : Onward a (advance n s) := .forAll (.runTime h) (fun _ _ h => .perfAdd h)

theorem Onward.reach {tm : Nat} (h : Onward a s) : Onward a (reach tm s) := .ite h (.advance h)

theorem Onward.due {tm : Nat} (h : Onward a s) : Onward a (due tm s) := .ite (.advance h) h

theorem Onward.reachIvl {tm : Nat} (h : Onward a s) : Onward a (reachIvl tm s) := .reach h

/-! ## Machine/Links -/

theorem Onward.setFl {k : Nat} {x : Fl} (h : Onward a s) : Onward a (setFl s k x) := .parts h

theorem Onward.floodRecord {r : LinkRecord} {but : Option Nat} (h : Onward a s) : Onward a (floodRecord r but s) :=
  .forAll h (fun _ _ h => .emit h)

theorem Onward.holdRecord {r : LinkRecord} (h : Onward a s) : Onward a (holdRecord s r) := .parts h

theorem Onward.genRecord (h : Onward a s) : Onward a (genRecord s) := .ite (.floodRecord (.holdRecord (.parts h))) h

theorem Onward.rebuildRoutes (h : Onward a s) : Onward a (rebuildRoutes s) := by
  unfold Machine.rebuildRoutes
  exact .bump (.parts (.forAll (.filterRegs h) (fun _ _ h => .wrWord h)))

theorem Onward.maskOut {k : Nat} (h : Onward a s) : Onward a (maskOut k s) := .forAll h (fun _ _ h => .mapF (.mapF h))

theorem Onward.returnCredits {k : Nat} (h : Onward a s) : Onward a (returnCredits k s) :=
  .ite (.forAll (.setFl h) (fun _ _ h => .emit h)) h

theorem Onward.freeSlot {k vc : Nat} (h : Onward a s) : Onward a (freeSlot k vc s) := .returnCredits (.setFl h)

theorem Onward.leaveSlot {slot : Option (Nat × Nat × Nat)} (h : Onward a s) : Onward a (leaveSlot slot s) := by
  unfold Machine.leaveSlot
  split
  · exact h
  · exact .ite h (.freeSlot h)

theorem Onward.queueCell {k : Nat} {c : FabCell} (h : Onward a s) : Onward a (queueCell k c s) := .setFl h

theorem Onward.routeCell {c : FabCell} (h : Onward a s) : Onward a (routeCell c s) := by
  unfold Machine.routeCell
  split
  · exact .leaveSlot (.bump h)
  · exact .ifThen (.queueCell (.parts h)) (fun h => .bump h)

theorem Onward.chooseAgain {k : Nat} {c : FabCell} (h : Onward a s) : Onward a (chooseAgain k c s) := by
  unfold Machine.chooseAgain
  dsimp only
  refine .ite ?_ (.routeCell h)
  split
  · exact .queueCell h
  · exact .leaveSlot (.bump h)

theorem Onward.enterLink {k st cause : Nat} (h : Onward a s) : Onward a (enterLink k st cause s) :=
  .ite h (.ifElse (.ifThen (.ifThen (.ifThen (.ifThen (.wr (.setFl (.wr (.wr h)))) (fun h => .wr (.wr h))) (fun h => .bump h)) (fun h =>
    .forAll (.maskOut h) (fun _ _ h => .chooseAgain h))) (fun h => .genRecord (.parts h))) (fun h => .stateEvent h))

/-! ## Machine/Report -/

theorem Onward.queueMessage {m : FaultMsg} (h : Onward a s) : Onward a (queueMessage m s) := .ite (.parts h) (.bump (.parts h))

theorem Onward.noteCore {blk : Nat} (h : Onward a s) : Onward a (noteCore blk s) := .ite (.parts h) h

theorem Onward.report {r : Report} (h : Onward a s) : Onward a (report r s).1 := by
  unfold Machine.report
  dsimp only
  split
  · exact .queueMessage (.noteCore h)
  · exact .iteFst (.queueMessage (.noteCore h)) (.iteFst (.queueMessage (.wr (.parts (.noteCore h)))) (.iteFst (.parts (.ifThen
        (.queueMessage (.wr (.parts (.noteCore h)))) (fun h => .wr h))) (.ifThen (.queueMessage (.wr (.parts (.noteCore h)))) (fun h =>
        .wr h))))

theorem Onward.yokeSend {y : Nat} {load : YokeLoad} (h : Onward a s) : Onward a (yokeSend y load s) := .parts (.emit h)

theorem Onward.setRole {role : Nat} (h : Onward a s) : Onward a (setRole role s) := .ifElse (.parts (.wr h)) (fun h => .stateEvent h)

theorem Onward.atMost {blk inst kind sub d : Nat} {f : State → State} (h : Onward a s) (hf : ∀ s, Onward a s → Onward a (f s)) :
    Onward a (atMost blk inst kind sub d f s) := by
  unfold Machine.atMost
  dsimp only
  split
  · exact .ite h (hf _ (.parts h))
  · exact hf _ (.parts h)

/-! ## Machine/Originate -/

theorem Onward.countSent {p len : Nat} (h : Onward a s) : Onward a (countSent p len s) := .bump (.bump h)

theorem Onward.emitLine {p n : Nat} {o : Nat → Out} (h : Onward a s) : Onward a (emitLine p n o s) :=
  .ite (.forAll h (fun _ _ h => .ite h (.emit (.emit h)))) (.emit h)

theorem Onward.setTx {p : Nat} {l : List TxFrame} (h : Onward a s) : Onward a (setTx p l s) := .parts h

theorem Onward.originate {p : Nat} {kind : Pdu} {args : List Nat} {len : Nat} (h : Onward a s) : Onward a (originate p kind args len s) :=
  .ite h (.ite (.setTx h) (.ite (.countSent (.emitLine h)) (.emit h)))

/-! ## Machine/Servo -/

theorem Onward.setPt {p : Nat} {x : PortTime} (h : Onward a s) : Onward a (setPt p x s) := .parts h

theorem Onward.corrWritten {p old : Nat} (h : Onward a s) : Onward a (corrWritten p old s) := .setPt h

theorem Onward.setLt {k : Nat} {x : LinkTime} (h : Onward a s) : Onward a (setLt k x s) := .parts h

theorem Onward.toAcquire (h : Onward a s) : Onward a (toAcquire s) := .wr (.parts (.ite (.wr h) h))

theorem Onward.toFree (h : Onward a s) : Onward a (toFree s) := .wr (.parts (.wr h))

theorem Onward.toHold {forced : Bool} (h : Onward a s) : Onward a (toHold forced s) := by
  unfold Machine.toHold
  exact .bump (.wr (.parts h))

theorem Onward.moveServo {has : Bool} (h : Onward a s) : Onward a (moveServo has s).1 :=
  .iteFst (.ite (.toAcquire h) h) (.iteFst (.toFree h) (.iteFst (.report (.ite (.toHold h) (.toFree h))) h))

theorem Onward.updateSource (h : Onward a s) : Onward a (updateSource s).1 := .moveServo (.wr (.wr h))

theorem Onward.updateRoot (h : Onward a s) : Onward a (updateRoot s) := by
  unfold Machine.updateRoot
  dsimp only
  generalize hp : (following s).map Prod.fst = parent
  generalize hw : (if rd s tmS TmStatus.FT_STATE = 2 then some (rd s tmS TmStatus.FT_PARENT) else none) = was
  cases parent <;> cases was
  · exact .ifThen (.wr (.wr (.wr (.wr h)))) fun h => .bump h
  · exact .ifThen (.ifElse (.wr (.wr (.wr (.wr h)))) fun h => .wr h) fun h => .bump h
  · exact .ifThen (.ifThen (.wr (.wr (.wr (.wr (.wr h))))) fun h => .bump h) fun h => .toAcquire h
  · exact .ifThen (.ifThen (.wr (.ifElse (.wr (.wr (.wr (.wr h)))) fun h => .wr h)) fun h => .bump h) fun h => .toAcquire h

theorem Onward.updateQuality (h : Onward a s) : Onward a (updateQuality s) := by
  unfold Machine.updateQuality
  split
  · exact .wr (.wr (.wr (.parts h)))
  · exact .ite (.wr (.wr (.wr (.parts h)))) (.ite (.wr (.wr (.wr h))) (.wr (.wr (.wr h))))

theorem Onward.sendEsmc {event : Bool} {p : Nat} (h : Onward a s) : Onward a (sendEsmc event p s) := .ite (.originate h) h

theorem Onward.updateRef (h : Onward a s) : Onward a (updateRef s) :=
  .ifElse (.ifThen (.ifThen (.parts h) (fun h => .bump h)) (fun h => .wr h)) (fun h => .forAll (.parts h) (fun _ _ h => .sendEsmc h))

theorem Onward.updateTime (h : Onward a s) : Onward a (updateTime s).1 := by
  unfold Machine.updateTime
  split
  next e => exact .updateRef (.updateQuality (.ofFst e (.updateSource (.updateRoot h))))

theorem Onward.measure {off : Int} {fabric : Bool} (h : Onward a s) : Onward a (measure off fabric s) :=
  .ite (.ite (.ifElse (.wr h) (fun h => .bump (.parts h))) (.ite (.parts (.wr h)) (.ite (.wr (.parts (.wr h))) (.parts (.wr h)))))
    (.ifThen (.wr h) (fun h => .ite (.ite (.toAcquire h) (.parts h)) (.parts h)))

/-! ## Machine/Raise -/

theorem Onward.enterSafe (h : Onward a s) : Onward a (enterSafe s) := by
  unfold Machine.enterSafe
  exact .bump (.updateTime (.parts (.ifThen (.forAll (.parts (.forAll (.forAll (.parts (.wr (.wr h))) (fun _ _ h => .emit h))
      (fun _ _ h => .emit h))) (fun _ _ h => .ifElse (.enterLink h) (fun h => .atMost h (fun _ h => .report h)))) (fun h => .setRole
      (.wr (.yokeSend (.yokeSend h)))))))

theorem Onward.raiseA {r : Report} (h : Onward a s) : Onward a (raiseA r s).1 := .iteFst (.enterSafe (.report h)) (.report h)

theorem Onward.timeChanged (h : Onward a s) : Onward a (timeChanged s) := by
  unfold Machine.timeChanged
  split
  next e => exact .ifThen (.ofFst e (.updateTime h)) fun h => .enterSafe h

theorem Onward.raise {r : Report} (h : Onward a s) : Onward a (raise r s) := .raiseA h

theorem Onward.raiseAt {blk inst kind : Nat} {k : Key} (h : Onward a s) : Onward a (raiseAt blk inst kind k s) := .raise h

theorem Onward.raiseEach {blk inst kind sub : Nat} {k : Key} (h : Onward a s) : Onward a (raiseEach blk inst kind sub k s) :=
  .atMost h (fun _ h => .raiseAt h)

theorem Onward.moveLink {k st cause : Nat} (h : Onward a s) : Onward a (moveLink k st cause s) :=
  .ifThen (.ifThen (.enterLink h) (fun h => .timeChanged (.ifElse h (fun h => .setLt h)))) (fun h => .raiseEach h)

/-! ## Machine/Reset -/

/-- Clearing drops registers, and drops the bytes of every stack or of none. -/
theorem Onward.clearBlocks {blks : List Nat} (h : Onward a s) : Onward a (clearBlocks blks s) where
  fuses := h.fuses
  pending := h.pending
  clock := h.clock
  out := h.out
  regs ha := tabFilter_sorted s.regs _ (h.regs ha)
  memory ha e he := by
    unfold Machine.clearBlocks at he
    dsimp only at he
    split at he
    · cases he
    · exact h.memory ha e he

theorem Onward.beginSequence {steps : List Nat} {skip : Bool} {hdr : Option Hdr} (h : Onward a s) :
    Onward a (beginSequence steps skip hdr s) :=
  .parts (.wr (.wr (.wr h)))

theorem Onward.noteReset {cause : Nat} (h : Onward a s) : Onward a (noteReset cause s) := .satF (.wr (.wr h))

theorem Onward.clearPower (h : Onward a s) : Onward a (clearPower s) := .parts h

theorem Onward.fullReset {cause : Nat} {skip : Bool} (h : Onward a s) : Onward a (fullReset cause skip s) :=
  .beginSequence (.clearPower (.clearBlocks (.noteReset h)))

theorem Onward.powerOnReset (h : Onward a s) : Onward a (powerOnReset s) := .beginSequence (.wrWord (.clearPower (.clearBlocks h)))

theorem Onward.mainReset (h : Onward a s) : Onward a (mainReset s) :=
  .parts (.beginSequence (.wr (.wr (.wr (.wr (.wr (.wr (.parts (.clearBlocks (.noteReset h))))))))))

/-! ## Machine/Host -/

theorem Onward.endLease (h : Onward a s) : Onward a (endLease s) := .ifElse (.wr (.wr (.wr (.parts h)))) (fun h => .wr h)

theorem Onward.closeSess {n : Nat} (h : Onward a s) : Onward a (closeSess n s) :=
  .ifThen (.parts (.wrWord (.setSess h))) (fun h => .endLease h)

theorem Onward.afterReply {n : Nat} {b : AfterReply} (h : Onward a s) : Onward a (afterReply n b s) := by
  unfold Machine.afterReply
  split
  · exact h
  · exact .closeSess h
  · exact .forAll h (fun _ _ h => .closeSess h)
  · exact .fullReset h
  · exact .fullReset h

theorem Onward.emitReply {n : Nat} {p : MgmtPort} {mac : BitVec 48} {op st seq : Nat} {addr : ObjAddr} {hint : Nat} {result : Bytes}
    (h : Onward a s) :
    Onward a (emitReply n p mac op st seq addr hint result s) :=
  .ifElse (.puntsBefore h) (fun h => .wr (.emit h))

theorem Onward.sendReply {w : Waiting} {st : Nat} {addr : ObjAddr} {hint : Nat} {result : Bytes} (h : Onward a s) :
    Onward a (sendReply w st addr hint result s) :=
  .ifThen (.ifThen (.emitReply h) (fun h => .mapF h)) (fun h => .setSess h)

theorem Onward.flushReplies {fuel n : Nat} (h : Onward a s) : Onward a (flushReplies fuel n s) := by
  induction fuel generalizing s with
  | zero => exact h
  | succ fuel ih =>
    unfold Machine.flushReplies
    split
    · exact h
    · split
      · exact ih (.afterReply (.sendReply (.parts h)))
      · exact h

theorem Onward.flush {n : Nat} (h : Onward a s) : Onward a (flush n s) := .flushReplies h

theorem Onward.setPhase {c : Hdr} {ph : Phase} (h : Onward a s) : Onward a (setPhase c ph s) := .parts h

theorem Onward.finish {c : Hdr} {st : Nat} {addr : ObjAddr} {hint : Nat} {result : Bytes} {after : AfterReply} (h : Onward a s) :
    Onward a (finish c st addr hint result after s) :=
  .flush (.setPhase h)

theorem Onward.defer {c : Hdr} {blk : Nat} (h : Onward a s) : Onward a (defer c blk s) := .setPhase h

theorem Onward.ok {c : Hdr} {result : Bytes} (h : Onward a s) : Onward a (ok c result s) := .finish h

theorem Onward.done {c : Hdr} (h : Onward a s) : Onward a (done c s) := .finish h

theorem Onward.refuseWith {c : Hdr} {st : Nat} {addr : ObjAddr} {result : Bytes} (h : Onward a s) :
    Onward a (refuseWith c st addr result s) :=
  .ite (.finish (.drawHint h)) (.ite (.finish (.raise h)) (.finish h))

theorem Onward.refuse {c : Hdr} {st : Nat} {addr : ObjAddr} (h : Onward a s) : Onward a (refuse c st addr s) := .refuseWith h

theorem Onward.busyFor {c : Hdr} {hint : Nat} (h : Onward a s) : Onward a (busyFor c hint s) := .finish h

theorem Onward.storeObj {k : Key} {new : Nat} (h : Onward a s) : Onward a (storeObj k new s) := .wrWord h

theorem Onward.replyWith {c : Hdr} {k : Key} {v : Nat} (h : Onward a s) : Onward a (replyWith c k v s) := by
  unfold Machine.replyWith
  split
  · exact .ite (.ok h) (.done h)
  · exact h

theorem Onward.onTurn {c : Hdr} {op : Nat} {f : Waiting → State → State} (h : Onward a s) (hf : ∀ x s, Onward a s → Onward a (f x s)) :
    Onward a (onTurn c op f s) := by
  unfold Machine.onTurn
  split
  · exact .ite (hf _ _ h) h
  · exact h

theorem Onward.checked {c : Hdr} {op acc : Nat} {lenOk : Nat → Bool} {resOk : Bool} {blk : Nat} {addr : ObjAddr} {f : State → State}
    (h : Onward a s) (hf : ∀ s, Onward a s → Onward a (f s)) :
    Onward a (checked c op acc lenOk resOk blk addr f s) := by
  unfold Machine.checked
  refine .onTurn h (fun _ _ h => ?_)
  split
  · exact .refuse h
  · exact .ite h (hf _ h)

theorem Onward.need {c : Hdr} {cond : Bool} {st : Nat} {addr : ObjAddr} {f : State → State} (h : Onward a s)
    (hf : ∀ s, Onward a s → Onward a (f s)) :
    Onward a (need c cond st addr f s) :=
  .ite (hf _ h) (.refuse h)

/-! ## Machine/Command -/

theorem Onward.cmdCount {k : Nat} {p : MgmtPort} (h : Onward a s) : Onward a (cmdCount k p s) := .bump h

theorem Onward.authFailed {n : Nat} {p : MgmtPort} (h : Onward a s) : Onward a (authFailed n p s) :=
  .ifThen (.satF (.setSess h)) (fun h => .atMost (.setSess h) (fun _ h => .raise h))

theorem Onward.addWaiting {b : Arrived} {op : Nat} {counted : Bool} {ph : Phase} (h : Onward a s) :
    Onward a (addWaiting b op counted ph s) :=
  .parts h

theorem Onward.countOut {n : Nat} (h : Onward a s) : Onward a (countOut n s) := .mapF h

theorem Onward.answerNow {b : Arrived} {op st : Nat} {counted : Bool} (h : Onward a s) : Onward a (answerNow b op st counted s) :=
  .refuse (.addWaiting h)

theorem Onward.acceptCommand {b : Arrived} {counted : Bool} (h : Onward a s) : Onward a (acceptCommand b counted s) :=
  .ite (.answerNow h) (.ite (.answerNow (.ite h (.countOut h))) (.ite (.answerNow (.ite h (.countOut h))) (.ite (.answerNow (.ite h
    (.countOut h))) (.addWaiting (.ite h (.countOut h))))))

theorem Onward.setReasm {n : Nat} {inject : Bool} {l : List Reasm} (h : Onward a s) : Onward a (setReasm n inject l s) := .setSess h

theorem Onward.endReasm {n : Fin 64} {r : Reasm} (h : Onward a s) : Onward a (endReasm n r s) := .answerNow h

theorem Onward.commandFragment {n : Fin 64} {before : Nat} {p : MgmtPort} {f : JutosFrame} (h : Onward a s) :
    Onward a (commandFragment n before p f s) := by
  unfold Machine.commandFragment
  dsimp only
  split
  · exact .ite (.endReasm (.setReasm h)) (.ite (.acceptCommand (.setReasm h)) (.setReasm h))
  · exact .ite (.answerNow h) (.ite (.endReasm (.countOut h)) (.setReasm (.countOut h)))

theorem Onward.injectDrop {p : MgmtPort} (h : Onward a s) : Onward a (injectDrop p s) := .cmdCount h

theorem Onward.injectArrived {n : Nat} {p : MgmtPort} (h : Onward a s) : Onward a (injectArrived n p s) := .setSess h

theorem Onward.injectFragment {n : Fin 64} {p : MgmtPort} {f : JutosFrame} (h : Onward a s) : Onward a (injectFragment n p f s) := by
  unfold Machine.injectFragment
  dsimp only
  split
  · exact .ite (.injectDrop (.setReasm h)) (.ite (.injectArrived (.setReasm h)) (.setReasm h))
  · exact .ite (.injectDrop h) (.setReasm h)

theorem Onward.replayCommand {n : Fin 64} {p : MgmtPort} {f : JutosFrame} (h : Onward a s) : Onward a (replayCommand n p f s) :=
  .ite (.setSess h) (.emitReply (.raise (.setSess h)))

theorem Onward.commandFrame {n : Fin 64} {p : MgmtPort} {f : JutosFrame} (h : Onward a s) : Onward a (commandFrame n p f s) :=
  .ite (.ite (.acceptCommand (.wr (.setSess (.ifThen (.setSess h) (fun h => .wr h))))) (.commandFragment (.wr (.setSess (.ifThen
    (.setSess h) (fun h => .wr h)))))) (.replayCommand (.ifThen (.setSess h) (fun h => .wr h)))

theorem Onward.injectFrame {n : Fin 64} {p : MgmtPort} {f : JutosFrame} (h : Onward a s) : Onward a (injectFrame n p f s) :=
  .ite (.injectDrop h) (.ite (.ite (.injectArrived (.setSess h)) (.injectFragment (.setSess h))) (.injectDrop h))

theorem Onward.framePassed {p : MgmtPort} {f : JutosFrame} (h : Onward a s) : Onward a (framePassed p f s) :=
  .ite (.parts h) (.ite (.authFailed h) (.ite (.commandFrame h) (.injectFrame h)))

theorem Goes.execJutosFrameReceive {p : MgmtPort} {f : JutosFrame} (h : Onward a s) : Goes a (execJutosFrameReceive p f s) := by
  unfold Machine.execJutosFrameReceive
  refine .next (.ite h ?_)
  split
  · exact .cmdCount h
  · exact .framePassed h

theorem Goes.execReassemblyTimeout {n : Fin 64} {inject : Bool} {first : Word} (h : Onward a s) :
    Goes a (execReassemblyTimeout n inject first s) := by
  unfold Machine.execReassemblyTimeout
  refine .next ?_
  split
  · exact h
  · exact .ite (.injectDrop (.setReasm h)) (.endReasm (.setReasm h))

theorem Goes.execOpenRequest {p : MgmtPort} {peer : BitVec 48} {seq : Word} {r : OpenReq} (h : Onward a s) :
    Goes a (execOpenRequest p peer seq r s) :=
  .next (.ite h (.ite (.emit (.ifThen (.parts h) (fun h => .raise h))) (.emit (.setSess (.wr (.wr (.wr (.wr (.wrWord (.drawEntropy
    (.drawEntropy (.parts h))))))))))))

theorem Goes.execFirstCommandTimeout {n : Fin 64} (h : Onward a s) : Goes a (execFirstCommandTimeout n s) := .next (.ite (.closeSess h) h)

theorem Goes.execIdleTimeout {n : Fin 64} (h : Onward a s) : Goes a (execIdleTimeout n s) := .next (.ite (.closeSess (.reachIvl h)) h)

theorem Goes.execCommandBlockTimeout {c : Hdr} (h : Onward a s) : Goes a (execCommandBlockTimeout c s) := by
  unfold Machine.execCommandBlockTimeout
  refine .next ?_
  split
  · exact .refuse h
  · exact h

theorem Goes.execSessionClose {c : Hdr} (h : Onward a s) : Goes a (execSessionClose c s) :=
  .next (.checked h (fun _ h => .finish (.setSess h)))

theorem Onward.puntDrop {reason : Nat} (h : Onward a s) : Onward a (puntDrop reason s) := .cmdCount h

theorem Onward.queuePunt {x : Punt} (h : Onward a s) : Onward a (queuePunt x s) := .ite (.puntDrop h) (.parts h)

theorem Goes.execPuntTransmit (h : Onward a s) : Goes a (execPuntTransmit s) := by
  unfold Machine.execPuntTransmit
  dsimp only
  refine .next ?_
  split
  · exact h
  · refine .ite h ?_
    split
    · exact .puntDrop (.parts h)
    · exact .sendPunt (.parts h)

theorem Goes.execEventFrameTimeout {n : Fin 64} (h : Onward a s) : Goes a (execEventFrameTimeout n s) :=
  .next (.ite h (.sendEvents (.due h)))

/-! ## Machine/Bridge -/

theorem Onward.startRetrain {ch : Nat} (h : Onward a s) : Onward a (startRetrain ch s) := by
  unfold Machine.startRetrain
  exact .bump (.wr (.parts h))

theorem Onward.deliver {f : Flit} (h : Onward a s) : Onward a (deliver f s) := by
  unfold Machine.deliver
  split
  · exact .parts h
  · exact .parts h
  · exact h

theorem Onward.flitGood {ch : Nat} (h : Onward a s) : Onward a (flitGood ch s) := by
  unfold Machine.flitGood
  dsimp only
  split
  · exact .deliver (.setChan (.parts h))
  · exact .parts h

theorem Onward.flitBad {ch : Nat} (h : Onward a s) : Onward a (flitBad ch s) := by
  unfold Machine.flitBad
  refine .ifElse (.bump (.parts ?_)) (fun h => .startRetrain (.raiseAt (.parts h)))
  split
  · exact .setChan h
  · exact h

theorem Goes.execFlitReceive {ch : Fin 2} {crcOk : Bool} (h : Onward a s) : Goes a (execFlitReceive ch crcOk s) :=
  .next (.ite h (.ite (.flitGood h) (.flitBad h)))

theorem Goes.execBridgeRetrainComplete {ch : Fin 2} {ok : Bool} (h : Onward a s) : Goes a (execBridgeRetrainComplete ch ok s) :=
  .next (.ite h (.ite (.wr h) (.raiseEach (.parts h))))

theorem Goes.execBridgeRetrainRetry {ch : Fin 2} (h : Onward a s) : Goes a (execBridgeRetrainRetry ch s) :=
  .next (.ite (.startRetrain h) h)

/-! ## Machine/Buffer -/

theorem Onward.charge {k n : Nat} (h : Onward a s) : Onward a (charge k n s) := .wr (.wr h)

theorem Onward.uncharge {k n : Nat} (h : Onward a s) : Onward a (uncharge k n s) := .mapF h

theorem Onward.takeHandles {k n : Nat} (h : Onward a s) : Onward a (takeHandles k n s) := by
  unfold Machine.takeHandles
  split
  · exact .mapF (.wr (.ite h (.bump (.mapF h))))

theorem Onward.giveHandles {k n : Nat} (h : Onward a s) : Onward a (giveHandles k n s) := .wr (.mapF h)

theorem Onward.meetRing {m : RingMeet} (h : Onward a s) : Onward a (meetRing m s) := by
  unfold Machine.meetRing
  split
  · exact .ite (.raiseAt (.bump h)) h
  · exact .ite (.raiseAt (.bump h)) (.raiseAt (.bump (.mapF (.parts h))))

theorem Onward.drawBillets {k n : Nat} (h : Onward a s) (ht : drawBillets k n s = some t) : Onward a t := by
  unfold Machine.drawBillets at ht
  split at ht <;> cases ht
  exact .takeHandles (.charge h)

theorem Onward.freeBillets {k n : Nat} (h : Onward a s) : Onward a (freeBillets k n s) := .giveHandles (.uncharge h)

theorem Onward.putPkt {n : Nat} {p : Packet} (h : Onward a s) : Onward a (putPkt n p s) := .parts h

theorem Onward.pickHandles {n : Nat} (h : Onward a s) : Onward a (pickHandles n s).2.2 := .drawChoice (.drawChoice h)

theorem Onward.storePacket {p : Packet} (h : Onward a s) : Onward a (storePacket p s).2 := by
  unfold Machine.storePacket
  exact .mapF (.putPkt (.parts (.pickHandles h)))

theorem Onward.storeArrival {p : Packet} (h : Onward a s) : Onward a (storeArrival p s).2 := .storePacket h

theorem Onward.freePacket {n : Nat} (h : Onward a s) : Onward a (freePacket n s) := by
  unfold Machine.freePacket
  split
  · exact h
  · exact .ite (.mapF (.mapF (.parts h))) (.freeBillets (.mapF (.parts h)))

theorem Onward.refuseFree {ctr kind : Nat} {k : Key} (h : Onward a s) : Onward a (refuseFree ctr kind k s) := .raiseAt (.bump h)

theorem Onward.endOwner {n by_ : Nat} (h : Onward a s) : Onward a (endOwner n by_ s) := by
  unfold Machine.endOwner
  split
  · exact .refuseFree h
  · exact .ite (.refuseFree h) (.ite (.freePacket h) (.putPkt h))

theorem Onward.endLeaseOn {n : Nat} (h : Onward a s) : Onward a (endLeaseOn n s) := by
  unfold Machine.endLeaseOn
  split
  · exact .refuseFree h
  · exact .ite (.refuseFree h) (.ifThen (.putPkt h) (fun h => .freePacket h))

theorem Onward.endRef {r : Ref} (h : Onward a s) : Onward a (endRef r s) := .ite (.endLeaseOn h) (.endOwner h)

theorem Onward.takeLease {n : Nat} (h : Onward a s) : Onward a (takeLease n s).2 := by
  unfold Machine.takeLease
  split
  · exact h
  · split
    · exact .bump h
    · exact h

/-- A lease that is taken. -/
theorem Onward.ofLease {n : Nat} {u : State} (h : Onward a s) (ht : Machine.takeLease n s = (some t, u)) : Onward a t := by
  unfold Machine.takeLease at ht
  split at ht
  · cases ht
  · split at ht <;> cases ht
    exact .putPkt h

theorem Onward.shortfall {k : Nat} (h : Onward a s) : Onward a (shortfall k s) := .bump h

theorem Onward.setQ {q : Nat} {x : Queue} (h : Onward a s) : Onward a (setQ q x s) := .parts h

theorem Onward.drawPage {pool : Nat} {x : Nat × State} (h : Onward a s) (ht : drawPage pool s = some x) : Onward a x.2 := by
  unfold Machine.drawPage at ht
  split at ht
  · cases ht
    exact .snd (.mapF (.mapF (.drawChoice h)))
  · cases ht

theorem Onward.readyPage (h : Onward a s) : Onward a (readyPage s) := .parts (.ite (.bump h) h)

theorem Onward.writePage {q : Nat} {flushed : Bool} (h : Onward a s) : Onward a (writePage q flushed s) := by
  unfold Machine.writePage
  dsimp only
  split
  · exact h
  · split
    · exact .bump h
    · next e =>
      split
      · exact .mapF (.readyPage (.setQ (.drawPage h e)))
      · exact .readyPage (.setQ (.drawPage h e))

theorem Onward.writePages {fuel q : Nat} (h : Onward a s) : Onward a (writePages fuel q s) := by
  induction fuel generalizing s with
  | zero => exact h
  | succ fuel ih => exact .ite (.ite (ih (.writePage h)) (.writePage h)) h

theorem Onward.appendRef {q : Nat} {r : Ref} (h : Onward a s) : Onward a (appendRef q r s) := by
  unfold Machine.appendRef
  dsimp only
  refine .ite (.ifThen (.setQ h) (fun h => .writePages h)) ?_
  split
  · exact .ifThen (.setQ h) (fun h => .writePages (.bump (.mapF (.wr (.setQ h)))))
  · exact .setQ h

theorem Onward.settleQueue {q : Nat} (h : Onward a s) : Onward a (settleQueue q s) := by
  unfold Machine.settleQueue
  refine .ite ?_ h
  split
  · exact .mapF (.wr (.setQ h))
  · exact .setQ h

theorem Onward.freePage {q : Nat} {p : Page} (h : Onward a s) : Onward a (freePage q p s) := by
  unfold Machine.freePage
  split
  · exact .mapF (.mapF (.mapF h))
  · exact .mapF (.mapF h)

theorem Goes.execPageWriteComplete {q : Nat} (h : Onward a s) : Goes a (execPageWriteComplete q s) := by
  unfold Machine.execPageWriteComplete
  refine .next ?_
  split
  · exact h
  · exact .forAll (.bump (.ifThen (.parts (.setQ h)) (fun h => .bump h))) (fun _ _ h => .endRef h)

theorem Goes.execPageFlush {q : Nat} (h : Onward a s) : Goes a (execPageFlush q s) := by
  unfold Machine.execPageFlush
  refine .next ?_
  split
  · exact .ite (.writePage (.due h)) h
  · exact h

theorem Goes.execPageReturnStart {q : Nat} (h : Onward a s) : Goes a (execPageReturnStart q s) := by
  unfold Machine.execPageReturnStart
  refine .next ?_
  split
  · exact h
  · exact .ite h (.ite (.bump h) (.mapF (.setQ h)))

theorem Onward.losePackets {l : List Image} (h : Onward a s) : Onward a (losePackets l s) := by
  unfold Machine.losePackets
  exact .mapF (.bump h)

theorem Onward.returnImage {q page : Nat} {bad : Bool} {i : Image} (h : Onward a s) : Onward a (returnImage q page bad i s) :=
  .setQ (.storePacket h)

theorem Onward.endReturn {q : Nat} {p : Page} {lost bad : List Nat} (h : Onward a s) : Onward a (endReturn q p lost bad s) := by
  unfold Machine.endReturn
  refine .settleQueue (.freePage (.bump (.forAll (.ifElse (.setQ h) (fun h => .losePackets h)) (fun _ _ h => .ite h ?_))))
  split
  · exact .returnImage h
  · exact h

theorem Goes.execPageReturnComplete {q : Nat} {r : PageRead} (h : Onward a s) : Goes a (execPageReturnComplete q r s) := by
  unfold Machine.execPageReturnComplete
  refine .next ?_
  split
  · exact h
  · refine .endReturn (.ifThen ?_ (fun h => .bump (.parts ?_)))
    · split
      · exact .raiseAt (.parts h)
      · exact .parts h
    · split
      · exact .mapF (.setQ h)
      · exact .setQ h

theorem Goes.execPageReadTimeout {q : Nat} (h : Onward a s) : Goes a (execPageReadTimeout q s) := by
  unfold Machine.execPageReadTimeout
  refine .next ?_
  split
  · exact h
  · exact .ite (.bump (.setQ (.raiseAt h))) (.endReturn (.raiseAt h))

theorem Goes.execPageRingBuilt (h : Onward a s) : Goes a (execPageRingBuilt s) := .next (.ite (.wr (.wr h)) h)

theorem Goes.execSheepdogRoundStart (h : Onward a s) : Goes a (execSheepdogRoundStart s) := .next (.ite (.parts (.ite h (.due h))) h)

theorem Onward.leakFound {k : Key} {nth : Nat} (h : Onward a s) : Onward a (leakFound k nth s) :=
  .ifThen (.ite (.bump h) (.bump h)) (fun h => .raiseAt h)

theorem Onward.reclaimPage {hd : Nat} (h : Onward a s) : Onward a (reclaimPage hd s) := by
  unfold Machine.reclaimPage
  refine .mapF (.parts ?_)
  split
  · exact .mapF h
  · exact h

theorem Onward.reclaimBillet {hd : Nat} (h : Onward a s) : Onward a (reclaimBillet hd s) := .ite (.mapF (.parts h)) h

theorem Goes.execSheepdogRoundEnd {tookMs : Fin 101} (h : Onward a s) : Goes a (execSheepdogRoundEnd tookMs s) :=
  .next (.ite h (.bump (.wr (.wr (.wr (.mapF (.parts (.ifThen (.forAll (.due h) (fun _ _ h => .leakFound h)) (fun h => .forAll (.forAll
    (.forAll h (fun _ _ h => .freePacket h)) (fun _ _ h => .reclaimPage h)) (fun _ _ h => .reclaimBillet h))))))))))

/-! ## Machine/HbmPort -/

theorem Onward.pcCount {st pc i : Nat} (h : Onward a s) : Onward a (pcCount st pc i s) := .bump h

theorem Onward.rqCount {st r i : Nat} (h : Onward a s) : Onward a (rqCount st r i s) := .bump h

theorem Onward.showRequests {st : Nat} (h : Onward a s) : Onward a (showRequests st s) := .forAll (.wr h) (fun _ _ h => .ite h (.wr h))

theorem Onward.hbmOfferAs {cls st : Nat} {r : HbmReq} (h : Onward a s) : Onward a (hbmOfferAs cls st r s).2 :=
  .iteSnd h (.iteSnd (.rqCount h) (.iteSnd (.pcCount h) (.showRequests (.rqCount (.setStack h rfl)))))

theorem Onward.hbmOffer {st : Nat} {r : HbmReq} (h : Onward a s) : Onward a (hbmOffer st r s).2 := .hbmOfferAs h

theorem Onward.dropRequest {st : Nat} {hd : HbmHeld} (h : Onward a s) : Onward a (dropRequest st hd s) := .showRequests (.setStack h rfl)

theorem Onward.endRequest {st id : Nat} (h : Onward a s) : Onward a (endRequest st id s) := by
  unfold Machine.endRequest
  split
  · exact .dropRequest h
  · exact h

/-! ## Machine/Threads -/

theorem Onward.setCl {cl : Nat} {x : Cluster} (h : Onward a s) : Onward a (setCl cl x s) := .parts h

theorem Onward.setThr {th : Nat} {x : Thread} (h : Onward a s) : Onward a (setThr th x s) := .parts h

theorem Onward.noteBusy {cl : Nat} (h : Onward a s) : Onward a (noteBusy cl s) := .parts h

theorem Onward.noteIssue {cl n : Nat} (h : Onward a s) : Onward a (noteIssue cl n s) := .parts h

theorem Onward.endThr {th : Nat} (h : Onward a s) : Onward a (endThr th s) := .noteBusy (.parts h)

theorem Onward.putLook {gone : Bool} {th : Nat} {x : Thread} {k : Look} (h : Onward a s) : Onward a (putLook gone th x k s) :=
  .ite (.parts h) (.setThr h)

theorem Onward.yokeSpread {load : YokeLoad} (h : Onward a s) : Onward a (yokeSpread load s) := by
  unfold Machine.yokeSpread
  split
  · exact h
  · exact .yokeSend h
  · exact .yokeSend h

theorem Onward.sendRecords {fuel : Nat} {all : Bool} (h : Onward a s) : Onward a (sendRecords fuel all s) := by
  induction fuel generalizing s with
  | zero => exact h
  | succ fuel ih => exact .ite h (ih (.yokeSpread (.parts h)))

theorem Onward.twinRecord {r : YokeRec} (h : Onward a s) : Onward a (twinRecord r s) :=
  .ite (.ite (.raiseAt h) (.sendRecords (.bump (.parts h)))) h

/-! ## Machine/Queue -/

theorem Onward.setBucket {k : Key} {b : Bucket} (h : Onward a s) : Onward a (setBucket k b s) := .parts h

theorem Onward.touchBucket {k : Key} (h : Onward a s) : Onward a (touchBucket k s) := .setBucket h

theorem Onward.takeBucket {k : Key} {len : Nat} (h : Onward a s) : Onward a (takeBucket k len s) := .setBucket h

theorem Onward.clearBucket {k : Key} (h : Onward a s) : Onward a (clearBucket k s) := .setBucket h

theorem Onward.runMeter {m pre len : Nat} {named : Option Nat} (h : Onward a s) : Onward a (runMeter m pre len named s).2 := by
  unfold Machine.runMeter
  refine .iteSnd h ?_
  cases named <;> exact .bump (.bump (.setBucket h))

theorem Onward.queueCount {q i n : Nat} (h : Onward a s) : Onward a (queueCount q i n s) := .ite (.bump h) (.bump h)

theorem Onward.touchAvg {q : Nat} (h : Onward a s) : Onward a (touchAvg q s) := .setQ h

theorem Onward.admitPkt {q tc prec n : Nat} (h : Onward a s) : Onward a (admitPkt q tc prec n s).2 := by
  have ht : Onward a (Machine.touchAvg q s) := .touchAvg h
  exact .iteSnd ht (.iteSnd ht (.iteSnd ht (.iteSnd (.snd (.drawEntropy ht)) ht)))

theorem Onward.dropAt {q reason : Nat} {r : Ref} (h : Onward a s) : Onward a (dropAt q reason r s) :=
  .endRef (.bump (.queueCount (.queueCount h)))

theorem Onward.setV {lv n band : Nat} {v : Word} (h : Onward a s) : Onward a (setV lv n band v s) := .parts h

theorem Onward.setTag {lv n : Nat} {v : Word} (h : Onward a s) : Onward a (setTag lv n v s) := .parts h

theorem Onward.activate {lv n : Nat} (h : Onward a s) : Onward a (activate lv n s) := .ite h (.setTag (.parts (.wr h)))

theorem Onward.deactivate {lv n : Nat} (h : Onward a s) : Onward a (deactivate lv n s) := .parts (.wr h)

theorem Onward.settleActive {e : Nat} (h : Onward a s) : Onward a (settleActive e s) := .forAll h (fun _ _ h => .ite h (.deactivate h))

theorem Onward.noteHeld {p : Nat} (h : Onward a s) : Onward a (noteHeld p s) :=
  .forAll h (fun _ _ h => .ite (.ite h (.parts h)) (.ite (.ifThen (.parts h) (fun h => .setTag h)) h))

theorem Onward.chargeChain {e len : Nat} (h : Onward a s) : Onward a (chargeChain e len s) :=
  .forAll h (fun _ _ h => .ifElse (.takeBucket h) (fun h => .setTag (.setV h)))

theorem Onward.popHead {q : Nat} {x : Ref × State} (h : Onward a s) (ht : popHead q s = some x) : Onward a x.2 := by
  unfold Machine.popHead at ht
  dsimp only at ht
  split at ht
  · cases ht
  · obtain rfl := Option.some.inj ht
    exact .settleQueue (.ifThen (.setQ h) fun h => .setQ h)

theorem Onward.enqueue {q : Nat} {r : Ref} (h : Onward a s) : Onward a (enqueue q r s) := by
  unfold Machine.enqueue
  refine .ifThen (.appendRef ?_) (fun h => .forAll h (fun _ _ h => .activate h))
  split
  · exact .putPkt (.queueCount (.queueCount h))
  · exact .queueCount (.queueCount h)

theorem Onward.admitTo {q : Nat} {r : Ref} (h : Onward a s) : Onward a (admitTo q r s).2 := by
  unfold Machine.admitTo
  split
  · next e =>
      exact .enqueue (.ofSnd e (.admitPkt h))
  · next e =>
      exact .dropAt (.ofSnd e (.admitPkt h))

theorem Onward.egressEnqueue {p tc src : Nat} {r : Ref} (h : Onward a s) : Onward a (egressEnqueue p tc src r s) :=
  .ite (.endRef (.bump h)) (.admitTo h)

theorem Onward.sendPfc {p n quanta : Nat} (h : Onward a s) : Onward a (sendPfc p n quanta s) := .bump (.originate h)

theorem Onward.checkPfc {p n : Nat} (h : Onward a s) : Onward a (checkPfc p n s) := by
  unfold Machine.checkPfc
  dsimp only
  split
  · exact .ite (.sendPfc (.parts h)) h
  · exact .ite (.sendPfc (.parts h)) h

theorem Onward.enterOcc {p n billets : Nat} (h : Onward a s) : Onward a (enterOcc p n billets s) := .ite (.checkPfc (.parts h)) h

theorem Onward.leaveOcc {r : Ref} (h : Onward a s) : Onward a (leaveOcc r s) := by
  unfold Machine.leaveOcc
  split
  · exact .ite (.checkPfc (.parts h)) h
  · exact h

theorem Onward.loseDescriptor {d : Nat} (h : Onward a s) : Onward a (loseDescriptor d s) := by
  unfold Machine.loseDescriptor
  dsimp only
  split
  · exact .raiseAt (.bump h)
  · exact .forAll (.putPkt (.raiseAt (.bump h))) (fun _ _ h => .settleQueue (.ifThen (.setQ (.forAll h (fun _ _ h => .leaveOcc h)))
        (fun h => .settleActive h)))

theorem Onward.loseQueue {q : Nat} (h : Onward a s) : Onward a (loseQueue q s) := by
  unfold Machine.loseQueue
  refine .ifThen (.settleQueue (.setQ ?_)) (fun h => .settleActive h)
  split
  · exact .wr (.mapF (.parts (.forAll (.queueCount (.queueCount (.raiseAt h))) (fun _ _ h => .leaveOcc h))))
  · exact .mapF (.parts (.forAll (.queueCount (.queueCount (.raiseAt h))) (fun _ _ h => .leaveOcc h)))

theorem Goes.execPfcRefresh {p : Fin 48} {tc : Fin 8} (h : Onward a s) : Goes a (execPfcRefresh p tc s) := by
  unfold Machine.execPfcRefresh
  refine .next ?_
  split
  · exact .ite (.sendPfc (.parts (.due h))) h
  · exact h

theorem Onward.voqEnqueue {x : PassResult} {named : Option Nat} (h : Onward a s) : Onward a (voqEnqueue x named s).2 := by
  unfold Machine.voqEnqueue
  split
  · exact h
  · refine .iteSnd (.snd (.endRef (.bump h))) (.iteSnd (.snd (.endRef (.bump ?_))) (.snd (.ite (.enterOcc (.admitTo ?_)) (.admitTo ?_))))
    all_goals
      split
      · exact .runMeter (.putPkt h)
      · exact .snd (.putPkt h)

theorem Onward.nextSeq {p : Nat} (h : Onward a s) : Onward a (nextSeq p s).2 := .parts h

theorem Onward.ingressRecord {p : Nat} {colour : Option Nat} {digest : Nat} (h : Onward a s) :
    Onward a (ingressRecord p colour digest s) :=
  .ite (.twinRecord (.nextSeq h)) h

theorem Onward.expectRecord {p digest : Nat} {x : Option PassResult} (h : Onward a s) : Onward a (expectRecord p digest x s) :=
  .parts (.nextSeq h)

theorem Goes.execVoqEnqueue (h : Onward a s) : Goes a (execVoqEnqueue s) := by
  unfold Machine.execVoqEnqueue
  refine .next ?_
  split
  · exact h
  · exact .ite (.expectRecord (.parts h)) (.ingressRecord (.voqEnqueue (.parts h)))

theorem Onward.dequeueFrom {e : Nat} {x : Ref × State} (h : Onward a s) (ht : dequeueFrom e s = some x) : Onward a x.2 := by
  unfold Machine.dequeueFrom at ht
  split at ht
  · cases ht
  · next hp =>
    cases ht
    exact .settleActive (.chargeChain (.popHead h hp))

theorem Onward.setGate {p : Nat} {g : Gate} (h : Onward a s) : Onward a (setGate p g s) := .parts h

theorem Onward.gateGo {c : Hdr} {p new : Nat} (h : Onward a s) : Onward a (gateGo c p new s) := .defer (.setGate h)

theorem Goes.execGateCheckComplete {p : Fin 48} (h : Onward a s) : Goes a (execGateCheckComplete p s) := by
  unfold Machine.execGateCheckComplete
  refine .next ?_
  split
  · exact h
  · exact .ite (.replyWith (.wr (.setGate (.storeObj (.setGate h))))) (.refuse (.wr (.setGate h)))

theorem Goes.execGateListStart {p : Fin 48} (h : Onward a s) : Goes a (execGateListStart p s) := by
  unfold Machine.execGateListStart
  refine .next ?_
  split
  · exact h
  · exact .wr (.wr (.setGate (.reach h)))

theorem Goes.execGateEntryChange {p : Fin 48} (h : Onward a s) : Goes a (execGateEntryChange p s) :=
  .next (.ite h (.ite (.setGate (.reach h)) (.ifElse (.setGate (.reach h)) (fun h => .wr h))))

theorem Onward.gateStep {tm p : Nat} (h : Onward a s) : Onward a (gateStep tm p s) := .ite h (.setGate h)

theorem Onward.applyClass {p n : Nat} (h : Onward a s) : Onward a (applyClass p n s) := by
  unfold Machine.applyClass
  split
  · exact h
  · exact .ite (.wrWord (.parts h)) h

theorem Onward.writeClass {p n base log : Nat} (h : Onward a s) : Onward a (writeClass p n base log s) :=
  .ite h (.applyClass (.wr (.parts h)))

theorem Goes.execClassMapApply {p : Fin 48} {tc : Fin 8} (h : Onward a s) : Goes a (execClassMapApply p tc s) := .next (.applyClass h)

theorem Goes.execQueueSample (h : Onward a s) : Goes a (execQueueSample s) :=
  .next (.ifElse (.wr (.wr (.wr (.parts h)))) (fun h => .forAll h (fun _ _ h => .pushRecord h)))

/-! ## Machine/Mirror -/

theorem Onward.mirTake {n : Nat} (h : Onward a s) (ht : mirTake n s = some t) : Onward a t := by
  unfold Machine.mirTake at ht
  split at ht
  · cases ht; exact h
  · dsimp only at ht
    split at ht <;> cases ht
    exact .parts h

theorem Onward.mirrorCopy {n pkt port : Nat} {egress : Bool} (h : Onward a s) : Onward a (mirrorCopy n pkt port egress s) := by
  unfold Machine.mirrorCopy
  dsimp only
  split
  · exact h
  · refine .ite h (.ite (.drawEntropy h) ?_)
    split
    · exact .bump (.drawEntropy h)
    · next e =>
      have hm := Onward.mirTake (.drawEntropy h) e
      split
      · next e => exact .bump (.ofSnd e (.takeLease hm))
      · next e => exact .bump (.admitTo (.ofLease hm e))

theorem Onward.mirrorAll {pkt port : Nat} {egress : Bool} {named : List Nat} (h : Onward a s) :
    Onward a (mirrorAll pkt port egress named s) :=
  .forAll h (fun _ _ h => .mirrorCopy h)

theorem Onward.dequeued {p : Nat} {r : Ref} (h : Onward a s) : Onward a (dequeued p r s) := by
  unfold Machine.dequeued
  split
  · exact h
  · exact .ite (.endRef h) (.ite (.endRef (.bump (.mirrorAll h))) (.sendData (.parts (.mirrorAll h))))

theorem Goes.execEgressDequeue {p : Fin 48} (h : Onward a s) : Goes a (execEgressDequeue p s) := by
  unfold Machine.execEgressDequeue
  refine .next (.ifElse (.noteHeld h) (fun h => ?_))
  split
  · exact h
  · next e =>
      split
      · exact h
      · next e =>
          exact .dequeued (.noteHeld (.ite (.twinRecord (.dequeueFrom h e)) (.dequeueFrom h e)))

/-! ## Machine/Engine -/

theorem Onward.ecCount {cl i n : Nat} (h : Onward a s) : Onward a (ecCount cl i n s) := .bump h

theorem Onward.abortPass {th : Nat} {x : Thread} (h : Onward a s) : Onward a (abortPass th x s) := .endRef (.endThr h)

theorem Onward.machineCheck {th : Nat} {x : Thread} {inst kind : Nat} {k : Key} (h : Onward a s) :
    Onward a (machineCheck th x inst kind k s) :=
  .raiseAt (.ecCount (.abortPass h))

theorem Onward.endIngress {th : Nat} {x : Thread} (h : Onward a s) : Onward a (endIngress th x s) := by
  unfold Machine.endIngress
  dsimp only
  split
  · exact .endThr h
  · refine .ite (.endRef (.endThr h)) ?_
    split
    · exact .sendCtl (.mirrorAll (.putPkt (.endThr h)))
    · exact .ite (.expectRecord (.endRef (.mirrorAll (.putPkt (.endThr h))))) (.ifThen (.endRef (.mirrorAll (.putPkt (.endThr h))))
          (fun h => .ingressRecord h))
    · exact .ite (.ite (.expectRecord (.endRef (.mirrorAll (.putPkt (.endThr h))))) (.ifThen (.endRef (.mirrorAll (.putPkt (.endThr
          h)))) (fun h => .ingressRecord h))) (.ite (.expectRecord (.endRef (.queuePunt (.mirrorAll (.putPkt (.endThr h)))))) (.ifThen
          (.endRef (.queuePunt (.mirrorAll (.putPkt (.endThr h))))) (fun h => .ingressRecord h)))
    · exact .ite (.expectRecord (.endRef (.parts (.mirrorAll (.putPkt (.endThr h)))))) (.ifThen (.endRef (.parts (.mirrorAll (.putPkt
          (.endThr h))))) (fun h => .ingressRecord h))

theorem Onward.placeTx {p : Nat} {f : TxFrame} {n : Nat} (h : Onward a s) : Onward a (placeTx p f n s) := .setTx h

theorem Onward.endEgress {th : Nat} {x : Thread} (h : Onward a s) : Onward a (endEgress th x s) := by
  unfold Machine.endEgress
  dsimp only
  split
  · exact .endThr h
  · refine .ite (.endRef (.endThr h)) ?_
    split
    · exact .endRef (.endThr h)
    · exact .endRef (.queuePunt (.endThr h))
    · exact .ite (.endRef (.bump (.endThr h))) (.ifElse (.placeTx (.endThr h)) (fun h => .endRef h))

theorem Onward.endPass {th : Nat} {x : Thread} (h : Onward a s) : Onward a (endPass th x s) :=
  .ite (.endEgress (.ecCount h)) (.endIngress (.ecCount h))

theorem Onward.proceed {th : Nat} {m : Micro} {n : Nano} {x : Thread} (h : Onward a s) : Onward a (proceed th m n x s) := by
  unfold Machine.proceed
  split
  · exact .setThr h
  · exact .endPass h
  · exact .machineCheck h

theorem Onward.resume {th : Nat} {x : Thread} (h : Onward a s) : Onward a (resume th x s) := .proceed h

theorem Onward.runLookup {th : Nat} {m : Micro} {n : Nano} {x : Thread} (h : Onward a s) : Onward a (runLookup th m n x s) :=
  .ite (.proceed h) (.setThr (.ecCount (.ite (.bump h) h)))

theorem Onward.runWait {th : Nat} {m : Micro} {n : Nano} {x : Thread} (h : Onward a s) : Onward a (runWait th m n x s) :=
  .ite (.proceed h) (.setThr h)

theorem Onward.runWord {th : Nat} {m : Micro} {n : Nano} {x : Thread} (h : Onward a s) : Onward a (runWord th m n x s) := by
  unfold Machine.runWord
  split
  · exact .proceed h
  · exact .proceed h
  · exact .runLookup h
  · exact .runWait h
  · exact .proceed h
  · exact .proceed h

theorem Onward.issueWord {th : Nat} {m : Micro} {n : Nano} {chk : MicroCheck} {x : Thread} (h : Onward a s) :
    Onward a (issueWord th m n chk x s) := by
  unfold Machine.issueWord
  refine .ite (.setThr h) ?_
  split
  · exact .machineCheck (.noteIssue (.ecCount (.parts h)))
  · exact .runWord (.ecCount (.noteIssue (.ecCount (.parts h))))
  · exact .runWord (.noteIssue (.ecCount (.parts h)))

theorem Onward.issue {row : MicroRow} {th : Nat} {chk : MicroCheck} (h : Onward a s) : Onward a (issue row th chk s) := by
  unfold Machine.issue
  split
  · exact h
  · exact .ite h (.ite (.machineCheck h) (.ite (.machineCheck h) (.ite (.machineCheck h) (.ite (.machineCheck h) (.ite (.issueWord h)
        h)))))

theorem Goes.execAdd {th : Fin 16384} {chk : MicroCheck} (h : Onward a s) : Goes a (execAdd th chk s) := .next (.issue h)

theorem Goes.execSub {th : Fin 16384} {chk : MicroCheck} (h : Onward a s) : Goes a (execSub th chk s) := .next (.issue h)

theorem Goes.execAnd {th : Fin 16384} {chk : MicroCheck} (h : Onward a s) : Goes a (execAnd th chk s) := .next (.issue h)

theorem Goes.execOr {th : Fin 16384} {chk : MicroCheck} (h : Onward a s) : Goes a (execOr th chk s) := .next (.issue h)

theorem Goes.execXor {th : Fin 16384} {chk : MicroCheck} (h : Onward a s) : Goes a (execXor th chk s) := .next (.issue h)

theorem Goes.execShl {th : Fin 16384} {chk : MicroCheck} (h : Onward a s) : Goes a (execShl th chk s) := .next (.issue h)

theorem Goes.execShr {th : Fin 16384} {chk : MicroCheck} (h : Onward a s) : Goes a (execShr th chk s) := .next (.issue h)

theorem Goes.execMovB {th : Fin 16384} {chk : MicroCheck} (h : Onward a s) : Goes a (execMovB th chk s) := .next (.issue h)

theorem Goes.execCmp {th : Fin 16384} {chk : MicroCheck} (h : Onward a s) : Goes a (execCmp th chk s) := .next (.issue h)

theorem Goes.execMin {th : Fin 16384} {chk : MicroCheck} (h : Onward a s) : Goes a (execMin th chk s) := .next (.issue h)

theorem Goes.execMax {th : Fin 16384} {chk : MicroCheck} (h : Onward a s) : Goes a (execMax th chk s) := .next (.issue h)

theorem Goes.execHash {th : Fin 16384} {chk : MicroCheck} (h : Onward a s) : Goes a (execHash th chk s) := .next (.issue h)

theorem Goes.execFieldExtract {th : Fin 16384} {chk : MicroCheck} (h : Onward a s) : Goes a (execFieldExtract th chk s) :=
  .next (.issue h)

theorem Goes.execFieldInsert {th : Fin 16384} {chk : MicroCheck} (h : Onward a s) : Goes a (execFieldInsert th chk s) := .next (.issue h)

theorem Goes.execLookupLpm {th : Fin 16384} {chk : MicroCheck} (h : Onward a s) : Goes a (execLookupLpm th chk s) := .next (.issue h)

theorem Goes.execLookupExm {th : Fin 16384} {chk : MicroCheck} (h : Onward a s) : Goes a (execLookupExm th chk s) := .next (.issue h)

theorem Goes.execLookupPat {th : Fin 16384} {chk : MicroCheck} (h : Onward a s) : Goes a (execLookupPat th chk s) := .next (.issue h)

theorem Goes.execWaitLookup {th : Fin 16384} {chk : MicroCheck} (h : Onward a s) : Goes a (execWaitLookup th chk s) := .next (.issue h)

theorem Goes.execWaitFlagT {th : Fin 16384} {chk : MicroCheck} (h : Onward a s) : Goes a (execWaitFlagT th chk s) := .next (.issue h)

theorem Goes.execWaitTime {th : Fin 16384} {chk : MicroCheck} (h : Onward a s) : Goes a (execWaitTime th chk s) := .next (.issue h)

theorem Goes.execSetDestination {th : Fin 16384} {chk : MicroCheck} (h : Onward a s) : Goes a (execSetDestination th chk s) :=
  .next (.issue h)

theorem Goes.execSetMeterIndex {th : Fin 16384} {chk : MicroCheck} (h : Onward a s) : Goes a (execSetMeterIndex th chk s) :=
  .next (.issue h)

theorem Goes.execDrop {th : Fin 16384} {chk : MicroCheck} (h : Onward a s) : Goes a (execDrop th chk s) := .next (.issue h)

theorem Goes.execPunt {th : Fin 16384} {chk : MicroCheck} (h : Onward a s) : Goes a (execPunt th chk s) := .next (.issue h)

theorem Goes.execMirror {th : Fin 16384} {chk : MicroCheck} (h : Onward a s) : Goes a (execMirror th chk s) := .next (.issue h)

theorem Goes.execSetEcmpHash {th : Fin 16384} {chk : MicroCheck} (h : Onward a s) : Goes a (execSetEcmpHash th chk s) := .next (.issue h)

theorem Goes.execWriteInterPass {th : Fin 16384} {chk : MicroCheck} (h : Onward a s) : Goes a (execWriteInterPass th chk s) :=
  .next (.issue h)

theorem Goes.execNop {th : Fin 16384} {chk : MicroCheck} (h : Onward a s) : Goes a (execNop th chk s) := .next (.issue h)

theorem Goes.execLookupAccept {th : Fin 16384} (h : Onward a s) : Goes a (execLookupAccept th s) := by
  unfold Machine.execLookupAccept
  refine .next ?_
  split
  · exact h
  · split
    · exact h
    · exact .ite (.resume h) h

theorem Goes.execTimeConditionMet {th : Fin 16384} (h : Onward a s) : Goes a (execTimeConditionMet th s) := by
  unfold Machine.execTimeConditionMet
  refine .next ?_
  split
  · exact h
  · exact .ite (.resume (.reach h)) h

theorem Goes.execPassWatchdog {th : Fin 16384} (h : Onward a s) : Goes a (execPassWatchdog th s) := by
  unfold Machine.execPassWatchdog
  refine .next ?_
  split
  · exact h
  · exact .ite (.ecCount (.abortPass h)) (.machineCheck (.ecCount h))

theorem Onward.setDisp {p : Nat} {l : List Nat} (h : Onward a s) : Onward a (setDisp p l s) := .parts h

theorem Onward.startPass {r : Ref} {egress : Bool} {port no : Nat} (h : Onward a s) : Onward a (startPass r egress port no s) := by
  unfold Machine.startPass
  split
  · exact .noteBusy (.setThr h)
  · exact h

theorem Goes.execDispatch {src : HeaderSource} (h : Onward a s) : Goes a (execDispatch src s) := by
  unfold Machine.execDispatch
  refine .next (.ite h ?_)
  split
  · split
    · exact .ite (.startPass (.parts (.setDisp h))) h
    · exact h
  · split
    · exact .startPass (.parts h)
    · exact h
  · split
    · exact .startPass (.parts h)
    · exact h

/-! ## Machine/Cluster -/

theorem Onward.setSlot {k st off : Nat} (h : Onward a s) : Onward a (setSlot k st off s) := .wr (.wr (.parts h))

theorem Onward.slotWritten {k : Nat} (h : Onward a s) : Onward a (slotWritten k s) := .setSlot h

theorem Onward.slotErase {k : Nat} (h : Onward a s) : Onward a (slotErase k s) := .setSlot (.forAll h (fun _ _ h => .wrWord h))

theorem Onward.slotVerify {k : Nat} (h : Onward a s) : Onward a (slotVerify k s) := .ite h (.parts h)

theorem Goes.execImageVerifyComplete {k : Fin 4} (h : Onward a s) : Goes a (execImageVerifyComplete k s) := by
  unfold Machine.execImageVerifyComplete
  refine .next (.ite h ?_)
  split
  · split
    · exact .parts (.setSlot h)
    · exact .parts (.setSlot h)

theorem Onward.revokeImages {key : Nat} (h : Onward a s) : Onward a (revokeImages key s) := .forAll h (fun _ _ h => .ite (.setSlot h) h)

theorem Onward.showQueued {cl : Nat} (h : Onward a s) : Onward a (showQueued cl s) := .ite (.wr h) h

theorem Onward.showBase {cl : Nat} (h : Onward a s) : Onward a (showBase cl s) := .ite (.wr h) h

theorem Onward.holdWait {cl : Nat} (h : Onward a s) : Onward a (holdWait cl s) := by
  unfold Machine.holdWait
  dsimp only
  split
  · refine .ite ?_ h
    split
    · exact .setCl h
    · exact .setCl h
    · exact h
  · exact h

theorem Onward.loadGo {cl : Nat} (h : Onward a s) : Onward a (loadGo cl s) := .holdWait (.showQueued (.parts (.setCl h)))

theorem Onward.dropReload {cl : Nat} (h : Onward a s) : Onward a (dropReload cl s) := .ifElse (.setCl h) (fun h => .parts h)

theorem Onward.reloadRefused {cl err : Nat} (h : Onward a s) : Onward a (reloadRefused cl err s) :=
  .raiseAt (.showBase (.wr (.dropReload h)))

theorem Onward.setReload {cl : Nat} {ph : ReloadPhase} (h : Onward a s) : Onward a (setReload cl ph s) := .setCl h

theorem Onward.setProtect {cl : Nat} (h : Onward a s) : Onward a (setProtect cl s) := .setCl h

theorem Goes.execReloadStart {cl : Fin 32} (h : Onward a s) : Goes a (execReloadStart cl s) := by
  unfold Machine.execReloadStart
  refine .next ?_
  split
  · exact h
  · exact .ite h (.ite (.setReload (.setProtect h)) (.ite h (.ite h (.ite (.reloadRefused h) (.ite (.reloadRefused h) (.setReload
        (.setProtect h)))))))

theorem Goes.execReloadDrain {cl : Fin 32} (h : Onward a s) : Goes a (execReloadDrain cl s) := by
  unfold Machine.execReloadDrain
  refine .next ?_
  split
  · exact .wr (.setReload (.reach h))
  · exact h

theorem Goes.execReloadDrained {cl : Fin 32} (h : Onward a s) : Goes a (execReloadDrained cl s) := by
  unfold Machine.execReloadDrained
  refine .next (.ite h ?_)
  split
  · exact .ite (.wr (.setReload (.setCl h))) (.ite h (.wr h))
  · exact .wr h

theorem Goes.execReloadLoaded {cl : Fin 32} {ok : Bool} (h : Onward a s) : Goes a (execReloadLoaded cl ok s) := by
  unfold Machine.execReloadLoaded
  refine .next ?_
  split
  · exact .ite (.setReload h) (.ite (.setReload h) (.raiseAt (.ifThen (.wr (.wr (.dropReload (.setCl h)))) (fun h => .showQueued h))))
  · exact h

theorem Goes.execReloadResume {cl : Fin 32} (h : Onward a s) : Goes a (execReloadResume cl s) := by
  unfold Machine.execReloadResume
  refine .next ?_
  split
  · split
    · exact .holdWait (.ifThen (.wr (.dropReload (.setCl (.wr (.wrWord (.reach h)))))) (fun h => .showQueued h))
    · exact h
  · exact h

theorem Goes.execReloadAbandon {cl : Fin 32} (h : Onward a s) : Goes a (execReloadAbandon cl s) := by
  unfold Machine.execReloadAbandon
  refine .next ?_
  split
  · exact .ite h (.raiseAt (.wr (.showBase (.dropReload (.reachIvl h)))))
  · exact .ite h (.raiseAt (.wr (.setCl (.reachIvl h))))
  · exact h

theorem Onward.parkCluster {cl : Nat} (h : Onward a s) : Onward a (parkCluster cl s) := .holdWait (.ite (.wr h) h)

theorem Onward.takeOut {cl : Nat} (h : Onward a s) : Onward a (takeOut cl s) := .wr (.setReload h)

theorem Onward.returnCluster {cl : Nat} (h : Onward a s) : Onward a (returnCluster cl s) := by
  unfold Machine.returnCluster
  refine .ite ?_ h
  split
  · exact .ite (.takeOut h) (.holdWait (.showQueued (.wr h)))
  · exact .wr h

theorem Onward.shedCluster {cl : Nat} {on : Bool} (h : Onward a s) : Onward a (shedCluster cl on s) :=
  .ite (.parkCluster (.setCl h)) (.returnCluster (.setCl h))

theorem Onward.sweepReload {cl : Nat} (h : Onward a s) : Onward a (sweepReload cl s) :=
  .ite h (.ifThen (.ifElse (.setCl h) (fun h => .parts h)) (fun h => .takeOut h))

theorem Goes.execSignedSweep {cl : Fin 32} {bad : Option (Fin 2)} (h : Onward a s) : Goes a (execSignedSweep cl bad s) := by
  unfold Machine.execSignedSweep
  refine .next (.ite h ?_)
  split
  · exact h
  · exact .ifThen (.raiseA h) (fun h => .sweepReload h)

theorem Onward.patchRefused {cl err : Nat} (h : Onward a s) : Onward a (patchRefused cl err s) := .raiseAt (.wr h)

theorem Onward.patchGo {cl : Nat} (h : Onward a s) : Onward a (patchGo cl s) :=
  .ite (.patchRefused (.drawChoice h)) (.ite (.patchRefused h) (.ite (.patchRefused h) (.setCl h)))

theorem Goes.execPatchSwitch {cl : Fin 32} (h : Onward a s) : Goes a (execPatchSwitch cl s) := by
  unfold Machine.execPatchSwitch
  refine .next ?_
  split
  · exact h
  · exact .wr (.wr (.setCl (.reach h)))

/-! ## Machine/Macsec -/

theorem Onward.msCount {p i : Nat} (h : Onward a s) : Onward a (msCount p i s) := .bump h

theorem Onward.countSlots (h : Onward a s) : Onward a (countSlots s) := .wr h

theorem Onward.countCaks (h : Onward a s) : Onward a (countCaks s) := .wr h

theorem Onward.setSa {n st : Nat} (h : Onward a s) : Onward a (setSa n st s) := .countSlots (.wr h)

theorem Onward.notePad {p : Nat} {f : LineFrame} {g : SecTag} (h : Onward a s) : Onward a (notePad p f g s) := .ite (.msCount h) h

theorem Onward.startIcv {p n pn val : Nat} {f : LineFrame} {g : SecTag} (h : Onward a s) : Onward a (startIcv p n pn val f g s).2 :=
  .iteSnd (.parts h) (.notePad (.parts h))

theorem Onward.endIcv {p n pn val : Nat} {f : LineFrame} {bad : Bool} (h : Onward a s) : Onward a (endIcv p n pn val f bad s).2 := by
  unfold Machine.endIcv
  split
  · exact h
  · exact .iteSnd h (.iteSnd (.mapF (.msCount (.wr h))) (.iteSnd (.msCount h) (.ite h (.msCount h))))

theorem Onward.startTagged {p : Nat} {f : LineFrame} {g : SecTag} (h : Onward a s) : Onward a (startTagged p f g s).2 := by
  unfold Machine.startTagged
  refine .iteSnd (.msCount h) ?_
  split
  · exact .iteSnd (.msCount h) (.iteSnd (.notePad (.msCount h)) (.msCount h))
  · exact .iteSnd (.msCount h) (.startIcv h)

theorem Onward.secureHead {p : Nat} {f : LineFrame} (h : Onward a s) : Onward a (secureHead p f s).2 := by
  unfold Machine.secureHead
  refine .iteSnd h ?_
  split
  · exact .startTagged h
  · exact .iteSnd h (.iteSnd h (.iteSnd (.msCount h) (.msCount h)))

theorem Onward.secureEnd {p : Nat} {f : LineFrame} {hd : SecHead} {bad : Bool} (h : Onward a s) : Onward a (secureEnd p f hd bad s).2 :=
    by
  unfold Machine.secureEnd
  split
  · exact h
  · exact h
  · exact h
  · exact .endIcv h

theorem Onward.secureIn {p : Nat} {f : LineFrame} {bad : Bool} (h : Onward a s) : Onward a (secureIn p f bad s).2 :=
  .secureEnd (.secureHead h)

theorem Onward.setKey {n : Nat} {k : Option SaKey} (h : Onward a s) : Onward a (setKey n k s) := .parts h

theorem Onward.installSa {n : Nat} {w : SaParams} {mka : Bool} (h : Onward a s) : Onward a (installSa n w mka s) :=
  .countSlots (.wrWord (.setKey h))

theorem Onward.emptySa {n : Nat} (h : Onward a s) : Onward a (emptySa n s) := .countSlots (.wrWord (.setKey h))

theorem Onward.setDrains {n : Nat} {l : List Drain} (h : Onward a s) : Onward a (setDrains n l s) := .parts h

theorem Onward.endDrain {n : Nat} {d : Drain} (h : Onward a s) : Onward a (endDrain n d s) := by
  unfold Machine.endDrain
  dsimp only
  split
  · split
    · exact .installSa h
    · exact .emptySa h
  · split
    · exact .ok (.installSa h)
    · exact .done (.emptySa h)

theorem Onward.startDrains {fuel n : Nat} (h : Onward a s) : Onward a (startDrains fuel n s) := by
  induction fuel generalizing s with
  | zero => exact h
  | succ fuel ih =>
    unfold Machine.startDrains
    split
    · exact h
    · refine .ite (ih ?_) (.setSa h)
      split
      · exact .endDrain (.setDrains h)
      · split
        · exact .done (.setDrains h)
        · exact .setDrains h

theorem Onward.changeSlot {n : Nat} {d : Drain} (h : Onward a s) : Onward a (changeSlot n d s) := by
  unfold Machine.changeSlot
  refine .ifThen ?_ (fun h => .startDrains h)
  split
  · exact .defer (.setDrains h)
  · exact .setDrains h

theorem Goes.execSlotDrainEnd {slot : Fin 16384} (h : Onward a s) : Goes a (execSlotDrainEnd slot s) := by
  unfold Machine.execSlotDrainEnd
  refine .next ?_
  split
  · exact h
  · exact .ite h (.startDrains (.endDrain (.setDrains h)))

theorem Onward.setMka {c : Nat} {x : Mka} (h : Onward a s) : Onward a (setMka c x s) := .parts h

theorem Onward.startMka {order c : Nat} (h : Onward a s) : Onward a (startMka order c s) := .setMka (.drawEntropy h)

theorem Onward.restartMka {c : Nat} (h : Onward a s) : Onward a (restartMka c s) := .startMka h

theorem Onward.setSak {p : Nat} {x : Option SakRun} (h : Onward a s) : Onward a (setSak p x s) := .parts h

theorem Onward.showMka {p : Nat} (h : Onward a s) : Onward a (showMka p s) := .wrWord h

theorem Onward.installSak {p key suite : Nat} (h : Onward a s) : Onward a (installSak p key suite s) :=
  .showMka (.changeSlot (.setSak (.mapF h)))

theorem Onward.distribute {p : Nat} (h : Onward a s) : Onward a (distribute p s) := by
  unfold Machine.distribute
  split
  · exact h
  · exact .ite (.installSak (.drawEntropy h)) h

theorem Onward.switchSak {p : Nat} (h : Onward a s) : Onward a (switchSak p s) := by
  unfold Machine.switchSak
  split
  · exact .ite h (.showMka (.wr (.wr (.changeSlot (.setSak h)))))
  · exact h

theorem Onward.mkaErase {n : Nat} (h : Onward a s) : Onward a (mkaErase n s) := .ite h (.changeSlot h)

theorem Onward.retireSak {p : Nat} (h : Onward a s) : Onward a (retireSak p s) := by
  unfold Machine.retireSak
  split
  · split
    · exact .mkaErase (.mkaErase (.setSak h))
    · exact h
  · exact h

theorem Onward.eraseMka {p : Nat} (h : Onward a s) : Onward a (eraseMka p s) := .forAll (.setSak h) (fun _ _ h => .mkaErase h)

theorem Onward.sendMkpdus {p : Nat} (h : Onward a s) : Onward a (sendMkpdus p s) :=
  .ite (.forAll h (fun _ _ h => .msCount (.originate (.setMka h)))) h

theorem Onward.principalMoved {p : Nat} {was : Option Nat} (h : Onward a s) : Onward a (principalMoved p was s) :=
  .ifElse (.showMka h) (fun h => .distribute h)

theorem Onward.mkaDiscard {p : Nat} (h : Onward a s) : Onward a (mkaDiscard p s) := .msCount h

theorem Onward.mkaAccept {p c : Nat} {m : Mkpdu} (h : Onward a s) : Onward a (mkaAccept p c m s) := by
  unfold Machine.mkaAccept
  refine .ifElse (.ifThen (.showMka (.setMka h)) (fun h => .ifElse h (fun h => .distribute h))) (fun h => .ifThen (.ifThen ?_ (fun h =>
      .switchSak h)) (fun h => .retireSak h))
  split
  · exact h
  · refine .ifElse h (fun h => .ite (.stateEvent h) ?_)
    split
    · exact .ifElse h (fun h => .installSak h)
    · exact .installSak h

theorem Goes.execMkpduReceive {p : Fin 48} {m : Mkpdu} (h : Onward a s) : Goes a (execMkpduReceive p m s) := by
  unfold Machine.execMkpduReceive
  refine .next (.ite h (.ite (.mkaDiscard (.msCount h)) (.ite (.mkaDiscard (.parts (.msCount h))) ?_)))
  split
  · exact .mkaDiscard (.parts (.msCount h))
  · exact .ite (.mkaDiscard (.ifThen (.parts (.parts (.msCount h))) (fun h => .raiseEach h))) (.ite (.mkaDiscard (.parts (.msCount h)))
        (.ite (.mkaDiscard (.raiseEach (.stateEvent (.parts (.msCount h))))) (.mkaAccept (.parts (.msCount h)))))

theorem Goes.execMkaHello {p : Fin 48} (h : Onward a s) : Goes a (execMkaHello p s) := .next (.ite (.sendMkpdus h) h)

theorem Goes.execCaLost {p : Fin 48} (h : Onward a s) : Goes a (execCaLost p s) := by
  unfold Machine.execCaLost
  refine .next ?_
  split
  · exact h
  · exact .ite h (.stateEvent (.principalMoved (.showMka (.eraseMka (.restartMka (.due h))))))

theorem Goes.execSakRetireTimeout {p : Fin 48} (h : Onward a s) : Goes a (execSakRetireTimeout p s) := by
  unfold Machine.execSakRetireTimeout
  refine .next ?_
  split
  · exact .ite (.retireSak (.due h)) h
  · exact h

theorem Onward.mkaStart {p : Nat} (h : Onward a s) : Onward a (mkaStart p s) := .showMka (.forAll h (fun _ _ h => .restartMka h))

theorem Onward.mkaStop {p : Nat} (h : Onward a s) : Onward a (mkaStop p s) :=
  .showMka (.eraseMka (.forAll h (fun _ _ h => .restartMka h)))

theorem Onward.secTag {p n pn len : Nat} (h : Onward a s) : Onward a (secTag p n pn len s) := .emit h

theorem Onward.takePn {p n len : Nat} (h : Onward a s) : Onward a (takePn p n len s).2 :=
  .ifThen (.ite (.wr (.msCount (.mapF (.parts h)))) (.setSa (.msCount (.mapF (.parts h))))) (fun h => .ifThen (.stateEvent (.wr h))
    (fun h => .distribute h))

theorem Onward.coreFails {core : Nat} (h : Onward a s) : Onward a (coreFails core s) := .raiseAt (.bump (.wr (.parts h)))

theorem Onward.coreReturns {core : Nat} (h : Onward a s) : Onward a (coreReturns core s) := .wr (.parts h)

theorem Goes.execKeySlotWriteSa {c : Hdr} {w : SaParams} (h : Onward a s) : Goes a (execKeySlotWriteSa c w s) :=
  .next (.checked h (fun _ h => .need h (fun _ h => .need h (fun _ h => .need h (fun _ h => .changeSlot h)))))

theorem Onward.nextCakGen {n : Nat} (h : Onward a s) : Onward a (nextCakGen n s) := .parts h

theorem Goes.execKeySlotWriteCak {c : Hdr} {w : CakParams} (h : Onward a s) : Goes a (execKeySlotWriteCak c w s) :=
  .next (.checked h (fun _ h => .need h (fun _ h => .need h (fun _ h => .ok (.principalMoved (.startMka (.nextCakGen (.parts (.countCaks
    (.wrWord h))))))))))

theorem Goes.execKeySlotErase {c : Hdr} {slot : BitVec 16} {cls res : BitVec 8} (h : Onward a s) :
    Goes a (execKeySlotErase c slot cls res s) :=
  .next (.checked h (fun _ h => .need h (fun _ h => .ite (.need h (fun _ h => .changeSlot h)) (.ite (.done h) (.done (.principalMoved
    (.nextCakGen (.parts (.countCaks (.wrWord h))))))))))

theorem Onward.entropyFails (h : Onward a s) : Onward a (entropyFails s) := .raiseAt (.bump (.wr h))

theorem Goes.execDrbgSeedComplete {good : Bool} (h : Onward a s) : Goes a (execDrbgSeedComplete good s) :=
  .next (.ite h (.forAll (.ite (.wr h) (.entropyFails h)) (fun _ _ h => .showMka h)))

theorem Goes.execDrbgReseed {good : Bool} (h : Onward a s) : Goes a (execDrbgReseed good s) :=
  .next (.ite h (.ite (.bump h) (.entropyFails h)))

theorem Goes.execDrbgRetry {good : Bool} (h : Onward a s) : Goes a (execDrbgRetry good s) :=
  .next (.ite h (.ite (.bump (.wr h)) (.entropyFails h)))

/-! ## Machine/LinePort -/

theorem Onward.setLink {p st : Nat} (h : Onward a s) : Onward a (setLink p st s) := .wr h

theorem Onward.setSince {p : Nat} {th : Option Nat} (h : Onward a s) : Onward a (setSince p th s) := .parts h

theorem Onward.waited {p d : Nat} (h : Onward a s) : Onward a (waited p d s) := by
  unfold Machine.waited
  split
  · exact .reachIvl h
  · exact h

theorem Onward.takeLanes {p : Nat} (h : Onward a s) : Onward a (takeLanes p s) := .forAll h (fun _ _ h => .parts (.drawChoice h))

theorem Onward.condChanged {p : Nat} (h : Onward a s) : Onward a (condChanged p s) :=
  .ite (.setSince (.setLink (.takeLanes (.ite (.wr h) h)))) (.ite (.setSince (.setLink (.ite (.wr h) h))) (.ite (.setSince (.ite (.wr h)
    h)) (.ifThen (.ite (.wr h) h) (fun h => .setSince h))))

theorem Onward.updateAgg {b : Nat} (h : Onward a s) : Onward a (updateAgg b s) :=
  .ifThen (.parts (.forAll h (fun _ _ h => .wr (.wr (.wr h))))) (fun h => .stateEvent h)

theorem Onward.updateAggOf {p : Nat} (h : Onward a s) : Onward a (updateAggOf p s) := by
  unfold Machine.updateAggOf
  split
  · exact .updateAgg h
  · exact h

theorem Onward.aggWritten {b : Nat} (h : Onward a s) : Onward a (aggWritten b s) :=
  .updateAgg (.forAll h (fun _ _ h => .ite (.wr h) (.ite (.wr (.wr (.wr (.wr (.parts h))))) h)))

theorem Onward.endOpen {f : TxFrame} (h : Onward a s) : Onward a (endOpen f s) := by
  unfold Machine.endOpen
  split
  · exact .ite (.endRef h) h
  · exact h

theorem Onward.dropTx {p : Nat} (h : Onward a s) : Onward a (dropTx p s) :=
  .ifElse (.forAll (.setTx (.parts h)) (fun _ _ h => .endOpen h)) (fun h => .bump h)

theorem Onward.setArriving {p : Nat} {l : List Arriving} (h : Onward a s) : Onward a (setArriving p l s) := .parts h

theorem Onward.setFifo {p : Nat} {l : List FifoFrame} (h : Onward a s) : Onward a (setFifo p l s) := .parts h

theorem Onward.sendInverted {p : Nat} {x : Sending} {n : Nat} (h : Onward a s) : Onward a (sendInverted p x n s) := by
  unfold Machine.sendInverted
  split
  · exact h
  · exact .countSent (.bump (.emitLine h))

theorem Onward.sendGood {p : Nat} {x : Sending} (h : Onward a s) : Onward a (sendGood p x s) := by
  unfold Machine.sendGood
  split
  · exact h
  · exact .countSent (.emitLine h)

theorem Onward.setArrived {n th : Nat} (h : Onward a s) : Onward a (setArrived n th s) := by
  unfold Machine.setArrived
  split
  · exact h
  · exact .ite h (.ifThen (.setThr h) (fun h => .resume h))

theorem Onward.endArrival {bad : Bool} {n : Nat} (h : Onward a s) : Onward a (endArrival bad n s) := by
  unfold Machine.endArrival
  dsimp only
  refine .forAll (.forAll ?_ (fun _ _ h => .setArrived h)) (fun _ _ h => ?_)
  · split
    · exact .ite (.putPkt h) h
    · exact h
  · split
    · exact .ifThen (.forAll (.ite (.setTx h) h) (fun _ _ h => .endOpen h)) (fun h => .ite (.sendInverted (.endOpen (.parts h)))
          (.sendGood (.endOpen (.parts h))))
    · exact .forAll (.ite (.setTx h) h) (fun _ _ h => .endOpen h)

theorem Onward.cutArrivals {p : Nat} (h : Onward a s) : Onward a (cutArrivals p s) :=
  .forAll (.setFifo (.setArriving h)) (fun _ _ h => .endArrival h)

theorem Onward.goDown {p st : Nat} (h : Onward a s) : Onward a (goDown p st s) :=
  .timeChanged (.stateEvent (.dropTx (.updateAggOf (.bump (.cutArrivals (.setSince (.setPt (.wr (.wr (.setLink (.parts h)))))))))))

theorem Goes.execPcsAlignmentChange {p : Fin 48} {aligned localFault remoteFault : Bool} {lanes : BitVec 8} (h : Onward a s) :
    Goes a (execPcsAlignmentChange p aligned localFault remoteFault lanes s) :=
  .next (.ite h (.condChanged (.ifThen (.parts (.wr (.wr (.wr h)))) (fun h => .emit h))))

theorem Goes.execLinkUp {p : Fin 48} (h : Onward a s) : Goes a (execLinkUp p s) :=
  .next (.ite (.timeChanged (.updateAggOf (.setLink (.setSince (.waited h))))) h)

theorem Goes.execLinkDown {p : Fin 48} (h : Onward a s) : Goes a (execLinkDown p s) := .next (.ite (.goDown (.waited h)) h)

theorem Goes.execFlapHoldExpire {p : Fin 48} (h : Onward a s) : Goes a (execFlapHoldExpire p s) :=
  .next (.ite (.condChanged (.setSince (.setLink (.waited h)))) h)

theorem Onward.portRise {p : Nat} (h : Onward a s) : Onward a (portRise p s) := .condChanged (.takeLanes (.setSince (.setLink h)))

theorem Onward.portFall {p : Nat} (h : Onward a s) : Onward a (portFall p s) :=
  .emit (.ite (.goDown (.wr (.wr (.wr (.parts h))))) (.setSince (.setLink (.wr (.wr (.wr (.parts h)))))))

theorem Onward.receivePfc {p : Nat} {c : Content} (h : Onward a s) : Onward a (receivePfc p c s) := .forAll h (fun _ _ h => .parts h)

theorem Goes.execPfcPauseExpire {p : Fin 48} {tc : Fin 8} (h : Onward a s) : Goes a (execPfcPauseExpire p tc s) := by
  unfold Machine.execPfcPauseExpire
  refine .next ?_
  split
  · exact .parts (.reachIvl h)
  · exact h

theorem Onward.storeFrame {p len : Nat} {c : Content} {ring : List RingMeet} {bad : Bool} (h : Onward a s) :
    Onward a (storeFrame p len c ring bad s).2.2 := by
  unfold Machine.storeFrame
  dsimp only
  split
  · exact .shortfall (.forAll h (fun _ _ h => .meetRing h))
  · next e =>
      split
      · exact .bump (.forAll h (fun _ _ h => .meetRing h))
      · next e =>
          split
          · exact .ifThen (.forAll h (fun _ _ h => .meetRing h)) (fun h => .shortfall h)
          · next e =>
              exact .setDisp (.sendData (.storeArrival (.drawBillets (.ifThen (.forAll h (fun _ _ h => .meetRing h)) (fun h =>
                  .shortfall h)) e)))

theorem Onward.countRow7 {p len : Nat} {bad counts : Bool} (h : Onward a s) : Onward a (countRow7 p len bad counts s) :=
  .ite (.bump (.bump h)) h

theorem Onward.divertBfd {p : Nat} (h : Onward a s) : Onward a (divertBfd p s) := .ite (.raiseEach (.bump h)) (.parts h)

theorem Onward.divertPtp {p : Nat} (h : Onward a s) : Onward a (divertPtp p s) := .ite (.bump h) (.setPt h)

theorem Onward.sortFrame {p len : Nat} {c : Content} {ring : List RingMeet} {bad : Bool} (h : Onward a s) :
    Onward a (sortFrame p len c ring bad s) := by
  unfold Machine.sortFrame
  split
  · exact .receivePfc (.bump h)
  · exact .bump h
  · split
    · exact .parts h
    · exact .bump h
  · exact .divertBfd h
  · exact .divertPtp (.countRow7 h)
  · exact .countRow7 (.storeFrame h)

theorem Onward.macJudge {p : Nat} {f : LineFrame} {bad : Bool} (h : Onward a s) : Onward a (macJudge p f bad s).2 :=
  .ifThen (.ite h (.ite (.bump h) (.ite (.bump h) h))) (fun h => .raiseAt h)

theorem Onward.wholeFrame {p : Nat} {f : LineFrame} {bad : Bool} (h : Onward a s) : Onward a (wholeFrame p f bad s) := by
  unfold Machine.wholeFrame
  dsimp only
  split
  · next e =>
      exact .ofSnd e (.secureIn (.macJudge h))
  · next e =>
      exact .ofSnd e (.secureIn (.macJudge h))
  · next e =>
      exact .sortFrame (.ofSnd e (.secureIn (.macJudge h)))

theorem Onward.headFrame {p : Nat} {f : LineFrame} (h : Onward a s) : Onward a (headFrame p f s) := by
  unfold Machine.headFrame
  have hs : Onward a (Machine.secureHead p (cutLong s p f) s).2 := .secureHead h
  dsimp only
  split
  · exact .ite (.setArriving (.storeFrame hs)) (.setArriving hs)
  · exact .ite (.setArriving (.storeFrame hs)) (.setArriving hs)
  · exact .setArriving hs
  · exact .setArriving hs

theorem Onward.endFrame {p : Nat} {b : Arriving} {bad : Bool} (h : Onward a s) : Onward a (endFrame p b bad s) := by
  unfold Machine.endFrame
  dsimp only
  split
  · next e =>
      exact .ofSnd e (.secureEnd (.macJudge h))
  · next e =>
      exact .ofSnd e (.secureEnd (.macJudge h))
  · next e =>
      exact .ite (.forAll (.countRow7 (.ofSnd e (.secureEnd (.macJudge h)))) (fun _ _ h => .endArrival h)) (.sortFrame (.ofSnd e
          (.secureEnd (.macJudge h))))

theorem Onward.takeFrame {p : Nat} {f : LineFrame} {bad ended : Bool} (h : Onward a s) : Onward a (takeFrame p f bad ended s) :=
  .ite (.ite (.msCount h) (.setFifo (.ite (.bump h) h))) (.ite (.wholeFrame h) (.headFrame h))

theorem Onward.passFrame {p : Nat} {f : LineFrame} {bad : Bool} (h : Onward a s) : Onward a (passFrame p f bad s) := .takeFrame h

theorem Onward.drainFifo {fuel p : Nat} (h : Onward a s) : Onward a (drainFifo fuel p s) := by
  induction fuel generalizing s with
  | zero => exact h
  | succ fuel ih =>
    unfold Machine.drainFifo
    split
    · exact h
    · exact .ite (.ite h (.bump (.setFifo h))) (.ite h (ih (.ite (.wholeFrame (.setFifo h)) (.headFrame (.setFifo h)))))

theorem Onward.drainFifos (h : Onward a s) : Onward a (drainFifos s) := .forAll h (fun _ _ h => .drainFifo h)

theorem Onward.lineJudge {p : Nat} {f : LineFrame} (h : Onward a s) : Onward a (lineJudge p f s).2 :=
  .ite (.bump (.ifElse (.ite h (.bump h)) (fun h => .parts h))) (.ifThen (.ifElse (.ite h (.bump h)) (fun h => .parts h)) (fun h =>
    .bump h))

theorem Onward.endOldest {p : Nat} {f : LineFrame} (h : Onward a s) : Onward a (endOldest p f s) := by
  unfold Machine.endOldest
  dsimp only
  split
  · exact .drainFifos (.endFrame (.lineJudge (.setArriving h)))
  · split
    · exact h
    · exact .setFifo (.lineJudge h)

theorem Onward.receives {p : Nat} (h : Onward a s) (ht : receives p s = some t) : Onward a t := by
  unfold Machine.receives at ht
  split at ht
  · cases ht; exact .bump h
  · split at ht
    · cases ht; exact h
    · split at ht <;> cases ht
      exact .bump h

theorem Goes.execFrameReceive {p : Fin 48} {part : FramePart} {f : LineFrame} (h : Onward a s) : Goes a (execFrameReceive p part f s) :=
    by
  unfold Machine.execFrameReceive
  refine .next (.ite h (.ite (.endOldest h) ?_))
  split
  · next e =>
      exact .receives h e
  · exact .ite h (.ite (.bump h) (.ite (.bump h) (.ite (.takeFrame h) (.passFrame (.lineJudge h)))))

theorem Onward.unTx {p : Nat} {f : TxFrame} (h : Onward a s) : Onward a (unTx p f s) := .setTx h

theorem Onward.discardTx {p : Nat} {f : TxFrame} (h : Onward a s) : Onward a (discardTx p f s) := .endOpen (.unTx h)

theorem Onward.dropOversize {fuel p : Nat} (h : Onward a s) : Onward a (dropOversize fuel p s) := by
  induction fuel generalizing s with
  | zero => exact h
  | succ fuel ih =>
    unfold Machine.dropOversize
    split
    · exact ih (.bump (.discardTx h))
    · exact h

theorem Onward.noteMiss {p : Nat} {f : TxFrame} (h : Onward a s) : Onward a (noteMiss p f s) := .ite (.bump (.setTx h)) h

theorem Onward.dropBad {p : Nat} (h : Onward a s) : Onward a (dropBad p s) := .ite h (.setTx h)

theorem Onward.nextTx {p : Nat} (h : Onward a s) : Onward a (nextTx p s).2 :=
  .iteSnd (.forAll (.dropOversize (.dropBad h)) (fun _ _ h => .noteMiss h)) (.dropBad h)

theorem Onward.transparent {p arrival : Nat} {c : Option (BitVec 64)} (h : Onward a s) : Onward a (transparent p arrival c s).2 := by
  unfold Machine.transparent
  split
  · exact h
  · exact .iteSnd h (.iteSnd h (.bump h))

theorem Onward.finishFrame {p : Nat} {x : Sending} {fate : TxFate} (h : Onward a s) : Onward a (finishFrame p x fate s) := by
  unfold Machine.finishFrame
  split
  · exact h
  · split
    · exact .sendGood h
    · exact .sendInverted (.raiseAt (.bump h))
    · exact .bump (.sendInverted h)
    · exact .sendInverted (.coreFails h)
    · exact .sendInverted (.raiseAt h)

theorem Onward.sendFrame {p : Nat} {f : TxFrame} {pn : Option Nat} {len : Nat} {fate : TxFate} (h : Onward a s) :
    Onward a (sendFrame p f pn len fate s) := by
  unfold Machine.sendFrame
  split
  · exact .countSent (.emitLine h)
  · exact .finishFrame (.transparent h)

theorem Onward.startFrame {p : Nat} {f : TxFrame} {pn : Option Nat} {len : Nat} {fate : TxFate} (h : Onward a s) :
    Onward a (startFrame p f pn len fate s) := by
  unfold Machine.startFrame
  dsimp only
  split
  · split
    · exact .parts (.transparent h)
    · exact .finishFrame (.endOpen (.transparent h))
  · exact .sendFrame h

theorem Goes.execFrameTransmit {p : Fin 48} {fate : TxFate} (h : Onward a s) : Goes a (execFrameTransmit p fate s) := by
  unfold Machine.execFrameTransmit
  refine .next (.ite (.dropTx h) ?_)
  split
  · split
    · exact h
    · exact .finishFrame (.endOpen (.parts h))
  · split
    · next e => exact .ofSnd e (.nextTx h)
    · next e =>
      have hn := Onward.ofSnd e (.nextTx h)
      split
      · exact hn
      · exact .msCount (.discardTx hn)
      · exact .msCount (.discardTx hn)
      · exact .startFrame (.unTx hn)
      · exact .ite hn (.startFrame (.secTag (.takePn (.unTx hn))))

theorem Onward.originateSecure {p : Nat} {kind : Pdu} {args : List Nat} {len : Nat} (h : Onward a s) :
    Onward a (originateSecure p kind args len s).2 := by
  unfold Machine.originateSecure
  refine .iteSnd h (.iteSnd (.setTx h) ?_)
  split
  · exact .setTx h
  · exact .msCount h
  · exact .msCount h
  · exact .snd (.sendFrame h)
  · exact .snd (.sendFrame (.secTag (.takePn h)))

theorem Onward.endReading {ch : Nat} (h : Onward a s) : Onward a (endReading ch s) := .parts h

theorem Onward.endRetries {ch : Nat} (h : Onward a s) : Onward a (endRetries ch s) := .parts h

theorem Onward.driveModule {p : Nat} (h : Onward a s) : Onward a (driveModule p s) := .ite (.emit h) h

theorem Onward.setIdentity {x : IdPlace} {st : Nat} (h : Onward a s) : Onward a (setIdentity x st s) := by
  unfold Machine.setIdentity
  split
  · exact .condChanged (.ifThen (.ifThen (.wr h) (fun h => .raiseAt h)) (fun h => .driveModule h))
  · exact .ifThen (.wr h) (fun h => .raiseAt h)

theorem Onward.identityMoved {p old : Nat} (h : Onward a s) : Onward a (identityMoved p old s) :=
  .ite (.ite h (.setIdentity h)) (.ite (.driveModule (.setIdentity h)) (.ite (.driveModule h) h))

theorem Onward.lpCtlWritten {p old : Nat} (h : Onward a s) : Onward a (lpCtlWritten p old s) :=
  .timeChanged (.updateAggOf (.ite (.portRise (.identityMoved h)) (.ite (.portFall (.identityMoved h)) (.condChanged (.identityMoved
    h)))))

theorem Goes.execModulePoll {ch : Fin 128} {present : Bool} (h : Onward a s) : Goes a (execModulePoll ch present s) :=
  .next (.ite h (.ite (.forAll (.endRetries h) (fun _ _ h => .ite (.setIdentity (.parts h)) h)) (.forAll (.endReading h) (fun _ _ h =>
    .setIdentity h))))

theorem Goes.execIdentityReadComplete {ch : Fin 128} {r : IdentityRead} (h : Onward a s) : Goes a (execIdentityReadComplete ch r s) :=
    by
  unfold Machine.execIdentityReadComplete
  refine .next (.ite h (.forAll (.endReading h) (fun _ _ h => .ite (.setIdentity ?_) h)))
  split
  · exact .parts (.ite (.wrWord h) h)
  · exact .ite (.wrWord h) h

theorem Onward.busStuck {b : Nat} (h : Onward a s) : Onward a (busStuck b s) := .ite (.raiseAt (.parts h)) (.raiseAt (.parts h))

theorem Goes.execTwbTimeout {ch : Fin 128} {o : TwbOutcome} (h : Onward a s) : Goes a (execTwbTimeout ch o s) := by
  unfold Machine.execTwbTimeout
  refine .next (.ite h ?_)
  split
  · exact .busStuck (.emit h)
  · exact .ite (.parts (.emit h)) (.ifThen (.endReading (.emit h)) (fun h => .forAll h (fun _ _ h => .ite (.setIdentity h) h)))
  · exact .ite (.parts h) (.ifThen (.endReading h) (fun h => .forAll h (fun _ _ h => .ite (.setIdentity h) h)))

theorem Goes.execTwbRecovery {b : Fin 8} {ok : Bool} (h : Onward a s) : Goes a (execTwbRecovery b ok s) :=
  .next (.ite h (.ifThen (.emit h) (fun h => .parts h)))

theorem Onward.moduleGo {b : Nat} (h : Onward a s) : Onward a (moduleGo b s) := .wr (.ite (.emit h) h)

theorem Goes.execModuleAccessComplete {b : Fin 4} {r : ModResult} {data : BitVec 1024} (h : Onward a s) :
    Goes a (execModuleAccessComplete b r data s) :=
  .next (.ite h (.ifThen (.wr (.wr (.ite (.endRetries h) h))) (fun h => .wrWord h)))

theorem Onward.setBfd {i : Nat} {x : BfdRun} (h : Onward a s) : Onward a (setBfd i x s) := .parts h

theorem Onward.sendBfd {i : Nat} (h : Onward a s) : Onward a (sendBfd i s) := .ifThen (.originateSecure h) (fun h => .bump (.setBfd h))

theorem Onward.bfdNextDue {i : Nat} (h : Onward a s) : Onward a (bfdNextDue i s) := .setBfd (.drawChoice h)

theorem Goes.execBfdPacketReceive {p : Fin 48} {b : BfdPacket} (h : Onward a s) : Goes a (execBfdPacketReceive p b s) := by
  unfold Machine.execBfdPacketReceive
  refine .next (.ite h (.ite (.bump (.bump (.parts h))) ?_))
  split
  · exact .bump (.bump (.parts h))
  · exact .ite (.bump (.bump (.parts h))) (.ifThen (.updateAggOf (.ifThen (.wr (.wr (.wr (.setBfd (.bump (.parts h)))))) (fun h => .bump
        h))) (fun h => .sendBfd h))

theorem Goes.execBfdTransmit {i : Fin 16384} (h : Onward a s) : Goes a (execBfdTransmit i s) :=
  .next (.ite (.bfdNextDue (.sendBfd (.reachIvl h))) h)

theorem Goes.execBfdDetectExpire {i : Fin 16384} (h : Onward a s) : Goes a (execBfdDetectExpire i s) :=
  .next (.ite h (.ifElse (.wr (.wr (.wr (.setBfd (.reachIvl h))))) (fun h => .ifThen (.stateEvent (.bump h)) (fun h => .updateAggOf
    h))))

theorem Onward.bfdWritten {i old : Nat} (h : Onward a s) : Onward a (bfdWritten i old s) :=
  .ite (.setBfd (.wr (.wr (.wr h)))) (.ite (.setBfd (.wr (.wr h))) (.ite (.setBfd h) h))

theorem Onward.takeSlow {p : Nat} {x : Bool × State} (h : Onward a s) (ht : takeSlow p s = some x) : Onward a x.2 := by
  unfold Machine.takeSlow at ht
  dsimp only at ht
  split at ht
  · cases ht
  · split at ht <;> cases ht
    · exact .bump (.parts h)
    · exact .parts (.parts h)

theorem Goes.execLacpduReceive {p : Fin 48} {l : Lacpdu} (h : Onward a s) : Goes a (execLacpduReceive p l s) := by
  unfold Machine.execLacpduReceive
  refine .next ?_
  split
  · exact h
  · next e =>
      exact .takeSlow h e
  · next e =>
      exact .updateAggOf (.parts (.bump (.takeSlow h e)))

theorem Goes.execMarkerPduReceive {p : Fin 48} (h : Onward a s) : Goes a (execMarkerPduReceive p s) := by
  unfold Machine.execMarkerPduReceive
  refine .next ?_
  split
  · exact h
  · next e =>
      exact .takeSlow h e
  · next e =>
      exact .ite (.bump (.originate (.takeSlow h e))) (.takeSlow h e)

theorem Goes.execLacpPeriodic {p : Fin 48} (h : Onward a s) : Goes a (execLacpPeriodic p s) := by
  unfold Machine.execLacpPeriodic
  refine .next ?_
  split
  · exact h
  · exact .ite (.bump (.originate h)) h

theorem Goes.execLacpTimeout {p : Fin 48} (h : Onward a s) : Goes a (execLacpTimeout p s) := by
  unfold Machine.execLacpTimeout
  refine .next ?_
  split
  · exact h
  · refine .updateAgg (.parts ?_)
    split
    · exact .reachIvl h
    · exact h

/-! ## Machine/Framing -/

theorem Onward.tfCount {p i n : Nat} (h : Onward a s) : Onward a (tfCount p i n s) := .ite h (.bump h)

theorem Onward.sendOverhead {p : Nat} (h : Onward a s) : Onward a (sendOverhead p s) := .ite h (.emit (.parts h))

theorem Onward.takeActions (h : Onward a s) : Onward a (takeActions s) :=
  .forAll (.forAll (.parts h) (fun _ _ h => .sendOverhead h)) (fun _ _ h => .condChanged h)

theorem Onward.gfpHunt {w : Nat} (h : Onward a s) : Onward a (gfpHunt w s) := .ifThen (.wr (.parts h)) (fun h => .stateEvent (.wr h))

theorem Onward.selectPort {g sel : Nat} (h : Onward a s) : Onward a (selectPort g sel s) := .ite h (.gfpHunt (.bump (.wr h)))

theorem Onward.updateProt {g : Nat} (h : Onward a s) : Onward a (updateProt g s) := by
  unfold Machine.updateProt
  refine .ite h (.takeActions ?_)
  split
  · exact .selectPort (.wr h)
  · exact .wr h
  · exact .ite (.wr h) (.ite h (.ite (.wr (.parts h)) (.selectPort (.wr h))))

theorem Onward.setActing {g v : Nat} (h : Onward a s) : Onward a (setActing g v s) := .parts h

theorem Onward.noteFails {g : Nat} (h : Onward a s) : Onward a (noteFails g s) :=
  .forAll h (fun _ _ h => .ite (.parts h) (.ite h (.parts h)))

theorem Onward.defectsChanged {p : Nat} (h : Onward a s) : Onward a (defectsChanged p s) :=
  .forAll (.takeActions h) (fun _ _ h => .ifElse (.noteFails h) (fun h => .updateProt (.setActing h)))

theorem Goes.execProtectionSwitch {g : Fin 24} (h : Onward a s) : Goes a (execProtectionSwitch g s) := by
  unfold Machine.execProtectionSwitch
  refine .next (.ite h (.updateProt (.setActing ?_)))
  split
  · exact .due (.noteFails h)
  · exact .noteFails h

theorem Goes.execWtrExpire {g : Fin 24} (h : Onward a s) : Goes a (execWtrExpire g s) :=
  .next (.ite (.takeActions (.selectPort (.wr (.due h)))) h)

theorem Onward.protWritten {g old : Nat} (h : Onward a s) : Onward a (protWritten g old s) :=
  .ite (.updateProt (.noteFails (.setActing h))) (.ite (.takeActions (.setActing (.selectPort (.wr h)))) h)

theorem Onward.noteOut {k : Nat} {was now : Nat × Bool} (h : Onward a s) : Onward a (noteOut k was now s) := .ite h (.parts h)

theorem Onward.noteAlign {i : Nat} {fasOk mfasOk : Bool} (h : Onward a s) : Onward a (noteAlign i fasOk mfasOk s) :=
  .noteOut (.noteOut (.parts h))

theorem Onward.noteSig {p : Nat} {g : Signal} {v : Nat} (h : Onward a s) : Onward a (noteSig p g v s) := .parts h

theorem Onward.noteTti {p : Nat} {g : Signal} {v : Option (BitVec 512)} {accept : Nat → State → State} (h : Onward a s)
    (haccept : ∀ x s, Onward a s → Onward a (accept x s)) :
    Onward a (noteTti p g v accept s) := by
  unfold Machine.noteTti
  split
  · exact h
  · exact .ifThen (.noteSig h) (fun h => haccept _ _ h)

theorem Onward.notePt {p : Nat} {g : Signal} {k : Nat} {v : BitVec 8} (h : Onward a s) : Onward a (notePt p g k v s) :=
  .ifThen (.noteSig h) (fun h => .parts h)

theorem Onward.noteMsi {p : Nat} {v : List (Option (BitVec 14))} (h : Onward a s) : Onward a (noteMsi p v s) :=
  .ifThen (.parts h) (fun h => .parts h)

theorem Onward.noteBlock {p layer : Nat} {err : Bool} (h : Onward a s) : Onward a (noteBlock p layer err s) := .parts h

theorem Onward.passSlot {p sl content : Nat} (h : Onward a s) : Onward a (passSlot p sl content s) :=
  .forAll h (fun _ _ h => .forAll h (fun _ _ h => .emit h))

theorem Onward.slotsChanged {p old : Nat} (h : Onward a s) : Onward a (slotsChanged p old s) :=
  .ifElse (.wr h) (fun h => .ifElse (.gfpHunt h) (fun h => .ite (.goDown h) (.setLink h)))

theorem Onward.readOverhead {p : Nat} {f : OtuFrame} (h : Onward a s) : Onward a (readOverhead p f s) := by
  unfold Machine.readOverhead
  exact .noteTti (.noteTti (.noteSig (.noteSig (.noteSig (.noteSig h)))) (fun _ _ h => .wrWord h)) (fun _ _ h => .wrWord h)

theorem Onward.readPacketOverhead {w : Nat} {f : OtuFrame} (h : Onward a s) : Onward a (readPacketOverhead w f s) := by
  unfold Machine.readPacketOverhead
  dsimp only
  split
  · exact .notePt (.noteTti (.noteSig (.noteSig h)) (fun _ _ h => .parts h))
  · exact .noteTti (.noteSig (.noteSig h)) (fun _ _ h => .parts h)

theorem Goes.execOtuFrameReceive {p : Fin 48} {f : OtuFrame} (h : Onward a s) : Goes a (execOtuFrameReceive p f s) := by
  unfold Machine.execOtuFrameReceive
  dsimp only
  refine .next (.ite h ?_)
  split
  · refine .takeActions (.slotsChanged (.raiseAt (.parts (.forAll ?_ (fun _ _ h => .passSlot h)))))
    split
    · refine .raiseAt (.forAll ?_ (fun _ _ h => .emit h))
      split
      · refine .noteMsi (.notePt (.ifThen (.ifElse ?_ (fun h => .emit h)) (fun h => .readOverhead h)))
        split
        · exact .readPacketOverhead (.noteBlock (.tfCount (.tfCount (.tfCount (.tfCount (.tfCount (.tfCount (.tfCount (.noteBlock
              (.noteBlock (.noteAlign h)))))))))))
        · exact .tfCount (.tfCount (.tfCount (.tfCount (.noteBlock (.noteBlock (.noteAlign h))))))
      · refine .ifThen (.ifElse ?_ (fun h => .emit h)) (fun h => .readOverhead h)
        split
        · exact .readPacketOverhead (.noteBlock (.tfCount (.tfCount (.tfCount (.tfCount (.tfCount (.tfCount (.tfCount (.noteBlock
              (.noteBlock (.noteAlign h)))))))))))
        · exact .tfCount (.tfCount (.tfCount (.tfCount (.noteBlock (.noteBlock (.noteAlign h))))))
    · split
      · refine .noteMsi (.notePt (.ifThen (.ifElse ?_ (fun h => .emit h)) (fun h => .readOverhead h)))
        split
        · exact .readPacketOverhead (.noteBlock (.tfCount (.tfCount (.tfCount (.tfCount (.tfCount (.tfCount (.tfCount (.noteBlock
              (.noteBlock (.noteAlign h)))))))))))
        · exact .tfCount (.tfCount (.tfCount (.tfCount (.noteBlock (.noteBlock (.noteAlign h))))))
      · refine .ifThen (.ifElse ?_ (fun h => .emit h)) (fun h => .readOverhead h)
        split
        · exact .readPacketOverhead (.noteBlock (.tfCount (.tfCount (.tfCount (.tfCount (.tfCount (.tfCount (.tfCount (.noteBlock
              (.noteBlock (.noteAlign h)))))))))))
        · exact .tfCount (.tfCount (.tfCount (.tfCount (.noteBlock (.noteBlock (.noteAlign h))))))
  · refine .forAll ?_ (fun _ _ h => .passSlot h)
    split
    · refine .raiseAt (.forAll ?_ (fun _ _ h => .emit h))
      split
      · refine .noteMsi (.notePt (.ifThen (.ifElse ?_ (fun h => .emit h)) (fun h => .readOverhead h)))
        split
        · exact .readPacketOverhead (.noteBlock (.tfCount (.tfCount (.tfCount (.tfCount (.tfCount (.tfCount (.tfCount (.noteBlock
              (.noteBlock (.noteAlign h)))))))))))
        · exact .tfCount (.tfCount (.tfCount (.tfCount (.noteBlock (.noteBlock (.noteAlign h))))))
      · refine .ifThen (.ifElse ?_ (fun h => .emit h)) (fun h => .readOverhead h)
        split
        · exact .readPacketOverhead (.noteBlock (.tfCount (.tfCount (.tfCount (.tfCount (.tfCount (.tfCount (.tfCount (.noteBlock
              (.noteBlock (.noteAlign h)))))))))))
        · exact .tfCount (.tfCount (.tfCount (.tfCount (.noteBlock (.noteBlock (.noteAlign h))))))
    · split
      · refine .noteMsi (.notePt (.ifThen (.ifElse ?_ (fun h => .emit h)) (fun h => .readOverhead h)))
        split
        · exact .readPacketOverhead (.noteBlock (.tfCount (.tfCount (.tfCount (.tfCount (.tfCount (.tfCount (.tfCount (.noteBlock
              (.noteBlock (.noteAlign h)))))))))))
        · exact .tfCount (.tfCount (.tfCount (.tfCount (.noteBlock (.noteBlock (.noteAlign h))))))
      · refine .ifThen (.ifElse ?_ (fun h => .emit h)) (fun h => .readOverhead h)
        split
        · exact .readPacketOverhead (.noteBlock (.tfCount (.tfCount (.tfCount (.tfCount (.tfCount (.tfCount (.tfCount (.noteBlock
              (.noteBlock (.noteAlign h)))))))))))
        · exact .tfCount (.tfCount (.tfCount (.tfCount (.noteBlock (.noteBlock (.noteAlign h))))))

theorem Onward.clientFrame {p : Nat} {f : GfpFrame} (h : Onward a s) : Onward a (clientFrame p f s) := by
  unfold Machine.clientFrame
  split
  · next e =>
      exact .receives h e
  · exact .ite (.bump h) (.passFrame (.ifThen (.ite h (.tfCount h)) (fun h => .raiseAt h)))

theorem Onward.setCsf {p v : Nat} (h : Onward a s) : Onward a (setCsf p v s) := .ite h (.condChanged (.stateEvent (.wr h)))

theorem Onward.gfpHandle {p : Nat} {f : GfpFrame} (h : Onward a s) : Onward a (gfpHandle p f s) :=
  .ite h (.ite (.tfCount h) (.ite (.setCsf (.tfCount (.parts h))) (.ite (.tfCount h) (.clientFrame (.setCsf h)))))

theorem Onward.gfpSync {p : Nat} (h : Onward a s) : Onward a (gfpSync p s) := .ifThen (.wr (.parts h)) (fun h => .stateEvent (.wr h))

theorem Onward.gfpStep {p : Nat} {f : GfpFrame} (h : Onward a s) : Onward a (gfpStep p f s) := by
  unfold Machine.gfpStep
  split
  · exact .ite (.wr (.parts h)) h
  · exact .ite (.gfpHunt h) (.ite (.condChanged (.gfpSync h)) (.parts h))
  · exact .ite (.ifThen (.gfpHandle (.tfCount h)) (fun h => .condChanged (.gfpHunt h))) (.condChanged (.gfpHunt (.tfCount h)))

theorem Goes.execGfpFrameReceive {p : Fin 48} {f : GfpFrame} (h : Onward a s) : Goes a (execGfpFrameReceive p f s) := by
  unfold Machine.execGfpFrameReceive
  refine .next ?_
  split
  · exact h
  · exact .ite h (.gfpStep h)

theorem Onward.defectWait {p : Nat} {d : Defect} {on : Bool} (h : Onward a s) : Onward a (defectWait p d on s) := by
  unfold Machine.defectWait
  dsimp only
  split
  · split
    · exact .reachIvl h
    · exact h
  · split
    · exact .reachIvl h
    · exact h
  · refine .ite h ?_
    split
    · exact .reachIvl h
    · exact h
  · exact h

theorem Onward.setDefect {p : Nat} {d : Defect} {on : Bool} (h : Onward a s) : Onward a (setDefect p d on s) := by
  unfold Machine.setDefect
  split
  · exact .wr (.wr h)
  · exact .wr (.wr h)
  · exact .wr (.parts h)
  · exact .wr (.parts h)
  · exact .wr h

theorem Onward.changeDefect {p : Nat} {d : Defect} {on : Bool} (h : Onward a s) : Onward a (changeDefect p d on s) :=
  .ite h (.defectsChanged (.stateEvent (.setDefect h)))

theorem Goes.execDefectDeclare {p : Fin 48} {d : Defect} (h : Onward a s) : Goes a (execDefectDeclare p d s) :=
  .next (.ite (.changeDefect (.defectWait h)) h)

theorem Goes.execDefectClear {p : Fin 48} {d : Defect} (h : Onward a s) : Goes a (execDefectClear p d s) :=
  .next (.ite (.changeDefect (.defectWait h)) h)

theorem Onward.frCtlWritten {p : Nat} (h : Onward a s) : Onward a (frCtlWritten p s) := .condChanged (.defectsChanged h)

theorem Goes.execCsfTransmit {p : Fin 48} (h : Onward a s) : Goes a (execCsfTransmit p s) :=
  .next (.ite (.forAll h (fun _ _ h => .emit h)) h)

theorem Onward.swapPages (h : Onward a s) : Onward a (swapPages s) := .wr h

theorem Goes.execPageCheckComplete (h : Onward a s) : Goes a (execPageCheckComplete s) := by
  unfold Machine.execPageCheckComplete
  dsimp only
  refine .next (.ite h ?_)
  split
  · exact .wr (.wr h)
  · exact .wr (.wr (.parts h))

theorem Goes.execPageSwitch (h : Onward a s) : Goes a (execPageSwitch s) := by
  unfold Machine.execPageSwitch
  refine .next ?_
  split
  · exact .ite (.wr (.reach h)) h
  · exact h

theorem Onward.takePage {p : Nat} (h : Onward a s) : Onward a (takePage p s) :=
  .ite h (.slotsChanged (.forAll (.parts h) (fun _ _ h => .emit h)))

theorem Goes.execPageTake {p : Fin 48} (h : Onward a s) : Goes a (execPageTake p s) := .next (.ite (.takeActions (.takePage h)) h)

theorem Goes.execPageSwapEnd (h : Onward a s) : Goes a (execPageSwapEnd s) := by
  unfold Machine.execPageSwapEnd
  refine .next ?_
  split
  · exact h
  · exact .ite h (.takeActions (.parts (.wr (.wr (.forAll (.reach h) (fun _ _ h => .takePage h))))))

theorem Onward.copyPage (h : Onward a s) : Onward a (copyPage s) :=
  .parts (.forAll (.forAll h (fun _ _ h => .wrWord h)) (fun _ _ h => .wrWord h))

theorem Onward.entryWritten {i : Nat} (h : Onward a s) : Onward a (entryWritten i s) := .parts h

/-! ## Machine/Fabric -/

theorem Onward.setDst {k : Nat} {x : DstStream} (h : Onward a s) : Onward a (setDst k x s) := .parts h

theorem Onward.setMc {k : Nat} {x : McDst} (h : Onward a s) : Onward a (setMc k x s) := .parts h

theorem Onward.releaseAside {p pool n : Nat} (h : Onward a s) : Onward a (releaseAside p pool n s) := .freeBillets (.mapF h)

theorem Onward.resetStreams {m : Nat} (h : Onward a s) : Onward a (resetStreams m s) :=
  .ifElse (.parts (.forAll (.forAll h (fun _ _ h => .releaseAside h)) (fun _ _ h => .freeBillets h))) (fun h => .bump h)

theorem Onward.learnInc {m inc : Nat} (h : Onward a s) : Onward a (learnInc m inc s) := .ite h (.parts (.resetStreams h))

theorem Onward.drawInc (h : Onward a s) : Onward a (drawInc s) := .parts (.drawEntropy h)

theorem Onward.startFab (h : Onward a s) : Onward a (startFab s) :=
  .timeChanged (.rebuildRoutes (.parts (.forAll (.drawInc (.parts (.forAll h (fun _ _ h => .resetStreams h)))) (fun _ _ h => .moveLink
    h))))

theorem Onward.toMismatch {k cause : Nat} (h : Onward a s) : Onward a (toMismatch k cause s) := .raiseEach (.moveLink h)

theorem Onward.bringUp {k : Nat} (h : Onward a s) : Onward a (bringUp k s) := .ite (.moveLink h) (.ite (.moveLink h) (.moveLink h))

theorem Goes.execLinkTrainingStart {k : Fin 64} (h : Onward a s) : Goes a (execLinkTrainingStart k s) := .next (.ite (.moveLink h) h)

theorem Goes.execLinkTrained {k : Fin 64} (h : Onward a s) : Goes a (execLinkTrained k s) :=
  .next (.ite (.moveLink (.setFl (.drawChoice h))) h)

theorem Goes.execHelloSend {k : Fin 64} (h : Onward a s) : Goes a (execHelloSend k s) := .next (.ite (.emit h) h)

theorem Onward.showHello {k : Nat} {hd : Hello} (h : Onward a s) : Onward a (showHello k hd s) := .wr (.wr (.wr h))

theorem Goes.execHelloReceive {k : Fin 64} {hd : Hello} (h : Onward a s) : Goes a (execHelloReceive k hd s) :=
  .next (.ite h (.ite (.ifElse (.showHello (.setFl h)) (fun h => .toMismatch h)) (.ifElse (.showHello (.setFl h)) (fun h => .ite
    (.toMismatch h) (.ite (.bringUp h) (.setFl h))))))

theorem Goes.execMismatchRecheck {k : Fin 64} (h : Onward a s) : Goes a (execMismatchRecheck k s) := by
  unfold Machine.execMismatchRecheck
  refine .next (.ite h ?_)
  split
  · exact h
  · exact .ite (.moveLink h) (.ite (.moveLink h) (.toMismatch h))

theorem Goes.execKeepaliveLoss {k : Fin 64} (h : Onward a s) : Goes a (execKeepaliveLoss k s) := .next (.ite (.moveLink h) h)

theorem Goes.execCongestionSample {k : Fin 64} (h : Onward a s) : Goes a (execCongestionSample k s) :=
  .next (.ite h (.ifThen (.wr (.setFl h)) (fun h => .wr h)))

theorem Onward.declareDown {k : Nat} (h : Onward a s) : Onward a (declareDown k s) := .ite (.moveLink (.emit h)) h

theorem Goes.execFabricLinkDown {k : Fin 64} (h : Onward a s) : Goes a (execFabricLinkDown k s) := .next (.declareDown h)

theorem Goes.execDownNoticeReceive {k : Fin 64} (h : Onward a s) : Goes a (execDownNoticeReceive k s) := .next (.declareDown h)

theorem Onward.leaveQuar {k : Nat} (h : Onward a s) : Onward a (leaveQuar k s) :=
  .ite h (.ite (.moveLink h) (.ite (.moveLink h) (.setFl h)))

theorem Goes.execQuarHoldExpire {k : Fin 64} (h : Onward a s) : Goes a (execQuarHoldExpire k s) := .next (.ite (.leaveQuar (.due h)) h)

theorem Goes.execQuarantineTrialEnd {k : Fin 64} {clean : Bool} (h : Onward a s) : Goes a (execQuarantineTrialEnd k clean s) :=
  .next (.ite (.ite (.moveLink (.ite (.due h) h)) (.setFl (.ite (.due h) h))) h)

theorem Onward.flCtlWritten {k old : Nat} (h : Onward a s) : Onward a (flCtlWritten k old s) :=
  .ite h (.ite (.moveLink h) (.ite (.ite h (.moveLink h)) (.ite (.leaveQuar h) h)))

theorem Goes.execLinkStateRecord {k : Fin 64} {r : LinkRecord} (h : Onward a s) : Goes a (execLinkStateRecord k r s) :=
  .next (.ite h (.ifThen (.floodRecord (.holdRecord (.ite h (.learnInc h)))) (fun h => .raiseAt (.ifElse (.wr h) (fun h => .wr (.wr (.wr
    h)))))))

theorem Goes.execRecordRefresh (h : Onward a s) : Goes a (execRecordRefresh s) := .next (.genRecord h)

theorem Goes.execRecordExpire {addr : Fin 4096} (h : Onward a s) : Goes a (execRecordExpire addr s) := by
  unfold Machine.execRecordExpire
  refine .next ?_
  split
  · exact h
  · exact .parts (.due h)

theorem Goes.execRouteRebuild {bad : Option (Fin 4096)} (h : Onward a s) : Goes a (execRouteRebuild bad s) := by
  unfold Machine.execRouteRebuild
  refine .next (.ifThen ?_ (fun h => .rebuildRoutes h))
  split
  · exact .raiseAt h
  · exact h

theorem Onward.emptyQueue {q : Nat} (h : Onward a s) : Onward a (emptyQueue q s).2 :=
  .settleQueue (.setQ (.mapF (.forAll (.forAll h (fun _ _ h => .endRef (.leaveOcc h))) (fun _ _ h => .freePage h))))

theorem Goes.execUnreachFlush {n : Fin 4096} (h : Onward a s) : Goes a (execUnreachFlush n s) := by
  unfold Machine.execUnreachFlush
  refine .next (.ite h (.forAll ?_ (fun _ _ h => .ifElse (.emptyQueue h) (fun h => .bump h))))
  split
  · exact .due h
  · exact h

/-! ## Machine/Transport -/

theorem Onward.setSrc {q : Nat} {x : SrcStream} (h : Onward a s) : Onward a (setSrc q x s) := .parts h

theorem Onward.setMs {k : Nat} {x : SrcStream} (h : Onward a s) : Onward a (setMs k x s) := .parts h

theorem Onward.followArrival {old new : Nat} (h : Onward a s) : Onward a (followArrival old new s) := .parts h

theorem Onward.takeTurn {q : Nat} (h : Onward a s) (ht : takeTurn q s = some t) : Onward a t := by
  unfold Machine.takeTurn at ht
  dsimp only at ht
  split at ht
  · split at ht <;> cases ht
    exact .parts h
  · split at ht
    · cases ht
    · split at ht <;> cases ht
      exact .parts h

theorem Onward.deliverTo {p tc src hash : Nat} {r : Ref} (h : Onward a s) : Onward a (deliverTo p tc src hash r s) := by
  unfold Machine.deliverTo
  dsimp only
  split
  · exact .egressEnqueue h
  · split
    · exact .egressEnqueue h
    · exact .endRef (.bump h)

theorem Onward.rebuilt {k : Nat} {p : Packet} {prec : Nat} {from_ : Option Nat} (h : Onward a s) :
    Onward a (rebuilt k p prec from_ s) := by
  unfold Machine.rebuilt
  refine .ite (.bump (.freeBillets (.mapF (.setDst h)))) (.deliverTo ?_)
  split
  · exact .followArrival (.storeArrival (.freeBillets (.mapF (.setDst h))))
  · exact .storeArrival (.freeBillets (.mapF (.setDst h)))

theorem Onward.rebuildAll {fuel k off : Nat} (h : Onward a s) : Onward a (rebuildAll fuel k off s) := by
  induction fuel generalizing s with
  | zero => exact h
  | succ fuel ih =>
    unfold Machine.rebuildAll
    dsimp only
    split
    · exact h
    · exact .setDst h
    · exact ih (.rebuilt (.setDst h))

theorem Onward.feed {k : Nat} {hd : HeldCell} (h : Onward a s) : Onward a (feed k hd s) := by
  unfold Machine.feed
  split
  · exact .ifElse (.setDst h) (fun h => .bump h)
  · exact .ite (.rebuildAll (.setDst h)) (.ite h (.rebuildAll (.setDst h)))

theorem Onward.applyCredit {k spent backlog : Nat} (h : Onward a s) : Onward a (applyCredit k spent backlog s) :=
  .setDst (.ite h (.releaseAside h))

theorem Onward.applyWaits {k : Nat} (h : Onward a s) : Onward a (applyWaits k s) := .forAll (.setDst h) (fun _ _ h => .applyCredit h)

theorem Onward.drain {fuel k : Nat} (h : Onward a s) : Onward a (drain fuel k s) := by
  induction fuel generalizing s with
  | zero => exact h
  | succ fuel ih =>
    unfold Machine.drain
    dsimp only
    split
    · exact .applyWaits h
    · exact ih (.feed (.setDst h))

theorem Onward.noteGap {k : Nat} {old : DstStream} (h : Onward a s) : Onward a (noteGap k old s) := .ite h (.setDst h)

theorem Onward.reassemble {k : Nat} {c : Cell} {poisoned : Bool} (h : Onward a s) : Onward a (reassemble k c poisoned s) :=
  .ite (.ite (.bump h) h) (.ite (.noteGap (.drain (.setDst (.ite (.bump h) h)))) (.ite (.setDst h) (.noteGap (.drain (.setDst h)))))

theorem Onward.spreadLocal {src tc g prec : Nat} {p : Packet} (h : Onward a s) : Onward a (spreadLocal src tc g prec p s) := by
  unfold Machine.spreadLocal
  have hs : Onward a (Machine.storeArrival p s).2 := .storeArrival h
  dsimp only
  split
  · exact .endRef (.ifThen (.ifElse hs fun h => .bump h) fun h => .bump h)
  · refine .deliverTo (.forAll (.ifElse hs fun h => .bump h) fun _ s h => ?_)
    split
    · next e => exact .deliverTo (.ofLease h e)
    · next e => exact .ofSnd e (.takeLease h)

theorem Onward.decideCopy {k c : Nat} (h : Onward a s) : Onward a (decideCopy k c s).2 :=
  .iteSnd (.setMc h) (.bump (.freeBillets (.setMc h)))

theorem Onward.dropCopy {k ctr : Nat} (h : Onward a s) : Onward a (dropCopy k ctr s) := by
  unfold Machine.dropCopy
  dsimp only
  split
  · exact .bump (.freeBillets (.setMc h))
  · exact .setMc h

theorem Onward.collectCopy {src tc : Nat} {c : Cell} {poisoned : Bool} (h : Onward a s) : Onward a (collectCopy src tc c poisoned s) :=
    by
  unfold Machine.collectCopy
  dsimp only
  refine .ite (.ite (.dropCopy (.ite h (.dropCopy h))) (.ifThen (.ite h (.dropCopy h)) (fun h => .bump h))) (.ifElse (.ite h (.dropCopy
      h)) (fun h => ?_))
  split
  · exact .setMc (.ifThen h (fun h => .decideCopy h))
  · split
    · exact .ite (.bump (.freeBillets (.setMc (.ifThen h (fun h => .decideCopy h))))) (.spreadLocal (.freeBillets (.setMc (.ifThen h
          (fun h => .decideCopy h)))))
    · exact .setMc (.ifThen h (fun h => .decideCopy h))

theorem Onward.sendBranches {src : Nat} {c : FabCell} (h : Onward a s) : Onward a (sendBranches src c s) := by
  unfold Machine.sendBranches
  refine .leaveSlot (.ifElse (.forAll h (fun _ _ h => ?_)) (fun h => .bump h))
  split
  · exact .queueCell h
  · exact .bump h

theorem Onward.sendCells {q : Nat} {twice : Bool} {l : List (List Piece × Nat)} (h : Onward a s) : Onward a (sendCells q twice l s) :=
  .forAll h (fun _ _ h => .ifThen (.routeCell (.setSrc h)) (fun h => .routeCell h))

theorem Onward.closeCell {q : Nat} {twice : Bool} (h : Onward a s) : Onward a (closeCell q twice s) := .ite h (.sendCells (.setSrc h))

theorem Onward.closeOpen {q done : Nat} {r : Ref} (h : Onward a s) : Onward a (closeOpen q r done s) := by
  unfold Machine.closeOpen
  dsimp only
  refine .endRef ?_
  split
  · exact .sendCells (.setSrc h)
  · exact .ifThen (.routeCell (.setSrc (.sendCells (.setSrc h)))) fun h => .routeCell h

theorem Onward.noteDequeue {q : Nat} {p : Packet} {r : Ref} (h : Onward a s) : Onward a (noteDequeue q p r s) := .ite (.twinRecord h) h

theorem Onward.sendHead {q : Nat} (h : Onward a s) : Onward a (sendHead q s) := by
  unfold Machine.sendHead
  split
  · exact h
  · next r u e =>
    have hp : Onward a u := .popHead h e
    split
    · exact hp
    · next p _ =>
      have hd : Onward a (Machine.noteDequeue q p r (Machine.leaveOcc r u)) := .noteDequeue (.leaveOcc hp)
      refine .ite (.endRef hd) (.ite (.rebuilt (.endRef (.setSrc hd))) ?_)
      dsimp only
      generalize cut 64 _ _ _ _ = cells
      have hs {x y} : Onward a (Machine.setSrc q y (Machine.setSrc q x (Machine.noteDequeue q p r (Machine.leaveOcc r u)))) :=
        .setSrc (.setSrc hd)
      refine .ifElse (.sendCells (.iteSnd ?_ (.snd hs))) fun h => .endRef (.ifElse h fun h => .closeCell h)
      split
      · next e => exact .snd (.endLeaseOn (.ofLease hs e))
      · next e => exact .snd (.ofSnd e (.takeLease hs))

theorem Goes.execVoqSend {st : StreamId} (h : Onward a s) : Goes a (execVoqSend st s) := by
  unfold Machine.execVoqSend
  dsimp only
  refine .next ?_
  split
  · exact h
  · next e =>
      split
      · exact .ite h (.closeOpen h)
      · next e =>
          refine .ite ?_ h
          split
          · next e =>
              exact .sendHead (.takeTurn h e)
          · exact h

theorem Onward.sendMulticast {tc : Nat} (h : Onward a s) : Onward a (sendMulticast tc s) := by
  unfold Machine.sendMulticast
  split
  · exact h
  · next r u e =>
    have hp : Onward a u := .popHead h e
    split
    · exact hp
    · next p _ =>
      have hd : Onward a (Machine.noteDequeue (mqOf tc) p r (Machine.leaveOcc r u)) := .noteDequeue (.leaveOcc hp)
      refine .ite (.endRef hd) ?_
      dsimp only
      generalize cut 64 _ _ _ _ = cells
      refine .endRef (.ifThen (.forAll (.forAll hd fun _ _ h => .setMs h) fun _ _ h => .sendBranches (.parts h)) fun h => ?_)
      exact .ifElse (.decideCopy h) fun h => .ite (.bump (.freeBillets (.setMc h))) (.spreadLocal (.freeBillets (.setMc h)))

theorem Goes.execMulticastSend {tc : Fin 8} (h : Onward a s) : Goes a (execMulticastSend tc s) := by
  unfold Machine.execMulticastSend
  refine .next (.ite ?_ h)
  split
  · next e =>
      exact .sendMulticast (.takeTurn h e)
  · exact h

theorem Goes.execCopyTimeout {tc : Fin 8} (h : Onward a s) : Goes a (execCopyTimeout tc s) := by
  unfold Machine.execCopyTimeout
  refine .next ?_
  split
  · exact h
  · exact .ite h (.sendMulticast (.bump (.reachIvl h)))

theorem Onward.creditBack {k vc n : Nat} (h : Onward a s) : Onward a (creditBack k vc n s) := .setFl h

theorem Goes.execCreditWord {k : Fin 64} {credits : List Nat} (h : Onward a s) : Goes a (execCreditWord k credits s) :=
  .next (.ite (.forAll h (fun _ _ h => .creditBack h)) h)

theorem Onward.carryCredits {k : Nat} {c : Cell} (h : Onward a s) : Onward a (carryCredits k c s).2 := by
  unfold Machine.carryCredits
  dsimp only
  split
  · exact h
  · exact .setFl h

theorem Goes.execCellForward {k : Fin 64} (h : Onward a s) : Goes a (execCellForward k s) := by
  unfold Machine.execCellForward
  refine .next (.ite h ?_)
  split
  · split
    · exact .ite h (.bump (.setFl h))
    · exact h
  · exact .returnCredits (.leaveSlot (.ifThen (.bump (.emit (.carryCredits (.setFl h)))) (fun h => .bump h)))

theorem Onward.linkError {k : Nat} {fec : Bool} (h : Onward a s) : Onward a (linkError k fec s) :=
  .ifThen (.bump (.setFl h)) (fun h => .moveLink h)

theorem Onward.streamBad {q : Nat} (h : Onward a s) : Onward a (streamBad q s) :=
  .ifElse (.raiseAt h) (fun h => .applyWaits (.bump (.bump (.setDst h))))

theorem Onward.groupBad {g : Nat} (h : Onward a s) : Onward a (groupBad g s) := .raiseAt (.parts h)

theorem Onward.cellFault {k : Nat} {c : Cell} {f : CellFault} (h : Onward a s) : Onward a (cellFault k c f s).2 := by
  unfold Machine.cellFault
  split
  · exact .raiseAt h
  · exact .raiseAt h
  · exact .ite (.raiseAt h) (.streamBad h)
  · exact .ite (.groupBad h) h
  · exact h

theorem Goes.execCellReceive {k : Fin 64} {cell : Cell} {fault : CellFault} (h : Onward a s) : Goes a (execCellReceive k cell fault s) :=
  .next (.ite h (.ite (.linkError (.freeSlot (.ifElse (.ifThen (.bump h) (fun h => .linkError h)) (fun h => .bump h)))) (.ite (.ifThen
    (.sendBranches (.ifThen (.parts (.cellFault (.ifElse (.creditBack (.ifElse (.ifThen (.bump h) (fun h => .linkError h)) (fun h =>
    .bump h))) (fun h => .linkError h)))) (fun h => .bump h))) (fun h => .collectCopy h)) (.ite (.routeCell (.ifThen (.parts (.cellFault
    (.ifElse (.creditBack (.ifElse (.ifThen (.bump h) (fun h => .linkError h)) (fun h => .bump h))) (fun h => .linkError h)))) (fun h =>
    .bump h))) (.ifElse (.freeSlot (.parts (.cellFault (.ifElse (.creditBack (.ifElse (.ifThen (.bump h) (fun h => .linkError h))
    (fun h => .bump h))) (fun h => .linkError h))))) (fun h => .reassemble h))))))

theorem Goes.execReorderTimeout {st : StreamId} (h : Onward a s) : Goes a (execReorderTimeout st s) := by
  unfold Machine.execReorderTimeout
  dsimp only
  refine .next ?_
  split
  · exact h
  · split
    · exact h
    · exact .noteGap (.drain (.bump (.bump (.setDst (.reachIvl h)))))

theorem Onward.sendControl {n kind : Nat} {args : List Nat} (h : Onward a s) : Onward a (sendControl n kind args s).2 := by
  unfold Machine.sendControl
  split
  · exact .emit h
  · exact h

theorem Onward.accepts {m : CreditMsg} {zeroOk : Bool} (h : Onward a s) (ht : accepts m zeroOk s = some t) : Onward a t := by
  unfold Machine.accepts at ht
  dsimp only at ht
  split at ht
  · cases ht; exact h
  · split at ht <;> cases ht
    exact .learnInc h

theorem Onward.discardMsg (h : Onward a s) : Onward a (discardMsg s) := .bump h

theorem Onward.creditNote {peer tc port spent backlog next : Nat} (h : Onward a s) :
    Onward a (creditNote peer tc port spent backlog next s) := by
  unfold Machine.creditNote
  dsimp only
  refine .ite (.setMc h) ?_
  split
  · exact .applyCredit h
  · exact .applyCredit h
  · exact .setDst h

theorem Goes.execRequestReceive {m : CreditMsg} (h : Onward a s) : Goes a (execRequestReceive m s) := by
  unfold Machine.execRequestReceive
  refine .next ?_
  split
  · next e =>
      exact .creditNote (.accepts h e)
  · exact .discardMsg h

theorem Goes.execReturnReceive {m : CreditMsg} (h : Onward a s) : Goes a (execReturnReceive m s) := by
  unfold Machine.execReturnReceive
  refine .next ?_
  split
  · next e =>
      exact .creditNote (.accepts h e)
  · exact .discardMsg h

theorem Onward.takeGrant {peer tc port granted : Nat} (h : Onward a s) : Onward a (takeGrant peer tc port granted s) :=
  .ite (.setMs h) (.setSrc h)

theorem Goes.execGrantReceive {m : CreditMsg} (h : Onward a s) : Goes a (execGrantReceive m s) := by
  unfold Machine.execGrantReceive
  refine .next ?_
  split
  · next e =>
      exact .takeGrant (.accepts h e)
  · exact .discardMsg h

theorem Onward.takeSync {peer tc sent : Nat} (h : Onward a s) : Onward a (takeSync peer tc sent s) := .setMc (.freeBillets h)

theorem Goes.execSyncReceive {m : CreditMsg} (h : Onward a s) : Goes a (execSyncReceive m s) := by
  unfold Machine.execSyncReceive
  refine .next ?_
  split
  · next e =>
      exact .takeSync (.accepts h e)
  · exact .discardMsg h

theorem Goes.execRequestSend {st : StreamId} (h : Onward a s) : Goes a (execRequestSend st s) := by
  unfold Machine.execRequestSend
  refine .next ?_
  split
  · next e =>
      refine .ite h (.ite (.creditNote (.bump (.setSrc h))) ?_)
      split
      · next e =>
          exact .bump (.ofSnd e (.sendControl (.setSrc h)))
      · exact h
  · next e =>
      refine .ite h (.ite (.creditNote (.bump (.setMs h))) ?_)
      split
      · next e =>
          exact .bump (.ofSnd e (.sendControl (.setMs h)))
      · exact h

theorem Goes.execCreditKeepExpire {st : StreamId} (h : Onward a s) : Goes a (execCreditKeepExpire st s) := by
  unfold Machine.execCreditKeepExpire
  refine .next ?_
  split
  · exact h
  · exact .ite h (.ite (.creditNote (.setSrc (.closeCell (.reachIvl h)))) (.sendControl (.setSrc (.closeCell (.reachIvl h)))))

theorem Goes.execSyncSend {n : Fin 4096} {tc : Fin 8} (h : Onward a s) : Goes a (execSyncSend n tc s) := by
  unfold Machine.execSyncSend
  refine .next (.ite h (.ite (.takeSync (.setMs (.due h))) ?_))
  split
  · next e =>
      exact .ofSnd e (.sendControl (.setMs (.due h)))
  · exact .due h

theorem Onward.giveGrant {k n : Nat} (h : Onward a s) : Onward a (giveGrant k n s) := by
  unfold Machine.giveGrant
  dsimp only
  split
  · exact h
  · next e =>
      exact .ite (.takeGrant (.bump (.mapF (.setDst (.drawBillets h e))))) (.sendControl (.bump (.mapF (.setDst (.drawBillets h e)))))

theorem Onward.grantTurn {k : Nat} (h : Onward a s) (ht : grantTurn k s = some t) : Onward a t := by
  unfold Machine.grantTurn at ht
  dsimp only at ht
  split at ht
  · split at ht <;> cases ht
    exact .parts h
  · split at ht
    · cases ht
    · split at ht <;> cases ht
      exact .parts h

theorem Onward.grantMulticast {src tc : Nat} (h : Onward a s) : Onward a (grantMulticast src tc s) := by
  unfold Machine.grantMulticast
  refine .ite h ?_
  split
  · exact h
  · next e =>
      exact .ite (.takeGrant (.bump (.setMc (.drawBillets h e)))) (.sendControl (.bump (.setMc (.drawBillets h e))))

theorem Goes.execGrant {st : StreamId} (h : Onward a s) : Goes a (execGrant st s) := by
  unfold Machine.execGrant
  refine .next ?_
  split
  · exact .grantMulticast h
  · next e =>
      refine .ite h ?_
      split
      · next e =>
          exact .giveGrant (.grantTurn h e)
      · exact h

/-! ## Machine/Hbm -/

theorem Onward.raiseRaw {st inst kind b : Nat} (h : Onward a s) : Onward a (raiseRaw st inst kind b s) := .raise h

theorem Goes.execHbmRequest {st : Fin 6} {r : HbmReq} (h : Onward a s) : Goes a (execHbmRequest st r s) := .next (.hbmOffer h)

theorem Onward.activateRow {st pc b row r : Nat} (h : Onward a s) : Onward a (activateRow st pc b row r s) :=
  .ite (.setStackFrom h (.pcCount h) rfl) (.raiseRaw (.wr (.wr (.wr (.wr (.setStackFrom h (.pcCount h) rfl))))))

theorem Onward.issueRequest {st pc : Nat} {hd : HbmHeld} {asAged : Bool} (h : Onward a s) : Onward a (issueRequest st pc hd asAged s) :=
  .pcCount (.setStack (.ite h (.activateRow h)) rfl)

theorem Onward.noteThrottle {st pc : Nat} (h : Onward a s) : Onward a (noteThrottle st pc s) :=
  .ite h (.forAll (.setStack h rfl) (fun _ _ h => .rqCount h))

theorem Goes.execHbmCommandIssue {st : Fin 6} {pc : Fin 16} {refreshDue : Bool} (h : Onward a s) :
    Goes a (execHbmCommandIssue st pc refreshDue s) := by
  unfold Machine.execHbmCommandIssue
  have hn : Onward a (Machine.noteThrottle st.val pc.val s) := .noteThrottle h
  refine .next (.ite h (.ite (.pcCount (.setStack hn rfl)) ?_))
  dsimp only
  split
  · exact .pcCount (.setStackFrom hn (.setStack hn rfl) rfl)
  · split
    · exact .issueRequest (.setStack hn rfl)
    · exact .setStack hn rfl

theorem Onward.showRetrain {st : Nat} (h : Onward a s) : Onward a (showRetrain st s) := by
  unfold Machine.showRetrain
  split
  · exact .wr (.wr h)
  · exact .wr h

theorem Onward.queueRetrain {st c : Nat} (h : Onward a s) : Onward a (queueRetrain st c s) := .ite h (.showRetrain (.setStack h rfl))

theorem Onward.correctedOn {st pc : Nat} (h : Onward a s) : Onward a (correctedOn st pc s) :=
  .ifThen (.pcCount (.setStack h rfl)) (fun h => .queueRetrain (.setStack h rfl))

theorem Onward.oweBack {st b : Nat} (h : Onward a s) : Onward a (oweBack st b s) := .ite h (.setStack h rfl)

theorem Onward.offerBacks {st : Nat} (h : Onward a s) : Onward a (offerBacks st s) := by
  unfold Machine.offerBacks
  dsimp only
  refine .forAll h (fun _ _ h => ?_)
  split
  · next e =>
      exact .setStack (.ofSnd e (.hbmOfferAs h)) rfl
  · next e =>
      exact .ofSnd e (.hbmOfferAs h)

theorem Goes.execHbmRequestComplete {st : Fin 6} {pc : Fin 16} {ecc : EccOutcome} (h : Onward a s) :
    Goes a (execHbmRequestComplete st pc ecc s) := by
  unfold Machine.execHbmRequestComplete
  refine .next ?_
  split
  · exact h
  · refine .offerBacks ?_
    split
    · exact .ifThen (.dropRequest h) (fun h => .storeLine h)
    · exact .correctedOn (.ifElse (.ifThen (.dropRequest h) (fun h => .storeLine h)) (fun h => .oweBack h))
    · exact .raiseRaw (.pcCount (.ifThen (.dropRequest h) (fun h => .storeLine h)))

theorem Goes.execHbmRequestTimeout {st : Fin 6} {pc : Fin 16} (h : Onward a s) : Goes a (execHbmRequestTimeout st pc s) := by
  unfold Machine.execHbmRequestTimeout
  refine .next ?_
  split
  · exact h
  · exact .queueRetrain (.raiseRaw (.dropRequest (.due h)))

theorem Goes.execScrubberRead {st : Fin 6} {ecc : EccOutcome} (h : Onward a s) : Goes a (execScrubberRead st ecc s) := by
  unfold Machine.execScrubberRead
  refine .next (.ite h ?_)
  dsimp only
  split
  · exact .stackParts (.due h)
  · exact .offerBacks (.correctedOn (.oweBack (.stackParts (.due h))))
  · exact .ifThen (.drawChoice (.raiseRaw (.pcCount (.stackParts (.due h))))) fun h => .storeLine h

theorem Goes.execRefreshWindowEnd {st : Fin 6} (h : Onward a s) : Goes a (execRefreshWindowEnd st s) := by
  unfold Machine.execRefreshWindowEnd
  refine .next (.wr (.forAll ?_ (fun _ _ h => .ite (.wr h) h)))
  exact .stackParts (.due h)

theorem Goes.execTemperatureRead {st : Fin 6} {temp : Nat} (h : Onward a s) : Goes a (execTemperatureRead st temp s) :=
  .next (.ifThen (.ifThen (.ite (.wr (.wr h)) (.ifThen (.wr h) (fun h => .wr h))) (fun h => .atMost h (fun _ h => .raiseRaw h)))
    (fun h => .forAll h (fun _ _ h => .queueRetrain h)))

theorem Goes.execReadRecentre {st : Fin 6} {ch : Fin 8} (h : Onward a s) : Goes a (execReadRecentre st ch s) := .next h

theorem Goes.execRetrainSlice {st : Fin 6} {ch : Fin 8} {ok : Bool} (h : Onward a s) : Goes a (execRetrainSlice st ch ok s) :=
  .next (.ite h (.ite (.setStack h rfl) (.showRetrain (.ite (.satF (.wr (.wr (.setStack h rfl)))) (.raise (.wr (.setStack h rfl)))))))

theorem Goes.execRetrainRetry {st : Fin 6} {ch : Fin 8} (h : Onward a s) : Goes a (execRetrainRetry st ch s) := by
  unfold Machine.execRetrainRetry
  refine .next (.ite (.queueRetrain ?_) h)
  exact .stackParts (.due h)

theorem Goes.execHbmTrainingComplete {st : Fin 6} {unusable : BitVec 8} {repairs : List Nat} (h : Onward a s) :
    Goes a (execHbmTrainingComplete st unusable repairs s) :=
  .next (.ite h (.forAll (.wr (.wr (.setStackOf h fun _ => ⟨.nil, nofun⟩))) fun _ _ h =>
    .ifThen (.wr (.wr (.wr h))) fun h => .raise h))

/-! ## Machine/Time -/

theorem Onward.sendPtp {p : Nat} {kind : Pdu} {args : List Nat} {n : Nat} (h : Onward a s) : Onward a (sendPtp p kind args n s) :=
  .ite (.forAll h (fun _ _ h => .bump (.originate h))) h

theorem Onward.answerPtp {p : Nat} {kind : Pdu} {args : List Nat} {n : Nat} (h : Onward a s) : Onward a (answerPtp p kind args n s) :=
  .ite (.bump (.originate h)) h

theorem Goes.execSyncTransmit {p : Fin 48} (h : Onward a s) : Goes a (execSyncTransmit p s) :=
  .next (.ite h (.ite (.sendPtp (.sendPtp h)) (.sendPtp h)))

theorem Goes.execDelayReqTransmit {p : Fin 48} (h : Onward a s) : Goes a (execDelayReqTransmit p s) := .next (.ite (.answerPtp h) h)

theorem Goes.execAnnounceTransmit {p : Fin 48} (h : Onward a s) : Goes a (execAnnounceTransmit p s) := .next (.ite h (.sendPtp h))

theorem Goes.execAnnounceTimeout {p : Fin 48} (h : Onward a s) : Goes a (execAnnounceTimeout p s) :=
  .next (.ifThen (.ite (.due h) h) (fun h => .timeChanged (.setPt h)))

theorem Goes.execPcsDelayCalibrate {p : Fin 48} (h : Onward a s) : Goes a (execPcsDelayCalibrate p s) :=
  .next (.ite (.timeChanged (.wr h)) h)

theorem Onward.measurePort {p : Nat} (h : Onward a s) : Onward a (measurePort p s) := by
  unfold Machine.measurePort
  split
  · exact .ite (.timeChanged (.measure h)) h
  · exact h

theorem Onward.servePtp {p : Nat} {m : PtpMsg} (h : Onward a s) : Onward a (servePtp p m s) := by
  unfold Machine.servePtp
  dsimp only
  split
  · exact .ite (.setPt h) (.measurePort (.setPt h))
  · split
    · exact .measurePort (.setPt h)
    · exact h
  · exact .ite (.answerPtp h) h
  · split
    · exact .measurePort (.wr h)
    · exact h
  · exact .timeChanged (.setPt h)
  · split
    · exact .answerPtp (.ite (.wr h) h)
    · exact .answerPtp h
    · exact .mapF h
    · exact h

theorem Goes.execPtpMessageReceive {p : Fin 48} {m : PtpMsg} (h : Onward a s) : Goes a (execPtpMessageReceive p m s) :=
  .next (.ite h (.ite (.bump (.bump (.setPt h))) (.ite (.bump (.setPt (.bump (.setPt h)))) (.ite (.bump (.setPt (.bump (.setPt h))))
    (.ite (.bump (.setPt (.bump (.setPt h)))) (.servePtp (.setPt (.bump (.setPt h)))))))))

theorem Goes.execTimeStep (h : Onward a s) : Goes a (execTimeStep s) := by
  unfold Machine.execTimeStep
  refine .next ?_
  split
  · exact h
  · exact .forAll (.parts (.advance h)) (fun _ _ h => .gateStep h)

theorem Goes.execHoldoverReady (h : Onward a s) : Goes a (execHoldoverReady s) := .next (.ite (.wr (.due h)) h)

theorem Goes.execHoldoverExpire (h : Onward a s) : Goes a (execHoldoverExpire s) := .next (.ite (.raise (.timeChanged (.wr (.due h)))) h)

theorem Onward.timeControl {c : Hdr} {res : BitVec 24} {inRange : Bool} {allowed : State → Bool} {f : State → State} (h : Onward a s)
    (hf : ∀ s, Onward a s → Onward a (f s)) :
    Onward a (timeControl c res inRange allowed f s) := by
  unfold Machine.timeControl
  exact .checked h (fun _ h => .need h (fun _ h => .need h (fun _ h => .ok (hf _ h))))

theorem Goes.execTimeControlSet {c : Hdr} {other : Unlisted} {res : BitVec 24} {value : BitVec 96} (h : Onward a s) :
    Goes a (execTimeControlSet c other res value s) :=
  .next (.timeControl h (fun _ h => .parts h))

theorem Goes.execTimeControlOffset {c : Hdr} {res : BitVec 24} {value : BitVec 96} (h : Onward a s) :
    Goes a (execTimeControlOffset c res value s) :=
  .next (.timeControl h (fun _ h => .parts h))

theorem Goes.execForceHoldover {c : Hdr} {res : BitVec 24} {value : BitVec 96} (h : Onward a s) :
    Goes a (execForceHoldover c res value s) :=
  .next (.timeControl h (fun _ h => .timeChanged (.toHold h)))

theorem Goes.execTimeControlRelease {c : Hdr} {res : BitVec 24} {value : BitVec 96} (h : Onward a s) :
    Goes a (execTimeControlRelease c res value s) :=
  .next (.timeControl h (fun _ h => .timeChanged (.toAcquire h)))

theorem Goes.execKeepaliveSend {k : Fin 64} (h : Onward a s) : Goes a (execKeepaliveSend k s) := by
  unfold Machine.execKeepaliveSend
  refine .next (.ite (.emit h) (.ite h (.ite (.setLt (.emit (.ite (.parts h) h))) ?_)))
  split
  · exact .setLt (.emit h)

theorem Onward.watchParent {off : Int} (h : Onward a s) : Onward a (watchParent off s) := by
  unfold Machine.watchParent
  refine .ite ?_ (.parts h)
  split
  · exact .parts h
  · exact .ite (.raise (.parts h)) h

theorem Onward.followOffset {k : Nat} {off : Int} (h : Onward a s) : Onward a (followOffset k off s) := by
  unfold Machine.followOffset
  split
  · exact .ite (.timeChanged (.watchParent (.measure h))) h
  · exact h

theorem Goes.execTimeWordReceive {k : Fin 64} {w : TimeWord} (h : Onward a s) : Goes a (execTimeWordReceive k w s) := by
  unfold Machine.execTimeWordReceive
  refine .next (.ite h (.ite (.bump h) (.ite (.setLt h) (.ite (.setLt ?_) (.followOffset (.setLt ?_))))))
  all_goals exact .iteSnd (.snd (.wr h)) (.snd h)

theorem Goes.execRootWordReceive {k : Fin 64} {w : RootWord} (h : Onward a s) : Goes a (execRootWordReceive k w s) :=
  .next (.ite h (.ite (.bump h) (.timeChanged (.setLt h))))

theorem Goes.execRootWordExpire {k : Fin 64} (h : Onward a s) : Goes a (execRootWordExpire k s) :=
  .next (.ite h (.timeChanged (.setLt (.due h))))

theorem Goes.execFabricTimeTake {k : Fin 64} (h : Onward a s) : Goes a (execFabricTimeTake k s) :=
  .next (.ite (.genRecord (.timeChanged (.parts (.due h)))) h)

theorem Goes.execReferenceDrop {r : Fin 49} (h : Onward a s) : Goes a (execReferenceDrop r s) :=
  .next (.ite h (.timeChanged (.parts (.due h))))

theorem Goes.execReferenceRestore {r : Fin 49} (h : Onward a s) : Goes a (execReferenceRestore r s) :=
  .next (.ite h (.timeChanged (.parts (.due h))))

theorem Goes.execDpllLocked (h : Onward a s) : Goes a (execDpllLocked s) := .next (.ite (.wr (.parts h)) h)

theorem Goes.execEsmcPduReceive {p : Fin 48} {formed : Bool} {ql : BitVec 4} (h : Onward a s) :
    Goes a (execEsmcPduReceive p formed ql s) :=
  .next (.ite h (.ite (.bump h) (.timeChanged (.wr (.wr (.setPt h))))))

theorem Goes.execEsmcTransmit {p : Fin 48} (h : Onward a s) : Goes a (execEsmcTransmit p s) := .next (.sendEsmc h)

theorem Goes.execEsmcTimeout {p : Fin 48} (h : Onward a s) : Goes a (execEsmcTimeout p s) := .next (.timeChanged (.wr (.due h)))

theorem Goes.execHoscQualify {ok : Bool} (h : Onward a s) : Goes a (execHoscQualify ok s) :=
  .next (.ite h (.ite (.wr (.due h)) (.raise (.wr h))))

theorem Goes.execPpsEdge {highNs : Nat} (h : Onward a s) : Goes a (execPpsEdge highNs s) := by
  unfold Machine.execPpsEdge
  dsimp only
  refine .next (.ite h (.ite (.bump h) ?_))
  split
  · exact .ifThen (.timeChanged (.parts h)) (fun h => .timeChanged (.measure h))
  · exact .timeChanged (.parts h)

theorem Goes.execPpsMissing (h : Onward a s) : Goes a (execPpsMissing s) := .next (.ite h (.timeChanged (.parts h)))

theorem Goes.execTodReceive {m : TodMsg} (h : Onward a s) : Goes a (execTodReceive m s) :=
  .next (.ite (.timeChanged (.parts h)) (.ite (.parts (.bump h)) (.timeChanged (.parts (.bump h)))))

theorem Goes.execPpsOutput (h : Onward a s) : Goes a (execPpsOutput s) := .next (.ifElse (.parts (.reach h)) (fun h => .emit (.emit h)))

/-! ## Machine/Pair -/

theorem Onward.setSync {v : Nat} (h : Onward a s) : Onward a (setSync v s) := .wr h

theorem Onward.applyItem {i : YokeItem} (h : Onward a s) : Onward a (applyItem i s) := by
  unfold Machine.applyItem
  split
  · exact .wrWord (.wrWord (.wrWord (.setQ h)))
  · exact .setTag (.setBucket h)
  · exact .setBucket h
  · exact .setBfd (.wr (.wr (.wr h)))
  · exact .wr h
  · exact .wr (.wr (.wr (.parts h)))
  · exact .wr h
  · exact .takeActions (.wr (.wr (.parts h)))

theorem Onward.applyItems {l : List YokeItem} (h : Onward a s) : Onward a (applyItems l s) := .forAll h (fun _ _ h => .applyItem h)

theorem Onward.dropFrames (h : Onward a s) : Onward a (dropFrames s) := .parts (.forAll h (fun _ _ h => .endRef h))

theorem Onward.purgeQueue {q : Nat} (h : Onward a s) : Onward a (purgeQueue q s) := .forAll (.setQ h) (fun _ _ h => .endRef (.leaveOcc h))

theorem Onward.emptyProtected (h : Onward a s) : Onward a (emptyProtected s) :=
  .forAll (.forAll (.dropFrames h) (fun _ _ h => .ite (.settleActive (.emptyQueue h)) h)) (fun _ _ h => .purgeQueue h)

theorem Onward.startResync (h : Onward a s) : Onward a (startResync s) :=
  .ite h (.yokeSpread (.ifThen (.setSync (.parts h)) (fun h => .emptyProtected h)))

theorem Onward.unsync (h : Onward a s) : Onward a (unsync s) := .startResync (.setSync h)

theorem Onward.mismatch (h : Onward a s) : Onward a (mismatch s) := .unsync (.raiseAt (.bump h))

theorem Onward.advancePn {p ether : Nat} (h : Onward a s) : Onward a (advancePn p ether s) := by
  unfold Machine.advancePn
  split
  · exact .takePn h
  · exact h

theorem Onward.followDequeue {q : Nat} (h : Onward a s) : Onward a (followDequeue q s) := by
  unfold Machine.followDequeue
  refine .ite ?_ ?_
  · split
    · next e =>
        exact .endRef (.advancePn (.dequeueFrom h e))
    · exact h
  · split
    · next e =>
        exact .endRef (.leaveOcc (.popHead h e))
    · exact h

theorem Onward.applyRecord {r : YokeRec} (h : Onward a s) (ht : applyRecord r s = some t) : Onward a t := by
  cases r with
  | bad =>
    cases ht
    exact .mismatch h
  | ingress p seq colour digest =>
    simp only [Machine.applyRecord] at ht
    split at ht
    · cases ht
    · split at ht
      · cases ht
        exact .ifElse (.parts h) fun h => .mismatch h
      · rcases ite_eq_iff.1 ht with ⟨_, ht⟩ | ⟨_, ht⟩ <;> cases ht
        · exact .voqEnqueue (.parts h)
        · exact .mismatch (.endRef (.parts h))
  | dequeue q seq =>
    have hw : Onward a (if syncOf s = syRe then Machine.bump .prCtr 9 0 1 s else Machine.mismatch s) := .ite (.bump h) (.mismatch h)
    simp only [Machine.applyRecord] at ht
    split at ht
    · cases ht
      exact .ite (.followDequeue h) hw
    · split at ht
      · cases ht
      · cases ht
        exact hw

theorem Onward.runTodo {fuel : Nat} (h : Onward a s) : Onward a (runTodo fuel s) := by
  induction fuel generalizing s with
  | zero => exact h
  | succ fuel ih =>
    unfold Machine.runTodo
    split
    · exact h
    · split
      · next e => exact ih (.applyRecord (.parts h) e)
      · exact h

theorem Onward.idlePorts (h : Onward a s) : Onward a (idlePorts s) := .forAll h (fun _ _ h => .emit h)

theorem Onward.becomeStandby (h : Onward a s) : Onward a (becomeStandby s) := .unsync (.setRole (.idlePorts h))

theorem Onward.becomeActive (h : Onward a s) : Onward a (becomeActive s) := .setRole (.setSync (.parts h))

theorem Onward.resolveRole (h : Onward a s) : Onward a (resolveRole s) := by
  unfold Machine.resolveRole
  split
  · exact h
  · exact .ite (.ifThen (.atMost h (fun _ h => .raiseAt h)) (fun h => .setRole (.idlePorts h))) (.ite (.ite (.becomeStandby h) (.ite h
        (.becomeActive h))) (.ite (.raiseAt (.becomeStandby h)) (.ite (.startResync h) h)))

theorem Onward.triggerSwitch (h : Onward a s) : Onward a (triggerSwitch s) := .ite (.parts h) h

theorem Onward.takeDelta {epoch : Nat} {last : Bool} {items : List YokeItem} (h : Onward a s) :
    Onward a (takeDelta epoch last items s) := by
  unfold Machine.takeDelta
  dsimp only
  refine .ite h ?_
  split
  · exact .unsync (.bump (.parts h))
  · exact .ite (.wr (.bump (.applyItems (.parts h)))) (.parts h)

theorem Onward.takeLoad {load : YokeLoad} (h : Onward a s) : Onward a (takeLoad load s) := by
  unfold Machine.takeLoad
  refine .ite ?_ ?_
  · split
    · exact .ite (.takeDelta h) h
    · exact h
  · split
    · exact h
    · exact .takeDelta h
    · exact .ite (.parts (.applyItems h)) h
    · exact .ite (.runTodo (.parts h)) h
    · exact .triggerSwitch h
    · exact .ifThen (.parts h) (fun h => .setSync h)

theorem Onward.takeBlocks {fuel : Nat} (h : Onward a s) : Onward a (takeBlocks fuel s) := by
  induction fuel generalizing s with
  | zero => exact h
  | succ fuel ih =>
    unfold Machine.takeBlocks
    split
    · exact h
    · exact ih (.takeLoad (.parts h))

theorem Goes.execYokeBlockReceive {y : Fin 2} {b : YokeBlock} (h : Onward a s) : Goes a (execYokeBlockReceive y b s) :=
  .next (.ite (.bump h) (.ite (.parts (.ifElse (.ifThen (.parts h) (fun h => .parts h)) (fun h => .wr h))) (.ifThen (.takeBlocks
    (.resolveRole (.parts (.ifElse (.ifThen (.parts h) (fun h => .parts h)) (fun h => .wr h))))) (fun h => .runTodo h))))

theorem Goes.execYokeLinkDown {y : Fin 2} (h : Onward a s) : Goes a (execYokeLinkDown y s) :=
  .next (.ite h (.ifElse (.raiseAt (.wr (.due h))) (fun h => .ifThen (.parts h) (fun h => .setSync h))))

theorem Goes.execYokeEmptyBlock {y : Fin 2} (h : Onward a s) : Goes a (execYokeEmptyBlock y s) := .next (.yokeSend h)

theorem Goes.execPairWaitTimeout {toggling : Bool} (h : Onward a s) : Goes a (execPairWaitTimeout toggling s) :=
  .next (.ite h (.ite (.raiseAt (.wr (.due h))) (.ifElse (.wr (.due h)) (fun h => .becomeActive h))))

theorem Onward.sendItems {f : Bool → List YokeItem → YokeLoad} {first : Nat} {l : List YokeItem} (h : Onward a s) :
    Onward a (sendItems f first l s) :=
  .yokeSpread (.forAll h (fun _ _ h => .yokeSpread h))

theorem Goes.execMirrorEpochEnd (h : Onward a s) : Goes a (execMirrorEpochEnd s) := by
  unfold Machine.execMirrorEpochEnd
  refine .next (.ite h (.ite ?_ (.ifElse (.reach h) (fun h => .ifThen (.ite (.setSync (.raiseAt (.bump (.wr (.parts h))))) (.wr (.bump
      (.sendItems (.wr (.parts h)))))) (fun h => .parts (.sendItems h))))))
  split
  · exact .ifThen (.reach h) (fun h => .unsync (.bump (.parts h)))
  · exact .reach h

theorem Goes.execRecordBlockFlush (h : Onward a s) : Goes a (execRecordBlockFlush s) := .next (.sendRecords (.ite h (.due h)))

theorem Goes.execResyncComplete (h : Onward a s) : Goes a (execResyncComplete s) :=
  .next (.ite h (.ite (.bump (.setSync (.parts h))) (.ite (.setSync (.parts h)) h)))

theorem Goes.execPeerEmberLoss (h : Onward a s) : Goes a (execPeerEmberLoss s) := .next (.triggerSwitch (.wr h))

theorem Onward.restartTags (h : Onward a s) : Onward a (restartTags s) := .forAll h (fun _ _ h => .ite h (.setTag h))

theorem Onward.skipPn {n : Nat} (h : Onward a s) : Onward a (skipPn n s) := .ite (.setSa (.wr h)) (.wr h)

theorem Goes.execSwitchoverResume (h : Onward a s) : Goes a (execSwitchoverResume s) := by
  unfold Machine.execSwitchoverResume
  refine .next ?_
  split
  · exact h
  · refine .ifElse (.parts (.parts ?_)) (fun h => .raiseAt (.bump (.idlePorts (.becomeActive (.forAll (.restartTags h) (fun _ _ h =>
        .skipPn h))))))
    split
    · exact .ite h (.due h)
    · exact h

theorem Onward.yieldActive (h : Onward a s) : Onward a (yieldActive s) := .becomeStandby (.yokeSend (.yokeSend (.sendRecords h)))

theorem Onward.pairControl {c : Hdr} {inRange : Bool} {res : BitVec 24} {allowed : State → Bool} {f : State → State} (h : Onward a s)
    (hf : ∀ s, Onward a s → Onward a (f s)) :
    Onward a (pairControl c inRange res allowed f s) := by
  unfold Machine.pairControl
  exact .checked h (fun _ h => .need h (fun _ h => .need h (fun _ h => .ok (hf _ h))))

theorem Goes.execForceSwitch {c : Hdr} {other : Unlisted} {res : BitVec 24} (h : Onward a s) : Goes a (execForceSwitch c other res s) :=
  .next (.pairControl h (fun _ h => .ite (.yieldActive h) (.triggerSwitch h)))

theorem Goes.execResync {c : Hdr} {res : BitVec 24} (h : Onward a s) : Goes a (execResync c res s) :=
  .next (.pairControl h (fun _ h => .unsync h))

theorem Goes.execLock {c : Hdr} {res : BitVec 24} (h : Onward a s) : Goes a (execLock c res s) :=
  .next (.pairControl h (fun _ h => .wr h))

theorem Goes.execUnlock {c : Hdr} {res : BitVec 24} (h : Onward a s) : Goes a (execUnlock c res s) :=
  .next (.pairControl h (fun _ h => .wr h))

theorem Onward.prCtlWritten {old : Nat} (h : Onward a s) : Onward a (prCtlWritten old s) :=
  .ite (.resolveRole (.idlePorts (.setRole (.setSync (.parts h))))) (.ite (.setRole (.setSync (.parts (.dropFrames h)))) h)

/-! ## Machine/Lookup -/

theorem Onward.addChange {tid key : Nat} {e : Option (List Nat)} (h : Onward a s) : Onward a (addChange tid key e s) := .parts h

theorem Onward.applyTurn {c : Hdr} {tid key : Nat} {e : Option (List Nat)} (h : Onward a s) : Onward a (applyTurn c tid key e s) :=
  .ite (.busyFor h) (.ite (.busyFor h) (.setPhase (.parts h)))

theorem Goes.execTableInsert {c : Hdr} {tid keyLen entLen res : BitVec 16} {key entry : Bytes} (h : Onward a s) :
    Goes a (execTableInsert c tid keyLen entLen res key entry s) :=
  .next (.checked h (fun _ h => .need h (fun _ h => .need h (fun _ h => .applyTurn h))))

theorem Goes.execTableDelete {c : Hdr} {tid keyLen : BitVec 16} {res : BitVec 32} {key : Bytes} (h : Onward a s) :
    Goes a (execTableDelete c tid keyLen res key s) :=
  .next (.checked h (fun _ h => .need h (fun _ h => .need h (fun _ h => .applyTurn h))))

theorem Goes.execTableChangeTurn (h : Onward a s) : Goes a (execTableChangeTurn s) := by
  unfold Machine.execTableChangeTurn
  refine .next ?_
  split
  · exact h
  · exact .ifElse (.parts h) (fun h => .ite (.done (.addChange h)) (.refuse h))

theorem Onward.bulkRecord {n : Nat} {del : Bool} {r : Bytes × Bytes} (h : Onward a s) (ht : bulkRecord s n del r = .ok t) :
    Onward a t := by
  unfold Machine.bulkRecord at ht
  generalize (if del then none else some (entryWords n r.2)) = e at ht
  split at ht
  · cases ht
  · dsimp only at ht
    split at ht
    · cases ht
    · cases ht
      exact .addChange h

theorem Onward.bulkAll {n : Nat} {del : Bool} {l : List (Bytes × Bytes)} {i : Nat} (h : Onward a s) (ht : bulkAll n del l i s = .ok t) :
    Onward a t := by
  induction l generalizing s i with
  | nil => cases ht; exact h
  | cons r l ih =>
    unfold Machine.bulkAll at ht
    split at ht
    · cases ht
    · next hr => exact ih (.bulkRecord h hr) ht

theorem Goes.execBulkLoad {c : Hdr} {tid keyLen entLen flags : BitVec 16} {count res : BitVec 32} {records : List (Bytes × Bytes)}
    (h : Onward a s) :
    Goes a (execBulkLoad c tid keyLen entLen flags count res records s) := by
  unfold Machine.execBulkLoad
  refine .next (.checked h (fun _ h => .need h (fun _ h => ?_)))
  split
  · exact .refuseWith h
  · next e =>
      refine .ite (.busyFor h) (.ite (.refuse h) ?_)
      split
      · exact .refuseWith h
      · next e =>
          exact .ok (.bulkAll h e)

theorem Onward.fixSwitch (h : Onward a s) : Onward a (fixSwitch s) := by
  unfold Machine.fixSwitch
  split
  · exact .ite (.parts h) h
  · exact h

theorem Onward.settleCommits {fuel : Nat} (h : Onward a s) : Onward a (settleCommits fuel s) := by
  induction fuel generalizing s with
  | zero => exact h
  | succ fuel ih =>
    unfold Machine.settleCommits
    split
    · exact .ite (ih (.ok (.parts h))) (.fixSwitch h)
    · exact h

theorem Goes.execTableCommit {c : Hdr} {tid res : BitVec 16} (h : Onward a s) : Goes a (execTableCommit c tid res s) :=
  .next (.checked h (fun _ h => .need h (fun _ h => .need h (fun _ h => .settleCommits (.defer (.parts h))))))

theorem Goes.execCommitBuildDone (h : Onward a s) : Goes a (execCommitBuildDone s) := by
  unfold Machine.execCommitBuildDone
  refine .next ?_
  split
  · exact .ite (.fixSwitch (.parts h)) (.fixSwitch h)
  · exact h

theorem Onward.loadPins (h : Onward a s) : Onward a (loadPins s) := .ite h (.parts h)

theorem Goes.execEpochSwitch (h : Onward a s) : Goes a (execEpochSwitch s) := by
  unfold Machine.execEpochSwitch
  refine .next ?_
  split
  · split
    · exact .settleCommits (.ok (.loadPins (.parts (.reach h))))
    · exact h
  · exact h

theorem Goes.execEpochRetire (h : Onward a s) : Goes a (execEpochRetire s) := by
  unfold Machine.execEpochRetire
  refine .next ?_
  split
  · exact .ite h (.fixSwitch (.parts (.parts h)))
  · exact h

theorem Goes.execTableRead {c : Hdr} {tid keyLen : BitVec 16} {view : BitVec 8} {res : BitVec 24} {key : Bytes} (h : Onward a s) :
    Goes a (execTableRead c tid keyLen view res key s) :=
  .next (.checked h (fun _ h => .need h (fun _ h => .need h (fun _ h => .need h (fun _ h => .ite (.refuse h) (.ok h))))))

theorem Onward.formResult {gone : Bool} {th : Nat} {x : Thread} {k : Look} {o : LookOut} (h : Onward a s) :
    Onward a (formResult gone th x k o s) :=
  .putLook h

theorem Onward.noteHit {hit : Bool} (h : Onward a s) : Onward a (noteHit hit s) := .parts h

theorem Onward.countLook {k : Look} (h : Onward a s) : Onward a (countLook k s) := by
  unfold Machine.countLook
  split
  · exact .noteHit (.bump h)
  · exact .ite (.bump h) (.ite (.bump h) h)

theorem Onward.queueRead {gone : Bool} {th : Nat} {x : Thread} {k : Look} {line : HbmLine} (h : Onward a s) :
    Onward a (queueRead gone th x k line s) :=
  .ifThen (.putLook (.hbmOffer h)) (fun h => .bump h)

theorem Goes.execLeafReadIssue {th : Fin 16384} (h : Onward a s) : Goes a (execLeafReadIssue th s) := by
  unfold Machine.execLeafReadIssue
  refine .next ?_
  split
  · exact h
  · split
    · exact .ite (.formResult (.countLook h)) (.queueRead h)
    · split
      · exact h
      · exact .ite (.formResult (.countLook h)) (.ite (.putLook (.ite (.bump h) h)) (.ite (.queueRead h) h))

theorem Onward.endReads {line : HbmLine} {good : Bool} (h : Onward a s) : Onward a (endReads line good s) := by
  unfold Machine.endReads
  dsimp only
  refine .forAll (.forAll h (fun _ _ h => ?_)) (fun _ _ h => ?_)
  · split
    · split
      · exact .ite (.formResult (.countLook h)) h
      · exact h
    · exact h
  · split
    · split
      · exact .ite (.formResult (.countLook h)) h
      · exact h
    · exact h

theorem Goes.execLeafReadComplete {th : Fin 16384} {ecc : CopyEcc} (h : Onward a s) : Goes a (execLeafReadComplete th ecc s) := by
  unfold Machine.execLeafReadComplete
  dsimp only
  refine .next ?_
  split
  · exact h
  · split
    · split
      · refine .endReads ?_
        split
        · refine .parts ?_
          split
          · exact .endRequest h
          · exact h
        · split
          · exact .endRequest h
          · exact h
      · refine .endReads ?_
        split
        · refine .parts (.raiseAt (.ifThen ?_ (fun h => .bump h)))
          split
          · exact .endRequest h
          · exact h
        · refine .raiseAt (.ifThen ?_ (fun h => .bump h))
          split
          · exact .endRequest h
          · exact h
      · refine .endReads (.raiseAt (.parts ?_))
        split
        · exact .endRequest h
        · exact h
      · refine .endReads (.ifThen (.parts (.forAll (.raiseAt ?_) (fun _ _ h => .raise h))) (fun h => .parts h))
        split
        · exact .endRequest h
        · exact h
    · exact h

theorem Goes.execLeafReadTimeout {th : Fin 16384} (h : Onward a s) : Goes a (execLeafReadTimeout th s) := by
  unfold Machine.execLeafReadTimeout
  refine .next ?_
  split
  · exact h
  · split
    · exact .endReads (.raiseAt h)
    · exact h

theorem Goes.execEntryRebuildComplete {exm : Bool} (h : Onward a s) : Goes a (execEntryRebuildComplete exm s) := by
  unfold Machine.execEntryRebuildComplete
  refine .next ?_
  split
  · exact .parts h
  · exact h

theorem Onward.wordLost {blk inst : Nat} {w : Nat × Nat} {k : Key} (h : Onward a s) : Onward a (wordLost blk inst w k s) :=
  .ite h (.raiseAt (.parts h))

theorem Onward.lpmServe {x : Thread} {k : Look} {ecc : LookEcc} (h : Onward a s) : Onward a (lpmServe x k ecc s).2 := by
  unfold Machine.lpmServe
  dsimp only
  split
  · exact .bump h
  · refine .iteSnd (.noteHit (.bump h)) ?_
    split
    · exact .noteHit (.bump (.wordLost h))
    · split
      · refine .noteHit (.bump (.bump ?_))
        split
        · exact .bump h
        · exact h
      · refine .iteSnd ?_ (.iteSnd (.raiseAt (.parts ?_)) (.noteHit (.bump (.bump (.parts ?_)))))
        · split
          · exact .bump h
          · exact h
        · split
          · exact .bump h
          · exact h
        · split
          · exact .bump h
          · exact h

theorem Onward.exmServe {x : Thread} {k : Look} {ecc : LookEcc} (h : Onward a s) : Onward a (exmServe x k ecc s).2 := by
  unfold Machine.exmServe
  refine .iteSnd (.bump h) (.iteSnd h (.iteSnd (.countLook h) ?_))
  split
  · exact .wordLost (.countLook h)
  · refine .ifThen (.ifThen ?_ (fun h => .bump h)) (fun h => .bump h)
    split
    · exact .bump (.countLook h)
    · exact .countLook h

/-! ## Machine/Pattern -/

theorem Onward.setPatBank {b st : Nat} (h : Onward a s) : Onward a (setPatBank b st s) := .wr h

theorem Onward.resweep (h : Onward a s) : Onward a (resweep s) := .ite (.parts h) (.parts h)

theorem Onward.toShadow {k : Key} (h : Onward a s) : Onward a (toShadow k s) := .parts h

theorem Onward.fromShadow {k : Key} (h : Onward a s) : Onward a (fromShadow k s) := .wrWord h

theorem Onward.windowWritten {i : Nat} (h : Onward a s) : Onward a (windowWritten i s) := .resweep (.setPatBank (.toShadow h))

theorem Onward.fixPatSwap (h : Onward a s) : Onward a (fixPatSwap s) := .parts h

theorem Onward.swapGo (h : Onward a s) : Onward a (swapGo s) := .ite h (.ite (.parts h) (.fixPatSwap h))

theorem Onward.patEraseGo (h : Onward a s) : Onward a (patEraseGo s) := .resweep (.setPatBank (.filterRegs h))

theorem Goes.execPatVerifyComplete (h : Onward a s) : Goes a (execPatVerifyComplete s) :=
  .next (.ite h (.ite (.fixPatSwap (.resweep (.setPatBank (.parts h)))) (.raiseAt (.setPatBank (.parts h)))))

theorem Goes.execPatBankSwitch (h : Onward a s) : Goes a (execPatBankSwitch s) := by
  unfold Machine.execPatBankSwitch
  refine .next ?_
  split
  · exact h
  · refine .ifElse (.reach (.parts h)) (fun h => .wr (.setPatBank (.parts ?_)))
    split
    · exact .setPatBank h
    · exact h

theorem Goes.execPatDrainEnd (h : Onward a s) : Goes a (execPatDrainEnd s) := by
  unfold Machine.execPatDrainEnd
  refine .next ?_
  split
  · exact .ite h (.resweep (.setPatBank h))
  · exact h

theorem Onward.patRepair {inst kind b w : Nat} (h : Onward a s) : Onward a (patRepair inst kind b w s) :=
  .raiseAt (.bump (.ite (.toShadow h) (.fromShadow h)))

theorem Onward.patLose {b w : Nat} (h : Onward a s) : Onward a (patLose b w s) := .raiseAt (.parts h)

theorem Onward.patMatch {x : Thread} {k : Look} (h : Onward a s) : Onward a (patMatch s x k).2 := by
  unfold Machine.patMatch
  dsimp only
  split
  · exact h
  · exact .ifThen (.bump h) (fun h => .bump (.bump h))

theorem Onward.patServe {x : Thread} {k : Look} {fetched : Bool} {ecc : LookEcc} (h : Onward a s) :
    Onward a (patServe x k fetched ecc s).2 := by
  unfold Machine.patServe
  refine .iteSnd (.bump (.bump h)) (.iteSnd (.bump (.bump h)) (.iteSnd h (.iteSnd (.patMatch (.bump h)) ?_)))
  split
  · exact .iteSnd (.patRepair (.patMatch (.bump h))) (.bump (.patLose (.bump h)))
  · exact .bump (.patLose (.bump h))
  · exact .patMatch (.bump h)

theorem Goes.execBilletFetchIssue {th : Fin 16384} (h : Onward a s) : Goes a (execBilletFetchIssue th s) := by
  unfold Machine.execBilletFetchIssue
  refine .next ?_
  split
  · exact h
  · exact .ite (.putLook (.bump h)) h

theorem Goes.execBilletFetchComplete {th : Fin 16384} (h : Onward a s) : Goes a (execBilletFetchComplete th s) := by
  unfold Machine.execBilletFetchComplete
  refine .next ?_
  split
  · exact h
  · exact .putLook h

theorem Goes.execFetchTimeout {th : Fin 16384} (h : Onward a s) : Goes a (execFetchTimeout th s) := by
  unfold Machine.execFetchTimeout
  refine .next ?_
  split
  · exact h
  · exact .formResult (.raiseAt (.bump h))

theorem Goes.execShadowSweep {f : SweepFind} (h : Onward a s) : Goes a (execShadowSweep f s) := by
  unfold Machine.execShadowSweep
  refine .next ?_
  split
  · exact .ite h (.ite (.patRepair h) (.patLose h))
  · exact .ite (.patRepair h) h
  · exact .ite (.patLose h) h
  · exact .ite (.parts h) h

theorem Onward.land {th : Nat} {x : Thread} {k : Look} {o : LookOut} (h : Onward a s) : Onward a (land th x k o s) := by
  unfold Machine.land
  dsimp only
  split
  · exact .setThr h
  · exact .ite (.resume h) (.setThr h)
  · exact .setThr h

theorem Onward.given {i : Nat} {gone : Bool} {x : Thread} {k : Look} {r : Option LookOut × State} (h : Onward a r.2) :
    Onward a (match r.1 with | some o => if gone then Machine.formResult true i x k o r.2 else Machine.land i x k o r.2 | none => r.2) := by
  split
  · exact .ite (.formResult h) (.land h)
  · exact h

theorem Goes.execLookupResult {i : Fin 16384} {ecc : LookEcc} (h : Onward a s) : Goes a (execLookupResult i ecc s) := by
  unfold Machine.execLookupResult
  refine .next ?_
  dsimp only
  generalize requestOf s i.val _ = o
  cases o with
  | none => exact h
  | some r =>
    obtain ⟨gone, x, k⟩ := r
    dsimp only
    cases hp : k.phase <;> dsimp only
    case formed => exact .land h
    case fetched => exact .given (.patServe h)
    all_goals
      cases hu : k.unit
      · exact .given (.lpmServe h)
      · exact .given (.exmServe h)
      · exact .given (.patServe h)

/-! ## Machine/Fault -/

theorem Onward.logMessage {m : FaultMsg} (h : Onward a s) : Onward a (logMessage m s) := by
  unfold Machine.logMessage
  dsimp only
  split
  · exact .ok (.ifThen (.ifThen (.ifThen (.bump (.ifThen (.ifThen (.wr (.mapF (.parts h))) (fun h => .wr h)) (fun h => .wr h)))
        (fun h => .bump h)) (fun h => .bump h)) (fun h => .publish h))
  · exact .ifThen (.ifThen (.ifThen (.bump (.ifThen (.ifThen (.wr (.mapF (.parts h))) (fun h => .wr h)) (fun h => .wr h))) (fun h =>
        .bump h)) (fun h => .bump h)) (fun h => .publish h)

theorem Goes.execFaultCollect (h : Onward a s) : Goes a (execFaultCollect s) := by
  unfold Machine.execFaultCollect
  refine .next (.ite h ?_)
  split
  · exact h
  · split
    · exact h
    · exact .logMessage (.parts h)

theorem Goes.execLogCopy (h : Onward a s) : Goes a (execLogCopy s) := by
  unfold Machine.execLogCopy
  refine .next ?_
  split
  · exact h
  · exact .ite h (.ifThen (.wr (.mapF (.parts h))) (fun h => .bump h))

theorem Goes.execReactionWindowExpire {source : BitVec 12} {kind : BitVec 8} (h : Onward a s) :
    Goes a (execReactionWindowExpire source kind s) := by
  unfold Machine.execReactionWindowExpire
  refine .next (.ite (.wr (.parts ?_)) h)
  split
  · exact .due h
  · exact h

theorem Goes.execShadowClose {i : Nat} (h : Onward a s) : Goes a (execShadowClose i s) := by
  unfold Machine.execShadowClose
  refine .next ?_
  split
  · exact h
  · exact .parts (.reachIvl h)

theorem Onward.emberRuns (h : Onward a s) : Onward a (emberRuns s) := .wr (.parts h)

theorem Onward.leaveSafe (h : Onward a s) : Onward a (leaveSafe s) :=
  .timeChanged (.ifThen (.emberRuns (.forAll (.takeActions (.forAll (.parts (.wr h)) (fun _ _ h => .portRise h))) (fun _ _ h =>
    .leaveQuar h))) (fun h => .unsync h))

theorem Onward.askSafe (h : Onward a s) : Onward a (askSafe s) := .raise h

theorem Onward.localReaction {blk inst kind actions : Nat} (h : Onward a s) : Onward a (localReaction blk inst kind actions s) :=
  .ite (.sweepReload h) h

theorem Goes.execFaultInject {c : Hdr} {source : BitVec 16} {kind flags : BitVec 8} {addr : ObjAddr} {res : BitVec 16} (h : Onward a s) :
    Goes a (execFaultInject c source kind flags addr res s) :=
  .next (.checked h (fun _ h => .need h (fun _ h => .localReaction (.raiseA (.defer h)))))

theorem Goes.execFaultRead {c : Hdr} {first : Word} {count res : BitVec 32} {bad : Option Word} (h : Onward a s) :
    Goes a (execFaultRead c first count res bad s) :=
  .next (.checked h (fun _ h => .ite (.refuse (.ite (.raiseAt h) h)) (.ok (.ite (.raiseAt h) h))))

theorem Onward.grazeFind {x : GrazeItem} (h : Onward a s) : Onward a (grazeFind x s) := by
  unfold Machine.grazeFind
  dsimp only
  split
  · split
    · exact .putPkt (.raiseAt (.bump h))
    · exact .raiseAt (.bump h)
  · exact .loseDescriptor h
  · exact .loseQueue h
  · exact .ite h (.raiseAt (.setTag h))
  · split
    · exact .ite (.raiseAt h) (.ite (.raiseAt h) (.ite (.raiseAt (.wr h)) h))
    · exact h
  · split
    · exact .ite (.raiseAt (.clearBucket h)) h
    · exact h
  · exact .changeSlot (.raiseAt h)
  · exact .ite (.raiseAt h) (.raiseAt h)
  · exact .ite (.patLose h) (.patRepair h)
  · exact .ite (.wordLost h) (.ite h (.wordLost h))
  · exact .raiseAt (.parts h)
  · exact .rebuildRoutes (.raiseAt h)
  · split
    · exact .streamBad h
    · exact h
  · exact .groupBad h
  · exact .raiseAt h
  · exact .raiseAt (.parts h)
  · exact .raise h

theorem Goes.execGrazingRound {f : GrazingFind} (h : Onward a s) : Goes a (execGrazingRound f s) := by
  unfold Machine.execGrazingRound
  refine .next (.ite h (.forAll (.drainFifos (.forAll (.forAll (.ifElse (.bump (.bump (.parts (.wr (.wr (.mapF ?_)))))) (fun h => .bump
      h)) (fun _ _ h => .grazeFind h)) (fun _ _ h => .coreReturns h))) (fun _ _ h => .coreFails h)))
  split
  · exact .due h
  · exact h

theorem Goes.execEngineTestPass {e : Fin 1024} {ok : Bool} (h : Onward a s) : Goes a (execEngineTestPass e ok s) :=
  .next (.ite (.wr (.parts h)) (.ite (.raiseAt (.wr (.parts h))) h))

theorem Goes.execGrazingOverdue {item : ObjAddr} (h : Onward a s) : Goes a (execGrazingOverdue item s) := .next (.raise h)

/-! ## Machine/Observe -/

theorem Onward.recordWritten (h : Onward a s) : Onward a (recordWritten s) := by
  unfold Machine.recordWritten
  split
  · exact h
  · exact .forAll (.wr (.bump (.parts h))) (fun _ _ h => .forAll h (fun _ _ h => .pushRecord h))

theorem Goes.execCounterSweep (h : Onward a s) : Goes a (execCounterSweep s) :=
  .next (.ite h (.ite (.raiseEach (.bump (.parts (.ifThen (.reach h) (fun h => .recordWritten h))))) (.ifThen (.parts (.ifThen (.reach
    h) (fun h => .recordWritten h))) (fun h => .recordWritten h))))

theorem Goes.execCounterReadLive {c : Hdr} {other : Unlisted} {res : BitVec 24} {addr : ObjAddr} {res2 : BitVec 16} {count : BitVec 32}
    (h : Onward a s) :
    Goes a (execCounterReadLive c other res addr res2 count s) := by
  unfold Machine.execCounterReadLive
  refine .next (.checked h (fun _ h => ?_))
  split
  · exact .refuse h
  · exact .ite h (.ok h)

theorem Goes.execCounterReadRing {c : Hdr} {res : BitVec 24} {sweep : Word} {first count : BitVec 32} {bad : CopyLoss} (h : Onward a s) :
    Goes a (execCounterReadRing c res sweep first count bad s) := by
  unfold Machine.execCounterReadRing
  dsimp only
  refine .next (.checked h (fun _ h => ?_))
  split
  · exact .refuse h
  · exact .ite (.refuse h) (.ite (.refuse h) (.ok (.ite (.raiseAt h) h)))

theorem Goes.execEventSubscribe {c : Hdr} {streams qsMin : BitVec 32} {sweepDiv res : BitVec 16} (h : Onward a s) :
    Goes a (execEventSubscribe c streams qsMin sweepDiv res s) :=
  .next (.checked h (fun _ h => .done (.setSess h)))

/-! ## Machine/Update -/

theorem Onward.updCount {i : Nat} (h : Onward a s) : Onward a (updCount i s) := .bump h

theorem Onward.dirWrite {f : State → State} (h : Onward a s) (hf : ∀ s, Onward a s → Onward a (f s)) : Onward a (dirWrite f s) :=
  hf _ (.parts h)

theorem Onward.restartLease (h : Onward a s) : Onward a (restartLease s) := .parts h

theorem Onward.updateLease {c : Hdr} {inRange : Bool} {res : BitVec 8} {leaseS : BitVec 16} {f : State → State} (h : Onward a s)
    (hf : ∀ s, Onward a s → Onward a (f s)) :
    Onward a (updateLease c inRange res leaseS f s) :=
  .checked h (fun _ h => .need h (fun _ h => hf _ h))

theorem Onward.holdLease {c : Hdr} {leaseS : Nat} (h : Onward a s) : Onward a (holdLease c leaseS s) := .ok (.wr (.parts h))

theorem Goes.execUpdateLeaseAcquire {c : Hdr} {other : Unlisted} {res : BitVec 8} {leaseS : BitVec 16} (h : Onward a s) :
    Goes a (execUpdateLeaseAcquire c other res leaseS s) := by
  unfold Machine.execUpdateLeaseAcquire
  refine .next (.updateLease h (fun _ h => ?_))
  split
  · exact .holdLease h
  · exact .ite (.refuseWith h) (.holdLease (.endLease h))

theorem Goes.execUpdateLeaseRenew {c : Hdr} {res : BitVec 8} {leaseS : BitVec 16} (h : Onward a s) :
    Goes a (execUpdateLeaseRenew c res leaseS s) := by
  unfold Machine.execUpdateLeaseRenew
  refine .next (.updateLease h (fun _ h => ?_))
  split
  · exact .holdLease h
  · exact .refuseWith h

theorem Goes.execUpdateLeaseRelease {c : Hdr} {res : BitVec 8} {leaseS : BitVec 16} (h : Onward a s) :
    Goes a (execUpdateLeaseRelease c res leaseS s) := by
  unfold Machine.execUpdateLeaseRelease
  refine .next (.updateLease h (fun _ h => ?_))
  split
  · exact .need h (fun _ h => .ok (.endLease h))
  · exact .refuseWith h

theorem Goes.execLeaseExpire (h : Onward a s) : Goes a (execLeaseExpire s) := .next (.ite h (.endLease (.due h)))

theorem Onward.holderCommand {c : Hdr} {op plen : Nat} {resOk rangeOk ready : Bool} {f : State → State} (h : Onward a s)
    (hf : ∀ s, Onward a s → Onward a (f s)) :
    Onward a (holderCommand c op plen resOk rangeOk ready f s) := by
  unfold Machine.holderCommand
  refine .checked h (fun _ h => .need h (fun _ h => .need h (fun _ h => ?_)))
  split
  · exact .refuse h
  · exact hf _ h

theorem Onward.holderNeed {c : Hdr} {cond : Bool} {st : Nat} {result : Bytes} {f : State → State} (h : Onward a s)
    (hf : ∀ s, Onward a s → Onward a (f s)) :
    Onward a (holderNeed c cond st result f s) :=
  .ite (hf _ (.restartLease h)) (.refuseWith h)

theorem Onward.dropBeyond (h : Onward a s) : Onward a (dropBeyond s) := by
  unfold Machine.dropBeyond
  split
  · exact .parts h
  · exact h

theorem Onward.countBlocks (h : Onward a s) : Onward a (countBlocks s) := .wr h

theorem Goes.execUpdateWrite {c : Hdr} {off len res : BitVec 32} {data : Bytes} (h : Onward a s) :
    Goes a (execUpdateWrite c off len res data s) :=
  .next (.ite (.checked h (fun _ h => h)) (.holderCommand h (fun _ h => .holderNeed h (fun _ h => .ok (.updCount (.wr (.countBlocks
    (.dropBeyond (.parts h)))))))))

theorem Goes.execUpdateVerify {c : Hdr} (h : Onward a s) : Goes a (execUpdateVerify c s) :=
  .next (.holderCommand h (fun _ h => .holderNeed h (fun _ h => .defer (.wr (.parts h)))))

theorem Goes.execUpdateVerifyComplete {b : BundleInfo} (h : Onward a s) : Goes a (execUpdateVerifyComplete b s) := by
  unfold Machine.execUpdateVerifyComplete
  refine .next ?_
  split
  · exact h
  · exact .ite (.refuseWith (.updCount (.ifThen (.wr (.parts h)) (fun h => .wr h)))) (.ok (.ifThen (.wr (.parts h)) (fun h => .wr h)))

theorem Onward.setFlash {k : Nat} {x : FlashSlot} (h : Onward a s) : Onward a (setFlash k x s) := .parts h

theorem Onward.saveGo (h : Onward a s) : Onward a (saveGo s) := .ite h (.parts h)

theorem Goes.execSaveComplete (h : Onward a s) : Goes a (execSaveComplete s) := by
  unfold Machine.execSaveComplete
  dsimp only
  refine .next ?_
  split
  · exact h
  · split
    · exact .parts h
    · exact .updCount (.wr (.wr (.setFlash (.parts h))))

theorem Goes.execUpdateCommit {c : Hdr} {res : BitVec 32} (h : Onward a s) : Goes a (execUpdateCommit c res s) := by
  unfold Machine.execUpdateCommit
  refine .next (.holderCommand h (fun _ h => .holderNeed h (fun _ h => ?_)))
  split
  · exact .refuse h
  · exact .defer (.parts (.dirWrite (.wr h) (fun _ h => .wr h)))

theorem Onward.commitFails {x : Storing} {kind st : Nat} (h : Onward a s) : Onward a (commitFails x kind st s) :=
  .ifThen (.raiseAt (.updCount (.ifThen (.parts h) (fun h => .wr h)))) (fun h => .refuse h)

theorem Onward.commitEnds {x : Storing} (h : Onward a s) : Onward a (commitEnds x s) := by
  unfold Machine.commitEnds
  refine .done (.updCount (.wr (.wr (.parts (.dirWrite h (fun _ h => .wrWord ?_))))))
  split
  · exact .wr h
  · exact h

theorem Goes.execCommitStepComplete {ok : Bool} (h : Onward a s) : Goes a (execCommitStepComplete ok s) := by
  unfold Machine.execCommitStepComplete
  refine .next ?_
  split
  · exact h
  · split
    · exact .parts (.setFlash h)
    · exact .parts (.setFlash h)
    · exact .ite (.parts h) (.ite (.parts h) (.commitFails h))
    · exact .parts (.setFlash h)
    · exact .commitEnds h

theorem Goes.execStoreAbort (h : Onward a s) : Goes a (execStoreAbort s) := by
  unfold Machine.execStoreAbort
  refine .next (.ite h (.ifThen ?_ (fun h => .raiseAt (.parts h))))
  split
  · exact .commitFails h
  · exact h

theorem Onward.partFailed (h : Onward a s) : Onward a (partFailed s) := .stateEvent (.wr h)

theorem Onward.writeParts {ty : ObjTy} {base n : Nat} {l : List Nat} (h : Onward a s) : Onward a (writeParts ty base n l s) :=
  .forAll h (fun _ _ h => .wrWord h)

theorem Onward.rulesGo {l : List Nat} (h : Onward a s) : Onward a (rulesGo l s) :=
  .ite (.partFailed h) (.ite (.swapGo (.windowWritten (.writeParts (.filterRegs h)))) (.partFailed (.windowWritten (.writeParts
    (.filterRegs h)))))

theorem Onward.imageGo {l : List Nat} (h : Onward a s) : Onward a (imageGo l s) := by
  unfold Machine.imageGo
  split
  · exact .partFailed (.parts h)
  · exact .slotVerify (.parts (.slotWritten (.writeParts h)))

theorem Onward.loadsGo {k : Nat} (h : Onward a s) : Onward a (loadsGo k s) :=
  .forAll h (fun _ _ h => .ite (.loadGo (.wr h)) (.partFailed (.wr h)))

theorem Onward.beginPart (h : Onward a s) : Onward a (beginPart s) := by
  unfold Machine.beginPart
  dsimp only
  split
  · exact .ite (.stateEvent (.wr h)) h
  · split
    · exact .parts h
    · exact .parts h
    · split
      · exact .rulesGo (.parts h)
      · exact .parts h
    · split
      · exact .imageGo (.parts h)
      · exact .parts (.parts h)
    · split
      · exact .ifThen (.parts h) (fun h => .loadsGo h)
      · exact .parts h

theorem Onward.partResult {p : ActPart} (h : Onward a s) : Onward a (partResult p s) := by
  unfold Machine.partResult
  split
  · exact h
  · exact h
  · split
    · exact .ite (.partFailed h) h
    · exact h
  · split
    · exact .ite h (.partFailed h)
    · exact h
  · split
    · exact .ite (.partFailed h) h
    · exact h

theorem Onward.coresDone (h : Onward a s) : Onward a (coresDone s) := by
  unfold Machine.coresDone
  dsimp only
  split
  · exact h
  · refine .ifElse (.wr (.wr h)) (fun h => ?_)
    split
    · exact .ok (.parts (.wr h))
    · exact .parts (.wr h)

theorem Goes.execActivationStepComplete (h : Onward a s) : Goes a (execActivationStepComplete s) := by
  unfold Machine.execActivationStepComplete
  refine .next ?_
  split
  · exact h
  · exact .ite h (.beginPart (.ifThen (.partResult (.parts h)) (fun h => .coresDone h)))

theorem Goes.execInService {c : Hdr} {other : Unlisted} {res : BitVec 24} {bad : Option BundleFail} (h : Onward a s) :
    Goes a (execInService c other res bad s) := by
  unfold Machine.execInService
  dsimp only
  refine .next (.holderCommand h (fun _ h => ?_))
  split
  · exact .refuseWith h
  · refine .holderNeed h (fun _ h => ?_)
    split
    · exact .refuseWith (.wr h)
    · exact .beginPart (.defer (.parts (.updCount (.wr h))))

theorem Goes.execRestart {c : Hdr} {res : BitVec 24} (h : Onward a s) : Goes a (execRestart c res s) :=
  .next (.holderCommand h (fun _ h => .holderNeed h (fun _ h => .finish h)))

theorem Onward.healthPass (h : Onward a s) : Onward a (healthPass s) := .stateEvent (.wr (.dirWrite h (fun _ h => .wr (.wr h))))

theorem Onward.fallbackWrite {failed prev : Nat} (h : Onward a s) : Onward a (fallbackWrite failed prev s) :=
  .updCount (.dirWrite h (fun _ h => .wr (.wr (.wr (.wr h)))))

theorem Onward.fallBack (h : Onward a s) : Onward a (fallBack s) := by
  unfold Machine.fallBack
  split
  · exact .stateEvent (.wr h)
  · exact .ite (.fullReset (.fallbackWrite h)) (.beginPart (.wr (.parts (.fallbackWrite h))))

theorem Goes.execHealthWindowEnd (h : Onward a s) : Goes a (execHealthWindowEnd s) :=
  .next (.ite h (.ite (.healthPass (.due h)) (.fallBack (.raiseAt (.due h)))))

theorem Goes.execConfirm {c : Hdr} {res : BitVec 24} (h : Onward a s) : Goes a (execConfirm c res s) :=
  .next (.holderCommand h (fun _ h => .holderNeed h (fun _ h => .ok (.ifThen (.parts h) (fun h => .healthPass h)))))

theorem Goes.execFallback {c : Hdr} {res : BitVec 24} (h : Onward a s) : Goes a (execFallback c res s) :=
  .next (.holderCommand h (fun _ h => .holderNeed h (fun _ h => .fallBack (.ok h))))

theorem Goes.execRaiseSecver {c : Hdr} {res : BitVec 24} (h : Onward a s) : Goes a (execRaiseSecver c res s) := by
  unfold Machine.execRaiseSecver
  refine .next (.holderCommand h (fun _ h => ?_))
  split
  · exact .busyFor h
  · exact .holderNeed h (fun _ h => .ite (.ok h) (.defer (.parts h)))

theorem Onward.loader {fuel : Nat} (h : Onward a s) : Onward a (loader fuel s) := by
  induction fuel generalizing s with
  | zero => exact h
  | succ fuel ih =>
    unfold Machine.loader
    split
    · exact h
    · refine .ite ?_ (.ite (.parts h) (.wr (.wr (.parts ?_))))
      · split
        · exact h
        · exact .ite (.parts h) (ih (.parts (.raiseAt (.fallbackWrite h))))
      · exact .ifElse (.ifThen h fun h => .dirWrite h fun _ h => .mapF h) fun h => .updCount h

theorem Onward.readDirectory {bad : Option Bool} (h : Onward a s) : Onward a (readDirectory bad s) := by
  unfold Machine.readDirectory
  split
  · exact h
  · refine .raiseAt ?_
    split
    · exact .wrWord (.wrWord h)
    · exact h

/-! ## Machine/Power -/

theorem Onward.pwrCount {i n : Nat} (h : Onward a s) : Onward a (pwrCount i n s) := .bump h

theorem Onward.showShed (h : Onward a s) : Onward a (showShed s) := .wr (.wr (.wr h))

theorem Onward.powerDown {u : ShedUnit} (h : Onward a s) : Onward a (powerDown u s) := by
  unfold Machine.powerDown
  split
  · exact .shedCluster h
  · exact .ite h (.moveLink h)
  · exact .ite (.goDown (.wr (.parts h))) (.ifThen (.wr (.parts h)) (fun h => .setLink h))

theorem Onward.powerUp {u : ShedUnit} (h : Onward a s) : Onward a (powerUp u s) := by
  unfold Machine.powerUp
  split
  · exact .shedCluster h
  · exact h
  · exact .condChanged h

theorem Onward.shedOne {u : ShedUnit} (h : Onward a s) : Onward a (shedOne u s) := .pwrCount (.showShed (.powerDown (.parts h)))

theorem Onward.startItems (h : Onward a s) : Onward a (startItems s) := .forAll (.showShed (.parts h)) (fun _ _ h => .powerUp h)

theorem Onward.levelChanged (h : Onward a s) : Onward a (levelChanged s) := .ite h (.startItems (.stateEvent (.pwrCount (.wr h))))

theorem Goes.execVinLevelChange {level : BitVec 2} (h : Onward a s) : Goes a (execVinLevelChange level s) := .next (.levelChanged (.wr h))

theorem Goes.execStableChange {stable : Bool} (h : Onward a s) : Goes a (execStableChange stable s) := .next (.wr h)

theorem Onward.mainDown (h : Onward a s) : Onward a (mainDown s) :=
  .ifThen (.timeChanged (.mainReset (.showShed (.parts h)))) (fun h => .fullReset h)

theorem Goes.execPowerMeasure {watts deciamps millivolts standby : Nat} (h : Onward a s) :
    Goes a (execPowerMeasure watts deciamps millivolts standby s) :=
  .next (.parts (.wr (.wr (.wr (.wr h)))))

theorem Goes.execShedItem (h : Onward a s) : Goes a (execShedItem s) := by
  unfold Machine.execShedItem
  refine .next (.ite h ?_)
  split
  · refine .shedOne ?_
    split
    · exact .due h
    · exact h
  · exact h

theorem Goes.execBudgetUnmet (h : Onward a s) : Goes a (execBudgetUnmet s) := .next (.ite h (.raiseAt (.parts (.due h))))

theorem Goes.execRestoreItem {watts : Nat} (h : Onward a s) : Goes a (execRestoreItem watts s) := by
  unfold Machine.execRestoreItem
  refine .next ?_
  split
  · exact h
  · exact .ite (.powerUp (.showShed (.parts h))) h

theorem Goes.execCurrentLimit (h : Onward a s) : Goes a (execCurrentLimit s) :=
  .next (.ite h (.raiseAt (.pwrCount (.forAll (.parts (.due h)) (fun _ _ h => .shedOne h)))))

theorem Goes.execCurrentLimitShutdown (h : Onward a s) : Goes a (execCurrentLimitShutdown s) := .next (.ite (.mainDown (.due h)) h)

theorem Goes.execThermalRead {fd qd : Nat} (h : Onward a s) : Goes a (execThermalRead fd qd s) :=
  .next (.ifThen (.ite (.raiseAt (.levelChanged (.pwrCount (.wr (.parts (.wr h)))))) (.ifThen (.parts (.wr h)) (fun h => .levelChanged
    (.wr h)))) (fun h => .mainDown (.raiseAt h)))

/-! ## Machine/HostWrite -/

theorem Onward.readObj {k : Key} (h : Onward a s) : Onward a (readObj k s).2 := by
  have hf (l : List (Fld × Nat)) (x : Nat) {s : State} (h : Onward a s) : Onward a (l.foldl (fun (x, s) (f, n) =>
      (putF x f (Config.openObject (keyNo k) s.free % n), { s with free := s.free + 1 })) (x, s)).2 := by
    induction l generalizing x s with
    | nil => exact h
    | cons e l ih => exact ih _ (.parts h)
  have hrc (l : List FieldDesc) {s : State} (h : Onward a s) : Onward a (l.foldl (fun s d => Machine.wr s k d.f 0) s) := by
    induction l generalizing s with
    | nil => exact h
    | cons d l ih => exact ih (.wr h)
  exact .snd (hrc _ (hf _ _ h))

theorem Onward.replyWrite {c : Hdr} {k : Key} (h : Onward a s) : Onward a (replyWrite c k s) := .replyWith h

theorem Onward.clWritten {cl old x : Nat} (h : Onward a s) : Onward a (clWritten cl old x s) :=
  .ifElse (.ifThen (.ite (.loadGo h) h) (fun h => .patchGo h)) (fun h => .ite (.parkCluster h) (.returnCluster h))

theorem Onward.bucketWritten {k : Key} {x : Nat} (h : Onward a s) : Onward a (bucketWritten k x s) :=
  .ifThen (.storeObj (.touchBucket h)) (fun h => .clearBucket h)

theorem Onward.applyWrite {k : Key} {x : Nat} (h : Onward a s) : Onward a (applyWrite k x s) := by
  unfold Machine.applyWrite
  split
  · exact .clWritten (.storeObj h)
  · exact .ite (.slotErase (.storeObj h)) (.ifThen (.storeObj h) (fun h => .slotVerify h))
  · exact .slotWritten (.storeObj h)
  · exact .windowWritten (.storeObj h)
  · exact .ifThen (.ifThen (.storeObj h) (fun h => .swapGo h)) (fun h => .patEraseGo h)
  · exact .lpCtlWritten (.storeObj h)
  · exact .ifThen (.storeObj h) (fun h => .moduleGo h)
  · exact .aggWritten (.storeObj h)
  · exact .bfdWritten (.storeObj h)
  · exact .ifThen (.ifThen (.storeObj h) (fun h => .copyPage h)) (fun h => .swapPages h)
  · exact .frCtlWritten (.storeObj h)
  · exact .ifThen (.storeObj h) (fun h => .takeActions h)
  · exact .protWritten (.storeObj h)
  · exact .entryWritten (.storeObj h)
  · exact .ite (.mkaStart (.storeObj h)) (.ifThen (.storeObj h) (fun h => .mkaStop h))
  · exact .forAll h (fun _ _ h => .writeClass h)
  · exact .bucketWritten h
  · exact .bucketWritten h
  · exact .bucketWritten h
  · exact .bucketWritten h
  · exact .bucketWritten h
  · exact .bucketWritten h
  · exact .ifThen (.storeObj h) (fun h => .startFab h)
  · exact .flCtlWritten (.storeObj h)
  · exact .parts (.storeObj h)
  · exact .parts (.storeObj h)
  · exact .forAll (.storeObj h) (fun _ _ h => .queueRetrain h)
  · exact .timeChanged (.ifElse (.storeObj h) (fun h => .emit h))
  · exact .timeChanged (.corrWritten (.storeObj h))
  · exact .timeChanged (.storeObj h)
  · exact .timeChanged (.storeObj h)
  · exact .prCtlWritten (.storeObj h)
  · exact .ite (.leaveSafe (.storeObj h)) (.ifThen (.storeObj h) (fun h => .askSafe h))
  · exact .ifThen (.storeObj h) (fun h => .saveGo h)
  · exact .levelChanged (.storeObj h)
  · exact .storeObj h

theorem Onward.writeKeys {c : Hdr} {l : List (Key × Nat)} (h : Onward a s) : Onward a (writeKeys c l s) := by
  unfold Machine.writeKeys
  refine .ite ?_ ?_
  · split
    · exact .replyWrite h
    · exact h
  · split
    · exact .busyFor h
    · split
      · exact .refuse h
      · exact .need h (fun _ h => .defer (.parts h))

/-- The slots of operator keys that a fuse write revokes. -/
def revokedBy (w : FuseWrite) : List Nat := (w.slots.filter fun e => getF e.2 OpKey.STATE == 2).map Prod.fst

/-- A completed fuse write: the slots, and the images whose keys it revokes. -/
def slotsFused (w : FuseWrite) (s : State) : State :=
  forAll (revokedBy w) revokeImages { s with
    cmd := { s.cmd with fuse := none }
    fuses := { s.fuses with opKeys := w.slots.foldl (fun t e => tabPut t e.1 e.2) s.fuses.opKeys } }

/-- A completed fuse write: SECVER_MIN. -/
def secverFused (w : FuseWrite) (s : State) : State :=
  match w.secver with
  | some v => wr { s with fuses := { s.fuses with secver := v } } upS UpdStatus.SECVER_MIN v
  | none => s

/-- A completed fuse write: its reply, or the sessions that a revocation closes. -/
def fuseReplied (w : FuseWrite) (s : State) : State :=
  match w.hdr with
  | none => s
  | some c =>
    match waitingOf s c with
    | none => forAll ((openSessions s).filter fun m => (revokedBy w).contains (rd s (sessKey m) SessStatus.SLOT)) closeSess s
    | some x =>
      let result := match w.slots, w.secver with
        | _, some _ => actResult 0 s
        | e :: _, none => if x.op = 0x0203 then toBytes 64 (viewWord s (obj .opKey e.1)) else []
        | [], none => []
      finish c stOk 0 0 result (if (revokedBy w).isEmpty then .nothing else .closeSlots (revokedBy w)) s

theorem execFuseWriteComplete_of_none {s : State} (h : s.cmd.fuse = none) : execFuseWriteComplete s = .next s := by
  unfold execFuseWriteComplete
  rw [h]

theorem execFuseWriteComplete_of_some {s : State} {w : FuseWrite} (h : s.cmd.fuse = some w) :
    execFuseWriteComplete s = .next (fuseReplied w (secverFused w (slotsFused w s))) := by
  unfold execFuseWriteComplete
  rw [h]
  rfl

/-- With other fuses on both sides. -/
theorem Onward.withFuses (f : Fuses) (h : Onward a s) : Onward { a with fuses := f } { s with fuses := f } :=
  ⟨rfl, h.pending, h.clock, h.out, h.regs, h.memory⟩

theorem slotsFused_onward (w : FuseWrite) (s : State) : ∃ f, Onward { s with fuses := f } (slotsFused w s) :=
  ⟨_, .forAll (s := { s with cmd := { s.cmd with fuse := none }, fuses := _ }) ⟨rfl, rfl, Nat.le_refl _, ⟨[], rfl⟩, id, id⟩
    fun _ _ h => .revokeImages h⟩

theorem secverFused_onward {w : FuseWrite} {f : Fuses} (h : Onward { a with fuses := f } s) :
    ∃ f, Onward { a with fuses := f } (secverFused w s) := by
  unfold secverFused
  split
  · exact ⟨_, .wr (h.withFuses _)⟩
  · exact ⟨f, h⟩

theorem Onward.fuseReplied {w : FuseWrite} (h : Onward a s) : Onward a (fuseReplied w s) := by
  unfold Machine.fuseReplied
  split
  · exact h
  · split
    · exact .forAll h fun _ _ h => .closeSess h
    · exact .finish h

/-- The one command that writes the fuses leads onward from the state with the fuses it writes. -/
theorem execFuseWriteComplete_goes (s : State) : ∃ f, Goes { s with fuses := f } (execFuseWriteComplete s) := by
  cases hw : s.cmd.fuse with
  | none => exact ⟨s.fuses, execFuseWriteComplete_of_none hw ▸ .next (.refl s)⟩
  | some w =>
    obtain ⟨_, hs⟩ := slotsFused_onward w s
    obtain ⟨f, hf⟩ := secverFused_onward (w := w) hs
    exact ⟨f, execFuseWriteComplete_of_some hw ▸ .next hf.fuseReplied⟩

theorem Onward.writeObjects {c : Hdr} {l : List (Key × Nat)} (h : Onward a s) : Onward a (writeObjects c l s) := by
  unfold Machine.writeObjects
  split
  · exact .refuse h
  · refine .ite (.writeKeys h) ?_
    split
    · exact .ite (.busyFor (.ite (.wr h) h)) (.refuse (.ite (.wr h) h))
    · split
      · exact h
      · exact .ite (.gateGo h) (.replyWrite (.forAll h (fun _ _ h => .applyWrite h)))

theorem Onward.writeAt {c : Hdr} {addr : ObjAddr} {res : BitVec 16} {n : Nat} {data : Bytes} (h : Onward a s) :
    Onward a (writeAt c addr res n data s) := by
  unfold Machine.writeAt
  refine .checked h (fun _ h => ?_)
  split
  · exact .refuse h
  · exact .writeObjects h

theorem Onward.hostWrite {c : Hdr} {k : Key} {f : Nat → Nat} (h : Onward a s) : Onward a (hostWrite c k f s) := by
  unfold Machine.hostWrite
  split
  · exact h
  · exact .checked h (fun _ h => .ite (.refuse h) (.ite (.refuse h) (.writeObjects h)))

theorem Goes.execObjRead {c : Hdr} {addr : ObjAddr} {res : BitVec 16} {len : BitVec 32} {bad : Option ObjAddr} (h : Onward a s) :
    Goes a (execObjRead c addr res len bad s) := by
  have hr (l : List Key) (b : Bytes) {s : State} (h : Onward a s) : Onward a (l.foldl (fun (b, s) k =>
      let (x, s) := Machine.readObj k s
      (b ++ toBytes (sizeOf k) x, s)) (b, s)).2 := by
    induction l generalizing b s with
    | nil => exact h
    | cons k l ih => exact ih _ (.readObj h)
  refine .next (.checked h fun _ h => ?_)
  split
  · exact .refuse h
  · split
    · exact .refuse h
    · exact .ok (hr _ _ h)

theorem Goes.execObjWrite {c : Hdr} {addr : ObjAddr} {res : BitVec 16} {len : BitVec 32} {data : Bytes} (h : Onward a s) :
    Goes a (execObjWrite c addr res len data s) :=
  .next (.writeAt h)

theorem Goes.execObjModify {c : Hdr} {addr : ObjAddr} {op res : BitVec 8} {len : BitVec 32} {mask value : Nat} (h : Onward a s) :
    Goes a (execObjModify c addr op res len mask value s) := by
  unfold Machine.execObjModify
  refine .next (.checked h (fun _ h => ?_))
  split
  · exact .refuse h
  · refine .ite (.refuse h) ?_
    split
    · exact .refuse h
    · exact .writeObjects h

theorem Goes.execOperatorKeyProgram {c : Hdr} {k : Fin 4} {digest : BitVec 384} (h : Onward a s) :
    Goes a (execOperatorKeyProgram c k digest s) :=
  .next (.hostWrite h)

theorem Goes.execOperatorKeyRevoke {c : Hdr} {k : Fin 4} (h : Onward a s) : Goes a (execOperatorKeyRevoke c k s) := .next (.hostWrite h)

theorem Goes.execImageSlotDataWrite {c : Hdr} {k : Fin 4} {off : Nat} {data : Bytes} (h : Onward a s) :
    Goes a (execImageSlotDataWrite c k off data s) :=
  .next (.writeAt h)

theorem Goes.execImageSlotVerify {c : Hdr} {k : Fin 4} (h : Onward a s) : Goes a (execImageSlotVerify c k s) := .next (.hostWrite h)

theorem Goes.execImageSlotErase {c : Hdr} {k : Fin 4} (h : Onward a s) : Goes a (execImageSlotErase c k s) := .next (.hostWrite h)

theorem Goes.execPatchGo {c : Hdr} {cl : Fin 32} (h : Onward a s) : Goes a (execPatchGo c cl s) := .next (.hostWrite h)

theorem Goes.execLoadGo {c : Hdr} {cl : Fin 32} (h : Onward a s) : Goes a (execLoadGo c cl s) := .next (.hostWrite h)

theorem Goes.execClusterPark {c : Hdr} {cl : Fin 32} (h : Onward a s) : Goes a (execClusterPark c cl s) := .next (.hostWrite h)

theorem Goes.execClusterReturn {c : Hdr} {cl : Fin 32} (h : Onward a s) : Goes a (execClusterReturn c cl s) := .next (.hostWrite h)

theorem Goes.execTableCreate {c : Hdr} {tid : BitVec 16} {family : Bool} (h : Onward a s) : Goes a (execTableCreate c tid family s) :=
  .next (.ite (.hostWrite h) (.writeAt h))

theorem Goes.execTableRemove {c : Hdr} {tid : BitVec 16} (h : Onward a s) : Goes a (execTableRemove c tid s) :=
  .next (.ite (.hostWrite h) (.writeAt h))

theorem Goes.execPatWindowWrite {c : Hdr} {off : Nat} {data : Bytes} (h : Onward a s) : Goes a (execPatWindowWrite c off data s) :=
  .next (.writeAt h)

theorem Goes.execPatSwap {c : Hdr} (h : Onward a s) : Goes a (execPatSwap c s) := .next (.hostWrite h)

theorem Goes.execPatErase {c : Hdr} (h : Onward a s) : Goes a (execPatErase c s) := .next (.hostWrite h)

theorem Goes.execPortAdminUp {c : Hdr} {p : Fin 48} (h : Onward a s) : Goes a (execPortAdminUp c p s) := .next (.hostWrite h)

theorem Goes.execPortAdminDown {c : Hdr} {p : Fin 48} (h : Onward a s) : Goes a (execPortAdminDown c p s) := .next (.hostWrite h)

theorem Goes.execModuleAccessGo {c : Hdr} {b : Fin 4} (h : Onward a s) : Goes a (execModuleAccessGo c b s) := .next (.hostWrite h)

theorem Goes.execPageSwap {c : Hdr} (h : Onward a s) : Goes a (execPageSwap c s) := .next (.hostWrite h)

theorem Goes.execPageCopy {c : Hdr} (h : Onward a s) : Goes a (execPageCopy c s) := .next (.hostWrite h)

theorem Goes.execForceToProtection {c : Hdr} {g : Fin 24} (h : Onward a s) : Goes a (execForceToProtection c g s) := .next (.hostWrite h)

theorem Goes.execLockoutOfProtection {c : Hdr} {g : Fin 24} (h : Onward a s) : Goes a (execLockoutOfProtection c g s) :=
  .next (.hostWrite h)

theorem Goes.execProtectionCmdClear {c : Hdr} {g : Fin 24} (h : Onward a s) : Goes a (execProtectionCmdClear c g s) :=
  .next (.hostWrite h)

theorem Goes.execMkaEnable {c : Hdr} {p : Fin 48} (h : Onward a s) : Goes a (execMkaEnable c p s) := .next (.hostWrite h)

theorem Goes.execMkaDisable {c : Hdr} {p : Fin 48} (h : Onward a s) : Goes a (execMkaDisable c p s) := .next (.hostWrite h)

theorem Onward.noObject {c : Hdr} {addr : ObjAddr} (h : Onward a s) : Onward a (noObject c addr s) := by
  unfold Machine.noObject
  split
  · exact h
  · exact .checked h (fun _ h => .refuse h)

theorem Goes.execBucketClear {c : Hdr} {addr : ObjAddr} (h : Onward a s) : Goes a (execBucketClear c addr s) := by
  unfold Machine.execBucketClear
  refine .next ?_
  split
  · exact .ite (.hostWrite h) (.noObject h)
  · exact .noObject h

theorem Goes.execGateGo {c : Hdr} {p : Fin 48} (h : Onward a s) : Goes a (execGateGo c p s) := .next (.hostWrite h)

theorem Goes.execGateDisable {c : Hdr} {p : Fin 48} (h : Onward a s) : Goes a (execGateDisable c p s) := .next (.hostWrite h)

theorem Goes.execFabricRestart {c : Hdr} (h : Onward a s) : Goes a (execFabricRestart c s) := .next (.hostWrite h)

theorem Goes.execAdminQuarSet {c : Hdr} {k : Fin 64} (h : Onward a s) : Goes a (execAdminQuarSet c k s) := .next (.hostWrite h)

theorem Goes.execAdminQuarClear {c : Hdr} {k : Fin 64} (h : Onward a s) : Goes a (execAdminQuarClear c k s) := .next (.hostWrite h)

theorem Goes.execFabricAdminDown {c : Hdr} {k : Fin 64} (h : Onward a s) : Goes a (execFabricAdminDown c k s) := .next (.hostWrite h)

theorem Goes.execFabricAdminUp {c : Hdr} {k : Fin 64} (h : Onward a s) : Goes a (execFabricAdminUp c k s) := .next (.hostWrite h)

theorem Goes.execRetrain {c : Hdr} {st : Fin 6} {ch : Fin 8} (h : Onward a s) : Goes a (execRetrain c st ch s) := .next (.hostWrite h)

theorem Goes.execPairEnable {c : Hdr} (h : Onward a s) : Goes a (execPairEnable c s) := .next (.hostWrite h)

theorem Goes.execPairDisable {c : Hdr} (h : Onward a s) : Goes a (execPairDisable c s) := .next (.hostWrite h)

theorem Goes.execSafeEnter {c : Hdr} (h : Onward a s) : Goes a (execSafeEnter c s) := .next (.hostWrite h)

theorem Goes.execSafeExit {c : Hdr} (h : Onward a s) : Goes a (execSafeExit c s) := .next (.hostWrite h)

theorem Goes.execSave {c : Hdr} (h : Onward a s) : Goes a (execSave c s) := .next (.hostWrite h)

theorem Goes.execBfdSessionAdmin {c : Hdr} {i : Fin 16384} {admin : BitVec 2} (h : Onward a s) :
    Goes a (execBfdSessionAdmin c i admin s) :=
  .next (.hostWrite h)

theorem Goes.execAggregatorEnable {c : Hdr} {b : Fin 24} {en : Bool} {members : BitVec 48} (h : Onward a s) :
    Goes a (execAggregatorEnable c b en members s) :=
  .next (.hostWrite h)

theorem Goes.execForceLevelWrite {c : Hdr} {level : BitVec 2} (h : Onward a s) : Goes a (execForceLevelWrite c level s) :=
  .next (.hostWrite h)

theorem Onward.placeInject {q : MgmtPort} {m : InjectMeta} (h : Onward a s) : Onward a (placeInject q m s) := by
  unfold Machine.placeInject
  refine .ite (.injectDrop h) ?_
  split
  · exact .injectDrop (.shortfall h)
  · next e =>
      exact .ite (.egressEnqueue (.sendData (.storeArrival (.drawBillets h e)))) (.parts (.sendData (.storeArrival (.drawBillets h e))))

theorem Goes.execInject {sid : Fin 64} {m : InjectMeta} (h : Onward a s) : Goes a (execInject sid m s) := by
  unfold Machine.execInject
  refine .next ?_
  split
  · exact h
  · exact .ite h (.ite (.injectDrop (.setSess h)) (.placeInject (.setSess h)))

/-! ## Machine/Startup -/

theorem Onward.resetCommand {c : Hdr} {inRange : Bool} {flags : BitVec 8} {res : BitVec 16} {f : State → State} (h : Onward a s)
    (hf : ∀ s, Onward a s → Onward a (f s)) :
    Onward a (resetCommand c inRange flags res f s) := by
  unfold Machine.resetCommand
  exact .checked h (fun _ h => .need h (fun _ h => .need h (fun _ h => hf _ h)))

theorem Goes.execResetDevice {c : Hdr} {other : Unlisted} {flags : BitVec 8} {res : BitVec 16} (h : Onward a s) :
    Goes a (execResetDevice c other flags res s) :=
  .next (.resetCommand h (fun _ h => .finish h))

theorem Goes.execResetDatapath {c : Hdr} {flags : BitVec 8} {res : BitVec 16} (h : Onward a s) :
    Goes a (execResetDatapath c flags res s) :=
  .next (.resetCommand h (fun _ h => .timeChanged (.defer (.beginSequence (.clearBlocks (.noteReset (.forAll h (fun _ _ h => .finish
    h))))))))

theorem Onward.sampleStraps {strap : BitVec 2} (h : Onward a s) : Onward a (sampleStraps strap s) := .wr h

theorem Goes.execPinReset (h : Onward a s) : Goes a (execPinReset s) := .next (.fullReset (.parts h))

theorem Goes.execResetRelease {strap : BitVec 2} (h : Onward a s) : Goes a (execResetRelease strap s) :=
  .next (.ite h (.beginSequence (.sampleStraps (.parts h))))

theorem Goes.execVinGood (h : Onward a s) : Goes a (execVinGood s) :=
  .next (.ite h (.ite (.powerOnReset (.parts h)) (.ifThen (.parts h) (fun h => .fullReset h))))

theorem Goes.execVinLoss (h : Onward a s) : Goes a (execVinLoss s) :=
  .next (.ite h (.ite (.mainDown (.parts h)) (.powerOnReset (.parts h))))

theorem Goes.execVstbyGood {strap : BitVec 2} (h : Onward a s) : Goes a (execVstbyGood strap s) :=
  .next (.ite h (.ite (.powerOnReset (.sampleStraps (.parts h))) (.ifThen (.sampleStraps (.parts h)) (fun h => .beginSequence h))))

theorem Goes.execVstbyLoss (h : Onward a s) : Goes a (execVstbyLoss s) := .next (.ite h (.ifElse (.parts h) (fun h => .powerOnReset h)))

theorem Onward.onSettings {l : List Nat} {f : Key → State → State} (h : Onward a s) (hf : ∀ x s, Onward a s → Onward a (f x s)) :
    Onward a (onSettings l f s) := by
  unfold Machine.onSettings
  refine .forAll h (fun _ _ h => ?_)
  split
  · exact .ite (hf _ _ h) h
  · exact h

theorem Onward.settingsReset (h : Onward a s) : Onward a (settingsReset s) := .onSettings h (fun _ _ h => .wrWord h)

theorem Onward.loadSettings (h : Onward a s) : Onward a (loadSettings s) := by
  unfold Machine.loadSettings
  refine .ite (.stateEvent (.wr (.settingsReset h))) (.ite (.wr (.settingsReset h)) ?_)
  split
  · exact .stateEvent (.wr (.settingsReset h))
  · exact .onSettings (.settingsReset h) (fun _ _ h => .wrWord h)

theorem Onward.startSetting {k : Key} (h : Onward a s) : Onward a (startSetting k s) := by
  unfold Machine.startSetting
  split
  · exact .storeObj (.wrWord h)
  · exact .storeObj (.wrWord h)
  · exact .storeObj (.wrWord h)
  · exact .storeObj (.wrWord h)
  · exact .storeObj (.wrWord h)
  · exact .storeObj (.wrWord h)
  · exact .applyWrite (.wrWord h)

theorem Onward.holdBack (h : Onward a s) : Onward a (holdBack s) := by
  unfold Machine.holdBack
  refine .showShed (.forAll (.ite (.parts h) h) (fun _ _ h => ?_))
  split
  · exact .shedCluster h
  · exact h

theorem Onward.startBlocks (h : Onward a s) : Onward a (startBlocks s) :=
  .timeChanged (.parts (.onSettings (.holdBack (.ite (.startFab h) h)) (fun _ _ h => .startSetting h)))

theorem Onward.stepDone {n : Nat} (h : Onward a s) : Onward a (stepDone n s) := .wr (.parts h)

theorem Onward.bootTried (h : Onward a s) : Onward a (bootTried s) := .ite (.stepDone h) h

theorem Onward.firstBoot {r : BootRead} (h : Onward a s) : Onward a (firstBoot r s) :=
  .ite h (.bootTried (.loader (.readDirectory (.parts h))))

theorem Onward.commandReady (h : Onward a s) : Onward a (commandReady s) := .ifThen (.emberRuns (.wr (.wr h))) (fun h => .wr (.parts h))

theorem Onward.datapathDone (h : Onward a s) : Onward a (datapathDone s) := by
  unfold Machine.datapathDone
  dsimp only
  refine .ite ?_ h
  split
  · exact .done (.emberRuns (.wr (.parts h)))
  · exact .emberRuns (.wr (.parts h))

theorem Onward.bridgeUp (h : Onward a s) : Onward a (bridgeUp s) := .wr (.wr h)

theorem Goes.execStartupStepComplete {step : Fin 12} {r : BootRead} (h : Onward a s) : Goes a (execStartupStepComplete step r s) := by
  unfold Machine.execStartupStepComplete
  refine .next (.ite h ?_)
  split
  · exact .stepDone (.levelChanged (.wr (.parts h)))
  · exact .stepDone (.bridgeUp (.parts h))
  · exact .ite (.stepDone h) h
  · exact .firstBoot h
  · exact .stepDone (.loadSettings h)
  · exact .beginPart (.parts (.stepDone (.startBlocks h)))
  · exact .ite (.datapathDone (.stepDone h)) h
  · exact .commandReady (.stepDone h)
  · exact .stepDone h

theorem Goes.execTrialBootRetry (h : Onward a s) : Goes a (execTrialBootRetry s) := .next (.ite (.bootTried (.loader h)) h)

theorem Goes.execBootReadyTimeout (h : Onward a s) : Goes a (execBootReadyTimeout s) := by
  unfold Machine.execBootReadyTimeout
  refine .next ?_
  split
  · exact h
  · exact .ite h (.bootTried (.loader (.parts (.wr (.parts (.due h))))))

end Sys2Proof.Machine
end

section
/-! Every command goes on. -/
namespace Sys2Proof.Machine

open Sys2Proof

/-- Every command but the one that writes the fuses answers a next state and leads onward. -/
theorem exec_onward (s : State) : ∀ c : Instr, c ≠ .fuseWriteComplete → Goes s (exec c s)
  | .jutosFrameReceive .., _ => .execJutosFrameReceive (.refl s)
  | .reassemblyTimeout .., _ => .execReassemblyTimeout (.refl s)
  | .openRequest .., _ => .execOpenRequest (.refl s)
  | .firstCommandTimeout .., _ => .execFirstCommandTimeout (.refl s)
  | .idleTimeout .., _ => .execIdleTimeout (.refl s)
  | .commandBlockTimeout .., _ => .execCommandBlockTimeout (.refl s)
  | .sessionClose .., _ => .execSessionClose (.refl s)
  | .objRead .., _ => .execObjRead (.refl s)
  | .objWrite .., _ => .execObjWrite (.refl s)
  | .objModify .., _ => .execObjModify (.refl s)
  | .operatorKeyProgram .., _ => .execOperatorKeyProgram (.refl s)
  | .operatorKeyRevoke .., _ => .execOperatorKeyRevoke (.refl s)
  | .fuseWriteComplete, hc => absurd rfl hc
  | .inject .., _ => .execInject (.refl s)
  | .puntTransmit, _ => .execPuntTransmit (.refl s)
  | .eventFrameTimeout .., _ => .execEventFrameTimeout (.refl s)
  | .flitReceive .., _ => .execFlitReceive (.refl s)
  | .bridgeRetrainComplete .., _ => .execBridgeRetrainComplete (.refl s)
  | .bridgeRetrainRetry .., _ => .execBridgeRetrainRetry (.refl s)
  | .dispatch .., _ => .execDispatch (.refl s)
  | .add .., _ => .execAdd (.refl s)
  | .sub .., _ => .execSub (.refl s)
  | .and .., _ => .execAnd (.refl s)
  | .or .., _ => .execOr (.refl s)
  | .xor .., _ => .execXor (.refl s)
  | .shl .., _ => .execShl (.refl s)
  | .shr .., _ => .execShr (.refl s)
  | .movB .., _ => .execMovB (.refl s)
  | .cmp .., _ => .execCmp (.refl s)
  | .min .., _ => .execMin (.refl s)
  | .max .., _ => .execMax (.refl s)
  | .hash .., _ => .execHash (.refl s)
  | .fieldExtract .., _ => .execFieldExtract (.refl s)
  | .fieldInsert .., _ => .execFieldInsert (.refl s)
  | .lookupLpm .., _ => .execLookupLpm (.refl s)
  | .lookupExm .., _ => .execLookupExm (.refl s)
  | .lookupPat .., _ => .execLookupPat (.refl s)
  | .waitLookup .., _ => .execWaitLookup (.refl s)
  | .waitFlagT .., _ => .execWaitFlagT (.refl s)
  | .waitTime .., _ => .execWaitTime (.refl s)
  | .setDestination .., _ => .execSetDestination (.refl s)
  | .setMeterIndex .., _ => .execSetMeterIndex (.refl s)
  | .drop .., _ => .execDrop (.refl s)
  | .punt .., _ => .execPunt (.refl s)
  | .mirror .., _ => .execMirror (.refl s)
  | .setEcmpHash .., _ => .execSetEcmpHash (.refl s)
  | .writeInterPass .., _ => .execWriteInterPass (.refl s)
  | .nop .., _ => .execNop (.refl s)
  | .lookupAccept .., _ => .execLookupAccept (.refl s)
  | .lookupResult .., _ => .execLookupResult (.refl s)
  | .passWatchdog .., _ => .execPassWatchdog (.refl s)
  | .signedSweep .., _ => .execSignedSweep (.refl s)
  | .imageSlotDataWrite .., _ => .execImageSlotDataWrite (.refl s)
  | .imageSlotVerify .., _ => .execImageSlotVerify (.refl s)
  | .imageVerifyComplete .., _ => .execImageVerifyComplete (.refl s)
  | .imageSlotErase .., _ => .execImageSlotErase (.refl s)
  | .patchGo .., _ => .execPatchGo (.refl s)
  | .patchSwitch .., _ => .execPatchSwitch (.refl s)
  | .loadGo .., _ => .execLoadGo (.refl s)
  | .reloadStart .., _ => .execReloadStart (.refl s)
  | .reloadDrain .., _ => .execReloadDrain (.refl s)
  | .reloadDrained .., _ => .execReloadDrained (.refl s)
  | .reloadLoaded .., _ => .execReloadLoaded (.refl s)
  | .reloadResume .., _ => .execReloadResume (.refl s)
  | .reloadAbandon .., _ => .execReloadAbandon (.refl s)
  | .clusterPark .., _ => .execClusterPark (.refl s)
  | .clusterReturn .., _ => .execClusterReturn (.refl s)
  | .tableInsert .., _ => .execTableInsert (.refl s)
  | .tableDelete .., _ => .execTableDelete (.refl s)
  | .tableChangeTurn, _ => .execTableChangeTurn (.refl s)
  | .tableCommit .., _ => .execTableCommit (.refl s)
  | .commitBuildDone, _ => .execCommitBuildDone (.refl s)
  | .epochSwitch, _ => .execEpochSwitch (.refl s)
  | .epochRetire, _ => .execEpochRetire (.refl s)
  | .tableRead .., _ => .execTableRead (.refl s)
  | .bulkLoad .., _ => .execBulkLoad (.refl s)
  | .tableCreate .., _ => .execTableCreate (.refl s)
  | .tableRemove .., _ => .execTableRemove (.refl s)
  | .leafReadIssue .., _ => .execLeafReadIssue (.refl s)
  | .leafReadComplete .., _ => .execLeafReadComplete (.refl s)
  | .leafReadTimeout .., _ => .execLeafReadTimeout (.refl s)
  | .entryRebuildComplete .., _ => .execEntryRebuildComplete (.refl s)
  | .patWindowWrite .., _ => .execPatWindowWrite (.refl s)
  | .patSwap .., _ => .execPatSwap (.refl s)
  | .patVerifyComplete, _ => .execPatVerifyComplete (.refl s)
  | .patBankSwitch, _ => .execPatBankSwitch (.refl s)
  | .patDrainEnd, _ => .execPatDrainEnd (.refl s)
  | .patErase .., _ => .execPatErase (.refl s)
  | .billetFetchIssue .., _ => .execBilletFetchIssue (.refl s)
  | .billetFetchComplete .., _ => .execBilletFetchComplete (.refl s)
  | .fetchTimeout .., _ => .execFetchTimeout (.refl s)
  | .shadowSweep .., _ => .execShadowSweep (.refl s)
  | .frameReceive .., _ => .execFrameReceive (.refl s)
  | .pfcPauseExpire .., _ => .execPfcPauseExpire (.refl s)
  | .frameTransmit .., _ => .execFrameTransmit (.refl s)
  | .linkUp .., _ => .execLinkUp (.refl s)
  | .linkDown .., _ => .execLinkDown (.refl s)
  | .flapHoldExpire .., _ => .execFlapHoldExpire (.refl s)
  | .portAdminUp .., _ => .execPortAdminUp (.refl s)
  | .portAdminDown .., _ => .execPortAdminDown (.refl s)
  | .modulePoll .., _ => .execModulePoll (.refl s)
  | .identityReadComplete .., _ => .execIdentityReadComplete (.refl s)
  | .twbTimeout .., _ => .execTwbTimeout (.refl s)
  | .twbRecovery .., _ => .execTwbRecovery (.refl s)
  | .moduleAccessGo .., _ => .execModuleAccessGo (.refl s)
  | .moduleAccessComplete .., _ => .execModuleAccessComplete (.refl s)
  | .bfdPacketReceive .., _ => .execBfdPacketReceive (.refl s)
  | .bfdTransmit .., _ => .execBfdTransmit (.refl s)
  | .bfdDetectExpire .., _ => .execBfdDetectExpire (.refl s)
  | .lacpduReceive .., _ => .execLacpduReceive (.refl s)
  | .markerPduReceive .., _ => .execMarkerPduReceive (.refl s)
  | .lacpPeriodic .., _ => .execLacpPeriodic (.refl s)
  | .lacpTimeout .., _ => .execLacpTimeout (.refl s)
  | .otuFrameReceive .., _ => .execOtuFrameReceive (.refl s)
  | .gfpFrameReceive .., _ => .execGfpFrameReceive (.refl s)
  | .defectDeclare .., _ => .execDefectDeclare (.refl s)
  | .defectClear .., _ => .execDefectClear (.refl s)
  | .csfTransmit .., _ => .execCsfTransmit (.refl s)
  | .pageSwap .., _ => .execPageSwap (.refl s)
  | .pageCheckComplete, _ => .execPageCheckComplete (.refl s)
  | .pageSwitch, _ => .execPageSwitch (.refl s)
  | .pageTake .., _ => .execPageTake (.refl s)
  | .pageSwapEnd, _ => .execPageSwapEnd (.refl s)
  | .pageCopy .., _ => .execPageCopy (.refl s)
  | .protectionSwitch .., _ => .execProtectionSwitch (.refl s)
  | .wtrExpire .., _ => .execWtrExpire (.refl s)
  | .forceToProtection .., _ => .execForceToProtection (.refl s)
  | .lockoutOfProtection .., _ => .execLockoutOfProtection (.refl s)
  | .keySlotWriteSa .., _ => .execKeySlotWriteSa (.refl s)
  | .keySlotWriteCak .., _ => .execKeySlotWriteCak (.refl s)
  | .keySlotErase .., _ => .execKeySlotErase (.refl s)
  | .slotDrainEnd .., _ => .execSlotDrainEnd (.refl s)
  | .drbgSeedComplete .., _ => .execDrbgSeedComplete (.refl s)
  | .drbgReseed .., _ => .execDrbgReseed (.refl s)
  | .drbgRetry .., _ => .execDrbgRetry (.refl s)
  | .mkpduReceive .., _ => .execMkpduReceive (.refl s)
  | .mkaHello .., _ => .execMkaHello (.refl s)
  | .caLost .., _ => .execCaLost (.refl s)
  | .sakRetireTimeout .., _ => .execSakRetireTimeout (.refl s)
  | .mkaEnable .., _ => .execMkaEnable (.refl s)
  | .mkaDisable .., _ => .execMkaDisable (.refl s)
  | .voqEnqueue, _ => .execVoqEnqueue (.refl s)
  | .pfcRefresh .., _ => .execPfcRefresh (.refl s)
  | .egressDequeue .., _ => .execEgressDequeue (.refl s)
  | .classMapApply .., _ => .execClassMapApply (.refl s)
  | .bucketClear .., _ => .execBucketClear (.refl s)
  | .gateGo .., _ => .execGateGo (.refl s)
  | .gateCheckComplete .., _ => .execGateCheckComplete (.refl s)
  | .gateListStart .., _ => .execGateListStart (.refl s)
  | .gateEntryChange .., _ => .execGateEntryChange (.refl s)
  | .gateDisable .., _ => .execGateDisable (.refl s)
  | .queueSample, _ => .execQueueSample (.refl s)
  | .pageWriteComplete .., _ => .execPageWriteComplete (.refl s)
  | .pageFlush .., _ => .execPageFlush (.refl s)
  | .pageReturnStart .., _ => .execPageReturnStart (.refl s)
  | .pageReturnComplete .., _ => .execPageReturnComplete (.refl s)
  | .pageReadTimeout .., _ => .execPageReadTimeout (.refl s)
  | .pageRingBuilt, _ => .execPageRingBuilt (.refl s)
  | .sheepdogRoundStart, _ => .execSheepdogRoundStart (.refl s)
  | .sheepdogRoundEnd .., _ => .execSheepdogRoundEnd (.refl s)
  | .fabricRestart .., _ => .execFabricRestart (.refl s)
  | .linkTrainingStart .., _ => .execLinkTrainingStart (.refl s)
  | .linkTrained .., _ => .execLinkTrained (.refl s)
  | .helloSend .., _ => .execHelloSend (.refl s)
  | .helloReceive .., _ => .execHelloReceive (.refl s)
  | .mismatchRecheck .., _ => .execMismatchRecheck (.refl s)
  | .keepaliveSend .., _ => .execKeepaliveSend (.refl s)
  | .keepaliveLoss .., _ => .execKeepaliveLoss (.refl s)
  | .congestionSample .., _ => .execCongestionSample (.refl s)
  | .linkStateRecord .., _ => .execLinkStateRecord (.refl s)
  | .recordRefresh, _ => .execRecordRefresh (.refl s)
  | .recordExpire .., _ => .execRecordExpire (.refl s)
  | .routeRebuild .., _ => .execRouteRebuild (.refl s)
  | .fabricLinkDown .., _ => .execFabricLinkDown (.refl s)
  | .downNoticeReceive .., _ => .execDownNoticeReceive (.refl s)
  | .quarHoldExpire .., _ => .execQuarHoldExpire (.refl s)
  | .quarantineTrialEnd .., _ => .execQuarantineTrialEnd (.refl s)
  | .adminQuarSet .., _ => .execAdminQuarSet (.refl s)
  | .adminQuarClear .., _ => .execAdminQuarClear (.refl s)
  | .fabricAdminDown .., _ => .execFabricAdminDown (.refl s)
  | .fabricAdminUp .., _ => .execFabricAdminUp (.refl s)
  | .unreachFlush .., _ => .execUnreachFlush (.refl s)
  | .cellReceive .., _ => .execCellReceive (.refl s)
  | .cellForward .., _ => .execCellForward (.refl s)
  | .creditWord .., _ => .execCreditWord (.refl s)
  | .voqSend .., _ => .execVoqSend (.refl s)
  | .requestSend .., _ => .execRequestSend (.refl s)
  | .requestReceive .., _ => .execRequestReceive (.refl s)
  | .grant .., _ => .execGrant (.refl s)
  | .grantReceive .., _ => .execGrantReceive (.refl s)
  | .returnReceive .., _ => .execReturnReceive (.refl s)
  | .creditKeepExpire .., _ => .execCreditKeepExpire (.refl s)
  | .reorderTimeout .., _ => .execReorderTimeout (.refl s)
  | .multicastSend .., _ => .execMulticastSend (.refl s)
  | .copyTimeout .., _ => .execCopyTimeout (.refl s)
  | .syncSend .., _ => .execSyncSend (.refl s)
  | .syncReceive .., _ => .execSyncReceive (.refl s)
  | .hbmRequest .., _ => .execHbmRequest (.refl s)
  | .hbmCommandIssue .., _ => .execHbmCommandIssue (.refl s)
  | .hbmRequestComplete .., _ => .execHbmRequestComplete (.refl s)
  | .hbmRequestTimeout .., _ => .execHbmRequestTimeout (.refl s)
  | .refreshWindowEnd .., _ => .execRefreshWindowEnd (.refl s)
  | .temperatureRead .., _ => .execTemperatureRead (.refl s)
  | .readRecentre st ch, _ => .execReadRecentre (st := st) (ch := ch) (.refl s)
  | .retrain .., _ => .execRetrain (.refl s)
  | .retrainSlice .., _ => .execRetrainSlice (.refl s)
  | .retrainRetry .., _ => .execRetrainRetry (.refl s)
  | .hbmTrainingComplete .., _ => .execHbmTrainingComplete (.refl s)
  | .ptpMessageReceive .., _ => .execPtpMessageReceive (.refl s)
  | .syncTransmit .., _ => .execSyncTransmit (.refl s)
  | .delayReqTransmit .., _ => .execDelayReqTransmit (.refl s)
  | .announceTransmit .., _ => .execAnnounceTransmit (.refl s)
  | .announceTimeout .., _ => .execAnnounceTimeout (.refl s)
  | .pcsDelayCalibrate .., _ => .execPcsDelayCalibrate (.refl s)
  | .timeStep, _ => .execTimeStep (.refl s)
  | .holdoverReady, _ => .execHoldoverReady (.refl s)
  | .holdoverExpire, _ => .execHoldoverExpire (.refl s)
  | .timeWordReceive .., _ => .execTimeWordReceive (.refl s)
  | .rootWordReceive .., _ => .execRootWordReceive (.refl s)
  | .rootWordExpire .., _ => .execRootWordExpire (.refl s)
  | .fabricTimeTake .., _ => .execFabricTimeTake (.refl s)
  | .referenceDrop .., _ => .execReferenceDrop (.refl s)
  | .referenceRestore .., _ => .execReferenceRestore (.refl s)
  | .esmcPduReceive .., _ => .execEsmcPduReceive (.refl s)
  | .esmcTransmit .., _ => .execEsmcTransmit (.refl s)
  | .esmcTimeout .., _ => .execEsmcTimeout (.refl s)
  | .hoscQualify .., _ => .execHoscQualify (.refl s)
  | .ppsEdge .., _ => .execPpsEdge (.refl s)
  | .ppsMissing, _ => .execPpsMissing (.refl s)
  | .todReceive .., _ => .execTodReceive (.refl s)
  | .ppsOutput, _ => .execPpsOutput (.refl s)
  | .timeControlSet .., _ => .execTimeControlSet (.refl s)
  | .timeControlOffset .., _ => .execTimeControlOffset (.refl s)
  | .forceHoldover _ _ value, _ => .execForceHoldover (value := value) (.refl s)
  | .timeControlRelease _ _ value, _ => .execTimeControlRelease (value := value) (.refl s)
  | .pairEnable .., _ => .execPairEnable (.refl s)
  | .pairWaitTimeout .., _ => .execPairWaitTimeout (.refl s)
  | .yokeBlockReceive .., _ => .execYokeBlockReceive (.refl s)
  | .yokeLinkDown .., _ => .execYokeLinkDown (.refl s)
  | .mirrorEpochEnd, _ => .execMirrorEpochEnd (.refl s)
  | .recordBlockFlush, _ => .execRecordBlockFlush (.refl s)
  | .peerEmberLoss, _ => .execPeerEmberLoss (.refl s)
  | .switchoverResume, _ => .execSwitchoverResume (.refl s)
  | .resyncComplete, _ => .execResyncComplete (.refl s)
  | .forceSwitch .., _ => .execForceSwitch (.refl s)
  | .resync .., _ => .execResync (.refl s)
  | .lock .., _ => .execLock (.refl s)
  | .unlock .., _ => .execUnlock (.refl s)
  | .faultCollect, _ => .execFaultCollect (.refl s)
  | .logCopy, _ => .execLogCopy (.refl s)
  | .reactionWindowExpire .., _ => .execReactionWindowExpire (.refl s)
  | .safeEnter .., _ => .execSafeEnter (.refl s)
  | .shadowClose .., _ => .execShadowClose (.refl s)
  | .safeExit .., _ => .execSafeExit (.refl s)
  | .faultInject .., _ => .execFaultInject (.refl s)
  | .faultRead .., _ => .execFaultRead (.refl s)
  | .grazingRound .., _ => .execGrazingRound (.refl s)
  | .engineTestPass .., _ => .execEngineTestPass (.refl s)
  | .grazingOverdue .., _ => .execGrazingOverdue (.refl s)
  | .counterSweep, _ => .execCounterSweep (.refl s)
  | .counterReadLive .., _ => .execCounterReadLive (.refl s)
  | .counterReadRing .., _ => .execCounterReadRing (.refl s)
  | .eventSubscribe .., _ => .execEventSubscribe (.refl s)
  | .updateLeaseAcquire .., _ => .execUpdateLeaseAcquire (.refl s)
  | .updateLeaseRenew .., _ => .execUpdateLeaseRenew (.refl s)
  | .updateLeaseRelease .., _ => .execUpdateLeaseRelease (.refl s)
  | .leaseExpire, _ => .execLeaseExpire (.refl s)
  | .updateWrite .., _ => .execUpdateWrite (.refl s)
  | .updateVerify .., _ => .execUpdateVerify (.refl s)
  | .updateVerifyComplete .., _ => .execUpdateVerifyComplete (.refl s)
  | .updateCommit .., _ => .execUpdateCommit (.refl s)
  | .commitStepComplete .., _ => .execCommitStepComplete (.refl s)
  | .storeAbort, _ => .execStoreAbort (.refl s)
  | .save .., _ => .execSave (.refl s)
  | .saveComplete, _ => .execSaveComplete (.refl s)
  | .inService .., _ => .execInService (.refl s)
  | .activationStepComplete, _ => .execActivationStepComplete (.refl s)
  | .restart .., _ => .execRestart (.refl s)
  | .confirm .., _ => .execConfirm (.refl s)
  | .fallback .., _ => .execFallback (.refl s)
  | .raiseSecver .., _ => .execRaiseSecver (.refl s)
  | .healthWindowEnd, _ => .execHealthWindowEnd (.refl s)
  | .bootReadyTimeout, _ => .execBootReadyTimeout (.refl s)
  | .resetDevice .., _ => .execResetDevice (.refl s)
  | .resetDatapath .., _ => .execResetDatapath (.refl s)
  | .pinReset, _ => .execPinReset (.refl s)
  | .resetRelease .., _ => .execResetRelease (.refl s)
  | .vinGood, _ => .execVinGood (.refl s)
  | .vinLoss, _ => .execVinLoss (.refl s)
  | .vstbyGood .., _ => .execVstbyGood (.refl s)
  | .vstbyLoss, _ => .execVstbyLoss (.refl s)
  | .startupStepComplete .., _ => .execStartupStepComplete (.refl s)
  | .powerMeasure .., _ => .execPowerMeasure (.refl s)
  | .shedItem, _ => .execShedItem (.refl s)
  | .restoreItem .., _ => .execRestoreItem (.refl s)
  | .budgetUnmet, _ => .execBudgetUnmet (.refl s)
  | .currentLimit, _ => .execCurrentLimit (.refl s)
  | .currentLimitShutdown, _ => .execCurrentLimitShutdown (.refl s)
  | .vinLevelChange .., _ => .execVinLevelChange (.refl s)
  | .thermalRead .., _ => .execThermalRead (.refl s)
  | .stableChange .., _ => .execStableChange (.refl s)
  | .timeConditionMet .., _ => .execTimeConditionMet (.refl s)
  | .pcsAlignmentChange .., _ => .execPcsAlignmentChange (.refl s)
  | .scrubberRead .., _ => .execScrubberRead (.refl s)
  | .dpllLocked, _ => .execDpllLocked (.refl s)
  | .pairDisable .., _ => .execPairDisable (.refl s)
  | .protectionCmdClear .., _ => .execProtectionCmdClear (.refl s)
  | .bfdSessionAdmin .., _ => .execBfdSessionAdmin (.refl s)
  | .aggregatorEnable .., _ => .execAggregatorEnable (.refl s)
  | .forceLevelWrite .., _ => .execForceLevelWrite (.refl s)
  | .trialBootRetry, _ => .execTrialBootRetry (.refl s)
  | .yokeEmptyBlock .., _ => .execYokeEmptyBlock (.refl s)

/-- Every command answers a next state, and leads onward from the state with the fuses it writes. -/
theorem exec_goes (c : Instr) (s : State) : ∃ f, Goes { s with fuses := f } (exec c s) := by
  by_cases hc : c = .fuseWriteComplete
  · subst hc
    exact execFuseWriteComplete_goes s
  · exact ⟨s.fuses, exec_onward s c hc⟩

/-- What a command answers leads onward from the state with the fuses it writes. -/
theorem onward_of_exec {c : Instr} {s t : State} (h : exec c s = .next t) : ∃ f, Onward { s with fuses := f } t := by
  obtain ⟨f, u, hu, ho⟩ := exec_goes c s
  rw [h] at hu
  cases hu
  exact ⟨f, ho⟩

end Sys2Proof.Machine

open Sys2Proof Sys2Proof.Machine

/-- Settles O7: the step's command leads onward, and with none waiting only time passes. -/
theorem stepKeepsCanonicalStores : Obligations.StepKeepsCanonicalStores := by
  unfold Obligations.StepKeepsCanonicalStores
  intro s t hr hm h
  unfold step at h
  split at h
  · cases h
    have ho : Onward s (idleTick s) := .advance (.refl s)
    exact ⟨ho.regs hr, ho.memory hm⟩
  · obtain ⟨_, ho⟩ := onward_of_exec h
    exact ⟨ho.regs hr, ho.memory hm⟩

/-- Settles O3: every command answers a next state. -/
theorem noCommandStops : Obligations.NoCommandStops := by
  unfold Obligations.NoCommandStops
  intro c s
  obtain ⟨_, t, ht, _⟩ := exec_goes c { s with pending := s.pending }
  exact ⟨t, ht⟩

/-- Settles O4: what a command answers leads onward, with the queue as it was. -/
theorem commandsLeaveQueue : Obligations.CommandsLeaveQueue := by
  unfold Obligations.CommandsLeaveQueue
  intro c s t h
  obtain ⟨_, ho⟩ := onward_of_exec h
  exact ho.pending

/-- Settles O5: every other command leads onward, with the fuses as they were. -/
theorem fusesChangeOnlyByFuseWrite : Obligations.FusesChangeOnlyByFuseWrite := by
  unfold Obligations.FusesChangeOnlyByFuseWrite
  intro c s t hc h
  obtain ⟨u, hu, ho⟩ := exec_onward s c hc
  rw [h] at hu
  cases hu
  exact ho.fuses

/-- Settles O1: the step's own equation for a queue that is not empty. -/
theorem stepRunsFrontCommand : Obligations.StepRunsFrontCommand := by
  unfold Obligations.StepRunsFrontCommand
  intro c rest s
  rfl
end

section
/-! Management frames: what the checks of R36 ask, a frame that passes them, and the command that it may carry (R34 to R41, R51, R57 to R60). -/
namespace Sys2Proof.Machine

open Sys2Proof

/-! ## The checks of R36 -/

theorem frameFails_of_line {s : State} {p : MgmtPort} {f : JutosFrame} (h : f.fcsOk = false ∨ f.len < 64 ∨ 9600 < f.len) :
    frameFails s p f = some 0 := by
  unfold frameFails
  rw [if_pos (by simpa using h)]

theorem frameFails_of_dst {s : State} {p : MgmtPort} {f : JutosFrame} (hc : f.fcsOk = true) (hl : 64 ≤ f.len) (hu : f.len ≤ 9600)
    (hd : f.dst.toNat ≠ rd s (mgmtKey p) MgmtPort.MAC) : frameFails s p f = some 1 := by
  unfold frameFails
  rw [if_neg (by simp [hc, hl, hu]), if_pos hd]

theorem execJutosFrameReceive_of_fails {s : State} {p : MgmtPort} {f : JutosFrame} {k : Nat} (hu : mgmtUp s = true)
    (h : frameFails s p f = some k) : execJutosFrameReceive p f s = .next (bump .cmdCtr k (portInst p) 1 s) := by
  unfold execJutosFrameReceive
  rw [if_neg (by simp [hu]), h]
  rfl

theorem execJutosFrameReceive_of_passes {s : State} {p : MgmtPort} {f : JutosFrame} (hu : mgmtUp s = true)
    (h : frameFails s p f = none) : execJutosFrameReceive p f s = .next (framePassed p f s) := by
  unfold execJutosFrameReceive
  rw [if_neg (by simp [hu]), h]

/-! ## The fields of one object -/

theorem rd_wr_of_apart_or_ne {s : State} {k j : Key} {f g : Fld} {v : Nat} (h : f.apart g = true) : rd (wr s k f v) j g = rd s j g := by
  by_cases e : j = k
  · subst e
    exact rd_wr_apart s j v h
  · exact rd_wr_ne s f g v e

theorem outstandingAll_congr {s t : State} (h : ∀ m, rd t (sessKey m) SessStatus.OUTSTANDING = rd s (sessKey m) SessStatus.OUTSTANDING) :
    outstandingAll t = outstandingAll s := by simp [outstandingAll, h]

theorem boundsReached_congr {s t : State} (n : Nat)
    (h : ∀ m, rd t (sessKey m) SessStatus.OUTSTANDING = rd s (sessKey m) SessStatus.OUTSTANDING) :
    boundsReached t n = boundsReached s n := by simp [boundsReached, outstandingAll_congr h, h]

theorem outstanding_lt_of_bounds {s : State} {n : Nat} (h : boundsReached s n = false) :
    rd s (sessKey n) SessStatus.OUTSTANDING < 256 := by
  by_contra hn
  exact of_decide_eq_false h (.inl (Nat.not_lt.1 hn))

/-! ## A command frame whose tag verified -/

/-- The session of a command frame after its tag check: it has had its first command, and the frame is its latest (R35, R48). -/
def tagPassed (n : Fin 64) (p : MgmtPort) (f : JutosFrame) (s : State) : State :=
  let s := setSess s n.val { getSess s n.val with lastPass := ivl s, port := p, mac := f.src }
  if rd s (sessKey n.val) SessStatus.STATE = 1 then wr s (sessKey n.val) SessStatus.STATE 2 else s

/-- The session after a SEQ is accepted (R51). -/
def windowMoved (n : Fin 64) (seq : Word) (s : State) : State :=
  let x := getSess s n.val
  let w := seqMark (rd s (sessKey n.val) SessStatus.H) x.marks seq.toNat
  wr (setSess s n.val { x with marks := w.2 }) (sessKey n.val) SessStatus.H w.1

/-- The command that a frame carries whole, H having been `before`. -/
def frameCommand (n : Fin 64) (p : MgmtPort) (f : JutosFrame) (before : Nat) : Arrived :=
  { hdr := ⟨n, f.seq⟩, port := p, mac := f.src, op := frameOp f, res := f.res.toNat, plen := f.plen.toNat, body := f.bodyLen.toNat,
    before := before }

theorem rd_tagPassed (n : Fin 64) (p : MgmtPort) (f : JutosFrame) (s : State) (k : Key) {g : Fld} (hg : SessStatus.STATE.apart g = true) :
    rd (tagPassed n p f s) k g = rd s k g := by
  unfold tagPassed
  dsimp only
  split
  · rw [rd_wr_of_apart_or_ne hg, rd_setSess]
  · rw [rd_setSess]

theorem rdWord_tagPassed (n : Fin 64) (p : MgmtPort) (f : JutosFrame) (s : State) {k : Key} (hk : k.ty ≠ .sessStatus) :
    rdWord (tagPassed n p f s) k = rdWord s k := by
  unfold tagPassed
  dsimp only
  split
  · rw [rdWord_wr_ty _ _ _ _ _ hk, rdWord_setSess]
  · rw [rdWord_setSess]

theorem tagPassed_parts (n : Fin 64) (p : MgmtPort) (f : JutosFrame) (s : State) : tagPassed n p f s =
    { s with regs := (tagPassed n p f s).regs, cmd := { s.cmd with sess := (tagPassed n p f s).cmd.sess } } := by
  unfold tagPassed
  dsimp only
  split <;> rfl

theorem tagPassed_reasm (n : Fin 64) (p : MgmtPort) (f : JutosFrame) (s : State) :
    (getSess (tagPassed n p f s) n.val).reasm = (getSess s n.val).reasm := by
  unfold tagPassed
  dsimp only
  split <;> simp

theorem rd_windowMoved (n : Fin 64) (seq : Word) (s : State) (k : Key) {g : Fld} (hg : SessStatus.H.apart g = true) :
    rd (windowMoved n seq s) k g = rd s k g := rd_wr_of_apart_or_ne hg

theorem windowMoved_H {n : Fin 64} {seq : Word} {s : State} (h : rd s (sessKey n.val) SessStatus.H < seq.toNat) :
    rd (windowMoved n seq s) (sessKey n.val) SessStatus.H = seq.toNat := by
  unfold windowMoved
  simp only [seqMark, if_pos h]
  rw [rd_wr_self, Nat.mod_eq_of_lt seq.isLt]

theorem commandFrame_eq (n : Fin 64) (p : MgmtPort) (f : JutosFrame) (s : State) : commandFrame n p f s =
    let u := tagPassed n p f s
    let before := rd u (sessKey n.val) SessStatus.H
    if seqFresh before (getSess u n.val).marks f.seq.toNat then
      if fragCount f = 1 ∧ (reasmOf (getSess u n.val).reasm f.seq).isNone then
        acceptCommand (frameCommand n p f before) false (windowMoved n f.seq u)
      else commandFragment n before p f (windowMoved n f.seq u)
    else replayCommand n p f u := rfl

theorem commandFrame_of_whole {n : Fin 64} {p : MgmtPort} {f : JutosFrame} {s : State} (hc : fragCount f = 1)
    (hr : (getSess s n.val).reasm = []) (hh : rd s (sessKey n.val) SessStatus.H < f.seq.toNat) :
    commandFrame n p f s = acceptCommand (frameCommand n p f (rd s (sessKey n.val) SessStatus.H)) false
      (windowMoved n f.seq (tagPassed n p f s)) := by
  rw [commandFrame_eq]
  dsimp only
  rw [rd_tagPassed n p f s _ (by decide), tagPassed_reasm, hr, if_pos (by simp [seqFresh, hh]), if_pos ⟨hc, rfl⟩]

/-- A command inside the bounds that can be read, whose streams have not ended and whose opcode is known, waits for its turn. -/
theorem acceptCommand_waits {a : Arrived} {s : State} (hb : boundsReached s a.hdr.sid.val = false) (hl : 8 ≤ a.body)
    (hh : a.before < seqLimit) (hq : rd s (sessKey a.hdr.sid.val) SessStatus.NEXT_SEQ ≤ seqLimit) (ho : a.op ∈ opcodes) :
    acceptCommand a false s = addWaiting a a.op true .queued (countOut a.hdr.sid.val s) := by
  have hq' : rd (countOut a.hdr.sid.val s) (sessKey a.hdr.sid.val) SessStatus.NEXT_SEQ ≤ seqLimit := by
    unfold countOut mapF
    rwa [rd_wr_of_apart_or_ne (by decide)]
  unfold acceptCommand
  simp [hb, ho, Nat.not_lt.2 hl, Nat.not_le.2 hh, Nat.not_lt.2 hq']

/-! ## A frame that passes the checks before its tag -/

theorem framePassed_of_open {p : MgmtPort} {f : JutosFrame} {s : State} (hk : f.kind = 3) : framePassed p f s =
    { s with cmd := { s.cmd with opens := s.cmd.opens ++ [⟨p, f.src, f.seq⟩],
                                 openTimes := recent s s.cmd.openTimes sec ++ [s.clock] } } := if_pos hk

theorem framePassed_of_command {p : MgmtPort} {f : JutosFrame} {s : State} {n : Fin 64} (hk : f.kind = 1) (hn : f.session.toNat = n.val)
    (ht : f.tag = some (sealOfFrame (keysOf s n.val).cmdIn f)) : framePassed p f s = commandFrame n p f s := by
  have hF : Fin.ofNat 64 f.session.toNat = n := by rw [hn]; exact Fin.ofNat_val_eq_self n
  unfold framePassed
  rw [if_neg (by rw [hk]; decide)]
  dsimp only
  rw [hF, if_pos hk, if_neg (by simp [ht]), if_pos hk]

theorem framePassed_of_badTag {p : MgmtPort} {f : JutosFrame} {s : State} {n : Fin 64} (hk : f.kind = 1 ∨ f.kind = 0x11)
    (hn : f.session.toNat = n.val) (ht : ∀ k ∈ [(keysOf s n.val).cmdIn, (keysOf s n.val).piIn], f.tag ≠ some (sealOfFrame k f)) :
    framePassed p f s = authFailed n.val p s := by
  have hF : Fin.ofNat 64 f.session.toNat = n := by rw [hn]; exact Fin.ofNat_val_eq_self n
  have hne : f.kind ≠ 3 := by rcases hk with hk | hk <;> rw [hk] <;> decide
  unfold framePassed
  rw [if_neg hne]
  dsimp only
  rw [hF, if_pos (by split <;> exact ht _ (by simp))]

/-- The state in which a command of one frame waits for its turn. -/
def commandWaits (n : Fin 64) (p : MgmtPort) (f : JutosFrame) (s : State) : State :=
  addWaiting (frameCommand n p f (rd s (sessKey n.val) SessStatus.H)) f.op.toNat true .queued
    (countOut n.val (windowMoved n f.seq (tagPassed n p f s)))

theorem framePassed_waits {n : Fin 64} {p : MgmtPort} {f : JutosFrame} {s : State} (hk : f.kind = 1) (hn : f.session.toNat = n.val)
    (ht : f.tag = some (sealOfFrame (keysOf s n.val).cmdIn f)) (hc : fragCount f = 1) (hr : (getSess s n.val).reasm = [])
    (hh : rd s (sessKey n.val) SessStatus.H < f.seq.toNat) (hl : rd s (sessKey n.val) SessStatus.H < seqLimit)
    (hq : rd s (sessKey n.val) SessStatus.NEXT_SEQ ≤ seqLimit) (hb : boundsReached s n.val = false) (hlen : 8 ≤ f.bodyLen.toNat)
    (ho : f.op.toNat ∈ opcodes) : framePassed p f s = commandWaits n p f s := by
  have hop : frameOp f = f.op.toNat := if_neg (Nat.not_lt.2 hlen)
  have hrd (m : Nat) {g : Fld} (hs : SessStatus.STATE.apart g = true) (hH : SessStatus.H.apart g = true) :
      rd (windowMoved n f.seq (tagPassed n p f s)) (sessKey m) g = rd s (sessKey m) g := by
    rw [rd_windowMoved _ _ _ _ hH, rd_tagPassed _ _ _ _ _ hs]
  have hb' : boundsReached (windowMoved n f.seq (tagPassed n p f s)) n.val = false :=
    (boundsReached_congr n.val fun m => hrd m (by decide) (by decide)).trans hb
  have hq' : rd (windowMoved n f.seq (tagPassed n p f s)) (sessKey n.val) SessStatus.NEXT_SEQ ≤ seqLimit := by
    rwa [hrd n.val (by decide) (by decide)]
  rw [framePassed_of_command hk hn ht, commandFrame_of_whole hc hr hh, commandWaits, ← hop]
  exact acceptCommand_waits hb' hlen hl hq' (show frameOp f ∈ opcodes from hop ▸ ho)

theorem rd_addWaiting (b : Arrived) (op : Nat) (counted : Bool) (ph : Phase) (s : State) (k : Key) (g : Fld) :
    rd (addWaiting b op counted ph s) k g = rd s k g := rfl

theorem commandWaits_outstanding {n : Fin 64} {p : MgmtPort} {f : JutosFrame} {s : State} (hb : boundsReached s n.val = false) :
    rd (commandWaits n p f s) (sessKey n.val) SessStatus.OUTSTANDING = rd s (sessKey n.val) SessStatus.OUTSTANDING + 1 := by
  have hlt := outstanding_lt_of_bounds hb
  unfold commandWaits countOut mapF
  rw [rd_addWaiting, rd_wr_self, rd_windowMoved _ _ _ _ (by decide), rd_tagPassed _ _ _ _ _ (by decide)]
  exact Nat.mod_eq_of_lt (Nat.lt_trans (Nat.add_lt_add_right hlt 1) (by decide))

theorem commandWaits_H {n : Fin 64} {p : MgmtPort} {f : JutosFrame} {s : State} (hh : rd s (sessKey n.val) SessStatus.H < f.seq.toNat) :
    rd (commandWaits n p f s) (sessKey n.val) SessStatus.H = f.seq.toNat := by
  unfold commandWaits countOut mapF
  rw [rd_addWaiting, rd_wr_of_apart_or_ne (by decide), windowMoved_H (by rwa [rd_tagPassed _ _ _ _ _ (by decide)])]

theorem commandWaits_kept (n : Fin 64) (p : MgmtPort) (f : JutosFrame) (s : State) :
    Safety.RegsKept [.sessStatus] s (commandWaits n p f s) := by
  intro k hk
  have hty : k.ty ≠ .sessStatus := by simpa using hk
  calc rdWord (commandWaits n p f s) k = rdWord (countOut n.val (windowMoved n f.seq (tagPassed n p f s))) k := rfl
    _ = rdWord (windowMoved n f.seq (tagPassed n p f s)) k := rdWord_wr_ty _ _ _ _ _ hty
    _ = rdWord (tagPassed n p f s) k := rdWord_wr_ty _ _ _ _ _ hty
    _ = rdWord s k := rdWord_tagPassed n p f s hty

theorem commandWaits_parts (n : Fin 64) (p : MgmtPort) (f : JutosFrame) (s : State) : commandWaits n p f s =
    { s with regs := (commandWaits n p f s).regs,
             cmd := { s.cmd with sess := (commandWaits n p f s).cmd.sess, waiting := (commandWaits n p f s).cmd.waiting } } := by
  have h := tagPassed_parts n p f s
  unfold commandWaits
  generalize tagPassed n p f s = u at h ⊢
  rw [h]
  rfl

theorem commandWaits_waiting (n : Fin 64) (p : MgmtPort) (f : JutosFrame) (s : State) :
    ∃ w : Waiting, (commandWaits n p f s).cmd.waiting = s.cmd.waiting ++ [w] ∧ w.hdr = ⟨n, f.seq⟩ ∧ w.op = f.op.toNat ∧ w.port = p ∧
      w.mac = f.src ∧ w.phase = .queued := by
  have h : (tagPassed n p f s).cmd.waiting = s.cmd.waiting := by rw [tagPassed_parts]
  refine ⟨_, congrArg (· ++ [_]) h, rfl, rfl, rfl, rfl, rfl⟩

/-! ## A tag that does not verify (R63) -/

theorem authFailed_of_few {n : Nat} {p : MgmtPort} {s : State} (h : (recent s (getSess s n).fails sec).length < 1023) :
    authFailed n p s = satF (setSess s n { getSess s n with fails := recent s (getSess s n).fails sec ++ [s.clock] }) (sessKey n)
      SessStatus.AUTH_FAILS := by
  unfold authFailed
  exact if_neg (by simp; omega)

theorem rd_satF_self {s : State} {k : Key} {g : Fld} (h : rd s k g < 2 ^ g.w - 1) : rd (satF s k g) k g = rd s k g + 1 := by
  unfold satF mapF satInc
  rw [rd_wr_self]
  simp only [if_pos h]
  exact Nat.mod_eq_of_lt (by omega)

/-- Settles O10: a frame that fails a check counts there, one that passes goes on by its kind, and a tag under no key of the session is
counted alone. -/
theorem managementFrames : Obligations.ManagementFrames := by
  unfold Obligations.ManagementFrames
  intro p f s hu
  refine ⟨fun k hk => ?_, frameFails_of_line, frameFails_of_dst, fun hp hk => ?_, ?_, ?_⟩
  · exact ⟨_, execJutosFrameReceive_of_fails hu hk, counted_bump _ _ _ _ _ (by decide), told_bump _ _ _ _ _, kept_bump _ _ _ _ _⟩
  · refine ⟨_, (execJutosFrameReceive_of_passes hu hp).trans (by rw [framePassed_of_open hk]), rfl, rfl⟩
  · intro n hp hk hn ht hc hr hh hl hq hb hlen ho
    refine ⟨commandWaits n p f s, (execJutosFrameReceive_of_passes hu hp).trans ?_, commandWaits_waiting n p f s,
      commandWaits_outstanding hb, commandWaits_H hh, commandWaits_kept n p f s, commandWaits_parts n p f s⟩
    rw [framePassed_waits hk hn ht hc hr hh hl hq hb hlen ho]
  · intro n hp hk hn ht hf hr
    refine ⟨authFailed n.val p s, (execJutosFrameReceive_of_passes hu hp).trans (by rw [framePassed_of_badTag hk hn ht]), ?_⟩
    rw [authFailed_of_few hr]
    exact ⟨rd_satF_self hf, fun k hne => rdWord_wr_ne _ _ _ hne, rfl⟩

end Sys2Proof.Machine
end

section
/-! Open requests: what they are answered, and the session that a passing one opens (R43 to R48). -/
namespace Sys2Proof.Machine

open Sys2Proof

/-! ## The status of an open request (R46) -/

theorem openStatus_of_notReady {s : State} {r : OpenReq} (h : flag s rstKey RstStatus.READY = false) : openStatus s r = stNotReady := by
  unfold openStatus
  rw [if_pos (by simp [h])]

/-- A request whose signature does not verify, or whose key no programmed slot holds, has no slot that authorises it. -/
theorem openSlot_of_unauthorised {s : State} {r : OpenReq} (hp : programmedSlots s ≠ [])
    (h : Config.ecdsaOk r.opKey.toNat (openDigest r s.fuses.serial).toNat r.opSig.toNat = false ∨
      ∀ k ∈ programmedSlots s, rd s (obj .opKey k) OpKey.DIGEST ≠ (sha384 (toBytes 97 r.opKey.toNat)).toNat) : openSlot s r = none := by
  unfold openSlot
  rw [if_neg (by simp [hp])]
  rcases h with h | h
  · rw [if_pos (by simp [h])]
  · split
    · rfl
    · rw [List.find?_eq_none]
      intro k hk
      simpa using h k hk

theorem openStatus_of_noSlot {s : State} {r : OpenReq} (hready : flag s rstKey RstStatus.READY = true) (hlen : r.bodyLen = 326)
    (hver : r.openVer = 1) (hacc : r.access.toNat < 64) (hres : r.reserved = 0) (heph : onP384 r.hostEph = true)
    (hkey : onP384 r.opKey = true) (hslot : openSlot s r = none) : openStatus s r = stAuthFail := by
  unfold openStatus
  rw [if_neg (by simp [hready]), if_neg (by simp [hlen, hver]), if_neg (by simp [hacc, hres, heph, hkey]), if_pos (by simp [hslot])]

/-- A request that is granted asks for known access types, and some session is closed. -/
theorem openStatus_ok {s : State} {r : OpenReq} (h : openStatus s r = stOk) :
    r.access.toNat < 64 ∧ (openSessions s).length ≠ 64 := by
  unfold openStatus at h
  split at h
  · exact absurd h (by decide)
  split at h
  · exact absurd h (by decide)
  split at h
  · exact absurd h (by decide)
  next hrange =>
  split at h
  · exact absurd h (by decide)
  split at h
  · exact absurd h (by decide)
  next hfull => exact ⟨by by_contra hn; exact hrange (.inl (Nat.le_of_not_lt hn)), hfull⟩

/-- While not all sessions are open, there is a first that is closed. -/
theorem closed_session {s : State} (h : (openSessions s).length ≠ 64) : ∃ n, ((List.range 64).find? fun n => !sessOpen s n) = some n ∧ n < 64 ∧
    sessOpen s n = false ∧ ∀ m < n, sessOpen s m = true := by
  cases hf : (List.range 64).find? fun n => !sessOpen s n with
  | none =>
    refine absurd ?_ h
    have hall : ∀ n ∈ List.range 64, sessOpen s n = true := by simpa [List.find?_eq_none] using hf
    rw [openSessions, List.filter_eq_self.2 hall, List.length_range]
  | some n =>
    obtain ⟨hn, hlt, hall⟩ := List.find?_range_eq_some.1 hf
    exact ⟨n, rfl, by simpa using hlt, by simpa using hn, fun m hm => by simpa using hall m hm⟩

/-! ## The answer -/

theorem raise_opens (r : Report) (s : State) : (raise r s).cmd.opens = s.cmd.opens := congrArg (·.2.1) (raise_cmdHeld r s)


/-- The open request is no longer among those that wait. -/
def openTaken (o : OpenWait) (s : State) : State := { s with cmd := { s.cmd with opens := s.cmd.opens.erase o } }

theorem execOpenRequest_refused {p : MgmtPort} {peer : BitVec 48} {seq : Word} {r : OpenReq} {s : State}
    (ho : ⟨p, peer, seq⟩ ∈ s.cmd.opens) (h : openStatus s r ≠ stOk) : execOpenRequest p peer seq r s =
      .next (emit (if logged (openStatus s r) then
          raise { blk := 0x02, inst := portInst p, kind := openStatus s r, addr := addrOf (obj .sessSet) } (openTaken ⟨p, peer, seq⟩ s)
        else openTaken ⟨p, peer, seq⟩ s) (.openReply p peer seq (openStatus s r) 0xFF 0 none)) := by
  unfold execOpenRequest
  dsimp only
  rw [if_neg (by simpa using ho)]
  exact congrArg _ (if_pos h)

/-- A session that an open request opens: its status object, its keys and its streams (R47, R48, R50). -/
def sessionOpened (n slot granted : Nat) (x : Sess) (s : State) : State :=
  let k := sessKey n
  setSess (wr (wr (wr (wr (wrWord s k 0) k SessStatus.STATE 1) k SessStatus.GRANTED granted) k SessStatus.SLOT slot) k SessStatus.NEXT_SEQ 1) n x

/-- The session that an open request takes, the access types that it grants, the tail of its reply and what the session holds. -/
def firstClosed (s : State) : Nat := ((List.range 64).find? fun n => !sessOpen s n).getD 0
/-- See `firstClosed`. -/
def grantedBy (s : State) (r : OpenReq) : Nat := grantedTypes ((openSlot s r).getD 0xFF) r.access.toNat
/-- See `firstClosed`. -/
def tailOf (s : State) (r : OpenReq) (n : Nat) : OpenTail :=
  openTail s.fuses.identKey (Config.entropy (s.free + 1)) (Config.entropy s.free) r n (grantedBy s r)
/-- See `firstClosed`. -/
def openedSess (p : MgmtPort) (peer : BitVec 48) (r : OpenReq) (n : Nat) (s : State) : Sess :=
  { Sess.closed with marks := 1, injMarks := 1, keys := some (sessKeys (Config.entropy s.free) r (tailOf s r n).nonce), port := p,
                     mac := peer, openedAt := s.clock, lastPass := ivl s, idleFrom := ivl s }

/-- An open request is granted: its session is open, and the reply says so. -/
def openGranted (p : MgmtPort) (peer : BitVec 48) (seq : Word) (r : OpenReq) (n : Nat) (s : State) : State :=
  emit (sessionOpened n ((openSlot s r).getD 0xFF) (grantedBy s r) (openedSess p peer r n s)
      { openTaken ⟨p, peer, seq⟩ s with free := s.free + 2 })
    (.openReply p peer seq stOk n (grantedBy s r) (some (tailOf s r n)))

theorem execOpenRequest_granted {p : MgmtPort} {peer : BitVec 48} {seq : Word} {r : OpenReq} {s : State}
    (ho : ⟨p, peer, seq⟩ ∈ s.cmd.opens) (h : openStatus s r = stOk) :
    execOpenRequest p peer seq r s = .next (openGranted p peer seq r (firstClosed s) s) := by
  unfold execOpenRequest
  dsimp only
  rw [if_neg (by simpa using ho)]
  exact congrArg _ (if_neg (not_not.2 h))

theorem grantedTypes_le (slot access : Nat) : grantedTypes slot access ≤ access := by
  unfold grantedTypes
  split <;> exact Nat.and_le_left

theorem sessionOpened_granted {n slot g : Nat} {x : Sess} {s : State} (hg : g < 256) :
    rd (sessionOpened n slot g x s) (sessKey n) SessStatus.GRANTED = g := by
  unfold sessionOpened
  rw [rd_setSess, rd_wr_apart _ _ _ (by decide), rd_wr_apart _ _ _ (by decide), rd_wr_self]
  exact Nat.mod_eq_of_lt hg

theorem sessionOpened_state (n slot g : Nat) (x : Sess) (s : State) : rd (sessionOpened n slot g x s) (sessKey n) SessStatus.STATE = 1 := by
  unfold sessionOpened
  rw [rd_setSess, rd_wr_apart _ _ _ (by decide), rd_wr_apart _ _ _ (by decide), rd_wr_apart _ _ _ (by decide), rd_wr_self]
  rfl

theorem sessionOpened_nextSeq (n slot g : Nat) (x : Sess) (s : State) :
    rd (sessionOpened n slot g x s) (sessKey n) SessStatus.NEXT_SEQ = 1 := by
  unfold sessionOpened
  rw [rd_setSess, rd_wr_self]
  rfl

theorem sessionOpened_H (n slot g : Nat) (x : Sess) (s : State) : rd (sessionOpened n slot g x s) (sessKey n) SessStatus.H = 0 := by
  unfold sessionOpened
  rw [rd_setSess, rd_wr_apart _ _ _ (by decide), rd_wr_apart _ _ _ (by decide), rd_wr_apart _ _ _ (by decide), rd_wr_apart _ _ _ (by decide),
    rd_wrWord_self]
  rfl

theorem sessionOpened_ne {n slot g : Nat} {x : Sess} {s : State} {k : Key} (hk : k ≠ sessKey n) :
    rdWord (sessionOpened n slot g x s) k = rdWord s k := by
  unfold sessionOpened
  simp only [rdWord_setSess, rdWord_wr_ne _ _ _ hk, rdWord_wrWord_ne _ _ hk]

/-- Settles O11: a request that fails a check of R46 is answered with its status alone, one that passes opens the first closed session. -/
theorem openRequestsAnswered : Obligations.OpenRequestsAnswered := by
  unfold Obligations.OpenRequestsAnswered
  intro p peer seq r s ho
  refine ⟨fun h => ⟨_, execOpenRequest_refused ho h, ⟨_, rfl⟩, ?_, ?_, ?_⟩, fun h => ?_, openStatus_of_notReady,
    fun hready hlen hver hacc hres heph hkey hp hbad =>
      openStatus_of_noSlot hready hlen hver hacc hres heph hkey (openSlot_of_unauthorised hp hbad)⟩
  · rw [emit_cmd]
    split
    · rw [raise_waiting]
      rfl
    · rfl
  · rw [emit_cmd]
    split
    · rw [raise_opens]
      rfl
    · rfl
  · intro k hk
    rw [rdWord_emit]
    split
    · exact kept_raise _ _ k hk
    · rfl
  · obtain ⟨hacc, hfull⟩ := openStatus_ok h
    obtain ⟨n, hfind, hlt, hclosed, hbefore⟩ := closed_session hfull
    have hn : firstClosed s = n := congrArg (·.getD 0) hfind
    have hg : grantedBy s r < 256 := (grantedTypes_le _ _).trans_lt (Nat.lt_trans hacc (by decide))
    have hrd (f : Fld) : rd (openGranted p peer seq r n s) (sessKey n) f =
        rd (sessionOpened n ((openSlot s r).getD 0xFF) (grantedBy s r) (openedSess p peer r n s)
          { openTaken ⟨p, peer, seq⟩ s with free := s.free + 2 }) (sessKey n) f := rd_emit _ _ _ _
    refine ⟨openGranted p peer seq r n s, (execOpenRequest_granted ho h).trans (by rw [hn]), n, hlt, hclosed, hbefore,
      (hrd _).trans (sessionOpened_state ..), (hrd _).trans (sessionOpened_granted hg), (hrd _).trans (sessionOpened_nextSeq ..),
      (hrd _).trans (sessionOpened_H ..), ⟨tailOf s r n, rfl, ?_, rfl⟩, rfl, fun k hk => ?_⟩
    · rw [openGranted, getSess_emit, sessionOpened, getSess_setSess_self]
      rfl
    · rw [openGranted, rdWord_emit, sessionOpened_ne hk]
      rfl

end Sys2Proof.Machine
end

section
/-! The end of a session: what closing it leaves, and when it closes (R48, R49, R521). -/
namespace Sys2Proof.Machine

open Sys2Proof

/-! ## Closing a session -/

theorem endLease_parts (s : State) : endLease s = { s with regs := (endLease s).regs, upd := (endLease s).upd } := by
  unfold endLease
  dsimp only
  split <;> rfl

theorem endLease_kept (s : State) : Safety.RegsKept [.updStatus] s (endLease s) := by
  intro k hk
  have hty : k.ty ≠ (obj .updStatus).ty := by simpa using hk
  unfold endLease
  dsimp only
  split <;> simp only [rdWord_wr_ty _ _ _ _ _ hty] <;> rfl

/-- The state in which a session is closed, before the lease that it may hold ends. -/
def sessionGone (n : Nat) (s : State) : State :=
  let s := wrWord (setSess s n Sess.closed) (sessKey n) (resetVal s.fuses (sessKey n))
  { s with cmd := { s.cmd with waiting := s.cmd.waiting.filter fun w => w.hdr.sid.val != n } }

theorem rdWord_sessionGone_self (n : Nat) (s : State) : rdWord (sessionGone n s) (sessKey n) = 0 :=
  calc rdWord (sessionGone n s) (sessKey n)
      = rdWord (wrWord (setSess s n Sess.closed) (sessKey n) (resetVal s.fuses (sessKey n))) (sessKey n) := rfl
    _ = resetVal s.fuses (sessKey n) := rdWord_wrWord_self _ _ _
    _ = 0 := rfl

theorem rdWord_sessionGone_ne {n : Nat} {s : State} {k : Key} (hk : k ≠ sessKey n) : rdWord (sessionGone n s) k = rdWord s k :=
  calc rdWord (sessionGone n s) k
      = rdWord (wrWord (setSess s n Sess.closed) (sessKey n) (resetVal s.fuses (sessKey n))) k := rfl
    _ = rdWord s k := rdWord_wrWord_ne _ _ hk

theorem closeSess_eq (n : Nat) (s : State) : closeSess n s =
    if rd (sessionGone n s) (obj .updStatus) UpdStatus.HOLDER = n then endLease (sessionGone n s) else sessionGone n s := rfl

theorem closeSess_parts (n : Nat) (s : State) : closeSess n s =
    { s with regs := (closeSess n s).regs, upd := (closeSess n s).upd, cmd := (sessionGone n s).cmd } := by
  rw [closeSess_eq]
  split
  · rw [endLease_parts]
    rfl
  · rfl

theorem getSess_closeSess (n : Nat) (s : State) : getSess (closeSess n s) n = Sess.closed := by
  rw [closeSess_parts]
  exact getSess_setSess_self s n Sess.closed

theorem closeSess_waiting (n : Nat) (s : State) : (closeSess n s).cmd.waiting = s.cmd.waiting.filter fun w => w.hdr.sid.val != n := by
  rw [closeSess_parts]
  rfl

theorem closeSess_out (n : Nat) (s : State) : (closeSess n s).out = s.out := by rw [closeSess_parts]

theorem closeSess_clock (n : Nat) (s : State) : (closeSess n s).clock = s.clock := by rw [closeSess_parts]

theorem sessOpen_closeSess (n : Nat) (s : State) : sessOpen (closeSess n s) n = false := by
  have hgone : rdWord (sessionGone n s) (sessKey n) = 0 := rdWord_sessionGone_self n s
  have hkept : rdWord (closeSess n s) (sessKey n) = 0 := by
    rw [closeSess_eq]
    split
    · rw [endLease_kept _ _ (by simp [sessKey]), hgone]
    · exact hgone
  unfold sessOpen rd
  rw [hkept]
  rfl

/-- Only the session's status object and the lease's change. -/
theorem closeSess_ne {n : Nat} {s : State} {k : Key} (hk : k ≠ sessKey n) (hu : k.ty ≠ .updStatus) :
    rdWord (closeSess n s) k = rdWord s k := by
  have hgone : rdWord (sessionGone n s) k = rdWord s k := rdWord_sessionGone_ne hk
  rw [closeSess_eq]
  split
  · rw [endLease_kept _ _ (by simpa using hu), hgone]
  · exact hgone

/-! ## Common time (R49) -/

/-- Time passes, and the performance counters that it drives tell. -/
theorem advance_told (n : Nat) (s : State) : Told (runTime n s) (advance n s) := Told.forAll _ _ (fun _ _ => perfAdd_told _ _ _ _) _

theorem ivl_closeSess (n : Nat) (s : State) : ivl (closeSess n s) = ivl s := by
  unfold ivl
  rw [closeSess_parts]

theorem ivl_congr {s t : State} (hc : t.ct = s.ct) (ht : t.time = s.time) : ivl t = ivl s := by simp [ivl, hc, ht]

/-- The time that passes reaches what it was to reach, however the clock is slewed. -/
theorem reachIvl_reaches {s : State} (t : Nat) (h : s.time.stepped ≤ (s.ct : Int)) : t ≤ ivl (reachIvl t s) := by
  have hivl : (ivl s : Int) = s.ct - s.time.stepped := by unfold ivl; omega
  unfold reachIvl reach
  dsimp only
  split
  · omega
  · next hd =>
    generalize hn : (if 0 ≤ s.time.slew then _ else _) = n
    rw [ivl_congr (congrArg State.ct (advance_told n s).parts) (congrArg State.time (advance_told n s).parts)]
    unfold ivl runTime
    dsimp only
    split at hn <;> omega

theorem reachIvl_of_reached {s : State} {t : Nat} (h : t ≤ ivl s) : reachIvl t s = s := by
  unfold reachIvl reach
  exact if_pos (by omega)

/-- What reaching a time leaves. -/
theorem reach_kept (t : Nat) (s : State) : Safety.RegsKept Safety.telling s (reach t s) := by
  intro k hk
  unfold reach
  dsimp only
  split
  · rfl
  · exact (advance_told _ s).regs k hk

theorem reach_waiting (t : Nat) (s : State) : (reach t s).cmd.waiting = s.cmd.waiting := by
  unfold reach
  dsimp only
  split
  · rfl
  · exact congrArg (·.cmd.waiting) (advance_told _ s).parts

theorem execFirstCommandTimeout_awaiting {n : Fin 64} {s : State} (h : rd s (sessKey n.val) SessStatus.STATE = 1) :
    execFirstCommandTimeout n s = .next (closeSess n.val s) := by
  unfold execFirstCommandTimeout
  rw [if_pos h]

theorem execIdleTimeout_idle {n : Fin 64} {s : State} (ho : sessOpen s n.val = true)
    (hi : rd s (sessKey n.val) SessStatus.OUTSTANDING = 0) :
    execIdleTimeout n s = .next (closeSess n.val (reachIvl (idleEnd s n.val) s)) := by
  unfold execIdleTimeout
  rw [if_pos (by simp [ho, hi])]

/-! ## The reply to SESSION_CLOSE -/

/-- A reply writes no status object but its own session's. -/
theorem sendReply_ne {w : Waiting} {st hint : Nat} {addr : ObjAddr} {r : Bytes} {s : State} {k : Key} (hk : k ≠ sessKey w.hdr.sid.val) :
    rdWord (sendReply w st addr hint r s) k = rdWord s k := by
  have hemit (r : Bytes) : rdWord (emitReply w.hdr.sid.val w.port w.mac w.op st w.hdr.seq.toNat addr hint r s) k = rdWord s k := by
    obtain ⟨c, q, l, hp, -⟩ := puntsBefore_parts w.port s
    unfold emitReply
    dsimp only
    rw [hp]
    split
    · rfl
    · rw [rdWord_wr_ne _ _ _ hk]
      rfl
  have hcount (u : State) : rdWord (if w.counted then mapF u (sessKey w.hdr.sid.val) SessStatus.OUTSTANDING (· - 1) else u) k =
      rdWord u k := by
    split
    · exact rdWord_wr_ne _ _ _ hk
    · rfl
  have hidle (u : State) (x : Sess) : rdWord (if rd u (sessKey w.hdr.sid.val) SessStatus.OUTSTANDING = 0 then
      setSess u w.hdr.sid.val x else u) k = rdWord u k := by
    split <;> rfl
  unfold sendReply
  dsimp only
  rw [hidle, hcount, hemit]

theorem keysOf_setSess {s : State} {n : Nat} {x : Sess} (h : x.keys = (getSess s n).keys) (m : Nat) : keysOf (setSess s n x) m = keysOf s m := by
  unfold keysOf
  by_cases e : m = n
  · subst e
    rw [getSess_setSess_self, h]
  · rw [getSess_setSess_ne _ _ e]

/-- The session takes no further command, and none of its own waits. -/
def sessionClosing (n : Nat) (s : State) : State :=
  setSess { s with cmd := { s.cmd with waiting := [] } } n { getSess s n with closing := true }

theorem keysOf_sessionClosing (n m : Nat) (s : State) : keysOf (sessionClosing n s) m = keysOf s m :=
  keysOf_setSess (s := { s with cmd := { s.cmd with waiting := [] } }) (x := { getSess s n with closing := true }) rfl m

/-- The reply to SESSION_CLOSE is the next of the session's stream, and writes no other session's status. -/
theorem closingReply_parts {c : Hdr} {s : State} {w : Waiting} (h : Safety.Turn s c w 0x0102 accRead 0 0x02) :
    ∃ r x q l, sendReply w stOk 0 0 [] (sessionClosing c.sid.val s) = { s with
        regs := r, cmd := { s.cmd with sess := x, waiting := [], puntQ := q },
        out := Safety.replyOf s w (rd s (sessKey c.sid.val) SessStatus.NEXT_SEQ) stOk 0 0 [] :: l } := by
  have hmine := h.mine
  subst hmine
  have hseq : rd (sessionClosing w.hdr.sid.val s) (sessKey w.hdr.sid.val) SessStatus.NEXT_SEQ =
      rd s (sessKey w.hdr.sid.val) SessStatus.NEXT_SEQ := rd_setSess _ _ _ _ _
  have hop : w.op ≠ 0x0305 := by
    rw [h.opcode]
    decide
  have hroom : rd s (sessKey w.hdr.sid.val) SessStatus.NEXT_SEQ + fragments (24 + ([] : Bytes).length) < 2 ^ 64 :=
    Turn.stream_room h (Nat.zero_le _)
  obtain ⟨r, x, q, l, he, -, -⟩ := sendReply_parts w stOk 0 0 [] (sessionClosing w.hdr.sid.val s) hop
    (hseq.symm ▸ hroom)
  refine ⟨r, x, q, l ++ s.out, ?_⟩
  rw [he, hseq, Safety.replyOf, keysOf_sessionClosing]
  rfl

/-- SESSION_CLOSE in its turn closes the session behind its reply. -/
theorem execSessionClose_turn {c : Hdr} {s : State} {w : Waiting} (h : Safety.Turn s c w 0x0102 accRead 0 0x02) :
    execSessionClose c s = .next (closeSess c.sid.val (sendReply w stOk 0 0 [] (sessionClosing c.sid.val s))) := by
  have hlen := h.length
  have hturn : Safety.Turn s c w 0x0102 accRead w.plen 0x02 := hlen ▸ h
  have hwaiting : (closeSess c.sid.val (sendReply w stOk 0 0 [] (sessionClosing c.sid.val s))).cmd.waiting = [] := by
    obtain ⟨r, x, q, l, he⟩ := closingReply_parts h
    rw [closeSess_waiting, he]
    rfl
  unfold execSessionClose
  rw [checked_pass hturn (by simp [hlen])]
  dsimp only
  rw [finish_only (s := setSess s c.sid.val { getSess s c.sid.val with closing := true }) h.only h.mine (queued_not_done h.queued)]
  exact congrArg _ (flushReplies_none hwaiting)

/-- Settles O12: each of the three closes the session, the idle one once its time is reached, the last behind the reply. -/
theorem sessionsEnd : Obligations.SessionsEnd := by
  unfold Obligations.SessionsEnd
  refine ⟨fun n s h => ?_, fun n s hopen hidle hct => ?_, fun c s w h => ?_⟩
  · refine ⟨closeSess n.val s, execFirstCommandTimeout_awaiting h, sessOpen_closeSess _ _, getSess_closeSess _ _, closeSess_waiting _ _,
      closeSess_out _ _, fun k hk hu => closeSess_ne hk hu⟩
  · refine ⟨_, execIdleTimeout_idle hopen hidle, sessOpen_closeSess _ _, getSess_closeSess _ _, ?_, ?_, fun k hk => ?_, fun hend => ?_⟩
    · rw [ivl_closeSess]
      exact reachIvl_reaches _ hct
    · rw [closeSess_waiting, reachIvl, reach_waiting]
    · simp only [List.mem_cons, not_or] at hk
      have hne : k ≠ sessKey n.val := by rintro rfl; exact hk.2 (by simp [sessKey])
      rw [closeSess_ne hne hk.1, reachIvl, reach_kept _ _ k hk.2]
    · rw [reachIvl_of_reached hend]
      exact ⟨closeSess_out _ _, closeSess_clock _ _, fun k hk hu => closeSess_ne hk hu⟩
  · obtain ⟨r, x, q, l, he⟩ := closingReply_parts h
    refine ⟨_, execSessionClose_turn h, ?_, ⟨rd s (sessKey c.sid.val) SessStatus.NEXT_SEQ, l, ?_⟩, sessOpen_closeSess _ _,
      getSess_closeSess _ _, fun k hk hu => ?_⟩
    · rw [closeSess_waiting, he]
      rfl
    · rw [closeSess_out, he]
    · rw [closeSess_ne hk hu, sendReply_ne (h.mine ▸ hk)]
      rfl

end Sys2Proof.Machine
end

section
/-! How far what a fault message does can move a session's stream. Raising publishes records, and a record may fill an event frame, which
takes a SEQ (R508). A performance counter tells of one overflow at a time (R501), so at one time only so many frames can leave. -/
namespace Sys2Proof.Machine

open Sys2Proof

/-! ## One record -/

/-- The next SEQ of a session's stream. -/
def nextSeqOf (s : State) (n : Nat) : Nat := rd s (sessKey n) SessStatus.NEXT_SEQ

theorem nextSeqOf_wrWord {s : State} {k : Key} {v n : Nat} (hk : k.ty ≠ .sessStatus) : nextSeqOf (wrWord s k v) n = nextSeqOf s n :=
  rd_wrWord_ty s k (sessKey n) _ v (Ne.symm hk)

theorem countQuiet_nextSeq {k : Key} (hk : k.ty ≠ .sessStatus) (s : State) (n : Nat) : nextSeqOf (countQuiet k s) n = nextSeqOf s n := by
  unfold countQuiet
  dsimp only
  rw [forAll_same _ _ (nextSeqOf · n)]
  · exact nextSeqOf_wrWord hk
  · intro p s
    split
    · exact nextSeqOf_wrWord (by simp)
    · rfl

theorem countQuiet_cnt (k : Key) (s : State) : (countQuiet k s).cnt = s.cnt := by
  unfold countQuiet
  dsimp only
  rw [forAll_same _ _ State.cnt]
  · rfl
  · intro p s
    split <;> rfl

theorem countQuiet_clock (k : Key) (s : State) : (countQuiet k s).clock = s.clock := by
  unfold countQuiet
  dsimp only
  rw [forAll_same _ _ State.clock]
  · rfl
  · intro p s
    split <;> rfl

theorem puntsBefore_nextSeq (p : MgmtPort) (s : State) (n : Nat) : nextSeqOf (puntsBefore p s) n = nextSeqOf s n := by
  obtain ⟨c, q, l, hp, -⟩ := puntsBefore_parts p s
  rw [hp]
  rfl

theorem sendEvents_nextSeq (n : Nat) (s : State) (m : Nat) : nextSeqOf (sendEvents n s) m ≤ nextSeqOf s m + if m = n then 1 else 0 := by
  unfold sendEvents
  dsimp only
  split
  · omega
  · rw [← puntsBefore_nextSeq (getSess s n).port s m]
    split
    · next h =>
      subst h
      exact (rd_wr_self _ _ _ _).trans_le (Nat.mod_le _ _)
    · next h => exact (rd_wr_ne _ _ _ _ (by simpa [sessKey] using h)).le

theorem sendEvents_cnt (n : Nat) (s : State) : (sendEvents n s).cnt = s.cnt := by
  obtain ⟨c, q, l, hp, -⟩ := puntsBefore_parts (getSess s n).port s
  unfold sendEvents
  dsimp only
  split
  · rfl
  · rw [hp]
    rfl

theorem nextSeqOf_setSess (s : State) (k : Nat) (x : Sess) (n : Nat) : nextSeqOf (setSess s k x) n = nextSeqOf s n := rd_setSess ..

/-- What a choice between two states shows is what both show. -/
theorem ite_of_both {P : State → Prop} {c : Prop} [Decidable c] {s t : State} (hs : P s) (ht : P t) : P (if c then s else t) := by
  split <;> assumption

/-- A record finds its place behind what the session sent to make room, and may fill the frame that it is in. -/
theorem pushRecord_of {P Q : State → Prop} {n : Nat} {r : TelRec} {s : State} (hs : P s) (hsend : P (sendEvents n s))
    (hsess : ∀ u x, P u → P (setSess u n x)) (hquiet : ∀ u k, k.ty ≠ .sessStatus → P u → P (countQuiet k u)) (hQ : ∀ u, P u → Q u)
    (hlast : ∀ u, P u → Q (sendEvents n u)) : Q (pushRecord n r s) := by
  have hroom : P (if 16 + waitingBytes (getSess s n) + r.bytes > 8192 then sendEvents n s else s) := ite_of_both hsend hs
  exact ite_of_both (hQ _ (hquiet _ _ (by simp) (hquiet _ _ (by simp) (hsess _ _ hroom))))
    (ite_of_both (hlast _ (hsess _ _ hroom)) (hQ _ (hsess _ _ hroom)))

theorem pushRecord_nextSeq (n : Nat) (r : TelRec) (s : State) (m : Nat) :
    nextSeqOf (pushRecord n r s) m ≤ nextSeqOf s m + 2 * if m = n then 1 else 0 := by
  have hsend (u : State) := sendEvents_nextSeq n u m
  generalize (if m = n then 1 else 0) = k at hsend ⊢
  refine pushRecord_of (P := fun u => nextSeqOf u m ≤ nextSeqOf s m + k) (Q := fun u => nextSeqOf u m ≤ nextSeqOf s m + 2 * k)
    (Nat.le_add_right _ _) (hsend s) (fun u x h => (nextSeqOf_setSess u n x m).trans_le h)
    (fun u k hk h => (countQuiet_nextSeq hk u m).trans_le h) (fun u h => by omega) fun u h => ?_
  have := hsend u
  omega

theorem pushRecord_cnt (n : Nat) (r : TelRec) (s : State) : (pushRecord n r s).cnt = s.cnt :=
  pushRecord_of (P := fun u => u.cnt = s.cnt) (Q := fun u => u.cnt = s.cnt) rfl (sendEvents_cnt n s) (fun _ _ h => h)
    (fun u k _ h => (countQuiet_cnt k u).trans h) (fun _ h => h) fun u h => (sendEvents_cnt n u).trans h

/-- A record that is published takes at most two SEQs of a stream. -/
theorem publish_nextSeq (bit : Nat) (r : TelRec) (s : State) (m : Nat) : nextSeqOf (publish bit r s) m ≤ nextSeqOf s m + 2 := by
  have hall (l : List Nat) (u : State) : nextSeqOf (forAll l (fun n => pushRecord n r) u) m ≤ nextSeqOf u m + 2 * l.count m := by
    induction l generalizing u with
    | nil => exact Nat.le_refl _
    | cons n l ih =>
      have hone := pushRecord_nextSeq n r u m
      refine (ih _).trans ?_
      rw [List.count_cons]
      by_cases h : m = n
      · simp only [h, if_true, beq_self_eq_true] at hone ⊢
        omega
      · simp only [h, Ne.symm h, if_false, beq_iff_eq] at hone ⊢
        omega
  have hnodup : (subscribers s bit).Nodup := (List.nodup_range.filter _).filter _
  have hcount := List.nodup_iff_count_le_one.1 hnodup m
  exact (hall _ s).trans (by omega)

theorem publish_cnt (bit : Nat) (r : TelRec) (s : State) : (publish bit r s).cnt = s.cnt :=
  forAll_same _ _ State.cnt (fun n s => pushRecord_cnt n r s) s

end Sys2Proof.Machine
end

section
/-! The frames that a fault message can make a session's stream send, function by function: one record for each performance counter that
has not told of an overflow at this time, and one for each change of state. -/
namespace Sys2Proof.Machine

open Sys2Proof

/-- A performance counter has told of an overflow too lately to tell of another (R501). -/
def toldLately (s : State) (p : Nat) : Bool :=
  match tabGet? s.cnt.samples p with
  | some x => within s x.1 1000
  | none => false

/-- How many performance counters may tell of an overflow. -/
def mayTell (s : State) : Nat := ((Finset.range 248).filter fun p => toldLately s p = false).card

/-- A state reached from another with no time passing, with at most `b` SEQs of any stream taken beside those of overflows. -/
structure Sends (a : State) (b : Nat) (s : State) : Prop where
  clock : s.clock = a.clock
  seq   : ∀ n, nextSeqOf s n + 2 * mayTell s ≤ nextSeqOf a n + 2 * mayTell a + b

namespace Sends

variable {a s t : State} {b c : Nat}

theorem refl (a : State) : Sends a 0 a := ⟨rfl, fun _ => Nat.le_refl _⟩

theorem iteOf {c : Prop} [Decidable c] (hs : c → Sends a b s) (ht : ¬ c → Sends a b t) : Sends a b (if c then s else t) := by
  split
  · exact hs ‹_›
  · exact ht ‹_›

theorem mono (h : Sends a b s) (hc : b ≤ c) : Sends a c s := ⟨h.clock, fun n => (h.seq n).trans (Nat.add_le_add_left hc _)⟩

theorem mayTell_congr (hc : t.clock = s.clock) (hn : t.cnt.samples = s.cnt.samples) : mayTell t = mayTell s := by
  have htold : toldLately t = toldLately s := funext fun p => by simp only [toldLately, within, hc, hn]
  rw [mayTell, mayTell, htold]

/-- A change that leaves time, the captures of counters and every stream. -/
theorem same (h : Sends a b s) (hc : t.clock = s.clock) (hn : t.cnt.samples = s.cnt.samples) (hs : ∀ n, nextSeqOf t n = nextSeqOf s n) :
    Sends a b t :=
  ⟨hc.trans h.clock, fun n => by rw [hs n, mayTell_congr hc hn]; exact h.seq n⟩

/-- An update of other parts. -/
theorem parts (h : Sends a b s) {ct cmd bridge flt eng tbl pat line tfu msec buf que fab hbm time pair upd pwr out free pending} :
    Sends a b (State.mk s.regs s.fuses s.clock ct cmd bridge flt s.cnt eng tbl pat line tfu msec buf que fab hbm time pair upd pwr out
      free pending) := ⟨h.clock, h.seq⟩

theorem emit {o : Out} (h : Sends a b s) : Sends a b (emit s o) := ⟨h.clock, h.seq⟩

theorem wrWord {k : Key} {v : Nat} (h : Sends a b s) (hk : k.ty ≠ .sessStatus) : Sends a b (wrWord s k v) :=
  h.same rfl rfl fun _ => nextSeqOf_wrWord hk

theorem wr {k : Key} {f : Fld} {v : Nat} (h : Sends a b s) (hk : k.ty ≠ .sessStatus := by exact nofun) : Sends a b (wr s k f v) :=
  h.wrWord hk

theorem mapF {k : Key} {f : Fld} {g : Nat → Nat} (h : Sends a b s) (hk : k.ty ≠ .sessStatus := by exact nofun) : Sends a b (mapF s k f g) :=
  h.wr hk

theorem ite {c : Prop} [Decidable c] (hs : Sends a b s) (ht : Sends a b t) : Sends a b (if c then s else t) := by
  split <;> assumption

theorem ifThen {c : Prop} [Decidable c] (hs : Sends a b s) (ht : Sends a b s → Sends a b t) : Sends a b (if c then t else s) := .ite (ht hs) hs

theorem ifElse {c : Prop} [Decidable c] (hs : Sends a b s) (ht : Sends a b s → Sends a b t) : Sends a b (if c then s else t) := .ite hs (ht hs)

theorem iteFst {α : Type} {c : Prop} [Decidable c] {p q : State × α} (hp : Sends a b p.1) (hq : Sends a b q.1) :
    Sends a b (if c then p else q).1 := by split <;> assumption

theorem forAll {α : Type} {l : List α} {f : α → State → State} (h : Sends a b s) (hf : ∀ x ∈ l, ∀ s, Sends a b s → Sends a b (f x s)) :
    Sends a b (forAll l f s) := by
  unfold Machine.forAll
  induction l generalizing s with
  | nil => exact h
  | cons x l ih => exact ih (hf x (by simp) s h) fun y hy => hf y (by simp [hy])

/-- So many, for each of a list. -/
theorem forEach {α : Type} {l : List α} {f : α → State → State} (h : Sends a b s) (hf : ∀ x s b, Sends a b s → Sends a (b + c) (f x s)) :
    Sends a (b + c * l.length) (Machine.forAll l f s) := by
  unfold Machine.forAll
  induction l generalizing s b with
  | nil => exact h
  | cons x l ih => exact (ih (hf x s b h)).mono (by rw [List.length_cons]; ring_nf; omega)

/-! ## Counting and telling -/

theorem publish {bit : Nat} {r : TelRec} (h : Sends a b s) : Sends a (b + 2) (publish bit r s) := by
  have hclock : (Machine.publish bit r s).clock = s.clock := publish_clock bit r s
  refine ⟨hclock.trans h.clock, fun n => ?_⟩
  have hseq := publish_nextSeq bit r s n
  have hs := h.seq n
  rw [mayTell_congr hclock (congrArg _ (publish_cnt bit r s))]
  omega

theorem stateEvent {k : Key} (h : Sends a b s) : Sends a (b + 2) (stateEvent k s) := h.publish

theorem countQuiet {k : Key} (h : Sends a b s) (hk : k.ty ≠ .sessStatus := by exact nofun) : Sends a b (countQuiet k s) :=
  h.same (countQuiet_clock k s) (congrArg _ (countQuiet_cnt k s)) (countQuiet_nextSeq hk s)

/-- A performance counter's capture at a time. -/
def captured (s : State) (p t n : Nat) : State := { s with cnt := { s.cnt with samples := tabPut s.cnt.samples p (t, n) } }

theorem toldLately_captured {p t n : Nat} (h : within s t 1000 = true) (q : Nat) :
    toldLately (captured s p t n) q = if q = p then true else toldLately s q := by
  simp only [toldLately, captured, tabGet?_put]
  by_cases hq : q = p
  · simp only [hq, if_true]
    exact h
  · simp only [hq, if_false]
    rfl

theorem mayTell_captured_le {p t n : Nat} (h : within s t 1000 = true) : mayTell (captured s p t n) ≤ mayTell s := by
  refine Finset.card_le_card fun q hq => ?_
  rw [Finset.mem_filter, toldLately_captured h] at hq
  refine Finset.mem_filter.2 ⟨hq.1, ?_⟩
  split at hq
  · cases hq.2
  · exact hq.2

theorem mayTell_captured_lt {p t n : Nat} (h : within s t 1000 = true) (hp : p < 248) (hold : toldLately s p = false) :
    mayTell (captured s p t n) < mayTell s := by
  refine Finset.card_lt_card (Finset.ssubset_iff_subset_ne.2 ⟨fun q hq => ?_, fun e => ?_⟩)
  · rw [Finset.mem_filter, toldLately_captured h] at hq
    refine Finset.mem_filter.2 ⟨hq.1, ?_⟩
    split at hq
    · cases hq.2
    · exact hq.2
  · have hmem : p ∈ (Finset.range 248).filter fun q => toldLately s q = false := Finset.mem_filter.2 ⟨Finset.mem_range.2 hp, hold⟩
    rw [← e, Finset.mem_filter, toldLately_captured h, if_pos rfl] at hmem
    cases hmem.2

/-- A counter that tells of its overflow does not tell again at that time. -/
theorem tellOverflow {p count n : Nat} {ctx : ObjAddr} (h : Sends a b s) (hp : p < 248) (hold : toldLately s p = false) :
    Sends a b (Machine.publish 4 (.overflow (nowNs s) (addrOf (obj .perfCnt p)) count ctx n)
      (Machine.countQuiet (obj .cntCtr 2) (captured s p s.clock 0))) := by
  have hlt := mayTell_captured_lt (n := 0) (show within s s.clock 1000 = true by simp [within]) hp hold
  have hcap : Sends (captured s p s.clock 0) 2 (Machine.publish 4 (.overflow (nowNs s) (addrOf (obj .perfCnt p)) count ctx n)
      (Machine.countQuiet (obj .cntCtr 2) (captured s p s.clock 0))) := .publish (.countQuiet (.refl _))
  refine ⟨hcap.clock.trans h.clock, fun m => ?_⟩
  have h1 := hcap.seq m
  have h2 := h.seq m
  have h3 : nextSeqOf (captured s p s.clock 0) m = nextSeqOf s m := rfl
  omega

theorem overflowSample {p count : Nat} {ctx : ObjAddr} (h : Sends a b s) (hp : p < 248) : Sends a b (overflowSample p count ctx s) := by
  unfold Machine.overflowSample
  cases ht : tabGet? s.cnt.samples p with
  | none => exact h.tellOverflow hp (by simp [toldLately, ht])
  | some x =>
    have htold : toldLately s p = within s x.1 1000 := by simp [toldLately, ht]
    refine iteOf (fun hw => ?_) fun hw => h.tellOverflow hp (htold.trans (by simpa using hw))
    have hc : Sends a b (captured s p x.1 ((tabGet s.cnt.samples p (0, 0)).2 + 1)) :=
      ⟨h.clock, fun n => (Nat.add_le_add_left (Nat.mul_le_mul_left 2 (mayTell_captured_le hw)) _).trans (h.seq n)⟩
    exact .countQuiet hc

theorem perfAdd {p n : Nat} {ctx : ObjAddr} (h : Sends a b s) (hp : p < 248) : Sends a b (perfAdd p n ctx s) :=
  .ifElse (.wrWord h nofun) fun h => .overflowSample h hp

theorem perfOf_lt {blk p : Nat} (hp : p ∈ perfOf blk) : p < 248 := by
  have hblk : blockIx blk ≤ 61 := List.idxOf_le_length
  obtain ⟨i, hi, rfl⟩ := List.mem_map.1 hp
  have := List.mem_range.1 hi
  omega

theorem bumpBy {k : Key} {n : Nat} {ctx : ObjAddr} (h : Sends a b s) (hk : k.ty ≠ .sessStatus) : Sends a b (bumpBy k n ctx s) := by
  unfold Machine.bumpBy
  split
  · exact .forAll (.wrWord h hk) fun p hp _ h => .ite (.perfAdd h (perfOf_lt hp)) h

theorem bump {ty : ObjTy} {j1 j2 n : Nat} (h : Sends a b s) (hty : ty ≠ .sessStatus := by exact nofun) : Sends a b (bump ty j1 j2 n s) :=
  .bumpBy h hty

/-! ## Links and routes -/

theorem setFl {k : Nat} {x : Fl} (h : Sends a b s) : Sends a b (setFl s k x) := .parts h

theorem floodRecord {r : LinkRecord} {but : Option Nat} (h : Sends a b s) : Sends a b (floodRecord r but s) :=
  .forAll h fun _ _ _ h => .emit h

theorem holdRecord {r : LinkRecord} (h : Sends a b s) : Sends a b (holdRecord s r) := .parts h

theorem genRecord (h : Sends a b s) : Sends a b (genRecord s) := .ite (.floodRecord (.holdRecord (.parts h))) h

theorem maskOut {k : Nat} (h : Sends a b s) : Sends a b (maskOut k s) := .forAll h fun _ _ _ h => .mapF (.mapF h)

theorem returnCredits {k : Nat} (h : Sends a b s) : Sends a b (returnCredits k s) := .ite (.forAll (.setFl h) fun _ _ _ h => .emit h) h

theorem freeSlot {k vc : Nat} (h : Sends a b s) : Sends a b (freeSlot k vc s) := .returnCredits (.setFl h)

theorem leaveSlot {slot : Option (Nat × Nat × Nat)} (h : Sends a b s) : Sends a b (leaveSlot slot s) := by
  unfold Machine.leaveSlot
  split
  · exact h
  · exact .ite h (.freeSlot h)

theorem queueCell {k : Nat} {c : FabCell} (h : Sends a b s) : Sends a b (queueCell k c s) := .setFl h

theorem routeCell {c : FabCell} (h : Sends a b s) : Sends a b (routeCell c s) := by
  unfold Machine.routeCell
  split
  · exact .leaveSlot (.bump h)
  · exact .ifThen (.queueCell (.parts h)) fun h => .bump h

theorem chooseAgain {k : Nat} {c : FabCell} (h : Sends a b s) : Sends a b (chooseAgain k c s) := by
  unfold Machine.chooseAgain
  dsimp only
  refine .ite ?_ (.routeCell h)
  split
  · exact .queueCell h
  · exact .leaveSlot (.bump h)

/-- A link that enters a state tells of it. -/
theorem enterLink {k st cause : Nat} (h : Sends a b s) : Sends a (b + 2) (enterLink k st cause s) := by
  refine .ite (h.mono (Nat.le_add_right _ _)) (.iteOf (fun _ => .mono ?_ (Nat.le_add_right _ _)) fun _ => .stateEvent ?_)
  all_goals exact .ifThen (.ifThen (.ifThen (.ifThen (.wr (.setFl (.wr (.wr h)))) fun h => .wr (.wr h)) fun h => .bump h) fun h =>
    .forAll (.maskOut h) fun _ _ _ h => .chooseAgain h) fun h => .genRecord (.parts h)

/-! ## Messages and the pair -/

theorem queueMessage {m : FaultMsg} (h : Sends a b s) : Sends a b (queueMessage m s) := .ite (.parts h) (.bump (.parts h))

theorem noteCore {blk : Nat} (h : Sends a b s) : Sends a b (noteCore blk s) := .ite (.parts h) h

theorem report {r : Report} (h : Sends a b s) : Sends a b (report r s).1 := by
  have hcore : Sends a b (Machine.noteCore r.blk s) := .noteCore h
  unfold Machine.report
  dsimp only
  split
  · exact .queueMessage hcore
  · exact .iteFst (.queueMessage hcore) (.iteFst (.queueMessage (.wr (.parts hcore)))
      (.iteFst (.parts (.ifThen (.queueMessage (.wr (.parts hcore))) fun h => .wr h))
        (.ifThen (.queueMessage (.wr (.parts hcore))) fun h => .wr h)))

theorem yokeSend {y : Nat} {load : YokeLoad} (h : Sends a b s) : Sends a b (yokeSend y load s) := .parts (.emit h)

theorem setRole {role : Nat} (h : Sends a b s) : Sends a (b + 2) (setRole role s) :=
  .ite (.mono (.parts (.wr h)) (Nat.le_add_right _ _)) (.stateEvent (.parts (.wr h)))

theorem atMost {blk inst kind sub d : Nat} {f : State → State} (h : Sends a b s) (hf : ∀ s, Sends a b s → Sends a b (f s)) :
    Sends a b (atMost blk inst kind sub d f s) := by
  unfold Machine.atMost
  dsimp only
  split
  · exact .ite h (hf _ (.parts h))
  · exact hf _ (.parts h)

/-! ## Common time -/

theorem emitLine {p n : Nat} {o : Nat → Out} (h : Sends a b s) : Sends a b (emitLine p n o s) :=
  .ite (.forAll h fun _ _ _ h => .ite h (.emit (.emit h))) (.emit h)

theorem setTx {p : Nat} {l : List TxFrame} (h : Sends a b s) : Sends a b (setTx p l s) := .parts h

theorem originate {p : Nat} {kind : Pdu} {args : List Nat} {len : Nat} (h : Sends a b s) : Sends a b (originate p kind args len s) :=
  .ite h (.ite (.setTx h) (.ite (.bump (.bump (.emitLine h))) (.emit h)))

theorem toAcquire (h : Sends a b s) : Sends a b (toAcquire s) := .wr (.parts (.ite (.wr h) h))

theorem toFree (h : Sends a b s) : Sends a b (toFree s) := .wr (.parts (.wr h))

theorem toHold {forced : Bool} (h : Sends a b s) : Sends a b (toHold forced s) := by
  unfold Machine.toHold
  exact .bump (.wr (.parts h))

theorem moveServo {has : Bool} (h : Sends a b s) : Sends a b (moveServo has s).1 :=
  .iteFst (.ite (.toAcquire h) h) (.iteFst (.toFree h) (.iteFst (.report (.ite (.toHold h) (.toFree h))) h))

theorem updateSource (h : Sends a b s) : Sends a b (updateSource s).1 := .moveServo (.wr (.wr h))

theorem updateRoot (h : Sends a b s) : Sends a b (updateRoot s) := by
  unfold Machine.updateRoot
  dsimp only
  generalize hp : (following s).map Prod.fst = parent
  generalize hw : (if rd s tmS TmStatus.FT_STATE = 2 then some (rd s tmS TmStatus.FT_PARENT) else none) = was
  have hroot {x y z : Nat} : Sends a b (Machine.wr (Machine.wr (Machine.wr s tmS TmStatus.ROOT x) tmS TmStatus.FT_STATE y) tmS
      TmStatus.FT_HOPS z) := .wr (.wr (.wr h))
  cases parent <;> cases was
  · exact .ifThen (.wr hroot) fun h => .bump h
  · exact .ifThen (.ifElse (.wr hroot) fun h => .wr h) fun h => .bump h
  · exact .ifThen (.ifThen (.wr (.wr hroot)) fun h => .bump h) fun h => .toAcquire h
  · exact .ifThen (.ifThen (.wr (.ifElse (.wr hroot) fun h => .wr h)) fun h => .bump h) fun h => .toAcquire h

theorem updateQuality (h : Sends a b s) : Sends a b (updateQuality s) := by
  unfold Machine.updateQuality
  split
  · exact .wr (.wr (.wr (.parts h)))
  · exact .ite (.wr (.wr (.wr (.parts h)))) (.ite (.wr (.wr (.wr h))) (.wr (.wr (.wr h))))

theorem sendEsmc {event : Bool} {p : Nat} (h : Sends a b s) : Sends a b (sendEsmc event p s) := .ite (.originate h) h

theorem updateRef (h : Sends a b s) : Sends a b (updateRef s) :=
  .ifElse (.ifThen (.ifThen (.parts h) fun h => .bump h) fun h => .wr h) fun h => .forAll (.parts h) fun _ _ _ h => .sendEsmc h

theorem updateTime (h : Sends a b s) : Sends a b (updateTime s).1 := by
  have hsource : Sends a b (Machine.updateSource (Machine.updateRoot s)).1 := .updateSource (.updateRoot h)
  unfold Machine.updateTime
  generalize Machine.updateSource (Machine.updateRoot s) = p at hsource ⊢
  exact .updateRef (.updateQuality hsource)

/-! ## The safe state and the message -/

/-- The safe state quarantines at most 64 links, and may change the role. -/
theorem enterSafe (h : Sends a b s) : Sends a (b + 2 * 64 + 2) (enterSafe s) := by
  have hlinks {u : State} {p : Nat → Bool} {f : Nat → State → State} (h : Sends a b u)
      (hf : ∀ k u b, Sends a b u → Sends a (b + 2) (f k u)) : Sends a (b + 2 * 64) (Machine.forAll ((List.range 64).filter p) f u) := by
    have hlen : ((List.range 64).filter p).length ≤ 64 := (List.length_filter_le _ _).trans_eq List.length_range
    exact (Sends.forEach h hf).mono (by omega)
  unfold Machine.enterSafe
  refine .bump (.updateTime (.parts (.iteOf (fun _ => .setRole (.wr (.yokeSend (.yokeSend ?_)))) fun _ => .mono ?_ (Nat.le_add_right _ _))))
  all_goals
    exact hlinks (.parts (.forAll (.forAll (.parts (.wr (.wr h))) fun _ _ _ h => .emit h) fun _ _ _ h => .emit h)) fun k u b h =>
      .ifElse (.enterLink h) fun h => .atMost h fun _ h => .report h

theorem raise {r : Report} (h : Sends a b s) : Sends a (b + 130) (raise r s) :=
  .iteFst (.enterSafe (.report h)) (.mono (.report h) (Nat.le_add_right _ _))

/-- A message moves a stream by at most so many SEQs. -/
theorem nextSeqOf_raise (r : Report) (s : State) (n : Nat) : nextSeqOf (Machine.raise r s) n ≤ nextSeqOf s n + 626 := by
  have hseq := (raise (r := r) (.refl s)).seq n
  have hmay : mayTell s ≤ 248 := (Finset.card_filter_le _ _).trans_eq (Finset.card_range 248)
  omega

end Sends

end Sys2Proof.Machine
end

section
/-! What waits in a session does not wait for ever: reassemblies, commands and records (R41, R59, R508). -/
namespace Sys2Proof.Machine

open Sys2Proof

/-! ## The reply of the only command that waits -/

theorem emitReply_out {n : Nat} {p : MgmtPort} {mac : BitVec 48} {op st seq hint : Nat} {addr : ObjAddr} {r : Bytes} {s : State}
    (h : nextSeqOf s n + fragments (24 + r.length) < 2 ^ 64) :
    ∃ seals l, (emitReply n p mac op st seq addr hint r s).out = .reply p mac n (nextSeqOf s n) op st seq addr hint r seals :: l := by
  rw [← puntsBefore_nextSeq p s n] at h ⊢
  unfold emitReply
  exact ⟨_, _, congrArg State.out (if_neg (Nat.not_le.2 h))⟩

theorem emitReply_waiting (n : Nat) (p : MgmtPort) (mac : BitVec 48) (op st seq hint : Nat) (addr : ObjAddr) (r : Bytes) (s : State) :
    (emitReply n p mac op st seq addr hint r s).cmd.waiting = s.cmd.waiting := by
  obtain ⟨c, q, l, hp, -⟩ := puntsBefore_parts p s
  unfold emitReply
  dsimp only
  rw [hp]
  split <;> rfl

/-- What a reply leaves beside its frame: the queue of commands and what was sent. -/
theorem sendReply_rest {α : Type} (g : State → α) (hmap : ∀ u k f h, g (mapF u k f h) = g u) (hsess : ∀ u n x, g (setSess u n x) = g u)
    (w : Waiting) (st hint : Nat) (addr : ObjAddr) (s : State) : ∃ r : Bytes, r.length ≤ 4 ∧ g (sendReply w st addr hint [] s) =
      g (emitReply w.hdr.sid.val w.port w.mac w.op st w.hdr.seq.toNat addr hint r s) := by
  have hlen : (if w.op = 0x0305 ∧ ([] : Bytes).isEmpty then toBytes 4 0xFFFFFFFF else []).length ≤ 4 := by
    split
    · exact (length_toBytes _ _).le
    · exact Nat.zero_le _
  refine ⟨_, hlen, ?_⟩
  unfold sendReply
  dsimp only
  generalize emitReply _ _ _ _ _ _ _ _ _ _ = u
  have hcount (v : State) : g (if w.counted then mapF v (sessKey w.hdr.sid.val) SessStatus.OUTSTANDING (· - 1) else v) = g v := by
    split
    · exact hmap ..
    · rfl
  have hidle (v : State) (x : Sess) : g (if rd v (sessKey w.hdr.sid.val) SessStatus.OUTSTANDING = 0 then setSess v w.hdr.sid.val x else v) =
      g v := by
    split
    · exact hsess ..
    · rfl
  rw [hidle, hcount]

theorem sendReply_out {w : Waiting} {st hint : Nat} {addr : ObjAddr} {s : State} (h : nextSeqOf s w.hdr.sid.val + 1 < 2 ^ 64) :
    ∃ q r seals l, (sendReply w st addr hint [] s).out =
      .reply w.port w.mac w.hdr.sid.val q w.op st w.hdr.seq.toNat addr hint r seals :: l := by
  obtain ⟨r, hlen, hout⟩ := sendReply_rest State.out (fun _ _ _ _ => rfl) (fun _ _ _ => rfl) w st hint addr s
  have hroom : nextSeqOf s w.hdr.sid.val + fragments (24 + r.length) < 2 ^ 64 := by unfold fragments; omega
  obtain ⟨seals, l, he⟩ := emitReply_out hroom
  exact ⟨_, r, seals, l, hout.trans he⟩

theorem sendReply_waiting (w : Waiting) (st hint : Nat) (addr : ObjAddr) (s : State) :
    (sendReply w st addr hint [] s).cmd.waiting = s.cmd.waiting := by
  obtain ⟨r, -, hw⟩ := sendReply_rest (·.cmd.waiting) (fun _ _ _ _ => rfl) (fun _ _ _ => rfl) w st hint addr s
  exact hw.trans (emitReply_waiting ..)

/-- A command that is done, with none before it and nothing to follow, is answered at once. -/
theorem finish_answers {s : State} {w : Waiting} {st hint : Nat} {addr : ObjAddr} (h : s.cmd.waiting = [w]) (hq : w.phase = .queued) :
    finish w.hdr st addr hint [] .nothing s = sendReply w st addr hint [] { s with cmd := { s.cmd with waiting := [] } } := by
  rw [finish_only h rfl (queued_not_done hq), afterReply]
  exact flushReplies_none (sendReply_waiting ..)

/-! ## Reassemblies (R41) -/

/-- An inject is dropped after its session has changed: it counts, and the session keeps what it holds but for the records that wait. -/
theorem injectDrop_setSess (p : MgmtPort) (s : State) (n : Nat) (x : Sess) :
    (getSess (injectDrop p (setSess s n x)) n).quiet = x.quiet ∧ Safety.Counted .cmdCtr 7 (portInst p) 1 s (injectDrop p (setSess s n x)) ∧
      Safety.Told s (injectDrop p (setSess s n x)) ∧ Safety.RegsKept (.cmdCtr :: Safety.telling) s (injectDrop p (setSess s n x)) := by
  have hsess : Safety.Told s (setSess s n x) := rfl
  refine ⟨?_, counted_from (s' := setSess s n x) (by decide) (rdWord_setSess ..),
    Safety.Told.trans (s := setSess s n x) hsess (told_bump .cmdCtr 7 (portInst p) 1 _),
    kept_from (s' := setSess s n x) (kept_bump _ _ _ _ _) fun k _ => rdWord_setSess ..⟩
  exact (bump_sess .cmdCtr 7 (portInst p) 1 (setSess s n x) n).trans (by rw [getSess_setSess_self])

theorem execReassemblyTimeout_inject {n : Fin 64} {first : Word} {r : Reasm} {s : State} (h : reasmOf (getSess s n.val).injReasm first = some r) :
    execReassemblyTimeout n true first s =
      .next (injectDrop r.port (setReasm n.val true ((getSess s n.val).injReasm.filter fun e => e.first != first) s)) := by
  unfold execReassemblyTimeout
  simp only [if_true, h]

theorem execReassemblyTimeout_command {n : Fin 64} {first : Word} {r : Reasm} {s : State} (h : reasmOf (getSess s n.val).reasm first = some r) :
    execReassemblyTimeout n false first s =
      .next (endReasm n r (setReasm n.val false ((getSess s n.val).reasm.filter fun e => e.first != first) s)) := by
  unfold execReassemblyTimeout
  simp only [Bool.false_eq_true, if_false, h]

theorem refuse_of_logged {c : Hdr} {st : Nat} {addr : ObjAddr} {s : State} (hb : st ≠ stBusy) (hl : logged st = true) :
    ∃ e : Report, refuse c st addr s = finish c st addr 0 [] .nothing (raise e s) := by
  unfold refuse refuseWith
  exact ⟨_, (if_neg hb).trans (if_pos hl)⟩

theorem refuse_busy (c : Hdr) (addr : ObjAddr) (s : State) :
    refuse c stBusy addr s = finish c stBusy 0 (Config.hint s.free) [] .nothing { s with free := s.free + 1 } := by
  unfold refuse refuseWith
  exact if_pos rfl

/-- A command that is refused as it ends, with none before it, is answered: its message leaves room for the reply. -/
theorem answerNow_out {b : Arrived} {op st : Nat} {counted : Bool} {s : State} (hb : st ≠ stBusy) (hl : logged st = true)
    (hw : s.cmd.waiting = []) (hs : nextSeqOf s b.hdr.sid.val < 2 ^ 64 - 4096) :
    (answerNow b op st counted s).cmd.waiting = [] ∧ ∃ q r seals l, (answerNow b op st counted s).out =
      .reply b.port b.mac b.hdr.sid.val q op st b.hdr.seq.toNat (sessAddr b.hdr.sid.val) 0 r seals :: l := by
  obtain ⟨e, he⟩ := refuse_of_logged (c := b.hdr) (addr := sessAddr b.hdr.sid.val) (s := addWaiting b op counted .queued s) hb hl
  have hwait : (raise e (addWaiting b op counted .queued s)).cmd.waiting =
      [{ hdr := b.hdr, port := b.port, mac := b.mac, op := op, res := b.res, plen := b.plen, body := b.body, counted := counted,
         since := s.clock, phase := .queued }] := by
    rw [raise_waiting, addWaiting, hw]
    rfl
  have hseq := Sends.nextSeqOf_raise e (addWaiting b op counted .queued s) b.hdr.sid.val
  have hadd : nextSeqOf (addWaiting b op counted .queued s) b.hdr.sid.val = nextSeqOf s b.hdr.sid.val := rfl
  unfold answerNow
  rw [he, finish_answers hwait rfl]
  refine ⟨sendReply_waiting .., sendReply_out (?_ : nextSeqOf (raise e (addWaiting b op counted .queued s)) b.hdr.sid.val + 1 < 2 ^ 64)⟩
  omega

/-! ## Records (R508) -/

theorem execEventFrameTimeout_waits {n : Fin 64} {s : State} (ho : sessOpen s n.val = true) (hr : (getSess s n.val).recs ≠ []) :
    execEventFrameTimeout n s = .next (sendEvents n.val (due ((getSess s n.val).recsFrom + 100000) s)) := by
  unfold execEventFrameTimeout
  rw [if_neg (by simp [ho, hr])]

theorem due_reaches (t : Nat) (s : State) : t ≤ (due t s).clock := by
  unfold due
  split
  · rw [(advance_told _ s).parts]
    show t ≤ s.clock + (t - s.clock)
    omega
  · omega

theorem due_kept (t : Nat) (s : State) : Safety.RegsKept Safety.telling s (due t s) := by
  intro k hk
  unfold due
  split
  · exact (advance_told _ s).regs k hk
  · rfl

/-- No record waits behind an event frame. -/
theorem sendEvents_recs (n : Nat) (s : State) : (getSess (sendEvents n s) n).recs = [] := by
  unfold sendEvents
  dsimp only
  split
  · next h => simpa using h
  · rw [getSess_wr, getSess_setSess_self]

theorem sendEvents_clock (n : Nat) (s : State) : (sendEvents n s).clock = s.clock := by rw [(sendEvents_told n s).parts]

/-- The event frame that leaves, and what it leaves. -/
theorem sendEvents_frame {n : Nat} {s : State} (h : (getSess s n).recs ≠ []) :
    (getSess (sendEvents n s) n).evSeq = (getSess s n).evSeq + (getSess s n).recs.length ∧
      (∃ l, (sendEvents n s).out = .event (getSess s n).port (getSess s n).mac n (rd s (sessKey n) SessStatus.NEXT_SEQ) (getSess s n).evSeq
        (getSess s n).evLost (getSess s n).recs (cmdSeals s n 5 (16 + waitingBytes (getSess s n))) :: (l ++ s.out)) ∧
      Safety.RegsKept [.sessStatus] s (sendEvents n s) := by
  obtain ⟨c, q, l, hp, hkeys⟩ := puntsBefore_parts (getSess s n).port s
  have hseq := puntsBefore_nextSeq (getSess s n).port s n
  have hseals : cmdSeals (puntsBefore (getSess s n).port s) n 5 (16 + waitingBytes (getSess s n)) =
      cmdSeals s n 5 (16 + waitingBytes (getSess s n)) := by
    unfold cmdSeals
    rw [hkeys, ← nextSeqOf, hseq, nextSeqOf]
  have hout : (puntsBefore (getSess s n).port s).out = l ++ s.out := by rw [hp]
  have hkept : Safety.RegsKept [.sessStatus] s (puntsBefore (getSess s n).port s) := fun k _ => by rw [hp]; rfl
  unfold sendEvents
  dsimp only
  rw [if_neg (by simpa using h)]
  refine ⟨?_, ⟨l, ?_⟩, fun k hk => ?_⟩
  · rw [getSess_wr, getSess_setSess_self]
  · rw [hseals, ← nextSeqOf, ← nextSeqOf, hseq, ← hout]
    rfl
  · have hty : k.ty ≠ .sessStatus := by simpa using hk
    rw [rdWord_wr_ty _ _ _ _ _ hty, rdWord_setSess, rdWord_emit, hkept k hk]

/-- Settles O13: each of the four ends what waits, and a refusal's message leaves room for its reply. -/
theorem waitingEnds : Obligations.WaitingEnds := by
  unfold Obligations.WaitingEnds
  refine ⟨fun n first r s h => ?_, fun n first r s h hw _ hs => ?_, fun c s w hw hc hq hg hs => ?_, fun n s ho hr => ?_⟩
  · obtain ⟨hquiet, hcount, htold, hkept⟩ := injectDrop_setSess r.port s n.val
      { getSess s n.val with injReasm := (getSess s n.val).injReasm.filter fun e => e.first != first }
    exact ⟨_, execReassemblyTimeout_inject h, congrArg Sess.injReasm hquiet, hcount, htold, hkept⟩
  · refine ⟨_, execReassemblyTimeout_command h, ?_⟩
    obtain ⟨hwait, q, res, seals, l, hout⟩ := answerNow_out (b := reasmArrived n r) (op := reasmOp r) (st := stBadLength) (counted := true)
      (s := setReasm n.val false ((getSess s n.val).reasm.filter fun e => e.first != first) s) (by decide) (by decide) hw hs
    exact ⟨hwait, q, res, seals, l, hout⟩
  · subst hc
    have hexec : execCommandBlockTimeout w.hdr s = .next (refuse w.hdr stBusy 0 s) := by
      unfold execCommandBlockTimeout
      rw [turnOf_only hw rfl hq hg]
    have hanswer : refuse w.hdr stBusy 0 s =
        sendReply w stBusy 0 (Config.hint s.free) [] { s with free := s.free + 1, cmd := { s.cmd with waiting := [] } } := by
      rw [refuse_busy]
      exact finish_answers hw hq
    refine ⟨_, hexec, ?_⟩
    rw [hanswer]
    obtain ⟨q, res, seals, l, hout⟩ := sendReply_out (w := w) (st := stBusy) (addr := 0) (hint := Config.hint s.free)
      (s := { s with free := s.free + 1, cmd := { s.cmd with waiting := [] } }) (Nat.lt_trans (Nat.add_lt_add_right hs 1) (by decide))
    refine ⟨sendReply_waiting .., ⟨q, res, seals, l, _, Nat.le_add_left 1 _, ?_, hout⟩, fun k hk => ?_⟩
    · exact Nat.succ_le_of_lt (Nat.mod_lt _ (by decide))
    · exact sendReply_ne (by rintro rfl; simp [sessKey] at hk)
  · refine ⟨_, execEventFrameTimeout_waits ho hr, sendEvents_recs _ _, ?_, fun k hk => ?_, fun hdue => ?_⟩
    · rw [sendEvents_clock]
      exact due_reaches _ _
    · rw [(sendEvents_told _ _).regs k hk, due_kept _ _ k hk]
    · rw [show due ((getSess s n.val).recsFrom + 100000) s = s from if_neg (Nat.not_lt.2 hdue)]
      exact sendEvents_frame hr

end Sys2Proof.Machine
end

section
/-! Operator keys and the fuses (R72, R73): the write that a change of a slot starts, and what its completion leaves in the fuses. -/
namespace Sys2Proof.Machine

open Sys2Proof

/-! ## The bits of a slot -/

theorem testBit_putF (x : Nat) (f : Fld) (v i : Nat) : (putF x f v).testBit i =
    if i < f.lo then x.testBit i else if i < f.lo + f.w then v.testBit (i - f.lo) else x.testBit i := testBit_putBits x f.lo f.w v i

theorem reservedBits_opKey (x : Nat) : reservedBits .opKey x = putF (putF x OpKey.DIGEST 0) OpKey.STATE 0 := rfl

/-- What a slot's fields hold are not its reserved bits. -/
theorem reservedBits_opKey_state (x v : Nat) : reservedBits .opKey (putF x OpKey.STATE v) = reservedBits .opKey x := by
  refine Nat.eq_of_testBit_eq fun i => ?_
  simp only [reservedBits_opKey, testBit_putF, Nat.zero_testBit]
  grind

theorem reservedBits_opKey_digest (x v : Nat) : reservedBits .opKey (putF x OpKey.DIGEST v) = reservedBits .opKey x := by
  refine Nat.eq_of_testBit_eq fun i => ?_
  simp only [reservedBits_opKey, testBit_putF, Nat.zero_testBit]
  grind

theorem fieldsOk_opKey {x : Nat} (hr : reservedBits .opKey x = 0) (hs : getF x OpKey.STATE ≤ 2) : fieldsOk .opKey x = true := by
  have hd : getF x OpKey.DIGEST ≤ 2 ^ OpKey.DIGEST.w - 1 := Nat.le_sub_one_of_lt (getF_le x OpKey.DIGEST)
  unfold fieldsOk
  rw [hr]
  simp only [fieldsOf, fieldsOpKey, List.all_cons, List.all_nil, rwF, rwR, hs, hd, Nat.zero_le, and_self, decide_true, Bool.or_true,
    Bool.and_true, beq_self_eq_true]

/-! ## The start of a fuse write -/

/-- A command has started a fuse write of one slot, and waits for it (R73). -/
def fuseStarted (c : Hdr) (w : Waiting) (k x : Nat) (s : State) : State :=
  { s with cmd := { s.cmd with
      waiting := [{ w with phase := .started 0x01 }]
      fuse := some { hdr := some c, slots := [(k, x)], secver := none, from_ := s.clock } } }

theorem writeKeys_starts {c : Hdr} {w : Waiting} {s : State} {k x : Nat} (hw : s.cmd.waiting = [w]) (hc : w.hdr = c) (hq : w.phase = .queued)
    (hst : stable s = true) (hf : s.cmd.fuse = none) (hx : x ≠ rdWord s (obj .opKey k))
    (hk : keyFault s c.sid.val [(obj .opKey k, x)] = none) :
    writeKeys c [(obj .opKey k, x)] s = fuseStarted c w k x s := by
  subst hc
  have hchanges : [(obj .opKey k, x)].filter (fun e => e.2 != rdWord s e.1) = [(obj .opKey k, x)] := by simp [hx]
  have hleft : fuseLeft s = none := by rw [fuseLeft, hf]; rfl
  unfold writeKeys
  rw [hchanges, hleft, hk]
  simp only [List.isEmpty_cons, Bool.false_eq_true, if_false, need, hst, if_true, defer, setPhase, hw, List.map_cons, List.map_nil, hq]
  rfl

/-- The four slots stand in one block. -/
theorem blockOf_opKey {k : Nat} (h : k < 4) : blockOf (obj .opKey k) = 0x01 := by
  have hzero : k / perBlock .opKey = 0 := Nat.div_eq_of_lt h
  rw [blockOf, show (obj .opKey k).idx = k from rfl, show (obj .opKey k).ty = .opKey from rfl, hzero]
  rfl

theorem hostWrite_starts {c : Hdr} {w : Waiting} {s : State} {k : Nat} {f : Nat → Nat} (hk4 : k < 4) (h : Safety.Turn s c w 0x0202 accConfig 76 0x01)
    (hst : stable s = true) (hf : s.cmd.fuse = none) (hfields : fieldsOk .opKey (f (rdWord s (obj .opKey k))) = true)
    (hx : f (rdWord s (obj .opKey k)) ≠ rdWord s (obj .opKey k))
    (hk : keyFault s c.sid.val [(obj .opKey k, f (rdWord s (obj .opKey k)))] = none) :
    hostWrite c (obj .opKey k) f s = fuseStarted c w k (f (rdWord s (obj .opKey k))) s := by
  have hacc : writeAccess s c.sid.val 0x0202 (some [obj .opKey k]) = accConfig := by simp [writeAccess, h.access]
  have hform : formFault s [(obj .opKey k, f (rdWord s (obj .opKey k)))] = none := by
    simp [formFault, hfields, rangeOk, show readOnly (obj .opKey k) = false from rfl]
  have hturn : Safety.Turn s c w 0x0202 accConfig w.plen (blockOf (obj .opKey k)) := by
    rw [h.length, blockOf_opKey hk4]
    exact h
  unfold hostWrite
  simp only [waitingOf_only h.only h.mine, h.opcode]
  norm_num
  rw [hacc, checked_pass hturn (by rw [h.length]; rfl)]
  simp only [show exists? (obj .opKey k) = true from rfl, writeObjects, hform]
  exact writeKeys_starts h.only h.mine h.queued hst hf hx hk

/-! ## What a change of a slot is judged by (R72) -/

/-- The slot that a programming writes, and the one that a revocation does. -/
def programmedWith (digest : BitVec 384) : Nat := putF (putF 0 OpKey.DIGEST digest.toNat) OpKey.STATE 1
/-- See `programmedWith`. -/
def revokedSlot (x : Nat) : Nat := putF x OpKey.STATE 2

theorem programmedWith_state (digest : BitVec 384) : getF (programmedWith digest) OpKey.STATE = 1 := getF_put_self _ _ _

theorem programmedWith_digest (digest : BitVec 384) : getF (programmedWith digest) OpKey.DIGEST = digest.toNat := by
  unfold programmedWith
  rw [getF_put_apart _ _ (by decide), getF_put_self]
  exact Nat.mod_eq_of_lt digest.isLt

theorem revokedSlot_state (x : Nat) : getF (revokedSlot x) OpKey.STATE = 2 := getF_put_self _ _ _

theorem revokedSlot_digest (x : Nat) : getF (revokedSlot x) OpKey.DIGEST = getF x OpKey.DIGEST := getF_put_apart _ _ (by decide)

theorem programmedWith_fields (digest : BitVec 384) : fieldsOk .opKey (programmedWith digest) = true := by
  refine fieldsOk_opKey ?_ (by rw [programmedWith_state]; decide)
  rw [programmedWith, reservedBits_opKey_state, reservedBits_opKey_digest]
  rfl

theorem revokedSlot_fields {x : Nat} (h : reservedBits .opKey x = 0) : fieldsOk .opKey (revokedSlot x) = true := by
  refine fieldsOk_opKey ?_ (by rw [revokedSlot_state])
  rw [revokedSlot, reservedBits_opKey_state, h]

/-- An empty slot may be programmed with a digest that is not zero. -/
theorem keyFault_program {s : State} {n k : Nat} {digest : BitVec 384} (hst : rd s (obj .opKey k) OpKey.STATE = 0) (hd : digest ≠ 0)
    (ha : holds s n accConfig = true) : keyFault s n [(obj .opKey k, programmedWith digest)] = none := by
  have hd' : digest.toNat ≠ 0 := fun e => hd (BitVec.eq_of_toNat_eq e)
  simp [keyFault, hst, programmedWith_state, programmedWith_digest, ha, hd']

/-- A programmed slot may be revoked while another stays programmed. -/
theorem keyFault_revoke {s : State} {n k j : Nat} (hst : rd s (obj .opKey k) OpKey.STATE = 1) (hj : rd s (obj .opKey j) OpKey.STATE = 1)
    (hne : j ≠ k) (hlt : j < 4) (ha : holds s n accConfig = true) :
    keyFault s n [(obj .opKey k, revokedSlot (rdWord s (obj .opKey k)))] = none := by
  have hleft : ((List.range 4).any fun i => (match [(obj .opKey k, revokedSlot (rdWord s (obj .opKey k)))].find? fun e => e.1.idx == i with
      | some e => getF e.2 OpKey.STATE
      | none => rd s (obj .opKey i) OpKey.STATE) == 1) = true := by
    refine List.any_eq_true.2 ⟨j, List.mem_range.2 hlt, ?_⟩
    simp [Ne.symm hne, hj]
  have hdigest : getF (rdWord s (obj .opKey k)) OpKey.DIGEST = rd s (obj .opKey k) OpKey.DIGEST := rfl
  unfold keyFault
  dsimp only
  generalize hl : (List.range 4).any _ = left
  obtain rfl : left = true := hl.symm.trans hleft
  simp [hst, revokedSlot_state, revokedSlot_digest, hdigest, ha]

/-! ## The completed write (R73, R529) -/

theorem slotsFused_fuses (w : FuseWrite) (s : State) : (slotsFused w s).fuses =
    { s.fuses with opKeys := w.slots.foldl (fun t e => tabPut t e.1 e.2) s.fuses.opKeys } :=
  (Onward.forAll (.refl _) fun _ _ h => .revokeImages h : Onward _ (slotsFused w s)).fuses

theorem fuseReplied_fuses (w : FuseWrite) (s : State) : (fuseReplied w s).fuses = s.fuses := (Onward.fuseReplied (.refl s)).fuses

/-- Settles O15: the two changes of a slot that R72 admits start a fuse write, and its completion writes what it holds. -/
theorem fuseWrites : Obligations.FuseWrites := by
  unfold Obligations.FuseWrites
  refine ⟨fun c k digest s w h hst hf hd he => ?_, fun c k j s w h hst hf hne hk hj hr => ?_, fun s f k x hf hs hv => ?_,
    fun s f v hf hs hv => ?_⟩
  · have hx : programmedWith digest ≠ rdWord s (obj .opKey k.val) := fun e => by
      have := programmedWith_state digest
      rw [e, ← rd, he] at this
      cases this
    have hstart := hostWrite_starts (f := fun _ => programmedWith digest) k.isLt h hst hf (programmedWith_fields digest) hx
      (keyFault_program he hd h.access)
    exact ⟨fuseStarted c w k.val (programmedWith digest) s, congrArg Host.Outcome.next hstart, ⟨_, rfl, rfl, rfl, rfl, rfl⟩, rfl, rfl⟩
  · have hx : revokedSlot (rdWord s (obj .opKey k.val)) ≠ rdWord s (obj .opKey k.val) := fun e => by
      have := revokedSlot_state (rdWord s (obj .opKey k.val))
      rw [e, ← rd, hk] at this
      cases this
    have hstart := hostWrite_starts (f := revokedSlot) k.isLt h hst hf (revokedSlot_fields hr) hx
      (keyFault_revoke hk hj (fun e => hne (Fin.ext e)) j.isLt h.access)
    exact ⟨fuseStarted c w k.val (revokedSlot (rdWord s (obj .opKey k.val))) s, congrArg Host.Outcome.next hstart, ⟨_, rfl, rfl, rfl⟩, rfl⟩
  · refine ⟨_, execFuseWriteComplete_of_some hf, ?_⟩
    dsimp only
    rw [fuseReplied_fuses, secverFused, hv]
    dsimp only
    rw [slotsFused_fuses, hs]
    rfl
  · refine ⟨_, execFuseWriteComplete_of_some hf, ?_⟩
    dsimp only
    rw [fuseReplied_fuses, secverFused, hv]
    dsimp only
    rw [wr_fuses, slotsFused_fuses, hs]
    rfl

end Sys2Proof.Machine
end

section
/-! Injects that are dropped or stored, and punts that leave (R22, R64 to R66, R484). -/
namespace Sys2Proof.Machine

open Sys2Proof

/-! ## Handles drawn and packets stored, seen from the queues (R276, R278) -/

theorem takeHandles_eng (k n : Nat) (s : State) : (takeHandles k n s).eng = s.eng := by
  unfold takeHandles
  rcases drawHandles n (cacheOf s k) (inRing s) 0 with ⟨c, ring, stolen⟩
  by_cases h : stolen = 0 <;> simp [h]

theorem takeHandles_buf (k n : Nat) (s : State) : (takeHandles k n s).buf = s.buf := by
  unfold takeHandles
  rcases drawHandles n (cacheOf s k) (inRing s) 0 with ⟨c, ring, stolen⟩
  by_cases h : stolen = 0 <;> simp [h]

/-- The state in which a pool has been charged for `n` billets and their handles taken. -/
def billetsDrawn (k n : Nat) (s : State) : State := takeHandles k n (charge k n s)

theorem drawBillets_of_le {k n : Nat} {s : State} (h : n ≤ mayDraw s k) : drawBillets k n s = some (billetsDrawn k n s) := if_pos h

theorem billetsDrawn_eng (k n : Nat) (s : State) : (billetsDrawn k n s).eng = s.eng := takeHandles_eng k n (charge k n s)

theorem billetsDrawn_buf (k n : Nat) (s : State) : (billetsDrawn k n s).buf = s.buf := takeHandles_buf k n (charge k n s)

/-- A stored packet stands under the next number, as it came but for its descriptor, its billets, its mark and its time. -/
theorem storeArrival_stored (p : Packet) (s : State) : (storeArrival p s).1 = s.buf.nextPkt ∧ (storeArrival p s).2.eng = s.eng ∧
    ∃ x, tabGet? (storeArrival p s).2.buf.pkts s.buf.nextPkt = some x ∧ x.len = p.len ∧ x.arrPort = p.arrPort ∧ x.tc = p.tc ∧
      x.inject = p.inject :=
  ⟨rfl, rfl, _, tabGet?_put_self _ _ _, rfl, rfl, rfl, rfl⟩

/-! ## Injects (R64, R65) -/

theorem execInject_dropped {n : Fin 64} {m : InjectMeta} {s : State} {q : MgmtPort} {rest : List MgmtPort}
    (hready : (getSess s n.val).injReady = q :: rest) (hup : chanState s 0 = 1) (hbad : inSafe s = true ∨ injectOk m = false) :
    execInject n m s = .next (injectDrop q (setSess s n.val { getSess s n.val with injReady := rest })) := by
  have hdrop : (inSafe (setSess s n.val { getSess s n.val with injReady := rest }) || !injectOk m) = true := by
    rw [show inSafe (setSess s n.val _) = inSafe s from rfl]
    rcases hbad with h | h <;> simp [h]
  simp only [execInject, hready, hup, hdrop, ne_eq, not_true_eq_false, if_false, if_true]

theorem execInject_placed {n : Fin 64} {m : InjectMeta} {s : State} {q : MgmtPort} {rest : List MgmtPort}
    (hready : (getSess s n.val).injReady = q :: rest) (hup : chanState s 0 = 1) (hsafe : inSafe s = false) (hok : injectOk m = true) :
    execInject n m s = .next (placeInject q m (setSess s n.val { getSess s n.val with injReady := rest })) := by
  have hpass : (inSafe (setSess s n.val { getSess s n.val with injReady := rest }) || !injectOk m) = false := by
    rw [show inSafe (setSess s n.val _) = inSafe s from rfl, hsafe, hok]
    rfl
  simp only [execInject, hready, hup, hpass, ne_eq, not_true_eq_false, if_false, Bool.false_eq_true]

/-- The packet that an inject for an ingress pass stores. -/
def injectedPacket (m : InjectMeta) (pool ct : Nat) : Packet :=
  { Packet.empty with len := m.len, arrival := ct, arrPort := m.port.toNat, tc := m.tc.toNat, pool := pool, inject := true, content := m.content }

/-- Its number, and the state in which it has drawn its billets and is stored. -/
def injectStored (m : InjectMeta) (s : State) : Nat × State :=
  let pool := arrivalPool s m.port.toNat m.content
  let t := billetsDrawn pool (billetsOf m.len) s
  storeArrival (injectedPacket m pool t.ct) t

/-- A stored packet sends its body over the bridge and waits last in the queue of injects. -/
def injectQueued (r : Nat × State) : State :=
  let t := sendData 0 (.body r.1) r.2
  { t with eng := { t.eng with injectQ := t.eng.injectQ ++ [r.1] } }

theorem injectStored_stored (m : InjectMeta) (s : State) :
    (injectStored m s).1 = s.buf.nextPkt ∧ (injectStored m s).2.eng = s.eng ∧
      ∃ x, tabGet? (injectStored m s).2.buf.pkts s.buf.nextPkt = some x ∧
        x.len = m.len ∧ x.arrPort = m.port.toNat ∧ x.tc = m.tc.toNat ∧ x.inject = true := by
  obtain ⟨hnum, heng, hpkt⟩ := storeArrival_stored
    (injectedPacket m (arrivalPool s m.port.toNat m.content) (billetsDrawn (arrivalPool s m.port.toNat m.content) (billetsOf m.len) s).ct)
    (billetsDrawn (arrivalPool s m.port.toNat m.content) (billetsOf m.len) s)
  rw [billetsDrawn_buf] at hnum hpkt
  exact ⟨hnum, heng.trans (billetsDrawn_eng ..), hpkt⟩

/-- An inject for an ingress pass that finds its billets is stored and queued. -/
theorem placeInject_ingress {q : MgmtPort} {m : InjectMeta} {s : State} (hmode : m.mode = 2) (hroom : s.eng.injectQ.length < 4096)
    (hdraw : billetsOf m.len ≤ mayDraw s (arrivalPool s m.port.toNat m.content)) :
    placeInject q m s = injectQueued (injectStored m s) := by
  have hegress : (m.mode == 1) = false := by rw [hmode]; rfl
  simp only [placeInject, hegress, Bool.false_eq_true, if_false, if_neg (Nat.not_le.2 hroom), drawBillets_of_le hdraw]
  rfl

theorem injectQueued_stored (m : InjectMeta) (s : State) :
    (injectQueued (injectStored m s)).eng = { s.eng with injectQ := s.eng.injectQ ++ [s.buf.nextPkt] } ∧
      ∃ x, tabGet? (injectQueued (injectStored m s)).buf.pkts s.buf.nextPkt = some x ∧
        x.len = m.len ∧ x.arrPort = m.port.toNat ∧ x.tc = m.tc.toNat ∧ x.inject = true := by
  obtain ⟨hnum, heng, hpkt⟩ := injectStored_stored m s
  generalize injectStored m s = r at hnum heng hpkt ⊢
  refine ⟨?_, hpkt⟩
  show { r.2.eng with injectQ := r.2.eng.injectQ ++ [r.1] } = _
  rw [heng, hnum]

/-! ## Punts (R22, R66, R484) -/

/-- The body of a punt is never empty, so the fragments are those of its length. -/
theorem fragments_punt (n : Nat) : fragments (32 + n) = (32 + n + 8191) / 8192 := by
  unfold fragments
  omega

theorem execPuntTransmit_sent {s : State} {x : Punt} {rest : List Punt} {n : Nat} (hq : s.cmd.puntQ = x :: rest) (hsafe : inSafe s = false)
    (hup : chanState s 1 = 1) (hn : puntSession s = some n) :
    execPuntTransmit s = .next (sendPunt n x { s with cmd := { s.cmd with puntQ := rest } }) := by
  have hsession : puntSession { s with cmd := { s.cmd with puntQ := rest } } = some n := hn
  simp only [execPuntTransmit, hq, hsafe, hup, hsession, bne_self_eq_false, Bool.or_false, Bool.false_eq_true, if_false]

theorem execPuntTransmit_held {s : State} (h : inSafe s = true ∨ chanState s 1 ≠ 1) : execPuntTransmit s = .next s := by
  have hheld : (inSafe s || chanState s 1 != 1) = true := by rcases h with h | h <;> simp [h]
  unfold execPuntTransmit
  cases s.cmd.puntQ with
  | nil => rfl
  | cons x rest => simp only [hheld, if_true]

/-- What a punt that leaves changes: what is sent, and the SEQ of its stream. -/
theorem sendPunt_sent (n : Nat) (x : Punt) (s : State) :
    (sendPunt n x s).out = .punt (getSess s n).port (getSess s n).mac n (getSess s n).piSeq x
        (sealsOf (keysOf s n).piOut 0x10 n (getSess s n).piSeq (32 + x.kept)) :: s.out ∧
      (getSess (sendPunt n x s) n).piSeq = (getSess s n).piSeq + (32 + x.kept + 8191) / 8192 ∧
      sendPunt n x s = { s with cmd := { s.cmd with sess := (sendPunt n x s).cmd.sess }, out := (sendPunt n x s).out } := by
  refine ⟨rfl, ?_, rfl⟩
  rw [sendPunt, getSess_setSess_self, fragments_punt]

/-- Settles O16, case by case: an inject dropped, an inject placed, a punt sent, a punt held. -/
theorem injectsAndPunts : Obligations.InjectsAndPunts := by
  unfold Obligations.InjectsAndPunts
  refine ⟨fun n m s q rest hready hup hbad => ?_, fun n m s q rest hready hup hsafe hok hmode hroom hdraw => ?_,
    fun s x rest n hq hsafe hup hn => ?_, fun s h => ⟨s, execPuntTransmit_held h, rfl⟩⟩
  · obtain ⟨hquiet, hcount, htold, hkept⟩ := injectDrop_setSess q s n.val { getSess s n.val with injReady := rest }
    exact ⟨_, execInject_dropped hready hup hbad, congrArg Sess.injReady hquiet, hcount, htold, hkept⟩
  · have hplaced := placeInject_ingress (q := q) (s := setSess s n.val { getSess s n.val with injReady := rest }) hmode hroom hdraw
    exact ⟨_, (execInject_placed hready hup hsafe hok).trans (congrArg Host.Outcome.next hplaced), injectQueued_stored m _⟩
  · obtain ⟨hout, hseq, hrest⟩ := sendPunt_sent n x { s with cmd := { s.cmd with puntQ := rest } }
    exact ⟨_, execPuntTransmit_sent hq hsafe hup hn, congrArg (fun t => t.cmd.puntQ) hrest, hout, hseq, hrest⟩

end Sys2Proof.Machine
end

section
/-! What the end of a pass sets going beside its thread (R64, R84, R285, R310, R461, R510): references end, copies and punts are queued, records are
sent. No other thread and no counter of a cluster changes. -/
namespace Sys2Proof.Machine

open Sys2Proof

-- The lemmas of this section are many and short: elaborated in turn, they take no thread, and so no stack, each.
set_option Elab.async false

/-! ## The relation -/

/-- A state that operations outside the engines lead to from another: the threads and the counters of the clusters are as they were. -/
structure Aside (a s : State) : Prop where
  threads  : s.eng.threads = a.eng.threads
  counters : ∀ k, k.ty = .ecCtr → rdWord s k = rdWord a k

variable {a s t : State}

namespace Aside

theorem refl (a : State) : Aside a a := ⟨rfl, fun _ _ => rfl⟩

/-- An update of other parts. -/
theorem parts (h : Aside a s) {clock ct cmd bridge flt cnt tbl pat line tfu msec buf que fab hbm time pair upd pwr out free pending} {eng : Engine}
    (he : eng.threads = s.eng.threads := by rfl) : Aside a (State.mk s.regs s.fuses clock ct cmd bridge flt cnt eng tbl pat line tfu msec buf que
      fab hbm time pair upd pwr out free pending) :=
  ⟨he.trans h.threads, h.counters⟩

theorem wr {k : Key} {f : Fld} {v : Nat} (h : Aside a s) (hk : k.ty ≠ .ecCtr := by exact nofun) : Aside a (wr s k f v) :=
  ⟨h.threads, fun j hj => (rdWord_wr_ty s k j f v (hj.trans_ne hk.symm)).trans (h.counters j hj)⟩

theorem mapF {k : Key} {f : Fld} {g : Nat → Nat} (h : Aside a s) (hk : k.ty ≠ .ecCtr := by exact nofun) : Aside a (mapF s k f g) := h.wr hk

theorem bump {ty : ObjTy} {i j n : Nat} (h : Aside a s) (hty : ty ≠ .ecCtr := by exact nofun) : Aside a (bump ty i j n s) :=
  ⟨(congrArg Engine.threads (bump_eng ty i j n s)).trans h.threads,
    fun k hk => (rdWord_bump_ty ty i j n s k (hk.trans_ne hty.symm) (by simp [hk])).trans (h.counters k hk)⟩

theorem raiseAt {blk inst kind : Nat} {k : Key} (h : Aside a s) : Aside a (raiseAt blk inst kind k s) :=
  ⟨(congrArg Engine.threads (raiseAt_eng ..)).trans h.threads,
    fun j hj => (kept_raiseAt blk inst kind k s j (by simp [hj])).trans (h.counters j hj)⟩

/-! ## Choices and lists -/

theorem ite {c : Prop} [Decidable c] (hs : Aside a s) (ht : Aside a t) : Aside a (if c then s else t) := by
  split <;> assumption

/-- What is done under a condition. -/
theorem ifThen {c : Prop} [Decidable c] (hs : Aside a s) (ht : Aside a s → Aside a t) : Aside a (if c then t else s) := .ite (ht hs) hs

/-- What is done unless a condition holds. -/
theorem ifElse {c : Prop} [Decidable c] (hs : Aside a s) (ht : Aside a s → Aside a t) : Aside a (if c then s else t) := .ite hs (ht hs)

theorem iteSnd {α : Type} {c : Prop} [Decidable c] {p q : α × State} (hp : Aside a p.2) (hq : Aside a q.2) :
    Aside a (if c then p else q).2 := by split <;> assumption

/-- The state of a pair that was taken apart. -/
theorem ofSnd {α : Type} {p : α × State} {x : α} (e : p = (x, t)) (h : Aside a p.2) : Aside a t := by subst e; exact h

theorem snd {α : Type} {x : α} (h : Aside a s) : Aside a (x, s).2 := h

theorem forAll {α : Type} {l : List α} {f : α → State → State} (h : Aside a s) (hf : ∀ x s, Aside a s → Aside a (f x s)) :
    Aside a (forAll l f s) :=
  forAll_keeps l f (Aside a) hf s h

/-! ## References and punts (R64, R285, R286) -/

theorem drawEntropy (h : Aside a s) : Aside a (drawEntropy s).2 := h.parts

theorem drawChoice (h : Aside a s) : Aside a (drawChoice s).2 := h.parts

theorem sendCtl {ch : Nat} {f : Flit} (h : Aside a s) : Aside a (sendCtl ch f s) := h.parts

theorem putPkt {n : Nat} {p : Packet} (h : Aside a s) : Aside a (putPkt n p s) := h.parts

theorem freeBillets {k n : Nat} (h : Aside a s) : Aside a (freeBillets k n s) := .wr (.mapF (.mapF h))

theorem freePacket {n : Nat} (h : Aside a s) : Aside a (freePacket n s) := by
  unfold Machine.freePacket
  split
  · exact h
  · exact .ite (.mapF (.mapF h.parts)) (.freeBillets (.mapF h.parts))

theorem refuseFree {ctr kind : Nat} {k : Key} (h : Aside a s) : Aside a (refuseFree ctr kind k s) := .raiseAt (.bump h)

theorem endOwner {n by_ : Nat} (h : Aside a s) : Aside a (endOwner n by_ s) := by
  unfold Machine.endOwner
  split
  · exact .refuseFree h
  · exact .ite (.refuseFree h) (.ite (.freePacket h) (.putPkt h))

theorem endLeaseOn {n : Nat} (h : Aside a s) : Aside a (endLeaseOn n s) := by
  unfold Machine.endLeaseOn
  split
  · exact .refuseFree h
  · exact .ite (.refuseFree h) (.ifThen (.putPkt h) fun h => .freePacket h)

theorem endRef {r : Ref} (h : Aside a s) : Aside a (endRef r s) := .ite (.endLeaseOn h) (.endOwner h)

theorem puntDrop {reason : Nat} (h : Aside a s) : Aside a (puntDrop reason s) := by
  unfold Machine.puntDrop cmdCount
  exact .bump h

theorem queuePunt {x : Punt} (h : Aside a s) : Aside a (queuePunt x s) := .ite (.puntDrop h) h.parts

/-! ## Queues and their pages (R294, R296, R301, R310 to R312, R321) -/

theorem takeLease {n : Nat} (h : Aside a s) : Aside a (takeLease n s).2 := by
  unfold Machine.takeLease
  split
  · exact h
  · split
    · exact .bump h
    · exact h

/-- A lease that is taken. -/
theorem ofLease {n : Nat} {u : State} (h : Aside a s) (ht : Machine.takeLease n s = (some t, u)) : Aside a t := by
  unfold Machine.takeLease at ht
  split at ht
  · cases ht
  · split at ht <;> cases ht
    exact .putPkt h

theorem setQ {q : Nat} {x : Queue} (h : Aside a s) : Aside a (setQ q x s) := h.parts

/-- A count of a queue's pages or of its spilled packets stands in the queue's own object. -/
theorem spillKey_ty {q : Nat} {k : Key} (h : spillKey q = some k) : k.ty ≠ .ecCtr := by
  unfold spillKey at h
  split at h <;> cases h
  exact nofun

theorem drawPage {pool : Nat} {x : Nat × State} (h : Aside a s) (ht : drawPage pool s = some x) : Aside a x.2 := by
  unfold Machine.drawPage at ht
  split at ht <;> cases ht
  exact .snd (.mapF (.mapF (.drawChoice h)))

theorem readyPage (h : Aside a s) : Aside a (readyPage s) := parts (.ite (.bump h) h)

theorem writePage {q : Nat} {flushed : Bool} (h : Aside a s) : Aside a (writePage q flushed s) := by
  unfold Machine.writePage
  dsimp only
  split
  · exact h
  · split
    · exact .bump h
    · next e =>
      split
      · next hk => exact .mapF (.readyPage (.setQ (.drawPage h e))) (spillKey_ty hk)
      · exact .readyPage (.setQ (.drawPage h e))

theorem writePages {fuel q : Nat} (h : Aside a s) : Aside a (writePages fuel q s) := by
  induction fuel generalizing s with
  | zero => exact h
  | succ fuel ih => exact .ite (.ite (ih (.writePage h)) (.writePage h)) h

theorem appendRef {q : Nat} {r : Ref} (h : Aside a s) : Aside a (appendRef q r s) := by
  unfold Machine.appendRef
  dsimp only
  refine .ite (.ifThen (.setQ h) fun h => .writePages h) ?_
  split
  · next hk => exact .ifThen (.setQ h) fun h => .writePages (.bump (.mapF (.wr (.setQ h) (spillKey_ty hk))))
  · exact .setQ h

theorem queueCount {q i n : Nat} (h : Aside a s) : Aside a (queueCount q i n s) := .ite (.bump h) (.bump h)

theorem admitPkt {q tc prec n : Nat} (h : Aside a s) : Aside a (admitPkt q tc prec n s).2 := by
  have ht : Aside a (touchAvg q s) := .setQ h
  exact .iteSnd ht (.iteSnd ht (.iteSnd ht (.iteSnd (.drawEntropy ht) ht)))

theorem dropAt {q reason : Nat} {r : Ref} (h : Aside a s) : Aside a (dropAt q reason r s) := .endRef (.bump (.queueCount (.queueCount h)))

theorem nodeKey_ty (lv n : Nat) : (nodeKey lv n).ty ≠ .ecCtr := by unfold nodeKey; split <;> exact nofun

theorem activate {lv n : Nat} (h : Aside a s) : Aside a (activate lv n s) := .ite h (parts (parts (.wr h (nodeKey_ty lv n))))

theorem enqueue {q : Nat} {r : Ref} (h : Aside a s) : Aside a (enqueue q r s) := by
  unfold Machine.enqueue
  refine .ifThen (.appendRef ?_) fun h => .forAll h fun _ _ h => .activate h
  split
  · exact .putPkt (.queueCount (.queueCount h))
  · exact .queueCount (.queueCount h)

theorem admitTo {q : Nat} {r : Ref} (h : Aside a s) : Aside a (admitTo q r s).2 := by
  unfold Machine.admitTo
  split
  · next e => exact .enqueue (.ofSnd e (.admitPkt h))
  · next e => exact .dropAt (.ofSnd e (.admitPkt h))

/-! ## Mirror copies (R510) -/

theorem mirTake {n : Nat} (h : Aside a s) (ht : mirTake n s = some t) : Aside a t := by
  unfold Machine.mirTake at ht
  split at ht
  · cases ht; exact h
  · dsimp only at ht
    split at ht <;> cases ht
    exact h.parts

theorem mirrorCopy {n pkt port : Nat} {egress : Bool} (h : Aside a s) : Aside a (mirrorCopy n pkt port egress s) := by
  unfold Machine.mirrorCopy
  dsimp only
  split
  · exact h
  · refine .ite h (.ite (.drawEntropy h) ?_)
    split
    · exact .bump (.drawEntropy h)
    · next e =>
      have hm := mirTake (.drawEntropy h) e
      split
      · next e => exact .bump (.ofSnd e (.takeLease hm))
      · next e => exact .bump (.admitTo (.ofLease hm e))

theorem mirrorAll {pkt port : Nat} {egress : Bool} {named : List Nat} (h : Aside a s) : Aside a (mirrorAll pkt port egress named s) :=
  .forAll h fun _ _ h => .mirrorCopy h

/-! ## Records of twin mode (R460 to R462) -/

theorem yokeSend {y : Nat} {load : YokeLoad} (h : Aside a s) : Aside a (yokeSend y load s) := h.parts

theorem yokeSpread {load : YokeLoad} (h : Aside a s) : Aside a (yokeSpread load s) := by
  unfold Machine.yokeSpread
  split
  · exact h
  · exact .yokeSend h
  · exact .yokeSend h

theorem sendRecords {fuel : Nat} {all : Bool} (h : Aside a s) : Aside a (sendRecords fuel all s) := by
  induction fuel generalizing s with
  | zero => exact h
  | succ fuel ih => exact .ite h (ih (.yokeSpread h.parts))

theorem twinRecord {r : YokeRec} (h : Aside a s) : Aside a (twinRecord r s) :=
  .ite (.ite (.raiseAt h) (.sendRecords (.bump h.parts))) h

theorem ingressRecord {p : Nat} {colour : Option Nat} {digest : Nat} (h : Aside a s) : Aside a (ingressRecord p colour digest s) :=
  .ite (.twinRecord h.parts) h

theorem expectRecord {p digest : Nat} {x : Option PassResult} (h : Aside a s) : Aside a (expectRecord p digest x s) := parts h.parts

end Aside

/-! ## The end of a pass (R84) -/

/-- What follows an ingress pass once its thread is IDLE. -/
theorem endIngress_aside (n : Nat) (x : Thread) (s : State) : Aside (endThr n s) (endIngress n x s) := by
  have h := Aside.refl (endThr n s)
  unfold endIngress
  dsimp only
  split
  · exact h
  · refine .ite (.endRef h) ?_
    have hm {p k port named} : Aside (endThr n s) (mirrorAll k port false named (putPkt k p (endThr n s))) := .mirrorAll (.putPkt h)
    have note {c d : Prop} [Decidable c] [Decidable d] {u port digest digest'} (hu : Aside (endThr n s) u) :
        Aside (endThr n s) (if c then expectRecord port digest none u else if d then ingressRecord port none digest' u else u) :=
      .ite (.expectRecord hu) (.ifThen hu fun hu => .ingressRecord hu)
    split
    · exact .sendCtl hm
    · exact note (.endRef hm)
    · exact .ite (note (.endRef hm)) (note (.endRef (.queuePunt hm)))
    · exact note (.endRef hm.parts)

/-- What follows an egress pass. -/
theorem endEgress_aside (n : Nat) (x : Thread) (s : State) : Aside (endThr n s) (endEgress n x s) := by
  have h := Aside.refl (endThr n s)
  unfold endEgress
  dsimp only
  split
  · exact h
  · refine .ite (.endRef h) ?_
    split
    · exact .endRef h
    · exact .endRef (.queuePunt h)
    · exact .ite (.endRef (.bump h)) (.ifElse h.parts fun h => .endRef h)

/-- A thread that ends is IDLE (R79). -/
theorem getThr_endThr (n : Nat) (s : State) : getThr (endThr n s) n = none := tabGet?_del_self ..

theorem endThr_rdWord (n : Nat) (s : State) (k : Key) : rdWord (endThr n s) k = rdWord s k := id rfl

/-- An aborted pass leaves its thread IDLE, and the counters of the clusters (R98). -/
theorem abortPass_aside (n : Nat) (x : Thread) (s : State) : Aside (endThr n s) (abortPass n x s) := .endRef (.refl _)

theorem Aside.getThr {a s : State} (h : Aside a s) (n : Nat) : getThr s n = getThr a n := by unfold Machine.getThr; rw [h.threads]

end Sys2Proof.Machine
end

section
/-! Microinstructions (R84 to R93, R577): what a word that issues leaves, row by row, and how its NEXT goes on. -/
namespace Sys2Proof.Machine

open Sys2Proof

variable {s : State} {t : Fin 16384} {x y : Thread} {m : Micro} {n : Nano}

/-! ## The issue of a word (R79, R88, R90, R93) -/

/-- The state in which an engine has noted that it issues a thread (R79). -/
def issuedBy (th : Nat) (s : State) : State := { s with eng := { s.eng with issued := tabPut s.eng.issued (th / 16) (th % 16) } }

/-- The state in which a word takes effect: its engine has issued it, and its dwell is counted (R79, R88). -/
def dwelt (th : Nat) (n : Nano) (s : State) : State := noteIssue (th / 512) n.dwell (ecCount (th / 512) 1 n.dwell (issuedBy th s))

theorem issue_of_issues (h : Safety.Issues s t x m n) (chk : MicroCheck) (hm : chk ≠ .parityMicro) (hn : chk ≠ .parityNano) :
    issue n.row t.val chk s = issueWord t.val m n chk x s := by
  have hmicro : ¬ mwCount (getCl s (t.val / 512)).image ≤ x.pc := Nat.not_le.2 h.micro
  have hnano : ¬ nwCount (getCl s (t.val / 512)).image ≤ m.nano := Nat.not_le.2 h.nano
  simp only [issue, h.thread, h.turn, h.word, hmicro, hnano, h.known, hm, hn, ne_eq, not_true_eq_false, false_and, Bool.false_eq_true, or_self,
    if_false, if_true]

/-- A word without an error of its registers takes effect after its dwell. -/
theorem issue_clean (h : Safety.Issues s t x m n) : issue n.row t.val .clean s = runWord t.val m n x (dwelt t.val n s) := by
  rw [issue_of_issues h .clean nofun nofun]
  simp only [issueWord, h.free, Bool.false_eq_true, if_false, dwelt, issuedBy]

/-- Noting an issue touches no object and no packet. -/
theorem noteIssue_rdWord (cl d : Nat) (s : State) (k : Key) : rdWord (noteIssue cl d s) k = rdWord s k := id rfl

theorem noteIssue_buf (cl d : Nat) (s : State) : (noteIssue cl d s).buf = s.buf := id rfl

theorem rdWord_issuedBy (th : Nat) (s : State) (k : Key) : rdWord (issuedBy th s) k = rdWord s k := id rfl

theorem rdWord_setThr (th : Nat) (y : Thread) (s : State) (k : Key) : rdWord (setThr th y s) k = rdWord s k := id rfl

theorem dwelt_rdWord (th : Nat) (n : Nano) (s : State) (k : Key) :
    rdWord (dwelt th n s) k = rdWord (bump .ecCtr (7 * (th / 512) + 1) 0 n.dwell (issuedBy th s)) k := noteIssue_rdWord ..

/-- A word's dwell changes no packet, so the operands are as they were. -/
theorem operandB_dwelt (th : Nat) (n' : Nano) (s : State) (x : Thread) (m : Micro) (n : Nano) :
    operandB (dwelt th n' s) x m n = operandB s x m n := by
  have hbuf : (dwelt th n' s).buf = s.buf := by
    rw [dwelt, noteIssue_buf, ecCount, bump_buf]
    rfl
  have hpkt : getPkt (dwelt th n' s) x.ref.pkt = getPkt s x.ref.pkt := by rw [getPkt, getPkt, hbuf]
  unfold operandB metaWord
  rw [hpkt]

/-- What the dwell leaves of the state. -/
theorem dwelt_parts (th : Nat) (n : Nano) (s : State) : dwelt th n s =
    { s with regs := (dwelt th n s).regs, out := (dwelt th n s).out,
             cmd := { s.cmd with sess := (dwelt th n s).cmd.sess, puntQ := (dwelt th n s).cmd.puntQ },
             cnt := { s.cnt with samples := (dwelt th n s).cnt.samples },
             eng := { s.eng with issueLog := (dwelt th n s).eng.issueLog, issued := tabPut s.eng.issued (th / 16) (th % 16) } } := by
  have htold := told_bump .ecCtr (7 * (th / 512) + 1) 0 n.dwell (issuedBy th s)
  unfold Safety.Told at htold
  unfold dwelt ecCount
  generalize bump _ _ _ _ _ = u at htold ⊢
  generalize u.regs = r at htold
  generalize u.cmd.sess = c at htold
  generalize u.cmd.puntQ = q at htold
  generalize u.cnt.samples = l at htold
  generalize u.out = o at htold
  subst htold
  rfl

/-- The thread of a word that has run, and its dwell, are all that it leaves. -/
theorem setThr_dwelt_ran : Safety.Ran s t n y (setThr t.val y (dwelt t.val n s)) := by
  refine ⟨tabGet?_put_self .., ?_, fun k hk => ?_, ?_⟩
  · rw [Safety.Counted, rdWord_setThr, dwelt_rdWord]
    exact counted_bump .ecCtr (7 * (t.val / 512) + 1) 0 n.dwell (issuedBy t.val s) (by decide)
  · rw [rdWord_setThr, dwelt_rdWord, kept_bump _ _ _ _ _ k hk, rdWord_issuedBy]
  · have hparts := dwelt_parts t.val n s
    generalize dwelt t.val n s = u at hparts ⊢
    generalize u.regs = r at hparts
    generalize u.cmd.sess = c at hparts
    generalize u.cmd.puntQ = q at hparts
    generalize u.cnt.samples = l at hparts
    generalize u.out = o at hparts
    generalize u.eng.issueLog = i at hparts
    subst hparts
    rfl

/-- A row whose word leaves its thread, and nothing else, has run. -/
theorem gives_ran {i : Instr} {row : MicroRow} (h : Safety.Issues s t x m n) (hrow : n.row = row)
    (hexec : exec i s = .next (issue row t.val .clean s)) (hrun : runWord t.val m n x (dwelt t.val n s) = setThr t.val y (dwelt t.val n s)) :
    Safety.Gives i s (Safety.Ran s t n y) :=
  ⟨setThr t.val y (dwelt t.val n s), by rw [hexec, ← hrow, issue_clean h, hrun], setThr_dwelt_ran⟩

/-! ## NEXT (R91, R92) -/

theorem ready_eq (h : x.hold = .ready) : { x with hold := .ready } = x := by rw [← h]

theorem proceed_go {th : Nat} (hx : x.hold = .ready) (h : takeNext m n x = .go y) : proceed th m n x s = setThr th y s := by
  simp only [proceed, ready_eq hx, h]

theorem proceed_seq {th : Nat} (hx : x.hold = .ready) (hn : n.next = 0) : proceed th m n x s = setThr th { x with pc := x.pc + 1 } s :=
  proceed_go hx (by simp only [takeNext, hn])

theorem proceed_finish {th : Nat} (hx : x.hold = .ready) (h : takeNext m n x = .finish) : proceed th m n x s = endPass th x s := by
  simp only [proceed, ready_eq hx, h]

theorem proceed_stackError {th : Nat} (hx : x.hold = .ready) (h : takeNext m n x = .stackError) :
    proceed th m n x s = machineCheck th x 3 5 (ctxKey th) s := by
  simp only [proceed, ready_eq hx, h]

/-! ## ALU (R86, R577) -/

/-- What an ALU word leaves of its thread, by the result and the carry of its operation. -/
theorem runAlu_eq {op : Nat} {f : Word → Word → Word} {c : Word → Word → Bool} (halu : ∀ a b, alu op a b = (f a b, c a b)) (hop : n.alu = op) :
    runAlu s m n x = { x with
      g := if decide (op ≠ 8) then x.g.set m.rd (f (x.reg m.ra) (operandB s x m n)) else x.g
      z := if n.setf then f (x.reg m.ra) (operandB s x m n) == 0 else x.z
      c := if n.setf then c (x.reg m.ra) (operandB s x m n) else x.c
      n := if n.setf then (f (x.reg m.ra) (operandB s x m n)).msb else x.n } := by
  simp only [runAlu, hop, halu, Thread.setReg, decide_not, Bool.not_eq_eq_eq_not, Bool.not_true, decide_eq_false_iff_not]
  by_cases h8 : op = 8 <;> cases n.setf <;> simp [h8]

/-- An ALU row: its operation, its carry, and whether it writes RD. -/
theorem aluRow {i : Fin 16384 → MicroCheck → Instr} {op : Nat} {row : MicroRow} {f : Word → Word → Word} {c : Word → Word → Bool} {writes : Bool}
    (hexec : ∀ t s, exec (i t .clean) s = .next (issue row t.val .clean s)) (hrow : aluRows.getD op .nop = row)
    (halu : ∀ a b, alu op a b = (f a b, c a b)) (hw : decide (op ≠ 8) = writes) (s : State) (t : Fin 16384) (x : Thread) (m : Micro) (n : Nano)
    (h : Safety.Issues s t x m n) (hn : n.next = 0) (hcls : n.cls = 0) (hop : n.alu = op) :
    Safety.Gives (i t .clean) s (Safety.Ran s t n
      { x with pc := x.pc + 1
               g := if writes then x.g.set m.rd (f (x.reg m.ra) (operandB s x m n)) else x.g
               z := if n.setf then f (x.reg m.ra) (operandB s x m n) == 0 else x.z
               c := if n.setf then c (x.reg m.ra) (operandB s x m n) else x.c
               n := if n.setf then (f (x.reg m.ra) (operandB s x m n)).msb else x.n }) := by
  refine gives_ran h (by simp only [Nano.row, hcls, hop, hrow]) (hexec t s) ?_
  subst hw
  simp only [runWord, hcls]
  rw [runAlu_eq halu hop, operandB_dwelt, proceed_seq (by exact h.ready) hn]

/-! ## FIELD and RESULT (R81, R84, R86) -/

/-- A word whose row runs on the thread alone and then proceeds to the next address. -/
theorem gives_seq {i : Instr} {row : MicroRow} (h : Safety.Issues s t x m n) (hn : n.next = 0) (hrow : n.row = row)
    (hexec : exec i s = .next (issue row t.val .clean s)) (hy : y.hold = x.hold)
    (hrun : runWord t.val m n x (dwelt t.val n s) = proceed t.val m n y (dwelt t.val n s)) :
    Safety.Gives i s (Safety.Ran s t n { y with pc := y.pc + 1 }) :=
  gives_ran h hrow hexec (hrun.trans (proceed_seq (hy.trans h.ready) hn))

theorem runField_extract (hdir : n.fdir = false) : runField m n x =
    { x with g := x.g.set m.rd (BitVec.ofNat 64 (getField x.win x.valid (fieldOff n x) n.fwid))
             o := decide (8 * x.valid < fieldOff n x + n.fwid) } := by
  simp [runField, hdir, Thread.setReg]

theorem runField_insert (hdir : n.fdir = true) : runField m n x =
    { x with win := putField x.win x.valid (fieldOff n x) n.fwid ((x.reg m.ra).toNat % 2 ^ n.fwid)
             o := decide (8 * x.valid < fieldOff n x + n.fwid) } := by
  simp [runField, hdir]

/-- A FIELD row: what its word leaves of the thread. -/
theorem fieldRow {i : Instr} {row : MicroRow} (h : Safety.Issues s t x m n) (hn : n.next = 0) (hcls : n.cls = 1)
    (hrow : (if n.fdir then MicroRow.fieldInsert else .fieldExtract) = row) (hexec : exec i s = .next (issue row t.val .clean s))
    (hrun : runField m n x = y) (hy : y.hold = x.hold) : Safety.Gives i s (Safety.Ran s t n { y with pc := y.pc + 1 }) :=
  gives_seq h hn (by simp only [Nano.row, hcls, hrow]) hexec hy (by simp only [runWord, hcls, hrun])

/-- A RESULT row: what its word leaves of the thread. -/
theorem resultRow {i : Instr} {row : MicroRow} {op : Nat} (h : Safety.Issues s t x m n) (hn : n.next = 0) (hcls : n.cls = 4)
    (hres : n.res = op) (hrow : resRows.getD op .nop = row) (hexec : exec i s = .next (issue row t.val .clean s))
    (hrun : runResult m n x = y) (hy : y.hold = x.hold) : Safety.Gives i s (Safety.Ran s t n { y with pc := y.pc + 1 }) :=
  gives_seq h hn (by simp only [Nano.row, hcls, hres, hrow]) hexec hy (by simp only [runWord, hcls, hrun])

/-- A NOP row runs on nothing. -/
theorem nop_runWord {th : Nat} (hcls : n.cls = 5) : runWord th m n x s = proceed th m n x s := by simp only [runWord, hcls]

theorem row_nop (hcls : n.cls = 5) : n.row = .nop := by simp only [Nano.row, hcls]

/-- Settles O19: each row by what its word leaves of the thread. -/
theorem fieldAndResultRows : Obligations.FieldAndResultRows := by
  unfold Obligations.FieldAndResultRows
  intro s t x m n h hn
  refine ⟨fun hc hd => ?_, fun hc hd => ?_, fun hc hr hx hdest => ?_, fun hc hr hx => ?_, fun hc hr hx hbit => ?_, fun hc hr => ?_, fun hc hr => ?_,
    fun hc hr hx => ?_, fun hc hr hx => ?_, fun hc hr => ?_, fun hc => ?_⟩
  · exact fieldRow h hn hc (by simp [hd]) rfl (runField_extract hd) rfl
  · exact fieldRow h hn hc (by simp [hd]) rfl (runField_insert hd) rfl
  · exact resultRow h hn hc hr rfl rfl (y := { x with outcome := some (.dest (x.reg m.ra).toNat) }) (by simp [runResult, hr, hx, hdest]) rfl
  · exact resultRow h hn hc hr rfl rfl (y := x) (by simp [runResult, hr, hx]) rfl
  · exact resultRow h hn hc hr rfl rfl (y := { x with meter := some ((x.reg m.ra).toNat % 2 ^ 20, (x.reg m.ra).toNat / 2 ^ 20 % 4) })
      (by simp [runResult, hr, hx, hbit, bitsAt]) rfl
  · exact resultRow h hn hc hr rfl rfl (y := { x with outcome := some (.drop (m.imm % 256)) }) (by simp [runResult, hr]) rfl
  · exact resultRow h hn hc hr rfl rfl (y := { x with outcome := some (.punt (m.imm % 256)) }) (by simp [runResult, hr]) rfl
  · exact resultRow h hn hc hr rfl rfl (y := { x with mirrors := m.imm % 16 :: x.mirrors }) (by simp [runResult, hr, hx]) rfl
  · exact resultRow h hn hc hr rfl rfl (y := { x with hash := (x.reg m.ra).toNat % 2 ^ 32 }) (by simp [runResult, hr, hx]) rfl
  · exact resultRow h hn hc hr rfl rfl (y := { x with words := x.words.set (m.imm % 8) (x.reg m.ra) }) (by simp [runResult, hr]) rfl
  · exact gives_seq h hn (row_nop hc) rfl rfl (nop_runWord hc)

/-! ## The end of a pass and machine checks, counted (R84, R95, R98, R118) -/

/-- Counting from a state whose counter reads the same. -/
theorem counted_of_eq {ty : ObjTy} {i j k : Nat} {s s' u : State} (h : Safety.Counted ty i j k s' u)
    (hs : rdWord s' (Safety.counter ty i j) = rdWord s (Safety.counter ty i j)) : Safety.Counted ty i j k s u := by
  rw [Safety.Counted, ← hs]
  exact h

/-- A count of a cluster leaves its other counters. -/
theorem ecCount_ne {cl i j : Nat} (hij : j ≠ i) (k : Nat) (s : State) :
    rdWord (ecCount cl i k s) (Safety.counter .ecCtr (7 * cl + j)) = rdWord s (Safety.counter .ecCtr (7 * cl + j)) :=
  rdWord_bump_counter _ _ _ _ _ _ _ (counter_ne .ecCtr rfl (by omega)) (by decide)

theorem ecCount_counted (cl i k : Nat) (s : State) : Safety.Counted .ecCtr (7 * cl + i) 0 k s (ecCount cl i k s) :=
  counted_bump _ _ _ _ _ (by decide)

theorem getThr_ecCount (cl i k : Nat) (s : State) (th : Nat) : getThr (ecCount cl i k s) th = getThr s th := by
  rw [getThr, ecCount, bump_eng, getThr]

/-- The dwell of a word counts on its own counter only. -/
theorem dwelt_counter {j : Nat} (hj : j ≠ 1) (th : Nat) (n : Nano) (s : State) :
    rdWord (dwelt th n s) (Safety.counter .ecCtr (7 * (th / 512) + j)) = rdWord s (Safety.counter .ecCtr (7 * (th / 512) + j)) :=
  (ecCount_ne hj n.dwell (issuedBy th s) :)

theorem abortPass_counter (th : Nat) (x : Thread) (s : State) {k : Key} (hk : k.ty = .ecCtr) : rdWord (abortPass th x s) k = rdWord s k :=
  ((abortPass_aside th x s).counters k hk).trans (endThr_rdWord th s k)

theorem getThr_abortPass (th : Nat) (x : Thread) (s : State) : getThr (abortPass th x s) th = none :=
  ((abortPass_aside th x s).getThr th).trans (getThr_endThr th s)

/-- A machine check counts on its own counter only. -/
theorem machineCheck_counter {j : Nat} (hj : j ≠ 2) (th : Nat) (x : Thread) (inst kind : Nat) (k : Key) (s : State) :
    rdWord (machineCheck th x inst kind k s) (Safety.counter .ecCtr (7 * (th / 512) + j)) =
      rdWord s (Safety.counter .ecCtr (7 * (th / 512) + j)) := by
  rw [machineCheck, kept_raiseAt _ _ _ _ _ _ (by simp), ecCount_ne hj, abortPass_counter _ _ _ rfl]

/-- A machine check ends the pass and is counted (R98, R118). -/
theorem machineCheck_checked (th : Nat) (x : Thread) (inst kind : Nat) (k : Key) (s : State) :
    getThr (machineCheck th x inst kind k s) th = none ∧
      Safety.Counted .ecCtr (7 * (th / 512) + 2) 0 1 s (machineCheck th x inst kind k s) := by
  refine ⟨?_, ?_⟩
  · rw [machineCheck, getThr, raiseAt_eng]
    exact (getThr_ecCount ..).trans (getThr_abortPass th x s)
  · have hraised : rdWord (machineCheck th x inst kind k s) (Safety.counter .ecCtr (7 * (th / 512) + 2)) =
        rdWord (ecCount (th / 512) 2 1 (abortPass th x s)) (Safety.counter .ecCtr (7 * (th / 512) + 2)) := kept_raiseAt _ _ _ _ _ _ (by simp)
    rw [Safety.Counted, hraised]
    exact counted_from (by decide) (abortPass_counter _ _ _ rfl)

/-- END makes the thread IDLE and counts a pass (R84, R118). -/
theorem endPass_ended (th : Nat) (x : Thread) (s : State) :
    getThr (endPass th x s) th = none ∧ Safety.Counted .ecCtr (7 * (th / 512)) 0 1 s (endPass th x s) := by
  have haside : Aside (endThr th (ecCount (th / 512) 0 1 s)) (endPass th x s) := by
    unfold endPass
    dsimp only
    split
    · exact endEgress_aside ..
    · exact endIngress_aside ..
  refine ⟨(haside.getThr th).trans (getThr_endThr ..), ?_⟩
  rw [Safety.Counted, haside.counters _ rfl, endThr_rdWord]
  exact ecCount_counted (th / 512) 0 1 s

/-! ## Sequencing (R91, R92) -/

/-- A NOP runs its NEXT. -/
theorem gives_nop {P : State → Prop} (h : Safety.Issues s t x m n) (hcls : n.cls = 5) (hp : P (proceed t.val m n x (dwelt t.val n s))) :
    Safety.Gives (.nop t .clean) s P := by
  refine ⟨proceed t.val m n x (dwelt t.val n s), ?_, hp⟩
  have hexec : exec (.nop t .clean) s = .next (issue .nop t.val .clean s) := rfl
  rw [hexec, ← row_nop hcls, issue_clean h, nop_runWord hcls]

/-- A NOP whose NEXT goes on leaves the thread there. -/
theorem gives_nop_go (h : Safety.Issues s t x m n) (hcls : n.cls = 5) (hnext : takeNext m n x = .go y) :
    Safety.Gives (.nop t .clean) s (Safety.Ran s t n y) :=
  gives_nop h hcls (proceed_go h.ready hnext ▸ setThr_dwelt_ran)

/-- Settles O20: each NEXT by what `takeNext` answers. -/
theorem sequencing : Obligations.Sequencing := by
  unfold Obligations.Sequencing
  intro s t x m n h hc
  refine ⟨fun hn => ?_, fun hn => ?_, fun hn => ?_, fun hn hroom => ?_, fun a l hn hstack => ?_, fun hn => ?_, fun hn => ?_, fun herr => ?_⟩
  · exact gives_nop_go h hc (by simp only [takeNext, hn])
  · exact gives_nop_go h hc (by simp only [takeNext, hn])
  · exact gives_nop_go h hc (by simp only [takeNext, hn])
  · exact gives_nop_go h hc (by simp only [takeNext, hn, if_neg (Nat.not_le.2 hroom)])
  · exact gives_nop_go h hc (by simp only [takeNext, hn, hstack])
  · exact gives_nop_go h hc (by simp only [takeNext, hn])
  · refine gives_nop h hc ?_
    rw [proceed_finish h.ready (by simp only [takeNext, hn])]
    obtain ⟨hidle, hcount⟩ := endPass_ended t.val x (dwelt t.val n s)
    exact ⟨hidle, counted_of_eq hcount (dwelt_counter (j := 0) (by decide) t.val n s)⟩
  · have hnext : takeNext m n x = .stackError := by
      rcases herr with ⟨hn, hfull⟩ | ⟨hn, hempty⟩
      · simp only [takeNext, hn, if_pos hfull]
      · simp only [takeNext, hn, hempty]
    refine gives_nop h hc ?_
    rw [proceed_stackError h.ready hnext]
    obtain ⟨hidle, hcount⟩ := machineCheck_checked t.val x 3 5 (ctxKey t.val) (dwelt t.val n s)
    exact ⟨hidle, counted_of_eq hcount (dwelt_counter (by decide) t.val n s)⟩

end Sys2Proof.Machine

namespace Sys2Proof

open Sys2Proof.Machine

/-- Settles O18: each row by its operation in `alu`. -/
theorem aluRows : Obligations.AluRows := by
  unfold Obligations.AluRows
  exact ⟨aluRow (row := .add) (fun _ _ => rfl) rfl (fun _ _ => rfl) rfl, aluRow (row := .sub) (fun _ _ => rfl) rfl (fun _ _ => rfl) rfl,
    aluRow (row := .and) (fun _ _ => rfl) rfl (fun _ _ => rfl) rfl, aluRow (row := .or) (fun _ _ => rfl) rfl (fun _ _ => rfl) rfl,
    aluRow (row := .xor) (fun _ _ => rfl) rfl (fun _ _ => rfl) rfl, aluRow (row := .shl) (fun _ _ => rfl) rfl (fun _ _ => rfl) rfl,
    aluRow (row := .shr) (fun _ _ => rfl) rfl (fun _ _ => rfl) rfl, aluRow (row := .movB) (fun _ _ => rfl) rfl (fun _ _ => rfl) rfl,
    aluRow (row := .cmp) (fun _ _ => rfl) rfl (fun _ _ => rfl) rfl, aluRow (row := .min) (fun _ _ => rfl) rfl (fun _ _ => rfl) rfl,
    aluRow (row := .max) (fun _ _ => rfl) rfl (fun _ _ => rfl) rfl, aluRow (row := .hash) (fun _ _ => rfl) rfl (fun _ _ => rfl) rfl⟩

end Sys2Proof
end

section
/-! The engine clusters (R98, R103, R110, R112): what the small operations over a cluster change, machine checks and watchdogs of its threads, and
the SIGNED sweep. -/
namespace Sys2Proof.Machine

open Sys2Proof

/-! ## A cluster and its objects -/

@[simp] theorem getCl_setCl_self (s : State) (cl : Nat) (x : Cluster) : getCl (setCl cl x s) cl = x := tabGet_set_self ..

@[simp] theorem getCl_wr (s : State) (k : Key) (f : Fld) (v cl : Nat) : getCl (wr s k f v) cl = getCl s cl := id rfl

@[simp] theorem getCl_raiseAt (blk inst kind : Nat) (k : Key) (s : State) (cl : Nat) : getCl (raiseAt blk inst kind k s) cl = getCl s cl := by
  rw [getCl, raiseAt_eng, getCl]

@[simp] theorem rdWord_setCl (s : State) (cl : Nat) (x : Cluster) (k : Key) : rdWord (setCl cl x s) k = rdWord s k := id rfl

@[simp] theorem rd_setCl (s : State) (cl : Nat) (x : Cluster) (k : Key) (f : Fld) : rd (setCl cl x s) k f = rd s k f := id rfl

@[simp] theorem clState_setCl (s : State) (cl : Nat) (x : Cluster) (c : Nat) : clState (setCl cl x s) c = clState s c := id rfl

theorem getCl_congr {s t : State} (h : t.eng = s.eng) (cl : Nat) : getCl t cl = getCl s cl := by rw [getCl, getCl, h]

theorem clState_congr {s t : State} {cl : Nat} (h : rdWord t (clKey cl) = rdWord s (clKey cl)) : clState t cl = clState s cl := by
  rw [clState, clState, rd, rd, h]

/-- A cluster whose STATE is written reads it. -/
theorem clState_wr (s : State) (cl v : Nat) (hv : v < 256) : clState (wr s (clKey cl) ClCtl.STATE v) cl = v :=
  (rd_wr_self ..).trans (Nat.mod_eq_of_lt hv)

@[simp] theorem clState_wr_other (s : State) (cl : Nat) {f : Fld} (v : Nat) (h : f.apart ClCtl.STATE = true) :
    clState (wr s (clKey cl) f v) cl = clState s cl := rd_wr_apart _ _ _ h

/-- How far a reload is stands with its cluster. -/
theorem getCl_setReload (cl : Nat) (ph : ReloadPhase) (s : State) :
    getCl (setReload cl ph s) cl = { getCl s cl with reload := (getCl s cl).reload.map fun r => { r with phase := ph } } := getCl_setCl_self ..

/-! ## Machine checks and watchdogs (R90, R95, R97, R98, R112) -/

variable {s : State} {t : Fin 16384} {x : Thread} {m : Micro} {n : Nano}

/-- A word that fails the checks of R90 or R97 is a machine check. -/
theorem issue_checked {row : MicroRow} {chk : MicroCheck} (hx : getThr s t.val = some x) (hturn : nextReady s (t.val / 16) = some t.val)
    (hbad : mwCount (getCl s (t.val / 512)).image ≤ x.pc ∨ nwCount (getCl s (t.val / 512)).image ≤ (wordAt s t.val x).1.nano ∨
      (wordAt s t.val x).2.refused = true ∨ (chk = .parityMicro ∧ parityMode s (t.val / 512) = true) ∨
      (chk = .parityNano ∧ parityMode s (t.val / 512) = true)) :
    ∃ inst kind k, issue row t.val chk s = machineCheck t.val x inst kind k s := by
  simp only [issue, hx, hturn, ne_eq, not_true_eq_false, if_false]
  split
  · exact ⟨_, _, _, rfl⟩
  · next hpc =>
    split
    · exact ⟨_, _, _, rfl⟩
    · next hmicro =>
      split
      · exact ⟨_, _, _, rfl⟩
      · next hnano =>
        rcases hbad with h | h | h | h | h
        · exact absurd h hpc
        · exact ⟨_, _, _, if_pos (.inl h)⟩
        · exact ⟨_, _, _, if_pos (.inr h)⟩
        · exact absurd h hmicro
        · exact absurd h hnano

/-- An uncorrectable error of its registers checks a thread after the dwell of its word. -/
theorem issue_regUncorrectable (h : Safety.Issues s t x m n) :
    issue n.row t.val .regUncorrectable s = machineCheck t.val x 2 3 (ctxKey t.val) (dwelt t.val n s) := by
  rw [issue_of_issues h .regUncorrectable nofun nofun]
  simp only [issueWord, h.free, Bool.false_eq_true, if_false, dwelt, issuedBy]

theorem execPassWatchdog_draining (hx : getThr s t.val = some x) (hcl : clState s (t.val / 512) = csDraining) :
    execPassWatchdog t s = .next (ecCount (t.val / 512) 4 1 (abortPass t.val x s)) := by
  simp only [execPassWatchdog, hx, if_pos hcl]

theorem execPassWatchdog_checked (hx : getThr s t.val = some x) (hcl : clState s (t.val / 512) ≠ csDraining) :
    execPassWatchdog t s = .next (machineCheck t.val x 3 4 (ctxKey t.val) (ecCount (t.val / 512) 3 1 s)) := by
  simp only [execPassWatchdog, hx, if_neg hcl]

/-! ## The SIGNED sweep (R99, R103) -/

/-- A detection at a threshold of one, under no shadow, takes its actions (R481, R487). -/
theorem raiseA_actions {r : Report} (hblk : r.blk ≠ 1) (hshadow : shadowOver s r.blk = none) (hreact : r.react = true)
    (hthresh : rd s (reactKey r.blk r.inst r.kind) Reaction.THRESH ≤ 1) : (raiseA r s).2 = actionsOf s r := by
  have hreport : (report r s).2 = actionsOf s r := by
    have hcount : ¬ countedIn s (reactKey r.blk r.inst r.kind) + 1 < rd s (reactKey r.blk r.inst r.kind) Reaction.THRESH := by omega
    simp only [report, noteCore, if_neg hblk, hshadow, hreact, Bool.not_true, Bool.false_eq_true, if_false, if_neg hcount]
    split <;> rfl
  unfold raiseA
  dsimp only
  split <;> exact hreport

/-- Bit 1 of the actions of a digest mismatch is LOCAL of its reaction set (R480). -/
theorem actionsOf_local {cl : Fin 32} {i : Fin 2} {a : ObjAddr}
    (h : rd s (reactKey (0x10 + cl.val) i.val 6) Reaction.LOCAL = 1) :
    actionsOf s { blk := 0x10 + cl.val, inst := i.val, kind := 6, addr := a } / 2 % 2 = 1 := by
  have hlocal : hasLocal (0x10 + cl.val) i.val 6 = true := by
    have := cl.isLt
    have := i.isLt
    exact decide_eq_true ⟨by omega, by omega, by omega, rfl⟩
  have hsafe : rd s (reactKey (0x10 + cl.val) i.val 6) Reaction.SAFE < 2 := rd_lt ..
  simp only [actionsOf, hlocal, if_true, h]
  omega

/-- The reload that a digest mismatch asks for (R103). -/
def sweepOf (cl : Nat) (s : State) : Reload :=
  { slot := rd s (clVer cl) ClVersion.SLOT, protect := rd s (clKey cl) ClCtl.PROTECT, since := ivl s, held := none, sweep := true, phase := .queued }

/-- A cluster in service without a reload goes out of dispatch and queues for one (R103). -/
theorem sweepReload_out {cl : Nat} (hservice : inService s cl = true) (hnone : (getCl s cl).reload = none) :
    clState (sweepReload cl s) cl = csDraining ∧ cl ∈ (sweepReload cl s).eng.reloads ∧
      (getCl (sweepReload cl s) cl).reload = some { sweepOf cl s with phase := .out } := by
  have hprogress : inProgress s cl = false := by simp only [inProgress, hnone]
  let u : State := setCl cl { getCl s cl with reload := some (sweepOf cl s), behind := none } s
  let v : State := { u with eng := { u.eng with reloads := u.eng.reloads ++ [cl] } }
  have hv : getCl v cl = { getCl s cl with reload := some (sweepOf cl s), behind := none } := getCl_setCl_self s cl _
  have hstay : inService v cl = true := by
    have himage : hasImage v cl = hasImage s cl := by simp only [hasImage, hv]
    have hstate : clState v cl = clState s cl := rfl
    simpa only [inService, himage, hstate] using hservice
  have hout : sweepReload cl s = takeOut cl v := by
    unfold sweepReload
    simp only [hprogress, hnone, Option.any_none, Bool.false_eq_true, or_self, if_false, Option.isSome_none]
    exact if_pos hstay
  rw [hout]
  refine ⟨clState_wr _ _ _ (by decide), ?_, ?_⟩
  · show cl ∈ s.eng.reloads ++ [cl]
    simp
  · rw [takeOut, getCl_wr, getCl_setReload, hv]
    rfl

/-- Settles O22, clause by clause: the checks of a word, of the registers, of a pass's time, and of the stores. -/
theorem machineChecks : Obligations.MachineChecks := by
  unfold Obligations.MachineChecks
  refine ⟨fun s t x chk hx hturn hbad => ?_, fun s t x m n h hcls halu => ?_, fun s t x hx hcl => ?_, fun s t x hx hcl => ?_, fun s cl hp => ?_,
    fun s cl i hp himage hservice hnone hshadow hthresh hlocal => ?_⟩
  · obtain ⟨inst, kind, k, hcheck⟩ := issue_checked (row := .add) hx hturn hbad
    exact ⟨_, congrArg Host.Outcome.next hcheck, machineCheck_checked ..⟩
  · have hrow : n.row = .add := by simp only [Nano.row, hcls, halu, aluRows, List.getD_cons_zero]
    obtain ⟨hidle, hcount⟩ := machineCheck_checked t.val x 2 3 (ctxKey t.val) (dwelt t.val n s)
    exact ⟨_, congrArg Host.Outcome.next (hrow ▸ issue_regUncorrectable h), hidle, counted_of_eq hcount (dwelt_counter (by decide) t.val n s)⟩
  · exact ⟨_, execPassWatchdog_draining hx hcl, (getThr_ecCount ..).trans (getThr_abortPass ..),
      counted_of_eq (ecCount_counted ..) (abortPass_counter _ _ _ rfl)⟩
  · obtain ⟨hidle, hcount⟩ := machineCheck_checked t.val x 3 4 (ctxKey t.val) (ecCount (t.val / 512) 3 1 s)
    refine ⟨_, execPassWatchdog_checked hx hcl, hidle, ?_, counted_of_eq hcount (ecCount_ne (by decide) 1 s)⟩
    rw [Safety.Counted, machineCheck_counter (by decide)]
    exact ecCount_counted ..
  · exact ⟨s, congrArg Host.Outcome.next (if_pos (by simp [hp])), rfl⟩
  · let k : Key := if i = 0 then obj .microView (cl.val * 16384) else obj .nanoView (cl.val * 4096)
    let r : Report := { blk := 0x10 + cl.val, inst := i.val, kind := 6, addr := addrOf k }
    have hact : (raiseA r s).2 / 2 % 2 = 1 := by
      rw [raiseA_actions (r := r) (by simp only [r]; omega) hshadow rfl hthresh.le]
      exact actionsOf_local hlocal
    have heng : (raiseA r s).1.eng = s.eng := (rest_inj (raiseA_rest r s)).2.2.2.2.1
    have hcl : getCl (raiseA r s).1 cl.val = getCl s cl.val := getCl_congr heng cl.val
    have hkept (j : Key) (hj : j.ty ∉ raiseTypes) : rdWord (raiseA r s).1 j = rdWord s j := raiseA_regs r s j hj
    have hstate : clState (raiseA r s).1 cl.val = clState s cl.val := clState_congr (hkept _ (show ObjTy.clCtl ∉ raiseTypes by decide))
    have hin : inService (raiseA r s).1 cl.val = true := by
      simpa only [inService, hasImage, hcl, hstate] using hservice
    obtain ⟨hdrain, hqueued, hreload⟩ := sweepReload_out hin (by rw [hcl, hnone])
    refine ⟨sweepReload cl.val (raiseA r s).1, ?_, hdrain, hqueued, _, hreload, rfl, rfl, ?_⟩
    · show execSignedSweep cl (some i) s = _
      simp only [execSignedSweep, hp, himage, Bool.not_true, Bool.false_eq_true, or_self, if_false]
      exact congrArg Host.Outcome.next (if_pos hact)
    · show rd (raiseA r s).1 (clVer cl.val) ClVersion.SLOT = _
      rw [rd, rd, hkept _ (show ObjTy.clVersion ∉ raiseTypes by decide)]

end Sys2Proof.Machine
end

section
/-! Writes of objects whose effect goes beyond their fields (R69, R70): an accepted write takes effect and is answered at once. -/
namespace Sys2Proof.Machine

open Sys2Proof

/-- A write of one object that no check and no state stands against takes effect (R69). -/
theorem writeObjects_of_write {s : State} {c : Hdr} {w : Waiting} {k : Key} {x : Nat} (h : Safety.Write s c w k x) (hr : readOnly k = false)
    (ho : k.ty ≠ .opKey) (hg : k.ty ≠ .gateCtl) : writeObjects c [(k, x)] s = replyWrite c k (applyWrite k x s) := by
  have hform : formFault s [(k, x)] = none := by simp [formFault, hr, h.fields, h.range]
  have hstate : firstState [(k, x)] s = none := by simp [firstState, h.state]
  simp [writeObjects, hform, hstate, ho, hg, forAll]

/-- An OBJ_WRITE whose data are those of one object is the write of that object (R68, R69). -/
theorem writeAt_of_write {s : State} {c : Hdr} {w : Waiting} {k : Key} {a : ObjAddr} {data : Bytes} (h : Safety.Write s c w k (ofBytes data))
    (hlen : data.length = sizeOf k) (hcov : covered a (sizeOf k) = some [k]) (hblk : a.toNat / 2 ^ 40 = blockOf k) (hr : readOnly k = false)
    (ho : k.ty ≠ .opKey) (hg : k.ty ≠ .gateCtl) (hs : k.ty ≠ .saSlot) (hc : k.ty ≠ .cakSlot) :
    writeAt c a 0 data.length data s = replyWrite c k (applyWrite k (ofBytes data) s) := by
  have hplen := h.turn.length
  have hacc : writeAccess s c.sid.val 0x0202 (some [k]) = accConfig := by simp [writeAccess, ho, hs, hc]
  simp only [writeAt, hlen, hcov, hacc, hblk]
  rw [show ((0 : BitVec 16) == 0) = true from rfl, checked_pass (w := w) (by rw [hplen]; exact h.turn) (by simp [hplen])]
  simpa [splitData, ← hlen] using writeObjects_of_write h hr ho hg

/-- An effect that leaves the command and its session's stream is followed by the reply. -/
theorem replyWrite_answered {s u : State} {c : Hdr} {w : Waiting} {k : Key} {x : Nat} (h : Safety.Write s c w k x)
    (hcmd : u.cmd = s.cmd) (hsess : ∀ n, rdWord u (sessKey n) = rdWord s (sessKey n)) : Safety.Answered [] u (replyWrite c k u) w [] := by
  have hwait : u.cmd.waiting = [w] := hcmd ▸ h.turn.only
  have hroom : rd u (sessKey c.sid.val) SessStatus.NEXT_SEQ + fragments (24 + 0) < 2 ^ 64 := by
    rw [rd, hsess]
    exact Turn.stream_room h.turn (n := 0) (by decide)
  rw [replyWrite_done k hwait h.turn.mine h.turn.opcode]
  exact ok_answered hwait h.turn.mine h.turn.queued (by rw [h.turn.opcode]; decide) hroom

/-- What the command that a reply answers leaves behind is what the reply found, but for its session's status. -/
theorem Answered.kept {l : List ObjTy} {s u t : State} {w : Waiting} {r : Bytes} (h : Safety.Answered [] u t w r) (hu : Safety.RegsKept l s u) :
    Safety.RegsKept (.sessStatus :: l) s t := by
  obtain ⟨-, hkept, -⟩ := h
  intro k hk
  simp only [List.mem_cons, not_or] at hk
  exact (hkept k (by simpa using hk.1)).trans (hu k hk.2)

theorem Answered.rdWord {u t : State} {w : Waiting} {r : Bytes} (h : Safety.Answered [] u t w r) {k : Key} (hk : k.ty ≠ .sessStatus) :
    Machine.rdWord t k = Machine.rdWord u k := h.2.1 k (by simpa using hk)

theorem Answered.rd {u t : State} {w : Waiting} {r : Bytes} (h : Safety.Answered [] u t w r) {k : Key} (hk : k.ty ≠ .sessStatus) (f : Fld) :
    Machine.rd t k f = Machine.rd u k f := congrArg (getF · f) (Answered.rdWord h hk)

theorem Answered.eng {u t : State} {w : Waiting} {r : Bytes} (h : Safety.Answered [] u t w r) : t.eng = u.eng := by
  obtain ⟨-, -, ht⟩ := h
  rw [ht]

/-- A stored object keeps a field that a write does not reach. -/
theorem rd_storeObj_ro {s : State} {k : Key} {x : Nat} {d : FieldDesc} (hd : d ∈ fieldsOf k.ty) (ha : d.acc = .ro) :
    rd (storeObj k x s) k d.f = rd s k d.f := (storeObj_holds k x s d hd).2 ha

/-- A stored object holds a written field. -/
theorem rd_storeObj_rw {s : State} {k : Key} {x : Nat} {d : FieldDesc} (hd : d ∈ fieldsOf k.ty) (ha : d.acc = .rw) :
    rd (storeObj k x s) k d.f = getF x d.f := (storeObj_holds k x s d hd).1 (.inl ha)

end Sys2Proof.Machine
end

section
/-! Image slots (R101, R102): the writes of a slot, its erasure, and the verdict of its checks. -/
namespace Sys2Proof.Machine

open Sys2Proof

/-! ## A slot's state -/

theorem setSlot_state {k st off : Nat} {s : State} (hst : st < 256) : rd (setSlot k st off s) (slotKey k) ImgSlot.SLOT_STATE = st := by
  unfold setSlot
  rw [rd_wr_apart _ _ _ (by decide), rd_wr_self]
  exact Nat.mod_eq_of_lt hst

theorem setSlot_offset (k st off : Nat) (s : State) :
    rd (setSlot k st off s) (slotKey k) ImgSlot.BAD_OFFSET = off % 2 ^ ImgSlot.BAD_OFFSET.w := rd_wr_self ..

theorem setSlot_ne {k st off : Nat} {s : State} {j : Key} (h : j ≠ slotKey k) : rdWord (setSlot k st off s) j = rdWord s j := by
  unfold setSlot
  rw [rdWord_wr_ne _ _ _ h, rdWord_wr_ne _ _ _ h]
  rfl

theorem setSlot_verifying (k st off : Nat) (s : State) : k ∉ (setSlot k st off s).eng.verifying := by
  show k ∉ s.eng.verifying.filter fun i => i != k
  simp

theorem setSlot_cmd (k st off : Nat) (s : State) : (setSlot k st off s).cmd = s.cmd := id rfl

theorem setSlot_out (k st off : Nat) (s : State) : (setSlot k st off s).out = s.out := id rfl

theorem setSlot_kept {k st off : Nat} {s : State} : Safety.RegsKept [.imgSlot] s (setSlot k st off s) := fun j hj =>
  setSlot_ne (by rintro rfl; exact hj (by simp [slotKey]))

/-! ## Erasure (R102) -/

/-- The parts of a slot, zeroed. -/
def partsZeroed (k : Nat) (s : State) : State := forAll (List.range slotParts) (fun i s => wrWord s (obj .imgData (k * slotParts + i)) 0) s

theorem slotErase_eq (k : Nat) (s : State) : slotErase k s = setSlot k 0 0 (partsZeroed k s) := id rfl

theorem partsZeroed_kept (k : Nat) (s : State) : Safety.RegsKept [.imgData] s (partsZeroed k s) := fun j hj =>
  forAll_same _ _ (fun u => rdWord u j) (fun i u => rdWord_wrWord_ty u _ j 0 (by simpa using hj)) s

theorem partsZeroed_cmd (k : Nat) (s : State) : (partsZeroed k s).cmd = s.cmd := forAll_same _ _ State.cmd (fun _ _ => wrWord_cmd ..) s

/-- Every object of a list that is zeroed reads zero. -/
theorem zeroed_reads_zero (key : Nat → Key) (l : List Nat) (s : State) (i : Nat) (h : i ∈ l ∨ rdWord s (key i) = 0) :
    rdWord (forAll l (fun j s => wrWord s (key j) 0) s) (key i) = 0 := by
  induction l generalizing s with
  | nil => exact h.resolve_left (by simp)
  | cons j l ih =>
    refine ih (wrWord s (key j) 0) ?_
    by_cases hij : key i = key j
    · exact .inr (hij ▸ rdWord_wrWord_self ..)
    · exact h.imp (fun h => (List.mem_cons.mp h).resolve_left fun e => hij (congrArg key e)) fun h => (rdWord_wrWord_ne s 0 hij).trans h

theorem partsZeroed_zero {k i : Nat} (s : State) (h : i < slotParts) : rdWord (partsZeroed k s) (obj .imgData (k * slotParts + i)) = 0 :=
  zeroed_reads_zero (fun i => obj .imgData (k * slotParts + i)) (List.range slotParts) s i (.inl (List.mem_range.2 h))

/-! ## What a write of a slot's objects does -/

theorem applyWrite_imgData (j x : Nat) (s : State) :
    applyWrite (obj .imgData j) x s = slotWritten (j / slotParts) (storeObj (obj .imgData j) x s) := id rfl

theorem applyWrite_imgSlot_erase {k x : Nat} {s : State} (he : getF x ImgSlot.ERASE = 1) :
    applyWrite (slotKey k) x s = slotErase k (storeObj (slotKey k) x s) := if_pos he

theorem applyWrite_imgSlot_verify {k x : Nat} {s : State} (he : getF x ImgSlot.ERASE = 0) (hv : getF x ImgSlot.VERIFY = 1) :
    applyWrite (slotKey k) x s = slotVerify k (storeObj (slotKey k) x s) := (if_neg (by omega)).trans (if_pos hv)

theorem slotVerify_verifying (k : Nat) (s : State) : k ∈ (slotVerify k s).eng.verifying := by
  unfold slotVerify
  split
  · next h => exact List.contains_iff_mem.mp h
  · simp

theorem slotVerify_rdWord (k : Nat) (s : State) (j : Key) : rdWord (slotVerify k s) j = rdWord s j := by
  unfold slotVerify
  split <;> rfl

theorem slotVerify_cmd (k : Nat) (s : State) : (slotVerify k s).cmd = s.cmd := by
  unfold slotVerify
  split <;> rfl

/-- The write of a slot's control object is answered once it has taken effect. -/
theorem hostWrite_slot {c : Hdr} {k : Nat} {s : State} {w : Waiting} {f : Nat → Nat}
    (h : Safety.Write s c w (slotKey k) (f (rdWord s (slotKey k)))) :
    hostWrite c (slotKey k) f s = replyWrite c (slotKey k) (applyWrite (slotKey k) (f (rdWord s (slotKey k))) s) :=
  hostWrite_ok h rfl rfl nofun nofun nofun nofun

/-! ## The verdict (R101) -/

/-- The end of a slot's checks sets its state and notes the key that it verified under. -/
theorem imageVerifyComplete_verdict {k : Fin 4} {s : State} {st off : Nat} {key : Option Nat} (hk : k.val ∈ s.eng.verifying)
    (h : imageVerdict s (slotImage s k.val) = (st, off, key)) (hst : st < 256) : ∃ t, execImageVerifyComplete k s = .next t ∧
      (k.val ∉ t.eng.verifying ∧ (∀ j, j ≠ slotKey k.val → rdWord t j = rdWord s j) ∧ t.out = s.out) ∧
      rd t (slotKey k.val) ImgSlot.SLOT_STATE = st ∧ rd t (slotKey k.val) ImgSlot.BAD_OFFSET = off % 2 ^ ImgSlot.BAD_OFFSET.w ∧
      tabGet? t.eng.verifiedBy k.val = key := by
  have hin : (!s.eng.verifying.contains k.val) = false := by simpa using hk
  have hkept : k.val ∉ (setSlot k.val st off s).eng.verifying ∧
      (∀ j, j ≠ slotKey k.val → rdWord (setSlot k.val st off s) j = rdWord s j) ∧ (setSlot k.val st off s).out = s.out :=
    ⟨setSlot_verifying k.val st off s, fun _ hj => setSlot_ne hj, setSlot_out ..⟩
  simp only [execImageVerifyComplete, hin, Bool.false_eq_true, if_false, h]
  cases key with
  | none => exact ⟨_, rfl, hkept, setSlot_state hst, setSlot_offset .., tabGet?_del_self ..⟩
  | some q => exact ⟨_, rfl, hkept, setSlot_state hst, setSlot_offset .., tabGet?_put_self ..⟩

theorem imageVerdict_header {s : State} {img : Tab Nat} {off : Nat} (h : headerBad img = some off) : imageVerdict s img = (4, off, none) := by
  simp only [imageVerdict, h, Option.orElse_some]

theorem imageVerdict_words {s : State} {img : Tab Nat} {off : Nat} (hh : headerBad img = none) (h : wordsBad img = some off) :
    imageVerdict s img = (4, off, none) := by
  simp only [imageVerdict, hh, h, Option.orElse_none]

section
variable {s : State} {img : Tab Nat} (hh : headerBad img = none) (hw : wordsBad img = none)
include hh hw

theorem imageVerdict_digest (hd : digestOk img 512 (5 * mwCount img + 16 * nwCount img) = false) : imageVerdict s img = (4, 64, none) := by
  simp [imageVerdict, hh, hw, hd]

variable (hd : digestOk img 512 (5 * mwCount img + 16 * nwCount img) = true)
include hd

theorem imageVerdict_unsigned (hu : imgNat img 112 97 = 0) : imageVerdict s img = (2, 0, none) := by
  simp [imageVerdict, hh, hw, hd, hu]

theorem imageVerdict_unknown (hu : imgNat img 112 97 ≠ 0) (hk : signerSlot s img = none) : imageVerdict s img = (4, 112, none) := by
  simp [imageVerdict, hh, hw, hd, hu, hk]

theorem imageVerdict_verified {q : Nat} (hu : imgNat img 112 97 ≠ 0) (hk : signerSlot s img = some q) (hs : signatureOk img = true) :
    imageVerdict s img = (3, 0, some q) := by
  simp [imageVerdict, hh, hw, hd, hu, hk, hs]

theorem imageVerdict_forged {q : Nat} (hu : imgNat img 112 97 ≠ 0) (hk : signerSlot s img = some q) (hs : signatureOk img = false) :
    imageVerdict s img = (4, 216, none) := by
  simp [imageVerdict, hh, hw, hd, hu, hk, hs]

end

/-! ## The commands -/

theorem imageSlotDataWrite_written {c : Hdr} {k : Fin 4} {i : Nat} {data : Bytes} {s : State} {w : Waiting} (hi : i < slotParts)
    (hlen : data.length = 256)
    (hcov : covered (addrOf (obj .imgData (k.val * slotParts)) + BitVec.ofNat 48 (256 * i)) 256 = some [obj .imgData (k.val * slotParts + i)])
    (hblk : (addrOf (obj .imgData (k.val * slotParts)) + BitVec.ofNat 48 (256 * i)).toNat / 2 ^ 40 = blockOf (obj .imgData (k.val * slotParts + i)))
    (hw : Safety.Write s c w (obj .imgData (k.val * slotParts + i)) (ofBytes data)) :
    Safety.Gives (.imageSlotDataWrite c k (256 * i) data) s fun t =>
      Safety.Done t w [] ∧ Safety.Holds s t (obj .imgData (k.val * slotParts + i)) (ofBytes data) ∧ rd t (slotKey k.val) ImgSlot.SLOT_STATE = 1 ∧
        k.val ∉ t.eng.verifying ∧ Safety.RegsKept [.sessStatus, .imgData, .imgSlot] s t := by
  have hslot : (k.val * slotParts + i) / slotParts = k.val := by unfold slotParts at *; omega
  generalize hpart : (obj .imgData (k.val * slotParts + i) : Key) = part at hcov hblk hw ⊢
  have hty : part.ty = .imgData := hpart ▸ rfl
  have heffect : applyWrite part (ofBytes data) s = slotWritten k.val (storeObj part (ofBytes data) s) := by
    rw [← hpart, applyWrite_imgData, hslot]
  have hkept : Safety.RegsKept [.imgSlot] (storeObj part (ofBytes data) s) (slotWritten k.val (storeObj part (ofBytes data) s)) := setSlot_kept
  have hstored : Safety.RegsKept [.imgData] s (storeObj part (ofBytes data) s) := hty ▸ storeObj_kept part (ofBytes data) s
  have hboth : Safety.RegsKept [.imgData, .imgSlot] s (slotWritten k.val (storeObj part (ofBytes data) s)) :=
    RegsKept.trans (RegsKept.mono hstored (by simp)) (RegsKept.mono hkept (by simp))
  have ha : Safety.Answered [] (slotWritten k.val (storeObj part (ofBytes data) s))
      (replyWrite c part (slotWritten k.val (storeObj part (ofBytes data) s))) w [] :=
    replyWrite_answered hw rfl fun n => hboth _ (by simp [sessKey])
  have hsize : sizeOf part = 256 := hpart ▸ rfl
  have hgo := writeAt_of_write hw (hlen.trans hsize.symm) (hsize ▸ hcov) hblk (hpart ▸ rfl)
    (hty ▸ nofun) (hty ▸ nofun) (hty ▸ nofun) (hty ▸ nofun)
  rw [heffect] at hgo
  refine ⟨_, congrArg Host.Outcome.next hgo, ha.1, ?_, ?_, ?_, Answered.kept ha hboth⟩
  · exact Holds.after (storeObj_holds part (ofBytes data) s) (l := [.sessStatus, .imgSlot]) (by simp [hty])
      (Answered.kept ha hkept)
  · rw [Answered.rd ha (by exact nofun)]
    exact setSlot_state (by decide)
  · rw [Answered.eng ha]
    exact setSlot_verifying k.val 1 0 _

theorem imageSlotVerify_starts {c : Hdr} {k : Fin 4} {s : State} {w : Waiting} (h : Safety.Sets s c w (slotKey k.val) ImgSlot.VERIFY 1)
    (he : rd s (slotKey k.val) ImgSlot.ERASE = 0) : Safety.Gives (.imageSlotVerify c k) s fun t =>
      Safety.Done t w [] ∧ k.val ∈ t.eng.verifying ∧ rd t (slotKey k.val) ImgSlot.SLOT_STATE = rd s (slotKey k.val) ImgSlot.SLOT_STATE ∧
        Safety.RegsKept [.sessStatus, .imgSlot] s t := by
  have heffect := applyWrite_imgSlot_verify (k := k.val) (x := putF (rdWord s (slotKey k.val)) ImgSlot.VERIFY 1) (s := s)
    ((getF_put_apart _ _ (by decide)).trans he) (getF_put_self ..)
  generalize hv : storeObj (slotKey k.val) (putF (rdWord s (slotKey k.val)) ImgSlot.VERIFY 1) s = v at heffect
  have hstored : Safety.RegsKept [.imgSlot] s v := hv ▸ storeObj_kept (slotKey k.val) _ s
  have hkept : Safety.RegsKept [.imgSlot] s (slotVerify k.val v) := fun j hj => (slotVerify_rdWord ..).trans (hstored j hj)
  have ha : Safety.Answered [] (slotVerify k.val v) (replyWrite c (slotKey k.val) (slotVerify k.val v)) w [] :=
    replyWrite_answered h ((slotVerify_cmd ..).trans (hv ▸ rfl)) fun n => hkept _ (by simp [sessKey])
  have hgo := hostWrite_slot (f := fun x => putF x ImgSlot.VERIFY 1) h
  rw [heffect] at hgo
  refine ⟨_, congrArg Host.Outcome.next hgo, ha.1, ?_, ?_, Answered.kept ha hkept⟩
  · rw [Answered.eng ha]
    exact slotVerify_verifying ..
  · rw [Answered.rd ha (by exact nofun), rd, slotVerify_rdWord, ← hv]
    exact rd_storeObj_ro (k := slotKey k.val) (d := roF ImgSlot.SLOT_STATE 0) (by simp [slotKey, fieldsOf, fieldsImgSlot]) rfl

theorem imageSlotErase_erases {c : Hdr} {k : Fin 4} {s : State} {w : Waiting} (h : Safety.Sets s c w (slotKey k.val) ImgSlot.ERASE 1) :
    Safety.Gives (.imageSlotErase c k) s fun t =>
      Safety.Done t w [] ∧ rd t (slotKey k.val) ImgSlot.SLOT_STATE = 0 ∧ k.val ∉ t.eng.verifying ∧
        (∀ i < slotParts, rdWord t (obj .imgData (k.val * slotParts + i)) = 0) ∧
        Safety.RegsKept [.sessStatus, .imgData, .imgSlot] s t := by
  have heffect := applyWrite_imgSlot_erase (k := k.val) (x := putF (rdWord s (slotKey k.val)) ImgSlot.ERASE 1) (s := s) (getF_put_self ..)
  generalize hv : storeObj (slotKey k.val) (putF (rdWord s (slotKey k.val)) ImgSlot.ERASE 1) s = v at heffect
  have hstored : Safety.RegsKept [.imgSlot] s v := hv ▸ storeObj_kept (slotKey k.val) _ s
  have hkept : Safety.RegsKept [.imgData, .imgSlot] s (slotErase k.val v) :=
    RegsKept.trans (RegsKept.mono hstored (by simp))
      (RegsKept.trans (RegsKept.mono (partsZeroed_kept k.val v) (by simp)) (RegsKept.mono setSlot_kept (by simp)))
  have ha : Safety.Answered [] (slotErase k.val v) (replyWrite c (slotKey k.val) (slotErase k.val v)) w [] :=
    replyWrite_answered h (by rw [slotErase_eq, setSlot_cmd, partsZeroed_cmd, ← hv]; rfl) fun n => hkept _ (by simp [sessKey])
  have hgo := hostWrite_slot (f := fun x => putF x ImgSlot.ERASE 1) h
  rw [heffect] at hgo
  refine ⟨_, congrArg Host.Outcome.next hgo, ha.1, ?_, ?_, fun i hi => ?_, Answered.kept ha hkept⟩
  · rw [Answered.rd ha (by exact nofun), slotErase_eq, setSlot_state (by decide)]
  · rw [Answered.eng ha]
    exact setSlot_verifying k.val 0 0 _
  · rw [Answered.rdWord ha (by exact nofun), slotErase_eq, setSlot_ne (by exact nofun)]
    exact partsZeroed_zero v hi

/-- Settles O25: the writes of a slot by what they do, the end of its checks by its verdict. -/
theorem imageSlots : Obligations.ImageSlots := by
  unfold Obligations.ImageSlots
  refine ⟨fun c k i data s w => imageSlotDataWrite_written, fun c k s w => imageSlotVerify_starts, fun c k s w => imageSlotErase_erases,
    fun k s img hk himg => ?_⟩
  have hverdict (st off key) (h : imageVerdict s img = (st, off, key)) (hst : st < 256) := imageVerifyComplete_verdict hk (himg.symm ▸ h) hst
  cases hheader : headerBad img with
  | some off =>
    obtain ⟨t, ht, ⟨hdone, hkept, hout⟩, hstate, hoff, -⟩ := hverdict 4 off none (imageVerdict_header hheader) (by decide)
    refine ⟨t, ht, hdone, hkept, hout, ?_, nofun⟩
    rintro off' (h | ⟨h, -⟩)
    · cases h; exact ⟨hstate, hoff⟩
    · cases h
  | none =>
    cases hwords : wordsBad img with
    | some off =>
      obtain ⟨t, ht, ⟨hdone, hkept, hout⟩, hstate, hoff, -⟩ := hverdict 4 off none (imageVerdict_words hheader hwords) (by decide)
      refine ⟨t, ht, hdone, hkept, hout, ?_, fun _ h => nomatch h⟩
      rintro off' (h | ⟨-, h⟩)
      · cases h
      · cases h; exact ⟨hstate, hoff⟩
    | none =>
      cases hgood : digestOk img 512 (5 * mwCount img + 16 * nwCount img) with
      | false =>
        obtain ⟨t, ht, ⟨hdone, hkept, hout⟩, hstate, hoff, -⟩ := hverdict 4 64 none (imageVerdict_digest hheader hwords hgood) (by decide)
        exact ⟨t, ht, hdone, hkept, hout, by simp, fun _ _ good h => by simp [h, hstate, hoff, ImgSlot.BAD_OFFSET]⟩
      | true =>
        by_cases hunsigned : imgNat img 112 97 = 0
        · obtain ⟨t, ht, ⟨hdone, hkept, hout⟩, hstate, -⟩ :=
            hverdict 2 0 none (imageVerdict_unsigned hheader hwords hgood hunsigned) (by decide)
          exact ⟨t, ht, hdone, hkept, hout, by simp, fun _ _ good h => by simp [h, hunsigned, hstate]⟩
        cases hsigner : signerSlot s img with
        | none =>
          obtain ⟨t, ht, ⟨hdone, hkept, hout⟩, hstate, hoff, -⟩ :=
            hverdict 4 112 none (imageVerdict_unknown hheader hwords hgood hunsigned hsigner) (by decide)
          exact ⟨t, ht, hdone, hkept, hout, by simp, fun _ _ good h => by simp [h, hunsigned, hstate, hoff, ImgSlot.BAD_OFFSET]⟩
        | some q =>
          cases hsig : signatureOk img with
          | true =>
            obtain ⟨t, ht, ⟨hdone, hkept, hout⟩, hstate, -, hkey⟩ :=
              hverdict 3 0 (some q) (imageVerdict_verified hheader hwords hgood hunsigned hsigner hsig) (by decide)
            exact ⟨t, ht, hdone, hkept, hout, by simp, fun _ _ good h => by simp [h, hunsigned, hstate, hkey]⟩
          | false =>
            obtain ⟨t, ht, ⟨hdone, hkept, hout⟩, hstate, hoff, -⟩ :=
              hverdict 4 216 none (imageVerdict_forged hheader hwords hgood hunsigned hsigner hsig) (by decide)
            exact ⟨t, ht, hdone, hkept, hout, by simp, fun _ _ good h => by simp [h, hunsigned, hstate, hoff, ImgSlot.BAD_OFFSET]⟩

end Sys2Proof.Machine
end

section
/-! What a fault message leaves of the messages that wait and of how intervals are measured (R474 to R490): a message that is queued stays
queued, whatever reaction comes with it. -/
namespace Sys2Proof.Machine

open Sys2Proof

-- The lemmas of this section are many and short: elaborated in turn, they take no thread, and so no stack, each.
set_option Elab.async false

/-! ## The relation -/

/-- A state that telling, reporting and reacting lead to from another: intervals are measured alike, and every message still waits. -/
structure Queued (a s : State) : Prop where
  stepped : s.time.stepped = a.time.stepped
  waiting : ∀ b m, m ∈ queueOf a b → m ∈ queueOf s b

variable {a s t : State}

namespace Queued

theorem refl (a : State) : Queued a a := ⟨rfl, fun _ _ hm => hm⟩

/-- An update of other parts. -/
theorem parts (h : Queued a s) {regs clock ct cmd bridge cnt eng tbl pat line tfu msec buf que fab hbm pair upd pwr out free pending} {flt : Flt}
    {time : Time} (hq : flt.queues = s.flt.queues := by rfl) (ht : time.stepped = s.time.stepped := by rfl) :
    Queued a (State.mk regs s.fuses clock ct cmd bridge flt cnt eng tbl pat line tfu msec buf que fab hbm time pair upd pwr out free pending) :=
  ⟨ht.trans h.stepped, fun b m hm => by
    show m ∈ tabGet flt.queues b []
    rw [hq]
    exact h.waiting b m hm⟩

theorem told (g : Told s t) (h : Queued a s) : Queued a t := by
  have hflt : t.flt = s.flt := (congrArg State.flt g.parts).trans rfl
  have htime : t.time = s.time := (congrArg State.time g.parts).trans rfl
  refine ⟨htime ▸ h.stepped, fun b m hm => ?_⟩
  rw [queueOf, hflt]
  exact h.waiting b m hm

theorem wr {k : Key} {f : Fld} {v : Nat} (h : Queued a s) : Queued a (wr s k f v) := h.parts

theorem mapF {k : Key} {f : Fld} {g : Nat → Nat} (h : Queued a s) : Queued a (mapF s k f g) := h.parts

theorem emit {o : Out} (h : Queued a s) : Queued a (emit s o) := h.parts

theorem bump {ty : ObjTy} {i j n : Nat} (h : Queued a s) : Queued a (bump ty i j n s) := told (bump_told ty i j n s) h.parts

theorem stateEvent {k : Key} (h : Queued a s) : Queued a (stateEvent k s) := told (stateEvent_told k s) h

theorem ite {c : Prop} [Decidable c] (hs : Queued a s) (ht : Queued a t) : Queued a (if c then s else t) := by
  split <;> assumption

/-- What is done under a condition. -/
theorem ifThen {c : Prop} [Decidable c] (hs : Queued a s) (ht : Queued a s → Queued a t) : Queued a (if c then t else s) := .ite (ht hs) hs

/-- What is done unless a condition holds. -/
theorem ifElse {c : Prop} [Decidable c] (hs : Queued a s) (ht : Queued a s → Queued a t) : Queued a (if c then s else t) := .ite hs (ht hs)

theorem iteFst {α : Type} {c : Prop} [Decidable c] {p q : State × α} (hp : Queued a p.1) (hq : Queued a q.1) :
    Queued a (if c then p else q).1 := by split <;> assumption

/-- The state of a pair that was taken apart. -/
theorem ofFst {α : Type} {p : State × α} {x : α} (e : p = (t, x)) (h : Queued a p.1) : Queued a t := by subst e; exact h

theorem forAll {α : Type} {l : List α} {f : α → State → State} (h : Queued a s) (hf : ∀ x s, Queued a s → Queued a (f x s)) :
    Queued a (forAll l f s) := forAll_keeps l f (Queued a) hf s h

/-! ## Links (R350 to R358) -/

theorem setFl {k : Nat} {x : Fl} (h : Queued a s) : Queued a (setFl s k x) := h.parts

theorem genRecord (h : Queued a s) : Queued a (genRecord s) := .ite (.forAll h.parts fun _ _ h => .emit h) h

theorem maskOut {k : Nat} (h : Queued a s) : Queued a (maskOut k s) := .forAll h fun _ _ h => .mapF (.mapF h)

theorem freeSlot {k vc : Nat} (h : Queued a s) : Queued a (freeSlot k vc s) := by
  refine .ite ?_ (.setFl h)
  exact .forAll h.parts fun _ _ h => .emit h

theorem leaveSlot {slot : Option (Nat × Nat × Nat)} (h : Queued a s) : Queued a (leaveSlot slot s) := by
  unfold Machine.leaveSlot
  split
  · exact h
  · exact .ite h (.freeSlot h)

theorem queueCell {k : Nat} {c : FabCell} (h : Queued a s) : Queued a (queueCell k c s) := .setFl h

theorem routeCell {c : FabCell} (h : Queued a s) : Queued a (routeCell c s) := by
  unfold Machine.routeCell
  split
  · exact .leaveSlot (.bump h)
  · exact .ifThen (.queueCell h.parts) fun h => .bump h

theorem chooseAgain {k : Nat} {c : FabCell} (h : Queued a s) : Queued a (chooseAgain k c s) := by
  unfold Machine.chooseAgain
  split
  · dsimp only
    split
    · exact .queueCell h
    · exact .leaveSlot (.bump h)
  · exact .routeCell h

theorem enterLink {k st cause : Nat} (h : Queued a s) : Queued a (enterLink k st cause s) := by
  unfold Machine.enterLink
  refine .ifElse h fun h => ?_
  dsimp only
  refine .ifElse ?_ fun h => .stateEvent h
  refine .ifThen ?_ fun h => .genRecord h.parts
  refine .ifThen ?_ fun h => .forAll (.maskOut h) fun _ _ h => .chooseAgain h
  refine .ifThen ?_ fun h => .bump h
  refine .ifThen ?_ fun h => .wr (.wr h)
  exact .wr (.setFl (.wr (.wr h)))

/-! ## A detection in its block (R476, R481, R487) -/

theorem queueMessage {m : FaultMsg} (h : Queued a s) : Queued a (queueMessage m s) := by
  refine .ite ⟨h.stepped, fun b x hx => ?_⟩ (.bump h.parts)
  have hold := h.waiting b x hx
  show x ∈ tabGet (tabPut s.flt.queues m.blk (tabGet s.flt.queues m.blk [] ++ [m])) b []
  by_cases hb : b = m.blk
  · rw [hb, tabGet_put_self]
    exact List.mem_append_left _ (hb ▸ hold)
  · rwa [tabGet_put_ne _ _ _ hb]

theorem noteCore {blk : Nat} (h : Queued a s) : Queued a (noteCore blk s) := .ite h.parts h

theorem report {r : Report} (h : Queued a s) : Queued a (report r s).1 := by
  unfold Machine.report
  dsimp only
  split
  · exact .queueMessage (.noteCore h)
  · refine .iteFst (.queueMessage (.noteCore h)) (.iteFst (.queueMessage (.wr (h.noteCore.parts))) ?_)
    refine .iteFst (parts ?_) ?_
    all_goals exact .ifThen (.queueMessage (.wr (h.noteCore.parts))) fun h => .wr h

theorem atMost {blk inst kind sub d : Nat} {f : State → State} (h : Queued a s) (hf : ∀ s, Queued a s → Queued a (f s)) :
    Queued a (atMost blk inst kind sub d f s) := by
  unfold Machine.atMost
  dsimp only
  split
  · exact .ite h (hf _ h.parts)
  · exact hf _ h.parts

/-! ## The source of time (R428 to R439) -/

theorem toAcquire (h : Queued a s) : Queued a (toAcquire s) := .wr (parts (.ifThen h fun h => .wr h))

theorem toFree (h : Queued a s) : Queued a (toFree s) := .wr (parts (.wr h))

theorem toHold {forced : Bool} (h : Queued a s) : Queued a (toHold forced s) := by
  unfold Machine.toHold
  exact .bump (.wr h.parts)

theorem moveServo {has : Bool} (h : Queued a s) : Queued a (moveServo has s).1 := by
  unfold Machine.moveServo
  dsimp only
  exact .iteFst (.ifThen h fun h => .toAcquire h) (.iteFst (.toFree h) (.iteFst (.report (.ite (.toHold h) (.toFree h))) h))

theorem updateSource (h : Queued a s) : Queued a (updateSource s).1 := .moveServo (.wr (.wr h))

theorem updateRoot (h : Queued a s) : Queued a (updateRoot s) := by
  unfold Machine.updateRoot
  dsimp only
  generalize hp : (following s).map Prod.fst = parent
  generalize hw : (if rd s tmS TmStatus.FT_STATE = 2 then some (rd s tmS TmStatus.FT_PARENT) else none) = was
  have hroot {x y z : Nat} : Queued a (Machine.wr (Machine.wr (Machine.wr s tmS TmStatus.ROOT x) tmS TmStatus.FT_STATE y) tmS
      TmStatus.FT_HOPS z) := .wr (.wr (.wr h))
  cases parent <;> cases was
  · exact .ifThen (.wr hroot) fun h => .bump h
  · exact .ifThen (.ifElse (.wr hroot) fun h => .wr h) fun h => .bump h
  · exact .ifThen (.ifThen (.wr (.wr hroot)) fun h => .bump h) fun h => .toAcquire h
  · exact .ifThen (.ifThen (.wr (.ifElse (.wr hroot) fun h => .wr h)) fun h => .bump h) fun h => .toAcquire h

theorem updateQuality (h : Queued a s) : Queued a (updateQuality s) := by
  unfold Machine.updateQuality
  dsimp only
  split
  · exact .wr (.wr (.wr h.parts))
  · exact .ite (.wr (.wr (.wr h.parts))) (.ite (.wr (.wr (.wr h))) (.wr (.wr (.wr h))))

theorem countSent {p len : Nat} (h : Queued a s) : Queued a (countSent p len s) := .bump (.bump h)

theorem emitLine {p n : Nat} {o : Nat → Out} (h : Queued a s) : Queued a (emitLine p n o s) :=
  .ite (.forAll h fun _ _ h => .ifElse h fun h => .emit (.emit h)) (.emit h)

theorem originate {p : Nat} {kind : Pdu} {args : List Nat} {len : Nat} (h : Queued a s) : Queued a (originate p kind args len s) :=
  .ifElse h fun h => .ite h.parts (.ite (.countSent (.emitLine h)) (.emit h))

theorem updateRef (h : Queued a s) : Queued a (updateRef s) := by
  refine .ifElse ?_ fun h => .forAll h.parts fun _ _ h => .ifThen h fun h => .originate h
  exact .ifThen (.ifThen h.parts fun h => .bump h) fun h => .wr h

theorem updateTime (h : Queued a s) : Queued a (updateTime s).1 := by
  unfold Machine.updateTime
  split
  next e => exact .updateRef (.updateQuality (.ofFst e (.updateSource (.updateRoot h))))

/-! ## The safe state (R483) -/

theorem yokeSend {y : Nat} {load : YokeLoad} (h : Queued a s) : Queued a (yokeSend y load s) := h.parts

theorem setRole {role : Nat} (h : Queued a s) : Queued a (setRole role s) := .ifElse (parts (.wr h)) fun h => .stateEvent h

theorem enterSafe (h : Queued a s) : Queued a (enterSafe s) := by
  unfold Machine.enterSafe
  dsimp only
  refine .bump (.updateTime (parts (.ifThen (.forAll (parts (.forAll (.forAll (parts (.wr (.wr h))) ?_) ?_)) ?_) ?_)))
  · exact fun _ _ h => .emit h
  · exact fun _ _ h => .emit h
  · exact fun _ _ h => .ifElse (.enterLink h) fun h => .atMost h fun _ h => .report h
  · exact fun h => .setRole (.wr (.yokeSend (.yokeSend h)))

/-- What reacts to a detection leaves the message that reported it. -/
theorem raiseA {r : Report} (h : Queued a (Machine.report r s).1) : Queued a (raiseA r s).1 := .iteFst (.enterSafe h) h

end Queued

/-- Sending a fault message leaves every message that waits, and how intervals are measured. -/
theorem raiseAt_queued (blk inst kind : Nat) (k : Key) (s : State) : Queued s (raiseAt blk inst kind k s) :=
  .raiseA (.report (.refl s))

/-- A message for a queue with room waits there. -/
theorem queueMessage_mem {m : FaultMsg} {s : State} (hroom : (queueOf s m.blk).length < 16) : m ∈ queueOf (queueMessage m s) m.blk := by
  rw [queueMessage, queueOf] at *
  dsimp only
  rw [if_pos hroom]
  show m ∈ tabGet (tabPut s.flt.queues m.blk _) m.blk []
  simp

theorem queueOf_noteCore (c b : Nat) (s : State) : queueOf (noteCore c s) b = queueOf s b := by
  unfold noteCore
  split <;> rfl

/-- A detection in a block with room in its queue is a message that waits there (R476). -/
theorem report_message (r : Report) {s : State} (hroom : (queueOf s r.blk).length < 16) :
    ∃ m ∈ queueOf (report r s).1 r.blk, m.inst = r.inst ∧ m.kind = r.kind ∧ m.addr = r.addr := by
  have hnoted : (queueOf (noteCore r.blk s) r.blk).length < 16 := by rwa [queueOf_noteCore]
  unfold report
  dsimp only
  split
  · exact ⟨_, queueMessage_mem hnoted, rfl, rfl, rfl⟩
  split
  · exact ⟨_, queueMessage_mem hnoted, rfl, rfl, rfl⟩
  split
  · exact ⟨_, queueMessage_mem hnoted, rfl, rfl, rfl⟩
  split <;> split
  all_goals exact ⟨_, queueMessage_mem hnoted, rfl, rfl, rfl⟩

/-- A fault message of a block with room in its queue waits there, whatever reaction comes with it (R476, R483). -/
theorem raiseAt_message {blk : Nat} (inst kind : Nat) (k : Key) {s : State} (hroom : (queueOf s blk).length < 16) :
    ∃ m ∈ queueOf (raiseAt blk inst kind k s) blk, m.inst = inst ∧ m.kind = kind ∧ m.addr = addrOf k := by
  obtain ⟨m, hm, hfields⟩ := report_message { blk := blk, inst := inst, kind := kind, addr := addrOf k } hroom
  exact ⟨m, (Queued.raiseA (.refl _)).waiting _ m hm, hfields⟩

end Sys2Proof.Machine
end

section
/-! Reloads (R99, R103, R109 to R113): a LOAD_GO, its turn, its drain, the load, and its end. -/
namespace Sys2Proof.Machine

open Sys2Proof

/-! ## Common time that comes -/

/-- An event that is due has come, however the clock is slewed. -/
theorem le_reach_ct (t : Nat) (s : State) : t ≤ (reach t s).ct := by
  unfold reach
  dsimp only
  split
  · omega
  · next hd =>
    generalize hn : (if 0 ≤ s.time.slew then _ else _) = n
    rw [show (advance n s).ct = (runTime n s).ct from (congrArg State.ct (advance_told n s).parts).trans rfl]
    unfold runTime
    dsimp only
    split at hn <;> omega

theorem reach_eng (t : Nat) (s : State) : (reach t s).eng = s.eng := by
  unfold reach
  dsimp only
  split
  · rfl
  · exact (congrArg State.eng (advance_told _ s).parts).trans rfl

theorem reach_flt (t : Nat) (s : State) : (reach t s).flt = s.flt := by
  unfold reach
  dsimp only
  split
  · rfl
  · exact (congrArg State.flt (advance_told _ s).parts).trans rfl

@[simp] theorem getCl_reach (t : Nat) (s : State) (cl : Nat) : getCl (reach t s) cl = getCl s cl := getCl_congr (reach_eng t s) cl

@[simp] theorem clState_reach (t : Nat) (s : State) (cl : Nat) : clState (reach t s) cl = clState s cl :=
  clState_congr (reach_kept t s _ (by exact nofun))

/-! ## What the operations on a reload change -/

/-- An object of another type is not a cluster's control object. -/
theorem ne_clKey {k : Key} {l : List ObjTy} {cl : Nat} (h : k.ty ∉ ObjTy.clCtl :: l) : k ≠ clKey cl := by
  rintro rfl
  exact h List.mem_cons_self

theorem getCl_setProtect (cl : Nat) (s : State) : getCl (setProtect cl s) cl =
    { getCl s cl with reload := (getCl s cl).reload.map fun r => { r with protect := rd s (clKey cl) ClCtl.PROTECT } } := getCl_setCl_self ..

@[simp] theorem rdWord_setReload (cl : Nat) (ph : ReloadPhase) (s : State) (k : Key) : rdWord (setReload cl ph s) k = rdWord s k := id rfl

theorem dropReload_parts (cl : Nat) (s : State) : dropReload cl s = { s with eng := (dropReload cl s).eng } := by
  unfold dropReload
  dsimp only
  split <;> rfl

@[simp] theorem rdWord_dropReload (cl : Nat) (s : State) (k : Key) : rdWord (dropReload cl s) k = rdWord s k := by rw [dropReload_parts]; rfl

@[simp] theorem clState_dropReload (cl : Nat) (s : State) (c : Nat) : clState (dropReload cl s) c = clState s c :=
  clState_congr (rdWord_dropReload ..)

/-- A reload that ends leaves its cluster with the LOAD_GO that waited behind it. -/
@[simp] theorem getCl_dropReload (cl : Nat) (s : State) :
    getCl (dropReload cl s) cl = { getCl s cl with reload := (getCl s cl).behind, behind := none } := by
  unfold dropReload
  dsimp only
  split <;> exact getCl_setCl_self ..

theorem holdWait_none {cl : Nat} {s : State} (h : (getCl s cl).reload = none) : holdWait cl s = s := by
  unfold holdWait
  simp only [h]

/-- The wait of a reload goes on while its cluster is neither PARKED nor on its way there. -/
theorem holdWait_going {cl : Nat} {s : State} {r : Reload} (h : (getCl s cl).reload = some r) (hheld : r.held = none)
    (hpark : parkedOrParking s cl = false) : holdWait cl s = s := by
  unfold holdWait
  simp only [h, hpark, hheld]
  split <;> rfl

/-- A wait that stands still, or goes on, is noted with the cluster. -/
theorem holdWait_parts (cl : Nat) (s : State) : holdWait cl s = { s with eng := (holdWait cl s).eng } := by
  unfold holdWait
  dsimp only
  split
  · split
    · split <;> rfl
    · rfl
  · rfl

/-- A cluster that reads PENDING is neither PARKED nor on its way there. -/
theorem parkedOrParking_pending {cl : Nat} {s : State} (h : clState s cl = csPending) : parkedOrParking s cl = false := by
  simp [parkedOrParking, h, csPending, csParked, csDraining]

/-! ## LOAD_GO (R109) -/

/-- The reload that a LOAD_GO asks for. -/
def loadOf (cl : Nat) (s : State) : Reload :=
  { slot := rd s (clKey cl) ClCtl.SRC_SLOT, protect := rd s (clKey cl) ClCtl.PROTECT, since := ivl s, held := none, sweep := false,
    phase := .queued }

/-- A cluster with its reload queued last. -/
def loadQueued (cl : Nat) (s : State) : State :=
  let s := setCl cl { getCl s cl with reload := some (loadOf cl s) } s
  { s with eng := { s.eng with reloads := s.eng.reloads ++ [cl] } }

theorem getCl_loadQueued (cl : Nat) (s : State) : getCl (loadQueued cl s) cl = { getCl s cl with reload := some (loadOf cl s) } :=
  getCl_setCl_self ..

/-- A LOAD_GO of a cluster in its place makes it PENDING. -/
theorem loadGo_pending {cl : Nat} {s : State} (h : clState s cl = csRunning ∨ clState s cl = csEmpty ∨ clState s cl = csFailed) :
    loadGo cl s = wr (loadQueued cl s) (clKey cl) ClCtl.STATE csPending := by
  have hpending : clState (wr (loadQueued cl s) (clKey cl) ClCtl.STATE csPending) cl = csPending := clState_wr _ _ _ (by decide)
  have hshow : showQueued cl (loadQueued cl s) = wr (loadQueued cl s) (clKey cl) ClCtl.STATE csPending := if_pos h
  have hreload : (getCl (wr (loadQueued cl s) (clKey cl) ClCtl.STATE csPending) cl).reload = some (loadOf cl s) := by
    rw [getCl_wr, getCl_loadQueued]
  calc loadGo cl s = holdWait cl (showQueued cl (loadQueued cl s)) := rfl
    _ = wr (loadQueued cl s) (clKey cl) ClCtl.STATE csPending := by
      rw [hshow, holdWait_going hreload rfl (parkedOrParking_pending hpending)]

/-! ## Writes of the cluster control object -/

/-- A cluster's control object with one field written. -/
def clStored (cl : Nat) (f : Fld) (v : Nat) (s : State) : State := storeObj (clKey cl) (putF (rdWord s (clKey cl)) f v) s

/-- The write of one field of a cluster's control object is answered once it has taken effect. -/
theorem hostWrite_cluster {c : Hdr} {cl : Nat} {s : State} {w : Waiting} {f : Fld} {v : Nat} (h : Safety.Sets s c w (clKey cl) f v) :
    hostWrite c (clKey cl) (fun x => putF x f v) s =
      replyWrite c (clKey cl) (clWritten cl (rdWord s (clKey cl)) (putF (rdWord s (clKey cl)) f v) (clStored cl f v s)) :=
  hostWrite_ok (f := fun x => putF x f v) h rfl rfl nofun nofun nofun nofun

theorem clStored_ne {cl : Nat} {f : Fld} {v : Nat} {s : State} {j : Key} (h : j ≠ clKey cl) : rdWord (clStored cl f v s) j = rdWord s j :=
  rdWord_wrWord_ne _ _ h

theorem clStored_kept (cl : Nat) (f : Fld) (v : Nat) (s : State) : Safety.RegsKept [.clCtl] s (clStored cl f v s) :=
  storeObj_kept (clKey cl) _ s

@[simp] theorem getCl_clStored (cl : Nat) (f : Fld) (v : Nat) (s : State) (c : Nat) : getCl (clStored cl f v s) c = getCl s c := id rfl

/-- A write leaves STATE of a cluster. -/
@[simp] theorem clState_clStored (cl : Nat) (f : Fld) (v : Nat) (s : State) : clState (clStored cl f v s) cl = clState s cl :=
  rd_storeObj_ro (k := clKey cl) (d := roF ClCtl.STATE 0) (by simp [clKey, fieldsOf, fieldsClCtl]) rfl

/-- A field that a write sets holds what is written, another what it held. -/
theorem rd_clStored_self {cl : Nat} {s : State} {d : FieldDesc} (v : Nat) (hd : d ∈ fieldsOf .clCtl) (ha : d.acc = .rw) :
    rd (clStored cl d.f v s) (clKey cl) d.f = v % 2 ^ d.f.w := (rd_storeObj_rw (k := clKey cl) hd ha).trans (getF_put_self ..)

theorem rd_clStored_apart {cl : Nat} {s : State} {d : FieldDesc} {f : Fld} (v : Nat) (hd : d ∈ fieldsOf .clCtl) (ha : d.acc = .rw)
    (h : f.apart d.f = true) : rd (clStored cl f v s) (clKey cl) d.f = rd s (clKey cl) d.f :=
  (rd_storeObj_rw (k := clKey cl) hd ha).trans (getF_put_apart _ _ h)

/-- What a LOAD_GO alone does. -/
theorem clWritten_load {cl old x : Nat} {s : State} (hl : getF x ClCtl.LOAD_GO = 1) (hp : getF x ClCtl.PATCH_GO ≠ 1)
    (he : getF x ClCtl.ENABLE = getF old ClCtl.ENABLE) : clWritten cl old x s = loadGo cl s := by
  rw [clWritten, if_pos hl, if_neg hp, if_pos he]

/-- No write with both LOAD_GO and PATCH_GO is accepted. -/
theorem patchGo_of_loadGo {s : State} {cl x : Nat} (h : stateFault s (clKey cl) x = none) (hload : getF x ClCtl.LOAD_GO = 1) :
    getF x ClCtl.PATCH_GO ≠ 1 := by
  intro hpatch
  have hty : (clKey cl).ty = .clCtl := id rfl
  simp [stateFault, hty, hload, hpatch] at h

theorem loadGo_queues {c : Hdr} {cl : Fin 32} {s : State} {w : Waiting} (h : Safety.Sets s c w (clKey cl.val) ClCtl.LOAD_GO 1)
    (hst : clState s cl.val = csRunning ∨ clState s cl.val = csEmpty ∨ clState s cl.val = csFailed) : Safety.Gives (.loadGo c cl) s fun t =>
      Safety.Done t w [] ∧ clState t cl.val = csPending ∧ t.eng.reloads = s.eng.reloads ++ [cl.val] ∧
        (∃ r, (getCl t cl.val).reload = some r ∧ r.slot = rd s (clKey cl.val) ClCtl.SRC_SLOT ∧ r.phase = .queued ∧ r.sweep = false) ∧
        (∀ j, j ≠ clKey cl.val → j.ty ≠ .sessStatus → rdWord t j = rdWord s j) := by
  have hload : getF (putF (rdWord s (clKey cl.val)) ClCtl.LOAD_GO 1) ClCtl.LOAD_GO = 1 := getF_put_self ..
  have hgo := hostWrite_cluster h
  rw [clWritten_load hload (patchGo_of_loadGo h.state hload) (getF_put_apart _ _ (by decide)), loadGo_pending (by simpa using hst)] at hgo
  generalize hv : clStored cl.val ClCtl.LOAD_GO 1 s = v at hgo
  have hne {j : Key} (hj : j ≠ clKey cl.val) : rdWord (wr (loadQueued cl.val v) (clKey cl.val) ClCtl.STATE csPending) j = rdWord s j :=
    (rdWord_wr_ne _ _ _ hj).trans (hv ▸ clStored_ne hj)
  have ha := replyWrite_answered h (u := wr (loadQueued cl.val v) (clKey cl.val) ClCtl.STATE csPending) (hv ▸ rfl) fun n => hne (by exact nofun)
  refine ⟨_, congrArg Host.Outcome.next hgo, ha.1, ?_, ?_, ⟨loadOf cl.val v, ?_, ?_, rfl, rfl⟩,
    fun j hj hs => (Answered.rdWord ha hs).trans (hne hj)⟩
  · rw [clState_congr (Answered.rdWord ha (by exact nofun)), clState_wr _ _ _ (by decide)]
  · rw [Answered.eng ha, ← hv]
    rfl
  · rw [getCl_congr (Answered.eng ha), getCl_wr, getCl_loadQueued]
  · exact hv ▸ rd_clStored_apart (d := rwF ClCtl.SRC_SLOT 0) 1 (by simp [fieldsOf, fieldsClCtl]) rfl (by decide)

/-! ## Its turn and its drain (R99, R109, R110, R112) -/

section
variable {cl : Fin 32} {s : State} {r : Reload}

theorem noneInProgress (h : ∀ o < 32, inProgress s o = false) : (List.range 32).any (inProgress s) = false := by
  simpa using h

theorem reloadStart_fixes (hr : (getCl s cl.val).reload = some r) (hsweep : r.sweep = false) (hturn : reloadTurn s = some cl.val)
    (hidle : ∀ o < 32, inProgress s o = false ∧ clState s o ≠ csFailed)
    (hslot : slotLoadable s r.slot (rd s (clKey cl.val) ClCtl.PROTECT) = true) (habi : abiOk s cl.val r.slot = true)
    (hfit : flag s (clKey cl.val) ClCtl.FORCE = true ∨ loadFits s (rd s (clKey cl.val) ClCtl.LOAD_LIMIT) (stayInService s cl.val) = true) :
    Safety.Gives (.reloadStart cl) s fun t =>
      (getCl t cl.val).reload = some { r with phase := .fixed (s.ct + 10000 * 65536), protect := rd s (clKey cl.val) ClCtl.PROTECT } ∧
        t = { s with eng := { s.eng with clusters := t.eng.clusters } } := by
  have hprogress := noneInProgress fun o ho => (hidle o ho).1
  have hfailed : ((List.range 32).any fun o => clState s o == csFailed) = false := by simpa using fun o ho => (hidle o ho).2
  have hload : (!flag s (clKey cl.val) ClCtl.FORCE && !loadFits s (rd s (clKey cl.val) ClCtl.LOAD_LIMIT) (stayInService s cl.val)) = false := by
    rcases hfit with h | h <;> simp [h]
  refine ⟨setReload cl.val (.fixed (s.ct + 655360000)) (setProtect cl.val s), ?_, ?_, rfl⟩
  · show Host.Outcome.next _ = _
    simp [hr, hturn, hprogress, hsweep, hfailed, hload, hslot, habi]
  · rw [getCl_setReload, getCl_setProtect, hr]
    rfl

theorem reloadStart_waits (hr : (getCl s cl.val).reload = some r) (hsweep : r.sweep = false)
    (hforce : flag s (clKey cl.val) ClCtl.FORCE = false)
    (hfit : loadFits s (rd s (clKey cl.val) ClCtl.LOAD_LIMIT) (stayInService s cl.val) = false) :
    Safety.Gives (.reloadStart cl) s fun t => t = s := by
  refine ⟨s, ?_, rfl⟩
  show Host.Outcome.next _ = _
  simp [hr, hsweep, hforce, hfit]

theorem reloadStart_sweep (hr : (getCl s cl.val).reload = some r) (hsweep : r.sweep = true) (hturn : reloadTurn s = some cl.val)
    (hidle : ∀ o < 32, inProgress s o = false) : Safety.Gives (.reloadStart cl) s fun t =>
      (getCl t cl.val).reload = some { r with phase := .draining, protect := rd s (clKey cl.val) ClCtl.PROTECT } ∧
        t = { s with eng := { s.eng with clusters := t.eng.clusters } } := by
  refine ⟨setReload cl.val .draining (setProtect cl.val s), ?_, ?_, rfl⟩
  · show Host.Outcome.next _ = _
    simp [hr, hturn, noneInProgress hidle, hsweep]
  · rw [getCl_setReload, getCl_setProtect, hr]
    rfl

theorem reloadDrain_drains {ts : Nat} (hr : (getCl s cl.val).reload = some r) (hphase : r.phase = .fixed ts) :
    Safety.Gives (.reloadDrain cl) s fun t =>
      clState t cl.val = csDraining ∧ (getCl t cl.val).reload = some { r with phase := .draining } ∧ ts ≤ t.ct ∧
        Safety.RegsKept (.clCtl :: Safety.telling) s t := by
  refine ⟨wr (setReload cl.val .draining (reach ts s)) (clKey cl.val) ClCtl.STATE csDraining, ?_, clState_wr _ _ _ (by decide), ?_,
    le_reach_ct ts s, fun k hk => ?_⟩
  · show Host.Outcome.next _ = _
    simp [hr, hphase]
  · rw [getCl_wr, getCl_setReload, getCl_reach, hr]
    rfl
  · rw [rdWord_wr_ne _ _ _ (ne_clKey hk), rdWord_setReload, reach_kept ts s k (List.not_mem_of_not_mem_cons hk)]

theorem reloadDrained_loads (hr : (getCl s cl.val).reload = some r) (hphase : r.phase = .draining) (hst : clState s cl.val = csDraining)
    (hbusy : busyThreads s cl.val = 0) : Safety.Gives (.reloadDrained cl) s fun t =>
      clState t cl.val = csLoading ∧ (getCl t cl.val).image = slotImage s r.slot ∧
        (getCl t cl.val).reload = some { r with phase := .loading false } ∧ Safety.RegsKept [.clCtl] s t := by
  let u := setCl cl.val { getCl s cl.val with image := slotImage s r.slot, banks := Cluster.empty.banks, patch := none, slot := some r.slot } s
  have hu : getCl (setReload cl.val (.loading false) u) cl.val = { getCl u cl.val with reload := some { r with phase := .loading false } } := by
    rw [getCl_setReload, getCl_setCl_self, hr]
    rfl
  refine ⟨wr (setReload cl.val (.loading false) u) (clKey cl.val) ClCtl.STATE csLoading, ?_, clState_wr _ _ _ (by decide), ?_, ?_, fun k hk => ?_⟩
  · show Host.Outcome.next _ = _
    simp [hr, hphase, hst, hbusy, u]
  · rw [getCl_wr, hu, getCl_setCl_self]
  · rw [getCl_wr, hu]
  · rw [rdWord_wr_ne _ _ _ (ne_clKey hk), rdWord_setReload, rdWord_setCl]

theorem reloadDrained_parks (hr : (getCl s cl.val).reload = none) (hst : clState s cl.val = csDraining) (hbusy : busyThreads s cl.val = 0) :
    Safety.Gives (.reloadDrained cl) s fun t => clState t cl.val = csParked ∧ Safety.RegsKept [.clCtl] s t ∧ t = { s with regs := t.regs } := by
  refine ⟨wr s (clKey cl.val) ClCtl.STATE csParked, ?_, clState_wr _ _ _ (by decide), fun k hk => ?_, rfl⟩
  · show Host.Outcome.next _ = _
    simp [hr, hst, hbusy]
  · exact rdWord_wr_ne _ _ _ (ne_clKey hk)

/-! ## The load and its end (R104, R111 to R113) -/

theorem reloadLoaded_checked {again : Bool} (hr : (getCl s cl.val).reload = some r) (hphase : r.phase = .loading again) :
    Safety.Gives (.reloadLoaded cl true) s fun t =>
      (getCl t cl.val).reload = some { r with phase := .loaded (s.ct + 5000 * 65536) } ∧
        t = { s with eng := { s.eng with clusters := t.eng.clusters } } := by
  refine ⟨setReload cl.val (.loaded (s.ct + 327680000)) s, ?_, ?_, rfl⟩
  · show Host.Outcome.next _ = _
    simp [hr, hphase]
  · rw [getCl_setReload, hr]
    rfl

/-- A cluster whose load has failed twice, before the message of it. -/
def loadFailed (cl : Nat) (s : State) : State :=
  let s := dropReload cl (setCl cl { getCl s cl with image := [], base := csFailed, slot := none } s)
  wr (wr s (clKey cl) ClCtl.STATE csFailed) (clKey cl) ClCtl.LAST_ERR 5

theorem getCl_loadFailed (cl : Nat) (s : State) : getCl (loadFailed cl s) cl =
    { getCl s cl with image := [], base := csFailed, slot := none, reload := (getCl s cl).behind, behind := none } := by
  simp only [loadFailed, getCl_wr, getCl_dropReload, getCl_setCl_self]

theorem loadFailed_kept (cl : Nat) (s : State) : Safety.RegsKept [.clCtl] s (loadFailed cl s) := by
  intro k hk
  rw [loadFailed, rdWord_wr_ne _ _ _ (ne_clKey hk), rdWord_wr_ne _ _ _ (ne_clKey hk), rdWord_dropReload, rdWord_setCl]

/-- A fault message of a cluster leaves its STATE and LAST_ERR. -/
theorem rd_clKey_raiseAt (blk inst kind : Nat) (k : Key) (s : State) (cl : Nat) (f : Fld) :
    rd (raiseAt blk inst kind k s) (clKey cl) f = rd s (clKey cl) f := raiseAt_rd _ _ _ _ _ _ _ (by simp [clKey, raiseTypes])

/-- What a message changes beside what went before it. -/
theorem RegsKept.raise {l : List ObjTy} {s u : State} {blk inst kind : Nat} {k : Key} (h : Safety.RegsKept l s u) :
    Safety.RegsKept (l ++ Safety.raising) s (raiseAt blk inst kind k u) :=
  RegsKept.trans (RegsKept.mono h (by simp +contextual)) (RegsKept.mono (kept_raiseAt blk inst kind k u) (by simp +contextual))

theorem reloadLoaded_failed (hr : (getCl s cl.val).reload = some r) (hphase : r.phase = .loading true)
    (hbehind : (getCl s cl.val).behind = none) : Safety.Gives (.reloadLoaded cl false) s fun t =>
      clState t cl.val = csFailed ∧ rd t (clKey cl.val) ClCtl.LAST_ERR = 5 ∧ (getCl t cl.val).reload = none ∧ hasImage t cl.val = false ∧
        Safety.RegsKept (.clCtl :: Safety.raising) s t := by
  have hnone : (getCl (loadFailed cl.val s) cl.val).reload = none := by rw [getCl_loadFailed, hbehind]
  refine ⟨raiseAt (0x10 + cl.val) 4 7 (clKey cl.val) (loadFailed cl.val s), ?_, ?_, ?_, ?_, ?_, RegsKept.raise (loadFailed_kept cl.val s)⟩
  · show Host.Outcome.next _ = _
    simp [loadFailed, hr, hphase, hbehind]
  · rw [clState, rd_clKey_raiseAt, loadFailed, rd_wr_apart _ _ _ (by decide), rd_wr_self]
    decide
  · rw [rd_clKey_raiseAt, loadFailed, rd_wr_self]
    decide
  · rw [getCl_raiseAt, hnone]
  · rw [hasImage, getCl_raiseAt, getCl_loadFailed]
    rfl

/-- A cluster whose stores hold a checked image, at the instant that it returns (R104, R112). -/
def resumed (cl at_ : Nat) (r : Reload) (s : State) : State :=
  let x := getCl s cl
  let s := wrWord (reach at_ s) (clVer cl) (versionOf x.image r.protect r.slot)
  let s := wr s (obj .clStatus cl) ClStatus.BANK 0
  dropReload cl (setCl cl { x with base := csRunning } s)

theorem getCl_resumed (cl at_ : Nat) (r : Reload) (s : State) : getCl (resumed cl at_ r s) cl =
    { getCl s cl with base := csRunning, reload := (getCl s cl).behind, behind := none } := by
  simp only [resumed, getCl_dropReload, getCl_setCl_self]

theorem rdWord_resumed (cl at_ : Nat) (r : Reload) (s : State) (k : Key) : rdWord (resumed cl at_ r s) k =
    rdWord (wr (wrWord (reach at_ s) (clVer cl) (versionOf (getCl s cl).image r.protect r.slot)) (obj .clStatus cl) ClStatus.BANK 0) k := by
  rw [resumed, rdWord_dropReload, rdWord_setCl]

theorem le_ct_resumed (cl at_ : Nat) (r : Reload) (s : State) : at_ ≤ (resumed cl at_ r s).ct := by
  rw [resumed, dropReload_parts]
  exact le_reach_ct at_ s

theorem reloadResume_returns {at_ : Nat} (hr : (getCl s cl.val).reload = some r) (hphase : r.phase = .loaded at_)
    (hbehind : (getCl s cl.val).behind = none) (hpark : wantsPark s cl.val = false) : Safety.Gives (.reloadResume cl) s fun t =>
      clState t cl.val = csRunning ∧ (getCl t cl.val).reload = none ∧ rd t (obj .clStatus cl.val) ClStatus.BANK = 0 ∧
        rdWord t (clVer cl.val) = versionOf (getCl s cl.val).image r.protect r.slot ∧ at_ ≤ t.ct ∧
        Safety.RegsKept (.clCtl :: .clVersion :: .clStatus :: Safety.telling) s t := by
  generalize hu : resumed cl.val at_ r s = u
  have hword (k : Key) := (congrArg (rdWord · k) hu).symm.trans (rdWord_resumed cl.val at_ r s k)
  have hcl : getCl u cl.val = { getCl s cl.val with base := csRunning, reload := none, behind := none } := by
    rw [← hu, getCl_resumed, hbehind]
  have hctl : rdWord u (clKey cl.val) = rdWord s (clKey cl.val) := by
    rw [hword, rdWord_wr_ne _ _ _ (by exact nofun), rdWord_wrWord_ne _ _ (by exact nofun), reach_kept at_ s _ (by exact nofun)]
  have hwants : wantsPark u cl.val = false := by
    rw [wantsPark, hcl, flag, rd, hctl]
    exact hpark
  have hreload : (getCl (wr u (clKey cl.val) ClCtl.STATE csRunning) cl.val).reload = none := by rw [getCl_wr, hcl]
  refine ⟨wr u (clKey cl.val) ClCtl.STATE csRunning, ?_, clState_wr _ _ _ (by decide), hreload, ?_, ?_, ?_, fun k hk => ?_⟩
  · show Host.Outcome.next _ = _
    simp only [hr, hphase]
    simp only [resumed, hr] at hu
    rw [hu, hwants]
    simp only [Bool.false_eq_true, if_false, hreload, Option.isSome_none]
    rw [holdWait_none hreload]
  · rw [rd, rdWord_wr_ne _ _ _ (by exact nofun), hword]
    exact rd_wr_self ..
  · rw [rdWord_wr_ne _ _ _ (by exact nofun), hword, rdWord_wr_ne _ _ _ (by exact nofun), rdWord_wrWord_self]
  · exact hu ▸ le_ct_resumed cl.val at_ r s
  · simp only [List.mem_cons, not_or] at hk
    obtain ⟨hctl, hver, hstatus, htell⟩ := hk
    rw [rdWord_wr_ne _ _ _ (by rintro rfl; exact hctl rfl), hword, rdWord_wr_ne _ _ _ (by rintro rfl; exact hstatus rfl),
      rdWord_wrWord_ne _ _ (by rintro rfl; exact hver rfl), reach_kept at_ s k htell]

/-! ## A reload that has waited too long (R111) -/

/-- The instant at which a reload has waited RELOAD_WAIT. -/
def waitEnd (cl : Nat) (r : Reload) (s : State) : Nat := r.since + rd s (clKey cl) ClCtl.RELOAD_WAIT * sec * 65536

/-- A cluster whose reload is abandoned, before the message of it. -/
def abandoned (cl : Nat) (r : Reload) (s : State) : State :=
  wr (showBase cl (dropReload cl (reachIvl (waitEnd cl r s) s))) (clKey cl) ClCtl.LAST_ERR 4

theorem showBase_parts (cl : Nat) (s : State) : showBase cl s = { s with regs := (showBase cl s).regs } := by
  unfold showBase
  split <;> rfl

@[simp] theorem getCl_showBase (cl : Nat) (s : State) (c : Nat) : getCl (showBase cl s) c = getCl s c := by rw [showBase_parts]; rfl

theorem showBase_kept (cl : Nat) (s : State) : Safety.RegsKept [.clCtl] s (showBase cl s) := by
  intro k hk
  unfold showBase
  split
  · exact rdWord_wr_ne _ _ _ (ne_clKey hk)
  · rfl

/-- A cluster without a reload that waits reads RUNNING when it ran. -/
theorem clState_showBase {cl : Nat} {s : State} (h : clState s cl = csRunning ∨ (clState s cl = csPending ∧ (getCl s cl).base = csRunning)) :
    clState (showBase cl s) cl = csRunning := by
  unfold showBase
  rcases h with h | ⟨h, hbase⟩
  · rw [if_neg (by rw [h]; decide), h]
  · rw [if_pos h, hbase, clState_wr _ _ _ (by decide)]

theorem getCl_abandoned (cl : Nat) (r : Reload) (s : State) :
    getCl (abandoned cl r s) cl = { getCl s cl with reload := (getCl s cl).behind, behind := none } := by
  simp only [abandoned, reachIvl, getCl_wr, getCl_showBase, getCl_dropReload, getCl_reach]

theorem abandoned_kept (cl : Nat) (r : Reload) (s : State) : Safety.RegsKept (.clCtl :: Safety.telling) s (abandoned cl r s) := by
  intro k hk
  rw [abandoned, rdWord_wr_ne _ _ _ (ne_clKey hk), showBase_kept cl _ k (fun h => hk (by simp_all)), rdWord_dropReload, reachIvl,
    reach_kept _ s k (List.not_mem_of_not_mem_cons hk)]

theorem clState_abandoned {cl : Nat} {r : Reload} {s : State}
    (h : clState s cl = csRunning ∨ (clState s cl = csPending ∧ (getCl s cl).base = csRunning)) :
    clState (abandoned cl r s) cl = csRunning := by
  rw [abandoned, clState_wr_other _ _ _ (by decide)]
  exact clState_showBase (by simpa [reachIvl] using h)

/-- The end of a reload changes neither time nor the messages that wait. -/
theorem dropReload_time (cl : Nat) (s : State) :
    (dropReload cl s).ct = s.ct ∧ (dropReload cl s).time = s.time ∧ (dropReload cl s).flt = s.flt := by
  unfold dropReload
  dsimp only
  split <;> exact ⟨rfl, rfl, rfl⟩

theorem showBase_time (cl : Nat) (s : State) :
    (showBase cl s).ct = s.ct ∧ (showBase cl s).time = s.time ∧ (showBase cl s).flt = s.flt := by
  unfold showBase
  split <;> exact ⟨rfl, rfl, rfl⟩

theorem abandoned_ct (cl : Nat) (r : Reload) (s : State) : (abandoned cl r s).ct = (reachIvl (waitEnd cl r s) s).ct := by
  rw [abandoned, wr_ct, (showBase_time _ _).1, (dropReload_time _ _).1]

theorem abandoned_time (cl : Nat) (r : Reload) (s : State) : (abandoned cl r s).time = (reachIvl (waitEnd cl r s) s).time := by
  rw [abandoned, wr_time, (showBase_time _ _).2.1, (dropReload_time _ _).2.1]

theorem abandoned_flt (cl : Nat) (r : Reload) (s : State) : (abandoned cl r s).flt = s.flt := by
  rw [abandoned, wr_flt, (showBase_time _ _).2.2, (dropReload_time _ _).2.2, reachIvl, reach_flt]

theorem execReloadAbandon_abandons (hr : (getCl s cl.val).reload = some r) (hphase : r.phase = .queued) (hsweep : r.sweep = false)
    (hpark : parkedOrParking s cl.val = false) (hbehind : (getCl s cl.val).behind = none) :
    execReloadAbandon cl s = .next (raiseAt (0x10 + cl.val) 4 8 (clKey cl.val) (abandoned cl.val r s)) := by
  simp only [execReloadAbandon, hr, hbehind, hphase, hsweep, hpark, ne_eq, not_true_eq_false, Bool.false_eq_true, or_self, if_false]
  rfl

theorem reloadAbandon_abandons (hr : (getCl s cl.val).reload = some r) (hphase : r.phase = .queued) (hsweep : r.sweep = false)
    (hpark : parkedOrParking s cl.val = false) (hbehind : (getCl s cl.val).behind = none) (hstepped : s.time.stepped ≤ (s.ct : Int)) :
    Safety.Gives (.reloadAbandon cl) s fun t =>
      rd t (clKey cl.val) ClCtl.LAST_ERR = 4 ∧ (getCl t cl.val).reload = none ∧
        r.since + rd s (clKey cl.val) ClCtl.RELOAD_WAIT * 10 ^ 9 * 65536 ≤ ivl t ∧
        (getCl t cl.val).image = (getCl s cl.val).image ∧
        (clState s cl.val = csRunning ∨ (clState s cl.val = csPending ∧ (getCl s cl.val).base = csRunning) → clState t cl.val = csRunning) ∧
        ((queueOf s (0x10 + cl.val)).length < 16 →
          ∃ m ∈ queueOf t (0x10 + cl.val), m.inst = 4 ∧ m.kind = 8 ∧ m.addr = addrOf (clKey cl.val)) ∧
        Safety.RegsKept (.clCtl :: Safety.raising) s t := by
  have hcl := getCl_abandoned cl.val r s
  refine ⟨_, execReloadAbandon_abandons hr hphase hsweep hpark hbehind, ?_, ?_, ?_, ?_, fun hst => ?_, fun hroom => ?_, ?_⟩
  · rw [rd_clKey_raiseAt, abandoned, rd_wr_self]
    decide
  · rw [getCl_raiseAt, hcl, hbehind]
  · calc waitEnd cl.val r s ≤ ivl (reachIvl (waitEnd cl.val r s) s) := reachIvl_reaches _ hstepped
      _ = ivl (raiseAt (0x10 + cl.val) 4 8 (clKey cl.val) (abandoned cl.val r s)) := by
        rw [ivl, ivl, raiseAt_ct, (raiseAt_queued ..).stepped, abandoned_ct, abandoned_time]
  · rw [getCl_raiseAt, hcl]
  · rw [clState, rd_clKey_raiseAt]
    exact clState_abandoned hst
  · exact raiseAt_message 4 8 (clKey cl.val) (by rwa [queueOf, abandoned_flt])
  · exact RegsKept.trans (RegsKept.mono (abandoned_kept cl.val r s) (by simp +contextual [Safety.telling, Safety.raising]))
      (RegsKept.mono (kept_raiseAt _ _ _ _ _) (by simp +contextual))

end

/-- Settles O26: each command of a reload by what it does to its cluster. -/
theorem reloads : Obligations.Reloads := by
  unfold Obligations.Reloads
  refine ⟨fun c cl s w => loadGo_queues, fun cl s r hr hsweep hturn hidle hslot habi => ⟨reloadStart_fixes hr hsweep hturn hidle hslot habi,
    reloadStart_waits hr hsweep⟩, fun cl s r => reloadStart_sweep, fun cl s r ts => reloadDrain_drains, fun cl s r => reloadDrained_loads,
    fun cl s => reloadDrained_parks, fun cl s r again => reloadLoaded_checked, fun cl s r => reloadLoaded_failed,
    fun cl s r at_ => reloadResume_returns, fun cl s r => reloadAbandon_abandons⟩

end Sys2Proof.Machine
end

section
/-! Parking and patches (R104, R107, R108, R114): what ENABLE and PATCH_GO do to a cluster, and the switch of its banks. -/
namespace Sys2Proof.Machine

open Sys2Proof

/-! ## Writes that are neither a LOAD_GO nor a PATCH_GO -/

/-- What a PATCH_GO alone does. -/
theorem clWritten_patch {cl old x : Nat} {s : State} (hl : getF x ClCtl.LOAD_GO ≠ 1) (hp : getF x ClCtl.PATCH_GO = 1)
    (he : getF x ClCtl.ENABLE = getF old ClCtl.ENABLE) : clWritten cl old x s = patchGo cl s := by
  rw [clWritten, if_neg hl, if_pos hp, if_pos he]

/-- What a change of ENABLE alone does. -/
theorem clWritten_enable {cl old x : Nat} {s : State} (hl : getF x ClCtl.LOAD_GO ≠ 1) (hp : getF x ClCtl.PATCH_GO ≠ 1)
    (he : getF x ClCtl.ENABLE ≠ getF old ClCtl.ENABLE) :
    clWritten cl old x s = if getF x ClCtl.ENABLE = 0 then parkCluster cl s else returnCluster cl s := by
  rw [clWritten, if_neg hl, if_neg hp, if_neg he]

section
variable {cl : Fin 32} {c : Hdr} {s : State} {w : Waiting}

/-! ## Parking (R114, R116) -/

/-- What changes ENABLE of a cluster, and neither loads nor patches it. -/
theorem clWritten_sets {v : Nat} (hload : rd s (clKey cl.val) ClCtl.LOAD_GO = 0) (hpatch : rd s (clKey cl.val) ClCtl.PATCH_GO = 0)
    (hv : v < 2) (hne : v ≠ rd s (clKey cl.val) ClCtl.ENABLE) (u : State) :
    clWritten cl.val (rdWord s (clKey cl.val)) (putF (rdWord s (clKey cl.val)) ClCtl.ENABLE v) u =
      if v = 0 then parkCluster cl.val u else returnCluster cl.val u := by
  have henable : getF (putF (rdWord s (clKey cl.val)) ClCtl.ENABLE v) ClCtl.ENABLE = v := (getF_put_self ..).trans (Nat.mod_eq_of_lt hv)
  have hl : getF (putF (rdWord s (clKey cl.val)) ClCtl.ENABLE v) ClCtl.LOAD_GO = 0 := (getF_put_apart _ _ (by decide)).trans hload
  have hp : getF (putF (rdWord s (clKey cl.val)) ClCtl.ENABLE v) ClCtl.PATCH_GO = 0 := (getF_put_apart _ _ (by decide)).trans hpatch
  rw [clWritten_enable (by omega) (by omega) (by rw [henable]; exact hne), henable]

theorem inService_clStored (f : Fld) (v : Nat) : inService (clStored cl.val f v s) cl.val = inService s cl.val := by
  rw [inService, inService, clState_clStored]
  rfl

/-- A cluster in service that is parked drains. -/
theorem parkCluster_drains {cl : Nat} {s : State} (h : inService s cl = true) :
    parkCluster cl s = holdWait cl (wr s (clKey cl) ClCtl.STATE csDraining) := by
  rw [parkCluster, if_pos h]

theorem getCl_holdWait_image (cl : Nat) (s : State) : (getCl (holdWait cl s) cl).image = (getCl s cl).image := by
  unfold holdWait
  dsimp only
  split
  · split
    · split
      · rw [getCl_setCl_self]
      · rw [getCl_setCl_self]
      · rfl
    · rfl
  · rfl

@[simp] theorem rdWord_holdWait (cl : Nat) (s : State) (k : Key) : rdWord (holdWait cl s) k = rdWord s k := by rw [holdWait_parts]; rfl

/-- A cluster that drains is not in service. -/
theorem inService_draining {cl : Nat} {s : State} (h : clState s cl = csDraining) : inService s cl = false := by
  simp [inService, h, csDraining, csRunning, csPending]

/-- What an operation changes beside objects of some types, a reply does not change. -/
theorem Answered.ofRegs {l : List ObjTy} {u t : State} {r : Bytes} (h : Safety.Answered [] u t w r) (hu : u = { s with regs := u.regs })
    (hk : Safety.RegsKept l s u) : Safety.Answered l s t w r := by
  refine ⟨h.1, Answered.kept h hk, ?_⟩
  have ht := h.2.2
  generalize t.regs = a at ht ⊢
  generalize t.cmd.sess = b at ht ⊢
  generalize t.cmd.puntQ = d at ht ⊢
  generalize t.out = o at ht ⊢
  generalize u.regs = g at hu
  subst hu
  exact ht

theorem clusterPark_drains (h : Safety.Sets s c w (clKey cl.val) ClCtl.ENABLE 0) (hload : rd s (clKey cl.val) ClCtl.LOAD_GO = 0)
    (hpatch : rd s (clKey cl.val) ClCtl.PATCH_GO = 0) (hon : rd s (clKey cl.val) ClCtl.ENABLE = 1) (hservice : inService s cl.val = true) :
    Safety.Gives (.clusterPark c cl) s fun t =>
      Safety.Done t w [] ∧ Safety.RegsKept [.sessStatus, .clCtl] s t ∧ ((getCl s cl.val).reload = none → Safety.Answered [.clCtl] s t w []) ∧
        (getCl t cl.val).image = (getCl s cl.val).image ∧ clState t cl.val = csDraining ∧ rd t (clKey cl.val) ClCtl.ENABLE = 0 ∧
        inService t cl.val = false := by
  have hgo := hostWrite_cluster h
  rw [clWritten_sets hload hpatch (by decide) (by rw [hon]; decide), if_pos rfl,
    parkCluster_drains ((inService_clStored ..).trans hservice)] at hgo
  have henable : rd (clStored cl.val ClCtl.ENABLE 0 s) (clKey cl.val) ClCtl.ENABLE = 0 :=
    rd_clStored_self (d := rwF ClCtl.ENABLE 1) 0 (by simp [fieldsOf, fieldsClCtl]) rfl
  have hstored := clStored_kept cl.val ClCtl.ENABLE 0 s
  generalize hu : wr (clStored cl.val ClCtl.ENABLE 0 s) (clKey cl.val) ClCtl.STATE csDraining = u at hgo
  have hregs : u = { s with regs := u.regs } := hu ▸ rfl
  have hkept : Safety.RegsKept [.clCtl] s u := fun k hk => by rw [← hu, rdWord_wr_ne _ _ _ (ne_clKey hk), hstored k hk]
  have hheld : Safety.RegsKept [.clCtl] s (holdWait cl.val u) := fun k hk => (rdWord_holdWait ..).trans (hkept k hk)
  have ha := replyWrite_answered h (u := holdWait cl.val u) (by rw [holdWait_parts, hregs]) fun n => hheld _ (by simp [sessKey])
  have hctl : rdWord (replyWrite c (clKey cl.val) (holdWait cl.val u)) (clKey cl.val) = rdWord u (clKey cl.val) :=
    (Answered.rdWord ha (by exact nofun)).trans (rdWord_holdWait ..)
  have hdrain : clState (replyWrite c (clKey cl.val) (holdWait cl.val u)) cl.val = csDraining := by
    rw [clState_congr hctl, ← hu, clState_wr _ _ _ (by decide)]
  refine ⟨_, congrArg Host.Outcome.next hgo, ha.1, Answered.kept ha hheld, fun hnone => ?_, ?_, hdrain, ?_, inService_draining hdrain⟩
  · have hfree : holdWait cl.val u = u := holdWait_none (by rw [hregs]; exact hnone)
    rw [hfree] at ha ⊢
    exact Answered.ofRegs ha hregs hkept
  · rw [getCl_congr (Answered.eng ha), getCl_holdWait_image, hregs]
    rfl
  · rw [rd, hctl, ← hu, ← rd, rd_wr_apart _ _ _ (by decide), henable]

theorem clusterReturn_returns (h : Safety.Sets s c w (clKey cl.val) ClCtl.ENABLE 1) (hload : rd s (clKey cl.val) ClCtl.LOAD_GO = 0)
    (hpatch : rd s (clKey cl.val) ClCtl.PATCH_GO = 0) (hoff : rd s (clKey cl.val) ClCtl.ENABLE = 0) (hst : clState s cl.val = csParked)
    (hshed : (getCl s cl.val).shed = false) (hnone : (getCl s cl.val).reload = none) : Safety.Gives (.clusterReturn c cl) s fun t =>
      Safety.Answered [.clCtl] s t w [] ∧ clState t cl.val = csRunning ∧ rd t (clKey cl.val) ClCtl.ENABLE = 1 ∧ inService t cl.val = true := by
  have hgo := hostWrite_cluster h
  have henable : rd (clStored cl.val ClCtl.ENABLE 1 s) (clKey cl.val) ClCtl.ENABLE = 1 :=
    rd_clStored_self (d := rwF ClCtl.ENABLE 1) 1 (by simp [fieldsOf, fieldsClCtl]) rfl
  have hparked : parkedOrParking (clStored cl.val ClCtl.ENABLE 1 s) cl.val = true := by simp [parkedOrParking, hst]
  have hwants : wantsPark (clStored cl.val ClCtl.ENABLE 1 s) cl.val = false := by simp [wantsPark, flag, henable, hshed]
  have hreturn : returnCluster cl.val (clStored cl.val ClCtl.ENABLE 1 s) =
      wr (clStored cl.val ClCtl.ENABLE 1 s) (clKey cl.val) ClCtl.STATE csRunning := by
    simp [returnCluster, hparked, hwants, hnone]
  rw [clWritten_sets hload hpatch (by decide) (by rw [hoff]; decide), if_neg (by decide), hreturn] at hgo
  have hstored := clStored_kept cl.val ClCtl.ENABLE 1 s
  generalize hu : wr (clStored cl.val ClCtl.ENABLE 1 s) (clKey cl.val) ClCtl.STATE csRunning = u at hgo
  have hregs : u = { s with regs := u.regs } := hu ▸ rfl
  have hkept : Safety.RegsKept [.clCtl] s u := fun k hk => by rw [← hu, rdWord_wr_ne _ _ _ (ne_clKey hk), hstored k hk]
  have ha := replyWrite_answered h (u := u) (by rw [hregs]) fun n => hkept _ (by simp [sessKey])
  have hctl := Answered.rdWord ha (k := clKey cl.val) (by exact nofun)
  have hrun : clState (replyWrite c (clKey cl.val) u) cl.val = csRunning := by rw [clState_congr hctl, ← hu, clState_wr _ _ _ (by decide)]
  refine ⟨_, congrArg Host.Outcome.next hgo, Answered.ofRegs ha hregs hkept, hrun, ?_, by simp [inService, hrun]⟩
  rw [rd, hctl, ← hu, ← rd, rd_wr_apart _ _ _ (by decide), henable]

/-! ## PATCH_GO (R106 to R108) -/

variable {u v : State}

theorem stagedPatch_congr (h : Safety.RegsKept [.clCtl] s v) (cl : Nat) : stagedPatch v cl = stagedPatch s cl :=
  List.map_congr_left fun i _ => by rw [h _ (by simp)]

theorem bankNow_congr (h : rdWord v (obj .clStatus cl.val) = rdWord s (obj .clStatus cl.val)) : bankNow v cl.val = bankNow s cl.val :=
  congrArg (getF · ClStatus.BANK) h

/-- A patch whose form is right is judged by its digest and its signer. -/
theorem patchGo_formed {cl : Nat} {p : Tab Nat} (hp : stagedPatch s cl = p) (hform : patchFormOk (getCl s cl) p = true) : patchGo cl s =
    if digestOk p 320 (8 * imgNat p 57 1 + 24 * imgNat p 58 1) = false then patchRefused cl 2 s
    else if (if imgNat p 112 97 = 0 then parityMode s cl else (signerSlot s p).isSome && signatureOk p) = false then patchRefused cl 1 s
    else setCl cl { getCl s cl with banks := (getCl s cl).banks.set (1 - bankNow s cl) (patchOverlay p),
                                    patch := some (s.ct + 10000 * 65536) } s := by
  have hsigner : (((imgNat p 112 97 != 0) && ((signerSlot s p).isNone || !signatureOk p)) || (!(imgNat p 112 97 != 0) && !parityMode s cl)) =
      !(if imgNat p 112 97 = 0 then parityMode s cl else (signerSlot s p).isSome && signatureOk p) := by
    by_cases hunsigned : imgNat p 112 97 = 0
    · simp [hunsigned]
    · have hsigned : (imgNat p 112 97 != 0) = true := by simpa using hunsigned
      cases signerSlot s p <;> simp [hunsigned, hsigned]
  unfold patchGo
  simp only [hp, hform, hsigner, Bool.not_true, Bool.false_eq_true, if_false, Bool.not_eq_true']

theorem signerSlot_congr (h : Safety.RegsKept [.clCtl] s v) (p : Tab Nat) : signerSlot v p = signerSlot s p := by
  have hkey (k : Nat) (f : Fld) : rd v (obj .opKey k) f = rd s (obj .opKey k) f := RegsKept.rd h (by simp) f
  simp only [signerSlot, keySlotOf, programmedSlots, hkey]

/-- What a PATCH_GO is judged by and what it writes, its own write leaves. -/
theorem patchGo_clStored {cl : Nat} {p : Tab Nat} (hp : stagedPatch s cl = p) (hform : patchFormOk (getCl s cl) p = true) :
    patchGo cl (clStored cl ClCtl.PATCH_GO 1 s) =
    if digestOk p 320 (8 * imgNat p 57 1 + 24 * imgNat p 58 1) = false then patchRefused cl 2 (clStored cl ClCtl.PATCH_GO 1 s)
    else if (if imgNat p 112 97 = 0 then parityMode s cl else (signerSlot s p).isSome && signatureOk p) = false then
      patchRefused cl 1 (clStored cl ClCtl.PATCH_GO 1 s)
    else setCl cl { getCl s cl with banks := (getCl s cl).banks.set (1 - bankNow s cl) (patchOverlay p),
                                    patch := some (s.ct + 10000 * 65536) } (clStored cl ClCtl.PATCH_GO 1 s) := by
  have hkept := clStored_kept cl ClCtl.PATCH_GO 1 s
  have hmode : parityMode (clStored cl ClCtl.PATCH_GO 1 s) cl = parityMode s cl := by rw [parityMode, parityMode, rd, rd, hkept _ (by exact nofun)]
  have hbank : bankNow (clStored cl ClCtl.PATCH_GO 1 s) cl = bankNow s cl := by rw [bankNow, bankNow, rd, rd, hkept _ (by exact nofun)]
  rw [patchGo_formed ((stagedPatch_congr hkept cl).trans hp) hform, hmode, hbank, signerSlot_congr hkept]
  rfl

/-- The write of PATCH_GO is answered once the patch has been judged. -/
theorem hostWrite_patchGo (h : Safety.Sets s c w (clKey cl.val) ClCtl.PATCH_GO 1) (hload : rd s (clKey cl.val) ClCtl.LOAD_GO = 0) :
    execPatchGo c cl s = .next (replyWrite c (clKey cl.val) (patchGo cl.val (clStored cl.val ClCtl.PATCH_GO 1 s))) := by
  have hl : getF (putF (rdWord s (clKey cl.val)) ClCtl.PATCH_GO 1) ClCtl.LOAD_GO = 0 := (getF_put_apart _ _ (by decide)).trans hload
  have hp : getF (putF (rdWord s (clKey cl.val)) ClCtl.PATCH_GO 1) ClCtl.PATCH_GO = 1 := getF_put_self ..
  rw [execPatchGo, hostWrite_cluster h, clWritten_patch (by omega) hp (getF_put_apart _ _ (by decide))]

theorem patchGo_schedules {p : Tab Nat} (h : Safety.Sets s c w (clKey cl.val) ClCtl.PATCH_GO 1) (hload : rd s (clKey cl.val) ClCtl.LOAD_GO = 0)
    (hp : stagedPatch s cl.val = p) (hform : patchFormOk (getCl s cl.val) p = true)
    (hgood : digestOk p 320 (8 * imgNat p 57 1 + 24 * imgNat p 58 1) = true)
    (hsigner : (if imgNat p 112 97 = 0 then parityMode s cl.val else (signerSlot s p).isSome && signatureOk p) = true) :
    Safety.Gives (.patchGo c cl) s fun t =>
      Safety.Done t w [] ∧ (getCl t cl.val).patch = some (s.ct + 10000 * 65536) ∧
        (getCl t cl.val).banks = (getCl s cl.val).banks.set (1 - bankNow s cl.val) (patchOverlay p) ∧
        bankNow t cl.val = bankNow s cl.val ∧ Safety.RegsKept [.sessStatus, .clCtl] s t := by
  have hgo := hostWrite_patchGo h hload
  rw [patchGo_clStored hp hform, hgood, hsigner, if_neg (by decide), if_neg (by decide)] at hgo
  have hstored := clStored_kept cl.val ClCtl.PATCH_GO 1 s
  generalize hv : clStored cl.val ClCtl.PATCH_GO 1 s = v at hgo hstored
  generalize hu : setCl cl.val _ v = u at hgo
  have hkept : Safety.RegsKept [.clCtl] s u := hu ▸ hstored
  have ha := replyWrite_answered h (u := u) (by rw [← hu, ← hv]; rfl) fun n => hkept _ (by simp [sessKey])
  have hcl : getCl (replyWrite c (clKey cl.val) u) cl.val = getCl u cl.val := getCl_congr (Answered.eng ha) _
  refine ⟨_, hgo, ha.1, ?_, ?_, bankNow_congr (Answered.kept ha hkept _ (by simp)), Answered.kept ha hkept⟩
  · rw [hcl, ← hu, getCl_setCl_self]
  · rw [hcl, ← hu, getCl_setCl_self]

theorem emitReply_eng (n : Nat) (p : MgmtPort) (mac : BitVec 48) (op st seq hint : Nat) (addr : ObjAddr) (r : Bytes) (s : State) :
    (emitReply n p mac op st seq addr hint r s).eng = s.eng := by
  obtain ⟨c, q, l, hp, -⟩ := puntsBefore_parts p s
  unfold emitReply
  dsimp only
  rw [hp]
  split <;> rfl

/-- A reply leaves the clusters and every object but a session's status. -/
theorem replyWrite_leaves {k : Key} (h : Safety.Write s c w k x) (hcmd : u.cmd.waiting = s.cmd.waiting) :
    (replyWrite c k u).eng = u.eng ∧ Safety.RegsKept [.sessStatus] u (replyWrite c k u) := by
  have hwait : u.cmd.waiting = [w] := hcmd.trans h.turn.only
  have hreply : replyWrite c k u = sendReply w stOk 0 0 [] { u with cmd := { u.cmd with waiting := [] } } := by
    rw [replyWrite_done k hwait h.turn.mine h.turn.opcode, done, ← h.turn.mine]
    exact finish_answers hwait h.turn.queued
  rw [hreply]
  refine ⟨?_, fun j hj => sendReply_ne (by rintro rfl; exact hj (by simp [sessKey]))⟩
  obtain ⟨r, -, heng⟩ := sendReply_rest State.eng (fun _ _ _ _ => rfl) (fun _ _ _ => rfl) w stOk 0 0
    { u with cmd := { u.cmd with waiting := [] } }
  rw [heng, emitReply_eng]

theorem patchGo_refuses {p : Tab Nat} {good signer : Bool} (h : Safety.Sets s c w (clKey cl.val) ClCtl.PATCH_GO 1)
    (hload : rd s (clKey cl.val) ClCtl.LOAD_GO = 0) (hp : stagedPatch s cl.val = p) (hform : patchFormOk (getCl s cl.val) p = true)
    (hgood : good = digestOk p 320 (8 * imgNat p 57 1 + 24 * imgNat p 58 1))
    (hsigner : signer = (if imgNat p 112 97 = 0 then parityMode s cl.val else (signerSlot s p).isSome && signatureOk p))
    (hbad : good = false ∨ signer = false) : Safety.Gives (.patchGo c cl) s fun t =>
      (getCl t cl.val).banks = (getCl s cl.val).banks ∧ (getCl t cl.val).patch = (getCl s cl.val).patch ∧
        rd t (clKey cl.val) ClCtl.LAST_ERR = (if good then 1 else 2) ∧ Safety.RegsKept (.clCtl :: Safety.raising) s t := by
  have hgo := hostWrite_patchGo h hload
  have hrefused : patchGo cl.val (clStored cl.val ClCtl.PATCH_GO 1 s) =
      patchRefused cl.val (if good then 1 else 2) (clStored cl.val ClCtl.PATCH_GO 1 s) := by
    rw [patchGo_clStored hp hform, ← hgood, ← hsigner]
    cases good
    · rw [if_pos rfl, if_neg (by decide)]
    · rw [if_neg (by decide), if_pos (hbad.resolve_left (by decide)), if_pos rfl]
  have herr : (if good then 1 else 2) < 2 ^ ClCtl.LAST_ERR.w := by split <;> decide
  generalize (if good then 1 else 2) = err at hrefused herr ⊢
  have hstored := clStored_kept cl.val ClCtl.PATCH_GO 1 s
  have heng : (clStored cl.val ClCtl.PATCH_GO 1 s).eng = s.eng := id rfl
  have hcmd : (clStored cl.val ClCtl.PATCH_GO 1 s).cmd = s.cmd := id rfl
  rw [hrefused, patchRefused] at hgo
  generalize clStored cl.val ClCtl.PATCH_GO 1 s = v at hgo hstored heng hcmd
  have hwritten : Safety.RegsKept [.clCtl] s (wr v (clKey cl.val) ClCtl.LAST_ERR err) := fun k hk => by
    rw [rdWord_wr_ne _ _ _ (ne_clKey hk), hstored k hk]
  obtain ⟨hreng, hrkept⟩ := replyWrite_leaves h (u := raiseAt (0x10 + cl.val) 4 9 (clKey cl.val) (wr v (clKey cl.val) ClCtl.LAST_ERR err))
    ((raise_waiting ..).trans (congrArg Cmd.waiting hcmd))
  have hcl : getCl (replyWrite c (clKey cl.val) (raiseAt (0x10 + cl.val) 4 9 (clKey cl.val) (wr v (clKey cl.val) ClCtl.LAST_ERR err))) cl.val =
      getCl s cl.val := by
    rw [getCl_congr hreng, getCl_raiseAt, getCl_wr, getCl_congr heng]
  refine ⟨_, hgo, by rw [hcl], by rw [hcl], ?_, ?_⟩
  · rw [RegsKept.rd hrkept (by simp [clKey]), rd_clKey_raiseAt, rd_wr_self, Nat.mod_eq_of_lt herr]
  · exact RegsKept.trans (RegsKept.raise hwritten) (RegsKept.mono hrkept (by simp [Safety.raising]))

theorem patchSwitch_switches {at_ : Nat} (hpatch : (getCl s cl.val).patch = some at_) : Safety.Gives (.patchSwitch cl) s fun t =>
    bankNow t cl.val = (1 - bankNow s cl.val) % 2 ^ ClStatus.BANK.w ∧ (getCl t cl.val).patch = none ∧ at_ ≤ t.ct ∧
      rd t (clVer cl.val) ClVersion.PATCH_LEVEL = (bankOf (getCl s cl.val) (1 - bankNow s cl.val)).level % 256 ∧
      Safety.RegsKept (.clStatus :: .clVersion :: Safety.telling) s t := by
  let u := setCl cl.val { getCl s cl.val with patch := none } (reach at_ s)
  have hbank : bankNow u cl.val = bankNow s cl.val := bankNow_congr (reach_kept at_ s _ (by exact nofun))
  refine ⟨wr (wr u (obj .clStatus cl.val) ClStatus.BANK (1 - bankNow s cl.val)) (clVer cl.val) ClVersion.PATCH_LEVEL
    (bankOf (getCl s cl.val) (1 - bankNow s cl.val)).level, ?_, ?_, ?_, le_reach_ct at_ s, rd_wr_self .., fun k hk => ?_⟩
  · show Host.Outcome.next _ = _
    simp only [hpatch]
    rw [← hbank]
  · rw [bankNow, rd_wr_ne _ _ _ _ (by exact nofun), rd_wr_self]
  · rw [getCl_wr, getCl_wr, getCl_setCl_self]
  · simp only [List.mem_cons, not_or] at hk
    obtain ⟨hstatus, hver, htell⟩ := hk
    rw [rdWord_wr_ne _ _ _ (by rintro rfl; exact hver rfl), rdWord_wr_ne _ _ _ (by rintro rfl; exact hstatus rfl), rdWord_setCl,
      reach_kept at_ s k htell]

end

/-- Settles O27: ENABLE by the state that it leaves a cluster in, PATCH_GO by its verdict, the switch by the banks. -/
theorem parkingAndPatches : Obligations.ParkingAndPatches := by
  unfold Obligations.ParkingAndPatches
  refine ⟨fun c cl s w => clusterPark_drains, fun c cl s w => clusterReturn_returns, fun c cl s w p good signer h hload hp hform hgood hsigner =>
    ⟨fun hg hs => patchGo_schedules h hload hp hform (hgood.symm.trans hg) (hsigner.symm.trans hs),
      patchGo_refuses h hload hp hform hgood hsigner⟩, fun cl s at_ => patchSwitch_switches⟩

end Sys2Proof.Machine
end

section
/-! Threads whose pass has ended (R137, R162): a result that is formed lands at its thread, and a result that an ended pass left formed would
bring that thread back as it was. -/
namespace Sys2Proof.Machine

open Sys2Proof

/-- A pass that has ended without a register, its lookup's result formed. No step leaves one: an ended pass is kept only for a lookup that its
unit still holds (R137). -/
def formedOrphan : Thread :=
  { hold := .ready, pc := 0, g := [], win := 0, words := [], z := false, c := false, n := false, m := false, e := false, t := true, l := false,
    o := false, stack := [],
    egress := false,
    ref := { pkt := 0, lease := false, tc := 0, len := 64, prec := 0, mirror := none, words := [], group := none, occ := false, page := none,
             qseq := 0, from_ := ownerNone },
    outPort := 0, started := 0, bank := 0, epoch := 0, patBank := none,
    look := some { unit := .pat, klen := 0, key := [], raBig := false, imm := 0, rd := 0, win := 0, phase := .formed 0 false false },
    outcome := none, meter := none, hash := 0, mirrors := [], cause := 0, no := 0 }

/-- A device without a busy thread, that pass left behind, whose next command is the landing of its result. -/
def orphaned : State :=
  { State.reset with eng := { State.reset.eng with orphans := [(0, formedOrphan)] }, pending := [.lookupResult 0 .clean] }

/-- The result lands: the ended pass is a busy thread again, still without a register. -/
theorem step_orphaned : ∃ t, step orphaned = .next t ∧
    t.eng.threads = [(0, { formedOrphan with look := none })] := ⟨_, rfl, rfl⟩

/-- Refutes O24: the statement speaks of the busy threads alone, and the result of an ended pass that is formed makes a busy thread of whatever
that pass left, here one without registers. -/
theorem not_threadsKeepShape : ¬ Obligations.ThreadsKeepShape := by
  unfold Obligations.ThreadsKeepShape
  intro h
  obtain ⟨t, hstep, hthreads⟩ := step_orphaned
  have hnone : orphaned.eng.threads = [] := rfl
  have hshape := h orphaned t (by simp [hnone]) hstep (0, { formedOrphan with look := none }) (by simp [hthreads])
  exact absurd hshape.1 (by decide)

end Sys2Proof.Machine
end

section
/-! The member of a group that a flow takes (R132). -/
namespace Sys2Proof.Machine

open Sys2Proof

/-- A hash of 32 bits chooses a place that the group has. -/
theorem memberIx_lt {l : List Nat} {hash : Nat} (hl : l ≠ []) (hh : hash < 2 ^ 32) : memberIx l hash < l.length := by
  have hlen : 0 < l.length := List.length_pos_iff.2 hl
  have htop : hash / 2 ^ 16 < 65536 := by omega
  exact Nat.div_lt_of_lt_mul (Nat.mul_lt_mul_of_pos_right htop hlen)

/-- The member at that place is the one that the flow takes. -/
theorem getElem?_memberIx {l : List Nat} {hash : Nat} (h : memberIx l hash < l.length) : l[memberIx l hash]? = some (memberOf l hash) := by
  rw [memberOf, ← memberIx, List.getElem?_eq_getElem h, List.getD_eq_getElem _ _ h]

/-- Settles O33: H[31:16] is all that a 32-bit hash has above bit 15. -/
theorem memberChoice : Obligations.MemberChoice := by
  unfold Obligations.MemberChoice
  intro l hash hl hh
  have htop : bitsAt hash 16 16 = hash / 2 ^ 16 := Nat.mod_eq_of_lt (by omega)
  rw [htop]
  exact ⟨memberIx l hash, rfl, memberIx_lt hl hh, getElem?_memberIx (memberIx_lt hl hh)⟩

end Sys2Proof.Machine
end

section
/-! What a command that waits behind a phase of its own is answered, and what its answer leaves (R55, R58). -/
namespace Sys2Proof.Machine

open Sys2Proof

/-- The phase of the only command that waits, when it is queued. -/
theorem setPhase_only {s : State} {c : Hdr} {w : Waiting} (ph : Phase) (h : s.cmd.waiting = [w]) (hc : w.hdr = c)
    (hq : w.phase = .queued) : setPhase c ph s = { s with cmd := { s.cmd with waiting := [{ w with phase := ph }] } } := by
  simp only [setPhase, h, List.map_cons, List.map_nil, hq, hc, if_true]

/-- An answer with a result, of the only command that waits, whatever it waits for. -/
theorem ok_answered_undone {u : State} {c : Hdr} {w : Waiting} {r : Bytes} (h : u.cmd.waiting = [w]) (hc : w.hdr = c)
    (hq : ∀ st a h r f, w.phase ≠ .done st a h r f) (ho : w.op ≠ 0x0305)
    (hs : nextSeqOf u c.sid.val + fragments (24 + r.length) < 2 ^ 64) : Safety.Answered [] u (ok c r u) w r := by
  obtain ⟨g, x, y, l, heq, hregs, hkeys⟩ := finish_parts (st := stOk) (addr := 0) (hint := 0) (r := r) h hc hq ho hs
  replace hkeys : keysOf (ok c r u) w.hdr.sid.val = keysOf u w.hdr.sid.val := hkeys _
  rw [← ok] at heq
  refine ⟨⟨by rw [heq], nextSeqOf u c.sid.val, l ++ u.out, ?_⟩, fun k hk => ?_, by rw [heq]⟩
  · rw [replyOf_keys hkeys, heq, nextSeqOf]
  · rw [heq]
    exact hregs k (by simpa using hk)

/-- A short result takes one frame, which a stream has left that is not near its end (R40, R53). -/
theorem one_fragment {n q : Nat} (hn : n ≤ 8168) (hq : q < 2 ^ 64 - 1) : q + fragments (24 + n) < 2 ^ 64 := by
  unfold fragments
  omega

theorem Answered.tbl {u t : State} {w : Waiting} {r : Bytes} (h : Safety.Answered [] u t w r) : t.tbl = u.tbl := by
  obtain ⟨-, -, hparts⟩ := h
  rw [hparts]

end Sys2Proof.Machine
end

section
/-! Inserts and deletes (R139 to R141, R144, R145): what passes the checks waits for its turn, and joins the pending set there. -/
namespace Sys2Proof.Machine

open Sys2Proof

theorem exec_tableInsert (c : Hdr) (tid keyLen entLen res : BitVec 16) (key entry : Bytes) (s : State) :
    exec (.tableInsert c tid keyLen entLen res key entry) s = execTableInsert c tid keyLen entLen res key entry s := by rfl

theorem exec_tableDelete (c : Hdr) (tid keyLen : BitVec 16) (res : BitVec 32) (key : Bytes) (s : State) :
    exec (.tableDelete c tid keyLen res key) s = execTableDelete c tid keyLen res key s := by rfl

theorem exec_tableChangeTurn (s : State) : exec .tableChangeTurn s = execTableChangeTurn s := by rfl

/-! ## The turn of a change (R145) -/

/-- A change is the last of those that wait for their turn, and its command waits with it. -/
def turnTaken (x : Machine.Turn) (w : Waiting) (s : State) : State :=
  { s with cmd := { s.cmd with waiting := [{ w with phase := .turn }] }, tbl := { s.tbl with turns := s.tbl.turns ++ [x] } }

/-- With room for it, a change takes its place. -/
theorem applyTurn_taken {s : State} {c : Hdr} {w : Waiting} {op acc plen blk : Nat} (tid key : Nat) (e : Option (List Nat))
    (ht : Safety.Turn s c w op acc plen blk) (hbuild : s.tbl.unbuilt + s.tbl.turns.length < maxUnbuilt)
    (hturns : s.tbl.turns.length < maxTurns) : applyTurn c tid key e s = turnTaken ⟨c, tid, key, e⟩ w s := by
  unfold applyTurn
  rw [if_neg (by omega), if_neg (by omega),
    setPhase_only (s := { s with tbl := { s.tbl with turns := s.tbl.turns ++ [⟨c, tid, key, e⟩] } }) .turn ht.only ht.mine ht.queued]
  rfl

section
variable {c : Hdr} {tid keyLen entLen : BitVec 16} {key entry : Bytes} {s : State} {w : Waiting}

theorem tableInsert_waits (ht : Safety.Turn s c w 0x0301 accConfig (8 + keyLen.toNat + entLen.toNat) 0x30)
    (htab : isTable tid.toNat = true) (hkl : key.length = keyLen.toNat) (hel : entry.length = entLen.toNat)
    (hklen : keyLen.toNat = keyLenOf s tid.toNat) (helen : entryLenOk tid.toNat entry = true) (hkey : keyOk s tid.toNat key = true)
    (hent : entryOk tid.toNat entry = true) (hbuild : s.tbl.unbuilt + s.tbl.turns.length < maxUnbuilt)
    (hturns : s.tbl.turns.length < maxTurns) :
    exec (.tableInsert c tid keyLen entLen 0 key entry) s =
      .next (turnTaken ⟨c, tid.toNat, keyNumber s tid.toNat key, some (entryWords tid.toNat entry)⟩ w s) := by
  have hplen := ht.length
  rw [exec_tableInsert, execTableInsert]
  rw [beq_self_eq_true, checked_pass (w := w) (hplen.symm ▸ ht) (by simp [hplen, hkl, hel, ← hklen, helen])]
  simp only [need, htab, hkey, hent, Bool.and_self, if_true, applyTurn_taken _ _ _ ht hbuild hturns]

theorem tableDelete_waits (ht : Safety.Turn s c w 0x0302 accConfig (8 + keyLen.toNat) 0x30) (htab : isTable tid.toNat = true)
    (hkl : key.length = keyLen.toNat) (hklen : keyLen.toNat = keyLenOf s tid.toNat) (hkey : keyOk s tid.toNat key = true)
    (hbuild : s.tbl.unbuilt + s.tbl.turns.length < maxUnbuilt) (hturns : s.tbl.turns.length < maxTurns) :
    exec (.tableDelete c tid keyLen 0 key) s = .next (turnTaken ⟨c, tid.toNat, keyNumber s tid.toNat key, none⟩ w s) := by
  have hplen := ht.length
  rw [exec_tableDelete, execTableDelete]
  rw [beq_self_eq_true, checked_pass (w := w) (hplen.symm ▸ ht) (by simp [hplen, hkl, ← hklen])]
  simp only [need, htab, hkey, if_true, applyTurn_taken _ _ _ ht hbuild hturns]

end

/-! ## A change joins the pending set (R144) -/

theorem pendOf_addChange (tid key : Nat) (e : Option (List Nat)) (s : State) :
    pendOf (addChange tid key e s) tid = tabPut (pendOf s tid) key e := tabGet_put_self ..

/-- The open set comes after every closed one, so the change decides what its key will hold. -/
theorem futureEntry_addChange (tid key : Nat) (e : Option (List Nat)) (s : State) :
    futureEntry (addChange tid key e s) tid key = e := by
  have hlast : (setsOf (addChange tid key e s) tid).reverse.findSome? (fun t => tabGet? t key) = some e := by
    simp [setsOf, pendOf_addChange]
  simp only [futureEntry, hlast]

theorem futureEntry_congr {s t : State} (h : t.tbl = s.tbl) (tid key : Nat) : futureEntry t tid key = futureEntry s tid key := by
  simp only [futureEntry, setsOf, pendOf, epochHead, h]

/-- The oldest change, allowed at its turn, joins the pending set and is answered. -/
theorem execTableChangeTurn_joins {s : State} {w : Waiting} {x : Machine.Turn} {rest : List Machine.Turn} (hturns : s.tbl.turns = x :: rest)
    (hw : s.cmd.waiting = [w]) (hc : w.hdr = x.hdr)
    (hok : changeOk { s with tbl := { s.tbl with turns := rest } } x.tid x.key x.entry = true) :
    exec .tableChangeTurn s = .next (ok x.hdr [] (addChange x.tid x.key x.entry { s with tbl := { s.tbl with turns := rest } })) := by
  have hfound : waitingOf { s with tbl := { s.tbl with turns := rest } } x.hdr = some w := waitingOf_only hw hc
  simp only [exec_tableChangeTurn, execTableChangeTurn, hturns, hfound, Option.isNone_some, Bool.false_eq_true, if_false, hok, if_true]
  rfl

/-- Settles O28: the insert and the delete by the turn that they take, the turn by the pending set that it leaves. -/
theorem tableChanges : Obligations.TableChanges := by
  unfold Obligations.TableChanges
  refine ⟨fun c tid keyLen entLen key entry s w ht htab hkl hel hklen helen hkey hent hbuild hturns =>
      ⟨_, tableInsert_waits ht htab hkl hel hklen helen hkey hent hbuild hturns, rfl, rfl, rfl⟩,
    fun c tid keyLen key s w ht htab hkl hklen hkey hbuild hturns =>
      ⟨_, tableDelete_waits ht htab hkl hklen hkey hbuild hturns, rfl, rfl, rfl⟩,
    fun s w x rest hturns hw hc hph hop hseq hok => ⟨_, execTableChangeTurn_joins hturns hw hc hok, ?_⟩⟩
  have hroom : nextSeqOf s x.hdr.sid.val + fragments (24 + ([] : Bytes).length) < 2 ^ 64 :=
    one_fragment (Nat.zero_le _) (by rw [nextSeqOf, ← hc]; omega)
  have ha := ok_answered_undone (u := addChange x.tid x.key x.entry { s with tbl := { s.tbl with turns := rest } }) (r := []) hw hc
    (by simp [hph]) (by omega) hroom
  have htbl := Answered.tbl ha
  obtain ⟨hdone, hkept, -⟩ := ha
  exact ⟨hdone, by rw [htbl]; rfl, (futureEntry_congr htbl _ _).trans (futureEntry_addChange ..), by rw [htbl]; rfl, by rw [htbl]; rfl, hkept⟩

end Sys2Proof.Machine
end

section
/-! Commits and epochs (R146 to R149): the sets that a commit closes, the fixing of its switch, the switch, and the end of an epoch. -/
namespace Sys2Proof.Machine

open Sys2Proof

theorem exec_tableCommit (c : Hdr) (tid res : BitVec 16) (s : State) : exec (.tableCommit c tid res) s = execTableCommit c tid res s := by rfl

theorem exec_commitBuildDone (s : State) : exec .commitBuildDone s = execCommitBuildDone s := by rfl

theorem exec_epochSwitch (s : State) : exec .epochSwitch s = execEpochSwitch s := by rfl

theorem exec_epochRetire (s : State) : exec .epochRetire s = execEpochRetire s := by rfl

/-! ## The commit of all tables (R146) -/

/-- The pending sets that hold a change. -/
def openSets (s : State) : Tab Changes := s.tbl.pend.filter fun e => !e.2.isEmpty

/-- A set without a change adds nothing to their number. -/
theorem sum_openSets (s : State) : ((openSets s).map fun e => e.2.length).sum = (s.tbl.pend.map fun e => e.2.length).sum := by
  unfold openSets
  induction s.tbl.pend with
  | nil => rfl
  | cons e l ih =>
    rw [List.filter_cons]
    split
    · rw [List.map_cons, List.sum_cons, List.map_cons, List.sum_cons, ih]
    · next hempty =>
      have hzero : e.2.length = 0 := by simpa using hempty
      rw [ih, List.map_cons, List.sum_cons, hzero, Nat.zero_add]

/-- What a commit of all tables has closed. -/
def commitOf (c : Hdr) (s : State) : Commit :=
  { hdr := c, sets := openSets s, changes := (s.tbl.pend.map fun e => e.2.length).sum, mark := s.tbl.taken, phase := .building }

/-- A commit of all tables has closed the pending sets, and its command waits for the epoch. -/
def commitClosed (c : Hdr) (w : Waiting) (s : State) : State :=
  { s with cmd := { s.cmd with waiting := [{ w with phase := .started 0x30 }] }
           tbl := { s.tbl with pend := [], commits := s.tbl.commits ++ [commitOf c s] } }

theorem tableCommit_closes {c : Hdr} {s : State} {w : Waiting} (ht : Safety.Turn s c w 0x0303 accConfig 4 0x30) :
    exec (.tableCommit c 0 0) s = .next (settleCommits (s.tbl.commits.length + 1) (commitClosed c w s)) := by
  have hplen := ht.length
  have hsets : (s.tbl.pend.filter fun e => ((0 : BitVec 16).toNat == 0 || e.1 == (0 : BitVec 16).toNat) && !e.2.isEmpty) = openSets s := by
    simp [openSets]
  have hpend : (s.tbl.pend.filter fun e => !((0 : BitVec 16).toNat == 0 || e.1 == (0 : BitVec 16).toNat)) = [] := by simp
  have hwaits : defer c 0x30 { s with tbl := { s.tbl with pend := [], commits := s.tbl.commits ++ [commitOf c s] } } = commitClosed c w s :=
    setPhase_only (.started 0x30) ht.only ht.mine ht.queued
  unfold commitOf at hwaits
  rw [exec_tableCommit, execTableCommit, beq_self_eq_true, checked_pass (w := w) (hplen.symm ▸ ht) (by simp [hplen])]
  simp only [need, show ((0 : BitVec 16).toNat == 0) = true from rfl, Bool.true_or, if_true] at hsets hpend ⊢
  rw [hsets, hpend, sum_openSets, hwaits, commitClosed, List.length_append]
  rfl

/-- A commit at the head that has changes stays as it is while it is being built. -/
theorem settleCommits_building {n : Nat} {s : State} {k : Commit} {rest : List Commit} (h : s.tbl.commits = k :: rest) (hk : k.changes ≠ 0)
    (hp : k.phase = .building) : settleCommits n s = s := by
  cases n with
  | zero => rfl
  | succ n => simp [settleCommits, fixSwitch, h, hk, hp]

theorem settleCommits_nil {n : Nat} {s : State} (h : s.tbl.commits = []) : settleCommits n s = s := by
  cases n with
  | zero => rfl
  | succ n => simp only [settleCommits, h]

/-- A commit that found nothing pending, alone, is answered with the epoch in force and 0. -/
theorem settleCommits_one_empty {s : State} {k : Commit} (h : s.tbl.commits = [k]) (hk : k.changes = 0) :
    settleCommits 1 s =
      ok k.hdr (toBytes 8 (epochHead s).number ++ toBytes 4 0) { s with tbl := { s.tbl with commits := [] } } := by
  simp only [settleCommits, h, hk, if_true]

theorem tableCommit_waits {c : Hdr} {s : State} {w : Waiting} (ht : Safety.Turn s c w 0x0303 accConfig 4 0x30) (hnone : s.tbl.commits = [])
    (hsome : 0 < (s.tbl.pend.map fun e => e.2.length).sum) : exec (.tableCommit c 0 0) s = .next (commitClosed c w s) := by
  have hhead : (commitClosed c w s).tbl.commits = commitOf c s :: [] := congrArg (· ++ [commitOf c s]) hnone
  rw [tableCommit_closes ht, settleCommits_building hhead hsome.ne' rfl]

theorem tableCommit_answers_empty {c : Hdr} {s : State} {w : Waiting} (ht : Safety.Turn s c w 0x0303 accConfig 4 0x30)
    (hnone : s.tbl.commits = []) (hpend : s.tbl.pend = []) : Safety.Gives (.tableCommit c 0 0) s fun t =>
      Safety.Answered [] s t w (toBytes 8 (epochHead s).number ++ toBytes 4 0) := by
  have hhead : (commitClosed c w s).tbl.commits = [commitOf c s] := congrArg (· ++ [commitOf c s]) hnone
  have hzero : (commitOf c s).changes = 0 := congrArg (fun l => (List.map (fun e : Nat × Changes => e.2.length) l).sum) hpend
  have htbl : { (commitClosed c w s).tbl with commits := [] } = s.tbl := by
    rw [commitClosed, ← hpend, ← hnone]
  have hlen : (toBytes 8 (epochHead s).number ++ toBytes 4 0).length ≤ 8168 := by simp [length_toBytes]
  refine ⟨_, tableCommit_closes ht, ?_⟩
  rw [hnone, List.length_nil, settleCommits_one_empty hhead hzero, htbl]
  have ha := ok_answered_undone (u := { commitClosed c w s with tbl := s.tbl }) (w := { w with phase := .started 0x30 })
    (r := toBytes 8 (epochHead s).number ++ toBytes 4 0) rfl ht.mine nofun (by rw [ht.opcode]; decide)
    (one_fragment hlen (ht.stream.trans (by decide)))
  exact Answered.after ha (fun _ _ => rfl) rfl

/-! ## The switch is fixed (R148) -/

theorem commitBuildDone_fixes {s : State} {k : Commit} {rest : List Commit} (h : s.tbl.commits = k :: rest) (hp : k.phase = .building)
    (hlive : s.tbl.epochs.length ≤ 1) :
    exec .commitBuildDone s = .next { s with tbl := { s.tbl with
      commits := { k with phase := .fixed (s.ct + 5000 * 65536) } :: rest
      unbuilt := min s.tbl.unbuilt (s.tbl.taken - k.mark) } } := by
  simp only [exec_commitBuildDone, execCommitBuildDone, h, hp, if_true, fixSwitch, hlive, and_self]

/-! ## The switch (R146 to R148) -/

/-- What reaching a time leaves of the tables: all but the builder's backlog. -/
theorem reach_tbl (t : Nat) (s : State) : (reach t s).tbl = { s.tbl with unbuilt := (reach t s).tbl.unbuilt } := by
  unfold reach
  dsimp only
  split
  · rfl
  · rw [show ∀ n, (advance n s).tbl = (runTime n s).tbl from fun n => (congrArg State.tbl (advance_told n s).parts).trans rfl]
    rfl

theorem epochHead_reach (t : Nat) (s : State) : epochHead (reach t s) = epochHead s := by rw [epochHead, reach_tbl, epochHead]

/-- The performance counters that count cycles tell of one overflow each at most, however much time passes. -/
theorem reach_nextSeq (t : Nat) (s : State) (n : Nat) : nextSeqOf (reach t s) n ≤ nextSeqOf s n + 496 := by
  unfold reach
  dsimp only
  split
  · omega
  · generalize (if 0 ≤ s.time.slew then _ else _) = d
    have hcount : 4 * allBlocks.length ≤ 248 := by decide
    have hsends : Sends (runTime d s) 0 (advance d s) :=
      .forAll (.refl _) fun p hp _ h => .perfAdd h ((List.mem_range.1 (List.mem_filter.1 hp).1).trans_le hcount)
    have hseq := hsends.seq n
    have hmay : mayTell (runTime d s) ≤ 248 := (Finset.card_filter_le _ _).trans_eq (Finset.card_range 248)
    have hsame : nextSeqOf (runTime d s) n = nextSeqOf s n := rfl
    omega

theorem loadPins_parts (s : State) : loadPins s = { s with tbl := { s.tbl with cache := (loadPins s).tbl.cache } } := by
  unfold loadPins
  split <;> rfl

/-- The next epoch: the one in force with the sets of a commit applied (R146). -/
def nextEpoch (k : Commit) (s : State) : Epoch :=
  { number := (epochHead s).number + 1
    tables := k.sets.foldl (fun ts e => tabPut ts e.1 (applyChanges (tabGet ts e.1 []) e.2)) (epochHead s).tables }

/-- The oldest commit has switched: its epoch is in force beside the previous one, entries that it changed are lost no more, and pinned leaves
are loaded. -/
def epochSwitched (k : Commit) (rest : List Commit) (s : State) : State :=
  loadPins { s with tbl := { s.tbl with
    epochs := [nextEpoch k s, epochHead s]
    commits := rest
    lost := s.tbl.lost.filter fun l => (tabGet? (tabGet k.sets l.1 []) l.2).isNone } }

theorem epochSwitched_parts (k : Commit) (rest : List Commit) (s : State) : epochSwitched k rest s = { s with tbl := { s.tbl with
    epochs := [nextEpoch k s, epochHead s]
    commits := rest
    lost := (epochSwitched k rest s).tbl.lost
    cache := (epochSwitched k rest s).tbl.cache } } := by
  unfold epochSwitched
  rw [loadPins_parts]

/-- At T_sw the oldest commit switches and is answered, before those behind it that found nothing pending. -/
theorem epochSwitch_switches {s : State} {k : Commit} {rest : List Commit} {at_ : Nat} (h : s.tbl.commits = k :: rest)
    (hp : k.phase = .fixed at_) :
    exec .epochSwitch s = .next (settleCommits (rest.length + 1)
      (ok k.hdr (toBytes 8 ((epochHead (reach at_ s)).number + 1) ++ toBytes 4 k.changes) (epochSwitched k rest (reach at_ s)))) := by
  simp only [exec_epochSwitch, execEpochSwitch, h, hp]
  rfl

theorem tableIn_nextEpoch_self {k : Commit} {s : State} {tid : Nat} {l : Changes} (h : k.sets = [(tid, l)]) :
    tableIn (nextEpoch k s) tid = applyChanges (tableIn (epochHead s) tid) l := by
  simp only [tableIn, nextEpoch, h, List.foldl_cons, List.foldl_nil, tabGet_put_self]

theorem tableIn_nextEpoch_ne {k : Commit} {s : State} {tid u : Nat} {l : Changes} (h : k.sets = [(tid, l)]) (hu : u ≠ tid) :
    tableIn (nextEpoch k s) u = tableIn (epochHead s) u := by
  simp only [tableIn, nextEpoch, h, List.foldl_cons, List.foldl_nil, tabGet_put_ne _ _ _ hu]

theorem nextEpoch_reach (k : Commit) (t : Nat) (s : State) : nextEpoch k (reach t s) = nextEpoch k s := by
  simp only [nextEpoch, epochHead_reach]

/-- A switch reaches its time and writes no object. -/
theorem epochSwitched_reach_kept (k : Commit) (rest : List Commit) (t : Nat) (s : State) :
    Safety.RegsKept Safety.telling s (epochSwitched k rest (reach t s)) := by
  rw [epochSwitched_parts]
  exact reach_kept t s

/-- The switch of the only commit is answered with the epoch and the number of changes. -/
theorem epochSwitch_answers {s : State} {w : Waiting} {k : Commit} {at_ : Nat} (h : s.tbl.commits = [k]) (hp : k.phase = .fixed at_)
    (hw : s.cmd.waiting = [w]) (hc : w.hdr = k.hdr) (hph : w.phase = .started 0x30) (hop : w.op = 0x0303)
    (hseq : nextSeqOf s w.hdr.sid.val < 2 ^ 64 - 4096) : ∃ t, exec .epochSwitch s = .next t ∧
      Safety.Answered [] (epochSwitched k [] (reach at_ s)) t w (toBytes 8 ((epochHead s).number + 1) ++ toBytes 4 k.changes) := by
  have hparts := epochSwitched_parts k [] (reach at_ s)
  have hwait : (epochSwitched k [] (reach at_ s)).cmd.waiting = [w] := by rw [hparts, ← hw]; exact reach_waiting at_ s
  have hnext : nextSeqOf (epochSwitched k [] (reach at_ s)) k.hdr.sid.val < 2 ^ 64 - 1 := by
    have hreach := reach_nextSeq at_ s k.hdr.sid.val
    rw [hc] at hseq
    rw [hparts]
    exact hreach.trans_lt (by omega)
  have hlen : (toBytes 8 ((epochHead s).number + 1) ++ toBytes 4 k.changes).length ≤ 8168 := by simp [length_toBytes]
  have ha := ok_answered_undone hwait hc (by simp [hph]) (by rw [hop]; decide) (one_fragment hlen hnext)
  refine ⟨_, epochSwitch_switches h hp, ?_⟩
  rw [epochHead_reach, settleCommits_nil (by rw [Answered.tbl ha, hparts])]
  exact ha

/-- The state that a switch leaves, whoever it answers: the next epoch before the previous one, at T_sw or later. -/
theorem epochSwitched_answered {s t : State} {w : Waiting} {k : Commit} {at_ : Nat} {r : Bytes}
    (ha : Safety.Answered [] (epochSwitched k [] (reach at_ s)) t w r) :
    t.tbl.epochs = [nextEpoch k s, epochHead s] ∧ t.tbl.commits = [] ∧ at_ ≤ t.ct ∧ Safety.RegsKept Safety.telling s t := by
  have htbl := Answered.tbl ha
  have hkept := Answered.kept ha (epochSwitched_reach_kept k [] at_ s)
  obtain ⟨-, -, hrest⟩ := ha
  have hparts := epochSwitched_parts k [] (reach at_ s)
  have hct : t.ct = (reach at_ s).ct := by rw [hrest, hparts]
  refine ⟨?_, by rw [htbl, hparts], hct ▸ le_reach_ct at_ s, RegsKept.mono hkept (by simp [Safety.telling])⟩
  rw [htbl, hparts, ← nextEpoch_reach k at_ s, ← epochHead_reach at_ s]

/-! ## The end of an epoch (R148) -/

theorem fixSwitch_parts (s : State) : fixSwitch s = { s with tbl := { s.tbl with commits := (fixSwitch s).tbl.commits } } := by
  unfold fixSwitch
  split
  · split <;> rfl
  · rfl

/-- The live leaves are those of the live epochs, under the families of their tables. -/
theorem liveLeaves_congr {s t : State} (he : t.tbl.epochs = s.tbl.epochs) (hr : ∀ k, rdWord t k = rdWord s k) : liveLeaves t = liveLeaves s := by
  have hfamily : isV6 t = isV6 s := funext fun tid => by rw [isV6, isV6, flag, flag, rd, rd, hr]
  have hbits : addrBits t = addrBits s := funext fun tid => by rw [addrBits, addrBits, hfamily]
  have hleaves : epochLeaves t = epochLeaves s := funext fun e => by simp only [epochLeaves, leavesOf, hbits]
  rw [liveLeaves, liveLeaves, he, hleaves]

/-- Only the newest epoch is live, and the cache has been cleared of leaves that it does not hold. -/
def epochRetired (new : Epoch) (s : State) : State :=
  { s with tbl := { s.tbl with
      epochs := [new]
      cache := s.tbl.cache.filter fun x =>
        (if s.tbl.cache.isEmpty then [] else liveLeaves { s with tbl := { s.tbl with epochs := [new] } }).contains x } }

theorem epochRetire_retires {s : State} {new old : Epoch} {rest : List Epoch} (h : s.tbl.epochs = new :: old :: rest)
    (hnone : ∀ x ∈ s.eng.threads, x.2.epoch ≠ old.number) : exec .epochRetire s = .next (fixSwitch (epochRetired new s)) := by
  have hpasses : (s.eng.threads.any fun t => t.2.epoch == old.number) = false := by simpa using hnone
  simp only [exec_epochRetire, execEpochRetire, h, hpasses, Bool.false_eq_true, if_false]
  rfl

/-- A leaf that stays cached was cached, and is one of the live epoch. -/
theorem mem_cache_epochRetired {new : Epoch} {s : State} {x : Leaf} (hx : x ∈ (epochRetired new s).tbl.cache) :
    x ∈ s.tbl.cache ∧ x ∈ liveLeaves (epochRetired new s) := by
  obtain ⟨hmem, hkeep⟩ := List.mem_filter.1 hx
  have hsome : s.tbl.cache.isEmpty = false := by simpa using List.ne_nil_of_mem hmem
  rw [hsome, if_neg Bool.false_ne_true, List.contains_iff_mem] at hkeep
  exact ⟨hmem, liveLeaves_congr (s := { s with tbl := { s.tbl with epochs := [new] } }) (t := epochRetired new s) rfl (fun _ => rfl) ▸ hkeep⟩

theorem epochRetire_waits {s : State} {new old : Epoch} {rest : List Epoch} (h : s.tbl.epochs = new :: old :: rest)
    (hsome : ∃ x ∈ s.eng.threads, x.2.epoch = old.number) : exec .epochRetire s = .next s := by
  have hpasses : (s.eng.threads.any fun t => t.2.epoch == old.number) = true := by simpa using hsome
  simp only [exec_epochRetire, execEpochRetire, h, hpasses, if_true]

/-- What retiring an epoch does, with the fixing of a switch that waited for it (R148). -/
theorem fixSwitch_epochRetired (new : Epoch) (s : State) :
    (fixSwitch (epochRetired new s)).tbl.epochs = [new] ∧
      (∀ x ∈ (fixSwitch (epochRetired new s)).tbl.cache, x ∈ s.tbl.cache ∧ x ∈ liveLeaves (fixSwitch (epochRetired new s))) ∧
      fixSwitch (epochRetired new s) = { s with tbl := { s.tbl with
        epochs := [new]
        commits := (fixSwitch (epochRetired new s)).tbl.commits
        cache := (fixSwitch (epochRetired new s)).tbl.cache } } := by
  have hparts := fixSwitch_parts (epochRetired new s)
  have hlive : liveLeaves (fixSwitch (epochRetired new s)) = liveLeaves (epochRetired new s) :=
    liveLeaves_congr (by rw [hparts]) fun _ => by rw [hparts]; rfl
  refine ⟨by rw [hparts]; rfl, fun x hx => ?_, by rw [hparts]; rfl⟩
  rw [hlive]
  rw [hparts] at hx
  exact mem_cache_epochRetired hx

/-- Settles O29: the commit by the sets that it closes, the switch by the epoch that it puts in force, the retirement by what stays cached. -/
theorem commitsAndEpochs : Obligations.CommitsAndEpochs := by
  unfold Obligations.CommitsAndEpochs
  refine ⟨fun c s w ht hnone hsome => ⟨_, tableCommit_waits ht hnone hsome, rfl, rfl, rfl, rfl, commitOf c s, ?_, rfl, rfl, rfl⟩,
    fun c s w ht hnone hpend => tableCommit_answers_empty ht hnone hpend,
    fun s k rest h hp hlive => ⟨_, commitBuildDone_fixes h hp hlive, rfl, rfl, rfl⟩,
    fun s w k at_ tid l h hp hsets hw hc hph hop _ hseq => ?_,
    fun s new old rest h hnone => ⟨_, epochRetire_retires h hnone, fixSwitch_epochRetired new s⟩,
    fun s new old rest h hsome => ⟨s, epochRetire_waits h hsome, rfl⟩⟩
  · exact congrArg (· ++ [commitOf c s]) hnone
  · obtain ⟨t, hexec, ha⟩ := epochSwitch_answers h hp hw hc hph hop hseq
    obtain ⟨hepochs, hcommits, hct, hkept⟩ := epochSwitched_answered ha
    obtain ⟨hdone, -, -⟩ := ha
    have hnew : epochHead t = nextEpoch k s := congrArg (·.headD ⟨0, []⟩) hepochs
    refine ⟨t, hexec, hdone, hct, hcommits, congrArg Epoch.number hnew, congrArg List.tail hepochs, ?_, fun u hu => ?_, hkept⟩
    · rw [hnew, tableIn_nextEpoch_self hsets]
    · rw [hnew, tableIn_nextEpoch_ne hsets hu]

end Sys2Proof.Machine
end

section
/-! The banks of the pattern matcher (R157 to R160, R175): what their states are, and what window writes, SWAP, the check, T_sw, the end of a
drain and ERASE do to them. -/
namespace Sys2Proof.Machine

open Sys2Proof

/-! ## The states of the banks -/

theorem bankState_congr {s t : State} (h : rdWord t patS = rdWord s patS) (b : Nat) : bankState t b = bankState s b := by
  rw [bankState, bankState, rd, rd, h]

theorem activeBank_congr {s t : State} (h : rdWord t patS = rdWord s patS) : activeBank t = activeBank s := by
  have hrd (f : Fld) : rd t (obj .patStatus) f = rd s (obj .patStatus) f := congrArg (getF · f) h
  simp only [activeBank, hrd]

theorem standby_congr {s t : State} (h : rdWord t patS = rdWord s patS) : standby t = standby s := by
  rw [standby, standby, activeBank_congr h]

/-- The standby bank is the other one than the ACTIVE bank (R157). -/
theorem standby_of_active {s : State} {o : Nat} (h : activeBank s = some o) : o = 0 ∧ standby s = 1 ∨ o = 1 ∧ standby s = 0 := by
  unfold activeBank at h
  dsimp only at h
  split at h
  · cases h
    next h0 => exact .inl ⟨rfl, by simp [standby, activeBank, h0]⟩
  · next h0 =>
    split at h
    · cases h
      next h1 => exact .inr ⟨rfl, by simp [standby, activeBank, h0, h1]⟩
    · cases h

theorem setPatBank_kept (b st : Nat) (s : State) : Safety.RegsKept [.patStatus] s (setPatBank b st s) := kept_wr s patS _ _ _ (by simp [patS])

theorem bankState_setPatBank_self {b st : Nat} (s : State) (hst : st < 256) : bankState (setPatBank b st s) b = st := by
  have hw : (bankFld b).w = 8 := by unfold bankFld; split <;> rfl
  rw [bankState, setPatBank, rd_wr_self, hw]
  exact Nat.mod_eq_of_lt hst

/-- Writing the state of one bank leaves that of the other. -/
theorem bankState_setPatBank_other {a b : Nat} (st : Nat) (s : State) (h : a = 0 ↔ b ≠ 0) :
    bankState (setPatBank a st s) b = bankState s b := by
  refine rd_wr_apart _ _ _ ?_
  by_cases ha : a = 0
  · have hb : b ≠ 0 := h.1 ha
    simp [bankFld, ha, hb, Fld.apart]
  · have hb : b = 0 := by by_contra hb; exact ha (h.2 hb)
    simp [bankFld, ha, hb, Fld.apart]

/-- Only the beginning of the sweep depends on which banks there are to compare. -/
theorem resweep_parts (s : State) : resweep s = { s with pat := { s.pat with sweepFrom := (resweep s).pat.sweepFrom } } := by
  unfold resweep
  split <;> rfl

theorem rdWord_resweep (s : State) (k : Key) : rdWord (resweep s) k = rdWord s k := by
  rw [resweep_parts]
  rfl

theorem bankState_resweep (s : State) (b : Nat) : bankState (resweep s) b = bankState s b := bankState_congr (rdWord_resweep s patS) b

theorem resweep_cmd (s : State) : (resweep s).cmd = s.cmd := by rw [resweep_parts]

theorem Answered.pat {u t : State} {w : Waiting} {r : Bytes} (h : Safety.Answered [] u t w r) : t.pat = u.pat := by
  obtain ⟨-, -, ht⟩ := h
  rw [ht]

theorem storeObj_parts (k : Key) (x : Nat) (s : State) : storeObj k x s = { s with regs := (storeObj k x s).regs } := id rfl

/-! ## A write of a window (R157, R159) -/

theorem applyWrite_patWin (j x : Nat) (s : State) : applyWrite (obj .patWin j) x s = windowWritten j (storeObj (obj .patWin j) x s) := id rfl

theorem windowWritten_kept (j : Nat) (s : State) : Safety.RegsKept [.patStatus] s (windowWritten j s) := fun k hk =>
  (rdWord_resweep ..).trans (setPatBank_kept _ _ (toShadow (obj .patWin j) s) k hk)

theorem bankState_windowWritten (j : Nat) (s : State) : bankState (windowWritten j s) (j / patParts) = pbWritten :=
  (bankState_resweep ..).trans (bankState_setPatBank_self _ (by decide))

theorem windowWritten_pat (j : Nat) (s : State) : (windowWritten j s).pat =
    { s.pat with shadow := tabSet s.pat.shadow j (rdWord s (obj .patWin j)) 0, sweepFrom := (windowWritten j s).pat.sweepFrom } := by
  unfold windowWritten
  rw [resweep_parts]
  rfl

theorem windowWritten_cmd (j : Nat) (s : State) : (windowWritten j s).cmd = s.cmd := resweep_cmd _

theorem part_div {b i : Nat} (hi : i < patParts) : (b * patParts + i) / patParts = b := by unfold patParts at *; omega

theorem patWindowWrite_writes {c : Hdr} {b i : Nat} {data : Bytes} {s : State} {w : Waiting} (hi : i < patParts) (hlen : data.length = 256)
    (hcov : covered (addrOf (obj .patWin 0) + BitVec.ofNat 48 (256 * (b * patParts + i))) 256 = some [obj .patWin (b * patParts + i)])
    (hblk : (addrOf (obj .patWin 0) + BitVec.ofNat 48 (256 * (b * patParts + i))).toNat / 2 ^ 40 = blockOf (obj .patWin (b * patParts + i)))
    (h : Safety.Write s c w (obj .patWin (b * patParts + i)) (ofBytes data)) :
    Safety.Gives (.patWindowWrite c (256 * (b * patParts + i)) data) s fun t =>
      Safety.Done t w [] ∧ Safety.RegsKept [.sessStatus, .patWin, .patStatus] s t ∧ bankState t b = pbWritten ∧
        Safety.Holds s t (obj .patWin (b * patParts + i)) (ofBytes data) ∧
        tabGet t.pat.shadow (b * patParts + i) 0 = rdWord t (obj .patWin (b * patParts + i)) ∧
        t.pat = { s.pat with shadow := t.pat.shadow, sweepFrom := t.pat.sweepFrom } := by
  have hbank : (b * patParts + i) / patParts = b := part_div hi
  have hgo := writeAt_of_write h hlen hcov hblk rfl nofun nofun nofun nofun
  rw [applyWrite_patWin] at hgo
  generalize b * patParts + i = j at *
  have hstored : Safety.RegsKept [.patWin] s (storeObj (obj .patWin j) (ofBytes data) s) := storeObj_kept (obj .patWin j) _ s
  have hholds := storeObj_holds (obj .patWin j) (ofBytes data) s
  have hparts := storeObj_parts (obj .patWin j) (ofBytes data) s
  generalize storeObj (obj .patWin j) (ofBytes data) s = v at *
  have hkept : Safety.RegsKept [.patWin, .patStatus] s (windowWritten j v) :=
    RegsKept.trans (RegsKept.mono hstored (by simp)) (RegsKept.mono (windowWritten_kept j v) (by simp))
  have ha : Safety.Answered [] (windowWritten j v) (replyWrite c (obj .patWin j) (windowWritten j v)) w [] :=
    replyWrite_answered h (by rw [windowWritten_cmd, hparts]) fun n => hkept _ (by simp [sessKey])
  have hread : rdWord (replyWrite c (obj .patWin j) (windowWritten j v)) (obj .patWin j) = rdWord v (obj .patWin j) :=
    (Answered.rdWord ha (by exact nofun)).trans (windowWritten_kept j v _ (by simp))
  refine ⟨_, congrArg Host.Outcome.next hgo, ha.1, Answered.kept ha hkept, ?_, ?_, ?_, ?_⟩
  · rw [bankState_congr (Answered.rdWord ha (by exact nofun)), ← hbank, bankState_windowWritten]
  · exact Holds.after hholds (l := [.sessStatus, .patStatus]) (by simp) (Answered.kept ha (windowWritten_kept j v))
  · rw [hread, Answered.pat ha, windowWritten_pat]
    exact tabGet_set_self ..
  · rw [Answered.pat ha, windowWritten_pat, hparts]

/-! ## SWAP and ERASE -/

/-- The control object with one of its commands written. -/
def patCtlStored (f : Fld) (s : State) : State := storeObj (obj .patCtl) (putF (rdWord s (obj .patCtl)) f 1) s

theorem patCtlStored_kept (f : Fld) (s : State) : Safety.RegsKept [.patCtl] s (patCtlStored f s) := storeObj_kept (obj .patCtl) _ s

theorem patCtlStored_parts (f : Fld) (s : State) : patCtlStored f s = { s with regs := (patCtlStored f s).regs } := storeObj_parts ..

theorem hostWrite_patCtl {c : Hdr} {s : State} {w : Waiting} {f : Fld} (h : Safety.Sets s c w (obj .patCtl) f 1) :
    hostWrite c (obj .patCtl) (fun x => putF x f 1) s =
      replyWrite c (obj .patCtl) (applyWrite (obj .patCtl) (putF (rdWord s (obj .patCtl)) f 1) s) :=
  hostWrite_ok (f := fun x => putF x f 1) h rfl rfl nofun nofun nofun nofun

theorem applyWrite_swap {s : State} (he : rd s (obj .patCtl) PatCtl.ERASE = 0) :
    applyWrite (obj .patCtl) (putF (rdWord s (obj .patCtl)) PatCtl.SWAP 1) s = swapGo (patCtlStored PatCtl.SWAP s) := by
  have hswap : getF (putF (rdWord s (obj .patCtl)) PatCtl.SWAP 1) PatCtl.SWAP = 1 := getF_put_self ..
  have herase : getF (putF (rdWord s (obj .patCtl)) PatCtl.SWAP 1) PatCtl.ERASE = 0 := (getF_put_apart _ _ (by decide)).trans he
  refine (if_neg ?_).trans (if_pos hswap)
  omega

theorem applyWrite_erase {s : State} (hs : rd s (obj .patCtl) PatCtl.SWAP = 0) :
    applyWrite (obj .patCtl) (putF (rdWord s (obj .patCtl)) PatCtl.ERASE 1) s = patEraseGo (patCtlStored PatCtl.ERASE s) := by
  have herase : getF (putF (rdWord s (obj .patCtl)) PatCtl.ERASE 1) PatCtl.ERASE = 1 := getF_put_self ..
  have hswap : getF (putF (rdWord s (obj .patCtl)) PatCtl.ERASE 1) PatCtl.SWAP = 0 := (getF_put_apart _ _ (by decide)).trans hs
  refine (if_pos herase).trans (congrArg patEraseGo (if_neg ?_))
  omega

theorem swapGo_parts (s : State) : swapGo s = { s with pat := (swapGo s).pat } := by
  unfold swapGo
  split
  · rfl
  · split <;> rfl

/-- SWAP starts the check of a WRITTEN bank. -/
theorem swapGo_written {s : State} (hv : s.pat.verifying = false) (ht : s.pat.swapAt = none) (hb : bankState s (standby s) = pbWritten) :
    (swapGo s).pat = { s.pat with verifying := true } := by
  simp [swapGo, hv, ht, hb]

/-- SWAP fixes T_sw of a READY bank. -/
theorem swapGo_ready {s : State} (hv : s.pat.verifying = false) (ht : s.pat.swapAt = none) (hb : bankState s (standby s) = pbReady) :
    (swapGo s).pat = { s.pat with swapAt := some (s.ct + 10000 * 65536) } := by
  simp [swapGo, fixPatSwap, hv, ht, hb, pbReady, pbWritten]

theorem patSwap_swaps {c : Hdr} {s : State} {w : Waiting} (h : Safety.Sets s c w (obj .patCtl) PatCtl.SWAP 1)
    (he : rd s (obj .patCtl) PatCtl.ERASE = 0) (hv : s.pat.verifying = false) (ht : s.pat.swapAt = none) :
    Safety.Gives (.patSwap c) s fun t =>
      Safety.Done t w [] ∧ Safety.RegsKept [.sessStatus, .patCtl] s t ∧
      (bankState s (standby s) = pbWritten → t.pat = { s.pat with verifying := true }) ∧
      (bankState s (standby s) = pbReady → t.pat = { s.pat with swapAt := some (s.ct + 10000 * 65536) }) := by
  have hgo := hostWrite_patCtl h
  rw [applyWrite_swap he] at hgo
  have hstored := patCtlStored_kept PatCtl.SWAP s
  have hparts := patCtlStored_parts PatCtl.SWAP s
  generalize patCtlStored PatCtl.SWAP s = v at *
  have hcmd : v.cmd = s.cmd := by rw [hparts]
  have hpat : v.pat = s.pat := by rw [hparts]
  have hct : v.ct = s.ct := by rw [hparts]
  have hstatus : rdWord v patS = rdWord s patS := hstored _ (by simp [patS])
  have hbank : bankState v (standby v) = bankState s (standby s) := by rw [bankState_congr hstatus, standby_congr hstatus]
  have hkept : Safety.RegsKept [.patCtl] s (swapGo v) := fun k hk => by
    rw [swapGo_parts]
    exact hstored k hk
  have ha := replyWrite_answered h (u := swapGo v) (by rw [swapGo_parts, hcmd]) fun n => hkept _ (by simp [sessKey])
  refine ⟨_, congrArg Host.Outcome.next hgo, ha.1, Answered.kept ha hkept, fun hw => ?_, fun hr => ?_⟩
  · rw [Answered.pat ha, swapGo_written (hpat ▸ hv) (hpat ▸ ht) (hbank.trans hw), hpat]
  · rw [Answered.pat ha, swapGo_ready (hpat ▸ hv) (hpat ▸ ht) (hbank.trans hr), hpat, hct]

/-- What a table holds once the entries of some keys are gone. -/
theorem tabGet?_filter_keys {β : Type} (t : Tab β) (p : Nat → Bool) (k : Nat) :
    tabGet? (t.filter fun e => p e.1) k = if p k then tabGet? t k else none := by
  induction t with
  | nil => simp
  | cons e t ih =>
    obtain ⟨j, v⟩ := e
    by_cases hj : k = j
    · subst hj
      cases hp : p k <;> simp [hp, tabGet?, ih]
    · cases hp : p j <;> simp [hp, tabGet?, hj, ih]

/-- Whether an object's number is that of a part of a bank's window. -/
def partOf (b n : Nat) : Bool := n % 256 == ObjTy.patWin.ctorIdx && n / 256 / patParts == b

theorem partOf_keyNo (b : Nat) (k : Key) : partOf b (keyNo k) = (decide (k.ty = .patWin) && decide (k.idx / patParts = b)) := by
  have hlt := ctorIdx_lt k.ty
  have hmod : keyNo k % 256 = k.ty.ctorIdx := by simp only [keyNo]; omega
  have hdiv : keyNo k / 256 = k.idx := by simp only [keyNo]; omega
  rw [partOf, hmod, hdiv]
  congr 1
  exact decide_eq_decide.2 ⟨fun h => ctorIdx_inj (by simpa using h), fun h => by rw [h]⟩

/-- The standby bank's window and its shadow are zero, and a swap under way has ended. -/
def windowErased (b : Nat) (s : State) : State :=
  { s with regs := s.regs.filter fun e => !partOf b e.1
           pat := { s.pat with verifying := false, swapAt := none, shadow := s.pat.shadow.filter fun e => e.1 / patParts != b } }

theorem patEraseGo_eq (s : State) : patEraseGo s = resweep (setPatBank (standby s) pbEmpty (windowErased (standby s) s)) := id rfl

theorem rdWord_windowErased (b : Nat) (s : State) (k : Key) :
    rdWord (windowErased b s) k = if partOf b (keyNo k) then resetVal s.fuses k else rdWord s k := by
  rw [rdWord, rdWord, tabGet, tabGet, windowErased, tabGet?_filter_keys s.regs fun n => !partOf b n]
  cases partOf b (keyNo k) <;> rfl

theorem windowErased_kept (b : Nat) (s : State) : Safety.RegsKept [.patWin] s (windowErased b s) := fun k hk => by
  have hty : k.ty ≠ .patWin := by simpa using hk
  rw [rdWord_windowErased, partOf_keyNo, decide_eq_false hty]
  rfl

theorem putBits_zero (lo w : Nat) : putBits 0 lo w 0 = 0 := by simp only [putBits, Nat.zero_mod, Nat.zero_div, Nat.mul_zero, Nat.add_zero]

/-- A part of a window is zero after reset. -/
theorem resetVal_patWin (fu : Fuses) (j : Nat) : resetVal fu (obj .patWin j) = 0 :=
  show tableReset .patWin = 0 by
    simp only [tableReset, fieldsOf, fieldsPatWin, rwF, List.foldl_cons, List.foldl_nil, putBits_zero]

theorem rdWord_windowErased_part {b i : Nat} (s : State) (hi : i < patParts) :
    rdWord (windowErased b s) (obj .patWin (b * patParts + i)) = 0 := by
  have hpart : partOf b (keyNo (obj .patWin (b * patParts + i))) = true := by
    rw [partOf_keyNo, obj_ty, obj_idx, part_div hi]
    simp
  rw [rdWord_windowErased, hpart, if_pos rfl, resetVal_patWin]

theorem shadow_windowErased_part {b i : Nat} (s : State) (hi : i < patParts) :
    tabGet (windowErased b s).pat.shadow (b * patParts + i) 0 = 0 := by
  rw [tabGet, windowErased, tabGet?_filter_keys s.pat.shadow fun n => n / patParts != b, part_div hi]
  simp

theorem patEraseGo_kept (s : State) : Safety.RegsKept [.patStatus, .patWin] s (patEraseGo s) := fun k hk => by
  simp only [List.mem_cons, not_or] at hk
  rw [patEraseGo_eq, rdWord_resweep, setPatBank_kept _ _ _ k (by simpa using hk.1), windowErased_kept _ _ k (by simpa using hk.2)]

theorem patErase_erases {c : Hdr} {s : State} {w : Waiting} (h : Safety.Sets s c w (obj .patCtl) PatCtl.ERASE 1)
    (hs : rd s (obj .patCtl) PatCtl.SWAP = 0) : Safety.Gives (.patErase c) s fun t =>
      Safety.Done t w [] ∧ bankState t (standby s) = pbEmpty ∧ t.pat.verifying = false ∧ t.pat.swapAt = none ∧
        (∀ i < patParts, rdWord t (obj .patWin (standby s * patParts + i)) = 0 ∧
          tabGet t.pat.shadow (standby s * patParts + i) 0 = 0) ∧ Safety.RegsKept [.sessStatus, .patCtl, .patStatus, .patWin] s t := by
  have hgo := hostWrite_patCtl h
  rw [applyWrite_erase hs] at hgo
  have hstored := patCtlStored_kept PatCtl.ERASE s
  have hparts := patCtlStored_parts PatCtl.ERASE s
  generalize patCtlStored PatCtl.ERASE s = v at *
  have hcmd : (patEraseGo v).cmd = s.cmd := by rw [patEraseGo_eq, resweep_cmd, hparts]; rfl
  have hstandby : standby s = standby v := (standby_congr (hstored _ (by simp [patS]))).symm
  have hkept : Safety.RegsKept [.patCtl, .patStatus, .patWin] s (patEraseGo v) :=
    RegsKept.trans (RegsKept.mono hstored (by simp)) (RegsKept.mono (patEraseGo_kept v) (by simp))
  have ha := replyWrite_answered h hcmd fun n => hkept _ (by simp [sessKey])
  have hpat : (replyWrite c (obj .patCtl) (patEraseGo v)).pat =
      { (windowErased (standby v) v).pat with sweepFrom := (patEraseGo v).pat.sweepFrom } := by
    rw [Answered.pat ha, patEraseGo_eq, resweep_parts]
    rfl
  refine ⟨_, congrArg Host.Outcome.next hgo, ha.1, ?_, by rw [hpat]; rfl, by rw [hpat]; rfl, fun i hi => ⟨?_, ?_⟩, Answered.kept ha hkept⟩
  · rw [bankState_congr (Answered.rdWord ha (by exact nofun)), hstandby, patEraseGo_eq, bankState_resweep,
      bankState_setPatBank_self _ (by decide)]
  · rw [Answered.rdWord ha (by exact nofun), hstandby, patEraseGo_eq, rdWord_resweep, setPatBank_kept _ _ _ _ (by simp),
      rdWord_windowErased_part v hi]
  · rw [hpat, hstandby]
    exact shadow_windowErased_part v hi

end Sys2Proof.Machine
end

section
/-! The check of a bank, the switch at T_sw and the end of a drain (R158, R159, R171, R172). -/
namespace Sys2Proof.Machine

open Sys2Proof

/-! ## What an image reads -/

section
variable {s t : State} (h : ∀ j, rdWord t (obj .patWin j) = rdWord s (obj .patWin j))
include h

/-- An image is what its window's parts hold. -/
theorem patNat_congr : patNat t = patNat s := by
  funext b off n
  induction n with
  | zero => rfl
  | succ n ih => rw [patNat, patNat, ih, winKey, h]

theorem patRules_congr : patRules t = patRules s := by
  unfold patRules
  rw [patNat_congr h]

theorem patLines_congr : patLines t = patLines s := by
  unfold patLines
  rw [patNat_congr h]

theorem ruleAt_congr : ruleAt t = ruleAt s := by
  unfold ruleAt
  rw [patNat_congr h]

theorem setEntryOk_congr : setEntryOk t = setEntryOk s := by
  unfold setEntryOk setEntry
  rw [patNat_congr h, patRules_congr h, patLines_congr h]

theorem imageFieldsOk_congr : imageFieldsOk t = imageFieldsOk s := by
  unfold imageFieldsOk
  rw [patNat_congr h, patRules_congr h, patLines_congr h, ruleAt_congr h, setEntryOk_congr h]

theorem patDigestOk_congr : patDigestOk t = patDigestOk s := by
  have hbytes : patBytes t = patBytes s := by
    funext b off n
    simp only [patBytes, winKey, h]
  unfold patDigestOk
  rw [patNat_congr h, patRules_congr h, patLines_congr h, hbytes]

end

/-! ## The check of a bank (R158, R159) -/

/-- The check has ended. -/
def checkEnded (s : State) : State := { s with pat := { s.pat with verifying := false } }

theorem patVerifyComplete_judged {s : State} (hv : s.pat.verifying = true) : exec .patVerifyComplete s =
    .next (if imageFieldsOk s (standby s) && patDigestOk s (standby s)
      then fixPatSwap (resweep (setPatBank (standby s) pbReady (checkEnded s)))
      else raiseAt 0x32 3 5 patS (setPatBank (standby s) pbBad (checkEnded s))) := by
  have hwindows (j : Nat) : rdWord (checkEnded s) (obj .patWin j) = rdWord s (obj .patWin j) := rfl
  rw [← imageFieldsOk_congr hwindows, ← patDigestOk_congr hwindows]
  exact congrArg Host.Outcome.next (if_neg (by simp [hv]))

theorem patVerifyComplete_ready {s : State} (hv : s.pat.verifying = true) (hfields : imageFieldsOk s (standby s) = true)
    (hdigest : patDigestOk s (standby s) = true) : Safety.Gives .patVerifyComplete s fun t =>
      bankState t (standby s) = pbReady ∧ Safety.RegsKept [.patStatus] s t ∧
        t.pat = { s.pat with verifying := false, swapAt := some (s.ct + 10000 * 65536), sweepFrom := t.pat.sweepFrom } := by
  have hgo := patVerifyComplete_judged hv
  rw [if_pos (by rw [hfields, hdigest]; rfl)] at hgo
  refine ⟨_, hgo, ?_, fun k hk => ?_, ?_⟩
  · exact (bankState_resweep ..).trans (bankState_setPatBank_self _ (by decide))
  · exact (rdWord_resweep ..).trans (setPatBank_kept _ _ (checkEnded s) k hk)
  · rw [resweep_parts]
    rfl

theorem patVerifyComplete_bad {s : State} (hv : s.pat.verifying = true)
    (hbad : imageFieldsOk s (standby s) = false ∨ patDigestOk s (standby s) = false) : Safety.Gives .patVerifyComplete s fun t =>
      bankState t (standby s) = pbBad ∧ t.pat = { s.pat with verifying := false } ∧ Safety.RegsKept (.patStatus :: Safety.raising) s t := by
  have hgo := patVerifyComplete_judged hv
  rw [if_neg (by rcases hbad with h | h <;> simp [h])] at hgo
  refine ⟨_, hgo, ?_, raiseAt_pat .., RegsKept.raise (setPatBank_kept _ _ (checkEnded s))⟩
  rw [bankState_congr (raiseAt_regs _ _ _ _ _ _ (by simp [patS])), bankState_setPatBank_self _ (by decide)]

/-! ## The switch (R159, R171, R172) -/

theorem reach_pat (t : Nat) (s : State) : (reach t s).pat = s.pat := by
  unfold reach
  dsimp only
  split
  · rfl
  · exact (congrArg State.pat (advance_told _ s).parts).trans rfl

/-- No switch is fixed any more. -/
def swapTaken (s : State) : State := { s with pat := { s.pat with swapAt := none } }

/-- The ACTIVE bank drains. -/
def activeDrained (s : State) : State :=
  match activeBank s with
  | some o => setPatBank o pbDraining s
  | none => s

/-- No set is DAMAGED, and the sweep starts again. -/
def sweepRestarted (s : State) : State := { s with pat := { s.pat with damaged := [], sweepFrom := some s.clock } }

/-- The bank that was standby is ACTIVE, and the other drains. -/
def banksSwitched (s : State) : State :=
  wr (setPatBank (standby s) pbActive (sweepRestarted (activeDrained s))) patS PatStatus.IMAGE_ID
    (patNat (sweepRestarted (activeDrained s)) (standby s) 8 4)

theorem patBankSwitch_switches {s : State} {at_ : Nat} (hat : s.pat.swapAt = some at_) (hb : bankState s (standby s) = pbReady) :
    exec .patBankSwitch s = .next (banksSwitched (reach at_ (swapTaken s))) := by
  have hstatus : rdWord (reach at_ (swapTaken s)) patS = rdWord s patS := reach_kept _ _ _ (by simp [patS])
  have hready : bankState (reach at_ (swapTaken s)) (standby (reach at_ (swapTaken s))) = pbReady := by
    rw [bankState_congr hstatus, standby_congr hstatus, hb]
  show execPatBankSwitch s = _
  simp only [execPatBankSwitch, hat]
  exact congrArg Host.Outcome.next (if_neg (not_not.2 hready))

theorem activeDrained_parts (s : State) : activeDrained s = { s with regs := (activeDrained s).regs } := by
  unfold activeDrained
  split <;> rfl

theorem activeDrained_kept (s : State) : Safety.RegsKept [.patStatus] s (activeDrained s) := by
  unfold activeDrained
  split
  · exact setPatBank_kept _ _ s
  · exact RegsKept.refl _ s

theorem banksSwitched_kept (s : State) : Safety.RegsKept [.patStatus] s (banksSwitched s) := fun k hk => by
  rw [banksSwitched, kept_wr _ patS _ _ [.patStatus] (by simp [patS]) k hk, setPatBank_kept _ _ _ k hk]
  exact activeDrained_kept s k hk

/-- The number of the image in force stands apart from the states of the banks. -/
theorem bankState_imageId (s : State) (v b : Nat) : bankState (wr s patS PatStatus.IMAGE_ID v) b = bankState s b :=
  rd_wr_apart _ _ _ (by unfold bankFld; split <;> decide)

theorem bankState_banksSwitched_standby (s : State) : bankState (banksSwitched s) (standby s) = pbActive :=
  (bankState_imageId ..).trans (bankState_setPatBank_self _ (by decide))

theorem bankState_banksSwitched_active {s : State} {o : Nat} (h : activeBank s = some o) : bankState (banksSwitched s) o = pbDraining := by
  have hdrained : activeDrained s = setPatBank o pbDraining s := by simp only [activeDrained, h]
  have hapart : standby s = 0 ↔ o ≠ 0 := by rcases standby_of_active h with ⟨rfl, hs⟩ | ⟨rfl, hs⟩ <;> simp [hs]
  rw [banksSwitched, bankState_imageId, bankState_setPatBank_other _ _ hapart, hdrained]
  exact bankState_setPatBank_self s (by decide)

theorem banksSwitched_parts (s : State) : banksSwitched s =
    { s with regs := (banksSwitched s).regs, pat := { s.pat with damaged := [], sweepFrom := some s.clock } } := by
  unfold banksSwitched sweepRestarted
  rw [activeDrained_parts]
  rfl

theorem patBankSwitch_changes {s : State} {at_ : Nat} (hat : s.pat.swapAt = some at_) (hb : bankState s (standby s) = pbReady) :
    Safety.Gives .patBankSwitch s fun t =>
      bankState t (standby s) = pbActive ∧ (∀ o, activeBank s = some o → bankState t o = pbDraining) ∧ t.pat.swapAt = none ∧ at_ ≤ t.ct ∧
        t.pat.damaged = [] ∧ t.pat.sweepFrom = some t.clock ∧ Safety.RegsKept (.patStatus :: Safety.telling) s t := by
  have hgo := patBankSwitch_switches hat hb
  have hreach := reach_kept at_ (swapTaken s)
  have hct := le_reach_ct at_ (swapTaken s)
  have hpat := reach_pat at_ (swapTaken s)
  generalize reach at_ (swapTaken s) = u at *
  have hstatus : rdWord u patS = rdWord s patS := hreach _ (by simp [patS])
  have hparts := banksSwitched_parts u
  refine ⟨_, hgo, ?_, fun o ho => ?_, by rw [hparts, hpat]; rfl, by rw [hparts]; exact hct, by rw [hparts], by rw [hparts], ?_⟩
  · rw [← standby_congr hstatus]
    exact bankState_banksSwitched_standby u
  · exact bankState_banksSwitched_active ((activeBank_congr hstatus).trans ho)
  · exact RegsKept.trans (RegsKept.mono hreach (by simp +contextual)) (RegsKept.mono (banksSwitched_kept u) (by simp))

/-! ## The end of a drain (R159) -/

theorem patDrainEnd_ends {s : State} (hb : bankState s 0 = pbDraining) (hnone : ∀ x ∈ s.eng.threads, x.2.patBank ≠ some 0) :
    Safety.Gives .patDrainEnd s fun t => bankState t 0 = pbReady ∧ bankState t 1 = bankState s 1 ∧
      t = { s with regs := t.regs, pat := { s.pat with sweepFrom := t.pat.sweepFrom } } := by
  have hfind : ((List.range 2).find? fun b => bankState s b == pbDraining) = some 0 := by simp [List.range_succ, hb]
  have hpasses : (s.eng.threads.any fun t => t.2.patBank == some 0) = false := by simpa using hnone
  have hgo : exec .patDrainEnd s = .next (resweep (setPatBank 0 pbReady s)) := by
    show execPatDrainEnd s = _
    simp only [execPatDrainEnd, hfind, hpasses, Bool.false_eq_true, if_false]
  refine ⟨_, hgo, ?_, ?_, ?_⟩
  · rw [bankState_resweep, bankState_setPatBank_self _ (by decide)]
  · rw [bankState_resweep, bankState_setPatBank_other _ _ (by decide)]
  · rw [resweep_parts]
    rfl

end Sys2Proof.Machine
end

section
/-! Requests to the pattern matcher (R162 to R166, R169, R170, R173) and the sweep over its shadow (R171, R172). -/
namespace Sys2Proof.Machine

open Sys2Proof

/-! ## Requests -/

/-- The request of a thread, when no ended pass left one under its number. -/
theorem requestOf_thread {s : State} {t : Nat} {x : Thread} {k : Look} {p : Look → Bool} (hx : getThr s t = some x) (hl : x.look = some k)
    (ho : ∀ e ∈ s.eng.orphans, e.1 ≠ t) (hp : p k = true) : requestOf s t p = some (false, x, k) := by
  unfold requestOf
  dsimp only
  rw [List.findSome?_eq_none_iff.2 fun e he => if_neg (ho e he), hx]
  simp [hl, hp]

theorem getThr_setThr (t : Nat) (x : Thread) (s : State) : getThr (setThr t x s) t = some x := tabGet?_put_self ..

section
variable {s : State} {t : Fin 16384} {x : Thread} {k : Look}
variable (hx : getThr s t.val = some x) (hl : x.look = some k) (ho : ∀ e ∈ s.eng.orphans, e.1 ≠ t.val)
include hx hl ho

theorem billetFetchIssue_fetches (hu : k.unit = .pat) (hp : k.phase = .accepted) (hbad : patBad s x k = false)
    (hdam : patDamaged s x k = false) (hneeds : needsFetch x k = true) (hwaits : scanWaits s x k = false) (hroom : fetches s < 2048) :
    Safety.Gives (.billetFetchIssue t) s fun u =>
      getThr u t.val = some { x with look := some { k with phase := .fetching } } ∧ Safety.Counted .patCtr 5 0 1 s u ∧
        Safety.RegsKept (.patCtr :: Safety.telling) s u := by
  have hgo : exec (.billetFetchIssue t) s =
      .next (setThr t.val { x with look := some { k with phase := .fetching } } (bump .patCtr 5 0 1 s)) := by
    show execBilletFetchIssue t s = _
    rw [execBilletFetchIssue, requestOf_thread hx hl ho (by simp [hu, hp])]
    exact congrArg Host.Outcome.next (if_pos (by simp [hbad, hdam, hneeds, hwaits, hroom]))
  exact ⟨_, hgo, getThr_setThr .., counted_bump _ _ _ _ _ (by decide), kept_bump .patCtr 5 0 1 s⟩

theorem billetFetchComplete_fetched (hp : k.phase = .fetching) : Safety.Gives (.billetFetchComplete t) s fun u =>
    getThr u t.val = some { x with look := some { k with phase := .fetched } } ∧
      u = { s with eng := { s.eng with threads := u.eng.threads } } := by
  have hgo : exec (.billetFetchComplete t) s = .next (setThr t.val { x with look := some { k with phase := .fetched } } s) := by
    show execBilletFetchComplete t s = _
    rw [execBilletFetchComplete, requestOf_thread hx hl ho (by simp [hp])]
    rfl
  exact ⟨_, hgo, getThr_setThr .., rfl⟩

theorem fetchTimeout_forms (hp : k.phase = .fetching) : Safety.Gives (.fetchTimeout t) s fun u =>
    getThr u t.val = some { x with look := some { k with phase := .formed (if scanCut x k then 0x400000 else 0) false true } } ∧
      Safety.Counted .patCtr 0 0 1 s u ∧ Safety.RegsKept (.patCtr :: Safety.raising) s u := by
  have hgo : exec (.fetchTimeout t) s =
      .next (setThr t.val { x with look := some { k with phase := .formed (if scanCut x k then 0x400000 else 0) false true } }
        (raiseAt 0x32 3 6 (obj .ruleSet (k.imm % 64)) (bump .patCtr 0 0 1 s))) := by
    show execFetchTimeout t s = _
    rw [execFetchTimeout, requestOf_thread hx hl ho (by simp [hp])]
    rfl
  have hraise := kept_raiseAt 0x32 3 6 (obj .ruleSet (k.imm % 64)) (bump .patCtr 0 0 1 s)
  refine ⟨_, hgo, getThr_setThr .., ?_, ?_⟩
  · exact (hraise _ (by simp)).trans (counted_bump _ _ _ _ _ (by decide))
  · exact RegsKept.trans (RegsKept.mono (kept_bump .patCtr 0 0 1 s) (by simp +contextual)) (RegsKept.mono hraise (by simp +contextual))

end

/-! ## Results (R164 to R166) -/

/-- Counting leaves the windows. -/
theorem patWin_bump (ty : ObjTy) (i : Nat) (s : State) (h : .patWin ≠ ty) (j : Nat) :
    rdWord (bump ty i 0 1 s) (obj .patWin j) = rdWord s (obj .patWin j) := rdWord_bump_ty _ _ _ _ _ _ h (by simp)

/-- The state in which a match has been counted, and its tie with it (R164, R166). -/
def matchCounted (k : Look) (tie : Bool) (s : State) : State :=
  if tie then bump .tieCtr (k.imm % 64) 0 1 (bump .patCtr 2 0 1 (bump .patCtr 1 0 1 s)) else bump .patCtr 1 0 1 s

theorem patCtr_bump_ne {i j : Nat} (s : State) (h : j ≠ i) :
    rdWord (bump .patCtr i 0 1 s) (Safety.counter .patCtr j) = rdWord s (Safety.counter .patCtr j) :=
  rdWord_bump_counter _ _ _ _ _ _ _ (counter_ne .patCtr rfl h) (by decide)

/-- Of the counters of requests, only those of matches and ties count a match. -/
theorem patCtr_matchCounted (k : Look) (tie : Bool) (s : State) {j : Nat} (h : j ≠ 2) :
    rdWord (matchCounted k tie s) (Safety.counter .patCtr j) = rdWord (bump .patCtr 1 0 1 s) (Safety.counter .patCtr j) := by
  unfold matchCounted
  split
  · rw [rdWord_bump_ty _ _ _ _ _ _ (by simp) (by simp), patCtr_bump_ne _ h]
  · rfl

section
variable {s u : State} (h : ∀ j, rdWord u (obj .patWin j) = rdWord s (obj .patWin j))
include h

theorem winner_congr : winner u = winner s := by
  unfold winner
  rw [ruleAt_congr h]

theorem matching_congr : matching u = matching s := by
  unfold matching rulesOf ruleMatches
  rw [patNat_congr h, patRules_congr h, ruleAt_congr h]

theorem patWord_congr : patWord u = patWord s := by
  unfold patWord
  rw [ruleAt_congr h]

end

theorem patMatch_none {s : State} {x : Thread} {k : Look} (h : winner s (x.patBank.getD 0) (matching s x k) = none) :
    patMatch s x k = (patMiss x k false, s) := by
  simp only [patMatch, h]

theorem patMatch_some {s : State} {x : Thread} {k : Look} {a : Nat} {tie : Bool}
    (h : winner s (x.patBank.getD 0) (matching s x k) = some (a, tie)) :
    patMatch s x k = ((patWord s (x.patBank.getD 0) a tie (scanCut x k), true, false), matchCounted k tie s) := by
  simp only [patMatch, h, patWord_congr (patWin_bump .patCtr 1 s (by decide))]
  rfl

/-- A request to a good set, whose window has come and whose words read well, is counted and matched. -/
theorem patServe_matched {s : State} {x : Thread} {k : Look} (hbad : patBad s x k = false) (hdam : patDamaged s x k = false)
    (hwaits : scanWaits s x k = false) : patServe x k true .clean s =
      (some (patMatch (bump .patCtr 0 0 1 s) x k).1, (patMatch (bump .patCtr 0 0 1 s) x k).2) := by
  refine (if_neg (by simp [hbad])).trans ((if_neg (by simp [hdam])).trans ((if_neg (by simp [hwaits])).trans ?_))
  exact ite_self _

/-- A result lands at a thread that does not wait for a condition: RD, M and E are written, and the thread is READY. -/
theorem land_ready {t : Nat} {x : Thread} {k : Look} {o : LookOut} {s : State} (h : x.hold = .ready ∨ x.hold = .result) :
    land t x k o s = setThr t { x with hold := .ready, g := x.g.set k.rd o.1, m := o.2.1, e := o.2.2, look := none,
                                       cause := if o.2.1 then causeOf s x k o else x.cause } s := by
  rcases h with h | h <;> simp only [land, Thread.setReg, h]

section
variable {s : State} {t : Fin 16384} {x : Thread} {k : Look}
variable (hx : getThr s t.val = some x) (hl : x.look = some k) (ho : ∀ e ∈ s.eng.orphans, e.1 ≠ t.val)
include hx hl ho

theorem lookupResult_matched (hp : k.phase = .fetched) (hbad : patBad s x k = false) (hdam : patDamaged s x k = false)
    (hwaits : scanWaits s x k = false) : exec (.lookupResult t .clean) s =
      .next (land t.val x k (patMatch (bump .patCtr 0 0 1 s) x k).1 (patMatch (bump .patCtr 0 0 1 s) x k).2) := by
  show execLookupResult t .clean s = _
  unfold execLookupResult
  dsimp only
  rw [requestOf_thread hx hl ho (by simp [hp])]
  simp only [hp, patServe_matched hbad hdam hwaits, Bool.false_eq_true, if_false]

theorem lookupResult_lands (hu : k.unit = .pat) (hp : k.phase = .fetched) (hh : x.hold = .ready ∨ x.hold = .result)
    (hbad : patBad s x k = false) (hdam : patDamaged s x k = false) (hwaits : scanWaits s x k = false) :
    Safety.Gives (.lookupResult t .clean) s fun u =>
      Safety.Counted .patCtr 0 0 1 s u ∧
        (winner s (x.patBank.getD 0) (matching s x k) = none → getThr u t.val = some
          { x with hold := .ready, g := x.g.set k.rd (if scanCut x k then 0x400000 else 0), m := false, e := false, look := none }) ∧
        (∀ a tie, winner s (x.patBank.getD 0) (matching s x k) = some (a, tie) → Safety.Counted .patCtr 1 0 1 s u ∧
          ∃ r, r = patWord s (x.patBank.getD 0) a tie (scanCut x k) ∧ getThr u t.val = some
            { x with hold := .ready, g := x.g.set k.rd r, m := true, e := false, look := none,
                     cause := addrOf (obj .ruleEntry (r.toNat % 2 ^ 18)) }) := by
  have hgo := lookupResult_matched hx hl ho hp hbad hdam hwaits
  have hcount := counted_bump .patCtr 0 0 1 s (by decide)
  have hfirst := patCtr_bump_ne (i := 0) (j := 1) s (by decide)
  have hwindows := patWin_bump .patCtr 0 s (by decide)
  rw [land_ready hh] at hgo
  generalize bump .patCtr 0 0 1 s = v at *
  rw [← winner_congr hwindows, ← matching_congr hwindows]
  cases hw : winner v (x.patBank.getD 0) (matching v x k) with
  | none =>
    rw [patMatch_none hw] at hgo
    exact ⟨_, hgo, hcount, fun _ => getThr_setThr .., nofun⟩
  | some e =>
    obtain ⟨a, tie⟩ := e
    rw [patMatch_some hw] at hgo
    refine ⟨_, hgo, (patCtr_matchCounted k tie v (by decide)).trans ((patCtr_bump_ne v (by decide)).trans hcount), nofun, ?_⟩
    rintro _ _ ⟨⟩
    refine ⟨?_, patWord v (x.patBank.getD 0) a tie (scanCut x k), by rw [patWord_congr hwindows], (getThr_setThr ..).trans ?_⟩
    · exact (patCtr_matchCounted k tie v (by decide)).trans (counted_from (by decide) hfirst)
    · simp only [if_true, causeOf, hu]

end

/-! ## The sweep (R171, R172) -/

theorem wordPart_ty (s : State) (b w : Nat) : (wordPart s b w).ty = .patWin := by
  unfold wordPart
  split <;> rfl

/-- A word that differs from its shadow is taken from the shadow. -/
theorem shadowSweep_repairs {s : State} {b : Fin 2} (i : Nat) (hswept : swept s b.val = true) (hready : hbmReady s 0 = true) :
    Safety.Gives (.shadowSweep (.mismatch b i)) s fun t =>
      Safety.Counted .patCtr 6 0 1 s t ∧ t.pat = s.pat ∧ rdWord t (wordPart s b.val i) = tabGet s.pat.shadow (wordPart s b.val i).idx 0 ∧
        (∀ k, k ≠ wordPart s b.val i → k.ty ∉ .patCtr :: Safety.raising → rdWord t k = rdWord s k) := by
  have hgo : exec (.shadowSweep (.mismatch b i)) s = .next (raiseAt 0x32 b.val 2 (patWordKey s b.val i)
      (bump .patCtr 6 0 1 (fromShadow (wordPart s b.val i) s))) := by
    have hcopy : b.val ≠ 2 := by omega
    show execShadowSweep (.mismatch b i) s = _
    simp only [execShadowSweep, hswept, hready, patRepair, hcopy, Bool.not_true, Bool.false_eq_true, if_false, if_true]
  have hty := wordPart_ty s b.val i
  generalize wordPart s b.val i = part at *
  have hraise := kept_raiseAt 0x32 b.val 2 (patWordKey s b.val i) (bump .patCtr 6 0 1 (fromShadow part s))
  refine ⟨_, hgo, ?_, by rw [raiseAt_pat, bump_pat]; rfl, ?_, fun k hk hkty => ?_⟩
  · exact (hraise _ (by simp)).trans (counted_from (by decide) (rdWord_wrWord_ty _ _ _ _ (by simp [hty])))
  · rw [hraise _ (by simp [hty]), rdWord_bump_ty _ _ _ _ _ _ (by simp [hty]) (by simp [hty])]
    exact rdWord_wrWord_self ..
  · obtain ⟨hcount, htell⟩ := List.ne_and_not_mem_of_not_mem_cons hkty
    rw [hraise _ htell, rdWord_bump_ty _ _ _ _ _ _ hcount fun hm => htell (telling_sub_raising _ hm)]
    exact rdWord_wrWord_ne _ _ hk

theorem patLose_kept (b w : Nat) (s : State) : Safety.RegsKept Safety.raising s (patLose b w s) := fun k hk => by
  unfold patLose
  rw [kept_raiseAt _ _ _ _ _ k hk]
  rfl

/-- The set of a rule entry both of whose copies are bad is DAMAGED. -/
theorem shadowSweep_damages {s : State} {b : Fin 2} {i set : Nat} (hswept : swept s b.val = true) (hi : i < 262144)
    (hrule : i < patRules s b.val) (hset : set < 64) (hvalid : getF (setEntry s b.val set) RuleSet.VALID = 1)
    (hof : getF (ruleAt s b.val i) RuleEntry.SET = set) :
    Safety.Gives (.shadowSweep (.bothBad b i)) s fun t => (b.val, set) ∈ t.pat.damaged ∧ Safety.RegsKept Safety.raising s t := by
  have hgo : exec (.shadowSweep (.bothBad b i)) s = .next (patLose b.val i s) := congrArg Host.Outcome.next (if_pos hswept)
  refine ⟨_, hgo, ?_, patLose_kept b.val i s⟩
  rw [patLose, raiseAt_pat]
  simp [hset, hvalid, hi, hrule, hof]

theorem shadowSweep_completes {s : State} (h : s.pat.sweepFrom ≠ none) : exec (.shadowSweep .complete) s =
    .next { s with pat := { s.pat with sweptAt := some s.clock, sweepFrom := some s.clock } } :=
  congrArg Host.Outcome.next (if_pos (Option.isSome_iff_ne_none.2 h))

theorem shadowSweep_waits {s : State} (h : s.pat.sweepFrom = none) : exec (.shadowSweep .complete) s = .next s :=
  congrArg Host.Outcome.next (if_neg (by simp [h]))

/-- Settles O32: the banks by what each command leaves of their states, a request by its result, the sweep by the word that it repairs or
loses. -/
theorem patternMatcher : Obligations.PatternMatcher := by
  unfold Obligations.PatternMatcher
  refine ⟨fun c b i data s w _ hi hlen hcov hblk h => patWindowWrite_writes hi hlen hcov hblk h,
    fun c s w h he hv ht => patSwap_swaps h he hv ht,
    fun s hv => ⟨patVerifyComplete_ready hv, patVerifyComplete_bad hv⟩,
    fun s at_ => patBankSwitch_changes,
    fun s => patDrainEnd_ends,
    fun c s w h hs => patErase_erases h hs,
    fun s t x k hx hl ho => ⟨billetFetchIssue_fetches hx hl ho, billetFetchComplete_fetched hx hl ho, fetchTimeout_forms hx hl ho,
      lookupResult_lands hx hl ho⟩,
    fun s b i hswept => ⟨shadowSweep_repairs i hswept, fun hi hrule set => shadowSweep_damages hswept hi hrule⟩,
    fun s h => ⟨_, shadowSweep_completes h, rfl⟩,
    fun s h => ⟨s, shadowSweep_waits h, rfl⟩⟩

end Sys2Proof.Machine
end

section
/-! What stays of a line port while time comes, while an aggregator or the sources of time follow a change, and while a lane of a port takes its
settings (R181, R187, R199, R416). -/
namespace Sys2Proof.Machine

open Sys2Proof

/-! ## Lists of operations -/

/-- What one operation of a list brings about and none of them undoes, all of them together bring about. -/
theorem forAll_reaches {α : Type} {l : List α} {f : α → State → State} {a : α} (Q P : State → Prop) (ha : a ∈ l)
    (hQ : ∀ b s, Q s → Q (f b s)) (hself : ∀ s, Q s → P (f a s)) (hkeep : ∀ b s, Q s → P s → P (f b s)) {s : State} (hs : Q s) :
    P (forAll l f s) := by
  unfold Machine.forAll
  induction l generalizing s with
  | nil => cases ha
  | cons b l ih =>
    rw [List.foldl_cons]
    rcases List.mem_cons.1 ha with rfl | hl
    · exact (forAll_keeps l f (fun t => Q t ∧ P t) (fun b t ht => ⟨hQ b t ht.1, hkeep b t ht.1 ht.2⟩) _ ⟨hQ a s hs, hself s hs⟩).2
    · exact ih hl (hQ b s hs)

/-- Operations that each leave a state leave it together. -/
theorem forAll_eq_self {α : Type} {l : List α} {f : α → State → State} {s : State} (h : ∀ a ∈ l, f a s = s) : forAll l f s = s := by
  unfold Machine.forAll
  induction l with
  | nil => rfl
  | cons a l ih => rw [List.foldl_cons, h a (by simp), ih fun b hb => h b (by simp [hb])]

/-- Where an element of a list that is folded up comes from. -/
theorem mem_foldl_of {f : List Nat → Nat → List Nat} {P : Nat → Prop} (hf : ∀ acc q, ∀ x ∈ f acc q, x ∈ acc ∨ x = q ∧ P q)
    {l acc : List Nat} {x : Nat} (h : x ∈ l.foldl f acc) : x ∈ acc ∨ x ∈ l ∧ P x := by
  induction l generalizing acc with
  | nil => exact .inl h
  | cons q l ih =>
    rcases ih h with hx | ⟨hx, hp⟩
    · rcases hf acc q x hx with hx | ⟨rfl, hp⟩
      · exact .inl hx
      · exact .inr ⟨by simp, hp⟩
    · exact .inr ⟨by simp [hx], hp⟩

/-! ## Time that comes -/

/-- Time that comes moves the clocks, lets performance counters tell and the table builder go on; it changes nothing else. -/
theorem reach_parts (t : Nat) (s : State) : reach t s = { s with
    regs := (reach t s).regs, clock := (reach t s).clock, ct := (reach t s).ct, cmd := (reach t s).cmd, cnt := (reach t s).cnt,
    tbl := (reach t s).tbl, time := { s.time with slew := (reach t s).time.slew }, out := (reach t s).out } := by
  unfold reach
  dsimp only
  split
  · rfl
  · rw [(advance_told _ s).parts]
    rfl

@[simp] theorem reach_line (t : Nat) (s : State) : (reach t s).line = s.line := by rw [reach_parts]
@[simp] theorem reach_que (t : Nat) (s : State) : (reach t s).que = s.que := by rw [reach_parts]
@[simp] theorem reach_tfu (t : Nat) (s : State) : (reach t s).tfu = s.tfu := by rw [reach_parts]
@[simp] theorem reach_pwr (t : Nat) (s : State) : (reach t s).pwr = s.pwr := by rw [reach_parts]
@[simp] theorem reach_stepped (t : Nat) (s : State) : (reach t s).time.stepped = s.time.stepped := by rw [reach_parts]

/-- Intervals are measured by common time and the steps applied to it (R416). -/
theorem ivl_eq_of {s t : State} (hc : t.ct = s.ct) (hs : t.time.stepped = s.time.stepped) : ivl t = ivl s := by simp [ivl, hc, hs]

/-- A wait of a port is time that comes. -/
theorem waited_eq_reach (p d : Nat) (s : State) : ∃ t, waited p d s = reach t s := by
  unfold waited
  split
  · exact ⟨_, rfl⟩
  · exact ⟨0, (if_pos (Nat.zero_sub _)).symm⟩

/-- A port that has waited has waited to the end. -/
theorem waited_reaches {p d t : Nat} {s : State} (ht : tabGet? s.line.since p = some t) (h : s.time.stepped ≤ (s.ct : Int)) :
    t + d * 65536 ≤ ivl (waited p d s) := by
  unfold waited
  rw [ht]
  exact reachIvl_reaches _ h

/-! ## A change that the sources of time follow (R428, R434, R438) -/

/-- What TIME makes of a change moves a stream by at most what the safe state sends. -/
theorem Sends.timeChanged {a s : State} {b : Nat} (h : Sends a b s) : Sends a (b + 130) (timeChanged s) := by
  have htime := Sends.updateTime h
  unfold Machine.timeChanged
  generalize Machine.updateTime s = u at htime ⊢
  exact .ite (.enterSafe htime) (htime.mono (Nat.le_add_right _ _))

theorem timeChanged_queued (s : State) : Queued s (timeChanged s) := by
  have htime := Queued.updateTime (.refl s)
  unfold Machine.timeChanged
  generalize Machine.updateTime s = u at htime ⊢
  exact .ifThen htime fun h => .enterSafe h

theorem timeChanged_waiting (s : State) : (timeChanged s).cmd.waiting = s.cmd.waiting := congrArg (·.1) (timeChanged_cmdHeld s)

theorem timeChanged_ivl (s : State) : ivl (timeChanged s) = ivl s := ivl_eq_of (timeChanged_ct s) (timeChanged_queued s).stepped

/-! ## Lanes (R181, R203) -/

/-- One lane takes its settings. -/
def takeLane (l : Nat) (s : State) : State :=
  let s' := (drawChoice s).2
  { s' with line := { s'.line with lanes := tabPut s'.line.lanes l (lanesTaken (rdWord s' (obj .laneCtl l)) (drawChoice s).1) } }

theorem takeLanes_eq (p : Nat) (s : State) : takeLanes p s = forAll (lanesOf s p) takeLane s := rfl

theorem takeLanes_parts (p : Nat) (s : State) : takeLanes p s =
    { s with free := (takeLanes p s).free, line := { s.line with lanes := (takeLanes p s).line.lanes } } :=
  forAll_keeps (lanesOf s p) takeLane (fun t => t = { s with free := t.free, line := { s.line with lanes := t.line.lanes } })
    (fun l t ht => by rw [ht]; rfl) s rfl

@[simp] theorem rdWord_takeLanes (p : Nat) (s : State) (k : Key) : rdWord (takeLanes p s) k = rdWord s k := by
  rw [takeLanes_parts]
  rfl

/-- The settings in force on a lane of a port are those of its object, with some taps under AUTO. -/
theorem takeLanes_taken {p l : Nat} {s : State} (hl : l ∈ lanesOf s p) :
    ∃ c, tabGet? (takeLanes p s).line.lanes l = some (lanesTaken (rdWord s (obj .laneCtl l)) c) := by
  have hregs (b : Nat) (t : State) (k : Key) : rdWord (takeLane b t) k = rdWord t k := rfl
  rw [takeLanes_eq]
  refine forAll_reaches (f := takeLane) (fun t => ∀ k, rdWord t k = rdWord s k)
    (fun t => ∃ c, tabGet? t.line.lanes l = some (lanesTaken (rdWord s (obj .laneCtl l)) c)) hl (fun b t h k => (hregs b t k).trans (h k))
    (fun t h => ⟨(drawChoice t).1, ?_⟩) (fun b t h hp => ?_) fun _ => rfl
  · rw [← h]
    exact tabGet?_put_self ..
  · by_cases hb : l = b
    · exact ⟨(drawChoice t).1, by rw [← h, hb]; exact tabGet?_put_self ..⟩
    · obtain ⟨c, hc⟩ := hp
      exact ⟨c, (tabGet?_put_ne _ _ hb).trans hc⟩

/-! ## Aggregators (R199, R200) -/

/-- A selected member of an aggregator is up and has a partner. -/
theorem mem_selectedOf {s : State} {a p : Nat} (h : p ∈ selectedOf s a) : portUp s p = true ∧ partnerOf s p ≠ none := by
  unfold selectedOf at h
  split at h
  · cases h
  · have hfold := mem_foldl_of (P := fun q => partnerOf s q ≠ none) (fun acc q x hx => by
      cases hq : partnerOf s q with
      | none => simp only [hq] at hx; exact .inl hx
      | some r =>
        have hjoin (h : x ∈ acc ++ [q]) : x ∈ acc ∨ x = q ∧ some r ≠ none :=
          (List.mem_append.1 h).imp_right fun h => ⟨List.mem_singleton.1 h, nofun⟩
        simp only [hq] at hx
        split at hx <;> split at hx
        · exact hjoin hx
        · exact .inl hx
        · exact hjoin hx
        · exact .inl hx) h
    obtain ⟨hfit, hp⟩ := hfold.resolve_left List.not_mem_nil
    simp only [List.mem_filter, Bool.and_eq_true] at hfit
    exact ⟨hfit.2.1.1, hp⟩

/-- A member that would distribute is selected, and no micro-BFD session of it is down. -/
theorem mem_readyOf {s : State} {a p : Nat} (h : p ∈ readyOf s a) : p ∈ selectedOf s a ∧ microDown s p = false := by
  obtain ⟨hsel, hready⟩ := List.mem_filter.1 h
  refine ⟨hsel, ?_⟩
  cases hq : partnerOf s p with
  | none => simp [hq] at hready
  | some q =>
    simp only [hq, Bool.and_eq_true, Bool.not_eq_true'] at hready
    exact hready.2

/-- The members selected, those that would distribute, and whether they are too few, of an aggregator that may be disabled. -/
def aggSelected (a : Nat) (s : State) : List Nat := if flag s (agK a) AggCtl.EN then selectedOf s a else []
/-- See `aggSelected`. -/
def aggReady (a : Nat) (s : State) : List Nat := if flag s (agK a) AggCtl.EN then readyOf s a else []
/-- See `aggSelected`. -/
def aggShort (a : Nat) (s : State) : Bool :=
  flag s (agK a) AggCtl.EN && decide ((aggReady a s).length < rd s (agK a) AggCtl.MIN_LINKS)

/-- The LACP state of one member as it comes out. -/
def memberShown (sel ready : List Nat) (short : Bool) (p : Nat) (s : State) : State :=
  let sync := match partnerOf s p with
    | some q => q.sync
    | none => false
  let s := wr s (lpS p) LpStatus.SELECTED (if sel.contains p then 1 else 0)
  let s := wr s (lpS p) LpStatus.COLLECTING (if sel.contains p && sync then 1 else 0)
  wr s (lpS p) LpStatus.DISTRIBUTING (if ready.contains p && !short then 1 else 0)

/-- The LACP state of every member of an aggregator as it comes out. -/
def membersShown (a : Nat) (s : State) : State :=
  forAll (ports.filter fun p => aggOf s p == some a) (memberShown (aggSelected a s) (aggReady a s) (aggShort a s)) s

/-- An aggregator brought up to date, before the event of one that falls short. -/
def aggShown (a : Nat) (s : State) : State :=
  let u := membersShown a s
  { u with line := { u.line with short := (u.line.short.filter fun b => b != a) ++ if aggShort a s then [a] else [] } }

theorem updateAgg_eq (a : Nat) (s : State) : updateAgg a s =
    if aggShort a s && !(membersShown a s).line.short.contains a then stateEvent (agK a) (aggShown a s) else aggShown a s := rfl

/-- Bringing an aggregator up to date shows its members and tells. -/
theorem updateAgg_told (a : Nat) (s : State) : Told (aggShown a s) (updateAgg a s) := by
  rw [updateAgg_eq]
  split
  · exact stateEvent_told ..
  · exact Told.refl _

/-- A field of a port's status that LACP does not set. -/
def noLacp (f : Fld) : Bool := LpStatus.SELECTED.apart f && LpStatus.COLLECTING.apart f && LpStatus.DISTRIBUTING.apart f

section
variable (sel ready : List Nat) (short : Bool) (s : State)

theorem rdWord_memberShown_ne {p : Nat} {k : Key} (h : k ≠ lpS p) : rdWord (memberShown sel ready short p s) k = rdWord s k := by
  simp only [memberShown, rdWord_wr_ne _ _ _ h]

theorem rd_memberShown {f : Fld} (h : noLacp f = true) (p : Nat) (k : Key) : rd (memberShown sel ready short p s) k f = rd s k f := by
  simp only [noLacp, Bool.and_eq_true] at h
  obtain ⟨⟨hsel, hcol⟩, hdis⟩ := h
  by_cases hk : k = lpS p
  · rw [hk, memberShown, rd_wr_apart _ _ _ hdis, rd_wr_apart _ _ _ hcol, rd_wr_apart _ _ _ hsel]
  · rw [rd, rdWord_memberShown_ne sel ready short s hk, rd]

end

theorem membersShown_parts (a : Nat) (s : State) : membersShown a s = { s with regs := (membersShown a s).regs } :=
  forAll_keeps _ _ (fun t => t = { s with regs := t.regs }) (fun p t ht => by rw [ht]; rfl) s rfl

theorem aggShown_parts (a : Nat) (s : State) : aggShown a s =
    { s with regs := (aggShown a s).regs, line := { s.line with short := (aggShown a s).line.short } } := by
  unfold aggShown
  rw [membersShown_parts]

theorem rdWord_aggShown (a : Nat) (s : State) (k : Key) : rdWord (aggShown a s) k = rdWord (membersShown a s) k := rfl

theorem aggShown_kept (a : Nat) (s : State) : Safety.RegsKept [.lpStatus] s (aggShown a s) := fun k hk =>
  forAll_same _ _ (fun t => rdWord t k) (fun p t => rdWord_memberShown_ne _ _ _ t (by rintro rfl; exact hk (by simp [lpS]))) s

theorem rd_aggShown {f : Fld} (h : noLacp f = true) (a : Nat) (s : State) (k : Key) : rd (aggShown a s) k f = rd s k f :=
  forAll_same _ _ (fun t => rd t k f) (fun p t => rd_memberShown _ _ _ t h p k) s

/-- The LACP bits of a member come out as the aggregator stands. -/
theorem rd_aggShown_bit {f : Fld} {v : Nat} {a p : Nat} {s : State} (hp : p < 48) (ha : aggOf s p = some a)
    (h : ∀ u, rd (memberShown (aggSelected a s) (aggReady a s) (aggShort a s) p u) (lpS p) f = v) : rd (aggShown a s) (lpS p) f = v := by
  have hmem : p ∈ ports.filter fun p => aggOf s p == some a := List.mem_filter.2 ⟨List.mem_range.2 hp, by simp [ha]⟩
  refine forAll_reaches (fun _ => True) (fun t => rd t (lpS p) f = v) hmem (fun _ _ _ => trivial) (fun u _ => h u) (fun b u _ hu => ?_) trivial
  rcases eq_or_ne b p with rfl | hb
  · exact h u
  · have hne : lpS p ≠ lpS b := fun h => hb (obj_eq_iff.1 h).2.symm
    have hword := rdWord_memberShown_ne (aggSelected a s) (aggReady a s) (aggShort a s) u hne
    exact (congrArg (getF · f) hword).trans hu

/-- A member that may not be selected shows so. -/
theorem selected_aggShown {a p : Nat} {s : State} (hp : p < 48) (ha : aggOf s p = some a) (h : p ∉ selectedOf s a) :
    rd (aggShown a s) (lpS p) LpStatus.SELECTED = 0 := by
  have hsel : p ∉ aggSelected a s := by unfold aggSelected; split <;> simp [h]
  refine rd_aggShown_bit hp ha fun u => ?_
  simp only [memberShown, rd_wr_apart _ _ (f := LpStatus.DISTRIBUTING) (g := LpStatus.SELECTED) _ (by decide),
    rd_wr_apart _ _ (f := LpStatus.COLLECTING) (g := LpStatus.SELECTED) _ (by decide), rd_wr_self]
  simp [hsel]

/-- A member that is not ready to distribute does not. -/
theorem distributing_aggShown {a p : Nat} {s : State} (hp : p < 48) (ha : aggOf s p = some a) (h : p ∉ readyOf s a) :
    rd (aggShown a s) (lpS p) LpStatus.DISTRIBUTING = 0 := by
  have hready : p ∉ aggReady a s := by unfold aggReady; split <;> simp [h]
  refine rd_aggShown_bit hp ha fun u => ?_
  simp only [memberShown, rd_wr_self]
  simp [hready]

theorem aggOf_congr {s t : State} {p : Nat} (h : rd t (lpS p) LpStatus.AGG = rd s (lpS p) LpStatus.AGG) : aggOf t p = aggOf s p := by
  simp only [aggOf, h]

theorem updateAgg_lpS (a : Nat) (s : State) (p : Nat) : rdWord (updateAgg a s) (lpS p) = rdWord (aggShown a s) (lpS p) :=
  (updateAgg_told a s).regs _ (by simp [lpS, telTypes])

theorem updateAgg_line (a : Nat) (s : State) : (updateAgg a s).line = { s.line with short := (aggShown a s).line.short } := by
  rw [(updateAgg_told a s).parts, aggShown_parts]

theorem updateAgg_kept (a : Nat) (s : State) : Safety.RegsKept (.lpStatus :: Safety.telling) s (updateAgg a s) := fun k hk => by
  obtain ⟨hport, htell⟩ := List.ne_and_not_mem_of_not_mem_cons hk
  rw [(updateAgg_told a s).regs k htell, aggShown_kept a s k (by simpa using hport)]

/-! ## What follows a change of a port -/

/-- A state that the aggregator of a port, the frames that wait for its MAC, events and TIME lead to from another: beside objects of some types
only the LACP bits of ports have changed, and a session's stream has moved by at most so many SEQs beside those of overflows. -/
structure Follows (l : List ObjTy) (b : Nat) (s t : State) : Prop where
  kept    : Safety.RegsKept (.lpStatus :: l) s t
  ports   : ∀ q f, noLacp f = true → rd t (lpS q) f = rd s (lpS q) f
  line    : ∃ x y, t.line = { s.line with short := x, sending := y }
  ivl     : ivl t = ivl s
  waiting : t.cmd.waiting = s.cmd.waiting
  sends   : ∀ a c, Sends a c s → Sends a (c + b) t

namespace Follows

variable {l m : List ObjTy} {b c : Nat} {s t u : State}

theorem trans (h : Follows l b s t) (g : Follows l c t u) : Follows l (b + c) s u where
  kept := RegsKept.trans h.kept g.kept
  ports q f hf := (g.ports q f hf).trans (h.ports q f hf)
  line := by
    obtain ⟨x, y, hl⟩ := h.line
    obtain ⟨x', y', gl⟩ := g.line
    exact ⟨x', y', by rw [gl, hl]⟩
  ivl := g.ivl.trans h.ivl
  waiting := g.waiting.trans h.waiting
  sends a n hs := Nat.add_assoc n b c ▸ g.sends a _ (h.sends a n hs)

theorem mono (h : Follows l b s t) (hl : ∀ ty ∈ l, ty ∈ m) (hb : b ≤ c := by exact Nat.le_refl _) : Follows m c s t :=
  { h with kept := RegsKept.mono h.kept fun ty => by simpa using Or.imp_right (hl ty), sends := fun a n hs => (h.sends a n hs).mono (by omega) }

theorem refl (l : List ObjTy) (s : State) : Follows l 0 s s :=
  ⟨RegsKept.refl _ s, fun _ _ _ => rfl, ⟨_, _, rfl⟩, rfl, rfl, fun _ _ h => h⟩

theorem linkOf (h : Follows l b s t) (q : Nat) : linkOf t q = linkOf s q := h.ports q LpStatus.LINK (by decide)

theorem aggOf (h : Follows l b s t) (q : Nat) : aggOf t q = aggOf s q := aggOf_congr (h.ports q LpStatus.AGG (by decide))

theorem updateAgg (a : Nat) (s : State) : Follows Safety.telling 2 s (updateAgg a s) where
  kept := updateAgg_kept a s
  ports q f hf := by rw [rd, updateAgg_lpS, ← rd, rd_aggShown hf]
  line := ⟨_, s.line.sending, updateAgg_line a s⟩
  ivl := by
    have htold := (updateAgg_told a s).parts
    exact ivl_congr (by rw [htold, aggShown_parts]) (by rw [htold, aggShown_parts])
  waiting := by rw [(updateAgg_told a s).parts, aggShown_parts]
  sends r n hs := by
    have hshown : Sends r n (aggShown a s) := .parts (.forAll hs fun _ _ _ h => .wr (.wr (.wr h)))
    rw [updateAgg_eq]
    exact .ite hshown.stateEvent (hshown.mono (Nat.le_add_right _ _))

theorem updateAggOf (p : Nat) (s : State) : Follows Safety.telling 2 s (updateAggOf p s) := by
  unfold Machine.updateAggOf
  split
  · exact updateAgg ..
  · exact (refl _ s).mono (fun _ h => h) (Nat.zero_le _)

theorem timeChanged (s : State) : Follows Safety.raising 130 s (timeChanged s) where
  kept := RegsKept.mono (kept_timeChanged s) fun _ h => List.mem_cons_of_mem _ h
  ports q f _ := timeChanged_rd s _ f (by simp [lpS])
  line := ⟨_, _, timeChanged_line s⟩
  ivl := timeChanged_ivl s
  waiting := timeChanged_waiting s
  sends _ _ h := h.timeChanged

theorem stateEvent (k : Key) (s : State) : Follows Safety.telling 2 s (stateEvent k s) where
  kept := RegsKept.mono (kept_stateEvent k s) fun _ h => List.mem_cons_of_mem _ h
  ports q f _ := stateEvent_rd k s _ f (by simp [lpS])
  line := ⟨_, _, stateEvent_line k s⟩
  ivl := ivl_congr (stateEvent_ct k s) (stateEvent_time k s)
  waiting := congrArg (·.1) (stateEvent_cmdHeld k s)
  sends _ _ h := h.stateEvent

theorem bump {ty : ObjTy} {i j n : Nat} (s : State) (hp : ty ≠ .lpStatus := by exact nofun) (ht : ty ≠ .sessStatus := by exact nofun) :
    Follows (ty :: Safety.telling) 0 s (bump ty i j n s) where
  kept := RegsKept.mono (kept_bump ty i j n s) fun _ h => List.mem_cons_of_mem _ h
  ports q f _ := rd_bump_ty ty i j n s _ f (Ne.symm hp) (by simp [lpS])
  line := ⟨_, _, bump_line ty i j n s⟩
  ivl := ivl_congr (bump_ct ty i j n s) (bump_time ty i j n s)
  waiting := congrArg (·.1) (bump_cmdHeld ty i j n s)
  sends _ _ h := h.bump ht

end Follows

/-- A port that is not up leaves its aggregator's distribution (R200). -/
theorem updateAggOf_leaves {p : Nat} {s : State} (hp : p < 48) (ha : aggOf s p ≠ none) (hup : portUp s p = false) :
    rd (updateAggOf p s) (lpS p) LpStatus.DISTRIBUTING = 0 := by
  obtain ⟨a, ha⟩ := Option.ne_none_iff_exists'.1 ha
  have hready : p ∉ readyOf s a := fun h => by simp [(mem_selectedOf (mem_readyOf h).1).1] at hup
  unfold updateAggOf
  rw [ha, rd, updateAgg_lpS, ← rd]
  exact distributing_aggShown hp ha hready

/-! ## Commands whose effect tells -/

/-- An effect that moves the stream of a command's session by few SEQs is followed by the reply. -/
theorem replyWrite_answered_of_sends {s u : State} {c : Hdr} {w : Waiting} {k : Key} {x b : Nat} (h : Safety.Write s c w k x)
    (hw : u.cmd.waiting = s.cmd.waiting) (hs : Sends s b u) (hb : b ≤ 3000) : Safety.Answered [] u (replyWrite c k u) w [] := by
  have hwait : u.cmd.waiting = [w] := hw.trans h.turn.only
  have hroom : rd u (sessKey c.sid.val) SessStatus.NEXT_SEQ + fragments (24 + 0) < 2 ^ 64 := by
    have hstream : nextSeqOf s c.sid.val < 2 ^ 64 - 4096 := h.turn.stream
    have hseq := hs.seq c.sid.val
    have hmay : mayTell s ≤ 248 := (Finset.card_filter_le _ _).trans_eq (Finset.card_range 248)
    have hone : fragments (24 + 0) = 1 := by decide
    have hnext : rd u (sessKey c.sid.val) SessStatus.NEXT_SEQ = nextSeqOf u c.sid.val := rfl
    omega
  rw [replyWrite_done k hwait h.turn.mine h.turn.opcode]
  exact ok_answered hwait h.turn.mine h.turn.queued (by rw [h.turn.opcode]; decide) hroom

/-- What a command sent before its reply was sent. -/
theorem mem_out_replyWrite {c : Hdr} {k : Key} {u : State} {o : Out} (h : o ∈ u.out) : o ∈ (replyWrite c k u).out := by
  obtain ⟨l, hl⟩ := (Onward.replyWrite (c := c) (k := k) (.refl u)).out
  rw [hl]
  exact List.mem_append_right _ h

theorem Answered.line {u t : State} {w : Waiting} {r : Bytes} (h : Safety.Answered [] u t w r) : t.line = u.line := by
  obtain ⟨-, -, ht⟩ := h
  rw [ht]

end Sys2Proof.Machine
end

section
/-! The link state of a line port (R181, R187 to R190, R202): what its condition rests on, what a change of its condition moves, and what a port that
goes down leaves. -/
namespace Sys2Proof.Machine

open Sys2Proof

/-! ## Whether a port may rise (R187, R193, R226) -/

/-- Whether a port that is administratively up may come up. -/
def mayHold (s : State) (p : Nat) : Bool := !portShed s p && identityOk s p && portCond s p

theorem mayRise_eq (s : State) (p : Nat) : mayRise s p = (adminUp s p && mayHold s p) := by
  simp only [mayRise, mayHold, Bool.and_assoc]

/-- The types of objects that the condition of a port rests on, beside the port's own. -/
def condTypes : List ObjTy := [.frCtl, .frStatus, .protGrp, .tfuCtl, .pageEnt]

/-- What a port's rise rests on is as it was. -/
structure SameHold (p : Nat) (s t : State) : Prop where
  regs   : ∀ k, k.ty ∈ condTypes → rdWord t k = rdWord s k
  mode   : portMode t p = portMode s p
  policy : rd t (lpK p) LpCtl.ID_POLICY = rd s (lpK p) LpCtl.ID_POLICY
  ident  : rd t (lpS p) LpStatus.ID_STATE = rd s (lpS p) LpStatus.ID_STATE
  tfu    : t.tfu = s.tfu
  pwr    : t.pwr = s.pwr
  cond   : t.line.cond = s.line.cond

namespace SameHold

variable {p : Nat} {s t u : State}

theorem refl (p : Nat) (s : State) : SameHold p s s := ⟨fun _ _ => rfl, rfl, rfl, rfl, rfl, rfl, rfl⟩

theorem trans (h : SameHold p s t) (g : SameHold p t u) : SameHold p s u where
  regs k hk := (g.regs k hk).trans (h.regs k hk)
  mode := g.mode.trans h.mode
  policy := g.policy.trans h.policy
  ident := g.ident.trans h.ident
  tfu := g.tfu.trans h.tfu
  pwr := g.pwr.trans h.pwr
  cond := g.cond.trans h.cond

/-- Objects of other types may change. -/
theorem ofKept {l : List ObjTy} (h : Safety.RegsKept l s t) (hl : ∀ ty ∈ .lpCtl :: .lpStatus :: condTypes, ty ∉ l) (htfu : t.tfu = s.tfu)
    (hpwr : t.pwr = s.pwr) (hcond : t.line.cond = s.line.cond) : SameHold p s t where
  regs k hk := h k (hl _ (by simp [hk]))
  mode := RegsKept.rd h (hl _ (by simp)) _
  policy := RegsKept.rd h (hl _ (by simp [lpK])) _
  ident := RegsKept.rd h (hl _ (by simp [lpS])) _
  tfu := htfu
  pwr := hpwr
  cond := hcond

theorem portCond (h : SameHold p s t) : portCond t p = portCond s p := by
  have hfrK (q : Nat) : rdWord t (frK q) = rdWord s (frK q) := h.regs _ (by simp [frK, condTypes])
  have hfrS (q : Nat) : rdWord t (frS q) = rdWord s (frS q) := h.regs _ (by simp [frS, condTypes])
  have hgrp (g : Nat) : rdWord t (obj .protGrp g) = rdWord s (obj .protGrp g) := h.regs _ (by simp [condTypes])
  have hpage : rdWord t (obj .tfuCtl) = rdWord s (obj .tfuCtl) := h.regs _ (by simp [condTypes])
  have hent (x y z : Nat) : rdWord t (entK x y z) = rdWord s (entK x y z) := h.regs _ (by simp [entK, condTypes])
  have hserve : servingPort t p = servingPort s p := by
    simp only [servingPort, groupOfWork, flag, rd, hgrp]
    rfl
  have hslots : packetSlots t (pageAt t p) p = packetSlots s (pageAt s p) p := by
    simp only [packetSlots, pageAt, entryAt, rd, hpage, hent, h.tfu]
    rfl
  have hfail : packetFail t p = packetFail s p := by
    simp only [packetFail, hserve, hslots, oduFail, serverFail, flag, rd, hfrK, hfrS, h.tfu]
  simp only [Machine.portCond, isFramed, isEthernet, h.mode, hfail, rd, hfrS, h.cond]
  rfl

theorem mayHold (h : SameHold p s t) : mayHold t p = mayHold s p := by
  simp only [Machine.mayHold, portShed, powerShed, identityOk, flag, h.policy, h.ident, h.pwr, h.portCond]
  rfl

end SameHold

/-! ## What a change of a port's condition moves (R187) -/

/-- A state that differs by LINK and LANE_LOCK of a port, the settings of lanes, since when ports wait, and draws. -/
structure Moved (p : Nat) (s t : State) : Prop where
  parts : t = { s with regs := t.regs, free := t.free, line := { s.line with since := t.line.since, lanes := t.line.lanes } }
  word  : ∀ k, k ≠ lpS p → rdWord t k = rdWord s k
  field : ∀ f, LpStatus.LINK.apart f = true → LpStatus.LANE_LOCK.apart f = true → rd t (lpS p) f = rd s (lpS p) f

namespace Moved

variable {p : Nat} {s t u : State}

theorem refl (p : Nat) (s : State) : Moved p s s := ⟨rfl, fun _ _ => rfl, fun _ _ _ => rfl⟩

theorem trans (h : Moved p s t) (g : Moved p t u) : Moved p s u where
  parts := by rw [g.parts, h.parts]
  word k hk := (g.word k hk).trans (h.word k hk)
  field f hl hk := (g.field f hl hk).trans (h.field f hl hk)

theorem ite {c : Prop} [Decidable c] {x y : State} (hx : Moved p s x) (hy : Moved p s y) : Moved p s (if c then x else y) := by
  split <;> assumption

theorem setLink (h : Moved p s t) (st : Nat) : Moved p s (setLink p st t) :=
  h.trans ⟨rfl, fun _ hk => rdWord_wr_ne _ _ _ hk, fun _ hl _ => rd_wr_apart _ _ _ hl⟩

theorem lock (h : Moved p s t) (v : Nat) : Moved p s (wr t (lpS p) LpStatus.LANE_LOCK v) :=
  h.trans ⟨rfl, fun _ hk => rdWord_wr_ne _ _ _ hk, fun _ _ hk => rd_wr_apart _ _ _ hk⟩

theorem setSince (h : Moved p s t) (x : Option Nat) : Moved p s (setSince p x t) := h.trans ⟨rfl, fun _ _ => rfl, fun _ _ _ => rfl⟩

theorem takeLanes (h : Moved p s t) : Moved p s (takeLanes p t) :=
  h.trans ⟨by rw [takeLanes_parts], fun k _ => rdWord_takeLanes p t k, fun f _ _ => congrArg (getF · f) (rdWord_takeLanes p t _)⟩

theorem condChanged (h : Moved p s t) : Moved p s (condChanged p t) :=
  .ite (.setSince (.setLink (.takeLanes (.ite (.lock h _) h)) _) _) (.ite (.setSince (.setLink (.ite (.lock h _) h) _) _)
    (.ite (.setSince (.ite (.lock h _) h) _) (.ite (.setSince (.ite (.lock h _) h) _) (.ite (.lock h _) h))))

theorem kept (h : Moved p s t) : Safety.RegsKept [.lpStatus] s t := fun k hk => h.word k (by rintro rfl; exact hk (by simp [lpS]))

theorem rdWord_ty (h : Moved p s t) {k : Key} (hk : k.ty ≠ .lpStatus) : rdWord t k = rdWord s k := h.kept k (by simpa using hk)

theorem cond (h : Moved p s t) : t.line.cond = s.line.cond := by rw [h.parts]

theorem out (h : Moved p s t) : t.out = s.out := by rw [h.parts]

theorem ivl (h : Moved p s t) : ivl t = ivl s := by rw [h.parts]; rfl

theorem sameHold (h : Moved p s t) : SameHold p s t where
  regs k hk := h.rdWord_ty (by rintro he; simp [he, condTypes] at hk)
  mode := congrArg (getF · _) (h.rdWord_ty (k := lpK p) (by simp [lpK]))
  policy := congrArg (getF · _) (h.rdWord_ty (by simp [lpK]))
  ident := h.field _ (by decide) (by decide)
  tfu := by rw [h.parts]
  pwr := by rw [h.parts]
  cond := h.cond

theorem adminUp (h : Moved p s t) : adminUp t p = adminUp s p := by
  simp only [Machine.adminUp, flag, rd, h.rdWord_ty (k := obj .lpCtl p) (by simp)]

theorem mayRise (h : Moved p s t) : mayRise t p = mayRise s p := by rw [mayRise_eq, mayRise_eq, h.adminUp, h.sameHold.mayHold]

/-- Another port is as it was. -/
theorem other (h : Moved p s t) {q : Nat} (hq : q ≠ p) : rdWord t (lpS q) = rdWord s (lpS q) :=
  h.word _ fun he => hq (obj_eq_iff.1 he).2

theorem sends (h : Moved p s t) {a : State} {b : Nat} (hs : Sends a b s) : Sends a b t :=
  hs.same (by rw [h.parts]) (by rw [h.parts]) fun n => congrArg (getF · _) (h.rdWord_ty (k := sessKey n) (by simp [sessKey]))

end Moved

/-! ## LINK after a change of the condition -/

@[simp] theorem linkOf_setLink (p st : Nat) (s : State) : linkOf (setLink p st s) p = st % 4 := rd_wr_self ..

@[simp] theorem linkOf_setSince (p : Nat) (x : Option Nat) (s : State) (q : Nat) : linkOf (setSince p x s) q = linkOf s q := id rfl

/-- The lane locks of a framed port as they come out. -/
def lockShown (p : Nat) (s : State) : State :=
  if isFramed s p then wr s (lpS p) LpStatus.LANE_LOCK (if adminUp s p then framedLock s p else 0) else s

theorem lockShown_moved (p : Nat) (s : State) : Moved p s (lockShown p s) := .ite (.lock (.refl p s) _) (.refl p s)

theorem linkOf_lockShown (p : Nat) (s : State) : linkOf (lockShown p s) p = linkOf s p := by
  unfold lockShown
  split
  · exact rd_wr_apart _ _ _ (by decide)
  · rfl

theorem condChanged_eq (p : Nat) (s : State) : condChanged p s =
    if linkOf (lockShown p s) p = lkDown ∧ mayRise (lockShown p s) p then
      setSince p (some (ivl (lockShown p s))) (setLink p lkHolding (takeLanes p (lockShown p s)))
    else if linkOf (lockShown p s) p = lkHolding ∧ !mayRise (lockShown p s) p then setSince p none (setLink p lkDown (lockShown p s))
    else if linkOf (lockShown p s) p = lkUp ∧ portCond (lockShown p s) p then setSince p none (lockShown p s)
    else if linkOf (lockShown p s) p = lkUp ∧ (tabGet? (lockShown p s).line.since p).isNone then
      setSince p (some (ivl (lockShown p s))) (lockShown p s)
    else lockShown p s := rfl

section
variable {p : Nat} {s : State}

theorem condChanged_rise (h : linkOf s p = lkDown) (hr : mayRise s p = true) :
    condChanged p s = setSince p (some (ivl s)) (setLink p lkHolding (takeLanes p (lockShown p s))) := by
  rw [condChanged_eq, if_pos ⟨(linkOf_lockShown p s).trans h, (lockShown_moved p s).mayRise.trans hr⟩, (lockShown_moved p s).ivl]

theorem condChanged_fall (h : linkOf s p = lkHolding) (hr : mayRise s p = false) :
    condChanged p s = setSince p none (setLink p lkDown (lockShown p s)) := by
  have hr' : mayRise (lockShown p s) p = false := (lockShown_moved p s).mayRise.trans hr
  rw [condChanged_eq, if_neg (by simp [hr']), if_pos ⟨(linkOf_lockShown p s).trans h, by simp [hr']⟩]

theorem linkOf_condChanged_of_stays (h : linkOf s p = lkDown) (hr : mayRise s p = false) : linkOf (condChanged p s) p = lkDown := by
  have hl : linkOf (lockShown p s) p = lkDown := (linkOf_lockShown p s).trans h
  rw [condChanged_eq, if_neg (by simp [(lockShown_moved p s).mayRise, hr]), if_neg (by simp [hl, lkDown, lkHolding]),
    if_neg (by simp [hl, lkDown, lkUp]), if_neg (by simp [hl, lkDown, lkUp]), hl]

/-- A port that is down is HOLDING when it may rise. -/
theorem linkOf_condChanged_of_down (h : linkOf s p = lkDown) :
    linkOf (condChanged p s) p = if mayRise s p then lkHolding else lkDown := by
  cases hr : mayRise s p with
  | true => rw [condChanged_rise h hr, linkOf_setSince, linkOf_setLink]; rfl
  | false => exact linkOf_condChanged_of_stays h hr

end

/-- The settings of every lane of a port are in force. -/
def LanesTaken (s : State) (p : Nat) (t : State) : Prop :=
  ∀ l ∈ lanesOf s p, ∃ c, tabGet? t.line.lanes l = some (lanesTaken (rdWord s (obj .laneCtl l)) c)

theorem lanesOf_congr {s t : State} {p : Nat} (h : portMode t p = portMode s p) : lanesOf t p = lanesOf s p := by simp only [lanesOf, h]

theorem Moved.lanesTaken {p : Nat} {s t : State} (h : Moved p s t) : LanesTaken s p (Machine.takeLanes p t) := fun l hl => by
  have hmode : portMode t p = portMode s p := h.sameHold.mode
  obtain ⟨c, hc⟩ := takeLanes_taken (lanesOf_congr hmode ▸ hl)
  exact ⟨c, h.rdWord_ty (k := obj .laneCtl l) (by simp) ▸ hc⟩

/-- Lanes that are in force are so after a change of the condition. -/
theorem Moved.lanesTaken_condChanged {p : Nat} {s t : State} (h : Moved p s t) (hl : LanesTaken s p t) : LanesTaken s p (Machine.condChanged p t) := by
  have hlock : LanesTaken s p (lockShown p t) := by
    unfold lockShown
    split
    · exact hl
    · exact hl
  have hmoved := h.trans (lockShown_moved p t)
  rw [condChanged_eq]
  split_ifs
  · exact hmoved.lanesTaken
  all_goals exact hlock

/-! ## A port that goes down (R188) -/

/-- A port as its fall leaves it, before its frames under way end. -/
def linkFallen (p st : Nat) (s : State) : State :=
  let downs := s.clock :: flapsOf s p
  let s := { s with line := { s.line with downs := tabPut s.line.downs p downs } }
  let s := wr (setLink p st s) (lpS p) LpStatus.FLAPS (min downs.length 255)
  let s := setPt p { ptOf s p with listened := false, down := none } (wr s (ptS p) PtStatus.CAL 0)
  setSince p (if st = lkHeld then some (ivl s) else none) s

theorem goDown_eq (p st : Nat) (s : State) : goDown p st s =
    timeChanged (stateEvent (lpS p) (dropTx p (updateAggOf p (bump .lpCtr p 14 1 (cutArrivals p (linkFallen p st s)))))) := rfl

section
variable (p st : Nat) (s : State)

theorem linkFallen_kept : Safety.RegsKept [.lpStatus, .ptStatus] s (linkFallen p st s) := fun k hk => by
  simp only [List.mem_cons, List.not_mem_nil, or_false, not_or] at hk
  have hpt : k ≠ ptS p := by rintro rfl; exact hk.2 rfl
  have hlp : k ≠ lpS p := by rintro rfl; exact hk.1 rfl
  exact (rdWord_wr_ne _ _ _ hpt).trans ((rdWord_wr_ne _ _ _ hlp).trans (rdWord_wr_ne _ _ _ hlp))

theorem linkOf_linkFallen : linkOf (linkFallen p st s) p = st % 4 := by
  have hne : lpS p ≠ ptS p := by simp [lpS, ptS]
  exact (rd_wr_ne _ _ _ _ hne).trans ((rd_wr_apart _ _ _ (by decide)).trans (rd_wr_self ..))

theorem flaps_linkFallen : rd (linkFallen p st s) (lpS p) LpStatus.FLAPS = min ((flapsOf s p).length + 1) 255 := by
  have hne : lpS p ≠ ptS p := by simp [lpS, ptS]
  refine (rd_wr_ne _ _ _ _ hne).trans ((rd_wr_self ..).trans (Nat.mod_eq_of_lt ?_))
  exact Nat.lt_of_le_of_lt (Nat.min_le_right _ _) (by decide)

theorem agg_linkFallen (q : Nat) : aggOf (linkFallen p st s) q = aggOf s q := by
  refine aggOf_congr ?_
  have hne : lpS q ≠ ptS p := by simp [lpS, ptS]
  exact (rd_wr_ne _ _ _ _ hne).trans ((rd_wr_of_apart_or_ne (by decide)).trans (rd_wr_of_apart_or_ne (by decide)))

end

/-- On a port without a frame under way none is cut off. -/
theorem cutArrivals_of_none {p : Nat} {s : State} (ha : arrivingOf s p = []) : cutArrivals p s = setFifo p [] (setArriving p [] s) := by
  unfold cutArrivals
  rw [ha]
  rfl

/-- The frames of a port's MAC are gone. -/
def txCleared (p : Nat) (s : State) : State := setTx p [] { s with line := { s.line with sending := tabDel s.line.sending p } }

/-- Where every frame that waits for a port's MAC has arrived, dropping them is counting them. -/
theorem dropTx_eq {p : Nat} {s : State} (hs : tabGet? s.line.sending p = none) (ho : ∀ f ∈ txOf s p, f.open_ = false) :
    dropTx p s = txCleared p s ∨ ∃ n, dropTx p s = bump .lpCtr p 17 n (txCleared p s) := by
  have hself (f : TxFrame) (hf : f ∈ txOf s p ++ ((tabGet? s.line.sending p).map Sending.frame).toList) (u : State) : endOpen f u = u := by
    have hopen : f.open_ = false := ho f (by simpa [hs] using hf)
    unfold endOpen
    split <;> simp [hopen]
  unfold dropTx
  dsimp only
  rw [forAll_eq_self fun f hf => hself f hf _]
  split
  · exact .inl rfl
  · exact .inr ⟨_, rfl⟩

theorem dropTx_kept {p : Nat} {s : State} (hs : tabGet? s.line.sending p = none) (ho : ∀ f ∈ txOf s p, f.open_ = false) :
    Safety.RegsKept (.lpCtr :: Safety.telling) s (dropTx p s) := by
  rcases dropTx_eq hs ho with h | ⟨n, h⟩
  · rw [h]; exact fun _ _ => rfl
  · rw [h]; exact kept_from (kept_bump _ _ _ _ _) fun _ _ => rfl

theorem dropTx_follows {p : Nat} {s : State} (hs : tabGet? s.line.sending p = none) (ho : ∀ f ∈ txOf s p, f.open_ = false) :
    Follows (.lpCtr :: Safety.telling) 0 s (dropTx p s) := by
  have hclear : Follows (.lpCtr :: Safety.telling) 0 s (txCleared p s) :=
    ⟨fun _ _ => rfl, fun _ _ _ => rfl, ⟨_, _, rfl⟩, rfl, rfl, fun _ _ h => h.parts⟩
  rcases dropTx_eq hs ho with h | ⟨n, h⟩
  · rw [h]; exact hclear
  · rw [h]; exact hclear.trans (.bump _)

theorem updateAggOf_parts (p : Nat) (s : State) : updateAggOf p s =
    { s with regs := (updateAggOf p s).regs, cmd := (updateAggOf p s).cmd, cnt := (updateAggOf p s).cnt, out := (updateAggOf p s).out,
             line := { s.line with short := (updateAggOf p s).line.short } } := by
  unfold updateAggOf
  split
  · rw [(updateAgg_told _ s).parts, aggShown_parts]
  · rfl

@[simp] theorem txOf_updateAggOf (p q : Nat) (s : State) : txOf (updateAggOf p s) q = txOf s q := by rw [updateAggOf_parts]; rfl

@[simp] theorem sending_updateAggOf (p : Nat) (s : State) : (updateAggOf p s).line.sending = s.line.sending := by rw [updateAggOf_parts]

/-- A port without a frame under way that goes down. -/
structure WentDown (p st : Nat) (s t : State) : Prop where
  link    : linkOf t p = st % 4
  flaps   : rd t (lpS p) LpStatus.FLAPS = min ((flapsOf s p).length + 1) 255
  agg     : aggOf s p ≠ none → rd t (lpS p) LpStatus.DISTRIBUTING = 0
  kept    : Safety.RegsKept (.lpStatus :: .ptStatus :: Safety.raising) s t
  cond    : t.line.cond = s.line.cond
  ivl     : ivl t = ivl s
  waiting : t.cmd.waiting = s.cmd.waiting
  sends   : ∀ a c, Sends a c s → Sends a (c + 134) t

/-- The fall of a port before what follows it: with no frame arriving, none is cut off. -/
def fallen (p st : Nat) (s : State) : State := setFifo p [] (setArriving p [] (linkFallen p st s))

/-- The fall of a port with what its aggregator and its MAC make of it. -/
def fellOut (p st : Nat) (s : State) : State := dropTx p (updateAggOf p (bump .lpCtr p 14 1 (fallen p st s)))

section
variable {p st : Nat} {s : State}

theorem goDown_eq_of_none (ha : arrivingOf s p = []) : goDown p st s = timeChanged (stateEvent (lpS p) (fellOut p st s)) := by
  rw [goDown_eq, cutArrivals_of_none (s := linkFallen p st s) ha]
  rfl

theorem bump_fallen_que (q : Nat) : txOf (bump .lpCtr p 14 1 (fallen p st s)) q = txOf s q := by
  simp only [txOf, bump_que]
  rfl

theorem bump_fallen_sending : (bump .lpCtr p 14 1 (fallen p st s)).line.sending = s.line.sending := by
  rw [bump_line]
  rfl

theorem fellOut_follows (hs : tabGet? s.line.sending p = none) (ho : ∀ f ∈ txOf s p, f.open_ = false) :
    Follows (.lpCtr :: Safety.telling) 2 (fallen p st s) (fellOut p st s) := by
  have hbump : Follows (.lpCtr :: Safety.telling) 0 (fallen p st s) (bump .lpCtr p 14 1 (fallen p st s)) := .bump _
  have hagg := (Follows.updateAggOf p (bump .lpCtr p 14 1 (fallen p st s))).mono fun _ h => List.mem_cons_of_mem .lpCtr h
  refine (hbump.trans (hagg.trans (dropTx_follows ?_ ?_)))
  · rw [sending_updateAggOf, bump_fallen_sending, hs]
  · rwa [txOf_updateAggOf, bump_fallen_que]

theorem goDown_follows (h : Safety.NoneUnderWay s p) : Follows Safety.raising 134 (fallen p st s) (goDown p st s) := by
  obtain ⟨ha, -, hsend, hopen⟩ := h
  rw [goDown_eq_of_none ha]
  have hevent := (Follows.stateEvent (lpS p) (fellOut p st s)).mono telling_sub_raising
  exact ((fellOut_follows hsend hopen).mono (by decide)).trans (hevent.trans (.timeChanged _))

/-- A port that goes down leaves its aggregator's distribution (R200). -/
theorem goDown_leaves (hp : p < 48) (hup : st % 4 ≠ lkUp) (h : Safety.NoneUnderWay s p) (ha : aggOf s p ≠ none) :
    rd (goDown p st s) (lpS p) LpStatus.DISTRIBUTING = 0 := by
  obtain ⟨harr, -, hsend, hopen⟩ := h
  have hfield (f : Fld) : rd (bump .lpCtr p 14 1 (fallen p st s)) (lpS p) f = rd (linkFallen p st s) (lpS p) f :=
    rd_bump_ty _ _ _ _ _ _ _ (by simp [lpS]) (by simp [lpS])
  have hagg : aggOf (bump .lpCtr p 14 1 (fallen p st s)) p = aggOf s p := (aggOf_congr (hfield _)).trans (agg_linkFallen p st s p)
  have hdown : portUp (bump .lpCtr p 14 1 (fallen p st s)) p = false := by
    have hlink : linkOf (bump .lpCtr p 14 1 (fallen p st s)) p = st % 4 := (hfield _).trans (linkOf_linkFallen p st s)
    simp only [portUp, hlink]
    simpa [lkUp] using hup
  have hdrop : Safety.RegsKept _ _ (fellOut p st s) := dropTx_kept (s := updateAggOf p (bump .lpCtr p 14 1 (fallen p st s)))
    (by rw [sending_updateAggOf, bump_fallen_sending, hsend]) (by rwa [txOf_updateAggOf, bump_fallen_que])
  rw [goDown_eq_of_none harr, timeChanged_rd _ _ _ (by simp [lpS]), stateEvent_rd _ _ _ _ (by simp [lpS]),
    RegsKept.rd hdrop (by simp [lpS, Safety.telling])]
  exact updateAggOf_leaves hp (hagg ▸ ha) hdown

theorem goDown_wentDown (hp : p < 48) (hup : st % 4 ≠ lkUp) (h : Safety.NoneUnderWay s p) : WentDown p st s (goDown p st s) where
  link := ((goDown_follows h).linkOf p).trans (linkOf_linkFallen p st s)
  flaps := ((goDown_follows h).ports p _ (by decide)).trans (flaps_linkFallen p st s)
  agg := goDown_leaves hp hup h
  kept := RegsKept.trans (RegsKept.mono (linkFallen_kept p st s) (by simp))
    (RegsKept.mono (goDown_follows h).kept fun _ => by simp only [List.mem_cons]; tauto)
  cond := by
    obtain ⟨x, y, hl⟩ := (goDown_follows (st := st) h).line
    rw [hl]
    rfl
  ivl := (goDown_follows h).ivl
  waiting := (goDown_follows h).waiting
  sends a c hs := (goDown_follows h).sends a c (hs.same rfl rfl fun n =>
    congrArg (getF · _) (linkFallen_kept p st s (sessKey n) (by simp [sessKey])))

end

end Sys2Proof.Machine
end

section
/-! Link states: O34 (R178, R179, R181, R187 to R190, R200, R202, R203). -/
namespace Sys2Proof.Machine

open Sys2Proof

/-! ## The condition of an Ethernet port (R187) -/

/-- What the receiver of a port sees is shown. -/
def receiverShown (p : Nat) (localFault remoteFault good : Bool) (lanes : Nat) (s : State) : State :=
  let s := wr (wr (wr s (lpS p) LpStatus.LOCAL_FAULT (if localFault then 1 else 0)) (lpS p) LpStatus.REMOTE_FAULT (if remoteFault then 1 else 0))
    (lpS p) LpStatus.LANE_LOCK (laneLock s p lanes)
  { s with line := { s.line with cond := (s.line.cond.filter fun q => q != p) ++ if good then [p] else [] } }

section
variable {p : Nat} {s : State} (lf rf good : Bool) (lanes : Nat)

theorem receiverShown_parts : receiverShown p lf rf good lanes s =
    { s with regs := (receiverShown p lf rf good lanes s).regs,
             line := { s.line with cond := (s.line.cond.filter fun q => q != p) ++ if good then [p] else [] } } := rfl

theorem receiverShown_word {k : Key} (hk : k ≠ lpS p) : rdWord (receiverShown p lf rf good lanes s) k = rdWord s k :=
  (rdWord_wr_ne _ _ _ hk).trans ((rdWord_wr_ne _ _ _ hk).trans (rdWord_wr_ne _ _ _ hk))

theorem receiverShown_ty {k : Key} (hk : k.ty ≠ .lpStatus) : rdWord (receiverShown p lf rf good lanes s) k = rdWord s k :=
  receiverShown_word lf rf good lanes (by rintro rfl; exact hk rfl)

theorem receiverShown_kept : Safety.RegsKept [.lpStatus] s (receiverShown p lf rf good lanes s) := fun k hk =>
  receiverShown_ty lf rf good lanes (by simpa using hk)

theorem rd_receiverShown {f : Fld} (h1 : LpStatus.LOCAL_FAULT.apart f = true) (h2 : LpStatus.REMOTE_FAULT.apart f = true)
    (h3 : LpStatus.LANE_LOCK.apart f = true) : rd (receiverShown p lf rf good lanes s) (lpS p) f = rd s (lpS p) f :=
  (rd_wr_apart _ _ _ h3).trans ((rd_wr_apart _ _ _ h2).trans (rd_wr_apart _ _ _ h1))

theorem localFault_receiverShown : rd (receiverShown p lf rf good lanes s) (lpS p) LpStatus.LOCAL_FAULT = if lf then 1 else 0 := by
  refine (rd_wr_apart _ _ _ (by decide)).trans ((rd_wr_apart _ _ _ (by decide)).trans ((rd_wr_self ..).trans ?_))
  cases lf <;> rfl

theorem laneLock_receiverShown :
    rd (receiverShown p lf rf good lanes s) (lpS p) LpStatus.LANE_LOCK = laneLock s p lanes % 256 := by
  refine (rd_wr_self ..).trans ?_
  rfl

theorem linkOf_receiverShown : linkOf (receiverShown p lf rf good lanes s) p = linkOf s p :=
  rd_receiverShown lf rf good lanes (by decide) (by decide) (by decide)

theorem adminUp_receiverShown : adminUp (receiverShown p lf rf good lanes s) p = adminUp s p := by
  simp only [adminUp, flag, rd, receiverShown_ty lf rf good lanes (k := obj .lpCtl p) (by simp)]

theorem isEthernet_receiverShown : isEthernet (receiverShown p lf rf good lanes s) p = isEthernet s p := by
  simp only [isEthernet, portMode, rd, receiverShown_ty lf rf good lanes (k := obj .lpCtl p) (by simp)]
  rfl

theorem mem_cond_receiverShown : p ∈ (receiverShown p lf rf good lanes s).line.cond ↔ good = true := by
  show p ∈ (s.line.cond.filter fun q => q != p) ++ (if good then [p] else []) ↔ good = true
  cases good <;> simp

end

theorem isFramed_of_isEthernet {s : State} {p : Nat} (h : isEthernet s p = true) : isFramed s p = false := by
  simp only [isEthernet, isFramed, decide_eq_true_eq, decide_eq_false_iff_not] at h ⊢
  omega

theorem portCond_of_isEthernet {s : State} {p : Nat} (h : isEthernet s p = true) : portCond s p = s.line.cond.contains p := by
  simp [portCond, isFramed_of_isEthernet h, h]

/-- The condition of an Ethernet port is what its receiver sees. -/
theorem portCond_receiverShown {p : Nat} {s : State} (lf rf good : Bool) (lanes : Nat) (h : isEthernet s p = true) :
    portCond (receiverShown p lf rf good lanes s) p = good := by
  have hmem := mem_cond_receiverShown (p := p) (s := s) lf rf good lanes
  rw [portCond_of_isEthernet ((isEthernet_receiverShown lf rf good lanes).trans h), Bool.eq_iff_iff, List.contains_iff_mem, hmem]

theorem lockShown_of_isEthernet {s : State} {p : Nat} (h : isEthernet s p = true) : lockShown p s = s := by
  simp [lockShown, isFramed_of_isEthernet h]

theorem execPcsAlignmentChange_eq {p : Fin 48} {aligned lf rf : Bool} {lanes : BitVec 8} {s : State} (he : isEthernet s p.val = true)
    (ha : adminUp s p.val = true) : exec (.pcsAlignmentChange p aligned lf rf lanes) s = .next (condChanged p.val
      (if lf then emit (receiverShown p.val lf rf (aligned && !lf && !rf) lanes.toNat s) (.pdu p.val .remoteFault [])
        else receiverShown p.val lf rf (aligned && !lf && !rf) lanes.toNat s)) := by
  show execPcsAlignmentChange p aligned lf rf lanes s = _
  unfold execPcsAlignmentChange
  simp only [he, ha]
  rfl

/-- A port whose condition comes to hold (R187). -/
theorem condition_holds {p : Fin 48} {lanes : BitVec 8} {s : State} (he : isEthernet s p.val = true) (ha : adminUp s p.val = true)
    (hshed : portShed s p.val = false) (hid : identityOk s p.val = true) (hl : linkOf s p.val = lkDown) :
    Safety.Gives (.pcsAlignmentChange p true false false lanes) s fun t =>
      linkOf t p.val = lkHolding ∧ rd t (lpS p.val) LpStatus.LANE_LOCK = laneLock s p.val lanes.toNat % 256 ∧
        rd t (lpS p.val) LpStatus.LOCAL_FAULT = 0 ∧ p.val ∈ t.line.cond ∧ tabGet? t.line.since p.val = some (ivl s) ∧
        (∀ l ∈ lanesOf s p.val, ∃ c, tabGet? t.line.lanes l = some (lanesTaken (rdWord s (obj .laneCtl l)) c)) ∧
        t = { s with regs := t.regs, free := t.free,
                     line := { s.line with cond := t.line.cond, since := t.line.since, lanes := t.line.lanes } } ∧
        Safety.RegsKept [.lpStatus] s t := by
  have hgo := execPcsAlignmentChange_eq (aligned := true) (lf := false) (rf := false) (lanes := lanes) he ha
  obtain ⟨p, hp⟩ := p
  dsimp only at *
  simp only [Bool.false_eq_true, if_false, Bool.not_false, Bool.and_self] at hgo
  have hlock := laneLock_receiverShown (p := p) (s := s) false false true lanes.toNat
  have hfault := localFault_receiverShown (p := p) (s := s) false false true lanes.toNat
  have hlink := linkOf_receiverShown (p := p) (s := s) false false true lanes.toNat
  have hcond := (mem_cond_receiverShown (p := p) (s := s) false false true lanes.toNat).2 rfl
  have hkept := receiverShown_kept (p := p) (s := s) false false true lanes.toNat
  have hmode : portMode (receiverShown p false false true lanes.toNat s) p = portMode s p := congrArg (getF · _) (hkept (lpK p) (by simp [lpK]))
  have hrise : mayRise (receiverShown p false false true lanes.toNat s) p = true := by
    have hid' : identityOk (receiverShown p false false true lanes.toNat s) p = identityOk s p := by
      simp only [identityOk, flag, rd_receiverShown (p := p) (s := s) (f := LpStatus.ID_STATE) false false true lanes.toNat (by decide) (by decide)
        (by decide), RegsKept.rd hkept (k := lpK p) (by simp [lpK])]
      rfl
    have hshed' : portShed (receiverShown p false false true lanes.toNat s) p = false := hshed
    rw [mayRise, adminUp_receiverShown, ha, hshed', hid', hid, portCond_receiverShown _ _ _ _ he]
    rfl
  have hivl : ivl (receiverShown p false false true lanes.toNat s) = ivl s := rfl
  have hparts := receiverShown_parts (p := p) (s := s) false false true lanes.toNat
  have heth := (isEthernet_receiverShown (p := p) (s := s) false false true lanes.toNat).trans he
  generalize receiverShown p false false true lanes.toNat s = v at *
  have hmoved := (Moved.refl p v).takeLanes
  have hout : condChanged p v = setSince p (some (ivl v)) (setLink p lkHolding (takeLanes p v)) := by
    rw [condChanged_rise (hlink.trans hl) hrise, lockShown_of_isEthernet heth]
  have hall := (hmoved.setLink lkHolding).setSince (some (ivl v))
  rw [hout] at hgo
  refine ⟨_, hgo, ?_, ?_, ?_, ?_, ?_, fun l hl => ?_, ?_, RegsKept.trans hkept hall.kept⟩
  · rw [linkOf_setSince, linkOf_setLink]; rfl
  · refine Eq.trans ?_ hlock
    refine (rd_wr_apart (takeLanes p v) (lpS p) (f := LpStatus.LINK) (g := LpStatus.LANE_LOCK) lkHolding (by decide)).trans ?_
    exact congrArg (getF · _) (rdWord_takeLanes p v _)
  · rw [hall.field _ (by decide) (by decide), hfault]; rfl
  · rw [hall.cond]; exact hcond
  · exact (tabGet?_put_self ..).trans (congrArg some hivl)
  · obtain ⟨c, hc⟩ := takeLanes_taken (s := v) (lanesOf_congr hmode ▸ hl)
    exact ⟨c, hkept (obj .laneCtl l) (by simp) ▸ hc⟩
  · rw [hall.parts, hparts]

/-- A port whose receiver sees local fault (R187). -/
theorem condition_fails {p : Fin 48} {lanes : BitVec 8} {s : State} (he : isEthernet s p.val = true) (ha : adminUp s p.val = true)
    (hl : linkOf s p.val = lkHolding) : Safety.Gives (.pcsAlignmentChange p true true false lanes) s fun t =>
      linkOf t p.val = lkDown ∧ rd t (lpS p.val) LpStatus.LOCAL_FAULT = 1 ∧ p.val ∉ t.line.cond ∧
        t.out = .pdu p.val .remoteFault [] :: s.out ∧ Safety.RegsKept [.lpStatus] s t := by
  have hgo := execPcsAlignmentChange_eq (aligned := true) (lf := true) (rf := false) (lanes := lanes) he ha
  obtain ⟨p, hp⟩ := p
  dsimp only at *
  simp only [if_true, Bool.not_true, Bool.and_false, Bool.false_and] at hgo
  have hfault := localFault_receiverShown (p := p) (s := s) true false false lanes.toNat
  have hlink := linkOf_receiverShown (p := p) (s := s) true false false lanes.toNat
  have hcond := (mem_cond_receiverShown (p := p) (s := s) true false false lanes.toNat).not.2 (by simp)
  have hkept := receiverShown_kept (p := p) (s := s) true false false lanes.toNat
  have hfails := portCond_receiverShown (s := s) true false false lanes.toNat he
  have heth := (isEthernet_receiverShown (p := p) (s := s) true false false lanes.toNat).trans he
  have hparts := receiverShown_parts (p := p) (s := s) true false false lanes.toNat
  generalize receiverShown p true false false lanes.toNat s = v at *
  have hout : condChanged p (emit v (.pdu p .remoteFault [])) =
      setSince p none (setLink p lkDown (emit v (.pdu p .remoteFault []))) := by
    have hstays : mayRise (emit v (.pdu p .remoteFault [])) p = false := by
      show mayRise v p = false
      simp [mayRise, hfails]
    rw [condChanged_fall (s := emit v (.pdu p .remoteFault [])) (hlink.trans hl) hstays,
      lockShown_of_isEthernet (s := emit v (.pdu p .remoteFault [])) heth]
  have hall := ((Moved.refl p (emit v (.pdu p .remoteFault []))).setLink lkDown).setSince none
  rw [hout] at hgo
  refine ⟨_, hgo, ?_, ?_, ?_, ?_, RegsKept.trans hkept hall.kept⟩
  · rw [linkOf_setSince, linkOf_setLink]; rfl
  · rw [hall.field _ (by decide) (by decide)]; exact hfault
  · rw [hall.cond]; exact hcond
  · rw [hall.out]
    show _ :: v.out = _
    rw [hparts]

/-! ## Up, down and held (R187 to R189) -/

theorem waited_kept (p d : Nat) (s : State) : Safety.RegsKept Safety.telling s (waited p d s) := by
  obtain ⟨t, ht⟩ := waited_eq_reach p d s
  rw [ht]
  exact reach_kept t s

theorem rd_waited_lpS (p d : Nat) (s : State) (q : Nat) (f : Fld) : rd (waited p d s) (lpS q) f = rd s (lpS q) f :=
  RegsKept.rd (waited_kept p d s) (by simp [lpS]) f

theorem waited_sameHold (p d : Nat) (s : State) : SameHold p s (waited p d s) := by
  have hkept := waited_kept p d s
  obtain ⟨t, ht⟩ := waited_eq_reach p d s
  rw [ht] at hkept ⊢
  exact .ofKept hkept (by simp [condTypes, Safety.telling]) (reach_tfu t s) (reach_pwr t s) (by rw [reach_line])

theorem waited_noneUnderWay {p d : Nat} {s : State} (h : Safety.NoneUnderWay s p) : Safety.NoneUnderWay (waited p d s) p := by
  obtain ⟨t, ht⟩ := waited_eq_reach p d s
  rw [ht]
  unfold Safety.NoneUnderWay arrivingOf fifoOf txOf
  rw [reach_line, reach_que]
  exact h

/-- A port whose condition has held for UP_HOLD is up (R187). -/
theorem linkUp_gives {p : Fin 48} {s : State} (hl : linkOf s p.val = lkHolding) (hr : mayRise s p.val = true) :
    Safety.Gives (.linkUp p) s fun t =>
      linkOf t p.val = lkUp ∧ (∀ q < 48, q ≠ p.val → linkOf t q = linkOf s q) ∧ Safety.RegsKept (.lpStatus :: Safety.raising) s t ∧
        ∀ t0, tabGet? s.line.since p.val = some t0 → s.time.stepped ≤ (s.ct : Int) →
          t0 + rd s (lpK p.val) LpCtl.UP_HOLD * ms * 65536 ≤ ivl t := by
  obtain ⟨p, hp⟩ := p
  dsimp only at *
  have hwait {t0 : Nat} (h : tabGet? s.line.since p = some t0) := waited_reaches (d := rd s (lpK p) LpCtl.UP_HOLD * ms) h
  have hkept := waited_kept p (rd s (lpK p) LpCtl.UP_HOLD * ms) s
  have hrd := rd_waited_lpS p (rd s (lpK p) LpCtl.UP_HOLD * ms) s
  have hgo : exec (.linkUp ⟨p, hp⟩) s = .next (timeChanged (updateAggOf p (setLink p lkUp
      (setSince p none (waited p (rd s (lpK p) LpCtl.UP_HOLD * ms) s))))) := by
    exact congrArg Host.Outcome.next (if_pos ⟨hl, hr⟩)
  generalize waited p (rd s (lpK p) LpCtl.UP_HOLD * ms) s = v at *
  have hmoved := ((Moved.refl p v).setSince none).setLink lkUp
  have hlink : linkOf (setLink p lkUp (setSince p none v)) p = lkUp := linkOf_setLink ..
  generalize setLink p lkUp (setSince p none v) = x at *
  have hfollow : Follows Safety.raising 132 x (timeChanged (updateAggOf p x)) :=
    ((Follows.updateAggOf p x).mono telling_sub_raising).trans (.timeChanged _)
  refine ⟨_, hgo, ?_, fun q _ hq => ?_, ?_, fun t0 ht0 hstep => ?_⟩
  · rw [hfollow.linkOf, hlink]
  · rw [hfollow.linkOf]
    exact (congrArg (getF · _) (hmoved.other hq)).trans (hrd q _)
  · exact RegsKept.trans (RegsKept.mono hkept fun _ h => List.mem_cons_of_mem _ (telling_sub_raising _ h))
      (RegsKept.trans (RegsKept.mono hmoved.kept (by simp)) hfollow.kept)
  · rw [hfollow.ivl, hmoved.ivl]
    exact hwait ht0 hstep

/-- A port whose condition has failed for DOWN_HOLD is down or HELD (R188, R189). -/
theorem linkDown_gives {p : Fin 48} {s u : State} (hl : linkOf s p.val = lkUp) (hc : portCond s p.val = false)
    (hn : Safety.NoneUnderWay s p.val) (hu : u = waited p.val (rd s (lpK p.val) LpCtl.DOWN_HOLD * ms) s) : Safety.Gives (.linkDown p) s fun t =>
    linkOf t p.val = (if rd s (lpK p.val) LpCtl.FLAP_MAX ≠ 0 ∧ rd s (lpK p.val) LpCtl.FLAP_MAX < (flapsOf u p.val).length + 1
      then lkHeld else lkDown) ∧
    rd t (lpS p.val) LpStatus.FLAPS = min ((flapsOf u p.val).length + 1) 255 ∧
    (∀ t0, tabGet? s.line.since p.val = some t0 → s.time.stepped ≤ (s.ct : Int) →
      t0 + rd s (lpK p.val) LpCtl.DOWN_HOLD * ms * 65536 ≤ ivl t) ∧
    (aggOf s p.val ≠ none → rd t (lpS p.val) LpStatus.DISTRIBUTING = 0) ∧
    Safety.RegsKept (.lpStatus :: .ptStatus :: Safety.raising) s t := by
  obtain ⟨p, hp⟩ := p
  dsimp only at *
  have hwait {t0 : Nat} (h : tabGet? s.line.since p = some t0) := waited_reaches (d := rd s (lpK p) LpCtl.DOWN_HOLD * ms) h
  have hkept := waited_kept p (rd s (lpK p) LpCtl.DOWN_HOLD * ms) s
  have hagg : aggOf u p = aggOf s p := aggOf_congr (hu ▸ rd_waited_lpS p (rd s (lpK p) LpCtl.DOWN_HOLD * ms) s p _)
  have hnone : Safety.NoneUnderWay u p := hu ▸ waited_noneUnderWay hn
  generalize hst : (if rd s (lpK p) LpCtl.FLAP_MAX ≠ 0 ∧ rd s (lpK p) LpCtl.FLAP_MAX < (flapsOf u p).length + 1 then lkHeld else lkDown) = st
  have hmod : st % 4 = st := by rw [← hst]; split <;> rfl
  have hdown : st % 4 ≠ lkUp := by rw [← hst]; split <;> decide
  have hgo : exec (.linkDown ⟨p, hp⟩) s = .next (goDown p st u) := by
    rw [← hst, hu]
    exact congrArg Host.Outcome.next (if_pos ⟨hl, by simp [hc]⟩)
  rw [← hu] at hwait hkept
  have h := goDown_wentDown hp hdown hnone
  refine ⟨_, hgo, h.link.trans hmod, h.flaps, fun t0 ht0 hstep => ?_, fun ha => h.agg (hagg ▸ ha), RegsKept.trans (RegsKept.mono hkept fun ty h => ?_) h.kept⟩
  · rw [h.ivl]
    exact hwait ht0 hstep
  · exact List.mem_cons_of_mem _ (List.mem_cons_of_mem _ (telling_sub_raising ty h))

/-- The hold of a port ends after FLAP_HOLD (R189). -/
theorem flapHoldExpire_gives {p : Fin 48} {s : State} (hl : linkOf s p.val = lkHeld) : Safety.Gives (.flapHoldExpire p) s fun t =>
    linkOf t p.val = (if mayRise s p.val then lkHolding else lkDown) ∧ Safety.RegsKept (.lpStatus :: Safety.telling) s t ∧
    ∀ t0, tabGet? s.line.since p.val = some t0 → s.time.stepped ≤ (s.ct : Int) →
      t0 + rd s (lpK p.val) LpCtl.FLAP_HOLD * sec * 65536 ≤ ivl t := by
  obtain ⟨p, hp⟩ := p
  dsimp only at *
  have hwait {t0 : Nat} (h : tabGet? s.line.since p = some t0) := waited_reaches (d := rd s (lpK p) LpCtl.FLAP_HOLD * sec) h
  have hkept := waited_kept p (rd s (lpK p) LpCtl.FLAP_HOLD * sec) s
  have hhold := waited_sameHold p (rd s (lpK p) LpCtl.FLAP_HOLD * sec) s
  have hgo : exec (.flapHoldExpire ⟨p, hp⟩) s =
      .next (condChanged p (setSince p none (setLink p lkDown (waited p (rd s (lpK p) LpCtl.FLAP_HOLD * sec) s)))) := by
    exact congrArg Host.Outcome.next (if_pos hl)
  generalize waited p (rd s (lpK p) LpCtl.FLAP_HOLD * sec) s = v at *
  have hadmin : adminUp v p = adminUp s p := by simp only [adminUp, flag, rd, hkept (obj .lpCtl p) (by simp)]
  have hmoved := ((Moved.refl p v).setLink lkDown).setSince none
  have hlink : linkOf (setSince p none (setLink p lkDown v)) p = lkDown := linkOf_setLink ..
  have hrise : mayRise (setSince p none (setLink p lkDown v)) p = mayRise s p := by
    rw [hmoved.mayRise, mayRise_eq, mayRise_eq, hadmin, hhold.mayHold]
  generalize setSince p none (setLink p lkDown v) = x at *
  refine ⟨_, hgo, ?_, ?_, fun t0 ht0 hstep => ?_⟩
  · rw [linkOf_condChanged_of_down hlink, hrise]
  · exact RegsKept.trans (RegsKept.mono hkept fun _ => List.mem_cons_of_mem _) (RegsKept.mono hmoved.condChanged.kept (by simp))
  · rw [hmoved.condChanged.ivl]
    exact hwait ht0 hstep

end Sys2Proof.Machine
end

section
/-! Bring-up and its end (R181, R189, R190): the write of ADMIN_UP. -/
namespace Sys2Proof.Machine

open Sys2Proof

/-! ## A write that leaves the module (R192) -/

/-- A port that is OFF may not come up. -/
theorem mayHold_of_off {p : Nat} {s : State} (h : portMode s p = 0) : mayHold s p = false := by
  simp [mayHold, portCond, isFramed, isEthernet, h]

/-- A state that a write of a port's control leads to once its module has been looked after: what was sent may differ, and what a change of a
port's condition may move; the port may rise as before. -/
structure Reidentified (p : Nat) (s t : State) : Prop where
  parts : t = { s with regs := t.regs, free := t.free, out := t.out, line := { s.line with since := t.line.since, lanes := t.line.lanes } }
  word  : ∀ k, k ≠ lpS p → rdWord t k = rdWord s k
  agg   : rd t (lpS p) LpStatus.AGG = rd s (lpS p) LpStatus.AGG
  hold  : mayHold t p = mayHold s p

namespace Reidentified

variable {p : Nat} {s t : State}

theorem refl (p : Nat) (s : State) : Reidentified p s s := ⟨rfl, fun _ _ => rfl, rfl, rfl⟩

theorem kept (h : Reidentified p s t) : Safety.RegsKept [.lpStatus] s t := fun k hk => h.word k (by rintro rfl; exact hk (by simp [lpS]))

theorem driveModule (p : Nat) (s : State) : Reidentified p s (driveModule p s) := by
  unfold Machine.driveModule
  split
  · exact ⟨rfl, fun _ _ => rfl, rfl, rfl⟩
  · exact refl p s

/-- The module of a port that is OFF is none. -/
theorem setIdentity_of_off (h : portMode s p = 0) : Reidentified p s (setIdentity (portPlace s p) 0 s) := by
  have hout : setIdentity (portPlace s p) 0 s = condChanged p (wr s (lpS p) LpStatus.ID_STATE 0) := rfl
  have hword (k : Key) (hk : k ≠ lpS p) : rdWord (wr s (lpS p) LpStatus.ID_STATE 0) k = rdWord s k := rdWord_wr_ne _ _ _ hk
  have hagg : rd (wr s (lpS p) LpStatus.ID_STATE 0) (lpS p) LpStatus.AGG = rd s (lpS p) LpStatus.AGG := rd_wr_apart _ _ _ (by decide)
  have hparts : wr s (lpS p) LpStatus.ID_STATE 0 = { s with regs := (wr s (lpS p) LpStatus.ID_STATE 0).regs } := rfl
  rw [hout]
  generalize wr s (lpS p) LpStatus.ID_STATE 0 = v at *
  have hmoved := (Moved.refl p v).condChanged
  have hmode : portMode (condChanged p v) p = 0 :=
    hmoved.sameHold.mode.trans ((congrArg (getF · _) (hword (lpK p) (by simp [lpK, lpS]))).trans h)
  refine ⟨?_, fun k hk => (hmoved.word k hk).trans (hword k hk), (hmoved.field _ (by decide) (by decide)).trans hagg, ?_⟩
  · rw [hmoved.parts, hparts]
  · rw [mayHold_of_off hmode, mayHold_of_off h]

/-- A write of the port's control that leaves its MODE and its module's channel. -/
theorem identityMoved {old : Nat} (hm : getF old LpCtl.MODE = portMode s p)
    (hb : getF old LpCtl.MOD_BUS = rd s (lpK p) LpCtl.MOD_BUS) (hc : getF old LpCtl.MOD_CH = rd s (lpK p) LpCtl.MOD_CH) :
    Reidentified p s (identityMoved p old s) := by
  unfold Machine.identityMoved
  simp only [hm, hb, hc, ne_eq, not_true_eq_false, false_or, or_self, false_and, if_false]
  split_ifs with h
  · exact refl p s
  · exact setIdentity_of_off h
  · exact driveModule p s
  · exact refl p s

end Reidentified

/-! ## What a port's control write leaves -/

/-- The control of a port with a value written to one of its fields. -/
def lpStored (p : Nat) (f : Fld) (v : Nat) (s : State) : State := storeObj (lpK p) (putF (rdWord s (lpK p)) f v) s

section
variable {p v : Nat} {s : State}

theorem lpStored_kept (f : Fld) : Safety.RegsKept [.lpCtl] s (lpStored p f v s) := storeObj_kept (lpK p) _ s

theorem lpStored_parts (f : Fld) : lpStored p f v s = { s with regs := (lpStored p f v s).regs } := storeObj_parts ..

theorem rd_lpStored_apart {d : FieldDesc} {f : Fld} (hd : d ∈ fieldsOf .lpCtl) (ha : d.acc = .rw) (h : f.apart d.f = true) :
    rd (lpStored p f v s) (lpK p) d.f = rd s (lpK p) d.f := (rd_storeObj_rw (k := lpK p) hd ha).trans (getF_put_apart _ _ h)

theorem adminUp_lpStored : adminUp (lpStored p LpCtl.ADMIN_UP v s) p = (v % 2 == 1) := by
  have hrd : rd (lpStored p LpCtl.ADMIN_UP v s) (lpK p) LpCtl.ADMIN_UP = v % 2 :=
    (rd_storeObj_rw (k := lpK p) (d := rwF LpCtl.ADMIN_UP 0) (by simp [lpK, fieldsOf, fieldsLpCtl]) rfl).trans (getF_put_self ..)
  simp only [adminUp, flag]
  exact congrArg (· == 1) hrd

theorem portMode_lpStored : portMode (lpStored p LpCtl.ADMIN_UP v s) p = portMode s p :=
  rd_lpStored_apart (d := rwR LpCtl.MODE 0 0 6) (by simp [fieldsOf, fieldsLpCtl]) rfl (by decide)

theorem sameHold_lpStored : SameHold p s (lpStored p LpCtl.ADMIN_UP v s) where
  regs k hk := lpStored_kept _ k (by rintro h; rw [List.mem_singleton] at h; rw [h] at hk; simp [condTypes] at hk)
  mode := portMode_lpStored
  policy := rd_lpStored_apart (d := rwF LpCtl.ID_POLICY 0) (by simp [fieldsOf, fieldsLpCtl]) rfl (by decide)
  ident := RegsKept.rd (lpStored_kept _) (by simp [lpS]) _
  tfu := rfl
  pwr := rfl
  cond := rfl

/-- The module of a port is where it was. -/
theorem reidentified_lpStored : Reidentified p (lpStored p LpCtl.ADMIN_UP v s)
    (identityMoved p (rdWord s (lpK p)) (lpStored p LpCtl.ADMIN_UP v s)) := by
  refine .identityMoved portMode_lpStored.symm ?_ ?_
  · exact (rd_lpStored_apart (d := rwF LpCtl.MOD_BUS 0) (by simp [fieldsOf, fieldsLpCtl]) rfl (by decide)).symm
  · exact (rd_lpStored_apart (d := rwF LpCtl.MOD_CH 0) (by simp [fieldsOf, fieldsLpCtl]) rfl (by decide)).symm

end

/-- The port before ADMIN_UP takes effect: its control stored, and its module looked after. -/
def portReady (p v : Nat) (s : State) : State := identityMoved p (rdWord s (lpK p)) (lpStored p LpCtl.ADMIN_UP v s)

section
variable {p v : Nat} {s : State}

theorem adminUp_portReady : adminUp (portReady p v s) p = (v % 2 == 1) := by
  have hword := reidentified_lpStored (p := p) (v := v) (s := s).word (obj .lpCtl p) (by simp [lpS])
  rw [← adminUp_lpStored (p := p) (v := v) (s := s)]
  simp only [adminUp, flag, rd]
  exact congrArg (fun x => getF x LpCtl.ADMIN_UP == 1) hword

theorem mayHold_portReady : mayHold (portReady p v s) p = mayHold s p :=
  (reidentified_lpStored (p := p) (v := v) (s := s)).hold.trans sameHold_lpStored.mayHold

theorem portReady_kept : Safety.RegsKept [.lpCtl, .lpStatus] s (portReady p v s) :=
  RegsKept.trans (RegsKept.mono (lpStored_kept _) (by simp)) (RegsKept.mono reidentified_lpStored.kept (by simp))

theorem portReady_parts : portReady p v s = { s with
    regs := (portReady p v s).regs, free := (portReady p v s).free, out := (portReady p v s).out,
    line := { s.line with since := (portReady p v s).line.since, lanes := (portReady p v s).line.lanes } } := by
  have h := reidentified_lpStored (p := p) (v := v) (s := s).parts
  unfold portReady
  rw [h, lpStored_parts]

theorem portMode_portReady : portMode (portReady p v s) p = portMode s p :=
  (congrArg (getF · _) (reidentified_lpStored.word (lpK p) (by simp [lpK, lpS]))).trans portMode_lpStored

theorem portReady_sends {a : State} {b : Nat} (h : Sends a b s) : Sends a b (portReady p v s) :=
  h.same (by rw [portReady_parts]) (by rw [portReady_parts]) fun n =>
    congrArg (getF · _) (portReady_kept (sessKey n) (by simp [sessKey]))

end

/-- A write of ADMIN_UP is answered once it has taken effect. -/
theorem hostWrite_adminUp {c : Hdr} {p v : Nat} {s : State} {w : Waiting} (h : Safety.Sets s c w (lpK p) LpCtl.ADMIN_UP v) :
    hostWrite c (lpK p) (fun x => putF x LpCtl.ADMIN_UP v) s = replyWrite c (lpK p) (timeChanged (updateAggOf p
      (if adminUp (portReady p v s) p && !adminUp s p then portRise p (portReady p v s)
        else if !adminUp (portReady p v s) p && adminUp s p then portFall p (portReady p v s) else condChanged p (portReady p v s)))) :=
  hostWrite_ok (f := fun x => putF x LpCtl.ADMIN_UP v) h rfl rfl nofun nofun nofun nofun

/-- Bring-up starts (R181, R189). -/
theorem portAdminUp_gives {c : Hdr} {p : Fin 48} {s : State} {w : Waiting} (h : Safety.Sets s c w (lpK p.val) LpCtl.ADMIN_UP 1)
    (hoff : adminUp s p.val = false) : Safety.Gives (.portAdminUp c p) s fun t =>
      Safety.Done t w [] ∧ adminUp t p.val = true ∧
        linkOf t p.val = (if !portShed s p.val && identityOk s p.val && portCond s p.val then lkHolding else lkDown) ∧
        (∀ l ∈ lanesOf s p.val, ∃ c, tabGet? t.line.lanes l = some (lanesTaken (rdWord s (obj .laneCtl l)) c)) ∧
        Safety.RegsKept (.lpCtl :: .lpStatus :: Safety.raising) s t := by
  obtain ⟨p, hp⟩ := p
  dsimp only at *
  have hgo := hostWrite_adminUp h
  rw [adminUp_portReady, hoff] at hgo
  have hadmin := adminUp_portReady (p := p) (v := 1) (s := s)
  have hhold := mayHold_portReady (p := p) (v := 1) (s := s)
  have hkept := portReady_kept (p := p) (v := 1) (s := s)
  have hparts := portReady_parts (p := p) (v := 1) (s := s)
  have hmode := portMode_portReady (p := p) (v := 1) (s := s)
  have hsends := portReady_sends (p := p) (v := 1) (Sends.refl s)
  generalize portReady p 1 s = r at *
  have hbase := ((Moved.refl p r).setLink lkDown).setSince none
  have hmoved := hbase.takeLanes
  have hlanes := hbase.lanesTaken
  have hrise := hmoved.condChanged
  have hdown : linkOf (takeLanes p (setSince p none (setLink p lkDown r))) p = lkDown :=
    (congrArg (getF · _) (rdWord_takeLanes p _ _)).trans (linkOf_setLink ..)
  have hlink : linkOf (portRise p r) p = if mayHold s p then lkHolding else lkDown := by
    unfold portRise
    rw [linkOf_condChanged_of_down hdown, hmoved.mayRise, mayRise_eq, hadmin, hhold]
    rfl
  have htaken : LanesTaken r p (portRise p r) := hmoved.lanesTaken_condChanged hlanes
  have hrise' : Moved p r (portRise p r) := hrise
  change _ = replyWrite c (lpK p) (timeChanged (updateAggOf p (portRise p r))) at hgo
  generalize portRise p r = x at *
  have hfollow : Follows Safety.raising 132 x (timeChanged (updateAggOf p x)) :=
    ((Follows.updateAggOf p x).mono telling_sub_raising).trans (.timeChanged _)
  generalize timeChanged (updateAggOf p x) = y at *
  have hwait : y.cmd.waiting = s.cmd.waiting := by rw [hfollow.waiting, hrise'.parts, hparts]
  have ha := replyWrite_answered_of_sends h hwait (hfollow.sends _ _ (hrise'.sends hsends)) (by decide)
  have hall : Safety.RegsKept (.lpCtl :: .lpStatus :: Safety.raising) s y :=
    RegsKept.trans (RegsKept.mono hkept (by simp)) (RegsKept.trans (RegsKept.mono hrise'.kept (by simp))
      (RegsKept.mono hfollow.kept fun _ => List.mem_cons_of_mem _))
  refine ⟨_, congrArg Host.Outcome.next hgo, ha.1, ?_, ?_, fun l hl => ?_, RegsKept.mono (Answered.kept ha hall) (by simp [Safety.raising])⟩
  · have hctl : rdWord y (obj .lpCtl p) = rdWord r (obj .lpCtl p) :=
      (hfollow.kept _ (by simp)).trans (hrise'.rdWord_ty (by simp))
    show (rd _ (obj .lpCtl p) LpCtl.ADMIN_UP == 1) = true
    rw [Answered.rd ha (by simp), rd, hctl]
    exact hadmin
  · show rd _ (lpS p) LpStatus.LINK = _
    rw [Answered.rd ha (by simp [lpS])]
    exact (hfollow.linkOf p).trans hlink
  · obtain ⟨d, hd⟩ := htaken l (lanesOf_congr hmode ▸ hl)
    obtain ⟨x1, x2, hline⟩ := hfollow.line
    refine ⟨d, ?_⟩
    rw [Answered.line ha, hline, ← hkept (obj .laneCtl l) (by simp)]
    exact hd

/-! ## The end of ADMIN_UP (R190) -/

/-- A port that is to go down shows no fault and no lane. -/
def faultsCleared (p : Nat) (s : State) : State :=
  wr (wr (wr { s with line := { s.line with cond := s.line.cond.filter fun q => q != p } } (lpS p) LpStatus.LOCAL_FAULT 0) (lpS p)
    LpStatus.REMOTE_FAULT 0) (lpS p) LpStatus.LANE_LOCK 0

theorem faultsCleared_word {p : Nat} {s : State} {k : Key} (hk : k ≠ lpS p) : rdWord (faultsCleared p s) k = rdWord s k :=
  (rdWord_wr_ne _ _ _ hk).trans ((rdWord_wr_ne _ _ _ hk).trans (rdWord_wr_ne _ _ _ hk))

theorem faultsCleared_kept (p : Nat) (s : State) : Safety.RegsKept [.lpStatus] s (faultsCleared p s) := fun k hk =>
  faultsCleared_word (by rintro rfl; exact hk (by simp [lpS]))

theorem faultsCleared_cond (p : Nat) (s : State) : p ∉ (faultsCleared p s).line.cond := by
  show p ∉ s.line.cond.filter fun q => q != p
  simp

/-- A port that has been taken down, before it sends idle. -/
def tookDown (p : Nat) (s : State) : State :=
  if linkOf (faultsCleared p s) p = lkUp then goDown p lkDown (faultsCleared p s)
  else setSince p none (setLink p lkDown (faultsCleared p s))

theorem portFall_eq (p : Nat) (s : State) : portFall p s = emit (tookDown p s) (.pdu p .idle []) := rfl

/-- What a port without a frame under way that is taken down has come to. -/
structure TookDown (p : Nat) (s t : State) : Prop where
  link    : linkOf t p = lkDown
  cond    : p ∉ t.line.cond
  kept    : Safety.RegsKept (.lpStatus :: .ptStatus :: Safety.raising) s t
  waiting : t.cmd.waiting = s.cmd.waiting
  sends   : ∀ a c, Sends a c s → Sends a (c + 134) t

theorem tookDown_took {p : Nat} {s : State} (hp : p < 48) (h : Safety.NoneUnderWay s p) : TookDown p s (tookDown p s) := by
  have hcond := faultsCleared_cond p s
  have hkept := faultsCleared_kept p s
  have hnone : Safety.NoneUnderWay (faultsCleared p s) p := h
  have hwaiting : (faultsCleared p s).cmd.waiting = s.cmd.waiting := rfl
  have hsends (a : State) (c : Nat) (h : Sends a c s) : Sends a c (faultsCleared p s) :=
    h.same rfl rfl fun n => congrArg (getF · _) (hkept (sessKey n) (by simp [sessKey]))
  unfold tookDown
  generalize faultsCleared p s = v at *
  split
  · have hdown := goDown_wentDown (st := lkDown) hp (by decide) hnone
    exact ⟨hdown.link, by rwa [hdown.cond], RegsKept.trans (RegsKept.mono hkept (by simp)) hdown.kept, hdown.waiting.trans hwaiting,
      fun a c hs => hdown.sends a c (hsends a c hs)⟩
  · have hmoved := ((Moved.refl p v).setLink lkDown).setSince none
    exact ⟨linkOf_setLink .., by rwa [hmoved.cond], RegsKept.mono (RegsKept.trans hkept hmoved.kept) (by simp), hwaiting,
      fun a c hs => (hmoved.sends (hsends a c hs)).mono (Nat.le_add_right _ _)⟩

/-- A port that is taken down sends idle (R190). -/
theorem portAdminDown_gives {c : Hdr} {p : Fin 48} {s : State} {w : Waiting} (h : Safety.Sets s c w (lpK p.val) LpCtl.ADMIN_UP 0)
    (hon : adminUp s p.val = true) (hn : Safety.NoneUnderWay s p.val) : Safety.Gives (.portAdminDown c p) s fun t =>
      Safety.Done t w [] ∧ adminUp t p.val = false ∧ linkOf t p.val = lkDown ∧ p.val ∉ t.line.cond ∧
        Out.pdu p.val .idle [] ∈ t.out ∧ Safety.RegsKept (.lpCtl :: .lpStatus :: .ptStatus :: Safety.raising) s t := by
  obtain ⟨p, hp⟩ := p
  dsimp only at *
  have hgo := hostWrite_adminUp h
  rw [adminUp_portReady, hon] at hgo
  have hadmin := adminUp_portReady (p := p) (v := 0) (s := s)
  have hkept := portReady_kept (p := p) (v := 0) (s := s)
  have hparts := portReady_parts (p := p) (v := 0) (s := s)
  have hsends := portReady_sends (p := p) (v := 0) (Sends.refl s)
  generalize portReady p 0 s = r at *
  have hnone : Safety.NoneUnderWay r p := by
    rw [hparts]
    exact hn
  have hdown := tookDown_took hp hnone
  change _ = replyWrite c (lpK p) (timeChanged (updateAggOf p (portFall p r))) at hgo
  rw [portFall_eq] at hgo
  generalize tookDown p r = x at *
  have hfollow : Follows Safety.raising 132 (emit x (.pdu p .idle [])) (timeChanged (updateAggOf p (emit x (.pdu p .idle [])))) :=
    ((Follows.updateAggOf p _).mono telling_sub_raising).trans (.timeChanged _)
  have hidle : Out.pdu p .idle [] ∈ (timeChanged (updateAggOf p (emit x (.pdu p .idle [])))).out := by
    obtain ⟨l, hl⟩ := (Onward.timeChanged (.updateAggOf (p := p) (.refl (emit x (.pdu p .idle []))))).out
    rw [hl]
    exact List.mem_append_right _ List.mem_cons_self
  generalize timeChanged (updateAggOf p (emit x (.pdu p .idle []))) = y at *
  have hwait : y.cmd.waiting = s.cmd.waiting := hfollow.waiting.trans (hdown.waiting.trans (by rw [hparts]))
  have hout : Sends s (0 + 134 + 132) y := hfollow.sends _ _ (hdown.sends _ _ hsends).emit
  have ha := replyWrite_answered_of_sends h hwait hout (by decide)
  have hall : Safety.RegsKept (.lpCtl :: .lpStatus :: .ptStatus :: Safety.raising) s y :=
    RegsKept.trans (RegsKept.mono hkept (by simp)) (RegsKept.trans (RegsKept.mono hdown.kept fun _ => List.mem_cons_of_mem _)
      (RegsKept.mono hfollow.kept fun _ => by simp only [List.mem_cons]; tauto))
  refine ⟨_, congrArg Host.Outcome.next hgo, ha.1, ?_, ?_, ?_, mem_out_replyWrite hidle, RegsKept.mono (Answered.kept ha hall) (by simp [Safety.raising])⟩
  · have hctl : rdWord y (obj .lpCtl p) = rdWord r (obj .lpCtl p) := (hfollow.kept _ (by simp)).trans (hdown.kept _ (by simp))
    show (rd _ (obj .lpCtl p) LpCtl.ADMIN_UP == 1) = false
    rw [Answered.rd ha (by simp), rd, hctl]
    exact hadmin
  · show rd _ (lpS p) LpStatus.LINK = _
    rw [Answered.rd ha (by simp [lpS])]
    exact (hfollow.linkOf p).trans hdown.link
  · obtain ⟨x1, x2, hline⟩ := hfollow.line
    rw [Answered.line ha, hline]
    exact hdown.cond

/-- Settles O34: each clause by what its command makes of the port's link, with what follows the change of a link. -/
theorem linkStates : Obligations.LinkStates := by
  unfold Obligations.LinkStates
  refine ⟨fun p lanes s he ha hshed hid hl => ?_, fun p lanes s he ha hl => ?_, fun p s hl hr => ?_, fun p s u hl hc hn hu => ?_,
    fun p s hl => ?_, fun c p s w h hoff => ?_, fun c p s w h hon hn => ?_⟩
  · exact condition_holds he ha hshed hid hl
  · exact condition_fails he ha hl
  · exact linkUp_gives hl hr
  · exact linkDown_gives hl hc hn hu
  · exact flapHoldExpire_gives hl
  · exact portAdminUp_gives h hoff
  · exact portAdminDown_gives h hon hn

end Sys2Proof.Machine
end

section
/-! The identity of a port's module and the accesses of a module's bus (R191 to R194, R203). -/
namespace Sys2Proof.Machine

open Sys2Proof

/-! ## The place of a port's identity (R192) -/

/-- A channel that one port uses has that port's place alone. -/
theorem placesOf_eq {s : State} {ch p : Nat} (hc : ch < 64) (hu : usersOf s ch = [p]) : placesOf s ch = [portPlace s p] := by
  simp [placesOf, hc, hu]

/-- A port that uses a channel is not OFF. -/
theorem portMode_of_usersOf {s : State} {ch p : Nat} (hu : usersOf s ch = [p]) : portMode s p ≠ 0 ∧ moduleOf s p = ch := by
  have hmem : p ∈ usersOf s ch := by simp [hu]
  simp only [usersOf, namersOf, List.mem_filter, bne_iff_ne, beq_iff_eq] at hmem
  exact ⟨hmem.2, hmem.1.2⟩

@[simp] theorem forAll_one {α : Type} (a : α) (f : α → State → State) (s : State) : forAll [a] f s = f a s := id rfl

/-! ## A change of the identity (R192, R193) -/

/-- An identity as written, with the message of a bad one, before the module is driven. -/
def identityTold (p app st : Nat) (s : State) : State :=
  let x : IdPlace := ⟨lpS p, LpStatus.ID_STATE, obj .idMirror p, 0x38, 2, 3, some p, app⟩
  let u := wr s x.status x.field st
  if 3 ≤ st ∧ rd s x.status x.field ≠ st then raiseAt x.blk x.inst x.kind x.mirror u else u

theorem setIdentity_eq (u : State) (p st : Nat) (s : State) : setIdentity (portPlace u p) st s =
    condChanged p (if st = 2 ∧ rd s (lpS p) LpStatus.ID_STATE ≠ st then driveModule p (identityTold p (portMode u p) st s)
      else identityTold p (portMode u p) st s) := rfl

section
variable {p app st : Nat} {s : State}

theorem identityTold_kept : Safety.RegsKept (.lpStatus :: Safety.raising) s (identityTold p app st s) := by
  have hw : Safety.RegsKept (.lpStatus :: Safety.raising) s (wr s (lpS p) LpStatus.ID_STATE st) := kept_wr _ _ _ _ _ (by simp [lpS])
  unfold identityTold
  dsimp only
  split
  · exact RegsKept.trans hw (RegsKept.mono (kept_raiseAt _ _ _ _ _) fun _ => List.mem_cons_of_mem _)
  · exact hw

theorem rd_identityTold (h : st < 8) : rd (identityTold p app st s) (lpS p) LpStatus.ID_STATE = st := by
  have hw : rd (wr s (lpS p) LpStatus.ID_STATE st) (lpS p) LpStatus.ID_STATE = st := (rd_wr_self ..).trans (Nat.mod_eq_of_lt h)
  unfold identityTold
  dsimp only
  split
  · exact (raiseAt_rd _ _ _ _ _ _ _ (by simp [lpS])).trans hw
  · exact hw

theorem identityTold_line : (identityTold p app st s).line = s.line := by
  unfold identityTold
  dsimp only
  split
  · exact raiseAt_line ..
  · rfl

theorem identityTold_good (h : st < 3) : identityTold p app st s = wr s (lpS p) LpStatus.ID_STATE st := if_neg fun hc => absurd hc.1 (by omega)

/-- The identity takes a state: what is shown, and what else may have changed. -/
theorem setIdentity_reaches (u : State) (h : st < 8) :
    rd (setIdentity (portPlace u p) st s) (lpS p) LpStatus.ID_STATE = st ∧
      Safety.RegsKept (.lpStatus :: Safety.raising) s (setIdentity (portPlace u p) st s) ∧
      ∃ x y, (setIdentity (portPlace u p) st s).line = { s.line with since := x, lanes := y } := by
  rw [setIdentity_eq]
  have hid := rd_identityTold (p := p) (app := portMode u p) (s := s) h
  have hkept := identityTold_kept (p := p) (app := portMode u p) (st := st) (s := s)
  have hline := identityTold_line (p := p) (app := portMode u p) (st := st) (s := s)
  generalize identityTold p (portMode u p) st s = v at *
  have hdriven : Reidentified p v (if st = 2 ∧ rd s (lpS p) LpStatus.ID_STATE ≠ st then driveModule p v else v) := by
    split
    · exact Reidentified.driveModule p v
    · exact Reidentified.refl p v
  have hident : rd (if st = 2 ∧ rd s (lpS p) LpStatus.ID_STATE ≠ st then driveModule p v else v) (lpS p) LpStatus.ID_STATE = st := by
    unfold driveModule
    split_ifs <;> exact hid
  generalize (if st = 2 ∧ rd s (lpS p) LpStatus.ID_STATE ≠ st then driveModule p v else v) = w at *
  have hmoved := (Moved.refl p w).condChanged
  refine ⟨(hmoved.field _ (by decide) (by decide)).trans hident, ?_, ?_⟩
  · exact RegsKept.trans hkept (RegsKept.trans (RegsKept.mono hdriven.kept (by simp)) (RegsKept.mono hmoved.kept (by simp)))
  · exact ⟨_, _, by rw [hmoved.parts, hdriven.parts, hline]⟩

/-- A module that is read or gone raises nothing. -/
theorem setIdentity_quiet (u : State) (h : st < 2) :
    setIdentity (portPlace u p) st s = condChanged p (wr s (lpS p) LpStatus.ID_STATE st) := by
  rw [setIdentity_eq, if_neg (by omega), identityTold_good (by omega)]

/-- A module that becomes VALID is driven where MOD_MGMT asks for it (R193). -/
theorem setIdentity_drives (u : State) (hm : flag s (lpK p) LpCtl.MOD_MGMT = true) (hmode : portMode s p ≠ 0)
    (hw : rd s (lpS p) LpStatus.ID_STATE ≠ 2) :
    Out.cmis p (moduleOf s p) (portMode s p) (rd s (lpK p) LpCtl.MOD_LANE) ∈ (setIdentity (portPlace u p) 2 s).out := by
  have hctl (f : Fld) : rd (wr s (lpS p) LpStatus.ID_STATE 2) (lpK p) f = rd s (lpK p) f := rd_wr_ne _ _ _ _ (by simp [lpS, lpK])
  have hident : rd (wr s (lpS p) LpStatus.ID_STATE 2) (lpS p) LpStatus.ID_STATE = 2 := rd_wr_self ..
  have hmode' : portMode (wr s (lpS p) LpStatus.ID_STATE 2) p = portMode s p := hctl LpCtl.MODE
  have hmod' : moduleOf (wr s (lpS p) LpStatus.ID_STATE 2) p = moduleOf s p := by simp only [moduleOf, hctl]
  have hm' : rd s (lpK p) LpCtl.MOD_MGMT = 1 := by simpa [flag] using hm
  rw [setIdentity_eq, if_pos ⟨rfl, hw⟩, identityTold_good (by decide), ((Moved.refl p _).condChanged).out]
  unfold driveModule
  rw [hmode', hmod', hident, flag, hctl, hctl, if_pos (by simp [hm', hmode])]
  exact List.mem_cons_self

end

/-! ## The poll of a module (R192) -/

theorem modulePoll_present {ch : Fin 128} {p : Nat} {s : State} (hc : ch.val < 64) (hu : usersOf s ch.val = [p])
    (hb : ch.val / 16 ∉ s.line.busOut) (hid : rd s (lpS p) LpStatus.ID_STATE = 0) : Safety.Gives (.modulePoll ch true) s fun t =>
      rd t (lpS p) LpStatus.ID_STATE = 1 ∧ ch.val ∈ t.line.reading ∧ tabGet? t.line.retries ch.val = none ∧
        Safety.RegsKept [.lpStatus] s t ∧ t = { s with regs := t.regs, free := t.free, line := t.line } := by
  obtain ⟨ch, hch⟩ := ch
  dsimp only at *
  let v : State := { s with line := { s.line with reading := (s.line.reading ++ [ch]).dedup, retries := tabDel s.line.retries ch } }
  have hgo : exec (.modulePoll ⟨ch, hch⟩ true) s = .next (setIdentity (portPlace s p) 1 v) := by
    show execModulePoll ⟨ch, hch⟩ true s = _
    unfold execModulePoll
    simp only [List.contains_eq_mem, hb, decide_false, Bool.false_eq_true, if_false, if_true, placesOf_eq hc hu, forAll_one]
    exact congrArg Host.Outcome.next (if_pos hid)
  rw [setIdentity_quiet s (by decide)] at hgo
  have hmoved := (Moved.refl p (wr v (lpS p) LpStatus.ID_STATE 1)).condChanged
  have hw : Safety.RegsKept [.lpStatus] v (wr v (lpS p) LpStatus.ID_STATE 1) := kept_wr _ _ _ _ _ (by simp [lpS])
  refine ⟨_, hgo, ?_, ?_, ?_, RegsKept.trans (s := s) (t := v) (fun _ _ => rfl) (RegsKept.trans hw hmoved.kept), ?_⟩
  · exact (hmoved.field _ (by decide) (by decide)).trans (rd_wr_self ..)
  · rw [hmoved.parts]
    simp [v]
  · rw [hmoved.parts]
    exact tabGet?_del_self ..
  · rw [hmoved.parts]
    rfl

theorem modulePoll_absent {ch : Fin 128} {p : Nat} {s : State} (hc : ch.val < 64) (hu : usersOf s ch.val = [p])
    (hb : ch.val / 16 ∉ s.line.busOut) : Safety.Gives (.modulePoll ch false) s fun t =>
      rd t (lpS p) LpStatus.ID_STATE = 0 ∧ ch.val ∉ t.line.reading ∧ Safety.RegsKept [.lpStatus] s t := by
  obtain ⟨ch, hch⟩ := ch
  dsimp only at *
  have hgo : exec (.modulePoll ⟨ch, hch⟩ false) s = .next (setIdentity (portPlace s p) 0 (endReading ch s)) := by
    show execModulePoll ⟨ch, hch⟩ false s = _
    unfold execModulePoll
    simp only [List.contains_eq_mem, hb, decide_false, Bool.false_eq_true, if_false, placesOf_eq hc hu, forAll_one]
  rw [setIdentity_quiet s (by decide)] at hgo
  have hmoved := (Moved.refl p (wr (endReading ch s) (lpS p) LpStatus.ID_STATE 0)).condChanged
  have hw : Safety.RegsKept [.lpStatus] (endReading ch s) (wr (endReading ch s) (lpS p) LpStatus.ID_STATE 0) := kept_wr _ _ _ _ _ (by simp [lpS])
  refine ⟨_, hgo, ?_, ?_, RegsKept.trans (s := s) (t := endReading ch s) (fun _ _ => rfl) (RegsKept.trans hw hmoved.kept)⟩
  · exact (hmoved.field _ (by decide) (by decide)).trans (rd_wr_self ..)
  · rw [hmoved.parts]
    simp [endReading]

/-! ## What a read returns (R192, R193) -/

theorem identityState_lt (r : IdentityRead) (app : Nat) : identityState r app < 8 := by
  unfold identityState
  dsimp only
  split_ifs <;> decide

/-- The state of an identity that was read. -/
theorem identityState_read {r : IdentityRead} {app sum : Nat} (h : r.readOk = true)
    (hsum : sum = ((List.range' 128 94).map (idByte r.bytes.toNat)).sum % 256) : identityState r app =
      if 0x40 ≤ idByte r.bytes.toNat 1 ∧ idByte r.bytes.toNat 1 ≤ 0x5F ∧ idByte r.bytes.toNat 222 = sum
      then (if r.appMatch.toNat.testBit app then 2 else 4) else 3 := by
  unfold identityState
  simp only [h, ← hsum, Bool.not_true, Bool.false_eq_true, if_false]
  by_cases hv : 0x40 ≤ idByte r.bytes.toNat 1 ∧ idByte r.bytes.toNat 1 ≤ 0x5F ∧ idByte r.bytes.toNat 222 = sum
  · rw [if_neg (by omega), if_pos hv]
  · rw [if_pos (by omega), if_neg hv]

/-- What a read has left before the identity takes its state. -/
def identityFetched (ch p : Nat) (r : IdentityRead) (s : State) : State :=
  let s := if r.readOk then wrWord (endReading ch s) (obj .idMirror p) r.bytes.toNat else endReading ch s
  { s with line := { s.line with apps := tabPut s.line.apps p r.appMatch.toNat } }

section
variable {ch p : Nat} {r : IdentityRead} {s : State}

theorem identityFetched_kept : Safety.RegsKept [.idMirror] s (identityFetched ch p r s) := by
  unfold identityFetched
  split
  · exact fun k hk => rdWord_wrWord_ne _ _ (by rintro rfl; exact hk (by simp))
  · exact fun _ _ => rfl

theorem identityFetched_line : (identityFetched ch p r s).line =
    { (endReading ch s).line with apps := tabPut s.line.apps p r.appMatch.toNat } := by
  unfold identityFetched
  split <;> rfl

theorem execIdentityReadComplete_eq {ch : Fin 128} (hc : ch.val < 64) (hu : usersOf s ch.val = [p]) (hr : ch.val ∈ s.line.reading)
    (hid : rd s (lpS p) LpStatus.ID_STATE = 1) : exec (.identityReadComplete ch r) s =
      .next (setIdentity (portPlace s p) (identityState r (portMode s p)) (identityFetched ch.val p r s)) := by
  have hplaces : placesOf s ch.val = [portPlace s p] := placesOf_eq hc hu
  show execIdentityReadComplete ch r s = _
  unfold execIdentityReadComplete
  simp only [List.contains_eq_mem, hr, decide_true, Bool.not_true, Bool.false_eq_true, if_false, hplaces, forAll_one]
  exact congrArg Host.Outcome.next (if_pos hid)

end

theorem identityReadComplete_gives {ch : Fin 128} {p : Nat} {r : IdentityRead} {s : State} (hc : ch.val < 64) (hu : usersOf s ch.val = [p])
    (hr : ch.val ∈ s.line.reading) (hid : rd s (lpS p) LpStatus.ID_STATE = 1) : Safety.Gives (.identityReadComplete ch r) s fun t =>
      ch.val ∉ t.line.reading ∧ Safety.RegsKept (.lpStatus :: .idMirror :: Safety.raising) s t ∧
      (r.readOk = false → rd t (lpS p) LpStatus.ID_STATE = 5) ∧
      (r.readOk = true → rdWord t (obj .idMirror p) = r.bytes.toNat ∧
        tabGet? t.line.apps p = some r.appMatch.toNat ∧
        (∀ sum, sum = ((List.range' 128 94).map (idByte r.bytes.toNat)).sum % 256 → rd t (lpS p) LpStatus.ID_STATE =
          if 0x40 ≤ idByte r.bytes.toNat 1 ∧ idByte r.bytes.toNat 1 ≤ 0x5F ∧ idByte r.bytes.toNat 222 = sum
          then (if r.appMatch.toNat.testBit (portMode s p) then 2 else 4) else 3) ∧
        (flag s (lpK p) LpCtl.MOD_MGMT = true → rd t (lpS p) LpStatus.ID_STATE = 2 →
          Out.cmis p (moduleOf s p) (portMode s p) (rd s (lpK p) LpCtl.MOD_LANE) ∈ t.out)) := by
  have hgo := execIdentityReadComplete_eq (r := r) hc hu hr hid
  have hfetched := identityFetched_kept (ch := ch.val) (p := p) (r := r) (s := s)
  have hfline := identityFetched_line (ch := ch.val) (p := p) (r := r) (s := s)
  have hmirror (h : r.readOk = true) : rdWord (identityFetched ch.val p r s) (obj .idMirror p) = r.bytes.toNat := by
    simp only [identityFetched, h, if_true]
    exact rdWord_wrWord_self ..
  generalize identityFetched ch.val p r s = v at *
  obtain ⟨hst, hkept, x, y, hline⟩ := setIdentity_reaches (p := p) (s := v) s (identityState_lt r (portMode s p))
  have hctl (f : Fld) : rd v (lpK p) f = rd s (lpK p) f := RegsKept.rd hfetched (by simp [lpK]) f
  refine ⟨_, hgo, ?_, ?_, fun hbad => ?_, fun hok => ⟨?_, ?_, fun sum hsum => ?_, fun hm htwo => ?_⟩⟩
  · rw [hline, hfline]
    simp [endReading]
  · exact RegsKept.trans (RegsKept.mono hfetched (by simp)) (RegsKept.mono hkept (by simp only [List.mem_cons]; tauto))
  · rw [hst]
    simp [identityState, hbad]
  · rw [hkept (obj .idMirror p) (by simp), hmirror hok]
  · rw [hline, hfline]
    exact tabGet?_put_self ..
  · rw [hst, identityState_read hok hsum]
  · have hident : rd v (lpS p) LpStatus.ID_STATE ≠ 2 := by rw [RegsKept.rd hfetched (by simp [lpS]), hid]; decide
    have hmode : portMode v p = portMode s p := hctl _
    have hmod : moduleOf v p = moduleOf s p := by simp only [moduleOf, hctl]
    rw [hst] at htwo
    rw [htwo, ← hmod, ← hmode, ← hctl]
    exact setIdentity_drives s (by rw [flag, hctl]; exact hm) (hmode ▸ (portMode_of_usersOf hu).1) hident

/-! ## Transactions that fail (R191) -/

theorem twbTimeout_again {ch : Fin 128} {s : State} (hb : ch.val / 16 ∉ s.line.busOut) (hn : tabGet s.line.retries ch.val 0 < 3) :
    Safety.Gives (.twbTimeout ch .timeout) s fun t =>
      tabGet t.line.retries ch.val 0 = tabGet s.line.retries ch.val 0 + 1 ∧
        t = { s with line := { s.line with retries := t.line.retries } } := by
  have hgo : exec (.twbTimeout ch .timeout) s = .next
      { s with line := { s.line with retries := tabPut s.line.retries ch.val (tabGet s.line.retries ch.val 0 + 1) } } := by
    show execTwbTimeout ch .timeout s = _
    unfold execTwbTimeout
    simp only [List.contains_eq_mem, hb, decide_false, Bool.false_eq_true, if_false, if_pos (Nat.succ_le_of_lt hn)]
  exact ⟨_, hgo, tabGet_put_self .., rfl⟩

theorem twbTimeout_unreadable {ch : Fin 128} {p : Nat} {s : State} (hb : ch.val / 16 ∉ s.line.busOut) (hc : ch.val < 64)
    (hu : usersOf s ch.val = [p]) (hid : rd s (lpS p) LpStatus.ID_STATE = 1) (hr : ch.val ∈ s.line.reading)
    (hn : 3 ≤ tabGet s.line.retries ch.val 0) : Safety.Gives (.twbTimeout ch .noAck) s fun t =>
      rd t (lpS p) LpStatus.ID_STATE = 5 ∧ ch.val ∉ t.line.reading ∧ Safety.RegsKept (.lpStatus :: Safety.raising) s t := by
  have hplaces : placesOf s ch.val = [portPlace s p] := placesOf_eq hc hu
  have hgo : exec (.twbTimeout ch .noAck) s = .next (setIdentity (portPlace s p) 5 (endReading ch.val s)) := by
    show execTwbTimeout ch .noAck s = _
    unfold execTwbTimeout
    simp only [List.contains_eq_mem, hb, hr, decide_false, decide_true, Bool.false_eq_true, if_false, if_true, hplaces, forAll_one,
      if_neg (show ¬ tabGet s.line.retries ch.val 0 + 1 ≤ 3 by omega)]
    exact congrArg Host.Outcome.next (if_pos hid)
  obtain ⟨hst, hkept, x, y, hline⟩ := setIdentity_reaches (p := p) (s := endReading ch.val s) s (show 5 < 8 by decide)
  refine ⟨_, hgo, hst, ?_, RegsKept.trans (s := s) (t := endReading ch.val s) (fun _ _ => rfl) hkept⟩
  rw [hline]
  simp [endReading]

theorem busStuck_line (b : Nat) (s : State) : (busStuck b s).line = { s.line with busOut := (s.line.busOut ++ [b]).dedup } := by
  unfold busStuck
  dsimp only
  split <;> exact raiseAt_line ..

theorem busStuck_kept (b : Nat) (s : State) : Safety.RegsKept Safety.raising s (busStuck b s) := by
  unfold busStuck
  dsimp only
  split <;> exact kept_from (kept_raiseAt _ _ _ _ _) fun _ _ => rfl

theorem twbTimeout_stuck {ch : Fin 128} {s : State} (hb : ch.val / 16 ∉ s.line.busOut) : Safety.Gives (.twbTimeout ch (.sdaLow false)) s fun t =>
      ch.val / 16 ∈ t.line.busOut ∧ Out.busClear (ch.val / 16) ∈ t.out ∧ Safety.RegsKept Safety.raising s t := by
  have hgo : exec (.twbTimeout ch (.sdaLow false)) s = .next (busStuck (ch.val / 16) (emit s (.busClear (ch.val / 16)))) := by
    show execTwbTimeout ch (.sdaLow false) s = _
    unfold execTwbTimeout
    simp only [List.contains_eq_mem, hb, decide_false, Bool.false_eq_true, if_false]
  obtain ⟨l, hl⟩ := (Onward.busStuck (b := ch.val / 16) (.refl (emit s (.busClear (ch.val / 16))))).out
  refine ⟨_, hgo, ?_, ?_, kept_from (busStuck_kept _ _) fun _ _ => rfl⟩
  · rw [busStuck_line]
    simp
  · rw [hl]
    exact List.mem_append_right _ List.mem_cons_self

/-! ## The recovery of a bus (R191) -/

theorem execTwbRecovery_out {b : Fin 8} {s : State} (ok : Bool) (h : b.val ∈ s.line.busOut) : exec (.twbRecovery b ok) s =
    .next (if ok then { s with line := { s.line with busOut := s.line.busOut.filter fun i => i != b.val }, out := .busClear b.val :: s.out }
      else { s with out := .busClear b.val :: s.out }) := by
  show execTwbRecovery b ok s = _
  unfold execTwbRecovery
  simp only [List.contains_eq_mem, h, decide_true, Bool.not_true, Bool.false_eq_true, if_false]
  rfl

theorem twbRecovery_gives (b : Fin 8) (s : State) :
    (b.val ∈ s.line.busOut → Safety.Gives (.twbRecovery b true) s fun t => (∀ x, x ∈ t.line.busOut ↔ x ∈ s.line.busOut ∧ x ≠ b.val) ∧
      t = { s with line := { s.line with busOut := t.line.busOut }, out := .busClear b.val :: s.out }) ∧
    (b.val ∈ s.line.busOut → Safety.Gives (.twbRecovery b false) s fun t => t = { s with out := .busClear b.val :: s.out }) ∧
    (b.val ∉ s.line.busOut → ∀ ok, Safety.Gives (.twbRecovery b ok) s fun t => t = s) := by
  refine ⟨fun h => ⟨_, execTwbRecovery_out true h, fun x => ?_, rfl⟩, fun h => ⟨_, execTwbRecovery_out false h, rfl⟩, fun h ok => ⟨s, ?_, rfl⟩⟩
  · simp
  · show execTwbRecovery b ok s = _
    unfold execTwbRecovery
    simp only [List.contains_eq_mem, h, decide_false, Bool.not_false, if_true]

/-! ## Module access (R194, R203) -/

/-- The control of a bus's module access with GO stored. -/
def goStored (b : Nat) (s : State) : State := storeObj (obj .modCtl b) (putF (rdWord s (obj .modCtl b)) ModCtl.GO 1) s

theorem goStored_kept (b : Nat) (s : State) : Safety.RegsKept [.modCtl] s (goStored b s) := storeObj_kept (obj .modCtl b) _ s

/-- What a module access is for. -/
def accessFields : List Fld := [ModCtl.WRITE, ModCtl.CH, ModCtl.BANK, ModCtl.PAGE, ModCtl.OFFSET, ModCtl.LEN]

theorem accessFields_written : ∀ f ∈ accessFields, ∃ d ∈ fieldsOf .modCtl, d.f = f ∧ d.acc = .rw ∧ ModCtl.GO.apart f = true := by decide

theorem rd_goStored {b : Nat} {s : State} {f : Fld} (hf : f ∈ accessFields) :
    rd (goStored b s) (obj .modCtl b) f = rd s (obj .modCtl b) f := by
  obtain ⟨d, hd, rfl, ha, hg⟩ := accessFields_written f hf
  exact (rd_storeObj_rw (k := obj .modCtl b) hd ha).trans (getF_put_apart _ _ hg)

theorem hostWrite_go {c : Hdr} {b : Nat} {s : State} {w : Waiting} (h : Safety.Sets s c w (obj .modCtl b) ModCtl.GO 1) :
    hostWrite c (obj .modCtl b) (fun x => putF x ModCtl.GO 1) s = replyWrite c (obj .modCtl b) (moduleGo b (goStored b s)) := by
  rw [hostWrite_ok (f := fun x => putF x ModCtl.GO 1) h rfl rfl nofun nofun nofun nofun]
  exact congrArg (replyWrite c _) (if_pos (getF_put_self ..))

section
variable {b : Nat} {s : State}

theorem moduleGo_parts : moduleGo b s = { s with regs := (moduleGo b s).regs, out := (moduleGo b s).out } := by
  unfold moduleGo
  dsimp only
  split <;> rfl

theorem moduleGo_kept : Safety.RegsKept [.modCtl] s (moduleGo b s) := fun k hk => by
  have hne : k ≠ obj .modCtl b := by rintro rfl; exact hk (by simp)
  unfold moduleGo
  dsimp only
  split <;> exact rdWord_wr_ne _ _ _ hne

theorem busy_moduleGo : flag (moduleGo b s) (obj .modCtl b) ModCtl.BUSY = true := by
  have hrd : rd (moduleGo b s) (obj .modCtl b) ModCtl.BUSY = 1 := rd_wr_self ..
  simp [flag, hrd]

theorem moduleGo_writes (hw : flag s (obj .modCtl b) ModCtl.WRITE = true) (hb : b ∉ s.line.busOut) :
    Out.moduleWrite (16 * b + rd s (obj .modCtl b) ModCtl.CH) (rd s (obj .modCtl b) ModCtl.BANK)
      (rd s (obj .modCtl b) ModCtl.PAGE) (rd s (obj .modCtl b) ModCtl.OFFSET)
      ((toBytes 128 (rdWord s (obj .modData b))).take (rd s (obj .modCtl b) ModCtl.LEN)) ∈ (moduleGo b s).out := by
  unfold moduleGo
  dsimp only
  rw [if_pos (by simp [hw, hb])]
  exact List.mem_cons_self

end

theorem moduleAccessGo_gives {c : Hdr} {b : Fin 4} {s : State} {w : Waiting} (h : Safety.Sets s c w (obj .modCtl b.val) ModCtl.GO 1) :
    Safety.Gives (.moduleAccessGo c b) s fun t =>
      Safety.Answered [.modCtl] s t w [] ∧ flag t (obj .modCtl b.val) ModCtl.BUSY = true ∧
      (flag s (obj .modCtl b.val) ModCtl.WRITE = true → b.val ∉ s.line.busOut →
        Out.moduleWrite (16 * b.val + rd s (obj .modCtl b.val) ModCtl.CH) (rd s (obj .modCtl b.val) ModCtl.BANK)
          (rd s (obj .modCtl b.val) ModCtl.PAGE) (rd s (obj .modCtl b.val) ModCtl.OFFSET)
          ((toBytes 128 (rdWord s (obj .modData b.val))).take (rd s (obj .modCtl b.val) ModCtl.LEN)) ∈ t.out) := by
  obtain ⟨b, hb⟩ := b
  dsimp only at *
  have hgo := hostWrite_go h
  have hstored := goStored_kept b s
  have hparts : goStored b s = { s with regs := (goStored b s).regs } := storeObj_parts ..
  have hfield {f : Fld} (hf : f ∈ accessFields) := rd_goStored (b := b) (s := s) hf
  generalize goStored b s = v at *
  have hkept : Safety.RegsKept [.modCtl] s (moduleGo b v) := RegsKept.trans hstored moduleGo_kept
  have ha : Safety.Answered [] (moduleGo b v) (replyWrite c (obj .modCtl b) (moduleGo b v)) w [] :=
    replyWrite_answered h (by rw [moduleGo_parts, hparts]) fun n => hkept _ (by simp [sessKey])
  refine ⟨_, congrArg Host.Outcome.next hgo, ⟨ha.1, Answered.kept ha hkept, ?_⟩, ?_, fun hw hout => mem_out_replyWrite ?_⟩
  · obtain ⟨-, -, ht⟩ := ha
    rw [ht, moduleGo_parts, hparts]
  · rw [flag, Answered.rd ha (by simp)]
    exact busy_moduleGo
  · have hgo := moduleGo_writes (s := v) (b := b) (by rw [flag, hfield (by decide)]; exact hw) (by rw [hparts]; exact hout)
    rwa [hfield (f := ModCtl.CH) (by decide), hfield (f := ModCtl.BANK) (by decide), hfield (f := ModCtl.PAGE) (by decide),
      hfield (f := ModCtl.OFFSET) (by decide), hfield (f := ModCtl.LEN) (by decide), hstored (obj .modData b) (by simp)] at hgo

/-- An access has ended with a code. -/
def accessEnded (b code : Nat) (s : State) : State := wr (wr s (obj .modCtl b) ModCtl.BUSY 0) (obj .modCtl b) ModCtl.RESULT code

section
variable {b code : Nat} {s : State}

theorem accessEnded_kept : Safety.RegsKept [.modCtl] s (accessEnded b code s) := fun k hk => by
  have hne : k ≠ obj .modCtl b := by rintro rfl; exact hk (by simp)
  exact (rdWord_wr_ne _ _ _ hne).trans (rdWord_wr_ne _ _ _ hne)

theorem busy_accessEnded : flag (accessEnded b code s) (obj .modCtl b) ModCtl.BUSY = false := by
  have hrd : rd (accessEnded b code s) (obj .modCtl b) ModCtl.BUSY = 0 := (rd_wr_apart _ _ _ (by decide)).trans (rd_wr_self ..)
  simp [flag, hrd]

theorem result_accessEnded (h : code < 8) : rd (accessEnded b code s) (obj .modCtl b) ModCtl.RESULT = code :=
  (rd_wr_self ..).trans (Nat.mod_eq_of_lt h)

theorem write_accessEnded : rd (accessEnded b code s) (obj .modCtl b) ModCtl.WRITE = rd s (obj .modCtl b) ModCtl.WRITE :=
  (rd_wr_apart _ _ _ (by decide)).trans (rd_wr_apart _ _ _ (by decide))

end

/-- The high part of a number that takes another's. -/
theorem high_of_joined {a x low : Nat} (h : 0 < low) : (a / low * low + x % low) / low = a / low := by
  rw [Nat.add_comm, Nat.add_mul_div_right _ _ h, Nat.div_eq_of_lt (Nat.mod_lt _ h), Nat.zero_add]

theorem moduleAccessComplete_done {b : Fin 4} {data : BitVec 1024} {s : State} (hbusy : flag s (obj .modCtl b.val) ModCtl.BUSY = true)
    (hb : b.val ∉ s.line.busOut) : Safety.Gives (.moduleAccessComplete b .done data) s fun t =>
      flag t (obj .modCtl b.val) ModCtl.BUSY = false ∧ rd t (obj .modCtl b.val) ModCtl.RESULT = 0 ∧
        t = { s with regs := t.regs, line := { s.line with retries := t.line.retries } } ∧
        Safety.RegsKept [.modCtl, .modData] s t ∧
        (flag s (obj .modCtl b.val) ModCtl.WRITE = false →
          rdWord t (obj .modData b.val) / 2 ^ (1024 - 8 * rd s (obj .modCtl b.val) ModCtl.LEN) =
            data.toNat / 2 ^ (1024 - 8 * rd s (obj .modCtl b.val) ModCtl.LEN)) ∧
        (flag s (obj .modCtl b.val) ModCtl.WRITE = true → rdWord t (obj .modData b.val) = rdWord s (obj .modData b.val)) := by
  obtain ⟨b, hlt⟩ := b
  dsimp only at *
  let v := accessEnded b 0 (endRetries (16 * b + rd s (obj .modCtl b) ModCtl.CH) s)
  let low := 2 ^ (1024 - 8 * rd s (obj .modCtl b) ModCtl.LEN)
  have hgo : exec (.moduleAccessComplete ⟨b, hlt⟩ .done data) s = .next (if !flag v (obj .modCtl b) ModCtl.WRITE then
      wrWord v (obj .modData b) (data.toNat / low * low + rdWord v (obj .modData b) % low) else v) := by
    show execModuleAccessComplete ⟨b, hlt⟩ .done data s = _
    unfold execModuleAccessComplete
    simp only [hbusy, List.contains_eq_mem, hb, decide_false, Bool.not_true, Bool.false_eq_true, if_false, if_true, true_and]
    rfl
  have hwrite : flag v (obj .modCtl b) ModCtl.WRITE = flag s (obj .modCtl b) ModCtl.WRITE := congrArg (· == 1) write_accessEnded
  have hkept : Safety.RegsKept [.modCtl] s v := accessEnded_kept (s := endRetries (16 * b + rd s (obj .modCtl b) ModCtl.CH) s)
  have hbusy' : flag v (obj .modCtl b) ModCtl.BUSY = false := busy_accessEnded
  have hresult : rd v (obj .modCtl b) ModCtl.RESULT = 0 := result_accessEnded (by decide)
  have hparts : v = { s with regs := v.regs, line := { s.line with retries := v.line.retries } } := rfl
  have hlow : 0 < low := Nat.two_pow_pos _
  have hne : obj .modCtl b ≠ obj .modData b := by simp
  rw [hwrite] at hgo
  clear_value v
  cases hw : flag s (obj .modCtl b) ModCtl.WRITE with
  | false =>
    rw [hw] at hgo
    simp only [Bool.not_false, if_true] at hgo
    refine ⟨_, hgo, ?_, ?_, ?_, RegsKept.trans (RegsKept.mono hkept (by simp)) (kept_wrWord _ _ _ _ (by simp)), fun _ => ?_, nofun⟩
    · rw [flag, rd_wrWord_ne _ _ _ hne]
      exact hbusy'
    · exact (rd_wrWord_ne _ _ _ hne).trans hresult
    · rw [hparts]
      rfl
    · rw [rdWord_wrWord_self]
      exact high_of_joined hlow
  | true =>
    rw [hw] at hgo
    exact ⟨_, hgo, hbusy', hresult, hparts, RegsKept.mono hkept (by simp), nofun, fun _ => hkept _ (by simp)⟩

theorem moduleAccessComplete_failed {b : Fin 4} {data : BitVec 1024} {s : State} {r : ModResult} {n : Nat}
    (hbusy : flag s (obj .modCtl b.val) ModCtl.BUSY = true) (hb : b.val ∉ s.line.busOut)
    (h : (r, n) ∈ [(ModResult.noAck, 1), (.timeout, 2), (.busOut, 3)]) : Safety.Gives (.moduleAccessComplete b r data) s fun t =>
      flag t (obj .modCtl b.val) ModCtl.BUSY = false ∧ rd t (obj .modCtl b.val) ModCtl.RESULT = n ∧ t = { s with regs := t.regs } ∧
        Safety.RegsKept [.modCtl] s t := by
  have hlt : n < 8 := by
    simp only [List.mem_cons, Prod.mk.injEq, List.not_mem_nil, or_false] at h
    omega
  have hgo : exec (.moduleAccessComplete b r data) s = .next (accessEnded b.val n s) := by
    show execModuleAccessComplete b r data s = _
    unfold execModuleAccessComplete
    simp only [List.mem_cons, Prod.mk.injEq, List.not_mem_nil, or_false] at h
    simp only [hbusy, List.contains_eq_mem, hb, decide_false, Bool.not_true, Bool.false_eq_true, if_false]
    rcases h with ⟨rfl, rfl⟩ | ⟨rfl, rfl⟩ | ⟨rfl, rfl⟩ <;> rfl
  exact ⟨_, hgo, busy_accessEnded, result_accessEnded hlt, rfl, accessEnded_kept⟩

/-- Settles O36: each clause by what its event or write makes of the identity of a port's module, of a bus, or of a module access. -/
theorem optics : Obligations.Optics := by
  unfold Obligations.Optics
  refine ⟨fun ch p s hc hu hb => ⟨modulePoll_present hc hu hb, modulePoll_absent hc hu hb⟩,
    fun ch p r s hc hu hr hid => identityReadComplete_gives hc hu hr hid,
    fun ch s hb => ⟨twbTimeout_again hb, fun p hc hu hid hr hn => twbTimeout_unreadable hb hc hu hid hr hn, twbTimeout_stuck hb⟩,
    twbRecovery_gives, fun c b s w h => moduleAccessGo_gives h,
    fun b data s hbusy hb _ => ⟨moduleAccessComplete_done hbusy hb, fun r n h => moduleAccessComplete_failed hbusy hb h⟩⟩

end Sys2Proof.Machine
end

section
/-! Aggregators and LACP (R199, R200, R204). -/
namespace Sys2Proof.Machine

open Sys2Proof

/-- Operations of a list that each leave something leave it together. -/
theorem forAll_same_of_mem {α β : Type} {l : List α} {f : α → State → State} (g : State → β) (h : ∀ a ∈ l, ∀ s, g (f a s) = g s) (s : State) :
    g (forAll l f s) = g s := by
  unfold Machine.forAll
  induction l generalizing s with
  | nil => rfl
  | cons a l ih => rw [List.foldl_cons, ih fun b hb => h b (by simp [hb]), h a (by simp)]

/-- A port outside an aggregator is not shown by it. -/
theorem rdWord_aggShown_other {a p : Nat} {s : State} (h : aggOf s p ≠ some a) : rdWord (aggShown a s) (lpS p) = rdWord s (lpS p) := by
  rw [rdWord_aggShown]
  refine forAll_same_of_mem (fun t => rdWord t (lpS p)) (fun q hq t => rdWord_memberShown_ne _ _ _ t fun he => h ?_) s
  rw [(obj_eq_iff.1 he).2]
  simpa using (List.mem_filter.1 hq).2

/-! ## An aggregator's control is written (R204) -/

/-- What a write of an aggregator's control makes of a port: it joins, it leaves, or it is none of the aggregator's. -/
def memberMoved (a : Nat) (on : Bool) (mem : List Nat) (p : Nat) (s : State) : State :=
  if on && mem.contains p then wr s (lpS p) LpStatus.AGG a
  else if aggOf s p = some a then
    let s := { s with line := { s.line with partner := tabDel s.line.partner p, slowQ := tabDel s.line.slowQ p } }
    let s := wr (wr (wr s (lpS p) LpStatus.SELECTED 0) (lpS p) LpStatus.COLLECTING 0) (lpS p) LpStatus.DISTRIBUTING 0
    wr s (lpS p) LpStatus.AGG 31
  else s

/-- What it makes of every port. -/
def membersMoved (a : Nat) (s : State) : State := forAll ports (memberMoved a (flag s (agK a) AggCtl.EN) (membersOfAgg s a)) s

theorem aggWritten_eq (a : Nat) (s : State) : aggWritten a s = updateAgg a (membersMoved a s) := rfl

section
variable {a p : Nat} {on : Bool} {mem : List Nat} {s : State}

theorem memberMoved_word {k : Key} (h : k ≠ lpS p) : rdWord (memberMoved a on mem p s) k = rdWord s k := by
  unfold memberMoved
  split_ifs
  · exact rdWord_wr_ne _ _ _ h
  · exact (rdWord_wr_ne _ _ _ h).trans ((rdWord_wr_ne _ _ _ h).trans ((rdWord_wr_ne _ _ _ h).trans (rdWord_wr_ne _ _ _ h)))
  · rfl

theorem memberMoved_parts : memberMoved a on mem p s = { s with
    regs := (memberMoved a on mem p s).regs,
    line := { s.line with partner := (memberMoved a on mem p s).line.partner, slowQ := (memberMoved a on mem p s).line.slowQ } } := by
  unfold memberMoved
  split_ifs <;> rfl

/-- A member joins. -/
theorem agg_memberMoved (ha : a < 24) (hon : on = true) (hm : p ∈ mem) : aggOf (memberMoved a on mem p s) p = some a := by
  have hrd : rd (wr s (lpS p) LpStatus.AGG a) (lpS p) LpStatus.AGG = a := (rd_wr_self ..).trans (Nat.mod_eq_of_lt (by simp only; omega))
  unfold memberMoved
  rw [if_pos (by simp [hon, hm])]
  simp only [aggOf, hrd, if_pos ha]

/-- A port that has left its aggregator, or never had one. -/
def AggLeft (p : Nat) (s : State) : Prop := aggOf s p = none ∧ rd s (lpS p) LpStatus.DISTRIBUTING = 0

/-- A member leaves. -/
theorem memberMoved_leaves (hon : on = false) (h : aggOf s p = some a ∨ AggLeft p s) : AggLeft p (memberMoved a on mem p s) := by
  unfold memberMoved
  rw [if_neg (by simp [hon])]
  rcases h with h | h
  · rw [if_pos h]
    refine ⟨?_, (rd_wr_apart _ _ _ (by decide)).trans (rd_wr_self ..)⟩
    have hrd (u : State) : rd (wr u (lpS p) LpStatus.AGG 31) (lpS p) LpStatus.AGG = 31 := rd_wr_self ..
    simp only [aggOf, hrd]
    rfl
  · rw [if_neg (by rw [h.1]; nofun)]
    exact h

theorem memberMoved_other {b : Nat} (h : b ≠ p) (f : Fld) : rd (memberMoved a on mem b s) (lpS p) f = rd s (lpS p) f :=
  congrArg (getF · f) (memberMoved_word fun he => h (obj_eq_iff.1 he).2.symm)

theorem membersMoved_parts : membersMoved a s = { s with
    regs := (membersMoved a s).regs,
    line := { s.line with partner := (membersMoved a s).line.partner, slowQ := (membersMoved a s).line.slowQ } } :=
  forAll_keeps _ _ (fun t => t = { s with regs := t.regs, line := { s.line with partner := t.line.partner, slowQ := t.line.slowQ } })
    (fun p t ht => by rw [memberMoved_parts, ht]) s rfl

theorem membersMoved_kept : Safety.RegsKept [.lpStatus] s (membersMoved a s) := fun k hk =>
  forAll_same _ _ (fun t => rdWord t k) (fun p t => memberMoved_word (by rintro rfl; exact hk (by simp [lpS]))) s

/-- Every member of an enabled aggregator joins it. -/
theorem agg_membersMoved (ha : a < 24) (hp : p < 48) (hon : flag s (agK a) AggCtl.EN = true) (hm : p ∈ membersOfAgg s a) :
    aggOf (membersMoved a s) p = some a := by
  refine forAll_reaches (fun _ => True) (fun t => aggOf t p = some a) (List.mem_range.2 hp) (fun _ _ _ => trivial)
    (fun t _ => agg_memberMoved ha hon hm) (fun b t _ ht => ?_) trivial
  by_cases hb : b = p
  · rw [hb]
    exact agg_memberMoved ha hon hm
  · exact (aggOf_congr (memberMoved_other hb _)).trans ht

/-- Every port of a disabled aggregator leaves it. -/
theorem membersMoved_leaves (hp : p < 48) (hon : flag s (agK a) AggCtl.EN = false) (h : aggOf s p = some a) : AggLeft p (membersMoved a s) := by
  have hother (b : Nat) (t : State) (hb : b ≠ p) (ht : AggLeft p t) : AggLeft p (memberMoved a (flag s (agK a) AggCtl.EN) (membersOfAgg s a) b t) :=
    ⟨(aggOf_congr (memberMoved_other hb _)).trans ht.1, (memberMoved_other hb _).trans ht.2⟩
  refine forAll_reaches (fun t => aggOf t p = some a ∨ AggLeft p t) (AggLeft p) (List.mem_range.2 hp) (fun b t ht => ?_)
    (fun t ht => memberMoved_leaves hon ht) (fun b t _ ht => ?_) (.inl h)
  · by_cases hb : b = p
    · rw [hb]
      exact .inr (memberMoved_leaves hon ht)
    · exact ht.imp (aggOf_congr (memberMoved_other hb _)).trans (hother b t hb)
  · by_cases hb : b = p
    · rw [hb]
      exact memberMoved_leaves hon (.inr ht)
    · exact hother b t hb ht

end

/-- The control of an aggregator with its EN and MEMBERS stored. -/
def aggStored (a en m : Nat) (s : State) : State := storeObj (agK a) (putF (putF (rdWord s (agK a)) AggCtl.EN en) AggCtl.MEMBERS m) s

section
variable {a en m : Nat} {s : State}

theorem aggStored_kept : Safety.RegsKept [.aggCtl] s (aggStored a en m s) := storeObj_kept (agK a) _ s

theorem aggStored_parts : aggStored a en m s = { s with regs := (aggStored a en m s).regs } := storeObj_parts ..

theorem en_aggStored : flag (aggStored a en m s) (agK a) AggCtl.EN = (en % 2 == 1) := by
  have hrd : rd (aggStored a en m s) (agK a) AggCtl.EN = en % 2 :=
    (rd_storeObj_rw (k := agK a) (d := rwF AggCtl.EN 0) (by simp [agK, fieldsOf, fieldsAggCtl]) rfl).trans
      ((getF_put_apart _ _ (by decide)).trans (getF_put_self ..))
  simp only [flag, hrd]

theorem mem_membersOfAgg_aggStored {p : Nat} (hp : p < 48) (hm : m < 2 ^ 48) : p ∈ membersOfAgg (aggStored a en m s) a ↔ m.testBit p = true := by
  have hrd : rd (aggStored a en m s) (agK a) AggCtl.MEMBERS = m :=
    (rd_storeObj_rw (k := agK a) (d := rwF AggCtl.MEMBERS 0) (by simp [agK, fieldsOf, fieldsAggCtl]) rfl).trans
      ((getF_put_self ..).trans (Nat.mod_eq_of_lt hm))
  simp [membersOfAgg, hrd, ports, hp]

end

/-- The write of an aggregator's EN and MEMBERS is answered once its members have moved. -/
theorem aggregatorEnable_answered {c : Hdr} {a : Fin 24} {en : Bool} {m : BitVec 48} {s : State} {w : Waiting}
    (h : Safety.Write s c w (agK a.val) (putF (putF (rdWord s (agK a.val)) AggCtl.EN (if en then 1 else 0)) AggCtl.MEMBERS m.toNat)) :
    Safety.Gives (.aggregatorEnable c a en m) s fun t =>
      Safety.Answered [] (updateAgg a.val (membersMoved a.val (aggStored a.val (if en then 1 else 0) m.toNat s))) t w [] ∧
        Safety.RegsKept (.aggCtl :: .lpStatus :: Safety.telling) s t := by
  obtain ⟨a, ha⟩ := a
  dsimp only at *
  generalize hv : (if en then 1 else 0) = v at *
  have hgo : exec (.aggregatorEnable c ⟨a, ha⟩ en m) s =
      .next (replyWrite c (agK a) (updateAgg a (membersMoved a (aggStored a v m.toNat s)))) := by
    show execAggregatorEnable c ⟨a, ha⟩ en m s = _
    unfold execAggregatorEnable
    dsimp only
    rw [hv, hostWrite_ok (f := fun x => putF (putF x AggCtl.EN v) AggCtl.MEMBERS m.toNat) h rfl rfl nofun nofun nofun nofun,
      ← aggWritten_eq]
    rfl
  have hstored := aggStored_kept (a := a) (en := v) (m := m.toNat) (s := s)
  have hparts := aggStored_parts (a := a) (en := v) (m := m.toNat) (s := s)
  generalize aggStored a v m.toNat s = x at *
  have hmoved := membersMoved_kept (a := a) (s := x)
  have hmparts := membersMoved_parts (a := a) (s := x)
  generalize membersMoved a x = y at *
  have hfollow := Follows.updateAgg a y
  have hsame : Sends s 0 y := (Sends.refl s).same (by rw [hmparts, hparts]) (by rw [hmparts, hparts]) fun n =>
    congrArg (getF · _) ((hmoved (sessKey n) (by simp [sessKey])).trans (hstored _ (by simp [sessKey])))
  have hall : Safety.RegsKept (.aggCtl :: .lpStatus :: Safety.telling) s (updateAgg a y) :=
    RegsKept.trans (RegsKept.mono hstored (by simp)) (RegsKept.trans (RegsKept.mono hmoved (by simp))
      (RegsKept.mono hfollow.kept fun _ => List.mem_cons_of_mem _))
  have hanswered := replyWrite_answered_of_sends h (by rw [hfollow.waiting, hmparts, hparts]) (hfollow.sends _ _ hsame) (by decide)
  exact ⟨_, hgo, hanswered, RegsKept.mono (Answered.kept hanswered hall) (by simp [Safety.telling])⟩

/-- LACP runs on the members of an enabled aggregator (R204). -/
theorem aggregator_starts {c : Hdr} {a : Fin 24} {m : BitVec 48} {s : State} {w : Waiting}
    (h : Safety.Write s c w (agK a.val) (putF (putF (rdWord s (agK a.val)) AggCtl.EN 1) AggCtl.MEMBERS m.toNat)) :
    Safety.Gives (.aggregatorEnable c a true m) s fun t =>
      Safety.Done t w [] ∧ (∀ p < 48, m.getLsbD p = true → aggOf t p = some a.val) ∧
        Safety.RegsKept (.aggCtl :: .lpStatus :: Safety.telling) s t := by
  obtain ⟨t, hgo, ha, hkept⟩ := aggregatorEnable_answered (en := true) h
  refine ⟨t, hgo, ha.1, fun p hp hm => ?_, hkept⟩
  rw [aggOf_congr (Answered.rd ha (by simp [lpS]) _), (Follows.updateAgg _ _).aggOf]
  exact agg_membersMoved a.isLt hp en_aggStored ((mem_membersOfAgg_aggStored hp m.isLt).2 hm)

/-- LACP stops on the ports of a disabled aggregator (R204). -/
theorem aggregator_stops {c : Hdr} {a : Fin 24} {m : BitVec 48} {s : State} {w : Waiting}
    (h : Safety.Write s c w (agK a.val) (putF (putF (rdWord s (agK a.val)) AggCtl.EN 0) AggCtl.MEMBERS m.toNat)) :
    Safety.Gives (.aggregatorEnable c a false m) s fun t =>
      Safety.Done t w [] ∧ (∀ p < 48, aggOf s p = some a.val → aggOf t p = none ∧ rd t (lpS p) LpStatus.DISTRIBUTING = 0) ∧
        Safety.RegsKept (.aggCtl :: .lpStatus :: Safety.telling) s t := by
  obtain ⟨t, hgo, ha, hkept⟩ := aggregatorEnable_answered (en := false) h
  refine ⟨t, hgo, ha.1, fun p hp hm => ?_, hkept⟩
  rw [aggOf_congr (Answered.rd ha (by simp [lpS]) _), (Follows.updateAgg _ _).aggOf, Answered.rd ha (by simp [lpS])]
  have hagg : aggOf (aggStored a.val 0 m.toNat s) p = some a.val := (aggOf_congr (RegsKept.rd aggStored_kept (by simp [lpS]) _)).trans hm
  have hleft := membersMoved_leaves hp en_aggStored hagg
  refine ⟨hleft.1, ?_⟩
  have hother : aggOf (membersMoved a.val (aggStored a.val 0 m.toNat s)) p ≠ some a.val := by rw [hleft.1]; nofun
  have hword := (updateAgg_lpS a.val (membersMoved a.val (aggStored a.val 0 m.toNat s)) p).trans (rdWord_aggShown_other hother)
  exact (congrArg (getF · LpStatus.DISTRIBUTING) hword).trans hleft.2

/-! ## Frames that the device originates on an Ethernet port (R205, R331) -/

/-- A port on which what the device originates leaves at once. -/
structure SendsNow (s : State) (p : Nat) : Prop where
  eth    : isEthernet s p = true
  up     : portUp s p = true
  safe   : inSafe s = false
  silent : silent s p = false
  gate   : gateInForce s p = false

/-- Objects of other types may change. -/
theorem SendsNow.ofKept {l : List ObjTy} {s t : State} {p : Nat} (h : SendsNow s p) (hk : Safety.RegsKept l s t)
    (hl : ∀ ty ∈ [ObjTy.lpCtl, .lpStatus, .fltStatus, .prCtl, .prStatus, .gateCtl], ty ∉ l) : SendsNow t p where
  eth := by rw [← h.eth]; simp only [isEthernet, portMode, RegsKept.rd hk (k := obj .lpCtl p) (hl _ (by simp))]; rfl
  up := by rw [← h.up]; simp only [portUp, linkOf, RegsKept.rd hk (k := obj .lpStatus p) (hl _ (by simp))]
  safe := by rw [← h.safe]; simp only [inSafe, flag, RegsKept.rd hk (k := obj .fltStatus) (hl _ (by simp))]
  silent := by
    rw [← h.silent]
    simp only [Machine.silent, protPort, pairOn, role, prC, prS, flag, RegsKept.rd hk (k := obj .prCtl) (hl _ (by simp)),
      RegsKept.rd hk (k := obj .prStatus) (hl _ (by simp))]
  gate := by rw [← h.gate]; simp only [gateInForce, flag, RegsKept.rd hk (k := obj .gateCtl p) (hl _ (by simp))]

/-- The frame goes out and is counted. -/
theorem originate_sends {s : State} {p len : Nat} {kind : Pdu} {args : List Nat} (h : SendsNow s p) (hk : kind.isFrame = true) :
    originate p kind args len s = countSent p len (emit s (.pdu p kind args)) := by
  unfold originate emitLine
  simp [h.up, h.safe, h.silent, h.gate, hk, isFramed_of_isEthernet h.eth]

section
variable {s : State} {p len : Nat}

theorem countSent_kept : Safety.RegsKept (.lpCtr :: Safety.telling) s (countSent p len s) :=
  RegsKept.trans (kept_bump _ _ _ _ s) (kept_bump _ _ _ _ _)

theorem countSent_counted : Safety.Counted .lpCtr p 8 1 s (countSent p len s) :=
  (rdWord_bump_counter _ _ _ _ _ _ _ (counter_ne2 .lpCtr p (by decide)) (by decide)).trans (counted_bump _ _ _ _ _ (by decide))

theorem countSent_line : (countSent p len s).line = s.line := by simp only [countSent, bump_line]

theorem countSent_sent {o : Out} (h : o ∈ s.out) : o ∈ (countSent p len s).out := by
  obtain ⟨l, hl⟩ := (Onward.bump (ty := .lpCtr) (j1 := p) (j2 := 9) (n := len) (.bump (ty := .lpCtr) (j1 := p) (j2 := 8) (n := 1) (.refl s))).out
  exact hl ▸ List.mem_append_right _ h

end

/-- What was sent before a count stays sent. -/
theorem bump_sent {ty : ObjTy} {i j n : Nat} {s : State} {o : Out} (h : o ∈ s.out) : o ∈ (bump ty i j n s).out := by
  obtain ⟨l, hl⟩ := (Onward.bump (ty := ty) (j1 := i) (j2 := j) (n := n) (.refl s)).out
  exact hl ▸ List.mem_append_right _ h

/-- A frame that the device originates and counts as a service's own. -/
theorem serviceSent {s u : State} {p i len : Nat} {o : Out} (hkept : Safety.RegsKept [] s u) (hsent : o ∈ u.out) :
    o ∈ (bump .svcCtr i 0 1 (countSent p len u)).out ∧ Safety.Counted .svcCtr i 0 1 s (bump .svcCtr i 0 1 (countSent p len u)) ∧
      Safety.Counted .lpCtr p 8 1 s (bump .svcCtr i 0 1 (countSent p len u)) ∧
      Safety.RegsKept (.svcCtr :: .lpCtr :: Safety.telling) s (bump .svcCtr i 0 1 (countSent p len u)) := by
  have hu (k : Key) : rdWord u k = rdWord s k := hkept k (by simp)
  have hcount : Safety.RegsKept (.lpCtr :: Safety.telling) u (countSent p len u) := countSent_kept
  have hsvc : rdWord (countSent p len u) (Safety.counter .svcCtr i 0) = rdWord s (Safety.counter .svcCtr i 0) :=
    (hcount _ (by simp)).trans (hu _)
  refine ⟨bump_sent (countSent_sent hsent), counted_from (by decide) hsvc, ?_, ?_⟩
  · rw [Safety.Counted, rdWord_bump_ty _ _ _ _ _ _ (by simp) (by simp), ← hu]
    exact countSent_counted
  · refine RegsKept.trans (t := u) (fun k _ => hu k) (RegsKept.trans (RegsKept.mono hcount fun _ => List.mem_cons_of_mem _) ?_)
    exact RegsKept.mono (kept_bump _ _ _ _ _) fun _ => by simp only [List.mem_cons]; tauto

/-! ## What LACP hears (R199) -/

section
variable {p : Nat} {s : State}

/-- A slow-protocol frame taken from its queue. -/
def slowTaken (p : Nat) (s : State) : State :=
  { s with line := { s.line with slowQ := tabSet s.line.slowQ p (tabGet s.line.slowQ p 0 - 1) 0 } }

/-- A slow-protocol frame within the rate. -/
def slowHeard (p : Nat) (s : State) : State :=
  { s with line := { s.line with
    slowQ := tabSet s.line.slowQ p (tabGet s.line.slowQ p 0 - 1) 0,
    slowAt := tabPut s.line.slowAt p (s.clock :: recent s (tabGet s.line.slowAt p []) sec) } }

theorem rdWord_slowHeard (k : Key) : rdWord (slowHeard p s) k = rdWord s k := rdWord_mk s _ k rfl

theorem takeSlow_heard (hq : tabGet s.line.slowQ p 0 ≠ 0) (h : (recent s (tabGet s.line.slowAt p []) sec).length < 20) :
    takeSlow p s = some (true, slowHeard p s) := by
  unfold takeSlow
  simp only [if_neg hq]
  exact if_neg (Nat.not_le.2 h)

theorem takeSlow_late (hq : tabGet s.line.slowQ p 0 ≠ 0) (h : 20 ≤ (recent s (tabGet s.line.slowAt p []) sec).length) :
    takeSlow p s = some (false, bump .lpCtr p 15 1 (slowTaken p s)) := by
  unfold takeSlow
  simp only [if_neg hq]
  exact if_pos h

end

/-- A port has heard its partner. -/
def partnerHeard (p : Nat) (l : Lacpdu) (s : State) : State :=
  { s with line := { s.line with partner := tabPut s.line.partner p ⟨l, ivl s⟩ } }

theorem lacpduReceive_heard {p : Fin 48} {l : Lacpdu} {s : State} (hq : tabGet s.line.slowQ p.val 0 ≠ 0)
    (h : (recent s (tabGet s.line.slowAt p.val []) sec).length < 20) : Safety.Gives (.lacpduReceive p l) s fun t =>
      tabGet? t.line.partner p.val = some ⟨l, ivl s⟩ ∧ Safety.Counted .svcCtr 5 0 1 s t ∧
        tabGet t.line.slowQ p.val 0 + 1 = tabGet s.line.slowQ p.val 0 ∧ Safety.RegsKept (.svcCtr :: .lpStatus :: Safety.telling) s t := by
  obtain ⟨p, hp⟩ := p
  dsimp only at *
  have hgo : exec (.lacpduReceive ⟨p, hp⟩ l) s = .next (updateAggOf p (partnerHeard p l (bump .svcCtr 5 0 1 (slowHeard p s)))) := by
    show execLacpduReceive ⟨p, hp⟩ l s = _
    unfold execLacpduReceive
    simp only [takeSlow_heard hq h]
    rfl
  have hqueue : tabGet (slowHeard p s).line.slowQ p 0 = tabGet s.line.slowQ p 0 - 1 := tabGet_set_self ..
  have hline : (bump .svcCtr 5 0 1 (slowHeard p s)).line = (slowHeard p s).line := bump_line ..
  have hivl : ivl (bump .svcCtr 5 0 1 (slowHeard p s)) = ivl s := ivl_congr (bump_ct ..) (bump_time ..)
  have hcount : Safety.Counted .svcCtr 5 0 1 s (bump .svcCtr 5 0 1 (slowHeard p s)) := counted_from (by decide) (rdWord_slowHeard _)
  have hkept : Safety.RegsKept (.svcCtr :: Safety.telling) s (bump .svcCtr 5 0 1 (slowHeard p s)) :=
    kept_from (kept_bump _ _ _ _ _) fun k _ => rdWord_slowHeard k
  generalize bump .svcCtr 5 0 1 (slowHeard p s) = u at *
  have hheard : tabGet? (partnerHeard p l u).line.partner p = some ⟨l, ivl s⟩ := hivl ▸ tabGet?_put_self ..
  have hslow : (partnerHeard p l u).line.slowQ = u.line.slowQ := rfl
  have hsame : Safety.RegsKept (.svcCtr :: .lpStatus :: Safety.telling) s (partnerHeard p l u) :=
    RegsKept.mono hkept fun _ => by simp only [List.mem_cons]; tauto
  have hcount' : Safety.Counted .svcCtr 5 0 1 s (partnerHeard p l u) := hcount
  generalize partnerHeard p l u = v at *
  have hfollow := Follows.updateAggOf p v
  obtain ⟨x, y, hl⟩ := hfollow.line
  refine ⟨_, hgo, ?_, ?_, ?_, RegsKept.trans hsame (RegsKept.mono hfollow.kept fun _ => List.mem_cons_of_mem _)⟩
  · rw [hl, hheard]
  · rw [Safety.Counted, hfollow.kept _ (by simp)]
    exact hcount'
  · rw [hl]
    show tabGet v.line.slowQ p 0 + 1 = _
    rw [hslow, hline, hqueue]
    omega

theorem lacpduReceive_late {p : Fin 48} {l : Lacpdu} {s : State} (hq : tabGet s.line.slowQ p.val 0 ≠ 0)
    (h : 20 ≤ (recent s (tabGet s.line.slowAt p.val []) sec).length) : Safety.Gives (.lacpduReceive p l) s fun t =>
      Safety.Counted .lpCtr p.val 15 1 s t ∧ t.line.partner = s.line.partner ∧ Safety.RegsKept (.lpCtr :: Safety.telling) s t := by
  have hgo : exec (.lacpduReceive p l) s = .next (bump .lpCtr p.val 15 1 (slowTaken p.val s)) := by
    show execLacpduReceive p l s = _
    unfold execLacpduReceive
    simp only [takeSlow_late hq h]
  refine ⟨_, hgo, counted_bump _ _ _ _ (slowTaken p.val s) (by decide), ?_, kept_bump _ _ _ _ (slowTaken p.val s)⟩
  rw [bump_line]
  rfl

/-- A marker is answered (R199). -/
theorem marker_answered {p : Fin 48} {s : State} (hq : tabGet s.line.slowQ p.val 0 ≠ 0)
    (h : (recent s (tabGet s.line.slowAt p.val []) sec).length < 20) (hs : SendsNow s p.val) : Safety.Gives (.markerPduReceive p) s fun t =>
      Out.pdu p.val .marker [] ∈ t.out ∧ Safety.Counted .svcCtr 7 0 1 s t ∧ Safety.RegsKept (.svcCtr :: .lpCtr :: Safety.telling) s t := by
  obtain ⟨p, hp⟩ := p
  dsimp only at *
  have hheard : Safety.RegsKept [] s (slowHeard p s) := fun k _ => rdWord_slowHeard k
  have hsend : SendsNow (slowHeard p s) p := hs.ofKept hheard (by simp)
  have hgo : exec (.markerPduReceive ⟨p, hp⟩) s =
      .next (bump .svcCtr 7 0 1 (countSent p 128 (emit (slowHeard p s) (.pdu p .marker [])))) := by
    show execMarkerPduReceive ⟨p, hp⟩ s = _
    unfold execMarkerPduReceive
    simp only [takeSlow_heard hq h, hsend.up, hsend.safe, hsend.silent, originate_sends hsend (kind := .marker) rfl]
    rfl
  generalize slowHeard p s = v at *
  have hemit : Safety.RegsKept [] s (emit v (.pdu p .marker [])) := hheard
  obtain ⟨hsent, hcount, -, hkept⟩ := serviceSent (p := p) (i := 7) (len := 128) hemit (o := .pdu p .marker []) List.mem_cons_self
  exact ⟨_, hgo, hsent, hcount, hkept⟩

/-! ## What LACP sends, and the partner that is lost (R199) -/

/-- What a LACPDU of a port says. -/
def lacpduOf (p a : Nat) (s : State) : List Nat :=
  let g := obj .lmacGlobal
  [rd s g LmacGlobal.SYS_PRIO, rd s g LmacGlobal.SYS_ID, rd s (agK a) AggCtl.KEY,
    rd s (lpS p) LpStatus.SELECTED, rd s (lpS p) LpStatus.COLLECTING, rd s (lpS p) LpStatus.DISTRIBUTING]

theorem lacpPeriodic_sends {p : Fin 48} {a : Nat} {s : State} (ha : aggOf s p.val = some a) (hact : flag s (agK a) AggCtl.ACTIVE = true)
    (hs : SendsNow s p.val) : Safety.Gives (.lacpPeriodic p) s fun t =>
        (∃ l, Out.pdu p.val .lacp l ∈ t.out) ∧ Safety.Counted .svcCtr 6 0 1 s t ∧ Safety.Counted .lpCtr p.val 8 1 s t ∧
          Safety.RegsKept (.svcCtr :: .lpCtr :: Safety.telling) s t := by
  obtain ⟨p, hp⟩ := p
  dsimp only at *
  have hgo : exec (.lacpPeriodic ⟨p, hp⟩) s =
      .next (bump .svcCtr 6 0 1 (countSent p 128 (emit s (.pdu p .lacp (lacpduOf p a s))))) := by
    show execLacpPeriodic ⟨p, hp⟩ s = _
    unfold execLacpPeriodic
    simp only [ha, hact, hs.up, hs.safe, hs.silent, originate_sends hs (kind := .lacp) rfl]
    rfl
  obtain ⟨hsent, hsvc, hlp, hkept⟩ := serviceSent (s := s) (u := emit s (.pdu p .lacp (lacpduOf p a s))) (p := p) (i := 6) (len := 128)
    (fun _ _ => rfl) List.mem_cons_self
  exact ⟨_, hgo, ⟨_, hsent⟩, hsvc, hlp, hkept⟩

/-- A port without a partner. -/
def partnerLost (p : Nat) (s : State) : State := { s with line := { s.line with partner := tabDel s.line.partner p } }

/-- The time at which a port's partner, if there is one, has been silent for its timeout. -/
def partnerSilent (p a : Nat) (s : State) : State :=
  match tabGet? s.line.partner p with
  | some x => reachIvl (x.at_ + (if flag s (agK a) AggCtl.FAST then 3 else 90) * sec * 65536) s
  | none => s

theorem partnerSilent_kept (p a : Nat) (s : State) : Safety.RegsKept Safety.telling s (partnerSilent p a s) := by
  unfold partnerSilent
  split
  · exact reach_kept _ s
  · exact RegsKept.refl _ s

theorem lacpTimeout_gives {p : Fin 48} {a : Nat} {s : State} (ha : aggOf s p.val = some a) : Safety.Gives (.lacpTimeout p) s fun t =>
      tabGet? t.line.partner p.val = none ∧ rd t (lpS p.val) LpStatus.SELECTED = 0 ∧ rd t (lpS p.val) LpStatus.DISTRIBUTING = 0 ∧
        (∀ x, tabGet? s.line.partner p.val = some x → s.time.stepped ≤ (s.ct : Int) →
          x.at_ + (if flag s (agK a) AggCtl.FAST then 3 else 90) * sec * 65536 ≤ ivl t) ∧
        Safety.RegsKept (.lpStatus :: Safety.telling) s t := by
  obtain ⟨p, hp⟩ := p
  dsimp only at *
  have hgo : exec (.lacpTimeout ⟨p, hp⟩) s = .next (updateAgg a (partnerLost p (partnerSilent p a s))) := by
    show execLacpTimeout ⟨p, hp⟩ s = _
    unfold execLacpTimeout
    simp only [ha]
    rfl
  have hkept := partnerSilent_kept p a s
  have hwait (x : Partner) (hx : tabGet? s.line.partner p = some x) (hstep : s.time.stepped ≤ (s.ct : Int)) :
      x.at_ + (if flag s (agK a) AggCtl.FAST then 3 else 90) * sec * 65536 ≤ ivl (partnerSilent p a s) := by
    unfold partnerSilent
    rw [hx]
    exact reachIvl_reaches _ hstep
  generalize partnerSilent p a s = v at *
  have hnone : tabGet? (partnerLost p v).line.partner p = none := tabGet?_del_self ..
  have hsel : p ∉ selectedOf (partnerLost p v) a := fun h => (mem_selectedOf h).2 (by simp [partnerOf, hnone])
  have hready : p ∉ readyOf (partnerLost p v) a := fun h => hsel (mem_readyOf h).1
  have hagg : aggOf (partnerLost p v) p = some a := (aggOf_congr (RegsKept.rd hkept (by simp [lpS]) _)).trans ha
  have hivl : ivl (partnerLost p v) = ivl v := rfl
  have hlost : Safety.RegsKept (.lpStatus :: Safety.telling) s (partnerLost p v) := RegsKept.mono hkept fun _ => List.mem_cons_of_mem _
  generalize partnerLost p v = u at *
  have hfollow := Follows.updateAgg a u
  have hshown (f : Fld) : rd (updateAgg a u) (lpS p) f = rd (aggShown a u) (lpS p) f := congrArg (getF · f) (updateAgg_lpS a u p)
  obtain ⟨x, y, hl⟩ := hfollow.line
  refine ⟨_, hgo, ?_, ?_, ?_, fun x hx hstep => ?_, RegsKept.trans hlost hfollow.kept⟩
  · rw [hl]
    exact hnone
  · rw [hshown, selected_aggShown hp hagg hsel]
  · rw [hshown, distributing_aggShown hp hagg hready]
  · rw [hfollow.ivl, hivl]
    exact hwait x hx hstep

end Sys2Proof.Machine
end

section
/-! BFD sessions: their start and end, their packets, and their detection timers (R195, R197, R198, R205). -/
namespace Sys2Proof.Machine

open Sys2Proof

/-! ## What the service keeps of a session -/

@[simp] theorem bfdRun_setBfd (i : Nat) (x : BfdRun) (s : State) : bfdRun (setBfd i x s) i = x := by
  simp [bfdRun, setBfd]

@[simp] theorem rdWord_setBfd (i : Nat) (x : BfdRun) (s : State) (k : Key) : rdWord (setBfd i x s) k = rdWord s k := id rfl

@[simp] theorem rd_setBfd (i : Nat) (x : BfdRun) (s : State) (k : Key) (f : Fld) : rd (setBfd i x s) k f = rd s k f := id rfl

@[simp] theorem setBfd_cmd (i : Nat) (x : BfdRun) (s : State) : (setBfd i x s).cmd = s.cmd := id rfl

theorem bfdRun_of_some {s : State} {i : Nat} {x : BfdRun} (h : tabGet? s.line.bfd i = some x) : bfdRun s i = x := by simp [bfdRun, h]

/-- Two accounts of a session differ at most by the moment at which it is due. -/
def RunsAs (x y : BfdRun) : Prop := x = { y with due := x.due }

theorem bfdRun_runsAs {s t : State} {i : Nat} (hl : t.line.bfd = s.line.bfd) (hr : rdWord t (bfK i) = rdWord s (bfK i)) :
    RunsAs (bfdRun t i) (bfdRun s i) := by
  unfold RunsAs bfdRun
  rw [hl]
  cases tabGet? s.line.bfd i with
  | some x => rfl
  | none => simp only [Option.getD_none, bfdFresh, rd, hr]

theorem tmplAt_congr {s t : State} {i : Nat} (hr : rdWord t (bfK i) = rdWord s (bfK i)) (off n : Nat) : tmplAt t i off n = tmplAt s i off n := by
  simp only [tmplAt, rd, hr]

theorem tmplType_congr {s t : State} {i : Nat} (hr : rdWord t (bfK i) = rdWord s (bfK i)) : tmplType t i = tmplType s i := by
  simp only [tmplType, tmplAt_congr hr]

/-- A session's packet is made of its object and of what the service keeps of it (R197). -/
theorem bfdBytes_congr {s t : State} {i : Nat} (hr : rdWord t (bfK i) = rdWord s (bfK i)) (hrun : RunsAs (bfdRun t i) (bfdRun s i)) :
    bfdBytes t i = bfdBytes s i := by
  have hcontrol : bfdControl t i = bfdControl s i := by
    unfold bfdControl
    rw [hrun]
    simp only [rd, hr]
  simp only [bfdBytes, hcontrol, tmplType_congr hr, tmplAt_congr hr, rd, hr]

theorem bfdEvery_congr {s t : State} {i : Nat} (hr : rdWord t (bfK i) = rdWord s (bfK i)) (htx : (bfdRun t i).tx = (bfdRun s i).tx)
    (hrx : (bfdRun t i).rRmri = (bfdRun s i).rRmri) : bfdEvery t i = bfdEvery s i := by
  simp only [bfdEvery, htx, hrx, rd, hr]
  rfl

/-! ## Start and end (R197, R205) -/

/-- The object of a session with ADMIN stored. -/
def bfdStored (i v : Nat) (s : State) : State := storeObj (bfK i) (putF (rdWord s (bfK i)) BfdSess.ADMIN v) s

theorem bfdStored_kept (i v : Nat) (s : State) : Safety.RegsKept [.bfdSess] s (bfdStored i v s) := storeObj_kept (bfK i) _ s

theorem bfdStored_cmd (i v : Nat) (s : State) : (bfdStored i v s).cmd = s.cmd := by rw [bfdStored, storeObj_parts]

theorem admin_bfdStored (i : Nat) {v : Nat} (s : State) (hv : v < 4) : rd (bfdStored i v s) (bfK i) BfdSess.ADMIN = v :=
  (rd_storeObj_rw (k := bfK i) (d := rwR BfdSess.ADMIN 0 0 1) (by simp [bfK, fieldsOf, fieldsBfdSess]) rfl).trans
    ((getF_put_self ..).trans (Nat.mod_eq_of_lt hv))

/-- A write of a session's ADMIN is answered once it has taken effect. -/
theorem hostWrite_admin {c : Hdr} {i v : Nat} {s : State} {w : Waiting} (h : Safety.Sets s c w (bfK i) BfdSess.ADMIN v) :
    hostWrite c (bfK i) (fun x => putF x BfdSess.ADMIN v) s =
      replyWrite c (bfK i) (bfdWritten i (rdWord s (bfK i)) (bfdStored i v s)) :=
  hostWrite_ok (f := fun x => putF x BfdSess.ADMIN v) h rfl rfl nofun nofun nofun nofun

/-- A session that starts is Down; its packets are due at once (R197). -/
def bfdStarted (i : Nat) (s : State) : State :=
  setBfd i (bfdFresh s i) (wr (wr (wr s (bfK i) BfdSess.STATE 1) (bfK i) BfdSess.DIAG 0) (bfK i) BfdSess.REMOTE_DISC 0)

/-- A session that stops is AdminDown. -/
def bfdStopped (i : Nat) (s : State) : State :=
  setBfd i (bfdFresh s i) (wr (wr s (bfK i) BfdSess.STATE 0) (bfK i) BfdSess.DIAG 7)

section
variable {i old : Nat} {s : State}

theorem bfdWritten_starts (ho : getF old BfdSess.ADMIN = 0) (hn : rd s (bfK i) BfdSess.ADMIN = 1) : bfdWritten i old s = bfdStarted i s := by
  unfold bfdWritten
  simp only [ho, hn]
  rfl

theorem bfdWritten_stops (ho : getF old BfdSess.ADMIN = 1) (hn : rd s (bfK i) BfdSess.ADMIN = 0) : bfdWritten i old s = bfdStopped i s := by
  unfold bfdWritten
  simp only [ho, hn]
  rfl

theorem bfdStarted_kept : Safety.RegsKept [.bfdSess] s (bfdStarted i s) := fun k hk => by
  have hne : k.ty ≠ (bfK i).ty := by simpa [bfK] using hk
  rw [bfdStarted, rdWord_setBfd, rdWord_wr_ty _ _ _ _ _ hne, rdWord_wr_ty _ _ _ _ _ hne, rdWord_wr_ty _ _ _ _ _ hne]

theorem bfdStopped_kept : Safety.RegsKept [.bfdSess] s (bfdStopped i s) := fun k hk => by
  have hne : k.ty ≠ (bfK i).ty := by simpa [bfK] using hk
  rw [bfdStopped, rdWord_setBfd, rdWord_wr_ty _ _ _ _ _ hne, rdWord_wr_ty _ _ _ _ _ hne]

theorem state_bfdStarted : rd (bfdStarted i s) (bfK i) BfdSess.STATE = 1 := by
  rw [bfdStarted, rd_setBfd, rd_wr_apart _ _ _ (by decide), rd_wr_apart _ _ _ (by decide), rd_wr_self]
  rfl

theorem admin_bfdStarted : rd (bfdStarted i s) (bfK i) BfdSess.ADMIN = rd s (bfK i) BfdSess.ADMIN := by
  rw [bfdStarted, rd_setBfd, rd_wr_apart _ _ _ (by decide), rd_wr_apart _ _ _ (by decide), rd_wr_apart _ _ _ (by decide)]

theorem state_bfdStopped : rd (bfdStopped i s) (bfK i) BfdSess.STATE = 0 := by
  rw [bfdStopped, rd_setBfd, rd_wr_apart _ _ _ (by decide), rd_wr_self]
  rfl

theorem admin_bfdStopped : rd (bfdStopped i s) (bfK i) BfdSess.ADMIN = rd s (bfK i) BfdSess.ADMIN := by
  rw [bfdStopped, rd_setBfd, rd_wr_apart _ _ _ (by decide), rd_wr_apart _ _ _ (by decide)]

theorem bfdStarted_cmd : (bfdStarted i s).cmd = s.cmd := by simp [bfdStarted]

theorem bfdStopped_cmd : (bfdStopped i s).cmd = s.cmd := by simp [bfdStopped]

end

/-- A session that is enabled starts Down. -/
theorem bfdSession_starts {c : Hdr} {i : Fin 16384} {s : State} {w : Waiting} (h : Safety.Sets s c w (bfK i.val) BfdSess.ADMIN 1)
    (hoff : rd s (bfK i.val) BfdSess.ADMIN = 0) : Safety.Gives (.bfdSessionAdmin c i 1) s fun t =>
        Safety.Done t w [] ∧ rd t (bfK i.val) BfdSess.ADMIN = 1 ∧ rd t (bfK i.val) BfdSess.STATE = 1 ∧
          (bfdRun t i.val).timer = false ∧ Safety.RegsKept [.bfdSess, .sessStatus] s t := by
  obtain ⟨i, hi⟩ := i
  dsimp only at *
  have hgo := hostWrite_admin h
  have hadmin := admin_bfdStored i s (v := 1) (by decide)
  rw [bfdWritten_starts hoff hadmin] at hgo
  have hkept : Safety.RegsKept [.bfdSess] s (bfdStarted i (bfdStored i 1 s)) := RegsKept.trans (bfdStored_kept i 1 s) bfdStarted_kept
  have ha : Safety.Answered [] (bfdStarted i (bfdStored i 1 s)) _ w [] :=
    replyWrite_answered h (bfdStarted_cmd.trans (bfdStored_cmd ..)) fun n => hkept (sessKey n) (by simp [sessKey])
  refine ⟨_, congrArg Host.Outcome.next hgo, ha.1, ?_, ?_, ?_, RegsKept.mono (Answered.kept ha hkept) (by simp)⟩
  · rw [Answered.rd ha (by simp [bfK]), admin_bfdStarted, hadmin]
  · rw [Answered.rd ha (by simp [bfK]), state_bfdStarted]
  · have hrun : tabGet? (bfdStarted i (bfdStored i 1 s)).line.bfd i = some (bfdFresh (bfdStored i 1 s) i) := tabGet?_put_self ..
    rw [← Answered.line ha] at hrun
    rw [bfdRun_of_some hrun]
    rfl

/-- A session that is disabled is AdminDown. -/
theorem bfdSession_stops {c : Hdr} {i : Fin 16384} {s : State} {w : Waiting} (h : Safety.Sets s c w (bfK i.val) BfdSess.ADMIN 0)
    (hon : rd s (bfK i.val) BfdSess.ADMIN = 1) : Safety.Gives (.bfdSessionAdmin c i 0) s fun t =>
        Safety.Done t w [] ∧ rd t (bfK i.val) BfdSess.ADMIN = 0 ∧ rd t (bfK i.val) BfdSess.STATE = 0 ∧
          Safety.RegsKept [.bfdSess, .sessStatus] s t := by
  obtain ⟨i, hi⟩ := i
  dsimp only at *
  have hgo := hostWrite_admin h
  have hadmin := admin_bfdStored i s (v := 0) (by decide)
  rw [bfdWritten_stops hon hadmin] at hgo
  have hkept : Safety.RegsKept [.bfdSess] s (bfdStopped i (bfdStored i 0 s)) := RegsKept.trans (bfdStored_kept i 0 s) bfdStopped_kept
  have ha : Safety.Answered [] (bfdStopped i (bfdStored i 0 s)) _ w [] :=
    replyWrite_answered h (bfdStopped_cmd.trans (bfdStored_cmd ..)) fun n => hkept (sessKey n) (by simp [sessKey])
  refine ⟨_, congrArg Host.Outcome.next hgo, ha.1, ?_, ?_, RegsKept.mono (Answered.kept ha hkept) (by simp)⟩
  · rw [Answered.rd ha (by simp [bfK]), admin_bfdStopped, hadmin]
  · rw [Answered.rd ha (by simp [bfK]), state_bfdStopped]

/-! ## The session's own packet (R197) -/

/-- Without MACsec a port's own frames go as they are. -/
theorem secureOut_plain {s : State} {p : Nat} (h : flag s (msK p) MsPort.EN = false) (e : Nat) : secureOut s p e = .plain := by
  simp [secureOut, h]

/-- The frame goes out and is counted (R331). -/
theorem originateSecure_sends {s : State} {p len : Nat} {kind : Pdu} {args : List Nat} (h : SendsNow s p) (hm : flag s (msK p) MsPort.EN = false) :
    originateSecure p kind args len s = (true, countSent p len (emit s (.pdu p kind args))) := by
  unfold originateSecure sendFrame emitLine
  simp [h.up, h.safe, h.silent, h.gate, secureOut_plain hm, isFramed_of_isEthernet h.eth, deviceFrame]

/-- A session's packet has been sent and counted; what the service keeps of the session is as it was, but for a Final that is sent. -/
structure PacketSent (s t : State) (i p : Nat) : Prop where
  service : Safety.Counted .svcCtr 1 0 1 s t
  port    : Safety.Counted .lpCtr p 8 1 s t
  kept    : Safety.RegsKept (.svcCtr :: .lpCtr :: Safety.telling) s t
  sent    : Out.pdu p .bfd (bfdBytes s i) ∈ t.out
  ivl     : ivl t = ivl s
  tx      : (bfdRun t i).tx = (bfdRun s i).tx
  rRmri   : (bfdRun t i).rRmri = (bfdRun s i).rRmri

theorem sendBfd_sends {s : State} {i p : Nat} (hp : rd s (bfK i) BfdSess.PORT = p) (h : SendsNow s p) (hm : flag s (msK p) MsPort.EN = false) :
    PacketSent s (sendBfd i s) i p := by
  obtain ⟨n, hout⟩ : ∃ n, sendBfd i s = bump .svcCtr 1 0 1 (setBfd i
      { bfdRun (countSent p n (emit s (.pdu p .bfd (bfdBytes s i)))) i with final := false }
      (countSent p n (emit s (.pdu p .bfd (bfdBytes s i))))) := by
    refine ⟨max 64 (rd s (bfK i) BfdSess.TMPL_LEN + 28), ?_⟩
    unfold sendBfd
    simp only [hp, originateSecure_sends h hm]
    rfl
  have hemit : Safety.RegsKept (.lpCtr :: Safety.telling) s (emit s (.pdu p .bfd (bfdBytes s i))) := fun _ _ => rfl
  have hcount := RegsKept.trans hemit (countSent_kept (p := p) (len := n))
  have hport : Safety.Counted .lpCtr p 8 1 s _ := countSent_counted (p := p) (len := n) (s := emit s (.pdu p .bfd (bfdBytes s i)))
  have hsent := countSent_sent (p := p) (len := n) (s := emit s (.pdu p .bfd (bfdBytes s i))) (o := .pdu p .bfd (bfdBytes s i)) List.mem_cons_self
  have hline : (countSent p n (emit s (.pdu p .bfd (bfdBytes s i)))).line = s.line := countSent_line
  have hivl : Machine.ivl (countSent p n (emit s (.pdu p .bfd (bfdBytes s i)))) = Machine.ivl s := ivl_congr (by simp [countSent, emit]) (by simp [countSent, emit])
  generalize countSent p n (emit s (.pdu p .bfd (bfdBytes s i))) = x at *
  have hrun : RunsAs (bfdRun x i) (bfdRun s i) := bfdRun_runsAs (by rw [hline]) (hcount _ (by simp [bfK]))
  have hset : tabGet? (sendBfd i s).line.bfd i = some { bfdRun x i with final := false } := by
    rw [hout, bump_line]
    exact tabGet?_put_self ..
  have hafter := bfdRun_of_some hset
  rw [hout] at hafter ⊢
  refine ⟨counted_from (by decide) (hcount _ (by simp)), ?_, ?_, ?_, ?_, ?_, ?_⟩
  · rw [Safety.Counted, rdWord_bump_ty _ _ _ _ _ _ (by simp) (by simp)]
    exact hport
  · exact RegsKept.trans (RegsKept.mono hcount fun _ => List.mem_cons_of_mem _)
      (RegsKept.mono (kept_from (kept_bump _ _ _ _ _) fun _ _ => rdWord_setBfd ..) fun _ => by simp only [List.mem_cons]; tauto)
  · exact bump_sent hsent
  · exact (ivl_congr (bump_ct ..) (bump_time ..)).trans hivl
  · rw [hafter, hrun]
  · rw [hafter, hrun]

/-- When the next packet of a session is due (R197). -/
theorem bfdNextDue_due (i : Nat) (s : State) : ∃ cut ≤ 250, (rd s (bfK i) BfdSess.DETECT_MULT = 1 → 100 ≤ cut) ∧
    (bfdRun (bfdNextDue i s) i).due = ivl s + bfdEvery s i * 65536 * (1000 - cut) := by
  refine ⟨if rd s (bfK i) BfdSess.DETECT_MULT = 1 then 100 + (drawChoice s).1 % 151 else (drawChoice s).1 % 251, ?_, ?_, ?_⟩
  · split <;> omega
  · intro h
    rw [if_pos h]
    omega
  · exact congrArg BfdRun.due (bfdRun_setBfd ..)

theorem bfdNextDue_kept (i : Nat) (s : State) : Safety.RegsKept [] s (bfdNextDue i s) := fun _ _ => rfl

/-- The packet of a session whose port sends is sent, and the next is due (R197). -/
theorem bfdTransmit_gives {i : Fin 16384} {p : Nat} {s : State} (ha : rd s (bfK i.val) BfdSess.ADMIN = 1) (hp : rd s (bfK i.val) BfdSess.PORT = p)
    (hs : SendsNow s p) (hm : flag s (msK p) MsPort.EN = false) : Safety.Gives (.bfdTransmit i) s fun t =>
      Safety.Counted .svcCtr 1 0 1 s t ∧ Safety.Counted .lpCtr p 8 1 s t ∧ Safety.RegsKept (.svcCtr :: .lpCtr :: Safety.telling) s t ∧
        Out.pdu p .bfd (bfdBytes s i.val) ∈ t.out ∧
        (s.time.stepped ≤ (s.ct : Int) → (tabGet? s.line.bfd i.val).isSome = true → (bfdRun s i.val).due ≤ ivl t) ∧
        ∃ cut ≤ 250, (rd s (bfK i.val) BfdSess.DETECT_MULT = 1 → 100 ≤ cut) ∧
          (bfdRun t i.val).due = ivl t + bfdEvery s i.val * 65536 * (1000 - cut) := by
  obtain ⟨i, hi⟩ := i
  dsimp only at *
  have hgo : exec (.bfdTransmit ⟨i, hi⟩) s = .next (bfdNextDue i (sendBfd i (reachIvl (bfdRun s i).due s))) :=
    congrArg Host.Outcome.next (if_pos ha)
  have hreach (h : s.time.stepped ≤ (s.ct : Int)) := reachIvl_reaches (bfdRun s i).due h
  have hkept : Safety.RegsKept Safety.telling s (reachIvl (bfdRun s i).due s) := reach_kept _ s
  have hline : (reachIvl (bfdRun s i).due s).line = s.line := reach_line _ s
  generalize reachIvl (bfdRun s i).due s = v at *
  have hsess : rdWord v (bfK i) = rdWord s (bfK i) := hkept _ (by simp [bfK])
  have hruns : RunsAs (bfdRun v i) (bfdRun s i) := bfdRun_runsAs (by rw [hline]) hsess
  have hsends : SendsNow v p := hs.ofKept hkept (by simp [Safety.telling])
  have hoff : flag v (msK p) MsPort.EN = false := by rw [flag, RegsKept.rd hkept (by simp [msK])]; exact hm
  have hsent := sendBfd_sends ((congrArg (getF · _) hsess).trans hp) hsends hoff
  generalize sendBfd i v = x at *
  have hx : rdWord x (bfK i) = rdWord s (bfK i) := (hsent.kept _ (by simp [bfK])).trans hsess
  have hevery : bfdEvery x i = bfdEvery s i := bfdEvery_congr hx (hsent.tx.trans (by rw [hruns])) (hsent.rRmri.trans (by rw [hruns]))
  have hdue := bfdNextDue_due i x
  have hnext : Safety.RegsKept [] x (bfdNextDue i x) := bfdNextDue_kept i x
  have hivl : ivl (bfdNextDue i x) = ivl x := rfl
  have hsame : (bfdNextDue i x).out = x.out := rfl
  have hword (k : Key) (hk : k.ty ∉ Safety.telling) : rdWord v k = rdWord s k := hkept k hk
  generalize bfdNextDue i x = t at *
  obtain ⟨cut, hcut, hmult, hat⟩ := hdue
  refine ⟨t, hgo, ?_, ?_, ?_, ?_, fun hstep _ => ?_, cut, hcut, fun h => hmult ?_, ?_⟩
  · rw [Safety.Counted, hnext _ (by simp), ← hword _ (by simp)]
    exact hsent.service
  · rw [Safety.Counted, hnext _ (by simp), ← hword _ (by simp)]
    exact hsent.port
  · exact RegsKept.trans (RegsKept.mono hkept fun _ => by simp only [List.mem_cons]; tauto) (RegsKept.trans hsent.kept (RegsKept.mono hnext (by simp)))
  · rw [hsame, ← bfdBytes_congr hsess hruns]
    exact hsent.sent
  · rw [hivl, hsent.ivl]
    exact hreach hstep
  · rw [rd, hx]
    exact h
  · rw [hat, hivl, hevery]

/-! ## The detection timer (R198) -/

/-- A session whose detection time has passed. -/
def bfdExpired (i : Nat) (x : BfdRun) (s : State) : State :=
  wr (wr (wr (setBfd i { x with timer := false } s) (bfK i) BfdSess.STATE 1) (bfK i) BfdSess.DIAG 1) (bfK i) BfdSess.REMOTE_DISC 0

section
variable {i : Nat} {x : BfdRun} {s : State}

theorem bfdExpired_kept : Safety.RegsKept [.bfdSess] s (bfdExpired i x s) := fun k hk => by
  have hne : k.ty ≠ (bfK i).ty := by simpa [bfK] using hk
  rw [bfdExpired, rdWord_wr_ty _ _ _ _ _ hne, rdWord_wr_ty _ _ _ _ _ hne, rdWord_wr_ty _ _ _ _ _ hne, rdWord_setBfd]

theorem state_bfdExpired : rd (bfdExpired i x s) (bfK i) BfdSess.STATE = 1 := by
  rw [bfdExpired, rd_wr_apart _ _ _ (by decide), rd_wr_apart _ _ _ (by decide), rd_wr_self]
  rfl

theorem diag_bfdExpired : rd (bfdExpired i x s) (bfK i) BfdSess.DIAG = 1 := by
  rw [bfdExpired, rd_wr_apart _ _ _ (by decide), rd_wr_self]
  rfl

theorem disc_bfdExpired : rd (bfdExpired i x s) (bfK i) BfdSess.REMOTE_DISC = 0 := by
  rw [bfdExpired, rd_wr_self]
  rfl

/-- The fields that an expiry leaves. -/
theorem rd_bfdExpired {f : Fld} (h1 : BfdSess.STATE.apart f = true) (h2 : BfdSess.DIAG.apart f = true) (h3 : BfdSess.REMOTE_DISC.apart f = true) :
    rd (bfdExpired i x s) (bfK i) f = rd s (bfK i) f := by
  rw [bfdExpired, rd_wr_apart _ _ _ h3, rd_wr_apart _ _ _ h2, rd_wr_apart _ _ _ h1, rd_setBfd]

theorem bfdExpired_line : (bfdExpired i x s).line = { s.line with bfd := tabPut s.line.bfd i { x with timer := false } } := by
  simp [bfdExpired, setBfd]

theorem bfdExpired_ivl : ivl (bfdExpired i x s) = ivl s := ivl_congr (by simp [bfdExpired, setBfd]) (by simp [bfdExpired, setBfd])

end

theorem getF_putBits_apart (x : Nat) {lo w : Nat} {g : Fld} (v : Nat) (h : (⟨lo, w⟩ : Fld).apart g = true) : getF (putBits x lo w v) g = getF x g :=
  getF_put_apart x (f := ⟨lo, w⟩) v h

/-- Sessions are disabled at reset. -/
theorem resetVal_bfdSess (fu : Fuses) (i : Nat) : getF (resetVal fu (bfK i)) BfdSess.ADMIN = 0 :=
  show getF (tableReset .bfdSess) BfdSess.ADMIN = 0 by
    simp only [tableReset, fieldsOf, fieldsBfdSess, rwR, rwF, roF, List.foldl_cons, List.foldl_nil]
    repeat rw [getF_putBits_apart _ _ (by decide)]
    exact getF_put_self 0 BfdSess.ADMIN 0

/-- A session whose object differs from its reset value is listed. -/
theorem mem_bfdEnabled {s : State} {i : Nat} (h : rd s (bfK i) BfdSess.ADMIN = 1) : i ∈ bfdEnabled s := by
  have hlisted : i ∈ listed .bfdSess s := by
    cases hg : tabGet? s.regs (keyNo (bfK i)) with
    | none =>
      have hreset : rd s (bfK i) BfdSess.ADMIN = 0 := by
        rw [rd, rdWord, tabGet, hg, Option.getD_none]
        exact resetVal_bfdSess s.fuses i
      omega
    | some v =>
      have hmem := mem_of_tabGet? hg
      have hlt := ctorIdx_lt .bfdSess
      refine List.mem_filterMap.2 ⟨_, hmem, ?_⟩
      have hmod : keyNo (bfK i) % 256 = ObjTy.bfdSess.ctorIdx := by simp only [keyNo, bfK, obj_ty, obj_idx]; omega
      have hdiv : keyNo (bfK i) / 256 = i := by simp only [keyNo, bfK, obj_ty, obj_idx]; omega
      rw [hmod, hdiv, if_pos rfl]
  exact List.mem_filter.2 ⟨hlisted, by simpa [bfK] using h⟩

/-- A micro-BFD session that its detection timer has taken Down keeps its port from distributing (R198). -/
theorem microDown_of_expired {s : State} {i p : Nat} (ha : rd s (bfK i) BfdSess.ADMIN = 1) (ht : rd s (bfK i) BfdSess.TYPE = 2)
    (hp : rd s (bfK i) BfdSess.PORT = p) (hs : rd s (bfK i) BfdSess.STATE = 1) (hd : rd s (bfK i) BfdSess.DIAG = 1) : microDown s p = true := by
  refine List.any_eq_true.2 ⟨i, mem_bfdEnabled ha, ?_⟩
  change (rd s (bfK i) BfdSess.TYPE == 2 && rd s (bfK i) BfdSess.PORT == p && rd s (bfK i) BfdSess.STATE == 1 &&
    rd s (bfK i) BfdSess.DIAG == 1) = true
  rw [ht, hp, hs, hd]
  simp

/-- Such a port does not distribute once its aggregator is brought up to date. -/
theorem updateAggOf_micro {s : State} {p : Nat} (hp : p < 48) (ha : aggOf s p ≠ none) (hm : microDown s p = true) :
    rd (updateAggOf p s) (lpS p) LpStatus.DISTRIBUTING = 0 := by
  obtain ⟨a, ha⟩ := Option.ne_none_iff_exists'.1 ha
  have hready : p ∉ readyOf s a := fun h => by simp [(mem_readyOf h).2] at hm
  unfold updateAggOf
  rw [ha, rd, updateAgg_lpS, ← rd]
  exact distributing_aggShown hp ha hready

/-- What an expiry of a session that was not Down counts and tells. -/
def expiryTold (i : Nat) (s : State) : State := stateEvent (bfK i) (bump .svcCtr 4 0 1 s)

theorem expiryTold_follows (i : Nat) (s : State) : Follows (.svcCtr :: Safety.telling) 2 s (expiryTold i s) :=
  (Follows.bump (ty := .svcCtr) (i := 4) (j := 0) (n := 1) s).trans ((Follows.stateEvent _ _).mono fun _ => List.mem_cons_of_mem _)

theorem expiryTold_kept (i : Nat) (s : State) : Safety.RegsKept (.svcCtr :: Safety.telling) s (expiryTold i s) :=
  RegsKept.trans (kept_bump _ _ _ _ s) (RegsKept.mono (kept_stateEvent _ _) fun _ => List.mem_cons_of_mem _)

theorem expiryTold_counted (i : Nat) (s : State) : Safety.Counted .svcCtr 4 0 1 s (expiryTold i s) := by
  rw [Safety.Counted, expiryTold, kept_stateEvent _ _ _ (by simp)]
  exact counted_bump _ _ _ _ _ (by decide)

/-- What follows an expiry of a session that was not Down. -/
def expiryFollowed (i : Nat) (s : State) : State :=
  if rd (expiryTold i s) (bfK i) BfdSess.TYPE = 2 then updateAggOf (rd (expiryTold i s) (bfK i) BfdSess.PORT) (expiryTold i s) else expiryTold i s

theorem expiryFollowed_follows (i : Nat) (s : State) : Follows (.svcCtr :: Safety.telling) 4 s (expiryFollowed i s) := by
  unfold expiryFollowed
  split
  · exact (expiryTold_follows i s).trans ((Follows.updateAggOf _ _).mono fun _ => List.mem_cons_of_mem _)
  · exact (expiryTold_follows i s).mono (fun _ h => h) (by decide)

theorem expiryFollowed_counted (i : Nat) (s : State) : Safety.Counted .svcCtr 4 0 1 s (expiryFollowed i s) := by
  have hcount := expiryTold_counted i s
  unfold expiryFollowed
  split
  · rw [Safety.Counted, (Follows.updateAggOf _ (expiryTold i s)).kept _ (by simp)]
    exact hcount
  · exact hcount

theorem execBfdDetectExpire_eq {i : Fin 16384} {s : State} (ha : rd s (bfK i.val) BfdSess.ADMIN = 1) (ht : (bfdRun s i.val).timer = true) :
    exec (.bfdDetectExpire i) s = .next (
      if rd s (bfK i.val) BfdSess.STATE = 1 then
        bfdExpired i.val (bfdRun s i.val) (reachIvl ((bfdRun s i.val).last + bfdDetect (bfdRun s i.val) * 1000 * 65536) s)
      else expiryFollowed i.val
        (bfdExpired i.val (bfdRun s i.val) (reachIvl ((bfdRun s i.val).last + bfdDetect (bfdRun s i.val) * 1000 * 65536) s))) :=
  congrArg Host.Outcome.next (if_neg (by simp [ha, ht]))

/-- The end of a session's detection time (R198). -/
theorem bfdDetectExpire_gives {i : Fin 16384} {s : State} (ha : rd s (bfK i.val) BfdSess.ADMIN = 1) (ht : (bfdRun s i.val).timer = true) :
    Safety.Gives (.bfdDetectExpire i) s fun t =>
      rd t (bfK i.val) BfdSess.STATE = 1 ∧ rd t (bfK i.val) BfdSess.DIAG = 1 ∧ rd t (bfK i.val) BfdSess.REMOTE_DISC = 0 ∧
        (bfdRun t i.val).timer = false ∧
        (s.time.stepped ≤ (s.ct : Int) → (bfdRun s i.val).last + bfdDetect (bfdRun s i.val) * 1000 * 65536 ≤ ivl t) ∧
        (rd s (bfK i.val) BfdSess.STATE ≠ 1 → Safety.Counted .svcCtr 4 0 1 s t) ∧
        (rd s (bfK i.val) BfdSess.STATE ≠ 1 → rd s (bfK i.val) BfdSess.TYPE = 2 → rd s (bfK i.val) BfdSess.PORT < 48 →
          aggOf s (rd s (bfK i.val) BfdSess.PORT) ≠ none → rd t (lpS (rd s (bfK i.val) BfdSess.PORT)) LpStatus.DISTRIBUTING = 0) ∧
        Safety.RegsKept (.bfdSess :: .svcCtr :: .lpStatus :: Safety.telling) s t := by
  obtain ⟨i, hi⟩ := i
  dsimp only at *
  have hgo := execBfdDetectExpire_eq (i := ⟨i, hi⟩) ha ht
  dsimp only at hgo
  generalize bfdRun s i = x at *
  have hreach (h : s.time.stepped ≤ (s.ct : Int)) := reachIvl_reaches (x.last + bfdDetect x * 1000 * 65536) h
  have hkept : Safety.RegsKept Safety.telling s (reachIvl (x.last + bfdDetect x * 1000 * 65536) s) := reach_kept _ s
  generalize reachIvl (x.last + bfdDetect x * 1000 * 65536) s = v at *
  have hfield (f : Fld) : rd v (bfK i) f = rd s (bfK i) f := RegsKept.rd hkept (by simp [bfK]) f
  have hst := state_bfdExpired (i := i) (x := x) (s := v)
  have hdg := diag_bfdExpired (i := i) (x := x) (s := v)
  have hrd := disc_bfdExpired (i := i) (x := x) (s := v)
  have hadmin : rd (bfdExpired i x v) (bfK i) BfdSess.ADMIN = 1 :=
    ((rd_bfdExpired (by decide) (by decide) (by decide)).trans (hfield _)).trans ha
  have htype : rd (bfdExpired i x v) (bfK i) BfdSess.TYPE = rd s (bfK i) BfdSess.TYPE :=
    (rd_bfdExpired (by decide) (by decide) (by decide)).trans (hfield _)
  have hport : rd (bfdExpired i x v) (bfK i) BfdSess.PORT = rd s (bfK i) BfdSess.PORT :=
    (rd_bfdExpired (by decide) (by decide) (by decide)).trans (hfield _)
  have hrun : (bfdRun (bfdExpired i x v) i).timer = false := by
    have hset : tabGet? (bfdExpired i x v).line.bfd i = some { x with timer := false } := by
      rw [bfdExpired_line]
      exact tabGet?_put_self ..
    rw [bfdRun_of_some hset]
  have hivl : ivl (bfdExpired i x v) = ivl v := bfdExpired_ivl
  have hexp : Safety.RegsKept (.bfdSess :: Safety.telling) s (bfdExpired i x v) :=
    RegsKept.trans (RegsKept.mono hkept fun _ => List.mem_cons_of_mem _) (RegsKept.mono bfdExpired_kept (by simp))
  generalize bfdExpired i x v = y at *
  by_cases hwas : rd s (bfK i) BfdSess.STATE = 1
  · rw [if_pos hwas] at hgo
    exact ⟨y, hgo, hst, hdg, hrd, hrun, fun h => hivl ▸ hreach h, fun h => absurd hwas h, fun h => absurd hwas h,
      RegsKept.mono hexp (by simp)⟩
  · rw [if_neg hwas] at hgo
    have hfollow := expiryFollowed_follows i y
    have hword : rdWord (expiryFollowed i y) (bfK i) = rdWord y (bfK i) := hfollow.kept _ (by simp [bfK])
    obtain ⟨l1, l2, hline⟩ := hfollow.line
    have hagain := (bfdRun_runsAs (s := y) (t := expiryFollowed i y) (i := i) (by rw [hline]) hword)
    refine ⟨_, hgo, ?_, ?_, ?_, ?_, fun h => ?_, fun _ => ?_, fun _ htwo hlt hagg => ?_, ?_⟩
    · rw [rd, hword, ← rd, hst]
    · rw [rd, hword, ← rd, hdg]
    · rw [rd, hword, ← rd, hrd]
    · rw [hagain]
      exact hrun
    · rw [hfollow.ivl, hivl]
      exact hreach h
    · exact counted_of_eq (expiryFollowed_counted i y) (hexp _ (by simp))
    · have htold (f : Fld) : rd (expiryTold i y) (bfK i) f = rd y (bfK i) f := RegsKept.rd (expiryTold_kept i y) (by simp [bfK]) f
      have haggOf : aggOf (expiryTold i y) (rd s (bfK i) BfdSess.PORT) = aggOf s (rd s (bfK i) BfdSess.PORT) :=
        ((expiryTold_follows i y).aggOf _).trans (aggOf_congr (RegsKept.rd hexp (by simp [lpS]) _))
      have hdown : microDown (expiryTold i y) (rd s (bfK i) BfdSess.PORT) = true :=
        microDown_of_expired ((htold _).trans hadmin) ((htold _).trans (htype.trans htwo)) ((htold _).trans hport) ((htold _).trans hst)
          ((htold _).trans hdg)
      rw [expiryFollowed, htold, htype, htold, hport, if_pos htwo]
      exact updateAggOf_micro hlt (haggOf ▸ hagg) hdown
    · exact RegsKept.trans (RegsKept.mono hexp (by simp))
        (RegsKept.mono hfollow.kept (by simp))

end Sys2Proof.Machine
end

section
/-! The objects of a type that are listed, through counting and telling (R14, R501, R508). -/
namespace Sys2Proof.Machine

open Sys2Proof

/-! ## A store and the objects of a type that it lists -/

/-- The indices of the objects of a type in a table of objects. -/
def typedOf (ty : ObjTy) (t : Tab Nat) : List Nat := t.filterMap fun e => if e.1 % 256 = ty.ctorIdx then some (e.1 / 256) else none

theorem typedOf_put {ty : ObjTy} {n : Nat} (h : n % 256 ≠ ty.ctorIdx) (t : Tab Nat) (v : Nat) : typedOf ty (tabPut t n v) = typedOf ty t := by
  have hskip (w : Nat) (r : Tab Nat) : typedOf ty ((n, w) :: r) = typedOf ty r := by simp [typedOf, h]
  induction t with
  | nil => exact hskip v []
  | cons e r ih =>
    obtain ⟨m, w⟩ := e
    unfold tabPut
    split_ifs with hlt heq
    · exact hskip v _
    · rw [hskip, ← heq, hskip]
    · simp only [typedOf, List.filterMap_cons] at ih ⊢
      rw [ih]

theorem typedOf_del {ty : ObjTy} {n : Nat} (h : n % 256 ≠ ty.ctorIdx) (t : Tab Nat) : typedOf ty (tabDel t n) = typedOf ty t := by
  induction t with
  | nil => rfl
  | cons e r ih =>
    unfold typedOf tabDel at ih ⊢
    by_cases he : e.1 = n
    · have hskip : ¬ e.1 % 256 = ty.ctorIdx := by rw [he]; exact h
      rw [List.filter_cons_of_neg (by simp [he]), ih, List.filterMap_cons_none (by simp [hskip])]
    · rw [List.filter_cons_of_pos (by simp [he]), List.filterMap_cons, List.filterMap_cons, ih]

section
variable {ty : ObjTy}

theorem listed_eq (s : State) : listed ty s = typedOf ty s.regs := rfl

theorem listed_wrWord {k : Key} (h : k.ty ≠ ty) (s : State) (v : Nat) : listed ty (wrWord s k v) = listed ty s := by
  have hlt := ctorIdx_lt k.ty
  have hno : keyNo k % 256 = k.ty.ctorIdx := by simp only [keyNo]; omega
  have hne : keyNo k % 256 ≠ ty.ctorIdx := by rw [hno]; exact fun he => h (ctorIdx_inj he)
  rw [listed_eq, listed_eq, wrWord]
  dsimp only [tabSet]
  split
  · exact typedOf_del hne _
  · exact typedOf_put hne _ _

theorem listed_wr {k : Key} (h : k.ty ≠ ty) (s : State) (f : Fld) (v : Nat) : listed ty (wr s k f v) = listed ty s := listed_wrWord h ..

theorem listed_ite {c : Prop} [Decidable c] {x y : State} {l : List Nat} (hx : listed ty x = l) (hy : listed ty y = l) :
    listed ty (if c then x else y) = l := by
  split <;> assumption

/-! ## Telling and counting -/

variable (ht : ty ∉ Safety.telling)
include ht

theorem ne_of_telling {k : Key} (hk : k.ty ∈ Safety.telling) : k.ty ≠ ty := fun h => ht (h ▸ hk)

theorem listed_sendEvents (n : Nat) (s : State) : listed ty (sendEvents n s) = listed ty s := by
  have hsess : (sessKey n).ty ≠ ty := ne_of_telling ht (by simp [sessKey])
  obtain ⟨c, q, l, hp, -⟩ := puntsBefore_parts (getSess s n).port s
  unfold sendEvents
  dsimp only
  split
  · rfl
  · rw [listed_wr hsess, hp]
    rfl

theorem listed_countQuiet {k : Key} (hk : k.ty ≠ ty) (s : State) : listed ty (countQuiet k s) = listed ty s := by
  have hperf (p : Nat) : (obj .perfCnt p).ty ≠ ty := ne_of_telling ht (by simp)
  unfold countQuiet
  dsimp only
  rw [forAll_same _ _ (listed ty) fun p t => ?_]
  · exact listed_wrWord hk ..
  · split
    · exact listed_wrWord (hperf p) ..
    · rfl

theorem listed_pushRecord (n : Nat) (r : TelRec) (s : State) : listed ty (pushRecord n r s) = listed ty s := by
  have hlost : (obj .lostCtr n).ty ≠ ty := ne_of_telling ht (by simp)
  have hcount : (obj .cntCtr 4).ty ≠ ty := ne_of_telling ht (by simp)
  have hsent : listed ty (if 16 + waitingBytes (getSess s n) + r.bytes > 8192 then sendEvents n s else s) = listed ty s :=
    listed_ite (listed_sendEvents ht ..) rfl
  unfold pushRecord
  generalize (if 16 + waitingBytes (getSess s n) + r.bytes > 8192 then sendEvents n s else s) = u at hsent ⊢
  exact listed_ite ((listed_countQuiet ht hcount _).trans ((listed_countQuiet ht hlost _).trans hsent))
    (listed_ite ((listed_sendEvents ht n _).trans hsent) hsent)

theorem listed_publish (bit : Nat) (r : TelRec) (s : State) : listed ty (publish bit r s) = listed ty s :=
  forAll_same _ _ (listed ty) (fun n t => listed_pushRecord ht n r t) s

theorem listed_overflowSample (p count : Nat) (ctx : ObjAddr) (s : State) : listed ty (overflowSample p count ctx s) = listed ty s := by
  have hcount (i : Nat) : (obj .cntCtr i).ty ≠ ty := ne_of_telling ht (by simp)
  unfold overflowSample
  dsimp only
  split
  · split
    · exact listed_countQuiet ht (hcount 3) _
    · exact (listed_publish ht ..).trans (listed_countQuiet ht (hcount 2) _)
  · exact (listed_publish ht ..).trans (listed_countQuiet ht (hcount 2) _)

theorem listed_perfAdd (p n : Nat) (ctx : ObjAddr) (s : State) : listed ty (perfAdd p n ctx s) = listed ty s := by
  have hperf : (obj .perfCnt p).ty ≠ ty := ne_of_telling ht (by simp)
  unfold perfAdd
  dsimp only
  split
  · exact listed_wrWord hperf ..
  · exact (listed_overflowSample ht ..).trans (listed_wrWord hperf ..)

theorem listed_bump {cty : ObjTy} (hc : cty ≠ ty) (i j n : Nat) (s : State) : listed ty (bump cty i j n s) = listed ty s := by
  unfold bump bumpBy
  dsimp only
  rw [forAll_same _ _ (listed ty) fun p t => ?_]
  · exact listed_wrWord hc ..
  · split
    · exact listed_perfAdd ht ..
    · rfl

end

end Sys2Proof.Machine
end

section
/-! What the sending of a frame of the device's own through MACsec leaves of BFD sessions (R197, R244, R261). -/
namespace Sys2Proof.Machine

open Sys2Proof

/-- A state that operations outside the BFD service lead to from another: its sessions are as they were. -/
structure BfdAside (a s : State) : Prop where
  bfd  : s.line.bfd = a.line.bfd
  sess : ∀ i, rdWord s (bfK i) = rdWord a (bfK i)

namespace BfdAside

variable {a s t : State}

theorem refl (a : State) : BfdAside a a := ⟨rfl, fun _ => rfl⟩

/-- An update of other parts. -/
theorem parts (h : BfdAside a s) {clock ct cmd bridge flt cnt eng tbl pat tfu msec buf que fab hbm time pair upd pwr out free pending} {line : Line}
    (hl : line.bfd = s.line.bfd := by rfl) : BfdAside a (State.mk s.regs s.fuses clock ct cmd bridge flt cnt eng tbl pat line tfu msec buf que
      fab hbm time pair upd pwr out free pending) :=
  ⟨hl.trans h.bfd, h.sess⟩

theorem wrWord {k : Key} {v : Nat} (h : BfdAside a s) (hk : k.ty ≠ .bfdSess := by exact nofun) : BfdAside a (wrWord s k v) :=
  ⟨h.bfd, fun i => (rdWord_wrWord_ne s v fun e => hk (by rw [← e]; rfl)).trans (h.sess i)⟩

theorem wr {k : Key} {f : Fld} {v : Nat} (h : BfdAside a s) (hk : k.ty ≠ .bfdSess := by exact nofun) : BfdAside a (wr s k f v) := h.wrWord hk

theorem mapF {k : Key} {f : Fld} {g : Nat → Nat} (h : BfdAside a s) (hk : k.ty ≠ .bfdSess := by exact nofun) : BfdAside a (mapF s k f g) := h.wr hk

theorem emit {o : Out} (h : BfdAside a s) : BfdAside a (emit s o) := h.parts

theorem bump {ty : ObjTy} {i j n : Nat} (h : BfdAside a s) (hty : ty ≠ .bfdSess := by exact nofun) : BfdAside a (bump ty i j n s) :=
  ⟨by rw [bump_line]; exact h.bfd, fun m => (rdWord_bump_ty ty i j n s (bfK m) (Ne.symm hty) (by simp [bfK])).trans (h.sess m)⟩

theorem stateEvent {k : Key} (h : BfdAside a s) : BfdAside a (stateEvent k s) :=
  ⟨by rw [stateEvent_line]; exact h.bfd, fun m => (kept_stateEvent k s (bfK m) (by simp [bfK])).trans (h.sess m)⟩

theorem ite {c : Prop} [Decidable c] (hs : BfdAside a s) (ht : BfdAside a t) : BfdAside a (if c then s else t) := by
  split <;> assumption

theorem forAll {α : Type} {l : List α} {f : α → State → State} (h : BfdAside a s) (hf : ∀ x s, BfdAside a s → BfdAside a (f x s)) :
    BfdAside a (forAll l f s) := forAll_keeps l f (BfdAside a) hf s h

/-! ## Key slots (R250, R253 to R261) -/

theorem setSa {n st : Nat} (h : BfdAside a s) : BfdAside a (setSa n st s) := .wr (.wr h)

theorem installSa {n : Nat} {w : SaParams} {mka : Bool} (h : BfdAside a s) : BfdAside a (installSa n w mka s) := by
  have hkey (k : Option SaKey) : BfdAside a (setKey n k s) := h.parts
  unfold Machine.installSa countSlots
  exact .wr (.wrWord (hkey _))

theorem drainsOf_installSa (n m : Nat) (w : SaParams) (mka : Bool) (s : State) : drainsOf (Machine.installSa n w mka s) m = drainsOf s m := by
  simp only [drainsOf, Machine.installSa, countSlots, setKey, wr_msec, wrWord_msec]

/-- A change of a slot that no command waits for. -/
theorem changeSlot {n : Nat} {w : SaParams} {mka : Bool} (h : BfdAside a s) : BfdAside a (changeSlot n ⟨none, some w, mka⟩ s) := by
  unfold Machine.changeSlot
  dsimp only
  have hset (l : List Drain) {u : State} (hu : BfdAside a u) : BfdAside a (setDrains n l u) := hu.parts
  cases hl : drainsOf s n with
  | cons d r => exact hset _ h
  | nil =>
    have hfirst (l : List Drain) (u : State) : drainsOf (setDrains n l u) n = l := tabGet_set_self ..
    have hrest (u : State) : drainsOf (Machine.installSa n w mka (setDrains n [] u)) n = [] := (drainsOf_installSa ..).trans (hfirst [] u)
    simp only [List.nil_append, List.isEmpty_nil, if_true, Machine.startDrains, hfirst, endDrain, hrest]
    exact .ite (.installSa (hset _ (hset _ h))) (.setSa (hset _ h))

theorem showMka {p : Nat} (h : BfdAside a s) : BfdAside a (showMka p s) := .wrWord h

theorem installSak {p key suite : Nat} (h : BfdAside a s) : BfdAside a (installSak p key suite s) :=
  .showMka (.changeSlot (.parts (.mapF h)))

theorem distribute {p : Nat} (h : BfdAside a s) : BfdAside a (distribute p s) := by
  unfold Machine.distribute
  split
  · exact h
  · exact .ite (.installSak h.parts) h

theorem takePn {p n len : Nat} (h : BfdAside a s) : BfdAside a (takePn p n len s).2 := by
  have hcount : BfdAside a (msCount p 0 (Machine.mapF
      { s with msec := { s.msec with txLog := (s.clock, pipeBytes len) :: inMs s s.msec.txLog } } (saK n) SaSlot.FRAMES (· + 1))) :=
    .bump (.mapF h.parts)
  exact .ite (.ite (.distribute (.stateEvent (.wr (.ite (.wr hcount) (.setSa hcount))))) (.stateEvent (.wr (.ite (.wr hcount) (.setSa hcount)))))
    (.ite (.wr hcount) (.setSa hcount))

/-! ## Frames of the device's own (R197, R331) -/

theorem countSent {p len : Nat} (h : BfdAside a s) : BfdAside a (countSent p len s) := .bump (.bump h)

theorem emitLine {p n : Nat} {o : Nat → Out} (h : BfdAside a s) : BfdAside a (emitLine p n o s) :=
  .ite (.forAll h fun _ _ h => .ite h (.emit (.emit h))) (.emit h)

theorem sendDevice {p tc len n : Nat} {kind : Pdu} {args : List Nat} {pn : Option Nat} {fate : TxFate} (h : BfdAside a s) :
    BfdAside a (sendFrame p (deviceFrame kind args tc len) pn n fate s) := .countSent (.emitLine h)

theorem originateSecure {p len : Nat} {kind : Pdu} {args : List Nat} (h : BfdAside a s) : BfdAside a (originateSecure p kind args len s).2 := by
  unfold Machine.originateSecure
  dsimp only
  split
  · exact h
  · split
    · exact h.parts
    · split
      · exact h.parts
      · exact .bump h
      · exact .bump h
      · exact sendDevice (tc := 7) (len := len) (args := args) (pn := none) (n := len) (fate := .whole) h
      · exact sendDevice (tc := 7) (len := len) (args := args) (fate := .whole) (.emit (.takePn h))

end BfdAside

/-- A session whose packet is sent is as it was, but for a Final that is sent. -/
theorem sendBfd_keeps (i : Nat) (s : State) :
    (∀ j, rdWord (sendBfd i s) (bfK j) = rdWord s (bfK j)) ∧ (bfdRun (sendBfd i s) i).timer = (bfdRun s i).timer := by
  have haside := (BfdAside.refl s).originateSecure (p := rd s (bfK i) BfdSess.PORT) (kind := .bfd) (args := bfdBytes s i)
    (len := max 64 (rd s (bfK i) BfdSess.TMPL_LEN + 28))
  unfold sendBfd
  dsimp only
  generalize originateSecure (rd s (bfK i) BfdSess.PORT) .bfd (bfdBytes s i) (max 64 (rd s (bfK i) BfdSess.TMPL_LEN + 28)) s = r at *
  have hrun : (bfdRun r.2 i).timer = (bfdRun s i).timer := by rw [bfdRun_runsAs haside.bfd (haside.sess i)]
  split
  · refine ⟨fun j => ?_, ?_⟩
    · rw [rdWord_bump_ty _ _ _ _ _ _ (by simp [bfK]) (by simp [bfK]), rdWord_setBfd, haside.sess]
    · have hset : tabGet? (bump .svcCtr 1 0 1 (setBfd i { bfdRun r.2 i with final := false } r.2)).line.bfd i =
          some { bfdRun r.2 i with final := false } := by
        rw [bump_line]
        exact tabGet?_put_self ..
      rw [bfdRun_of_some hset]
      exact hrun
  · exact ⟨haside.sess, hrun⟩

end Sys2Proof.Machine
end

section
/-! The packets that BFD receives, and the claims of BFD and LACP: O37 (R195 to R200, R204, R205). -/
namespace Sys2Proof.Machine

open Sys2Proof

/-! ## The session that a packet goes to (R196) -/

theorem bfdTarget_congr {s t : State} (hl : listed .bfdSess t = listed .bfdSess s) (hr : ∀ i, rdWord t (bfK i) = rdWord s (bfK i)) (p : Nat)
    (b : BfdPacket) : bfdTarget t p b = bfdTarget s p b := by
  have hdst (i : Nat) : tmplDst t i = tmplDst s i := by simp only [tmplDst, tmplType_congr (hr i), tmplAt_congr (hr i)]
  have hon : bfdEnabled t = bfdEnabled s := by
    simp only [bfdEnabled, rd, hl]
    exact List.filter_congr fun i _ => by rw [show rdWord t (obj .bfdSess i) = rdWord s (obj .bfdSess i) from hr i]
  simp only [bfdTarget, hon, hdst, rd, hr]

theorem ttlBad_congr {s t : State} {i : Nat} (hr : rdWord t (bfK i) = rdWord s (bfK i)) (b : BfdPacket) : ttlBad t i b = ttlBad s i b := by
  simp only [ttlBad, rd, hr]
  rfl

/-- A packet taken from its port's queue and counted. -/
def packetTaken (p : Nat) (s : State) : State :=
  bump .svcCtr 0 0 1 { s with line := { s.line with divertQ := tabSet s.line.divertQ p (tabGet s.line.divertQ p 0 - 1) 0 } }

section
variable {p : Nat} {s : State}

theorem packetTaken_kept : Safety.RegsKept (.svcCtr :: Safety.telling) s (packetTaken p s) := kept_from (kept_bump _ _ _ _ _) fun _ _ => rfl

theorem packetTaken_counted : Safety.Counted .svcCtr 0 0 1 s (packetTaken p s) := counted_from (by decide) rfl

theorem packetTaken_line : (packetTaken p s).line =
    { s.line with divertQ := tabSet s.line.divertQ p (tabGet s.line.divertQ p 0 - 1) 0 } := bump_line ..

theorem packetTaken_sess (i : Nat) : rdWord (packetTaken p s) (bfK i) = rdWord s (bfK i) := packetTaken_kept _ (by simp [bfK])

theorem bfdTarget_packetTaken (q : Nat) (b : BfdPacket) : bfdTarget (packetTaken p s) q b = bfdTarget s q b :=
  bfdTarget_congr ((listed_bump (by simp) (by simp) ..).trans rfl) packetTaken_sess q b

/-- A packet that is counted beside, and no more. -/
theorem packetTaken_bump (j : Nat) (hj : j ≠ 0) :
    Safety.Counted .svcCtr 0 0 1 s (bump .svcCtr j 0 1 (packetTaken p s)) ∧ Safety.Counted .svcCtr j 0 1 s (bump .svcCtr j 0 1 (packetTaken p s)) ∧
      Safety.RegsKept (.svcCtr :: Safety.telling) s (bump .svcCtr j 0 1 (packetTaken p s)) := by
  refine ⟨?_, counted_from (by decide) ?_, RegsKept.trans packetTaken_kept (kept_bump _ _ _ _ _)⟩
  · rw [Safety.Counted, rdWord_bump_counter _ _ _ _ _ _ _ (counter_ne .svcCtr rfl hj.symm) (by decide)]
    exact packetTaken_counted
  · exact rdWord_bump_counter _ _ _ _ _ _ _ (counter_ne .svcCtr rfl hj) (by decide)

end

/-- What a session hears from a packet, before the count of one that goes Down. -/
def bfdHeard (i st dg : Nat) (b : BfdPacket) (s : State) : State :=
  let k := bfK i
  let x := bfdRun s i
  let ends := x.poll && b.final
  let s := setBfd i { x with
    timer := true, rMult := b.mult, rDmti := b.dmti, rRmri := b.rmri, poll := x.poll && !b.final,
    final := x.final || b.poll, last := ivl s, tx := if ends then rd s k BfdSess.DMTI else x.tx,
    rx := if ends then rd s k BfdSess.RMRI else x.rx } s
  wr (wr (wr s k BfdSess.STATE st) k BfdSess.DIAG dg) k BfdSess.REMOTE_DISC b.myDisc.toNat

/-- What follows what it hears, before its answer to a Poll. -/
def heardFollowed (i was st : Nat) (s : State) : State :=
  let s := if st = 1 ∧ was ≠ 1 then bump .svcCtr 4 0 1 s else s
  updateAggOf (rd s (bfK i) BfdSess.PORT) s

section
variable {i st dg was : Nat} {b : BfdPacket} {s : State}

theorem bfdHeard_kept : Safety.RegsKept [.bfdSess] s (bfdHeard i st dg b s) := fun k hk => by
  have hne : k.ty ≠ (bfK i).ty := by simpa [bfK] using hk
  unfold bfdHeard
  dsimp only
  rw [rdWord_wr_ty _ _ _ _ _ hne, rdWord_wr_ty _ _ _ _ _ hne, rdWord_wr_ty _ _ _ _ _ hne, rdWord_setBfd]

theorem state_bfdHeard (h : st < 4) : rd (bfdHeard i st dg b s) (bfK i) BfdSess.STATE = st := by
  unfold bfdHeard
  dsimp only
  rw [rd_wr_apart _ _ _ (by decide), rd_wr_apart _ _ _ (by decide), rd_wr_self]
  exact Nat.mod_eq_of_lt h

theorem disc_bfdHeard : rd (bfdHeard i st dg b s) (bfK i) BfdSess.REMOTE_DISC = b.myDisc.toNat := by
  unfold bfdHeard
  dsimp only
  rw [rd_wr_self]
  exact Nat.mod_eq_of_lt b.myDisc.isLt

theorem timer_bfdHeard : (bfdRun (bfdHeard i st dg b s) i).timer = true := by
  unfold bfdHeard
  dsimp only
  simp [bfdRun, setBfd]

theorem heardFollowed_follows : Follows (.svcCtr :: Safety.telling) 2 s (heardFollowed i was st s) := by
  unfold heardFollowed
  dsimp only
  split
  · exact (Follows.bump (ty := .svcCtr) (i := 4) (j := 0) (n := 1) s).trans ((Follows.updateAggOf _ _).mono fun _ => List.mem_cons_of_mem _)
  · exact (Follows.updateAggOf _ s).mono fun _ => List.mem_cons_of_mem _

end

/-- STATE stays one of four (RFC 5880). -/
theorem bfdNext_lt {st dg remote : Nat} (h : st < 4) : (bfdNext st dg remote).1 < 4 := by
  unfold bfdNext
  split <;> dsimp only <;> omega

section
variable {p : Fin 48} {b : BfdPacket} {s : State}

theorem bfdPacketReceive_bad (hq : tabGet s.line.divertQ p.val 0 ≠ 0) (hb : bfdBad b = true) : Safety.Gives (.bfdPacketReceive p b) s fun t =>
      Safety.Counted .svcCtr 0 0 1 s t ∧ Safety.Counted .svcCtr 2 0 1 s t ∧ tabGet t.line.divertQ p.val 0 + 1 = tabGet s.line.divertQ p.val 0 ∧
        Safety.RegsKept (.svcCtr :: Safety.telling) s t := by
  have hgo : exec (.bfdPacketReceive p b) s = .next (bump .svcCtr 2 0 1 (packetTaken p.val s)) :=
    congrArg Host.Outcome.next ((if_neg hq).trans (if_pos hb))
  obtain ⟨hall, hbad, hkept⟩ := packetTaken_bump (p := p.val) (s := s) 2 (by decide)
  refine ⟨_, hgo, hall, hbad, ?_, hkept⟩
  rw [bump_line, packetTaken_line]
  show tabGet (tabSet s.line.divertQ p.val (tabGet s.line.divertQ p.val 0 - 1) 0) p.val 0 + 1 = _
  rw [tabGet_set_self]
  omega

theorem bfdPacketReceive_unknown (hq : tabGet s.line.divertQ p.val 0 ≠ 0) (hb : bfdBad b = false) (ht : bfdTarget s p.val b = none) :
    Safety.Gives (.bfdPacketReceive p b) s fun t =>
      Safety.Counted .svcCtr 0 0 1 s t ∧ Safety.Counted .svcCtr 3 0 1 s t ∧ Safety.RegsKept (.svcCtr :: Safety.telling) s t := by
  have hgo : exec (.bfdPacketReceive p b) s = .next (bump .svcCtr 3 0 1 (packetTaken p.val s)) := by
    have htarget : bfdTarget (packetTaken p.val s) p.val b = none := (bfdTarget_packetTaken ..).trans ht
    show execBfdPacketReceive p b s = _
    unfold execBfdPacketReceive
    simp only [if_neg hq, hb, Bool.false_eq_true, if_false]
    unfold packetTaken at htarget ⊢
    simp only [htarget]
  obtain ⟨hall, hnone, hkept⟩ := packetTaken_bump (p := p.val) (s := s) 3 (by decide)
  exact ⟨_, hgo, hall, hnone, hkept⟩

theorem bfdPacketReceive_heard {i st dg : Nat} (hq : tabGet s.line.divertQ p.val 0 ≠ 0) (hb : bfdBad b = false)
    (ht : bfdTarget s p.val b = some i) (httl : ttlBad s i b = false)
    (hn : bfdNext (rd s (bfK i) BfdSess.STATE) (rd s (bfK i) BfdSess.DIAG) b.state.toNat = (st, dg)) :
    Safety.Gives (.bfdPacketReceive p b) s fun t =>
        rd t (bfK i) BfdSess.STATE = st ∧ rd t (bfK i) BfdSess.REMOTE_DISC = b.myDisc.toNat ∧ (bfdRun t i).timer = true ∧
          (b.poll = false → Safety.RegsKept (.svcCtr :: .bfdSess :: .lpStatus :: Safety.telling) s t) := by
  have hword : rdWord (packetTaken p.val s) (bfK i) = rdWord s (bfK i) := packetTaken_sess i
  have hgo : ∃ was, exec (.bfdPacketReceive p b) s = .next
      (if b.poll then sendBfd i (heardFollowed i was st (bfdHeard i st dg b (packetTaken p.val s)))
        else heardFollowed i was st (bfdHeard i st dg b (packetTaken p.val s))) := by
    have htarget : bfdTarget (packetTaken p.val s) p.val b = some i := (bfdTarget_packetTaken ..).trans ht
    have httl' : ttlBad (packetTaken p.val s) i b = false := (ttlBad_congr hword b).trans httl
    have hnext : bfdNext (rd (packetTaken p.val s) (bfK i) BfdSess.STATE) (rd (packetTaken p.val s) (bfK i) BfdSess.DIAG) b.state.toNat = (st, dg) := by
      rw [rd, rd, hword]
      exact hn
    refine ⟨rd (packetTaken p.val s) (bfK i) BfdSess.STATE, ?_⟩
    show execBfdPacketReceive p b s = _
    unfold execBfdPacketReceive
    simp only [if_neg hq, hb, Bool.false_eq_true, if_false]
    unfold packetTaken at htarget httl' hnext ⊢
    simp only [htarget, httl', hnext, Bool.false_eq_true, if_false]
    rfl
  obtain ⟨was, hgo⟩ := hgo
  have hst : st < 4 := by
    have hlt := bfdNext_lt (dg := rd s (bfK i) BfdSess.DIAG) (remote := b.state.toNat) (rd_lt s (bfK i) BfdSess.STATE)
    rwa [hn] at hlt
  have htaken := packetTaken_kept (p := p.val) (s := s)
  generalize packetTaken p.val s = v at *
  have hheard := bfdHeard_kept (i := i) (st := st) (dg := dg) (b := b) (s := v)
  have hstate := state_bfdHeard (i := i) (dg := dg) (b := b) (s := v) hst
  have hdisc := disc_bfdHeard (i := i) (st := st) (dg := dg) (b := b) (s := v)
  have htimer := timer_bfdHeard (i := i) (st := st) (dg := dg) (b := b) (s := v)
  generalize bfdHeard i st dg b v = x at *
  have hfollow := heardFollowed_follows (i := i) (was := was) (st := st) (s := x)
  generalize heardFollowed i was st x = y at *
  have hy : rdWord y (bfK i) = rdWord x (bfK i) := hfollow.kept _ (by simp [bfK])
  obtain ⟨l1, l2, hline⟩ := hfollow.line
  have hrun : (bfdRun y i).timer = true := by
    rw [bfdRun_runsAs (s := x) (t := y) (i := i) (by rw [hline]) hy]
    exact htimer
  have hkept : Safety.RegsKept (.svcCtr :: .bfdSess :: .lpStatus :: Safety.telling) s y :=
    RegsKept.trans (RegsKept.mono htaken (by simp)) (RegsKept.trans (RegsKept.mono hheard (by simp)) (RegsKept.mono hfollow.kept (by simp)))
  cases hpoll : b.poll with
  | false =>
    rw [hpoll] at hgo
    exact ⟨y, hgo, (congrArg (getF · _) hy).trans hstate, (congrArg (getF · _) hy).trans hdisc, hrun, fun _ => hkept⟩
  | true =>
    rw [hpoll] at hgo
    obtain ⟨hsess, hsame⟩ := sendBfd_keeps i y
    have ht : rdWord (sendBfd i y) (bfK i) = rdWord x (bfK i) := (hsess i).trans hy
    exact ⟨_, hgo, (congrArg (getF · _) ht).trans hstate, (congrArg (getF · _) ht).trans hdisc, hsame.trans hrun, nofun⟩

end

/-- Settles O37: each clause by what its event or write makes of a session or of an aggregator's members. -/
theorem bfdAndLacp : Obligations.BfdAndLacp := by
  unfold Obligations.BfdAndLacp
  refine ⟨fun c i s w => ⟨bfdSession_starts, bfdSession_stops⟩,
    fun p b s hq => ⟨bfdPacketReceive_bad hq, bfdPacketReceive_unknown hq, fun i st dg hb ht httl hn => bfdPacketReceive_heard hq hb ht httl hn⟩,
    fun i p s ha hp heth hup hsafe hsil hgate hm => bfdTransmit_gives ha hp ⟨heth, hup, hsafe, hsil, hgate⟩ hm,
    fun i s ha ht => bfdDetectExpire_gives ha ht,
    fun c a m s w => ⟨aggregator_starts, aggregator_stops⟩,
    fun p l s hq => ⟨lacpduReceive_heard hq, lacpduReceive_late hq,
      fun h heth hup hsafe hsil hgate => marker_answered hq h ⟨heth, hup, hsafe, hsil, hgate⟩⟩,
    fun p a s ha => ⟨fun hact heth hup hsafe hsil hgate => lacpPeriodic_sends ha hact ⟨heth, hup, hsafe, hsil, hgate⟩, lacpTimeout_gives ha⟩⟩

end Sys2Proof.Machine
end

section
/-! Client frames over GFP (R182, R195, R218, R236): a frame with a SecTAG whose header, as it arrived, is that of a BFD frame. -/
namespace Sys2Proof.Machine

open Sys2Proof

/-- Line port 2 of a device after reset, framed and up, with four packet slots and GFP in SYNC, diverting BFD, without MACsec. -/
def bfdFramedPort : State :=
  wr (wr (wr (wr (wr (wr State.reset (lpK 2) LpCtl.MODE 5) (lpK 2) LpCtl.ADMIN_UP 1) (lpK 2) LpCtl.BFD_DIVERT 1) (lpS 2) LpStatus.LINK lkUp)
    (frS 2) FrStatus.PKT_SLOTS 4) (frS 2) FrStatus.GFP_STATE 2

/-- A good 64 B client frame with a SecTAG: its content is none of a BFD frame, but the header window that it arrived with reads as IPv4 and
UDP to port 3784 (R195). -/
def taggedClient : GfpFrame :=
  { chec := .ok, pli := 64, thec := .ok, pti := 0, upi := 1, exi := 0, pfcsOk := true, cut := false, bufBad := false,
    frame :=
      { len := 64, bad64 := false, fecBad := false, pcsBad := false, fcsOk := true, bufBad := false, fecWords := 0, fecSyms := 0, ring := [],
        da := 1, sa := 2,
        sec := some { v := false, es := false, sc := false, e := true, c := true, slOk := true, fits := true, an := 0, pn := 1, sci := 0,
                      icvOk := true, window := 0x0800 * 2 ^ 1936 + 0x45 * 2 ^ 1928 + 17 * 2 ^ 1856 + 3784 * 2 ^ 1744 },
        content := { etherType := 0x0800, opcode := 0, pfcEn := 0, quanta := [], tag := none, toPtp := false, window := 0 } } }

/-- A GFP frame on the port that serves a packet tributary takes the step of frame delineation (R217). -/
theorem gfpFrameReceive_steps {p : Fin 48} {w : Nat} {s : State} (f : GfpFrame) (hwork : workOf s p.val = some w)
    (hslots : rd s (frS w) FrStatus.PKT_SLOTS ≠ 0) (hup : adminUp s w = true) : exec (.gfpFrameReceive p f) s = .next (gfpStep w f s) := by
  show execGfpFrameReceive p f s = _
  simp [execGfpFrameReceive, hwork, hslots, hup]

/-- With EN 0 the port sorts the frame by the header that it arrived with (R236): row 6 of R182 takes it, and nothing else happens. -/
theorem taggedClient_diverted : gfpStep 2 taggedClient bfdFramedPort = divertBfd 2 bfdFramedPort := by decide +kernel

/-- Row 6 counts nothing while the service has room. -/
theorem rdWord_divertBfd {p : Nat} {s : State} (hroom : tabGet s.line.divertQ p 0 < 1024) (k : Key) :
    rdWord (divertBfd p s) k = rdWord s k := by
  unfold divertBfd
  simp only [Nat.not_le.mpr hroom, if_false]
  rfl

/-- Refutes O38: its last clause on GFP frames excludes the BFD frames that row 6 of R182 diverts by the window of the frame's content, which
is what it holds once a SecTAG is removed. But with EN 0 MSEC passes every frame unchanged (R236), and row 6 looks at the header that arrived:
for a frame with a SecTAG the window of the tag, of which no hypothesis speaks. Where that window is of a BFD frame, the frame goes to the
service and row 7 does not count it as the clause says. On a line EtherType 0x88E5 stands in that window, so that it is never of a BFD frame;
`LineFrame` does not tie the two together, and neither does the clause. -/
theorem not_framesAndDefects : ¬ Obligations.FramesAndDefects := by
  unfold Obligations.FramesAndDefects
  rintro ⟨-, -, hgfp, -⟩
  have hwork : workOf bfdFramedPort (2 : Fin 48).val = some 2 := by decide +kernel
  have hslots : rd bfdFramedPort (frS 2) FrStatus.PKT_SLOTS ≠ 0 := by decide +kernel
  have hup : adminUp bfdFramedPort 2 = true := by decide +kernel
  obtain ⟨-, -, -, -, hsync⟩ := hgfp 2 taggedClient 2 bfdFramedPort hwork hslots hup
  obtain ⟨-, -, -, -, hclient⟩ := hsync (by decide +kernel) rfl rfl
  obtain ⟨t, ht, hcount, -⟩ := hclient (by decide) rfl rfl rfl rfl (by decide +kernel) rfl rfl (by decide +kernel) (by decide +kernel)
    (by decide +kernel) (by decide +kernel) rfl rfl (by decide) (by decide +kernel) (by decide +kernel) (by decide) (by decide)
    (by decide +kernel) (by decide) rfl (by decide +kernel) (by decide +kernel) (by decide +kernel)
  obtain rfl := Host.Outcome.next.inj
    (((gfpFrameReceive_steps taggedClient hwork hslots hup).trans (congrArg _ taggedClient_diverted)).symm.trans ht)
  have hbefore : rdWord bfdFramedPort (Safety.counter .lpCtr 2 0) = 0 := by decide +kernel
  have hafter : rdWord (divertBfd 2 bfdFramedPort) (Safety.counter .lpCtr 2 0) = 0 :=
    (rdWord_divertBfd (by decide +kernel) _).trans hbefore
  have hone : rdWord (divertBfd 2 bfdFramedPort) (Safety.counter .lpCtr 2 0) = (rdWord bfdFramedPort (Safety.counter .lpCtr 2 0) + 1) % 2 ^ 64 :=
    hcount
  simp [hbefore, hafter] at hone

end Sys2Proof.Machine
end


section
/-! SA key slots (R252, R253, R255 to R258): what a slot holds once its new key is in or once it is EMPTY, the start of a change, and the end
of its drain. -/
namespace Sys2Proof.Machine

open Sys2Proof

@[simp] theorem saK_ty (n : Nat) : (saK n).ty = .saSlot := id rfl
@[simp] theorem cakK_ty (n : Nat) : (cakK n).ty = .cakSlot := id rfl
@[simp] theorem msS_ty : msS.ty = .msStatus := id rfl
@[simp] theorem mkaK_ty (p : Nat) : (mkaK p).ty = .mkaStatus := id rfl
@[simp] theorem msK_ty (p : Nat) : (msK p).ty = .msPort := id rfl

theorem Answered.msec {u t : State} {w : Waiting} {r : Bytes} (h : Safety.Answered [] u t w r) : t.msec = u.msec := by
  obtain ⟨-, -, hparts⟩ := h
  rw [hparts]

theorem Answered.drainsOf {u t : State} {w : Waiting} {r : Bytes} (h : Safety.Answered [] u t w r) (n : Nat) :
    drainsOf t n = drainsOf u n := by rw [Machine.drainsOf, Answered.msec h, Machine.drainsOf]

theorem done_eq_ok (c : Hdr) (s : State) : done c s = ok c [] s := rfl

/-! ## What a slot holds -/

/-- The object of a slot whose new key has taken effect (R252, R256). -/
def saWord (gen : Nat) (x : SaParams) (mka : Bool) : Nat :=
  let v := putF (putF 0 SaSlot.STATE saValid) SaSlot.GEN gen
  let v := putF (putF (putF v SaSlot.SUITE x.suite.toNat) SaSlot.DIR x.dir.toNat) SaSlot.PORT x.port.toNat
  let v := putF (putF v SaSlot.AN x.an.toNat) SaSlot.MKA (if mka then 1 else 0)
  putF (putF v SaSlot.SCI x.sci.toNat) SaSlot.PN x.initPn.toNat

/-- The key material that a write brings. -/
def saKeyOf (x : SaParams) : SaKey := ⟨x.key.toNat, x.salt.toNat, x.ssci.toNat, x.thresh.toNat⟩

theorem installSa_eq (n : Nat) (x : SaParams) (mka : Bool) (s : State) : installSa n x mka s =
    countSlots (wrWord (setKey n (some (saKeyOf x)) s) (saK n) (saWord (rd s (saK n) SaSlot.GEN + 1) x mka)) := rfl

theorem saWord_state (gen : Nat) (x : SaParams) (mka : Bool) : getF (saWord gen x mka) SaSlot.STATE = saValid := by
  simp [saWord, getF_put_apart, Fld.apart, saValid]

theorem saWord_gen (gen : Nat) (x : SaParams) (mka : Bool) : getF (saWord gen x mka) SaSlot.GEN = gen % 2 ^ 16 := by
  simp [saWord, getF_put_apart, Fld.apart]

theorem saWord_pn (gen : Nat) (x : SaParams) (mka : Bool) : getF (saWord gen x mka) SaSlot.PN = x.initPn.toNat := by
  rw [saWord, getF_put_self]
  exact Nat.mod_eq_of_lt x.initPn.isLt

section
variable {n : Nat} {s : State}

theorem rd_countSlots_saK (m : Nat) (f : Fld) (s : State) : rd (countSlots s) (saK m) f = rd s (saK m) f := rd_wr_ty _ _ _ _ _ _ (by simp)

theorem rd_installSa (x : SaParams) (mka : Bool) (f : Fld) :
    rd (installSa n x mka s) (saK n) f = getF (saWord (rd s (saK n) SaSlot.GEN + 1) x mka) f := by
  rw [installSa_eq, rd_countSlots_saK, rd_wrWord_self]

theorem installSa_kept (x : SaParams) (mka : Bool) : Safety.RegsKept [.saSlot, .msStatus] s (installSa n x mka s) :=
  RegsKept.trans (kept_wrWord (setKey n (some (saKeyOf x)) s) (saK n) _ _ (by simp)) (kept_wr _ _ _ _ _ (by simp))

theorem installSa_cmd (x : SaParams) (mka : Bool) : (installSa n x mka s).cmd = s.cmd := by
  rw [installSa_eq, countSlots, wr_cmd, wrWord_cmd, setKey]

theorem keys_installSa (x : SaParams) (mka : Bool) : tabGet? (installSa n x mka s).msec.keys n = some (saKeyOf x) := tabGet?_put_self ..

theorem rd_emptySa (f : Fld) : rd (emptySa n s) (saK n) f = getF (putF 0 SaSlot.GEN (rd s (saK n) SaSlot.GEN + 1)) f := by
  rw [emptySa, rd_countSlots_saK, rd_wrWord_self]

theorem emptySa_kept : Safety.RegsKept [.saSlot, .msStatus] s (emptySa n s) :=
  RegsKept.trans (kept_wrWord (setKey n none s) (saK n) _ _ (by simp)) (kept_wr _ _ _ _ _ (by simp))

theorem emptySa_cmd : (emptySa n s).cmd = s.cmd := by rw [emptySa, countSlots, wr_cmd, wrWord_cmd, setKey]

theorem keys_emptySa : tabGet? (emptySa n s).msec.keys n = none := tabGet?_del_self ..

theorem saState_setSa {st : Nat} (h : st < 256) : saState (setSa n st s) n = st :=
  (rd_countSlots_saK n _ _).trans ((rd_wr_self ..).trans (Nat.mod_eq_of_lt h))

theorem setSa_kept (st : Nat) : Safety.RegsKept [.saSlot, .msStatus] s (setSa n st s) :=
  RegsKept.trans (kept_wr _ _ _ _ _ (by simp)) (kept_wr _ _ _ _ _ (by simp))

@[simp] theorem drainsOf_setDrains (l : List Drain) : drainsOf (setDrains n l s) n = l := tabGet_set_self ..

end

/-! ## A change of a slot starts (R256, R258) -/

section
variable {n : Nat} {s : State}

theorem startDrains_none (fuel : Nat) (h : drainsOf s n = []) : startDrains fuel n s = s := by
  cases fuel with
  | zero => rfl
  | succ fuel => simp only [startDrains, h]

/-- A slot in use drains first. -/
theorem startDrains_drains {d : Drain} {rest : List Drain} (fuel : Nat) (h : drainsOf s n = d :: rest) (hs : saState s n ≠ saEmpty) :
    startDrains (fuel + 1) n s = setSa n (if d.write.isSome then saPaused else saErasing) s := by
  simp only [startDrains, h, if_neg hs]

/-- A write of an EMPTY slot ends at once. -/
theorem startDrains_writes {c : Option Hdr} {x : SaParams} {mka : Bool} {rest : List Drain} (fuel : Nat)
    (h : drainsOf s n = ⟨c, some x, mka⟩ :: rest) (hs : saState s n = saEmpty) :
    startDrains (fuel + 1) n s = startDrains fuel n (endDrain n ⟨c, some x, mka⟩ (setDrains n rest s)) := by
  simp only [startDrains, h, if_pos hs]

/-- So does the erasure of one, which leaves the slot as it is. -/
theorem startDrains_erases {c : Hdr} {mka : Bool} {rest : List Drain} (fuel : Nat)
    (h : drainsOf s n = ⟨some c, none, mka⟩ :: rest) (hs : saState s n = saEmpty) :
    startDrains (fuel + 1) n s = startDrains fuel n (done c (setDrains n rest s)) := by
  simp only [startDrains, h, if_pos hs]

end

/-- A change of a slot waits, its command accepted. -/
def slotAsked (n : Nat) (d : Drain) (w : Waiting) (s : State) : State :=
  { setDrains n [d] s with cmd := { s.cmd with waiting := [{ w with phase := .started 0x3A }] } }

section
variable {c : Hdr} {w : Waiting} {n : Nat} {d : Drain} {s : State} {op plen : Nat}

theorem changeSlot_asked (ht : Safety.Turn s c w op accKeys plen 0x3A) (hd : d.hdr = some c) (hl : drainsOf s n = []) :
    changeSlot n d s = startDrains 2 n (slotAsked n d w s) := by
  have hphase : defer c 0x3A (setDrains n [d] s) = slotAsked n d w s :=
    setPhase_only (s := setDrains n [d] s) _ ht.only ht.mine ht.queued
  simp only [changeSlot, hl, hd, List.nil_append, hphase, List.isEmpty_nil, if_true]

@[simp] theorem drainsOf_slotAsked : drainsOf (slotAsked n d w s) n = [d] := drainsOf_setDrains [d]
theorem rdWord_slotAsked (k : Key) : rdWord (slotAsked n d w s) k = rdWord s k := rfl

/-- A slot in use is PAUSED for a write, ERASING for an erasure; nothing is answered yet (R256, R257). -/
theorem changeSlot_drains (ht : Safety.Turn s c w op accKeys plen 0x3A) (hd : d.hdr = some c) (hl : drainsOf s n = [])
    (hs : saState s n ≠ saEmpty) : changeSlot n d s = setSa n (if d.write.isSome then saPaused else saErasing) (slotAsked n d w s) := by
  rw [changeSlot_asked ht hd hl, startDrains_drains 1 drainsOf_slotAsked hs]

theorem setSa_slotAsked (st : Nat) (h : st < 256) (t : State) (ht : setSa n st (slotAsked n d w s) = t) :
    saState t n = st ∧ drainsOf t n = [d] ∧ t.out = s.out ∧ t.cmd.waiting = [{ w with phase := .started 0x3A }] ∧
      t.msec.keys = s.msec.keys ∧ Safety.RegsKept [.saSlot, .msStatus] s t := by
  subst ht
  exact ⟨saState_setSa h, drainsOf_slotAsked (w := w), rfl, rfl, rfl, kept_from (setSa_kept st) fun k _ => rdWord_slotAsked k⟩

end

/-! ## A change of a slot ends (R256, R257) -/

/-- A command that has been accepted and waits for a slot, the only one; its session's stream is not near its end. -/
structure AwaitsSlot (s : State) (c : Hdr) (w : Waiting) (op : Nat) : Prop where
  only   : s.cmd.waiting = [w]
  mine   : w.hdr = c
  begun  : w.phase = .started 0x3A
  opcode : w.op = op
  stream : nextSeqOf s c.sid.val < 2 ^ 64 - 4096

theorem AwaitsSlot.ofTurn {s : State} {c : Hdr} {w : Waiting} {op plen n : Nat} {d : Drain} (h : Safety.Turn s c w op accKeys plen 0x3A)
    (l : List Drain) : AwaitsSlot (setDrains n l (slotAsked n d w s)) c { w with phase := .started 0x3A } op :=
  ⟨rfl, h.mine, rfl, h.opcode, h.stream⟩

/-- Its reply goes when the change has ended. -/
theorem AwaitsSlot.answered {s u : State} {c : Hdr} {w : Waiting} {op : Nat} {r : Bytes} (h : AwaitsSlot s c w op) (ho : op ≠ 0x0305)
    (hr : r.length ≤ 8168) (hcmd : u.cmd = s.cmd) (hk : Safety.RegsKept [.saSlot, .msStatus] s u) : Safety.Answered [] u (ok c r u) w r := by
  have hseq : nextSeqOf u c.sid.val = nextSeqOf s c.sid.val := RegsKept.rd hk (by simp [sessKey]) _
  exact ok_answered_undone (hcmd ▸ h.only) h.mine (by rw [h.begun]; nofun) (h.opcode ▸ ho)
    (one_fragment hr (hseq.trans_lt (h.stream.trans (by decide))))

/-- The result of a key write is a generation in four bytes (R256). -/
theorem length_genResult (g : Nat) : (toBytes 2 g ++ [0, 0]).length ≤ 8168 := by simp [length_toBytes]

/-- A write of a slot has ended: its new key is in under the next generation, and the reply has gone. -/
structure SlotWritten (n : Nat) (x : SaParams) (w : Waiting) (s t : State) : Prop where
  done   : Safety.Done t w (toBytes 2 ((rd s (saK n) SaSlot.GEN + 1) % 2 ^ 16) ++ [0, 0])
  state  : saState t n = saValid
  gen    : rd t (saK n) SaSlot.GEN = (rd s (saK n) SaSlot.GEN + 1) % 2 ^ 16
  pn     : rd t (saK n) SaSlot.PN = x.initPn.toNat
  key    : tabGet? t.msec.keys n = some (saKeyOf x)
  drains : drainsOf t n = drainsOf s n
  kept   : Safety.RegsKept [.saSlot, .msStatus, .sessStatus] s t

/-- An erasure of a slot has ended: it is EMPTY, its key material gone, and the reply has gone. -/
structure SlotErased (n : Nat) (w : Waiting) (s t : State) : Prop where
  done   : Safety.Done t w []
  state  : saState t n = saEmpty
  gen    : rd t (saK n) SaSlot.GEN = (rd s (saK n) SaSlot.GEN + 1) % 2 ^ 16
  key    : tabGet? t.msec.keys n = none
  drains : drainsOf t n = drainsOf s n
  kept   : Safety.RegsKept [.saSlot, .msStatus, .sessStatus] s t

section
variable {c : Hdr} {w : Waiting} {n : Nat} {s : State}

theorem endDrain_writes (x : SaParams) (h : AwaitsSlot s c w 0x0601) : SlotWritten n x w s (endDrain n ⟨some c, some x, false⟩ s) := by
  have hgen : rd (installSa n x false s) (saK n) SaSlot.GEN = (rd s (saK n) SaSlot.GEN + 1) % 2 ^ 16 := (rd_installSa ..).trans (saWord_gen ..)
  have ha : Safety.Answered [] (installSa n x false s) (endDrain n ⟨some c, some x, false⟩ s) w
      (toBytes 2 ((rd s (saK n) SaSlot.GEN + 1) % 2 ^ 16) ++ [0, 0]) := by
    rw [← hgen]
    exact h.answered (by decide) (length_genResult _) (installSa_cmd x false) (installSa_kept x false)
  have hsaw (f : Fld) : rd (endDrain n ⟨some c, some x, false⟩ s) (saK n) f = getF (saWord (rd s (saK n) SaSlot.GEN + 1) x false) f :=
    (Answered.rd ha (by simp) f).trans (rd_installSa ..)
  exact {
    done := ha.1
    state := (hsaw _).trans (saWord_state ..)
    gen := (hsaw _).trans (saWord_gen ..)
    pn := (hsaw _).trans (saWord_pn ..)
    key := (congrArg (fun m => tabGet? m.keys n) (Answered.msec ha)).trans (keys_installSa x false)
    drains := (Answered.drainsOf ha n).trans (BfdAside.drainsOf_installSa ..)
    kept := RegsKept.mono (Answered.kept ha (installSa_kept x false)) (by simp) }

theorem endDrain_erases (h : AwaitsSlot s c w 0x0602) : SlotErased n w s (endDrain n ⟨some c, none, false⟩ s) := by
  have ha : Safety.Answered [] (emptySa n s) (endDrain n ⟨some c, none, false⟩ s) w [] := h.answered (by decide) (by simp) emptySa_cmd emptySa_kept
  have hsaw (f : Fld) : rd (endDrain n ⟨some c, none, false⟩ s) (saK n) f = getF (putF 0 SaSlot.GEN (rd s (saK n) SaSlot.GEN + 1)) f :=
    (Answered.rd ha (by simp) f).trans (rd_emptySa ..)
  exact {
    done := ha.1
    state := (hsaw _).trans ((getF_put_apart _ _ (by decide)).trans (by decide))
    gen := (hsaw _).trans (getF_put_self ..)
    key := (congrArg (fun m => tabGet? m.keys n) (Answered.msec ha)).trans keys_emptySa
    drains := Answered.drainsOf ha n
    kept := RegsKept.mono (Answered.kept ha emptySa_kept) (by simp) }

end

/-! ## The end of a drain -/

theorem exec_slotDrainEnd (n : Fin 16384) (s : State) : exec (.slotDrainEnd n) s = execSlotDrainEnd n s := by rfl

/-- While a core works on a frame of the slot its drain goes on. -/
theorem slotDrainEnd_waits {n : Fin 16384} {s : State} (h : n.val ∈ atCores s) : exec (.slotDrainEnd n) s = .next s := by
  rw [exec_slotDrainEnd, execSlotDrainEnd]
  cases drainsOf s n.val with
  | nil => rfl
  | cons d rest => simp only [List.contains_iff_mem.mpr h, if_true]

/-- The only change of a slot ends with its drain. -/
theorem slotDrainEnd_ends {n : Fin 16384} {d : Drain} {s : State} (h : n.val ∉ atCores s) (hd : drainsOf s n.val = [d])
    (hnone : drainsOf (endDrain n.val d (setDrains n.val [] s)) n.val = []) :
    exec (.slotDrainEnd n) s = .next (endDrain n.val d (setDrains n.val [] s)) := by
  have hc : (atCores s).contains n.val = false := by simpa using h
  simp only [exec_slotDrainEnd, execSlotDrainEnd, hd, hc, Bool.false_eq_true, if_false, startDrains_none _ hnone]

section
variable {c : Hdr} {w : Waiting} {n : Fin 16384} {s : State}

theorem slotDrainEnd_writes {x : SaParams} (h : AwaitsSlot s c w 0x0601) (hcore : n.val ∉ atCores s)
    (hd : drainsOf s n.val = [⟨some c, some x, false⟩]) : Safety.Gives (.slotDrainEnd n) s fun t =>
      Safety.Done t w (toBytes 2 ((rd s (saK n.val) SaSlot.GEN + 1) % 2 ^ 16) ++ [0, 0]) ∧ saState t n.val = saValid ∧ drainsOf t n.val = [] ∧
        tabGet? t.msec.keys n.val = some (saKeyOf x) ∧ Safety.RegsKept [.saSlot, .msStatus, .sessStatus] s t := by
  have hwait : AwaitsSlot (setDrains n.val [] s) c w 0x0601 := ⟨h.only, h.mine, h.begun, h.opcode, h.stream⟩
  have hend := endDrain_writes (n := n.val) x hwait
  have hnone := hend.drains.trans (drainsOf_setDrains [])
  exact ⟨_, slotDrainEnd_ends hcore hd hnone, hend.done, hend.state, hnone, hend.key, hend.kept⟩

theorem slotDrainEnd_erases (h : AwaitsSlot s c w 0x0602) (hcore : n.val ∉ atCores s)
    (hd : drainsOf s n.val = [⟨some c, none, false⟩]) : Safety.Gives (.slotDrainEnd n) s fun t =>
      Safety.Done t w [] ∧ saState t n.val = saEmpty ∧ drainsOf t n.val = [] ∧ tabGet? t.msec.keys n.val = none ∧
        rd t (saK n.val) SaSlot.GEN = (rd s (saK n.val) SaSlot.GEN + 1) % 2 ^ 16 ∧
        Safety.RegsKept [.saSlot, .msStatus, .sessStatus] s t := by
  have hwait : AwaitsSlot (setDrains n.val [] s) c w 0x0602 := ⟨h.only, h.mine, h.begun, h.opcode, h.stream⟩
  have hend := endDrain_erases (n := n.val) hwait
  have hnone := hend.drains.trans (drainsOf_setDrains [])
  exact ⟨_, slotDrainEnd_ends hcore hd hnone, hend.done, hend.state, hnone, hend.key, hend.gen, hend.kept⟩

end

/-! ## The commands on SA slots -/

theorem exec_keySlotWriteSa (c : Hdr) (x : SaParams) (s : State) : exec (.keySlotWriteSa c x) s = execKeySlotWriteSa c x s := by rfl

theorem exec_keySlotErase (c : Hdr) (slot : BitVec 16) (cls res : BitVec 8) (s : State) :
    exec (.keySlotErase c slot cls res) s = execKeySlotErase c slot cls res s := by rfl

section
variable {c : Hdr} {w : Waiting} {s : State}

section
variable {x : SaParams} (ht : Safety.Turn s c w 0x0601 accKeys 88 0x3A) (hlen : x.paramLen = 88) (hres : x.resOk = true)
  (hdrbg : rd s msS MsStatus.DRBG_STATE ≠ 0) (hrange : saRange x = true) (hown : mkaOwner s x.slot.toNat = none) (htwin : saTwin s x = false)
  (hl : drainsOf s x.slot.toNat = [])
include ht hlen hres hdrbg hrange hown htwin

/-- A write of an SA slot that passes the checks of R253 and R255 changes it. -/
theorem keySlotWriteSa_changes : exec (.keySlotWriteSa c x) s = .next (changeSlot x.slot.toNat ⟨some c, some x, false⟩ s) := by
  have hplen := ht.length
  rw [exec_keySlotWriteSa, execKeySlotWriteSa]
  rw [hres, checked_pass (w := w) (hplen.symm ▸ ht) (by simp [hplen, hlen])]
  simp [need, hdrbg, hrange, hown, htwin]

include hl

theorem keySlotWriteSa_empty (hs : saState s x.slot.toNat = saEmpty) : Safety.Gives (.keySlotWriteSa c x) s (SlotWritten x.slot.toNat x w s) := by
  have hend : SlotWritten x.slot.toNat x w s (endDrain x.slot.toNat ⟨some c, some x, false⟩
      (setDrains x.slot.toNat [] (slotAsked x.slot.toNat ⟨some c, some x, false⟩ w s))) := by
    have h := endDrain_writes (n := x.slot.toNat) x (AwaitsSlot.ofTurn ht [] (n := x.slot.toNat) (d := ⟨some c, some x, false⟩))
    exact ⟨h.done, h.state, h.gen, h.pn, h.key, h.drains.trans ((drainsOf_setDrains []).trans hl.symm), h.kept⟩
  refine ⟨_, keySlotWriteSa_changes ht hlen hres hdrbg hrange hown htwin, ?_⟩
  rwa [changeSlot_asked ht rfl hl, startDrains_writes 1 drainsOf_slotAsked hs, startDrains_none _ (hend.drains.trans hl)]

theorem keySlotWriteSa_inUse (hs : saState s x.slot.toNat ≠ saEmpty) : Safety.Gives (.keySlotWriteSa c x) s fun t =>
      saState t x.slot.toNat = saPaused ∧ drainsOf t x.slot.toNat = [⟨some c, some x, false⟩] ∧ t.out = s.out ∧
        t.cmd.waiting = [{ w with phase := .started 0x3A }] ∧ t.msec.keys = s.msec.keys ∧ Safety.RegsKept [.saSlot, .msStatus] s t := by
  refine ⟨_, keySlotWriteSa_changes ht hlen hres hdrbg hrange hown htwin, ?_⟩
  rw [changeSlot_drains ht rfl hl hs]
  exact setSa_slotAsked saPaused (by decide) _ rfl

end

section
variable {slot : BitVec 16} (ht : Safety.Turn s c w 0x0602 accKeys 4 0x3A) (hslot : slot.toNat < 16384) (hown : mkaOwner s slot.toNat = none)
  (hl : drainsOf s slot.toNat = [])
include ht hslot hown

theorem keySlotErase_changes : exec (.keySlotErase c slot 1 0) s = .next (changeSlot slot.toNat ⟨some c, none, false⟩ s) := by
  have hplen := ht.length
  rw [exec_keySlotErase, execKeySlotErase]
  dsimp only
  rw [beq_self_eq_true, checked_pass (w := w) (hplen.symm ▸ ht) (by simp [hplen])]
  simp [need, hslot, hown]

include hl

theorem keySlotErase_inUse (hs : saState s slot.toNat ≠ saEmpty) : Safety.Gives (.keySlotErase c slot 1 0) s fun t =>
      saState t slot.toNat = saErasing ∧ drainsOf t slot.toNat = [⟨some c, none, false⟩] ∧ t.out = s.out ∧
        t.cmd.waiting = [{ w with phase := .started 0x3A }] ∧ Safety.RegsKept [.saSlot, .msStatus] s t := by
  refine ⟨_, keySlotErase_changes ht hslot hown, ?_⟩
  rw [changeSlot_drains ht rfl hl hs]
  obtain ⟨hstate, hdrains, hout, hwait, -, hkept⟩ :=
    setSa_slotAsked (n := slot.toNat) (d := ⟨some c, none, false⟩) (w := w) (s := s) saErasing (by decide) _ rfl
  exact ⟨hstate, hdrains, hout, hwait, hkept⟩

/-- An EMPTY slot stays as it is (R257). -/
theorem keySlotErase_empty (hs : saState s slot.toNat = saEmpty) : Safety.Gives (.keySlotErase c slot 1 0) s fun t =>
      Safety.Done t w [] ∧ Safety.RegsKept [.sessStatus] s t := by
  have hwait := AwaitsSlot.ofTurn ht [] (n := slot.toNat) (d := ⟨some c, none, false⟩)
  have ha := hwait.answered (r := []) (by decide) (by simp) rfl (RegsKept.refl _ _)
  have hnone := (Answered.drainsOf ha slot.toNat).trans (drainsOf_setDrains [])
  refine ⟨_, keySlotErase_changes ht hslot hown, ?_⟩
  rw [changeSlot_asked ht rfl hl, startDrains_erases 1 drainsOf_slotAsked hs, done_eq_ok, startDrains_none _ hnone]
  exact ⟨ha.1, Answered.kept ha fun _ _ => rfl⟩

end

end

end Sys2Proof.Machine
end

section
/-! CAK slots (R254 to R257): what the MKA service makes of a change of its participants (R261), and the write and the erasure of a slot. -/
namespace Sys2Proof.Machine

open Sys2Proof

/-! ## What the service leaves (R261, R267) -/

/-- A state that the service of a port leads to from another: no command has been touched, the CAKs and their generations are as they were, and
objects have changed only in its status and among the SA slots. -/
structure MkaMoves (a s : State) : Prop where
  cmd    : s.cmd = a.cmd
  caks   : s.msec.caks = a.msec.caks
  cakGen : s.msec.cakGen = a.msec.cakGen
  kept   : Safety.RegsKept [.msStatus, .mkaStatus, .saSlot] a s

namespace MkaMoves

variable {a s t : State}

theorem refl (a : State) : MkaMoves a a := ⟨rfl, rfl, rfl, RegsKept.refl _ a⟩

/-- An update of MSEC's tables but those of the CAKs, and of what the device draws. -/
theorem parts {m : Msec} {free : Nat} (h : MkaMoves a s) (hc : m.caks = s.msec.caks := by rfl) (hg : m.cakGen = s.msec.cakGen := by rfl) :
    MkaMoves a { s with msec := m, free := free } :=
  ⟨h.cmd, hc.trans h.caks, hg.trans h.cakGen, h.kept⟩

theorem wrWord {k : Key} {v : Nat} (h : MkaMoves a s) (hk : k.ty ∈ [ObjTy.msStatus, .mkaStatus, .saSlot] := by simp) :
    MkaMoves a (wrWord s k v) :=
  ⟨h.cmd, h.caks, h.cakGen, RegsKept.trans h.kept (kept_wrWord s k v _ hk)⟩

theorem setSa {n st : Nat} (h : MkaMoves a s) : MkaMoves a (setSa n st s) := .wrWord (.wrWord h)

theorem installSa {n : Nat} {w : SaParams} {mka : Bool} (h : MkaMoves a s) : MkaMoves a (installSa n w mka s) := by
  have hkey : MkaMoves a (setKey n (some (saKeyOf w)) s) := h.parts
  rw [installSa_eq, countSlots]
  exact .wrWord (.wrWord hkey)

theorem setDrains {n : Nat} {l : List Drain} (h : MkaMoves a s) : MkaMoves a (setDrains n l s) := h.parts

/-- A write of one of the service's own slots, which no command waits for. -/
theorem changeSlot {n : Nat} {w : SaParams} {mka : Bool} (h : MkaMoves a s) : MkaMoves a (changeSlot n ⟨none, some w, mka⟩ s) := by
  unfold Machine.changeSlot
  cases hl : drainsOf s n with
  | cons d rest => exact h.setDrains
  | nil =>
    have hfirst : drainsOf (Machine.setDrains n [⟨none, some w, mka⟩] s) n = [⟨none, some w, mka⟩] := drainsOf_setDrains _
    simp only [List.nil_append, List.isEmpty_nil, if_true]
    by_cases hs : saState (Machine.setDrains n [⟨none, some w, mka⟩] s) n = saEmpty
    · have hnone (u : State) : drainsOf (endDrain n ⟨none, some w, mka⟩ (Machine.setDrains n [] u)) n = [] :=
        (BfdAside.drainsOf_installSa ..).trans (drainsOf_setDrains [])
      rw [startDrains_writes 1 hfirst hs, startDrains_none _ (hnone _)]
      exact h.setDrains.setDrains.installSa
    · rw [startDrains_drains 1 hfirst hs]
      exact h.setDrains.setSa

theorem showMka {p : Nat} (h : MkaMoves a s) : MkaMoves a (showMka p s) := .wrWord h

theorem installSak {p key suite : Nat} (h : MkaMoves a s) : MkaMoves a (installSak p key suite s) := by
  have hnumber : MkaMoves a (mapF s (mkaK p) MkaStatus.KEY_NUMBER (· + 1)) := .wrWord h
  exact .showMka (.changeSlot hnumber.parts)

theorem distribute {p : Nat} (h : MkaMoves a s) : MkaMoves a (distribute p s) := by
  unfold Machine.distribute
  split
  · exact h
  · split
    · exact .installSak h.parts
    · exact h

theorem principalMoved {p : Nat} {was : Option Nat} (h : MkaMoves a s) : MkaMoves a (principalMoved p was s) := by
  unfold Machine.principalMoved
  dsimp only
  split
  · exact h.showMka
  · exact h.showMka.distribute

theorem startMka {order c : Nat} (h : MkaMoves a s) : MkaMoves a (startMka order c s) := h.parts

end MkaMoves

/-! ## The slot's object and its generation -/

/-- A CAK slot holds a word, and CAKS_VALID follows. -/
def cakWritten (n v : Nat) (s : State) : State := countCaks (wrWord s (cakK n) v)

section
variable {n v : Nat} {s : State}

theorem rd_cakWritten (f : Fld) : rd (cakWritten n v s) (cakK n) f = getF v f :=
  (rd_wr_ty _ _ _ _ _ _ (by simp)).trans (rd_wrWord_self ..)

theorem cakWritten_kept : Safety.RegsKept [.cakSlot, .msStatus] s (cakWritten n v s) :=
  RegsKept.trans (kept_wrWord s (cakK n) v _ (by simp)) (kept_wr _ _ _ _ _ (by simp))

theorem cakWritten_cmd : (cakWritten n v s).cmd = s.cmd := by rw [cakWritten, countCaks, wr_cmd, wrWord_cmd]

theorem cakWritten_msec : (cakWritten n v s).msec = s.msec := by rw [cakWritten, countCaks, wr_msec, wrWord_msec]

end

/-- The object of a CAK slot that has been written. -/
def cakWord (x : CakParams) : Nat := putF (putF (putF 0 CakSlot.CKN x.ckn.toNat) CakSlot.CKN_LEN x.cknLen.toNat) CakSlot.STATE 1

theorem cakWord_state (x : CakParams) : getF (cakWord x) CakSlot.STATE = 1 := getF_put_self ..

theorem cakWord_ckn (x : CakParams) : getF (cakWord x) CakSlot.CKN = x.ckn.toNat := by
  rw [cakWord, getF_put_apart _ _ (by decide), getF_put_apart _ _ (by decide), getF_put_self]
  exact Nat.mod_eq_of_lt x.ckn.isLt

/-- The generation that a CAK slot's next change gives it (R256). -/
def nextCak (s : State) (n : Nat) : Nat := (tabGet s.msec.cakGen n 0 + 1) % 2 ^ 16

/-! ## The commands on CAK slots -/

/-- Nothing but the command's own slot and what the service makes of it has changed when the command is answered. -/
theorem cak_answered {s u v : State} {c : Hdr} {w : Waiting} {op plen n x : Nat} {r : Bytes} (ht : Safety.Turn s c w op accKeys plen 0x3A)
    (ho : op ≠ 0x0305) (hr : r.length ≤ 8168) (hcmd : u.cmd = (cakWritten n x s).cmd)
    (hreg : ∀ k, rdWord u k = rdWord (cakWritten n x s) k) (hm : MkaMoves u v) :
    Safety.Done (ok c r v) w r ∧ (∀ f, rd (ok c r v) (cakK n) f = getF x f) ∧ (ok c r v).msec.caks = u.msec.caks ∧
      Safety.RegsKept [.cakSlot, .msStatus, .mkaStatus, .saSlot, .sessStatus] s (ok c r v) := by
  have hv : Safety.RegsKept [.cakSlot, .msStatus, .mkaStatus, .saSlot] s v :=
    RegsKept.trans (RegsKept.mono (kept_from (RegsKept.refl _ u) fun k hk => (hreg k).trans (cakWritten_kept k hk)) (by simp))
      (RegsKept.mono hm.kept (by simp))
  have hseq : nextSeqOf v c.sid.val = nextSeqOf s c.sid.val := RegsKept.rd hv (by simp [sessKey]) _
  have hstream : nextSeqOf v c.sid.val < 2 ^ 64 - 1 := hseq.trans_lt (Nat.lt_of_lt_of_le ht.stream (by decide))
  have hwait : v.cmd.waiting = [w] := by rw [hm.cmd, hcmd, cakWritten_cmd, ht.only]
  have ha := ok_answered hwait ht.mine ht.queued (ht.opcode ▸ ho) (one_fragment hr hstream)
  refine ⟨ha.1, fun f => ?_, by rw [Answered.msec ha, hm.caks], RegsKept.mono (Answered.kept ha hv) (by simp)⟩
  rw [Answered.rd ha (by simp) f, RegsKept.rd hm.kept (by simp) f, ← rd_cakWritten (s := s) f, rd, rd, hreg]

theorem exec_keySlotWriteCak (c : Hdr) (x : CakParams) (s : State) : exec (.keySlotWriteCak c x) s = execKeySlotWriteCak c x s := by rfl

/-- The key material of a slot comes with a write, under the next generation. -/
def cakKeyIn (n cak : Nat) (s : State) : State :=
  nextCakGen n { s with msec := { s.msec with caks := tabPut s.msec.caks n cak, cakN := s.msec.cakN + 1 } }

/-- The key material of a slot, and its participant, go with an erasure. -/
def cakKeyGone (n : Nat) (s : State) : State :=
  nextCakGen n { s with msec := { s.msec with caks := tabDel s.msec.caks n, mka := tabDel s.msec.mka n } }

theorem cakKeyIn_cmd (n cak : Nat) (s : State) : (cakKeyIn n cak s).cmd = s.cmd := rfl
theorem rdWord_cakKeyIn (n cak : Nat) (s : State) (k : Key) : rdWord (cakKeyIn n cak s) k = rdWord s k := rfl
theorem caks_cakKeyIn (n cak : Nat) (s : State) : tabGet? (cakKeyIn n cak s).msec.caks n = some cak := tabGet?_put_self ..
theorem cakKeyGone_cmd (n : Nat) (s : State) : (cakKeyGone n s).cmd = s.cmd := rfl
theorem rdWord_cakKeyGone (n : Nat) (s : State) (k : Key) : rdWord (cakKeyGone n s) k = rdWord s k := rfl
theorem caks_cakKeyGone (n : Nat) (s : State) : tabGet? (cakKeyGone n s).msec.caks n = none := tabGet?_del_self ..

/-- A write has taken effect on its slot, before the service follows. -/
def cakIn (x : CakParams) (s : State) : State := cakKeyIn x.slot.toNat x.cak.toNat (cakWritten x.slot.toNat (cakWord x) s)

theorem cakGen_cakIn (x : CakParams) (s : State) : tabGet (cakIn x s).msec.cakGen x.slot.toNat 0 = nextCak s x.slot.toNat := by
  rw [nextCak, ← cakWritten_msec (n := x.slot.toNat) (v := cakWord x) (s := s)]
  exact tabGet_put_self ..

/-- The service follows a write: the slot's participant starts anew. -/
def cakFollowed (x : CakParams) (s : State) : State :=
  principalMoved (x.slot.toNat / 4) (principalOf s (x.slot.toNat / 4)) (startMka (cakIn x s).msec.cakN x.slot.toNat (cakIn x s))

theorem cakFollowed_moves (x : CakParams) (s : State) : MkaMoves (cakIn x s) (cakFollowed x s) := .principalMoved (.startMka (.refl _))

section
variable {c : Hdr} {w : Waiting} {s : State}

theorem keySlotWriteCak_answers {x : CakParams} (ht : Safety.Turn s c w 0x0601 accKeys 88 0x3A) (hlen : x.paramLen = 88) (hres : x.resOk = true)
    (hdrbg : rd s msS MsStatus.DRBG_STATE ≠ 0) (hrange : cakRange x = true) :
    exec (.keySlotWriteCak c x) s = .next (ok c (toBytes 2 (nextCak s x.slot.toNat) ++ [0, 0]) (cakFollowed x s)) := by
  have hplen := ht.length
  rw [exec_keySlotWriteCak, execKeySlotWriteCak, hres, checked_pass (w := w) (hplen.symm ▸ ht) (by simp [hplen, hlen]),
    ← cakGen_cakIn x s, ← (cakFollowed_moves x s).cakGen]
  simp only [need, bne_iff_ne, ne_eq, hdrbg, not_false_eq_true, hrange, if_true]
  rfl

/-- A CAK slot is VALID at once with its CKN and its key, under the next generation (R254, R256). -/
theorem keySlotWriteCak_valid {x : CakParams} (ht : Safety.Turn s c w 0x0601 accKeys 88 0x3A) (hlen : x.paramLen = 88) (hres : x.resOk = true)
    (hdrbg : rd s msS MsStatus.DRBG_STATE ≠ 0) (hrange : cakRange x = true) : Safety.Gives (.keySlotWriteCak c x) s fun t =>
      Safety.Done t w (toBytes 2 (nextCak s x.slot.toNat) ++ [0, 0]) ∧ rd t (cakK x.slot.toNat) CakSlot.STATE = 1 ∧
        rd t (cakK x.slot.toNat) CakSlot.CKN = x.ckn.toNat ∧ tabGet? t.msec.caks x.slot.toNat = some x.cak.toNat ∧
        Safety.RegsKept [.cakSlot, .msStatus, .mkaStatus, .saSlot, .sessStatus] s t := by
  obtain ⟨hdone, hcak, hcaks, hkept⟩ := cak_answered (n := x.slot.toNat) (x := cakWord x) ht (by decide) (length_genResult _)
    (cakKeyIn_cmd ..) (rdWord_cakKeyIn _ _ _) (cakFollowed_moves x s)
  exact ⟨_, keySlotWriteCak_answers ht hlen hres hdrbg hrange, hdone, (hcak _).trans (cakWord_state x), (hcak _).trans (cakWord_ckn x),
    hcaks ▸ caks_cakKeyIn .., hkept⟩

/-- An erasure has taken effect on its slot, before the service follows. -/
def cakOut (n : Nat) (s : State) : State := cakKeyGone n (cakWritten n 0 s)

/-- A CAK slot in use is EMPTY at once, its key material gone (R257). -/
theorem keySlotErase_cak {slot : BitVec 16} (ht : Safety.Turn s c w 0x0602 accKeys 4 0x3A) (hslot : slot.toNat < 192)
    (hs : rd s (cakK slot.toNat) CakSlot.STATE = 1) : Safety.Gives (.keySlotErase c slot 2 0) s fun t =>
      Safety.Done t w [] ∧ rd t (cakK slot.toNat) CakSlot.STATE = 0 ∧ tabGet? t.msec.caks slot.toNat = none ∧
        Safety.RegsKept [.cakSlot, .msStatus, .mkaStatus, .saSlot, .sessStatus] s t := by
  have hgo : exec (.keySlotErase c slot 2 0) s =
      .next (done c (principalMoved (slot.toNat / 4) (principalOf s (slot.toNat / 4)) (cakOut slot.toNat s))) := by
    have hplen := ht.length
    have hcls : ((2 : BitVec 8) == 1 && decide (slot.toNat < 16384) || (2 : BitVec 8) == 2 && decide (slot.toNat < 192)) = true := by
      simp [hslot]
    rw [exec_keySlotErase, execKeySlotErase]
    dsimp only
    rw [beq_self_eq_true, checked_pass (w := w) (hplen.symm ▸ ht) (by simp [hplen])]
    simp only [need, hcls, show ¬ (2 : BitVec 8) = 1 by decide, hs, one_ne_zero, if_true, if_false]
    rfl
  have hm : MkaMoves (cakOut slot.toNat s) (principalMoved (slot.toNat / 4) (principalOf s (slot.toNat / 4)) (cakOut slot.toNat s)) :=
    .principalMoved (.refl _)
  obtain ⟨hdone, hcak, hcaks, hkept⟩ := cak_answered (r := []) ht (by decide) (Nat.zero_le _) (cakKeyGone_cmd ..) (rdWord_cakKeyGone _ _) hm
  exact ⟨_, hgo, hdone, (hcak _).trans (by decide), hcaks ▸ caks_cakKeyGone .., hkept⟩

end

end Sys2Proof.Machine
end

section
/-! The DRBG (R250, R251): its seeding, a reseed, a failed health test and the recovery from it. -/
namespace Sys2Proof.Machine

open Sys2Proof

theorem exec_drbgSeedComplete (good : Bool) (s : State) : exec (.drbgSeedComplete good) s = execDrbgSeedComplete good s := by rfl
theorem exec_drbgReseed (good : Bool) (s : State) : exec (.drbgReseed good) s = execDrbgReseed good s := by rfl
theorem exec_drbgRetry (good : Bool) (s : State) : exec (.drbgRetry good) s = execDrbgRetry good s := by rfl

/-- The state of the DRBG in a state of the block. -/
def drbg (s : State) : Nat := rd s msS MsStatus.DRBG_STATE

theorem drbg_wr (s : State) {v : Nat} (h : v < 256) : drbg (wr s msS MsStatus.DRBG_STATE v) = v := (rd_wr_self ..).trans (Nat.mod_eq_of_lt h)

/-! ## A failed health test (R251) -/

section
variable {s : State}

theorem entropyFails_kept : Safety.RegsKept (.msStatus :: .msGctr :: Safety.raising) s (entropyFails s) :=
  RegsKept.trans (kept_wr s msS MsStatus.DRBG_STATE 2 _ (by simp)) (RegsKept.trans
    (RegsKept.mono (kept_bump .msGctr 1 0 1 _) fun _ => by simp only [List.mem_cons, mem_telling, mem_raising]; tauto)
    (RegsKept.mono (kept_raiseAt _ _ _ _ _) fun _ h => List.mem_cons_of_mem _ (List.mem_cons_of_mem _ h)))

theorem drbg_entropyFails : drbg (entropyFails s) = 2 := by
  have hraised := RegsKept.rd (kept_raiseAt 0x3A 2 3 msS (bump .msGctr 1 0 1 (wr s msS MsStatus.DRBG_STATE 2))) (k := msS) (by simp)
    MsStatus.DRBG_STATE
  exact hraised.trans ((rd_bump_ty _ _ _ _ _ _ _ (by simp) (by simp)).trans (drbg_wr s (by decide)))

theorem entropyFails_counted : Safety.Counted .msGctr 1 0 1 s (entropyFails s) := by
  have hcount : Safety.Counted .msGctr 1 0 1 s (bump .msGctr 1 0 1 (wr s msS MsStatus.DRBG_STATE 2)) :=
    counted_from (by simp) (rdWord_wr_ty _ _ _ _ _ (by simp))
  exact (kept_raiseAt 0x3A 2 3 msS (bump .msGctr 1 0 1 (wr s msS MsStatus.DRBG_STATE 2)) _ (by simp)).trans hcount

end

/-! ## What the MKA service shows (R250, R267) -/

theorem showMka_kept (p : Nat) (s : State) : Safety.RegsKept [.mkaStatus] s (showMka p s) := kept_wrWord s (mkaK p) _ _ (by simp)

theorem forAll_showMka_kept (l : List Nat) (s : State) : Safety.RegsKept [.mkaStatus] s (forAll l showMka s) :=
  forAll_keeps l showMka (Safety.RegsKept [.mkaStatus] s) (fun p u h => RegsKept.trans h (showMka_kept p u)) s (RegsKept.refl _ s)

theorem forAll_showMka_parts (l : List Nat) (s : State) : ∃ r, forAll l showMka s = { s with regs := r } :=
  forAll_keeps l showMka (fun u => ∃ r, u = { s with regs := r }) (fun p u h => by obtain ⟨r, rfl⟩ := h; exact ⟨_, rfl⟩) s ⟨s.regs, rfl⟩

/-! ## The commands -/

section
variable {s : State}

theorem drbgSeedComplete_shows (good : Bool) (h : drbg s = 0) : exec (.drbgSeedComplete good) s =
    .next (forAll (ports.filter fun p => flag s (msK p) MsPort.MKA_EN) showMka
      (if good then wr s msS MsStatus.DRBG_STATE 1 else entropyFails s)) := by
  have h0 : ¬ rd s msS MsStatus.DRBG_STATE ≠ 0 := fun hn => hn h
  rw [exec_drbgSeedComplete, execDrbgSeedComplete, if_neg h0]

theorem drbgSeedComplete_good (h : drbg s = 0) : Safety.Gives (.drbgSeedComplete true) s fun t =>
      drbg t = 1 ∧ t = { s with regs := t.regs } ∧ Safety.RegsKept [.msStatus, .mkaStatus] s t := by
  refine ⟨_, drbgSeedComplete_shows true h, ?_⟩
  rw [if_pos rfl]
  have hkept := forAll_showMka_kept (ports.filter fun p => flag s (msK p) MsPort.MKA_EN) (wr s msS MsStatus.DRBG_STATE 1)
  obtain ⟨r, hparts⟩ := forAll_showMka_parts (ports.filter fun p => flag s (msK p) MsPort.MKA_EN) (wr s msS MsStatus.DRBG_STATE 1)
  exact ⟨(RegsKept.rd hkept (by simp) _).trans (drbg_wr s (by decide)), by rw [hparts]; rfl,
    RegsKept.trans (kept_wr s msS _ _ _ (by simp)) (RegsKept.mono hkept (by simp))⟩

theorem drbgSeedComplete_bad (h : drbg s = 0) : Safety.Gives (.drbgSeedComplete false) s fun t =>
      drbg t = 2 ∧ Safety.Counted .msGctr 1 0 1 s t ∧ Safety.RegsKept (.msStatus :: .mkaStatus :: .msGctr :: Safety.raising) s t := by
  refine ⟨_, drbgSeedComplete_shows false h, ?_⟩
  rw [if_neg Bool.false_ne_true]
  have hkept := forAll_showMka_kept (ports.filter fun p => flag s (msK p) MsPort.MKA_EN) (entropyFails s)
  refine ⟨(RegsKept.rd hkept (by simp) _).trans drbg_entropyFails, (hkept _ (by simp)).trans entropyFails_counted,
    RegsKept.trans (RegsKept.mono entropyFails_kept fun _ => ?_) (RegsKept.mono hkept (by simp))⟩
  simp only [List.mem_cons]
  tauto

theorem drbgReseed_good (h : drbg s = 1) : Safety.Gives (.drbgReseed true) s fun t =>
      Safety.Counted .msGctr 0 0 1 s t ∧ Safety.Told s t ∧ Safety.RegsKept (.msGctr :: Safety.telling) s t := by
  have h1 : ¬ rd s msS MsStatus.DRBG_STATE ≠ 1 := fun hn => hn h
  refine ⟨bump .msGctr 0 0 1 s, ?_, counted_bump _ _ _ _ _ (by simp), told_bump .., kept_bump _ _ _ _ _⟩
  rw [exec_drbgReseed, execDrbgReseed, if_neg h1, if_pos rfl]

theorem drbgReseed_bad (h : drbg s = 1) : Safety.Gives (.drbgReseed false) s fun t =>
      drbg t = 2 ∧ Safety.Counted .msGctr 1 0 1 s t ∧ Safety.RegsKept (.msStatus :: .msGctr :: Safety.raising) s t := by
  have h1 : ¬ rd s msS MsStatus.DRBG_STATE ≠ 1 := fun hn => hn h
  refine ⟨entropyFails s, ?_, drbg_entropyFails, entropyFails_counted, entropyFails_kept⟩
  rw [exec_drbgReseed, execDrbgReseed, if_neg h1, if_neg Bool.false_ne_true]

theorem drbgRetry_good (h : drbg s = 2) : Safety.Gives (.drbgRetry true) s fun t =>
      drbg t = 1 ∧ Safety.Counted .msGctr 0 0 1 s t ∧ Safety.RegsKept (.msStatus :: .msGctr :: Safety.telling) s t := by
  have h2 : ¬ rd s msS MsStatus.DRBG_STATE ≠ 2 := fun hn => hn h
  refine ⟨bump .msGctr 0 0 1 (wr s msS MsStatus.DRBG_STATE 1), ?_, ?_, counted_from (by simp) (rdWord_wr_ty _ _ _ _ _ (by simp)),
    RegsKept.trans (kept_wr s msS _ _ _ (by simp)) (RegsKept.mono (kept_bump _ _ _ _ _) fun _ => List.mem_cons_of_mem _)⟩
  · rw [exec_drbgRetry, execDrbgRetry, if_neg h2, if_pos rfl]
  · exact (rd_bump_ty _ _ _ _ _ _ _ (by simp) (by simp)).trans (drbg_wr s (by decide))

theorem drbgRetry_bad (h : drbg s = 2) : Safety.Gives (.drbgRetry false) s fun t =>
      drbg t = 2 ∧ Safety.Counted .msGctr 1 0 1 s t ∧ Safety.RegsKept (.msStatus :: .msGctr :: Safety.raising) s t := by
  have h2 : ¬ rd s msS MsStatus.DRBG_STATE ≠ 2 := fun hn => hn h
  refine ⟨entropyFails s, ?_, drbg_entropyFails, entropyFails_counted, entropyFails_kept⟩
  rw [exec_drbgRetry, execDrbgRetry, if_neg h2, if_neg Bool.false_ne_true]

end

end Sys2Proof.Machine
end

section
/-! A protected frame leaves its port (R184, R236, R237, R244 to R246, R329). -/
namespace Sys2Proof.Machine

open Sys2Proof

/-! ## The frame that the MAC starts next -/

theorem txOf_setTx (p : Nat) (l : List TxFrame) (s : State) : txOf (setTx p l s) p = l := tabGet_set_self ..

/-- Only what waits for the ports' MACs differs. -/
def withTx (l : Tab (List TxFrame)) (s : State) : State := { s with que := { s.que with tx := l } }

theorem rdWord_withTx (l : Tab (List TxFrame)) (s : State) (k : Key) : rdWord (withTx l s) k = rdWord s k := rfl

/-- Bad frames leave the transmit path (R184). -/
theorem txOf_dropBad (p : Nat) (s : State) : txOf (dropBad p s) p = (txOf s p).filter fun f => !f.bad := by
  unfold dropBad
  dsimp only
  split
  · next h => exact (List.filter_eq_self.mpr (List.length_filter_eq_length_iff.mp h)).symm
  · exact txOf_setTx ..

theorem dropBad_withTx (p : Nat) (s : State) : ∃ l, dropBad p s = withTx l s := by
  unfold dropBad
  dsimp only
  split
  · exact ⟨s.que.tx, rfl⟩
  · exact ⟨_, rfl⟩

/-- The first frame of a port is a packet's, good and complete, that nothing holds back: the MAC starts it next (R329). -/
structure FirstTx (s : State) (p : Nat) (f : TxFrame) (rest : List TxFrame) (r : Ref) (a d : Nat) : Prop where
  first  : txOf s p = f :: rest
  packet : f.body = .packet r a none d
  whole  : f.open_ = false
  good   : f.bad = false
  paused : pausedOn s p f.tc = false
  order  : overtakes s p f = false
  gate   : gateInForce s p = false

section
variable {s : State} {p : Nat} {f : TxFrame} {rest : List TxFrame} {r : Ref} {a d : Nat}

theorem firstReady_first (h : FirstTx s p f rest r a d) (l : List TxFrame) : firstReady s p (f :: l) [] = some f := by
  have hpaused : heldByPause s p f = false := by simp only [heldByPause, h.packet, h.paused]
  have hstart : mayStart s p f = true := by simp only [mayStart, hpaused, h.order, h.whole, Bool.not_false, Bool.and_self, Bool.true_or]
  simp only [firstReady, ownFrame, h.packet, hstart, List.contains_nil, Bool.not_false, Bool.and_self, Bool.false_eq_true, if_false, if_true]

/-- Bad frames behind it that leave do not hold it back. -/
theorem FirstTx.dropBad (h : FirstTx s p f rest r a d) : FirstTx (dropBad p s) p f (rest.filter fun g => !g.bad) r a d := by
  have hfirst : txOf (Machine.dropBad p s) p = f :: rest.filter fun g => !g.bad := by
    rw [txOf_dropBad, h.first, List.filter_cons_of_pos (by simp [h.good])]
  obtain ⟨l, hl⟩ := dropBad_withTx p s
  refine ⟨hfirst, h.packet, h.whole, h.good, ?_, ?_, ?_⟩
  · rw [hl]; exact h.paused
  · rw [hl]; exact h.order
  · rw [hl]; exact h.gate

theorem nextTx_first (h : FirstTx s p f rest r a d) : nextTx p s = (some f, dropBad p s) := by
  have hd := h.dropBad
  simp only [nextTx, hd.gate, Bool.false_eq_true, if_false, hd.first, firstReady_first hd]

/-- The frame leaves the port's transmit path. -/
theorem txOf_unTx (h : FirstTx s p f rest r a d) : txOf (unTx p f (dropBad p s)) p = rest.filter fun g => !g.bad := by
  rw [unTx, txOf_setTx, h.dropBad.first, List.erase_cons_head]

theorem unTx_withTx (p : Nat) (f : TxFrame) (s : State) : ∃ l, unTx p f (dropBad p s) = withTx l s := by
  obtain ⟨l, hl⟩ := dropBad_withTx p s
  rw [hl]
  exact ⟨_, rfl⟩

end

/-! ## The next PN (R245, R246) -/

/-- The PN of a slot whose threshold is off, below the highest of its suite: the frame takes it, and the slot's next one follows. -/
structure NextPn (s : State) (n : Nat) : Prop where
  noThresh : (tabGet? s.msec.keys n).elim 0 SaKey.thresh = 0
  below    : rd s (saK n) SaSlot.PN < topPn (rd s (saK n) SaSlot.SUITE)

/-- The pipes log a frame's bytes (R247). -/
def txLogged (len : Nat) (s : State) : State :=
  { s with msec := { s.msec with txLog := (s.clock, pipeBytes len) :: inMs s s.msec.txLog } }

theorem rdWord_txLogged (len : Nat) (s : State) (k : Key) : rdWord (txLogged len s) k = rdWord s k := rfl

/-- A frame has been admitted to its slot. -/
def admitted (p n len : Nat) (s : State) : State := msCount p 0 (mapF (txLogged len s) (saK n) SaSlot.FRAMES (· + 1))

section
variable {s : State} {p n len : Nat}

theorem takePn_eq (h : NextPn s n) :
    takePn p n len s = (rd s (saK n) SaSlot.PN, wr (admitted p n len s) (saK n) SaSlot.PN (rd s (saK n) SaSlot.PN + 1)) :=
  Prod.ext rfl ((if_neg fun hn => hn.1 h.noThresh).trans (if_pos h.below))

/-- FRAMES of the slot has counted it. -/
theorem rdWord_framesCounted (k : Key) (h : k.ty ≠ .saSlot) : rdWord (mapF (txLogged len s) (saK n) SaSlot.FRAMES (· + 1)) k = rdWord s k := by
  rw [rdWord_mapF_ty _ _ _ _ _ h, rdWord_txLogged]

theorem admitted_kept : Safety.RegsKept (.saSlot :: .msCtr :: Safety.telling) s (admitted p n len s) := by
  rw [admitted, msCount]
  refine kept_from (RegsKept.mono (kept_bump _ _ _ _ _) fun _ => List.mem_cons_of_mem _) fun k hk => ?_
  simp only [List.mem_cons, not_or] at hk
  exact rdWord_framesCounted k hk.1

theorem admitted_counted : Safety.Counted .msCtr p 0 1 s (admitted p n len s) := by
  rw [admitted, msCount]
  exact counted_from (by simp) (rdWord_framesCounted _ (by simp))

theorem admitted_que : (admitted p n len s).que = s.que := by rw [admitted, msCount, bump_que]; rfl

/-- A slot whose PN is the next one. -/
theorem pn_taken (h : NextPn s n) (u : State) :
    rd (wr u (saK n) SaSlot.PN (rd s (saK n) SaSlot.PN + 1)) (saK n) SaSlot.PN = rd s (saK n) SaSlot.PN + 1 := by
  have htop : topPn (rd s (saK n) SaSlot.SUITE) < 2 ^ 64 := by
    unfold topPn
    split <;> decide
  rw [rd_wr_self]
  exact Nat.mod_eq_of_lt (Nat.lt_of_le_of_lt h.below htop)

end

/-! ## The SecTAG (R237) -/

/-- The TCI of the frames that a port protects. -/
def tciOf (s : State) (p : Nat) : Nat :=
  let one (f : Fld) (v : Nat) : Nat := if flag s (msK p) f then v else 0
  one MsPort.ES 64 + one MsPort.INCLUDE_SCI 32 + one MsPort.CONF 12 + rd s (msK p) MsPort.ENC_AN

/-- How much of the secure data stays clear, none where nothing is enciphered. -/
def clearOf (s : State) (p : Nat) : Option Nat :=
  if flag s (msK p) MsPort.CONF then some (match rd s (msK p) MsPort.CONF_OFFSET with
    | 0 => 0
    | 1 => 30
    | _ => 50) else none

theorem secTag_eq (p n pn len : Nat) (s : State) : secTag p n pn len s =
    emit s (.secTag p n (tciOf s p) (if len - 16 < 48 then len - 16 else 0) (pn % 2 ^ 32)
      (if flag s (msK p) MsPort.INCLUDE_SCI then some (rd s (msK p) MsPort.TX_SCI) else none) (clearOf s p)) := rfl

/-- The AN stands in the low two bits of the TCI. -/
theorem tciOf_an (s : State) (p : Nat) : tciOf s p % 4 = rd s (msK p) MsPort.ENC_AN := by
  have han : rd s (msK p) MsPort.ENC_AN < 4 := rd_lt ..
  simp only [tciOf]
  split_ifs <;> omega

/-! ## The frame -/

/-- On an Ethernet port a whole frame of a packet that the transparent clock leaves alone goes out and is counted. -/
theorem startFrame_sends {s : State} {p pn len d a : Nat} {f : TxFrame} {r : Ref} (hb : f.body = .packet r a none d) (ho : f.open_ = false)
    (he : isEthernet s p = true) :
    startFrame p f (some pn) len .whole s = countSent p len (emit s (.frame p r f.win len (some pn) none false)) := by
  simp [startFrame, ho, sendFrame, hb, transparent, finishFrame, sendGood, emitLine, isFramed_of_isEthernet he]

theorem countSent_que (p len : Nat) (s : State) : (countSent p len s).que = s.que := by simp only [countSent, bump_que]

theorem exec_frameTransmit (p : Fin 48) (fate : TxFate) (s : State) : exec (.frameTransmit p fate) s = execFrameTransmit p fate s := by rfl

/-- A frame has taken its PN and its SecTAG. -/
def tagged (p n pn len sent : Nat) (s : State) : State := secTag p n pn len (wr (admitted p n sent s) (saK n) SaSlot.PN (pn + 1))

section
variable {s : State} {p n len sent : Nat}

theorem tagged_kept (pn : Nat) : Safety.RegsKept (.saSlot :: .msCtr :: Safety.telling) s (tagged p n pn len sent s) :=
  RegsKept.trans admitted_kept (kept_wr (admitted p n sent s) (saK n) _ _ _ (by simp))

theorem tagged_counted (pn : Nat) : Safety.Counted .msCtr p 0 1 s (tagged p n pn len sent s) :=
  (rdWord_wr_ty (admitted p n sent s) (saK n) _ _ _ (by simp)).trans admitted_counted

theorem tagged_que (pn : Nat) : (tagged p n pn len sent s).que = s.que := admitted_que (s := s)

/-- The tag shows what the port's control object says. -/
theorem tagged_out (pn : Nat) : ∃ tci clear, Out.secTag p n tci (if len - 16 < 48 then len - 16 else 0) (pn % 2 ^ 32)
    (if flag s (msK p) MsPort.INCLUDE_SCI then some (rd s (msK p) MsPort.TX_SCI) else none) clear ∈ (tagged p n pn len sent s).out ∧
      tci % 4 = rd s (msK p) MsPort.ENC_AN := by
  have hport (f : Fld) : rd (wr (admitted p n sent s) (saK n) SaSlot.PN (pn + 1)) (msK p) f = rd s (msK p) f :=
    (rd_wr_ty _ _ _ _ _ _ (by simp)).trans (RegsKept.rd admitted_kept (by simp) f)
  have hflag (f : Fld) : flag (wr (admitted p n sent s) (saK n) SaSlot.PN (pn + 1)) (msK p) f = flag s (msK p) f := congrArg (· == 1) (hport f)
  refine ⟨_, clearOf (wr (admitted p n sent s) (saK n) SaSlot.PN (pn + 1)) p, ?_, (tciOf_an _ p).trans (hport _)⟩
  rw [tagged, secTag_eq, hflag, hport]
  exact List.mem_cons_self

end

section
variable {s : State} {p : Fin 48} {f : TxFrame} {rest : List TxFrame} {r : Ref} {a d n : Nat}

/-- The first frame of a port that protects it under slot n takes its PN there and leaves, tag and all. -/
theorem frameTransmit_protects (hnow : SendsNow s p.val) (hidle : tabGet? s.line.sending p.val = none) (h : FirstTx s p.val f rest r a d)
    (hpipes : txPipesFull s = false) (hsec : secureOut s p.val (etherOf f) = .protect n) (hpn : NextPn s n) :
    exec (.frameTransmit p .whole) s = .next (countSent p.val (f.len + secOverhead (flag s (msK p.val) MsPort.INCLUDE_SCI))
      (emit (tagged p.val n (rd s (saK n) SaSlot.PN) f.len (f.len + secOverhead (flag s (msK p.val) MsPort.INCLUDE_SCI))
        (unTx p.val f (dropBad p.val s)))
      (.frame p.val r f.win (f.len + secOverhead (flag s (msK p.val) MsPort.INCLUDE_SCI)) (some (rd s (saK n) SaSlot.PN)) none false))) := by
  obtain ⟨l, hbad⟩ := dropBad_withTx p.val s
  obtain ⟨m, hout⟩ := unTx_withTx p.val f s
  have hsec' : secureOut (dropBad p.val s) p.val (etherOf f) = .protect n := by rw [hbad]; exact hsec
  have hpipes' : txPipesFull (dropBad p.val s) = false := by rw [hbad]; exact hpipes
  have hlen : sentLen (dropBad p.val s) p.val f = f.len + secOverhead (flag s (msK p.val) MsPort.INCLUDE_SCI) := by
    rw [sentLen, hsec', hbad]
    rfl
  have hpn' : NextPn (withTx m s) n := ⟨hpn.noThresh, hpn.below⟩
  have hrd : rd (withTx m s) (saK n) SaSlot.PN = rd s (saK n) SaSlot.PN := rfl
  have hnow' (b : Nat) : SendsNow (tagged p.val n (rd s (saK n) SaSlot.PN) f.len b (withTx m s)) p.val :=
    (hnow.ofKept (l := []) (fun k _ => rdWord_withTx m s k) (by simp)).ofKept (tagged_kept _) (by simp)
  rw [exec_frameTransmit, execFrameTransmit]
  simp only [hnow.safe, hnow.up, hnow.silent, Bool.not_true, Bool.or_self, Bool.false_eq_true, if_false, hidle, nextTx_first h, hsec', hpipes',
    hlen, hout, takePn_eq hpn', hrd]
  exact congrArg _ (startFrame_sends h.packet h.whole (hnow' _).eth)

theorem frameTransmit_protected (hnow : SendsNow s p.val) (hidle : tabGet? s.line.sending p.val = none) (h : FirstTx s p.val f rest r a d)
    (hpipes : txPipesFull s = false) (hsec : secureOut s p.val (etherOf f) = .protect n) (hpn : NextPn s n) :
    Safety.Gives (.frameTransmit p .whole) s fun t =>
      txOf t p.val = (rest.filter fun g => !g.bad) ∧ rd t (saK n) SaSlot.PN = rd s (saK n) SaSlot.PN + 1 ∧
        Safety.Counted .msCtr p.val 0 1 s t ∧
        Out.frame p.val r f.win (f.len + secOverhead (flag s (msK p.val) MsPort.INCLUDE_SCI)) (some (rd s (saK n) SaSlot.PN)) none false
          ∈ t.out ∧
        (∃ tci sl clear, Out.secTag p.val n tci sl (rd s (saK n) SaSlot.PN % 2 ^ 32)
            (if flag s (msK p.val) MsPort.INCLUDE_SCI then some (rd s (msK p.val) MsPort.TX_SCI) else none) clear ∈ t.out ∧
          tci % 4 = rd s (msK p.val) MsPort.ENC_AN ∧ sl = if f.len - 16 < 48 then f.len - 16 else 0) ∧
        Safety.RegsKept (.saSlot :: .msCtr :: .lpCtr :: Safety.telling) s t := by
  refine ⟨_, frameTransmit_protects hnow hidle h hpipes hsec hpn, ?_⟩
  have htx := txOf_unTx h
  obtain ⟨m, hm⟩ := unTx_withTx p.val f s
  generalize unTx p.val f (dropBad p.val s) = v at *
  generalize f.len + secOverhead (flag s (msK p.val) MsPort.INCLUDE_SCI) = len
  have hv (k : Key) : rdWord v k = rdWord s k := by rw [hm, rdWord_withTx]
  have hvf (k : Key) (f : Fld) : rd v k f = rd s k f := congrArg (getF · f) (hv k)
  have hflag : flag v (msK p.val) MsPort.INCLUDE_SCI = flag s (msK p.val) MsPort.INCLUDE_SCI := congrArg (· == 1) (hvf _ _)
  have hpn' : rd (tagged p.val n (rd s (saK n) SaSlot.PN) f.len len v) (saK n) SaSlot.PN = rd s (saK n) SaSlot.PN + 1 :=
    pn_taken hpn (admitted p.val n len v)
  have hkept := tagged_kept (s := v) (p := p.val) (n := n) (len := f.len) (sent := len) (rd s (saK n) SaSlot.PN)
  have hcount : Safety.Counted .msCtr p.val 0 1 v (tagged p.val n (rd s (saK n) SaSlot.PN) f.len len v) := tagged_counted _
  have hque : (tagged p.val n (rd s (saK n) SaSlot.PN) f.len len v).que = v.que := tagged_que _
  obtain ⟨tci, clear, hout, htci⟩ := tagged_out (s := v) (p := p.val) (n := n) (len := f.len) (sent := len) (rd s (saK n) SaSlot.PN)
  generalize tagged p.val n (rd s (saK n) SaSlot.PN) f.len len v = u at *
  have hsent (o : Out) : Safety.RegsKept (.lpCtr :: Safety.telling) u (countSent p.val len (emit u o)) := countSent_kept (s := emit u o)
  refine ⟨?_, (RegsKept.rd (hsent _) (by simp) _).trans hpn', ?_, countSent_sent List.mem_cons_self,
    ⟨tci, _, clear, countSent_sent (List.mem_cons_of_mem _ ?_), ?_, rfl⟩, ?_⟩
  · rw [← htx, txOf, txOf, countSent_que, emit_que, hque]
  · rw [Safety.Counted, hsent _ _ (by simp), hcount, hv]
  · rwa [hflag, hvf] at hout
  · rw [htci, hvf]
  · refine RegsKept.trans (t := v) (fun k _ => hv k) (RegsKept.trans (RegsKept.mono hkept ?_) (RegsKept.mono (hsent _) ?_))
    all_goals intro _; simp only [List.mem_cons]; tauto

end

end Sys2Proof.Machine
end

section
/-! A late frame on a port with replay protection (R236, R240 to R242, R249). -/
namespace Sys2Proof.Machine

open Sys2Proof

/-- A frame whose SecTAG is in order comes to a VALID slot with a PN below the lowest acceptable one, on a port that checks frames and protects
against replay (R241, R242). -/
structure LateFrame (s : State) (p : Nat) (f : LineFrame) (g : SecTag) (n : Nat) : Prop where
  tagged : f.sec = some g
  on     : flag s (msK p) MsPort.EN = true
  tagOk  : badTag g = false
  slot   : rxSlot s p g.an.toNat (sciOf s p f g) = some n
  checks : rd s (msK p) MsPort.VALIDATE ≠ 0
  replay : flag s (msK p) MsPort.REPLAY_PROTECT = true
  late   : recoverPn (rd s (saK n) SaSlot.PN) g.pn.toNat (isXpn s n) < rd s (saK n) SaSlot.PN

/-- A frame that the line and the MAC find no fault with (R183). -/
structure GoodFrame (s : State) (p : Nat) (f : LineFrame) : Prop where
  start : f.bad64 = false
  fec   : f.fecBad = false
  pcs   : f.pcsBad = false
  fcs   : f.fcsOk = true
  buf   : f.bufBad = false
  words : f.fecWords = 0
  syms  : f.fecSyms = 0
  least : 64 ≤ f.len
  most  : f.len ≤ maxFrame s p

section
variable {s : State} {p : Nat} {f : LineFrame}

/-- A late frame is dropped at its start and counted. -/
theorem secureHead_late {g : SecTag} {n : Nat} (h : LateFrame s p f g n) : secureHead p f s = (.drop, msCount p 8 s) := by
  simp only [secureHead, h.on, h.tagged, startTagged, h.tagOk, h.slot, h.replay, h.late, h.checks, Bool.not_true, Bool.false_eq_true, and_self,
    if_true, if_false]

theorem cutLong_good (h : GoodFrame s p f) : cutLong s p f = f := by
  rw [cutLong, Nat.min_eq_left (h.most.trans (Nat.le_succ _))]

theorem lineJudge_good (h : GoodFrame s p f) : lineJudge p f s = (false, s) := by simp [lineJudge, h.fec, h.pcs, h.words, h.syms]

theorem macJudge_good (h : GoodFrame s p f) : macJudge p f false s = (false, s) := by
  simp [macJudge, h.fcs, h.buf, Nat.not_lt.mpr h.most]

/-- It needs no core, so that it never waits for one (R249). -/
theorem takeFrame_late {g : SecTag} {n : Nat} (h : LateFrame s p f g n) (hg : GoodFrame s p f) (hfifo : fifoOf s p = []) :
    takeFrame p f false true s = msCount p 8 s := by
  have hslot : slotFull s p f = false := by simp only [slotFull, secureHead_late h, SecHead.slot]
  have hpipes : pipesFull s p f = false := by simp only [pipesFull, secureHead_late h, SecHead.slot, Option.isSome_none, Bool.false_and]
  simp only [takeFrame, hfifo, List.isEmpty_nil, hslot, hpipes, Bool.not_true, Bool.or_self, Bool.false_eq_true, if_false, if_true, wholeFrame,
    macJudge_good hg, cutLong_good hg, secureIn, secureHead_late h, secureEnd]

end

theorem exec_frameReceive (p : Fin 48) (part : FramePart) (f : LineFrame) (s : State) :
    exec (.frameReceive p part f) s = execFrameReceive p part f s := by rfl

/-- A whole good frame on an Ethernet port that is up comes to MSEC (R182, R236). -/
theorem frameReceive_good {s : State} {p : Fin 48} {f : LineFrame} (heth : isEthernet s p.val = true) (hsafe : inSafe s = false)
    (hup : portUp s p.val = true) (hsilent : silent s p.val = false) (hcond : portCond s p.val = true) (h : GoodFrame s p.val f) :
    exec (.frameReceive p .whole f) s = .next (takeFrame p.val f false true s) := by
  have hlink : linkOf s p.val = lkUp := beq_iff_eq.mp hup
  simp [exec_frameReceive, execFrameReceive, heth, receives, hsafe, hlink, hsilent, hcond, h.start, Nat.not_lt.mpr h.least, lineJudge_good h,
    passFrame]

/-- Settles O40: the changes of slots by the start and the end of a drain, CAK slots by what the MKA service leaves, the DRBG by its commands,
a protected frame by the PN and the tag that it takes, and a late one by the verdict at its start. -/
theorem keySlots : Obligations.KeySlots := by
  unfold Obligations.KeySlots
  refine ⟨fun c x s w ht hlen hres hdrbg hrange hown htwin hl => ⟨fun hs => ?_, keySlotWriteSa_inUse ht hlen hres hdrbg hrange hown htwin hl⟩,
    fun c n x s w hw hc hph hcore hseq => ⟨fun hd hop => slotDrainEnd_writes ⟨hw, hc, hph, hop, hseq⟩ hcore hd,
      fun hd hop => slotDrainEnd_erases ⟨hw, hc, hph, hop, hseq⟩ hcore hd⟩,
    fun n s hcore => ⟨s, slotDrainEnd_waits hcore, rfl⟩,
    fun c slot s w ht => ⟨fun hslot hown hl hs => keySlotErase_inUse ht hslot hown hl hs,
      fun hslot hown hl hs => keySlotErase_empty ht hslot hown hl hs, fun hslot hs => keySlotErase_cak ht hslot hs⟩,
    fun c x s w ht hlen hres hdrbg hrange => keySlotWriteCak_valid ht hlen hres hdrbg hrange,
    fun s => ⟨fun h => ⟨drbgSeedComplete_good h, drbgSeedComplete_bad h⟩, fun h => ⟨drbgReseed_good h, drbgReseed_bad h⟩,
      fun h => ⟨drbgRetry_good h, drbgRetry_bad h⟩⟩,
    fun p s f rest r a d n heth hsafe hup hsilent hgate hidle hfirst hbody hopen hbad hpaused horder hpipes hsec hthresh hbelow =>
      frameTransmit_protected ⟨heth, hup, hsafe, hsilent, hgate⟩ hidle ⟨hfirst, hbody, hopen, hbad, hpaused, horder, hgate⟩ hpipes hsec
        ⟨hthresh, hbelow⟩,
    fun p f g n s heth hsafe hup hsilent hcond h64 hfec hpcs hfcs hbuf hwords hsyms hfifo hleast hmost htag hon hok hslot hval hreplay hlate => ?_⟩
  · obtain ⟨t, hgo, h⟩ := keySlotWriteSa_empty ht hlen hres hdrbg hrange hown htwin hl hs
    exact ⟨t, hgo, h.gen ▸ h.done, h.gen, h.state, h.pn, h.key, h.kept⟩
  · have hg : GoodFrame s p.val f := ⟨h64, hfec, hpcs, hfcs, hbuf, hwords, hsyms, hleast, hmost⟩
    have hgo := frameReceive_good heth hsafe hup hsilent hcond hg
    rw [takeFrame_late ⟨htag, hon, hok, hslot, hval, hreplay, hlate⟩ hg hfifo] at hgo
    exact ⟨_, hgo, counted_bump _ _ _ _ _ (by simp), told_bump .., kept_bump _ _ _ _ _⟩

end Sys2Proof.Machine
end

section
/-! What the operations of the buffer leave beside the queues (R270, R280, R285, R286, R292, R297, R300, R301), and what becomes of a stored packet. -/
namespace Sys2Proof.Machine

open Sys2Proof

/-! ## The relation -/

/-- A state that operations beside the queues lead to from another: the queues are as they were, and so is every object whose type is not in
a list. -/
structure Beside (l : List ObjTy) (a s : State) : Prop where
  kept   : Safety.RegsKept l a s
  queues : s.que.queues = a.que.queues

namespace Beside

variable {l m : List ObjTy} {a s t : State}

theorem refl (a : State) : Beside l a a := ⟨RegsKept.refl l a, rfl⟩

theorem trans (h : Beside l a s) (g : Beside l s t) : Beside l a t := ⟨RegsKept.trans h.kept g.kept, g.queues.trans h.queues⟩

theorem mono (h : Beside l a s) (hm : ∀ ty ∈ l, ty ∈ m := by decide) : Beside m a s := ⟨RegsKept.mono h.kept hm, h.queues⟩

/-- An update of other parts. -/
theorem parts (h : Beside l a s) {clock ct cmd bridge flt cnt eng tbl pat line tfu msec buf que fab hbm time pair upd pwr out free pending}
    (hq : que.queues = s.que.queues := by rfl) : Beside l a (State.mk s.regs s.fuses clock ct cmd bridge flt cnt eng tbl pat line tfu msec buf que
      fab hbm time pair upd pwr out free pending) :=
  ⟨h.kept, hq.trans h.queues⟩

theorem wr {k : Key} {f : Fld} {v : Nat} (h : Beside l a s) (hk : k.ty ∈ l := by simp [poolS]) : Beside l a (wr s k f v) :=
  ⟨RegsKept.trans h.kept (kept_wr s k f v l hk), h.queues⟩

theorem mapF {k : Key} {f : Fld} {g : Nat → Nat} (h : Beside l a s) (hk : k.ty ∈ l := by simp [poolS]) : Beside l a (mapF s k f g) := h.wr hk

theorem bump {ty : ObjTy} {i j n : Nat} (h : Beside l a s) (hl : ∀ x ∈ ty :: Safety.telling, x ∈ l := by decide) :
    Beside l a (bump ty i j n s) :=
  h.trans ⟨RegsKept.mono (kept_bump ty i j n s) hl, by rw [bump_que]⟩

theorem raiseAt {blk inst kind : Nat} {k : Key} (h : Beside l a s) (hl : ∀ x ∈ Safety.raising, x ∈ l := by decide) :
    Beside l a (raiseAt blk inst kind k s) :=
  h.trans ⟨RegsKept.mono (kept_raiseAt blk inst kind k s) hl, congrArg (·.1) (raiseAt_queHeld ..)⟩

theorem ite {c : Prop} [Decidable c] (hs : Beside l a s) (ht : Beside l a t) : Beside l a (if c then s else t) := by
  split <;> assumption

theorem getQ (h : Beside l a s) (q : Nat) : getQ s q = getQ a q := by unfold Machine.getQ; rw [h.queues]

end Beside

/-! ## Packets that end (R285, R286) -/

theorem freeBillets_beside (k n : Nat) (s : State) : Beside [.bufStatus, .poolStatus] s (freeBillets k n s) :=
  .wr (.mapF (.mapF (.refl s)))

theorem freePacket_beside (n : Nat) (s : State) : Beside [.bufStatus, .poolStatus] s (freePacket n s) := by
  unfold freePacket
  split
  · exact .refl s
  · have hgone {pkts} : Beside [.bufStatus, .poolStatus] s
        (mapF { s with buf := { s.buf with pkts := pkts } } (obj .bufStatus) BufStatus.DESC_USED (· - 1)) := .mapF (.parts (.refl s))
    exact .ite (.mapF hgone) (hgone.trans (freeBillets_beside ..))

theorem refuseFree_beside (ctr kind : Nat) (k : Key) (s : State) : Beside (.poolGctr :: Safety.raising) s (refuseFree ctr kind k s) :=
  .raiseAt (.bump (.refl s))

/-- The types of the objects that the end of a reference may write. -/
def endTypes : List ObjTy := .bufStatus :: .poolStatus :: .poolGctr :: Safety.raising

theorem endOwner_beside (n by_ : Nat) (s : State) : Beside endTypes s (endOwner n by_ s) := by
  unfold endOwner
  split
  · exact (refuseFree_beside ..).mono
  · exact .ite (refuseFree_beside ..).mono (.ite (freePacket_beside ..).mono (.parts (.refl s)))

theorem endLeaseOn_beside (n : Nat) (s : State) : Beside endTypes s (endLeaseOn n s) := by
  unfold endLeaseOn
  split
  · exact (refuseFree_beside ..).mono
  · have hput {p} : Beside endTypes s (putPkt n p s) := .parts (.refl s)
    exact .ite (refuseFree_beside ..).mono (.ite (hput.trans (freePacket_beside ..).mono) hput)

theorem endRef_beside (r : Ref) (s : State) : Beside endTypes s (endRef r s) := .ite (endLeaseOn_beside ..) (endOwner_beside ..)

/-- A packet that is freed is stored no more. -/
theorem getPkt_freePacket_self (n : Nat) (s : State) : getPkt (freePacket n s) n = none := by
  unfold freePacket
  split
  · assumption
  · dsimp only
    split <;> exact tabGet?_del_self ..

/-- Every other packet stays as it is. -/
theorem getPkt_freePacket_ne {n m : Nat} (h : m ≠ n) (s : State) : getPkt (freePacket n s) m = getPkt s m := by
  unfold freePacket
  split
  · rfl
  · dsimp only
    split <;> exact tabGet?_del_ne _ h

theorem getPkt_putPkt_ne {n m : Nat} (h : m ≠ n) (p : Packet) (s : State) : getPkt (putPkt n p s) m = getPkt s m := tabGet?_put_ne _ _ h

/-- A free that is refused changes no packet (R286). -/
theorem getPkt_refuseFree (ctr kind : Nat) (k : Key) (s : State) (m : Nat) : getPkt (refuseFree ctr kind k s) m = getPkt s m := by
  unfold getPkt refuseFree
  rw [raiseAt_buf, bump_buf]

theorem getPkt_endOwner_ne {n m : Nat} (h : m ≠ n) (by_ : Nat) (s : State) : getPkt (endOwner n by_ s) m = getPkt s m := by
  unfold endOwner
  split
  · exact getPkt_refuseFree ..
  · split
    · exact getPkt_refuseFree ..
    · split
      · exact getPkt_freePacket_ne h s
      · exact getPkt_putPkt_ne h _ s

theorem getPkt_endLeaseOn_ne {n m : Nat} (h : m ≠ n) (s : State) : getPkt (endLeaseOn n s) m = getPkt s m := by
  unfold endLeaseOn
  split
  · exact getPkt_refuseFree ..
  · split
    · exact getPkt_refuseFree ..
    · dsimp only
      split
      · rw [getPkt_freePacket_ne h, getPkt_putPkt_ne h]
      · exact getPkt_putPkt_ne h _ s

/-- The end of a reference to one packet leaves every other packet as it is. -/
theorem getPkt_endRef_ne {r : Ref} {m : Nat} (h : m ≠ r.pkt) (s : State) : getPkt (endRef r s) m = getPkt s m := by
  unfold endRef
  split
  · exact getPkt_endLeaseOn_ne h s
  · exact getPkt_endOwner_ne h _ s

/-- A free request on a packet that is gone changes no packet. -/
theorem getPkt_endOwner_gone {n : Nat} {s : State} (h : getPkt s n = none) (by_ m : Nat) : getPkt (endOwner n by_ s) m = getPkt s m := by
  unfold endOwner
  rw [h]
  exact getPkt_refuseFree ..

/-- The named owner's free request, with no lease out, frees the packet (R285). -/
theorem endOwner_frees {n : Nat} {s : State} {k : Packet} (h : getPkt s n = some k) (hl : k.leases = 0) : endOwner n k.owner s = freePacket n s := by
  simp only [endOwner, h, hl, ne_eq, not_true_eq_false, if_false, if_true]

/-- Another's free request is refused (R286). -/
theorem endOwner_refused {n by_ : Nat} {s : State} {k : Packet} (h : getPkt s n = some k) (hne : k.owner ≠ by_) :
    endOwner n by_ s = refuseFree 0 3 (descKey k) s := by
  simp only [endOwner, h, ne_eq, hne, not_false_eq_true, if_true]

/-! ## Time that comes -/

/-- An interval that ends moves the clocks, lets performance counters tell and the table builder go on; it changes nothing else. -/
theorem due_parts (t : Nat) (s : State) : due t s = { s with
    regs := (due t s).regs, clock := (due t s).clock, ct := (due t s).ct, cmd := (due t s).cmd, cnt := (due t s).cnt,
    tbl := (due t s).tbl, time := (due t s).time, out := (due t s).out } := by
  unfold due
  split
  · rw [(advance_told _ s).parts]
    rfl
  · rfl

@[simp] theorem due_buf (t : Nat) (s : State) : (due t s).buf = s.buf := by rw [due_parts]
@[simp] theorem due_que (t : Nat) (s : State) : (due t s).que = s.que := by rw [due_parts]
@[simp] theorem due_line (t : Nat) (s : State) : (due t s).line = s.line := by rw [due_parts]
@[simp] theorem getPkt_due (t : Nat) (s : State) (n : Nat) : getPkt (due t s) n = getPkt s n := by unfold getPkt; rw [due_buf]
@[simp] theorem getQ_due (t : Nat) (s : State) (q : Nat) : getQ (due t s) q = getQ s q := by unfold getQ; rw [due_que]

/-! ## Queues and counters -/

@[simp] theorem getQ_setQ_self (q : Nat) (x : Queue) (s : State) : getQ (setQ q x s) q = x := tabGet_set_self ..

/-- A write of a queue touches no object. -/
theorem setQ_kept (l : List ObjTy) (q : Nat) (x : Queue) (s : State) : Safety.RegsKept l s (setQ q x s) := fun _ _ => rfl

/-- What has counted still has once objects of other types have changed. -/
theorem counted_then {ty : ObjTy} {i j n : Nat} {l : List ObjTy} {s t u : State} (h : Safety.Counted ty i j n s t) (g : Safety.RegsKept l t u)
    (hty : ty ∉ l := by decide) : Safety.Counted ty i j n s u := (g _ hty).trans h

/-- See `counted_then`: the objects that changed before the count. -/
theorem counted_since {ty : ObjTy} {i j n : Nat} {l : List ObjTy} {s t u : State} (g : Safety.RegsKept l s t) (h : Safety.Counted ty i j n t u)
    (hty : ty ∉ l := by decide) : Safety.Counted ty i j n s u := counted_of_eq h (g _ hty)

/-- A count of another counter of PEAT leaves what has counted. -/
theorem peatCounted_bump {i j n m : Nat} {s t : State} (h : Safety.Counted .peatCtr 0 i n s t) (hne : i ≠ j := by decide) :
    Safety.Counted .peatCtr 0 i n s (bump .peatCtr 0 j m t) :=
  (bump_ne (counter_ne2 .peatCtr 0 hne) (by simp)).trans h

end Sys2Proof.Machine
end

section
/-! The pages of a queue that are written: the packets that end with the write, and the flush of a tail buffer (R294, R296, R300, R301). -/
namespace Sys2Proof.Machine

open Sys2Proof

/-! ## A page is written (R294, R296) -/

/-- The pages of a queue, one of them in another phase. -/
def rephased (p : Page) (ph : PagePhase) (l : List Page) : List Page := l.map fun e => if e.handle = p.handle then { e with phase := ph } else e

/-- A queue with one of its pages in another phase. -/
def pageInPhase (q : Nat) (p : Page) (ph : PagePhase) (s : State) : State := setQ q { getQ s q with pages := rephased p ph (getQ s q).pages } s

theorem getQ_pageInPhase (q : Nat) (p : Page) (ph : PagePhase) (s : State) :
    getQ (pageInPhase q p ph s) q = { getQ s q with pages := rephased p ph (getQ s q).pages } := getQ_setQ_self ..

/-- A page of a queue is stored, and the time of its write noted (R303). -/
def pageStored (q : Nat) (p : Page) (s : State) : State :=
  let t := pageInPhase q p .stored s
  { t with buf := { t.buf with wrAt := t.clock :: recent t t.buf.wrAt ms } }

/-- It is counted, on its own counter too where it was flushed. -/
def pageWritten (q : Nat) (p : Page) (s : State) : State :=
  let t := pageStored q p s
  bump .peatCtr 0 0 1 (if p.flushed then bump .peatCtr 0 2 1 t else t)

/-- The reference of a packet that a page of the queue has taken over: a lease where the queue is not the packet's owner. -/
def writtenRef (q : Nat) (r : Ref) (s : State) : Ref :=
  { r with lease := match getPkt s r.pkt with
    | some k => k.owner != q
    | none => false }

/-- Its end. -/
def endWritten (q : Nat) (r : Ref) (s : State) : State := endRef (writtenRef q r s) s

theorem exec_pageWriteComplete {q : Nat} {p : Page} {s : State} (hp : (getQ s q).pages.find? (fun e => e.phase == .writing) = some p) :
    exec (.pageWriteComplete q) s = .next (forAll (p.imgs.map Image.ref) (endWritten q) (pageWritten q p s)) := by
  show execPageWriteComplete q s = _
  simp only [execPageWriteComplete, hp]
  rfl

/-- The counting of a page leaves the queues. -/
theorem pageWritten_beside (q : Nat) (p : Page) (s : State) : Beside (.peatCtr :: Safety.telling) (pageStored q p s) (pageWritten q p s) := by
  unfold pageWritten
  exact .bump (.ite (.bump (.refl _)) (.refl _))

theorem pageWritten_counted (q : Nat) (p : Page) (s : State) : Safety.Counted .peatCtr 0 0 1 s (pageWritten q p s) := by
  refine counted_from (by decide) ?_
  split
  · exact bump_ne (counter_ne2 .peatCtr 0 (i := 0) (j := 2) (by decide)) (by decide)
  · rfl

theorem pageWritten_flushed {p : Page} (hf : p.flushed = true) (q : Nat) (s : State) : Safety.Counted .peatCtr 0 2 1 s (pageWritten q p s) := by
  simp only [pageWritten, hf, if_true]
  exact peatCounted_bump (counted_from (by decide) rfl)

theorem getPkt_pageWritten (q : Nat) (p : Page) (s : State) (n : Nat) : getPkt (pageWritten q p s) n = getPkt s n := by
  unfold getPkt pageWritten
  dsimp only
  rw [bump_buf]
  split
  · rw [bump_buf]; rfl
  · rfl

/-- The end of all references of a page. -/
theorem endAllWritten_beside (q : Nat) (l : List Ref) (s : State) : Beside endTypes s (forAll l (endWritten q) s) :=
  forAll_keeps l (endWritten q) (Beside endTypes s) (fun _ _ h => h.trans (endRef_beside ..)) s (.refl s)

section
variable {q n : Nat} {k : Packet} {r : Ref} {s : State}

/-- A packet that is gone stays so. -/
theorem getPkt_endWritten_gone (h : getPkt s n = none) : getPkt (endWritten q r s) n = none := by
  by_cases hn : n = r.pkt
  · subst hn
    simp only [endWritten, writtenRef, endRef, h, Bool.false_eq_true, if_false]
    exact (getPkt_endOwner_gone h _ _).trans h
  · exact (getPkt_endRef_ne (r := writtenRef q r s) hn s).trans h

/-- The queue's own packet, no lease out, ends with the reference that the queue put there. -/
theorem getPkt_endWritten_own (h : getPkt s r.pkt = some k) (ho : k.owner = q) (hf : r.from_ = q) (hl : k.leases = 0) :
    getPkt (endWritten q r s) r.pkt = none := by
  simp only [endWritten, writtenRef, endRef, h, ho, bne_self_eq_false, Bool.false_eq_true, if_false, hf]
  rw [← ho, endOwner_frees h hl]
  exact getPkt_freePacket_self ..

/-- Any other reference leaves it, or ends it with a free request in the queue's name. -/
theorem getPkt_endWritten_kept (h : getPkt s n = some k) (ho : k.owner = q) (hl : k.leases = 0) :
    getPkt (endWritten q r s) n = none ∨ getPkt (endWritten q r s) n = some k := by
  by_cases hn : n = r.pkt
  · subst hn
    by_cases hf : r.from_ = q
    · exact .inl (getPkt_endWritten_own h ho hf hl)
    · have hne : k.owner ≠ r.from_ := fun e => hf (e.symm.trans ho)
      simp only [endWritten, writtenRef, endRef, h, ho, bne_self_eq_false, Bool.false_eq_true, if_false, endOwner_refused h hne]
      exact .inr ((getPkt_refuseFree ..).trans h)
  · exact .inr ((getPkt_endRef_ne (r := writtenRef q r s) hn s).trans h)

end

/-- Once a page is written, the packets that its queue owned are freed: no other reference of the page brings one back. -/
theorem getPkt_allWritten {q : Nat} {l : List Ref} {r : Ref} {k : Packet} {s : State} (hr : r ∈ l) (h : getPkt s r.pkt = some k) (ho : k.owner = q)
    (hf : r.from_ = q) (hl : k.leases = 0) : getPkt (forAll l (endWritten q) s) r.pkt = none := by
  refine forAll_reaches (fun t => getPkt t r.pkt = none ∨ getPkt t r.pkt = some k) (fun t => getPkt t r.pkt = none) hr
    (fun b t ht => ?_) (fun t ht => ?_) (fun b t _ ht => getPkt_endWritten_gone ht) (.inr h)
  · rcases ht with ht | ht
    · exact .inl (getPkt_endWritten_gone ht)
    · exact getPkt_endWritten_kept ht ho hl
  · rcases ht with ht | ht
    · exact getPkt_endWritten_gone ht
    · exact getPkt_endWritten_own ht ho hf hl

/-- PAGE_WRITE_COMPLETE (R294, R296). -/
theorem pageWriteComplete_stored {q : Nat} {p : Page} {s : State} (hp : (getQ s q).pages.find? (fun e => e.phase == .writing) = some p) :
    Safety.Gives (.pageWriteComplete q) s fun t =>
      (getQ t q).pages = rephased p .stored (getQ s q).pages ∧
      Safety.Counted .peatCtr 0 0 1 s t ∧ (p.flushed = true → Safety.Counted .peatCtr 0 2 1 s t) ∧
      (∀ i ∈ p.imgs, ∀ k, getPkt s i.ref.pkt = some k → k.owner = q → i.ref.from_ = q → k.leases = 0 → getPkt t i.ref.pkt = none) ∧
      Safety.RegsKept (.peatCtr :: .bufStatus :: .poolStatus :: .poolGctr :: Safety.raising) s t := by
  have hw := pageWritten_beside q p s
  have hend := endAllWritten_beside q (p.imgs.map Image.ref) (pageWritten q p s)
  refine ⟨_, exec_pageWriteComplete hp, ?_, counted_then (pageWritten_counted q p s) hend.kept,
    fun hf => counted_then (pageWritten_flushed hf q s) hend.kept, fun i hi k hk ho hf hl => ?_, ?_⟩
  · rw [hend.getQ, hw.getQ]
    exact congrArg Queue.pages (getQ_pageInPhase q p .stored s)
  · exact getPkt_allWritten (List.mem_map_of_mem hi) ((getPkt_pageWritten ..).trans hk) ho hf hl
  · exact RegsKept.trans (RegsKept.mono hw.kept (by decide)) (RegsKept.mono hend.kept (by decide))

/-! ## A tail buffer is flushed (R296, R300, R301) -/

/-- The pool's and the ring's account of a page that is drawn. -/
def pageDrawn (pool : Nat) (s : State) : State :=
  mapF (mapF (drawChoice s).2 (poolS pool) PoolStatus.PAGES (· + 1)) (obj .peatStatus) PeatStatus.PAGES_FREE (· - 1)

/-- Packets of a queue in a page that is being written. -/
def newPage (q : Nat) (flushed : Bool) (handle pool : Nat) (l : List Ref) (s : State) : Page :=
  { handle := handle, pool := pool, imgs := l.map (imageOf s q), flushed := flushed, phase := .writing }

/-- A queue whose tail buffer gives its first `n` packets to a page. -/
def tailGiven (n at_ : Nat) (pg : Page) (x : Queue) : Queue := { x with pages := x.pages ++ [pg], tail := x.tail.drop n, tailFrom := at_ }

/-- The page joins its queue, waits for those before it, and is counted by its queue. -/
def pageWriting (q n : Nat) (pg : Page) (s : State) : State :=
  mapF (readyPage (setQ q (tailGiven n s.clock pg (getQ s q)) s)) (obj .qSpill q) QSpill.PAGES (· + 1)

theorem pageRefs_newPage (q : Nat) (flushed : Bool) (handle pool : Nat) (l : List Ref) (s : State) :
    pageRefs (newPage q flushed handle pool l s) = l.map fun x => { x with lease := false, from_ := q } := by
  simp [pageRefs, newPage, imageOf]

/-- A queue with a spill profile has a spill object (R303). -/
theorem spillKey_of_profile {s : State} {q : Nat} {k : Key} (h : profileOf s q = some k) : spillKey q = some (obj .qSpill q) := by
  unfold spillKey
  by_cases hq : q < Config.voqs + Config.egressQueues
  · exact if_pos hq
  · simp [profileOf, spillKey, hq] at h

theorem readyPage_beside (s : State) : Beside (.peatCtr :: Safety.telling) s (readyPage s) := by
  unfold readyPage
  exact .parts (.ite (.bump (.refl s)) (.refl s))

theorem readyPage_clock (s : State) : (readyPage s).clock = s.clock := by
  unfold readyPage
  dsimp only
  split
  · exact bump_clock ..
  · rfl

theorem pageDrawn_beside (pool : Nat) (s : State) : Beside [.poolStatus, .peatStatus] s (pageDrawn pool s) := .mapF (.mapF (.parts (.refl s)))

/-- A page that is drawn is one fewer in the ring. -/
theorem rd_pageDrawn_free {s : State} (h : 0 < rd s (obj .peatStatus) PeatStatus.PAGES_FREE) (pool : Nat) :
    rd (pageDrawn pool s) (obj .peatStatus) PeatStatus.PAGES_FREE + 1 = rd s (obj .peatStatus) PeatStatus.PAGES_FREE := by
  have hlt : rd s (obj .peatStatus) PeatStatus.PAGES_FREE < 2 ^ 23 := rd_lt ..
  unfold pageDrawn
  generalize hu : mapF (drawChoice s).2 (poolS pool) PoolStatus.PAGES (· + 1) = u
  have hother : rd u (obj .peatStatus) PeatStatus.PAGES_FREE = rd s (obj .peatStatus) PeatStatus.PAGES_FREE :=
    hu ▸ rd_mapF_ty _ _ _ _ _ _ (by simp [poolS])
  rw [mapF, rd_wr_self, hother, Nat.mod_eq_of_lt (show _ < 2 ^ 23 by omega)]
  omega

/-- A pool below its limit draws a page while the ring holds one (R301). -/
theorem drawPage_of_room {pool : Nat} {s : State} (hlimit : rd s (poolS pool) PoolStatus.PAGES < rd s (poolK pool) PoolCtl.PAGE_LIMIT)
    (hfree : 0 < rd s (obj .peatStatus) PeatStatus.PAGES_FREE) : ∃ h, drawPage pool s = some (h, pageDrawn pool s) :=
  ⟨_, if_pos ⟨hlimit, hfree⟩⟩

theorem pageWriting_kept (q n : Nat) (pg : Page) (s : State) : Safety.RegsKept (.qSpill :: .peatCtr :: Safety.telling) s (pageWriting q n pg s) :=
  (Beside.mapF (readyPage_beside (setQ q (tailGiven n s.clock pg (getQ s q)) s)).mono : Beside (.qSpill :: .peatCtr :: Safety.telling) _ _).kept

theorem getQ_pageWriting (q n : Nat) (pg : Page) (s : State) : getQ (pageWriting q n pg s) q = tailGiven n s.clock pg (getQ s q) :=
  ((readyPage_beside _).getQ q).trans (getQ_setQ_self ..)

theorem pageWriting_clock (q n : Nat) (pg : Page) (s : State) : (pageWriting q n pg s).clock = s.clock := readyPage_clock _

section
variable {q : Nat} {flushed : Bool} {r : Ref} {l : List Ref} {s : State} (hnow : pageFill [] (wholeRun s (getQ s q).tail) = r :: l)
include hnow

/-- What fits in a page comes from the tail buffer. -/
theorem tail_ne_nil : (getQ s q).tail ≠ [] := fun h => by simp [h, wholeRun, pageFill] at hnow

theorem writePage_drawn (hlimit : rd s (poolS (refPool s r)) PoolStatus.PAGES < rd s (poolK (refPool s r)) PoolCtl.PAGE_LIMIT)
    (hfree : 0 < rd s (obj .peatStatus) PeatStatus.PAGES_FREE) (hk : spillKey q = some (obj .qSpill q)) :
    ∃ h, writePage q flushed s = pageWriting q (l.length + 1) (newPage q flushed h (refPool s r) (r :: l) (pageDrawn (refPool s r) s))
      (pageDrawn (refPool s r) s) := by
  obtain ⟨h, hdraw⟩ := drawPage_of_room hlimit hfree
  refine ⟨h, ?_⟩
  simp only [writePage, hnow, hdraw, hk]
  rfl

/-- What a page that is drawn and written leaves. -/
theorem writePage_writes (hlimit : rd s (poolS (refPool s r)) PoolStatus.PAGES < rd s (poolK (refPool s r)) PoolCtl.PAGE_LIMIT)
    (hfree : 0 < rd s (obj .peatStatus) PeatStatus.PAGES_FREE) (hk : spillKey q = some (obj .qSpill q)) :
    (∃ pg, getQ (writePage q flushed s) q = tailGiven (l.length + 1) s.clock pg (getQ s q) ∧ pg.phase = .writing ∧ pg.flushed = flushed ∧
      pageRefs pg = (r :: l).map fun x => { x with lease := false, from_ := q }) ∧
    (writePage q flushed s).clock = s.clock ∧
    rd (writePage q flushed s) (obj .peatStatus) PeatStatus.PAGES_FREE + 1 = rd s (obj .peatStatus) PeatStatus.PAGES_FREE ∧
    Safety.RegsKept (.poolStatus :: .peatStatus :: .qSpill :: .peatCtr :: Safety.telling) s (writePage q flushed s) := by
  obtain ⟨h, hw⟩ := writePage_drawn (flushed := flushed) hnow hlimit hfree hk
  have hd := pageDrawn_beside (refPool s r) s
  have hp := pageWriting_kept q (l.length + 1) (newPage q flushed h (refPool s r) (r :: l) (pageDrawn (refPool s r) s)) (pageDrawn (refPool s r) s)
  rw [hw]
  refine ⟨⟨newPage q flushed h (refPool s r) (r :: l) (pageDrawn (refPool s r) s), ?_, rfl, rfl, pageRefs_newPage ..⟩, pageWriting_clock .., ?_,
    RegsKept.trans (RegsKept.mono hd.kept (by decide)) (RegsKept.mono hp (by decide))⟩
  · exact (getQ_pageWriting ..).trans (by rw [hd.getQ]; rfl)
  · rw [RegsKept.rd hp (by decide)]
    exact rd_pageDrawn_free hfree _

/-- No page can be drawn from an empty ring: the packets stay, and the draw is counted. -/
theorem writePage_refused (hfree : rd s (obj .peatStatus) PeatStatus.PAGES_FREE = 0) : writePage q flushed s = bump .poolCtr (refPool s r) 3 1 s := by
  have hdraw : drawPage (refPool s r) s = none := if_neg fun h => by omega
  simp only [writePage, hnow, hdraw]

theorem exec_pageFlush {k : Key} (hsp : (getQ s q).spilled = true) (hk : profileOf s q = some k) :
    exec (.pageFlush q) s = .next (writePage q true (due ((getQ s q).tailFrom + rd s k SpillProf.FLUSH * 1000) s)) := by
  have htail : (getQ s q).tail.isEmpty = false := by simpa using tail_ne_nil hnow
  show execPageFlush q s = _
  simp only [execPageFlush, hk, hsp, htail, Bool.not_false, Bool.and_self, if_true]

end

@[simp] theorem wholeRun_due (t : Nat) (s : State) (l : List Ref) : wholeRun (due t s) l = wholeRun s l := by
  simp only [wholeRun, isArriving, due_line]

@[simp] theorem refPool_due (t : Nat) (s : State) (r : Ref) : refPool (due t s) r = refPool s r := by simp only [refPool, getPkt_due]

/-- PAGE_FLUSH with a page to draw (R296). -/
theorem pageFlush_written {q : Nat} {k : Key} {r : Ref} {l : List Ref} {s : State} (hsp : (getQ s q).spilled = true) (hk : profileOf s q = some k)
    (hnow : pageFill [] (wholeRun s (getQ s q).tail) = r :: l)
    (hlimit : rd s (poolS (refPool s r)) PoolStatus.PAGES < rd s (poolK (refPool s r)) PoolCtl.PAGE_LIMIT)
    (hfree : 0 < rd s (obj .peatStatus) PeatStatus.PAGES_FREE) : Safety.Gives (.pageFlush q) s fun t =>
      (∃ pg, (getQ t q).pages = (getQ s q).pages ++ [pg] ∧ pg.phase = .writing ∧ pg.flushed = true ∧
        pageRefs pg = (r :: l).map fun x => { x with lease := false, from_ := q }) ∧
      (getQ t q).tail = (getQ s q).tail.drop (l.length + 1) ∧ (getQ s q).tailFrom + rd s k SpillProf.FLUSH * 1000 ≤ t.clock ∧
      rd t (obj .peatStatus) PeatStatus.PAGES_FREE + 1 = rd s (obj .peatStatus) PeatStatus.PAGES_FREE ∧
      Safety.RegsKept (.poolStatus :: .peatStatus :: .qSpill :: .peatCtr :: Safety.telling) s t := by
  have hgo := exec_pageFlush hnow hsp hk
  generalize (getQ s q).tailFrom + rd s k SpillProf.FLUSH * 1000 = T at hgo ⊢
  have hrd {j : Key} (f : Fld) (hj : j.ty ∉ Safety.telling) : rd (due T s) j f = rd s j f := RegsKept.rd (due_kept T s) hj f
  obtain ⟨⟨pg, hque, hphase, hfl, hrefs⟩, hclock, hleft, hkept⟩ := writePage_writes (flushed := true) (s := due T s) (r := r) (l := l)
    (by rw [wholeRun_due, getQ_due]; exact hnow)
    (by rw [refPool_due, hrd _ (by simp [poolS]), hrd _ (by simp [poolK])]; exact hlimit) (by rw [hrd _ (by decide)]; exact hfree)
    (spillKey_of_profile hk)
  rw [getQ_due] at hque
  refine ⟨_, hgo, ⟨pg, congrArg Queue.pages hque, hphase, hfl, hrefs⟩, congrArg Queue.tail hque, hclock ▸ due_reaches T s,
    hleft.trans (hrd _ (by decide)), RegsKept.trans (RegsKept.mono (due_kept T s) (by decide)) hkept⟩

/-- PAGE_FLUSH on an empty page ring (R301). -/
theorem pageFlush_refused {q : Nat} {k : Key} {r : Ref} {l : List Ref} {s : State} (hsp : (getQ s q).spilled = true) (hk : profileOf s q = some k)
    (hnow : pageFill [] (wholeRun s (getQ s q).tail) = r :: l) (hfree : rd s (obj .peatStatus) PeatStatus.PAGES_FREE = 0) :
    Safety.Gives (.pageFlush q) s fun t =>
      Safety.Counted .poolCtr (refPool s r) 3 1 s t ∧ t.que = s.que ∧ Safety.RegsKept (.poolCtr :: Safety.telling) s t := by
  have hgo := exec_pageFlush hnow hsp hk
  generalize (getQ s q).tailFrom + rd s k SpillProf.FLUSH * 1000 = T at hgo
  have hkept := due_kept T s
  rw [writePage_refused (r := r) (l := l) (by rw [wholeRun_due, getQ_due]; exact hnow) (by rw [RegsKept.rd hkept (by decide)]; exact hfree),
    refPool_due] at hgo
  exact ⟨_, hgo, counted_from (by decide) (hkept _ (by simp)), by rw [bump_que, due_que],
    RegsKept.trans (RegsKept.mono hkept (by decide)) (kept_bump _ _ _ _ _)⟩

end Sys2Proof.Machine
end

section
/-! The pages of a queue that are read: the start of a return, the packets that join the head segment, those that a read loses, and timeouts
(R297, R298, R302). -/
namespace Sys2Proof.Machine

open Sys2Proof

/-! ## The start of a return (R297) -/

/-- The billets of a page's packets. -/
def pageBillets (p : Page) : Nat := (p.imgs.map fun i => refBillets i.ref).sum

/-- The staging area as it is once a page's packets have their room. -/
def stagedWith (p : Page) (s : State) : Nat := rd s (obj .bufStatus) BufStatus.STAGED + pageBillets p

/-- A return of the first page of a queue that runs low starts where staging has room, and is counted where it has none. -/
theorem exec_pageReturnStart {q : Nat} {p : Page} {s : State} (hsp : (getQ s q).spilled = true)
    (hp : (getQ s q).pages.find? (fun e => !reading e) = some p) (hph : p.phase = .stored)
    (hlow : ∀ k, profileOf s q = some k → sumBillets (getQ s q).head < rd s k SpillProf.RETURN_AT)
    (hfew : ((getQ s q).pages.filter reading).length + ((getQ s q).head.filterMap Ref.page).dedup.length < 2) :
    exec (.pageReturnStart q) s = .next (if stageSize s < stagedWith p s then bump .bufCtr 0 3 1 s
      else mapF (pageInPhase q p (.reading 1) s) (obj .bufStatus) BufStatus.STAGED (· + pageBillets p)) := by
  have hroom := Nat.not_le.2 hfew
  show execPageReturnStart q s = _
  unfold execPageReturnStart
  cases h : profileOf s q with
  | none =>
    simp only [hp]
    rw [if_neg (by simp [hsp, hph, hroom])]
    rfl
  | some k =>
    simp only [hp]
    rw [if_neg (by simp [hsp, hph, hroom, hlow k h])]
    rfl

/-- What fits in the staging area is staged (R297). -/
theorem rd_staged {p : Page} {s u : State} (h : stagedWith p s ≤ stageSize s)
    (hu : rd u (obj .bufStatus) BufStatus.STAGED = rd s (obj .bufStatus) BufStatus.STAGED) :
    rd (mapF u (obj .bufStatus) BufStatus.STAGED (· + pageBillets p)) (obj .bufStatus) BufStatus.STAGED = stagedWith p s := by
  have hlt : stageSize s < 2 ^ 18 := rd_lt ..
  rw [mapF, rd_wr_self, hu]
  exact Nat.mod_eq_of_lt (Nat.lt_of_le_of_lt h hlt)

section
variable {q : Nat} {p : Page} {s : State} (hsp : (getQ s q).spilled = true) (hp : (getQ s q).pages.find? (fun e => !reading e) = some p)
  (hph : p.phase = .stored) (hlow : ∀ k, profileOf s q = some k → sumBillets (getQ s q).head < rd s k SpillProf.RETURN_AT)
  (hfew : ((getQ s q).pages.filter reading).length + ((getQ s q).head.filterMap Ref.page).dedup.length < 2)
include hsp hp hph hlow hfew

theorem pageReturnStart_reads (hfits : stagedWith p s ≤ stageSize s) : Safety.Gives (.pageReturnStart q) s fun t =>
    (getQ t q).pages = rephased p (.reading 1) (getQ s q).pages ∧ rd t (obj .bufStatus) BufStatus.STAGED = stagedWith p s ∧
      Safety.RegsKept [.bufStatus] s t := by
  have hgo := exec_pageReturnStart hsp hp hph hlow hfew
  rw [if_neg (Nat.not_lt.2 hfits)] at hgo
  exact ⟨_, hgo, congrArg Queue.pages (getQ_pageInPhase q p _ s), rd_staged hfits rfl,
    (Beside.mapF (.refl (pageInPhase q p (.reading 1) s)) : Beside [.bufStatus] _ _).kept⟩

theorem pageReturnStart_waits (hfull : stageSize s < stagedWith p s) : Safety.Gives (.pageReturnStart q) s fun t =>
    Safety.Counted .bufCtr 0 3 1 s t ∧ Safety.Told s t ∧ Safety.RegsKept (.bufCtr :: Safety.telling) s t := by
  have hgo := exec_pageReturnStart hsp hp hph hlow hfew
  rw [if_pos hfull] at hgo
  exact ⟨_, hgo, counted_bump _ _ _ _ _ (by decide), told_bump _ _ _ _ _, kept_bump _ _ _ _ _⟩

end

/-! ## A read page ends (R297, R298) -/

/-- A queue that has lost a page from its chain. -/
def withoutPage (p : Page) (x : Queue) : Queue := { x with pages := x.pages.filter fun e => e.handle != p.handle }

/-- The page leaves its queue. -/
def pageTaken (q : Nat) (p : Page) (s : State) : State := setQ q (withoutPage p (getQ s q)) s

/-- It is counted and freed, and the queue may be HOT again. -/
def pageEnded (q : Nat) (p : Page) (s : State) : State := settleQueue q (freePage q p (bump .peatCtr 0 1 1 s))

theorem not_mem_withoutPage {p e : Page} {x : Queue} (h : e ∈ (withoutPage p x).pages) : e.handle ≠ p.handle := by
  simpa using (List.mem_filter.1 h).2

theorem getQ_pageTaken (q : Nat) (p : Page) (s : State) : getQ (pageTaken q p s) q = withoutPage p (getQ s q) := getQ_setQ_self ..

theorem pageTaken_kept (l : List ObjTy) (q : Nat) (p : Page) (s : State) : Safety.RegsKept l s (pageTaken q p s) := setQ_kept _ _ _ _

/-- The spill object of a queue is one. -/
theorem spillKey_ty {q : Nat} {k : Key} (h : spillKey q = some k) : k.ty = .qSpill := by
  unfold spillKey at h
  split at h <;> cases h
  rfl

theorem freePage_beside (q : Nat) (p : Page) (s : State) : Beside [.poolStatus, .peatStatus, .qSpill] s (freePage q p s) := by
  have hfreed : Beside [.poolStatus, .peatStatus, .qSpill] s
      (mapF (mapF s (poolS p.pool) PoolStatus.PAGES (· - 1)) (obj .peatStatus) PeatStatus.PAGES_FREE (· + 1)) := .mapF (.mapF (.refl s))
  unfold freePage
  dsimp only
  split
  · next hk => exact hfreed.mapF (by simp [spillKey_ty hk])
  · exact hfreed

theorem freePage_buf (q : Nat) (p : Page) (s : State) : (freePage q p s).buf = s.buf := by
  unfold freePage
  dsimp only
  split <;> rfl

/-- A queue that is HOT again. -/
def hotAgain (x : Queue) : Queue := { x with head := x.head ++ x.tail, tail := [], spilled := false }

/-- A queue settles or stays as it is; its spill object and the count of SPILLED queues follow. -/
theorem settleQueue_cases (q : Nat) (s : State) : settleQueue q s = s ∨
    Beside [.peatStatus, .qSpill] (setQ q (hotAgain (getQ s q)) s) (settleQueue q s) := by
  unfold settleQueue
  dsimp only
  split
  · right
    have hset : Beside [.peatStatus, .qSpill] (setQ q (hotAgain (getQ s q)) s) (setQ q (hotAgain (getQ s q)) s) := .refl _
    split
    · next hk => exact (hset.wr (by simp [spillKey_ty hk])).mapF
    · exact hset
  · exact .inl rfl

theorem settleQueue_kept (q : Nat) (s : State) : Safety.RegsKept [.peatStatus, .qSpill] s (settleQueue q s) := by
  rcases settleQueue_cases q s with h | h
  · rw [h]
    exact RegsKept.refl _ _
  · exact h.kept

theorem settleQueue_buf (q : Nat) (s : State) : (settleQueue q s).buf = s.buf := by
  unfold settleQueue
  dsimp only
  split
  · split <;> rfl
  · rfl

/-- A queue that settles keeps its pages, and its tail buffer joins its head segment or stays (R298). -/
theorem getQ_settleQueue (q : Nat) (s : State) : (getQ (settleQueue q s) q).pages = (getQ s q).pages ∧
    ∃ m, (getQ (settleQueue q s) q).head = (getQ s q).head ++ m ∧ (m = [] ∨ m = (getQ s q).tail) := by
  rcases settleQueue_cases q s with h | h
  · rw [h]
    exact ⟨rfl, [], (List.append_nil _).symm, .inl rfl⟩
  · rw [h.getQ, getQ_setQ_self]
    exact ⟨rfl, _, rfl, .inr rfl⟩

section
variable (q : Nat) (p : Page) (s : State)

/-- What follows the count of a page that was read. -/
theorem pageFreed_kept : Safety.RegsKept [.poolStatus, .peatStatus, .qSpill] (bump .peatCtr 0 1 1 s) (pageEnded q p s) :=
  RegsKept.trans (freePage_beside _ _ _).kept (RegsKept.mono (settleQueue_kept _ _) (by decide))

theorem pageEnded_kept : Safety.RegsKept (.peatCtr :: .poolStatus :: .peatStatus :: .qSpill :: Safety.telling) s (pageEnded q p s) :=
  RegsKept.trans (RegsKept.mono (kept_bump _ _ _ _ _) (by decide)) (RegsKept.mono (pageFreed_kept q p s) (by decide))

theorem pageEnded_counted : Safety.Counted .peatCtr 0 1 1 s (pageEnded q p s) :=
  counted_then (counted_bump _ _ _ _ _ (by decide)) (pageFreed_kept q p s)

/-- The end of a page leaves the count of the packets that were lost. -/
theorem pageEnded_lost {n : Nat} {a : State} (h : Safety.Counted .peatCtr 0 4 n a s) : Safety.Counted .peatCtr 0 4 n a (pageEnded q p s) :=
  counted_then (peatCounted_bump h) (pageFreed_kept q p s)

theorem pageEnded_buf : (pageEnded q p s).buf = s.buf := by rw [pageEnded, settleQueue_buf, freePage_buf, bump_buf]

theorem getQ_pageEnded : (getQ (pageEnded q p s) q).pages = (getQ s q).pages ∧
    ∃ m, (getQ (pageEnded q p s) q).head = (getQ s q).head ++ m ∧ (m = [] ∨ m = (getQ s q).tail) := by
  have hfreed : getQ (freePage q p (bump .peatCtr 0 1 1 s)) q = getQ s q := by
    rw [(freePage_beside ..).getQ, getQ, bump_que, getQ]
  rw [← hfreed]
  exact getQ_settleQueue q _

end

/-! ## The packets of a page that was read (R297, R302) -/

/-- The places of a list name its elements, in order. -/
theorem filterMap_getElem_range {α : Type} (l : List α) : (List.range l.length).filterMap (fun i => l[i]?) = l := by
  induction l with
  | nil => rfl
  | cons a l ih => simp [List.range_succ_eq_map, List.filterMap_map, ih]

/-- What is done for each place of a list with the element there is done for each element. -/
theorem forAll_places {α : Type} {l : List α} {f : α → State → State} {g : Nat → State → State}
    (h : ∀ j s, g j s = (l[j]?).elim s fun a => f a s) (s : State) : forAll (List.range l.length) g s = forAll l f s := by
  have hg : (fun s j => g j s) = fun s j => match l[j]? with
      | some a => f a s
      | none => s := by
    funext s j
    rw [h]
    cases l[j]? <;> rfl
  unfold forAll
  conv_rhs => rw [← filterMap_getElem_range l, List.foldl_filterMap]
  exact congrArg (fun k => List.foldl k s (List.range l.length)) hg

theorem storePacket_beside (x : Packet) (s : State) : Beside [.bufStatus] s (storePacket x s).2 := .mapF (.parts (.refl s))

theorem returnImage_kept (q page : Nat) (bad : Bool) (i : Image) (s : State) : Safety.RegsKept [.bufStatus] s (returnImage q page bad i s) :=
  (storePacket_beside { i.pkt with bad := i.pkt.bad || bad } s).kept

theorem getQ_returnImage (q page : Nat) (bad : Bool) (i : Image) (s : State) :
    ∃ n, getQ (returnImage q page bad i s) q = { getQ s q with head := (getQ s q).head ++ [{ i.ref with pkt := n, page := some page }] } :=
  ⟨_, getQ_setQ_self ..⟩

theorem returnImages_kept (q page : Nat) (l : List Image) (s : State) :
    Safety.RegsKept [.bufStatus] s (forAll l (returnImage q page false) s) :=
  forAll_keeps l _ (Safety.RegsKept [.bufStatus] s) (fun _ _ h => RegsKept.trans h (returnImage_kept _ _ _ _ _)) s (RegsKept.refl _ _)

/-- The packets of a page join the head segment in their order, each with the page that it came back in. -/
theorem getQ_returnImages (q page : Nat) (l : List Image) (s : State) :
    ∃ m, getQ (forAll l (returnImage q page false) s) q = { getQ s q with head := (getQ s q).head ++ m } ∧
      m.map Ref.len = l.map (fun i => i.ref.len) ∧ ∀ r ∈ m, r.page = some page := by
  induction l generalizing s with
  | nil => exact ⟨[], by rw [List.append_nil]; rfl, rfl, nofun⟩
  | cons i l ih =>
    obtain ⟨n, hn⟩ := getQ_returnImage q page false i s
    obtain ⟨m, hm, hlen, hpage⟩ := ih (returnImage q page false i s)
    refine ⟨{ i.ref with pkt := n, page := some page } :: m, ?_, by simp [hlen], by simpa using hpage⟩
    show getQ (forAll l _ (returnImage q page false i s)) q = _
    rw [hm, hn]
    simp

/-- A clean read returns every packet of its page. -/
theorem endReturn_clean (q : Nat) (p : Page) (s : State) :
    endReturn q p [] [] s = pageEnded q p (forAll p.imgs (returnImage q p.handle false) (pageTaken q p s)) := by
  have hnone : (List.range p.imgs.length).filterMap (fun _ => (none : Option Image)) = [] := List.filterMap_eq_nil_iff.2 fun _ _ => rfl
  unfold endReturn
  simp only [List.contains_nil, Bool.false_eq_true, if_false, hnone, List.isEmpty_nil, if_true]
  rw [forAll_places (f := returnImage q p.handle false) fun j s => by cases p.imgs[j]? <;> rfl]
  rfl

/-- A read that loses every packet of its page returns none. -/
theorem endReturn_lost {p : Page} (h : p.imgs ≠ []) (q : Nat) (s : State) :
    endReturn q p (List.range p.imgs.length) [] s = pageEnded q p (losePackets p.imgs (pageTaken q p s)) := by
  have hlost {j : Nat} (hj : j ∈ List.range p.imgs.length) : (List.range p.imgs.length).contains j = true := List.contains_iff_mem.2 hj
  have hgone : (List.range p.imgs.length).filterMap (fun j => if (List.range p.imgs.length).contains j then p.imgs[j]? else none) = p.imgs := by
    rw [List.filterMap_congr fun j hj => if_pos (hlost hj), filterMap_getElem_range]
  unfold endReturn
  simp only [hgone, List.isEmpty_iff, h, if_false]
  rw [forAll_eq_self]
  · rfl
  · exact fun j hj => if_pos (hlost hj)

theorem losePackets_beside (l : List Image) (s : State) : Beside (.peatCtr :: .bufStatus :: Safety.telling) s (losePackets l s) := by
  unfold losePackets
  exact .mapF (.bump (.refl s))

theorem losePackets_counted (l : List Image) (s : State) : Safety.Counted .peatCtr 0 4 l.length s (losePackets l s) := by
  have hroom : Safety.RegsKept [.bufStatus] (bump .peatCtr 0 4 l.length s) (losePackets l s) := kept_wr _ _ _ _ _ (by simp)
  exact counted_then (counted_bump _ _ _ _ s (by decide)) hroom

theorem losePackets_buf (l : List Image) (s : State) : (losePackets l s).buf = s.buf := bump_buf ..

/-- A page that is lost: every packet of it counted, none returned, and the page gone from its queue (R302). -/
theorem endReturn_loses {p : Page} (h : p.imgs ≠ []) (q : Nat) (s : State) :
    Safety.Counted .peatCtr 0 1 1 s (endReturn q p (List.range p.imgs.length) [] s) ∧
    Safety.Counted .peatCtr 0 4 p.imgs.length s (endReturn q p (List.range p.imgs.length) [] s) ∧
    (∀ e ∈ (getQ (endReturn q p (List.range p.imgs.length) [] s) q).pages, e.handle ≠ p.handle) ∧
    (endReturn q p (List.range p.imgs.length) [] s).buf = s.buf ∧
    Safety.RegsKept (.peatCtr :: .poolStatus :: .peatStatus :: .qSpill :: .bufStatus :: Safety.telling) s
      (endReturn q p (List.range p.imgs.length) [] s) := by
  have hlose := losePackets_beside p.imgs (pageTaken q p s)
  have hqueue := hlose.getQ q
  have hkept := RegsKept.trans (pageTaken_kept _ q p s) hlose.kept
  have hcount := counted_since (pageTaken_kept [] q p s) (losePackets_counted p.imgs (pageTaken q p s))
  have hbuf : (losePackets p.imgs (pageTaken q p s)).buf = s.buf := (losePackets_buf p.imgs (pageTaken q p s)).trans rfl
  have hfirst : rdWord (losePackets p.imgs (pageTaken q p s)) (Safety.counter .peatCtr 0 1) = rdWord s (Safety.counter .peatCtr 0 1) :=
    (rdWord_mapF_ty _ _ _ _ _ (by simp)).trans (bump_ne (counter_ne2 .peatCtr 0 (by decide)) (by simp))
  rw [endReturn_lost h]
  generalize losePackets p.imgs (pageTaken q p s) = u at *
  refine ⟨counted_of_eq (pageEnded_counted q p u) hfirst, pageEnded_lost q p u hcount, fun e he => ?_, (pageEnded_buf ..).trans hbuf,
    RegsKept.trans (RegsKept.mono hkept (by decide)) (RegsKept.mono (pageEnded_kept q p u) (by decide))⟩
  rw [(getQ_pageEnded q p u).1, hqueue, getQ_pageTaken] at he
  exact not_mem_withoutPage he

/-! ## PAGE_RETURN_COMPLETE and PAGE_READ_TIMEOUT (R297, R302) -/

/-- The time of a page's read noted (R303). -/
def readNoted (s : State) : State := { s with buf := { s.buf with rdAt := s.clock :: recent s s.buf.rdAt ms } }

section
variable {q : Nat} {p : Page} {s : State} (hp : (getQ s q).pages.find? reading = some p)
include hp

theorem exec_pageReturnComplete_clean : exec (.pageReturnComplete q .clean) s = .next (endReturn q p [] [] (readNoted s)) := by
  show execPageReturnComplete q .clean s = _
  simp only [execPageReturnComplete, hp]
  rfl

theorem exec_pageReturnComplete_badRecord : exec (.pageReturnComplete q .badRecord) s =
    .next (endReturn q p (List.range p.imgs.length) [] (raiseAt 0x42 0 1 (queueAddr q) (readNoted s))) := by
  show execPageReturnComplete q .badRecord s = _
  simp only [execPageReturnComplete, hp]
  rfl

theorem pageReturnComplete_clean : Safety.Gives (.pageReturnComplete q .clean) s fun t =>
    Safety.Counted .peatCtr 0 1 1 s t ∧ (∀ e ∈ (getQ t q).pages, e.handle ≠ p.handle) ∧
    (∃ l m, (getQ t q).head = (getQ s q).head ++ l ++ m ∧ l.map Ref.len = p.imgs.map (fun i => i.ref.len) ∧
      (∀ r ∈ l, r.page = some p.handle) ∧ (m = [] ∨ m = (getQ s q).tail)) ∧
    Safety.RegsKept (.peatCtr :: .poolStatus :: .peatStatus :: .qSpill :: .bufStatus :: Safety.telling) s t := by
  have hgo := exec_pageReturnComplete_clean hp
  have hkept := RegsKept.trans (pageTaken_kept _ q p (readNoted s)) (returnImages_kept q p.handle p.imgs (pageTaken q p (readNoted s)))
  have hqueue := getQ_returnImages q p.handle p.imgs (pageTaken q p (readNoted s))
  rw [endReturn_clean] at hgo
  generalize forAll p.imgs (returnImage q p.handle false) (pageTaken q p (readNoted s)) = u at *
  rw [getQ_pageTaken, show getQ (readNoted s) q = getQ s q from rfl] at hqueue
  obtain ⟨l, hl, hlen, hpage⟩ := hqueue
  obtain ⟨hpages, m, hm, htail⟩ := getQ_pageEnded q p u
  rw [hl] at hpages hm htail
  have hkept : Safety.RegsKept [.bufStatus] s u := hkept
  refine ⟨_, hgo, counted_since hkept (pageEnded_counted q p u), fun e he => ?_, ⟨l, m, hm, hlen, hpage, htail⟩,
    RegsKept.trans (RegsKept.mono hkept (by decide)) (RegsKept.mono (pageEnded_kept q p u) (by decide))⟩
  rw [hpages] at he
  exact not_mem_withoutPage he

theorem pageReturnComplete_badRecord (himgs : p.imgs ≠ []) : Safety.Gives (.pageReturnComplete q .badRecord) s fun t =>
    Safety.Counted .peatCtr 0 1 1 s t ∧ Safety.Counted .peatCtr 0 4 p.imgs.length s t ∧ (∀ e ∈ (getQ t q).pages, e.handle ≠ p.handle) ∧
      t.buf = { s.buf with rdAt := t.buf.rdAt } ∧
      Safety.RegsKept (.peatCtr :: .poolStatus :: .peatStatus :: .qSpill :: .bufStatus :: Safety.raising) s t := by
  have hgo := exec_pageReturnComplete_badRecord hp
  have hraise : Safety.RegsKept Safety.raising s _ := kept_raiseAt 0x42 0 1 (queueAddr q) (readNoted s)
  have hbuf := raiseAt_buf 0x42 0 1 (queueAddr q) (readNoted s)
  generalize raiseAt 0x42 0 1 (queueAddr q) (readNoted s) = u at *
  obtain ⟨hread, hlost, hgone, hend, hkept⟩ := endReturn_loses himgs q u
  exact ⟨_, hgo, counted_since hraise hread, counted_since hraise hlost, hgone, by rw [hend, hbuf]; rfl,
    RegsKept.trans (RegsKept.mono hraise (by decide)) (RegsKept.mono hkept (by decide))⟩

/-- The first timeout of a read repeats it. -/
theorem pageReadTimeout_first (hph : p.phase = .reading 1) : Safety.Gives (.pageReadTimeout q) s fun t =>
    (getQ t q).pages = rephased p (.reading 2) (getQ s q).pages ∧ Safety.Counted .peatCtr 0 5 1 s t ∧
      Safety.RegsKept (.peatCtr :: Safety.raising) s t := by
  have hgo : exec (.pageReadTimeout q) s = .next (bump .peatCtr 0 5 1
      (setQ q { getQ s q with pages := rephased p (.reading 2) (getQ s q).pages } (raiseAt 0x42 0 4 (queueAddr q) s))) := by
    show execPageReadTimeout q s = _
    simp only [execPageReadTimeout, hp, hph, if_true]
    rfl
  have hraise := kept_raiseAt 0x42 0 4 (queueAddr q) s
  generalize raiseAt 0x42 0 4 (queueAddr q) s = u at hgo hraise
  generalize getQ s q = x at *
  refine ⟨_, hgo, ?_, counted_from (by decide) (hraise _ (by simp)),
    RegsKept.trans (RegsKept.mono hraise (by decide)) (RegsKept.trans (setQ_kept _ q _ u) (RegsKept.mono (kept_bump _ _ _ _ _) (by decide)))⟩
  rw [getQ, bump_que, ← getQ, getQ_setQ_self]

/-- The second loses the page. -/
theorem pageReadTimeout_second (hph : p.phase = .reading 2) (himgs : p.imgs ≠ []) : Safety.Gives (.pageReadTimeout q) s fun t =>
    Safety.Counted .peatCtr 0 4 p.imgs.length s t ∧ ∀ e ∈ (getQ t q).pages, e.handle ≠ p.handle := by
  have hgo : exec (.pageReadTimeout q) s = .next (endReturn q p (List.range p.imgs.length) [] (raiseAt 0x42 0 4 (queueAddr q) s)) := by
    show execPageReadTimeout q s = _
    simp only [execPageReadTimeout, hp, hph]
    rfl
  obtain ⟨-, hlost, hgone, -, -⟩ := endReturn_loses himgs q (raiseAt 0x42 0 4 (queueAddr q) s)
  exact ⟨_, hgo, counted_since (kept_raiseAt 0x42 0 4 (queueAddr q) s) hlost, hgone⟩

end

end Sys2Proof.Machine
end

section
/-! The page ring and Sheepdog (R283, R288, R289), and the claims of peat and Sheepdog: O44. -/
namespace Sys2Proof.Machine

open Sys2Proof

/-! ## The page ring (R283) -/

/-- How many of the stacks HQ0 to HQ3 are READY. -/
def readyStacks (s : State) : Nat := (([2, 3, 4, 5] : List Nat).filter (hbmReady s)).length

theorem readyStacks_le (s : State) : readyStacks s ≤ 4 := List.length_filter_le ..

/-- The page ring of the stacks that are READY. -/
def ringBuilt (s : State) : State :=
  wr (wr s (obj .peatStatus) PeatStatus.READY 1) (obj .peatStatus) PeatStatus.PAGES_FREE (1474560 * readyStacks s - (pagesInUse s).length)

theorem exec_pageRingBuilt {s : State} (hended : ∀ st ∈ [2, 3, 4, 5], rd s (obj .hbStatus st) HbStatus.STATE ≠ 0)
    (hnew : flag s (obj .peatStatus) PeatStatus.READY = false) : exec .pageRingBuilt s = .next (if 2 ≤ readyStacks s then ringBuilt s else s) := by
  have hall : ([2, 3, 4, 5].all fun st => rd s (obj .hbStatus st) HbStatus.STATE != 0) = true := by simpa using hended
  show execPageRingBuilt s = _
  simp only [execPageRingBuilt, hall, hnew, Bool.true_and, Bool.not_false, Bool.and_true, decide_eq_true_eq]
  rfl

theorem pageRingBuilt_ready {s : State} (hended : ∀ st ∈ [2, 3, 4, 5], rd s (obj .hbStatus st) HbStatus.STATE ≠ 0)
    (hnew : flag s (obj .peatStatus) PeatStatus.READY = false) (htwo : 2 ≤ readyStacks s) : Safety.Gives .pageRingBuilt s fun t =>
      flag t (obj .peatStatus) PeatStatus.READY = true ∧
      rd t (obj .peatStatus) PeatStatus.PAGES_FREE = 1474560 * readyStacks s - (pagesInUse s).length ∧
      t = { s with regs := t.regs } ∧ Safety.RegsKept [.peatStatus] s t := by
  have hle := readyStacks_le s
  have hgo := exec_pageRingBuilt hended hnew
  rw [if_pos htwo] at hgo
  refine ⟨_, hgo, ?_, ?_, rfl, (Beside.wr (.wr (.refl s))).kept⟩
  · rw [flag, ringBuilt, rd_wr_apart _ _ _ (by decide), rd_wr_self]
    rfl
  · rw [ringBuilt, rd_wr_self]
    exact Nat.mod_eq_of_lt (show _ < 2 ^ 23 by omega)

theorem pageRingBuilt_waits {s : State} (hended : ∀ st ∈ [2, 3, 4, 5], rd s (obj .hbStatus st) HbStatus.STATE ≠ 0)
    (hnew : flag s (obj .peatStatus) PeatStatus.READY = false) (hfew : readyStacks s < 2) : Safety.Gives .pageRingBuilt s fun t => t = s := by
  refine ⟨_, exec_pageRingBuilt hended hnew, if_neg (Nat.not_le.2 hfew)⟩

/-! ## The start of a round (R288) -/

/-- A table whose values change by a function of their keys reads so. -/
theorem tabGet?_map {β : Type} (t : Tab β) (f : Nat × β → β) (n : Nat) :
    tabGet? (t.map fun e => (e.1, f e)) n = (tabGet? t n).map fun x => f (n, x) := by
  induction t with
  | nil => rfl
  | cons e t ih =>
    obtain ⟨k, v⟩ := e
    simp only [List.map_cons, tabGet?, ih]
    split
    · next h => simp [h]
    · rfl

/-- A packet with the mark of a round, where a root reaches it. -/
def marked (roots : List Nat) (n : Nat) (e : Nat × Packet) : Packet := if roots.contains e.1 then { e.2 with mark := n % 256 } else e.2

/-- A round that begins marks what its roots reach. -/
def roundBegun (s : State) : State :=
  { s with buf := { s.buf with round := true, roundAt := s.clock, rounds := s.buf.rounds + 1,
                               pkts := s.buf.pkts.map fun e => (e.1, marked (rooted s) (s.buf.rounds + 1) e) } }

/-- The time at which a round begins: PERIOD after the one before, at once for the first. -/
def roundDue (s : State) : State :=
  if s.buf.rounds = 0 then s else due (s.buf.roundAt + rd s (obj .shCtl) ShCtl.PERIOD * ms) s

theorem exec_sheepdogRoundStart {s : State} (hen : flag s (obj .shCtl) ShCtl.EN = true) (hr : s.buf.round = false) :
    exec .sheepdogRoundStart s = .next (roundBegun (roundDue s)) := by
  show execSheepdogRoundStart s = _
  simp only [execSheepdogRoundStart, hen, hr, Bool.not_false, Bool.and_self, if_true]
  rfl

theorem roundDue_kept (s : State) : Safety.RegsKept Safety.telling s (roundDue s) := by
  unfold roundDue
  split
  · exact RegsKept.refl _ _
  · exact due_kept _ _

theorem roundDue_buf (s : State) : (roundDue s).buf = s.buf := by
  unfold roundDue
  split
  · rfl
  · exact due_buf ..

theorem roundDue_reaches {s : State} (h : s.buf.rounds ≠ 0) :
    s.buf.roundAt + rd s (obj .shCtl) ShCtl.PERIOD * ms ≤ (roundDue s).clock := by
  unfold roundDue
  rw [if_neg h]
  exact due_reaches ..

/-- Time that comes moves no root. -/
theorem rooted_due (t : Nat) (s : State) : rooted (due t s) = rooted s := by
  rw [due_parts]
  rfl

theorem rooted_roundDue (s : State) : rooted (roundDue s) = rooted s := by
  unfold roundDue
  split
  · rfl
  · exact rooted_due ..

theorem getPkt_roundBegun {s : State} {n : Nat} {x : Packet} (h : getPkt s n = some x) :
    getPkt (roundBegun s) n = some { x with mark := if n ∈ rooted s then (s.buf.rounds + 1) % 256 else x.mark } := by
  show tabGet? (s.buf.pkts.map _) n = _
  rw [tabGet?_map, show tabGet? s.buf.pkts n = some x from h, Option.map_some, marked]
  by_cases hn : n ∈ rooted s <;> simp [hn]

/-- SHEEPDOG_ROUND_START (R288). -/
theorem sheepdogRoundStart_begins {s : State} (hen : flag s (obj .shCtl) ShCtl.EN = true) (hr : s.buf.round = false) :
    Safety.Gives .sheepdogRoundStart s fun t =>
      t.buf.round = true ∧ t.buf.rounds = s.buf.rounds + 1 ∧ Safety.RegsKept Safety.telling s t ∧
      (s.buf.rounds ≠ 0 → s.buf.roundAt + rd s (obj .shCtl) ShCtl.PERIOD * ms ≤ t.clock) ∧
      ∀ n x, getPkt s n = some x → getPkt t n = some { x with mark := if n ∈ rooted s then (s.buf.rounds + 1) % 256 else x.mark } := by
  have hbuf := roundDue_buf s
  refine ⟨_, exec_sheepdogRoundStart hen hr, rfl, congrArg (Buf.rounds · + 1) hbuf, roundDue_kept s, roundDue_reaches, fun n x hx => ?_⟩
  rw [getPkt_roundBegun (x := x) (by rw [getPkt, hbuf]; exact hx), rooted_roundDue, hbuf]

/-! ## The end of a round (R288, R289) -/

/-- The descriptors in use that a round has not marked. -/
def unmarked (b : Buf) : List Nat := (b.pkts.filter fun e => e.2.mark != b.rounds % 256).map fun e => e.2.desc

/-- The pages that no queue names, as the numbers of stray items. -/
def strayPages (b : Buf) : List Nat := (b.lostPages.map Prod.fst).map (· + Config.billets)

/-- What the round before has found too. -/
def leakedDescs (b : Buf) : List Nat := (unmarked b).filter fun i => b.suspects.contains i
/-- See `leakedDescs`. -/
def leakedBillets (b : Buf) : List Nat := b.lostBillets.filter fun i => b.strays.contains i
/-- See `leakedDescs`. -/
def leakedPages (b : Buf) : List Nat := (strayPages b).filter fun i => b.strays.contains i

/-- The objects that the messages of a round name. -/
def leakedItems (s : State) : List Key :=
  (leakedDescs s.buf).map (fun d => obj .pktDesc d) ++ (leakedBillets s.buf).map (fun _ => obj .bufStatus) ++
    (leakedPages s.buf).map fun h => pageOwner s (h - Config.billets)

/-- Every leaked item counted and told. -/
def leaksFound (s : State) : State := forAll (leakedItems s).zipIdx (fun e s => leakFound e.1 e.2 s) s

/-- The packets of leaked descriptors reclaimed. -/
def packetsReclaimed (ds : List Nat) (s : State) : State := forAll ((s.buf.pkts.filter fun e => ds.contains e.2.desc).map Prod.fst) freePacket s

/-- What a round reclaims of the items that it found leaked. -/
def leaksReclaimed (b : Buf) (s : State) : State :=
  forAll (leakedBillets b) reclaimBillet (forAll (leakedPages b) (fun h s => reclaimPage (h - Config.billets) s) (packetsReclaimed (leakedDescs b) s))

/-- The status of a round that ended, what it found kept for the next. -/
def roundShown (took leaks : Nat) (b : Buf) (s : State) : State :=
  let s := { s with buf := { s.buf with round := false, suspects := unmarked b, strays := b.lostBillets ++ strayPages b } }
  let s := wr (mapF s (obj .shStatus) ShStatus.ROUND (· + 1)) (obj .shStatus) ShStatus.LAST_MS took
  let s := wr s (obj .shStatus) ShStatus.SUSPECTS ((unmarked b).length + b.lostBillets.length + (strayPages b).length)
  wr s (obj .shStatus) ShStatus.LAST_LEAKS leaks

/-- The round counted. -/
def roundClosed (took leaks : Nat) (b : Buf) (s : State) : State := bump .poolGctr 5 0 1 (roundShown took leaks b s)

/-- The round's end at its time. -/
def roundEnded (took : Nat) (u : State) : State :=
  roundClosed took (leakedItems u).length u.buf
    (if flag u (obj .shCtl) ShCtl.RECLAIM then leaksReclaimed u.buf (leaksFound u) else leaksFound u)

theorem exec_sheepdogRoundEnd {s : State} (hr : s.buf.round = true) (took : Fin 101) :
    exec (.sheepdogRoundEnd took) s = .next (roundEnded took.val (due (s.buf.roundAt + took.val * ms) s)) := by
  show execSheepdogRoundEnd took s = _
  simp only [execSheepdogRoundEnd, hr, Bool.not_true, Bool.false_eq_true, if_false]
  rfl

section
variable (took leaks : Nat) (b : Buf) (s : State)

theorem roundShown_kept : Safety.RegsKept [.shStatus] s (roundShown took leaks b s) := by
  unfold roundShown
  exact (Beside.wr (.wr (.wr (.mapF (.parts (.refl s)))))).kept

theorem roundShown_buf : (roundShown took leaks b s).buf =
    { s.buf with round := false, suspects := unmarked b, strays := b.lostBillets ++ strayPages b } := by
  simp only [roundShown, wr_buf, mapF_buf]

theorem roundShown_clock : (roundShown took leaks b s).clock = s.clock := by simp only [roundShown, wr_clock, mapF_clock]

theorem rd_roundShown_leaks (h : leaks < 2 ^ 20) : rd (roundShown took leaks b s) (obj .shStatus) ShStatus.LAST_LEAKS = leaks := by
  rw [roundShown, rd_wr_self]
  exact Nat.mod_eq_of_lt h

theorem rd_roundShown_ms (h : took < 2 ^ 16) : rd (roundShown took leaks b s) (obj .shStatus) ShStatus.LAST_MS = took := by
  rw [roundShown, rd_wr_apart _ _ _ (by decide), rd_wr_apart _ _ _ (by decide), rd_wr_self]
  exact Nat.mod_eq_of_lt h

theorem rd_roundShown_round : rd (roundShown took leaks b s) (obj .shStatus) ShStatus.ROUND =
    (rd s (obj .shStatus) ShStatus.ROUND + 1) % 2 ^ 32 := by
  rw [roundShown, rd_wr_apart _ _ _ (by decide), rd_wr_apart _ _ _ (by decide), rd_wr_apart _ _ _ (by decide), mapF, rd_wr_self]
  rfl

/-- The count of rounds leaves the status of Sheepdog. -/
theorem rd_roundClosed (f : Fld) : rd (roundClosed took leaks b s) (obj .shStatus) f = rd (roundShown took leaks b s) (obj .shStatus) f :=
  rd_bump_ty _ _ _ _ _ _ _ (by simp) (by simp)

theorem roundClosed_kept : Safety.RegsKept (.shStatus :: .poolGctr :: Safety.telling) s (roundClosed took leaks b s) :=
  RegsKept.trans (RegsKept.mono (roundShown_kept took leaks b s) (by decide)) (RegsKept.mono (kept_bump _ _ _ _ _) (by decide))

theorem roundClosed_buf : (roundClosed took leaks b s).buf =
    { s.buf with round := false, suspects := unmarked b, strays := b.lostBillets ++ strayPages b } := by
  rw [roundClosed, bump_buf, roundShown_buf]

theorem getPkt_roundClosed (n : Nat) : getPkt (roundClosed took leaks b s) n = getPkt s n := by simp only [getPkt, roundClosed_buf]

theorem roundClosed_clock : (roundClosed took leaks b s).clock = s.clock := by rw [roundClosed, bump_clock, roundShown_clock]

theorem roundClosed_counted : Safety.Counted .poolGctr 5 0 1 s (roundClosed took leaks b s) :=
  counted_from (by decide) (roundShown_kept took leaks b s _ (by simp))

/-- The count of rounds leaves that of the items reclaimed. -/
theorem roundClosed_reclaimed {n : Nat} {a : State} (h : Safety.Counted .poolGctr 3 0 n a s) :
    Safety.Counted .poolGctr 3 0 n a (roundClosed took leaks b s) :=
  (bump_ne (counter_ne .poolGctr (a := 3) rfl (by decide)) (by simp)).trans (counted_then h (roundShown_kept took leaks b s))

end

theorem leakedDescs_nil {b : Buf} (h : ∀ e ∈ b.pkts, e.2.mark ≠ b.rounds % 256 → e.2.desc ∉ b.suspects) : leakedDescs b = [] := by
  refine List.filter_eq_nil_iff.2 fun d hd => ?_
  obtain ⟨e, he, rfl⟩ := List.mem_map.1 hd
  obtain ⟨hmem, hmark⟩ := List.mem_filter.1 he
  rw [List.contains_iff_mem]
  exact h e hmem (bne_iff_ne.1 hmark)

theorem leakedBillets_nil {b : Buf} (h : ∀ i ∈ b.lostBillets, i ∉ b.strays) : leakedBillets b = [] := by
  refine List.filter_eq_nil_iff.2 fun i hi => ?_
  rw [List.contains_iff_mem]
  exact h i hi

theorem leakedPages_nil {b : Buf} (h : ∀ e ∈ b.lostPages, e.1 + Config.billets ∉ b.strays) : leakedPages b = [] := by
  refine List.filter_eq_nil_iff.2 fun i hi => ?_
  obtain ⟨n, hn, rfl⟩ := List.mem_map.1 hi
  obtain ⟨e, he, rfl⟩ := List.mem_map.1 hn
  rw [List.contains_iff_mem]
  exact h e he

/-- With no billet and no page to reclaim, only packets are. -/
theorem leaksReclaimed_packets {b : Buf} (hb : leakedBillets b = []) (hp : leakedPages b = []) (s : State) :
    leaksReclaimed b s = packetsReclaimed (leakedDescs b) s := by
  rw [leaksReclaimed, hb, hp]
  rfl

theorem packetsReclaimed_none (s : State) : packetsReclaimed [] s = s := by simp [packetsReclaimed, forAll]

/-- A round that finds nothing leaked changes nothing but its status. -/
theorem roundEnded_clean {u : State} (hd : leakedDescs u.buf = []) (hb : leakedBillets u.buf = []) (hp : leakedPages u.buf = []) (took : Nat) :
    roundEnded took u = roundClosed took 0 u.buf u := by
  have hitems : leakedItems u = [] := by simp [leakedItems, hd, hb, hp]
  have hfound : leaksFound u = u := by rw [leaksFound, hitems]; rfl
  have hreclaim : leaksReclaimed u.buf u = u := by rw [leaksReclaimed_packets hb hp, hd, packetsReclaimed_none]
  rw [roundEnded, hfound, hreclaim, hitems, ite_self]
  rfl

/-- SHEEPDOG_ROUND_END when nothing was suspect or stray before (R289). -/
theorem sheepdogRoundEnd_clean {s : State} (took : Fin 101) (hr : s.buf.round = true)
    (hd : ∀ e ∈ s.buf.pkts, e.2.mark ≠ s.buf.rounds % 256 → e.2.desc ∉ s.buf.suspects) (hb : ∀ i ∈ s.buf.lostBillets, i ∉ s.buf.strays)
    (hp : ∀ e ∈ s.buf.lostPages, e.1 + Config.billets ∉ s.buf.strays) : Safety.Gives (.sheepdogRoundEnd took) s fun t =>
      t.buf.round = false ∧ t.buf.suspects = unmarked s.buf ∧
        rd t (obj .shStatus) ShStatus.LAST_LEAKS = 0 ∧ rd t (obj .shStatus) ShStatus.LAST_MS = took.val ∧
        rd t (obj .shStatus) ShStatus.ROUND = (rd s (obj .shStatus) ShStatus.ROUND + 1) % 2 ^ 32 ∧ t.buf.pkts = s.buf.pkts ∧
        s.buf.roundAt + took.val * ms ≤ t.clock ∧ Safety.Counted .poolGctr 5 0 1 s t ∧
        Safety.RegsKept (.shStatus :: .poolGctr :: Safety.telling) s t := by
  have hgo := exec_sheepdogRoundEnd hr took
  have hreach := due_reaches (s.buf.roundAt + took.val * ms) s
  have hkept := due_kept (s.buf.roundAt + took.val * ms) s
  have hbuf := due_buf (s.buf.roundAt + took.val * ms) s
  have hms : took.val < 2 ^ 16 := by omega
  generalize due (s.buf.roundAt + took.val * ms) s = u at *
  rw [← hbuf] at hd hb hp
  rw [roundEnded_clean (leakedDescs_nil hd) (leakedBillets_nil hb) (leakedPages_nil hp)] at hgo
  have hclosed := roundClosed_buf took.val 0 u.buf u
  refine ⟨_, hgo, by rw [hclosed], by rw [hclosed, hbuf], (rd_roundClosed ..).trans (rd_roundShown_leaks _ _ _ _ (by decide)),
    (rd_roundClosed ..).trans (rd_roundShown_ms _ _ _ _ hms), ?_,
    by rw [hclosed, hbuf], (roundClosed_clock took.val 0 u.buf u).symm ▸ hreach, counted_since hkept (roundClosed_counted ..),
    RegsKept.trans (RegsKept.mono hkept (by decide)) (roundClosed_kept took.val 0 u.buf u)⟩
  rw [rd_roundClosed, rd_roundShown_round, RegsKept.rd hkept (by decide)]

/-- A packet that is freed among others is stored no more. -/
theorem getPkt_packetsReclaimed {ds : List Nat} {s : State} {n : Nat} {x : Packet} (h : (n, x) ∈ s.buf.pkts) (hx : x.desc ∈ ds) :
    getPkt (packetsReclaimed ds s) n = none := by
  have hn : n ∈ (s.buf.pkts.filter fun e => ds.contains e.2.desc).map Prod.fst :=
    List.mem_map.2 ⟨(n, x), List.mem_filter.2 ⟨h, List.contains_iff_mem.2 hx⟩, rfl⟩
  refine forAll_reaches (fun _ => True) (fun t => getPkt t n = none) hn (fun _ _ _ => trivial) (fun t _ => getPkt_freePacket_self n t)
    (fun m t _ ht => ?_) trivial
  by_cases hm : n = m
  · rw [hm]
    exact getPkt_freePacket_self m t
  · exact (getPkt_freePacket_ne hm t).trans ht

theorem packetsReclaimed_kept (ds : List Nat) (s : State) : Safety.RegsKept [.bufStatus, .poolStatus] s (packetsReclaimed ds s) :=
  forAll_keeps _ freePacket (Safety.RegsKept [.bufStatus, .poolStatus] s)
    (fun n t h => RegsKept.trans h (freePacket_beside n t).kept) s (RegsKept.refl _ _)

theorem leakFound_reclaims {k : Key} {s : State} (h : flag s (obj .shCtl) ShCtl.RECLAIM = true) :
    leakFound k 0 s = raiseAt 0x41 2 5 k (bump .poolGctr 3 0 1 s) := by
  simp [leakFound, h]

theorem leaksFound_one {s : State} {k : Key} (h : leakedItems s = [k]) : leaksFound s = leakFound k 0 s := by
  rw [leaksFound, h]
  rfl

/-- A leaked descriptor counted and told. -/
def descLeaked (d : Nat) (s : State) : State := raiseAt 0x41 2 5 (obj .pktDesc d) (bump .poolGctr 3 0 1 s)

/-- A round that finds one descriptor leaked, and RECLAIM set, reclaims its packets. -/
theorem roundEnded_leak {u : State} {d : Nat} (hd : leakedDescs u.buf = [d]) (hb : leakedBillets u.buf = []) (hp : leakedPages u.buf = [])
    (hre : flag u (obj .shCtl) ShCtl.RECLAIM = true) (took : Nat) :
    roundEnded took u = roundClosed took 1 u.buf (packetsReclaimed [d] (descLeaked d u)) := by
  have hitems : leakedItems u = [obj .pktDesc d] := by
    rw [leakedItems, hd, hb, hp]
    rfl
  have hfound : leaksFound u = descLeaked d u := by rw [leaksFound_one hitems, leakFound_reclaims hre, descLeaked]
  rw [roundEnded, if_pos hre, hfound, leaksReclaimed_packets hb hp, hd, hitems, List.length_singleton]

/-- SHEEPDOG_ROUND_END when the one descriptor that it has not marked was suspect before (R289). -/
theorem sheepdogRoundEnd_leak {s : State} {n : Nat} {x : Packet} (took : Fin 101) (hr : s.buf.round = true)
    (hone : (s.buf.pkts.filter fun e => e.2.mark != s.buf.rounds % 256) = [(n, x)]) (hx : x.desc ∈ s.buf.suspects)
    (hb : s.buf.lostBillets = []) (hp : s.buf.lostPages = []) (hre : flag s (obj .shCtl) ShCtl.RECLAIM = true) :
    Safety.Gives (.sheepdogRoundEnd took) s fun t =>
      getPkt t n = none ∧ rd t (obj .shStatus) ShStatus.LAST_LEAKS = 1 ∧ Safety.Counted .poolGctr 3 0 1 s t := by
  have hgo := exec_sheepdogRoundEnd hr took
  have hkept := due_kept (s.buf.roundAt + took.val * ms) s
  have hbuf := due_buf (s.buf.roundAt + took.val * ms) s
  generalize due (s.buf.roundAt + took.val * ms) s = u at *
  rw [← hbuf] at hone hx hb hp
  have hreclaim : flag u (obj .shCtl) ShCtl.RECLAIM = true := by
    rw [flag, RegsKept.rd hkept (by decide)]
    exact hre
  have hdescs : leakedDescs u.buf = [x.desc] := by simp [leakedDescs, unmarked, hone, hx]
  have hmem : (n, x) ∈ u.buf.pkts := (List.mem_filter.1 (hone ▸ List.mem_singleton_self _)).1
  have hstored : (n, x) ∈ (descLeaked x.desc u).buf.pkts := by
    rw [descLeaked, raiseAt_buf, bump_buf]
    exact hmem
  have hcount : Safety.Counted .poolGctr 3 0 1 s (descLeaked x.desc u) :=
    counted_then (counted_since hkept (counted_bump _ _ _ _ _ (by decide))) (kept_raiseAt _ _ _ _ _)
  rw [roundEnded_leak hdescs (leakedBillets_nil (hb ▸ nofun)) (leakedPages_nil (hp ▸ nofun)) hreclaim] at hgo
  refine ⟨_, hgo, ?_, (rd_roundClosed ..).trans (rd_roundShown_leaks _ _ _ _ (by decide)),
    roundClosed_reclaimed _ _ _ _ (counted_then hcount (packetsReclaimed_kept _ _))⟩
  rw [getPkt_roundClosed]
  exact getPkt_packetsReclaimed hstored (by simp)

/-! ## The claims -/

/-- Settles O44, clause by clause: a page that is written, a tail buffer flushed or held, a return that starts or waits, a read that ends, loses
its page or times out, the page ring, and the start and the end of a round. -/
theorem peatAndSheepdog : Obligations.PeatAndSheepdog := by
  unfold Obligations.PeatAndSheepdog
  refine ⟨fun q p s hp => pageWriteComplete_stored hp,
    fun q k r l s hsp hk hnow => ⟨fun hlimit hfree => pageFlush_written hsp hk hnow hlimit hfree, fun hfree => pageFlush_refused hsp hk hnow hfree⟩,
    fun q p s hsp hp hph hlow hfew => ⟨fun hfits => pageReturnStart_reads hsp hp hph hlow hfew hfits,
      fun hfull => pageReturnStart_waits hsp hp hph hlow hfew hfull⟩,
    fun q p s hp => ⟨pageReturnComplete_clean hp, fun himgs => pageReturnComplete_badRecord hp himgs, fun hph => pageReadTimeout_first hp hph,
      fun hph himgs => pageReadTimeout_second hp hph himgs⟩,
    fun s hended hnew => ⟨fun htwo => pageRingBuilt_ready hended hnew htwo, fun hfew => pageRingBuilt_waits hended hnew hfew⟩,
    fun s hen hr => sheepdogRoundStart_begins hen hr,
    fun took s hr => ⟨fun hd hb hp => sheepdogRoundEnd_clean took hr hd hb hp,
      fun n x hone hx hb hp hre => sheepdogRoundEnd_leak took hr hone hx hb hp hre⟩⟩

end Sys2Proof.Machine
end

section
/-! What queues and scheduling do, step by step (R307 to R336): the states between the steps of their operations, and what relates such states. -/
namespace Sys2Proof.Machine

open Sys2Proof

/-! ## Gates (R327, R328) -/

/-- The cycle of the admin list, in units of 2^-16 ns. -/
def adminCycle (s : State) (p : Nat) : Nat := (durations s p (adminList s p) (rd s (gateKey p) GateCtl.COUNT)).sum * 65536

/-- BASE_TIME of a port, in units of 2^-16 ns. -/
def gateBase (s : State) (p : Nat) : Nat :=
  let base := rd s (gateKey p) GateCtl.BASE_TIME
  (base / 2 ^ 32 * 10 ^ 9 + base % 2 ^ 32) * 65536

/-- The check of a port's GO has ended. -/
def gateChecked (p : Nat) (s : State) : State := setGate p { getGate s p with checking := none } s

/-- The control object takes the value that GO was written with. -/
def gateStored (p new : Nat) (s : State) : State := storeObj (gateKey p) new (gateChecked p s)

/-- A list that passed waits for its T0. -/
def gatePended (p new : Nat) (s : State) : State :=
  let u := gateStored p new s
  wr (setGate p { getGate s p with checking := none,
                                   pending := some (gateT0 u (gateBase u p) (adminCycle u p), rd u (gateKey p) GateCtl.COUNT, gateBase u p) } u)
    (gateKey p) GateCtl.BAD 0

/-- A list whose T0 has come is in force from its first entry on. -/
def gateStarted (p t0 n base : Nat) (s : State) : State :=
  setGate p { getGate s p with pending := none, start := t0, entry := 0, count := n, base := base, restart := none } (reach t0 s)

/-- The next entry of the list in force. -/
def gateNext (p : Nat) (s : State) : State :=
  setGate p { getGate s p with entry := (getGate s p).entry + 1 } (reach (entryEnd s p) s)

/-- The list starts again as its cycle ends. -/
def gateAgain (p : Nat) (s : State) : State :=
  setGate p { getGate s p with start := entryEnd s p, entry := 0, restart := none } (reach (entryEnd s p) s)

/-! ## Class map entries, CLEAR and the sampler (R309, R318, R335) -/

/-- An entry that has taken effect. -/
def classWord (x n base log : Nat) : Nat := putF (putF (putF x (classBase n) base) (classLog2 n) log) (classPending n) 0

/-- The entry of a port and class takes effect. -/
def classApplied (p n base log : Nat) (s : State) : State :=
  wrWord { s with que := { s.que with classNew := tabDel s.que.classNew (8 * p + n) } } (obj .classMap p)
    (classWord (rdWord s (obj .classMap p)) n base log)

/-- The objects that hold a bucket pair: meters, and the shapers of every level. -/
def bucketTypes : List ObjTy := [.meter, .shPort, .shGrp, .shTen, .shSub, .shQueue]

/-- A write of CLEAR: the tokens due are credited, the object is stored, and both levels are set to their depths. -/
def bucketCleared (k : Key) (s : State) : State := clearBucket k (storeObj k (putF (rdWord s k) Meter.CLEAR 1) (touchBucket k s))

/-- How long the head of the queue that the sampler visits has been there, in ns; 0 of an empty queue. -/
def sojourn (s : State) : Nat :=
  if depth (getQ s s.que.sampleQ) = 0 then 0
  else match (getQ s s.que.sampleQ).head with
    | r :: _ => min ((ivl s - sinceOf s r) / 65536) 0xFFFFFFFF
    | [] => 0

/-- What the sampler writes of a queue before it turns to the next. -/
def sampled (s : State) : State :=
  let k := queueState s.que.sampleQ
  let d := depth (getQ s s.que.sampleQ)
  wr (wr (wr { s with que := { s.que with sampleQ := (s.que.sampleQ + 1) % sampledQueues } } k VqState.SDEPTH d) k VqState.SOJOURN (sojourn s)) k
    VqState.SFLAG (if d = 0 then 2 else 1)

/-! ## The egress dequeue (R322 to R325) -/

/-- The objects that a dequeue writes: ACTIVE of the nodes below the ports. -/
def nodeTypes : List ObjTy := [.grpCfg, .tenCfg, .subCfg, .eqCfg]

/-- A state that the operations of a dequeue lead to from another: only those objects, and block EGQ's own state, may differ. -/
def Served (a s : State) : Prop := Safety.RegsKept nodeTypes a s ∧ ∃ regs que, s = { a with regs := regs, que := que }

/-- A state in which only ACTIVE, the virtual times, the tags and what is held may differ from another. -/
def Ranked (a s : State) : Prop := Served a s ∧ s.que.queues = a.que.queues ∧ s.que.buckets = a.que.buckets

/-- A bucket pair after a packet of `len` bytes. -/
def charged (s : State) (k : Key) (len : Nat) : Bucket :=
  { credited s k with tc := (credited s k).tc - 1024 * (len : Int), tp := (credited s k).tp - 1024 * (len : Int) }

/-- The charge of one node of the chain. -/
def chargeNode (len : Nat) (x : Nat × Nat) (s : State) : State :=
  let s := takeBucket (shaperKey x.1 x.2) len s
  if x.1 = 0 then s
  else
    let tag := tagOf s x.1 x.2
    let w := rd s (nodeKey x.1 x.2) GrpCfg.WEIGHT
    let s := setV (x.1 - 1) (parentOf s x.1 x.2) (bandOf s x.1 x.2) tag s
    setTag x.1 x.2 (tag + BitVec.ofNat 64 ((len * 4096 + w - 1) / w)) s

/-- The head segment without its head packet. -/
def headGone (q : Nat) (rest : List Ref) (s : State) : State := setQ q { getQ s q with head := rest, headAt := ivl s } s

/-- The time is noted at which a queue fell empty (R312). -/
def emptyNoted (q : Nat) (s : State) : State := if depth (getQ s q) = 0 then setQ q { getQ s q with emptyAt := ivl s } s else s

/-- The packet goes over the bridge, under the number of its dequeue. -/
def overBridge (p : Nat) (r : Ref) (s : State) : State :=
  sendData 1 (.egress { ref := r, port := p, tc := r.tc, no := s.eng.deqNo }) { s with eng := { s.eng with deqNo := s.eng.deqNo + 1 } }

/-! ## Meters (R314 to R316) -/

/-- A meter has given a packet of `len` bytes its colour: the levels are kept, and the packet is counted under the colour (R314, R316). -/
def coloured (m c len : Nat) (b : Bucket) (s : State) : State :=
  bump .mtCtr m (2 * c + 1) len (bump .mtCtr m (2 * c) 1 (setBucket (obj .meter m) b s))

/-- The objects that `Unmetered` operations leave: the counters of the meters, and the pair's control. -/
def meterTypes : List ObjTy := [.mtCtr, .prCtl]

/-- A state that operations beside meters and shapers lead to from another: every bucket pair is as it was, and so is every counter of a meter
and the pair's control. -/
def Unmetered (a s : State) : Prop := s.que.buckets = a.que.buckets ∧ ∀ k, k.ty ∈ meterTypes → rdWord s k = rdWord a k

/-! ## VOQ_ENQUEUE and PFC (R310, R333) -/

/-- The billets of a packet counted in a port's input occupancy. -/
def occGrown (p n : Nat) (s : State) (b : Nat) : State := { s with que := { s.que with inOcc := tabSet s.que.inOcc (8 * p + n) (inOcc s p n + b) 0 } }

/-- The class is signalled from now on. -/
def xoffNoted (k : Nat) (s : State) : State := { s with que := { s.que with xoff := tabPut s.que.xoff k s.clock } }

/-- The VOQ of a destination. -/
def destVoq (x : Nat) : Nat := voqOf (destOf x).node (destOf x).port (destOf x).tc

/-- A queue with a reference at its end. -/
def joined (r : Ref) (now : Nat) (x : Queue) : Queue := { x with head := x.head ++ [r], headAt := if x.head.isEmpty then now else x.headAt }

/-- The reference to a packet that the queue it enters owns, with its number there. -/
def voqRef (r : Ref) (n q : Nat) : Ref := { r with lease := false, qseq := n, from_ := q }

/-- The counters of a VOQ after a packet of `len` bytes. -/
def voqCounted (q len : Nat) (s : State) : State := bump .vqCtr q 1 len (bump .vqCtr q 0 1 s)

/-- The reference of a pass result's packet, which nothing owns yet, with its drop precedence. -/
def resultRef (x : PassResult) (p : Packet) (prec : Nat) : Ref :=
  { pkt := x.pkt, lease := false, tc := (destOf x.next).tc, len := p.len, prec := prec, mirror := none, words := p.words, group := none,
    occ := true, page := none, qseq := 0, from_ := ownerNone }

/-- A packet with the destination that its pass has set. -/
def addressed (x : PassResult) (p : Packet) : Packet :=
  { p with tc := (destOf x.next).tc, node := (destOf x.next).node, port := (destOf x.next).port, hash := x.hash }

/-- A packet that is offered to its VOQ with a drop precedence: where it is admitted, the input occupancy of its port grows. -/
def voqAdmit (x : PassResult) (p : Packet) (prec : Nat) (s : State) : State :=
  let a := admitTo (destVoq x.next) (resultRef x p prec) s
  if a.1 then enterOcc p.arrPort (destOf x.next).tc (billetsOf p.len) a.2 else a.2

/-- The colour of a packet that its pass has given a meter, and the state after the meter. -/
def metered (x : PassResult) (p : Packet) (s : State) : Option Nat × State :=
  match x.meter with
  | some (m, pre) => runMeter m pre p.len none s
  | none => (none, s)

/-- Whether a packet of a colour is dropped by its meter. -/
def dropsRed (x : PassResult) (c : Option Nat) (s : State) : Bool :=
  match x.meter with
  | some (m, _) => c == some red && !flag s (obj .meter m) Meter.RED_ACT
  | none => false

/-- A VOQ with a packet that has joined it. -/
def voqJoined (q : Nat) (r : Ref) (p : Packet) (s : State) : State :=
  let u := voqCounted q (frameLen r) (touchAvg q s)
  setQ q (joined r (ivl u) (getQ (touchAvg q s) q)) (putPkt r.pkt { p with owner := q } u)

/-- The oldest result has reached block VOQ. -/
def resultTaken (rest : List PassResult) (s : State) : State := { s with que := { s.que with results := rest } }

/-- The oldest result's packet has the destination that its pass has set. -/
def offered (x : PassResult) (rest : List PassResult) (p : Packet) (s : State) : State := putPkt x.pkt (addressed x p) (resultTaken rest s)

end Sys2Proof.Machine
end

section
/-! What joins a VOQ is counted first. This comes before the rest, and in turn: it takes seconds, in which the theorems that precede this text
come to their end, and their threads are free again. -/
namespace Sys2Proof.Machine

open Sys2Proof

set_option Elab.async false

/-- Once it is counted, that a packet joins a VOQ changes no object. -/
theorem voqCounted_voqJoined_kept (q : Nat) (r : Ref) (p : Packet) (s : State) :
    Safety.RegsKept [] (voqCounted q (frameLen r) (touchAvg q s)) (voqJoined q r p s) := fun _ _ => rfl

end Sys2Proof.Machine

end

section
/-! Gate control lists: O43 (R327, R328): GO and the check of its list, the list that comes into force, its entries, and EN. -/
namespace Sys2Proof.Machine

open Sys2Proof

-- The lemmas of this section are elaborated in turn, so that they take no thread, and no stack, each.
set_option Elab.async false

/-! ## A write of a gate's control (R327, R328) -/

/-- A write of a port's gate control takes effect: GO waits for its check, and any other value is stored. -/
theorem writeObjects_gate {c : Hdr} {p x : Nat} {s : State} {w : Waiting} (h : Safety.Write s c w (gateKey p) x) :
    writeObjects c [(gateKey p, x)] s = if getF x GateCtl.GO = 1 then gateGo c p x s
      else replyWrite c (gateKey p) (storeObj (gateKey p) x s) := by
  have hro : readOnly (gateKey p) = false := rfl
  have hform : formFault s [(gateKey p, x)] = none := by simp [formFault, hro, h.fields, h.range]
  have hstate : firstState [(gateKey p, x)] s = none := by simp [firstState, h.state]
  simp only [writeObjects, hform, hstate]
  simp [gateKey, forAll, applyWrite]

/-! ## The gate of a port -/

@[simp] theorem getGate_setGate_self (p : Nat) (g : Gate) (s : State) : getGate (setGate p g s) p = g := tabGet_put_self ..

theorem getGate_congr {s t : State} (h : t.que.gates = s.que.gates) (p : Nat) : getGate t p = getGate s p := by
  unfold getGate
  rw [h]

/-- The entries of a list rest on its objects. -/
theorem durations_congr {s t : State} (h : ∀ i, rdWord t (obj .gateList i) = rdWord s (obj .gateList i)) (p k n : Nat) :
    durations t p k n = durations s p k n := by
  simp only [durations, gateEntry, h]

/-- Which list is the admin list rests on the port's control object. -/
theorem adminList_congr {s t : State} {p : Nat} (hf : rd t (gateKey p) GateCtl.IN_FORCE = rd s (gateKey p) GateCtl.IN_FORCE)
    (ho : rd t (gateKey p) GateCtl.OPER = rd s (gateKey p) GateCtl.OPER) : adminList t p = adminList s p := by
  have hforce : gateInForce t p = gateInForce s p := congrArg (· == 1) hf
  simp only [adminList, hforce, ho]

/-- OPER names one of two lists, and so does the admin list. -/
theorem adminList_lt_two (s : State) (p : Nat) : adminList s p < 2 := by
  unfold adminList
  split <;> omega

/-- A list that passes its check has an entry, and each of its entries a duration (R328). -/
theorem adminCycle_pos {s : State} {p : Nat} (h : listOk s p = true) : 0 < adminCycle s p := by
  simp only [listOk, Bool.and_eq_true, decide_eq_true_eq, List.all_eq_true] at h
  obtain ⟨⟨hone, -⟩, hlong, -⟩ := h
  have hmem : (gateEntry s p (adminList s p) 0).2 ∈ durations s p (adminList s p) (rd s (gateKey p) GateCtl.COUNT) :=
    List.mem_map.2 ⟨0, List.mem_range.2 hone, rfl⟩
  have hlow := hlong _ hmem
  have hsum := List.le_sum_of_mem hmem
  unfold adminCycle
  omega

/-- T0 is the first cycle boundary from BASE_TIME on that is at least 10 µs from now (R328). -/
theorem gateT0_first {s : State} {base cycle : Nat} (hc : 0 < cycle) : ∃ k, gateT0 s base cycle = base + cycle * k ∧
    s.ct + 10000 * 65536 ≤ gateT0 s base cycle ∧ (k = 0 ∨ base + cycle * (k - 1) < s.ct + 10000 * 65536) := by
  unfold gateT0
  generalize s.ct + 10000 * 65536 = least
  dsimp only
  split
  · next h => exact ⟨0, by simp, h, .inl rfl⟩
  · next h =>
    obtain ⟨d, rfl⟩ := Nat.exists_eq_add_of_lt (Nat.lt_of_not_le h)
    have hup : (base + d + 1 - base + cycle - 1) / cycle = d / cycle + 1 := by
      rw [show base + d + 1 - base + cycle - 1 = d + cycle by omega, Nat.add_div_right _ hc]
    have hdiv := Nat.div_add_mod d cycle
    have hmod := Nat.mod_lt d hc
    rw [hup]
    refine ⟨d / cycle + 1, rfl, ?_, .inr ?_⟩
    · rw [Nat.mul_add_one]
      omega
    · rw [Nat.add_sub_cancel]
      omega

/-! ## GO and EN 0 are written (R327, R328) -/

/-- EN is written as it is given. -/
theorem en_mem {p : Nat} : rwF GateCtl.EN 0 ∈ fieldsOf (gateKey p).ty := show rwF GateCtl.EN 0 ∈ fieldsGateCtl by decide

/-- A write does not reach IN_FORCE. -/
theorem inForce_mem {p : Nat} : roF GateCtl.IN_FORCE 0 ∈ fieldsOf (gateKey p).ty := show roF GateCtl.IN_FORCE 0 ∈ fieldsGateCtl by decide

section
variable {c : Hdr} {p : Nat} {s : State} {w : Waiting}

/-- A write of a port's gate control that no check and no state stands against comes to its object. -/
theorem hostWrite_gate {f : Nat → Nat} (h : Safety.Write s c w (gateKey p) (f (rdWord s (gateKey p)))) :
    hostWrite c (gateKey p) f s = writeObjects c [(gateKey p, f (rdWord s (gateKey p)))] s := by
  have hplen := h.turn.length
  have hacc : writeAccess s c.sid.val 0x0202 (some [gateKey p]) = accConfig := by simp [writeAccess, gateKey]
  have hex : exists? (gateKey p) = true := rfl
  unfold hostWrite
  simp only [waitingOf_only h.turn.only h.turn.mine, h.turn.opcode]
  norm_num
  rw [hacc, checked_pass (w := w) (by rw [hplen]; exact h.turn) (by simp [hplen])]
  simp [hex]

/-- GATE_GO: the write waits for the check of its list. -/
theorem gateGo_waits {p : Fin 48} (h : Safety.Sets s c w (gateKey p.val) GateCtl.GO 1) : Safety.Gives (.gateGo c p) s fun t =>
    (getGate t p.val).checking = some (c, putF (rdWord s (gateKey p.val)) GateCtl.GO 1) ∧
    t.cmd.waiting = [{ w with phase := .started 0x49 }] ∧
    t = { s with cmd := { s.cmd with waiting := t.cmd.waiting }, que := { s.que with gates := t.que.gates } } := by
  have hgo : getF (putF (rdWord s (gateKey p.val)) GateCtl.GO 1) GateCtl.GO = 1 := getF_put_self ..
  have hexec : exec (.gateGo c p) s = .next (gateGo c p.val (putF (rdWord s (gateKey p.val)) GateCtl.GO 1) s) :=
    congrArg Host.Outcome.next ((hostWrite_gate (f := fun x => putF x GateCtl.GO 1) h).trans ((writeObjects_gate h).trans (if_pos hgo)))
  rw [gateGo, defer, setPhase_only _ (s := setGate p.val _ s) h.turn.only h.turn.mine h.turn.queued] at hexec
  exact ⟨_, hexec, congrArg Gate.checking (getGate_setGate_self ..), rfl, rfl⟩

/-- GATE_DISABLE: EN is 0 from the write on, and the list in force runs on to the end of its cycle. -/
theorem gateDisable_stored {p : Fin 48} (h : Safety.Sets s c w (gateKey p.val) GateCtl.EN 0) (hg : rd s (gateKey p.val) GateCtl.GO = 0) :
    Safety.Gives (.gateDisable c p) s fun t =>
      Safety.Answered [.gateCtl] s t w [] ∧ flag t (gateKey p.val) GateCtl.EN = false ∧ gateInForce t p.val = gateInForce s p.val := by
  have hgo : getF (putF (rdWord s (gateKey p.val)) GateCtl.EN 0) GateCtl.GO = 0 := (getF_put_apart _ _ (by decide)).trans hg
  have hexec := (hostWrite_gate (f := fun x => putF x GateCtl.EN 0) h).trans ((writeObjects_gate h).trans (if_neg (by omega)))
  have hkept := storeObj_kept (gateKey p.val) (putF (rdWord s (gateKey p.val)) GateCtl.EN 0) s
  have hen : rd (storeObj (gateKey p.val) (putF (rdWord s (gateKey p.val)) GateCtl.EN 0) s) (gateKey p.val) GateCtl.EN = 0 :=
    (rd_storeObj_rw en_mem rfl).trans (getF_put_self ..)
  have hforce : rd (storeObj (gateKey p.val) (putF (rdWord s (gateKey p.val)) GateCtl.EN 0) s) (gateKey p.val) GateCtl.IN_FORCE =
      rd s (gateKey p.val) GateCtl.IN_FORCE := rd_storeObj_ro inForce_mem rfl
  have ha := replyWrite_answered h (u := storeObj (gateKey p.val) (putF (rdWord s (gateKey p.val)) GateCtl.EN 0) s) rfl
    fun n => hkept _ (by simp [sessKey, gateKey])
  refine ⟨_, congrArg Host.Outcome.next hexec, Answered.after ha hkept rfl, ?_, ?_⟩
  · rw [flag, Answered.rd ha (by exact nofun)]
    exact beq_false_of_ne (by rw [hen]; decide)
  · exact congrArg (· == 1) ((Answered.rd ha (by exact nofun) _).trans hforce)

end

/-! ## The check ends (R328) -/

theorem exec_gateCheckComplete {p : Fin 48} {s : State} {c : Hdr} {new : Nat} (h : (getGate s p.val).checking = some (c, new)) :
    exec (.gateCheckComplete p) s = .next (if listOk (gateStored p.val new s) p.val
      then replyWith c (gateKey p.val) (rdWord (gatePended p.val new s) (gateKey p.val)) (gatePended p.val new s)
      else refuse c stState (addrOf (gateKey p.val)) (wr (gateChecked p.val s) (gateKey p.val) GateCtl.BAD 1)) := by
  show execGateCheckComplete p s = _
  simp only [execGateCheckComplete, h]
  rfl

theorem gateStored_kept (p new : Nat) (s : State) : Safety.RegsKept [.gateCtl] s (gateStored p new s) :=
  storeObj_kept (gateKey p) new (gateChecked p s)

theorem gatePended_kept (p new : Nat) (s : State) : Safety.RegsKept [.gateCtl] s (gatePended p new s) :=
  RegsKept.trans (gateStored_kept p new s) (kept_wr _ (gateKey p) _ _ _ (by simp [gateKey]))

/-- What waits for T0 leaves the fields of the control object as they were stored, but for BAD. -/
theorem rd_gatePended {f : Fld} (h : GateCtl.BAD.apart f = true) (p new : Nat) (s : State) :
    rd (gatePended p new s) (gateKey p) f = rd (gateStored p new s) (gateKey p) f := rd_wr_apart _ _ _ h

section
variable {p : Nat} {new : Nat} {s : State} {c : Hdr} {w : Waiting} (hwait : s.cmd.waiting = [w]) (hmine : w.hdr = c)
  (hphase : w.phase = .started 0x49) (hop : w.op = 0x0202) (hseq : rd s (sessKey c.sid.val) SessStatus.NEXT_SEQ < 2 ^ 64 - 4096)
include hwait hmine hphase hop hseq

theorem gatePended_answered : Safety.Answered [] (gatePended p new s)
    (replyWith c (gateKey p) (rdWord (gatePended p new s) (gateKey p)) (gatePended p new s)) w [] := by
  have hw : (gatePended p new s).cmd.waiting = [w] := hwait
  have hroom : nextSeqOf (gatePended p new s) c.sid.val + fragments (24 + 0) < 2 ^ 64 := by
    rw [nextSeqOf, RegsKept.rd (gatePended_kept p new s) (by simp [sessKey])]
    exact one_fragment (Nat.zero_le _) (by omega)
  rw [show replyWith c (gateKey p) _ (gatePended p new s) = ok c [] (gatePended p new s) by
    simp [replyWith, waitingOf_only hw hmine, hop, done, ok]]
  exact ok_answered_undone hw hmine (by rw [hphase]; exact nofun) (by rw [hop]; decide) hroom

/-- GATE_CHECK_COMPLETE of a list that passes. -/
theorem gateCheckComplete_passed {p : Fin 48} (h : (getGate s p.val).checking = some (c, new))
    (hok : listOk (storeObj (gateKey p.val) new s) p.val = true) : Safety.Gives (.gateCheckComplete p) s fun t =>
      Safety.Done t w [] ∧ rd t (gateKey p.val) GateCtl.EN = getF new GateCtl.EN ∧ Safety.RegsKept [.gateCtl, .sessStatus] s t ∧
      ∃ t0 n base k cycle, (getGate t p.val).pending = some (t0, n, base) ∧ (getGate t p.val).checking = none ∧
        n = rd t (gateKey p.val) GateCtl.COUNT ∧ cycle = (durations t p.val (adminList t p.val) n).sum * 65536 ∧
        t0 = base + cycle * k ∧ s.ct + 10000 * 65536 ≤ t0 ∧ (k = 0 ∨ base + cycle * (k - 1) < s.ct + 10000 * 65536) := by
  have hgo := (exec_gateCheckComplete h).trans (congrArg Host.Outcome.next (if_pos hok))
  have ha := gatePended_answered (p := p.val) (new := new) hwait hmine hphase hop hseq
  have hgate (t : State) (ht : Safety.Answered [] (gatePended p.val new s) t w []) : getGate t p.val = getGate (gatePended p.val new s) p.val := by
    obtain ⟨-, -, hparts⟩ := ht
    exact getGate_congr (by rw [hparts]) _
  generalize replyWith c (gateKey p.val) _ (gatePended p.val new s) = t at hgo ha
  have hrd {f : Fld} (hf : GateCtl.BAD.apart f = true) : rd t (gateKey p.val) f = rd (gateStored p.val new s) (gateKey p.val) f :=
    (Answered.rd ha (by exact nofun) f).trans (rd_gatePended hf ..)
  have hlists (i : Nat) : rdWord t (obj .gateList i) = rdWord (gateStored p.val new s) (obj .gateList i) :=
    (Answered.rdWord ha (by exact nofun)).trans (kept_wr _ (gateKey p.val) _ _ [.gateCtl] (by simp [gateKey]) _ (by simp))
  obtain ⟨k, hk, hleast, hfirst⟩ := gateT0_first (s := gateStored p.val new s) (base := gateBase (gateStored p.val new s) p.val)
    (adminCycle_pos (s := gateStored p.val new s) hok)
  refine ⟨t, hgo, ha.1, ?_, ?_, _, _, _, k, _, congrArg Gate.pending ((hgate t ha).trans (getGate_setGate_self ..)),
    congrArg Gate.checking ((hgate t ha).trans (getGate_setGate_self ..)), (hrd (by decide)).symm, ?_, hk, hleast, hfirst⟩
  · rw [hrd (by decide)]
    exact rd_storeObj_rw en_mem rfl
  · exact RegsKept.mono (Answered.kept ha (gatePended_kept p.val new s)) (by simp)
  · rw [durations_congr hlists, adminList_congr (hrd (by decide)) (hrd (by decide))]
    rfl

/-- A command that waits behind its own phase is refused with a status that raises a fault message: its reply leaves, and objects that the
message does not write stay. -/
theorem refuse_waited {st : Nat} {addr : ObjAddr} (hb : st ≠ stBusy) (hl : logged st = true) :
    (refuse c st addr s).cmd.waiting = [] ∧ Safety.RegsKept Safety.raising s (refuse c st addr s) ∧
      (refuse c st addr s).que.gates = s.que.gates := by
  obtain ⟨e, he⟩ := refuse_of_logged (c := c) (addr := addr) (s := s) hb hl
  have hbound := Sends.nextSeqOf_raise e s c.sid.val
  have hroom : nextSeqOf (raise e s) c.sid.val + fragments (24 + 0) < 2 ^ 64 := by
    refine one_fragment (Nat.zero_le _) ?_
    have : nextSeqOf s c.sid.val < 2 ^ 64 - 4096 := hseq
    omega
  obtain ⟨g, x, y, l, heq, hregs, -⟩ := finish_parts (st := st) (addr := addr) (hint := 0) (r := []) ((raise_waiting e s).trans hwait) hmine
    (by rw [hphase]; exact nofun) (by rw [hop]; decide) hroom
  rw [he, heq]
  refine ⟨rfl, fun k hk => ?_, (congrArg (·.2.2.2.2.2.1) (raise_queHeld e s) :)⟩
  exact (hregs k (by rintro hs; simp [hs] at hk)).trans (kept_raise e s k hk)

/-- GATE_CHECK_COMPLETE of a list that fails. -/
theorem gateCheckComplete_failed {p : Fin 48} (h : (getGate s p.val).checking = some (c, new))
    (hbad : listOk (storeObj (gateKey p.val) new s) p.val = false) : Safety.Gives (.gateCheckComplete p) s fun t =>
      rd t (gateKey p.val) GateCtl.BAD = 1 ∧ t.cmd.waiting = [] ∧ (getGate t p.val).checking = none ∧
        (getGate t p.val).pending = (getGate s p.val).pending ∧ Safety.RegsKept (.gateCtl :: Safety.raising) s t := by
  have hgo := (exec_gateCheckComplete h).trans (congrArg Host.Outcome.next (if_neg (ne_true_of_eq_false hbad)))
  obtain ⟨hnone, hkept, hgates⟩ := refuse_waited (s := wr (gateChecked p.val s) (gateKey p.val) GateCtl.BAD 1) (st := stState)
    (addr := addrOf (gateKey p.val)) hwait hmine hphase hop (by rw [rd_wr_ty _ _ _ _ _ _ (by exact nofun)]; exact hseq) (by decide) (by decide)
  have hgate : getGate (refuse c stState (addrOf (gateKey p.val)) (wr (gateChecked p.val s) (gateKey p.val) GateCtl.BAD 1)) p.val =
      { getGate s p.val with checking := none } := (getGate_congr hgates _).trans (getGate_setGate_self ..)
  refine ⟨_, hgo, ?_, hnone, by rw [hgate], by rw [hgate], ?_⟩
  · exact (RegsKept.rd hkept (by simp [gateKey]) _).trans (rd_wr_self ..)
  · exact RegsKept.trans (t := wr (gateChecked p.val s) (gateKey p.val) GateCtl.BAD 1)
      (kept_wr (gateChecked p.val s) (gateKey p.val) _ _ _ (by simp [gateKey])) (RegsKept.mono hkept (by simp))

end

/-! ## The list in force (R328) -/

theorem exec_gateListStart {p : Fin 48} {t0 n base : Nat} {s : State} (h : (getGate s p.val).pending = some (t0, n, base)) :
    exec (.gateListStart p) s = .next (wr (wr (gateStarted p.val t0 n base s) (gateKey p.val) GateCtl.OPER (adminList (reach t0 s) p.val))
      (gateKey p.val) GateCtl.IN_FORCE 1) := by
  show execGateListStart p s = _
  simp only [execGateListStart, h]
  rfl

/-- GATE_LIST_START. -/
theorem gateListStart_inForce {p : Fin 48} {t0 n base : Nat} {s : State} (h : (getGate s p.val).pending = some (t0, n, base)) :
    Safety.Gives (.gateListStart p) s fun t =>
      gateInForce t p.val = true ∧ rd t (gateKey p.val) GateCtl.OPER = adminList s p.val ∧ t0 ≤ t.ct ∧
        (getGate t p.val).pending = none ∧ (getGate t p.val).start = t0 ∧ (getGate t p.val).entry = 0 ∧ (getGate t p.val).count = n ∧
        Safety.RegsKept (.gateCtl :: Safety.telling) s t := by
  have hreach := reach_kept t0 s
  have hadmin : adminList (reach t0 s) p.val = adminList s p.val :=
    adminList_congr (RegsKept.rd hreach (by simp [gateKey]) _) (RegsKept.rd hreach (by simp [gateKey]) _)
  have hgate {t : State} (ht : t.que = (gateStarted p.val t0 n base s).que) : getGate t p.val =
      { getGate s p.val with pending := none, start := t0, entry := 0, count := n, base := base, restart := none } :=
    (getGate_congr (congrArg Que.gates ht) _).trans (getGate_setGate_self ..)
  refine ⟨_, exec_gateListStart h, ?_, ?_, le_reach_ct t0 s, congrArg Gate.pending (hgate rfl), congrArg Gate.start (hgate rfl),
    congrArg Gate.entry (hgate rfl), congrArg Gate.count (hgate rfl), fun k hk => ?_⟩
  · exact beq_iff_eq.2 (rd_wr_self ..)
  · rw [rd_wr_apart _ _ _ (by decide), rd_wr_self, hadmin]
    exact Nat.mod_eq_of_lt (adminList_lt_two s p.val)
  · have hty : k.ty ≠ .gateCtl := fun e => hk (by simp [e])
    rw [rdWord_wr_ty _ _ _ _ _ hty, rdWord_wr_ty _ _ _ _ _ hty]
    exact hreach k fun e => hk (List.mem_cons_of_mem _ e)

section
variable {p : Fin 48} {s : State} (hf : gateInForce s p.val = true) (hr : (getGate s p.val).restart = none)
include hf hr

theorem exec_gateEntryChange : exec (.gateEntryChange p) s = .next (if (getGate s p.val).entry + 1 < (getGate s p.val).count then gateNext p.val s
    else if flag (gateAgain p.val s) (gateKey p.val) GateCtl.EN then gateAgain p.val s
      else wr (gateAgain p.val s) (gateKey p.val) GateCtl.IN_FORCE 0) := by
  show execGateEntryChange p s = _
  have hnone : (getGate s p.val).restart.isNone = true := Option.isNone_iff_eq_none.2 hr
  simp only [execGateEntryChange, hf, hnone, Bool.not_true, Bool.false_eq_true, if_false, true_and]
  rfl

/-- GATE_ENTRY_CHANGE within a cycle. -/
theorem gateEntryChange_next (hmore : (getGate s p.val).entry + 1 < (getGate s p.val).count) : Safety.Gives (.gateEntryChange p) s fun t =>
    (getGate t p.val).entry = (getGate s p.val).entry + 1 ∧ entryEnd s p.val ≤ t.ct ∧ Safety.RegsKept Safety.telling s t :=
  ⟨_, (exec_gateEntryChange hf hr).trans (congrArg Host.Outcome.next (if_pos hmore)), congrArg Gate.entry (getGate_setGate_self ..),
    le_reach_ct _ s, reach_kept _ s⟩

/-- GATE_ENTRY_CHANGE at the end of a cycle. -/
theorem gateEntryChange_again (hlast : (getGate s p.val).count ≤ (getGate s p.val).entry + 1) : Safety.Gives (.gateEntryChange p) s fun t =>
    (getGate t p.val).entry = 0 ∧ (getGate t p.val).start = entryEnd s p.val ∧ entryEnd s p.val ≤ t.ct ∧
      gateInForce t p.val = flag s (gateKey p.val) GateCtl.EN ∧ Safety.RegsKept (.gateCtl :: Safety.telling) s t := by
  have hgo := (exec_gateEntryChange hf hr).trans (congrArg Host.Outcome.next (if_neg (Nat.not_lt.2 hlast)))
  have hreach : Safety.RegsKept Safety.telling s (gateAgain p.val s) := reach_kept (entryEnd s p.val) s
  have hgate {t : State} (ht : t.que = (gateAgain p.val s).que) : getGate t p.val =
      { getGate s p.val with start := entryEnd s p.val, entry := 0, restart := none } :=
    (getGate_congr (congrArg Que.gates ht) _).trans (getGate_setGate_self ..)
  have hrd (f : Fld) : rd (gateAgain p.val s) (gateKey p.val) f = rd s (gateKey p.val) f := RegsKept.rd hreach (by simp [gateKey]) f
  have hen : flag (gateAgain p.val s) (gateKey p.val) GateCtl.EN = flag s (gateKey p.val) GateCtl.EN := congrArg (· == 1) (hrd _)
  rw [hen] at hgo
  cases he : flag s (gateKey p.val) GateCtl.EN
  · rw [he] at hgo
    refine ⟨_, hgo, congrArg Gate.entry (hgate rfl), congrArg Gate.start (hgate rfl), le_reach_ct _ s, ?_, ?_⟩
    · exact beq_false_of_ne (by rw [show obj .gateCtl p.val = gateKey p.val from rfl]; simp)
    · exact RegsKept.trans (RegsKept.mono hreach (by simp)) (kept_wr _ (gateKey p.val) _ _ _ (by simp [gateKey]))
  · rw [he] at hgo
    exact ⟨_, hgo, congrArg Gate.entry (hgate rfl), congrArg Gate.start (hgate rfl), le_reach_ct _ s, (congrArg (· == 1) (hrd _)).trans hf,
      RegsKept.mono hreach (by simp)⟩

end

/-- Settles O43: GO by the check that it waits for, the list that passed by its T0, its entries by their ends. -/
theorem gateLists : Obligations.GateLists := by
  unfold Obligations.GateLists
  exact ⟨fun c p s w h => gateGo_waits h,
    fun c p new s w hchecking hwait hmine hphase hop hseq =>
      ⟨fun hok => gateCheckComplete_passed hwait hmine hphase hop hseq hchecking hok,
        fun hbad => gateCheckComplete_failed hwait hmine hphase hop hseq hchecking hbad⟩,
    fun p t0 n base s h => gateListStart_inForce h,
    fun p s hf hr => ⟨fun hmore => gateEntryChange_next hf hr hmore, fun hlast => gateEntryChange_again hf hr hlast⟩,
    fun c p s w h hg => gateDisable_stored h hg⟩

end Sys2Proof.Machine
end

section
/-! Bucket pairs (R317, R318): what they rest on and their CLEAR; class map entries (R309), and the sampler (R335). -/
namespace Sys2Proof.Machine

open Sys2Proof

-- The lemmas of this section are elaborated in turn, so that they take no thread, and no stack, each.
set_option Elab.async false

/-! ## Buckets -/

@[simp] theorem bucket_setBucket_self (k : Key) (b : Bucket) (s : State) : tabGet? (setBucket k b s).que.buckets (keyNo k) = some b :=
  tabGet?_put_self ..

/-- The levels of a bucket pair rest on what it was left with, the time since then, and its object. -/
theorem credited_congr {s t : State} {k : Key} (hb : tabGet? t.que.buckets (keyNo k) = tabGet? s.que.buckets (keyNo k)) (hi : ivl t = ivl s)
    (hk : rdWord t k = rdWord s k) : credited t k = credited s k := by
  simp only [credited, bucketOf, hb, hi, rd, hk]

/-! ## A pending class map entry (R309) -/

/-- The three fields of an entry share no bit. -/
theorem classFields_apart : ∀ n : Fin 8, (classPending n.val).apart (classBase n.val) = true ∧
    (classPending n.val).apart (classLog2 n.val) = true ∧ (classLog2 n.val).apart (classBase n.val) = true := by decide

theorem getF_classWord (x : Nat) {base log : Nat} (n : Fin 8) (hbase : base < 2 ^ 18) (hlog : log < 16) :
    getF (classWord x n.val base log) (classBase n.val) = base ∧ getF (classWord x n.val base log) (classLog2 n.val) = log ∧
      getF (classWord x n.val base log) (classPending n.val) = 0 := by
  obtain ⟨hpb, hpl, hlb⟩ := classFields_apart n
  refine ⟨?_, ?_, ?_⟩
  · rw [classWord, getF_put_apart _ _ hpb, getF_put_apart _ _ hlb, getF_put_self]
    exact Nat.mod_eq_of_lt hbase
  · rw [classWord, getF_put_apart _ _ hpl, getF_put_self]
    exact Nat.mod_eq_of_lt hlog
  · rw [classWord, getF_put_self]
    exact Nat.zero_mod _

section
variable {p : Fin 48} {tc : Fin 8} {base log : Nat} {s : State} (hnew : tabGet? s.que.classNew (8 * p.val + tc.val) = some (base * 16 + log))
include hnew

/-- CLASS_MAP_APPLY, once the old range is empty. -/
theorem classMapApply_applies (hbase : base < 2 ^ 18) (hlog : log < 16)
    (hempty : rangeEmpty s (rd s (obj .classMap p.val) (classBase tc.val)) (rd s (obj .classMap p.val) (classLog2 tc.val)) = true) :
    Safety.Gives (.classMapApply p tc) s fun t =>
      rd t (obj .classMap p.val) (classBase tc.val) = base ∧ rd t (obj .classMap p.val) (classLog2 tc.val) = log ∧
        rd t (obj .classMap p.val) (classPending tc.val) = 0 ∧ tabGet? t.que.classNew (8 * p.val + tc.val) = none ∧
        Safety.RegsKept [.classMap] s t := by
  have hgo : applyClass p.val tc.val s = classApplied p.val tc.val base log s := by
    rw [rd, rd] at hempty
    have hdiv : (base * 16 + log) / 16 = base := by omega
    have hmod : (base * 16 + log) % 16 = log := by omega
    simp only [applyClass, hnew, hempty, hdiv, hmod, if_true]
    rfl
  obtain ⟨hb, hl, hp⟩ := getF_classWord (rdWord s (obj .classMap p.val)) tc hbase hlog
  have hread (f : Fld) : rd (classApplied p.val tc.val base log s) (obj .classMap p.val) f =
      getF (classWord (rdWord s (obj .classMap p.val)) tc.val base log) f := rd_wrWord_self ..
  refine ⟨_, congrArg Host.Outcome.next hgo, (hread _).trans hb, (hread _).trans hl, (hread _).trans hp, tabGet?_del_self .., ?_⟩
  exact kept_wrWord { s with que := { s.que with classNew := tabDel s.que.classNew (8 * p.val + tc.val) } } _ _ _ (by simp [obj])

/-- CLASS_MAP_APPLY, while the old range still holds a packet. -/
theorem classMapApply_waits
    (hbusy : rangeEmpty s (rd s (obj .classMap p.val) (classBase tc.val)) (rd s (obj .classMap p.val) (classLog2 tc.val)) = false) :
    Safety.Gives (.classMapApply p tc) s fun t => t = s := by
  rw [rd, rd] at hbusy
  have hstay : applyClass p.val tc.val s = s := by simp only [applyClass, hnew, hbusy, Bool.false_eq_true, if_false]
  exact ⟨s, congrArg Host.Outcome.next hstay, rfl⟩

end

/-! ## CLEAR of a bucket pair (R318) -/

theorem bucketTypes_ne : ∀ ty ∈ bucketTypes,
    ty ≠ .opKey ∧ ty ≠ .gateCtl ∧ ty ≠ .saSlot ∧ ty ≠ .cakSlot ∧ ty ≠ .sessStatus := by decide

theorem bucketTypes_writable {k : Key} (h : k.ty ∈ bucketTypes) : readOnly k = false ∧ exists? k = true := by
  obtain ⟨ty, i⟩ := k
  simp only [bucketTypes, List.mem_cons, List.not_mem_nil, or_false] at h
  rcases h with rfl | rfl | rfl | rfl | rfl | rfl <;> exact ⟨rfl, rfl⟩

/-- CBS and PBS have one place in all of them, and a host writes them. -/
theorem bucketTypes_depths : ∀ ty ∈ bucketTypes,
    rwR Meter.CBS 16384 64 16777215 ∈ fieldsOf ty ∧ rwR Meter.PBS 16384 64 16777215 ∈ fieldsOf ty := by decide

theorem applyWrite_bucket {k : Key} (h : k.ty ∈ bucketTypes) (x : Nat) (s : State) : applyWrite k x s = bucketWritten k x s := by
  obtain ⟨ty, i⟩ := k
  simp only [bucketTypes, List.mem_cons, List.not_mem_nil, or_false] at h
  rcases h with rfl | rfl | rfl | rfl | rfl | rfl <;> rfl

theorem bucketWritten_clear (k : Key) (s : State) : bucketWritten k (putF (rdWord s k) Meter.CLEAR 1) s = bucketCleared k s := by
  have hclear : getF (putF (rdWord s k) Meter.CLEAR 1) Meter.CLEAR = 1 := getF_put_self ..
  simp only [bucketWritten, hclear, if_true]
  rfl

section
variable {k : Key} (s : State)

theorem bucketCleared_kept : Safety.RegsKept [k.ty] s (bucketCleared k s) := storeObj_kept k _ (touchBucket k s)

theorem bucketCleared_full (h : k.ty ∈ bucketTypes) : tabGet? (bucketCleared k s).que.buckets (keyNo k) =
    some { tc := 1024 * rd s k Meter.CBS, tp := 1024 * rd s k Meter.PBS, last := ivl s } := by
  obtain ⟨hcbs, hpbs⟩ := bucketTypes_depths k.ty h
  have hc : rd (storeObj k (putF (rdWord s k) Meter.CLEAR 1) (touchBucket k s)) k Meter.CBS = rd s k Meter.CBS :=
    (rd_storeObj_rw hcbs rfl).trans (getF_put_apart _ _ (by decide))
  have hp : rd (storeObj k (putF (rdWord s k) Meter.CLEAR 1) (touchBucket k s)) k Meter.PBS = rd s k Meter.PBS :=
    (rd_storeObj_rw hpbs rfl).trans (getF_put_apart _ _ (by decide))
  rw [bucketCleared, clearBucket, bucket_setBucket_self, hc, hp]
  rfl

/-- BUCKET_CLEAR fills both buckets. -/
theorem bucketClear_fills {c : Hdr} {addr : ObjAddr} {w : Waiting} (hfind : findObj addr = some k) (h : k.ty ∈ bucketTypes)
    (hset : Safety.Sets s c w k Meter.CLEAR 1) : Safety.Gives (.bucketClear c addr) s fun t =>
      Safety.Done t w [] ∧ Safety.RegsKept [k.ty, .sessStatus] s t ∧
        tabGet? t.que.buckets (keyNo k) = some { tc := 1024 * rd s k Meter.CBS, tp := 1024 * rd s k Meter.PBS, last := ivl s } := by
  obtain ⟨hro, hex⟩ := bucketTypes_writable h
  obtain ⟨hop, hgate, hsa, hcak, hsess⟩ := bucketTypes_ne k.ty h
  have hgo : exec (.bucketClear c addr) s = .next (replyWrite c k (bucketCleared k s)) := by
    have hwrite := hostWrite_ok (f := fun x => putF x Meter.CLEAR 1) hset hro hex hop hgate hsa hcak
    rw [applyWrite_bucket h, bucketWritten_clear] at hwrite
    show execBucketClear c addr s = _
    rw [bucketTypes] at h
    simp only [execBucketClear, hfind, h, if_true, hwrite]
  have hans := replyWrite_answered (u := bucketCleared k s) hset rfl
    fun n => bucketCleared_kept s _ (by simpa using fun he => hsess he.symm)
  have hkept := Answered.kept hans (bucketCleared_kept s)
  obtain ⟨hdone, -, hparts⟩ := hans
  refine ⟨_, hgo, hdone, RegsKept.mono (l := [.sessStatus, k.ty]) hkept (by simp), ?_⟩
  rw [hparts]
  exact bucketCleared_full s h

end

/-! ## The sampler (R335) -/

/-- The objects that hold the state of a queue. -/
theorem queueState_ty (q : Nat) : (queueState q).ty ∈ [ObjTy.vqState, .eqState] := by
  unfold queueState
  split <;> simp [obj]

theorem rd_sampled (s : State) :
    rd (sampled s) (queueState s.que.sampleQ) VqState.SDEPTH = depth (getQ s s.que.sampleQ) % 2 ^ 30 ∧
      rd (sampled s) (queueState s.que.sampleQ) VqState.SFLAG = if depth (getQ s s.que.sampleQ) = 0 then 2 else 1 := by
  unfold sampled
  dsimp only
  constructor
  · rw [rd_wr_apart _ _ _ (by decide), rd_wr_apart _ _ _ (by decide), rd_wr_self]
  · rw [rd_wr_self]
    split <;> rfl

theorem sampled_kept (s : State) : Safety.RegsKept [.vqState, .eqState] s (sampled s) := by
  have hty := queueState_ty s.que.sampleQ
  exact RegsKept.trans (RegsKept.trans (kept_wr { s with que := { s.que with sampleQ := (s.que.sampleQ + 1) % sampledQueues } } _ _ _ _ hty)
    (kept_wr _ _ _ _ _ hty)) (kept_wr _ _ _ _ _ hty)

/-- The sampler writes one queue's state, and tells the streams. -/
theorem exec_queueSample (s : State) : ∃ t, exec .queueSample s = .next t ∧ Told (sampled s) t := by
  have hgo : ∃ l r, exec .queueSample s = .next (if depth (getQ s s.que.sampleQ) = 0 then sampled s
      else forAll l (fun n u => pushRecord n r u) (sampled s)) := ⟨_, _, rfl⟩
  obtain ⟨l, r, hgo⟩ := hgo
  refine ⟨_, hgo, ?_⟩
  split
  · exact .refl _
  · exact .forAll l _ (fun n u => pushRecord_told n r u) (sampled s)

/-- QUEUE_SAMPLE visits one queue after another. -/
theorem queueSample_samples (s : State) : Safety.Gives .queueSample s fun t =>
    t.que.sampleQ = (s.que.sampleQ + 1) % sampledQueues ∧
      rd t (queueState s.que.sampleQ) VqState.SDEPTH = depth (getQ s s.que.sampleQ) % 2 ^ 30 ∧
      rd t (queueState s.que.sampleQ) VqState.SFLAG = (if depth (getQ s s.que.sampleQ) = 0 then 2 else 1) ∧
      t.que = { s.que with sampleQ := t.que.sampleQ } ∧ Safety.RegsKept (.vqState :: .eqState :: Safety.telling) s t := by
  obtain ⟨t, hgo, htold⟩ := exec_queueSample s
  have hque : t.que = { s.que with sampleQ := (s.que.sampleQ + 1) % sampledQueues } := by rw [htold.parts]; rfl
  obtain ⟨hdepth, hflag⟩ := rd_sampled s
  have hty := queueState_ty s.que.sampleQ
  have hread (f : Fld) : rd t (queueState s.que.sampleQ) f = rd (sampled s) (queueState s.que.sampleQ) f :=
    congrArg (getF · f) (htold.regs _ fun hmem => by
      have hnone : ∀ ty ∈ [ObjTy.vqState, .eqState], ty ∉ telTypes := by decide
      exact hnone _ hty hmem)
  have hkept : Safety.RegsKept Safety.telling (sampled s) t := fun k hk => htold.regs k hk
  refine ⟨t, hgo, by rw [hque], (hread _).trans hdepth, (hread _).trans hflag, by rw [hque], ?_⟩
  exact RegsKept.trans (RegsKept.mono (sampled_kept s) (by decide)) (RegsKept.mono hkept (by decide))

end Sys2Proof.Machine
end

section
/-! EGRESS_DEQUEUE (R22, R27, R322 to R325): the queue that the hierarchy chooses loses its head, every shaper on its path is charged, and the
packet goes over the bridge. -/
namespace Sys2Proof.Machine

open Sys2Proof

-- The lemmas of this section are elaborated in turn, so that they take no thread, and no stack, each.
set_option Elab.async false

/-! ## What the hierarchy writes -/

section
variable {a s t : State}

theorem Served.kept (h : Served a s) : Safety.RegsKept nodeTypes a s := h.1

theorem Ranked.served (h : Ranked a s) : Served a s := h.1

theorem Ranked.queues (h : Ranked a s) : s.que.queues = a.que.queues := h.2.1

theorem Ranked.buckets (h : Ranked a s) : s.que.buckets = a.que.buckets := h.2.2

theorem Served.refl (a : State) : Served a a := ⟨RegsKept.refl _ _, _, _, rfl⟩

theorem Served.trans (h : Served a s) (g : Served s t) : Served a t := by
  obtain ⟨hkept, r, q, rfl⟩ := h
  obtain ⟨gkept, r', q', rfl⟩ := g
  exact ⟨RegsKept.trans hkept gkept, _, _, rfl⟩

theorem Ranked.refl (a : State) : Ranked a a := ⟨.refl a, rfl, rfl⟩

theorem Ranked.trans (h : Ranked a s) (g : Ranked s t) : Ranked a t :=
  ⟨h.served.trans g.served, g.queues.trans h.queues, g.buckets.trans h.buckets⟩

/-- A change of the virtual times, the tags, and what is held. -/
theorem Ranked.rank (h : Ranked a s) {vtime stag : Tab Word} {held : List Nat} :
    Ranked a { s with que := { s.que with vtime := vtime, stag := stag, held := held } } :=
  h.trans ⟨⟨fun _ _ => rfl, _, _, rfl⟩, rfl, rfl⟩

theorem nodeKey_mem (lv n : Nat) : (nodeKey lv n).ty ∈ nodeTypes := by
  unfold nodeKey
  split <;> simp [nodeTypes, obj]

theorem Ranked.deactivate {lv n : Nat} (h : Ranked a s) : Ranked a (deactivate lv n s) :=
  h.trans ⟨⟨kept_wr s (nodeKey lv n) _ _ _ (nodeKey_mem lv n), _, _, rfl⟩, rfl, rfl⟩

theorem Ranked.settleActive {e : Nat} (h : Ranked a s) : Ranked a (settleActive e s) := by
  refine forAll_keeps _ _ (Ranked a) (fun x t ht => ?_) s h
  split
  · exact ht
  · exact ht.deactivate

end

/-- Noting what is held leaves all but the tags and the list of the nodes held. -/
theorem noteHeld_parts (p : Nat) (s : State) : ∃ held stag, noteHeld p s = { s with que := { s.que with held := held, stag := stag } } := by
  refine forAll_keeps _ _ (fun t => ∃ held stag, t = { s with que := { s.que with held := held, stag := stag } }) (fun x t ht => ?_) s
    ⟨_, _, rfl⟩
  obtain ⟨held, stag, rfl⟩ := ht
  dsimp only
  split
  · split <;> exact ⟨_, _, rfl⟩
  · split
    · split <;> exact ⟨_, _, rfl⟩
    · exact ⟨_, _, rfl⟩

theorem noteHeld_ranked (p : Nat) (s : State) : Ranked s (noteHeld p s) := by
  obtain ⟨held, stag, h⟩ := noteHeld_parts p s
  rw [h]
  exact .rank (.refl s)

/-! ## The charge along the chain (R324, R325) -/

theorem chargeChain_eq (e len : Nat) (s : State) : chargeChain e len s = forAll (chainOf s e) (chargeNode len) s := by rfl

/-- The nodes of a chain have shapers of their own. -/
theorem chainOf_shapers (s : State) (e : Nat) : (chainOf s e).Pairwise fun x y => shaperKey x.1 x.2 ≠ shaperKey y.1 y.2 := by
  simp [chainOf, shaperKey, obj]

section
variable (len : Nat) (x : Nat × Nat) (s : State)

/-- The charge of a node changes its own bucket pair, and the times and tags. -/
theorem chargeNode_parts : ∃ vtime stag, chargeNode len x s = { s with que := { s.que with
    buckets := tabPut s.que.buckets (keyNo (shaperKey x.1 x.2)) (charged s (shaperKey x.1 x.2) len), vtime := vtime, stag := stag } } := by
  unfold chargeNode
  dsimp only
  split <;> exact ⟨_, _, rfl⟩

theorem chargeNode_bucket : tabGet? (chargeNode len x s).que.buckets (keyNo (shaperKey x.1 x.2)) = some (charged s (shaperKey x.1 x.2) len) := by
  obtain ⟨vtime, stag, h⟩ := chargeNode_parts len x s
  rw [h]
  exact tabGet?_put_self ..

theorem chargeNode_bucket_ne {k : Key} (hk : k ≠ shaperKey x.1 x.2) :
    tabGet? (chargeNode len x s).que.buckets (keyNo k) = tabGet? s.que.buckets (keyNo k) := by
  obtain ⟨vtime, stag, h⟩ := chargeNode_parts len x s
  rw [h]
  exact tabGet?_put_ne _ _ (by simpa using hk)

theorem charged_chargeNode_ne {k : Key} (hk : k ≠ shaperKey x.1 x.2) : charged (chargeNode len x s) k len = charged s k len := by
  have hbucket := chargeNode_bucket_ne len x s hk
  obtain ⟨vtime, stag, h⟩ := chargeNode_parts len x s
  have hlevels : credited (chargeNode len x s) k = credited s k := credited_congr hbucket (by rw [h]; rfl) (by rw [h]; rfl)
  rw [charged, hlevels, charged]

end

/-- Nodes whose shapers all differ are each charged once, from their levels before. -/
theorem forAll_chargeNode {len : Nat} {l : List (Nat × Nat)} {s : State}
    (hl : l.Pairwise fun x y => shaperKey x.1 x.2 ≠ shaperKey y.1 y.2) : ∀ x ∈ l,
      tabGet? (forAll l (chargeNode len) s).que.buckets (keyNo (shaperKey x.1 x.2)) = some (charged s (shaperKey x.1 x.2) len) := by
  induction hl generalizing s with
  | nil => simp
  | @cons y l hy _ ih =>
    intro x hx
    rcases List.mem_cons.1 hx with rfl | hx
    · exact (forAll_same_of_mem (fun t => tabGet? t.que.buckets (keyNo (shaperKey x.1 x.2)))
        (fun z hz t => chargeNode_bucket_ne len z t (hy z hz)) _).trans (chargeNode_bucket len x s)
    · exact (ih x hx).trans (congrArg some (charged_chargeNode_ne len y s (hy x hx).symm))

/-- The charge of a chain leaves the objects and the queues. -/
theorem chargeChain_parts (e len : Nat) (s : State) :
    ∃ buckets vtime stag, chargeChain e len s = { s with que := { s.que with buckets := buckets, vtime := vtime, stag := stag } } := by
  rw [chargeChain_eq]
  refine forAll_keeps _ _ (fun t => ∃ buckets vtime stag, t = { s with que := { s.que with buckets := buckets, vtime := vtime, stag := stag } })
    (fun x t ht => ?_) s ⟨_, _, _, rfl⟩
  obtain ⟨buckets, vtime, stag, rfl⟩ := ht
  obtain ⟨vtime', stag', h⟩ := chargeNode_parts len x { s with que := { s.que with buckets := buckets, vtime := vtime, stag := stag } }
  exact ⟨_, _, _, h⟩

/-! ## The head packet leaves its queue (R300, R322) -/

theorem getQ_emptyNoted (q : Nat) (s : State) : (getQ (emptyNoted q s) q).head = (getQ s q).head ∧
    (getQ (emptyNoted q s) q).spilled = (getQ s q).spilled := by
  unfold emptyNoted
  split
  · rw [getQ_setQ_self]
    exact ⟨rfl, rfl⟩
  · exact ⟨rfl, rfl⟩

theorem emptyNoted_parts (q : Nat) (s : State) : ∃ queues, emptyNoted q s = { s with que := { s.que with queues := queues } } := by
  unfold emptyNoted
  split <;> exact ⟨_, rfl⟩

/-- A queue that is not SPILLED gives its head packet, and keeps the rest. -/
theorem popHead_hot {q : Nat} {r : Ref} {rest : List Ref} {s : State} (hhead : (getQ s q).head = r :: rest) (hs : (getQ s q).spilled = false) :
    ∃ u queues, popHead q s = some (r, u) ∧ u = { s with que := { s.que with queues := queues } } ∧ (getQ u q).head = rest := by
  have hpop : popHead q s = some (r, settleQueue q (emptyNoted q (headGone q rest s))) := by
    simp only [popHead, hhead]
    rfl
  have hgone : getQ (headGone q rest s) q = { getQ s q with head := rest, headAt := ivl s } := getQ_setQ_self ..
  obtain ⟨hrest, htier⟩ := getQ_emptyNoted q (headGone q rest s)
  obtain ⟨queues, hparts⟩ := emptyNoted_parts q (headGone q rest s)
  rw [hgone] at hrest htier
  have hhot : ¬ ((getQ (emptyNoted q (headGone q rest s)) q).spilled ∧ (getQ (emptyNoted q (headGone q rest s)) q).pages.isEmpty) := by
    simp [htier, hs]
  rw [settleQueue, if_neg hhot] at hpop
  exact ⟨_, queues, hpop, hparts, hrest⟩

/-- The head packet of a queue is dequeued: the queue keeps the rest, and every shaper on its path is charged. -/
theorem dequeueFrom_hot {e : Nat} {r : Ref} {rest : List Ref} {s : State} (hhead : (getQ s (egressNo e)).head = r :: rest)
    (hs : (getQ s (egressNo e)).spilled = false) : ∃ u, dequeueFrom e s = some (r, u) ∧ Served s u ∧ (getQ u (egressNo e)).head = rest ∧
      ∀ x ∈ chainOf s e, tabGet? u.que.buckets (keyNo (shaperKey x.1 x.2)) = some (charged s (shaperKey x.1 x.2) (frameLen r)) := by
  obtain ⟨u, queues, hpop, hu, hrest⟩ := popHead_hot hhead hs
  have hcharged := forAll_chargeNode (len := frameLen r) (s := u) (chainOf_shapers u e)
  obtain ⟨buckets, vtime, stag, hcharge⟩ := chargeChain_parts e (frameLen r) u
  have hranked : Ranked (chargeChain e (frameLen r) u) (settleActive e (chargeChain e (frameLen r) u)) := .settleActive (.refl _)
  refine ⟨_, by rw [dequeueFrom, hpop], Served.trans ?_ hranked.served, ?_, ?_⟩
  · rw [hcharge, hu]
    exact ⟨fun _ _ => rfl, _, _, rfl⟩
  · rw [getQ, hranked.queues, hcharge]
    exact hrest
  · rw [← chargeChain_eq] at hcharged
    rw [hranked.buckets]
    rw [hu] at hcharged ⊢
    exact hcharged

/-! ## EGRESS_DEQUEUE -/

/-- A good packet without copies, for a port that is up. -/
theorem dequeued_sends {p : Nat} {r : Ref} {x : Packet} {s : State} (hpkt : getPkt s r.pkt = some x) (hbad : x.bad = false)
    (hcopies : mirrorSet s p true [] = []) (hup : portUp s p = true) (hsafe : inSafe s = false) : dequeued p r s = overBridge p r s := by
  have hmirror : mirrorAll r.pkt p true [] s = s := by rw [mirrorAll, hcopies]; rfl
  simp only [dequeued, hpkt, hbad, hmirror, hup, hsafe, Bool.not_true, Bool.or_self, Bool.false_eq_true, if_false]
  rfl

/-- The parts of a state that a dequeue reads, where nothing but the nodes and block EGQ's own state has changed. -/
theorem Served.reads {a s : State} (h : Served a s) (p : Nat) : protPort s p = protPort a p ∧ (∀ n, getPkt s n = getPkt a n) ∧
    mirrorSet s p true [] = mirrorSet a p true [] ∧ portUp s p = portUp a p ∧ inSafe s = inSafe a ∧ s.eng = a.eng ∧ s.bridge = a.bridge := by
  have hrd (k : Key) (f : Fld) (hk : k.ty ∉ nodeTypes) : rd s k f = rd a k f := RegsKept.rd h.kept hk f
  have hpair : pairOn s = pairOn a := congrArg (· == 1) (hrd prC _ (by decide))
  have hprot : protPort s p = protPort a p := by rw [protPort, protPort, hpair, hrd prC _ (by decide)]
  have hsilent : silent s p = silent a p := by rw [silent, silent, hprot, role, role, hrd prS _ (by decide)]
  have hcopies : mirrorSet s p true [] = mirrorSet a p true [] := by
    have hmir (n : Nat) (f : Fld) : rd s (mirKey n) f = rd a (mirKey n) f := hrd _ _ (by simp [mirKey, obj, nodeTypes])
    simp only [mirrorSet, hsilent, flag, hmir]
  have hup : portUp s p = portUp a p := congrArg (· == 1) (hrd (obj .lpStatus p) _ (by simp [obj, nodeTypes]))
  have hsafe : inSafe s = inSafe a := congrArg (· == 1) (hrd (obj .fltStatus) _ (by decide))
  obtain ⟨-, r, q, rfl⟩ := h
  exact ⟨hprot, fun _ => rfl, hcopies, hup, hsafe, rfl, rfl⟩

/-- The queue that the hierarchy chooses is dequeued, every shaper on its path charged, and its head goes over the bridge. -/
theorem egressDequeue_sends {p : Fin 48} {e : Nat} {r : Ref} {rest : List Ref} {x : Packet} {s : State} (hsilent : silent s p.val = false)
    (hprot : protPort s p.val = false) (hidle : (egressWaits s).length < idleThreads s) (hchan : chanState s 1 = 1)
    (hchoice : chooseQueue (noteHeld p.val s) p.val = some e) (hhead : (getQ s (egressNo e)).head = r :: rest)
    (hspill : (getQ s (egressNo e)).spilled = false) (hpkt : getPkt s r.pkt = some x) (hbad : x.bad = false)
    (hcopies : mirrorSet s p.val true [] = []) (hup : portUp s p.val = true) (hsafe : inSafe s = false) :
    Safety.Gives (.egressDequeue p) s fun t =>
      t.eng = { s.eng with deqNo := s.eng.deqNo + 1 } ∧
        (getChan t 1).data = (getChan s 1).data ++ [Flit.egress { ref := r, port := p.val, tc := r.tc, no := s.eng.deqNo }] ∧
        (getQ t (egressNo e)).head = rest ∧
        (∀ y ∈ chainOf s e, tabGet? t.que.buckets (keyNo (shaperKey y.1 y.2)) = some (charged s (shaperKey y.1 y.2) (frameLen r))) ∧
        Safety.RegsKept nodeTypes s t := by
  obtain ⟨held, stag, hnoted⟩ := noteHeld_parts p.val s
  have hfirst := (noteHeld_ranked p.val s).served
  obtain ⟨u, hdeq, hserved, hrest, hbuckets⟩ := dequeueFrom_hot (s := noteHeld p.val s) (by rw [hnoted]; exact hhead) (by rw [hnoted]; exact hspill)
  have hlast := noteHeld_ranked p.val u
  obtain ⟨hprotU, -⟩ := (hfirst.trans hserved).reads p.val
  have hall := (hfirst.trans hserved).trans hlast.served
  obtain ⟨-, hpktT, hcopiesT, hupT, hsafeT, hengT, hbridgeT⟩ := hall.reads p.val
  have hsent := dequeued_sends (r := r) ((hpktT _).trans hpkt) hbad (hcopiesT.trans hcopies) (hupT.trans hup) (hsafeT.trans hsafe)
  have hgo : exec (.egressDequeue p) s = .next (overBridge p.val r (noteHeld p.val u)) := by
    have hwait : (silent (noteHeld p.val s) p.val || decide (idleThreads (noteHeld p.val s) ≤ (egressWaits (noteHeld p.val s)).length) ||
        chanState (noteHeld p.val s) 1 != 1) = false := by
      rw [hnoted]
      show (silent s p.val || decide (idleThreads s ≤ (egressWaits s).length) || chanState s 1 != 1) = false
      simp [hsilent, hchan, hidle]
    show execEgressDequeue p s = _
    simp only [execEgressDequeue, hwait, hchoice, hdeq, hprotU.trans hprot, hsent, Bool.false_eq_true, if_false]
  refine ⟨_, hgo, ?_, ?_, ?_, fun y hy => ?_, hall.kept⟩
  · rw [← hengT]
    rfl
  · rw [← hengT, overBridge, sendData, getChan_setChan_self]
    exact congrArg (fun b => (tabGet b.chans 1 Channel.empty).data ++ _) hbridgeT
  · exact (congrArg (fun l => (tabGet l (egressNo e) Queue.empty).head) hlast.queues).trans hrest
  · rw [hnoted] at hbuckets
    exact (congrArg (tabGet? · _) hlast.buckets).trans (hbuckets y hy)

end Sys2Proof.Machine
end

section
/-! Meters (R313 to R316): the colour that a meter gives a packet, and the operations that leave the buckets and the counters of the meters. -/
namespace Sys2Proof.Machine

open Sys2Proof

-- The lemmas of this section are elaborated in turn, so that they take no thread, and no stack, each.
set_option Elab.async false

/-! ## The colour of a packet (R315) -/

/-- The colour that the levels alone give. -/
theorem colourOf_levels (pre len : Nat) (b : Bucket) : colourOf false false pre len b =
    if b.tp < 1024 * (len : Int) then (red, b)
    else if b.tc < 1024 * (len : Int) then (yellow, { b with tp := b.tp - 1024 * (len : Int) })
    else (green, { b with tp := b.tp - 1024 * (len : Int), tc := b.tc - 1024 * (len : Int) }) := by
  simp [colourOf]

section
variable {pre len : Nat} {b : Bucket}

theorem colourOf_red (h : b.tp < 1024 * (len : Int)) : colourOf false false pre len b = (red, b) := by
  rw [colourOf_levels, if_pos h]

theorem colourOf_yellow (hp : 1024 * (len : Int) ≤ b.tp) (hc : b.tc < 1024 * (len : Int)) :
    colourOf false false pre len b = (yellow, { b with tp := b.tp - 1024 * (len : Int) }) := by
  rw [colourOf_levels, if_neg (Int.not_lt.2 hp), if_pos hc]

theorem colourOf_green (hp : 1024 * (len : Int) ≤ b.tp) (hc : 1024 * (len : Int) ≤ b.tc) :
    colourOf false false pre len b = (green, { b with tp := b.tp - 1024 * (len : Int), tc := b.tc - 1024 * (len : Int) }) := by
  rw [colourOf_levels, if_neg (Int.not_lt.2 hp), if_neg (Int.not_lt.2 hc)]

end

/-- An enabled meter, neither loose nor colour-aware, colours by its levels alone. -/
theorem runMeter_coloured {m pre len c : Nat} {b : Bucket} {s : State} (hen : flag s (obj .meter m) Meter.EN = true)
    (hloose : flag s (obj .meter m) Meter.LOOSE = false) (haware : flag s (obj .meter m) Meter.COLOR_AWARE = false)
    (hc : colourOf false false pre len (credited s (obj .meter m)) = (c, b)) :
    runMeter m pre len none s = (some c, coloured m c len b s) := by
  simp only [runMeter, hen, hloose, haware, hc, Bool.not_true, Bool.false_eq_true, if_false]
  rfl

section
variable (m c len : Nat) (b : Bucket) (s : State)

theorem coloured_bucket : tabGet? (coloured m c len b s).que.buckets (keyNo (obj .meter m)) = some b := by
  have hque : (coloured m c len b s).que = (setBucket (obj .meter m) b s).que := (bump_que ..).trans (bump_que ..)
  rw [hque, bucket_setBucket_self]

theorem coloured_packets : Safety.Counted .mtCtr m (2 * c) 1 s (coloured m c len b s) :=
  (bump_ne (counter_ne2 .mtCtr m (by omega)) (by simp)).trans (counted_bump .mtCtr m (2 * c) 1 (setBucket (obj .meter m) b s) (by simp))

theorem coloured_bytes : Safety.Counted .mtCtr m (2 * c + 1) len s (coloured m c len b s) :=
  counted_from (by simp) (bump_ne (counter_ne2 .mtCtr m (by omega)) (by simp))

theorem coloured_kept : Safety.RegsKept (.mtCtr :: Safety.telling) s (coloured m c len b s) :=
  RegsKept.trans (t := bump .mtCtr m (2 * c) 1 (setBucket (obj .meter m) b s)) (kept_bump .mtCtr _ _ _ (setBucket (obj .meter m) b s))
    (kept_bump _ _ _ _ _)

theorem coloured_buf : (coloured m c len b s).buf = s.buf :=
  (bump_buf ..).trans (bump_buf .mtCtr m (2 * c) 1 (setBucket (obj .meter m) b s))

end

/-! ## What leaves the buckets and the counters of the meters -/

namespace Unmetered

variable {a s t : State}

theorem buckets (h : Unmetered a s) : s.que.buckets = a.que.buckets := h.1

theorem kept (h : Unmetered a s) : ∀ k, k.ty ∈ meterTypes → rdWord s k = rdWord a k := h.2

theorem refl (a : State) : Unmetered a a := ⟨rfl, fun _ _ => rfl⟩

theorem trans (h : Unmetered a s) (g : Unmetered s t) : Unmetered a t :=
  ⟨g.buckets.trans h.buckets, fun k hk => (g.kept k hk).trans (h.kept k hk)⟩

/-- An operation that leaves the buckets, by the types of the objects that it writes. -/
theorem ofKept {l : List ObjTy} (hb : t.que.buckets = s.que.buckets) (hk : Safety.RegsKept l s t) (hl : ∀ ty ∈ meterTypes, ty ∉ l) :
    Unmetered s t := ⟨hb, fun k h => hk k (hl _ h)⟩

/-- An update of other parts. -/
theorem parts (h : Unmetered a s) {clock ct cmd bridge flt cnt eng tbl pat line tfu msec buf que fab hbm time pair upd pwr out free pending}
    (hq : que.buckets = s.que.buckets) : Unmetered a (State.mk s.regs s.fuses clock ct cmd bridge flt cnt eng tbl pat line tfu msec buf
      que fab hbm time pair upd pwr out free pending) :=
  ⟨hq.trans h.buckets, h.kept⟩

theorem wr {k : Key} {f : Fld} {v : Nat} (h : Unmetered a s) (hk : k.ty ∉ meterTypes) : Unmetered a (wr s k f v) :=
  h.trans (ofKept rfl (kept_wr s k f v [k.ty] (by simp)) fun _ hty he => hk (List.mem_singleton.1 he ▸ hty))

theorem mapF {k : Key} {f : Fld} {g : Nat → Nat} (h : Unmetered a s) (hk : k.ty ∉ meterTypes) : Unmetered a (mapF s k f g) := h.wr hk

/-- What telemetry writes is neither. -/
theorem telling_unmetered : ∀ ty ∈ meterTypes, ty ∉ Safety.telling := by decide

theorem bump {ty : ObjTy} {i j n : Nat} (h : Unmetered a s) (hty : ty ∉ meterTypes) : Unmetered a (bump ty i j n s) := by
  refine h.trans (ofKept (by rw [bump_que]) (kept_bump ty i j n s) fun x hx hm => ?_)
  rcases List.mem_cons.1 hm with rfl | hm
  · exact hty hx
  · exact telling_unmetered x hx hm

theorem raiseAt {blk inst kind : Nat} {k : Key} (h : Unmetered a s) : Unmetered a (raiseAt blk inst kind k s) :=
  h.trans (ofKept (congrArg (·.2.2.2.2.1) (raiseAt_queHeld blk inst kind k s)) (kept_raiseAt blk inst kind k s) (by decide))

theorem ite {c : Prop} [Decidable c] (hs : Unmetered a s) (ht : Unmetered a t) : Unmetered a (if c then s else t) :=
  iteInduction (fun _ => hs) fun _ => ht

/-- What is done under a condition. -/
theorem ifThen {c : Prop} [Decidable c] (hs : Unmetered a s) (ht : Unmetered a s → Unmetered a t) : Unmetered a (if c then t else s) :=
  .ite (ht hs) hs

theorem iteSnd {α : Type} {c : Prop} [Decidable c] {p q : α × State} (hp : Unmetered a p.2) (hq : Unmetered a q.2) :
    Unmetered a (if c then p else q).2 := iteInduction (motive := fun r : α × State => Unmetered a r.2) (fun _ => hp) fun _ => hq

/-- The state of a pair that was taken apart. -/
theorem ofSnd {α : Type} {p : α × State} {x : α} (e : p = (x, t)) (h : Unmetered a p.2) : Unmetered a t := by subst e; exact h

/-! ### References that end (R285, R286) -/

/-- The state of a pool is neither. -/
theorem poolS_unmetered (p : Nat) : (poolS p).ty ∉ meterTypes := show ObjTy.poolStatus ∉ meterTypes by decide

theorem freeBillets {p n : Nat} (h : Unmetered a s) : Unmetered a (freeBillets p n s) :=
  .wr (.mapF (.mapF h (poolS_unmetered p)) (by decide)) (poolS_unmetered p)

theorem freePacket {n : Nat} (h : Unmetered a s) : Unmetered a (freePacket n s) := by
  unfold Machine.freePacket
  split
  · exact h
  · exact .ite (.mapF (.mapF (h.parts rfl) (by decide)) (by decide)) (.freeBillets (.mapF (h.parts rfl) (by decide)))

theorem refuseFree {ctr kind : Nat} {k : Key} (h : Unmetered a s) : Unmetered a (refuseFree ctr kind k s) := .raiseAt (.bump h (by decide))

theorem endOwner {n by_ : Nat} (h : Unmetered a s) : Unmetered a (endOwner n by_ s) := by
  unfold Machine.endOwner
  split
  · exact .refuseFree h
  · exact .ite (.refuseFree h) (.ite (.freePacket h) (h.parts rfl))

theorem endLeaseOn {n : Nat} (h : Unmetered a s) : Unmetered a (endLeaseOn n s) := by
  unfold Machine.endLeaseOn
  split
  · exact .refuseFree h
  · exact .ite (.refuseFree h) (.ite (.freePacket (h.parts rfl)) (h.parts rfl))

theorem endRef {r : Ref} (h : Unmetered a s) : Unmetered a (endRef r s) := .ite (.endLeaseOn h) (.endOwner h)

/-! ### Queues and their pages (R294, R296, R301, R310 to R312, R321) -/

theorem setQ {q : Nat} {x : Queue} (h : Unmetered a s) : Unmetered a (setQ q x s) := h.parts rfl

theorem drawPage {pool : Nat} {x : Nat × State} (h : Unmetered a s) (ht : drawPage pool s = some x) : Unmetered a x.2 := by
  unfold Machine.drawPage at ht
  split at ht <;> cases ht
  exact .mapF (.mapF (h.parts rfl) (poolS_unmetered pool)) (by decide)

/-- A queue's own spill object is neither. -/
theorem spillKey_unmetered {q : Nat} {k : Key} (h : spillKey q = some k) : k.ty ∉ meterTypes := by
  unfold spillKey at h
  split at h <;> cases h
  exact show ObjTy.qSpill ∉ meterTypes by decide

theorem readyPage (h : Unmetered a s) : Unmetered a (readyPage s) := parts (.ite (.bump h (by decide)) h) rfl

theorem writePage {q : Nat} {flushed : Bool} (h : Unmetered a s) : Unmetered a (writePage q flushed s) := by
  unfold Machine.writePage
  dsimp only
  split
  · exact h
  · split
    · exact .bump h (by decide)
    · next e =>
      split
      · next hk => exact .mapF (.readyPage (.setQ (.drawPage h e))) (spillKey_unmetered hk)
      · exact .readyPage (.setQ (.drawPage h e))

theorem writePages {fuel q : Nat} (h : Unmetered a s) : Unmetered a (writePages fuel q s) := by
  induction fuel generalizing s with
  | zero => exact h
  | succ fuel ih => exact .ite (.ite (ih (.writePage h)) (.writePage h)) h

theorem appendRef {q : Nat} {r : Ref} (h : Unmetered a s) : Unmetered a (appendRef q r s) := by
  unfold Machine.appendRef
  dsimp only
  refine .ite (.ite (.writePages (.setQ h)) (.setQ h)) ?_
  split
  · next hk =>
    refine .ite (.writePages (.bump (.mapF (.wr (.setQ (.setQ h)) (spillKey_unmetered hk)) ?_) ?_)) (.setQ h)
    · decide
    · decide
  · exact .setQ h

theorem queueCount {q i n : Nat} (h : Unmetered a s) : Unmetered a (queueCount q i n s) := .ite (.bump h (by decide)) (.bump h (by decide))

theorem admitPkt {q tc prec n : Nat} (h : Unmetered a s) : Unmetered a (admitPkt q tc prec n s).2 := by
  have ht : Unmetered a (touchAvg q s) := .setQ h
  exact .iteSnd ht (.iteSnd ht (.iteSnd ht (.iteSnd (ht.parts rfl) ht)))

theorem dropAt {q reason : Nat} {r : Ref} (h : Unmetered a s) : Unmetered a (dropAt q reason r s) :=
  .endRef (.bump (.queueCount (.queueCount h)) (by decide))

theorem nodeKey_unmetered (lv n : Nat) : (nodeKey lv n).ty ∉ meterTypes := by
  unfold nodeKey
  split <;> simp [meterTypes, obj]

theorem activate {lv n : Nat} (h : Unmetered a s) : Unmetered a (activate lv n s) :=
  .ite h (parts (parts (.wr h (nodeKey_unmetered lv n)) rfl) rfl)

theorem enqueue {q : Nat} {r : Ref} (h : Unmetered a s) : Unmetered a (enqueue q r s) := by
  unfold Machine.enqueue
  refine .ifThen (.appendRef ?_) fun h => forAll_keeps _ _ (Unmetered a) (fun _ _ h => h.activate) _ h
  split
  · exact parts (.queueCount (.queueCount h)) rfl
  · exact .queueCount (.queueCount h)

/-- A packet admitted to a queue, or dropped there. -/
theorem admitTo {q : Nat} {r : Ref} (h : Unmetered a s) : Unmetered a (admitTo q r s).2 := by
  unfold Machine.admitTo
  split
  · next e => exact .enqueue (.ofSnd e (.admitPkt h))
  · next e => exact .dropAt (.ofSnd e (.admitPkt h))

/-- What has counted on a meter still has. -/
theorem counted {m i n : Nat} (h : Unmetered s t) (hc : Safety.Counted .mtCtr m i n a s) : Safety.Counted .mtCtr m i n a t :=
  (h.kept _ (show ObjTy.mtCtr ∈ meterTypes by decide)).trans hc

/-- The mode of the pair is as it was. -/
theorem twin (h : Unmetered a s) : twin s = twin a := by
  simp only [Machine.twin, pairOn, flag, rd, h.kept prC (by decide)]

end Unmetered

end Sys2Proof.Machine
end

section
/-! VOQ_ENQUEUE and PFC (R310, R314, R333, R360): a packet that is admitted to a VOQ joins it, the input occupancy of its port grows, and PFC
follows the occupancy. -/
namespace Sys2Proof.Machine

open Sys2Proof

-- The lemmas of this section are elaborated in turn, so that they take no thread, and no stack, each.
set_option Elab.async false

/-! ## PFC frames (R333) -/

theorem emitLine_kept (p n : Nat) (o : Nat → Out) (s : State) : Safety.RegsKept [] s (emitLine p n o s) := by
  unfold emitLine
  split
  · refine forAll_keeps _ _ (Safety.RegsKept [] s) (fun q t ht => ?_) s (RegsKept.refl _ _)
    dsimp only
    split
    · exact ht
    · exact RegsKept.trans ht fun _ _ => rfl
  · exact fun _ _ => rfl

theorem originate_kept (p : Nat) (kind : Pdu) (args : List Nat) (len : Nat) (s : State) :
    Safety.RegsKept (.lpCtr :: Safety.telling) s (originate p kind args len s) := by
  unfold originate
  split
  · exact RegsKept.refl _ _
  · split
    · exact fun _ _ => rfl
    · split
      · exact RegsKept.trans (RegsKept.mono (emitLine_kept _ _ _ s) (by simp)) countSent_kept
      · exact fun _ _ => rfl

section
variable (p n : Nat) (s : State)

theorem sendPfc_kept (quanta : Nat) : Safety.RegsKept (.voqGctr :: .lpCtr :: Safety.telling) s (sendPfc p n quanta s) :=
  RegsKept.trans (RegsKept.mono (originate_kept p .pfc [n, quanta] 64 s) (by decide)) (RegsKept.mono (kept_bump _ _ _ _ _) (by decide))

theorem sendPfc_queHeld (quanta : Nat) : (sendPfc p n quanta s).queHeld = s.queHeld := by simp only [sendPfc, bump_queHeld, originate_queHeld]

theorem sendPfc_buf (quanta : Nat) : (sendPfc p n quanta s).buf = s.buf := by
  obtain ⟨-, -, -, -, -, -, -, -, -, hbuf, -⟩ := rest_inj (originate_rest p .pfc [n, quanta] 64 s)
  rw [sendPfc, bump_buf, hbuf]

theorem sendPfc_clock (quanta : Nat) : (sendPfc p n quanta s).clock = s.clock := by
  obtain ⟨-, hclock, -⟩ := rest_inj (originate_rest p .pfc [n, quanta] 64 s)
  rw [sendPfc, bump_clock, hclock]

/-- At a crossing a PFC frame is sent, and what is signalled noted; else nothing changes. -/
theorem checkPfc_cases : checkPfc p n s = s ∨
    ∃ quanta xoff, checkPfc p n s = sendPfc p n quanta { s with que := { s.que with xoff := xoff } } := by
  unfold checkPfc
  dsimp only
  split
  · split
    · exact .inr ⟨_, _, rfl⟩
    · exact .inl rfl
  · split
    · exact .inr ⟨_, _, rfl⟩
    · exact .inl rfl

theorem checkPfc_kept : Safety.RegsKept (.voqGctr :: .lpCtr :: Safety.telling) s (checkPfc p n s) := by
  rcases checkPfc_cases p n s with h | ⟨quanta, xoff, h⟩ <;> rw [h]
  · exact RegsKept.refl _ _
  · exact sendPfc_kept p n { s with que := { s.que with xoff := xoff } } quanta

/-- What PFC does leaves the packets, the queues and the buckets, the occupancies, and the results that wait. -/
theorem checkPfc_held : (checkPfc p n s).buf = s.buf ∧ (checkPfc p n s).que.queues = s.que.queues ∧
    (checkPfc p n s).que.buckets = s.que.buckets ∧ (checkPfc p n s).que.inOcc = s.que.inOcc ∧ (checkPfc p n s).que.results = s.que.results := by
  rcases checkPfc_cases p n s with h | ⟨quanta, xoff, h⟩ <;> rw [h]
  · exact ⟨rfl, rfl, rfl, rfl, rfl⟩
  · have hque := sendPfc_queHeld p n { s with que := { s.que with xoff := xoff } } quanta
    exact ⟨sendPfc_buf .., congrArg (·.1) hque, congrArg (·.2.2.2.2.1) hque, congrArg (·.2.2.2.2.2.2.2.1) hque,
      congrArg (·.2.2.2.2.2.2.2.2.2.2.2.1) hque⟩

theorem enterOcc_eq (b : Nat) : enterOcc p n b s = if p < 48 then checkPfc p n (occGrown p n s b) else s := by rfl

theorem enterOcc_kept (b : Nat) : Safety.RegsKept (.voqGctr :: .lpCtr :: Safety.telling) s (enterOcc p n b s) := by
  rw [enterOcc_eq]
  split
  · exact checkPfc_kept p n (occGrown p n s b)
  · exact RegsKept.refl _ _

theorem enterOcc_held (b : Nat) : (enterOcc p n b s).buf = s.buf ∧ (enterOcc p n b s).que.queues = s.que.queues ∧
    (enterOcc p n b s).que.buckets = s.que.buckets ∧ (enterOcc p n b s).que.results = s.que.results := by
  rw [enterOcc_eq]
  split
  · obtain ⟨hbuf, hqueues, hbuckets, -, hresults⟩ := checkPfc_held p n (occGrown p n s b)
    exact ⟨hbuf, hqueues, hbuckets, hresults⟩
  · exact ⟨rfl, rfl, rfl, rfl⟩

theorem inOcc_enterOcc {p : Nat} (hp : p < 48) (b : Nat) : inOcc (enterOcc p n b s) p n = inOcc s p n + b := by
  rw [enterOcc_eq, if_pos hp]
  obtain ⟨-, -, -, hocc, -⟩ := checkPfc_held p n (occGrown p n s b)
  rw [inOcc, hocc]
  exact tabGet_set_self ..

theorem enterOcc_unmetered (b : Nat) : Unmetered s (enterOcc p n b s) := by
  obtain ⟨-, -, hbuckets, -⟩ := enterOcc_held p n s b
  exact .ofKept hbuckets (enterOcc_kept p n s b) (by decide)

end

/-! ## The repetition of PFC (R333) -/

/-- PFC_REFRESH of a class that is signalled. -/
theorem exec_pfcRefresh {p : Fin 48} {tc : Fin 8} {s : State} {t0 : Nat} (h0 : tabGet? s.que.xoff (8 * p.val + tc.val) = some t0) :
    exec (.pfcRefresh p tc) s = .next (if xonOf s p.val tc.val < inOcc s p.val tc.val then
      sendPfc p.val tc.val 0xFFFF (xoffNoted (8 * p.val + tc.val) (due (t0 + 0xFFFF * 256 * 1000 / max 1 (rateMb s p.val)) s)) else s) := by
  show execPfcRefresh p tc s = _
  simp only [execPfcRefresh, h0]
  rfl

section
variable {p : Fin 48} {tc : Fin 8} {s : State} (hx : tabGet? s.que.xoff (8 * p.val + tc.val) ≠ none)
include hx

/-- PFC_REFRESH above XON, once half of the last quanta has elapsed. -/
theorem pfcRefresh_repeats (hocc : xonOf s p.val tc.val < inOcc s p.val tc.val) (hnow : SendsNow s p.val) :
    Safety.Gives (.pfcRefresh p tc) s fun t =>
      Out.pdu p.val .pfc [tc.val, 0xFFFF] ∈ t.out ∧ Safety.Counted .voqGctr 3 0 1 s t ∧
        tabGet? t.que.xoff (8 * p.val + tc.val) = some t.clock ∧
        (∀ t0, tabGet? s.que.xoff (8 * p.val + tc.val) = some t0 → t0 + 0xFFFF * 256 * 1000 / max 1 (rateMb s p.val) ≤ t.clock) ∧
        Safety.RegsKept (.voqGctr :: .lpCtr :: Safety.telling) s t := by
  obtain ⟨t0, h0⟩ := Option.ne_none_iff_exists'.1 hx
  have hgo := exec_pfcRefresh h0
  rw [if_pos hocc] at hgo
  rw [h0]
  generalize hT : t0 + 0xFFFF * 256 * 1000 / max 1 (rateMb s p.val) = T at hgo
  have hkept : Safety.RegsKept Safety.telling s (xoffNoted (8 * p.val + tc.val) (due T s)) := due_kept T s
  have hclock : (xoffNoted (8 * p.val + tc.val) (due T s)).clock = (due T s).clock := rfl
  have hxoff : tabGet? (xoffNoted (8 * p.val + tc.val) (due T s)).que.xoff (8 * p.val + tc.val) = some (due T s).clock := tabGet?_put_self ..
  generalize xoffNoted (8 * p.val + tc.val) (due T s) = u at hgo hkept hclock hxoff
  have hsent := originate_sends (len := 64) (kind := .pfc) (args := [tc.val, 0xFFFF]) (hnow.ofKept hkept (by decide)) rfl
  have hheld := congrArg (·.2.2.2.2.2.2.2.2.1) (sendPfc_queHeld p.val tc.val u 0xFFFF)
  refine ⟨_, hgo, ?_, ?_, ?_, ?_, ?_⟩
  · rw [sendPfc, hsent]
    exact bump_sent (countSent_sent (List.mem_cons_self ..))
  · exact counted_from (by decide) ((originate_kept _ _ _ _ u _ (by decide)).trans (hkept _ (by decide)))
  · rw [sendPfc_clock, hclock, ← hxoff]
    exact congrArg (tabGet? · _) hheld
  · rintro t ⟨⟩
    rw [sendPfc_clock, hclock, hT]
    exact due_reaches T s
  · exact RegsKept.trans (RegsKept.mono hkept (by decide)) (sendPfc_kept p.val tc.val u 0xFFFF)

/-- PFC_REFRESH once the occupancy is at XON or below. -/
theorem pfcRefresh_rests (hocc : inOcc s p.val tc.val ≤ xonOf s p.val tc.val) : Safety.Gives (.pfcRefresh p tc) s fun t => t = s := by
  obtain ⟨t0, h0⟩ := Option.ne_none_iff_exists'.1 hx
  exact ⟨s, by rw [exec_pfcRefresh h0, if_neg (Nat.not_lt.2 hocc)], rfl⟩

end

/-! ## A packet joins a VOQ (R310, R312) -/

/-- The numbers of the VOQs lie below those of the egress queues (R305, R306). -/
theorem voqOf_lt {node port tc : Nat} (hn : node < 4096) (hp : port < 48) (ht : tc < 8) : voqOf node port tc < Config.voqs := by
  unfold voqOf Config.voqs
  omega

theorem destVoq_lt {x : Nat} (h : (destOf x).port < 48) : destVoq x < Config.voqs :=
  voqOf_lt (Nat.mod_lt _ (Nat.two_pow_pos 12)) h (Nat.mod_lt _ (Nat.two_pow_pos 3))

/-- A class that is lossless is always admitted (R332). -/
theorem admitPkt_lossless {q tc prec n : Nat} {s : State} (h : lossless s tc = true) : admitPkt q tc prec n s = (none, touchAvg q s) :=
  if_pos h

theorem admitTo_lossless {q : Nat} {r : Ref} {s : State} (h : lossless s r.tc = true) : admitTo q r s = (true, enqueue q r (touchAvg q s)) := by
  simp only [admitTo, admitPkt_lossless h]

/-- The spill profile of a queue rests on its spill object and on the page ring (R293). -/
theorem profileOf_congr {l : List ObjTy} {s t : State} (h : Safety.RegsKept l s t) (q : Nat) (hs : ObjTy.qSpill ∉ l)
    (hp : ObjTy.peatStatus ∉ l) : profileOf t q = profileOf s q := by
  have hready : flag t (obj .peatStatus) PeatStatus.READY = flag s (obj .peatStatus) PeatStatus.READY := congrArg (· == 1) (RegsKept.rd h hp _)
  unfold profileOf
  split
  · rfl
  · next k hk =>
    have hty : k.ty = .qSpill := by unfold spillKey at hk; split at hk <;> cases hk; rfl
    rw [RegsKept.rd h (by rwa [hty]), hready]

/-- A queue that is not SPILLED, and has no spill profile, takes a reference into its head segment. -/
theorem appendRef_hot {q : Nat} {r : Ref} {s : State} (hs : (getQ s q).spilled = false) (hp : profileOf s q = none) :
    appendRef q r s = setQ q (joined r (ivl s) (getQ s q)) s := by
  have hnone (x : Queue) : profileOf (setQ q x s) q = none := hp
  simp only [appendRef, joined, hs, hnone, Bool.false_eq_true, if_false]

theorem voqCounted_counted (q len : Nat) (s : State) : Safety.Counted .vqCtr q 0 1 s (voqCounted q len s) :=
  (bump_ne (counter_ne2 .vqCtr q (by decide)) (by simp)).trans (counted_bump _ _ _ _ _ (by simp))

theorem voqCounted_kept (q len : Nat) (s : State) : Safety.RegsKept (.vqCtr :: Safety.telling) s (voqCounted q len s) :=
  RegsKept.trans (kept_bump _ _ _ _ s) (kept_bump _ _ _ _ _)

theorem voqCounted_que (q len : Nat) (s : State) : (voqCounted q len s).que = s.que := (bump_que ..).trans (bump_que ..)

theorem voqCounted_buf (q len : Nat) (s : State) : (voqCounted q len s).buf = s.buf := (bump_buf ..).trans (bump_buf ..)

theorem queueCount_voq {q : Nat} (hq : q < Config.voqs) (i n : Nat) (s : State) : queueCount q i n s = bump .vqCtr q i n s := by
  have hn : ¬ Config.voqs ≤ q := Nat.not_le.2 hq
  simp [queueCount, isEgress, queueIx, hn, hq]

section
variable {q : Nat} {r : Ref} {p : Packet} {s : State} (hq : q < Config.voqs) (hlease : r.lease = false) (hpkt : getPkt s r.pkt = some p)
  (hspill : (getQ s q).spilled = false) (hprof : profileOf s q = none)
include hq hlease hpkt hspill hprof

/-- A packet enters a VOQ: it is counted, becomes the queue's own, and joins the head segment. -/
theorem enqueue_voq : ∃ n, enqueue q r s = setQ q (joined (voqRef r n q) (ivl (voqCounted q (frameLen r) s)) (getQ s q))
    (putPkt r.pkt { p with owner := q } (voqCounted q (frameLen r) s)) := by
  have hegress : isEgress q = false := by
    have hn : ¬ Config.voqs ≤ q := Nat.not_le.2 hq
    simp [isEgress, hn]
  have hget : getPkt (voqCounted q (frameLen r) s) r.pkt = some p := by rw [getPkt, voqCounted_buf]; exact hpkt
  have hkept := voqCounted_kept q (frameLen r) s
  have hque := voqCounted_que q (frameLen r) s
  have hcount : queueCount q 1 (frameLen r) (queueCount q 0 1 s) = voqCounted q (frameLen r) s := by
    rw [queueCount_voq hq, queueCount_voq hq, voqCounted]
  refine ⟨rdWord (voqCounted q (frameLen r) s) (obj .vqCtr (4 * queueIx q)) % 2 ^ 16, ?_⟩
  simp only [enqueue, hcount, hlease, hget, hegress, Bool.false_eq_true, if_false]
  generalize voqCounted q (frameLen r) s = u at *
  have hqueue : getQ (putPkt r.pkt { p with owner := q } u) q = getQ s q := congrArg (tabGet · q Queue.empty) (congrArg Que.queues hque)
  have hnone : profileOf (putPkt r.pkt { p with owner := q } u) q = none := (profileOf_congr (t := u) hkept q (by decide) (by decide)).trans hprof
  exact (appendRef_hot (by rw [hqueue]; exact hspill) hnone).trans (by rw [hqueue]; rfl)

end

/-- The average of a queue brought up to date leaves its head segment and its tier. -/
theorem getQ_touchAvg (q : Nat) (s : State) : (getQ (touchAvg q s) q).head = (getQ s q).head ∧
    (getQ (touchAvg q s) q).spilled = (getQ s q).spilled := by
  unfold touchAvg
  dsimp only
  rw [getQ_setQ_self]
  exact ⟨rfl, rfl⟩

theorem touchAvg_kept (q : Nat) (s : State) : Safety.RegsKept [] s (touchAvg q s) := by
  unfold touchAvg
  exact setQ_kept [] q _ s

/-! ## What becomes of a pass result (R310, R314, R360) -/

theorem voqAdmit_unmetered (x : PassResult) (p : Packet) (prec : Nat) (s : State) : Unmetered s (voqAdmit x p prec s) := by
  have h : Unmetered s (admitTo (destVoq x.next) (resultRef x p prec) s).2 := .admitTo (.refl s)
  exact .ite (h.trans (enterOcc_unmetered ..)) h

section
variable {x : PassResult} {p : Packet} {s : State} (hpkt : getPkt s x.pkt = some p) (hkind : (destOf x.next).kind = 1)
include hpkt hkind

theorem voqEnqueue_unicast : voqEnqueue x none s =
    if nodeOk s (destOf x.next).node = true then
      let r := metered x p (putPkt x.pkt (addressed x p) s)
      if dropsRed x r.1 r.2 then (r.1, endRef (resultRef x p 0) (bump .voqGctr 2 0 1 r.2)) else (r.1, voqAdmit x p (r.1.getD green) r.2)
    else (none, endRef (resultRef x p 0) (bump .rtCtr 0 0 1 s)) := by
  cases hnode : nodeOk s (destOf x.next).node with
  | false =>
    simp only [voqEnqueue, hpkt, hkind, hnode, Bool.not_false, and_self, if_true, Bool.false_eq_true, if_false]
    rfl
  | true =>
    simp only [voqEnqueue, hpkt, hkind, hnode, Bool.not_true, Bool.false_eq_true, and_false, if_false, if_true]
    rfl

theorem voqEnqueue_unreachable (hnode : nodeOk s (destOf x.next).node = false) :
    voqEnqueue x none s = (none, endRef (resultRef x p 0) (bump .rtCtr 0 0 1 s)) := by
  rw [voqEnqueue_unicast hpkt hkind, hnode, if_neg Bool.false_ne_true]

theorem voqEnqueue_unmetered (hnode : nodeOk s (destOf x.next).node = true) (hm : x.meter = none) :
    voqEnqueue x none s = (none, voqAdmit x p green (putPkt x.pkt (addressed x p) s)) := by
  have hrun : metered x p (putPkt x.pkt (addressed x p) s) = (none, putPkt x.pkt (addressed x p) s) := by rw [metered, hm]
  have hkeep (u : State) : dropsRed x none u = false := by rw [dropsRed, hm]
  rw [voqEnqueue_unicast hpkt hkind, if_pos hnode, hrun]
  exact if_neg (by simp [hkeep])

section
variable {m pre c : Nat} {u : State} (hnode : nodeOk s (destOf x.next).node = true) (hm : x.meter = some (m, pre))
  (hrun : runMeter m pre p.len none (putPkt x.pkt (addressed x p) s) = (some c, u))
include hnode hm hrun

/-- A metered packet is dropped where its meter says so. -/
theorem voqEnqueue_metered : voqEnqueue x none s = if c = red ∧ flag u (obj .meter m) Meter.RED_ACT = false then
    (some c, endRef (resultRef x p 0) (bump .voqGctr 2 0 1 u)) else (some c, voqAdmit x p c u) := by
  have hran : metered x p (putPkt x.pkt (addressed x p) s) = (some c, u) := by rw [metered, hm]; exact hrun
  have hdrop : dropsRed x (some c) u = true ↔ c = red ∧ flag u (obj .meter m) Meter.RED_ACT = false := by simp [dropsRed, hm]
  rw [voqEnqueue_unicast hpkt hkind, if_pos hnode, hran]
  simp only [hdrop]
  rfl

/-- A packet that its meter does not colour red goes on to its VOQ, its colour the drop precedence. -/
theorem voqEnqueue_coloured (hc : c ≠ red) : voqEnqueue x none s = (some c, voqAdmit x p c u) := by
  rw [voqEnqueue_metered hpkt hkind hnode hm hrun, if_neg fun h => hc h.1]

/-- A red packet is dropped where the meter says so (R316). -/
theorem voqEnqueue_red (hc : c = red) (hact : flag u (obj .meter m) Meter.RED_ACT = false) :
    voqEnqueue x none s = (some c, endRef (resultRef x p 0) (bump .voqGctr 2 0 1 u)) := by
  rw [voqEnqueue_metered hpkt hkind hnode hm hrun, if_pos ⟨hc, hact⟩]

end

end

/-- A packet of a lossless class joins its VOQ, and its port's input occupancy grows. -/
theorem voqAdmit_joins {x : PassResult} {p y : Packet} {prec : Nat} {u : State} (hq : destVoq x.next < Config.voqs) (hpkt : getPkt u x.pkt = some y)
    (hless : lossless u (destOf x.next).tc = true) (hspill : (getQ u (destVoq x.next)).spilled = false)
    (hprof : profileOf u (destVoq x.next) = none) : ∃ r : Ref, r.pkt = x.pkt ∧ r.tc = (destOf x.next).tc ∧ r.len = p.len ∧ r.prec = prec ∧
      voqAdmit x p prec u = enterOcc p.arrPort (destOf x.next).tc (billetsOf p.len) (voqJoined (destVoq x.next) r y u) := by
  obtain ⟨-, htier⟩ := getQ_touchAvg (destVoq x.next) u
  obtain ⟨n, hn⟩ := enqueue_voq (q := destVoq x.next) (r := resultRef x p prec) (p := y) (s := touchAvg (destVoq x.next) u) hq rfl
    hpkt (htier.trans hspill) hprof
  refine ⟨voqRef (resultRef x p prec) n (destVoq x.next), rfl, rfl, rfl, rfl, ?_⟩
  rw [voqAdmit, admitTo_lossless (r := resultRef x p prec) hless, hn]
  rfl

section
variable (q : Nat) (r : Ref) (p : Packet) (s : State)

theorem voqJoined_head : (getQ (voqJoined q r p s) q).head = (getQ s q).head ++ [r] := by
  obtain ⟨hhead, -⟩ := getQ_touchAvg q s
  rw [voqJoined, getQ_setQ_self, joined, hhead]

theorem voqJoined_que : (voqJoined q r p s).que.results = s.que.results ∧ (voqJoined q r p s).que.inOcc = s.que.inOcc := by
  have hque := voqCounted_que q (frameLen r) (touchAvg q s)
  exact ⟨congrArg (·.results) hque, congrArg (·.inOcc) hque⟩

theorem voqJoined_pkt : getPkt (voqJoined q r p s) r.pkt = some { p with owner := q } := tabGet?_put_self ..

theorem voqJoined_counted : Safety.Counted .vqCtr q 0 1 s (voqJoined q r p s) :=
  counted_then (counted_since (touchAvg_kept q s) (voqCounted_counted ..) (by decide)) (voqCounted_voqJoined_kept q r p s) (by decide)

theorem voqJoined_kept : Safety.RegsKept (.vqCtr :: Safety.telling) s (voqJoined q r p s) := by
  have hcounted := voqCounted_kept q (frameLen r) (touchAvg q s)
  exact RegsKept.trans (RegsKept.mono (touchAvg_kept q s) (by simp))
    (RegsKept.trans hcounted (RegsKept.mono (voqCounted_voqJoined_kept q r p s) (by simp)))

end

/-- The end of a reference that nothing else holds frees its packet (R285). -/
theorem endRef_frees {x : PassResult} {p p' : Packet} {prec : Nat} {s : State} (h : getPkt s x.pkt = some p) (hl : p.leases = 0)
    (ho : p.owner = ownerNone) :
    endRef (resultRef x p' prec) s = freePacket x.pkt s := by
  have hend := endOwner_frees h hl
  rw [ho] at hend
  exact hend

/-! ## VOQ_ENQUEUE -/

theorem getPkt_offered (x : PassResult) (rest : List PassResult) (p : Packet) (s : State) :
    getPkt (offered x rest p s) x.pkt = some (addressed x p) := tabGet?_put_self ..

theorem offered_kept (x : PassResult) (rest : List PassResult) (p : Packet) (s : State) : Safety.RegsKept [] s (offered x rest p s) := fun _ _ => rfl

/-- The packet offered to its meter: the levels are charged, the colour is counted, and the rest is as it was. -/
theorem offered_metered {s : State} {x : PassResult} {rest : List PassResult} {p : Packet} {m pre c : Nat} {b b' : Bucket}
    (hen : flag s (obj .meter m) Meter.EN = true) (hloose : flag s (obj .meter m) Meter.LOOSE = false)
    (haware : flag s (obj .meter m) Meter.COLOR_AWARE = false) (hb : credited s (obj .meter m) = b)
    (hc : colourOf false false pre p.len b = (c, b')) :
    ∃ v, runMeter m pre p.len none (offered x rest p s) = (some c, v) ∧ tabGet? v.que.buckets (keyNo (obj .meter m)) = some b' ∧
      Safety.Counted .mtCtr m (2 * c) 1 s v ∧ Safety.Counted .mtCtr m (2 * c + 1) p.len s v ∧ getPkt v x.pkt = some (addressed x p) ∧
      Safety.RegsKept (.mtCtr :: Safety.telling) s v := by
  have hrun := runMeter_coloured (s := offered x rest p s) hen hloose haware ((congrArg (colourOf false false pre p.len) hb).trans hc)
  have hsame := offered_kept x rest p s
  refine ⟨coloured m c p.len b' (offered x rest p s), hrun, coloured_bucket .., counted_since hsame (coloured_packets ..) (by decide),
    counted_since hsame (coloured_bytes ..) (by decide), ?_,
    RegsKept.trans (RegsKept.mono hsame (by simp)) (coloured_kept m c p.len b' (offered x rest p s))⟩
  rw [getPkt, coloured_buf]
  exact getPkt_offered x rest p s

theorem twin_congr {l : List ObjTy} {s t : State} (h : Safety.RegsKept l s t) (hl : ObjTy.prCtl ∉ l) : twin t = twin s := by
  simp only [twin, pairOn, flag, RegsKept.rd h (k := prC) hl]

/-- Outside twin mode no record is waited for, and none sent. -/
theorem exec_voqEnqueue {s t : State} {x : PassResult} {rest : List PassResult} {c : Option Nat} (hres : s.que.results = x :: rest)
    (htwin : twin s = false) (hgo : voqEnqueue x none (resultTaken rest s) = (c, t)) (ht : twin t = false) :
    exec .voqEnqueue s = .next t := by
  have hstill : twin (resultTaken rest s) = false := htwin
  show execVoqEnqueue s = _
  unfold resultTaken at hgo hstill
  simp only [execVoqEnqueue, hres, hstill, hgo, ingressRecord, ht, Bool.false_and, Bool.false_eq_true, if_false]

section
variable {s : State} {x : PassResult} {rest : List PassResult} {p : Packet} (hres : s.que.results = x :: rest) (hpkt : getPkt s x.pkt = some p)
  (htwin : twin s = false) (hkind : (destOf x.next).kind = 1)
include hres hpkt htwin hkind

/-- A packet of a lossless class joins a VOQ that has no spill profile. -/
theorem voqEnqueue_joins (hport : (destOf x.next).port < 48) (hnode : nodeOk s (destOf x.next).node = true) (hm : x.meter = none)
    (hless : lossless s (destOf x.next).tc = true) (hspill : (getQ s (destVoq x.next)).spilled = false)
    (hprof : profileOf s (destVoq x.next) = none) : Safety.Gives .voqEnqueue s fun t =>
      ∃ r : Ref, (getQ t (destVoq x.next)).head = (getQ s (destVoq x.next)).head ++ [r] ∧
        r.pkt = x.pkt ∧ r.tc = (destOf x.next).tc ∧ r.len = p.len ∧ r.prec = green ∧ t.que.results = rest ∧
        Safety.Counted .vqCtr (destVoq x.next) 0 1 s t ∧
        (∃ y, getPkt t x.pkt = some y ∧ y.owner = destVoq x.next) ∧
        (p.arrPort < 48 → inOcc t p.arrPort (destOf x.next).tc = inOcc s p.arrPort (destOf x.next).tc + billetsOf p.len) ∧
        Safety.RegsKept (.vqCtr :: .voqGctr :: .lpCtr :: Safety.telling) s t := by
  have hgo : voqEnqueue x none (resultTaken rest s) = (none, voqAdmit x p green (offered x rest p s)) :=
    voqEnqueue_unmetered (s := resultTaken rest s) hpkt hkind hnode hm
  have hoffered := offered_kept x rest p s
  obtain ⟨r, hr, htc, hlen, hprec, hjoin⟩ := voqAdmit_joins (p := p) (prec := green) (u := offered x rest p s) (destVoq_lt hport)
    (getPkt_offered x rest p s) hless hspill hprof
  have hhead := voqJoined_head (destVoq x.next) r (addressed x p) (offered x rest p s)
  have hque := voqJoined_que (destVoq x.next) r (addressed x p) (offered x rest p s)
  have howner := voqJoined_pkt (destVoq x.next) r (addressed x p) (offered x rest p s)
  have hcount := voqJoined_counted (destVoq x.next) r (addressed x p) (offered x rest p s)
  have hkept := voqJoined_kept (destVoq x.next) r (addressed x p) (offered x rest p s)
  rw [hjoin] at hgo
  generalize voqJoined (destVoq x.next) r (addressed x p) (offered x rest p s) = v at *
  obtain ⟨hresults, hocc⟩ := hque
  obtain ⟨hbuf, hqueues, -, hres'⟩ := enterOcc_held p.arrPort (destOf x.next).tc v (billetsOf p.len)
  have henter := enterOcc_kept p.arrPort (destOf x.next).tc v (billetsOf p.len)
  have hall : Safety.RegsKept (.vqCtr :: .voqGctr :: .lpCtr :: Safety.telling) s (enterOcc p.arrPort (destOf x.next).tc (billetsOf p.len) v) :=
    RegsKept.trans (RegsKept.mono hoffered (by simp)) (RegsKept.trans (RegsKept.mono hkept (by decide)) (RegsKept.mono henter (by decide)))
  refine ⟨_, exec_voqEnqueue hres htwin hgo ((twin_congr hall (by decide)).trans htwin), r, ?_, hr, htc, hlen, hprec,
    hres'.trans hresults, counted_then (counted_since hoffered hcount (by decide)) henter (by decide),
    ⟨{ addressed x p with owner := destVoq x.next }, by rw [getPkt, hbuf, ← hr]; exact howner, rfl⟩, fun hp => ?_, hall⟩
  · exact (congrArg (fun l => (tabGet l (destVoq x.next) Queue.empty).head) hqueues).trans hhead
  · rw [inOcc_enterOcc _ v hp, inOcc, hocc]
    rfl

/-- A packet for a node that no link reaches is freed, and counted (R360). -/
theorem voqEnqueue_lost (hnode : nodeOk s (destOf x.next).node = false) (hl : p.leases = 0) (ho : p.owner = ownerNone) :
    Safety.Gives .voqEnqueue s fun t =>
      Safety.Counted .rtCtr 0 0 1 s t ∧ getPkt t x.pkt = none ∧ t.que.queues = s.que.queues ∧
        Safety.RegsKept (.rtCtr :: .bufStatus :: .poolStatus :: Safety.telling) s t := by
  have hgo := voqEnqueue_unreachable (s := resultTaken rest s) hpkt hkind hnode
  have hcount : Safety.RegsKept (.rtCtr :: Safety.telling) s (bump .rtCtr 0 0 1 (resultTaken rest s)) := kept_bump .rtCtr 0 0 1 (resultTaken rest s)
  have hcounted : Safety.Counted .rtCtr 0 0 1 s (bump .rtCtr 0 0 1 (resultTaken rest s)) := counted_bump .rtCtr 0 0 1 (resultTaken rest s) (by decide)
  have hfree := freePacket_beside x.pkt (bump .rtCtr 0 0 1 (resultTaken rest s))
  rw [endRef_frees (p := p) (by rw [getPkt, bump_buf]; exact hpkt) hl ho] at hgo
  have hall : Safety.RegsKept (.rtCtr :: .bufStatus :: .poolStatus :: Safety.telling) s (freePacket x.pkt (bump .rtCtr 0 0 1 (resultTaken rest s))) :=
    RegsKept.trans (RegsKept.mono hcount (by decide)) (RegsKept.mono hfree.kept (by decide))
  refine ⟨_, exec_voqEnqueue hres htwin hgo ((twin_congr hall (by decide)).trans htwin), counted_then hcounted hfree.kept (by decide),
    getPkt_freePacket_self .., ?_, hall⟩
  rw [hfree.queues, bump_que]
  rfl

section
variable {m pre : Nat} {b : Bucket} (hnode : nodeOk s (destOf x.next).node = true) (hm : x.meter = some (m, pre))
  (hen : flag s (obj .meter m) Meter.EN = true) (hloose : flag s (obj .meter m) Meter.LOOSE = false)
  (haware : flag s (obj .meter m) Meter.COLOR_AWARE = false) (hb : credited s (obj .meter m) = b)
include hen hloose haware hb

include hres hpkt htwin hkind hnode hm

/-- A red packet is dropped where the meter says so, and freed. -/
theorem voqEnqueue_dropsRed (hred : b.tp < 1024 * (p.len : Int)) (hact : flag s (obj .meter m) Meter.RED_ACT = false) (hl : p.leases = 0)
    (ho : p.owner = ownerNone) : Safety.Gives .voqEnqueue s fun t =>
      tabGet? t.que.buckets (keyNo (obj .meter m)) = some b ∧ Safety.Counted .mtCtr m 4 1 s t ∧ Safety.Counted .mtCtr m 5 p.len s t ∧
        Safety.Counted .voqGctr 2 0 1 s t ∧ getPkt t x.pkt = none := by
  obtain ⟨v, hrun, hbucket, hpackets, hbytes, hstored, hkept⟩ :=
    offered_metered (x := x) (rest := rest) (pre := pre) hen hloose haware hb (colourOf_red hred)
  have hact' : flag v (obj .meter m) Meter.RED_ACT = false := (congrArg (· == 1) (RegsKept.rd hkept (by simp [obj]) _)).trans hact
  have hgo := voqEnqueue_red (s := resultTaken rest s) hpkt hkind hnode hm hrun rfl hact'
  rw [endRef_frees (p := addressed x p) (by rw [getPkt, bump_buf]; exact hstored) hl ho] at hgo
  have hrest : Unmetered v (freePacket x.pkt (bump .voqGctr 2 0 1 v)) := .freePacket (.bump (.refl v) (by decide))
  have hcount : Safety.Counted .voqGctr 2 0 1 s (bump .voqGctr 2 0 1 v) := counted_from (by decide) (hkept _ (by decide))
  exact ⟨_, exec_voqEnqueue hres htwin hgo (hrest.twin.trans ((twin_congr hkept (by decide)).trans htwin)), by rw [hrest.buckets]; exact hbucket,
    hrest.counted hpackets, hrest.counted hbytes, counted_then hcount (freePacket_beside ..).kept (by decide), getPkt_freePacket_self ..⟩

/-- A packet that its meter colours yellow or green goes on, the levels charged and the colour counted. -/
theorem voqEnqueue_passes {c : Nat} {b' : Bucket} (hc : colourOf false false pre p.len b = (c, b')) (hne : c ≠ red) :
    Safety.Gives .voqEnqueue s fun t =>
      tabGet? t.que.buckets (keyNo (obj .meter m)) = some b' ∧ Safety.Counted .mtCtr m (2 * c) 1 s t ∧
        Safety.Counted .mtCtr m (2 * c + 1) p.len s t := by
  obtain ⟨v, hrun, hbucket, hpackets, hbytes, -, hkept⟩ := offered_metered (x := x) (rest := rest) hen hloose haware hb hc
  have hgo := voqEnqueue_coloured (s := resultTaken rest s) hpkt hkind hnode hm hrun hne
  have hrest := voqAdmit_unmetered x p c v
  exact ⟨_, exec_voqEnqueue hres htwin hgo (hrest.twin.trans ((twin_congr hkept (by decide)).trans htwin)), by rw [hrest.buckets]; exact hbucket,
    hrest.counted hpackets, hrest.counted hbytes⟩

end

end

end Sys2Proof.Machine
end

section
/-! Queues and meters: O42 (R309, R310, R314 to R318, R322, R325, R333, R335, R360). -/
namespace Sys2Proof.Machine

open Sys2Proof

-- The lemmas of this section are elaborated in turn, so that they take no thread, and no stack, each.
set_option Elab.async false

/-- Settles O42, by the lemmas on each operation: what becomes of a pass result, the repetition of PFC, the dequeue that the hierarchy chooses,
a pending class map entry, CLEAR of a bucket pair, and the sampler. -/
theorem queuesAndMeters : Obligations.QueuesAndMeters := by
  unfold Obligations.QueuesAndMeters
  refine ⟨?_, ?_, ?_, ?_, ?_, queueSample_samples⟩
  · intro s x rest p hres hpkt htwin hkind hport
    refine ⟨voqEnqueue_joins hres hpkt htwin hkind hport, ?_, voqEnqueue_lost hres hpkt htwin hkind⟩
    intro m pre b hnode hm hen hloose haware hb
    refine ⟨voqEnqueue_dropsRed hres hpkt htwin hkind hnode hm hen hloose haware hb, fun hp hc => ?_, fun hp hc => ?_⟩
    · exact voqEnqueue_passes (c := yellow) hres hpkt htwin hkind hnode hm hen hloose haware hb (colourOf_yellow hp hc) (by decide)
    · exact voqEnqueue_passes (c := green) hres hpkt htwin hkind hnode hm hen hloose haware hb (colourOf_green hp hc) (by decide)
  · intro p tc s hx
    exact ⟨fun hocc heth hup hsafe hsilent hgate => pfcRefresh_repeats hx hocc ⟨heth, hup, hsafe, hsilent, hgate⟩, pfcRefresh_rests hx⟩
  · intro p e r rest x s hsilent hprot hidle hchan hchoice hhead hspill hpkt hbad hcopies hup hsafe
    exact egressDequeue_sends hsilent hprot hidle hchan hchoice hhead hspill hpkt hbad hcopies hup hsafe
  · intro p tc base log s hnew hbase hlog
    exact ⟨classMapApply_applies hnew hbase hlog, classMapApply_waits hnew⟩
  · intro c addr k s w hfind hty hset
    exact bucketClear_fills s hfind hty hset

end Sys2Proof.Machine
end
